-- ==== Sys2Proof/Word.lean ====
section
/-!
DEFINITION. The word types of the model and the shape of a sparse table: a list of numbered entries, where a number that is not
listed stands for the value the part has at reset.
-/
namespace Sys2Proof

/-- Eight bits: the smallest addressable unit of host and device memory. -/
abbrev Byte := BitVec 8

/-- A 32-bit register or count. -/
abbrev W32 := BitVec 32

/-- A 64-bit register, counter or address as the host writes it. -/
abbrev Word := BitVec 64

/-- A value of the timebase counter, in ticks of 1 ns (R335). -/
abbrev Tick := BitVec 64

/-- A sparse table: entries by number. -/
abbrev Tbl (α : Type) := List (Nat × α)

end Sys2Proof
end

