-- ==== Sys2Proof/Syntax.lean ====
section
/-!
DEFINITION. The commands: one constructor for each row of spec/opcode_table.json. The table names the commands and gives them no
operands; the operands here are what the rule named in each row needs from outside the block (notes/assumptions/1.md).
-/
namespace Sys2Proof

/-- A set-up block of Table 19.1 (R411). -/
inductive BlockId where
  | hostif | ring (r : Fin 1024) | claim (c : Fin 32) | die (d : Fin 4) | hoist | xbar | port (p : Fin 48)
  | routing | coll | time | event | health | security | shuttle
  deriving DecidableEq, Repr

/-- A ring pair, 0 to 1,023, or the issue port of a foreman core, 1,024 + 8 × die + core (R58, R369). -/
abbrev RingNo := Fin 1056

/-- What link training ended with (R38 to R40): the fields of HOSTIF_LINK_STS but for FLIT256, which follows the speed; and what the
host's enumeration then writes in configuration space, Bus Master Enable and the HDMWIN base (notes/assumptions/5.md). -/
structure LinkResult where
  x16 : Bool
  /-- 1 CXL.io only, 2 32 GT/s, 3 64 GT/s (Table 3.9). -/
  speed : BitVec 3
  cache : Bool
  mem : Bool
  bi : Bool
  ide : Bool
  busMaster : Bool
  bar2 : Word
  deriving DecidableEq, Repr

/-- What the governor reads at a window boundary for one die (R26, R28 to R30): the natural rates of its 32 canaries in Mpick/s, the
lowest supply in mV at which the slowest canary would read the pace sought (a property of the die and its temperature, above 850 where
none does), the hottest junction in tenths of a degree, and the mean core current in amperes. -/
structure DieReading where
  canaries : List (BitVec 11)
  needed : BitVec 10
  junction : Int
  current : Nat
  deriving DecidableEq, Repr

/-- What the always-on sensors sample (Table 1.6): voltages in 10 mV, current in 10 mA, power in 1 W, temperatures in 0.1 °C. -/
structure Sensors where
  mainV : Nat
  mainI : Nat
  auxV : Nat
  power : Nat
  inlet : Int
  outlet : Int
  junction : Int
  deriving DecidableEq, Repr

/-- The resource of a loom die that a fault names, by physical number (R385). -/
inductive DieRes where
  | lane (p : Fin 66)
  | core (p : Fin 9)
  deriving DecidableEq, Repr

/-- What a scrub of a line or word finds (R231 to R233). -/
inductive ScrubResult where
  | clean
  /-- corrected; for a deep line, the pseudo-channel that was in error -/
  | corrected (channel : Fin 19)
  | uncorrectable
  /-- a deep line that cannot be corrected because its whole stack is lost -/
  | stackLost
  deriving DecidableEq, Repr

/-- A meter of Table 11.2. -/
inductive Meter where
  | deep (d : Fin 4) | hoist (d : Fin 4) | fabric (cls : Fin 6) | coll
  deriving DecidableEq, Repr

/-- A fabric packet: its 32-byte header as a little-endian number (Table 12.3), its payload, and what its TAIL flit said. -/
structure Packet where
  hdr : BitVec 256
  payload : List Byte
  /-- PKT_RETRIED -/
  retried : Bool
  /-- ABORT -/
  abort : Bool
  deriving DecidableEq, Repr

/-- What a fabric port's training ended with (R264, R265, R275): the lanes that trained, the one-way delay in ticks, what the peer
reported of itself, and whether the peer knows another module under this one's coordinate or logical ID (R266). -/
structure TrainResult where
  lanes : BitVec 4
  delay : Nat
  domain : BitVec 16
  phys : BitVec 20
  port : BitVec 6
  duplicate : Bool
  deriving DecidableEq, Repr

/-- The commands, in the order of spec/opcode_table.json. -/
inductive Instr where
  /-- ALWAYS_ON_POWER_UP (R399). The always-on domain gains power: the sequencer powers management, enters AUX_ONLY, and the mask ROM regenerates the identity from the PUF and waits for Kolti. -/
  | alwaysOnPowerUp (mated mainOk auxOk identityOk : Bool) (noCopy : BitVec 5)
  /-- ALL_POWER_REMOVED (R20). Every supply is removed: all state except the signed store is lost. -/
  | allPowerRemoved
  /-- MAIN_POWER_UP_REQUEST (R16). Kolti requests main power-up once MAIN_OK is set and PWR_WARN_N has been high for 10 ms; PSTATE becomes MAIN_SEQUENCING and the hub switching domain turns on. -/
  | mainPowerUpRequest
  /-- HUB_SELF_TEST_DONE (R16). The hub switching-domain self-test completes and the fabric ports begin training. -/
  | hubSelfTestDone
  /-- LOOM_DIE_DOMAIN_ON (R16). At its fixed 2,000,000-tick step, the sequencer turns on the next loom-die domain and its stacks. -/
  | loomDieDomainOn (d : Fin 4)
  /-- SEQUENCING_RETRY (R6). Inrush folds back and stalls a domain; the sequencer retries it up to three times, then leaves it off and raises an alarm. -/
  | sequencingRetry (dom : Fin 5)
  /-- DIE_READY (R16). A loom die completes DRAM training and lane self-test with its supply settled, and reports ready; Kolti enables it. -/
  | dieReady (d : Fin 4) (slowest : BitVec 11) (junction : Int)
  /-- PSTATE_RUNNING (R414). Kolti finalises the capability block, sets PSTATE RUNNING, and the always-on domain sets ARMED. -/
  | pstateRunning
  /-- AUX_INPUT_LOW (R5). The auxiliary input falls below 10.8 V: management switches to the internal path, AUX_FROM_MAIN is set and an alarm is raised. -/
  | auxInputLow
  /-- AUX_INPUT_RECOVERED (R5). The auxiliary input has held 11.4 V or more for 100 ms: management switches back and AUX_FROM_MAIN clears. -/
  | auxInputRecovered
  /-- MAIN_UNDERVOLTAGE (R22). The main input falls below 39.0 V and the module starts the emergency quiesce by itself. -/
  | mainUndervoltage (aonHeld : Bool)
  /-- MAIN_OVERVOLTAGE (R22). The main input exceeds 64 V: the input protection opens and the event is treated as a main loss. -/
  | mainOvervoltage (aonHeld : Bool)
  /-- MAIN_PROTECTION_CLOSE (R22). The main input has read 40 to 60 V for 100 ms: the protection closes and MAIN_OK sets. -/
  | mainProtectionClose
  /-- MATED_N_HIGH (R7). MATED_N goes high while a main domain is on, and the module treats it as a main loss without warning. -/
  | matedNHigh (aonHeld : Bool)
  /-- MATED_N_SETTLED (R7). MATED_N has stayed low for 100 ms, so the sequencer allows main domains on. -/
  | matedNSettled
  /-- PWR_WARN_ASSERTED (R19). PWR_WARN_N is recognised low: the emergency quiesce starts, or the sequencing is undone when PSTATE is MAIN_SEQUENCING. -/
  | pwrWarnAsserted (mainHeld aonHeld : Bool)
  /-- COLD_START_ARM (R21). A write to HEALTH_COLD_START with the key and STEP ARM arms a cold start. -/
  | coldStartArm
  /-- COLD_START_GO (R21). A GO within 1 ms of ARM quiesces the module, resets it to AUX_ONLY and waits for a Kolti image. -/
  | coldStartGo
  /-- COLD_START_ARM_EXPIRY (R21). 1 ms passes after an ARM without a GO, and the ARM lapses. -/
  | coldStartArmExpiry
  /-- DIE_THERMAL_TRIP (R14). A loom die reaches 100 °C: its domain is removed, THERM_N asserts and the die is contained. -/
  | dieThermalTrip (d : Fin 4)
  /-- HUB_THERMAL_TRIP (R14). The hub reaches 100 °C: the switching and loom-die domains go off, blocks outside management stop with 0xF6, and PSTATE returns to MGMT_UP. -/
  | hubThermalTrip
  /-- MGMT_THERMAL_TRIP (R14). The management domain reaches the trip, and the always-on domain holds the module in AUX_ONLY. -/
  | mgmtThermalTrip
  /-- THERM_CLEAR (R14). Every tripped die reads below 85 °C and THERM_N deasserts. -/
  | thermClear
  /-- COOLANT_INLET_HOT (R13). The coolant inlet exceeds 40 °C and a health alarm is raised. -/
  | coolantInletHot
  /-- LOW_FLOW (R13). The outlet is more than 16 °C above the inlet and a low-flow alarm is raised. -/
  | lowFlow
  /-- I3C_ADDRESS_WRITE (R11). An I3C private write sets the register address, or is NACKed when it is longer than one byte or names an odd address. -/
  | i3cAddressWrite (data : List Byte)
  /-- I3C_READ (R11). An I3C private read returns the 16-bit telemetry items from the addressed register onward. -/
  | i3cRead (n : Nat)
  /-- I3C_DYNAMIC_ADDRESS (R10). Dynamic address assignment overrides the strapped static address. -/
  | i3cDynamicAddress (a : BitVec 7)
  /-- CXL_REFCLK_LOST (R9). CXL_REFCLK is lost while the link is up, and the link goes down within 10 µs. -/
  | cxlRefclkLost
  /-- TIMEREF_BAD (R9). TIMEREF becomes absent or leaves ±200 ppm: the timebase free-runs and the alignment state goes FREE. -/
  | timerefBad
  /-- TIMEREF_GOOD (R339). A valid TIMEREF returns and the alignment state leaves FREE. -/
  | timerefGood
  /-- HOST_LINK_UP (R39). The CXL link trains to the highest rate and widest width it supports, or settles as a plain PCIe endpoint. -/
  | hostLinkUp (l : LinkResult)
  /-- HOST_LINK_DOWN (R50). The link is lost: the host interface goes OFF with AUTO_STOP, intake stops and records are held. -/
  | hostLinkDown
  /-- LINK_TRAIN_RETRY (R39). A 100 ms retry timer expires while the link is down, and training is retried. -/
  | linkTrainRetry (clock : Bool)
  /-- PERST_ASSERT (R49). PERST_N goes low: the host interface goes OFF with cause 0x0108 and configuration space resets. -/
  | perstAssert
  /-- PERST_DEASSERT (R15). PERST_N rises, and link training starts once the supply has been in range for 100 ms. -/
  | perstDeassert
  /-- HOT_RESET (R49). A hot reset resets configuration space and moves the host interface to OFF with cause 0x0105. -/
  | hotReset
  /-- FLR (R49). A function-level reset resets configuration space and moves the host interface to OFF with cause 0x0106. -/
  | flr
  /-- CXL_RESET (R49). A CXL Reset resets configuration space and moves the host interface to OFF with cause 0x0107. -/
  | cxlReset
  /-- GLOBAL_PERSISTENT_FLUSH (R38). A Global Persistent Flush is acknowledged and does nothing. -/
  | globalPersistentFlush
  /-- HDM_COMMIT (R42). A Commit to an HDM decoder is checked, and the decoder is committed or sets Error Not Committed with a reason. -/
  | hdmCommit (dec : Fin 2) (base size dpa : Word) (ways : BitVec 4)
  /-- HDMWIN_READ (R44). A host read through HDMWIN outside every decoder is served from device memory, or returns zeros for an unmapped or LOST address. -/
  | hdmwinRead (off : BitVec 42) (n : Nat) (bad : Bool)
  /-- HDMWIN_WRITE (R44). A host write through HDMWIN outside every decoder lands in device memory, or is discarded for an unmapped or LOST address. -/
  | hdmwinWrite (off : BitVec 42) (data : List Byte) (bad : Bool)
  /-- DOORBELL_SNOOP (R46). A snoop invalidates a held doorbell line; the module releases it and issues a fresh read within 200 ticks. -/
  | doorbellSnoop (r : Fin 1024)
  /-- DOORBELL_POLL (R47). The POLL_US timer expires and the module reads the ring's doorbell line. -/
  | doorbellPoll (r : Fin 1024)
  /-- DOORBELL_READ_RETURN (R64). A doorbell line read returns; the four count checks run, and the new SQ_TAIL and CQ_HEAD are taken or the ring stops. -/
  | doorbellReadReturn (r : Fin 1024) (line : Option (List Byte))
  /-- MSIX_UNMASK (R48). A vector is unmasked or MSI-X is enabled, and the pending messages are sent. -/
  | msixUnmask (v : Option (Fin 2048))
  /-- ENABLE_SET (R54). A write of ENABLE = 1 to a block acts as Table 3.7 states for the block's STATE. -/
  | enableSet (b : BlockId)
  /-- ENABLE_CLEAR (R54). A write of ENABLE = 0 abandons a check, returns a REFUSED block to OFF, or moves a RUNNING block to QUIESCING. -/
  | enableClear (b : BlockId)
  /-- ENABLE_CHECK_DONE (R55). A block's consistency check ends in RUNNING or in REFUSED with a reason. -/
  | enableCheckDone (b : BlockId)
  /-- BLOCK_REACHES_OFF (R57). A QUIESCING block's work has stopped and the block reaches OFF. -/
  | blockReachesOff (b : BlockId)
  /-- REGISTER_WRITE (R4). A write to a register with no row of its own, including reserved and W1C fields, takes effect per its access type. -/
  | registerWrite (off : BitVec 24) (size : Nat) (v : Word)
  /-- DESCRIPTOR_FETCH (R69). The module fetches a descriptor covered by a valid tail and checks its ring, opcode, header bits and tallies. -/
  | descriptorFetch (r : Fin 1024) (desc : Option (BitVec 512))
  /-- DESCRIPTOR_START (R73). A descriptor whose order, wait, epoch and buffer-entry conditions hold starts its op after the pre-start checks. -/
  | descriptorStart (r : RingNo)
  /-- OP_COMPLETE (R73). An op finishes: its writes are made visible and its header signal is applied. -/
  | opComplete (r : RingNo) (count : W32)
  /-- RECORD_POST (R65). A completion record is posted when there is room in the completion ring, and its buffer entry is freed. -/
  | recordPost (r : RingNo) (ok : Bool)
  /-- RING_IRQ_TIMEOUT (R67). TIMEOUT µs pass after the first unsignalled record, and the ring's vector is raised. -/
  | ringIrqTimeout (r : Fin 1024)
  /-- DEADLINE_REACHED (R95). A descriptor's deadline tick is reached: an unstarted descriptor completes DEADLINE_MISSED, or a started op applies its deadline meaning. -/
  | deadlineReached (r : RingNo) (count : W32)
  /-- NOP (R81). The NOP op does nothing beyond its header wait and signal. -/
  | nop (r : RingNo) (count : W32)
  /-- FENCE (R82). The FENCE op completes when every descriptor in its ring or claim scope has completed. -/
  | fence (r : RingNo) (count : W32)
  /-- TALLY_SIGNAL (R80). The TALLY_SIGNAL op adds to or sets a tally's count and serves waiters. -/
  | tallySignal (r : RingNo) (count : W32)
  /-- TALLY_WAIT (R78). The TALLY_WAIT op waits for its tally condition, then consumes and completes. -/
  | tallyWait (r : RingNo) (count : W32)
  /-- REPEAT_BY (R85). The REPEAT_BY op reads a trip count and runs its body min(N, MAX_TRIPS) times. -/
  | repeatBy (r : RingNo) (count : W32)
  /-- SKIP_IF (R84). The SKIP_IF op reads a value, evaluates its condition, and skips the next SKIP_LEN descriptors if it is true. -/
  | skipIf (r : RingNo) (count : W32)
  /-- TIMESTAMP (R83). The TIMESTAMP op writes the 64-bit timebase value of its start tick to DEST. -/
  | timestamp (r : RingNo) (count : W32)
  /-- MATMUL (R132). The MATMUL op computes Y = X·W on the claim's lanes with exact windows and one drain per tile. -/
  | matmul (r : RingNo) (count : W32)
  /-- CONV (R133). The CONV op performs a forward convolution or weight gradient by gathered stationary loads. -/
  | conv (r : RingNo) (count : W32)
  /-- SPMM (R201). The SPMM op multiplies a dense input by weights that may be structured 2:4 or zero-run sparse. -/
  | spmm (r : RingNo) (count : W32)
  /-- FINISH (R136). The FINISH op applies an element-wise, row, scatter or gather function on the finishing unit. -/
  | finish (r : RingNo) (count : W32)
  /-- RNG_FILL (R140). The RNG_FILL op fills a tensor from the Philox generator in element-keyed or lane-keyed mode. -/
  | rngFill (r : RingNo) (count : W32)
  /-- ASSAY (R144). The ASSAY op scores router logits, selects each token's candidates and writes weighted triples. -/
  | assay (r : RingNo) (count : W32)
  /-- SLUICE (R153). The SLUICE op sorts triples into per-expert lists under capacity and writes counts, routes and occupancy. -/
  | sluice (r : RingNo) (count : W32)
  /-- DISPATCH (R177). The DISPATCH op sends COUNT messages, arms, sends rows to the experts' holders and lands incoming rows. -/
  | dispatch (r : RingNo) (count : W32)
  /-- RETURN_SLOT (R187). The RETURN_SLOT op sends expert results to their origins, which land them in fixed slots. -/
  | returnSlot (r : RingNo) (count : W32)
  /-- RETURN_ACCUM (R188). The RETURN_ACCUM op sends results that the origin adds, weighted, into ACCBUF in arrival order. -/
  | returnAccum (r : RingNo) (count : W32)
  /-- COMBINE (R189). The COMBINE op sums BASE and the weighted slotted results in fixed rank order. -/
  | combine (r : RingNo) (count : W32)
  /-- CANCEL_BATCH (R190). The CANCEL_BATCH op advances a slot's epoch and disarms the old epoch's result contexts. -/
  | cancelBatch (r : RingNo) (count : W32)
  /-- HOIST (R220). The HOIST op reserves near chunks and moves the named units to the near tier. -/
  | hoist (r : RingNo) (count : W32)
  /-- SETTLE (R220). The SETTLE op moves the named units to the deep tier. -/
  | settle (r : RingNo) (count : W32)
  /-- PLACE (R222). The PLACE op changes an object's policy and moves its units to the homes the new policy demands. -/
  | place (r : RingNo) (count : W32)
  /-- COPY (R223). The COPY op copies bytes or tiles, with optional ore recoding. -/
  | copy (r : RingNo) (count : W32)
  /-- REMOTE_PUT (R302). The REMOTE_PUT op sends local data in chunks to a remote region. -/
  | remotePut (r : RingNo) (count : W32)
  /-- REMOTE_GET (R302). The REMOTE_GET op requests chunks of a remote region and lands them locally. -/
  | remoteGet (r : RingNo) (count : W32)
  /-- REMOTE_ATOMIC (R303). The REMOTE_ATOMIC op sends one atomic request to a remote region and may fetch the old value. -/
  | remoteAtomic (r : RingNo) (count : W32)
  /-- COLL_ALLREDUCE (R325). The COLL_ALLREDUCE op reduces every member's vector over the group tree and delivers the result to all members. -/
  | collAllreduce (r : RingNo) (count : W32)
  /-- COLL_REDUCE_SCATTER (R325). The COLL_REDUCE_SCATTER op reduces over the tree and sends each rank its slice. -/
  | collReduceScatter (r : RingNo) (count : W32)
  /-- COLL_ALLGATHER (R325). The COLL_ALLGATHER op gathers every rank's data to all members, placed by rank. -/
  | collAllgather (r : RingNo) (count : W32)
  /-- COLL_BCAST_LINE (R326). The COLL_BCAST_LINE op multicasts the line root's data along one row or column. -/
  | collBcastLine (r : RingNo) (count : W32)
  /-- COLL_BARRIER (R327). The COLL_BARRIER op sends ARRIVE up the group tree and completes on the release tick. -/
  | collBarrier (r : RingNo) (count : W32)
  /-- PERMIT_ISSUE (R25). The pace gate's accumulator reaches 1,000 and issues one permit to every active lane, banking up to 16. -/
  | permitIssue (d : Fin 4) (stalled short : BitVec 64)
  /-- GOVERNOR_WINDOW (R28). At each 1,024-tick window the governor reads the canaries and power and sets each die's supply and effective pace. -/
  | governorWindow (dies : List DieReading) (hub : List (BitVec 11)) (power : Nat)
  /-- GOV_CTL_WRITE (R31). A write to LD_GOV_CTL changes the governor mode at the next window, or is rejected. -/
  | govCtlWrite (d : Fin 4) (v : W32)
  /-- GOV_PACE_WRITE (R31). A write to LD_GOV_PACE sets the pace setpoint at the next window, or is rejected. -/
  | govPaceWrite (d : Fin 4) (v : W32)
  /-- GOV_VRANGE_WRITE (R34). A write to LD_GOV_VRANGE sets the voltage range at the next window, or is rejected. -/
  | govVrangeWrite (d : Fin 4) (v : W32)
  /-- GOV_SUPPLY_WRITE (R32). A write to LD_GOV_SUPPLY sets the fixed supply at the next window, or is rejected. -/
  | govSupplyWrite (d : Fin 4) (v : W32)
  /-- POWER_CAP_WRITE (R28). A write to HEALTH_PWR_CAP sets the module power cap at the next window, or is ignored and logged. -/
  | powerCapWrite (v : W32)
  /-- COUNTER_SNAP (R36). SNAP latches all the die's counters and the snapshot tick at the next tick boundary. -/
  | counterSnap (d : Fin 4) (clear : Bool)
  /-- COUNTER_CLEAR (R36). CLEAR zeroes the die's counters at the next tick boundary, after any latch. -/
  | counterClear (d : Fin 4)
  /-- LANE_FAULT (R385). A lane or foreman core detects a fault: its op ends with HARDWARE_FAULT and substitution or withdrawal follows. -/
  | laneFault (d : Fin 4) (res : DieRes) (op : Option (RingNo × W32))
  /-- SPARE_SELF_TEST_DONE (R384). A spare's self-test ends: it takes the failed logical number, or is recorded as failed and the next spare is tried. -/
  | spareSelfTestDone (d : Fin 4) (core : Bool) (pass : Bool)
  /-- SHUTTLE_COUNT (R177). A COUNT message arrives: its set summary is compared, it is held or taken, and arming follows once every member's COUNT is held. -/
  | shuttleCount (p : Packet)
  /-- SHUTTLE_ARMED (R177). An ARMED message arrives, and rows may be sent to that member. -/
  | shuttleArmed (p : Packet)
  /-- SHUTTLE_REFUSE (R176). A REFUSE arrives and the DISPATCH completes with OPERAND_REFUSED. -/
  | shuttleRefuse (p : Packet)
  /-- SHUTTLE_ROWS (R178). A row packet lands in its slot's landing tensor with its tag, or is discarded for a stale epoch. -/
  | shuttleRows (p : Packet)
  /-- SHUTTLE_RESULT (R186). A result packet lands in SLOTBUF or ACCBUF, or is discarded; RTALLY is signalled when all results have landed. -/
  | shuttleResult (p : Packet)
  /-- SHUTTLE_ACK (R185). An ACK for a row or result arrives, and the exchange op completes when all are acknowledged. -/
  | shuttleAck (p : Packet)
  /-- SHUTTLE_ARM_TIMEOUT (R177). ARM_TIMEOUT passes without a member's COUNT or ARMED, and the op completes with REMOTE_FAILED. -/
  | shuttleArmTimeout (c : Fin 32) (ch : Fin 64)
  /-- OBJ_CREATE (R215). The CREATE object command checks the staged entry and moves the object to CREATING. -/
  | objCreate
  /-- OBJ_CREATE_DONE (R215). Zero-fill or reservation ends and the object becomes READY. -/
  | objCreateDone (n : Fin 262144)
  /-- OBJ_DESTROY (R216). The DESTROY object command moves a READY or LOST object to DYING. -/
  | objDestroy
  /-- OBJ_QUERY (R212). The QUERY object command fills HOIST_OBJ_ENTRY and HOIST_OBJ_INFO. -/
  | objQuery
  /-- MOVE_COMMIT (R218). A unit's move commits once the old home's reads finish; the new home becomes the only home and waiting accesses are served. -/
  | moveCommit (n : Fin 262144) (unit : Nat)
  /-- HOIST_EVALUATION (R225). Every 1,024 ticks the hoist engine promotes hot AUTO units, makes room and demotes cold ones. -/
  | hoistEvaluation (d : Fin 4)
  /-- HEAT_HALVING (R224). HEAT_PERIOD expires and every heat count is halved. -/
  | heatHalving
  /-- PATROL_SCRUB (R232). Patrol scrub reads a line or word and rewrites it if corrected. -/
  | patrolScrub (d : Fin 4) (near : Bool) (off : BitVec 42) (res : ScrubResult)
  /-- LD_TIER_AUTO_WRITE (R226). A write to LD_TIER_AUTO sets ACTIVE or FROZEN, or is rejected under Fixed-Pace. -/
  | ldTierAutoWrite (d : Fin 4) (v : W32)
  /-- HOIST_CFG_WRITE (R238). A write to HOIST_CFG sets the own-decision parameters, or is ignored with REJECT. -/
  | hoistCfgWrite (v : W32)
  /-- FRAME_START (R247). A frame's first tick: each claim's budgets are computed, debts applied and last-frame meter values latched. -/
  | frameStart
  /-- METER_ADMIT (R252). A waiting request is admitted by its meter as an owner or borrower request and charged. -/
  | meterAdmit (m : Meter)
  /-- CLAIM_PREEMPT (R255). The PREEMPT command stops the claim's rings and waits for its ops to reach stopping points. -/
  | claimPreempt (c : Fin 32) (inside : Bool)
  /-- PREEMPT_SAVE (R256). The claim's ops have stopped: the context is written, lanes and cores are released and PSTATE becomes PREEMPTED. -/
  | preemptSave (c : Fin 32)
  /-- PREEMPT_TIMEOUT (R256). CLAIM_PREEMPT_TO expires and the pre-emption is abandoned with 0x0305. -/
  | preemptTimeout (c : Fin 32)
  /-- CLAIM_RESTORE (R259). The RESTORE command checks and loads a context onto a new shape and resumes the claim. -/
  | claimRestore (c : Fin 32)
  /-- CLAIM_RESTORE_RESTART (R260). RESTORE with RESTART skips the shape check and restarts each interrupted op from its first pick. -/
  | claimRestoreRestart (c : Fin 32)
  /-- CLAIM_SHARE_WRITE (R243). A write to CLAIM_SHARE0 or CLAIM_SHARE1 sets weights for the next frame, or is rejected. -/
  | claimShareWrite (c : Fin 32) (second : Bool) (v : W32)
  /-- CLAIM_CFG_WRITE (R243). A write to CLAIM_CFG sets BORROW for the next frame, or is rejected. -/
  | claimCfgWrite (c : Fin 32) (v : W32)
  /-- CLAIMS_FRAME_WRITE (R246). A write to CLAIMS_FRAME sets the frame length from the next frame, or is rejected. -/
  | claimsFrameWrite (v : W32)
  /-- CLAIMS_LEND_WRITE (R253). A write to CLAIMS_LEND sets the lending mode, or is rejected under Fixed-Pace. -/
  | claimsLendWrite (v : W32)
  /-- CLAIM_METER_SEL_WRITE (R261). A write to CLAIM_METER_SEL selects the meter shown, or is ignored when out of range. -/
  | claimMeterSelWrite (c : Fin 32) (v : W32)
  /-- FABRIC_LINK_UP (R275). A fabric port finishes training: it comes up UP4 or UP3, or becomes MISWIRED, TOO_LONG or stays TRAINING. -/
  | fabricLinkUp (p : Fin 48) (t : TrainResult)
  /-- PORT_RETRAIN (R275). A port's retry timer expires and it retrains. -/
  | portRetrain (p : Fin 48)
  /-- FLIT_RECEIVE (R273). A flit arrives: it is accepted, or refused on a CRC failure and a NAK is sent. -/
  | flitReceive (p : Fin 48) (b : List Byte)
  /-- FLIT_NAK (R273). A NAK arrives and the sender replays every unacknowledged flit from the named one. -/
  | flitNak (p : Fin 48) (seq : BitVec 12)
  /-- LINK_RETRY_EXHAUSTED (R274). A flit reaches RETRY_LIMIT replays: the port drops to three lanes or goes DOWN with discards and notices. -/
  | linkRetryExhausted (p : Fin 48) (lane : Option (Fin 4))
  /-- LINK_ACK_TIMEOUT (R274). No flit is acknowledged for LINK_TO µs, and the link degrades or goes down. -/
  | linkAckTimeout (p : Fin 48) (lane : Option (Fin 4))
  /-- LEAVING_NOTICE_RECEIVE (R274). A leaving notice from a quiescing peer takes the link DOWN at once. -/
  | leavingNoticeReceive (p : Fin 48)
  /-- LOOPBACK_DONE (R388). The 100 µs loopback of a dropped lane ends and sets condition 7 or a link alarm only. -/
  | loopbackDone (p : Fin 48) (pass : Bool)
  /-- PACKET_FORWARD (R276). A hub routes a packet by warp, weft, span or detour toward its target, or discards it with a notice. -/
  | packetForward (p : Option (Fin 48)) (k : Packet)
  /-- PACKET_INGRESS (R270). A packet reaches its destination hub; header, address and tag checks pass or discard it before handing it to its engine. -/
  | packetIngress (k : Packet)
  /-- NOTICE_RECEIVE (R281). A discard notice arrives and the originating op completes with REMOTE_FAILED. -/
  | noticeReceive (k : Packet)
  /-- DELIVERY_CONFIRM (R277). A detour delivery confirmation reaches the diverter, which may release a held FENCE packet. -/
  | deliveryConfirm (src dst : BitVec 20) (cls : BitVec 3)
  /-- RT_L2P_DATA_WRITE (R269). A write of RT_L2P_DATA atomically writes the selected logical-to-physical entry, with optional auto-increment. -/
  | rtL2pDataWrite (v : W32)
  /-- RT_L2P_DATA_READ (R285). A read of RT_L2P_DATA returns the selected entry and auto-increments INDEX if AUTOINC is set. -/
  | rtL2pDataRead
  /-- RT_SPAN_DATA_WRITE (R269). A write of RT_SPAN_DATA atomically writes the selected span entry, with optional auto-increment. -/
  | rtSpanDataWrite (v : Word)
  /-- RT_SPAN_DATA_READ (R285). A read of RT_SPAN_DATA returns the selected entry and auto-increments INDEX if AUTOINC is set. -/
  | rtSpanDataRead
  /-- RT_ADAPT_WRITE (R285). A write to RT_ADAPT sets the detour threshold and mode, or is rejected. -/
  | rtAdaptWrite (v : W32)
  /-- PLANE_RETIRE (R287). A crossbar plane with errors is retired, its packets are resent on the surviving plane, and the module goes DEGRADED. -/
  | planeRetire (b : Bool)
  /-- XBAR_PLANE_CTL_WRITE (R287). A write to XBAR_PLANE_CTL selects AUTO or idles a plane, or is rejected. -/
  | xbarPlaneCtlWrite (v : W32)
  /-- XBAR_CLASS_SHARE_WRITE (R306). A write to XBAR_CLASS_SHARE sets the class shares for the next frame, or is rejected. -/
  | xbarClassShareWrite (v : Word)
  /-- XBAR_RED_WRITE (R306). A write to an XBAR_RED profile sets the drop parameters, or is rejected. -/
  | xbarRedWrite (i : Fin 3) (v : W32)
  /-- DE_ARRIVAL (R293). A drop-eligible packet reaches an output's DE queue, which updates its average and may drop the packet. -/
  | deArrival (p : Fin 48) (k : Packet)
  /-- PUT_RECEIVE (R299). A PUT chunk is checked against its region and written, then ACKed, or NAKed. -/
  | putReceive (k : Packet)
  /-- GET_REQ_RECEIVE (R299). A GET_REQ is checked and answered with GET_DATA, or NAKed. -/
  | getReqReceive (k : Packet) (n : Nat)
  /-- ATOMIC_REQ_RECEIVE (R303). An ATOMIC_REQ is checked and performed as one read-modify-write, then answered. -/
  | atomicReqReceive (k : Packet)
  /-- GET_DATA_RECEIVE (R302). A GET_DATA chunk lands at its local address. -/
  | getDataReceive (k : Packet)
  /-- ATOMIC_RSP_RECEIVE (R303). An ATOMIC_RSP arrives and the fetched value lands at RESULT. -/
  | atomicRspReceive (k : Packet)
  /-- REMOTE_ACK_RECEIVE (R300). A remote ACK arrives for a PUT chunk. -/
  | remoteAckReceive (k : Packet)
  /-- REMOTE_NAK_RECEIVE (R299). A remote NAK arrives and the op completes with PERMISSION_FAULT or DATA_LOST. -/
  | remoteNakReceive (k : Packet)
  /-- DE_TIMEOUT (R294). A droppable op lacks an answer DE_TO µs after its last packet and completes with REMOTE_FAILED 0xFFFE. -/
  | deTimeout (op : Fin 64)
  /-- REM_TIMEOUT (R295). A non-droppable op receives no answer for REM_TO ms and completes with REMOTE_FAILED 0xFFFD. -/
  | remTimeout (op : Fin 64)
  /-- RGN_WRITE (R298). The region WRITE command writes the staged region entry, or is refused with a reason. -/
  | rgnWrite
  /-- RGN_INVALIDATE (R298). The region INVALIDATE command clears an entry's VALID. -/
  | rgnInvalidate
  /-- RGN_READ (R298). The region READ command fills XBAR_RGN_DATA with the selected entry. -/
  | rgnRead
  /-- GRP_DEFINE (R310). The DEFINE command makes a group slot VALID with the staged entry, or is refused. -/
  | grpDefine
  /-- GRP_RELEASE (R310). The RELEASE command makes a VALID group slot FREE, or is refused. -/
  | grpRelease
  /-- GRP_READ (R309). The READ command fills COLL_GRP_DATA with the selected slot's entry. -/
  | grpRead
  /-- COLL_UP_RECEIVE (R313). A child's UP data lands and is added in fixed order; windows are extended and partials are sent up. -/
  | collUpReceive (k : Packet)
  /-- COLL_DOWN_RECEIVE (R314). Result data lands, is written to DST and forwarded by multicast. -/
  | collDownReceive (k : Packet)
  /-- COLL_WINDOW_RECEIVE (R316). A WINDOW grant or extension arrives and lets the child send more elements. -/
  | collWindowReceive (k : Packet)
  /-- COLL_PRESENT_RECEIVE (R323). A present marker arrives and the child counts as exact zeros or as absent. -/
  | collPresentReceive (k : Packet)
  /-- COLL_ABORT_RECEIVE (R330). An ABORT arrives; the op aborts with GROUP_ABORTED and the ABORT is forwarded. -/
  | collAbortReceive (k : Packet)
  /-- COLL_TIMEOUT (R330). No packet of the op arrives for the group's TO µs and the op aborts with cause 1. -/
  | collTimeout (slot : Fin 64)
  /-- TIMING_EXCHANGE (R338). Every 125 µs a follower sends a timing request to its upstream. -/
  | timingExchange
  /-- TIMING_REQUEST_RECEIVE (R338). The upstream stamps a timing request and answers with its state and depth. -/
  | timingRequestReceive (p : Fin 48)
  /-- TIMING_ANSWER_RECEIVE (R338). A follower computes θ from a timing answer, slews or steps its counter, and updates its alignment state. -/
  | timingAnswerReceive (t1 t2 t3 t4 : Word) (up : Fin 4) (depth : BitVec 3)
  /-- TIMING_EXCHANGE_MISSED (R339). Four exchanges are missed or the upstream link goes down, and a LOCKED follower enters HOLDOVER. -/
  | timingExchangeMissed
  /-- SYNC_ARM (R341). A write of TIME_SYNC_CTL.ARM on a ROOT arms a counter load on the next SYNC_PULSE. -/
  | syncArm
  /-- SYNC_PULSE (R341). A SYNC_PULSE rising edge loads TIME_SYNC_LOAD on an armed ROOT, or sets SYNC_IGNORED. -/
  | syncPulse
  /-- BARRIER_ARRIVE_RECEIVE (R343). An ARRIVE lands; once all are in, the node sends ARRIVE up, or the root sends RELEASE. -/
  | barrierArriveReceive (gid seq : BitVec 16) (src : BitVec 20)
  /-- BARRIER_RELEASE_RECEIVE (R343). A RELEASE lands: the node computes its release tick and forwards RELEASE. -/
  | barrierReleaseReceive (p : Fin 48) (gid seq : BitVec 16) (src : BitVec 20) (scheduled : Bool) (value : Word)
  /-- BARRIER_RELEASE_TICK (R345). The computed or scheduled release tick arrives and COLL_BARRIER completes. -/
  | barrierReleaseTick (slot : Fin 64)
  /-- TAG_ASSIGN (R348). The ASSIGN command binds a tag to a claim, or is refused. -/
  | tagAssign
  /-- TAG_UNASSIGN (R348). The UNASSIGN command returns an ASSIGNED tag to FREE. -/
  | tagUnassign
  /-- TAG_REVOKE (R348). The REVOKE command moves a STARTING or ACTIVE tag to DRAINING. -/
  | tagRevoke
  /-- TAG_QUERY (R348). The QUERY command fills TIME_TAG_RES with the tag's state and claim. -/
  | tagQuery
  /-- JOB_START (R349). The START job command on the root advances ATTEMPT and sends START down the primary tree. -/
  | jobStart (tag : BitVec 16) (slot : Fin 64)
  /-- JOB_TEARDOWN (R351). The TEARDOWN job command sends REVOKE down both trees. -/
  | jobTeardown (tag : BitVec 16) (slot : Fin 64)
  /-- JOB_START_RECEIVE (R350). A member applies the acceptance test to START, moves the tag to STARTING if it passes, and forwards START. -/
  | jobStartReceive (src : BitVec 20) (tag gid : BitVec 16) (attempt : BitVec 8)
  /-- JOB_ANSWER_RECEIVE (R349). A start answer arrives and is combined; the root sends GO when all members have accepted. -/
  | jobAnswerReceive (src : BitVec 20) (tag : BitVec 16) (attempt : BitVec 8) (accepted : Nat) (refused : Option (BitVec 20 × BitVec 8)) (missing : Option (BitVec 20))
  /-- JOB_CHILD_WAIT_TIMEOUT (R349). START_TO/2 passes and a node answers, naming its lowest missing child. -/
  | jobChildWaitTimeout (tag : BitVec 16)
  /-- JOB_START_TIMEOUT (R349). START_TO passes without all acceptances; the root records TIMEOUT and sends ABORT. -/
  | jobStartTimeout
  /-- JOB_GO_RECEIVE (R349). The first GO copy schedules the tag's activation at T_rel. -/
  | jobGoReceive (tag gid : BitVec 16) (attempt : BitVec 8) (rel : Word)
  /-- JOB_ABORT_RECEIVE (R349). A job ABORT returns a STARTING tag to ASSIGNED and is forwarded. -/
  | jobAbortReceive (tag gid : BitVec 16) (attempt : BitVec 8)
  /-- TAG_ACTIVATE (R349). TIME_NOW reaches T_rel and a STARTING tag becomes ACTIVE. -/
  | tagActivate (tag : BitVec 16)
  /-- STARTING_TAG_TIMEOUT (R350). A STARTING tag receives neither GO nor ABORT within 2 × START_TO and returns to ASSIGNED. -/
  | startingTagTimeout (tag : BitVec 16)
  /-- JOB_REVOKE_RECEIVE (R351). The first REVOKE copy moves the member's tag to DRAINING. -/
  | jobRevokeReceive (tag gid : BitVec 16)
  /-- TAG_DRAIN_COMPLETE (R351). A DRAINING tag has no running ops, no unacknowledged packets and TAG_QUIET of silence, and becomes FREE, reporting upward. -/
  | tagDrainComplete (tag : BitVec 16)
  /-- JOB_FREE_REPORT_RECEIVE (R351). A FREE report arrives and the root records TORN_DOWN once all have reported. -/
  | jobFreeReportReceive (tag gid : BitVec 16) (member : BitVec 20)
  /-- TEARDOWN_TIMEOUT (R351). START_TO passes after the root's tag became FREE with reports missing, and TEAR_INCOMPLETE is recorded. -/
  | teardownTimeout
  /-- TIME_REPRO_WRITE (R353). A write to TIME_REPRO sets Fixed-Bits and Fixed-Pace, or is not applied and gives a reason. -/
  | timeReproWrite (v : W32)
  /-- TIME_BAR_CFG_WRITE (R362). A write to TIME_BAR_CFG sets ALIGN, HOLD and MARGIN, or is ignored with REJECT. -/
  | timeBarCfgWrite (v : W32)
  /-- EVENT_SOURCE_ASSERT (R370). An enabled event source's level is asserted and its pending bit sets. -/
  | eventSourceAssert (unit : Fin 33) (src : Fin 128)
  /-- EVENT_DELIVER (R371). The highest-priority pending source above the serving priority is delivered to its core at its vector. -/
  | eventDeliver (unit : Fin 33) (core : Fin 8)
  /-- END_OF_SERVICE (R370). A core writes end-of-service, clearing the pending bit, which sets again if the level persists. -/
  | endOfService (unit : Fin 33) (core : Fin 8) (level : Bool)
  /-- MONITOR_SAMPLE (R373). Every microsecond the always-on monitor samples its 64 sources, sets latches and may wake the module or start the quiesce. -/
  | monitorSample (levels : BitVec 64) (sample : Sensors)
  /-- KERNEL_LOAD (R367). The LOAD command verifies a kernel image and copies it to the claim's foreman cores. -/
  | kernelLoad
  /-- KERNEL_START (R367). The START command starts the claim's kernel at ENTRY on every core. -/
  | kernelStart
  /-- KERNEL_STOP (R367). The STOP command halts the kernel at its next instruction boundary. -/
  | kernelStop
  /-- KERNEL_EXCEPTION (R368). A kernel exception halts the kernel on every core and sets KSTATE FAULTED. -/
  | kernelException (c : Fin 32)
  /-- KERNEL_ISSUE (R369). A 64-byte store to the kernel issue port submits one descriptor, or stalls the core while its window is full. -/
  | kernelIssue (d : Fin 4) (core : Fin 8) (desc : BitVec 512)
  /-- KERNEL_HEAD_WRITE (R369). The kernel writes its consumed count to the head word, freeing completion window slots. -/
  | kernelHeadWrite (d : Fin 4) (core : Fin 8) (v : W32)
  /-- DOZE_REQUEST (R375). A write of a die's REQ to LIGHT, DEEP or RUN requests a doze transition, or is refused. -/
  | dozeRequest (v : W32)
  /-- DOZE_ENTRY_DONE (R374). A die finishes entering LIGHT or DEEP. -/
  | dozeEntryDone (d : Fin 4)
  /-- WAKE_DONE (R377). A waking die reaches RUN and waiting accesses are served. -/
  | wakeDone (d : Fin 4)
  /-- MODULE_DOZE_REQUEST (R376). Setting HUB_LOW requests module doze, which is accepted only with every die DEEP and no claim RUNNING. -/
  | moduleDozeRequest
  /-- MODULE_DOZE_CLEAR (R376). Clearing HUB_LOW ends module doze. -/
  | moduleDozeClear
  /-- HANDOVER (R390). The HANDOVER command loads the new Kolti image on the standby group and hands management over live. -/
  | handover (standbyFails : Bool)
  /-- DEPUTY_WATCHDOG_EXPIRY (R392). A deputy group's watchdog expires and the standby takes over, or management stops. -/
  | deputyWatchdogExpiry (g : Bool) (pass : Bool)
  /-- SERVICE_ACK (R383). A write of HEALTH_SVC_ACK sets ACKED without clearing the replacement request. -/
  | serviceAck
  /-- CLEAR_EVENT_RECORDS (R383). The host clears the CXL event record, which acknowledges the request as ACK does. -/
  | clearEventRecords
  /-- SPARE_CTL_WRITE (R384). A write to HEALTH_SPARE_CTL selects AUTO, which starts waiting substitutions, or HOLD. -/
  | spareCtlWrite (v : W32)
  /-- DIE_CONTAIN (R386). A die fault is found: the die is fenced, powered off, its units lost and its ops ended. -/
  | dieContain (d : Fin 4)
  /-- ENGINE_FAULT (R387). A hub engine detects an uncorrectable fault and stops with cause 0xF7, or is held REFUSED on a second fault. -/
  | engineFault (b : BlockId)
  /-- TALLY_ENTRY_FAULT (R385). An uncorrectable tally entry stops its claim, or takes the tally out of service. -/
  | tallyEntryFault (t : BitVec 16)
  /-- TELEMETRY_POST (R395). A queued record is posted to the host ring when it has room, or sent to the collector. -/
  | telemetryPost
  /-- TRACE_SAMPLE (R393). TRACE_PERIOD expires and the block counters are sampled as trace records. -/
  | traceSample
  /-- TQ_HEAD_WRITE (R395). A write to HEALTH_TQ_HEAD advances the consumed count, or is ignored with REJECT and an alarm. -/
  | tqHeadWrite (v : W32)
  /-- GET_IDENTITY (R420). The GET_IDENTITY message returns DEVICE_ID and the certificate. -/
  | getIdentity (tag : W32)
  /-- ATTEST (R407). The ATTEST message returns evidence signed by the device key. -/
  | attest (req : List Byte)
  /-- FW_LOAD (R402). The FW_LOAD message checks a Kolti image and starts it in AUX_ONLY, or stages it for handover. -/
  | fwLoad (req : List Byte) (image : Option (List Byte))
  /-- UNLOCK_CHALLENGE (R408). The UNLOCK_CHALLENGE message returns a fresh nonce. -/
  | unlockChallenge (tag : W32)
  /-- UNLOCK (R408). The UNLOCK message checks a signed grant and opens debug scopes, consuming the nonce. -/
  | unlock (req : List Byte)
  /-- RELOCK (R408). The RELOCK message closes every open debug scope. -/
  | relock (tag : W32)
  /-- UNLOCK_NONCE_EXPIRY (R408). The outstanding unlock nonce expires after 60 s. -/
  | unlockNonceExpiry
  /-- DEBUG_SCOPE_EXPIRY (R408). An open debug scope reaches its EXPIRY and closes. -/
  | debugScopeExpiry (scope : Fin 8)
  /-- GET_PROTECTION (R404). The GET_PROTECTION message returns PROT_SEQ and the protection settings. -/
  | getProtection (tag : W32)
  /-- CHANGE (R405). The two-key CHANGE message checks sequence and signatures and commits a new protection setting. -/
  | change (req : List Byte)
  /-- CXL_MEM_REQUEST (R43). A host CXL.mem read or write to device memory through a committed HDM decoder is served at the line's home, with back-invalidate or host-bias rules applying. -/
  | cxlMemRequest (addr : BitVec 42) (data : Option (List Byte)) (bad : Bool)
  /-- MAILBOX_BAD_MESSAGE (R403). A GO on the security mailbox with a misaligned buffer address, an unknown TYPE or a malformed header is answered with BAD_MESSAGE, DONE set and vector 6 raised. -/
  | mailboxBadMessage (req : Option (List Byte))
  deriving DecidableEq, Repr

end Sys2Proof
end

