-- ==== Sys2Proof/Decode.lean ====
section
/-!
DEFINITION. The word decoder the host asks for. No row of spec/opcode_table.json gives bits: the block takes commands, and no word spells
one.
-/
namespace Sys2Proof

/-- The command that a word spells: none, for no row has bits. -/
def decodeTableWord (_nbits _w : Nat) : Option Instr := none

end Sys2Proof
end

