-- ==== Sys2Proof/Config.lean ====
section
/-!
DEFINITION. What the spec leaves open: free values (no body, so nothing can be proved of them) and the fixed figures of the part.
-/
namespace Sys2Proof.Config

/-- A fresh value the spec does not give, by the number of values drawn before it (notes/assumptions/4.md). -/
opaque freeValue : Nat → BitVec 64

/-- The fixed pace setpoint of the hub's governor, in Mpick/s (The hub, chapter 2): the spec states no figure. -/
opaque hubPace : Nat

/-- The set of the heat table that holds a unit: the spec gives the table's shape and no index function (R224). -/
opaque heatSet : Nat → Nat → BitVec 14

/-- The element codes stored in an MX block whose scale is 0xFF: every element is NaN whatever its code (R102), and the spec states no
code, by element index. -/
opaque nanBlockElem : Nat → BitVec 8

/-- Which of the codes within its bound a function known by a bound gives, by function and input codes: the same for the same input
(R136, R137, R140, R146). -/
opaque ulpChoice : Nat → List Nat → Nat

/-- The code of such a function where its formula settles none, by function and input codes. -/
opaque openElem : Nat → List Nat → Nat

/-- Which of two equal numbers of different codes, +0 and −0, MAX or MIN gives. -/
opaque zeroOf : BitVec 32 → BitVec 32 → Bool

/-- Byte `i` of the SHAKE256 output for a message (R399, R401): a standard the spec names and does not set out. -/
opaque shakeByte : List (BitVec 8) → Nat → BitVec 8

/-- A Falcon-1024 signature of 1,280 bytes over a message verifies with a public key (R401): key, message, signature. -/
opaque verifies : List (BitVec 8) → List (BitVec 8) → List (BitVec 8) → Bool

/-- Byte `i` of the device key's signature over a message (R407). -/
opaque signByte : List (BitVec 8) → Nat → BitVec 8

/-- The module's public key, 1,793 bytes, by byte (R399). -/
opaque deviceKey : Nat → BitVec 8

/-- The SIGNER byte and the SIG bytes of the device certificate (R420). -/
opaque certSigner : BitVec 8
opaque certSig : Nat → BitVec 8

/-- The VENDOR root's public key, 1,793 bytes, by byte (R400). -/
opaque vendorRoot : Nat → BitVec 8

/-- The priority of an event source, 0 to 15, by event unit and source (R371): Kolti's for the hub, the kernel's for a foreman core. -/
opaque evtPrio : Nat → Nat → BitVec 4

/-- The core, of the four of the serving deputy group, that a hub source is routed to (R372). -/
opaque evtRoute : Nat → Fin 4

/-- CAP_IDENT.STEPPING, the silicon stepping (Table 19.3). -/
opaque stepping : BitVec 8

/-- 2,304 GiB, the end of the device address range (R70). -/
def deviceEnd : Nat := 2304 * 2 ^ 30

/-- 576 GiB, the deep tier of one die (R215). -/
def deepEnd : Nat := 576 * 2 ^ 30

/-- Near chunks of one die (R217). -/
def nearChunks : Nat := 524288

end Sys2Proof.Config
end

