-- ==== Sys2Proof/Machine/Tables.lean ====
section
/-!
DEFINITION. Reading and writing sparse tables, bytes and fields. A table is kept in ascending order of its keys.
-/
namespace Sys2Proof.Machine

/-- The entry with number `k`, if it is listed. -/
def Tbl.look {α : Type} : Tbl α → Nat → Option α
  | [], _ => none
  | (i, v) :: t, k => if i = k then some v else Tbl.look t k

/-- The entry with number `k`, or `d` where it is not listed. -/
def Tbl.lookD {α : Type} (t : Tbl α) (k : Nat) (d : α) : α := (Tbl.look t k).getD d

/-- Write entry `k`, keeping the table in ascending order. -/
def Tbl.put {α : Type} : Tbl α → Nat → α → Tbl α
  | [], k, v => [(k, v)]
  | (i, w) :: t, k, v =>
    if k < i then (k, v) :: (i, w) :: t
    else if i = k then (k, v) :: t
    else (i, w) :: Tbl.put t k v

/-- Remove entry `k`. -/
def Tbl.del {α : Type} (t : Tbl α) (k : Nat) : Tbl α := t.filter (fun e => e.1 != k)

/-- Rewrite entry `k`, starting from `d` where it is not listed. -/
def Tbl.upd {α : Type} (t : Tbl α) (k : Nat) (d : α) (f : α → α) : Tbl α := Tbl.put t k (f (Tbl.lookD t k d))

/-- Rewrite every listed entry. -/
def Tbl.mapAll {α : Type} (t : Tbl α) (f : Nat → α → α) : Tbl α := t.map (fun e => (e.1, f e.1 e.2))

/-- Entry `k` of a list, or `d` past its end. -/
def nth {α : Type} (l : List α) (k : Nat) (d : α) : α := (l[k]?).getD d

/-- Rewrite entry `k` of a list. -/
def setNth {α : Type} : List α → Nat → α → List α
  | [], _, _ => []
  | _ :: t, 0, v => v :: t
  | a :: t, k + 1, v => a :: setNth t k v

/-- Little-endian value of a byte list: the first byte is the least significant. -/
def leNat : List Byte → Nat
  | [] => 0
  | b :: t => b.toNat + 256 * leNat t

/-- The `n` little-endian bytes of a value. -/
def toLe : Nat → Nat → List Byte
  | 0, _ => []
  | n + 1, v => BitVec.ofNat 8 v :: toLe n (v / 256)

/-- `n` bytes of a list from offset `o`, a missing byte reading 0. -/
def slice (l : List Byte) (o n : Nat) : List Byte := (List.range n).map (fun i => nth l (o + i) 0)

/-- The little-endian field of `n` bytes at byte offset `o` of a byte list. -/
def fieldAt (l : List Byte) (o n : Nat) : Nat := leNat (slice l o n)

/-- Bits `[hi:lo]` of a number. -/
def bits (v hi lo : Nat) : Nat := v / 2 ^ lo % 2 ^ (hi - lo + 1)

/-- Bit `i` of a number. -/
def bit (v i : Nat) : Bool := v / 2 ^ i % 2 == 1

/-- A truth value as a one-bit number. -/
def b2n (b : Bool) : Nat := if b then 1 else 0

/-- `n` rounded up to a multiple of `k`, divided by `k`. -/
def ceilDiv (n k : Nat) : Nat := (n + k - 1) / k

/-- The two's-complement reading of a `w`-bit number. -/
def signedOf (w v : Nat) : Int := if v % 2 ^ w < 2 ^ (w - 1) then (v % 2 ^ w : Nat) else (v % 2 ^ w : Nat) - (2 ^ w : Nat)

/-- The `w`-bit two's-complement code of an integer. -/
def codeOf (w : Nat) (v : Int) : Nat := (v % (2 ^ w : Nat)).toNat

/-- Ticks from `since` to `now`, on the wrapping 64-bit timebase. -/
def elapsed (now since : Tick) : Nat := (now - since).toNat

/-- The number of set bits among the first `w`. -/
def popCount (w v : Nat) : Nat := ((List.range w).filter (bit v)).length

/-- The set bits among the first `w`, ascending. -/
def setBits (w v : Nat) : List Nat := (List.range w).filter (bit v)

/-- Insert before the first entry that `before` does not put first. -/
def insertBy {α : Type} (before : α → α → Bool) (x : α) : List α → List α
  | [] => [x]
  | y :: t => if before x y then x :: y :: t else y :: insertBy before x t

/-- Sort a list by a strict order; equals keep their order from the end. -/
def sortBy {α : Type} (before : α → α → Bool) (l : List α) : List α := l.foldr (insertBy before) []

end Sys2Proof.Machine
end

