-- ==== Sys2Proof/Machine/Memory.lean ====
section
/-!
DEFINITION. Memory: a list of (address, byte) cells in one canonical form, ascending addresses, no cell holding 0 (what an unlisted
address reads as: notes/assumptions/3.md).
-/
namespace Sys2Proof.Machine

/-- The cells of a memory. -/
abbrev Memory := List Host.Cell

/-- The byte at an address; an address that is not listed reads 0. -/
def Memory.get : Memory → Nat → Byte
  | [], _ => 0
  | (i, b) :: m, a => if i = a then b else Memory.get m a

/-- Write one byte, keeping the canonical form: a cell that would hold 0 is removed. -/
def Memory.set : Memory → Nat → Byte → Memory
  | [], a, b => if b = 0 then [] else [(a, b)]
  | (i, c) :: m, a, b =>
    if a < i then (if b = 0 then (i, c) :: m else (a, b) :: (i, c) :: m)
    else if i = a then (if b = 0 then m else (a, b) :: m)
    else (i, c) :: Memory.set m a b

/-- Addresses strictly above `lo`, strictly rising, and no cell holding 0. -/
def Memory.wfFrom : Option Nat → Memory → Bool
  | _, [] => true
  | lo, (a, b) :: m => (match lo with | none => true | some l => decide (l < a)) && b != 0 && Memory.wfFrom (some a) m

/-- The canonical form. -/
def Memory.wf (m : Memory) : Bool := Memory.wfFrom none m

/-- Write a run of bytes from an address upwards. -/
def Memory.write : Memory → Nat → List Byte → Memory
  | m, _, [] => m
  | m, a, b :: t => Memory.write (Memory.set m a b) (a + 1) t

/-- `n` bytes from an address upwards. -/
def Memory.read (m : Memory) (a n : Nat) : List Byte := (List.range n).map (fun i => Memory.get m (a + i))

/-- One change of memory: bytes stored from a cell key upwards, or everything dropped. -/
inductive MemOp where
  /-- Store bytes at a cell key and the keys after it. -/
  | bytes (key : Nat) (data : List Byte)
  /-- Drop every cell with a key in `[lo, hi)`. -/
  | clear (lo hi : Nat)
  deriving DecidableEq, Repr

/-- Apply one change. -/
def Memory.apply (m : Memory) : MemOp → Memory
  | .bytes k data => Memory.write m k data
  | .clear lo hi => m.filter (fun c => c.1 < lo || hi ≤ c.1)

/-- Apply changes in order. -/
def Memory.applyAll : Memory → List MemOp → Memory
  | m, [] => m
  | m, w :: ws => Memory.applyAll (Memory.apply m w) ws

/-- A change names no byte at this key. -/
def MemOp.spares : MemOp → Nat → Prop
  | .bytes k l, a => a < k ∨ k + l.length ≤ a
  | .clear lo hi, a => a < lo ∨ hi ≤ a

end Sys2Proof.Machine
end

