-- ==== Sys2Proof/Machine/State.lean ====
section
/-!
DEFINITION. The state of the block, as plain data: every register, table, queue and mode the spec gives it, the queue of commands that
wait, and the values of State.reset. A sparse table stands for its reset entry wherever it lists none.
-/
namespace Sys2Proof.Machine

/-- Why a step stops with a fault. Nothing in the model raises one: the part answers every command with a state (safe: no state is
lost by it). -/
inductive Fault where
  /-- Raised by nothing. The spec gives the block no machine stop: a breach ends in a status, a reason code or a dropped command. -/
  | none
  deriving DecidableEq, Repr

/-- Why a command has no meaning in the model. -/
inductive Refusal where
  /-- The dispatch raises it for a command whose meaning is not written; safe: the run stops. -/
  | notModelled (mnemonic : String)
  deriving DecidableEq, Repr

/-! ## Blocks (R53, Table 3.6) -/

/-- STATE of a block. -/
inductive BState where
  | off | checking | running | quiescing | refused
  deriving DecidableEq, Repr

/-- A block's *_STS register. ENABLE of its *_CTL reads 1 exactly in CHECKING and RUNNING (R54, R55). -/
structure Block where
  st : BState
  reject : Bool
  autoStop : Bool
  reason : BitVec 16
  deriving DecidableEq, Repr

/-- A block as reset leaves it. -/
def Block.reset : Block := { st := .off, reject := false, autoStop := false, reason := 0 }

/-! ## Power (chapter 1) -/

/-- HEALTH_PWR_STS.PSTATE (Table 1.8). -/
inductive PState where
  | auxOnly | mgmtUp | mainSequencing | running | quiescing | quiesced
  deriving DecidableEq, Repr

/-- The power sequencer, the supplies and the I3C target (R5 to R22). -/
structure Power where
  aonOn : Bool
  mgmtOn : Bool
  hubOn : Bool
  pstate : PState
  /-- MATED_N reads low -/
  mated : Bool
  /-- MATED_N has stayed low for 100 ms (R7) -/
  matedSettled : Bool
  thermTrip : Bool
  hubTripped : Bool
  mgmtTripped : Bool
  /-- THERM_N is driven low -/
  thermN : Bool
  /-- SVC_REQ_N is driven low (R382) -/
  svcReqN : Bool
  auxFromMain : Bool
  auxOk : Bool
  mainOk : Bool
  /-- the main input reads 39.0 V or more with its protection closed (R18, R22) -/
  mainLive : Bool
  /-- the input protection is open (Table 1.3, R22) -/
  protectionOpen : Bool
  /-- Kolti runs -/
  kolti : Bool
  /-- the regenerated key does not match the certificate (R399) -/
  identityBad : Bool
  /-- the reference tick of Table 1.9 -/
  seqTick : Tick
  /-- step 2 of Table 1.9 is done -/
  hubReady : Bool
  /-- sequencing retries per domain: 0 to 3 the dies, 4 the hub (R6) -/
  retries : Tbl Nat
  /-- the tick of a pending COLD_START ARM (R21) -/
  armTick : Option Tick
  sensors : Sensors
  i3cStrap : BitVec 2
  i3cDynamic : Option (BitVec 7)
  i3cPtr : BitVec 8
  deriving DecidableEq, Repr

/-! ## Loom dies (chapters 2, 5 to 7, 9, 10, 16) -/

/-- The governor settings of one die (Table 2.4). -/
structure GovSet where
  mode : BitVec 2
  pace : BitVec 11
  vmax : BitVec 10
  vmin : BitVec 10
  supply : BitVec 10
  deriving DecidableEq, Repr

/-- The reset values of Table 2.4. -/
def GovSet.reset : GovSet := { mode := 0, pace := 900, vmax := 850, vmin := 600, supply := 720 }

/-- EVT_DOZE_STS.STATE of a die (Table 16.6). -/
inductive Doze where
  | run | light | deep | entering (deep : Bool) | waking
  deriving DecidableEq, Repr

/-- A heat entry (R224): object, unit and heat count. -/
structure Heat where
  obj : Nat
  unit : Nat
  heat : Nat
  deriving DecidableEq, Repr

/-- One loom die. -/
structure Die where
  /-- the domain is on -/
  on : Bool
  /-- ready at step 7 of Table 1.9 -/
  ready : Bool
  /-- tripped under R14 -/
  tripped : Bool
  /-- contained (R386) -/
  contained : Bool
  /-- the governor settings as the registers read -/
  govReg : GovSet
  /-- the settings in force since the last window boundary (R31) -/
  gov : GovSet
  paceLost : Bool
  writeReject : Bool
  vout : BitVec 10
  eff : BitVec 11
  govState : BitVec 4
  slowId : BitVec 5
  slowest : BitVec 11
  fastest : BitVec 11
  /-- the supply the last window set out for; 0 before the first window after power-on (R31) -/
  target : BitVec 10
  /-- the pace the current limit imposes (R29), and the pace the power cap imposes (R28) -/
  curPace : Nat
  capPace : Nat
  /-- core energy short of one millijoule, in mW·ns (R35) -/
  energyAcc : Nat
  /-- a SNAP, or a CLEAR, waits for the next tick (R36) -/
  snapPend : Bool
  clearPend : Bool
  /-- the pace gate's accumulator (R25) -/
  acc : Nat
  /-- banked permits by logical lane (R25) -/
  banks : Tbl Nat
  /-- permits issued to active lanes since the counters were last 0: the model's own count (R35) -/
  issued : Nat
  /-- running counters, by register offset in the die's block -/
  cnt : Tbl Word
  /-- the counters as the last SNAP latched them -/
  latched : Tbl Word
  snapTick : Tick
  /-- the physical lane of each logical lane, in logical order (R141) -/
  laneList : List Nat
  /-- logical lanes in service (LD_LANE_LOG) -/
  laneLog : BitVec 64
  /-- physical spare lanes left, ascending -/
  laneSpares : List Nat
  coreList : List Nat
  /-- logical cores in service (LD_CORE_LOG) -/
  coreLog : BitVec 8
  coreSpares : List Nat
  tierAuto : BitVec 2
  tierReject : Bool
  /-- LD_DEEP_GROUP by group -/
  deepGroup : Tbl W32
  /-- lines corrected within the last second, with the tick, per pseudo-channel (group × 19 + channel) (R231) -/
  pcErrors : Tbl (List (Tick × Nat))
  /-- the heat table by set (R224) -/
  heat : Tbl (List Heat)
  doze : Doze
  /-- EVT_CNT_WAKE of the die -/
  cntWake : Word
  deriving DecidableEq, Repr

/-- A die before its domain is on. -/
def Die.reset : Die :=
  { on := false, ready := false, tripped := false, contained := false, govReg := .reset, gov := .reset,
    paceLost := false, writeReject := false, vout := 0, eff := 0, govState := 0, slowId := 0, slowest := 0, fastest := 0,
    target := 0, curPace := 1050, capPace := 1050, energyAcc := 0, snapPend := false, clearPend := false, acc := 0, banks := [], issued := 0, cnt := [], latched := [], snapTick := 0,
    laneList := [], laneLog := 0, laneSpares := [], coreList := [], coreLog := 0, coreSpares := [],
    tierAuto := 0, tierReject := false, deepGroup := [], pcErrors := [], heat := [], doze := .run, cntWake := 0 }

/-- The module-wide part of the governor (R28). -/
structure PowerCap where
  cap : BitVec 12
  capReg : BitVec 12
  power : BitVec 12
  /-- the frame in which the cap alarm was last raised (R28) -/
  alarmFrame : Option Tick
  /-- the readings of the hub's 16 canaries in the last window (R26) -/
  hubCanaries : List (BitVec 11)
  /-- the hub governor's state, shown in telemetry only -/
  hubState : BitVec 4
  deriving DecidableEq, Repr

/-! ## Host interface (chapter 3) -/

/-- An HDM decoder (R42). -/
structure Hdm where
  base : Word
  size : Word
  dpa : Word
  ways : BitVec 4
  committed : Bool
  error : Bool
  deriving DecidableEq, Repr

/-- A decoder as reset leaves it. -/
def Hdm.reset : Hdm := { base := 0, size := 0, dpa := 0, ways := 0, committed := false, error := false }

/-- The host interface: link, configuration space, MSI-X and doorbell mode. -/
structure HostIf where
  linkUp : Bool
  link : LinkResult
  /-- PERST_N is low -/
  perstLow : Bool
  refclk : Bool
  /-- training has been asked for and not yet ended -/
  training : Bool
  /-- the last training attempt (R39) -/
  trainTick : Tick
  /-- the tick since which the supply has been in range (R15) -/
  supplyTick : Tick
  /-- the tick it last went OFF by itself (R49) -/
  offTick : Option Tick
  /-- device lines that the host may hold in its cache (R43) -/
  cached : List Nat
  busMaster : Bool
  bar0 : Word
  bar2 : Word
  bar4 : Word
  pollUs : BitVec 10
  dbCtlMode : BitVec 2
  dbMode : BitVec 2
  hdmErrDecoder : Bool
  hdmErrReason : BitVec 16
  cntLinkDown : W32
  cntDbRead : Word
  msixOn : Bool
  msixPending : BitVec 2048
  msixMask : BitVec 2048
  msixAddr : Tbl Word
  msixData : Tbl W32
  hdm : Tbl Hdm
  /-- the CXL Failure event log: the Table 17.1 bit each record names (R382) -/
  cxlEvents : List Nat
  deriving DecidableEq, Repr

/-! ## Rings (chapter 4) -/

/-- Where a descriptor stands. -/
inductive Phase where
  /-- fetched, not started and not decided -/
  | waiting
  /-- started; its op runs -/
  | started
  /-- the op's work is done; its status stands -/
  | done
  /-- completed: writes visible and signal applied, or decided without running; its record waits -/
  | completed
  deriving DecidableEq, Repr

/-- What a record reports of an op (Table 4.9). -/
structure Result where
  status : BitVec 16
  reason : BitVec 16
  picks : Nat
  deep : Nat
  fabric : Nat
  retry : Bool
  approx : Bool
  deriving DecidableEq, Repr

/-- OK with nothing counted. -/
def Result.ok : Result := { status := 0, reason := 0, picks := 0, deep := 0, fabric := 0, retry := false, approx := false }

/-- What a body descriptor of a loop reports so far: the tick the first iteration started it on, the merge of all iterations, and the first
tick and the merge of those it ran in (R87, R88). -/
structure Total where
  start : Tick
  all : Result
  ran : Option (Tick × Result)
  deriving DecidableEq, Repr

/-- The exchange table of an op and, for a DISPATCH, its expert map, as read when it started (R167, R173). -/
structure XTable where
  bytes : BitVec 1024
  map : List Word
  deriving DecidableEq, Repr

/-- One chunk of a lane op's work (R127): output tile number, inner chunk, the die whose lanes have it, picks. -/
structure Chunk where
  tile : Nat
  inner : Nat
  die : Nat
  picks : Nat
  deriving DecidableEq, Repr

/-- The part of a lane op that one lane has: chunks not ended, picks made in the first of them, picks made in all; and whether the op
lets idle lanes steal chunks (R205). -/
structure LaneWork where
  die : Nat
  lane : Nat
  todo : List Chunk
  used : Nat
  spent : Nat
  steal : Bool
  /-- the output tile of the chunk it ended last, whose window it holds while its next chunk is of that tile (R258) -/
  tile : Option Nat
  deriving DecidableEq, Repr

/-- A fetched descriptor. -/
structure Entry where
  count : W32
  desc : BitVec 512
  phase : Phase
  /-- it holds a completion buffer entry (R66) -/
  buf : Bool
  /-- its header wait or TALLY_WAIT condition has been met, with the consume applied (R78) -/
  waitMet : Bool
  /-- the tick it started on or was decided on -/
  start : Tick
  /-- the number of ops started before it on the module: the model's own order of starts (R82, R216) -/
  seq : Nat
  /-- the seed register the op names, as it stood when it started (R243) -/
  seed : Word
  /-- the timebase's steps up to the tick it started on (R336) -/
  skew : Word
  /-- the tick it completed on, less the steps since it started: START_TICK + DURATION -/
  fin : Tick
  /-- it ran: 0 duration otherwise -/
  ran : Bool
  res : Result
  /-- in a loop: totals over the iterations before this one (R87) -/
  total : Option Total
  /-- the exchange table it started with, where its op has one and it lies in an object of the claim -/
  xt : Option XTable
  /-- its engine has taken it (R74) -/
  taken : Bool
  /-- the division of a lane op, from the tick its lanes begin it (R127) -/
  work : Option (List LaneWork)
  /-- the meters that have admitted its request, by METER × 16 + INDEX (R251) -/
  paid : List Nat
  /-- the objects it names, found when it started (R214, R216) -/
  objs : List Nat
  deriving DecidableEq, Repr

/-- A running REPEAT_BY (R85 to R88). -/
structure Loop where
  base : W32
  len : Nat
  trips : Nat
  iter : Nat
  strides : List Word
  /-- no iteration starts any more -/
  ending : Bool
  clamped : Bool
  iterations : Nat
  deriving DecidableEq, Repr

/-- One ring pair (Tables 4.11, 4.12), or the issue port of a foreman core. -/
structure Ring where
  halt : Bool
  sqLog2 : BitVec 5
  cqLog2 : BitVec 5
  index : BitVec 6
  claim : BitVec 5
  irqCount : BitVec 8
  irqTimeout : BitVec 12
  vector : BitVec 11
  sqBase : Word
  cqBase : Word
  dbAddr : Word
  sqHead : W32
  cqTail : W32
  sqTailLast : W32
  cqHeadLast : W32
  cntDone : Word
  cntFail : W32
  /-- the doorbell line is held Shared -/
  lineHeld : Bool
  /-- a read of the doorbell line is outstanding -/
  lineRead : Bool
  lineTick : Tick
  sinceRaise : Nat
  firstUnsignalled : Option Tick
  /-- fetched descriptors whose records are not posted, in ring order -/
  ents : List Entry
  /-- counts in the order they completed (R65) -/
  finished : List W32
  /-- descriptors not yet fetched that a SKIP_IF skips (R84) -/
  skip : Nat
  /-- body descriptors, not yet fetched, of a REPEAT_BY that did not run its body, and the status they complete with (R85) -/
  orphans : Nat × BitVec 16
  loop : Option Loop
  /-- an OP_FAILED or other stop has been taken: fetching has ended -/
  stopped : Bool
  /-- the place of its ENABLE write among those of the rings (R58) -/
  enSeq : Nat
  deriving DecidableEq, Repr

/-- A ring pair as reset leaves it (Table 4.12). -/
def Ring.reset : Ring :=
  { halt := false, sqLog2 := 6, cqLog2 := 6, index := 0, claim := 0, irqCount := 1, irqTimeout := 0, vector := 16,
    sqBase := 0, cqBase := 0, dbAddr := 0, sqHead := 0, cqTail := 0, sqTailLast := 0, cqHeadLast := 0, cntDone := 0,
    cntFail := 0, lineHeld := false, lineRead := false, lineTick := 0, sinceRaise := 0, firstUnsignalled := none,
    ents := [], finished := [], skip := 0, orphans := (0, 0), loop := none, stopped := false, enSeq := 0 }

/-- A waiter of a tally (R78): the descriptor that waits, its condition and what it consumes. -/
structure Waiter where
  ring : Nat
  count : W32
  /-- the condition is equality, not ≥ -/
  exact : Bool
  target : Word
  consume : Word
  deriving DecidableEq, Repr

/-- A tally object (R77). -/
structure Tally where
  count : Word
  waiters : List Waiter
  deriving DecidableEq, Repr

/-- A tally as assignment leaves it. -/
def Tally.reset : Tally := { count := 0, waiters := [] }

/-! ## Claims (chapter 11) -/

/-- CLAIM_INFO.PSTATE (Table 11.9). -/
inductive ClaimP where
  | active | preempting | preempted | restoring
  deriving DecidableEq, Repr

/-- The weights and the borrow flag of a claim (R243). -/
structure Shares where
  deep : BitVec 16
  hoist : BitVec 16
  fabric : BitVec 16
  coll : BitVec 16
  borrow : Bool
  deriving DecidableEq, Repr

/-- The reset values of Table 11.7. -/
def Shares.reset : Shares := { deep := 1, hoist := 1, fabric := 1, coll := 1, borrow := true }

/-- One meter of a claim (R249 to R254). -/
structure MeterSt where
  bal : Int
  budget : Int
  used : Nat
  borrowed : Nat
  lastBudget : Int
  lastUsed : Nat
  lastBorrowed : Nat
  accBorrowed : Word
  /-- the debt that the frame began with -/
  debt : Nat
  deriving DecidableEq, Repr

/-- A meter with nothing budgeted. -/
def MeterSt.reset : MeterSt :=
  { bal := 0, budget := 0, used := 0, borrowed := 0, lastBudget := 0, lastUsed := 0, lastBorrowed := 0, accBorrowed := 0, debt := 0 }

/-- One claim (Table 11.7). -/
structure Claim where
  pstate : ClaimP
  shapeLost : Bool
  share : Shares
  /-- the shares in force in the present frame -/
  shareNow : Shares
  tallyFirst : BitVec 16
  tallyCount : BitVec 16
  cores : BitVec 32
  /-- lane masks of dies 0 to 3 -/
  lanes : Tbl Word
  near : Tbl (BitVec 20)
  gen : Word
  cmdBusy : Bool
  restarted : BitVec 8
  cmdReason : BitVec 16
  preTo : BitVec 20
  ctxAddr : BitVec 42
  ctxArea : BitVec 42
  ctxLen : Word
  restLanes : Tbl Word
  restCores : BitVec 32
  seeds : Tbl Word
  accPicks : Word
  accDeep : Word
  accFabric : Word
  accHoist : Word
  accColl : Word
  selMeter : BitVec 4
  selIndex : BitVec 4
  meters : Tbl MeterSt
  epochs : Tbl (BitVec 8)
  preTick : Tick
  preInside : Bool
  /-- ENABLE was written 0 while a pre-emption was in progress (R256) -/
  leaving : Bool
  /-- the issue ports of its cores, while its context is out of the module -/
  ports : List Ring
  deriving DecidableEq, Repr

/-- A claim as reset leaves it. -/
def Claim.reset : Claim :=
  { pstate := .active, shapeLost := false, share := .reset, shareNow := .reset, tallyFirst := 0, tallyCount := 0, cores := 0,
    lanes := [], near := [], gen := 0, cmdBusy := false, restarted := 0, cmdReason := 0, preTo := 10000, ctxAddr := 0,
    ctxArea := 0, ctxLen := 0, restLanes := [], restCores := 0, seeds := [], accPicks := 0, accDeep := 0, accFabric := 0,
    accHoist := 0, accColl := 0, selMeter := 0, selIndex := 0, meters := [], epochs := [], preTick := 0, preInside := false, leaving := false, ports := [] }

/-- What a request at a meter is for (R249): a started op's deep lines or COPY bytes, a move of a unit, a packet, or a segment of a
collective on a group slot. -/
inductive AskFor where
  | op (ring : Nat) (count : W32)
  | move (obj unit : Nat)
  | packet (k : Packet) (op : Option (Nat × W32))
  | segment (slot : Nat)
  deriving DecidableEq, Repr

/-- A request that waits at a meter (R251): the meter, the claim, its charge, and for a hoist move the charge of its DEEP meter. -/
structure Ask where
  meter : Nat
  claim : Nat
  units : Nat
  deep : Nat
  what : AskFor
  deriving DecidableEq, Repr

/-- The registers common to all claims (Table 11.8), the meters' turns and the requests that wait (R252). -/
structure Frames where
  len : BitVec 10
  lenReg : BitVec 10
  lendOff : Bool
  /-- CLAIMS_STS.LEND_STATE -/
  lendState : BitVec 2
  writeReject : Bool
  num : Word
  start : Tick
  /-- the steps of the timebase up to the frame's start (R246) -/
  skew : Word
  /-- the claim last served, by meter -/
  lastServed : Tbl Nat
  /-- the requests that wait, oldest first -/
  asks : List Ask
  deriving DecidableEq, Repr

/-! ## Objects and the hoist (chapter 10) -/

/-- Table 10.2. -/
inductive ObjState where
  | free | creating | ready | dying | lost
  deriving DecidableEq, Repr

/-- A move of a unit between tiers (R218). -/
structure Move where
  unit : Nat
  toNear : Bool
  /-- it has started: the unit is in motion; before that it has its turn to wait for (R221) -/
  begun : Bool
  /-- its place in the order of its op's moves (R221) -/
  ord : Nat
  /-- the op that moves it; none for the engine's own move -/
  op : Option (Nat × W32)
  /-- its near chunks are already reserved for another unit (R221, R225) -/
  evict : Bool
  deriving DecidableEq, Repr

/-- An object that is not FREE: its entry (Table 10.1) and the homes of its units. -/
structure Obj where
  base : Nat
  len : Nat
  flat : Bool
  slotFmt : Nat
  claim : Nat
  /-- 0 PIN_NEAR, 1 PIN_DEEP, 2 AUTO -/
  placement : Nat
  reroute : Bool
  codeDeep : Bool
  zero : Bool
  dies : BitVec 4
  deepOff : List Nat
  st : ObjState
  /-- units homed near, as disjoint ranges [lo, hi) -/
  near : List (Nat × Nat)
  /-- units lost, as disjoint ranges [lo, hi) -/
  lostUnits : List (Nat × Nat)
  /-- dies whose units are all lost (R386) -/
  lostDies : BitVec 4
  /-- the number of ops started on the module when it became DYING: those before may use it (R214) -/
  dyingSeq : Nat
  /-- the number of ops started on the module when it became READY: those from then on may use it (R214) -/
  readySeq : Nat
  moves : List Move
  /-- writes that wait for the commit of a unit's move: device address and bytes, oldest first (R218) -/
  held : List (Nat × List Byte)
  /-- the PLACE in progress, by ring and count, with the PLACEMENT, DEADLINE and CODE_DEEP it replaced (R222) -/
  placing : Option (Nat × W32 × Nat × Bool × Bool)
  /-- DESTROY waits for the end of CREATING, because the claim reached OFF (R216) -/
  doomed : Bool
  deriving DecidableEq, Repr

/-- HOIST_CFG (Table 10.11). -/
structure HoistCfg where
  heatPeriod : BitVec 12
  promote : BitVec 8
  hyst : BitVec 8
  maxMoves : BitVec 4
  deriving DecidableEq, Repr

/-- The reset value 0x00A2_0084. -/
def HoistCfg.reset : HoistCfg := { heatPeriod := 10, promote := 32, hyst := 8, maxMoves := 4 }

/-- The hoist block (Table 10.10). -/
structure Hoist where
  cfgReg : HoistCfg
  cfg : HoistCfg
  sel : BitVec 18
  busy : Bool
  reason : BitVec 16
  infoLost : W32
  infoNear : W32
  entry : BitVec 512
  cntUnmapped : Word
  cntLost : Word
  /-- the tick of the last halving (R224) -/
  heatTick : Tick
  deriving DecidableEq, Repr

/-! ## Fabric ports and routing (chapter 12) -/

/-- FAB_PORT_LINK.STATE (Table 12.9). -/
inductive LinkState where
  | down | training | up4 | up3 | miswired | tooLong | off
  deriving DecidableEq, Repr

/-- FAB_PORT_CFG. -/
structure PortCfg where
  mask : BitVec 4
  degrade : BitVec 2
  retryLimit : BitVec 8
  linkTo : BitVec 8
  deriving DecidableEq, Repr

/-- The reset value 0xF000_0832. -/
def PortCfg.reset : PortCfg := { mask := 0xF, degrade := 0, retryLimit := 8, linkTo := 50 }

/-- A sent flit that is not acknowledged: its sequence number, its packet, whether it is the packet's last, and how often it was
replayed. -/
structure Flight where
  seq : BitVec 12
  packet : Packet
  /-- its place among the packet's flits -/
  index : Nat
  tail : Bool
  replays : Nat
  deriving DecidableEq, Repr

/-- One fabric port (Tables 12.8, 12.9). -/
structure Port where
  cfg : PortCfg
  /-- SITE_BOUNDARY -/
  site : Bool
  link : LinkState
  /-- lanes in use -/
  lanes : BitVec 4
  delay : BitVec 10
  peerDomain : BitVec 16
  peerPort : BitVec 6
  peerPhys : BitVec 20
  cnt : Tbl Word
  txSeq : BitVec 12
  rxSeq : BitVec 12
  /-- a flit was refused and its replay is awaited -/
  refusing : Bool
  /-- the replay buffer, oldest first -/
  flights : List Flight
  /-- packets whose head has arrived and whose tail has not: their bytes so far, by channel × 2 + level (R272) -/
  arriving : Tbl (List Byte)
  /-- packets waiting for this output, oldest first -/
  waiting : List Packet
  /-- shared flits of the peer's input buffer still free, and those of each reservation -/
  credits : Nat
  reserved : Tbl Nat
  /-- the deficit of each class and of the DE queue (R289) -/
  deficit : Tbl Nat
  /-- the class whose turn it is -/
  turn : Nat
  /-- the group whose turn it is in the COLL channel, and the deficit of each group with a packet waiting there, in bytes (R317) -/
  collTurn : Nat
  collDeficit : Tbl Nat
  /-- telemetry flits sent in the present frame (R290) -/
  telemetry : Nat
  /-- the DE queue: its average in 1/16 flit, and its depth (R293) -/
  deAvg : Int
  deDepth : Nat
  /-- the last tick a flit was acknowledged, or training was last tried -/
  ackTick : Tick
  trainTick : Tick
  /-- a link alarm was raised after a failed attempt -/
  alarmed : Bool
  /-- the lane under loopback (R388) -/
  loop : Option (Fin 4)
  deriving DecidableEq, Repr

/-- A port as reset leaves it. -/
def Port.reset : Port :=
  { cfg := .reset, site := false, link := .down, lanes := 0, delay := 0, peerDomain := 0, peerPort := 0, peerPhys := 0, cnt := [],
    txSeq := 0, rxSeq := 0, refusing := false, flights := [], arriving := [], waiting := [], credits := 0, reserved := [], deficit := [],
    turn := 0, collTurn := 0, collDeficit := [],
    telemetry := 0, deAvg := 0, deDepth := 0, ackTick := 0, trainTick := 0, alarmed := false, loop := none }

/-- The routing block (Table 12.10). -/
structure Routing where
  domain : BitVec 16
  log : BitVec 20
  phys : BitVec 20
  thresh : BitVec 16
  adaptOff : Bool
  adaptReject : Bool
  mirror : W32
  l2pSel : W32
  spanSel : W32
  l2p : Tbl W32
  span : Tbl Word
  cnt : Tbl Word
  /-- detoured packets not yet confirmed, by SRC_PHYS, DEST_PHYS and CLASS (R277) -/
  detours : List (BitVec 20 × BitVec 20 × Nat)
  /-- FENCE packets held until their detours are confirmed -/
  held : List Packet
  deriving DecidableEq, Repr

/-- The routing block as reset leaves it. -/
def Routing.reset : Routing :=
  { domain := 0, log := 0, phys := 0, thresh := 0x80, adaptOff := false, adaptReject := false, mirror := 0, l2pSel := 0, spanSel := 0,
    l2p := [], span := [], cnt := [], detours := [], held := [] }

/-! ## The crossbar and remote memory (chapter 13) -/

/-- A remote op in the engine (R295). -/
structure RemOp where
  /-- OPID -/
  id : Nat
  ring : Nat
  count : W32
  /-- 1 PUT, 2 GET, 4 ATOMIC -/
  kind : Nat
  place : Nat
  off : Nat
  len : Nat
  key : W32
  log : BitVec 20
  phys : BitVec 20
  xsite : Bool
  droppable : Bool
  fence : Bool
  aop : Nat
  fetch : Bool
  value : Word
  compare : Word
  tag : BitVec 16
  /-- chunks injected -/
  sent : Nat
  /-- chunks whose answers are awaited -/
  waits : List Nat
  lastSent : Tick
  lastHeard : Tick
  deriving DecidableEq, Repr

/-- The crossbar block (Table 13.11). -/
structure Xbar where
  planeMode : BitVec 2
  planeReject : Bool
  /-- XBAR_CLASS_SHARE as it reads, and as it is in force in the present frame -/
  shareReg : Word
  share : Word
  red : Tbl W32
  deTo : BitVec 16
  remTo : BitVec 16
  lastNak : W32
  cnt : Tbl Word
  rgnSel : BitVec 12
  rgnReason : BitVec 16
  rgnData : BitVec 256
  regions : Tbl (BitVec 256)
  rem : List RemOp
  deriving DecidableEq, Repr

/-- The reset values of the RED profiles. -/
def redReset : Nat → W32
  | 0 => 0x10804000 | 1 => 0x40602000 | _ => 0xFF200000

/-- The crossbar block as reset leaves it. -/
def Xbar.reset : Xbar :=
  { planeMode := 0, planeReject := false, shareReg := 0x101060402020, share := 0x101060402020, red := [], deTo := 1000, remTo := 1000,
    lastNak := 0, cnt := [], rgnSel := 0, rgnReason := 0, rgnData := 0, regions := [], rem := [] }

/-! ## Collectives (chapter 14) -/

/-- The collective op that runs on a slot; a barrier's among them. -/
structure CollOp where
  ring : Nat
  count : W32
  /-- the job tag it started with -/
  tag : BitVec 16
  /-- the segment that is ascending -/
  seg : Nat
  /-- a gathering op's own data has been read and sent -/
  opened : Bool
  /-- the COLL meter admitted the segment, as an owner's request or a borrowed one (R318) -/
  admitted : Bool
  owner : Bool
  /-- landed elements by child and position in the segment, as binary64 codes -/
  land : Tbl (Tbl Nat)
  /-- the order in which elements landed, oldest first: child and position (R322) -/
  order : List (Nat × Nat)
  /-- the end of the window last granted to each child in this segment -/
  granted : Tbl Nat
  /-- children that sent a present marker -/
  present : List Nat
  /-- the end of this node's own window, and the segment it is for -/
  window : Nat
  windowSeg : Nat
  /-- elements of the segment sent up, or rounded at the root -/
  sentUp : Nat
  /-- the node has sent a present marker of its own -/
  presentSent : Bool
  /-- gathered data that waits for the parent's window -/
  held : List Packet
  /-- result elements that have landed, as disjoint ranges -/
  landed : List (Nat × Nat)
  /-- children whose ARRIVE has landed (R343) -/
  arrived : List Nat
  /-- the tick a barrier is released on: a value of the counter where the release is scheduled, else a physical tick (R336) -/
  release : Option Tick
  scheduled : Bool
  /-- the last physical tick a packet of the op arrived on -/
  heard : Tick
  deriving DecidableEq, Repr

/-- A VALID group slot (R309, R328). -/
structure Group where
  entry : BitVec 128
  seq : BitVec 16
  op : Option CollOp
  /-- an ABORT for the next SEQ is held -/
  abortNext : Bool
  /-- WINDOW packets held for the next SEQ, and children whose ARRIVE for it has landed -/
  windowNext : List Packet
  arriveNext : List Nat
  deriving DecidableEq, Repr

/-- The collective block (Table 14.7). -/
structure Coll where
  sel : BitVec 6
  reason : BitVec 16
  data : BitVec 128
  lastAbort : W32
  cnt : Tbl Word
  groups : Tbl Group
  deriving DecidableEq, Repr

/-- The collective block as reset leaves it. -/
def Coll.reset : Coll := { sel := 0, reason := 0, data := 0, lastAbort := 0, cnt := [], groups := [] }

/-! ## Time, tags and jobs (chapter 15) -/

/-- The alignment state (Table 15.1). -/
inductive Align where
  | free | acquire | locked | holdover
  deriving DecidableEq, Repr

/-- Table 15.3; FREE is a tag with no entry. -/
inductive TagState where
  | assigned | starting | active | draining
  deriving DecidableEq, Repr

/-- A tag that is not FREE. -/
structure Tag where
  st : TagState
  claim : Nat
  /-- the ATTEMPT it is STARTING under -/
  attempt : BitVec 8
  gid : BitVec 16
  /-- T_rel of the GO that arrived -/
  go : Option Word
  /-- the tick it entered its state -/
  since : Tick
  /-- the last tick a packet of the tag arrived on -/
  seen : Tick
  deriving DecidableEq, Repr

/-- A START or TEARDOWN in progress on the root, or a member's part of one: answers gathered. -/
structure Job where
  /-- this module is the root, and wrote the command -/
  root : Bool
  tag : BitVec 16
  gid : BitVec 16
  teardown : Bool
  attempt : BitVec 8
  /-- children that have answered, or members whose tag is FREE -/
  heard : List (BitVec 20)
  /-- acceptances gathered, this module's own among them -/
  accepted : Nat
  /-- the first refusal: its member and cause -/
  refused : Option (BitVec 20 × Nat)
  /-- the lowest missing member a child has named -/
  missing : Option (BitVec 20)
  /-- the physical tick from which its times count -/
  since : Tick
  deriving DecidableEq, Repr

/-- The time and barrier block (Tables 15.8, 15.9). -/
structure TimeBlk where
  role : BitVec 2
  upPort : BitVec 6
  stepNs : BitVec 16
  unlockSeen : Bool
  depthExceeded : Bool
  refBad : Bool
  align : Align
  depth : BitVec 3
  offset : Int
  slew : Int
  /-- successive exchanges with |θ| ≤ 10 ns, with |θ| > 25 ns, and missed -/
  good : Nat
  bad : Nat
  missed : Nat
  syncLoad : Word
  syncIgnored : Bool
  syncArm : Bool
  /-- a pulse has come and the next tick loads (R341) -/
  syncDue : Bool
  barAlign : Bool
  barHold : BitVec 12
  barMargin : BitVec 16
  spreadLost : Bool
  reproReject : Bool
  reproReason : BitVec 16
  tagSel : BitVec 16
  tagSelClaim : BitVec 5
  tagReason : BitVec 16
  /-- TIME_TAG_RES.STATE and CLAIM, as QUERY filled them -/
  tagState : BitVec 3
  tagClaim : BitVec 5
  tagQuiet : BitVec 16
  startTo : BitVec 16
  tags : Tbl Tag
  jobOutcome : BitVec 3
  jobCause : BitVec 8
  attempt : BitVec 8
  jobWho : BitVec 20
  jobs : List Job
  cnt : Tbl Word
  deriving DecidableEq, Repr

/-- The time block as reset leaves it. -/
def TimeBlk.reset : TimeBlk :=
  { role := 0, upPort := 0, stepNs := 1000, unlockSeen := false, depthExceeded := false, refBad := false, align := .free, depth := 0,
    offset := 0, slew := 0, good := 0, bad := 0, missed := 0, syncLoad := 0, syncIgnored := false, syncArm := false, syncDue := false, barAlign := false,
    barHold := 2000, barMargin := 5000, spreadLost := false, reproReject := false, reproReason := 0, tagSel := 0, tagSelClaim := 0,
    tagReason := 0, tagState := 0, tagClaim := 0, tagQuiet := 1000, startTo := 10000, tags := [], jobOutcome := 0, jobCause := 0, attempt := 0, jobWho := 0, jobs := [],
    cnt := [] }

/-! ## Cores, events, the monitor and doze (chapter 16) -/

/-- KSTATE (Table 16.10). -/
inductive KState where
  | none | loaded | running | stopped | faulted
  deriving DecidableEq, Repr

/-- The control kernel of a claim, and what its cores hold of it. -/
structure Kernel where
  st : KState
  /-- the loaded image's header, code and data -/
  image : List Byte
  auth : Nat
  deriving DecidableEq, Repr

/-- No kernel. -/
def Kernel.reset : Kernel := { st := .none, image := [], auth := 0 }

/-- An event unit: the hub's controller, or a foreman core's (R370, R371). -/
structure EvtUnit where
  pend : BitVec 128
  /-- the sources each core is serving, innermost first -/
  serving : Tbl (List Nat)
  /-- CAUSE by core -/
  cause : Tbl Nat
  deriving DecidableEq, Repr

/-- An event unit with nothing pending. -/
def EvtUnit.reset : EvtUnit := { pend := 0, serving := [], cause := [] }

/-- The event block (Tables 16.9, 16.10). -/
structure Evt where
  units : Tbl EvtUnit
  /-- EVT_ROUTE_STS.GROUP is B -/
  groupB : Bool
  latch : BitVec 64
  level : BitVec 64
  wakeMask : BitVec 64
  wakeTick : Word
  dozeReq : BitVec 8
  hubLowReq : Bool
  hubLow : Bool
  dozeReason : BitVec 16
  krnSel : BitVec 5
  krnAddr : Word
  krnReason : BitVec 16
  kernels : Tbl Kernel
  krnFaults : Word
  deriving DecidableEq, Repr

/-- The event block as reset leaves it. -/
def Evt.reset : Evt :=
  { units := [], groupB := false, latch := 0, level := 0, wakeMask := 0x7FFE, wakeTick := BitVec.allOnes 64, dozeReq := 0,
    hubLowReq := false, hubLow := false, dozeReason := 0, krnSel := 0, krnAddr := 0, krnReason := 0, kernels := [], krnFaults := 0 }

/-! ## Health (chapter 17) and the signed store -/

/-- A telemetry record (Table 17.5). -/
structure TRec where
  /-- 0 ALARM, 1 LOG, 2 TRACE, 3 PAD -/
  cls : Nat
  block : Nat
  count : Nat
  reg : Nat
  subject : Nat
  first : Tick
  last : Tick
  value : Word
  /-- it holds its type's reserved entry (R394) -/
  reserved : Bool
  hostDone : Bool
  collDone : Bool
  deriving DecidableEq, Repr

/-- A substitution: the die, lane or core, the logical number it is for, and the physical spare under test (R384). -/
structure Subst where
  die : Nat
  core : Bool
  logical : Nat
  spare : Option Nat
  deriving DecidableEq, Repr

/-- HEALTH_FW_STS.PHASE (Table 17.7). -/
inductive FwPhase where
  | idle | loading | import | pause | standbyReload
  deriving DecidableEq, Repr

/-- The health block. -/
structure Health where
  /-- HEALTH_COND -/
  cond : BitVec 64
  acked : Bool
  /-- HEALTH_SPARE_CTL.MODE is HOLD -/
  hold : Bool
  /-- substitutions under self-test -/
  testing : List Subst
  /-- substitutions that wait under HOLD -/
  held : List Subst
  fwBusy : Bool
  fwPhase : FwPhase
  standbyOk : Bool
  /-- group B serves -/
  servingB : Bool
  fwReason : BitVec 16
  verServing : W32
  verStandby : W32
  tqBase : Word
  tqLog2 : BitVec 5
  tracePeriod : BitVec 12
  tqTail : W32
  tqHead : W32
  tdestValid : Bool
  tdest : BitVec 20
  dropTrace : Word
  dropLog : Word
  /-- the drop counters at the last frame's first tick -/
  dropSeen : Word × Word
  merged : Word
  alarms : Word
  queue : List TRec
  /-- no deputy group is left to run management (R392) -/
  stopped : Bool
  /-- the tick of the last fault of an engine block, by block ID (R387) -/
  engineFault : Tbl Tick
  deriving DecidableEq, Repr

/-- What the signed non-volatile store keeps across every loss of power: the power-loss record (R419) and the health record (R381). -/
structure SignedStore where
  lossCause : BitVec 8
  lossTick : Tick
  armed : Bool
  lanes : Tbl (BitVec 66)
  cores : Tbl (BitVec 9)
  dies : BitVec 4
  planes : BitVec 2
  engines : List Nat
  groups : BitVec 2
  tallies : List Nat
  /-- ports under condition 7 (R388) -/
  ports : BitVec 48
  /-- LD_DEEP_GROUP words, by die × 32 + group -/
  deepGroups : Tbl W32
  /-- the protection section: PROT_SEQ, MIN_SECVER and ITEMs 3 to 6 (Table 18.6) -/
  protSeq : Word
  minSecver : W32
  regionPolicy : BitVec 2
  isolation : BitVec 2
  siteMarks : BitVec 48
  ideRequired : Bool
  /-- enrolled authorities by role (1 VENDOR, 2 OPERATOR, 3 CUSTODIAN) × 8 + index -/
  authorities : Tbl (List Byte)
  /-- debug authorities by index: the scopes each may grant, and its key -/
  debugKeys : Tbl (BitVec 8 × List Byte)
  /-- the sections for which the last start found no valid copy, by the numbers of Table 17.9 (R400) -/
  noCopy : BitVec 5
  deriving DecidableEq, Repr

/-- The security mailbox (Table 18.11). -/
structure Mailbox where
  reqAddr : Word
  rspAddr : Word
  busy : Bool
  done : Bool
  status : BitVec 16
  cntRefused : Word
  deriving DecidableEq, Repr

/-- A store with nothing recorded (DESIGN CHOICE, notes/assumptions/2.md). -/
def SignedStore.factory : SignedStore :=
  { lossCause := 0, lossTick := 0, armed := false, lanes := [], cores := [], dies := 0, planes := 0, engines := [], groups := 0,
    tallies := [], ports := 0, deepGroups := [], protSeq := 0, minSecver := 0, regionPolicy := 2, isolation := 1, siteMarks := 0,
    ideRequired := true, authorities := [], debugKeys := [], noCopy := 0 }

/-- What the security logic holds outside the store (chapter 18). -/
structure Security where
  /-- the outstanding nonce of UNLOCK_CHALLENGE, and the tick it was drawn on -/
  nonce : Option (BitVec 256 × Tick)
  /-- open debug scopes: the mask, the debug authority that granted it, and the tick it closes on -/
  scopes : List (BitVec 8 × Nat × Tick)
  /-- a verified Kolti image staged for handover, its 64-byte header and body -/
  staged : Option (List Byte)
  /-- the serving image -/
  serving : List Byte
  deriving DecidableEq, Repr

/-- Nothing outstanding, nothing loaded. -/
def Security.reset : Security := { nonce := none, scopes := [], staged := none, serving := [] }

/-! ## The shuttle (chapter 8) -/

/-- A row that a DISPATCH of this module sends: the expert, the member that holds it, by logical ID, its slot there, the row's number
among this module's rows for the slot, its token and rank. -/
structure Row where
  expert : Nat
  member : Nat
  slot : Nat
  seq : Nat
  token : Nat
  rank : Nat
  deriving DecidableEq, Repr

/-- A COUNT or ARMED message as its packets gather it: the set summary of a COUNT, the number of entries it will have, and those that
have come, as slot and rows. -/
structure Counted where
  summary : List Byte
  total : Nat
  entries : List (Nat × Nat)
  deriving DecidableEq, Repr

/-- A running DISPATCH (R177). -/
structure Exch where
  ring : Nat
  count : W32
  tag : BitVec 16
  /-- the exchange table and the map as read when it started -/
  table : BitVec 1024
  map : List Word
  grade : Nat
  /-- SRC and its format -/
  src : Nat
  fmt : Nat
  /-- the batch slot and epoch of a BATCHED dispatch -/
  batch : Option (Nat × Nat)
  /-- rows not yet sent, in order -/
  rows : List Row
  /-- COUNT messages taken, and ARMED messages, by member -/
  counts : Tbl Counted
  armedBy : Tbl Counted
  /-- members whose ARMED has been acted on -/
  cleared : List Nat
  /-- this module has placed the rows and sent ARMED -/
  armed : Bool
  /-- the accepted rows of each slot, by member in landing order -/
  plan : Tbl (List (Nat × Nat))
  /-- rerouted rows landed behind them, by slot -/
  extra : Tbl Nat
  /-- packets of other members' rows landed: member, slot, row, block -/
  got : List (Nat × Nat × Nat × Nat)
  /-- the positions of rows of this module to itself discarded at landing, by slot -/
  lost : Tbl (List Nat)
  /-- packets sent and not acknowledged: member and shuttle header -/
  unacked : List (Nat × List Byte)
  /-- its landing is complete -/
  landed : Bool
  dropped : Nat
  rerouted : Nat
  deriving DecidableEq, Repr

/-- A packet of a result that has landed: token × K + rank, its blocks, and whose result it is of (R186). -/
structure Landed where
  key : Nat
  first : Nat
  blocks : Nat
  fmt : Nat
  src : Nat
  deriving DecidableEq, Repr

/-- A result context (R186). -/
structure Results where
  armed : Bool
  table : BitVec 1024
  batch : Option (Nat × Nat)
  /-- the ranks expected, token × K + rank, with their weights -/
  expect : Tbl Nat
  /-- no amendment of ROUTED is to come -/
  final : Bool
  got : List Landed
  signalled : Bool
  deriving DecidableEq, Repr

/-- A running RETURN op: its ring and count, and its packets not acknowledged. -/
structure Returning where
  ring : Nat
  count : W32
  unacked : List (Nat × List Byte)
  deriving DecidableEq, Repr

/-- An exchange channel of a claim (R172). -/
structure Chan where
  /-- COUNT messages held for the next DISPATCH, by member -/
  held : Tbl Counted
  disp : Option Exch
  res : Option Results
  ret : Option Returning
  /-- the RETURN op of this exchange has completed -/
  retDone : Bool
  deriving DecidableEq, Repr

/-- A free channel. -/
def Chan.reset : Chan := { held := [], disp := none, res := none, ret := none, retDone := false }

/-- A CANCEL_BATCH that has started: its descriptor, its claim, slot and old epoch, and what has been discarded (R190). -/
structure Cancel where
  ring : Nat
  count : W32
  claim : Nat
  batch : Nat × Nat
  discarded : Nat
  deriving DecidableEq, Repr

/-- The shuttle (Table 8.8). -/
structure Shuttle where
  armTo : BitVec 16
  cnt : Tbl Word
  /-- by claim × 64 + XCH -/
  chans : Tbl Chan
  cancels : List Cancel
  deriving DecidableEq, Repr

/-- The shuttle as reset leaves it. -/
def Shuttle.reset : Shuttle := { armTo := 1000, cnt := [], chans := [], cancels := [] }

/-! ## What the block sends out -/

/-- The messages of chapter 15 whose packet layouts the spec does not give. -/
inductive CtrlMsg where
  | timeRequest | timeAnswer | arrive | release | jobStart | jobAnswer | jobGo | jobAbort | jobRevoke | jobFree
  deriving DecidableEq, Repr

/-- One thing the block puts out, as its neighbours see it. The log is the model's own; a command adds to it and none reads it. -/
inductive Output where
  /-- an MSI-X message (R48) -/
  | msix (vector : Nat)
  /-- a completion record written to host memory (R65) -/
  | record (ring : Nat) (slot : Nat) (rec : BitVec 256)
  /-- bytes written to host memory -/
  | hostWrite (addr : Nat) (data : List Byte)
  /-- a doorbell line is read (R46, R47) -/
  | doorbellRead (ring : Nat)
  /-- an Unsupported Request response (R41, R44) -/
  | unsupported
  /-- data returned to a host read -/
  | data (bytes : List Byte)
  /-- back-invalidate of the host's copy of a line (R43) -/
  | recall (addr : Nat)
  | i3cAck
  | i3cNack
  | i3cData (bytes : List Byte)
  /-- a leaving notice on a port (Table 1.10) -/
  | leaving (port : Nat)
  /-- a packet starts on a fabric port, or is delivered to an engine of this module -/
  | packet (port : Option Nat) (k : Packet)
  /-- an accepted packet is handed to its engine -/
  | deliver (k : Packet)
  /-- an idle flit on a port, with its ACK or NAK, as its 256 bytes (R271, R273) -/
  | idle (port : Nat) (flit : List Byte)
  /-- flits replayed on a port, as their bytes -/
  | replay (port : Nat) (flits : List (List Byte))
  /-- a delivery confirmation to the gateway that detoured a packet (R277) -/
  | confirm (diverter : Nat) (k : Packet)
  /-- a time, barrier or job message whose layout the spec does not give: its kind, destination coordinate or port, and contents -/
  | message (kind : CtrlMsg) (dst : Nat) (fields : List Nat)
  /-- a telemetry record taken by the host ring or sent to the collector (R395) -/
  | telemetry (toHost : Bool) (slot : Nat) (rec : BitVec 256)
  /-- an event delivered to a core (R371) -/
  | event (unit core source : Nat)
  /-- a kernel's cores start, or halt -/
  | kernel (claim : Nat) (running : Bool)
  /-- a completion record in a core's window (R369) -/
  | window (core slot : Nat) (rec : BitVec 256)
  deriving DecidableEq, Repr

/-! ## The whole -/

/-- Everything but memory and the queue of commands. -/
@[ext] structure Dev where
  now : Tick
  /-- the sum of the timebase's steps and loads (R336) -/
  skew : Word
  power : Power
  dies : Tbl Die
  cap : PowerCap
  host : HostIf
  blocks : Tbl Block
  ringSel : BitVec 10
  epochClaim : BitVec 5
  epochSlot : BitVec 8
  rings : Tbl Ring
  tallies : Tbl Tally
  claims : Tbl Claim
  frames : Frames
  objects : Tbl Obj
  hoist : Hoist
  health : Health
  store : SignedStore
  mbx : Mailbox
  sec : Security
  ports : Tbl Port
  routing : Routing
  xbar : Xbar
  coll : Coll
  time : TimeBlk
  evt : Evt
  shuttle : Shuttle
  /-- EVT_DOZE_STS.LAST reads ABORTED -/
  dozeAborted : Bool
  /-- Fixed-Bits and Fixed-Pace are active (TIME_REPRO, R353) -/
  fixedBits : Bool
  fixedPace : Bool
  /-- ops started so far -/
  started : Nat
  /-- the turns at the engines (R74): the ring last served by engine × 64 + claim, and the claim last served by engine × 64 + 63 -/
  turns : Tbl Nat
  capGen : Word
  /-- step 8 of Table 1.9 is done: the capability block is final (R414) -/
  capFinal : Bool
  /-- the tick of the last change of the capability block -/
  capTick : Option Tick
  /-- the number of free values drawn so far (notes/assumptions/4.md) -/
  draws : Nat
  /-- what the block has put out, newest first -/
  out : List Output
  deriving DecidableEq, Repr

/-- The state of the block. -/
@[ext]
structure State where
  dev : Dev
  /-- device memory: keyed by its home (Obj.key) -/
  mem : Memory
  /-- the commands that wait, first in first out -/
  pending : List Instr
  deriving DecidableEq, Repr

/-- The device right after the always-on domain has powered up (notes/assumptions/2.md). -/
def Dev.reset : Dev :=
  { now := 0, skew := 0,
    power := { aonOn := true, mgmtOn := true, hubOn := false, pstate := .auxOnly, mated := true, matedSettled := true,
               thermTrip := false, hubTripped := false, mgmtTripped := false, thermN := false, svcReqN := false,
               auxFromMain := false, auxOk := true, mainOk := true, mainLive := true, protectionOpen := false, kolti := false, identityBad := false, seqTick := 0,
               hubReady := false, retries := [], armTick := none,
               sensors := { mainV := 0, mainI := 0, auxV := 0, power := 0, inlet := 0, outlet := 0, junction := 0 },
               i3cStrap := 0, i3cDynamic := none, i3cPtr := 0 },
    dies := [],
    cap := { cap := 3600, capReg := 3600, power := 0, alarmFrame := none, hubCanaries := [], hubState := 0 },
    host := { linkUp := false, link := { x16 := false, speed := 0, cache := false, mem := false, bi := false, ide := false, busMaster := false, bar2 := 0 },
              perstLow := true, refclk := true, training := false, trainTick := 0, supplyTick := 0, offTick := none, cached := [], busMaster := false,
              bar0 := 0, bar2 := 0, bar4 := 0, pollUs := 10, dbCtlMode := 0, dbMode := 0, hdmErrDecoder := false,
              hdmErrReason := 0, cntLinkDown := 0, cntDbRead := 0, msixOn := false, msixPending := 0,
              msixMask := BitVec.allOnes 2048, msixAddr := [], msixData := [], hdm := [], cxlEvents := [] },
    blocks := [], ringSel := 0, epochClaim := 0, epochSlot := 0, rings := [], tallies := [], claims := [],
    frames := { len := 10, lenReg := 10, lendOff := false, lendState := 0, writeReject := false, num := 0, start := 0,
                skew := 0, lastServed := [], asks := [] },
    objects := [],
    hoist := { cfgReg := .reset, cfg := .reset, sel := 0, busy := false, reason := 0, infoLost := 0, infoNear := 0, entry := 0,
               cntUnmapped := 0, cntLost := 0, heatTick := 0 },
    health := { cond := 0, acked := false, hold := false, testing := [], held := [], fwBusy := false, fwPhase := .idle,
                standbyOk := false, servingB := false, fwReason := 0, verServing := 0, verStandby := 0, tqBase := 0, tqLog2 := 6,
                tracePeriod := 0, tqTail := 0, tqHead := 0, tdestValid := false, tdest := 0, dropTrace := 0, dropLog := 0,
                dropSeen := (0, 0), merged := 0, alarms := 0, queue := [], stopped := false, engineFault := [] },
    store := .factory, mbx := { reqAddr := 0, rspAddr := 0, busy := false, done := false, status := 0, cntRefused := 0 },
    sec := .reset, ports := [], routing := .reset, xbar := .reset, coll := .reset, time := .reset, evt := .reset, shuttle := .reset,
    dozeAborted := false, fixedBits := false, fixedPace := false, started := 0, turns := [], capGen := 0, capFinal := false, capTick := none, draws := 0, out := [] }

/-- The block right after reset: nothing listed in memory, no command waiting. -/
def State.reset : State := { dev := .reset, mem := [], pending := [] }

end Sys2Proof.Machine
end

