-- ==== Sys2Proof/Machine/Ops.lean ====
section
/-!
DEFINITION. The named operations over the state that many commands share: reading and rewriting one entry of a table, vectors, alarms
and logs, a block's moves between states, the health state and the capability count.
-/
namespace Sys2Proof.Machine

/-! ## Answers -/

/-- Go on with a device state, memory as it was. -/
def answer (s : State) (d : Dev) : Host.Outcome State Fault Refusal := .next { s with dev := d }

/-- Go on with a device state and changes of memory. -/
def answerMem (s : State) (p : Dev × List MemOp) : Host.Outcome State Fault Refusal :=
  .next { s with dev := p.1, mem := s.mem.applyAll p.2 }

/-! ## Entries of the tables -/

def Dev.die (d : Dev) (n : Nat) : Die := Tbl.lookD d.dies n .reset
def Dev.setDie (d : Dev) (n : Nat) (x : Die) : Dev := { d with dies := Tbl.put d.dies n x }
def Dev.modDie (d : Dev) (n : Nat) (f : Die → Die) : Dev := d.setDie n (f (d.die n))
def Dev.ring (d : Dev) (n : Nat) : Ring := Tbl.lookD d.rings n .reset
def Dev.setRing (d : Dev) (n : Nat) (x : Ring) : Dev := { d with rings := Tbl.put d.rings n x }
def Dev.modRing (d : Dev) (n : Nat) (f : Ring → Ring) : Dev := d.setRing n (f (d.ring n))
def Dev.claim (d : Dev) (n : Nat) : Claim := Tbl.lookD d.claims n .reset
def Dev.setClaim (d : Dev) (n : Nat) (x : Claim) : Dev := { d with claims := Tbl.put d.claims n x }
def Dev.modClaim (d : Dev) (n : Nat) (f : Claim → Claim) : Dev := d.setClaim n (f (d.claim n))
def Dev.tally (d : Dev) (n : Nat) : Tally := Tbl.lookD d.tallies n .reset
def Dev.setTally (d : Dev) (n : Nat) (x : Tally) : Dev := { d with tallies := Tbl.put d.tallies n x }
def Dev.obj (d : Dev) (n : Nat) : Option Obj := Tbl.look d.objects n
def Dev.setObj (d : Dev) (n : Nat) (x : Obj) : Dev := { d with objects := Tbl.put d.objects n x }
def Dev.port (d : Dev) (n : Nat) : Port := Tbl.lookD d.ports n .reset
def Dev.setPort (d : Dev) (n : Nat) (x : Port) : Dev := { d with ports := Tbl.put d.ports n x }
def Dev.modPort (d : Dev) (n : Nat) (f : Port → Port) : Dev := d.setPort n (f (d.port n))
def Dev.group (d : Dev) (n : Nat) : Option Group := Tbl.look d.coll.groups n
def Dev.setGroup (d : Dev) (n : Nat) (x : Group) : Dev := { d with coll := { d.coll with groups := Tbl.put d.coll.groups n x } }
def Dev.tag (d : Dev) (n : Nat) : Option Tag := Tbl.look d.time.tags n
def Dev.setTag (d : Dev) (n : Nat) (x : Tag) : Dev := { d with time := { d.time with tags := Tbl.put d.time.tags n x } }
def Dev.kernel (d : Dev) (c : Nat) : Kernel := Tbl.lookD d.evt.kernels c .reset
def Dev.setKernel (d : Dev) (c : Nat) (x : Kernel) : Dev := { d with evt := { d.evt with kernels := Tbl.put d.evt.kernels c x } }
/-- A counter of a table of counters rises, wrapping at 2^64. -/
def bump (t : Tbl Word) (off k : Nat) : Tbl Word := Tbl.upd t off 0 (fun c => c + BitVec.ofNat 64 k)
def Dev.emit (d : Dev) (o : Output) : Dev := { d with out := o :: d.out }
def Dev.emitAll (d : Dev) (os : List Output) : Dev := { d with out := os.reverse ++ d.out }

/-- Draw the next free value. -/
def Dev.draw (d : Dev) : BitVec 64 × Dev := (Config.freeValue d.draws, { d with draws := d.draws + 1 })

/-! ## Blocks -/

/-- The block ID of Table 19.1. -/
def blockCode : BlockId → Nat
  | .hostif => 0x01 | .ring _ => 0x02 | .claim _ => 0x03 | .die n => 0x10 + n.val | .hoist => 0x18 | .xbar => 0x20
  | .port _ => 0x21 | .routing => 0x22 | .coll => 0x23 | .time => 0x24 | .event => 0x25 | .health => 0x26
  | .security => 0x27 | .shuttle => 0x28

/-- The number under which the block's status is kept. -/
def blockKey : BlockId → Nat
  | .hostif => 0x01 | .ring r => 1000 + r.val | .claim c => 3000 + c.val | .die n => 0x10 + n.val | .hoist => 0x18
  | .xbar => 0x20 | .port p => 4000 + p.val | .routing => 0x22 | .coll => 0x23 | .time => 0x24 | .event => 0x25
  | .health => 0x26 | .security => 0x27 | .shuttle => 0x28

/-- The SUBJECT a log of the block names: its number among its kind. -/
def blockSubject : BlockId → Nat
  | .ring r => r.val | .claim c => c.val | .die n => n.val | .port p => p.val | _ => 0

/-- The CFGWIN offset of the block's *_STS register. -/
def blockSts : BlockId → Nat
  | .hostif => 0x010004 | .ring _ => 0x011008 | .claim c => 0x020004 + c.val * 0x1000 | .die n => 0x040004 + n.val * 0x10000
  | .hoist => 0x080004 | .xbar => 0x100004 | .port p => 0x140004 + p.val * 0x400 | .routing => 0x160004 | .coll => 0x180004
  | .time => 0x1A0004 | .event => 0x1C0004 | .health => 0x1E0004 | .security => 0x200004 | .shuttle => 0x130004

/-- Every block. -/
def allBlocks : List BlockId :=
  (List.finRange 1024).map .ring ++ (List.finRange 32).map .claim ++ (List.finRange 4).map .die ++ (List.finRange 48).map .port ++
    [.hostif, .hoist, .xbar, .routing, .coll, .time, .event, .health, .security, .shuttle]

/-- The five blocks of the management domain (R20). -/
def blockMgmt : BlockId → Bool
  | .hostif | .time | .event | .health | .security => true
  | _ => false

/-- The block whose status is kept under a number. -/
def blockOfKey (k : Nat) : Option BlockId :=
  if h : 1000 ≤ k ∧ k < 2024 then some (.ring ⟨k - 1000, by omega⟩)
  else if h : 3000 ≤ k ∧ k < 3032 then some (.claim ⟨k - 3000, by omega⟩)
  else if h : 4000 ≤ k ∧ k < 4048 then some (.port ⟨k - 4000, by omega⟩)
  else if h : 0x10 ≤ k ∧ k < 0x14 then some (.die ⟨k - 0x10, by omega⟩)
  else match k with
    | 0x01 => some .hostif | 0x18 => some .hoist | 0x20 => some .xbar | 0x22 => some .routing | 0x23 => some .coll
    | 0x24 => some .time | 0x25 => some .event | 0x26 => some .health | 0x27 => some .security | 0x28 => some .shuttle
    | _ => none

def Dev.block (d : Dev) (b : BlockId) : Block := Tbl.lookD d.blocks (blockKey b) .reset
def Dev.setBlock (d : Dev) (b : BlockId) (x : Block) : Dev := { d with blocks := Tbl.put d.blocks (blockKey b) x }
def Dev.isRunning (d : Dev) (b : BlockId) : Bool := (d.block b).st == .running
def Dev.isOff (d : Dev) (b : BlockId) : Bool := (d.block b).st == .off

/-- The claim of a number, as a block. -/
def claimBlock (c : Nat) : BlockId := .claim (Fin.ofNat 32 c)
def ringBlock (r : Nat) : BlockId := .ring (Fin.ofNat 1024 r)
def dieBlock (n : Nat) : BlockId := .die (Fin.ofNat 4 n)

/-- A 16-bit reason: block ID and cause (Table 3.6). -/
def reasonOf (b : BlockId) (cause : Nat) : BitVec 16 := BitVec.ofNat 16 ((blockCode b) * 256 + cause)

/-- Every reason of Table 19.7 that is given in full. -/
def reason16 (v : Nat) : BitVec 16 := BitVec.ofNat 16 v

/-! ## Vectors (R48) -/

/-- MSI-X messages go out while the host interface is RUNNING, the link is up and MSI-X is enabled (R48, R50, R52). -/
def Dev.msixOpen (d : Dev) : Bool := d.host.linkUp && d.host.msixOn && d.isRunning .hostif

/-- Raise a vector: its message goes out, or its pending bit is set (R48). -/
def Dev.raise (d : Dev) (v : Nat) : Dev :=
  if d.msixOpen && !d.host.msixMask.getLsbD v then d.emit (.msix v)
  else { d with host := { d.host with msixPending := d.host.msixPending ||| BitVec.ofNat 2048 (2 ^ v) } }

/-- Send the pending messages of the unmasked vectors (R48). -/
def Dev.flushMsix (d : Dev) : Dev :=
  if d.msixOpen then
    let ready := d.host.msixPending &&& ~~~ d.host.msixMask
    let vs := if ready = 0 then [] else (List.range 2048).filter (fun v => ready.getLsbD v)
    ({ d with host := { d.host with msixPending := d.host.msixPending &&& d.host.msixMask } }).emitAll (vs.map .msix)
  else d

/-! ## Telemetry (R393, R394) -/

/-- Entries of the queue that no alarm type reserves (R394: at least 3,840). -/
def sharedEntries : Nat := 3840

/-- The arrival merges into this record. -/
def TRec.same (r : TRec) (cls block reg subject : Nat) : Bool :=
  r.cls == cls && r.block == block && r.reg == reg && r.subject == subject && !r.hostDone && !r.collDone

/-- Merge an arrival: COUNT rises, saturating, and LAST and VALUE are updated. -/
def TRec.merge (r : TRec) (now : Tick) (value : Word) : TRec :=
  { r with count := if r.count < 0xFFFF then r.count + 1 else r.count, last := now, value := value }

/-- Rewrite the first record that meets a condition. -/
def mergeFirst (p : TRec → Bool) (f : TRec → TRec) : List TRec → List TRec
  | [] => []
  | r :: t => if p r then f r :: t else r :: mergeFirst p f t

/-- Drop the first record that meets a condition: the oldest, since the queue is in order of arrival. -/
def dropFirst (p : TRec → Bool) : List TRec → List TRec
  | [] => []
  | r :: t => if p r then t else r :: dropFirst p t

/-- Place an arriving telemetry record by the first rule of R394 that applies. -/
def Health.enqueue (h : Health) (now : Tick) (cls block reg subject : Nat) (value : Word) : Health :=
  let fresh : TRec := { cls := cls, block := block, count := 1, reg := reg, subject := subject, first := now, last := now,
                        value := value, reserved := false, hostDone := false, collDone := false }
  let isTrace := fun r : TRec => r.cls == 2
  let isLog := fun r : TRec => r.cls == 1
  if h.queue.any (fun r => r.same cls block reg subject) then
    { h with queue := mergeFirst (fun r => r.same cls block reg subject) (fun r => r.merge now value) h.queue,
             merged := h.merged + 1 }
  else if (h.queue.filter (fun r => !r.reserved)).length < sharedEntries then { h with queue := h.queue ++ [fresh] }
  else if cls == 2 then { h with dropTrace := h.dropTrace + 1 }
  else if h.queue.any isTrace then
    { h with queue := dropFirst isTrace h.queue ++ [fresh], dropTrace := h.dropTrace + 1 }
  else if cls == 1 then { h with dropLog := h.dropLog + 1 }
  else if h.queue.any isLog then
    { h with queue := dropFirst isLog h.queue ++ [fresh], dropLog := h.dropLog + 1 }
  else if h.queue.any (fun r => r.reserved && r.block == block && r.reg == reg) then
    { h with queue := mergeFirst (fun r => r.reserved && r.block == block && r.reg == reg)
                        (fun r => { r.merge now value with subject := 0xFFFFFFFF }) h.queue,
             merged := h.merged + 1 }
  else { h with queue := h.queue ++ [{ fresh with reserved := true }] }

/-- A flag in its place. -/
def flagAt (b : Bool) (i : Nat) : Nat := b2n b * 2 ^ i

/-- FAB_PORT_LINK.STATE (Table 12.9). -/
def linkCode : LinkState → Nat
  | .down => 0 | .training => 1 | .up4 => 2 | .up3 => 3 | .miswired => 4 | .tooLong => 5 | .off => 6

/-- FAB_PORT_LINK (Table 12.9). -/
def Port.linkReg (x : Port) : Nat := linkCode x.link * 2 ^ 29 + x.lanes.toNat * 2 ^ 20 + x.delay.toNat

/-- A die whose governor acts and whose pace gate issues: powered and not dozing (Table 2.2). A WAKING die counts as dozing, one that is
ENTERING does not: R374 names LIGHT and DEEP only (DESIGN CHOICE, notes/assumptions/55.md). -/
def Die.governed (x : Die) : Bool :=
  x.on && (match x.doze with | .light | .deep | .waking => false | _ => true)

/-- LD_GOV_STS.STATE as it reads: OFF while the domain is off or the die dozes. -/
def Die.shownState (x : Die) : BitVec 4 := if x.governed then x.govState else 0

/-- LD_GOV_STS (Table 2.4). -/
def Die.govSts (x : Die) : Nat :=
  flagAt x.paceLost 31 + flagAt x.writeReject 30 + x.vout.toNat * 2 ^ 16 + x.eff.toNat * 2 ^ 4 + x.shownState.toNat

/-- LD_LANE_STS (Table 6.10). -/
def Die.laneSts (x : Die) : Nat := x.laneSpares.length * 2 ^ 8 + popCount 64 x.laneLog.toNat

/-- HOSTIF_LINK_STS (Table 3.9). 256-byte flits are those of a 64 GT/s link (DEDUCED, notes/assumptions/54.md). -/
def HostIf.linkSts (h : HostIf) : Nat :=
  if h.linkUp then
    (if h.link.x16 then 16 else 8) * 2 ^ 8 + h.link.speed.toNat * 2 ^ 5 + flagAt h.link.ide 4 + flagAt h.link.bi 3 + flagAt h.link.mem 2 +
      flagAt h.link.cache 1 + flagAt (h.link.speed == 3) 0
  else 0

/-- A log (R393): a state change of a block, claim, tag, doze or handover. -/
def Dev.log (d : Dev) (block reg subject : Nat) (value : Word) : Dev :=
  { d with health := d.health.enqueue d.now 1 block reg subject value }

/-- A health alarm, keyed as R423 states; its recording raises vector 1 (Table 3.4). -/
def Dev.alarm (d : Dev) (block reg subject : Nat) (value : Word) : Dev :=
  { d with health := { d.health.enqueue d.now 0 block reg subject value with alarms := d.health.alarms + 1 } }.raise 1

/-! ## A block's moves -/

/-- The value of a *_STS register (Table 3.6). -/
def Block.sts (b : Block) : Nat :=
  b2n b.reject * 2 ^ 31 + b2n b.autoStop * 2 ^ 30 +
    (match b.st with | .off => 0 | .checking => 1 | .running => 2 | .quiescing => 3 | .refused => 4) * 2 ^ 16 + b.reason.toNat

/-- Write a block's status: vector 0 when the host interface changes STATE, vector 3 when any block enters REFUSED (Table 3.4), and a log of
the change (R393). -/
def Dev.moveBlock (d : Dev) (b : BlockId) (x : Block) : Dev :=
  let old := d.block b
  let d := d.setBlock b x
  let d := if old.st != x.st then d.log (blockCode b) (blockSts b) (blockSubject b) (BitVec.ofNat 64 x.sts) else d
  let d := if b == .hostif && old.st != x.st then d.raise 0 else d
  if x.st == .refused && old.st != .refused then d.raise 3 else d

/-- A block leaves RUNNING on its own: AUTO_STOP with a reason, and vector 3 (R57, Table 3.4). -/
def Dev.selfStop (d : Dev) (b : BlockId) (reason : BitVec 16) : Dev :=
  (d.moveBlock b { d.block b with st := .quiescing, autoStop := true, reason := reason }).raise 3

/-- A block's check ends in REFUSED with a cause (R55). -/
def Dev.refuse (d : Dev) (b : BlockId) (reason : BitVec 16) : Dev :=
  d.moveBlock b { d.block b with st := .refused, reason := reason }

/-! ## The capability count and the health state -/

/-- CAP_GEN rises once for all the changes of one tick (R414). -/
def Dev.bumpCap (d : Dev) : Dev :=
  if d.capFinal && d.capTick != some d.now then { d with capGen := d.capGen + 1, capTick := some d.now } else d

/-- The health state that the present conditions set, 0 HEALTHY to 3 CONTAINED (R380, Table 17.1). -/
def healthState (cond : BitVec 64) : Nat :=
  if cond.getLsbD 10 then 3
  else if (cond &&& 0x3F8) ≠ 0 then 2
  else if (cond &&& 0x007) ≠ 0 then 1
  else 0

/-- The health state of the module: a health record with no valid copy leaves it DEGRADED at least (Table 18.1). -/
def Dev.healthNow (d : Dev) : Nat := if d.store.noCopy.getLsbD 3 then max 2 (healthState d.health.cond) else healthState d.health.cond

/-- The replacement request: raised while the state is DEGRADED or CONTAINED (R382). -/
def Dev.svcReq (d : Dev) : Bool := 2 ≤ d.healthNow

/-- A condition of Table 17.1 arises: the state is recomputed; a condition of bit 3 or higher clears ACKED, raises vector 2 and adds
an event record (R380 to R383). -/
def Dev.condArises (d : Dev) (n : Nat) : Dev :=
  let d := ({ d with health := { d.health with cond := d.health.cond ||| BitVec.ofNat 64 (2 ^ n) } }).bumpCap
  if 3 ≤ n then
    let d := { d with health := { d.health with acked := false },
                      host := { d.host with cxlEvents := d.host.cxlEvents ++ [n] },
                      power := { d.power with svcReqN := true } }
    d.raise 2
  else d

/-- A condition ends; the request ends when the state falls below DEGRADED (R383). -/
def Dev.condEnds (d : Dev) (n : Nat) : Dev :=
  if d.health.cond.getLsbD n then
    let d := ({ d with health := { d.health with cond := d.health.cond &&& ~~~ BitVec.ofNat 64 (2 ^ n) } }).bumpCap
    if d.svcReq then d
    else { d with health := { d.health with acked := false }, power := { d.power with svcReqN := false } }
  else d

/-! ## Time (R336, R339) -/

/-- Ticks counted physically, the timebase's steps left out. -/
def Dev.phys (d : Dev) : Tick := d.now - d.skew

/-- So many microseconds have passed since a physical tick. -/
def Dev.past (d : Dev) (t : Tick) (us : Nat) : Bool := decide (us * 1000 ≤ (d.phys - t).toNat)

/-- Some claim of the module is RUNNING. -/
def Dev.anyClaimRuns (d : Dev) : Bool := (List.range 32).any (fun c => d.isRunning (claimBlock c))

/-- The timebase counter moves to a value on one tick. -/
def Dev.stepTo (d : Dev) (v : Word) : Dev := { d with now := v, skew := d.skew + (v - d.now) }

/-- The alignment state changes: entry into and exit from LOCKED raise vector 5; an exit raises an alarm and is counted (R339). What else
"time or barrier status changes" in Table 3.4 may mean is open: a barrier's own events raise nothing (DESIGN CHOICE, notes/assumptions/55.md). -/
def Dev.setAlign (d : Dev) (a : Align) : Dev :=
  let was := d.time.align
  let d := { d with time := { d.time with align := a, good := 0, bad := 0, missed := 0 } }
  if was == a then d
  else if was == .locked then
    let d := { d with time := { d.time with unlockSeen := true, cnt := bump d.time.cnt 0x68 1 } }
    (d.alarm 0x24 0x1A0068 0 (Tbl.lookD d.time.cnt 0x68 0)).raise 5
  else if a == .locked then d.raise 5
  else d

/-- A follower's upstream link is down: LOCKED becomes HOLDOVER. -/
def Dev.upstreamLost (d : Dev) : Dev := if d.time.align == .locked && d.time.role == 2 then d.setAlign .holdover else d

/-- A tag moves to a state, which is logged (R393). -/
def tagCode : Option Tag → Nat
  | none => 0
  | some t => match t.st with | .assigned => 1 | .starting => 2 | .active => 3 | .draining => 4

def Dev.tagTo (d : Dev) (n : Nat) (t : Option Tag) : Dev :=
  let was := d.tag n
  let d := { d with time := { d.time with tags := match t with | some t => Tbl.put d.time.tags n t | none => Tbl.del d.time.tags n } }
  if tagCode was = tagCode t then d else d.log 0x24 0x1A0048 n (BitVec.ofNat 64 (tagCode t))

/-! ## Doze (R374) -/

/-- EVT_DOZE_STS.STATE of a die (Table 16.7). -/
def dozeCode : Doze → Nat
  | .run => 0 | .entering _ => 1 | .light => 2 | .deep => 3 | .waking => 4

/-- A die's doze state changes, which is logged (R393). -/
def Dev.dozeTo (d : Dev) (n : Nat) (x : Doze) : Dev :=
  if (d.die n).doze == x then d
  else (d.modDie n (fun y => { y with doze := x })).log 0x25 0x1C0064 n (BitVec.ofNat 64 (dozeCode x))

/-- A dozing die starts to wake (R377). -/
def Dev.wakeDie (d : Dev) (n : Nat) : Dev :=
  match (d.die n).doze with
  | .light | .deep => (d.dozeTo n .waking).modDie n (fun x => { x with cntWake := x.cntWake + 1 })
  | _ => d

/-! ## Management (R392) -/

/-- A CFGWIN write reaches its block: with management stopped it is discarded. -/
def viaCfg (s : State) (o : Host.Outcome State Fault Refusal) : Host.Outcome State Fault Refusal :=
  if s.dev.health.stopped then .next s else o

/-! ## Counters -/

/-- A die serves its claims' ops: RUNNING, or QUIESCING, while those of claims that are not OFF run on (R416). -/
def Dev.dieServes (d : Dev) (n : Nat) : Bool := (d.block (dieBlock n)).st == .running || (d.block (dieBlock n)).st == .quiescing

/-- Add to a running counter of a die, wrapping at 2^64 (R35). The counters of an OFF die have stopped (R416). -/
def Dev.count (d : Dev) (n off k : Nat) : Dev :=
  if d.dieServes n then
    d.modDie n (fun x => { x with cnt := Tbl.upd x.cnt off 0 (fun c => c + BitVec.ofNat 64 k) })
  else d

/-- The offsets of the picks counters in a die's block (Table 2.3). -/
def cntPicks : Nat := 0x310
def cntIdle : Nat := 0x318
def cntStall : Nat := 0x320
def cntShort : Nat := 0x328
def cntEnergy : Nat := 0x330

end Sys2Proof.Machine
end

