-- ==== Sys2Proof/Machine/Homes.lean ====
section
/-!
DEFINITION. Objects, units and homes: where a device address is kept, and reads and writes of device memory through the homes
(R211, R213, R217).
-/
namespace Sys2Proof.Machine

/-! ## Disjoint ranges of unit numbers -/

def inRanges (l : List (Nat × Nat)) (i : Nat) : Bool := l.any (fun r => r.1 ≤ i && i < r.2)

/-- Take `[lo, hi)` out. -/
def rangesDel (l : List (Nat × Nat)) (lo hi : Nat) : List (Nat × Nat) :=
  l.flatMap (fun r => [(r.1, min r.2 lo), (max r.1 hi, r.2)].filter (fun q => q.1 < q.2))

/-- Put `[lo, hi)` in. -/
def rangesAdd (l : List (Nat × Nat)) (lo hi : Nat) : List (Nat × Nat) :=
  if lo < hi then (lo, hi) :: rangesDel l lo hi else l

/-- How many numbers the ranges hold. -/
def rangesCount (l : List (Nat × Nat)) : Nat := (l.map (fun r => r.2 - r.1)).sum

/-! ## Objects -/

/-- Bytes of a tile with its header, by format code (Table 5.4). -/
def slotBytes : Nat → Nat
  | 1 => 8768 | 2 => 16960 | 3 => 16960 | 4 => 16448 | 5 => 32832 | 6 => 65600 | _ => 65536

/-- Bytes of a unit (R211). -/
def Obj.unitSize (o : Obj) : Nat := if o.flat then 65536 else slotBytes o.slotFmt

def Obj.units (o : Obj) : Nat := o.len / o.unitSize

/-- The dies that hold the object, ascending (R213). -/
def Obj.dieList (o : Obj) : List Nat := setBits 4 o.dies.toNat

/-- The die of unit `i` (R213). -/
def Obj.unitDie (o : Obj) (i : Nat) : Nat := nth o.dieList (i % o.dieList.length) 0

/-- The deep-tier offset of unit `i` on its die (R213). -/
def Obj.deepPos (o : Obj) (i : Nat) : Nat := nth o.deepOff (o.unitDie i) 0 + i / o.dieList.length * o.unitSize

/-- Near chunks one unit takes (R217). -/
def Obj.chunks (o : Obj) : Nat := ceilDiv o.unitSize 1024

def Obj.isNear (o : Obj) (i : Nat) : Bool := inRanges o.near i

/-- Where near cells are keyed: above every deep cell. -/
def nearBase : Nat := 2 ^ 50

/-- The memory key of a byte of a unit: in the near tier by device address, in the deep tier by die and offset (R217: only the home
holds the contents). -/
def Obj.key (o : Obj) (i off : Nat) : Nat :=
  if o.isNear i then nearBase + o.base + i * o.unitSize + off else o.unitDie i * 2 ^ 40 + o.deepPos i + off

def Obj.holds (o : Obj) (a n : Nat) : Bool := o.base ≤ a && a + n ≤ o.base + o.len && 0 < n

/-- READY or LOST (R214). -/
def Obj.named (o : Obj) : Bool := o.st == .ready || o.st == .lost

/-- The object that holds `[a, a + n)`, among those a predicate admits. -/
def Dev.findObj (d : Dev) (p : Obj → Bool) (a n : Nat) : Option (Nat × Obj) :=
  d.objects.find? (fun e => p e.2 && e.2.holds a n)

/-- The memory key of a device address, through the object an engine or the host reaches there. -/
def Dev.keyOf (d : Dev) (a : Nat) : Option Nat :=
  (d.findObj (fun o => o.st != .free) a 1).map fun e => e.2.key ((a - e.2.base) / e.2.unitSize) ((a - e.2.base) % e.2.unitSize)

/-- One byte of device memory; an address no object holds reads 0 (R211). -/
def Dev.readByte (d : Dev) (m : Memory) (a : Nat) : Byte :=
  match d.keyOf a with | some k => m.get k | none => 0

/-- `n` bytes of device memory. -/
def Dev.readDev (d : Dev) (m : Memory) (a n : Nat) : List Byte := (List.range n).map (fun i => d.readByte m (a + i))

/-- The little-endian value at a device address. -/
def Dev.readNat (d : Dev) (m : Memory) (a n : Nat) : Nat := leNat (d.readDev m a n)

/-- The stores that put a run of bytes at device addresses, unit by unit; a byte no object holds is discarded. -/
def Dev.writeGo (d : Dev) : Nat → Nat → List Byte → List MemOp
  | 0, _, _ => []
  | _, _, [] => []
  | fuel + 1, a, data =>
    match d.findObj (fun o => o.st != .free) a 1 with
    | none => d.writeGo fuel (a + 1) (data.drop 1)
    | some (_, o) =>
      let i := (a - o.base) / o.unitSize
      let off := (a - o.base) % o.unitSize
      let k := max 1 (min data.length (o.unitSize - off))
      .bytes (o.key i off) (data.take k) :: d.writeGo fuel (a + k) (data.drop k)

/-- The stores that put bytes at a device address upwards. -/
def Dev.writeDev (d : Dev) (a : Nat) (data : List Byte) : List MemOp := d.writeGo data.length a data

/-- An access reaches a unit homed on a die: a dozing die wakes and the access waits for it; an entry under way is abandoned (R377). -/
def Dev.touchDie (d : Dev) (n : Nat) : Dev :=
  match (d.die n).doze with
  | .light | .deep => d.wakeDie n
  | .entering _ => { d.dozeTo n .run with dozeAborted := true }
  | _ => d

/-- A range cut where objects end: object number, object, address and length of each part; what no object holds is left out. The fuel is
the number of objects. -/
def Dev.pieces (d : Dev) : Nat → Nat → Nat → List (Nat × Obj × Nat × Nat)
  | 0, _, _ => []
  | fuel + 1, a, n =>
    if n = 0 then []
    else match d.findObj (fun o => o.st != .free) a 1 with
      | none => []
      | some (i, o) => let k := min n (o.base + o.len - a); (i, o, a, k) :: Dev.pieces d fuel (a + k) (n - k)

def Dev.cut (d : Dev) (a n : Nat) : List (Nat × Obj × Nat × Nat) := d.pieces (d.objects.length + 1) a n

/-- The units of an object with a byte in `[a, a + n)`: the first, and how many. -/
def Obj.unitsIn (o : Obj) (a n : Nat) : Nat × Nat :=
  let lo := (a - o.base) / o.unitSize
  (lo, if n = 0 then 0 else (a - o.base + n - 1) / o.unitSize + 1 - lo)

/-- An access to a range of device addresses reaches the dies of its units (R377). -/
def Dev.touchRange (d : Dev) (a n : Nat) : Dev :=
  (d.cut a n).foldl (fun d (_, o, a, k) =>
    (List.range (min 4 (o.unitsIn a k).2)).foldl (fun d j => d.touchDie (o.unitDie ((o.unitsIn a k).1 + j))) d) d

/-! ## Near chunks -/

/-- Near chunks that object `o` holds on die `n`: its near units, less those whose chunks are promised to another unit, and its reserved
moves to the near tier there (R217, R221). -/
def Obj.nearHeld (o : Obj) (n : Nat) : Nat :=
  let c := o.dieList.length
  let pos := o.dieList.idxOf n
  if o.dieList.contains n then
    let inNear := (o.near.map (fun r => (List.range (ceilDiv (r.2 - r.1) c + 1)).countP
      (fun k => let i := r.1 - r.1 % c + k * c + pos; r.1 ≤ i && i < r.2))).sum
    let moving := o.moves.countP (fun v => v.toNear && o.unitDie v.unit == n)
    (inNear + moving - o.moves.countP (fun v => v.evict && o.unitDie v.unit == n)) * o.chunks
  else 0

/-- Near chunks the claim's objects hold on a die. -/
def Dev.claimNear (d : Dev) (c n : Nat) : Nat :=
  (d.objects.map (fun e => if e.2.claim == c && e.2.st != .free then e.2.nearHeld n else 0)).sum

/-- Near chunks of a die that no unit and no reservation holds (LD_TIER_STS.NEAR_FREE). -/
def Dev.nearFree (d : Dev) (n : Nat) : Nat :=
  Config.nearChunks - (d.objects.map (fun e => if e.2.st != .free then e.2.nearHeld n else 0)).sum

/-! ## Heat (R224) -/

/-- The heat of a unit; 0 where it has no entry. -/
def Die.heatOf (x : Die) (obj unit : Nat) : Nat :=
  match (Tbl.lookD x.heat (Config.heatSet obj unit).toNat []).find? (fun h => h.obj == obj && h.unit == unit) with
  | some h => h.heat
  | none => 0

/-- Put an entry in place of the coldest of a full set, the lowest way among equals. -/
def replaceColdest (l : List Heat) (h : Heat) : List Heat :=
  let low := (l.map (fun e => e.heat)).foldl min 0xFFFF
  match l.findIdx? (fun e => e.heat == low) with
  | some i => setNth l i h
  | none => l

/-- Add to a unit's heat, saturating at 16 bits; a unit with no entry takes one. -/
def Die.addHeat (x : Die) (obj unit k : Nat) : Die :=
  let set := (Config.heatSet obj unit).toNat
  let l := Tbl.lookD x.heat set []
  let l :=
    if l.any (fun h => h.obj == obj && h.unit == unit) then
      l.map (fun h => if h.obj == obj && h.unit == unit then { h with heat := min 0xFFFF (h.heat + k) } else h)
    else if l.length < 8 then l ++ [⟨obj, unit, min 0xFFFF k⟩]
    else replaceColdest l ⟨obj, unit, min 0xFFFF k⟩
  { x with heat := Tbl.put x.heat set l }

/-- Heat for an engine's reads of units `lo` to `hi - 1` of an object, where its policy is AUTO. -/
def Dev.heatUnits (d : Dev) (n : Nat) (lo hi k : Nat) : Dev :=
  match d.obj n with
  | none => d
  | some o =>
    if o.placement = 2 then
      (List.range (hi - lo)).foldl (fun d i => d.modDie (o.unitDie (lo + i)) (fun x => x.addHeat n (lo + i) k)) d
    else d

/-- Heat for an engine's read of a range of device addresses. -/
def Dev.heatRange (d : Dev) (a n k : Nat) : Dev :=
  (d.cut a n).foldl (fun d (num, o, a, len) => d.heatUnits num (o.unitsIn a len).1 ((o.unitsIn a len).1 + (o.unitsIn a len).2) k) d

/-! ## Deep traffic -/

/-- The parts of `[a, a + n)` that lie in units homed deep: die, offset in its deep tier, and bytes. -/
def Dev.deepRuns (d : Dev) (a n : Nat) : List (Nat × Nat × Nat) :=
  (d.cut a n).flatMap (fun (_, o, a, len) => (List.range (o.unitsIn a len).2).filterMap (fun j =>
    let i := (o.unitsIn a len).1 + j
    let lo := max a (o.base + i * o.unitSize)
    if o.isNear i then none
    else some (o.unitDie i, o.deepPos i + (lo - (o.base + i * o.unitSize)), min (a + len) (o.base + (i + 1) * o.unitSize) - lo)))

/-- Bytes of `[a, a + n)` that lie in units homed deep: what an op's read or write moves on the deep tier. -/
def Dev.deepBytes (d : Dev) (a n : Nat) : Nat := ((d.deepRuns a n).map (fun x => x.2.2)).sum

/-- Lines a run of deep bytes touches, and those it covers whole. -/
def deepLines (o n : Nat) : Nat × Nat :=
  let all := (o + n + 511) / 512 - o / 512
  (all, (o + n) / 512 - min ((o + n) / 512) ((o + 511) / 512))

/-- What the DEEP meter charges for a read, or a write, of a run of deep bytes (R249). -/
def deepCharge (o n : Nat) (write : Bool) : Nat :=
  let l := deepLines o n
  if write then 8 * l.2 + 16 * (l.1 - l.2) else 8 * l.1

/-- What ranges read and written ask of the DEEP meters, by meter. -/
def Dev.deepNeeds (d : Dev) (reads writes : List (Nat × Nat)) : List (Nat × Nat) :=
  let runs : List (Nat × Nat) → Bool → List (Nat × Nat) := fun l w => l.flatMap (fun x => (d.deepRuns x.1 x.2).map (fun (n, o, k) => (n, deepCharge o k w)))
  let all := runs reads false ++ runs writes true
  (List.range 4).map (fun n => (n, ((all.filter (fun x => x.1 == n)).map (fun x => x.2)).sum))

/-! ## Writes to units in motion (R218) -/

/-- The unit is in motion. -/
def Obj.inMotion (o : Obj) (i : Nat) : Bool := o.moves.any (fun v => v.unit == i && v.begun)

/-- A write from outside the ops: what falls in a unit in motion waits there for the commit, the rest is stored at its home. -/
def Dev.storeAt (d : Dev) (a : Nat) (data : List Byte) : Dev × List MemOp :=
  (d.cut a data.length).foldl (fun p (i, o, b, len) =>
    (List.range (o.unitsIn b len).2).foldl (fun p j =>
      let u := (o.unitsIn b len).1 + j
      let lo := max b (o.base + u * o.unitSize)
      let bytes := (data.drop (lo - a)).take (min (b + len) (o.base + (u + 1) * o.unitSize) - lo)
      if o.inMotion u then
        ((match p.1.obj i with | some o' => p.1.setObj i { o' with held := o'.held ++ [(lo, bytes)] } | none => p.1), p.2)
      else (p.1, p.2 ++ [.bytes (o.key u (lo - (o.base + u * o.unitSize))) bytes])) p) (d, [])

/-- A byte as an atomic sees it: the last write that waits for a commit there, else what its home holds. -/
def Dev.pendingByte (d : Dev) (m : Memory) (a : Nat) : Byte :=
  match (d.findObj (fun o => o.st != .free) a 1).bind (fun e => e.2.held.reverse.find? (fun w => Nat.ble w.1 a && Nat.blt a (w.1 + w.2.length))) with
  | some w => w.2.getD (a - w.1) 0
  | none => d.readByte m a

end Sys2Proof.Machine
end

