-- ==== Sys2Proof/Machine/Operands.lean ====
section
/-!
DEFINITION. The descriptor: its header, its device address operands, and the field checks every op makes before it starts (R68 to R72).
-/
namespace Sys2Proof.Machine

/-- The little-endian field of `n` bytes at byte `o` of a descriptor. -/
def fld (x : BitVec 512) (o n : Nat) : Nat := x.toNat / 2 ^ (8 * o) % 2 ^ (8 * n)

/-! ## Header (Tables 4.2, 4.3) -/

def hOpcode (x : BitVec 512) : Nat := fld x 0 1
def hFlags (x : BitVec 512) : Nat := fld x 1 1
def hWait (x : BitVec 512) : Bool := bit (hFlags x) 7
def hWaitKeep (x : BitVec 512) : Bool := bit (hFlags x) 6
def hSignal (x : BitVec 512) : Bool := bit (hFlags x) 5
def hSignalAlways (x : BitVec 512) : Bool := bit (hFlags x) 4
def hOverlap (x : BitVec 512) : Bool := bit (hFlags x) 3
def hIrq (x : BitVec 512) : Bool := bit (hFlags x) 2
def hBatch (x : BitVec 512) : Bool := bit (hFlags x) 1
def hClaim (x : BitVec 512) : Nat := bits (fld x 2 2) 12 8
def hIndex (x : BitVec 512) : Nat := bits (fld x 2 2) 5 0
def hWaitId (x : BitVec 512) : Nat := fld x 4 2
def hSignalId (x : BitVec 512) : Nat := fld x 6 2
def hSlot (x : BitVec 512) : Nat := fld x 8 1
def hEpoch (x : BitVec 512) : Nat := fld x 9 1
def hDeadline (x : BitVec 512) : Nat := fld x 10 6

/-- The first offending byte of the header's reserved bits (R68). -/
def headerBad (x : BitVec 512) : Option Nat :=
  if bit (fld x 1 1) 0 then some 1
  else if bits (fld x 2 1) 7 6 ≠ 0 then some 2
  else if bits (fld x 3 1) 7 5 ≠ 0 then some 3
  else none

/-- The opcodes of Table 4.5. -/
def validOpcode (o : Nat) : Bool :=
  o ≤ 0x06 || o == 0x10 || (0x12 ≤ o && o ≤ 0x15) || (0x20 ≤ o && o ≤ 0x26) || (0x30 ≤ o && o ≤ 0x33) ||
    (0x40 ≤ o && o ≤ 0x42) || (0x50 ≤ o && o ≤ 0x54)

/-! ## Checks of operand fields -/

/-- The lowest offset at which a check fails. -/
def firstBad (l : List (Nat × Bool)) : Option Nat :=
  l.foldl (fun a e => if e.2 then (match a with | none => some e.1 | some b => some (min b e.1)) else a) none

/-- Reserved bytes `a` to `b`: each must be 0. -/
def resv (x : BitVec 512) (a b : Nat) : List (Nat × Bool) := (List.range (b + 1 - a)).map (fun i => (a + i, fld x (a + i) 1 != 0))

/-- A device address operand (Table 4.4): its reserved bits [59:42], and STEP_SEL, which is 0 outside a REPEAT_BY body and at most 4
inside one (R70). -/
def addrChecks (inLoop : Bool) (x : BitVec 512) (o : Nat) : List (Nat × Bool) :=
  [(o, 4 < bits (fld x o 8) 63 60 || (!inLoop && bits (fld x o 8) 63 60 != 0)),
   (o + 5, bits (fld x (o + 5) 1) 7 2 != 0), (o + 6, fld x (o + 6) 1 != 0), (o + 7, bits (fld x (o + 7) 1) 3 0 != 0)]

/-- The effective address of an operand: ADDR plus the step of the enclosing loop (R70), as an integer. -/
def effAddr (loop : Option Loop) (x : BitVec 512) (o : Nat) : Int :=
  let sel := bits (fld x o 8) 63 60
  let base : Int := bits (fld x o 8) 41 0
  match loop with
  | some l => if sel = 0 then base else base + l.iter * signedOf 64 (nth l.strides (sel - 1) 0).toNat
  | none => base

/-- An effective address inside 0 to 2,304 GiB − 1 (R70). -/
def addrOk (a : Int) : Bool := 0 ≤ a && a < Config.deviceEnd

/-! ## The control ops and the ops of chapter 10 (Tables 4.6 to 4.8, 10.3 to 10.5) -/

/-- The field checks of one op that end in BAD_DESCRIPTOR, for the ops of chapters 4 and 10. -/
def controlChecks (il : Bool) (x : BitVec 512) : List (Nat × Bool) :=
  match hOpcode x with
  | 0x00 => resv x 16 63
  | 0x01 => [(16, Nat.blt 1 (fld x 16 1))] ++ resv x 17 63
  | 0x02 => [(18, Nat.blt 1 (fld x 18 1))] ++ resv x 19 23 ++ resv x 32 63
  | 0x03 => [(18, Nat.blt 1 (fld x 18 1))] ++ resv x 19 23 ++ [(32, Nat.blt (fld x 24 8) (fld x 32 8))] ++ resv x 40 63
  | 0x04 => addrChecks false x 16 ++ [(24, fld x 24 4 == 0), (28, fld x 28 2 == 0 || 31 < fld x 28 2)] ++ resv x 30 31
  | 0x05 => addrChecks il x 16 ++ [(40, Nat.blt 5 (fld x 40 1))] ++ resv x 41 41 ++
      [(42, fld x 42 2 == 0 || 4096 < fld x 42 2)] ++ resv x 44 63
  | 0x06 => addrChecks il x 16 ++ resv x 24 63
  | 0x30 | 0x31 => addrChecks il x 16 ++ [(24, fld x 24 4 == 0)] ++ resv x 28 63
  | 0x32 => [(18, bits (fld x 18 1) 7 2 != 0), (19, fld x 19 1 != 0),
      (20, bits (fld x 20 1) 3 0 != 0 || bits (fld x 20 1) 7 6 == 3)] ++ resv x 21 63
  | 0x33 => addrChecks il x 16 ++ addrChecks il x 24 ++
      [(32, fld x 32 8 == 0),
       (40, bits (fld x 40 1) 4 0 != 0 || bits (fld x 40 1) 6 5 == 3 || (!bit (fld x 40 1) 7 && bits (fld x 40 1) 6 5 != 0))] ++
      resv x 41 63
  | _ => []

/-- An unused or reserved code in OUT_CTL (R112, Table 5.6). -/
def outCtlBad (b : Nat) : Bool := bits b 7 6 == 3 || bits b 3 0 == 0 || Nat.blt 6 (bits b 3 0)

/-- The FINISH functions of Table 6.7 and the B_MODE values each accepts. -/
def finishModes (fn : Nat) : List Nat :=
  match fn with
  | 0x01 | 0x06 | 0x08 | 0x09 | 0x0A | 0x0B | 0x0D | 0x10 => [0]
  | 0x02 | 0x03 | 0x04 | 0x05 => [1, 2]
  | 0x0C => [1]
  | 0x11 | 0x12 => [2]
  | 0x18 | 0x19 => [3]
  | _ => []

/-- The field checks of the ops of chapters 6 and 9 (Tables 6.2, 6.3, 6.6, 6.8, 9.7). INT8_SCALE 0xFF with OFMT INT8 is accepted: the spec
does not say whether it is refused (DESIGN CHOICE, notes/assumptions/55.md). -/
def laneChecks (il : Bool) (x : BitVec 512) : List (Nat × Bool) :=
  let out := fun o => [(o, outCtlBad (fld x o 1))]
  let zero := fun o n => [(o, fld x o n == 0)]
  match hOpcode x with
  | 0x10 => addrChecks il x 16 ++ addrChecks il x 24 ++ addrChecks il x 32 ++ zero 40 3 ++ zero 43 3 ++ zero 46 3 ++ out 49 ++
      [(50, bits (fld x 50 1) 6 4 != 0)] ++ resv x 51 51 ++ resv x 56 63
  | 0x12 => addrChecks il x 16 ++ addrChecks il x 24 ++ addrChecks il x 32 ++ zero 40 2 ++ zero 42 2 ++ zero 44 2 ++ zero 46 2 ++
      zero 48 1 ++ out 54 ++ [(55, bit (fld x 55 1) 4 || (bit (fld x 55 1) 5 && bits (fld x 55 1) 7 6 != 0))] ++ resv x 60 63
  | 0x13 => addrChecks il x 16 ++ addrChecks il x 24 ++ addrChecks il x 32 ++ zero 40 3 ++ zero 43 3 ++ zero 46 3 ++ out 49 ++
      [(50, bits (fld x 50 1) 5 4 != 0)] ++ resv x 51 51 ++ resv x 56 63
  | 0x14 => addrChecks il x 16 ++ addrChecks il x 24 ++ addrChecks il x 32 ++ zero 40 3 ++ zero 43 3 ++
      [(46, (finishModes (fld x 46 1)).isEmpty)] ++ out 47 ++
      [(48, bits (fld x 48 1) 5 4 != 0 || !(finishModes (fld x 46 1)).contains (bits (fld x 48 1) 7 6)),
       (49, fld x 47 1 % 16 != 4 && fld x 49 1 != 0)] ++ resv x 50 51 ++ resv x 60 63
  | 0x15 => addrChecks il x 16 ++ zero 32 3 ++ zero 35 3 ++ out 38 ++
      [(39, bits (fld x 39 1) 5 4 == 3), (40, fld x 38 1 % 16 != 4 && fld x 40 1 != 0)] ++ resv x 41 47 ++ resv x 56 63
  | _ => []

/-- The codes of Table 13.7. -/
def atomicOp (a : Nat) : Bool := (1 ≤ a && a ≤ 0x0A) || a == 0x10 || a == 0x11

/-- The field checks of the remote and collective ops (R302, R303, R322, R324, R325, R327). -/
def fabricChecks (il : Bool) (x : BitVec 512) : List (Nat × Bool) :=
  let off42 := [(29, bits (fld x 29 1) 7 2 != 0), (30, fld x 30 1 != 0), (31, fld x 31 1 != 0)]
  let id20 := fun o => [(o + 2, bits (fld x (o + 2) 1) 7 4 != 0), (o + 3, fld x (o + 3) 1 != 0)]
  let op := hOpcode x
  let gather := op == 0x52 || op == 0x53
  match op with
  | 0x40 | 0x41 =>
    let f := fld x 48 1
    addrChecks il x 16 ++ off42 ++ id20 36 ++ [(40, fld x 40 4 != 0 && !bit f 7)] ++ id20 40 ++
      [(44, fld x 44 4 == 0 || fld x 44 4 % 64 != 0),
       (48, bits f 4 0 != 0 || (bit f 7 && (op == 0x41 || bit f 6)))] ++ resv x 49 63
  | 0x42 => addrChecks il x 16 ++ off42 ++ id20 36 ++ [(40, !atomicOp (fld x 40 1)), (41, bits (fld x 41 1) 6 0 != 0)] ++ resv x 42 47 ++
      [(56, fld x 56 8 != 0 && fld x 40 1 != 0x0A)]
  | 0x50 | 0x51 | 0x52 | 0x53 =>
    let r := fld x 37 1
    addrChecks il x 16 ++ addrChecks il x 24 ++
      [(32, fld x 32 4 == 0), (36, bits (fld x 36 1) 7 6 != 0),
       (37, bits r 1 0 != 0 || bits r 5 4 == 3 || (bit r 3 && op != 0x50) ||
         (gather && (bits r 7 6 != 0 || bit r 3 || bit r 2 || bits (fld x 39 1) 7 6 != 0 || fld x 38 1 % 16 != fld x 39 1 % 16))),
       (38, bits (fld x 38 1) 7 4 != 0), (39, outCtlBad (fld x 39 1)),
       (40, if op == 0x53 then bits (fld x 40 1) 6 4 != 0 else fld x 40 1 != 0)] ++ resv x 41 43 ++
      [(48, bits (fld x 48 1) 7 4 != 0)] ++ resv x 49 63
  | 0x54 => resv x 16 35 ++ [(36, bits (fld x 36 1) 7 6 != 0)] ++ resv x 37 63
  | _ => []

/-- A binary32 code that ROUTE_SCALE may hold: +0, or finite and positive (R144). -/
def routeScaleOk (v : Nat) : Bool := Nat.blt v 0x7F800000

/-- The field checks of the ops of chapters 7 and 8 (R144, R153, R174, R185, R189, R190; Tables 7.1, 7.4, 8.2, 8.6, 8.7). -/
def expertChecks (il : Bool) (x : BitVec 512) : List (Nat × Bool) :=
  let picks := fun o => bits (fld x o 1) 7 4 + 1 + bits (fld x o 1) 3 0
  let experts := fun o => bits (fld x o 2) 13 0 + 1
  match hOpcode x with
  | 0x20 =>
    let f := fld x 55 1
    let e := experts 50
    let g := fld x 53 1
    let tg := fld x 54 1
    addrChecks il x 16 ++ (if bit f 4 then addrChecks il x 24 else []) ++ addrChecks il x 32 ++ (if bit f 3 then addrChecks il x 40 else []) ++
      [(51, bits (fld x 51 1) 7 6 != 0), (52, Nat.blt 16 (picks 52) || Nat.blt e (picks 52)),
       (53, g == 0 || Nat.blt 64 g || (g != 0 && e % g != 0)),
       (54, tg == 0 || Nat.blt g tg || (g != 0 && Nat.blt (tg * (e / g)) (picks 52))),
       (55, bits f 7 6 == 3 || bits f 1 0 != 0 || (bit f 2 && g != 0 && e / g == 1) || (bit f 5 && bits f 7 6 == 2)),
       (56, !routeScaleOk (fld x 56 4))] ++ resv x 60 63
  | 0x21 =>
    (List.range 5).flatMap (fun i => addrChecks il x (16 + 8 * i)) ++
      [(59, bits (fld x 59 1) 7 6 != 0), (60, Nat.blt 16 (picks 60) || Nat.blt (experts 58) (picks 60)),
       (61, bits (fld x 61 1) 4 0 != 0), (62, bit (fld x 61 1) 5 && fld x 62 2 == 0)]
  | 0x22 => addrChecks il x 16 ++ addrChecks il x 24 ++ [(32, bits (fld x 32 1) 7 6 == 3 || bits (fld x 32 1) 5 0 != 0)] ++ resv x 33 63
  | 0x23 | 0x24 => addrChecks il x 16 ++ addrChecks il x 24 ++
      [(32, fld x 32 4 % 64 != 0), (36, bits (fld x 36 1) 7 6 == 3 || bits (fld x 36 1) 5 0 != 0)] ++ resv x 37 63
  | 0x25 => addrChecks il x 16 ++ (if bit (fld x 41 1) 7 then addrChecks il x 24 else []) ++ addrChecks il x 32 ++
      [(40, outCtlBad (fld x 40 1)), (41, bits (fld x 41 1) 6 4 != 0)] ++ resv x 42 43 ++ resv x 48 63
  | 0x26 => [(1, hBatch x)] ++ resv x 17 63
  | _ => []

/-- The byte that holds SEED_SEL in its low four bits (Tables 6.2, 6.3, 6.6, 6.8, 9.7). -/
def seedByte (opcode : Nat) : Option Nat :=
  match opcode with
  | 0x10 | 0x13 => some 50
  | 0x12 => some 55
  | 0x14 => some 48
  | 0x15 => some 39
  | 0x25 => some 41
  | 0x50 | 0x51 => some 48
  | _ => none

/-- Every field check of an op that ends in BAD_DESCRIPTOR, `il` being inside a REPEAT_BY body (R68, R421). -/
def operandChecks (il : Bool) (x : BitVec 512) : List (Nat × Bool) := controlChecks il x ++ laneChecks il x ++ expertChecks il x ++ fabricChecks il x

/-- The tallies an op's operands name, by field offset (R77). -/
def tallyOperands (opcode : Nat) : List Nat :=
  match opcode with
  | 0x02 | 0x03 => [16]
  | _ => []

/-- The cause under which Fixed-Bits refuses an op or mode marked V (R72). -/
def varyingCause (x : BitVec 512) : Option Nat :=
  match hOpcode x with
  | 0x23 => some 1
  | 0x14 => if fld x 46 1 = 0x18 then some 4 else none
  | 0x15 => if bit (fld x 39 1) 7 then some 5 else none
  | 0x42 => if fld x 40 1 = 0x10 || fld x 40 1 = 0x11 then some 2 else none
  | 0x50 => if bit (fld x 37 1) 3 then some 3 else none
  | _ => none

end Sys2Proof.Machine
end

