-- ==== Sys2Proof/Machine/Flags.lean ====
section
/-!
DEFINITION. Statuses and the completion record: classes, the merge of R99, and the record's fields and flags (R97, R98).
-/
namespace Sys2Proof.Machine

/-! ## Status codes (Table 4.10) -/

def stOk : BitVec 16 := 0x0000
def stSkipped : BitVec 16 := 0x0001
def stFormatViolation : BitVec 16 := 0x1001
def stRerouted : BitVec 16 := 0x1002
def stStreamed : BitVec 16 := 0x1003
def stTokensDropped : BitVec 16 := 0x1004
def stTripClamped : BitVec 16 := 0x1005
def stTallySaturated : BitVec 16 := 0x1006
def stDeadlineMissed : BitVec 16 := 0x2001
def stVaryingRefused : BitVec 16 := 0x2002
def stBatchStale : BitVec 16 := 0x2003
def stCancelled : BitVec 16 := 0x2004
def stBadOpcode : BitVec 16 := 0x2005
def stBadDescriptor : BitVec 16 := 0x2006
def stRingMismatch : BitVec 16 := 0x2007
def stTallyFault : BitVec 16 := 0x2008
def stParentFailed : BitVec 16 := 0x2009
def stOperandRefused : BitVec 16 := 0x200A
def stAddrFault : BitVec 16 := 0x3001
def stIndexFault : BitVec 16 := 0x3002
def stDataLost : BitVec 16 := 0x3003
def stPermissionFault : BitVec 16 := 0x3004
def stRemoteFailed : BitVec 16 := 0x3005
def stGroupAborted : BitVec 16 := 0x3006
def stHardwareFault : BitVec 16 := 0x3007
def stPowerAbort : BitVec 16 := 0x3008

/-- The class of a status: its high nibble (R99). -/
def classOf (s : BitVec 16) : Nat := s.toNat / 4096

/-- A refusal or failure with its REASON and nothing counted. -/
def Result.fail (status : BitVec 16) (reason : Nat) : Result := { Result.ok with status := status, reason := BitVec.ofNat 16 reason }

/-- A count as a REASON, saturating at 0xFFFF. -/
def sat16 (n : Nat) : BitVec 16 := BitVec.ofNat 16 (min n 0xFFFF)

/-- The status in force after a further condition: the more severe class wins, the earlier among equals (R99). -/
def Result.meet (r : Result) (status reason : BitVec 16) : Result :=
  if classOf r.status < classOf status then { r with status := status, reason := reason } else r

/-- Two runs of one body descriptor added up (R87). -/
def Result.plus (a b : Result) : Result :=
  { (a.meet b.status b.reason) with
      picks := a.picks + b.picks, deep := a.deep + b.deep, fabric := a.fabric + b.fabric,
      retry := a.retry || b.retry, approx := a.approx || b.approx }

/-- The deadline is reached on a tick (R94). -/
def deadlineReached (now : Tick) (x : BitVec 512) : Bool :=
  hDeadline x != 0 && (now.toNat % 2 ^ 48 + 2 ^ 48 - hDeadline x) % 2 ^ 48 < 2 ^ 47

/-! ## The record (Table 4.9) -/

/-- A field of `w` bits that stays at all ones when the value does not fit (R98). -/
def satField (w v : Nat) : Nat := min v (2 ^ w - 1)

/-- The PHASE of the record for count `c` in a ring of `size` entries (R65). -/
def phaseBit (c : W32) (size : Nat) : Nat := 1 - c.toNat / size % 2

/-- The 32-byte record of a completed descriptor (Table 4.9), for record count `c`. -/
def recordOf (ringNo : Nat) (g : Ring) (e : Entry) (c : W32) : BitVec 256 :=
  let dur := if e.ran then elapsed e.fin e.start else 0
  let deep := ceilDiv e.res.deep 64
  let fabric := ceilDiv e.res.fabric 64
  let sat := 0xFFFFFFFF < dur || 2 ^ 40 ≤ e.res.picks || 2 ^ 32 ≤ deep || 2 ^ 32 ≤ fabric
  let ringField := phaseBit c (2 ^ g.cqLog2.toNat) * 2 ^ 15 + b2n e.res.retry * 2 ^ 14 + b2n e.res.approx * 2 ^ 13 +
    b2n sat * 2 ^ 12 + ringNo % 1024
  BitVec.ofNat 256 (e.res.status.toNat + e.res.reason.toNat * 2 ^ 16 + (e.count.toNat % 2 ^ g.sqLog2.toNat) * 2 ^ 32 +
    ringField * 2 ^ 48 + (e.start.toNat % 2 ^ 48) * 2 ^ 64 + satField 32 dur * 2 ^ 112 + satField 40 e.res.picks * 2 ^ 144 +
    satField 32 deep * 2 ^ 184 + satField 32 fabric * 2 ^ 216)

end Sys2Proof.Machine
end

