-- ==== Sys2Proof/Machine/Draft.lean ====
section
/-!
DEFINITION. The rings and tallies as shared operations: finding and rewriting a fetched descriptor, tallies and their waiters,
deciding a descriptor without running it, ending an op, loops, and the stop of a ring (R65 to R99).
-/
namespace Sys2Proof.Machine

/-! ## Entries -/

def Ring.entry (g : Ring) (c : W32) : Option Entry := g.ents.find? (fun e => e.count == c)

def Ring.modEntry (g : Ring) (c : W32) (f : Entry → Entry) : Ring :=
  { g with ents := g.ents.map (fun e => if e.count == c then f e else e) }

def Dev.entry (d : Dev) (r : Nat) (c : W32) : Option Entry := (d.ring r).entry c

def Dev.modEntry (d : Dev) (r : Nat) (c : W32) (f : Entry → Entry) : Dev := d.modRing r (fun g => g.modEntry c f)

/-- Not started and not decided: a TALLY_WAIT whose condition has not held counts as waiting (R95). -/
def Entry.unstarted (e : Entry) : Bool := e.phase == .waiting || (e.phase == .started && hOpcode e.desc == 0x03)

/-- Completion buffer entries a ring has reserved, of its 32 (R66). -/
def Ring.bufUsed (g : Ring) : Nat := g.ents.countP (fun e => e.buf)

/-- The descriptor belongs to the body of the running loop. -/
def Loop.body (l : Loop) (c : W32) : Bool := let k := (c - l.base).toNat; 1 ≤ k && k ≤ l.len

/-- The loop that gives a descriptor's operands their step (R70). -/
def Ring.loopOf (g : Ring) (c : W32) : Option Loop := g.loop.filter (fun l => l.body c)

/-- The fetched descriptors of the body of a REPEAT_BY. -/
def Ring.bodyOf (g : Ring) (e : Entry) : List Entry :=
  let len := fld e.desc 28 2
  g.ents.filter (fun x => let k := (x.count - e.count).toNat; 1 ≤ k && k ≤ len)

/-! ## Tallies (R77 to R80) -/

/-- The claim a tally is assigned to: it lies in the range of a claim that is RUNNING or QUIESCING, and is not out of service. -/
def Dev.tallyOwner (d : Dev) (t : Nat) : Option Nat :=
  if d.store.tallies.contains t then none
  else (List.range 32).find? (fun c =>
    ((d.block (claimBlock c)).st == .running || (d.block (claimBlock c)).st == .quiescing) &&
      (d.claim c).tallyFirst.toNat ≤ t && t < (d.claim c).tallyFirst.toNat + (d.claim c).tallyCount.toNat)

/-- The tally is assigned to the ring's claim. -/
def Dev.tallyOk (d : Dev) (r t : Nat) : Bool := d.tallyOwner t == some (d.ring r).claim.toNat

def Waiter.holds (w : Waiter) (count : Word) : Bool := if w.exact then count == w.target else w.target ≤ count

/-- A waiter that is served: a header wait is met; a TALLY_WAIT op is done (R78, R79). -/
def Dev.serve (d : Dev) (w : Waiter) : Dev :=
  d.modEntry w.ring w.count (fun e =>
    if e.phase == .started then { e with waitMet := true, phase := .done, ran := true } else { e with waitMet := true })

/-- The deadline of a waiting descriptor is reached, so that a signal comes too late for it (R95); under Fixed-Bits it plays no part (R96). -/
def Dev.tooLate (d : Dev) (w : Waiter) : Bool :=
  !d.fixedBits && (match d.entry w.ring w.count with | some e => deadlineReached d.now e.desc | none => false)

/-- Examine the waiters from the head, serving each whose condition holds and starting again from the head, until none is left that
holds (R78). The fuel is the number of waiters. -/
def Dev.scanTally : Nat → Dev → Nat → Dev
  | 0, d, _ => d
  | fuel + 1, d, t =>
    let y := d.tally t
    match y.waiters.find? (fun w => w.holds y.count && !d.tooLate w) with
    | none => d
    | some w =>
      let d := d.setTally t { y with count := y.count - w.consume,
                                     waiters := y.waiters.filter (fun v => !(v.ring == w.ring && v.count == w.count)) }
      Dev.scanTally fuel (d.serve w) t

/-- After a change of a tally's count. -/
def Dev.serveTally (d : Dev) (t : Nat) : Dev := Dev.scanTally (d.tally t).waiters.length d t

/-- Set a tally's count and serve its waiters. -/
def Dev.setTallyCount (d : Dev) (t : Nat) (v : Word) : Dev := (d.setTally t { d.tally t with count := v }).serveTally t

/-- The count after an add: it stops at 2^64 − 1 (R80). -/
def satAdd (c v : Word) : Word := if 2 ^ 64 ≤ c.toNat + v.toNat then BitVec.allOnes 64 else c + v

/-- Add to a tally, and whether the add stopped at 2^64 − 1. -/
def Dev.addTally (d : Dev) (t : Nat) (v : Word) : Dev × Bool :=
  (d.setTallyCount t (satAdd (d.tally t).count v), decide (2 ^ 64 ≤ (d.tally t).count.toNat + v.toNat))

/-- A wait request: proceeds at once, with its consume applied, or joins the tail of the waiter list (R78). -/
def Dev.askTally (d : Dev) (t : Nat) (w : Waiter) : Dev :=
  let y := d.tally t
  if w.holds y.count && !d.tooLate w then ((d.setTally t { y with count := y.count - w.consume }).serve w).serveTally t
  else if y.waiters.any (fun v => v.ring == w.ring && v.count == w.count) then d
  else d.setTally t { y with waiters := y.waiters ++ [w] }

/-- A descriptor leaves every waiter list without consuming (R95). -/
def Dev.leaveTallies (d : Dev) (r : Nat) (c : W32) : Dev :=
  { d with tallies := Tbl.mapAll d.tallies (fun _ y => { y with waiters := y.waiters.filter (fun v => !(v.ring == r && v.count == c)) }) }

/-! ## The header signal (R80) -/

/-- Whether the header signal is given with a status. -/
def Dev.signalDue (d : Dev) (r : Nat) (x : BitVec 512) (status : BitVec 16) : Bool :=
  hSignal x && d.tallyOk r (hSignalId x) && (classOf status ≤ 1 || hSignalAlways x)

/-- Apply the header signal and report the status with TALLY_SATURATED where the add stopped; the REASON of a REPEAT_BY stays the number of
iterations (R99). -/
def Dev.headerSignal (d : Dev) (r : Nat) (x : BitVec 512) (res : Result) : Dev × Result :=
  if d.signalDue r x res.status then
    let (d, satd) := d.addTally (hSignalId x) 1
    let sat := res.meet stTallySaturated (BitVec.ofNat 16 (hSignalId x))
    (d, if !satd then res else if hOpcode x == 0x04 then { sat with reason := res.reason } else sat)
  else (d, res)

/-! ## Objects that wait for their last op (R216) -/

/-- The device address operands of each op (Tables of the chapters that own them). -/
def addrOperands (opcode : Nat) : List Nat :=
  match opcode with
  | 0x04 | 0x05 | 0x06 | 0x30 | 0x31 => [16]
  | 0x33 => [16, 24]
  | 0x10 | 0x12 | 0x13 | 0x14 => [16, 24, 32]
  | 0x20 => [16, 24, 32, 40]
  | 0x21 => [16, 24, 32, 40, 48]
  | 0x22 | 0x23 | 0x24 => [16, 24]
  | 0x25 => [16, 24, 32]
  | 0x15 | 0x40 | 0x41 | 0x42 => [16]
  | 0x50 | 0x51 | 0x52 | 0x53 => [16, 24]
  | _ => []

/-- An object's chunks return, its heat entries are cleared and it becomes FREE. -/
def Dev.freeObj (d : Dev) (n : Nat) : Dev :=
  { d with objects := Tbl.del d.objects n,
           dies := Tbl.mapAll d.dies (fun _ x => { x with heat := Tbl.mapAll x.heat (fun _ l => l.filter (fun h => h.obj != n)) }) }

/-- A started op of the object's claim that has not completed: the ops that may hold it. -/
def Dev.claimOps (d : Dev) (c : Nat) : List (Nat × W32) :=
  d.rings.flatMap (fun e => if e.2.claim.toNat == c then
    (e.2.ents.filter (fun x => x.phase == .started || x.phase == .done)).map (fun x => (e.1, x.count)) else [])

/-! ## Completion -/

/-- Give free buffer entries, in ring order, to the descriptors decided without running that hold none; one that every earlier
descriptor has not gone ahead of waits (R66, R73; notes/assumptions/47.md). -/
def Ring.takeBuffers (g : Ring) : Ring :=
  (g.ents.foldl (fun (a : Ring × Bool) e =>
    if e.buf || (a.1.loopOf e.count).isSome then a
    else if a.2 && e.phase == .completed && a.1.bufUsed < 32 then
      ({ a.1.modEntry e.count (fun e => { e with buf := true }) with finished := a.1.finished ++ [e.count] }, true)
    else (a.1, false)) (g, true)).1

/-- The merged totals of a body descriptor over the iterations so far, this one among them (R87, R88). -/
def Entry.fold (e : Entry) : Total :=
  match e.total with
  | none => { start := e.start, all := e.res, ran := if e.ran then some (e.start, e.res) else none }
  | some t =>
    { t with all := t.all.plus e.res,
             ran := if e.ran then (match t.ran with | none => some (e.start, e.res) | some (s, r) => some (s, r.plus e.res)) else t.ran }

/-- What a body descriptor reports as its loop ends: its start, its result and whether it ran. After an early end it reports over the
iterations it ran in, or CANCELLED; otherwise over all (R87, R88). -/
def Entry.report (e : Entry) (early : Bool) (now : Tick) : Tick × Result × Bool :=
  let cancelled := (now, Result.fail stCancelled 0, false)
  match e.total with
  | none => cancelled
  | some t =>
    if early then (match t.ran with | some (s, r) => (s, r, true) | none => cancelled) else (t.start, t.all, t.ran.isSome)

/-- A class 3 status arose in a body descriptor. -/
def Entry.failed (e : Entry) : Bool := match e.total with | some t => classOf t.all.status == 3 | none => false

/-- A loop ends: the body descriptors complete together, in body order, and the REPEAT_BY is done with its own status (R87, R88). -/
def Ring.endLoop (g : Ring) (l : Loop) (now : Tick) (skew : Word) : Ring :=
  let body := g.ents.filter (fun e => l.body e.count)
  let early := l.ending || body.any Entry.failed
  let resOf := fun e : Entry => (e.report early now).2.1
  let g := { g with
    ents := g.ents.map (fun (e : Entry) =>
      if l.body e.count then
        let (start, res, ran) := e.report early now
        { e with phase := .completed, res := res, fin := now - (skew - e.skew), start := start, ran := ran }
      else e),
    finished := g.finished ++ body.map (fun (e : Entry) => e.count), loop := none }
  let rs := body.map resOf
  let read := match g.entry l.base with | some e => e.res.deep | none => 0
  let own : Result :=
    { status := match rs.find? (fun r => classOf r.status == 3) with
        | some r => r.status
        | none => if l.clamped && !l.ending then stTripClamped else stOk,
      reason := sat16 l.iterations, picks := (rs.map (·.picks)).sum, deep := read + (rs.map (·.deep)).sum,
      fabric := (rs.map (·.fabric)).sum, retry := rs.any (·.retry), approx := rs.any (·.approx) }
  g.modEntry l.base (fun e => { e with phase := .done, res := own })

/-- Every body descriptor of the iteration has completed: the next iteration, or the end (R85, R88). -/
def Ring.loopStep (g : Ring) (now : Tick) (skew : Word) : Ring :=
  match g.loop with
  | none => g
  | some l =>
    let body := g.ents.filter (fun e => l.body e.count)
    if body.all (fun e => e.phase == .completed) then
      let l := { l with iterations := l.iterations + b2n (body.any (fun e => e.ran)) }
      if l.ending || body.any Entry.failed || l.trips ≤ l.iter + 1 then g.endLoop l now skew
      else { g with loop := some { l with iter := l.iter + 1 },
                    ents := g.ents.map (fun e => if l.body e.count then { e with phase := .waiting, waitMet := false, ran := false } else e) }
    else g

/-- A descriptor completes with a result: inside a loop it closes its part of the iteration, elsewhere its record waits. -/
def Dev.settle (d : Dev) (r : Nat) (c : W32) (res : Result) (ran : Bool) (start : Tick) : Dev :=
  let g := d.ring r
  let e' := fun e : Entry => { e with phase := .completed, res := res, ran := ran, start := start, fin := d.now - (d.skew - e.skew) }
  if (g.loopOf c).isSome then
    d.setRing r ((g.modEntry c (fun e => { e' e with total := some (e' e).fold })).loopStep d.now d.skew)
  else
    let g := g.modEntry c e'
    match g.entry c with
    | some e => d.setRing r (if e.buf then { g with finished := g.finished ++ [c] } else g.takeBuffers)
    | none => d

/-- One descriptor is decided without running, on this tick, with its header signal where R80 gives it (R66, R421). -/
def Dev.decideOne (d : Dev) (r : Nat) (c : W32) (status : BitVec 16) (reason : Nat) : Dev :=
  match d.entry r c with
  | none => d
  | some e =>
    if e.unstarted then
      let d := d.leaveTallies r c
      let (d, res) := d.headerSignal r e.desc (Result.fail status reason)
      d.settle r c res false d.now
    else d

/-- Descriptors in the body of a REPEAT_BY, where its field is in range. -/
def bodyLen (x : BitVec 512) : Nat :=
  if hOpcode x == 0x04 && 1 ≤ fld x 28 2 && fld x 28 2 ≤ 31 then fld x 28 2 else 0

/-- What the body of a REPEAT_BY that does not run completes with (R85). -/
def bodyStatus (status : BitVec 16) : BitVec 16 :=
  if status == stSkipped then stSkipped else if status == stCancelled then stCancelled else stParentFailed

/-- A descriptor is decided without running, and with a REPEAT_BY its body: the descriptors already fetched, in ring order, and the
rest as they are fetched (R85). The fuel bounds bodies within bodies. -/
def Dev.decideGo : Nat → Dev → Nat → W32 → BitVec 16 → Nat → Dev
  | 0, d, r, c, status, reason => d.decideOne r c status reason
  | fuel + 1, d, r, c, status, reason =>
    match d.entry r c with
    | none => d
    | some e =>
      if e.unstarted then
        let len := bodyLen e.desc
        let d := d.decideOne r c status reason
        let fetched := ((d.ring r).ents.filter (fun x => 1 ≤ (x.count - c).toNat && (x.count - c).toNat ≤ len)).map (fun x => x.count)
        let d := if fetched.length < len then
            d.modRing r (fun g => { g with orphans := (max g.orphans.1 (len - fetched.length), bodyStatus status) }) else d
        fetched.foldl (fun d c' => Dev.decideGo fuel d r c' (bodyStatus status) 0) d
      else d

/-- A descriptor is decided without running. -/
def Dev.decideEntry (d : Dev) (r : Nat) (c : W32) (status : BitVec 16) (reason : Nat) : Dev :=
  d.decideGo 32 r c status reason

/-- An op's work ends with a result; OP_COMPLETE follows. An op of class 2 did not run. -/
def Dev.closeOp (d : Dev) (r : Nat) (c : W32) (res : Result) : Dev :=
  d.modEntry r c (fun e => if e.phase == .started then
    { e with phase := .done, res := res, ran := classOf res.status != 2 } else e)

/-! ## The turns at the engines (R74) -/

/-- A claim's engines work for it: it is not pre-empted, its context out of the module (R256). -/
def Dev.working (d : Dev) (c : Nat) : Bool := (d.claim c).pstate == .active || (d.claim c).pstate == .preempting

/-- The engine an op runs at: finishing units, generators, assay, sluice, shuttle, hoist, remote memory, collectives. -/
def engineOf (opcode : Nat) : Option Nat :=
  match opcode with
  | 0x14 | 0x25 => some 2
  | 0x15 => some 3
  | 0x20 => some 4
  | 0x21 => some 5
  | 0x22 | 0x23 | 0x24 => some 6
  | 0x30 | 0x31 | 0x32 | 0x33 => some 7
  | 0x40 | 0x41 | 0x42 => some 8
  | 0x50 | 0x51 | 0x52 | 0x53 | 0x54 => some 9
  | _ => none

/-- Engines that no meter governs, where claims take turns. -/
def unmetered (engine : Nat) : Bool := engine == 2 || engine == 4 || engine == 5

/-- The descriptor of a ring that is next at an engine: the first that has started and that the engine has not taken. -/
def Ring.nextAt (g : Ring) (engine : Nat) : Option Entry :=
  g.ents.find? (fun e => e.phase == .started && !e.taken && engineOf (hOpcode e.desc) == some engine)

/-- The next of some numbers below `n` in round-robin order after the last served. -/
def roundRobin (n last : Nat) (l : List Nat) : Option Nat :=
  let key := fun (x : Nat) => (x + 2 * n - 1 - last) % n
  l.foldl (fun b x => match b with | none => some x | some y => if key x < key y then some x else some y) none

/-- Rings of a claim with a descriptor ready for an engine. -/
def Dev.ringsAt (d : Dev) (engine c : Nat) : List Nat :=
  (d.rings.filter (fun g => g.2.claim.toNat == c && (g.2.nextAt engine).isSome)).map (fun g => g.1)

/-- Two claims hold lanes of one die. -/
def Dev.dieShared (d : Dev) (a b : Nat) : Bool :=
  a == b || (List.range 4).any (fun n => Tbl.lookD (d.claim a).lanes n (0 : Word) != 0 && Tbl.lookD (d.claim b).lanes n (0 : Word) != 0)

/-- It is a descriptor's turn at its engine: the next of its ring there, its ring next in its claim, and at an unmetered engine its claim
next among those with a ready op on one of its dies (R74). -/
def Dev.turn (d : Dev) (r : Nat) (e : Entry) (engine : Nat) : Bool :=
  let c := (d.ring r).claim.toNat
  let rivals := (List.range 32).filter (fun k => d.working k && !(d.ringsAt engine k).isEmpty && d.dieShared c k)
  (match (d.ring r).nextAt engine with | some x => x.count == e.count | none => false) &&
    roundRobin 1056 (Tbl.lookD d.turns (64 * engine + c) 1055) (d.ringsAt engine c) == some r &&
    (!unmetered engine || roundRobin 32 (Tbl.lookD d.turns (64 * engine + 63) 31) rivals == some c)

/-- The engine takes a descriptor, which uses up its turn. -/
def Dev.take (d : Dev) (r : Nat) (c : W32) : Dev :=
  match (d.entry r c).bind (fun e => if e.taken then none else engineOf (hOpcode e.desc)) with
  | some engine =>
    let k := (d.ring r).claim.toNat
    { d.modEntry r c (fun e => { e with taken := true }) with
      turns := Tbl.put (Tbl.put d.turns (64 * engine + k) r) (64 * engine + 63) k }
  | none => d

/-- An op that its engine has taken ends with a result. -/
def Dev.finishOp (d : Dev) (r : Nat) (c : W32) (res : Result) : Dev := (d.take r c).closeOp r c res

/-- A lane op: MATMUL, CONV or SPMM. -/
def laneOpcode (opcode : Nat) : Bool := opcode == 0x10 || opcode == 0x12 || opcode == 0x13

/-- The lanes of a claim have begun every lane op of it that started before this one (R127). -/
def Dev.laneNext (d : Dev) (r : Nat) (e : Entry) : Bool :=
  d.rings.all (fun g => g.2.claim != (d.ring r).claim || g.2.ents.all (fun x =>
    x.phase != .started || !laneOpcode (hOpcode x.desc) || e.seq ≤ x.seq || x.work.isSome))

/-- The started op a command names, where its opcode is the command's and its engine has taken it, or does so on this turn. -/
def Dev.op (d : Dev) (r : Nat) (c : W32) (opcode : Nat) : Option Entry :=
  (d.entry r c).filter (fun e => e.phase == .started && hOpcode e.desc == opcode && d.working (d.ring r).claim.toNat &&
    (if laneOpcode opcode then d.laneNext r e
     else e.taken || (match engineOf opcode with | some n => d.turn r e n | none => true)))

/-! ## The work of lanes (R127, R129, R130) -/

/-- Picks that chunks take. -/
def chunkSum (l : List Chunk) : Nat := (l.map (fun c => c.picks)).sum

/-- Chunks left after some picks, and the picks made in the first of them. -/
def spendChunks : List Chunk → Nat → List Chunk × Nat
  | [], _ => ([], 0)
  | c :: t, k => if c.picks ≤ k then spendChunks t (k - c.picks) else (c :: t, k)

/-- Picks a lane still has to make. -/
def LaneWork.owed (w : LaneWork) : Nat := chunkSum w.todo - w.used

/-- A lane makes picks. -/
def LaneWork.spend (w : LaneWork) (k : Nat) : LaneWork :=
  let p := spendChunks w.todo (w.used + k)
  let ended := (w.todo.take (w.todo.length - p.1.length)).getLast?
  { w with todo := p.1, used := p.2, spent := w.spent + k, tile := (ended.map (fun c => c.tile)) <|> w.tile }

/-- The lanes have made every pick of an op that they have begun. -/
def Entry.drained (e : Entry) : Bool := match e.work with | some ws => ws.all (fun w => w.todo.isEmpty) | none => false

/-- The picks an op has used. -/
def Entry.spent (e : Entry) : Nat := match e.work with | some ws => (ws.map (fun w => w.spent)).sum | none => 0

/-- A MATMUL or CONV is long whose busiest lane has more than 4,194,304 picks; an SPMM never is (R130, R209). -/
def Entry.long (e : Entry) : Bool :=
  hOpcode e.desc != 0x13 && (match e.work with
    | some ws => ws.any (fun w => Nat.blt 4194304 (w.spent + w.owed))
    | none => false)

/-- The picks a lane may make of an op now: under INSIDE, a long op stops at the end of the lane's present chunk (R256). -/
def LaneWork.may (w : LaneWork) (inside : Bool) : Nat :=
  if inside then (if w.used = 0 then 0 else (match w.todo with | c :: _ => c.picks - w.used | [] => 0)) else w.owed

/-- The lane holds a window of the op, as its next chunk goes on with the output tile of the last (R108, R258). -/
def LaneWork.holdsWindow (w : LaneWork) : Bool := match w.todo with | c :: _ => w.tile == some c.tile | [] => false

/-- Every lane of an op that has picks left to make stands between two chunks (R256). -/
def Entry.between (e : Entry) : Bool :=
  !e.drained && (match e.work with | some ws => ws.all (fun w => w.used == 0) | none => false)

/-- The claim's long ops stop inside (R256). -/
def Dev.inside (d : Dev) (r : Nat) (e : Entry) : Bool :=
  let k := d.claim (d.ring r).claim.toNat
  k.pstate == .preempting && k.preInside && e.long

/-- The part of an op that a lane has. -/
def Entry.workAt (e : Entry) (n l : Nat) : Option LaneWork := (e.work.getD []).find? (fun w => w.die == n && w.lane == l)

/-- Chunks of a lane that have not begun. -/
def LaneWork.unstarted (w : LaneWork) : List Chunk := if w.used = 0 then w.todo else w.todo.drop 1

/-- The lane that an idle lane of an op steals a chunk from: the logical neighbour with more chunks not begun, the lower at a tie (R205). -/
def Entry.victim (e : Entry) (n l : Nat) : Option Nat :=
  match e.workAt n l with
  | some w =>
    let k := fun (m : Nat) => match e.workAt n m with | some v => v.unstarted.length | none => (0 : Nat)
    let lo : Nat := if l = 0 then 0 else k (l - 1)
    let hi : Nat := k (l + 1)
    if !w.steal || !w.todo.isEmpty || lo + hi == 0 then none else if Nat.ble hi lo then some (l - 1) else some (l + 1)
  | none => none

/-- The last chunk of one lane passes to another. -/
def Entry.stealFrom (e : Entry) (n v l : Nat) : Entry :=
  match (e.workAt n v).bind (fun w => w.todo.getLast?) with
  | some c => { e with work := e.work.map (fun ws => ws.map (fun w =>
      if w.die == n && w.lane == v then { w with todo := w.todo.dropLast }
      else if w.die == n && w.lane == l then { w with todo := w.todo ++ [c] } else w)) }
  | none => e

/-- The lane ops a lane works on, in the order in which they started (R127). -/
def Dev.laneOps (d : Dev) (n l : Nat) : List (Nat × Entry) :=
  (d.rings.flatMap (fun g => (g.2.ents.filter (fun e => e.phase == .started && d.working g.2.claim.toNat &&
    (match e.workAt n l with
      | some w => Nat.blt 0 (w.may (d.inside g.1 e)) || (!d.fixedPace && (e.victim n l).isSome)
      | none => false))).map (fun e => (g.1, e)))).insertionSort (fun a b => a.2.seq ≤ b.2.seq)

/-- The lane has an op: it has picks to make, or its claim has a lane op that waits to begin (R35). -/
def Dev.laneBusy (d : Dev) (n l : Nat) : Bool :=
  !(d.laneOps n l).isEmpty || d.rings.any (fun g => (Tbl.lookD (d.claim g.2.claim.toNat).lanes n (0 : Word)).getLsbD l &&
    g.2.ents.any (fun e => e.phase == .started && laneOpcode (hOpcode e.desc) && e.work.isNone))

/-- Charge an op's work to its claim's accounting registers (R254). -/
def Dev.account (d : Dev) (c picks deep fabric hoist : Nat) : Dev :=
  d.modClaim c (fun k => { k with
    accPicks := k.accPicks + BitVec.ofNat 64 picks, accDeep := k.accDeep + BitVec.ofNat 64 deep,
    accFabric := k.accFabric + BitVec.ofNat 64 fabric, accHoist := k.accHoist + BitVec.ofNat 64 hoist })

/-- Charge what an op counted, where it ends by something other than its own work. The count read of a REPEAT_BY is charged as it is made. -/
def Dev.chargeOp (d : Dev) (r : Nat) (c : W32) (res : Result) : Dev :=
  match d.entry r c with
  | some e =>
    if e.phase == .started && hOpcode e.desc != 0x04 then d.account (d.ring r).claim.toNat res.picks res.deep res.fabric 0 else d
  | none => d

/-! ## The stop of a ring (R76) -/

/-- Every descriptor fetched but not started completes with CANCELLED; a running loop starts no further descriptor (R76, R88). -/
def Dev.cancelUnstarted (d : Dev) (r : Nat) : Dev :=
  let d := d.modRing r (fun g => { g with stopped := true, loop := g.loop.map (fun l => { l with ending := true }) })
  let g := d.ring r
  let cs := (g.ents.filter Entry.unstarted).map (fun e => e.count)
  let d := cs.foldl (fun d c =>
    match d.entry r c, ((d.ring r).loopOf c).isSome with
    | some e, true =>
      -- a body descriptor that ran in an earlier iteration reports over the iterations it ran
      let d := d.leaveTallies r c
      let (d, t) := match e.total with
        | some t => (d, t)
        | none => let (d, res) := d.headerSignal r e.desc (Result.fail stCancelled 0); (d, { start := d.now, all := res, ran := none })
      d.modEntry r c (fun e' => { e' with phase := .completed, ran := false, total := some t })
    | some _, false => d.decideEntry r c stCancelled 0
    | none, _ => d) d
  d.modRing r (fun g => { g.loopStep d.now d.skew with orphans := (0, 0), skip := 0 })

/-- A ring leaves RUNNING on its own (R57), and acts as R76 states; the issue port of a core, which has no block, takes nothing more. -/
def Dev.stopRing (d : Dev) (r : Nat) (reason : BitVec 16) : Dev :=
  if r < 1024 && d.isRunning (ringBlock r) then
    (d.selfStop (ringBlock r) reason).cancelUnstarted r
  else if 1024 ≤ r then d.cancelUnstarted r
  else d

/-- The rings of a claim, the issue ports of its foreman cores among them. -/
def Dev.ringsOf (d : Dev) (c : Nat) : List Nat := (d.rings.filter (fun e => e.2.claim.toNat == c)).map (fun e => e.1)

end Sys2Proof.Machine
end

