-- ==== Sys2Proof/Machine/Meters.lean ====
section
/-!
DEFINITION. The meters of a claim: budgets, requests that wait, admission, charging and lending (R249 to R254).
-/
namespace Sys2Proof.Machine

/-- METER × 16 + INDEX, as CLAIM_METER_SEL numbers a meter. -/
def meterKey : Meter → Nat
  | .deep d => d.val | .hoist d => 16 + d.val | .fabric c => 32 + c.val | .coll => 48

def Dev.meter (d : Dev) (c k : Nat) : MeterSt := Tbl.lookD (d.claim c).meters k .reset
def Dev.modMeter (d : Dev) (c k : Nat) (f : MeterSt → MeterSt) : Dev :=
  d.modClaim c (fun x => { x with meters := Tbl.upd x.meters k .reset f })

/-- LEND_STATE: FIXED_PACE while Fixed-Pace is active (R253). -/
def Dev.lending (d : Dev) : Nat := if d.fixedPace then 2 else d.frames.lendState.toNat

/-- A charge against the balance. -/
def MeterSt.own (m : MeterSt) (k : Nat) : MeterSt := { m with bal := m.bal - k, used := m.used + k }

/-- A borrowed charge. -/
def MeterSt.lent (m : MeterSt) (k : Nat) : MeterSt :=
  { m with used := m.used + k, borrowed := m.borrowed + k, accBorrowed := m.accBorrowed + BitVec.ofNat 64 k }

/-- The claim may borrow now. -/
def Dev.mayBorrow (d : Dev) (c : Nat) : Bool := (d.claim c).shareNow.borrow && d.lending == 0

/-- A charge that an owner's balance pays, or that counts as borrowed. -/
def Dev.pay (d : Dev) (c k units : Nat) : Dev := d.modMeter c k (fun m => if 0 < m.bal then m.own units else m.lent units)

/-! ## Budgets (R246, R247, R250, R291) -/

/-- Every meter of Table 11.2. -/
def allMeters : List Meter :=
  (List.finRange 4).map .deep ++ (List.finRange 4).map .hoist ++ (List.finRange 6).map .fabric ++ [.coll]

/-- Planes in service (R280). -/
def Dev.planesUp (d : Dev) : Nat := if d.xbar.planeMode = 0 ∧ d.store.planes = 0 then 2 else 1

/-- The share of a class in the present frame. -/
def Xbar.shareOf (x : Xbar) (c : Nat) : Nat := bits x.share.toNat (8 * c + 7) (8 * c)

/-- F of R291. -/
def Dev.fabricUnits (d : Dev) : Nat :=
  let f := ((List.range 48).map (fun n => match (d.port n).link with | .up4 => 14573 | .up3 => 10930 | _ => 0)).sum
  if d.planesUp = 2 then f else f / 2

/-- What a meter divides in a frame of `len` × 10 µs (R249, R291). -/
def Dev.capacity (d : Dev) (m : Meter) : Nat :=
  let len := d.frames.len.toNat
  match m with
  | .deep _ => 3068928 * len
  | .hoist n => 312500 * (d.die n.val).eff.toNat / 900 * len
  | .fabric c => d.fabricUnits * d.xbar.shareOf c.val / 256 * len
  | .coll => 10000 * len

/-- A claim's weight for a meter. -/
def Shares.weight (w : Shares) : Meter → Nat
  | .deep _ => w.deep.toNat | .hoist _ => w.hoist.toNat | .fabric _ => w.fabric.toNat | .coll => w.coll.toNat

/-- The next frame of one meter, nothing budgeted yet: its last frame latched, its debt carried, a positive balance expired (R251). -/
def MeterSt.next (m : MeterSt) : MeterSt :=
  { m with bal := 0, budget := 0, used := 0, borrowed := 0, lastBudget := m.budget, lastUsed := m.used, lastBorrowed := m.borrowed,
           debt := (-m.bal).toNat }

/-- A meter's budget in its frame is set: the balance moves with it. -/
def MeterSt.grant (m : MeterSt) (budget : Int) : MeterSt := { m with bal := m.bal + (budget - m.budget), budget := budget }

/-- The budget of a claim on a meter: its share of the capacity less its debt, the CTRL class never below its floor; 0 for a claim that is
not RUNNING (R250, R291). -/
def Dev.budgetOf (d : Dev) (m : Meter) (c : Nat) : Int :=
  let s := (List.range 32).filter (fun c => d.isRunning (claimBlock c))
  let share := d.capacity m * (d.claim c).shareNow.weight m / (s.map (fun c => (d.claim c).shareNow.weight m)).sum
  let b : Int := (share : Int) - (d.meter c (meterKey m)).debt
  if !s.contains c then 0
  else match m with | .fabric 4 => max b (d.capacity m / 32 : Nat) | _ => b

/-- Every budget of the frame, from the settings as they stand (R247). -/
def Dev.setBudgets (d : Dev) : Dev :=
  allMeters.foldl (fun a m => (List.range 32).foldl (fun a c =>
    if d.isRunning (claimBlock c) || !(d.claim c).meters.isEmpty then a.modMeter c (meterKey m) (fun x => x.grant (d.budgetOf m c)) else a) a) d

/-- The budgets of a new frame. -/
def Dev.newBudgets (d : Dev) : Dev :=
  Dev.setBudgets { d with claims := Tbl.mapAll d.claims (fun _ k => { k with meters := Tbl.mapAll k.meters (fun _ m => m.next) }) }

/-- On a frame's first tick the budgets follow every change of the settings that is stamped on it (R242, R243, R247). -/
def Dev.rebudget (d : Dev) : Dev :=
  if d.frames.num != 0 && d.frames.start == d.now then
    Dev.setBudgets { d with claims := Tbl.mapAll d.claims (fun _ k => { k with shareNow := k.share }) }
  else d

/-- The debt of a claim that leaves RUNNING is forgotten (R251). -/
def Dev.forgetDebt (d : Dev) (c : Nat) : Dev :=
  d.rebudget.modClaim c (fun k => { k with meters := Tbl.mapAll k.meters (fun _ m => { m with bal := max m.bal 0, debt := 0 }) })

/-! ## Requests (R251, R252) -/

/-- A move is against its object's policy (R221). -/
def Obj.against (o : Obj) (v : Move) : Bool := !v.evict && (if v.toNear then o.placement == 1 else o.placement == 0)

/-- What a request is for still waits for it. -/
def Dev.alive (d : Dev) (a : Ask) : Bool :=
  match a.what with
  | .op r c => (match d.entry r c with | some e => e.phase == .started && !e.paid.contains a.meter | none => false)
  | .move n u => (match d.obj n with | some o => o.moves.any (fun v => v.unit == u && !v.begun && !o.against v) | none => false)
  | .packet _ _ => true
  | .segment g => (match (d.group g).bind (fun x => x.op) with | some o => !o.admitted | none => false)

/-- The requests that wait at a meter. -/
def Dev.asksAt (d : Dev) (k : Nat) : List Ask := d.frames.asks.filter (fun a => a.meter == k && d.alive a)

/-- The request a meter serves next: of the claims whose balance is above 0, in round-robin order; where none waits, of those that may
borrow (R252). -/
def Dev.nextAsk (d : Dev) (k : Nat) : Option Ask :=
  let q := d.asksAt k
  let first := fun (l : List Nat) => (roundRobin 32 (Tbl.lookD d.frames.lastServed k 31) l).bind (fun c => q.find? (fun a => a.claim == c))
  let own := (q.map (fun a => a.claim)).filter (fun c => 0 < (d.meter c k).bal)
  if own.isEmpty then first ((q.map (fun a => a.claim)).filter d.mayBorrow) else first own

/-- A unit's move starts: the unit is in motion, and its die is reached (R218, R377). -/
def Dev.beginMove (d : Dev) (n u : Nat) : Dev :=
  match d.obj n with
  | some o => (d.setObj n { o with moves := o.moves.map (fun v => if v.unit == u then { v with begun := true } else v) }).touchDie (o.unitDie u)
  | none => d

/-- A request is admitted: it is charged, but for a collective's segment, and what it is for goes on. A packet goes to its port as the
fabric takes it. -/
def Dev.admitAsk (d : Dev) (a : Ask) : Dev :=
  let owner := decide (0 < (d.meter a.claim a.meter).bal)
  let d := { d with frames := { d.frames with
    asks := d.frames.asks.erase a, lastServed := Tbl.put d.frames.lastServed a.meter a.claim } }
  let d := if a.meter = 48 then d else d.pay a.claim a.meter a.units
  match a.what with
  | .op r c => d.modEntry r c (fun e => { e with paid := a.meter :: e.paid })
  | .move n u => (d.pay a.claim (a.meter - 16) a.deep).beginMove n u
  | .packet _ _ => d
  | .segment g =>
    match d.group g with
    | some x => d.setGroup g { x with op := x.op.map (fun o => { o with admitted := true, owner := owner }) }
    | none => d

/-- A request reaches its meter, or asks there again: it is served at once where no other waits and it may be served. -/
def Dev.ask (d : Dev) (a : Ask) : Dev :=
  let free := (d.asksAt a.meter).all (fun b => b == a)
  let d := if d.frames.asks.contains a then d else { d with frames := { d.frames with asks := d.frames.asks ++ [a] } }
  match if free then d.nextAsk a.meter else none with
  | some x => d.admitAsk x
  | none => d

/-- An op asks at every meter that it needs and that it has not asked. -/
def Dev.askOp (d : Dev) (r : Nat) (count : W32) (needs : List (Nat × Nat)) : Dev :=
  needs.foldl (fun d k => if k.2 = 0 then d else
    d.ask { meter := k.1, claim := (d.ring r).claim.toNat, units := k.2, deep := 0, what := .op r count }) d

/-- Every meter that an op needs has admitted it. -/
def Entry.admitted (e : Entry) (needs : List (Nat × Nat)) : Bool := needs.all (fun k => k.2 == 0 || e.paid.contains k.1)

/-- An op's work with what it asks of the meters: its engine takes it, and it goes on once all have admitted it, and waits until then
(R251). -/
def metered (s : State) (r : Nat) (count : W32) (needs : List (Nat × Nat)) (go : State → Host.Outcome State Fault Refusal) :
    Host.Outcome State Fault Refusal :=
  match s.dev.entry r count with
  | none => answer s s.dev
  | some e =>
    if e.admitted needs then go s
    else
      let d := (s.dev.take r count).askOp r count (needs.filter (fun k => !e.paid.contains k.1))
      if (d.entry r count).any (fun x => x.admitted needs) then go { s with dev := d } else answer s d

end Sys2Proof.Machine
end

