-- ==== Sys2Proof/Machine/Stops.lean ====
section
/-!
DEFINITION. What ends or resets parts of the block: claims and objects at their end, the stop of each block, containment of a die,
the emergency quiesce, loss of power and COLD_START (R14, R19 to R21, R57, R216, R245, R386).
-/
namespace Sys2Proof.Machine

/-! ## Objects -/

/-- Some started op that names the object has not completed. -/
def Dev.heldByOp (d : Dev) (n : Nat) : Bool :=
  d.rings.any (fun r => r.2.ents.any (fun e => (e.phase == .started || e.phase == .done) && e.objs.contains n))

/-- Free the DYING objects that no op holds any more (R216). -/
def Dev.freeDying (d : Dev) : Dev :=
  (d.objects.filter (fun e => e.2.st == .dying && !d.heldByOp e.1)).foldl (fun d e => d.freeObj e.1) d

/-- A region entry with VALID clear. -/
def invalid (x : BitVec 256) : BitVec 256 := x &&& ~~~ BitVec.ofNat 256 (2 ^ 63)

/-- Every region that names an object becomes not VALID (R297). -/
def Dev.dropRegions (d : Dev) (n : Nat) : Dev :=
  { d with xbar := { d.xbar with regions := Tbl.mapAll d.xbar.regions (fun _ x => if bits x.toNat 49 32 = n then invalid x else x) } }

/-- DESTROY of an object: a READY or LOST one becomes DYING, and FREE at once where no op holds it (R216). -/
def Dev.destroyObj (d : Dev) (n : Nat) : Dev :=
  match d.obj n with
  | some o => if o.named then ((d.dropRegions n).setObj n { o with st := .dying, dyingSeq := d.started }).freeDying else d
  | none => d

/-- A claim reached OFF: each of its objects is destroyed; one still CREATING as soon as its creation ends (R216). -/
def Dev.destroyObjects (d : Dev) (c : Nat) : Dev :=
  (d.objects.filter (fun e => e.2.claim == c)).foldl (fun d e =>
    if e.2.st == .creating then d.setObj e.1 { e.2 with doomed := true } else d.destroyObj e.1) d

/-- Units of an object are lost, and it becomes LOST (R233). -/
def Dev.loseUnits (d : Dev) (n lo hi : Nat) : Dev :=
  match d.obj n with
  | some o =>
    d.setObj n { o with lostUnits := rangesAdd o.lostUnits lo hi, st := if o.st == .ready then .lost else o.st }
  | none => d

/-! ## Lanes and cores (R141, R384) -/

/-- Lanes that a claim which is not OFF holds on a die. -/
def Dev.lanesHeld (d : Dev) (n : Nat) : BitVec 64 :=
  (List.range 32).foldl (fun m c => if d.isOff (claimBlock c) then m else m ||| Tbl.lookD (d.claim c).lanes n 0) 0

/-- Cores that a claim which is not OFF holds on a die, 8 bits. -/
def Dev.coresHeld (d : Dev) (n : Nat) : Nat :=
  (List.range 32).foldl (fun m c => if d.isOff (claimBlock c) then m else m ||| bits (d.claim c).cores.toNat (8 * n + 7) (8 * n)) 0

/-- Number the working lanes of a die by compaction, in ascending physical order, the rest being spares (R141). -/
def Dev.compactLanes (d : Dev) (n : Nat) : Dev :=
  let lanes := (List.range 66).filter (fun p => !(Tbl.lookD d.store.lanes n 0).getLsbD p)
  d.modDie n (fun x => { x with
    laneList := lanes.take 64, laneLog := BitVec.ofNat 64 (2 ^ (min 64 lanes.length) - 1), laneSpares := lanes.drop 64 })

/-- The same for cores. -/
def Dev.compactCores (d : Dev) (n : Nat) : Dev :=
  let cores := (List.range 9).filter (fun p => !(Tbl.lookD d.store.cores n 0).getLsbD p)
  d.modDie n (fun x => { x with
    coreList := cores.take 8, coreLog := BitVec.ofNat 8 (2 ^ (min 8 cores.length) - 1), coreSpares := cores.drop 8 })

/-- Both (R141, R240). -/
def Dev.compact (d : Dev) (n : Nat) : Dev := (d.compactLanes n).compactCores n

/-- Condition 4 ends when the last waiting substitution is done (R384). -/
def Dev.heldDone (d : Dev) : Dev := if d.health.held.isEmpty && d.health.testing.isEmpty then d.condEnds 4 else d

/-- Lanes of a die that no claim holds, and cores that none holds, are numbered anew; a substitution of one of them that waits has nothing
left to do (R141, R240, R244). -/
def Dev.compactFree (d : Dev) (n : Nat) : Dev :=
  if (d.die n).ready && !(d.die n).contained then
    let keep := fun (core : Bool) (t : Subst) => !(t.die == n && t.core == core)
    let drop := fun (d : Dev) (core : Bool) => { d with health := { d.health with
      testing := d.health.testing.filter (keep core), held := d.health.held.filter (keep core) } }
    let d := if d.lanesHeld n = 0 then drop (d.compactLanes n) false else d
    (if d.coresHeld n = 0 then drop (d.compactCores n) true else d).heldDone
  else d

/-! ## Claims -/

/-- A claim that reached OFF holds no group slot, and its tags drain, or are FREE where only ASSIGNED (R310, R347). -/
def Dev.dropClaim (d : Dev) (c : Nat) : Dev :=
  let d := { d with coll := { d.coll with groups := d.coll.groups.filter (fun e => bits e.2.entry.toNat 20 16 != c) } }
  (d.time.tags.filter (fun e => e.2.claim == c && e.2.st != .draining)).foldl (fun d e =>
    d.tagTo e.1 (if e.2.st == .assigned then none else some { e.2 with st := .draining, since := d.phys })) d

/-- The last stages of a claim's stop: its objects are destroyed, its tallies, lanes, cores and quota are released, and it is OFF
(R245). -/
def Dev.claimOff (d : Dev) (c : Nat) : Dev :=
  let k := d.claim c
  let d := d.destroyObjects c
  let d := { d with tallies := d.tallies.filter (fun e =>
    !(k.tallyFirst.toNat ≤ e.1 && e.1 < k.tallyFirst.toNat + k.tallyCount.toNat)) }
  let d := (d.dropClaim c).setClaim c { k with cmdBusy := false, leaving := false, meters := [], ports := [] }
  let d := { d with frames := { d.frames with asks := d.frames.asks.filter (fun a =>
    a.claim != c || (match a.what with | .packet _ _ => true | _ => false)) } }
  let d := { d with shuttle := { d.shuttle with chans := d.shuttle.chans.filter (fun x => x.1 / 64 != c),
                                                cancels := d.shuttle.cancels.filter (fun x => x.claim != c) } }
  let d := if (d.kernel c).st == .running then d.emit (.kernel c false) else d
  let d := { d.setKernel c .reset with rings := d.rings.filter (fun e => !(1024 ≤ e.1 && e.2.claim.toNat == c)) }
  let d := d.moveBlock (claimBlock c) { d.block (claimBlock c) with st := .off }
  (List.range 4).foldl (fun d n => d.compactFree n) d

/-! ## The host interface -/

/-- Doorbell lines are dropped (R50, R52). -/
def Dev.dropLines (d : Dev) : Dev :=
  { d with rings := Tbl.mapAll d.rings (fun _ g => { g with lineHeld := false, lineRead := false }) }

/-- The host interface goes OFF with AUTO_STOP and a cause of R49, through QUIESCING (R57); its vectors wait (R50). Of two such events on
one tick the lower code stays. What such an event does to a check under way the spec leaves open: it ends REFUSED with LINK_DOWN (DESIGN
CHOICE, notes/assumptions/55.md). -/
def Dev.hostOff (d : Dev) (cause : BitVec 16) : Dev :=
  let b := d.block .hostif
  let d := { d.dropLines with host := { d.host with dbMode := 0 } }
  match b.st with
  | .running | .quiescing =>
    let d := d.selfStop .hostif cause
    { d.moveBlock .hostif { d.block .hostif with st := .off } with host := { d.host with offTick := some d.now } }
  | .checking => d.refuse .hostif 0x0101
  | _ =>
    if d.host.offTick == some d.now && b.autoStop && cause.ult b.reason then d.setBlock .hostif { b with reason := cause } else d

/-- The MSI-X table, the pending bits, the BARs, Bus Master Enable, the HDM decoders and the IDE streams return to reset (Table 3.5). -/
def HostIf.resetConfig (h : HostIf) : HostIf :=
  { h with busMaster := false, bar0 := 0, bar2 := 0, bar4 := 0, msixOn := false, msixPending := 0,
           msixMask := BitVec.allOnes 2048, msixAddr := [], msixData := [], hdm := [], cached := [], link := { h.link with ide := false } }

/-! ## The stop of any block (R57) -/

/-- A result with the picks the op's lanes have made. -/
def Entry.counted (e : Entry) (res : Result) : Result := if laneOpcode (hOpcode e.desc) then { res with picks := e.spent } else res

/-- The exchange channels forget an op that something else ended (R172, R177). -/
def Dev.leaveChans (d : Dev) (r : Nat) (c : W32) : Dev :=
  { d with shuttle := { d.shuttle with chans := Tbl.mapAll d.shuttle.chans (fun _ y => { y with
      disp := y.disp.filter (fun x => !(x.ring == r && x.count == c))
      ret := y.ret.filter (fun x => !(x.ring == r && x.count == c))
      retDone := y.retDone || y.ret.any (fun x => x.ring == r && x.count == c) }) } }

/-- A started op ends with a result that its own work did not give; what it counted is charged (R98, R254). -/
def Dev.killOp (d : Dev) (r : Nat) (c : W32) (res : Result) : Dev :=
  match d.entry r c with
  | some e => ((d.chargeOp r c (e.counted res)).closeOp r c (e.counted res)).leaveChans r c
  | none => d

/-- A running exchange op ends with REMOTE_FAILED (R177, R191). -/
def Dev.failExchange (d : Dev) (r : Nat) (c : W32) (reason : Nat) : Dev :=
  match d.entry r c with
  | some e => d.killOp r c (e.res.meet stRemoteFailed (BitVec.ofNat 16 reason))
  | none => d

/-- The interrupted ops of a claim that leaves RUNNING while its context is out of the module end with HARDWARE_FAULT, as ops of a claim
without lanes do (R244): no later restore can resume them (DESIGN CHOICE, notes/assumptions/55.md). -/
def Dev.endInterrupted (d : Dev) (c : Nat) : Dev :=
  if (d.claim c).pstate == .preempted then
    (d.claimOps c).foldl (fun d x => d.killOp x.1 x.2 (Result.fail stHardwareFault 0x10)) d
  else d

/-- What follows where a claim has left RUNNING: its debt is forgotten, its rings stop with 0x0213, and interrupted ops end (R76, R245,
R251). -/
def Dev.claimLeft (d : Dev) (c : Nat) : Dev :=
  ((d.ringsOf c).foldl (fun d r => d.stopRing r 0x0213) (d.forgetDebt c)).endInterrupted c

/-- A claim leaves RUNNING on its own: AUTO_STOP, and its rings stop (R57, R76, R245). -/
def Dev.stopClaim (d : Dev) (c : Nat) (reason : BitVec 16) : Dev :=
  if d.isRunning (claimBlock c) then (d.selfStop (claimBlock c) reason).claimLeft c else d

/-- The shuttle stops: its running exchange ops end, and the result contexts are disarmed (R191). -/
def Dev.stopShuttle (d : Dev) : Dev :=
  let ops := d.shuttle.chans.flatMap (fun x =>
    (x.2.disp.map (fun o => (o.ring, o.count))).toList ++ (x.2.ret.map (fun o => (o.ring, o.count))).toList)
  let d := ops.foldl (fun d o => d.failExchange o.1 o.2 0) d
  { d with shuttle := { d.shuttle with chans := Tbl.mapAll d.shuttle.chans (fun _ x =>
      { x with disp := none, ret := none, retDone := x.retDone || x.ret.isSome, res := x.res.map (fun y => { y with armed := false }) }) } }

/-- A block leaves RUNNING without a write of ENABLE = 0. -/
def Dev.stopBlock (d : Dev) (b : BlockId) (reason : BitVec 16) : Dev :=
  if d.isRunning b then
    match b with
    | .ring r => d.stopRing r.val reason
    | .claim c => d.stopClaim c.val reason
    | .hostif => d.hostOff reason
    | .shuttle => (d.selfStop b reason).stopShuttle
    | _ => d.selfStop b reason
  else d

/-- A QUIESCING block's work has stopped: it is OFF. -/
def Dev.blockOff (d : Dev) (b : BlockId) : Dev :=
  if (d.block b).st == .quiescing then
    match b with
    | .claim c => d.claimOff c.val
    | _ => d.moveBlock b { d.block b with st := .off }
  else d

/-- Rings before claims, so that a ring that a quiesce stops shows its own cause (R20); then every other block outside management. -/
def Dev.mainBlocks (d : Dev) : List BlockId :=
  let ks := d.blocks.filterMap (fun e => blockOfKey e.1)
  ks.filter (fun b => blockCode b == 2) ++ ks.filter (fun b => blockCode b != 2 && !blockMgmt b)

/-- Every RUNNING block outside management stops with its own ID and a cause; a check of one of these, or of any block when
`all`, refuses with that cause (R14, R20). -/
def Dev.stopMain (d : Dev) (cause : Nat) (all : Bool) : Dev :=
  let d := d.mainBlocks.foldl (fun d b => d.stopBlock b (reasonOf b cause)) d
  (d.blocks.filterMap (fun e => blockOfKey e.1)).foldl (fun d b =>
    if (d.block b).st == .checking && (all || !blockMgmt b) then d.refuse b (reasonOf b cause) else d) d

/-! ## Containment (R386) -/

/-- A die whose domain goes off. -/
def Die.powerOff (x : Die) : Die :=
  { x with on := false, ready := false, eff := 0, vout := 0, govState := 0, slowId := 0, slowest := 0, fastest := 0, target := 0,
           acc := 0, banks := [], heat := [], doze := .run }

/-- An op has work on a die: its claim holds lanes or cores there, or it names an object with units there. -/
def Dev.opOnDie (d : Dev) (r : Nat) (e : Entry) (n : Nat) : Bool :=
  let g := d.ring r
  let k := d.claim g.claim.toNat
  (Tbl.lookD k.lanes n (0 : Word) != 0 && 0x10 ≤ hOpcode e.desc && hOpcode e.desc ≤ 0x25) ||
    d.objects.any (fun o => e.objs.contains o.1 && o.2.dies.getLsbD n)

/-- Every started op of the module that meets a condition ends with a status. -/
def Dev.killOps (d : Dev) (p : Dev → Nat → Entry → Bool) (status : BitVec 16) (reason : Nat) : Dev :=
  (d.rings.flatMap (fun g => (g.2.ents.filter (fun e => e.phase == .started && p d g.1 e)).map (fun e => (g.1, e)))).foldl
    (fun d x => d.killOp x.1 x.2.count (x.2.res.meet status (BitVec.ofNat 16 reason))) d

/-- A die is contained: fenced and powered off, its ops ended with HARDWARE_FAULT, its units lost, its lanes and cores lost to every
claim, its block stopped, and condition 10 set. A die contained for more than a thermal trip is recorded. -/
def Dev.containDie (d : Dev) (n : Nat) (thermal : Bool) : Dev :=
  if (d.die n).contained then
    if thermal then d else { d with store := { d.store with dies := d.store.dies ||| BitVec.ofNat 4 (2 ^ n) } }
  else
    let d := d.killOps (fun d r e => d.opOnDie r e n) stHardwareFault (0x10 + n)
    let d := { d with objects := Tbl.mapAll d.objects (fun _ (o : Obj) =>
      if o.dies.getLsbD n then
        { o with
                 lostDies := o.lostDies ||| BitVec.ofNat 4 (2 ^ n), st := if o.st == ObjState.ready then ObjState.lost else o.st,
                 moves := o.moves.filter (fun v => o.unitDie v.unit != n) }
      else o) }
    let d := (d.objects.filter (fun e => e.2.dies.getLsbD n)).foldl (fun d e => d.alarm (0x10 + n) (0x040000 + n * 0x10000 + 0x538) e.1 (Tbl.lookD (d.die n).cnt 0x538 0)) d
    let d := (List.range 32).foldl (fun d c =>
      let k := d.claim c
      if !d.isOff (claimBlock c) && (Tbl.lookD k.lanes n (0 : Word) != 0 || bits k.cores.toNat (8 * n + 7) (8 * n) != 0) then
        d.setClaim c { k with shapeLost := true }
      else d) d
    let d := d.modDie n (fun x => { x.powerOff with contained := true, laneList := [], laneLog := 0, laneSpares := [],
                                                    coreList := [], coreLog := 0, coreSpares := [] })
    let d := { d with health := { d.health with testing := d.health.testing.filter (fun t => t.die != n),
                                                held := d.health.held.filter (fun t => t.die != n) },
                      store := if thermal then d.store else { d.store with dies := d.store.dies ||| BitVec.ofNat 4 (2 ^ n) } }
    let b := dieBlock n
    let d := (d.stopBlock b (reasonOf b 0xF7)).blockOff b
    let d := d.alarm (blockCode b) (blockSts b) n (BitVec.ofNat 64 (d.block b).sts)
    (d.condArises 10).rebudget

/-! ## Power -/

/-- PSTATE changes; entering QUIESCING raises vector 4 (Table 3.4); leaving RUNNING ends module doze (R376). -/
def Dev.setPState (d : Dev) (p : PState) : Dev :=
  let was := d.power.pstate
  let d := { d with power := { d.power with pstate := p }, evt := { d.evt with hubLow := d.evt.hubLow && p == .running } }
  if p == .quiescing && was != .quiescing then d.raise 4 else d

/-- The hub switching and loom-die domains go off: deep and near contents are lost with the memory the caller clears, records still
held are never posted, and every block that is QUIESCING outside management is OFF (R19 step 6, R14). -/
def Dev.mainsOff (d : Dev) : Dev :=
  let d := { d with power := { d.power with hubOn := false, hubReady := false, retries := [] },
                    dies := Tbl.mapAll d.dies (fun _ x => x.powerOff),
                    rings := Tbl.mapAll d.rings (fun _ g => { g with ents := [], finished := [], skip := 0, orphans := (0, 0), loop := none }),
                    ports := Tbl.mapAll d.ports (fun _ p => { p with
                      link := .down, lanes := 0, flights := [], arriving := [], waiting := [], collDeficit := [], deDepth := 0, loop := none }),
                    frames := { d.frames with asks := [] }, routing := { d.routing with detours := [], held := [] }, xbar := { d.xbar with rem := [] },
                    coll := { d.coll with groups := Tbl.mapAll d.coll.groups (fun _ (g : Group) =>
                      { g with op := none, abortNext := false, windowNext := [], arriveNext := [] }) } }
  d.mainBlocks.foldl (fun d b => d.blockOff b) d.upstreamLost

/-- Every cell of memory dropped. -/
def clearAll : List MemOp := [.clear 0 (2 ^ 64)]

/-- The conditions of Table 17.1 that the health record shows (R381). -/
def SignedStore.conditions (t : SignedStore) : BitVec 64 :=
  let lost := fun n => popCount 66 (Tbl.lookD t.lanes n 0).toNat
  let lostC := fun n => popCount 9 (Tbl.lookD t.cores n 0).toNat
  let words := t.deepGroups.map (fun e => e.2.toNat)
  let fails := words.map (fun w => popCount 19 w)
  BitVec.ofNat 64
    (b2n ((List.range 4).any (fun n => 0 < lost n || 0 < lostC n)) + 2 * b2n (fails.any (· == 1)) + 4 * b2n (fails.any (· == 2)) +
     8 * b2n ((List.range 4).any (fun n => 2 < lost n || 1 < lostC n)) + 32 * b2n (words.any (bit · 31)) +
     64 * b2n (t.planes != 0) + 128 * b2n (t.ports != 0) + 256 * b2n (t.groups != 0) + 512 * b2n (!t.engines.isEmpty) +
     1024 * b2n (t.dies != 0))

/-- The device as it starts from AUX_ONLY, with what outlives the reset: the signed store and what it shows as failed (R20, R21, R381). -/
def Dev.restart (d : Dev) : Dev :=
  let cond := d.store.conditions
  let r := Dev.reset
  { r with
    store := d.store, out := d.out, draws := d.draws,
    health := { r.health with cond := cond },
    power := { r.power with svcReqN := 2 ≤ healthState cond || d.store.noCopy.getLsbD 3, i3cStrap := d.power.i3cStrap },
    ports := (setBits 48 d.store.siteMarks.toNat).map (fun n => (n, { Port.reset with site := true })),
    dies := ((List.range 4).map (fun n => (n, { Die.reset with
      contained := d.store.dies.getLsbD n
      deepGroup := (d.store.deepGroups.filter (fun e => e.1 / 32 == n)).map (fun e => (e.1 % 32, e.2)) }))).filter (fun e => e.2 != Die.reset),
    blocks := d.store.engines.map (fun k => (k, { Block.reset with st := .refused, reason := BitVec.ofNat 16 (k * 256 + 0xF7) })) }

/-- All power is lost: every state but the signed store (R20, ALL_POWER_REMOVED). -/
def Dev.unpowered (d : Dev) : Dev :=
  let r := d.restart
  { r with power := { r.power with aonOn := false, mgmtOn := false, auxOk := false, mainOk := false, mainLive := false, svcReqN := false } }

/-- The reset of COLD_START: every block OFF, configuration space and host interface reset, PSTATE AUX_ONLY; the timebase counter, the
signed store, the supplies and pins and the trained link stay (R21). -/
def Dev.coldReset (d : Dev) : Dev :=
  let r := d.restart
  { r with
    now := d.now, skew := d.skew,
    power := { r.power with
      mated := d.power.mated, matedSettled := d.power.matedSettled, auxFromMain := d.power.auxFromMain, auxOk := d.power.auxOk,
      mainOk := d.power.mainOk, mainLive := d.power.mainLive, protectionOpen := d.power.protectionOpen, sensors := d.power.sensors,
      i3cDynamic := d.power.i3cDynamic, i3cPtr := d.power.i3cPtr, thermN := d.power.thermN, identityBad := d.power.identityBad },
    time := { r.time with refBad := d.time.refBad }, evt := { r.evt with latch := d.evt.latch, level := d.evt.level },
    host := { r.host with
      linkUp := d.host.linkUp, link := { d.host.link with ide := false }, perstLow := d.host.perstLow, refclk := d.host.refclk,
      training := d.host.training, trainTick := d.host.trainTick, supplyTick := d.host.supplyTick } }

/-! ## Posting records (R65, R67) -/

/-- The completion ring has room (R66). -/
def Ring.room (g : Ring) : Bool := (g.cqTail - g.cqHeadLast).toNat < 2 ^ g.cqLog2.toNat

/-- The host can be written: the link is up and the host interface is RUNNING, or still finishing (R50, R52). -/
def Dev.hostOpen (d : Dev) : Bool := d.host.linkUp && d.isRunning .hostif

/-- Raise a ring's vector and start counting again (R67). -/
def Dev.raiseRing (d : Dev) (r : Nat) : Dev :=
  (d.modRing r (fun g => { g with sinceRaise := 0, firstUnsignalled := none })).raise (d.ring r).vector.toNat

/-- Post the ring's oldest finished record: the record is written, its buffer entry is freed, the ring's vector is raised under R67,
and a record of class 2 or 3 stops a ring that halts on errors (R65, R67, R75). A record of an issue port goes to its core's window (R369). -/
def Dev.postRecord (d : Dev) (r : Nat) : Dev :=
  let g := d.ring r
  match g.finished with
  | [] => d
  | c :: rest =>
    match g.entry c with
    | none => d.setRing r { g with finished := rest }
    | some e =>
      if g.room then
        let failed := 2 ≤ classOf e.res.status
        let rec256 := recordOf r g e g.cqTail
        let g' : Ring := { g with
          finished := rest, ents := g.ents.filter (fun x => x.count != c), cqTail := g.cqTail + 1,
          cntDone := g.cntDone + 1, cntFail := if failed then g.cntFail + 1 else g.cntFail, sinceRaise := g.sinceRaise + 1,
          firstUnsignalled := g.firstUnsignalled <|> some d.phys }
        let slot := g.cqTail.toNat % 2 ^ g.cqLog2.toNat
        let d := d.setRing r g'.takeBuffers
        if 1024 ≤ r then d.emit (.window (r - 1024) slot rec256) else
        let d := d.emit (.record r slot rec256)
        let d := if hIrq e.desc || (g.irqCount != 0 && g.irqCount.toNat ≤ g'.sinceRaise) then d.raiseRing r else d
        if failed && g.halt then d.stopRing r 0x0212 else d
      else d

/-- Post records of one ring while there is room. The fuel is the number of records that wait. -/
def Dev.postAll (d : Dev) (r : Nat) : Dev :=
  (List.range (d.ring r).ents.length).foldl (fun d _ => if d.hostOpen || 1024 ≤ r then d.postRecord r else d) d

/-- Post what every ring holds, in ring order (R51). -/
def Dev.postEverything (d : Dev) : Dev := (d.rings.map (fun e => e.1)).foldl (fun d r => d.postAll r) d

/-! ## The emergency quiesce (Table 1.10) -/

/-- Step 4: every started op halts with POWER_ABORT, and moves not committed are abandoned. -/
def Dev.abortOps (d : Dev) : Dev :=
  let d := { d with objects := Tbl.mapAll d.objects (fun _ o => { o with moves := [] }) }
  (d.rings.map (fun e => e.1)).foldl (fun d r =>
    ((d.ring r).ents.map (fun e => e.count)).reverse.foldl (fun d c =>
      match d.entry r c with
      | none => d
      | some e =>
        if e.phase == .started || e.phase == .done then
          let res := if e.phase == .started then e.counted (e.res.meet stPowerAbort 0) else e.res.meet stPowerAbort 0
          let res := if hOpcode e.desc == 0x04 then { res with reason := e.res.reason } else res
          let d := if e.phase == .started then d.chargeOp r c res else d
          let (d, res) := d.headerSignal r e.desc res
          d.settle r c res true e.start
        else d) d) d

/-- The power-loss record of step 7, in one write (R419). -/
def Dev.recordLoss (d : Dev) (cause : BitVec 8) (tick : Tick) : Dev :=
  { d with store := { d.store with lossCause := cause, lossTick := tick, armed := false } }

/-- Steps 1 to 6 of Table 1.10: blocks outside management stop with 0xF0, a leaving notice goes out on every port that is up, ops halt,
records are posted, doorbell lines are released, and the main domains go off. -/
def Dev.quiesceBody (d : Dev) (ports : List Nat) : Dev :=
  let d := d.setPState .quiescing
  let d := d.stopMain 0xF0 true
  let d := d.emitAll (ports.map .leaving)
  let d := d.abortOps
  let d := d.postEverything
  let d := d.dropLines
  d.mainsOff

end Sys2Proof.Machine
end

