-- ==== Sys2Proof/Machine/Access.lean ====
section
/-!
DEFINITION. What every op does with device memory: the checks of an address operand, engine reads and writes with their heat, wake-ups
and deep-tier bytes, and the end of an op with its charges (R70, R211, R214, R224, R234, R254, R377).
-/
namespace Sys2Proof.Machine

/-- The claim of a ring. -/
def Dev.claimOf (d : Dev) (r : Nat) : Nat := (d.ring r).claim.toNat

/-- An op may use an object: when the op started it was READY or LOST (R214). -/
def Obj.usable (o : Obj) (e : Entry) : Bool := o.readySeq ≤ e.seq && (o.named || (o.st == .dying && Nat.blt e.seq o.dyingSeq))

/-- Units of the object are lost (R233). -/
def Obj.isLost (o : Obj) : Bool := o.st == .lost || !o.lostUnits.isEmpty || o.lostDies != 0

/-- A byte or range of an operand. -/
structure Place where
  addr : Nat
  num : Nat
  obj : Obj
  deriving DecidableEq, Repr

/-- The object of the ring's claim that holds `[a, a + n)` for an op. -/
def Dev.placeAt (d : Dev) (r : Nat) (e : Entry) (a n : Nat) : Option Place :=
  (d.findObj (fun o => o.usable e && o.claim == d.claimOf r) a n).map (fun x => ⟨a, x.1, x.2⟩)

/-- The checks of one address operand: in range, aligned, inside one object of the claim; otherwise ADDR_FAULT with its offset. -/
def Dev.place (d : Dev) (r : Nat) (e : Entry) (off n align : Nat) : Except Result Place :=
  let a := effAddr ((d.ring r).loopOf e.count) e.desc off
  if !addrOk a then .error (Result.fail stAddrFault off)
  else if a.toNat % align != 0 then .error (Result.fail stAddrFault off)
  else match d.placeAt r e a.toNat n with
    | none => .error (Result.fail stAddrFault off)
    | some p => .ok p

/-- The same, and a LOST object ends the op with DATA_LOST (R234). -/
def Dev.access (d : Dev) (r : Nat) (e : Entry) (off n align : Nat) : Except Result Place :=
  match d.place r e off n align with
  | .error x => .error x
  | .ok p => if p.obj.isLost then .error (Result.fail stDataLost off) else .ok p

/-- The objects of the ring's claim that cover `[a, a + n)`, in address order; none where a byte lies in none. The fuel is the number of
objects. -/
def Dev.cover (d : Dev) (r : Nat) (e : Entry) : Nat → Nat → Nat → Option (List Obj)
  | 0, _, _ => none
  | fuel + 1, a, n =>
    match d.findObj (fun o => o.usable e && o.claim == d.claimOf r) a 1 with
    | none => none
    | some (_, o) =>
      let k := o.base + o.len - a
      if n ≤ k then some [o] else (Dev.cover d r e fuel (a + k) (n - k)).map (o :: ·)

/-- A packed array: 64-byte aligned, its whole range in objects of the claim (R145). -/
structure Span where
  addr : Nat
  len : Nat
  objs : List Obj
  deriving DecidableEq, Repr

def Span.isLost (p : Span) : Bool := p.objs.any Obj.isLost

/-- The check of a packed array of `n` bytes. -/
def Dev.array (d : Dev) (r : Nat) (e : Entry) (off n align : Nat) : Except Result Span :=
  let a := effAddr ((d.ring r).loopOf e.count) e.desc off
  if !addrOk a || a.toNat % align != 0 then .error (Result.fail stAddrFault off)
  else match d.cover r e (d.objects.length + 1) a.toNat n with
    | none => .error (Result.fail stAddrFault off)
    | some os => .ok ⟨a.toNat, n, os⟩

/-- With back-invalidate the host's copies of the lines of a range are recalled before an engine reads or writes them (R43). -/
def Dev.recall (d : Dev) (a n : Nat) : Dev :=
  if d.host.link.bi then
    let hit := fun (l : Nat) => Nat.blt a (l + 64) && Nat.blt l (a + n)
    ({ d with host := { d.host with cached := d.host.cached.filter (fun l => !hit l) } }).emitAll ((d.host.cached.filter hit).map .recall)
  else d

/-- An engine's write of a range reaches its dies. -/
def Dev.engineWrite (d : Dev) (a n : Nat) : Dev := (d.recall a n).touchRange a n

/-- An engine's read of a range: the host's copies are recalled, dozing dies wake and the units' heat rises. -/
def Dev.engineRead (d : Dev) (a n : Nat) : Dev := ((d.recall a n).touchRange a n).heatRange a n 1

/-- Deep lines moved for a claim without a wait: they are charged at once (R249, R301). -/
def Dev.payDeep (d : Dev) (c : Nat) (ranges : List (Nat × Nat)) (write : Bool) : Dev :=
  (d.deepNeeds (if write then [] else ranges) (if write then ranges else [])).foldl (fun d k => if k.2 = 0 then d else d.pay c k.1 k.2) d

/-- An op's work ends: its claim is charged and its result stands. -/
def Dev.endOp (d : Dev) (r : Nat) (e : Entry) (res : Result) (hoist : Nat := 0) : Dev :=
  (d.account (d.claimOf r) res.picks res.deep res.fabric hoist).finishOp r e.count res

/-- `n` bytes the spec leaves open. -/
def Dev.freeBytes (d : Dev) (n : Nat) : List Byte × Dev :=
  ((List.range n).map (fun i => (Config.freeValue (d.draws + i)).setWidth 8), { d with draws := d.draws + n })

/-- Ranges of device addresses whose contents an op of class 3 leaves undefined (R99): free bytes are stored there. -/
def Dev.scramble (d : Dev) (ranges : List (Nat × Nat)) : Dev × List MemOp :=
  ranges.foldl (fun p x => let q := p.1.freeBytes x.2; (q.2, p.2 ++ d.writeDev x.1 q.1)) (d, [])

/-- An op ends with a result: its outputs are undefined where the result is of class 3. -/
def failOut (s : State) (r : Nat) (e : Entry) (res : Result) (outs : List (Nat × Nat)) : Host.Outcome State Fault Refusal :=
  if classOf res.status = 3 then
    let p := s.dev.scramble outs
    answerMem s (p.1.finishOp r e.count res, p.2)
  else answer s (s.dev.finishOp r e.count res)

/-- An op that ends in a refusal or failure before it has read or written anything. -/
def failOp (s : State) (r : Nat) (e : Entry) (res : Result) : Host.Outcome State Fault Refusal :=
  answer s (s.dev.finishOp r e.count res)

end Sys2Proof.Machine
end

