-- ==== Sys2Proof/Machine/Formats.lean ====
section
/-!
DEFINITION. Number formats: element and scale encodings, exact values, rounding, and the conversion of values to an output format
(R101, R102, R112 to R117, Tables 5.1, 5.6, 5.7); binary32 and binary64 arithmetic.
-/
namespace Sys2Proof.Machine

/-! ## Exact values -/

/-- A value: NaN, an infinity, or ± m × 2^e (a zero keeps its sign). -/
inductive Val where
  | nan
  | inf (neg : Bool)
  | fin (neg : Bool) (m : Nat) (e : Int)
  deriving DecidableEq, Repr

def Val.zero : Val := .fin false 0 0

def Val.isZero : Val → Bool
  | .fin _ m _ => m == 0
  | _ => false

/-- The product (R111: NaN from a NaN or from infinity times zero). -/
def Val.mul : Val → Val → Val
  | .nan, _ => .nan
  | _, .nan => .nan
  | .inf a, .inf b => .inf (a != b)
  | .inf a, .fin b m _ => if m = 0 then .nan else .inf (a != b)
  | .fin a m _, .inf b => if m = 0 then .nan else .inf (a != b)
  | .fin a m e, .fin b n f => .fin (a != b) (m * n) (e + f)

/-- A signed mantissa. -/
def signed (neg : Bool) (m : Nat) : Int := if neg then -(m : Int) else m

/-- The exact sum; an exact zero is +0 unless both terms are negative zeros. -/
def Val.add : Val → Val → Val
  | .nan, _ => .nan
  | _, .nan => .nan
  | .inf a, .inf b => if a = b then .inf a else .nan
  | .inf a, .fin _ _ _ => .inf a
  | .fin _ _ _, .inf b => .inf b
  | .fin a m e, .fin b n f =>
    let g := min e f
    let t := signed a m * 2 ^ (e - g).toNat + signed b n * 2 ^ (f - g).toNat
    if t = 0 then .fin (a && b && m == 0 && n == 0) 0 g else .fin (decide (t < 0)) t.natAbs g

def Val.negate : Val → Val
  | .nan => .nan
  | .inf a => .inf (!a)
  | .fin a m e => .fin (!a) m e

/-- a < b, for values that are not NaN. -/
def Val.lt : Val → Val → Bool
  | .nan, _ => false
  | _, .nan => false
  | .inf a, .inf b => a && !b
  | .inf a, .fin _ _ _ => a
  | .fin _ _ _, .inf b => !b
  | .fin a m e, .fin b n f =>
    let g := min e f
    decide (signed a m * 2 ^ (e - g).toNat < signed b n * 2 ^ (f - g).toNat)

/-- Times a power of two. -/
def Val.scale (k : Int) : Val → Val
  | .fin a m e => .fin a m (e + k)
  | v => v

/-! ## Rounding (R113, R114) -/

/-- RND of OUT_CTL with the draw of a stochastic mode. -/
inductive Rnd where
  | even
  | stoch (b r : Nat)
  deriving DecidableEq, Repr

/-- Round away from zero: `rem / den` of a grid step lies above the kept value, whose grid count is `q`. -/
def Rnd.away : Rnd → Nat → Nat → Nat → Bool
  | .even, q, rem, den => den < 2 * rem || (2 * rem == den && q % 2 == 1)
  | .stoch b r, _, rem, den => 2 ^ b ≤ r + (rem * 2 ^ (b + 1) + den) / (2 * den)

/-- The power of two at or below n / d × 2^e. -/
def floorLog (n d : Nat) (e : Int) : Int :=
  let g : Int := (n.log2 : Int) - d.log2
  let ok := if 0 ≤ g then decide (d * 2 ^ g.toNat ≤ n) else decide (d ≤ n * 2 ^ (-g).toNat)
  (if ok then g else g - 1) + e

/-- n / d × 2^e in steps of 2^u, rounded: how many steps. -/
def roundSteps (rnd : Rnd) (n d : Nat) (e u : Int) : Nat :=
  let k := e - u
  let num := if 0 ≤ k then n * 2 ^ k.toNat else n
  let den := if 0 ≤ k then d else d * 2 ^ (-k).toNat
  let q := num / den
  if rnd.away q (num % den) den then q + 1 else q

/-- A floating format: exponent bits, mantissa bits. -/
structure FSpec where
  ebits : Nat
  mbits : Nat
  deriving DecidableEq, Repr

def FSpec.bias (f : FSpec) : Int := 2 ^ (f.ebits - 1) - 1

def f32 : FSpec := ⟨8, 23⟩
def f64 : FSpec := ⟨11, 52⟩
def bf16 : FSpec := ⟨8, 7⟩
def e4m3 : FSpec := ⟨4, 3⟩
def e5m2 : FSpec := ⟨5, 2⟩
def e2m1 : FSpec := ⟨2, 1⟩

/-- The finite value of a code, every exponent field being ordinary. -/
def FSpec.plain (f : FSpec) (code : Nat) : Val :=
  let man := code % 2 ^ f.mbits
  let ex := code / 2 ^ f.mbits % 2 ^ f.ebits
  let neg := bit code (f.ebits + f.mbits)
  if ex = 0 then .fin neg man (1 - f.bias - f.mbits) else .fin neg (2 ^ f.mbits + man) (ex - f.bias - f.mbits)

/-- The value of a code of an IEEE format. -/
def FSpec.dec (f : FSpec) (code : Nat) : Val :=
  if code / 2 ^ f.mbits % 2 ^ f.ebits = 2 ^ f.ebits - 1 then
    (if code % 2 ^ f.mbits = 0 then .inf (bit code (f.ebits + f.mbits)) else .nan)
  else f.plain code

/-- n / d × 2^e rounded to a format with no largest value: grid count and grid exponent (gradual underflow). -/
def FSpec.roundMag (f : FSpec) (rnd : Rnd) (n d : Nat) (e : Int) : Nat × Int :=
  let u := max (floorLog n d e) (1 - f.bias) - f.mbits
  (if n = 0 then 0 else roundSteps rnd n d e u, u)

/-- The code of q × 2^u, the sign aside, with no check of its size. -/
def FSpec.magCode (f : FSpec) (q : Nat) (u : Int) : Nat :=
  if q < 2 ^ f.mbits then q
  else
    let p := if q = 2 ^ (f.mbits + 1) then (2 ^ f.mbits, u + 1) else (q, u)
    (p.2 + f.mbits + f.bias).toNat * 2 ^ f.mbits + (p.1 - 2 ^ f.mbits)

def FSpec.signBit (f : FSpec) (neg : Bool) : Nat := b2n neg * 2 ^ (f.ebits + f.mbits)

/-- The code of +infinity of an IEEE format. -/
def FSpec.infCode (f : FSpec) : Nat := (2 ^ f.ebits - 1) * 2 ^ f.mbits

/-- The positive NaN of R116. -/
def FSpec.nanCode (f : FSpec) : Nat := f.infCode + 2 ^ (f.mbits - 1)

/-- ± n / d × 2^e to an IEEE format: finite overflow gives infinity, or the largest finite value when `sat` (R113, R114, R116). -/
def FSpec.encRat (f : FSpec) (rnd : Rnd) (sat neg : Bool) (n d : Nat) (e : Int) : Nat :=
  let p := f.roundMag rnd n d e
  let c := f.magCode p.1 p.2
  f.signBit neg + (if f.infCode ≤ c then (if sat then f.infCode - 1 else f.infCode) else c)

/-- A value to an IEEE format. -/
def FSpec.enc (f : FSpec) (rnd : Rnd) (sat : Bool) : Val → Nat
  | .nan => f.nanCode
  | .inf neg => f.signBit neg + f.infCode
  | .fin neg m e => f.encRat rnd sat neg m 1 e

/-- Correctly rounded, to nearest even, overflowing to infinity. -/
def FSpec.rne (f : FSpec) (v : Val) : Nat := f.enc .even false v

/-- The value of one correctly rounded operation. -/
def FSpec.round (f : FSpec) (v : Val) : Val := f.dec (f.rne v)

/-- A quotient, correctly rounded. -/
def FSpec.div (f : FSpec) : Val → Val → Val
  | .nan, _ => .nan
  | _, .nan => .nan
  | .inf _, .inf _ => .nan
  | .inf a, .fin b _ _ => .inf (a != b)
  | .fin a _ _, .inf b => .fin (a != b) 0 0
  | .fin a m e, .fin b n g =>
    if n = 0 then (if m = 0 then .nan else .inf (a != b)) else f.dec (f.encRat .even false (a != b) m n (e - g))

/-! ## Element formats (Table 5.1) -/

/-- Bits of an element. -/
def elemBits : Nat → Nat
  | 1 => 4 | 2 | 3 | 4 => 8 | 5 => 16 | 6 => 32 | _ => 8

/-- The formats that carry block scales. -/
def isMx (fmt : Nat) : Bool := fmt == 1 || fmt == 2 || fmt == 3

/-- The lane input formats. -/
def laneInput (fmt : Nat) : Bool := 1 ≤ fmt && fmt ≤ 5

/-- The floating shape of a format. -/
def fmtSpec : Nat → FSpec
  | 1 => e2m1 | 2 => e4m3 | 3 => e5m2 | 5 => bf16 | _ => f32

/-- The value of an element code, its scale aside. -/
def elemVal (fmt code : Nat) : Val :=
  match fmt with
  | 1 => e2m1.plain code
  | 2 => if code % 128 = 127 then .nan else e4m3.plain code
  | 4 => .fin (bit code 7) (signedOf 8 code).natAbs 0
  | 3 => e5m2.dec code
  | 5 => bf16.dec code
  | _ => f32.dec code

/-- F of R106. -/
def ceilShift : Nat → Int
  | 1 => 3 | 2 => 9 | 3 => 16 | 4 => 8 | _ => 1

/-- The largest finite element of an MX format, as m × 2^e. -/
def mxMax : Nat → Nat × Int
  | 1 => (3, 1) | 2 => (7, 6) | _ => (7, 13)

/-! ## Element conversion (R113 to R117) -/

/-- An element of an MX block with scale exponent `x`: v ÷ 2^x rounded, saturating at the largest finite element; NaN and infinity as
Table 5.7 has them. -/
def mxElem (fmt : Nat) (rnd : Rnd) (x : Int) : Val → Nat
  | .nan => if fmt = 3 then 0x7E else 0x7F
  | .inf neg => if fmt = 3 then b2n neg * 128 + 0x7C else 0x7F
  | .fin neg m e =>
    let f := fmtSpec fmt
    let p := f.roundMag rnd m 1 (e - x)
    let top := mxMax fmt
    f.signBit neg + min (f.magCode p.1 p.2) (f.magCode (top.1 * 2 ^ (f.mbits + 1 - (top.1.log2 + 1))) (top.2 + top.1.log2 - f.mbits))

/-- The smallest x with m × 2^e ≤ Vmax × 2^x (R115 step 1, unclamped). -/
def mxExp (fmt m : Nat) (e : Int) : Int :=
  let top := mxMax fmt
  let g := floorLog m top.1 (e - top.2)
  -- g is the floor of log2 (m 2^e / Vmax); the ceiling is g exactly when the quotient is a power of two
  let exact := if 0 ≤ g - (e - top.2) then m == top.1 * 2 ^ (g - (e - top.2)).toNat else m * 2 ^ (e - top.2 - g).toNat == top.1
  if exact then g else g + 1

/-- An INT8 element: v ÷ 2^(s − 127), rounded and saturated (R117). -/
def int8Elem (rnd : Rnd) (s : Nat) : Val → Nat
  | .nan => 0
  | .inf neg => if neg then 0x80 else 0x7F
  | .fin neg m e =>
    let q := if m = 0 then 0 else roundSteps rnd m 1 (e - (s - 127)) 0
    codeOf 8 (if neg then -((min q 128 : Nat) : Int) else (min q 127 : Nat))

/-- OUT_CTL (Table 5.6). -/
structure OutCtl where
  rnd : Nat
  inf : Bool
  axis : Bool
  fmt : Nat
  deriving DecidableEq, Repr

def outCtl (b : Nat) : OutCtl := { rnd := bits b 7 6, inf := bit b 5, axis := bit b 4, fmt := bits b 3 0 }

/-! ## The generator (R359) -/

/-- One round of Philox-4x32. -/
def philoxRound (k : Nat × Nat) (x : Nat × Nat × Nat × Nat) : Nat × Nat × Nat × Nat :=
  let p0 := 0xD2511F53 * x.1
  let p1 := 0xCD9E8D57 * x.2.2.1
  (Nat.xor (Nat.xor (p1 / 2 ^ 32) x.2.1) k.1, p1 % 2 ^ 32, Nat.xor (Nat.xor (p0 / 2 ^ 32) x.2.2.2) k.2, p0 % 2 ^ 32)

/-- `n` rounds, the key rising before each but the first. -/
def philoxGo : Nat → Nat × Nat → Nat × Nat × Nat × Nat → Nat × Nat × Nat × Nat
  | 0, _, x => x
  | n + 1, k, x => philoxGo n ((k.1 + 0x9E3779B9) % 2 ^ 32, (k.2 + 0xBB67AE85) % 2 ^ 32) (philoxRound k x)

/-- The four words of one block: seed, element index, tensor ID, stream (Table 15.7). -/
def philox (seed index tensor stream : Nat) : Nat × Nat × Nat × Nat :=
  philoxGo 10 (seed % 2 ^ 32, seed / 2 ^ 32 % 2 ^ 32) (index % 2 ^ 32, index / 2 ^ 32 % 2 ^ 32, tensor % 2 ^ 32, stream % 2 ^ 32)

/-- The rounding of element `index` under an OUT_CTL: the draw is the top bits of the first word of stream 0xFFFF_FFFF (R114). -/
def outRnd (o : OutCtl) (seed tensor index : Nat) : Rnd :=
  if o.rnd = 0 then .even
  else
    let b := o.rnd + 2
    .stoch b ((philox seed index tensor 0xFFFFFFFF).1 / 2 ^ (32 - b))

end Sys2Proof.Machine
end

