-- ==== Sys2Proof/Machine/Functions.lean ====
section
/-!
DEFINITION. The functions of R136, R137, R140, R146 and R150 that the spec knows by a bound on their error: their exact values, computed
with 512 bits behind the point, and the code within the bound that an engine gives. Which one it is the spec leaves open; the same
inputs give the same code (notes/assumptions/4.md).
-/
namespace Sys2Proof.Machine

/-! ## Fixed point: x / 2^512 -/

/-- Bits behind the point. -/
def fixBits : Nat := 512

/-- One, ln 2, 2π and the root of 2π. -/
def fixOne : Int := 2 ^ fixBits
def fixLn2 : Int := 9293584264128987901384440660653081117630633404975079641076009770578364573633075645167623918067512986930843040596952636663673675798576024949780480621393957
def fixTau : Int := 84243741786901272438893642969118776210511994626978509211189370176207611564552197839587770744495452692887542593832666970654585833251198323084707548407665199
def fixRootTau : Int := 33608390458015858626870505100184901896872972321917957839263632579749974034756919016462914710056970180595289523953895508636485683776112124777707002906256792

def fixMul (a b : Int) : Int := a * b / fixOne

/-- ± m × 2^e in fixed point. -/
def fixOf (neg : Bool) (m : Nat) (e : Int) : Int :=
  signed neg (let k := e + fixBits; if 0 ≤ k then m * 2 ^ k.toNat else m / 2 ^ (-k).toNat)

/-- A fixed-point number as a value. -/
def fixVal (x : Int) : Val := .fin (decide (x < 0)) x.natAbs (-fixBits)

/-- The sum of a series from a term on, the next term following from the last and its number: fuel terms. -/
def series (next : Int → Nat → Int) : Nat → Nat → Int → Int → Int
  | 0, _, _, acc => acc
  | fuel + 1, n, t, acc => series next fuel (n + 1) (next t n) (acc + t)

/-- exp of 0 to ln 2. -/
def fixExp (r : Int) : Int := series (fun t n => fixMul t r / (n + 1 : Nat)) 120 0 fixOne 0

/-- 2 atanh z, for z of 0 to 1/3. -/
def fixLn (z : Int) : Int := 2 * series (fun t n => fixMul (fixMul t z) z * (2 * n + 1 : Nat) / (2 * n + 3 : Nat)) 170 0 z 0

/-- cos of an angle of 0 to 2π. -/
def fixCos (a : Int) : Int := series (fun t n => -(fixMul (fixMul t a) a) / ((2 * n + 1) * (2 * n + 2) : Nat)) 120 0 fixOne 0

/-- x + x³/3 + x⁵/15 + …, for x of 0 to 16: with the normal density, the part of Φ above one half. -/
def fixPhi (x : Int) : Int := series (fun t n => fixMul (fixMul t x) x / (2 * n + 3 : Nat)) 900 0 x 0

/-! ## Exact values -/

/-- exp(± m × 2^e). Beyond 2,048 either way the result is as far beyond every format. -/
def expOf (neg : Bool) (m : Nat) (e : Int) : Val :=
  if Val.lt (.fin false 2048 0) (.fin false m e) then .fin false 1 (if neg then -4000 else 4000)
  else
    let x := fixOf neg m e
    let k := x / fixLn2
    .fin false (fixExp (x - k * fixLn2)).toNat (k - fixBits)

/-- A quotient of finite values to 700 bits and more. -/
def Val.quo : Val → Val → Val
  | .fin a m e, .fin b n g => if n = 0 then .nan else .fin (a != b) (m * 2 ^ 5000 / n) (e - g - 5000)
  | _, _ => .nan

def Val.one : Val := .fin false 1 0

/-- The logistic function of a finite value. -/
def sigmaOf (neg : Bool) (m : Nat) (e : Int) : Val :=
  let x := expOf true m e
  if neg then x.quo (Val.one.add x) else Val.one.quo (Val.one.add x)

/-- The normal distribution function of a finite value. -/
def phiOf (neg : Bool) (m : Nat) (e : Int) : Val :=
  if Val.lt (.fin false 16 0) (.fin false m e) then (if neg then .fin false 1 (-2000) else Val.one)
  else
    let x := fixOf false m e
    let density := match expOf true (m * m) (2 * e - 1) with
      | .fin _ q g => fixOf false q g * fixOne / fixRootTau
      | _ => 0
    let part := fixMul density (fixPhi x)
    fixVal (if neg then fixOne / 2 - part else fixOne / 2 + part)

/-- ln of j × 2^-24, j of 1 to 2^24: at most 0. -/
def lnOf (j : Nat) : Val :=
  let k := j.log2
  -- j = f × 2^k with f of 1 to 2, whose logarithm is 2 atanh((f − 1) / (f + 1))
  let z := (j - 2 ^ k : Nat) * fixOne / (j + 2 ^ k : Nat)
  fixVal (fixLn z + ((k : Int) - 24) * fixLn2)

/-- cos of 2π × j × 2^-24. -/
def cosOf (j : Nat) : Val :=
  if j % 2 ^ 24 = 2 ^ 22 ∨ j % 2 ^ 24 = 3 * 2 ^ 22 then Val.zero else fixVal (fixCos (fixTau * (j % 2 ^ 24 : Nat) / 2 ^ 24))

/-- The root of m × 2^e, to 500 bits. -/
def rootOf (m : Nat) (e : Int) : Val :=
  let k := 1000 + (e % 2).toNat
  .fin false (Nat.sqrt (m * 2 ^ k)) ((e - k) / 2)

/-! ## Within a bound -/

/-- The code an engine gives for an exact value: one within `ulps` units in the last place of it, `step` codes away from the correctly
rounded one, where that lies within the bound. -/
def FSpec.near (f : FSpec) (ulps : Nat) (step : Int) (v : Val) : Nat :=
  let r := f.rne v
  match v with
  | .fin _ m e =>
    let top := f.signBit true
    let t := (if top ≤ r then -((r - top : Nat) : Int) else r) + step
    let c := if m = 0 ∨ step = 0 then r else if t < 0 then top + t.natAbs else t.natAbs
    let unit : Val := .fin false ulps (max (floorLog m 1 e) (1 - f.bias) - f.mbits)
    match f.dec c, (f.dec c).add v.negate with
    | .fin _ _ _, .fin _ n g => if unit.lt (.fin false n g) then r else c
    | _, _ => r
  | _ => r

/-- How many codes from the correctly rounded one an engine's result lies, at most four, by function and inputs. -/
def ulpStep (fn : Nat) (inputs : List Nat) : Int := (Config.ulpChoice fn inputs % 9 : Nat) - 4

/-- GELU, SILU, SIGMOID, SWIGLU and EXP of values of binary32 codes, to within 2 ulp; what the spec's formula does not settle, GELU and
SILU of −infinity and SWIGLU with an infinite factor, is open (R136). -/
def actVal (fn : Nat) (a b : Val) : Option Val :=
  match fn, a with
  | _, .nan => some .nan
  | 0x09, .inf neg => if neg then none else some a
  | 0x0A, .inf neg => if neg then none else some a
  | 0x0B, .inf neg => some (if neg then Val.zero else Val.one)
  | 0x0D, .inf neg => some (if neg then Val.zero else a)
  | 0x0C, .inf neg => if b = .nan then some .nan else if neg then none else some (a.mul b)
  | 0x09, .fin n m e => some (a.mul (phiOf n m e))
  | 0x0A, .fin n m e => some (a.mul (sigmaOf n m e))
  | 0x0B, .fin n m e => some (sigmaOf n m e)
  | 0x0C, .fin n m e => some ((a.mul (sigmaOf n m e)).mul b)
  | _, .fin n m e => some (expOf n m e)
  | _, .inf _ => none

/-- The code FINISH gives for one of these functions. -/
def actCode (fn a b : Nat) : Nat :=
  match actVal fn (f32.dec a) (f32.dec b) with
  | some v => f32.near 2 (ulpStep fn [a, b]) v
  | none => Config.openElem fn [a, b] % 2 ^ 32

/-- exp in binary64, within 1 ulp (R146). -/
def expVal : Val → Val
  | .nan => .nan
  | .inf neg => if neg then .zero else .inf false
  | .fin n m e => f64.dec (f64.near 1 (ulpStep 0x100 [f64.rne (.fin n m e)]) (expOf n m e))

/-- An element of RMSNORM_ROW or LAYERNORM_ROW from the row's binary64 sum and sum of squares, its length, IMM and the weight, within 1
binary32 ulp of the formula; where the root is of a negative number the result is open (R137). -/
def normCode (fn x : Nat) (sum sq : Val) (n imm w : Nat) : Nat :=
  let a := f32.dec x
  let count : Val := .fin false n 0
  let mean := if fn = 0x12 then sum.quo count else Val.zero
  let var := (sq.quo count).add ((mean.mul mean).negate)
  let args := [x, f64.rne sum, f64.rne sq, n, imm, w]
  match a, sum, sq, (var.add (f32.dec imm)) with
  | .nan, _, _, _ | _, .nan, _, _ | _, _, .nan, _ => f32.nanCode
  | .fin _ _ _, .fin _ _ _, .fin _ _ _, .fin neg m e =>
    let scaled := (a.add mean.negate).mul (f32.dec w)
    if m = 0 then f32.rne (scaled.mul (.inf false))
    else if neg then Config.openElem fn args % 2 ^ 32
    else (match scaled with
      | .fin _ _ _ => f32.near 1 (ulpStep fn args) (scaled.quo (rootOf m e))
      | _ => f32.rne scaled)
  | _, _, _, .nan => f32.nanCode
  | _, _, _, .inf true => Config.openElem fn args % 2 ^ 32
  | _, _, _, _ => Config.openElem fn args % 2 ^ 32

/-- sqrt(−2 ln u1) × cos(2π u2) of the 24-bit draws of R140, each intermediate in binary64; the spec bounds neither ln nor cos, which
are taken within the 1 ulp of R146's exp (DESIGN CHOICE, notes/assumptions/4.md). -/
def normalDraw (j1 j2 : Nat) : Val :=
  let ln := f64.dec (f64.near 1 (ulpStep 0x101 [j1]) (lnOf j1))
  let root := match f64.round (ln.mul (.fin true 2 0)) with
    | .fin false m e => f64.round (rootOf m e)
    | v => v
  let cos := f64.dec (f64.near 1 (ulpStep 0x102 [j2]) (cosOf j2))
  f64.round (root.mul cos)

end Sys2Proof.Machine
end

