-- ==== Sys2Proof/Machine/Governor.lean ====
section
/-!
DEFINITION. The governor family: the pace gate, the window boundary, the governor and cap settings, and the counters (chapter 2).
-/
namespace Sys2Proof.Machine

/-! ## Settings (R31, R33, R34, Table 2.4) -/

def dieBase (n : Nat) : Nat := 0x040000 + n * 0x10000

/-- A governor setting is written, or ignored in full with WRITE_REJECT: under Fixed-Pace, or with a field out of range. -/
def Dev.govWrite (d : Dev) (n : Nat) (ok : GovSet → Bool) (f : GovSet → GovSet) : Dev :=
  let x := d.die n
  if !d.fixedPace && ok x.govReg then d.setDie n { x with govReg := f x.govReg } else d.setDie n { x with writeReject := true }

/-- A supply value in range: 600 to 850 mV, a multiple of 5. -/
def mvOk (v : Nat) : Bool := 600 ≤ v && v ≤ 850 && v % 5 == 0

/-- GOV_CTL_WRITE: MODE, of which 0b10 and 0b11 are unused. -/
def execGovCtlWrite (n : Fin 4) (v : W32) (s : State) : Host.Outcome State Fault Refusal :=
  viaCfg s (
    let m := bits v.toNat 1 0
    answer s (s.dev.govWrite n.val (fun _ => m ≤ 1) (fun g => { g with mode := BitVec.ofNat 2 m })))

/-- GOV_PACE_WRITE: 300 to 1,050 Mpick/s, a multiple of 10. -/
def execGovPaceWrite (n : Fin 4) (v : W32) (s : State) : Host.Outcome State Fault Refusal :=
  viaCfg s (
    let p := bits v.toNat 10 0
    answer s (s.dev.govWrite n.val (fun _ => 300 ≤ p && p ≤ 1050 && p % 10 == 0) (fun g => { g with pace := BitVec.ofNat 11 p })))

/-- GOV_VRANGE_WRITE: VMIN at most VMAX, and the range must hold SUPPLY. -/
def execGovVrangeWrite (n : Fin 4) (v : W32) (s : State) : Host.Outcome State Fault Refusal :=
  viaCfg s (
    let hi := bits v.toNat 25 16
    let lo := bits v.toNat 9 0
    answer s (s.dev.govWrite n.val (fun g => mvOk hi && mvOk lo && lo ≤ g.supply.toNat && g.supply.toNat ≤ hi)
      (fun g => { g with vmax := BitVec.ofNat 10 hi, vmin := BitVec.ofNat 10 lo })))

/-- GOV_SUPPLY_WRITE: within VMIN to VMAX, a multiple of 5. -/
def execGovSupplyWrite (n : Fin 4) (v : W32) (s : State) : Host.Outcome State Fault Refusal :=
  viaCfg s (
    let u := bits v.toNat 9 0
    answer s (s.dev.govWrite n.val (fun g => mvOk u && g.vmin.toNat ≤ u && u ≤ g.vmax.toNat)
      (fun g => { g with supply := BitVec.ofNat 10 u })))

/-- POWER_CAP_WRITE: 1,800 to 3,600 W, a multiple of 10; any other write is ignored and logged (R34). -/
def execPowerCapWrite (v : W32) (s : State) : Host.Outcome State Fault Refusal :=
  viaCfg s (
    let c := bits v.toNat 11 0
    let d := s.dev
    answer s (if 1800 ≤ c && c ≤ 3600 && c % 10 == 0 then { d with cap := { d.cap with capReg := BitVec.ofNat 12 c } }
      else d.log 0x26 0x1E0048 0 (v.setWidth 64)))

/-! ## Natural speed (R26, R27, Table 2.1) -/

/-- Table 2.1 in Mpick/s: core supply in mV, and the floors at the seven junction temperatures. -/
def floorTable : List (Nat × List Nat) :=
  [(600, [730, 750, 740, 720, 720, 700, 680]), (650, [820, 840, 830, 810, 800, 780, 760]),
   (720, [920, 940, 920, 900, 890, 870, 850]), (780, [990, 1010, 990, 970, 960, 940, 920]),
   (850, [1080, 1100, 1080, 1060, 1050, 1020, 1000])]

/-- The junction temperatures of Table 2.1, in 0.1 °C. -/
def floorTemps : List Nat := [0, 250, 450, 650, 700, 850, 950]

/-- The neighbours of a value among ascending points: the place of the lower one, the distance from it and the gap. -/
def neighbours (x : Nat) : List Nat → Nat → Nat × Nat × Nat
  | a :: b :: t, i => if x ≤ b || t.isEmpty then (i, x - a, b - a) else neighbours x (b :: t) (i + 1)
  | _, i => (i, 0, 1)

/-- The floor of the natural speed at a supply and a junction temperature in 0.1 °C, rounded up; 0 outside the range of the table,
where none is given (R27). -/
def floorRate (mv : Nat) (junction : Int) : Nat :=
  if junction < 0 ∨ 950 < junction ∨ mv < 600 ∨ 850 < mv then 0
  else
    let (i, dv, gv) := neighbours mv (floorTable.map (fun e => e.1)) 0
    let (j, dt, gt) := neighbours junction.toNat floorTemps 0
    let v := fun a b => nth (nth floorTable a (0, [])).2 b 0
    ceilDiv ((v i j * (gt - dt) + v i (j + 1) * dt) * (gv - dv) + (v (i + 1) j * (gt - dt) + v (i + 1) (j + 1) * dt) * dv) (gv * gt)

/-- The slowest of some canaries, 0 where none is read, and the lowest index that reads it. -/
def slowestOf (l : List (BitVec 11)) : Nat × Nat :=
  let m := match l with | [] => 0 | a :: t => t.foldl (fun b z => min b z.toNat) a.toNat
  (m, l.findIdx (fun z => z.toNat == m))

/-- The fastest of some canaries. -/
def fastestOf (l : List (BitVec 11)) : Nat := l.foldl (fun b z => max b z.toNat) 0

/-! ## The window boundary (R28 to R33) -/

/-- The thermal limit of R30: T in whole degrees, rounded up. -/
def thermalPace (junction : Int) : Nat :=
  let t := -((-junction) / 10)
  if t ≤ 70 then 1050 else (1050 - 10 * (t - 70)).toNat

/-- The pace a limit imposes after a window: 10 Mpick/s lower while it is exceeded, never below 300; 10 higher while the projection
stays within it (R28; notes/assumptions/6.md for the current limit). -/
def limitPace (value limit imposed held : Nat) : Nat :=
  let p := if held = 0 then imposed else min imposed held
  if limit < value then max 300 (p - 10)
  else if imposed < 1050 && ceilDiv (value * (imposed + 10)) imposed ≤ limit then imposed + 10
  else imposed

/-- The supply moves at most 5 mV toward its target (R31). -/
def stepSupply (v target : Nat) : Nat := if v < target then min (v + 5) target else if target < v then max (v - 5) target else v

/-- A supply at the next 5 mV step. -/
def step5 (mv : Nat) : Nat := 5 * ceilDiv mv 5

/-- One die at a window boundary, with the cap and the module's power. A SLOWEST below the floor, which R26 rules out, is taken as the
floor (DESIGN CHOICE, notes/assumptions/55.md). -/
def Die.window (x : Die) (z : DieReading) (cap power : Nat) : Die :=
  let g := x.govReg
  let fixed := g.mode == 1
  let set := g.pace.toNat
  let cur := limitPace z.current 460 x.curPace x.eff.toNat
  let capped := limitPace power cap x.capPace x.eff.toNat
  let thermal := thermalPace z.junction
  let sought := min (min set capped) (min thermal cur) / 10 * 10
  let slow := max (slowestOf z.canaries).1 (floorRate x.vout.toNat z.junction)
  let eff := min sought (slow / 10 * 10)
  let needed := step5 z.needed.toNat
  let target := if fixed then g.supply.toNat else max g.vmin.toNat (min g.vmax.toNat needed)
  let short := if fixed then x.vout == g.supply && slow < set else Nat.blt g.vmax.toNat needed
  let energy := x.energyAcc + x.vout.toNat * z.current * 1024
  { x with
    gov := g, slowId := BitVec.ofNat 5 (slowestOf z.canaries).2, slowest := BitVec.ofNat 11 slow,
    fastest := BitVec.ofNat 11 (max slow (fastestOf z.canaries)),
    curPace := cur, capPace := capped, eff := BitVec.ofNat 11 eff, vout := BitVec.ofNat 10 (stepSupply x.vout.toNat target),
    target := BitVec.ofNat 10 target, energyAcc := energy % 1000000000,
    govState :=
      if thermal < set then 5 else if cur < set then 6 else if capped < set || (cap < power && eff == 300) then 3 else if short then 4
      else if eff ≠ set then 1 else if fixed then 7 else 2 }

/-- One die's window, with its energy and the alarm of a pace that leaves the setpoint under Fixed-Pace (R33). A die that is off or dozes
takes its settings alone (R31). -/
def Dev.dieWindow (d : Dev) (n : Nat) (z : DieReading) (cap power : Nat) : Dev :=
  let x := d.die n
  if x.governed then
    let y := x.window z cap power
    let mj := (x.energyAcc + x.vout.toNat * z.current * 1024) / 1000000000
    let leaves := d.fixedPace && y.eff != y.gov.pace && x.eff == x.gov.pace
    let d := (d.setDie n { y with paceLost := y.paceLost || leaves }).count n cntEnergy mj
    if leaves then d.alarm (0x10 + n) (dieBase n + 0x210) n (BitVec.ofNat 64 (d.die n).govSts) else d
  else d.setDie n { x with gov := x.govReg }

/-- GOVERNOR_WINDOW (R26 to R33): pending settings take effect; each powered die that is not dozing sets its effective pace, supply and
state by its own limits and the power cap; the hub's governor follows its fixed setpoint; with every pace at 300 Mpick/s and the cap
still exceeded, an alarm once in each frame. -/
def execGovernorWindow (dies : List DieReading) (hub : List (BitVec 11)) (power : Nat) (s : State) : Host.Outcome State Fault Refusal :=
  let d := s.dev
  let cap := d.cap.capReg.toNat
  let live := (d.dies.filter (fun e => e.2.governed)).map (fun e => e.2)
  let floorHeld := cap < power && !live.isEmpty && live.all (fun x => x.eff.toNat ≤ 300)
  let d := { d with cap := { d.cap with
    cap := d.cap.capReg, power := BitVec.ofNat 12 (min power 4095), hubCanaries := hub,
    hubState := if cap < power then 3 else if (slowestOf hub).1 < Config.hubPace then 4 else 2 } }
  let d := if floorHeld && d.cap.alarmFrame != some d.frames.start then
      { d.alarm 0x26 0x1E004C 4 (d.cap.power.setWidth 64) with cap := { d.cap with alarmFrame := some d.frames.start } }
    else d
  let none_ : DieReading := { canaries := [], needed := 0, junction := 0, current := 0 }
  answer s ((List.range 4).foldl (fun d n => d.dieWindow n (nth dies n none_) cap power) d).rebudget

/-! ## Permits and counters (R24, R25, R35, R36) -/

/-- The permits a die's lanes hold. -/
def Die.banked (x : Die) : Nat := (x.banks.map (fun e => e.2)).sum

def Die.bank (x : Die) (l : Nat) : Nat := Tbl.lookD x.banks l 0

/-- A lane makes picks of an op, each with a permit it holds (R24). -/
def Dev.lanePicks (d : Dev) (n l r : Nat) (c : W32) (k : Nat) : Dev :=
  ((d.modDie n (fun x => { x with banks := Tbl.put x.banks l (x.bank l - k) })).modEntry r c (fun e =>
    { e with work := e.work.map (fun ws => ws.map (fun w => if w.die == n && w.lane == l then w.spend k else w)) })).count n cntPicks k

/-- An idle lane steals a chunk, which LD_CNT_STEAL counts; not under Fixed-Pace (R205, R206). -/
def Dev.laneSteal (d : Dev) (n l r : Nat) (c : W32) : Dev :=
  match if d.fixedPace then none else (d.entry r c).bind (fun e => e.victim n l) with
  | some v => (d.modEntry r c (fun e => e.stealFrom n v l)).count n 0x380 1
  | none => d

/-- A lane that can go on makes picks of its ops, in the order in which they started, while it holds permits (R24, R127). -/
def Dev.laneGo (d : Dev) (n l : Nat) : Dev :=
  (d.laneOps n l).foldl (fun d x =>
    if (d.die n).bank l = 0 then d
    else
      let d := d.laneSteal n l x.1 x.2.count
      let k := min ((d.die n).bank l)
        (match (d.entry x.1 x.2.count).bind (fun e => e.workAt n l) with | some w => w.may (d.inside x.1 x.2) | none => 0)
      if k = 0 then d else d.lanePicks n l x.1 x.2.count k) d

/-- The lanes of a die that begin an op use the permits they hold. -/
def Dev.laneRuns (d : Dev) (ws : List LaneWork) : Dev :=
  ws.foldl (fun d w => if d.dieServes w.die then d.laneGo w.die w.lane else d) d

/-- One permit reaches a lane. A lane that can go on uses the permits it holds; one left over a bank of 16 expires, as IDLE without an
op, as SHORT where the lane's handshakes cannot keep pace, which they do at HOLD, and as STALL otherwise (R25, Table 2.6). -/
def Dev.permit (d : Dev) (n : Nat) (stalled short : BitVec 64) (l : Nat) : Dev :=
  let slow := short.getLsbD l && (d.die n).shownState != 2
  let d := d.modDie n (fun x => { x with banks := Tbl.put x.banks l (x.bank l + 1), issued := x.issued + 1 })
  let d := if slow || stalled.getLsbD l then d else d.laneGo n l
  if (d.die n).bank l ≤ 16 then d
  else (d.modDie n (fun x => { x with banks := Tbl.put x.banks l 16 })).count n
    (if !d.laneBusy n l then cntIdle else if slow then cntShort else cntStall) 1

/-- PERMIT_ISSUE (R24, R25): once the accumulator has reached 1,000, the pace gate of a die that serves ops issues one permit to every
active lane. The masks name the lanes whose op lacks operand data and those whose handshakes cannot keep pace. -/
def execPermitIssue (n : Fin 4) (stalled short : BitVec 64) (s : State) : Host.Outcome State Fault Refusal :=
  let d := s.dev
  let x := d.die n.val
  if d.dieServes n.val && x.governed && 1000 ≤ x.acc then
    answer s ((setBits 64 x.laneLog.toNat).foldl (fun d l => d.permit n.val stalled short l)
      (d.setDie n.val { x with acc := x.acc - 1000 }))
  else answer s d

/-- COUNTER_SNAP (R36): a latch, and with CLEAR a clear, at the next tick boundary; a second SNAP before it merges. -/
def execCounterSnap (n : Fin 4) (clear : Bool) (s : State) : Host.Outcome State Fault Refusal :=
  viaCfg s (answer s (s.dev.modDie n.val (fun x => { x with snapPend := true, clearPend := x.clearPend || clear })))

/-- COUNTER_CLEAR (R36): a clear alone at the next tick boundary. -/
def execCounterClear (n : Fin 4) (s : State) : Host.Outcome State Fault Refusal :=
  viaCfg s (answer s (s.dev.modDie n.val (fun x => { x with clearPend := true })))

/-- What a tick does on a die: a pending latch, then a pending clear, and the pace gate's addition on a die that serves ops and does not doze
(R25, R36, R416). -/
def Die.tick (x : Die) (now : Tick) (serves : Bool) : Die :=
  let x := if x.snapPend then { x with latched := x.cnt, snapTick := now, snapPend := false } else x
  let x := if x.clearPend then { x with cnt := [], issued := x.banked, clearPend := false } else x
  if serves && x.governed then { x with acc := x.acc + x.eff.toNat } else x

/-- The first tick after an armed ROOT's SYNC_PULSE: the counter takes TIME_SYNC_LOAD, unless a claim is RUNNING (R341). -/
def Dev.syncTick (d : Dev) : Dev :=
  if d.time.syncDue then
    let d1 := { d with time := { d.time with syncArm := false, syncDue := false } }
    if d.anyClaimRuns then { d1 with time := { d1.time with syncIgnored := true } } else d1.stepTo d.time.syncLoad
  else d

/-- One tick of the timebase (R25, R36). -/
def Dev.tick (d : Dev) : Dev :=
  let d := ({ d with now := d.now + 1 }).syncTick
  { d with dies := Tbl.mapAll d.dies (fun n x => x.tick d.now (d.dieServes n)) }

end Sys2Proof.Machine
end

