-- ==== Sys2Proof/Machine/Tiles.lean ====
section
/-!
DEFINITION. The engine-ready tile: its header and body, the ore codec, the two sparse forms, and the bytes of a tile an engine writes
(R103 to R106, R194 to R200, R228, R229).
-/
namespace Sys2Proof.Machine

/-! ## Header (Tables 5.2, 5.3) -/

structure Hdr where
  /-- TAG, VERSION and every reserved bit are right -/
  sound : Bool
  fmt : Nat
  codec : Nat
  sparse : Nat
  axis : Bool
  /-- valid rows and columns -/
  vr : Nat
  vc : Nat
  ceil : Nat
  stored : Nat
  index : Nat
  obj : Nat
  aux : Nat
  deriving DecidableEq, Repr

/-- The header in 64 bytes. -/
def hdrOf (b : List Byte) : Hdr :=
  let x := fieldAt b 3 1
  let l := fieldAt b 4 1
  { sound := fieldAt b 0 2 == 0x4C54 && fieldAt b 2 1 == 1 && x < 16 && l % 8 == 0 && fieldAt b 18 1 < 4 && fieldAt b 19 1 == 0 &&
      (slice b 28 36).all (· == 0),
    fmt := x % 16, codec := bits l 7 6, sparse := bits l 5 4, axis := bit l 3, vr := fieldAt b 5 1 % 128 + 1,
    vc := fieldAt b 6 1 % 128 + 1, ceil := fieldAt b 7 1, stored := fieldAt b 8 4, index := fieldAt b 12 4,
    obj := fieldAt b 16 3, aux := fieldAt b 20 8 }

/-- VALID_ROWS_M1 and VALID_COLS_M1 are 0 to 127. -/
def extentsOk (b : List Byte) : Bool := fieldAt b 5 1 < 128 && fieldAt b 6 1 < 128

/-- The 64 bytes of a header an engine writes. -/
def Hdr.bytes (h : Hdr) : List Byte :=
  toLe 2 0x4C54 ++ [1, BitVec.ofNat 8 h.fmt, BitVec.ofNat 8 (h.codec * 64 + h.sparse * 16 + b2n h.axis * 8), BitVec.ofNat 8 (h.vr - 1),
    BitVec.ofNat 8 (h.vc - 1), BitVec.ofNat 8 h.ceil] ++ toLe 4 h.stored ++ toLe 4 h.index ++ toLe 3 h.obj ++ [0] ++ toLe 8 h.aux ++
    List.replicate 36 0

/-- Dense body size (Table 5.4). -/
def denseBody (fmt : Nat) : Nat := slotBytes fmt - 64

/-- Scale bytes of a body. -/
def scaleBytes (fmt : Nat) : Nat := if isMx fmt then 512 else 0

/-- Bytes of the elements of a dense body. -/
def elemBytes (fmt : Nat) : Nat := 16384 * elemBits fmt / 8

/-! ## Lengths of stored bodies (R196, R198, R229) -/

def roundUp (n k : Nat) : Nat := ceilDiv n k * k

/-- The parts of a zero-run body: offsets of VALUES and SCALES, and the end (Table 9.5). -/
def zeroRunParts (fmt n : Nat) : Nat × Nat × Nat :=
  let v := roundUp (512 + n) 64
  let e := v + ceilDiv (n * elemBits fmt) 8
  let s := roundUp e 64
  if isMx fmt then (v, s, s + 512) else (v, e, e)

/-- The base body of a structured tile (Table 9.4). -/
def structBase (fmt : Nat) : Nat := 2048 + 8192 * elemBits fmt / 8 + scaleBytes fmt

/-- COUNT and LINE_AXIS of Table 9.1. -/
def Hdr.count (h : Hdr) : Nat := h.aux % 65536
def Hdr.lineAxis (h : Hdr) : Bool := bit h.aux 16

/-- STORED_LEN and FORMAT_AUX are as the tile's CODEC and SPARSE need (R105, R200, R229). -/
def Hdr.lengthOk (h : Hdr) : Bool :=
  let dense := denseBody h.fmt
  if h.sparse = 0 then
    if h.codec = 0 then h.stored == dense && h.aux == 0
    else h.stored ≤ dense && h.aux < 2 ^ 31 && h.stored == h.aux % 65536 + scaleBytes h.fmt
  else
    h.aux < 2 ^ 17 && h.stored ≤ dense &&
      h.stored == (if h.sparse = 1 then structBase h.fmt + 4 * h.count else (zeroRunParts h.fmt h.count).2.2)

/-- The header pass of R105 with the formats and sparse values an op accepts; a sparse tile is never coded (R194). -/
def Hdr.passes (h : Hdr) (b : List Byte) (fmtOk : Nat → Bool) (sparseOk : Bool) : Bool :=
  h.sound && extentsOk b && fmtOk h.fmt && h.codec < 2 && h.sparse < 3 && (sparseOk || h.sparse == 0) &&
    (h.sparse == 0 || h.codec == 0) && h.lengthOk && h.ceil != 0xFF

/-! ## The ore codec (R228) -/

/-- The bits of an ordinary element literal: the whole code, or for BF16 and binary32 sign, exponent class and payload, mantissa. The
stream is a number, its first bit least significant; the answer is (code, previous exponent, bits used), none where malformed. -/
def oreLiteral (fmt : Nat) (st : Nat) (prev : Int) : Option (Nat × Int × Nat) :=
  if fmt < 5 then some (st % 2 ^ elemBits fmt, prev, elemBits fmt)
  else
    let man := (fmtSpec fmt).mbits
    let sign := st % 2
    let cls := st / 2 % 4
    let pay := st / 8
    let (ex, used) : Int × Nat :=
      match cls with
      | 0 => (prev, 3)
      | 1 => (if pay % 2 = 0 then prev + 1 else prev - 1, 4)
      | 2 => (prev + signedOf 4 pay, 7)
      | _ => ((pay % 256 : Nat), 11)
    if 0 ≤ ex ∧ ex ≤ 255 then
      some ((sign * 256 + ex.toNat) * 2 ^ man + st / 2 ^ used % 2 ^ man, ex, used + man)
    else none

/-- Decode tokens: fuel, stream, bits left, previous exponent, elements left, codes so far (newest first). The codes, where the stream
holds exactly the elements and only zero bits after its last token. -/
def oreDecode (fmt : Nat) : Nat → Nat → Nat → Int → Nat → List Nat → Option (List Nat)
  | 0, st, _, _, left, acc => if left = 0 ∧ st = 0 then some acc.reverse else none
  | fuel + 1, st, avail, prev, left, acc =>
    if left = 0 then (if st = 0 then some acc.reverse else none)
    else if avail = 0 then none
    else if st % 2 = 0 then
      let n := st / 2 % 128 + 1
      if avail < 8 ∨ left < n then none
      else oreDecode fmt fuel (st / 256) (avail - 8) prev (left - n) (List.replicate n 0 ++ acc)
    else
      match oreLiteral fmt (st / 2) prev with
      | none => none
      | some (c, p, used) =>
        if avail < used + 1 then none
        else oreDecode fmt fuel (st / 2 ^ (used + 1)) (avail - (used + 1)) p (left - 1) (c :: acc)

/-- The first class of Table 10.6 that gives an exponent field, its payload and its bits. -/
def oreClass (prev ex : Int) : Nat × Nat × Nat :=
  let k := ex - prev
  if k = 0 then (0, 0, 0)
  else if k = 1 then (1, 0, 1)
  else if k = -1 then (1, 1, 1)
  else if -8 ≤ k ∧ k ≤ 7 then (2, codeOf 4 k, 4)
  else (3, ex.toNat, 8)

/-- A literal token of one element: its bits, how many, and the exponent it leaves. -/
def oreToken (fmt code : Nat) (prev : Int) : Nat × Nat × Int :=
  if fmt < 5 then (1 + 2 * code, 1 + elemBits fmt, prev)
  else
    let man := (fmtSpec fmt).mbits
    let ex : Int := (code / 2 ^ man % 256 : Nat)
    let c := oreClass prev ex
    (1 + 2 * (code / 2 ^ (man + 8) + 2 * (c.1 + 4 * (c.2.1 + 2 ^ c.2.2 * (code % 2 ^ man)))), 4 + c.2.2 + man, ex)

/-- Code elements: previous exponent, run pending, stream so far and its length, literals so far. -/
def oreEncode (fmt : Nat) : List Nat → Int → Nat → Nat → Nat → Nat → Nat × Nat × Nat
  | [], _, run, st, pos, lits => if run = 0 then (st, pos, lits) else (st + 2 * (run - 1) * 2 ^ pos, pos + 8, lits)
  | c :: t, prev, run, st, pos, lits =>
    if c = 0 then
      if run = 128 then oreEncode fmt t prev 1 (st + 254 * 2 ^ pos) (pos + 8) lits
      else oreEncode fmt t prev (run + 1) st pos lits
    else
      let (st, pos) := if run = 0 then (st, pos) else (st + 2 * (run - 1) * 2 ^ pos, pos + 8)
      let k := oreToken fmt c prev
      oreEncode fmt t k.2.2 0 (st + k.1 * 2 ^ pos) (pos + k.2.1) (lits + 1)

/-! ## A loaded tile -/

/-- A tile as an engine uses it: element codes by index 128 r + c, block scales, and whether its body is malformed. -/
structure Tile where
  hdr : Hdr
  code : Nat → Nat
  scale : Nat → Nat
  bad : Bool

/-- Element `n` of packed elements that start at byte `o` of a body. -/
def packedElem (fmt : Nat) (body : Array Byte) (o n : Nat) : Nat :=
  let at' := fun k => (body.getD k 0).toNat
  match elemBits fmt with
  | 4 => if n % 2 = 0 then at' (o + n / 2) % 16 else at' (o + n / 2) / 16
  | 8 => at' (o + n)
  | 16 => at' (o + 2 * n) + 256 * at' (o + 2 * n + 1)
  | _ => at' (o + 4 * n) + 256 * at' (o + 4 * n + 1) + 65536 * at' (o + 4 * n + 2) + 16777216 * at' (o + 4 * n + 3)

def leAt (body : Array Byte) (o n : Nat) : Nat := leNat ((List.range n).map (fun i => body.getD (o + i) 0))

/-- A zero code: every bit but the sign 0; INT8 only 0x00 (R197). -/
def zeroCode (fmt code : Nat) : Bool := code == 0 || (fmt != 4 && code == 2 ^ (elemBits fmt - 1))

/-- The element index of inner position `i` of line `j`. -/
def lineIndex (rows : Bool) (i j : Nat) : Nat := if rows then 128 * j + i else 128 * i + j

/-- The elements a structured body holds, as (index, code), and whether it is well formed within a region (R196, R197). -/
def structElems (h : Hdr) (body : Array Byte) (inside : Nat → Bool) : List (Nat × Nat) × Bool :=
  let valBase := 2048
  let excBase := structBase h.fmt
  let groups := (List.range 4096).map (fun k =>
    let j := k / 32
    let g := k % 32
    let byte := (body.getD (16 * j + g / 2) 0).toNat
    let nib := if g % 2 = 0 then byte % 16 else byte / 16
    (j, g, nib % 4, nib / 4))
  let slots := groups.flatMap (fun (j, g, i0, i1) =>
    [(lineIndex h.lineAxis (4 * g + i0) j, packedElem h.fmt body valBase (64 * j + 2 * g)),
     (lineIndex h.lineAxis (4 * g + i1) j, packedElem h.fmt body valBase (64 * j + 2 * g + 1))])
  let exc := (List.range h.count).map (fun k => (leAt body (excBase + 4 * k) 2, leAt body (excBase + 4 * k + 2) 2))
  let excIdx := exc.map (fun (p, c) => (lineIndex h.lineAxis (p % 128) (p / 128 % 128), c))
  let orderOk := groups.all (fun (_, _, i0, i1) => Nat.blt i0 i1)
  let slotsOk := slots.all (fun (n, c) => inside n || zeroCode h.fmt c)
  let ascending := (exc.zip (exc.drop 1)).all (fun (a, b) => Nat.blt a.1 b.1)
  let excOk := exc.all (fun (p, c) =>
    Nat.blt p 16384 && Nat.blt c (2 ^ elemBits h.fmt) && inside (lineIndex h.lineAxis (p % 128) (p / 128 % 128)) &&
      (match groups[32 * (p / 128 % 128) + p % 128 / 4]? with
        | some (_, _, i0, i1) => p % 4 != i0 && p % 4 != i1
        | none => false))
  (slots ++ excIdx, orderOk && slotsOk && ascending && excOk)

/-- The non-zeros of a zero-run body in stored order, as (line, inner position, code), and whether it is well formed within a region
(R198, R199). -/
def zeroRunElems (h : Hdr) (body : Array Byte) (inside : Nat → Bool) : List (Nat × Nat × Nat) × Bool :=
  let vo := (zeroRunParts h.fmt h.count).1
  let go := fun (acc : List (Nat × Nat × Nat) × Nat × Bool) (j : Nat) =>
    let e := leAt body (4 * j) 4
    let start := e / 65536
    let nnz := e % 256
    let ok := acc.2.2 && start == acc.2.1 && e / 256 % 256 == 0 && nnz ≤ 128 && start + nnz ≤ h.count
    let line := (List.range (if ok then nnz else 0)).foldl (fun (l : List (Nat × Nat × Nat) × Nat × Bool) k =>
      let run := (body.getD (512 + start + k) 0).toNat
      let pos := if k = 0 then run else l.2.1 + 1 + run
      ((j, pos, packedElem h.fmt body vo (start + k)) :: l.1, pos,
        l.2.2 && run < 128 && pos < 128 && inside (lineIndex h.lineAxis pos j))) ([], 0, true)
    (acc.1 ++ line.1.reverse, acc.2.1 + nnz, ok && line.2.2)
  let r := (List.range 128).foldl go ([], 0, true)
  (r.1, r.2.2 && r.2.1 == h.count)

/-- Put (index, code) pairs into a dense array of codes; a later pair does not overwrite with a zero code. -/
def denseCodes (fmt : Nat) (l : List (Nat × Nat)) : Array Nat :=
  l.foldl (fun a e => if zeroCode fmt e.2 && a.getD e.1 0 != 0 then a else a.setIfInBounds e.1 e.2) (Array.replicate 16384 0)

/-- A tile from its header and stored body; `mr` and `mc` are the rows and columns of the op's selvage mask in this tile (R123). -/
def loadTile (h : Hdr) (stored : List Byte) (mr mc : Nat) : Tile :=
  let body := stored.toArray
  let scaleAt := fun o b => if isMx h.fmt then (body.getD (o + b) 0).toNat else 0
  let inside := fun n => n / 128 < min h.vr mr && n % 128 < min h.vc mc
  if h.sparse = 1 then
    let s := structElems h body inside
    let a := denseCodes h.fmt s.1
    { hdr := h, code := fun n => a.getD n 0, scale := scaleAt (2048 + 8192 * elemBits h.fmt / 8), bad := !s.2 }
  else if h.sparse = 2 then
    let z := zeroRunElems h body inside
    let a := denseCodes h.fmt (z.1.map (fun (j, i, c) => (lineIndex h.lineAxis i j, c)))
    { hdr := h, code := fun n => a.getD n 0, scale := scaleAt (zeroRunParts h.fmt h.count).2.1, bad := !z.2 }
  else if h.codec = 1 then
    let len := h.aux % 65536
    match oreDecode h.fmt 16385 (leNat (stored.take len)) (8 * len) 127 16384 [] with
    | some l => let a := l.toArray; { hdr := h, code := fun n => a.getD n 0, scale := scaleAt len, bad := false }
    | none => { hdr := h, code := fun _ => 0, scale := scaleAt len, bad := true }
  else { hdr := h, code := packedElem h.fmt body 0, scale := scaleAt (elemBytes h.fmt), bad := false }

/-- The block of element (r, c) (R104). -/
def blockOf (axis : Bool) (r c : Nat) : Nat := if axis then 4 * c + r / 32 else 4 * r + c / 32

/-- The value of element (r, c) with its scale; none outside the tile's valid region (R102, R123). -/
def Tile.val (t : Tile) (r c : Nat) : Option Val :=
  if r < t.hdr.vr && c < t.hdr.vc then
    let v := elemVal t.hdr.fmt (t.code (128 * r + c))
    if isMx t.hdr.fmt then
      let s := t.scale (blockOf t.hdr.axis r c)
      some (if s = 255 then .nan else v.scale (s - 127))
    else if t.hdr.fmt = 4 then some (v.scale (t.hdr.ceil - 127))
    else some v
  else none

/-- The largest block scale, or exponent field, of the elements within a region, leaving out 0xFF; at least `floor_` (R106, R107). -/
def Tile.seen (t : Tile) (mr mc : Nat) : Nat :=
  let rs := min t.hdr.vr mr
  let cs := min t.hdr.vc mc
  ((List.range (rs * cs)).map (fun k =>
    let r := k / max cs 1
    let c := k % max cs 1
    let x := if isMx t.hdr.fmt then t.scale (blockOf t.hdr.axis r c)
             else if t.hdr.fmt = 4 then t.hdr.ceil
             else t.code (128 * r + c) / 2 ^ (fmtSpec t.hdr.fmt).mbits % 256
    if x = 255 then 0 else x)).foldl max 0

/-! ## A tile an engine writes -/

/-- The values of an output tile and how each is rounded. -/
structure OutTile where
  vr : Nat
  vc : Nat
  val : Nat → Nat → Val
  rnd : Nat → Nat → Rnd

/-- The finite magnitude m × 2^e of a value. -/
def Val.mag : Val → Option (Nat × Int)
  | .fin _ m e => if m = 0 then none else some (m, e)
  | _ => none

/-- The larger of two magnitudes. -/
def maxMag : Option (Nat × Int) → Option (Nat × Int) → Option (Nat × Int)
  | none, b => b
  | a, none => a
  | some a, some b => if Val.lt (.fin false a.1 a.2) (.fin false b.1 b.2) then some b else some a

/-- The valid elements of block `b`. -/
def blockElems (axis : Bool) (vr vc b : Nat) : List (Nat × Nat) :=
  ((List.range 32).map (fun k => if axis then (32 * (b % 4) + k, b / 4) else (b / 4, 32 * (b % 4) + k))).filter
    (fun e => e.1 < vr && e.2 < vc)

/-- The scale code of an MX output block, and its scale exponent (R115, R116, Table 5.7). -/
def mxBlock (o : OutCtl) (t : OutTile) (b : Nat) : Nat × Int :=
  let es := blockElems o.axis t.vr t.vc b
  let m := es.foldl (fun a e => maxMag a (t.val e.1 e.2).mag) none
  let special := es.any (fun e => match t.val e.1 e.2 with | .fin _ _ _ => false | _ => true)
  match m with
  | none => (if o.fmt = 1 && special then 255 else 0, -127)
  | some (m, e) =>
    let x := mxExp o.fmt m e
    if o.fmt = 1 && special then (255, 0)
    else if 127 < x then (if o.inf then (255, 0) else (254, 127))
    else ((max x (-127) + 127).toNat, max x (-127))

/-- The element codes of an output tile by index, its block scales and its scale ceiling. -/
def outCodes (o : OutCtl) (int8s : Nat) (t : OutTile) : (Nat → Nat) × (Nat → Nat) × Nat :=
  if isMx o.fmt then
    let blocks := ((List.range 512).map (mxBlock o t)).toArray
    let blk := fun b => blocks.getD b (0, -127)
    let used := (List.range 512).filter (fun b => !(blockElems o.axis t.vr t.vc b).isEmpty)
    let code := fun n =>
      let r := n / 128
      let c := n % 128
      if r < t.vr && c < t.vc then
        let q := blk (blockOf o.axis r c)
        if q.1 = 255 then (Config.nanBlockElem n).toNat % 2 ^ elemBits o.fmt else mxElem o.fmt (t.rnd r c) q.2 (t.val r c)
      else 0
    (code, fun b => (blk b).1, ((used.map (fun b => (blk b).1)).filter (· != 255)).foldl max 0)
  else
    let code := fun n =>
      let r := n / 128
      let c := n % 128
      if r < t.vr && c < t.vc then
        (if o.fmt = 4 then int8Elem (t.rnd r c) int8s (t.val r c) else (fmtSpec o.fmt).enc (t.rnd r c) (!o.inf) (t.val r c))
      else 0
    let fields := (List.range (t.vr * t.vc)).map (fun k =>
      code (128 * (k / max t.vc 1) + k % max t.vc 1) / 2 ^ (fmtSpec o.fmt).mbits % 256)
    (code, fun _ => 0, if o.fmt = 4 then int8s else (fields.filter (· != 255)).foldl max 1)

/-- Pack element codes (R104). -/
def packCodes (fmt : Nat) (code : Nat → Nat) : List Byte :=
  if fmt = 1 then (List.range 8192).map (fun j => BitVec.ofNat 8 (code (2 * j) % 16 + 16 * (code (2 * j + 1) % 16)))
  else (List.range 16384).flatMap (fun n => toLe (elemBits fmt / 8) (code n))

/-- The bytes of a dense RAW tile: header and body. -/
def outTileBytes (o : OutCtl) (int8s index obj : Nat) (t : OutTile) : List Byte :=
  let p := outCodes o int8s t
  let h : Hdr := { sound := true, fmt := o.fmt, codec := 0, sparse := 0, axis := o.axis, vr := t.vr, vc := t.vc, ceil := p.2.2,
                   stored := denseBody o.fmt, index := index, obj := obj, aux := 0 }
  h.bytes ++ packCodes o.fmt p.1 ++ (if isMx o.fmt then (List.range 512).map (fun b => BitVec.ofNat 8 (p.2.1 b)) else [])

/-- A stored dense tile coded by the ore codec where that is smaller (R227 to R229): header and body. -/
def oreBytes (h : Hdr) (body : List Byte) : List Byte :=
  let t := loadTile h body 128 128
  let e := oreEncode h.fmt ((List.range 16384).map t.code) 127 0 0 0 0
  let len := ceilDiv e.2.1 8
  let coded := toLe len e.1 ++ (if isMx h.fmt then (List.range 512).map (fun b => BitVec.ofNat 8 (t.scale b)) else [])
  if coded.length < denseBody h.fmt then
    { h with codec := 1, stored := coded.length, aux := e.2.2 * 65536 + len }.bytes ++ coded
  else h.bytes ++ body

/-- A tile decoded to RAW: header and body. -/
def rawBytes (h : Hdr) (body : List Byte) : List Byte :=
  if h.codec = 1 then
    let t := loadTile h body 128 128
    { h with codec := 0, stored := denseBody h.fmt, aux := 0 }.bytes ++ packCodes h.fmt t.code ++
      (if isMx h.fmt then (List.range 512).map (fun b => BitVec.ofNat 8 (t.scale b)) else [])
  else h.bytes ++ body

end Sys2Proof.Machine
end

