-- ==== Sys2Proof/Machine/Grid.lean ====
section
/-!
DEFINITION. Tensors as grids of tiles, the checks of an op's tensors, moves under way, and the lanes a claim works with (R105, R124,
R126, R131, R218, R244).
-/
namespace Sys2Proof.Machine

/-- A tensor of an op: its operand offset, base address, slot and tile counts. -/
structure Grid where
  off : Nat
  base : Nat
  slot : Nat
  tr : Nat
  tc : Nat
  fmt : Nat
  deriving DecidableEq, Repr

def Grid.tiles (g : Grid) : Nat := g.tr * g.tc
def Grid.tileAt (g : Grid) (i j : Nat) : Nat := g.base + (i * g.tc + j) * g.slot
def Grid.range (g : Grid) : Nat × Nat := (g.base, g.tiles * g.slot)

/-- The byte ranges of two tensors overlap (R126). -/
def Grid.overlaps (a b : Grid) : Bool :=
  0 < a.tiles && 0 < b.tiles && a.base < b.base + b.tiles * b.slot && b.base < a.base + a.tiles * a.slot

/-- The base of a tensor operand: in range, 64-byte aligned, in an object of the claim. -/
def Dev.tensorBase (d : Dev) (r : Nat) (e : Entry) (off : Nat) : Except Result Place := d.place r e off 64 64

/-- A run of bytes of an operand. -/
def span (off a n : Nat) : Grid := { off := off, base := a, slot := n, tr := 1, tc := 1, fmt := 0 }

/-- Every tile of a tensor lies in objects of the claim: none where one does not, else whether one of these is LOST (R124, R234). -/
def Dev.gridLost (d : Dev) (r : Nat) (e : Entry) (g : Grid) : Option Bool :=
  if g.base + g.tiles * g.slot > Config.deviceEnd then none
  else
    let parts := match d.placeAt r e g.base (g.tiles * g.slot) with
      | some p => [some p]
      | none => (List.range g.tiles).map (fun k => d.placeAt r e (g.base + k * g.slot) g.slot)
    if parts.any (fun p => p.isNone) then none
    else some (parts.any (fun p => match p with | some q => q.obj.isLost | none => false))

/-- The same as a check. -/
def Dev.gridOk (d : Dev) (r : Nat) (e : Entry) (g : Grid) : Except Result Grid :=
  match d.gridLost r e g with
  | none => .error (Result.fail stAddrFault g.off)
  | some true => .error (Result.fail stDataLost g.off)
  | some false => .ok g

/-- A tensor operand that lies where R124 asks: whether it is LOST, and whether its first header names a format the op refuses. -/
structure Operand where
  grid : Grid
  lost : Bool
  refused : Bool

/-- An input tensor of `rows` × `cols` elements: the slot is that of the format its first header names. -/
def Dev.inputGrid (d : Dev) (m : Memory) (r : Nat) (e : Entry) (off rows cols : Nat) (fmtOk : Nat → Bool) : Except Result Operand :=
  match d.tensorBase r e off with
  | .error x => .error x
  | .ok p =>
    let h := hdrOf (d.readDev m p.addr 64)
    let g : Grid := { off := off, base := p.addr, slot := slotBytes h.fmt, tr := ceilDiv rows 128, tc := ceilDiv cols 128, fmt := h.fmt }
    if p.obj.isLost then .ok ⟨g, true, false⟩
    else if h.fmt < 1 ∨ 6 < h.fmt then .ok ⟨g, false, true⟩
    else match d.gridLost r e g with
      | none => .error (Result.fail stAddrFault off)
      | some b => .ok ⟨g, b, !fmtOk h.fmt⟩

/-- An output tensor. -/
def Dev.outputGrid (d : Dev) (r : Nat) (e : Entry) (off rows cols fmt : Nat) : Except Result Operand :=
  match d.tensorBase r e off with
  | .error x => .error x
  | .ok p =>
    let g : Grid := { off := off, base := p.addr, slot := slotBytes fmt, tr := ceilDiv rows 128, tc := ceilDiv cols 128, fmt := fmt }
    match d.gridLost r e g with
    | none => .error (Result.fail stAddrFault off)
    | some b => .ok ⟨g, b, false⟩

/-- An array operand of bytes in one object. -/
def Dev.spanIn (d : Dev) (r : Nat) (e : Entry) (off n align : Nat) : Except Result Operand :=
  match d.place r e off n align with
  | .error x => .error x
  | .ok p => .ok ⟨span off p.addr n, p.obj.isLost, false⟩

/-- The tensor of an operand. -/
def gridOf : Except Result Operand → Grid
  | .ok o => o.grid
  | .error _ => span 0 0 0

/-- What an op is refused with for its tensors: ADDR_FAULT of the first that R124 refuses, before any is looked into; then DATA_LOST; then
a format that is not taken (R124, R234, R105). -/
def firstRefusal (l : List (Except Result Operand)) : Option Result :=
  match l.findSome? (fun x => match x with | .error w => some w | .ok _ => none) with
  | some w => some w
  | none =>
    let of := fun (p : Operand → Bool) => l.findSome? (fun x => match x with | .ok o => if p o then some o.grid.off else none | .error _ => none)
    match of Operand.lost with
    | some off => some (Result.fail stDataLost off)
    | none => (of Operand.refused).map (Result.fail stOperandRefused)

/-- One tensor, checked. -/
def settled (x : Except Result Operand) : Except Result Grid :=
  match firstRefusal [x] with | some w => .error w | none => .ok (gridOf x)

/-- The output range that a failed op leaves undefined; a LOST one is not written (R99, R234). -/
def outRange : Except Result Operand → List (Nat × Nat)
  | .ok o => if o.lost then [] else [o.grid.range]
  | .error _ => []

/-- Every header of a tensor passes, with one format (R105). -/
def Dev.headersOk (d : Dev) (m : Memory) (g : Grid) (sparseOk : Bool) : Bool :=
  (List.range g.tiles).all (fun k =>
    let b := d.readDev m (g.base + k * g.slot) 64
    (hdrOf b).passes b (fun f => f == g.fmt) sparseOk)

/-- One tile, with the part of the op's extents that lies in it. -/
def Dev.tile (d : Dev) (m : Memory) (g : Grid) (i j mr mc : Nat) : Tile :=
  let h := hdrOf (d.readDev m (g.tileAt i j) 64)
  loadTile h (d.readDev m (g.tileAt i j + 64) h.stored) mr mc

/-- What of `n` elements lies in tile `i`. -/
def part (n i : Nat) : Nat := min 128 (n - 128 * i)

/-- Every tile of a tensor of `rows` × `cols` elements, in row-major order. -/
def Dev.loadGrid (d : Dev) (m : Memory) (g : Grid) (rows cols : Nat) : Array Tile :=
  ((List.range g.tiles).map (fun k => d.tile m g (k / g.tc) (k % g.tc) (part rows (k / g.tc)) (part cols (k % g.tc)))).toArray

/-- A tile that is not there. -/
def Tile.none : Tile :=
  { hdr := hdrOf [], code := fun _ => 0, scale := fun _ => 0, bad := false }

def gridTile (a : Array Tile) (g : Grid) (i j : Nat) : Tile := a.getD (i * g.tc + j) Tile.none

/-- The value of element (r, c) of a loaded tensor; none where it is absent. -/
def gridVal (a : Array Tile) (g : Grid) (r c : Nat) : Option Val := (gridTile a g (r / 128) (c / 128)).val (r % 128) (c % 128)

/-- The ranges an engine reads of a tensor: each tile as stored. -/
def Dev.gridReads (d : Dev) (m : Memory) (g : Grid) : List (Nat × Nat) :=
  (List.range g.tiles).map (fun k => (g.base + k * g.slot, 64 + (hdrOf (d.readDev m (g.base + k * g.slot) 64)).stored))

/-- The slots of a tensor's tiles. -/
def Dev.gridSlots (_ : Dev) (g : Grid) : List (Nat × Nat) := (List.range g.tiles).map (fun k => (g.base + k * g.slot, g.slot))

/-- Deep-tier bytes of ranges. -/
def Dev.deepSum (d : Dev) (l : List (Nat × Nat)) : Nat := (l.map (fun x => d.deepBytes x.1 x.2)).sum

/-- Deep-tier bytes an engine moves reading the tiles of a tensor once: each as stored, where its unit is homed deep. -/
def Dev.gridDeep (d : Dev) (m : Memory) (g : Grid) : Nat := d.deepSum (d.gridReads m g)

/-- Deep-tier bytes of writing a tensor's tiles RAW. -/
def Dev.gridDeepOut (d : Dev) (g : Grid) : Nat := d.deepSum (d.gridSlots g)

/-- The die on which an address is homed. -/
def Dev.dieAt (d : Dev) (a : Nat) : Nat :=
  match d.findObj (fun o => o.st != .free) a 1 with
  | some (_, o) => o.unitDie ((a - o.base) / o.unitSize)
  | none => 0

/-- The object number and tile index an engine writes in the header of a tile. The spec numbers no tiles of a FLAT object: there the index
is the distance from the object's base in slots of the tile's format (DESIGN CHOICE, notes/assumptions/55.md). -/
def Dev.tileName (d : Dev) (a slot : Nat) : Nat × Nat :=
  match d.findObj (fun o => o.st != .free) a 1 with
  | some (n, o) => (n, (a - o.base) / slot)
  | none => (0, 0)

/-- The stores of one output tile. -/
def Dev.writeTile (d : Dev) (g : Grid) (i j : Nat) (o : OutCtl) (int8s : Nat) (t : OutTile) : List MemOp :=
  let a := g.tileAt i j
  let n := d.tileName a g.slot
  d.writeDev a (outTileBytes o int8s n.2 n.1 t)

/-! ## Moves under way (R131, R218) -/

/-- Units of a range in motion, to near or to deep. -/
def Dev.moving (d : Dev) (a n : Nat) (near : Bool) : Nat :=
  (d.objects.map (fun e => e.2.moves.countP (fun v => v.begun && v.toNear == near &&
    decide (e.2.base + v.unit * e.2.unitSize < a + n) && decide (a < e.2.base + (v.unit + 1) * e.2.unitSize)))).sum

/-- Units of a tensor in motion. -/
def Dev.gridMoving (d : Dev) (g : Grid) (near : Bool) : Nat := d.moving g.base (g.tiles * g.slot) near

/-- Whether an op must wait for a commit before it can read its inputs, its deadline not being reached, or write its outputs. -/
def Dev.mustWait (d : Dev) (e : Entry) (ins outs : List Grid) : Bool :=
  outs.any (fun g => 0 < d.gridMoving g true + d.gridMoving g false) ||
    (ins.any (fun g => 0 < d.gridMoving g true) && !(hDeadline e.desc != 0 && (d.now.toNat % 2 ^ 48 + 2 ^ 48 - hDeadline e.desc) % 2 ^ 48 < 2 ^ 47))

/-- An op whose checks are past: it waits for moves that touch its tensors, then for the meters it needs, then it works (R218, R251). -/
def begun (s : State) (r : Nat) (e : Entry) (wait : Bool) (needs : List (Nat × Nat)) (go : State → Host.Outcome State Fault Refusal) :
    Host.Outcome State Fault Refusal :=
  if wait then answer s s.dev else metered s r e.count needs go

/-- Tiles that stream from the deep tier at the deadline. -/
def Dev.streamed (d : Dev) (ins : List Grid) : Nat := (ins.map (fun g => d.gridMoving g true)).sum

/-- LD_CNT_STREAM_THROUGH of the dies whose units stream through. -/
def Dev.countStreamed (d : Dev) (ins : List Grid) : Dev :=
  ins.foldl (fun d g => (List.range g.tiles).foldl (fun d k =>
    let a := g.base + k * g.slot
    let n := d.moving a g.slot true
    if n = 0 then d else d.count (d.dieAt a) 0x528 n) d) d

/-! ## Lanes (R127, R244) -/

/-- The lanes a claim works with on a die, ascending. -/
def Dev.workLanes (d : Dev) (c n : Nat) : List Nat :=
  setBits 64 ((Tbl.lookD (d.claim c).lanes n 0).toNat.land (d.die n).laneLog.toNat)

/-- The dies on which a claim has working lanes, with the lanes. -/
def Dev.workDies (d : Dev) (c : Nat) : List (Nat × List Nat) :=
  ((List.range 4).map (fun n => (n, d.workLanes c n))).filter (fun e => !e.2.isEmpty)

/-- The block ID in the REASON of an op whose claim has no working lane: that of the lowest die its masks name. -/
def Dev.lanelessReason (d : Dev) (c : Nat) : Nat :=
  0x10 + (((List.range 4).find? (fun n => Tbl.lookD (d.claim c).lanes n 0 != 0)).getD 0)

/-- The die whose group a chunk joins: its weight tile's home where the claim has lanes there, else the claim's lowest die (R127). -/
def groupDie (dies : List (Nat × List Nat)) (home : Nat) : Nat :=
  if dies.any (fun e => e.1 == home) then home else match dies with | e :: _ => e.1 | [] => 0

/-- Split a list in `n` contiguous parts as even as possible, earlier parts taking the extras. -/
def splitEven {α : Type} (l : List α) (n : Nat) : List (List α) :=
  (List.range n).map (fun p =>
    let q := l.length / n
    let x := l.length % n
    (l.drop (p * q + min p x)).take (q + b2n (p < x)))

/-- Chunks by lane on one die (R127 step 2). -/
def divideDie (lanes : List Nat) (chunks : List Chunk) : List (Nat × List Chunk) :=
  let ts := (chunks.map (·.tile)).eraseDups
  let l := lanes.length
  let t := ts.length
  let work : List (Nat × List Chunk) :=
    if l ≤ t then ts.zipIdx.map (fun (x, k) => (nth lanes (k % l) 0, chunks.filter (·.tile == x)))
    else ts.zipIdx.flatMap (fun (x, k) =>
      let n := l / t + b2n (k < l % t)
      let first := k * (l / t) + min k (l % t)
      (splitEven (chunks.filter (·.tile == x)) n).zipIdx.map (fun (cs, p) => (nth lanes (first + p) 0, cs)))
  lanes.map (fun ln => (ln, (work.filter (·.1 == ln)).flatMap (fun w => w.2)))

/-- The division of an op over a claim's lanes (R127). -/
def divide (dies : List (Nat × List Nat)) (chunks : List Chunk) : List LaneWork :=
  dies.flatMap (fun e => (divideDie e.2 (chunks.filter (fun c => c.die == e.1))).map (fun l =>
    { die := e.1, lane := l.1, todo := (spendChunks l.2 0).1, used := 0, spent := 0, steal := false, tile := none }))

end Sys2Proof.Machine
end

