-- ==== Sys2Proof/Machine/Lanes.lean ====
section
/-!
DEFINITION. The lane ops: MATMUL, CONV and SPMM over exact windows (chapters 5, 6 and 9).
-/
namespace Sys2Proof.Machine

/-! ## The window (R108 to R111) -/

/-- A window with its sticky flags. -/
structure Window where
  w : Int
  nan : Bool
  pinf : Bool
  ninf : Bool
  deriving DecidableEq, Repr

def Window.zero : Window := ⟨0, false, false, false⟩

/-- Add one product, truncated toward zero to the grid 2^(a − 176); special values set flags. -/
def Window.addProduct (a : Int) (u : Window) : Val → Window
  | .nan => { u with nan := true }
  | .inf neg => if neg then { u with ninf := true } else { u with pinf := true }
  | .fin neg m e =>
    let k := e - (a - 176)
    { u with w := u.w + signed neg (if 0 ≤ k then m * 2 ^ k.toNat else m / 2 ^ (-k).toNat) }

/-- The exact value a window drains (R113, R116). -/
def Window.val (a : Int) (u : Window) : Val :=
  if u.nan || (u.pinf && u.ninf) then .nan
  else if u.pinf then .inf false
  else if u.ninf then .inf true
  else .fin (decide (u.w < 0)) u.w.natAbs (a - 176)

/-! ## A product of matrices -/

/-- What a row strip of the input, or a column strip of the weights, brings to the anchor: the largest SCALE_CEIL, the largest scale
seen, and whether some tile's scale exceeds its ceiling (R107, R108). -/
structure Strip where
  ceil : Nat
  seen : Nat
  miss : Bool
  bad : Bool
  deriving DecidableEq, Repr

def Strip.empty : Strip := ⟨0, 0, false, false⟩

/-- Add one tile to a strip, with the largest scale seen in it. -/
def Strip.join (s : Strip) (t : Tile) (seen : Nat) : Strip :=
  ⟨max s.ceil t.hdr.ceil, max s.seen seen, s.miss || Nat.blt t.hdr.ceil seen, s.bad || t.bad⟩

/-- A lane op as the lanes see it: extents, elements, strips, the format shifts of R106. -/
structure LaneOp where
  m : Nat
  n : Nat
  k : Nat
  x : Nat → Nat → Option Val
  w : Nat → Nat → Option Val
  xs : Nat → Strip
  ws : Nat → Strip
  xf : Int
  wf : Int

/-- Whether output tile (i, j) is computed again under R107. -/
def LaneOp.missed (p : LaneOp) (i j : Nat) : Bool := (p.xs i).miss || (p.ws j).miss

/-- The anchor of output tile (i, j), after a recomputation the recorded one (R107, R108). -/
def LaneOp.anchor (p : LaneOp) (i j : Nat) : Int :=
  let c := fun (s : Strip) => if p.missed i j then max s.ceil s.seen else s.ceil
  (c (p.xs i) - 127 + p.xf) + (c (p.ws j) - 127 + p.wf)

/-- The exact value of output element (r, c): absent elements contribute nothing (R123). -/
def LaneOp.elem (p : LaneOp) (r c : Nat) : Val :=
  let a := p.anchor (r / 128) (c / 128)
  ((List.range p.k).foldl (fun u k =>
    match p.x r k, p.w k c with
    | some x, some w => u.addProduct a (x.mul w)
    | _, _ => u) Window.zero).val a

/-- Output tile (i, j). -/
def LaneOp.tile (p : LaneOp) (o : OutCtl) (seed tensor i j : Nat) : OutTile :=
  { vr := part p.m i, vc := part p.n j, val := fun r c => p.elem (128 * i + r) (128 * j + c),
    rnd := fun r c => outRnd o seed tensor ((128 * i + r) * p.n + 128 * j + c) }

/-! ## Picks (R120, R129, R202, R203) -/

/-- Bands for a row strip of `v` valid rows. -/
def bands (v : Nat) : Nat := if v ≤ 32 then 4 else if v ≤ 64 then 2 else 1

/-- Twice the c of R129, by weight format. -/
def beatCost : Nat → Nat
  | 1 => 1 | 5 => 4 | _ => 2

/-- Picks of one dense chunk with `v` weight columns, in `b` bands. -/
def densePicks (fmt v b : Nat) : Nat :=
  let k := if fmt = 5 then 2 else 1
  k * ceilDiv (ceilDiv (v * beatCost fmt) (2 * k)) b

/-- Beats of a zero-run chunk: the non-zeros as (line, position), the beat under construction, beats so far (R203). -/
def zeroRunBeats (bits p : Nat) : List (Nat × Nat) → List Nat → Nat → Nat
  | [], cur, n => if cur.isEmpty then n else n + 1
  | (_, pos) :: t, cur, n =>
    if 1024 < (cur.length + 1) * bits || p ≤ cur.countP (· == pos) then zeroRunBeats bits p t [pos] (n + 1)
    else zeroRunBeats bits p t (pos :: cur) n

/-- Picks of one chunk of an SPMM's weight tile with stored body `stored`, `v` of its lines inside the mask, in `b` bands; `axis`: its
lines are rows (R202). -/
def chunkPicks (h : Hdr) (stored : List Byte) (axis : Bool) (mr mc v b : Nat) : Nat :=
  let lines := min v (if axis then h.vr else h.vc)
  if h.sparse = 1 then
    if h.count = 0 then ceilDiv (ceilDiv (lines * beatCost h.fmt) 4) b else densePicks h.fmt lines b
  else if h.sparse = 2 then
    let z := zeroRunElems h stored.toArray (fun n => n / 128 < min h.vr mr && n % 128 < min h.vc mc)
    ceilDiv (zeroRunBeats (elemBits h.fmt) (if h.fmt = 1 then 2 else 1) (z.1.map (fun e => (e.1, e.2.1))) [] 0) b
  else densePicks h.fmt lines b

/-! ## Running a lane op -/

/-- What a lane op needs once its checks have passed. -/
structure LaneRun where
  op : LaneOp
  x : Grid
  w : Grid
  y : Grid
  out : OutCtl
  tensor : Nat
  /-- picks and home die of the chunk of output tile (i, j) at inner chunk k -/
  cost : Nat → Nat → Nat → Nat
  home : Nat → Nat → Nat
  /-- inner chunks -/
  chunks : Nat
  /-- the weight tile of inner chunk k and column tile j is structured and over its declaration (R207) -/
  viol : Nat → Nat → Bool
  /-- a zero-run tile is among the weights, and the op allows stealing (R205, R206) -/
  steals : Bool
  /-- the stationary tiles are gathered from rows (R134) -/
  gathers : Bool

/-- Output tile numbers in row-major order. -/
def LaneRun.tiles (l : LaneRun) : List (Nat × Nat) :=
  (List.range l.y.tiles).map (fun t => (t / l.y.tc, t % l.y.tc))

/-- The chunks of the op, each tile's picks counted again where it is recomputed (R107). -/
def LaneRun.work (l : LaneRun) (dies : List (Nat × List Nat)) : List Chunk :=
  l.tiles.flatMap (fun (i, j) => (List.range l.chunks).map (fun k =>
    { tile := i * l.y.tc + j, inner := k, die := groupDie dies (l.home k j),
      picks := l.cost i j k * (if l.op.missed i j then 2 else 1) }))

/-- Weight tiles over their declaration. -/
def LaneRun.violations (l : LaneRun) : Nat :=
  ((List.range l.chunks).map (fun k => (List.range l.y.tc).countP (fun j => l.viol k j))).sum

/-- The tiles of an op that a malformed tile feeds. -/
def LaneRun.fed (l : LaneRun) (i j : Nat) : Bool := (l.op.xs i).bad || (l.op.ws j).bad

/-- A malformed tile is among the operands. -/
def LaneRun.malformed (l : LaneRun) : Bool := l.tiles.any (fun t => l.fed t.1 t.2)

/-- LD_CNT_SPARSE_VIOL of the dies whose lanes streamed such tiles for some output tiles (R207, R210). -/
def LaneRun.countViol (l : LaneRun) (d : Dev) (dies : List (Nat × List Nat)) (tiles : List (Nat × Nat)) : Dev :=
  tiles.foldl (fun d t => (List.range l.chunks).foldl (fun d k =>
    if l.viol k t.2 then d.count (groupDie dies (l.home k t.2)) 0x378 1 else d) d) d

/-- Deep-tier bytes of the stationary input: a tile that is gathered, or whose inner chunk is streamed, on several dies is read by each
(R128). -/
def LaneRun.deepX (l : LaneRun) (d : Dev) (m : Memory) (work : List Chunk) : Nat :=
  if l.gathers then d.gridDeep m l.x * ((work.map (·.die)).eraseDups).length
  else ((List.range l.x.tiles).map (fun n =>
    let a := l.x.base + n * l.x.slot
    d.deepBytes a (64 + (hdrOf (d.readDev m a 64)).stored) *
      (((work.filter (fun c => c.tile / l.y.tc == n / l.x.tc && c.inner == n % l.x.tc)).map (·.die)).eraseDups).length)).sum

/-- What a lane op asks of the DEEP meters: its stationary input once by each die that streams it, its weights once a row strip, its
output (R128, R249). -/
def LaneRun.needs (l : LaneRun) (d : Dev) (m : Memory) (work : List Chunk) : List (Nat × Nat) :=
  let xr := (d.gridReads m l.x).zipIdx.flatMap (fun (x, n) => List.replicate
    (if l.gathers then ((work.map (·.die)).eraseDups).length
     else (((work.filter (fun c => c.tile / l.y.tc == n / l.x.tc && c.inner == n % l.x.tc)).map (·.die)).eraseDups).length) x)
  d.deepNeeds (xr ++ (List.range l.y.tr).flatMap (fun _ => d.gridReads m l.w)) (d.gridSlots l.y)

/-- The stores of a lane op: every output tile, once. -/
def LaneRun.writes (l : LaneRun) (d : Dev) (e : Entry) : List MemOp :=
  l.tiles.flatMap (fun (i, j) => d.writeTile l.y i j l.out 0 (l.op.tile l.out e.seed.toNat l.tensor i j))

/-- What the lanes have of an op: its division; where a tile is malformed, an open number of each lane's picks (R127, R208, R229). -/
def LaneRun.parts (l : LaneRun) (d : Dev) (dies : List (Nat × List Nat)) : List LaneWork :=
  let ps := divide dies (l.work dies)
  if l.malformed then ps.zipIdx.map (fun (w, n) =>
    { w with todo := (spendChunks [{ tile := 0, inner := 0, die := w.die,
                                     picks := (Config.freeValue (d.draws + n)).toNat % (chunkSum w.todo + 1) }] 0).1 })
  else ps.map (fun w => { w with steal := l.steals })

/-- The lanes begin an op: inputs are reached, tiles that stream through at the deadline and tiles over their declaration set its status,
each lane takes its part and uses the permits it holds (R24, R127, R131, R207). -/
def LaneRun.begin (l : LaneRun) (d : Dev) (r : Nat) (e : Entry) (dies : List (Nat × List Nat)) : Dev :=
  let ps := l.parts d dies
  let streamed := d.streamed [l.x, l.w]
  let res : Result :=
    if l.violations ≠ 0 then Result.fail stFormatViolation (min l.violations 0xFFFF)
    else if streamed ≠ 0 then Result.fail stStreamed (min streamed 0xFFFF) else Result.ok
  let d := if l.malformed then { d with draws := d.draws + ps.length } else d
  let d := ((d.countStreamed [l.x, l.w]).engineRead l.x.base (l.x.tiles * l.x.slot)).engineWrite l.w.base (l.w.tiles * l.w.slot)
  (d.modEntry r e.count (fun x => { x with work := some ps, res := res })).laneRuns ps

/-- A malformed tile was met: INDEX_FAULT; the outputs it feeds are untouched, the others exact or untouched (R208, R229). -/
def LaneRun.indexFault (l : LaneRun) (s : State) (r : Nat) (e : Entry) (dies : List (Nat × List Nat)) : Host.Outcome State Fault Refusal :=
  let d := s.dev
  let done := (l.tiles.zipIdx.filter (fun (t, n) => !l.fed t.1 t.2 && (Config.freeValue (d.draws + n)).getLsbD 0)).map (·.1)
  let writes := done.flatMap (fun t => d.writeTile l.y t.1 t.2 l.out 0 (l.op.tile l.out e.seed.toNat l.tensor t.1 t.2))
  let off := if (List.range l.x.tr).any (fun i => (l.op.xs i).bad) then l.x.off else l.w.off
  let d := l.countViol { d with draws := d.draws + l.y.tiles } dies done
  let d := d.heatRange l.w.base (l.w.tiles * l.w.slot) ((done.map (·.1)).eraseDups).length
  answerMem s (d.endOp r e { Result.fail stIndexFault off with picks := e.spent }, writes)

/-- The lanes end an op: every output tile is written once, and recomputations, rounding draws and violations are counted (R107, R114,
R129, R207). -/
def LaneRun.run (l : LaneRun) (s : State) (r : Nat) (e : Entry) (dies : List (Nat × List Nat)) : Host.Outcome State Fault Refusal :=
  let d := s.dev
  let strips := l.y.tr
  let work := l.work dies
  let deep := l.deepX d s.mem work + strips * d.gridDeep s.mem l.w + d.gridDeepOut l.y
  let dieOf := fun (t : Nat × Nat) => ((work.filter (fun c => c.tile == t.1 * l.y.tc + t.2)).map (·.die)).foldl min 3
  let d' := (l.tiles.filter (fun t => l.op.missed t.1 t.2)).foldl (fun d t => d.count (dieOf t) 0x338 1) d
  let d' := if l.out.rnd = 0 then d' else l.tiles.foldl (fun d t => d.count (dieOf t) 0x348 (part l.op.m t.1 * part l.op.n t.2)) d'
  let d' := l.countViol d' dies l.tiles
  let d' := (d'.engineWrite l.y.base (l.y.tiles * l.y.slot)).heatRange l.w.base (l.w.tiles * l.w.slot) strips
  answerMem s (d'.endOp r e { e.res with picks := e.spent, deep := deep }, l.writes d e)

/-- The lanes have made every pick of an op. -/
def LaneRun.finish (l : LaneRun) (s : State) (r : Nat) (e : Entry) (dies : List (Nat × List Nat)) : Host.Outcome State Fault Refusal :=
  if l.malformed then l.indexFault s r e dies else l.run s r e dies

/-- A lane op whose tensors and refusals have been settled: it waits for moves, begins, waits for permits, or ends. -/
def LaneRun.start (l : LaneRun) (s : State) (r : Nat) (e : Entry) : Host.Outcome State Fault Refusal :=
  let d := s.dev
  let dies := d.workDies (d.claimOf r)
  if e.work.isSome then (if e.drained then l.finish s r e dies else answer s d)
  else begun s r e (d.mustWait e [l.x, l.w] [l.y]) (l.needs d s.mem (l.work dies)) (fun s =>
    let d := l.begin s.dev r e dies
    match (d.entry r e.count).filter Entry.drained with
    | some e => l.finish { s with dev := d } r e dies
    | none => answer s d)

/-! ## MATMUL and SPMM (R132, R201, Tables 6.2, 9.7) -/

/-- The strips of a loaded tensor along its rows, or its columns. -/
def stripOf (a : Array Tile) (g : Grid) (rows cols : Nat) (byRow : Bool) (n : Nat) : Strip :=
  if byRow then (List.range g.tc).foldl (fun s j => let t := gridTile a g n j; s.join t (t.seen (part rows n) (part cols j))) Strip.empty
  else (List.range g.tr).foldl (fun s i => let t := gridTile a g i n; s.join t (t.seen (part rows i) (part cols n))) Strip.empty

/-- A run over a weight tensor: `axis` reads it transposed. -/
def Dev.matmulRun (d : Dev) (m : Memory) (x w y : Grid) (mm nn kk : Nat) (axis sparse steal : Bool) (out : OutCtl) (tensor : Nat) : LaneRun :=
  let wr := if axis then nn else kk
  let wc := if axis then kk else nn
  let xa := d.loadGrid m x mm kk
  let wa := d.loadGrid m w wr wc
  let xs := ((List.range x.tr).map (stripOf xa x mm kk true)).toArray
  let ws := ((List.range (ceilDiv nn 128)).map (stripOf wa w wr wc axis)).toArray
  let wAt := fun k j => if axis then (j, k) else (k, j)
  { op := { m := mm, n := nn, k := kk, x := gridVal xa x, w := fun k n => if axis then gridVal wa w n k else gridVal wa w k n,
            xs := fun i => xs.getD i Strip.empty, ws := fun j => ws.getD j Strip.empty, xf := ceilShift x.fmt, wf := ceilShift w.fmt },
    x := x, w := w, y := y, out := out, tensor := tensor,
    cost := fun i j k =>
      let p := wAt k j
      let h := (gridTile wa w p.1 p.2).hdr
      if sparse then
        chunkPicks h (if h.sparse = 2 then d.readDev m (w.tileAt p.1 p.2 + 64) h.stored else []) axis
          (part wr p.1) (part wc p.2) (part nn j) (bands (part mm i))
      else densePicks h.fmt (part nn j) (bands (part mm i)),
    home := fun k j => let p := wAt k j; d.dieAt (w.tileAt p.1 p.2),
    chunks := ceilDiv kk 128,
    viol := fun k j => let p := wAt k j; let h := (gridTile wa w p.1 p.2).hdr; h.sparse == 1 && h.count != 0,
    steals := steal && wa.toList.any (fun t => t.hdr.sparse == 2), gathers := false }

/-- The tensors of a MATMUL or SPMM. -/
def Dev.matmulTensors (d : Dev) (m : Memory) (r : Nat) (e : Entry) : Except Result Operand × Except Result Operand × Except Result Operand :=
  let x := e.desc
  let mm := fld x 40 3
  let nn := fld x 43 3
  let kk := fld x 46 3
  let axis := bit (fld x 50 1) 7
  (d.inputGrid m r e 16 mm kk laneInput, d.inputGrid m r e 24 (if axis then nn else kk) (if axis then kk else nn) laneInput,
   d.outputGrid r e 32 mm nn (outCtl (fld x 49 1)).fmt)

/-- Checks of MATMUL and SPMM in the chapter's order: tensors (R124), headers (R105, R195), overlap (R126), K (R110), OFMT (R112). -/
def Dev.matmulPlan (d : Dev) (m : Memory) (r : Nat) (e : Entry) (sparse : Bool) : Except (Result × List (Nat × Nat)) LaneRun :=
  let x := e.desc
  let mm := fld x 40 3
  let nn := fld x 43 3
  let kk := fld x 46 3
  let flags := fld x 50 1
  let axis := bit flags 7
  let out := outCtl (fld x 49 1)
  let fail := fun (why : Result) (outs : List (Nat × Nat)) => (Except.error (why, outs) : Except (Result × List (Nat × Nat)) LaneRun)
  let (xo, wo, yo) := d.matmulTensors m r e
  match firstRefusal [xo, wo, yo] with
  | some why => fail why (outRange yo)
  | none =>
    let xg := gridOf xo
    let wg := gridOf wo
    let yg := gridOf yo
    let lineOk := (List.range wg.tiles).all (fun k =>
      let h := hdrOf (d.readDev m (wg.base + k * wg.slot) 64)
      h.sparse == 0 || h.lineAxis == axis)
    if !d.headersOk m xg false then fail (Result.fail stOperandRefused 16) []
    else if !d.headersOk m wg sparse || !lineOk then fail (Result.fail stOperandRefused 24) []
    else if yg.overlaps xg || yg.overlaps wg then fail (Result.fail stOperandRefused 32) []
    else if 8388608 < kk then fail (Result.fail stOperandRefused 46) []
    else if out.fmt = 4 then fail (Result.fail stOperandRefused 49) []
    else .ok (d.matmulRun m xg wg yg mm nn kk axis sparse (sparse && !bit flags 6) out (fld x 52 4))

/-- A lane op with its plan: refused, or started. -/
def runLane (s : State) (r : Nat) (e : Entry) (plan : Except (Result × List (Nat × Nat)) LaneRun) : Host.Outcome State Fault Refusal :=
  let c := s.dev.claimOf r
  if (s.dev.workDies c).isEmpty then
    failOut s r e (Result.fail stHardwareFault (s.dev.lanelessReason c)) (match plan with | .ok l => [l.y.range] | .error x => x.2)
  else
    match plan with
    | .error x => failOut s r e x.1 x.2
    | .ok l => l.start s r e

/-- MATMUL (R132). -/
def execMatmul (r : RingNo) (count : W32) (s : State) : Host.Outcome State Fault Refusal :=
  match s.dev.op r.val count 0x10 with
  | some e => runLane s r.val e (s.dev.matmulPlan s.mem r.val e false)
  | none => answer s s.dev

/-- SPMM (R201). -/
def execSpmm (r : RingNo) (count : W32) (s : State) : Host.Outcome State Fault Refusal :=
  match s.dev.op r.val count 0x13 with
  | some e => runLane s r.val e (s.dev.matmulPlan s.mem r.val e true)
  | none => answer s s.dev

/-! ## CONV (R133 to R135, Table 6.3) -/

/-- The geometry of a CONV. -/
structure Conv where
  h : Nat
  w : Nat
  cin : Nat
  cout : Nat
  nb : Nat
  kh : Nat
  kw : Nat
  sh : Nat
  sw : Nat
  dh : Nat
  dw : Nat
  pt : Nat
  pl : Nat
  pb : Nat
  pr : Nat
  axis : Bool
  flip : Bool
  wgrad : Bool
  deriving DecidableEq, Repr

/-- The geometry fields of Table 6.3. -/
def convOf (x : BitVec 512) : Conv :=
  let f := fun o => fld x o 1
  { h := fld x 40 2, w := fld x 42 2, cin := fld x 44 2, cout := fld x 46 2, nb := f 48, kh := f 49 / 16 + 1, kw := f 49 % 16 + 1,
    sh := f 50 / 16 + 1, sw := f 50 % 16 + 1, dh := f 51 / 16 + 1, dw := f 51 % 16 + 1, pt := f 52 / 16, pl := f 52 % 16,
    pb := f 53 / 16, pr := f 53 % 16, axis := bit (f 55) 7, flip := bit (f 55) 6, wgrad := bit (f 55) 5 }

/-- Ho and Wo; 0 where the quotient of R133 is below 1. -/
def Conv.ho (c : Conv) : Nat := if c.h + c.pt + c.pb < c.dh * (c.kh - 1) + 1 then 0 else (c.h + c.pt + c.pb - c.dh * (c.kh - 1) - 1) / c.sh + 1
def Conv.wo (c : Conv) : Nat := if c.w + c.pl + c.pr < c.dw * (c.kw - 1) + 1 then 0 else (c.w + c.pl + c.pr - c.dw * (c.kw - 1) - 1) / c.sw + 1

/-- Output pixels, input channels rounded up to tiles, and the inner extent of a forward pass. -/
def Conv.pixels (c : Conv) : Nat := c.nb * c.ho * c.wo
def Conv.cp (c : Conv) : Nat := 128 * ceilDiv c.cin 128
def Conv.patch (c : Conv) : Nat := c.kh * c.kw * c.cp

/-- The row of IN that output pixel `p` reads at kernel position (kh, kw); none outside the image, where a zero row is loaded (R134). -/
def Conv.row (c : Conv) (p kh kw : Nat) : Option Nat :=
  if p < c.pixels then
    let kh' := if c.flip then c.kh - 1 - kh else kh
    let kw' := if c.flip then c.kw - 1 - kw else kw
    let n := p / (c.ho * c.wo)
    let ho := p / c.wo % c.ho
    let wo := p % c.wo
    let y := ho * c.sh + kh' * c.dh
    let x := wo * c.sw + kw' * c.dw
    if c.pt ≤ y && y - c.pt < c.h && c.pl ≤ x && x - c.pl < c.w then some ((n * c.h + (y - c.pt)) * c.w + (x - c.pl)) else none
  else none

/-- Element (p, t) of the patch matrix: output pixel, and (kh·KW + kw)·Cp + channel. -/
def Conv.patchVal (c : Conv) (a : Array Tile) (g : Grid) (p t : Nat) : Option Val :=
  let ch := t % c.cp
  let kk := t / c.cp
  if ch < c.cin then (match c.row p (kk / c.kw) (kk % c.kw) with | some q => gridVal a g q ch | none => some Val.zero) else none

/-- The input tiles, with their rows, that a set of (pixel, kernel position) pairs and channel tiles gathers, joined in a strip: the row
strip of R108 is taken as the tiles that its rows within the image come from (DESIGN CHOICE, notes/assumptions/55.md). -/
def Conv.strip (c : Conv) (a : Array Tile) (g : Grid) (pixels kpos chans : List Nat) : Strip :=
  pixels.foldl (fun s p => kpos.foldl (fun s k =>
    match c.row p (k / c.kw) (k % c.kw) with
    | none => s
    | some q => chans.foldl (fun s j =>
        let t := gridTile a g (q / 128) j
        let one : Tile := { t with hdr := { t.hdr with vr := 1 }, code := fun n => t.code (128 * (q % 128) + n),
                                   scale := fun b => t.scale (4 * (q % 128) + b) }
        s.join t (if q % 128 < t.hdr.vr then one.seen 1 (part c.cin j) else 0)) s) s) Strip.empty

/-- A forward CONV: the patch matrix times WT, the latter read transposed per kernel position with AXIS = 1. -/
def Dev.convForward (d : Dev) (m : Memory) (c : Conv) (x w y : Grid) (out : OutCtl) (tensor : Nat) : LaneRun :=
  let cq := 128 * ceilDiv c.cout 128
  let wr := if c.axis then c.kh * c.kw * cq else c.patch
  let wc := if c.axis then c.cin else c.cout
  let xa := d.loadGrid m x (c.nb * c.h * c.w) c.cin
  let wa := d.loadGrid m w wr wc
  -- the weight tile of inner chunk k (kernel position and channel tile) and column tile j
  let chans := c.cp / 128
  let wAt := fun k j => if c.axis then (k / chans * (cq / 128) + j, k % chans) else (k, j)
  let xs := ((List.range y.tr).map (fun i => c.strip xa x ((List.range 128).map (128 * i + ·)) (List.range (c.kh * c.kw)) (List.range x.tc))).toArray
  let ws := ((List.range y.tc).map (fun j => (List.range (c.kh * c.kw * chans)).foldl (fun s k =>
    let p := wAt k j
    let t := gridTile wa w p.1 p.2
    s.join t (if c.axis then t.seen (part c.cout j) (part c.cin (k % chans)) else t.seen (part c.cin (k % chans)) (part c.cout j))) Strip.empty)).toArray
  { op := { m := c.pixels, n := c.cout, k := c.patch, x := c.patchVal xa x,
            w := fun t n =>
              let kk := t / c.cp
              let ch := t % c.cp
              if ch < c.cin then (if c.axis then gridVal wa w (kk * cq + n) ch else gridVal wa w t n) else none,
            xs := fun i => xs.getD i Strip.empty, ws := fun j => ws.getD j Strip.empty, xf := ceilShift x.fmt, wf := ceilShift w.fmt },
    x := x, w := w, y := y, out := out, tensor := tensor,
    cost := fun i j _ => densePicks w.fmt (part c.cout j) (bands (part c.pixels i)),
    home := fun k j => let p := wAt k j; d.dieAt (w.tileAt p.1 p.2),
    chunks := c.patch / 128, viol := fun _ _ => false, steals := false, gathers := true }

/-- A WGRAD CONV: the patch matrix transposed times dOUT (R135). -/
def Dev.convGrad (d : Dev) (m : Memory) (c : Conv) (x w y : Grid) (out : OutCtl) (tensor : Nat) : LaneRun :=
  let xa := d.loadGrid m x (c.nb * c.h * c.w) c.cin
  let wa := d.loadGrid m w c.pixels c.cout
  let chans := c.cp / 128
  let xs := ((List.range y.tr).map (fun i =>
    c.strip xa x (List.range c.pixels) [i / chans] [i % chans])).toArray
  let ws := ((List.range y.tc).map (stripOf wa w c.pixels c.cout false)).toArray
  { op := { m := c.patch, n := c.cout, k := c.pixels, x := fun t p => c.patchVal xa x p t, w := gridVal wa w,
            xs := fun i => xs.getD i Strip.empty, ws := fun j => ws.getD j Strip.empty, xf := ceilShift x.fmt, wf := ceilShift w.fmt },
    x := x, w := w, y := y, out := out, tensor := tensor,
    cost := fun i j _ => densePicks w.fmt (part c.cout j) (bands (part c.patch i)),
    home := fun k j => d.dieAt (w.tileAt k j),
    chunks := ceilDiv c.pixels 128, viol := fun _ _ => false, steals := false, gathers := true }

/-- The tensors of a CONV. -/
def Dev.convTensors (d : Dev) (m : Memory) (r : Nat) (e : Entry) : Except Result Operand × Except Result Operand × Except Result Operand :=
  let c := convOf e.desc
  let cq := 128 * ceilDiv c.cout 128
  (d.inputGrid m r e 16 (c.nb * c.h * c.w) c.cin laneInput,
   if c.wgrad then d.inputGrid m r e 24 c.pixels c.cout laneInput
   else d.inputGrid m r e 24 (if c.axis then c.kh * c.kw * cq else c.patch) (if c.axis then c.cin else c.cout) laneInput,
   d.outputGrid r e 32 (if c.wgrad then c.patch else c.pixels) c.cout (outCtl (fld e.desc 54 1)).fmt)

/-- Checks of CONV: tensors, headers and BLOCK_AXIS, overlap, geometry, inner extent, OFMT (R105, R110, R112, R126, R133 to R135). No field
of a CONV holds its inner extent, and the spec gives one above 2^23 no REASON: it is 40, in both modes (DESIGN CHOICE,
notes/assumptions/55.md). -/
def Dev.convPlan (d : Dev) (m : Memory) (r : Nat) (e : Entry) : Except (Result × List (Nat × Nat)) LaneRun :=
  let x := e.desc
  let c := convOf x
  let out := outCtl (fld x 54 1)
  let fail := fun (why : Result) (outs : List (Nat × Nat)) => (Except.error (why, outs) : Except (Result × List (Nat × Nat)) LaneRun)
  let (xo, wo, yo) := d.convTensors m r e
  match firstRefusal [xo, wo, yo] with
  | some why => fail why (outRange yo)
  | none =>
      let xg := gridOf xo
      let wg := gridOf wo
      let yg := gridOf yo
      let axisOk := (List.range xg.tiles).all (fun k => !isMx xg.fmt || !(hdrOf (d.readDev m (xg.base + k * xg.slot) 64)).axis)
      if !d.headersOk m xg false || !axisOk then fail (Result.fail stOperandRefused 16) []
      else if !d.headersOk m wg false then fail (Result.fail stOperandRefused 24) []
      else if yg.overlaps xg || yg.overlaps wg then fail (Result.fail stOperandRefused 32) []
      else if c.ho < 1 ∨ c.wo < 1 then fail (Result.fail stOperandRefused 40) []
      else if 8388608 < (if c.wgrad then c.pixels else c.patch) then fail (Result.fail stOperandRefused 40) []
      else if c.axis && (1 < c.sh || 1 < c.sw) then fail (Result.fail stOperandRefused 50) []
      else if out.fmt = 4 then fail (Result.fail stOperandRefused 54) []
      else .ok (if c.wgrad then d.convGrad m c xg wg yg out (fld x 56 4) else d.convForward m c xg wg yg out (fld x 56 4))

/-- CONV (R133 to R135). -/
def execConv (r : RingNo) (count : W32) (s : State) : Host.Outcome State Fault Refusal :=
  match s.dev.op r.val count 0x12 with
  | some e => runLane s r.val e (s.dev.convPlan s.mem r.val e)
  | none => answer s s.dev

end Sys2Proof.Machine
end

