-- ==== Sys2Proof/Machine/Finish.lean ====
section
/-!
DEFINITION. The finishing unit and the generator: FINISH and RNG_FILL (R136 to R140, R359, R360).
-/
namespace Sys2Proof.Machine

/-! ## Element-wise functions (R136, Table 6.7) -/

/-- A correctly rounded binary32 operation of two codes. -/
def f32op (f : Val → Val → Val) (a b : Nat) : Nat := f32.rne (f (f32.dec a) (f32.dec b))

/-- The larger, or the smaller, of two codes; NaN where either is NaN. -/
def f32pick (larger : Bool) (a b : Nat) : Nat :=
  let x := f32.dec a
  let y := f32.dec b
  if x = .nan ∨ y = .nan then f32.nanCode
  else if x.lt y then (if larger then b else a)
  else if y.lt x then (if larger then a else b)
  else if a = b then a
  else if Config.zeroOf (BitVec.ofNat 32 a) (BitVec.ofNat 32 b) then a else b

/-- The element-wise functions, on binary32 codes. -/
def finishElem (fn a b imm : Nat) : Nat :=
  match fn with
  | 0x02 => f32op Val.add a b
  | 0x03 => f32op Val.mul a b
  | 0x04 => f32pick true a b
  | 0x05 => f32pick false a b
  | 0x06 => f32op Val.mul a imm
  | 0x08 => f32pick true a 0
  | 0x09 | 0x0A | 0x0B | 0x0D => actCode fn a 0
  | 0x0C => actCode fn a b
  | _ => a

/-! ## Row functions (R137) -/

/-- One level of a pairwise tree of binary64 sums. -/
def pairUp : List Val → List Val
  | a :: b :: t => f64.round (a.add b) :: pairUp t
  | l => l

/-- A pairwise tree over the list. -/
def pairTree : Nat → List Val → Val
  | _, [] => .zero
  | _, [a] => a
  | 0, a :: _ => a
  | fuel + 1, l => pairTree fuel (pairUp l)

/-- The sum of a row: a tree inside each chunk of 4,096 columns, chunks added from left to right. -/
def rowSum (l : List Val) : Val :=
  let chunks := (List.range (ceilDiv l.length 4096)).map (fun k => pairTree 13 ((l.drop (4096 * k)).take 4096))
  match chunks with
  | [] => .zero
  | a :: t => t.foldl (fun s c => f64.round (s.add c)) a

/-- SOFTMAX_ROW of a row of binary32 codes. -/
def softmaxRow (l : List Nat) : List Nat :=
  let vs := l.map f32.dec
  if vs.contains .nan then l.map (fun _ => f32.nanCode)
  else
    let top : Val := vs.foldl (fun a v => if a.lt v then v else a) (Val.inf true)
    if top = Val.inf true then l.map (fun _ => 0)
    else
      let es := vs.map (fun v => expVal (f64.round (v.add top.negate)))
      let total := rowSum es
      es.map (fun x => f32.rne (f64.div x total))

/-- RMSNORM_ROW and LAYERNORM_ROW of a row, with its weights. -/
def normRow (fn imm : Nat) (l b : List Nat) : List Nat :=
  let vs := l.map f32.dec
  let s := rowSum vs
  let q := rowSum (vs.map (fun v => f64.round (v.mul v)))
  (l.zip b).map (fun (x, w) => normCode fn x s q l.length imm w)

/-! ## FINISH -/

/-- A FINISH once its checks have passed. -/
structure FinishRun where
  fn : Nat
  rows : Nat
  cols : Nat
  imm : Nat
  out : OutCtl
  int8s : Nat
  tensor : Nat
  mode : Nat
  a : Grid
  /-- B as tiles, FULL or ROWVEC -/
  b : Option Grid
  y : Grid
  /-- address of the index array -/
  idx : Nat

/-- A tile format the finishing unit reads. -/
def anyFmt (f : Nat) : Bool := 1 ≤ f && f ≤ 6

def FinishRun.aRows (f : FinishRun) : Nat := if f.fn = 0x19 then f.imm else f.rows
def FinishRun.dRows (f : FinishRun) : Nat := if f.fn = 0x18 then f.imm else f.rows

/-- The tensors of a FINISH, and its index array or B. -/
def Dev.finishTensors (d : Dev) (m : Memory) (r : Nat) (e : Entry) : Except Result Operand × Except Result Operand × Except Result Operand :=
  let x := e.desc
  let rows := fld x 40 3
  let cols := fld x 43 3
  let fn := fld x 46 1
  let mode := bits (fld x 48 1) 7 6
  let imm := fld x 52 4
  (d.inputGrid m r e 16 (if fn = 0x19 then imm else rows) cols anyFmt,
   if mode = 3 then d.spanIn r e 24 (4 * rows) 4 else d.inputGrid m r e 24 (if mode = 1 then rows else 1) cols anyFmt,
   d.outputGrid r e 32 (if fn = 0x18 then imm else rows) cols (outCtl (fld x 47 1)).fmt)

/-- Checks of FINISH: tensors, headers, overlap, the format of D under SCATTER_ADD, the indices (R105, R124, R126, R138, R139). -/
def Dev.finishPlan (d : Dev) (m : Memory) (r : Nat) (e : Entry) : Except (Result × List (Nat × Nat)) FinishRun :=
  let x := e.desc
  let rows := fld x 40 3
  let cols := fld x 43 3
  let fn := fld x 46 1
  let out := outCtl (fld x 47 1)
  let mode := bits (fld x 48 1) 7 6
  let imm := fld x 52 4
  let fail := fun (why : Result) (outs : List (Nat × Nat)) => (Except.error (why, outs) : Except (Result × List (Nat × Nat)) FinishRun)
  let (ao, bo, yo) := d.finishTensors m r e
  match firstRefusal (if mode = 0 then [ao, yo] else [ao, bo, yo]) with
  | some why => fail why (outRange yo)
  | none =>
    let ag := gridOf ao
    let dg := gridOf yo
    let bg := if mode = 1 ∨ mode = 2 then some (gridOf bo) else none
    let idx := if mode = 3 then (gridOf bo).base else 0
    let bOk := match bg with | some g => d.headersOk m g false | none => true
    let inPlace := fn ≤ 0x0D && dg.base == ag.base && dg.fmt == ag.fmt
    let overA := dg.overlaps ag && !inPlace
    let overB := match bg with
      | some g => dg.overlaps g
      | none => mode == 3 && decide (dg.base < idx + 4 * rows) && decide (idx < dg.base + dg.tiles * dg.slot)
    let bad := (List.range (if mode = 3 then rows else 0)).any (fun k => imm ≤ d.readNat m (idx + 4 * k) 4)
    if !d.headersOk m ag false then fail (Result.fail stOperandRefused 16) []
    else if !bOk then fail (Result.fail stOperandRefused 24) []
    else if overA || overB then fail (Result.fail stOperandRefused 32) []
    else if fn = 0x18 && (out.fmt != 6 || !d.headersOk m dg false) then fail (Result.fail stOperandRefused 32) []
    else if bad then fail (Result.fail stAddrFault 24) []
    else .ok { fn := fn, rows := rows, cols := cols, imm := imm, out := out, int8s := fld x 49 1, tensor := fld x 56 4, mode := mode,
               a := ag, b := bg, y := dg, idx := idx }

/-- The binary32 code of an element of a loaded tensor; an absent element is zero (R123, R136). -/
def f32At (a : Array Tile) (g : Grid) (r c : Nat) : Nat := match gridVal a g r c with | some v => f32.rne v | none => 0

/-- An order of the rows of a SCATTER_ADD: that of their arrival, which is open; keys from the free values sort them. -/
def arrivalOrder (draws n : Nat) : List Nat :=
  let keyed := (List.range n).map (fun k => ((Config.freeValue (draws + k)).toNat, k))
  let ins := fun (l : List (Nat × Nat)) (x : Nat × Nat) => l.takeWhile (fun y => decide (y.1 ≤ x.1)) ++ x :: l.dropWhile (fun y => decide (y.1 ≤ x.1))
  (keyed.foldl ins []).map (fun x => x.2)

/-- The binary32 codes of the rows a FINISH writes, by output row. -/
def FinishRun.result (f : FinishRun) (d : Dev) (m : Memory) (aa ba da : Array Tile) : Nat → List Nat :=
  let row := fun r => (List.range f.cols).map (f32At aa f.a r)
  let brow := fun r => match f.b with
    | some g => (List.range f.cols).map (f32At ba g (if f.mode = 2 then 0 else r))
    | none => List.replicate f.cols 0
  let index := fun k => d.readNat m (f.idx + 4 * k) 4
  match f.fn with
  | 0x10 => fun r => softmaxRow (row r)
  | 0x11 | 0x12 => fun r => normRow f.fn f.imm (row r) (brow r)
  | 0x19 => fun r => row (index r)
  | 0x18 => fun r =>
    ((arrivalOrder d.draws f.rows).filter (fun k => index k == r)).foldl
      (fun acc k => List.zipWith (f32op Val.add) acc (row k)) ((List.range f.cols).map (f32At da f.y r))
  | _ => fun r => List.zipWith (fun a b => finishElem f.fn a b f.imm) (row r) (brow r)

/-- The tiles a FINISH writes: all of D, or under SCATTER_ADD those that hold a named row. -/
def FinishRun.tiles (f : FinishRun) (d : Dev) (m : Memory) : List (Nat × Nat) :=
  let all := (List.range f.y.tiles).map (fun t => (t / f.y.tc, t % f.y.tc))
  if f.fn = 0x18 then
    let named := (List.range f.rows).map (fun k => d.readNat m (f.idx + 4 * k) 4 / 128)
    all.filter (fun t => named.contains t.1)
  else all

/-- The tiles that a FINISH reads: A, B where it is a tensor, and D under SCATTER_ADD. -/
def FinishRun.loadA (f : FinishRun) (d : Dev) (m : Memory) : Array Tile := d.loadGrid m f.a f.aRows f.cols
def FinishRun.loadB (f : FinishRun) (d : Dev) (m : Memory) : Array Tile :=
  match f.b with | some g => d.loadGrid m g (if f.mode = 1 then f.rows else 1) f.cols | none => #[]
def FinishRun.loadD (f : FinishRun) (d : Dev) (m : Memory) : Array Tile := if f.fn = 0x18 then d.loadGrid m f.y f.imm f.cols else #[]

/-- The stores of one tile of D. -/
def FinishRun.write (f : FinishRun) (d : Dev) (m : Memory) (e : Entry) : Nat × Nat → List MemOp :=
  let res := f.result d m (f.loadA d m) (f.loadB d m) (f.loadD d m)
  let table := ((List.range f.dRows).map (fun i => (res i).toArray)).toArray
  fun t => d.writeTile f.y t.1 t.2 f.out f.int8s {
    vr := part f.dRows t.1, vc := part f.cols t.2
    val := fun a b => f32.dec ((table.getD (128 * t.1 + a) #[]).getD (128 * t.2 + b) 0)
    rnd := fun a b => outRnd f.out e.seed.toNat f.tensor ((128 * t.1 + a) * f.cols + 128 * t.2 + b) }

/-- The stores of a FINISH. -/
def FinishRun.writes (f : FinishRun) (d : Dev) (m : Memory) (e : Entry) : List MemOp := (f.tiles d m).flatMap (f.write d m e)

/-- What a FINISH asks of the DEEP meters (R249). -/
def FinishRun.needs (f : FinishRun) (d : Dev) (m : Memory) : List (Nat × Nat) :=
  d.deepNeeds ((f.a :: f.b.toList).flatMap (d.gridReads m) ++ (if f.mode = 3 then [(f.idx, 4 * f.rows)] else []) ++
      (if f.fn = 0x18 then d.gridReads m f.y else []))
    ((f.tiles d m).map (fun t => (f.y.tileAt t.1 t.2, f.y.slot)))

/-- FINISH (R136 to R139). LD_CNT_FIN of a SCATTER_ADD counts the valid elements of every tile of D it writes (DESIGN CHOICE,
notes/assumptions/55.md). -/
def execFinish (r : RingNo) (count : W32) (s : State) : Host.Outcome State Fault Refusal :=
  let d := s.dev
  match d.op r.val count 0x14 with
  | none => answer s d
  | some e =>
    match d.finishPlan s.mem r.val e with
    | .error x => failOut s r.val e x.1 x.2
    | .ok f =>
      let ins := f.a :: f.b.toList
      begun s r.val e (d.mustWait e ins [f.y]) (f.needs d s.mem) (fun s =>
        let d := s.dev
        let aa := f.loadA d s.mem
        let ba := f.loadB d s.mem
        let da := f.loadD d s.mem
        let tiles := f.tiles d s.mem
        let badA := (aa.toList ++ ba.toList ++ da.toList).any (fun t => t.bad)
        let write := f.write d s.mem e
        if badA then
          -- a malformed ORE tile: outputs it feeds are untouched; with row functions and indices any output may be fed
          let off := if aa.toList.any (fun t => t.bad) then 16 else if ba.toList.any (fun t => t.bad) then 24 else 32
          let fed := fun (t : Nat × Nat) => Nat.blt 0x0D f.fn || (gridTile aa f.a t.1 t.2).bad ||
            (match f.b with | some g => (gridTile ba g (if f.mode = 2 then 0 else t.1) t.2).bad | none => false)
          let writes := tiles.zipIdx.flatMap (fun (t, n) =>
            if fed t || !(Config.freeValue (d.draws + n)).getLsbD 0 then [] else write t)
          answerMem s (({ d with draws := d.draws + tiles.length }).endOp r.val e (Result.fail stIndexFault off), writes)
        else
          let streamed := d.streamed ins
          let deep := (ins.map (fun g => d.gridDeep s.mem g)).sum + (if f.mode = 3 then d.deepBytes f.idx (4 * f.rows) else 0) +
            (if f.fn = 0x18 then d.gridDeep s.mem f.y else 0) + (tiles.map (fun t => d.deepBytes (f.y.tileAt t.1 t.2) f.y.slot)).sum
          let d' := { d with draws := if f.fn = 0x18 then d.draws + f.rows else d.draws }
          let d' := tiles.foldl (fun d t =>
            let n := part f.dRows t.1 * part f.cols t.2
            let die := d.dieAt (f.y.tileAt t.1 t.2)
            let d := d.count die 0x340 n
            if f.out.rnd = 0 then d else d.count die 0x348 n) (d'.countStreamed ins)
          let d' := ins.foldl (fun d g => d.engineRead g.base (g.tiles * g.slot)) d'
          let d' := if f.mode = 3 then d'.engineRead f.idx (4 * f.rows) else d'
          let d' := if f.fn = 0x18 then d'.engineRead f.y.base (f.y.tiles * f.y.slot) else d'.engineWrite f.y.base (f.y.tiles * f.y.slot)
          answerMem s (d'.endOp r.val e { Result.ok with
              deep := deep, status := if streamed ≠ 0 then stStreamed else stOk, reason := sat16 streamed },
            f.writes d s.mem e))

/-! ## RNG_FILL (R140, R360) -/

/-- UNIFORM of a word: P0 + (P1 − P0) × u in binary64. -/
def uniformVal (p0 p1 word : Nat) : Val :=
  let a := f32.dec p0
  let span := f64.round ((f32.dec p1).add a.negate)
  f64.round (a.add (f64.round (span.mul (.fin false (word / 256) (-24)))))

/-- NORMAL of two words: P0 + P1 × the standard draw, in binary64. -/
def normalVal (p0 p1 w0 w1 : Nat) : Val :=
  let z := normalDraw (w0 / 256 + 1) (w1 / 256)
  f64.round ((f32.dec p0).add (f64.round ((f32.dec p1).mul z)))

/-- A tile of binary32 codes written as they are. -/
def rawTile (vr vc : Nat) (code : Nat → Nat → Nat) (axis : Bool) (index obj : Nat) : List Byte :=
  let at' := fun n => if n / 128 < vr && n % 128 < vc then code (n / 128) (n % 128) else 0
  let fields := (List.range (vr * vc)).map (fun k => code (k / max vc 1) (k % max vc 1) / 2 ^ 23 % 256)
  let h : Hdr := { sound := true, fmt := 6, codec := 0, sparse := 0, axis := axis, vr := vr, vc := vc,
                   ceil := (fields.filter (· != 255)).foldl max 1, stored := denseBody 6, index := index, obj := obj, aux := 0 }
  h.bytes ++ packCodes 6 at'

/-- The lane numbers λ of a claim: 64 × die + logical lane. -/
def Dev.lambdas (d : Dev) (c : Nat) : List Nat := (d.workDies c).flatMap (fun e => e.2.map (fun l => 64 * e.1 + l))

/-- Word `k` of a lane's stream: block k / 4 under its own stream number, or its own tensor ID (R360). -/
def laneWord (e : Entry) (lane k : Nat) : Nat :=
  let offset := bit (fld e.desc 39 1) 6
  let b := philox e.seed.toNat (k / 4) ((fld e.desc 28 4 + (if offset then lane else 0)) % 2 ^ 32)
    ((fld e.desc 24 4 + (if offset then 0 else lane)) % 2 ^ 32)
  match k % 4 with | 0 => b.1 | 1 => b.2.1 | 2 => b.2.2.1 | _ => b.2.2.2

/-- The words of `n` elements in lane-keyed mode: which lane writes an element is open, and each lane gives its words in order, `per` to
an element (R140, R360). -/
def Dev.laneWords (d : Dev) (e : Entry) (lanes : List Nat) (per n : Nat) : Array (Nat × Nat) :=
  ((List.range n).foldl (fun (a : Array (Nat × Nat) × Tbl Nat) i =>
    let lane := nth lanes ((Config.freeValue (d.draws + i)).toNat % lanes.length) 0
    let k := Tbl.lookD a.2 lane 0
    (a.1.push (laneWord e lane k, if per = 2 then laneWord e lane (k + 1) else 0), Tbl.put a.2 lane (k + per))) (#[], [])).1

/-- The two words of each of `n` elements of an RNG_FILL: of its own block, or of some lane's stream. -/
def Dev.rngWords (d : Dev) (r : Nat) (e : Entry) (n : Nat) : Nat → Nat × Nat :=
  if bit (fld e.desc 39 1) 7 then
    let a := d.laneWords e (d.lambdas (d.claimOf r)) (if bits (fld e.desc 39 1) 5 4 = 1 then 2 else 1) n
    fun i => a.getD i (0, 0)
  else fun i => let b := philox e.seed.toNat i (fld e.desc 28 4) (fld e.desc 24 4); (b.1, b.2.1)

/-- The stores of an RNG_FILL into its output tensor. -/
def Dev.rngWrites (d : Dev) (r : Nat) (e : Entry) (dg : Grid) : List MemOp :=
  let x := e.desc
  let tensor := fld x 28 4
  let rows := fld x 32 3
  let cols := fld x 35 3
  let out := outCtl (fld x 38 1)
  let dist := bits (fld x 39 1) 5 4
  let p0 := fld x 48 4
  let p1 := fld x 52 4
  let words := d.rngWords r e (rows * cols)
  let val := fun (i : Nat) => let w := words i; if dist = 1 then normalVal p0 p1 w.1 w.2 else uniformVal p0 p1 w.1
  (List.range dg.tiles).flatMap (fun k =>
    let t := (k / dg.tc, k % dg.tc)
    let a := dg.tileAt t.1 t.2
    let n := d.tileName a dg.slot
    let index := fun p q => (128 * t.1 + p) * cols + 128 * t.2 + q
    if dist = 2 then d.writeDev a (rawTile (part rows t.1) (part cols t.2) (fun p q => (words (index p q)).1) out.axis n.2 n.1)
    else d.writeTile dg t.1 t.2 out (fld x 40 1) {
           vr := part rows t.1, vc := part cols t.2
           val := fun p q => val (index p q)
           rnd := fun p q => outRnd out e.seed.toNat tensor (index p q) })

/-- RNG_FILL (R140, R360): element-keyed draws come from each element's own block; in lane-keyed mode which lane writes an element is
open. -/
def execRngFill (r : RingNo) (count : W32) (s : State) : Host.Outcome State Fault Refusal :=
  let d := s.dev
  match d.op r.val count 0x15 with
  | none => answer s d
  | some e =>
    let x := e.desc
    let stream := fld x 24 4
    let rows := fld x 32 3
    let cols := fld x 35 3
    let out := outCtl (fld x 38 1)
    let g := fld x 39 1
    let keyed := bit g 7
    let dist := bits g 5 4
    match settled (d.outputGrid r.val e 16 rows cols out.fmt) with
    | .error w => failOut s r.val e w []
    | .ok dg =>
      let taken := keyed && !bit g 6 && (d.lambdas (d.claimOf r.val)).any (fun l => (stream + l) % 2 ^ 32 == 0xFFFFFFFF)
      if stream = 0xFFFFFFFF || taken then failOut s r.val e (Result.fail stOperandRefused 24) []
      else if dist = 2 && out.fmt != 6 then failOut s r.val e (Result.fail stOperandRefused 38) []
      else begun s r.val e (d.mustWait e [] [dg]) (d.deepNeeds [] (d.gridSlots dg)) (fun s =>
        let d := s.dev
        let tiles := (List.range dg.tiles).map (fun t => (t / dg.tc, t % dg.tc))
        let blocks := fun n => if keyed then ceilDiv n (if dist = 1 then 2 else 4) else n
        let d' := { d with draws := if keyed then d.draws + rows * cols else d.draws }
        let d' := tiles.foldl (fun d t =>
          let n := part rows t.1 * part cols t.2
          d.count (d.dieAt (dg.tileAt t.1 t.2)) 0x348 (blocks n + (if out.rnd = 0 then 0 else n))) d'
        answerMem s ((d'.engineWrite dg.base (dg.tiles * dg.slot)).endOp r.val e { Result.ok with deep := d.gridDeepOut dg },
          d.rngWrites r.val e dg))

end Sys2Proof.Machine
end

