-- ==== Sys2Proof/Machine/Hoist.lean ====
section
/-!
DEFINITION. The hoist family: object commands, moves between the tiers, the engine's own decisions, and scrub (chapter 10).
-/
namespace Sys2Proof.Machine

/-! ## Units in motion -/

/-- A started op still has moves that have not committed. -/
def Dev.opMoving (d : Dev) (r : Nat) (c : W32) : Bool := d.objects.any (fun e => e.2.moves.any (fun v => v.op == some (r, c)))

/-- Stored bytes of a unit: 65,536 of a FLAT one, a tile's header and stored body (R220). -/
def Obj.stored (o : Obj) (data : List Byte) : Nat :=
  if o.flat then 65536 else min o.unitSize (64 + (hdrOf (data.take 64)).stored)

/-- The contents of a unit. -/
def Obj.unitData (o : Obj) (m : Memory) (i : Nat) : List Byte := m.read (o.key i 0) o.unitSize

/-- What a unit holds after a move: a dense RAW tile of a CODE_DEEP object is coded on its way to the deep tier (R227). -/
def Obj.arrival (o : Obj) (toNear : Bool) (data : List Byte) : List Byte :=
  if toNear || o.flat || !o.codeDeep then data
  else
    let h := hdrOf (data.take 64)
    if h.codec = 0 && h.passes (data.take 64) anyFmt false && 64 + h.stored ≤ o.unitSize then
      let c := oreBytes h ((data.drop 64).take h.stored)
      c ++ data.drop c.length
    else data

/-- The move of a unit commits: the new home becomes the only home, and the writes that waited land there (R218). Answers the bytes moved on
the deep tier too. -/
def Dev.commitMove (d : Dev) (m : Memory) (n : Nat) (o : Obj) (v : Move) : Dev × List MemOp × Nat :=
  let data := o.unitData m v.unit
  let new := o.arrival v.toNear data
  let at' := o.base + v.unit * o.unitSize
  let mine := fun (x : Nat × List Byte) => Nat.ble at' x.1 && Nat.blt x.1 (at' + o.unitSize)
  let o' : Obj := { o with
    near := if v.toNear then rangesAdd o.near v.unit (v.unit + 1) else rangesDel o.near v.unit (v.unit + 1)
    moves := o.moves.filter (fun w => w.unit != v.unit), held := o.held.filter (fun x => !mine x) }
  let d := (d.setObj n o').count (o.unitDie v.unit) (if v.toNear then 0x510 else 0x518) 1
  let drop := if v.toNear then [] else [MemOp.clear (o.key v.unit 0) (o.key v.unit 0 + o.unitSize)]
  (d, drop ++ [.bytes (o'.key v.unit 0) new] ++ (o.held.filter mine).map (fun x => .bytes (o'.key v.unit (x.1 - at')) x.2),
    if v.toNear then o.stored data else o.stored new)

/-- A started op of the hoist has no move left: it ends with the bytes its moves counted (R220, R222). -/
def Dev.endMoves (d : Dev) (r : Nat) (c : W32) : Dev :=
  if d.opMoving r c then d
  else match d.entry r c with
    | some e =>
      let d := { d with objects := Tbl.mapAll d.objects (fun _ o =>
        match o.placing with
        | some (r', c', _) => if r' == r && c' == c then { o with placing := none } else o
        | none => o) }
      if e.phase == .started then d.endOp r e e.res e.res.deep else d
    | none => d

/-! ## The turns of an op's moves (R221, R249) -/

/-- The move an op makes next on a die, with its object: the first in its order, where none of them is under way. -/
def Dev.nextMove (d : Dev) (op : Nat × W32) (die : Nat) : Option (Nat × Obj × Move) :=
  let l := d.objects.flatMap (fun e => (e.2.moves.filter (fun v => v.op == some op && e.2.unitDie v.unit == die)).map (fun v => (e.1, e.2, v)))
  if l.any (fun x => x.2.2.begun) then none
  else l.foldl (fun b x => match b with | none => some x | some y => if x.2.2.ord < y.2.2.ord then some x else some y) none

/-- A move that is dropped. -/
def Obj.dropMove (o : Obj) (u : Nat) : Obj := { o with moves := o.moves.filter (fun w => w.unit != u) }

/-- What a move charges: its HOIST units, and those of its DEEP meter (R249). -/
def Obj.moveCost (o : Obj) (m : Memory) (u : Nat) (toNear : Bool) : Nat × Nat :=
  let data := o.unitData m u
  let k := o.stored (o.arrival toNear data)
  (ceilDiv k 64, deepCharge (o.deepPos u) k (!toNear))

/-- The next move of an op on a die has its turn: one against the policy then in force is skipped, another asks at its die's HOIST meter
(R221, R251). The fuel is the number of moves. -/
def Dev.turnMoves (m : Memory) : Nat → Dev → Nat × W32 → Nat → Dev
  | 0, d, _, _ => d
  | fuel + 1, d, op, die =>
    match d.nextMove op die with
    | none => d
    | some (n, o, v) =>
      if o.against v then Dev.turnMoves m fuel (d.setObj n (o.dropMove v.unit)) op die
      else
        let k := o.moveCost m v.unit v.toNear
        d.ask { meter := 16 + die, claim := o.claim, units := k.1, deep := k.2, what := .move n v.unit }

/-- The moves of an op have their turns on every die; with none left the op ends. -/
def Dev.turnOp (d : Dev) (m : Memory) (op : Nat × W32) : Dev :=
  let fuel := (d.objects.map (fun e => e.2.moves.length)).sum
  ((List.range 4).foldl (fun d n => Dev.turnMoves m fuel d op n) d).endMoves op.1 op.2

/-- The ops that have moves. -/
def Dev.movers (d : Dev) : List (Nat × W32) := (d.objects.flatMap (fun e => e.2.moves.filterMap (fun v => v.op))).eraseDups

/-- MOVE_COMMIT (R218): the unit's move commits, and the next of its op on that die has its turn; one that takes chunks of displaced units
waits for them. -/
def execMoveCommit (n : Fin 262144) (unit : Nat) (s : State) : Host.Outcome State Fault Refusal :=
  let d := s.dev
  match d.obj n.val with
  | none => answer s d
  | some o =>
    match o.moves.find? (fun v => v.unit == unit && v.begun) with
    | none => answer s d
    | some v =>
      let held := v.toNear && d.objects.any (fun e => e.2.claim == o.claim &&
        e.2.moves.any (fun w => w.evict && w.op == v.op && e.2.unitDie w.unit == o.unitDie unit))
      if held then answer s d
      else
        let x := d.commitMove s.mem n.val o v
        match v.op with
        | some (r, c) =>
          let d' := x.1.modEntry r c (fun e => if e.phase == .started then { e with res := { e.res with deep := e.res.deep + x.2.2 } } else e)
          answerMem s (d'.turnOp (s.mem.applyAll x.2.1) (r, c), x.2.1)
        | none => answerMem s (x.1.account o.claim 0 x.2.2 0 x.2.2, x.2.1)

/-! ## Coldness and reservation (R221, R225) -/

/-- A unit of an AUTO object with its heat. -/
structure WarmUnit where
  heat : Nat
  obj : Nat
  unit : Nat
  chunks : Nat
  claim : Nat
  deriving DecidableEq, Repr

/-- Candidate order: descending heat, then ascending object, then ascending unit. -/
def hotter (a b : WarmUnit) : Bool :=
  decide (b.heat < a.heat) || (a.heat == b.heat && (decide (a.obj < b.obj) || (a.obj == b.obj && decide (a.unit < b.unit))))

/-- A move of the unit is under way, or has its turn to come. -/
def Obj.toMove (o : Obj) (i : Nat) : Bool := o.moves.any (fun v => v.unit == i)

/-- The near-homed units of AUTO objects on a die that no move is to take, coldest first. -/
def Dev.nearAuto (d : Dev) (n : Nat) : List WarmUnit :=
  let units := d.objects.flatMap (fun e =>
    if e.2.placement == 2 && e.2.st == .ready then
      (e.2.near.flatMap (fun r => (List.range (r.2 - r.1)).map (r.1 + ·))).filterMap (fun i =>
        if e.2.unitDie i == n && !e.2.toMove i then
          some (⟨(d.die n).heatOf e.1 i, e.1, i, e.2.chunks, e.2.claim⟩ : WarmUnit)
        else none)
    else [])
  sortBy (fun a b => hotter b a) units

/-- Free near chunks of a claim on a die. -/
def Dev.nearLeft (d : Dev) (c n : Nat) : Nat := ((d.claim c).near |> fun t => (Tbl.lookD t n (0 : BitVec 20)).toNat) - d.claimNear c n

/-- The coldest units that free at least `k` chunks; none where there are not enough. -/
def takeChunks : Nat → List WarmUnit → Option (List WarmUnit)
  | 0, _ => some []
  | _ + 1, [] => none
  | k + 1, u :: t => (takeChunks (k + 1 - u.chunks) t).map (u :: ·)

/-- The units to displace on one die so that `units` of object `n` fit near. -/
def Dev.displace (d : Dev) (n : Nat) (o : Obj) (units : List Nat) (named : Nat → Bool) (die : Nat) : Option (List WarmUnit) :=
  let need := (units.countP (fun i => o.unitDie i == die)) * o.chunks
  takeChunks (need - d.nearLeft o.claim die)
    ((d.nearAuto die).filter (fun u => u.claim == o.claim && !(u.obj == n && named u.unit)))

/-- A move joins those of its object. -/
def Dev.addMove (d : Dev) (n : Nat) (v : Move) : Dev :=
  match d.obj n with | some o => d.setObj n { o with moves := o.moves ++ [v] } | none => d

/-- The moves of an op in their order: units it displaces, coldest first, then its own units ascending. -/
def Dev.orderMoves (d : Dev) (n : Nat) (out : List WarmUnit) (units : List Nat) (toNear : Bool) (op : Nat × W32) : Dev :=
  let d := out.zipIdx.foldl (fun d u => d.addMove u.1.obj { unit := u.1.unit, toNear := false, begun := false, ord := u.2, op := some op, evict := true }) d
  units.zipIdx.foldl (fun d u => d.addMove n { unit := u.1, toNear := toNear, begun := false, ord := out.length + u.2, op := some op, evict := false }) d

/-- Reserve near chunks on every die and put the moves in order; none where the chunks cannot be reserved (R221). -/
def Dev.hoistUnits (d : Dev) (n : Nat) (o : Obj) (units : List Nat) (named : Nat → Bool) (op : Nat × W32) : Option Dev :=
  let plans := o.dieList.map (d.displace n o units named)
  if plans.any (·.isNone) then none else some (d.orderMoves n (plans.flatMap (fun p => p.getD [])) units true op)

/-! ## HOIST, SETTLE and PLACE -/

/-- HOIST and SETTLE: the checks of R220, then the moves; the op ends at the last commit. -/
def runMoves (s : State) (r : RingNo) (count : W32) (opcode : Nat) : Host.Outcome State Fault Refusal :=
  let d := s.dev
  match d.op r.val count opcode with
  | none => answer s d
  | some e =>
    if d.opMoving r.val count then answer s (d.turnOp s.mem (r.val, count))
    else if !d.isRunning .hoist then failOp s r.val e (Result.fail stOperandRefused 0)
    else match d.place r.val e 16 1 1 with
      | .error w => failOp s r.val e w
      | .ok p =>
        let lo := (p.addr - p.obj.base) / p.obj.unitSize
        let hi := lo + fld e.desc 24 4
        let near := opcode == 0x30
        if (p.addr - p.obj.base) % p.obj.unitSize ≠ 0 then failOp s r.val e (Result.fail stAddrFault 16)
        else if p.obj.units < hi then failOp s r.val e (Result.fail stAddrFault 24)
        else if p.obj.isLost then failOp s r.val e (Result.fail stDataLost 16)
        else if p.obj.placement == (if near then 1 else 0) then failOp s r.val e (Result.fail stOperandRefused 16)
        else if p.obj.moves.any (fun v => Nat.ble lo v.unit && Nat.blt v.unit hi) then answer s d
        else
          let d := d.take r.val count
          let units := ((List.range (hi - lo)).map (lo + ·)).filter (fun i => p.obj.isNear i != near)
          let moved := if near then d.hoistUnits p.num p.obj units (fun i => Nat.ble lo i && Nat.blt i hi) (r.val, count)
                       else some (d.orderMoves p.num [] units false (r.val, count))
          match moved with
          | none => failOp s r.val e (Result.fail stOperandRefused 16)
          | some d' => answer s (d'.turnOp s.mem (r.val, count))

/-- HOIST (R220, R221). -/
def execHoist (r : RingNo) (count : W32) (s : State) : Host.Outcome State Fault Refusal := runMoves s r count 0x30

/-- SETTLE (R220, R221). -/
def execSettle (r : RingNo) (count : W32) (s : State) : Host.Outcome State Fault Refusal := runMoves s r count 0x31

/-- PLACE (R222): the new policy is in force from the start; when the moves already started have committed, every unit moves to the home
the new PLACEMENT demands. Where chunks cannot be reserved the old policy is restored. -/
def execPlace (r : RingNo) (count : W32) (s : State) : Host.Outcome State Fault Refusal :=
  let d := s.dev
  match d.op r.val count 0x32 with
  | none => answer s d
  | some e =>
    let n := bits (fld e.desc 16 4) 17 0
    let mine := fun o : Obj => match o.placing with | some (r', c', _) => r' == r.val && c' == count | none => false
    match (d.obj n).filter (fun o => o.usable e && o.claim == d.claimOf r.val) with
    | none =>
      if d.isRunning .hoist then failOp s r.val e (Result.fail stAddrFault 16) else failOp s r.val e (Result.fail stOperandRefused 0)
    | some o =>
      if !d.isRunning .hoist && !mine o then failOp s r.val e (Result.fail stOperandRefused 0)
      else if d.opMoving r.val count then answer s (d.turnOp s.mem (r.val, count))
      else if o.isLost then failOp s r.val e (Result.fail stDataLost 16)
      else if o.placing.isSome && !mine o then answer s d
      else
        let p := fld e.desc 20 1
        let old := match o.placing with | some (_, _, x) => x | none => (o.placement, o.reroute, o.codeDeep)
        let o1 : Obj := { o with placement := bits p 7 6, reroute := bit p 5, codeDeep := bit p 4, placing := some (r.val, count, old) }
        let d1 := (o1.moves.filterMap (fun v => v.op)).eraseDups.foldl (fun d op => d.turnOp s.mem op) ((d.take r.val count).setObj n o1)
        match (d1.obj n).filter (fun o => o.moves.isEmpty) with
        | none => answer s d1
        | some o1 =>
          let all := List.range o1.units
          let moved := match o1.placement with
            | 0 => d1.hoistUnits n o1 (all.filter (fun i => !o1.isNear i)) (fun _ => true) (r.val, count)
            | 1 => some (d1.orderMoves n [] (all.filter o1.isNear) false (r.val, count))
            | _ => some d1
          match moved with
          | some d' => answer s (d'.turnOp s.mem (r.val, count))
          | none => failOp { s with dev := d1.setObj n { o1 with placement := old.1, reroute := old.2.1, codeDeep := old.2.2, placing := none } }
              r.val e (Result.fail stOperandRefused 20)

/-! ## COPY (R223) -/

/-- One tile as COPY writes it, and whether its stream is malformed. -/
def copyTile (codec : Nat) (data : List Byte) (index obj : Nat) : List Byte × Bool :=
  let h := { hdrOf (data.take 64) with index := index, obj := obj }
  let body := (data.drop 64).take h.stored
  let bad := h.codec == 1 && codec != 2 && (loadTile h body 128 128).bad
  let tile := if h.sparse != 0 || codec == 0 then h.bytes ++ body
              else if codec == 1 then rawBytes h body
              else if h.codec == 0 then oreBytes h body else h.bytes ++ body
  (tile, bad)

/-- The tiles of the source. -/
def Dev.copyIn (d : Dev) (m : Memory) (src : Place) (n : Nat) : List (List Byte) :=
  (List.range n).map (fun k => d.readDev m (src.addr + k * src.obj.unitSize) src.obj.unitSize)

/-- The tiles as they are written, and which of them are malformed. -/
def Dev.copyOut (d : Dev) (m : Memory) (src dst : Place) (n codec : Nat) : List (List Byte × Bool) :=
  (d.copyIn m src n).zipIdx.map (fun (b, k) => copyTile codec b ((dst.addr - dst.obj.base) / src.obj.unitSize + k) dst.num)

/-- The stores of a COPY of tiles. -/
def Dev.copyWrites (d : Dev) (m : Memory) (src dst : Place) (n codec : Nat) : List MemOp :=
  (d.copyOut m src dst n codec).zipIdx.flatMap (fun (x, k) => d.writeDev (dst.addr + k * src.obj.unitSize) (x.1.take src.obj.unitSize))

/-- COPY of tiles, its checks past. -/
def copyTiles (s : State) (r : Nat) (e : Entry) (src dst : Place) (n codec : Nat) : Host.Outcome State Fault Refusal :=
  let d := s.dev
  let u := src.obj.unitSize
  let tiles := d.copyIn s.mem src n
  let out := d.copyOut s.mem src dst n codec
  let d' := (d.countStreamed [span 16 src.addr (n * u)]).engineRead src.addr (n * u)
  if out.any (fun x => x.2) then
    let writes := out.zipIdx.flatMap (fun (x, k) =>
      if x.2 || !(Config.freeValue (d.draws + k)).getLsbD 0 then [] else d.writeDev (dst.addr + k * u) (x.1.take u))
    answerMem s (({ d' with draws := d'.draws + n }).endOp r e (Result.fail stIndexFault 16), writes)
  else
    let read := (tiles.map (fun b => min u (64 + (hdrOf (b.take 64)).stored))).sum
    let deep := (tiles.zipIdx.map (fun (b, k) => d.deepBytes (src.addr + k * u) (min u (64 + (hdrOf (b.take 64)).stored)))).sum +
      (out.zipIdx.map (fun (x, k) => d.deepBytes (dst.addr + k * u) (min u x.1.length))).sum
    answerMem s ((d'.engineWrite dst.addr (n * u)).endOp r e { Result.ok with deep := deep } read, d.copyWrites s.mem src dst n codec)

/-- What a COPY asks of the meters: the bytes it reads of each die's HOIST meter, and the deep lines of both sides (R249). -/
def Dev.copyNeeds (d : Dev) (reads : List (Nat × Nat)) (dst : Nat × Nat) : List (Nat × Nat) :=
  let onDie := fun (n : Nat) => (reads.map (fun x => ((d.cut x.1 x.2).map (fun (_, o, a, k) => ((List.range (o.unitsIn a k).2).map (fun j =>
    let i := (o.unitsIn a k).1 + j
    if o.unitDie i == n then min (a + k) (o.base + (i + 1) * o.unitSize) - max a (o.base + i * o.unitSize) else 0)).sum)).sum)).sum
  d.deepNeeds reads [dst] ++ (List.range 4).map (fun n => (16 + n, ceilDiv (onDie n) 64))

/-- What a COPY is refused with, in the order of R223. -/
def Dev.copyRefusal (d : Dev) (m : Memory) (e : Entry) (p q : Place) (n : Nat) : Option Result :=
  let len := fld e.desc 32 8
  let u := p.obj.unitSize
  if (span 16 p.addr n).overlaps (span 24 q.addr n) then some (Result.fail stOperandRefused 24)
  else if bit (fld e.desc 40 1) 7 then
    if p.obj.flat || q.obj.flat || p.obj.slotFmt != q.obj.slotFmt then some (Result.fail stOperandRefused 16)
    else if (p.addr - p.obj.base) % u != 0 then some (Result.fail stAddrFault 16)
    else if (q.addr - q.obj.base) % u != 0 then some (Result.fail stAddrFault 24)
    else if (d.copyIn m p len).any (fun b => !(hdrOf (b.take 64)).passes (b.take 64) anyFmt true) then some (Result.fail stOperandRefused 16)
    else none
  else if p.addr % 64 != 0 then some (Result.fail stAddrFault 16)
  else if q.addr % 64 != 0 then some (Result.fail stAddrFault 24)
  else if len % 64 != 0 then some (Result.fail stAddrFault 32)
  else none

/-- COPY (R223). A LOST source leaves what the op writes undefined (R234). -/
def execCopy (r : RingNo) (count : W32) (s : State) : Host.Outcome State Fault Refusal :=
  let d := s.dev
  match d.op r.val count 0x33 with
  | none => answer s d
  | some e =>
    let len := fld e.desc 32 8
    let tiled := bit (fld e.desc 40 1) 7
    if !d.isRunning .hoist then failOp s r.val e (Result.fail stOperandRefused 0)
    else
      let unit := match d.place r.val e 16 1 1 with | .ok p => p.obj.unitSize | .error _ => 1
      let n := if tiled then len * unit else len
      match d.place r.val e 16 n 1, d.place r.val e 24 n 1 with
      | .error w, _ => failOp s r.val e w
      | _, .error w => failOp s r.val e w
      | .ok p, .ok q =>
        if p.obj.isLost then failOut s r.val e (Result.fail stDataLost 16) (if q.obj.isLost then [] else [(q.addr, n)])
        else if q.obj.isLost then failOp s r.val e (Result.fail stDataLost 24)
        else match d.copyRefusal s.mem e p q n with
          | some w => failOp s r.val e w
          | none =>
            if d.mustWait e [span 16 p.addr n] [span 24 q.addr n] then answer s d
            else
              let reads := if tiled then (d.copyIn s.mem p len).zipIdx.map (fun (b, k) =>
                (p.addr + k * unit, min unit (64 + (hdrOf (b.take 64)).stored))) else [(p.addr, n)]
              metered s r.val count (d.copyNeeds reads (q.addr, n)) (fun s =>
                if tiled then copyTiles s r.val e p q len (bits (fld e.desc 40 1) 6 5)
                else
                  let d := s.dev
                  let deep := d.deepBytes p.addr n + d.deepBytes q.addr n
                  answerMem s ((((d.countStreamed [span 16 p.addr n]).engineRead p.addr n).engineWrite q.addr n).endOp r.val e
                    { Result.ok with deep := deep } n, d.writeDev q.addr (d.readDev s.mem p.addr n)))

/-! ## Object commands (R212, R215, R216, R237) -/

/-- The object that a staged entry describes. -/
def objOf (x : BitVec 512) : Obj :=
  let p := fld x 18 1
  { base := bits (fld x 0 8) 41 0, len := bits (fld x 8 8) 41 0, flat := bit (fld x 16 1) 7, slotFmt := bits (fld x 16 1) 3 0,
    claim := bits (fld x 17 1) 4 0, placement := bits p 7 6, reroute := bit p 5, codeDeep := bit p 4, zero := bit p 3,
    dies := BitVec.ofNat 4 (fld x 19 1), deepOff := (List.range 4).map (fun k => bits (fld x (24 + 8 * k) 8) 39 0), st := .creating,
    near := [], lostUnits := [], lostDies := 0, dyingSeq := 0, readySeq := 0, moves := [], held := [], placing := none, doomed := false }

/-- The entry that QUERY returns. -/
def Obj.entry (o : Obj) : BitVec 512 :=
  BitVec.ofNat 512 (o.base + o.len * 2 ^ 64 + (b2n o.flat * 128 + o.slotFmt) * 2 ^ 128 + o.claim * 2 ^ 136 +
    (o.placement * 64 + b2n o.reroute * 32 + b2n o.codeDeep * 16 + b2n o.zero * 8) * 2 ^ 144 + o.dies.toNat * 2 ^ 152 +
    ((List.range 4).map (fun k => nth o.deepOff k 0 * 2 ^ (192 + 64 * k))).sum)

/-- Reserved bits of a staged entry are 0, PLACEMENT is used, KIND and SLOT_FMT agree. -/
def entryOk (x : BitVec 512) : Bool :=
  let o := objOf x
  bits (fld x 0 8) 63 42 == 0 && bits (fld x 8 8) 63 42 == 0 && bits (fld x 16 1) 6 4 == 0 && bits (fld x 17 1) 7 5 == 0 &&
    bits (fld x 18 1) 2 0 == 0 && bits (fld x 19 1) 7 4 == 0 && fld x 20 4 == 0 && fld x 56 8 == 0 &&
    (List.range 4).all (fun k => bits (fld x (24 + 8 * k) 8) 63 40 == 0) && o.placement != 3 &&
    (if o.flat then o.slotFmt == 0 else Nat.ble 1 o.slotFmt && Nat.ble o.slotFmt 6)

/-- Units on a die, and the deep range they take there. -/
def Obj.unitsOn (o : Obj) (n : Nat) : Nat :=
  let c := o.dieList.length
  let pos := o.dieList.idxOf n
  if o.dieList.contains n then (o.units + c - 1 - pos) / c else 0

def Obj.deepRange (o : Obj) (n : Nat) : Nat × Nat := (nth o.deepOff n 0, nth o.deepOff n 0 + o.unitsOn n * o.unitSize)

/-- Two half-open ranges meet. -/
def meets (a b : Nat × Nat) : Bool := decide (a.1 < b.2) && decide (b.1 < a.2) && decide (a.1 < a.2) && decide (b.1 < b.2)

/-- The checks of CREATE, in order (R215). -/
def Dev.createReason (d : Dev) (n : Nat) (x : BitVec 512) : Nat :=
  let o := objOf x
  let contained := fun k => (d.die k).contained
  let held := d.objects.filter (fun e => e.2.st != .free)
  if !d.isRunning .hoist || !d.isRunning (claimBlock o.claim) || o.dieList.any (fun k => !contained k && !d.isRunning (dieBlock k)) then
    0x18F6
  else if (d.obj n).isSome then 0x1801
  else if !entryOk x then 0x1803
  else if o.dies == 0 || (List.range 4).any (fun k => !o.dies.getLsbD k && nth o.deepOff k 0 != 0) then 0x1804
  else if o.len == 0 || o.len % o.unitSize != 0 || Nat.blt Config.deviceEnd (o.base + o.len) ||
      o.dieList.any (fun k => Nat.blt Config.deepEnd (o.deepRange k).2) then 0x18F3
  else if o.base % 64 != 0 || o.deepOff.any (fun f => f % 512 != 0) then 0x18F4
  else if o.dieList.any contained then 0x18F7
  else if held.any (fun e => meets (o.base, o.base + o.len) (e.2.base, e.2.base + e.2.len) ||
      (List.range 4).any (fun k => meets (o.deepRange k) (e.2.deepRange k))) then 0x18F5
  else if o.placement == 0 && o.dieList.any (fun k => Nat.blt (d.nearLeft o.claim k) (o.unitsOn k * o.chunks)) then 0x1805
  else 0

/-- An object command ends with a reason. -/
def Dev.objResult (d : Dev) (reason : Nat) : Dev := { d with hoist := { d.hoist with reason := reason16 reason } }

/-- OBJ_CREATE (R215); ZERO_ON_CREATE forces ZERO (R404). -/
def Dev.objCreate (d : Dev) : Dev :=
  let n := d.hoist.sel.toNat
  let why := d.createReason n d.hoist.entry
  if why = 0 then
    let o := objOf d.hoist.entry
    (d.setObj n { o with zero := o.zero || d.store.isolation.getLsbD 0, near := if o.placement = 0 then [(0, o.units)] else [] }).objResult 0
  else d.objResult why

/-- OBJ_DESTROY (R216). -/
def Dev.objDestroy (d : Dev) : Dev :=
  if !d.isRunning .hoist then d.objResult 0x18F6
  else match d.obj d.hoist.sel.toNat with
    | none => d.objResult 0x1802
    | some o => if o.st == .creating then d.objResult 0x1806 else (d.destroyObj d.hoist.sel.toNat).objResult 0

/-- Lost units of an object, those of contained dies among them (R234). -/
def Obj.lostCount (o : Obj) : Nat :=
  ((List.range 4).map (fun n => if o.lostDies.getLsbD n then o.unitsOn n else 0)).sum +
    (o.lostUnits.map (fun r => ((List.range (r.2 - r.1)).filter (fun i => !o.lostDies.getLsbD (o.unitDie (r.1 + i)))).length)).sum

/-- OBJ_QUERY (R212, Table 10.10): the entry and the counts of the selected object; zeros for a FREE one. -/
def Dev.objQuery (d : Dev) : Dev :=
  if !d.isRunning .hoist then d.objResult 0x18F6
  else match d.obj d.hoist.sel.toNat with
    | none => { d with hoist := { d.hoist with entry := 0, infoLost := 0, infoNear := 0, reason := 0 } }
    | some o => { d with hoist := { d.hoist with
        entry := o.entry, infoLost := BitVec.ofNat 32 o.lostCount, infoNear := BitVec.ofNat 32 (rangesCount o.near), reason := 0 } }

/-- OBJ_CREATE: the command with CMD = 1. -/
def execObjCreate (s : State) : Host.Outcome State Fault Refusal := viaCfg s (answer s s.dev.objCreate)

/-- OBJ_DESTROY: the command with CMD = 2. -/
def execObjDestroy (s : State) : Host.Outcome State Fault Refusal := viaCfg s (answer s s.dev.objDestroy)

/-- OBJ_QUERY: the command with CMD = 3. -/
def execObjQuery (s : State) : Host.Outcome State Fault Refusal := viaCfg s (answer s s.dev.objQuery)

/-- The cells that zero-fill drops: every unit at its home (R215). -/
def Obj.zeroFill (o : Obj) : List MemOp :=
  if o.placement = 0 then [.clear (nearBase + o.base) (nearBase + o.base + o.len)]
  else o.dieList.map (fun n => .clear (n * 2 ^ 40 + (o.deepRange n).1) (n * 2 ^ 40 + (o.deepRange n).2))

/-- OBJ_CREATE_DONE (R215, R216): zero-fill has ended; the object is READY, LOST where a die of it was contained meanwhile, or destroyed
where its claim has reached OFF. -/
def execObjCreateDone (n : Fin 262144) (s : State) : Host.Outcome State Fault Refusal :=
  let d := s.dev
  match d.obj n.val with
  | none => answer s d
  | some o =>
    if o.st == .creating then
      let d := d.setObj n.val { o with st := if o.lostCount != 0 then .lost else .ready, readySeq := d.started, doomed := false }
      answerMem s (if o.doomed then d.destroyObj n.val else d, if o.zero then o.zeroFill else [])
    else answer s d

/-! ## The engine's own decisions (R224 to R226, R238) -/

/-- LD_TIER_STS.AUTO_STATE: 0 OFF, 1 ACTIVE, 2 FROZEN, 3 FIXED_PACE. -/
def Dev.autoState (d : Dev) (n : Nat) : Nat :=
  if !d.isRunning (dieBlock n) then 0 else if d.fixedPace then 3 else if (d.die n).tierAuto = 1 then 2 else 1

/-- An own move starts where the claim's hoist-byte budget on the die allows it. -/
def Dev.ownMove (d : Dev) (m : Memory) (n : Nat) (u : WarmUnit) (toNear evict : Bool) : Option Dev :=
  match d.obj u.obj with
  | none => none
  | some o =>
    if 0 < (d.meter o.claim (16 + n)).bal then
      let k := o.moveCost m u.unit toNear
      let v : Move := { unit := u.unit, toNear := toNear, begun := false, ord := 0, op := none, evict := evict }
      some ((((((d.pay o.claim (16 + n) k.1).pay o.claim n k.2).addMove u.obj v).beginMove u.obj u.unit)).count n 0x520 1)
    else none

/-- One candidate for the near tier: it fits, displaces the claim's coldest unit, or waits. The number is what is left of MAX_MOVES. -/
def Dev.promote (d : Dev) (m : Memory) (n : Nat) (left : Nat) (u : WarmUnit) : Dev × Nat :=
  if left = 0 then (d, 0)
  else if u.chunks ≤ d.nearLeft u.claim n then
    match d.ownMove m n u true false with | some d' => (d', left - 1) | none => (d, left)
  else match (d.nearAuto n).find? (fun v => v.claim == u.claim) with
    | some v =>
      if 2 ≤ left && v.heat + d.hoist.cfg.hyst.toNat ≤ u.heat && u.chunks ≤ d.nearLeft u.claim n + v.chunks then
        match d.ownMove m n v false true with
        | some d1 => (match d1.ownMove m n u true false with | some d2 => (d2, left - 2) | none => (d, left))
        | none => (d, left)
      else (d, left)
    | none => (d, left)

/-- A near unit that has gone cold is settled while moves are left. -/
def Dev.demote (d : Dev) (m : Memory) (n : Nat) (left : Nat) (u : WarmUnit) : Dev × Nat :=
  if left = 0 then (d, 0)
  else match d.ownMove m n u false false with | some d' => (d', left - 1) | none => (d, left)

/-- HOIST_EVALUATION (R225): promote, make room, demote. -/
def execHoistEvaluation (n : Fin 4) (s : State) : Host.Outcome State Fault Refusal :=
  let d := s.dev
  if d.autoState n.val = 1 && d.isRunning .hoist then
    let d := { d with hoist := { d.hoist with cfg := { d.hoist.cfgReg with heatPeriod := d.hoist.cfg.heatPeriod } } }
    let c := d.hoist.cfg
    let x := d.die n.val
    let hot := (x.heat.flatMap (fun e => e.2)).filterMap (fun h =>
      match d.obj h.obj with
      | some o =>
        if o.placement == 2 && o.st == .ready && !o.isNear h.unit && !o.toMove h.unit && Nat.ble c.promote.toNat h.heat then
          some (⟨h.heat, h.obj, h.unit, o.chunks, o.claim⟩ : WarmUnit) else none
      | none => none)
    let a := (sortBy hotter hot).foldl (fun p u => p.1.promote s.mem n.val p.2 u) (d, c.maxMoves.toNat)
    let cold := (a.1.nearAuto n.val).filter (fun u => Nat.blt (u.heat + c.hyst.toNat) c.promote.toNat)
    answer s (cold.foldl (fun p u => p.1.demote s.mem n.val p.2 u) a).1
  else answer s d

/-- HEAT_HALVING (R224, R238): every count on the module is halved, rounded down; a new HEAT_PERIOD counts from here. -/
def execHeatHalving (s : State) : Host.Outcome State Fault Refusal :=
  let d := s.dev
  answer s { d with
    dies := Tbl.mapAll d.dies (fun _ x => { x with heat := Tbl.mapAll x.heat (fun _ l => l.map (fun h => { h with heat := h.heat / 2 })) })
    hoist := { d.hoist with heatTick := d.now, cfg := { d.hoist.cfg with heatPeriod := d.hoist.cfgReg.heatPeriod } } }

/-- LD_TIER_AUTO_WRITE (R226): under Fixed-Pace, or with an unused code, ignored with WRITE_REJECT. -/
def execLdTierAutoWrite (n : Fin 4) (v : W32) (s : State) : Host.Outcome State Fault Refusal :=
  viaCfg s (
    let m := bits v.toNat 1 0
    let d := s.dev
    answer s (if d.fixedPace || 1 < m then d.modDie n.val (fun x => { x with tierReject := true })
      else d.modDie n.val (fun x => { x with tierAuto := BitVec.ofNat 2 m })))

/-- HOIST_CFG_WRITE (R238): a field out of its range has the write ignored in full, with HOIST_STS.REJECT. -/
def execHoistCfgWrite (v : W32) (s : State) : Host.Outcome State Fault Refusal :=
  viaCfg s (
    let d := s.dev
    let c : HoistCfg := { heatPeriod := BitVec.ofNat 12 (bits v.toNat 31 20), promote := BitVec.ofNat 8 (bits v.toNat 19 12),
                          hyst := BitVec.ofNat 8 (bits v.toNat 11 4), maxMoves := BitVec.ofNat 4 (bits v.toNat 3 0) }
    if c.heatPeriod != 0 && c.promote != 0 && c.hyst ≤ c.promote && c.maxMoves != 0 then
      answer s { d with hoist := { d.hoist with cfgReg := c } }
    else answer s (d.setBlock .hoist { d.block .hoist with reject := true }))

/-! ## Scrub and uncorrectable data (R230 to R233) -/

/-- Every unit homed deep with a byte in `[lo, hi)` of a die's deep tier, by object. -/
def Dev.deepUnits (d : Dev) (n lo hi : Nat) : List (Nat × Nat) :=
  d.objects.flatMap (fun e =>
    let o := e.2
    let r := o.deepRange n
    if o.dieList.contains n && meets (lo, hi) r then
      let k0 := (max lo r.1 - r.1) / o.unitSize
      let k1 := (min hi r.2 - 1 - r.1) / o.unitSize
      ((List.range (k1 + 1 - k0)).map (fun k => (k0 + k) * o.dieList.length + o.dieList.idxOf n)).filterMap
        (fun i => if o.isNear i then none else some (e.1, i))
    else [])

/-- Units are lost, each with an alarm that names its object (R233). -/
def Dev.loseAll (d : Dev) (n reg : Nat) (l : List (Nat × Nat)) : Dev :=
  let d := l.foldl (fun d u => d.loseUnits u.1 u.2 (u.2 + 1)) d
  (l.map (fun u => u.1)).eraseDups.foldl (fun d o => d.alarm (0x10 + n) (dieBase n + reg) o (Tbl.lookD (d.die n).cnt reg 0)) d

/-- The group a line lies in: stack × 4 + group of the stack (R230, R239). -/
def lineGroup (line : Nat) : Nat := line % 8 * 4 + line / 8 % 4

/-- Every unit homed deep with a line in a group (R231). -/
def Dev.groupUnits (d : Dev) (n g : Nat) : List (Nat × Nat) :=
  d.objects.flatMap (fun e =>
    let o := e.2
    ((List.range o.units).filter (fun i => o.unitDie i == n && !o.isNear i &&
      (let l0 := o.deepPos i / 512
       let l1 := (o.deepPos i + o.unitSize - 1) / 512
       (List.range (min 32 (l1 + 1 - l0))).any (fun k => lineGroup (l0 + k) == g)))).map (fun i => (e.1, i)))

/-- A pseudo-channel is marked failed (R231). -/
def Dev.failChannel (d : Dev) (n g ch : Nat) : Dev :=
  let w := (Tbl.lookD (d.die n).deepGroup g (0 : W32)) ||| BitVec.ofNat 32 (2 ^ ch)
  let k := popCount 19 w.toNat
  let w := if 3 ≤ k then w ||| BitVec.ofNat 32 (2 ^ 31) else w
  let d := d.modDie n (fun x => { x with deepGroup := Tbl.put x.deepGroup g w })
  let d := { d with store := { d.store with deepGroups := Tbl.put d.store.deepGroups (n * 32 + g) w } }
  let d := d.alarm (0x10 + n) (0x040000 + n * 0x10000 + 0x580 + 4 * g) n (w.setWidth 64)
  if k = 1 then d.condArises 1 else if k = 2 then d.condArises 2
  else (d.loseAll n 0x538 (d.groupUnits n g)).condArises 5

/-- Every unit homed deep with a line in a stack: its loss is beyond the code (R231). -/
def Dev.stackUnits (d : Dev) (n stack : Nat) : List (Nat × Nat) :=
  ((List.range 4).flatMap (fun g => d.groupUnits n (4 * stack + g))).eraseDups

/-- A line was corrected: more than 16 lines within one second mark its pseudo-channel failed (R231). -/
def Dev.correctLine (d : Dev) (n off ch : Nat) : Dev :=
  let line := off / 512
  let g := lineGroup line
  let key := g * 19 + ch
  let recent := (Tbl.lookD (d.die n).pcErrors key []).filter (fun x => Nat.blt (elapsed d.phys x.1) 1000000000 && x.2 != line) ++ [(d.phys, line)]
  let d := (d.modDie n (fun x => { x with pcErrors := Tbl.put x.pcErrors key recent })).count n 0x530 1
  if 16 < recent.length && !(Tbl.lookD (d.die n).deepGroup g (0 : W32)).getLsbD ch then d.failChannel n g ch else d

/-- A deep line cannot be corrected: the units with a byte in it are lost (R233). -/
def Dev.deepLost (d : Dev) (n off : Nat) : Dev :=
  (d.count n 0x538 1).loseAll n 0x538 (d.deepUnits n (off / 512 * 512) (off / 512 * 512 + 512))

/-- A near word, by the device address it holds, cannot be corrected: its unit is lost (R233). -/
def Dev.nearLost (d : Dev) (n a : Nat) : Dev :=
  (d.count n 0x548 1).loseAll n 0x548 (d.objects.flatMap (fun e =>
    let i := (a - e.2.base) / e.2.unitSize
    if e.2.holds a 1 && e.2.isNear i && e.2.unitDie i == n then [(e.1, i)] else []))

/-- PATROL_SCRUB (R231 to R233): a deep line by its offset on the die, or a near word by the device address it holds. -/
def execPatrolScrub (n : Fin 4) (near : Bool) (off : BitVec 42) (res : ScrubResult) (s : State) : Host.Outcome State Fault Refusal :=
  let d := s.dev
  if (d.die n.val).on then
    match near, res with
    | _, .clean => answer s d
    | true, .corrected _ => answer s (d.count n.val 0x540 1)
    | false, .corrected ch => answer s (d.correctLine n.val off.toNat ch.val)
    | false, .uncorrectable => answer s (d.deepLost n.val off.toNat)
    | true, .uncorrectable => answer s (d.nearLost n.val off.toNat)
    | false, .stackLost => answer s ((d.deepLost n.val off.toNat).loseAll n.val 0x538 (d.stackUnits n.val (off.toNat / 512 % 8)))
    | true, .stackLost => answer s d
  else answer s d

end Sys2Proof.Machine
end

