-- ==== Sys2Proof/Machine/Assay.lean ====
section
/-!
DEFINITION. The assay and sluice family: gate values, selection, combine weights, triples; capacity, admission, spills and their outputs
(chapter 7).
-/
namespace Sys2Proof.Machine

/-! ## Shared pieces (R142, R145) -/

/-- An output or input unit is in motion: an op that ignores its deadline waits for the commit (R95, R143, R218). -/
def Dev.mustWaitAlways (d : Dev) (ins outs : List Grid) : Bool :=
  outs.any (fun g => 0 < d.gridMoving g true + d.gridMoving g false) || ins.any (fun g => 0 < d.gridMoving g true)

/-- A packed array as one span. -/
def Span.grid (p : Span) (off : Nat) : Grid := span off p.addr p.len

/-- The die, of those that take part, that holds token `t` of `n` (R142). -/
def tokenDie (dies : List Nat) (n t : Nat) : Nat :=
  let k := dies.length
  let q := n / k
  let x := n % k
  nth dies (if t < x * (q + 1) then t / (q + 1) else x + (t - x * (q + 1)) / max 1 q) 0

/-- Keep the first `n` of a list ordered by `before`. -/
def topInsert {α : Type} (before : α → α → Bool) (n : Nat) (l : List α) (x : α) : List α := (insertBy before x l).take n

/-- Insert in order behind equals. -/
def ranksAbove (a b : Val × Nat) : Bool :=
  match a.1, b.1 with
  | .nan, .nan => Nat.blt a.2 b.2
  | .nan, _ => false
  | _, .nan => true
  | x, y => y.lt x || (!x.lt y && Nat.blt a.2 b.2)

/-- The first `n` of a list of scored indices under R147. -/
def topOf (n : Nat) (l : List (Val × Nat)) : List (Val × Nat) := l.foldl (topInsert ranksAbove n) []

/-! ## ASSAY (R144 to R152) -/

/-- The operands of an ASSAY. -/
structure AssayOp where
  tokens : Nat
  experts : Nat
  k : Nat
  spare : Nat
  groups : Nat
  topg : Nat
  gate : Nat
  norm : Bool
  bias : Bool
  psum : Bool
  top2 : Bool
  scale : Nat
  deriving DecidableEq, Repr

def assayOp (x : BitVec 512) : AssayOp :=
  let f := fld x 55 1
  { tokens := fld x 48 2 + 1, experts := bits (fld x 50 2) 13 0 + 1, k := bits (fld x 52 1) 7 4 + 1, spare := bits (fld x 52 1) 3 0,
    groups := fld x 53 1, topg := fld x 54 1, gate := bits f 7 6, norm := bit f 5, bias := bit f 4, psum := bit f 3, top2 := bit f 2,
    scale := fld x 56 4 }

def AssayOp.picks (o : AssayOp) : Nat := o.k + o.spare

/-- One token's gate: scores by expert, and the q of an expert (R146). -/
structure Gate where
  score : Array Val
  q : Array Val

/-- The gate values and selection scores of a token's logits. -/
def AssayOp.gateOf (o : AssayOp) (bias : Nat → Val) (z : List Val) : Gate :=
  let addBias := fun (l : List Val) => (l.zipIdx.map (fun (v, e) => f32.round (v.add (bias e)))).toArray
  match o.gate with
  | 0 =>
    let top : Val := z.foldl (fun a v => if a.lt v then v else a) (Val.inf true)
    let odd := z.contains .nan
    let p :=
      if top = Val.inf true && !odd then z.map (fun _ => Val.zero)
      else
        let es := z.map (fun v => expVal (f64.round (v.add top.negate)))
        let total := rowSum es
        es.map (fun x => f64.div x total)
    { score := addBias (p.map f32.round), q := p.toArray }
  | 1 =>
    let p := z.map (fun v => f32.dec (actCode 0x0B (f32.rne v) 0))
    { score := addBias p, q := p.toArray }
  | _ => { score := addBias (z.map f32.round), q := z.toArray }

/-- The candidates of a token, by rank (R148, R149). -/
def AssayOp.candidates (o : AssayOp) (g : Gate) : List Nat :=
  let size := o.experts / o.groups
  let scored := (List.range o.experts).map (fun e => (g.score.getD e Val.zero, e))
  let eligible :=
    if o.groups = 1 then scored
    else
      let groupScore := fun (j : Nat) =>
        let best := topOf 2 ((scored.drop (j * size)).take size)
        match best with
        | [a, b] => if o.top2 then a.1.add b.1 else a.1
        | a :: _ => a.1
        | [] => Val.nan
      let kept := (topOf o.topg ((List.range o.groups).map (fun j => (groupScore j, j)))).map (fun x => x.2)
      scored.filter (fun x => kept.contains (x.2 / size))
  (topOf o.picks eligible).map (fun x => x.2)

/-- One token's result: its candidates with the binary32 codes of their weights, and whether LD_CNT_ASSAY_ODD counts it. -/
structure Choice where
  cands : List (Nat × Nat)
  odd : Bool

/-- The combine weights (R150). -/
def AssayOp.weigh (o : AssayOp) (bias : Nat → Val) (z : List Val) (g : Gate) (cands : List Nat) : Choice :=
  let rs := if o.scale = 0 then Val.fin false 1 0 else f32.dec o.scale
  let raw := cands.map (fun e => g.q.getD e Val.zero)
  let first := raw.take o.k
  let m : Val := first.foldl (fun a v => if a.lt v then v else a) (Val.inf true)
  let m := if first.all (· == .nan) then Val.nan else m
  let qs := if o.gate = 2 then raw.map (fun v => expVal (f64.round (v.add m.negate))) else raw
  let sum := match qs.take o.k with | [] => Val.zero | a :: t => t.foldl (fun s v => f64.round (s.add v)) a
  let den := if o.gate = 2 || o.norm then sum else Val.fin false 1 0
  let flat := den.isZero || (o.gate == 2 && m == Val.inf true)
  let ws := qs.map (fun q => if flat then 0 else f32.rne (f64.div (f64.round (rs.mul q)) den))
  { cands := cands.zip ws,
    odd := z.contains .nan || (List.range o.experts).any (fun e => bias e == .nan) || flat || ws.any (fun w => f32.dec w == .nan) }

/-- A triple (Table 7.3). -/
def tripleBytes (t e w : Nat) : List Byte := toLe 2 t ++ toLe 2 e ++ toLe 4 w

/-- An op's checks, or the result it is refused with and the outputs it leaves undefined. -/
abbrev Plan (α : Type) := Except (Result × List (Nat × Nat)) α

/-- The arrays of an op, checked one by one; the first that fails ends the op, LOST ones with DATA_LOST (R145, R234). -/
def arraysOk (l : List (Nat × Except Result Span)) : Except Result (List (Nat × Span)) :=
  l.foldr (fun x acc => match x.2, acc with
    | .error w, _ => .error w
    | _, .error w => .error w
    | .ok p, .ok t => .ok ((x.1, p) :: t)) (.ok [])

def lostArray (l : List (Nat × Span)) : Option Nat := (l.find? (fun x => x.2.isLost)).map (fun x => x.1)

/-- The first output that overlaps an input or an earlier or later output. -/
def overlapping (ins outs : List Grid) : Option Nat :=
  (outs.find? (fun o => ins.any (fun i => o.overlaps i) || outs.any (fun p => p.off != o.off && o.overlaps p))).map (fun g => g.off)

/-- The range of an output array, where it is placed and not LOST. -/
def spanRange : Except Result Span → List (Nat × Nat)
  | .ok p => if p.isLost then [] else [(p.addr, p.len)]
  | .error _ => []

/-- A claim with no working lane (R244). -/
def Dev.noLane (d : Dev) (r : Nat) : Option Result :=
  let c := d.claimOf r
  if (d.workDies c).isEmpty then some (Result.fail stHardwareFault (d.lanelessReason c)) else none

/-- The checks of an ASSAY, in the order of R145: its logits, its arrays, overlap; then LOST arrays and lanes. -/
def Dev.assayPlan (d : Dev) (m : Memory) (r : Nat) (e : Entry) : Plan (Grid × List (Nat × Span)) :=
  let o := assayOp e.desc
  let outs := [(32, d.array r e 32 (8 * o.tokens * o.picks) 64)] ++ (if o.psum then [(40, d.array r e 40 (4 * o.experts) 64)] else [])
  let ranges := outs.flatMap (fun x => spanRange x.2)
  match settled (d.inputGrid m r e 16 o.tokens o.experts (fun f => f == 5 || f == 6)) with
  | .error w => .error (w, ranges)
  | .ok g =>
    if !d.headersOk m g false then .error (Result.fail stOperandRefused 16, [])
    else match arraysOk ((if o.bias then [(24, d.array r e 24 (4 * o.experts) 64)] else []) ++ outs) with
      | .error w => .error (w, ranges)
      | .ok ps =>
        let ins := g :: (ps.filter (fun x => x.1 == 24)).map (fun x => x.2.grid x.1)
        match overlapping ins ((ps.filter (fun x => x.1 != 24)).map (fun x => x.2.grid x.1)), lostArray ps, d.noLane r with
        | some off, _, _ => .error (Result.fail stOperandRefused off, [])
        | none, some off, _ => .error (Result.fail stDataLost off, ranges)
        | none, none, some w => .error (w, ranges)
        | none, none, none => .ok (g, ps)

/-- PSUM of an expert: exact sums rounded once (R152). -/
def AssayOp.psums (o : AssayOp) (gates : List (Gate × Choice)) : List Nat :=
  if o.gate = 2 then
    let table := gates.foldl (fun (a : Array Val) x =>
      (x.2.cands.take o.k).foldl (fun a c => a.setIfInBounds c.1 ((a.getD c.1 Val.zero).add (f32.dec c.2))) a)
      (Array.replicate o.experts Val.zero)
    table.toList.map f32.rne
  else (List.range o.experts).map (fun e => f32.rne (gates.foldl (fun s x => s.add (f32.round (x.1.q.getD e Val.zero))) Val.zero))

/-- The address of an array of an op, by operand. -/
def spanAddr (ps : List (Nat × Span)) (off : Nat) : Nat := match ps.find? (fun x => x.1 == off) with | some x => x.2.addr | none => 0

/-- Each token's gate and choice (R146 to R151). -/
def Dev.assayGates (d : Dev) (m : Memory) (e : Entry) (g : Grid) (ps : List (Nat × Span)) : List (Gate × Choice) :=
  let o := assayOp e.desc
  let la := d.loadGrid m g o.tokens o.experts
  let biases := if o.bias then ((List.range o.experts).map (fun i => f32.dec (d.readNat m (spanAddr ps 24 + 4 * i) 4))).toArray else #[]
  let bias := fun (i : Nat) => biases.getD i Val.zero
  (List.range o.tokens).map (fun t =>
    let z := (List.range o.experts).map (fun i => match gridVal la g t i with | some v => v | none => Val.inf true)
    let gt := o.gateOf bias z
    (gt, o.weigh bias z gt (o.candidates gt)))

/-- The triples of a token, in rank order (R151). -/
def tripleRow (x : (Gate × Choice) × Nat) : List Byte := x.1.2.cands.flatMap (fun c => tripleBytes x.2 c.1 c.2)

/-- The stores of an ASSAY: its triples, and its sums where it takes them (R151, R152). -/
def Dev.assayWrites (d : Dev) (m : Memory) (e : Entry) (g : Grid) (ps : List (Nat × Span)) : List MemOp :=
  let o := assayOp e.desc
  let gates := d.assayGates m e g ps
  d.writeDev (spanAddr ps 32) (gates.zipIdx.flatMap tripleRow) ++
    (if o.psum then d.writeDev (spanAddr ps 40) ((o.psums gates).flatMap (toLe 4)) else [])

/-- Run an ASSAY whose checks have passed. -/
def runAssay (s : State) (r : Nat) (e : Entry) (g : Grid) (ps : List (Nat × Span)) : Host.Outcome State Fault Refusal :=
  let d := s.dev
  let o := assayOp e.desc
  let la := d.loadGrid s.mem g o.tokens o.experts
  let gates := d.assayGates s.mem e g ps
  let dies := (d.workDies (d.claimOf r)).map (fun x => x.1)
  let w := 8 * o.picks
  let deep := d.gridDeep s.mem g + (ps.map (fun x => d.deepBytes x.2.addr x.2.len)).sum
  let d' := ps.foldl (fun d x => if x.1 = 24 then d.engineRead x.2.addr x.2.len else d.engineWrite x.2.addr x.2.len)
    (d.engineRead g.base (g.tiles * g.slot))
  if la.toList.any (fun t => t.bad) then
    -- a malformed tile: what it feeds is untouched (R236), and which other triples are written is open
    let fed := fun (t : Nat) => (List.range g.tc).any (fun j => (gridTile la g (t / 128) j).bad)
    let writes := gates.zipIdx.flatMap (fun x =>
      if fed x.2 || !(Config.freeValue (d.draws + x.2)).getLsbD 0 then [] else d.writeDev (spanAddr ps 32 + w * x.2) (tripleRow x))
    answerMem s (({ d' with draws := d'.draws + o.tokens }).endOp r e (Result.fail stIndexFault 16), writes)
  else
    let d' := gates.zipIdx.foldl (fun d x =>
      let n := tokenDie dies o.tokens x.2
      let d := d.count n 0x350 o.experts
      if x.1.2.odd then d.count n 0x358 1 else d) d'
    answerMem s (d'.endOp r e { Result.ok with deep := deep }, d.assayWrites s.mem e g ps)

/-- ASSAY (R142 to R152). -/
def execAssay (r : RingNo) (count : W32) (s : State) : Host.Outcome State Fault Refusal :=
  let d := s.dev
  match d.op r.val count 0x20 with
  | none => answer s d
  | some e =>
    match d.assayPlan s.mem r.val e with
    | .error x => failOut s r.val e x.1 x.2
    | .ok (g, ps) =>
      let ins := g :: (ps.filter (fun x => x.1 == 24)).map (fun x => x.2.grid x.1)
      let outs := (ps.filter (fun x => x.1 != 24)).map (fun x => x.2.grid x.1)
      begun s r.val e (d.mustWaitAlways ins outs)
        (d.deepNeeds (d.gridReads s.mem g ++ (ins.drop 1).map Grid.range) (outs.map Grid.range)) (fun s => runAssay s r.val e g ps)

/-! ## SLUICE (R153 to R164) -/

/-- The operands of a SLUICE. -/
structure SluiceOp where
  tokens : Nat
  experts : Nat
  k : Nat
  spare : Nat
  spill : Bool
  byRank : Bool
  factor : Bool
  cap : Nat
  deriving DecidableEq, Repr

def sluiceOp (x : BitVec 512) : SluiceOp :=
  let f := fld x 61 1
  { tokens := fld x 56 2 + 1, experts := bits (fld x 58 2) 13 0 + 1, k := bits (fld x 60 1) 7 4 + 1, spare := bits (fld x 60 1) 3 0,
    spill := bit f 7, byRank := bit f 6, factor := bit f 5, cap := fld x 62 2 }

def SluiceOp.picks (o : SluiceOp) : Nat := o.k + o.spare

/-- The capacity of every expert; none where there is no limit (R156). -/
def SluiceOp.limit (o : SluiceOp) : Option Nat :=
  if o.factor then some (ceilDiv (o.cap * o.tokens * o.k) (256 * o.experts))
  else if o.cap = 0 then none else some o.cap

/-- A triple as SLUICE reads it. -/
structure Triple where
  token : Nat
  expert : Nat
  weight : Nat
  deriving DecidableEq, Repr

/-- The checks of R155 on one token's triples. -/
def SluiceOp.tokenOk (o : SluiceOp) (t : Nat) (l : List Triple) : Bool :=
  let es := (l.map (·.expert)).filter (· != 0xFFFF)
  l.all (fun x => x.token == t && (Nat.blt x.expert o.experts || x.expert == 0xFFFF)) && es.eraseDups.length == es.length

/-- They hold for every token. -/
def SluiceOp.sound (o : SluiceOp) (tri : Nat → Nat → Triple) : Bool :=
  (List.range o.tokens).all (fun t => o.tokenOk t ((List.range o.picks).map (tri t)))

/-- The state of an admission: pairs admitted by expert, newest first, as token, rank, spilled and weight; admitted counts; demand;
pairs that overflow, newest first; routes by token × K + rank, as expert, fate, candidate and weight; spares taken, by token. -/
structure Sluicing where
  lists : Array (List (Nat × Nat × Bool × Nat))
  admitted : Array Nat
  demand : Array Nat
  spillIn : Array Nat
  late : List (Nat × Nat)
  routes : Array (Nat × Nat × Nat × Nat)
  taken : List (Nat × Nat)
  dropped : List (Nat × Nat)

/-- An expert has room. -/
def SluiceOp.room (o : SluiceOp) (z : Sluicing) (e : Nat) : Bool :=
  match o.limit with | none => true | some c => Nat.blt (z.admitted.getD e 0) c

/-- A pair is admitted to an expert. -/
def Sluicing.enter (z : Sluicing) (k t r e fate cand w : Nat) : Sluicing :=
  { z with
    lists := z.lists.setIfInBounds e ((t, r, fate == 1, w) :: z.lists.getD e []), admitted := z.admitted.setIfInBounds e (z.admitted.getD e 0 + 1),
    routes := z.routes.setIfInBounds (t * k + r) (e, fate, cand, w) }

/-- The primary pass (R157). -/
def SluiceOp.primary (o : SluiceOp) (tri : Nat → Nat → Triple) (z : Sluicing) (p : Nat × Nat) : Sluicing :=
  let x := tri p.1 p.2
  if x.expert = 0xFFFF then z
  else
    let z := { z with demand := z.demand.setIfInBounds x.expert (z.demand.getD x.expert 0 + 1) }
    if o.room z x.expert then z.enter o.k p.1 p.2 x.expert 0 p.2 x.weight else { z with late := p :: z.late }

/-- The spill pass for one pair (R158). -/
def SluiceOp.spillOne (o : SluiceOp) (tri : Nat → Nat → Triple) (z : Sluicing) (p : Nat × Nat) : Sluicing :=
  let spares := if o.spill then (List.range o.spare).map (· + o.k) else []
  match spares.find? (fun c => let e := (tri p.1 c).expert; e != 0xFFFF && !z.taken.contains (p.1, c) && o.room z e) with
  | some c =>
    let e := (tri p.1 c).expert
    let z := z.enter o.k p.1 p.2 e 1 c (tri p.1 p.2).weight
    { z with taken := (p.1, c) :: z.taken, spillIn := z.spillIn.setIfInBounds e (z.spillIn.getD e 0 + 1) }
  | none => { z with dropped := p :: z.dropped, routes := z.routes.setIfInBounds (p.1 * o.k + p.2) (0xFFFF, 2, p.2, 0) }

/-- The whole admission. -/
def SluiceOp.run (o : SluiceOp) (tri : Nat → Nat → Triple) : Sluicing :=
  let none_ := ((List.range (o.tokens * o.k)).map (fun i => ((0xFFFF, 3, i % o.k, 0) : Nat × Nat × Nat × Nat))).toArray
  let z : Sluicing := { lists := Array.replicate o.experts [], admitted := Array.replicate o.experts 0, demand := Array.replicate o.experts 0,
                        spillIn := Array.replicate o.experts 0, late := [], routes := none_, taken := [], dropped := [] }
  let pairs := (List.range (o.tokens * o.k)).map (fun i => if o.byRank then (i % o.tokens, i / o.tokens) else (i / o.k, i % o.k))
  let z := pairs.foldl (o.primary tri) z
  z.late.reverse.foldl (o.spillOne tri) z

/-- The checks of a SLUICE on its arrays (R154). -/
def Dev.sluicePlan (d : Dev) (r : Nat) (e : Entry) : Plan (List (Nat × Span)) :=
  let o := sluiceOp e.desc
  let tk := o.tokens * o.k
  let all := [(16, d.array r e 16 (8 * o.tokens * o.picks) 64), (24, d.array r e 24 (16 * o.experts) 64), (32, d.array r e 32 (8 * tk) 64),
    (40, d.array r e 40 (8 * tk) 64), (48, d.array r e 48 (8 + 4 * o.experts) 64)]
  let ranges := (all.drop 1).flatMap (fun x => spanRange x.2)
  match arraysOk all with
  | .error w => .error (w, ranges)
  | .ok ps =>
    let gs := ps.map (fun x => x.2.grid x.1)
    match overlapping (gs.take 1) (gs.drop 1), lostArray ps, d.noLane r with
    | some off, _, _ => .error (Result.fail stOperandRefused off, [])
    | none, some off, _ => .error (Result.fail stDataLost off, ranges)
    | none, none, some w => .error (w, ranges)
    | none, none, none => .ok ps

/-- The triples a SLUICE reads, by token and candidate. -/
def Dev.sluiceTriple (d : Dev) (m : Memory) (o : SluiceOp) (a : Nat) : Nat → Nat → Triple :=
  let raw := ((List.range (o.tokens * o.picks)).map (fun i =>
    let b := d.readDev m (a + 8 * i) 8
    (⟨fieldAt b 0 2, fieldAt b 2 2, fieldAt b 4 4⟩ : Triple))).toArray
  fun t c => raw.getD (t * o.picks + c) ⟨0, 0, 0⟩

/-- COUNTS, LISTS, ROUTES and OCC, by operand (R160 to R163). -/
def SluiceOp.outs (o : SluiceOp) (z : Sluicing) : List (Nat × List Byte) :=
  let es := List.range o.experts
  let offs := (es.foldl (fun (a : Array Nat × Nat) x => (a.1.push a.2, a.2 + z.admitted.getD x 0)) (#[], 0)).1
  let counts := es.flatMap (fun x => toLe 4 (offs.getD x 0) ++ toLe 4 (z.admitted.getD x 0) ++ toLe 4 (z.demand.getD x 0) ++ toLe 4 (z.spillIn.getD x 0))
  let lists := es.flatMap (fun x => (z.lists.getD x []).reverse.flatMap (fun p =>
    toLe 2 p.1 ++ [BitVec.ofNat 8 p.2.1, BitVec.ofNat 8 (b2n p.2.2.1)] ++ toLe 4 p.2.2.2))
  let routes := z.routes.toList.flatMap (fun p => toLe 2 p.1 ++ [BitVec.ofNat 8 (p.2.1 * 64 + p.2.2.1), 0] ++ toLe 4 p.2.2.2)
  let held := es.filter (fun x => z.admitted.getD x 0 != 0)
  let occ := toLe 4 held.length ++ toLe 4 0 ++ held.flatMap (toLe 4)
  [(24, counts), (32, lists), (40, routes), (48, occ)]

/-- The stores of a SLUICE. -/
def Dev.sluiceWrites (d : Dev) (m : Memory) (e : Entry) (ps : List (Nat × Span)) : List MemOp :=
  let o := sluiceOp e.desc
  (o.outs (o.run (d.sluiceTriple m o (spanAddr ps 16)))).flatMap (fun x => d.writeDev (spanAddr ps x.1) x.2)

/-- What a SLUICE asks of the DEEP meters: its triples read and what it writes (R249). -/
def Dev.sluiceNeeds (d : Dev) (m : Memory) (e : Entry) (ps : List (Nat × Span)) : List (Nat × Nat) :=
  let o := sluiceOp e.desc
  let tri := d.sluiceTriple m o (spanAddr ps 16)
  d.deepNeeds [(spanAddr ps 16, 8 * o.tokens * o.picks)]
    (if o.sound tri then (o.outs (o.run tri)).map (fun x => (spanAddr ps x.1, x.2.length)) else [])

/-- Run a SLUICE whose array checks have passed. -/
def runSluice (s : State) (r : Nat) (e : Entry) (ps : List (Nat × Span)) : Host.Outcome State Fault Refusal :=
  let d := s.dev
  let o := sluiceOp e.desc
  let addr := spanAddr ps
  let tri := d.sluiceTriple s.mem o (addr 16)
  let d' := d.engineRead (addr 16) (8 * o.tokens * o.picks)
  if !o.sound tri then
    answer s (d'.endOp r e (Result.fail stOperandRefused 16))
  else
    let z := o.run tri
    let outs := o.outs z
    let claim := (d.workDies (d.claimOf r)).map (fun x => x.1)
    let dies := if o.tokens * o.k ≤ 65536 then claim.take 1 else claim
    let low := dies.headD 0
    let deep := d.deepBytes (addr 16) (8 * o.tokens * o.picks) + (outs.map (fun x => d.deepBytes (addr x.1) x.2.length)).sum
    let spilled := (z.spillIn.toList).sum
    let pairs := z.lists.toList.flatMap (fun l => (l.filter (fun p => !p.2.2.1)).map (fun p => p.1))
    let d' := pairs.foldl (fun d t => d.count (tokenDie dies o.tokens t) 0x360 1) d'
    let d' := (d'.count low 0x360 spilled).count low 0x368 spilled
    let d' := z.dropped.foldl (fun d p => d.count (if o.spill then low else tokenDie dies o.tokens p.1) 0x370 1) d'
    let d' := outs.foldl (fun d x => d.engineWrite (addr x.1) x.2.length) d'
    let n := z.dropped.length
    answerMem s (d'.endOp r e { Result.ok with deep := deep, status := if n = 0 then stOk else stTokensDropped, reason := sat16 n },
      d.sluiceWrites s.mem e ps)

/-- SLUICE (R142, R143, R153 to R164). -/
def execSluice (r : RingNo) (count : W32) (s : State) : Host.Outcome State Fault Refusal :=
  let d := s.dev
  match d.op r.val count 0x21 with
  | none => answer s d
  | some e =>
    match d.sluicePlan r.val e with
    | .error x => failOut s r.val e x.1 x.2
    | .ok ps =>
      let gs := ps.map (fun x => x.2.grid x.1)
      begun s r.val e (d.mustWaitAlways (gs.take 1) (gs.drop 1)) (d.sluiceNeeds s.mem e ps) (fun s => runSluice s r.val e ps)

end Sys2Proof.Machine
end

