-- ==== Sys2Proof/Machine/Keys.lean ====
section
/-!
DEFINITION. Digests, signatures and the enrolled authorities (R399 to R401, R420).
-/
namespace Sys2Proof.Machine

/-- `n` bytes of the SHAKE256 output for a message. -/
def shake256 (msg : List Byte) (n : Nat) : List Byte := (List.range n).map (Config.shakeByte msg)

/-- The module's public key. -/
def deviceKey : List Byte := (List.range 1793).map Config.deviceKey

/-- DEVICE_ID: the first 16 bytes of the digest of the public key (R399). -/
def deviceId : List Byte := shake256 deviceKey 16

/-- The device certificate (Table 18.12). -/
def certificate : List Byte :=
  [0x54, 0x43, 0x01, Config.certSigner] ++ toLe 4 3104 ++ deviceId ++ deviceKey ++ List.replicate 7 0 ++ (List.range 1280).map Config.certSig

/-- The device key's signature over the digest of a message, in its 1,280-byte field. -/
def deviceSign (msg : List Byte) : List Byte := (List.range 1280).map (Config.signByte msg)

/-- A role of Table 18.2 that signs images, kernels and changes. -/
inductive Role where
  | vendor | operator | custodian
  deriving DecidableEq, Repr

/-- The number of a role in an authority entry (notes/assumptions/31.md). -/
def Role.code : Role → Nat
  | .vendor => 1 | .operator => 2 | .custodian => 3

/-- The key of an enrolled authority. -/
def Dev.authority (d : Dev) (role : Role) (i : Nat) : Option (List Byte) := Tbl.look d.store.authorities (role.code * 8 + i)

/-- The keys enrolled under a role: with an empty list, the VENDOR root alone (R400). -/
def Dev.keysOf (d : Dev) (role : Role) : List (List Byte) :=
  if d.store.authorities.isEmpty then (if role == .vendor then [(List.range 1793).map Config.vendorRoot] else [])
  else (List.range 8).filterMap (d.authority role)

/-- A signature by some enrolled authority of a role. -/
def Dev.signedBy (d : Dev) (role : Role) (msg sig : List Byte) : Bool := (d.keysOf role).any (fun k => Config.verifies k msg sig)

/-- A signature by the enrolled authority of a role that an index names. -/
def Dev.signedAs (d : Dev) (role : Role) (i : Nat) (msg sig : List Byte) : Bool :=
  match d.authority role i with
  | some k => Config.verifies k msg sig
  | none => false

end Sys2Proof.Machine
end

