-- ==== Sys2Proof/Machine/Power.lean ====
section
/-!
DEFINITION. The power family: supplies, sequencing, the emergency quiesce, COLD_START, thermal trips, coolant and the I3C target
(chapter 1).
-/
namespace Sys2Proof.Machine

/-- HEALTH_PWR_STS (Table 1.8). -/
def Dev.pwrSts (d : Dev) : Nat :=
  d.store.lossCause.toNat * 2 ^ 16 + b2n d.power.mated * 2 ^ 12 + b2n d.power.thermTrip * 2 ^ 11 + b2n d.power.auxFromMain * 2 ^ 10 +
    b2n d.power.auxOk * 2 ^ 9 + b2n d.power.mainOk * 2 ^ 8 +
    (match d.power.pstate with
      | .auxOnly => 0 | .mgmtUp => 1 | .mainSequencing => 2 | .running => 3 | .quiescing => 4 | .quiesced => 5)

/-- The offset of HEALTH_PWR_STS, and of MON_LATCH, to which the supply and coolant alarms are keyed (Table 17.9). -/
def pwrStsReg : Nat := 0x1E0040
def monLatchReg : Nat := 0x1C0040

/-- An alarm keyed to HEALTH_PWR_STS. -/
def Dev.pwrAlarm (d : Dev) (subject : Nat) : Dev := d.alarm 0x26 pwrStsReg subject (BitVec.ofNat 64 d.pwrSts)

/-- An alarm keyed to MON_LATCH and a monitor source. -/
def Dev.monAlarm (d : Dev) (source : Nat) : Dev := d.alarm 0x25 monLatchReg source d.evt.latch

/-- The fabric ports that are up, for the leaving notices. -/
def Dev.portsUp (d : Dev) : List Nat := (d.ports.filter (fun e => e.2.link == .up4 || e.2.link == .up3)).map (fun e => e.1)

/-- The whole emergency quiesce (Table 1.10): steps 1 to 6, then, while the always-on domain keeps power, the record of step 7 and
QUIESCED; without it all power is lost before step 7, and ARMED stays set (R19, R20, R22, R419). Hold-up does not guarantee steps 5 and 6
of an unwarned loss: that both are done, held records posted and the domains off, is the model's (DESIGN CHOICE, notes/assumptions/55.md). -/
def Dev.quiesce (d : Dev) (cause : BitVec 8) (aonHeld : Bool) : Dev :=
  let tick := d.now
  let d := d.quiesceBody d.portsUp
  if aonHeld then (d.recordLoss cause tick).setPState .quiesced else d.unpowered

/-- Memory after a quiesce: nothing of the tiers is kept. -/
def quiesceAnswer (s : State) (cause : BitVec 8) (aonHeld : Bool) (d : Dev) : Host.Outcome State Fault Refusal :=
  answerMem s (d.quiesce cause aonHeld, clearAll)

/-- A main domain is on, and no quiesce is under way or ended (R7, R21). -/
def Dev.mainOn (d : Dev) : Bool := d.power.hubOn && (d.power.pstate == .running || d.power.pstate == .mainSequencing)

/-- A quiesce can begin: main is present, none is under way or ended, and the always-on domain does not hold the module in AUX_ONLY
(R14, R18 to R20, R22). -/
def Dev.canQuiesce (d : Dev) : Bool :=
  d.power.aonOn && d.power.mainLive && !d.power.mgmtTripped && d.power.pstate != .quiescing && d.power.pstate != .quiesced

/-- The inputs are within the operating ranges of Table 1.3. -/
def mainInRange (z : Sensors) : Bool := Nat.ble 4000 z.mainV && Nat.ble z.mainV 6000
def auxInRange (z : Sensors) : Bool := Nat.ble 1140 z.auxV && Nat.ble z.auxV 1260

/-- Main between 60 and 64 V raises an alarm in every frame (Table 1.3). -/
def Dev.overAlarm (d : Dev) : Dev :=
  if Nat.blt 6000 d.power.sensors.mainV && Nat.ble d.power.sensors.mainV 6400 && !d.power.protectionOpen then d.monAlarm 1 else d

/-! ## Always-on domain -/

/-- The store as it is read at a start, where some sections have no valid copy (Table 18.1); what it held of MIN_SECVER or of the tick of a
lost record is open. -/
def SignedStore.found (t : SignedStore) (noCopy : BitVec 5) (secver : W32) (tick : Tick) : SignedStore :=
  let t := { t with noCopy := noCopy }
  let t := if noCopy.getLsbD 1 || noCopy.getLsbD 2 then { t with authorities := [], debugKeys := [] } else t
  let t := if noCopy.getLsbD 2 then
      { t with protSeq := 0, minSecver := secver, regionPolicy := 2, isolation := 1, siteMarks := 0, ideRequired := true } else t
  let t := if noCopy.getLsbD 3 then
      { t with lanes := [], cores := [], dies := 0, planes := 0, engines := [], groups := 0, tallies := [], ports := 0, deepGroups := [] } else t
  if noCopy.getLsbD 4 then { t with lossCause := 0, lossTick := tick, armed := false } else t

/-- A start reads the signed store (R400). -/
def Dev.readStore (d : Dev) (noCopy : BitVec 5) : Dev :=
  if noCopy = 0 then { d with store := { d.store with noCopy := 0 } }
  else { d with draws := d.draws + 2, store := d.store.found noCopy ((Config.freeValue d.draws).setWidth 32) (Config.freeValue (d.draws + 1)) }

/-- ALWAYS_ON_POWER_UP (R16 step 1, R399, R400, R419): the signed store is read, `noCopy` naming its sections without a valid copy; AUX_ONLY
with management powered; a record found still ARMED becomes UNWARNED with an all-ones tick. -/
def execAlwaysOnPowerUp (mated mainOk auxOk identityOk : Bool) (noCopy : BitVec 5) (s : State) : Host.Outcome State Fault Refusal :=
  let d := (s.dev.readStore noCopy).restart
  let d := if d.store.armed then d.recordLoss 3 (BitVec.allOnes 64) else d
  answerMem s ({ d with power := { d.power with
    identityBad := !identityOk || noCopy.getLsbD 0, mated := mated, matedSettled := mated, mainOk := mainOk, mainLive := mainOk || !auxOk, auxOk := auxOk, auxFromMain := !auxOk } }, clearAll)

/-- ALL_POWER_REMOVED (R20): every state but the signed store is lost. -/
def execAllPowerRemoved (s : State) : Host.Outcome State Fault Refusal := answerMem s (s.dev.unpowered, clearAll)

/-- AUX_INPUT_LOW (R5): with main in range, management switches to the internal path and an alarm is raised; otherwise the always-on
domain loses power (Table 1.3). -/
def execAuxInputLow (s : State) : Host.Outcome State Fault Refusal :=
  let d := s.dev
  if d.power.aonOn then
    if d.power.mainOk then
      let d := { d with power := { d.power with auxOk := false, auxFromMain := true } }
      answer s ((d.monAlarm 2).pwrAlarm 10)
    else answerMem s (d.unpowered, clearAll)
  else answer s d

/-- AUX_INPUT_RECOVERED (R5): management switches back. -/
def execAuxInputRecovered (s : State) : Host.Outcome State Fault Refusal :=
  let d := s.dev
  answer s (if d.power.aonOn then { d with power := { d.power with auxOk := true, auxFromMain := false } } else d)

/-! ## Main power -/

/-- MAIN_POWER_UP_REQUEST (R16 step 1, R7, R14): Kolti asks in MGMT_UP with MAIN_OK set, the connector seated for 100 ms and no hub
trip; the hub switching domain goes on. -/
def execMainPowerUpRequest (s : State) : Host.Outcome State Fault Refusal :=
  let d := s.dev
  if d.power.kolti && d.power.pstate == .mgmtUp && d.power.mainOk && d.power.matedSettled && !d.power.hubTripped then
    answer s { d with power := { d.power with
      pstate := .mainSequencing, hubOn := true, hubReady := false, seqTick := d.now, retries := [] } }
  else answer s d

/-- HUB_SELF_TEST_DONE (R16 step 2): the hub switching domain has passed its self-test, and its fabric ports begin training. -/
def execHubSelfTestDone (s : State) : Host.Outcome State Fault Refusal :=
  let d := s.dev
  if d.power.pstate == .mainSequencing && d.power.hubOn && !d.power.hubReady then
    answer s ((List.range 48).foldl (fun d n => d.modPort n (fun p => { p with
        link := if p.link == .down then .training else p.link, trainTick := d.phys }))
      { d with power := { d.power with hubReady := true } })
  else answer s d

/-- LOOM_DIE_DOMAIN_ON (R6, R16 steps 3 to 6, R31): dies in order, one that is recorded or that used up its retries left off; the supply starts at 720 mV, or at the nearest
value of the voltage range. -/
def execLoomDieDomainOn (n : Fin 4) (s : State) : Host.Outcome State Fault Refusal :=
  let d := s.dev
  let x := d.die n.val
  let failed := fun i => decide (3 < Tbl.lookD d.power.retries i 0)
  let before := (List.range n.val).all (fun i => (d.die i).on || (d.die i).contained || failed i)
  if d.power.pstate == .mainSequencing && d.power.hubOn && before && !x.contained && !failed n.val && !x.on then
    let g := x.govReg
    let v := if g.vmax < 720 then g.vmax else if 720 < g.vmin then g.vmin else 720
    answer s (d.setDie n.val { x with on := true, ready := false, gov := g, vout := v, target := 0, govState := 1 })
  else answer s d

/-- SEQUENCING_RETRY (R6): the sequencer retries a stalled domain three times, then leaves it off and raises an alarm that names it. -/
def execSequencingRetry (dom : Fin 5) (s : State) : Host.Outcome State Fault Refusal :=
  let d := s.dev
  if d.power.pstate == .mainSequencing then
    let k := Tbl.lookD d.power.retries dom.val 0
    let d := { d with power := { d.power with retries := Tbl.put d.power.retries dom.val (k + 1) } }
    if k < 3 then answer s d
    else
      let d := if dom.val = 4 then { d with power := { d.power with hubOn := false, hubReady := false } }
               else d.modDie dom.val (fun x => x.powerOff)
      answer s (if k = 3 then d.pwrAlarm dom.val else d)
  else answer s d

/-- DIE_READY (R16 step 7, R27, R31, R141, R416): with its supply at its target the die reports ready, its working lanes and cores are
numbered, and Kolti enables its block; one whose slowest canary reads below its floor at the self-test is contained. -/
def execDieReady (n : Fin 4) (slowest : BitVec 11) (junction : Int) (s : State) : Host.Outcome State Fault Refusal :=
  let d := s.dev
  let x := d.die n.val
  if x.on && !x.ready && !x.contained && d.power.pstate == .mainSequencing && x.target != 0 && x.vout == x.target then
    if slowest.toNat < floorRate x.vout.toNat junction then answer s (d.containDie n.val false) else
    let d := (d.setDie n.val { x with ready := true }).compact n.val
    let b := dieBlock n.val
    answer s (if (d.block b).st == .off || (d.block b).st == .refused then
      d.moveBlock b { d.block b with st := .checking, reason := 0 } else d)
  else answer s d

/-- PSTATE_RUNNING (R16 step 8, R414, R419): every domain that is on has passed its step; the capability block is final and ARMED is
set, cause and tick unchanged. -/
def execPstateRunning (s : State) : Host.Outcome State Fault Refusal :=
  let d := s.dev
  let settled := (List.range 4).all (fun n => (d.die n).ready || (d.die n).contained)
  if d.power.pstate == .mainSequencing && d.power.hubReady && settled then
    answer s { d.setPState .running with
      capFinal := true, capGen := 1, capTick := some d.now, store := { d.store with armed := true } }
  else answer s d

/-- Main is lost without warning (R22): with management fed from it, all power goes after steps 1 to 6; otherwise the quiesce runs with
its cause. `was`: it could begin while main was there. -/
def mainLost (s : State) (was : Bool) (cause : BitVec 8) (aonHeld : Bool) (d : Dev) : Host.Outcome State Fault Refusal :=
  if d.power.auxFromMain then answerMem s ((if was then d.quiesceBody d.portsUp else d).unpowered, clearAll)
  else if was then quiesceAnswer s cause aonHeld d
  else answer s d

/-- MAIN_UNDERVOLTAGE (R6, R22): MAIN_OK clears, and the emergency quiesce starts by itself, cause UNWARNED. -/
def execMainUndervoltage (aonHeld : Bool) (s : State) : Host.Outcome State Fault Refusal :=
  mainLost s s.dev.canQuiesce 3 aonHeld
    (({ s.dev with power := { s.dev.power with mainOk := false, mainLive := false } }).monAlarm 1)

/-- MAIN_OVERVOLTAGE (R6, R22): the input protection opens and the event is a main loss, cause OVERVOLTAGE. -/
def execMainOvervoltage (aonHeld : Bool) (s : State) : Host.Outcome State Fault Refusal :=
  mainLost s s.dev.canQuiesce 4 aonHeld
    (({ s.dev with power := { s.dev.power with mainOk := false, mainLive := false, protectionOpen := true } }).monAlarm 1)

/-- MAIN_PROTECTION_CLOSE (R22): after 100 ms between 40 and 60 V the protection closes and MAIN_OK sets; QUIESCED stays. -/
def execMainProtectionClose (s : State) : Host.Outcome State Fault Refusal :=
  let d := s.dev
  answer s (if d.power.aonOn then { d with power := { d.power with mainOk := true, mainLive := true, protectionOpen := false } } else d)

/-- MATED_N_HIGH (R7): with a main domain on, a loss of main without warning. -/
def execMatedNHigh (aonHeld : Bool) (s : State) : Host.Outcome State Fault Refusal :=
  let d := { s.dev with power := { s.dev.power with mated := false, matedSettled := false } }
  if d.mainOn then quiesceAnswer s 3 aonHeld d else answer s d

/-- MATED_N_SETTLED (R7): low for 100 ms, so main domains may go on. -/
def execMatedNSettled (s : State) : Host.Outcome State Fault Refusal :=
  let d := s.dev
  answer s (if d.power.aonOn then { d with power := { d.power with mated := true, matedSettled := true } } else d)

/-- The undoing of a main power-up under PWR_WARN_N: every main domain off, PSTATE MGMT_UP, and a die block already enabled stops with
its own ID and 0xF6 (R17). -/
def Dev.abortSequencing (d : Dev) : Dev := ((d.stopMain 0xF6 false).mainsOff).setPState .mgmtUp

/-- PWR_WARN_ASSERTED (R17 to R19, R419): the quiesce, with WARNED_CLEAN where main held 39.0 V with its protection closed until step 6
had finished and WARNED_INCOMPLETE otherwise; in MAIN_SEQUENCING the sequencing is undone; with main absent nothing more. -/
def execPwrWarnAsserted (mainHeld aonHeld : Bool) (s : State) : Host.Outcome State Fault Refusal :=
  let d := s.dev
  if d.canQuiesce then
    if d.power.pstate == .mainSequencing then answerMem s (d.abortSequencing, clearAll)
    else
      let d := if mainHeld then d else { d with power := { d.power with mainOk := false, mainLive := false } }
      quiesceAnswer s (if mainHeld then 1 else 2) aonHeld d
  else answer s d

/-! ## COLD_START (R21) -/

/-- A write of HEALTH_COLD_START: ARM, GO within 1 ms of it, or anything else, which cancels a pending ARM. -/
def Dev.coldStartWrite (d : Dev) (key step : Nat) : Dev × List MemOp :=
  if key = 0xC5A7 ∧ step = 1 then ({ d with power := { d.power with armTick := some d.phys } }, [])
  else
    let go := key = 0xC5A7 && step = 2 && (match d.power.armTick with | some t => elapsed d.phys t ≤ 1000000 | none => false)
    let d := { d with power := { d.power with armTick := none } }
    if go then
      let d := if d.mainOn then d.quiesceBody d.portsUp else d
      (({ d with store := { d.store with armed := false } }).coldReset, clearAll)
    else (d, [])

/-- COLD_START_ARM (R21): the write with the key and STEP ARM. -/
def execColdStartArm (s : State) : Host.Outcome State Fault Refusal := answerMem s (s.dev.coldStartWrite 0xC5A7 1)

/-- COLD_START_GO (R21): steps 1 to 6 of the quiesce where a main domain is on, then the reset to AUX_ONLY; no power-loss record, and
ARMED cleared. -/
def execColdStartGo (s : State) : Host.Outcome State Fault Refusal := answerMem s (s.dev.coldStartWrite 0xC5A7 2)

/-- COLD_START_ARM_EXPIRY (R21): the ARM lapses. -/
def execColdStartArmExpiry (s : State) : Host.Outcome State Fault Refusal :=
  answer s { s.dev with power := { s.dev.power with armTick := none } }

/-! ## Thermal (R13, R14) -/

/-- HUB_THERMAL_TRIP (R14, R419): the hub and every die go off, blocks outside management stop with 0xF6, PSTATE returns to MGMT_UP,
and ARMED is cleared with no record. -/
def execHubThermalTrip (s : State) : Host.Outcome State Fault Refusal :=
  let d := s.dev
  if d.power.hubOn then
    let d := { d with power := { d.power with thermTrip := true, thermN := true, hubTripped := true } }
    let d := ((d.pwrAlarm 4).stopMain 0xF6 false).mainsOff
    answerMem s ({ d.setPState .mgmtUp with store := { d.store with armed := false } }, clearAll)
  else answer s d

/-- MGMT_THERMAL_TRIP (R14): the always-on domain holds the module in AUX_ONLY. -/
def execMgmtThermalTrip (s : State) : Host.Outcome State Fault Refusal :=
  let d := s.dev
  if d.power.mgmtOn then
    let r := d.coldReset
    answerMem s ({ r with
      power := { r.power with thermTrip := true, thermN := true, mgmtTripped := true, mgmtOn := false },
      host := { r.host with linkUp := false } }, clearAll)
  else answer s d

/-- THERM_CLEAR (R14): every tripped die reads below 85 °C and THERM_N deasserts; the domains stay off. -/
def execThermClear (s : State) : Host.Outcome State Fault Refusal :=
  answer s { s.dev with power := { s.dev.power with thermN := false } }

/-- COOLANT_INLET_HOT (R13): an alarm, keyed to monitor source 4. -/
def execCoolantInletHot (s : State) : Host.Outcome State Fault Refusal := answer s (s.dev.monAlarm 4)

/-- LOW_FLOW (R13): an alarm, keyed to monitor source 5. -/
def execLowFlow (s : State) : Host.Outcome State Fault Refusal := answer s (s.dev.monAlarm 5)

/-! ## The I3C target (R10, R11) -/

/-- The I3C address the target answers to: 0b10100 and the straps, unless one was assigned (R10). -/
def Power.i3cAddress (p : Power) : BitVec 7 :=
  match p.i3cDynamic with
  | some a => a
  | none => BitVec.ofNat 7 (0x50 + p.i3cStrap.toNat)

/-- A temperature in 0.1 °C, saturating in 16 bits of two's complement. -/
def satTemp (t : Int) : Nat := codeOf 16 (max (-32768) (min 32767 t))

/-- The item of Table 1.6 at an even address; addresses above 0x11 read 0. -/
def Dev.i3cItem (d : Dev) (a : Nat) : Nat :=
  let z := d.power.sensors
  match a with
  | 0x00 => min 0xFFFF z.mainV | 0x02 => min 0xFFFF z.mainI | 0x04 => min 0xFFFF z.auxV | 0x06 => min 0xFFFF z.power
  | 0x08 => satTemp z.inlet | 0x0A => satTemp z.outlet | 0x0C => satTemp z.junction | 0x0E => d.pwrSts % 2 ^ 16
  | 0x10 => d.healthNow
  | _ => 0

/-- I3C_ADDRESS_WRITE (R11): one byte that names an even address sets the register address; anything else is NACKed. -/
def execI3cAddressWrite (data : List Byte) (s : State) : Host.Outcome State Fault Refusal :=
  let d := s.dev
  match data with
  | [a] => if d.power.aonOn && a.toNat % 2 = 0 then answer s ({ d with power := { d.power with i3cPtr := a } }.emit .i3cAck)
           else answer s (d.emit .i3cNack)
  | _ => answer s (d.emit .i3cNack)

/-- I3C_READ (R11): bytes from the register address onward, each item's low byte first. -/
def execI3cRead (n : Nat) (s : State) : Host.Outcome State Fault Refusal :=
  let d := s.dev
  if d.power.aonOn then
    let byteAt := fun a : Nat => if 0x11 < a then (0 : Byte) else BitVec.ofNat 8 (d.i3cItem (a - a % 2) / 256 ^ (a % 2))
    answer s (d.emit (.i3cData ((List.range n).map (fun i => byteAt (d.power.i3cPtr.toNat + i)))))
  else answer s (d.emit .i3cNack)

/-- I3C_DYNAMIC_ADDRESS (R10): dynamic address assignment overrides the static address. -/
def execI3cDynamicAddress (a : BitVec 7) (s : State) : Host.Outcome State Fault Refusal :=
  let d := s.dev
  answer s (if d.power.aonOn then { d with power := { d.power with i3cDynamic := some a } } else d)

end Sys2Proof.Machine
end

