-- ==== Sys2Proof/Machine/Header.lean ====
section
/-!
DEFINITION. The header of a fabric packet: its fields, its checks and its channel (R270, R271, R276, R279, R288, R292).
-/
namespace Sys2Proof
open Sys2Proof.Machine

/-! ## The header (Table 12.3) -/

/-- The header field of `n` bytes at byte `o`. -/
def Packet.f (k : Packet) (o n : Nat) : Nat := k.hdr.toNat / 2 ^ (8 * o) % 2 ^ (8 * n)

def Packet.cls (k : Packet) : Nat := bits (k.f 0 1) 7 5
def Packet.level (k : Packet) : Bool := bit (k.f 0 1) 4
def Packet.esc (k : Packet) : Bool := bit (k.f 0 1) 3
def Packet.fence (k : Packet) : Bool := bit (k.f 0 1) 2
def Packet.de (k : Packet) : Bool := bit (k.f 0 1) 1
def Packet.mcast (k : Packet) : Bool := bit (k.f 0 1) 0
def Packet.detoured (k : Packet) : Bool := bit (k.f 1 1) 7
def Packet.xsite (k : Packet) : Bool := bit (k.f 1 1) 6
def Packet.retrySeen (k : Packet) : Bool := bit (k.f 1 1) 5
def Packet.tag (k : Packet) : Nat := k.f 2 2
def Packet.dst (k : Packet) : Nat := bits (k.f 4 4) 19 0
def Packet.dlog (k : Packet) : Nat := bits (k.f 8 4) 19 0
def Packet.slog (k : Packet) : Nat := bits (k.f 12 4) 19 0
def Packet.sphys (k : Packet) : Nat := bits (k.f 16 4) 19 0
def Packet.diverter (k : Packet) : Nat := bits (k.f 20 4) 19 0
def Packet.len (k : Packet) : Nat := bits (k.f 24 2) 11 0
def Packet.mask (k : Packet) : Nat := k.f 26 2
def Packet.weft (k : Packet) : Bool := bit (k.f 28 1) 7
def Packet.hops (k : Packet) : Nat := bits (k.f 28 1) 3 0
def Packet.user (k : Packet) : Nat := k.f 29 1

/-- The payload field of `n` bytes at byte `o`. -/
def Packet.p (k : Packet) (o n : Nat) : Nat := fieldAt k.payload o n

/-- Rewrite `w` header bits from bit `lo`. -/
def Packet.put (k : Packet) (lo w v : Nat) : Packet :=
  let h := k.hdr.toNat
  { k with hdr := BitVec.ofNat 256 (h - h / 2 ^ lo % 2 ^ w * 2 ^ lo + v % 2 ^ w * 2 ^ lo) }

/-- A header with a reserved bit set or a field out of range (R270). -/
def Packet.bad (k : Packet) : Bool :=
  bits (k.f 1 1) 4 0 != 0 || bits (k.f 8 4) 31 20 != 0 || bits (k.f 12 4) 31 20 != 0 || bits (k.f 16 4) 31 20 != 0 ||
    bits (k.f 20 4) 31 20 != 0 || bits (k.f 24 2) 15 12 != 0 || bits (k.f 28 1) 6 4 != 0 || k.f 30 2 != 0 ||
    Nat.blt 4 k.cls || Nat.blt 2048 k.len || (k.mcast && k.cls != 2 && k.cls != 4) || k.user == 0 || Nat.blt 6 k.user

/-- Flits of a packet (R271). -/
def Packet.flits (k : Packet) : Nat := ceilDiv (32 + k.payload.length) 240

/-- Units of 64 bytes a packet is charged (R291). -/
def Packet.units (k : Packet) : Nat := ceilDiv (32 + k.payload.length) 64

/-- Which reservation a HIGH or ESC packet falls back on: 0 to 4 the HIGH levels, 5 and 6 ESC for REQ and COLL. -/
def Packet.room (k : Packet) : Option Nat :=
  if k.esc then some (if k.cls = 0 then 5 else 6) else if k.level then some k.cls else none

/-- The channel and level of a packet's flits: ESC tells its classes apart by LEVEL (notes/assumptions/20.md). -/
def Packet.lane (k : Packet) : BitVec 3 × Bool := if k.esc then (5, k.cls == 2) else (BitVec.ofNat 3 k.cls, k.level)

/-- The group of a packet in the COLL channel. -/
def Packet.gid (k : Packet) : Nat := k.p 2 2

/-- Packets of one channel and level keep their order: the first of each is the only one that may leave; in the COLL channel each group has
a queue of its own (R317). -/
def Packet.sameQueue (a b : Packet) : Bool :=
  a.cls == b.cls && a.level == b.level && a.esc == b.esc && a.de == b.de && (a.cls != 2 || a.esc || a.gid == b.gid)

/-- The colour of a DE packet: 0 green, 1 yellow, 2 red. -/
def Packet.colour (k : Packet) : Nat := if k.user = 6 then 2 else if k.cls = 1 then 0 else 1

/-- One more hop. -/
def Packet.hop (k : Packet) : Packet := k.put 224 4 (k.hops + 1)

/-- What a boundary port lets past: BULK with XSITE, and RSP with XSITE (R279). -/
def Packet.crosses (k : Packet) : Bool := k.xsite && (k.cls == 3 || k.cls == 1)

/-- A packet that is itself a notice. -/
def Packet.isNotice (k : Packet) : Bool := k.cls == 4 && k.tag == 0 && k.user == 5 && k.payload.length == 64

/-! ## The remote-memory header (R296, Table 13.3) -/

def Packet.rkind (k : Packet) : Nat := k.p 0 1
def Packet.rfl (k : Packet) : Nat := k.p 1 1
def Packet.aop (k : Packet) : Nat := k.p 2 1
def Packet.key (k : Packet) : Nat := k.p 4 4
def Packet.roff (k : Packet) : Nat := k.p 8 6
def Packet.opid (k : Packet) : Nat := k.p 14 2

/-- A used RKIND and no reserved bit. -/
def Packet.remOk (k : Packet) : Bool :=
  Nat.ble 16 k.payload.length && Nat.ble 1 k.rkind && Nat.ble k.rkind 7 && bits k.rfl 5 0 == 0 && Nat.blt k.roff (2 ^ 42)

/-! ## The shuttle header (Table 8.5) -/

def Packet.xch (k : Packet) : Nat := k.p 4 1 % 64
def Packet.xbatch (k : Packet) : Option (Nat × Nat) := if bit (k.p 1 1) 5 then some (k.p 2 1, k.p 3 1) else none

/-- A packet's kind is one of Table 8.5 and its reserved bits are 0. -/
def Packet.xOk (k : Packet) (kind : Nat) : Bool :=
  k.p 0 1 == kind && k.p 1 1 % 16 == 0 && Nat.blt (k.p 4 1) 64 && Nat.blt (k.p 5 1) 16 && Nat.blt (k.p 8 2) 16384

end Sys2Proof
end

