-- ==== Sys2Proof/Machine/Flits.lean ====
section
/-!
DEFINITION. The link flit: its layout, its CRC, and the flits of a packet (R271, Table 12.4).
-/
namespace Sys2Proof.Machine

/-- CRC-32 of IEEE 802.3. -/
def crc32 (l : List Byte) : Nat :=
  let step := fun (c : BitVec 32) => if c.getLsbD 0 then (c >>> 1) ^^^ 0xEDB88320#32 else c >>> 1
  let byte := fun (c : BitVec 32) (b : Byte) => (List.range 8).foldl (fun c _ => step c) (c ^^^ b.setWidth 32)
  (l.foldl byte 0xFFFFFFFF#32 ^^^ 0xFFFFFFFF#32).toNat

/-- A link flit as its 256 bytes say. -/
structure Flit where
  crcOk : Bool
  seq : BitVec 12
  head : Bool
  tail : Bool
  replay : Bool
  retried : Bool
  abort : Bool
  vc : BitVec 3
  level : Bool
  /-- CREDIT where it is VALID: channel, level, flits returned -/
  credit : Option (BitVec 3 × Bool × BitVec 5)
  /-- ACK where it is VALID: NAK, sequence number -/
  ack : Option (Bool × BitVec 12)
  data : List Byte
  deriving DecidableEq, Repr

/-- The flit that 256 bytes spell: its CRC covers bytes 0 to 251. -/
def flitOf (b : List Byte) : Flit :=
  let c := fieldAt b 0 4
  let r := fieldAt b 4 4
  let a := fieldAt b 8 4
  { crcOk := b.length == 256 && crc32 (b.take 252) == fieldAt b 252 4
    seq := BitVec.ofNat 12 (bits c 31 20), head := bit c 19, tail := bit c 18, replay := bit c 17, retried := bit c 16 && bit c 18,
    abort := bit c 15 && bit c 18, vc := BitVec.ofNat 3 (bits c 14 12), level := bit c 11,
    credit := if bit r 31 then some (BitVec.ofNat 3 (bits r 30 28), bit r 27, BitVec.ofNat 5 (bits r 26 22)) else none
    ack := if bit a 31 then some (bit a 30, BitVec.ofNat 12 (bits a 29 18)) else none
    data := slice b 12 240 }

/-- The bytes of a flit. -/
def Flit.bytes (f : Flit) : List Byte :=
  let c := f.seq.toNat * 2 ^ 20 + b2n f.head * 2 ^ 19 + b2n f.tail * 2 ^ 18 + b2n f.replay * 2 ^ 17 + b2n f.retried * 2 ^ 16 +
    b2n f.abort * 2 ^ 15 + f.vc.toNat * 2 ^ 12 + b2n f.level * 2 ^ 11
  let r := match f.credit with | some (v, l, n) => 2 ^ 31 + v.toNat * 2 ^ 28 + b2n l * 2 ^ 27 + n.toNat * 2 ^ 22 | none => 0
  let a := match f.ack with | some (n, q) => 2 ^ 31 + b2n n * 2 ^ 30 + q.toNat * 2 ^ 18 | none => 0
  let body := toLe 4 c ++ toLe 4 r ++ toLe 4 a ++ (f.data ++ List.replicate (240 - f.data.length) 0)
  body ++ toLe 4 (crc32 body)

/-- An idle flit that carries an acknowledgement, or a NAK. -/
def idleFlit (nak : Bool) (seq : BitVec 12) : Flit :=
  { crcOk := true, seq := 0, head := false, tail := false, replay := false, retried := false, abort := false, vc := 7, level := false,
    credit := none, ack := some (nak, seq), data := [] }

/-- A flit of a packet in the replay buffer: 240 bytes of header and payload, zeros after the last. -/
def Flight.flit (f : Flight) : Flit :=
  let k := f.packet
  { crcOk := true, seq := f.seq, head := f.index == 0, tail := f.tail, replay := Nat.blt 0 f.replays, retried := f.tail && k.retried,
    abort := f.tail && k.abort, vc := k.lane.1, level := k.lane.2, credit := none, ack := none,
    data := slice (toLe 32 k.hdr.toNat ++ k.payload) (240 * f.index) 240 }

end Sys2Proof.Machine
end

