-- ==== Sys2Proof/Machine/Packets.lean ====
section
/-!
DEFINITION. Fabric packets: the header, routing by coordinate, output queues with credits and their choice of the next packet,
drop-eligible arrivals, discards and notices (R266 to R293).
-/
namespace Sys2Proof.Machine

/-- What a sender chooses of a header. -/
structure Envelope where
  cls : Nat
  user : Nat
  tag : Nat
  dst : Nat
  dlog : Nat
  fence : Bool
  de : Bool
  xsite : Bool
  retrySeen : Bool
  mask : Nat
  weft : Bool
  deriving DecidableEq, Repr

/-- A plain unicast envelope. -/
def Envelope.bound (cls user tag dst dlog : Nat) : Envelope :=
  { cls := cls, user := user, tag := tag, dst := dst, dlog := dlog, fence := false, de := false, xsite := false, retrySeen := false,
    mask := 0, weft := false }

/-- A packet of this module. -/
def Dev.packet (d : Dev) (v : Envelope) (payload : List Byte) : Packet :=
  let ctl := v.cls * 32 + b2n v.fence * 4 + b2n v.de * 2 + b2n (v.mask != 0)
  let xf := b2n v.xsite * 64 + b2n v.retrySeen * 32
  { hdr := BitVec.ofNat 256 (ctl + xf * 2 ^ 8 + v.tag * 2 ^ 16 + v.dst * 2 ^ 32 + v.dlog * 2 ^ 64 + d.routing.log.toNat * 2 ^ 96 +
      d.routing.phys.toNat * 2 ^ 128 + payload.length * 2 ^ 192 + v.mask * 2 ^ 208 + b2n v.weft * 2 ^ 231 + v.user * 2 ^ 232),
    payload := payload, retried := false, abort := false }

/-! ## Coordinates and tables (R266 to R268) -/

def boltOf (c : Nat) : Nat := c / 256
def rowOf (c : Nat) : Nat := c / 16 % 16
def colOf (c : Nat) : Nat := c % 16
def coord (b r c : Nat) : Nat := b * 256 + r * 16 + c

def Dev.self (d : Dev) : Nat := d.routing.phys.toNat

/-- The coordinate of a logical ID; none where its entry is not VALID (R267). -/
def Dev.lookup (d : Dev) (log : Nat) : Option Nat :=
  let e := (Tbl.lookD d.routing.l2p log (0 : W32)).toNat
  if bit e 31 then some (bits e 19 0) else none

def Dev.spanEntry (d : Dev) (bolt : Nat) : Nat := (Tbl.lookD d.routing.span bolt (0 : Word)).toNat

/-- The gateway of a span entry, and its fabric port. -/
def gateway (own entry : Nat) : Nat := coord own (bits entry 12 9) (bits entry 8 5)
def gatePort (entry : Nat) : Nat := 30 + bits entry 4 0

/-- The warp port toward a column, and the weft port toward a row (R264). -/
def warpPort (own col : Nat) : Nat := if col < own then col else col - 1
def weftPort (own row : Nat) : Nat := 15 + (if row < own then row else row - 1)

/-- The port's link is up. -/
def Port.up (p : Port) : Bool := p.link == .up4 || p.link == .up3

/-- Fabric ports that are up. -/
def Dev.upPorts (d : Dev) : List Nat := (List.range 48).filter (fun n => (d.port n).up)

/-! ## Output queues (R272, R288 to R290) -/

/-- The credits a packet may use. -/
def Port.creditFor (p : Port) (k : Packet) : Nat :=
  p.credits + (match k.room with | some r => if k.de then 0 else Tbl.lookD p.reserved r 9 | none => 0)

/-- A packet may start: credits for all of it, more than 9 for a DE packet, and room in the replay buffer. -/
def Port.mayStart (p : Port) (k : Packet) : Bool :=
  k.flits ≤ p.creditFor k && (!k.de || 9 < p.creditFor k) && p.flights.length + k.flits ≤ 512

/-- The first waiting packet that meets a condition, may start and passes no packet of its channel. -/
def Port.ready (p : Port) (want : Packet → Bool) : Option Packet :=
  (p.waiting.zipIdx.find? (fun (k, i) => want k && p.mayStart k && (p.waiting.take i).all (fun b => !b.sameQueue k))).map (fun x => x.1)

/-- HIGH before LOW. -/
def Port.readyLevels (p : Port) (want : Packet → Bool) : Option Packet :=
  (p.ready (fun k => want k && k.level)) <|> (p.ready want)

/-- The groups with a packet of a kind that may start. -/
def Port.collReady (p : Port) (want : Packet → Bool) : List Nat :=
  (((p.waiting.filter want).map Packet.gid).eraseDups).filter (fun g => (p.ready (fun k => want k && k.gid == g)).isSome)

/-- The next packet of the COLL channel, by deficit round robin among groups: a turn adds 2,080 bytes, and a packet leaves when its group's
deficit covers it (R317). The fuel bounds the turns. -/
def Port.collNext (want : Packet → Bool) : Nat → Port → Option (Packet × Port)
  | 0, _ => none
  | fuel + 1, p =>
    let held := Tbl.lookD p.collDeficit p.collTurn 0
    let k := p.ready (fun k => want k && k.gid == p.collTurn)
    match k.filter (fun k => Nat.ble (32 + k.payload.length) held) with
    | some k => some (k, { p with collDeficit := Tbl.put p.collDeficit p.collTurn (held - (32 + k.payload.length)) })
    | none =>
      match roundRobin 65536 p.collTurn (p.collReady want) with
      | none => none
      | some g => Port.collNext want fuel { p with collTurn := g, collDeficit := Tbl.upd p.collDeficit g 0 (· + 2080) }

/-- The next packet of the COLL channel: HIGH before LOW. -/
def Port.collLevels (p : Port) (want : Packet → Bool) : Option (Packet × Port) :=
  let fuel := 3 * p.waiting.length + 3
  (Port.collNext (fun k => want k && k.level) fuel p) <|> (Port.collNext want fuel p)

/-- The telemetry floor of an output per 10 µs (Table 13.2). -/
def Port.floor (p : Port) : Nat := match p.link with | .up4 => 20 | .up3 => 15 | _ => 0
def Port.ceiling (p : Port) : Nat := 4 * p.floor

/-- Classes in the deficit round robin: REQ, RSP, COLL, BULK, and 5 the DE queue. -/
def robin : Nat → Nat
  | 0 => 1 | 1 => 2 | 2 => 3 | 3 => 5 | _ => 0

def inTurn (c : Nat) (k : Packet) : Bool := !k.esc && (if c = 5 then k.de else !k.de && k.cls == c)

/-- Deficit round robin: each turn adds the class's SHARE in flits; a packet leaves when the deficit covers it (R289). -/
def Port.drr (share : Nat → Nat) : Nat → Port → Option (Packet × Port)
  | 0, _ => none
  | fuel + 1, p =>
    let deficit := Tbl.lookD p.deficit p.turn 0
    match if p.turn = 2 then p.collLevels (inTurn 2) else (p.readyLevels (inTurn p.turn)).map (fun k => (k, p)) with
    | some (k, q) =>
      if k.flits ≤ deficit then some (k, { q with deficit := Tbl.put p.deficit p.turn (deficit - k.flits) })
      else
        let next := robin p.turn
        Port.drr share fuel { p with turn := next, deficit := Tbl.upd p.deficit next 0 (· + share next) }
    | none =>
      let next := robin p.turn
      let kept := if p.waiting.any (inTurn p.turn) then p.deficit else Tbl.put p.deficit p.turn 0
      Port.drr share fuel { p with turn := next, deficit := Tbl.upd kept next 0 (· + share next) }

/-- The next packet an output starts, in the order of R289. -/
def Port.choose (p : Port) (share : Nat → Nat) (frameLen : Nat) : Option (Packet × Port) :=
  match p.ready (fun k => k.cls == 4 && k.user == 6 && Nat.ble (p.telemetry + k.flits) (p.floor * frameLen)) with
  | some k => some (k, p)
  | none =>
    match p.ready (fun k => k.esc) with
    | some k => some (k, p)
    | none =>
      match p.readyLevels (fun k => k.cls == 4 && !k.esc) with
      | some k => some (k, p)
      | none => if p.waiting.any (fun k => p.mayStart k && k.cls != 4) then Port.drr share 100 p else none

/-- Take the first of equals out. -/
def removeFirst {α : Type} [DecidableEq α] (x : α) : List α → List α
  | [] => []
  | y :: t => if y = x then t else y :: removeFirst x t

/-- A packet starts on a port: its flits take credits and stay in the replay buffer. The time without an acknowledgement counts from here
where no flit was outstanding (R274). -/
def Port.start (p : Port) (k : Packet) (now : Tick) : Port :=
  let n := k.flits
  let shared := min n p.credits
  let flights := (List.range n).map (fun i =>
    ({ seq := p.txSeq + BitVec.ofNat 12 i, packet := k, index := i, tail := i + 1 == n, replays := 0 } : Flight))
  let rest := removeFirst k p.waiting
  { p with
    waiting := rest, credits := p.credits - shared,
    reserved := (match k.room with | some r => if shared < n then Tbl.upd p.reserved r 9 (· - (n - shared)) else p.reserved | none => p.reserved),
    flights := p.flights ++ flights, ackTick := if p.flights.isEmpty then now else p.ackTick, txSeq := p.txSeq + BitVec.ofNat 12 n, cnt := bump p.cnt 0x40 n,
    collDeficit := p.collDeficit.filter (fun e => rest.any (fun q => inTurn 2 q && q.gid == e.1)),
    telemetry := if k.user = 6 then p.telemetry + n else p.telemetry,
    deDepth := if k.de then p.deDepth - n else p.deDepth }

/-- Start packets on a port while one may leave. The fuel is the number of packets that wait. -/
def Dev.pumpGo : Nat → Dev → Nat → Dev
  | 0, d, _ => d
  | fuel + 1, d, n =>
    match (d.port n).choose d.xbar.shareOf d.frames.len.toNat with
    | none => d
    | some (k, p) => Dev.pumpGo fuel ((d.setPort n (p.start k d.phys)).emit (.packet (some n) k)) n

def Dev.pump (d : Dev) (n : Nat) : Dev := Dev.pumpGo (d.port n).waiting.length d n

/-! ## Drop-eligible arrivals (R292, R293) -/

/-- A DE packet arrives at an output: the queue's average moves, and the packet joins the queue or is dropped. -/
def Dev.deArrive (d : Dev) (n : Nat) (k : Packet) : Dev :=
  let p := d.port n
  let avg := p.deAvg + Int.tdiv ((p.deDepth : Int) * 16 - p.deAvg) 16
  let red := (Tbl.lookD d.xbar.red k.colour (redReset k.colour)).toNat
  let pmax := bits red 31 24
  let hi : Int := (bits red 23 16 : Nat) * 16
  let lo : Int := (bits red 15 8 : Nat) * 16
  let draw := (Config.freeValue d.draws).toNat
  let chance := if avg < lo then false else if hi ≤ avg then true
                else decide ((draw : Int) * (256 * (hi - lo)) < (pmax : Int) * (avg - lo) * 2 ^ 64)
  let d := (d.setPort n { p with deAvg := avg })
  let d := { d with draws := d.draws + 1 }
  let lost := fun (off : Nat) =>
    ({ d with xbar := { d.xbar with cnt := bump d.xbar.cnt off 1 } }).alarm 0x20 (0x100000 + off) n
      (Tbl.lookD d.xbar.cnt off 0 + 1)
  if chance then lost (0x40 + 8 * k.colour)
  else if 128 < p.deDepth + k.flits then lost 0x58
  else (d.modPort n (fun q => { q with waiting := q.waiting ++ [k], deDepth := q.deDepth + k.flits })).pump n

/-- A packet reaches an output. -/
def Dev.sendOn (d : Dev) (n : Nat) (k : Packet) : Dev :=
  if k.de then d.deArrive n k else (d.modPort n (fun q => { q with waiting := q.waiting ++ [k] })).pump n

/-! ## Routing (R276 to R280) -/

/-- RT_ADAPT_STS.STATE. -/
def Dev.adaptState (d : Dev) : Nat :=
  if !d.isRunning .routing then 0 else if d.fixedPace then 3 else if d.routing.adaptOff then 2 else 1

/-- Flits that wait at a port for a packet's class and level. -/
def Port.backlog (p : Port) (k : Packet) : Nat := ((p.waiting.filter (fun q => q.cls == k.cls && q.level == k.level)).map Packet.flits).sum

/-- Flits that wait at a port. -/
def Port.backlogAll (p : Port) : Nat := (p.waiting.map Packet.flits).sum

/-- Where a packet goes. -/
inductive Route where
  | here
  | out (port : Nat) (k : Packet)
  /-- detoured at this gateway; `forced` because the named port is down -/
  | detour (port : Nat) (k : Packet) (forced : Bool)
  /-- a FENCE packet waits for confirmations -/
  | hold
  /-- discarded under a cause of Table 12.6, at a fabric port where one is named -/
  | drop (cause : Nat) (port : Option Nat)
  /-- another domain's packet that the boundary keeps out: no notice crosses back (R279, R281) -/
  | barred
  deriving DecidableEq, Repr

/-- The detour port that step 4 of R276 offers a packet, whatever the backlog of the named port. -/
def Dev.detourPort (d : Dev) (k : Packet) (entry : Nat) : Option Nat :=
  let via := bits entry 59 48
  let e2 := d.spanEntry via
  let p2 := gatePort e2
  if (k.cls = 0 ∨ k.cls = 2) && !k.level && !k.fence && !k.xsite && !k.detoured && bit entry 62 && bit e2 63 &&
      via != boltOf d.self && gateway (boltOf d.self) e2 == d.self && (d.port p2).up && d.routing.detours.length < 4096 &&
      2 * (d.port p2).backlogAll < d.routing.thresh.toNat then some p2 else none

/-- A packet takes its span hop at the gateway. -/
def Dev.spanHop (d : Dev) (k : Packet) (entry : Nat) : Route :=
  let p := gatePort entry
  let up := if k.level then k.put 3 1 1 else k.put 4 1 1
  let away := fun p2 forced =>
    let k1 := ((up.put 15 1 1).put 52 12 (bits entry 59 48)).put 160 20 d.self
    Route.detour p2 k1.hop forced
  let waits := d.routing.detours.any (fun x => x == (BitVec.ofNat 20 k.sphys, BitVec.ofNat 20 k.dst, k.cls))
  if k.fence && waits then .hold
  else if (d.port p).up then
    match d.detourPort k entry with
    | some p2 => if d.adaptState = 1 && d.routing.thresh.toNat < (d.port p).backlog k then away p2 false else .out p up.hop
    | none => .out p up.hop
  else match d.detourPort k entry with
    | some p2 => if d.adaptState = 1 || d.adaptState = 3 then away p2 true else .drop 3 (some p)
    | none => .drop 3 (some p)

/-- A warp or weft hop toward a coordinate of this bolt. -/
def Dev.localHop (d : Dev) (k : Packet) (target : Nat) : Route :=
  let p := if colOf target ≠ colOf d.self then warpPort (colOf d.self) (colOf target) else weftPort (rowOf d.self) (rowOf target)
  if (d.port p).up then .out p k.hop else .drop 3 (some p)

/-- The route of a packet that is not for this module; one that crosses a site boundary goes by RT_MIRROR and never by the span table
(R276, R280). -/
def Dev.routeOn (d : Dev) (k : Packet) : Route :=
  let here := d.self
  if 8 ≤ k.hops then .drop 4 none
  else if k.xsite && !k.level then
    let m := d.routing.mirror.toNat
    let gate := coord (boltOf here) (bits m 15 12) (bits m 11 8)
    if !bit m 31 then .drop 3 none
    else if gate = here then
      let p := 30 + bits m 4 0
      if (d.port p).up then .out p (k.put 4 1 1).hop else .drop 3 (some p)
    else d.localHop k gate
  else if boltOf k.dst = boltOf here then d.localHop k k.dst
  else if k.xsite then .drop 3 none
  else
    let e := d.spanEntry (boltOf k.dst)
    if !bit e 63 then .drop 3 none
    else if gateway (boltOf here) e = here then d.spanHop k e
    else d.localHop k (gateway (boltOf here) e)

/-- The route of a packet, the marks of the ports it came by and leaves by applied. A detoured packet clears VIA_BOLT in the detour bolt. -/
def Dev.route (d : Dev) (from' : Option Nat) (k : Packet) : Route :=
  let barred := match from' with | some p => (d.port p).site && !k.crosses | none => false
  if barred then .barred
  else if k.mcast && from'.isSome then .here
  else if k.dst = d.self && !(k.xsite && !k.level && from'.isNone) then .here
  else
    let k := if k.detoured && k.level then k.put 52 12 0 else k
    match d.routeOn k with
    | .out p k' => if (d.port p).site && !k'.crosses then .drop 6 (some p) else .out p k'
    | .detour p k' f => if (d.port p).site && !k'.crosses then .drop 6 (some p) else .detour p k' f
    | r => r

/-! ## Discards and notices (R281) -/

/-- The counter of a discard cause in the routing block. -/
def causeCounter : Nat → Nat
  | 2 => 0x80 | 3 => 0x50 | 4 => 0x58 | 5 => 0x60 | 6 => 0x68 | 7 => 0x70 | _ => 0x78

def Dev.countRt (d : Dev) (off : Nat) : Dev := { d with routing := { d.routing with cnt := bump d.routing.cnt off 1 } }

/-- The notice about a discarded packet. -/
def Dev.notice (d : Dev) (cause : Nat) (port : Option Nat) (k : Packet) (dst : Nat) : Packet :=
  d.packet (.bound 4 5 0 dst k.slog)
    ([BitVec.ofNat 8 cause, 0] ++ toLe 2 (port.getD 0xFFFF) ++ toLe 4 d.self ++ List.replicate 8 0 ++ toLe 32 k.hdr.toNat ++ slice k.payload 0 16)

/-- Route a packet that is dropped without notice where it cannot go. -/
def Dev.routeQuiet (d : Dev) (k : Packet) : Dev :=
  match d.route none k with
  | .here => d.emit (.packet none k)
  | .out p k' => d.sendOn p k'
  | .detour p k' _ => d.sendOn p k'
  | .hold => d
  | .drop c _ => d.countRt (causeCounter c)
  | .barred => d.countRt (causeCounter 6)

/-- Return a notice to the packet's source, in its own domain; none goes back about a notice. -/
def Dev.sendNotice (d : Dev) (cause : Nat) (port : Option Nat) (k : Packet) : Dev :=
  if k.isNotice || (k.xsite && k.level && cause == 6) then d
  else
    let d := d.countRt 0x88
    if k.slog = d.routing.log.toNat then d.emit (.packet none (d.notice cause port k d.self))
    else match d.lookup k.slog with
      | some dst => d.routeQuiet (d.notice cause port k dst)
      | none => d.countRt (causeCounter 3)

/-- Discard a packet: count it, raise the alarm of causes 3 to 6, and return a notice where Table 12.6 gives one. -/
def Dev.discard (d : Dev) (cause : Nat) (port : Option Nat) (k : Packet) : Dev :=
  let off := causeCounter cause
  let d := if cause = 1 then
      (match port with | some p => d.modPort p (fun x => { x with cnt := bump x.cnt 0x78 1 }) | none => d)
    else d.countRt off
  let d := if 3 ≤ cause && cause ≤ 6 then d.alarm 0x22 (0x160000 + off) (port.getD 0xFFFF) (Tbl.lookD d.routing.cnt off 0) else d
  if cause = 1 || (3 ≤ cause && cause ≤ 6) then d.sendNotice cause port k else d

/-- Follow a route. -/
def Dev.follow (d : Dev) (k : Packet) : Route → Dev
  | .here => d.emit (.packet none k)
  | .out p k' => d.sendOn p k'
  | .detour p k' forced =>
    let d := d.countRt 0x40
    let d := if forced then { d.countRt 0x48 with time := { d.time with spreadLost := true } } else d
    ({ d with routing := { d.routing with
        detours := d.routing.detours ++ [(BitVec.ofNat 20 k.sphys, BitVec.ofNat 20 k.dst, k.cls)] } }).sendOn p k'
  | .hold => { d with routing := { d.routing with held := d.routing.held ++ [k] } }
  | .drop c p => d.discard c p k
  | .barred => (d.countRt 0x68).alarm 0x22 0x160068 0xFFFF (Tbl.lookD d.routing.cnt 0x68 0 + 1)

/-- A packet leaves an engine of this module: a multicast copies it to every member of its row or column, the own member locally (R278);
a DE packet that may not carry DE is discarded as a bad header (R292). -/
def Dev.inject (d : Dev) (k : Packet) : Dev :=
  if k.de && !(k.user == 6 && k.cls == 3) && !(k.user == 2 && (k.cls == 3 || k.cls == 0 || k.cls == 1)) then d.countRt 0x70
  else if k.mcast then
    let own := if k.weft then rowOf d.self else colOf d.self
    (List.range 16).foldl (fun d i =>
      if !bit k.mask i then d
      else if i = own then d.emit (.packet none k)
      else
        let p := if k.weft then weftPort own i else warpPort own i
        if (d.port p).up then d.sendOn p k.hop else d.discard 3 (some p) k) d
  else d.follow k (d.route none k)

/-- Fabric bytes of a packet of this module: those that leave through a port (R97). -/
def Dev.fabricBytes (d : Dev) (k : Packet) : Nat :=
  if k.mcast then (popCount 16 k.mask - b2n (bit k.mask (if k.weft then rowOf d.self else colOf d.self))) * (32 + k.payload.length)
  else if k.dlog = d.routing.log.toNat && !k.xsite then 0 else 32 + k.payload.length

/-! ## Injection for a claim (R249, R251, R266, R267, R269) -/

/-- A packet with the coordinate that its logical ID has now, this module's for its own; none where the entry is not VALID. One across a site
boundary keeps the coordinate that its op names (R304). -/
def Dev.addressed (d : Dev) (k : Packet) : Option Packet :=
  if k.mcast || k.xsite then some k
  else if k.dlog == d.routing.log.toNat then some (k.put 32 20 d.self)
  else (d.lookup k.dlog).map (fun p => k.put 32 20 p)

/-- What the FABRIC meter of its class charges for a packet: every copy that leaves through a port. -/
def Dev.fabricCharge (d : Dev) (k : Packet) : Nat := d.fabricBytes k / (32 + k.payload.length) * k.units

/-- A remote op's packet leaves: its timeouts count from here (R294, R295). -/
def Dev.noteSent (d : Dev) (op : Option (Nat × W32)) : Dev :=
  { d with xbar := { d.xbar with rem := d.xbar.rem.map (fun o => if op == some (o.ring, o.count) then { o with lastSent := d.phys } else o) } }

/-- A packet is injected under its coordinate; where there is none it is not sent, and the op that sends it fails. -/
def Dev.injectNow (d : Dev) (op : Option (Nat × W32)) (k : Packet) : Dev :=
  match d.addressed k, op with
  | some k, _ => (d.noteSent op).inject k
  | none, some o => d.failExchange o.1 o.2 0xFFFF
  | none, none => d

/-- A request is served: what it is for goes on. -/
def Dev.serveAsk (d : Dev) (a : Ask) : Dev :=
  match a.what with
  | .packet k op => (d.admitAsk a).injectNow op k
  | _ => d.admitAsk a

/-- A packet for a claim: it asks at the FABRIC meter of its class, and leaves at once where no other request waits and it may be served;
one that uses no port asks nothing. -/
def Dev.injectFor (d : Dev) (c : Nat) (op : Option (Nat × W32)) (k : Packet) : Dev :=
  let n := d.fabricCharge k
  if n = 0 then d.injectNow op k
  else
    let a : Ask := { meter := 32 + (if k.de then 5 else k.cls), claim := c, units := n, deep := 0, what := .packet k op }
    let free := (d.asksAt a.meter).isEmpty
    let d := { d with frames := { d.frames with asks := d.frames.asks ++ [a] } }
    match if free then d.nextAsk a.meter else none with
    | some x => d.serveAsk x
    | none => d

/-! ## Tags at ingress (R282, R346) -/

/-- The tag is revoked on this module. -/
def Dev.tagRevoked (d : Dev) (t : Nat) : Bool :=
  t != 0 && (match d.tag t with | some x => x.st != .active | none => true)

/-- The current tag of a claim: the one in ASSIGNED, STARTING or ACTIVE (R347). -/
def Dev.currentTag (d : Dev) (c : Nat) : Option (Nat × Tag) := d.time.tags.find? (fun e => e.2.claim == c && e.2.st != .draining)

/-- The tag under which an op of a claim may send. -/
def Dev.sendTag (d : Dev) (c : Nat) : Option Nat := ((d.currentTag c).filter (fun e => e.2.st == .active)).map (fun e => e.1)

end Sys2Proof.Machine
end

