-- ==== Sys2Proof/Machine/Groups.lean ====
section
/-!
DEFINITION. The groups of collective ops with their tree, and the operands of these ops (R309 to R313, Table 14.3).
-/
namespace Sys2Proof.Machine

/-! ## Groups and the tree (R309 to R312) -/

def Group.gid (g : Group) : Nat := bits g.entry.toNat 15 0
def Group.claim (g : Group) : Nat := bits g.entry.toNat 20 16
def Group.lo (g : Group) : Nat := bits g.entry.toNat 43 32
def Group.hi (g : Group) : Nat := bits g.entry.toNat 59 48
def Group.rowMask (g : Group) : Nat := bits g.entry.toNat 79 64
def Group.colMask (g : Group) : Nat := bits g.entry.toNat 95 80
def Group.rows (g : Group) : List Nat := setBits 16 g.rowMask
def Group.cols (g : Group) : List Nat := setBits 16 g.colMask
def Group.r0 (g : Group) : Nat := g.rows.headD 0
def Group.c0 (g : Group) : Nat := g.cols.headD 0

def Group.isMember (g : Group) (p : Nat) : Bool :=
  Nat.ble g.lo (boltOf p) && Nat.ble (boltOf p) g.hi && g.rows.contains (rowOf p) && g.cols.contains (colOf p)

/-- TO, in microseconds. -/
def Group.limit (g : Group) : Nat := bits g.entry.toNat 111 96

/-- n of R311. -/
def Group.members (g : Group) : Nat := (g.hi - g.lo + 1) * g.rows.length * g.cols.length

/-- The rank of a member (R311). -/
def Group.rank (g : Group) (p : Nat) : Nat :=
  ((boltOf p - g.lo) * g.rows.length + g.rows.idxOf (rowOf p)) * g.cols.length + g.cols.idxOf (colOf p)

/-- The member of a rank. -/
def Group.at (g : Group) (k : Nat) : Nat :=
  let c := g.cols.length
  let r := g.rows.length
  coord (g.lo + k / (r * c)) (nth g.rows (k / c % r) 0) (nth g.cols (k % c) 0)

/-- The parent of a member; none for the root (R312). -/
def Group.parent (g : Group) (p : Nat) : Option Nat :=
  if colOf p ≠ g.c0 then some (coord (boltOf p) (rowOf p) g.c0)
  else if rowOf p ≠ g.r0 then some (coord (boltOf p) g.r0 g.c0)
  else if boltOf p = g.lo then none
  else some (coord (g.lo + (boltOf p - g.lo - 1) / 16) g.r0 g.c0)

/-- Span children, in ascending bolt. -/
def Group.spanChildren (g : Group) (p : Nat) : List Nat :=
  if colOf p = g.c0 ∧ rowOf p = g.r0 then
    ((List.range 16).map (fun j => g.lo + 16 * (boltOf p - g.lo) + j + 1)).filterMap
      (fun b => if b ≤ g.hi then some (coord b g.r0 g.c0) else none)
  else []

/-- The children of a member, in the order of R313. -/
def Group.children (g : Group) (p : Nat) : List Nat :=
  (if colOf p = g.c0 then g.cols.tail.map (fun c => coord (boltOf p) (rowOf p) c) else []) ++
    (if colOf p = g.c0 ∧ rowOf p = g.r0 then g.rows.tail.map (fun r => coord (boltOf p) r g.c0) else []) ++ g.spanChildren p

/-- The root's coordinate. -/
def Group.root (g : Group) : Nat := coord g.lo g.r0 g.c0

/-! ## The op's operands (Table 14.3) -/

def cCount (e : Entry) : Nat := fld e.desc 32 4
def cRop (e : Entry) : Nat := fld e.desc 37 1
def cOp (e : Entry) : Nat := bits (cRop e) 7 6
def cGrade (e : Entry) : Nat := bits (cRop e) 5 4
def cArrival (e : Entry) : Bool := bit (cRop e) 3
def cEmpty (e : Entry) : Bool := bit (cRop e) 2
def cIfmt (e : Entry) : Nat := bits (fld e.desc 38 1) 3 0
def cOut (e : Entry) : OutCtl := outCtl (fld e.desc 39 1)
def cSlot (e : Entry) : Nat := bits (fld e.desc 36 1) 5 0
def cGathers (e : Entry) : Bool := hOpcode e.desc == 0x52 || hOpcode e.desc == 0x53

/-- Bytes of an element of a packed array. -/
def packBytes (fmt : Nat) : Nat := if fmt = 5 then 2 else 4

/-- Elements this node contributes. -/
def cOwn (e : Entry) : Nat := cCount e

/-- Elements of DST at this node (R325, R326). -/
def cDst (e : Entry) (n : Nat) : Nat :=
  match hOpcode e.desc with | 0x51 => cCount e / n | 0x52 => n * cCount e | _ => cCount e

/-- The operand's device address. -/
def Dev.cAddr (d : Dev) (r : Nat) (e : Entry) (off : Nat) : Nat := (effAddr ((d.ring r).loopOf e.count) e.desc off).toNat

end Sys2Proof.Machine
end

