-- ==== Sys2Proof/Machine/Exchange.lean ====
section
/-!
DEFINITION. What an op reads and names on the tick it starts: the exchange table and its map, and the objects of its operands (R165, R167,
R173, R214, R216).
-/
namespace Sys2Proof.Machine

/-! ## The exchange table (Table 8.1) -/

/-- The table's field of `n` bytes at byte `o`. -/
def xt (t : BitVec 1024) (o n : Nat) : Nat := t.toNat / 2 ^ (8 * o) % 2 ^ (8 * n)

def xtTriples (t : BitVec 1024) : Nat := xt t 0 8
def xtRouted (t : BitVec 1024) : Nat := xt t 8 8
def xtLists (t : BitVec 1024) : Nat := xt t 16 8
def xtCounts (t : BitVec 1024) : Nat := xt t 24 8
def xtMap (t : BitVec 1024) : Nat := xt t 32 8
def xtLand (t : BitVec 1024) : Nat := xt t 40 8
def xtLtag (t : BitVec 1024) : Nat := xt t 48 8
def xtLcnt (t : BitVec 1024) : Nat := xt t 56 8
def xtWork (t : BitVec 1024) : Nat := xt t 64 8
def xtSlotbuf (t : BitVec 1024) : Nat := xt t 72 8
def xtAccbuf (t : BitVec 1024) : Nat := xt t 80 8
def xtLstride (t : BitVec 1024) : Nat := xt t 88 4
def xtLrows (t : BitVec 1024) : Nat := xt t 92 2
def xtSlots (t : BitVec 1024) : Nat := bits (xt t 94 2) 13 0 + 1
def xtTokens (t : BitVec 1024) : Nat := xt t 96 2 + 1
def xtExperts (t : BitVec 1024) : Nat := bits (xt t 98 2) 13 0 + 1
def xtK (t : BitVec 1024) : Nat := bits (xt t 100 1) 7 4 + 1
def xtSpare (t : BitVec 1024) : Nat := bits (xt t 100 1) 3 0
def xtSet (t : BitVec 1024) : Nat := bits (xt t 101 1) 7 6
def xtXch (t : BitVec 1024) : Nat := bits (xt t 101 1) 5 0
def xtLtally (t : BitVec 1024) : Nat := xt t 102 2
def xtRtally (t : BitVec 1024) : Nat := xt t 104 2
def xtSlotFmt (t : BitVec 1024) : Nat := xt t 106 1
def xtHidden (t : BitVec 1024) : Nat := xt t 108 3

/-- The first field of a table that is out of its range (R173). -/
def xtBad (t : BitVec 1024) : Option Nat :=
  firstBad ((List.range 11).map (fun i => (8 * i, Nat.ble (2 ^ 42) (xt t (8 * i) 8))) ++
    [(88, xt t 88 4 % 64 != 0), (92, xt t 92 2 == 0), (94, bits (xt t 94 2) 15 14 != 0), (98, bits (xt t 98 2) 15 14 != 0),
     (100, Nat.blt 16 (xtK t + xtSpare t) || Nat.blt (xtExperts t) (xtK t + xtSpare t)), (101, xtSet t == 3),
     (106, xt t 106 1 != 5 && xt t 106 1 != 6), (107, xt t 107 1 != 0), (108, xt t 108 3 == 0)] ++
    (List.range 17).map (fun i => (111 + i, xt t (111 + i) 1 != 0)))

/-- Bytes of a tensor in the tile layout of R124. -/
def tensorSize (fmt rows cols : Nat) : Nat := ceilDiv rows 128 * ceilDiv cols 128 * slotBytes fmt

/-! ## The map and the areas of a DISPATCH (Table 7.8, R175) -/

def mapDevice (v : Word) : Nat := bits v.toNat 63 44
def mapSlot (v : Word) : Nat := bits v.toNat 31 18
def mapObject (v : Word) : Nat := bits v.toNat 17 0

/-- An area the table names: 64-byte aligned, in objects of the claim. -/
def Dev.area (d : Dev) (r : Nat) (e : Entry) (off a n : Nat) : Except Result Span :=
  if a % 64 != 0 || Config.deviceEnd ≤ a then .error (Result.fail stAddrFault off)
  else match d.cover r e (d.objects.length + 1) a n with
    | none => .error (Result.fail stAddrFault off)
    | some os => if (Span.mk a n os).isLost then .error (Result.fail stDataLost off) else .ok ⟨a, n, os⟩

/-- The format on the wire and as landed. -/
def landFmt (grade fmt : Nat) : Nat :=
  match grade with | 0 => fmt | 1 => 2 | _ => 1

/-- The landing tensors of a DISPATCH in format `lf` (R178). -/
def landAreas (t : BitVec 1024) (lf : Nat) : List (Nat × Nat) :=
  (List.range (xtSlots t)).map (fun s => (xtLand t + s * xtLstride t, tensorSize lf (xtLrows t) (xtHidden t)))

/-- The output areas of a DISPATCH, its landing tensors apart: SLOTBUF and ACCBUF among them where used (R175). -/
def dispatchOuts (t : BitVec 1024) : List (Nat × Nat) :=
  let tk := xtTokens t * xtK t
  [(xtRouted t, 8 * tk), (xtLtag t, 8 * xtSlots t * xtLrows t), (xtLcnt t, 8 * xtSlots t),
   (xtWork t, 8 + 4 * xtSlots t)] ++
    (if xtSlotbuf t = 0 then [] else [(xtSlotbuf t, tensorSize (xtSlotFmt t) tk (xtHidden t))]) ++
    (if xtAccbuf t = 0 then [] else [(xtAccbuf t, tensorSize 6 (xtTokens t) (xtHidden t))])

/-- The input areas of a DISPATCH, its table and SRC apart. -/
def dispatchIns (t : BitVec 1024) : List (Nat × Nat) :=
  [(xtTriples t, 8 * xtTokens t * (xtK t + xtSpare t)), (xtLists t, 8 * xtTokens t * xtK t), (xtCounts t, 16 * xtExperts t),
   (xtMap t, 8 * xtExperts t)]

/-! ## The reading at the start (R167, R173) -/

/-- The op reads an exchange table. -/
def readsTable (opcode : Nat) : Bool := opcode == 0x22 || opcode == 0x23 || opcode == 0x24 || opcode == 0x25

/-- The table of an op as it stands, and for a DISPATCH the map that it names; none where it does not lie as R173 asks. -/
def Dev.readTable (d : Dev) (m : Memory) (r : Nat) (e : Entry) : Option XTable :=
  if readsTable (hOpcode e.desc) then
    match d.array r e 16 128 64 with
    | .error _ => none
    | .ok p =>
      let t := BitVec.ofNat 1024 (leNat (d.readDev m p.addr 128))
      some { bytes := t, map := if hOpcode e.desc == 0x22 && (xtBad t).isNone then
          (List.range (xtExperts t)).map (fun i => BitVec.ofNat 64 (d.readNat m (xtMap t + 8 * i) 8)) else [] }
  else none

/-- The table that an exchange op started with, after the checks of R173. -/
def Dev.table (d : Dev) (r : Nat) (e : Entry) : Except Result XTable :=
  match d.array r e 16 128 64, e.xt with
  | .error w, _ => .error w
  | .ok _, none => .error (Result.fail stAddrFault 16)
  | .ok p, some x =>
    if p.isLost then .error (Result.fail stDataLost 16)
    else match xtBad x.bytes with
      | some o => .error (Result.fail stBadDescriptor (16 + o))
      | none =>
        if !d.tallyOk r (xtLtally x.bytes) then .error (Result.fail stTallyFault (16 + 102))
        else if !d.tallyOk r (xtRtally x.bytes) then .error (Result.fail stTallyFault (16 + 104))
        else .ok x

/-! ## The objects an op names (R214, R216) -/

/-- The range of a tensor operand. -/
def operandRange : Except Result Operand → List (Nat × Nat)
  | .ok o => [o.grid.range]
  | .error _ => []

/-- The ranges of device memory that an op's operands, and its exchange table, name. -/
def Dev.opRanges (d : Dev) (m : Memory) (r : Nat) (e : Entry) : List (Nat × Nat) :=
  let x := e.desc
  let at' := fun (o n : Nat) => (d.cAddr r e o, n)
  let t := (e.xt.map (fun x => x.bytes)).getD 0
  match hOpcode x with
  | 0x04 => [at' 16 4]
  | 0x05 | 0x06 => [at' 16 8]
  | 0x10 | 0x13 => let p := d.matmulTensors m r e; operandRange p.1 ++ operandRange p.2.1 ++ operandRange p.2.2
  | 0x12 => let p := d.convTensors m r e; operandRange p.1 ++ operandRange p.2.1 ++ operandRange p.2.2
  | 0x14 => let p := d.finishTensors m r e; operandRange p.1 ++ (if bits (fld x 48 1) 7 6 = 0 then [] else operandRange p.2.1) ++ operandRange p.2.2
  | 0x15 => operandRange (d.outputGrid r e 16 (fld x 32 3) (fld x 35 3) (outCtl (fld x 38 1)).fmt)
  | 0x20 =>
    let o := assayOp x
    operandRange (d.inputGrid m r e 16 o.tokens o.experts anyFmt) ++ (if o.bias then [at' 24 (4 * o.experts)] else []) ++
      [at' 32 (8 * o.tokens * o.picks)] ++ (if o.psum then [at' 40 (4 * o.experts)] else [])
  | 0x21 =>
    let o := sluiceOp x
    [at' 16 (8 * o.tokens * o.picks), at' 24 (16 * o.experts), at' 32 (8 * o.tokens * o.k), at' 40 (8 * o.tokens * o.k), at' 48 (8 + 4 * o.experts)]
  | 0x22 =>
    let src := d.inputGrid m r e 24 (xtTokens t) (xtHidden t) anyFmt
    at' 16 128 :: operandRange src ++ dispatchIns t ++ dispatchOuts t ++ landAreas t (landFmt (bits (fld x 32 1) 7 6) (gridOf src).fmt)
  | 0x23 | 0x24 => [at' 16 128, (xtLcnt t, 8 * xtSlots t), (xtLtag t, 8 * xtSlots t * xtLrows t), (xtWork t, 8 + 4 * xtSlots t),
      at' 24 (xtSlots t * fld x 32 4)]
  | 0x25 => [at' 16 128, (xtSlotbuf t, tensorSize (xtSlotFmt t) (xtTokens t * xtK t) (xtHidden t)), (xtRouted t, 8 * xtTokens t * xtK t)] ++
      (if bit (fld x 41 1) 7 then operandRange (d.inputGrid m r e 24 (xtTokens t) (xtHidden t) anyFmt) else []) ++
      operandRange (d.outputGrid r e 32 (xtTokens t) (xtHidden t) (outCtl (fld x 40 1)).fmt)
  | 0x30 | 0x31 => [at' 16 1]
  | 0x33 =>
    let n := if bit (fld x 40 1) 7 then fld x 32 8 * (match d.place r e 16 1 1 with | .ok p => p.obj.unitSize | .error _ => 1) else fld x 32 8
    [at' 16 n, at' 24 n]
  | 0x40 | 0x41 => [at' 16 (fld x 44 4)]
  | 0x42 => if bit (fld x 41 1) 7 then [at' 16 8] else []
  | 0x50 | 0x51 | 0x52 | 0x53 =>
    let n := match d.group (cSlot e) with | some g => g.members | none => 1
    (if cEmpty e then [] else [at' 16 (cCount e * packBytes (cIfmt e))]) ++ [at' 24 (cDst e n * packBytes (cOut e).fmt)]
  | _ => []

/-- The objects of the op's claim that it names: those its ranges lie in, the one a PLACE moves, and the experts of this module in the map
of a DISPATCH. -/
def Dev.opObjects (d : Dev) (m : Memory) (r : Nat) (e : Entry) : List Nat :=
  let mine := fun (n : Nat) => match d.obj n with | some o => o.usable e && o.claim == d.claimOf r | none => false
  let own := match e.xt with
    | some x => (x.map.filter (fun v => mapDevice v == d.routing.log.toNat)).map mapObject
    | none => []
  let place := if hOpcode e.desc == 0x32 then [bits (fld e.desc 16 4) 17 0] else []
  (((d.opRanges m r e).flatMap (fun x => (d.cut x.1 x.2).map (fun p => p.1)) ++ place ++ own).eraseDups).filter mine

end Sys2Proof.Machine
end

