-- ==== Sys2Proof/Machine/HostIf.lean ====
section
/-!
DEFINITION. The host interface family: the link, the resets, HDM decoders, doorbell lines and MSI-X
(chapter 3).
-/
namespace Sys2Proof.Machine

/-! ## Link (R38 to R40, R50) -/

/-- A mailbox message in service is ended by the loss of the link and reads ABORTED (R403). -/
def Dev.abortMailbox (d : Dev) : Dev :=
  if d.mbx.busy then { d with mbx := { d.mbx with busy := false, status := 7 } } else d

/-- The link is down: LINK_STS reads no width and speed; the host interface goes OFF with a cause. -/
def Dev.linkLost (d : Dev) (cause : BitVec 16) : Dev :=
  let d := d.abortMailbox.hostOff cause
  { d with host := { d.host with
    linkUp := false, training := false, trainTick := d.phys, cached := [],
    link := { x16 := false, speed := 0, cache := false, mem := false, bi := false, ide := false, busMaster := false, bar2 := 0 } } }

/-- What the trained link offers: below 32 GT/s, or without CXL, a plain PCIe endpoint; back-invalidate needs 256-byte flits (R38,
R40, Table 3.1). -/
def settleLink (l : LinkResult) : LinkResult :=
  if l.speed = 2 ∨ l.speed = 3 then { l with bi := l.bi && l.speed == 3 }
  else { l with speed := 1, cache := false, mem := false, bi := false }

/-- Link training may run: PERST_N is high, the reference clock is there, and the supply has been in range for 100 ms (R9, R15). -/
def Dev.mayTrain (d : Dev) : Bool :=
  d.power.mgmtOn && !d.host.perstLow && d.host.refclk && Nat.ble 100000000 (elapsed d.phys d.host.supplyTick)

/-- HOST_LINK_UP (R9, R15, R38 to R40): the link trains where training may run; a plain PCIe endpoint raises an alarm. On a link that is
up already, the host restores configuration space (R51 step 2). -/
def execHostLinkUp (l : LinkResult) (s : State) : Host.Outcome State Fault Refusal :=
  let d := s.dev
  if d.host.linkUp then answer s { d with host := { d.host with busMaster := l.busMaster, bar2 := l.bar2 } }
  else if d.mayTrain then
    let t := settleLink l
    let d := { d with host := { d.host with
      linkUp := true, link := t, training := false, busMaster := l.busMaster, bar2 := l.bar2 } }
    answer s (if t.speed = 1 then d.alarm 0x01 0x010008 0 (BitVec.ofNat 64 d.host.linkSts) else d)
  else answer s d

/-- HOST_LINK_DOWN (R49, R50): OFF with AUTO_STOP and 0x0101; configuration space is kept; rings stall and records are held. -/
def execHostLinkDown (s : State) : Host.Outcome State Fault Refusal :=
  let d := s.dev
  answer s (if d.host.linkUp then
    let d := d.linkLost 0x0101
    { d with host := { d.host with cntLinkDown := d.host.cntLinkDown + 1 } }
  else d.hostOff 0x0101)

/-- CXL_REFCLK_LOST (R9): a link loss; training is retried until the clock returns. -/
def execCxlRefclkLost (s : State) : Host.Outcome State Fault Refusal :=
  let d := { s.dev with host := { s.dev.host with refclk := false } }
  answer s (if d.host.linkUp then
    let d := d.linkLost 0x0101
    { d with host := { d.host with cntLinkDown := d.host.cntLinkDown + 1 } }
  else d)

/-- LINK_TRAIN_RETRY (R9, R15, R39): every 100 ms while the link is down the reference clock is looked at again, and training is tried again where it
may run. -/
def execLinkTrainRetry (clock : Bool) (s : State) : Host.Outcome State Fault Refusal :=
  let d := s.dev
  answer s (if !d.host.linkUp && !d.host.perstLow && d.past d.host.trainTick 100000 then
    let d := { d with host := { d.host with refclk := clock } }
    { d with host := { d.host with training := d.mayTrain, trainTick := d.phys } } else d)

/-! ## Resets (R48, R49, Table 3.5) -/

/-- PERST_ASSERT (R49): the link is held down, configuration space resets, cause 0x0108. -/
def execPerstAssert (s : State) : Host.Outcome State Fault Refusal :=
  let d := s.dev.linkLost 0x0108
  answer s { d with host := { d.host.resetConfig with perstLow := true } }

/-- PERST_DEASSERT (R15): link training starts, or is held until the supply has been in range for 100 ms. -/
def execPerstDeassert (s : State) : Host.Outcome State Fault Refusal :=
  let d := s.dev
  answer s (if d.host.perstLow then
    let d := { d with host := { d.host with perstLow := false } }
    { d with host := { d.host with training := d.mayTrain, trainTick := d.phys } } else d)

/-- A reset from the host: configuration space resets, decoders uncommit, and the host interface goes OFF with the reset's own cause. -/
def Dev.hostReset (d : Dev) (cause : BitVec 16) : Dev :=
  if d.host.linkUp then
    let d := d.hostOff cause
    { d with host := d.host.resetConfig }
  else d

/-- HOT_RESET (R49), cause 0x0105. -/
def execHotReset (s : State) : Host.Outcome State Fault Refusal := answer s (s.dev.hostReset 0x0105)

/-- FLR (R49), cause 0x0106. -/
def execFlr (s : State) : Host.Outcome State Fault Refusal := answer s (s.dev.hostReset 0x0106)

/-- CXL_RESET (R49), cause 0x0107. -/
def execCxlReset (s : State) : Host.Outcome State Fault Refusal := answer s (s.dev.hostReset 0x0107)

/-- GLOBAL_PERSISTENT_FLUSH (R38): acknowledged, with no effect. -/
def execGlobalPersistentFlush (s : State) : Host.Outcome State Fault Refusal := answer s s.dev

/-! ## HDM decoders (R42) -/

/-- The reason a commit fails with, if any: no CXL.mem, granularity, interleave, range, overlap, base (R40, R42, Table 3.10). The spec gives
no order for several at once; this one is the model's (DESIGN CHOICE, notes/assumptions/55.md). -/
def Dev.hdmReason (d : Dev) (dec : Nat) (base size dpa : Word) (ways : BitVec 4) : Option (BitVec 16) :=
  let g := 256 * 2 ^ 20
  let overlap := d.host.hdm.any (fun e => e.1 != dec && e.2.committed &&
    decide (dpa.toNat < e.2.dpa.toNat + e.2.size.toNat) && decide (e.2.dpa.toNat < dpa.toNat + size.toNat))
  if !d.host.link.mem then some 0x0112
  else if base.toNat % g != 0 || size.toNat % g != 0 then some 0x01F4
  else if ways != 0 then some 0x0111
  else if Config.deviceEnd < dpa.toNat + size.toNat then some 0x01F3
  else if overlap then some 0x01F5
  else if base != d.host.bar2 + dpa then some 0x0110
  else none

/-- HDM_COMMIT (R42): the decoder is committed, or sets Error Not Committed and HOSTIF_HDM_ERR records it. -/
def execHdmCommit (dec : Fin 2) (base size dpa : Word) (ways : BitVec 4) (s : State) : Host.Outcome State Fault Refusal :=
  let d := s.dev
  if d.host.linkUp then
    match d.hdmReason dec.val base size dpa ways with
    | none => answer s { d with host := { d.host with
        hdm := Tbl.put d.host.hdm dec.val { base := base, size := size, dpa := dpa, ways := ways, committed := true, error := false } } }
    | some why => answer s { d with host := { d.host with
        hdm := Tbl.put d.host.hdm dec.val { base := base, size := size, dpa := dpa, ways := ways, committed := false, error := true },
        hdmErrDecoder := dec.val == 1, hdmErrReason := why } }
  else answer s d

/-! ## Doorbells (R46, R47, R64) -/

/-- A ring whose doorbell line the module reads: RUNNING, or QUIESCING under R76. -/
def Dev.ringListens (d : Dev) (r : Nat) : Bool :=
  (d.block (ringBlock r)).st == .running || (d.block (ringBlock r)).st == .quiescing

/-- Issue a read of a doorbell line. -/
def Dev.readLine (d : Dev) (r : Nat) : Dev :=
  ({ d.modRing r (fun g => { g with lineRead := true, lineHeld := false, lineTick := d.now }) with
      host := { d.host with cntDbRead := d.host.cntDbRead + 1 } }).emit (.doorbellRead r)

/-- DOORBELL_SNOOP (R46): the line is released and a fresh read is issued. -/
def execDoorbellSnoop (r : Fin 1024) (s : State) : Host.Outcome State Fault Refusal :=
  let d := s.dev
  answer s (if d.hostOpen && d.host.dbMode == 2 && d.ringListens r.val && (d.ring r.val).lineHeld then d.readLine r.val else d)

/-- DOORBELL_POLL (R47): the line is read, and nothing is held. -/
def execDoorbellPoll (r : Fin 1024) (s : State) : Host.Outcome State Fault Refusal :=
  let d := s.dev
  answer s (if d.hostOpen && d.host.dbMode == 1 && d.ringListens r.val then d.readLine r.val else d)

/-- The submission checks of R64. -/
def Ring.tailOk (g : Ring) (tail : W32) : Bool :=
  (tail - g.sqHead).toNat ≤ 2 ^ g.sqLog2.toNat && (tail - g.sqTailLast).toNat ≤ 2 ^ g.sqLog2.toNat

/-- The completion checks of R64. -/
def Ring.headOk (g : Ring) (head : W32) : Bool :=
  (g.cqTail - head).toNat ≤ 2 ^ g.cqLog2.toNat && (head - g.cqHeadLast).toNat ≤ (g.cqTail - g.cqHeadLast).toNat

/-- The two counts of a doorbell line: bytes 0 to 3 and 4 to 7, little-endian; the rest is the host's (R61). -/
def lineCounts (line : List Byte) : W32 × W32 := (BitVec.ofNat 32 (fieldAt line 0 4), BitVec.ofNat 32 (fieldAt line 4 4))

/-- DOORBELL_READ_RETURN (R46, R61, R64, R76): in CACHE mode the line is held again; the checks are made together, and either both counts
are taken or the ring stops with 0x0210 or 0x0211. A QUIESCING ring takes CQ_HEAD alone, or reaches OFF with its records never posted.
A read that returned an error stops the ring with 0x0214. -/
def execDoorbellReadReturn (r : Fin 1024) (line : Option (List Byte)) (s : State) : Host.Outcome State Fault Refusal :=
  let d := s.dev
  let g := d.ring r.val
  if g.lineRead && d.hostOpen && d.ringListens r.val then
    let d := d.setRing r.val { g with lineRead := false, lineHeld := d.host.dbMode == 2 }
    match line with
    | none => answer s (d.stopRing r.val 0x0214)
    | some bytes =>
      let (tail, head) := lineCounts bytes
      let g := d.ring r.val
      if d.isRunning (.ring r) then
        if !g.tailOk tail then answer s (d.stopRing r.val 0x0210)
        else if !g.headOk head then answer s (d.stopRing r.val 0x0211)
        else answer s ((d.setRing r.val { g with sqTailLast := tail, cqHeadLast := head }).postAll r.val)
      else if g.headOk head then answer s ((d.setRing r.val { g with cqHeadLast := head }).postAll r.val)
      else
        let d := d.setRing r.val { g with finished := [], ents := g.ents.filter (fun e => e.phase != .completed) }
        answer s ((d.selfStop (.ring r) 0x0211).blockOff (.ring r))
  else answer s d

/-! ## MSI-X (R48) -/

/-- MSIX_UNMASK (R48): a vector is unmasked, or MSI-X is enabled, and the pending messages that may go are sent. -/
def execMsixUnmask (v : Option (Fin 2048)) (s : State) : Host.Outcome State Fault Refusal :=
  let d := s.dev
  if d.host.linkUp then
    match v with
    | some v => answer s (({ d with host := { d.host with
        msixMask := d.host.msixMask &&& ~~~ BitVec.ofNat 2048 (2 ^ v.val) } }).flushMsix)
    | none => answer s (({ d with host := { d.host with msixOn := true } }).flushMsix)
  else answer s d

end Sys2Proof.Machine
end

