-- ==== Sys2Proof/Machine/Rings.lean ====
section
/-!
DEFINITION. The life of a descriptor: fetch, start, completion, its record, interrupts and deadlines (R64 to R99, R421).
-/
namespace Sys2Proof.Machine

/-! ## Checks at fetch (R421 steps 1 to 4) -/

/-- The status a descriptor is decided with at fetch, if any. -/
def Dev.fetchCheck (d : Dev) (r : Nat) (x : BitVec 512) : Option (BitVec 16 × Nat) :=
  let g := d.ring r
  if hClaim x ≠ g.claim.toNat ∨ hIndex x ≠ g.index.toNat then some (stRingMismatch, 2)
  else if !validOpcode (hOpcode x) then some (stBadOpcode, hOpcode x)
  else match headerBad x with
    | some o => some (stBadDescriptor, o)
    | none =>
      if hWait x && !d.tallyOk r (hWaitId x) then some (stTallyFault, 4)
      else if hSignal x && !d.tallyOk r (hSignalId x) then some (stTallyFault, 6)
      else none

/-- A REPEAT_BY that has not run its body covers a descriptor (R85). -/
def Ring.covered (g : Ring) (c : W32) : Bool :=
  g.ents.any (fun e => hOpcode e.desc == 0x04 && (e.phase == .waiting || (e.phase == .started && g.loop.isNone)) &&
    (let len := fld e.desc 28 2; let k := (c - e.count).toNat; 1 ≤ len && len ≤ 31 && 1 ≤ k && k ≤ len))

/-- A descriptor joins its ring's list (R62, R69). -/
def Entry.fresh (c : W32) (x : BitVec 512) : Entry :=
  { count := c, desc := x, phase := .waiting, buf := false, waitMet := false, start := 0, seq := 0, seed := 0, skew := 0, fin := 0, ran := false,
    res := .ok, total := none, xt := none, taken := false, work := none, paid := [], objs := [] }

/-- What a descriptor is decided with as it is fetched, if anything: the body of a REPEAT_BY that did not run; nothing yet under one
that may still run; the checks at fetch; a SKIP_IF that covers it (R84, R85, R421). -/
def Dev.fetchFate (d : Dev) (r : Nat) (c : W32) (x : BitVec 512) : Option (BitVec 16 × Nat) :=
  let g := d.ring r
  if 0 < g.orphans.1 then some (g.orphans.2, 0)
  else if g.covered c then none
  else match d.fetchCheck r x with
    | some f => some f
    | none => if 0 < g.skip then some (stSkipped, 0) else none

/-- DESCRIPTOR_FETCH (R62, R69 to R71, R77, R84, R85): the next descriptor that a valid tail covers is read once, and joins its ring's
list, decided at once where it can be. A read that returned an error stops the ring with 0x0214. -/
def execDescriptorFetch (r : Fin 1024) (desc : Option (BitVec 512)) (s : State) : Host.Outcome State Fault Refusal :=
  let d := s.dev
  let g := d.ring r.val
  if d.isRunning (.ring r) && d.hostOpen && !g.stopped && g.sqHead != g.sqTailLast then
    match desc with
    | none => answer s (d.stopRing r.val 0x0214)
    | some x =>
      let c := g.sqHead
      let fate := d.fetchFate r.val c x
      let d := d.setRing r.val { g with
        sqHead := c + 1, ents := g.ents ++ [Entry.fresh c x], skip := g.skip - 1, orphans := (g.orphans.1 - 1, g.orphans.2) }
      match fate with
      | some (st, why) => answer s (d.decideEntry r.val c st why)
      | none => answer s d
  else answer s d

/-! ## Start (R66, R73, R79, R84, R85, R90, R94, R421) -/

/-- The ring's oldest undecided, unstarted descriptor, and the previous one of its ring, none where its record is posted. -/
def Ring.oldest (g : Ring) : Option (Option Entry × Entry) :=
  (g.ents.find? (fun e => e.phase == .waiting)).map (fun e => (g.entry (e.count - 1), e))

/-- Ring order lets the oldest descriptor start: the one before it has completed, or has started where OVERLAP is set and it is no
FENCE; nothing passes a SKIP_IF or a loop that has not completed, or a TALLY_WAIT whose condition has not held (R73, R80, R82, R84, R85). -/
def Ring.orderOk (g : Ring) (prev : Option Entry) (e : Entry) : Bool :=
  let inLoop := (g.loopOf e.count).isSome
  let barrier := g.ents.any (fun x => x.phase != .waiting && x.phase != .completed &&
    (hOpcode x.desc == 0x05 || (hOpcode x.desc == 0x04 && !inLoop) || (hOpcode x.desc == 0x03 && x.phase == .started)))
  let needsEnd := !hOverlap e.desc || hOpcode e.desc == 0x01
  let loopOk := match g.loop with | some l => l.body e.count && !l.ending | none => true
  !barrier && loopOk &&
    (match prev with
      | none => true
      | some p =>
        if inLoop && hOpcode p.desc == 0x04 && p.phase == .started then true
        else if needsEnd then p.phase == .completed else p.phase != .waiting)

/-- The distance of a descriptor's epoch from its slot's (R90). -/
def Dev.epochDistance (d : Dev) (r : Nat) (x : BitVec 512) : Nat :=
  (hEpoch x + 256 - (Tbl.lookD (d.claim (d.ring r).claim.toNat).epochs (hSlot x) 0).toNat) % 256

/-- The status that the checks at the start decide a descriptor with: operand fields, operand tallies, V ops under Fixed-Bits (R421
step 6). -/
def Dev.startCheck (d : Dev) (r : Nat) (e : Entry) : Option (BitVec 16 × Nat) :=
  let g := d.ring r
  let x := e.desc
  match firstBad (operandChecks (g.loopOf e.count).isSome x) with
  | some o => some (stBadDescriptor, o)
  | none =>
    if hOpcode x == 0x04 && (g.bodyOf e).any (fun b => hOpcode b.desc == 0x04) then some (stBadDescriptor, 0x1C)
    else match (tallyOperands (hOpcode x)).find? (fun o => !d.tallyOk r (fld x o 2)) with
      | some o => some (stTallyFault, o)
      | none =>
        match varyingCause x with
        | some k => if d.fixedBits then some (stVaryingRefused, k * 256 + hOpcode x) else none
        | none => none

/-- Completion buffer entries a descriptor needs: its own, and its body's for a REPEAT_BY (R85). -/
def bufNeed (x : BitVec 512) : Nat := if hOpcode x == 0x04 then fld x 28 2 % 32 + 1 else 1

/-- The seed register that SEED_SEL names (R243). -/
def Dev.seedAt (d : Dev) (r : Nat) (x : BitVec 512) : Word :=
  match seedByte (hOpcode x) with
  | some o => Tbl.lookD (d.claim (d.ring r).claim.toNat).seeds (fld x o 1 % 16) 0
  | none => 0

/-- A CANCEL_BATCH starts: the epoch of its slot advances, and what is discarded of the old one is counted (R89, R190). -/
def Dev.advanceEpoch (d : Dev) (r : Nat) (e : Entry) : Dev :=
  let c := (d.ring r).claim.toNat
  let slot := fld e.desc 16 1
  let old := Tbl.lookD (d.claim c).epochs slot 0
  let d := d.modClaim c (fun k => { k with epochs := Tbl.put k.epochs slot (old + 1) })
  { d with shuttle := { d.shuttle with
      cancels := d.shuttle.cancels ++ [{ ring := r, count := e.count, claim := c, batch := (slot, old.toNat), discarded := 0 }] } }

/-- The op starts on this tick: it takes its number, its seed, the reading of its exchange table and the objects it names. -/
def Dev.startOp (d : Dev) (m : Memory) (r : Nat) (e : Entry) : Dev :=
  let e1 := { e with seq := d.started, xt := d.readTable m r { e with seq := d.started } }
  let body := if hOpcode e.desc == 0x04 then ((d.ring r).bodyOf e).map (fun b => b.count) else []
  let d := d.modRing r (fun g => Ring.takeBuffers { g with ents := g.ents.map (fun x =>
    if x.count == e.count then { x with
      phase := .started, start := d.now, seq := d.started, seed := d.seedAt r e.desc, skew := if x.total.isNone then d.skew else x.skew
      buf := true, ran := true, xt := e1.xt, taken := false, work := none, paid := [], objs := d.opObjects m r e1 }
    else if body.contains x.count then { x with buf := true } else x) })
  let d := { d with started := d.started + 1 }
  if hOpcode e.desc == 0x26 then d.advanceEpoch r e else d

/-- Two descriptors of which the later may not start before the earlier has completed: CANCEL_BATCH of one slot (R93), collective ops of
one group slot (R328). -/
def sameSlot (x y : BitVec 512) : Bool :=
  let coll := fun z => Nat.ble 0x50 (hOpcode z) && Nat.ble (hOpcode z) 0x54
  (hOpcode x == 0x26 && hOpcode y == 0x26 && fld x 16 1 == fld y 16 1) ||
    (coll x && coll y && bits (fld x 36 1) 5 0 == bits (fld y 36 1) 5 0)

/-- The old epoch of a batch is out of force (R190). -/
def Dev.staleBatch (d : Dev) (c : Nat) : Option (Nat × Nat) → Bool
  | none => false
  | some (slot, ep) => (Tbl.lookD (d.claim c).epochs slot 0).toNat != ep

/-- A result context that still expects results: armed, of a batch in force, and not all landed. -/
def Dev.awaits (d : Dev) (c : Nat) (x : Results) : Bool := x.armed && !d.staleBatch c x.batch && !x.signalled

/-- A channel is busy from the start of a DISPATCH until its RETURN op has completed and its context has all its results or is
disarmed (R172). -/
def Dev.chanBusy (d : Dev) (c ch : Nat) : Bool :=
  let x := Tbl.lookD d.shuttle.chans (c * 64 + ch) .reset
  let begins := fun (e : Entry) => e.phase == .started && hOpcode e.desc == 0x22 && e.xt.any (fun t => xtXch t.bytes == ch)
  d.rings.any (fun g => g.2.claim.toNat == c && g.2.ents.any begins) || x.disp.isSome || (match x.res with | some y => d.awaits c y || !x.retDone | none => false)

/-- A DISPATCH that names a busy channel in its exchange table. -/
def Dev.dispatchHeld (d : Dev) (m : Memory) (r : Nat) (e : Entry) : Bool :=
  hOpcode e.desc == 0x22 &&
    (let a := effAddr ((d.ring r).loopOf e.count) e.desc 16
     addrOk a && d.chanBusy (d.ring r).claim.toNat (d.readNat m (a.toNat + 101) 1 % 64))

/-- What else keeps a descriptor from starting: such an op of its claim that has started and not completed, or a busy channel. -/
def Dev.startHeld (d : Dev) (m : Memory) (r : Nat) (e : Entry) : Bool :=
  d.dispatchHeld m r e || d.rings.any (fun g => g.2.claim == (d.ring r).claim && g.2.ents.any (fun x =>
    (x.phase == .started || x.phase == .done) && sameSlot x.desc e.desc))

/-- The last conditions of a start: epoch, buffer entries, and the checks of R421 step 6. -/
def Dev.startReady (d : Dev) (m : Memory) (r : Nat) (e : Entry) : Dev :=
  let g := d.ring r
  let x := e.desc
  let inLoop := (g.loopOf e.count).isSome
  let dist := d.epochDistance r x
  let g' := g.bufUsed - b2n e.buf
  if hBatch x && 128 ≤ dist then
    d.decideEntry r e.count stBatchStale (Tbl.lookD (d.claim g.claim.toNat).epochs (hSlot x) 0).toNat
  else if hBatch x && dist != 0 then d
  else if !inLoop && Nat.blt 32 (g' + bufNeed x) then d
  else if hOpcode x == 0x04 && 1 ≤ fld x 28 2 && fld x 28 2 ≤ 31 && Nat.blt (g.bodyOf e).length (fld x 28 2) then d
  else match d.startCheck r e with
    | some (st, why) => d.decideEntry r e.count st why
    | none => if d.startHeld m r e then d else d.startOp m r e

/-- The ring may start descriptors: it runs, its claim is RUNNING and ACTIVE (R76). -/
def Dev.ringStarts (d : Dev) (r : Nat) : Bool :=
  let g := d.ring r
  (1024 ≤ r || d.isRunning (ringBlock r)) && !g.stopped && d.isRunning (claimBlock g.claim.toNat) &&
    (d.claim g.claim.toNat).pstate == .active

/-- A descriptor that waits is decided; in a loop the checks at fetch come first, as in an iteration it is taken as submitted again (R85,
R421). -/
def Dev.decideWaiting (d : Dev) (r : Nat) (c : W32) (status : BitVec 16) (reason : Nat) : Dev :=
  match (d.entry r c).filter (fun e => e.phase == .waiting && ((d.ring r).loopOf c).isSome) with
  | some e =>
    match d.fetchCheck r e.desc with
    | some (st, why) => d.decideEntry r c st why
    | none => d.decideEntry r c status reason
  | none => d.decideEntry r c status reason

/-- DESCRIPTOR_START: the ring's oldest waiting descriptor is decided, waits on, or starts. -/
def Dev.startNext (d : Dev) (m : Memory) (r : Nat) : Dev :=
  let g := d.ring r
  match g.oldest with
  | none => d
  | some (prev, e) =>
    let inLoop := (g.loopOf e.count).isSome
    match if inLoop then d.fetchCheck r e.desc else none with
      | some (st, why) => if g.orderOk prev e then d.decideEntry r e.count st why else d
      | none =>
        if deadlineReached d.now e.desc && !d.fixedBits && !g.covered e.count then d.decideEntry r e.count stDeadlineMissed 0
        else if !g.orderOk prev e then d
        else if hWait e.desc && !e.waitMet then
          let d := d.askTally (hWaitId e.desc)
            { ring := r, count := e.count, exact := false, target := 1, consume := if hWaitKeep e.desc then 0 else 1 }
          match d.entry r e.count with
          | some e => if e.waitMet then d.startReady m r e else d
          | none => d
        else d.startReady m r e

/-- DESCRIPTOR_START (R73, R421). -/
def execDescriptorStart (r : RingNo) (s : State) : Host.Outcome State Fault Refusal :=
  answer s (if s.dev.ringStarts r.val then s.dev.startNext s.mem r.val else s.dev)

/-! ## Completion and records -/

/-- A SKIP_IF that skipped has completed: the descriptors it covers and that are not decided complete with SKIPPED, those not yet fetched
as they arrive; inside a loop only those of the same body (R84). -/
def Dev.applySkip (d : Dev) (r : Nat) (e : Entry) (loop : Option Loop) : Dev :=
  let len := fld e.desc 42 2
  let mine := ((d.ring r).ents.filter (fun x => 1 ≤ (x.count - e.count).toNat && (x.count - e.count).toNat ≤ len &&
    (match loop with | some l => l.body x.count | none => true))).map (fun x => x.count)
  let fetched := ((d.ring r).sqHead - e.count - 1).toNat
  let d := if loop.isNone && fetched < len then d.modRing r (fun g => { g with skip := len - fetched }) else d
  mine.foldl (fun d c => d.decideWaiting r c stSkipped 0) d

/-- An op whose work is done completes: its header signal is applied, its record waits or its part of the iteration closes, DYING
objects that it was the last to hold become FREE, and a SKIP_IF skips (R65, R73, R80, R84, R216). -/
def Dev.completeOp (d : Dev) (r : Nat) (e : Entry) : Dev :=
  let loop := (d.ring r).loopOf e.count
  let (d, res) := d.headerSignal r e.desc e.res
  let d := (d.settle r e.count res e.ran e.start).freeDying
  if hOpcode e.desc == 0x05 && e.res.status == stOk && e.res.reason == 1 then d.applySkip r e loop else d

/-- Records of a ring can be posted: the host is open and the ring is RUNNING or QUIESCING. Those of an issue port always can. -/
def Dev.ringPosts (d : Dev) (r : Nat) : Bool := 1024 ≤ r || (d.hostOpen && d.ringListens r)

/-- OP_COMPLETE (R65, R73, R80, R216): an op whose work is done completes. -/
def execOpComplete (r : RingNo) (count : W32) (s : State) : Host.Outcome State Fault Refusal :=
  let d := s.dev
  match d.entry r.val count with
  | some e => answer s (if e.phase == .done then d.completeOp r.val e else d)
  | none => answer s d

/-- RECORD_POST (R65 to R67, R75): the ring's oldest waiting record is written to host memory; a write that returned an error stops the
ring with 0x0214. -/
def execRecordPost (r : RingNo) (ok : Bool) (s : State) : Host.Outcome State Fault Refusal :=
  let d := s.dev
  if d.ringPosts r.val && !(d.ring r.val).finished.isEmpty && (d.ring r.val).room then
    answer s (if ok then d.postRecord r.val else d.stopRing r.val 0x0214)
  else answer s d

/-- RING_IRQ_TIMEOUT (R67): TIMEOUT µs after the first record not yet signalled, the vector is raised. -/
def execRingIrqTimeout (r : Fin 1024) (s : State) : Host.Outcome State Fault Refusal :=
  let d := s.dev
  let g := d.ring r.val
  answer s (if g.irqTimeout != 0 && g.firstUnsignalled.any (fun t => d.past t g.irqTimeout.toNat) then d.raiseRing r.val else d)

/-- DEADLINE_REACHED (R94 to R96): a descriptor that has not started is decided DEADLINE_MISSED on this tick, whatever it waits for; not
under Fixed-Bits, and not on its own in the body of a REPEAT_BY that has not started. -/
def execDeadlineReached (r : RingNo) (count : W32) (s : State) : Host.Outcome State Fault Refusal :=
  let d := s.dev
  match d.entry r.val count with
  | some e =>
    answer s (if e.unstarted && deadlineReached d.now e.desc && !d.fixedBits && !(d.ring r.val).covered count then
      d.decideWaiting r.val count stDeadlineMissed 0 else d)
  | none => answer s d

end Sys2Proof.Machine
end

