-- ==== Sys2Proof/Machine/Events.lean ====
section
/-!
DEFINITION. The event family: event units, the always-on monitor, control kernels and their issue ports, and doze (chapter 16).
-/
namespace Sys2Proof.Machine

/-! ## Events (R370 to R372) -/

def Dev.unit (d : Dev) (u : Nat) : EvtUnit := Tbl.lookD d.evt.units u .reset
def Dev.setUnit (d : Dev) (u : Nat) (x : EvtUnit) : Dev := { d with evt := { d.evt with units := Tbl.put d.evt.units u x } }

/-- Sources that exist: all but 75 to 95 of the hub (Table 16.4), and 0 to 11 of a foreman core (Table 16.5). -/
def sourceOk (u n : Nat) : Bool := if u = 0 then n < 75 || 95 < n else n < 12

/-- The present level of a source: as the state shows it where the source stands for something of the state, and as given elsewhere. -/
def Dev.level (d : Dev) (u n : Nat) (given : Bool) : Bool :=
  if u = 0 && n < 64 then d.evt.latch.getLsbD n
  else if u = 0 && n = 72 then d.mbx.busy
  else if u = 0 && n = 73 then d.blocks.any (fun e => e.2.st == .checking)
  else if u = 0 && n = 74 then !d.health.queue.isEmpty
  else if 0 < u && n = 0 then let g := d.ring (1023 + u); g.cqTail != g.cqHeadLast
  else if 0 < u && n = 11 then (List.range 32).any (fun c => (d.claim c).pstate == .preempting && (d.claim c).cores.getLsbD (u - 1))
  else given

/-- EVENT_SOURCE_ASSERT (R370): an enabled source's level is asserted, and its pending bit sets. -/
def execEventSourceAssert (u : Fin 33) (n : Fin 128) (s : State) : Host.Outcome State Fault Refusal :=
  let d := s.dev
  let x := d.unit u.val
  answer s (if sourceOk u.val n.val && d.level u.val n.val true then
    d.setUnit u.val { x with pend := x.pend ||| BitVec.ofNat 128 (2 ^ n.val) } else d)

/-- The priority of a source; the power warning's is fixed (R371). -/
def prioOf (u n : Nat) : Nat := if u = 0 ∧ n = 0 then 15 else (Config.evtPrio u n).toNat

/-- A source is routed to a core: a hub source to one core of the serving group, a foreman core's own to it (R372). -/
def Dev.routed (d : Dev) (u core n : Nat) : Bool :=
  if u = 0 then core == (Config.evtRoute n).val + (if d.evt.groupB then 4 else 0) else core == 0

/-- The source a core takes next: the highest priority, the lowest number among equals, above what it serves. -/
def Dev.nextEvent (d : Dev) (u core : Nat) : Option Nat :=
  let x := d.unit u
  let serving := Tbl.lookD x.serving core []
  let ready := (List.range 128).filter (fun n => x.pend.getLsbD n && d.routed u core n && !serving.contains n)
  let best := ready.foldl (fun b n => match b with | none => some n | some m => if prioOf u m < prioOf u n then some n else some m) none
  match best, serving with
  | some n, m :: _ => if prioOf u m < prioOf u n && serving.length < 16 then some n else none
  | b, [] => b
  | none, _ => none

/-- EVENT_DELIVER (R371): the chosen source is delivered at its vector, its number in CAUSE. -/
def execEventDeliver (u : Fin 33) (core : Fin 8) (s : State) : Host.Outcome State Fault Refusal :=
  let d := s.dev
  match d.nextEvent u.val core.val with
  | some n =>
    let x := d.unit u.val
    if u.val = 0 && !d.power.kolti then answer s d
    else answer s ((d.setUnit u.val { x with
      serving := Tbl.put x.serving core.val (n :: Tbl.lookD x.serving core.val []),
      cause := Tbl.put x.cause core.val n }).emit (.event u.val core.val n))
  | none => answer s d

/-- END_OF_SERVICE (R370): the source being served is done; its pending bit clears, and sets again where its level lasts. -/
def execEndOfService (u : Fin 33) (core : Fin 8) (level : Bool) (s : State) : Host.Outcome State Fault Refusal :=
  let d := s.dev
  let x := d.unit u.val
  match Tbl.lookD x.serving core.val [] with
  | n :: rest =>
    let m := BitVec.ofNat 128 (2 ^ n)
    let pend := if d.level u.val n level then x.pend ||| m else x.pend &&& ~~~ m
    answer s (d.setUnit u.val { x with pend := pend, serving := Tbl.put x.serving core.val rest })
  | [] => answer s d

/-! ## The monitor (R373, Table 16.6) -/

/-- The levels of a sample: the supplies and the coolant as sampled (Tables 1.3, 16.6), THERM_N, TIMEREF, the replacement request and the wake
tick as the state has them, source 15 never, and the rest as given. -/
def Dev.monLevels (d : Dev) (given : BitVec 64) (z : Sensors) : BitVec 64 :=
  let own := b2n (!mainInRange z) * 2 ^ 1 + b2n (Nat.blt z.auxV 1080) * 2 ^ 2 + b2n d.power.thermN * 2 ^ 3 + b2n (decide (400 < z.inlet)) * 2 ^ 4 +
    b2n (decide (160 < z.outlet - z.inlet)) * 2 ^ 5 + b2n d.time.refBad * 2 ^ 8 + b2n d.power.svcReqN * 2 ^ 13 + b2n (decide (d.evt.wakeTick ≤ d.now)) * 2 ^ 14
  (given &&& ~~~ BitVec.ofNat 64 0xE13E) ||| BitVec.ofNat 64 own

/-- A wake source ends module doze and wakes every dozing die (R376, R377). -/
def Dev.endModuleDoze (d : Dev) : Dev :=
  (List.range 4).foldl (fun d n => d.wakeDie n) { d with evt := { d.evt with hubLow := false } }

/-- Main at or above 39.0 V with its protection closed, as a sample shows it (R419). -/
def mainAbove (z : Sensors) (p : Power) : Bool := Nat.ble 3900 z.mainV && !p.protectionOpen

/-- MONITOR_SAMPLE (R373, Table 1.8): levels are shown, latches set, and a latch in the wake mask ends module doze; MAIN_OK and AUX_OK show
whether the inputs are in range, MAIN_OK only while the protection is closed (R22). Source 0 starts the emergency quiesce of R19 and wakes
nothing. A fall of main below 39.0 V is the event of MAIN_UNDERVOLTAGE. -/
def execMonitorSample (levels : BitVec 64) (z : Sensors) (s : State) : Host.Outcome State Fault Refusal :=
  let d := s.dev
  if d.power.aonOn then
    let now := d.monLevels levels z
    let fresh := now &&& ~~~ d.evt.latch
    let d := { d with
      power := { d.power with
        sensors := z, mainOk := mainInRange z && !d.power.protectionOpen, mainLive := d.power.mainLive || mainAbove z d.power, auxOk := auxInRange z }
      evt := { d.evt with level := now, latch := d.evt.latch ||| now } }
    let d := if d.evt.hubLow && (fresh &&& d.evt.wakeMask &&& ~~~ 1) != 0 then d.endModuleDoze else d
    if now.getLsbD 0 then execPwrWarnAsserted (mainAbove z d.power) (mainAbove z d.power || !d.power.auxFromMain) { s with dev := d } else answer s d
  else answer s d

/-! ## Control kernels (R364 to R369) -/

/-- The READY FLAT object of a claim that holds a range. -/
def Dev.flatHolds (d : Dev) (c a n : Nat) : Bool :=
  (d.findObj (fun o => o.st == .ready && o.flat && o.claim == c) a n).isSome

/-- The image header of Table 16.3. -/
structure KHead where
  auth : Nat
  code : Nat
  data : Nat
  ok : Bool
  deriving DecidableEq, Repr

def readKHead (h : List Byte) : KHead :=
  let code := fieldAt h 4 4
  let data := fieldAt h 8 4
  let auth := fieldAt h 3 1
  let entry := fieldAt h 12 4
  let vbase := fieldAt h 16 4
  { auth := auth, code := code, data := data,
    ok := fieldAt h 0 2 == 0x4B4E && fieldAt h 2 1 == 1 && (auth == 1 || auth == 2) &&
      code % 64 == 0 && decide (64 ≤ code) && decide (code ≤ 262144) && data % 64 == 0 && decide (data ≤ 262144) &&
      decide (entry < code) && vbase % 128 == 0 && decide (vbase < code) && (slice h 20 44).all (· == 0) }

/-- A kernel command's result. -/
def Dev.krnRes (d : Dev) (why : Nat) : Dev := { d with evt := { d.evt with krnReason := BitVec.ofNat 16 why } }

def Dev.krnTo (d : Dev) (c : Nat) (st : KState) : Dev := d.setKernel c { d.kernel c with st := st }

/-- The image that EVT_KRN_ADDR names, or the refusal of R368. -/
def Dev.krnCheck (d : Dev) (m : Memory) (c : Nat) : Except Nat (Nat × List Byte) :=
  let a := d.evt.krnAddr.toNat % 2 ^ 42
  let h := d.readDev m a 64
  let k := readKHead h
  let n := 64 + k.code + k.data
  if !d.isRunning .event || !d.isRunning (claimBlock c) || (d.claim c).pstate != .active then .error 0x25F6
  else if (d.kernel c).st == .running then .error 0x2505
  else if a % 64 != 0 || !d.flatHolds c a 64 || !d.flatHolds c a (n + 1280) then .error 0x25F4
  else if !k.ok then .error 0x2506
  else
    let body := d.readDev m a n
    let role := if k.auth = 1 then Role.vendor else Role.operator
    if (k.auth = 1 && d.store.isolation.getLsbD 1) || !d.signedBy role body (d.readDev m (a + n) 1280) then .error 0x2507
    else .ok (k.auth, body)

def Dev.selKernel (d : Dev) : Nat := d.evt.krnSel.toNat

/-- KERNEL_LOAD (R367, R368): the image is verified and copied into every foreman core of the claim. -/
def execKernelLoad (s : State) : Host.Outcome State Fault Refusal :=
  let d := s.dev
  let c := d.selKernel
  viaCfg s (match d.krnCheck s.mem c with
    | .error why => answer s (d.krnRes why)
    | .ok (auth, body) =>
      let a := d.evt.krnAddr.toNat % 2 ^ 42
      answer s (((d.engineRead a (body.length + 1280)).setKernel c { st := .loaded, image := body, auth := auth }).krnRes 0))

/-- The foreman cores of a claim, by their issue port's ring number. -/
def Dev.portsOf (d : Dev) (c : Nat) : List Nat := (setBits 32 (d.claim c).cores.toNat).map (1024 + ·)

/-- KERNEL_START (R367, R368): every core of the claim starts at ENTRY, its issue port open. -/
def execKernelStart (s : State) : Host.Outcome State Fault Refusal :=
  let d := s.dev
  let c := d.selKernel
  viaCfg s (answer s (
    if !d.isRunning .event then d.krnRes 0x25F6
    else if (d.kernel c).st == .loaded || (d.kernel c).st == .stopped then
      let d := (d.portsOf c).foldl (fun d r =>
        if (d.ring r).claim.toNat == c && (Tbl.look d.rings r).isSome then d
        else d.setRing r { Ring.reset with claim := BitVec.ofNat 5 c }) d
      ((d.krnTo c .running).krnRes 0).emit (.kernel c true)
    else d.krnRes 0x2508))

/-- KERNEL_STOP (R367, R368): the kernel halts; what it has issued runs on. -/
def execKernelStop (s : State) : Host.Outcome State Fault Refusal :=
  let d := s.dev
  let c := d.selKernel
  viaCfg s (answer s (
    if !d.isRunning .event then d.krnRes 0x25F6
    else if (d.kernel c).st == .running then ((d.krnTo c .stopped).krnRes 0).emit (.kernel c false)
    else d.krnRes 0x2508))

/-- A kernel faults: it halts on every core of the claim, which carries on (R368). -/
def Dev.krnFault (d : Dev) (c : Nat) : Dev :=
  if (d.kernel c).st == .running then
    let d := (d.krnTo c .faulted).krnRes 0x2509
    let d := { d with evt := { d.evt with krnFaults := d.evt.krnFaults + 1 } }
    (d.emit (.kernel c false)).alarm 0x25 0x1C00C0 c d.evt.krnFaults
  else d

/-- KERNEL_EXCEPTION (R365, R368). -/
def execKernelException (c : Fin 32) (s : State) : Host.Outcome State Fault Refusal := answer s (s.dev.krnFault c.val)

/-- The claim that runs a kernel on a core. -/
def Dev.krnClaim (d : Dev) (core : Nat) : Option Nat :=
  (List.range 32).find? (fun c => (d.kernel c).st == .running && d.isRunning (claimBlock c) && (d.claim c).cores.getLsbD core)

/-- KERNEL_ISSUE (R369): the store submits one descriptor, checked as at a fetch; while 64 records await the kernel the core stalls and
nothing is taken. -/
def execKernelIssue (n : Fin 4) (core : Fin 8) (desc : BitVec 512) (s : State) : Host.Outcome State Fault Refusal :=
  let d := s.dev
  let r := 1024 + 8 * n.val + core.val
  let g := d.ring r
  match d.krnClaim (8 * n.val + core.val) with
  | some c =>
    if g.claim.toNat = c && !g.stopped && Nat.blt (g.cqTail - g.cqHeadLast).toNat 64 && Nat.blt g.ents.length 64 then
      let count := g.sqHead
      let fate := d.fetchFate r count desc
      let d := d.setRing r { g with
        sqHead := count + 1, sqTailLast := count + 1, ents := g.ents ++ [Entry.fresh count desc], skip := g.skip - 1
        orphans := (g.orphans.1 - 1, g.orphans.2) }
      answer s (match fate with | some (st, why) => d.decideEntry r count st why | none => d)
    else answer s d
  | none => answer s d

/-- KERNEL_HEAD_WRITE (R369): the kernel frees slots of its completion window by its count; a count that fails the checks of R64 frees
none. -/
def execKernelHeadWrite (n : Fin 4) (core : Fin 8) (v : W32) (s : State) : Host.Outcome State Fault Refusal :=
  let d := s.dev
  let r := 1024 + 8 * n.val + core.val
  let g := d.ring r
  answer s (if (d.krnClaim (8 * n.val + core.val)).isSome && g.headOk v then (d.setRing r { g with cqHeadLast := v }).postAll r else d)

/-! ## Doze (R374 to R378) -/

def Dev.dozeRefuse (d : Dev) (why : Nat) : Dev := { d with evt := { d.evt with dozeReason := BitVec.ofNat 16 why } }

/-- REQ of a die. -/
def putReq (req : BitVec 8) (n v : Nat) : BitVec 8 :=
  BitVec.ofNat 8 (req.toNat - bits req.toNat (2 * n + 1) (2 * n) * 4 ^ n + v * 4 ^ n)

/-- The refusal of a request for LIGHT (1) or DEEP (2), in the order of R375. -/
def Dev.dozeCheck (d : Dev) (n v : Nat) : Option Nat :=
  let x := d.die n
  if !d.isRunning .event || d.power.pstate != .running || x.contained then some 0x25F6
  else if d.lanesHeld n != 0 || d.coresHeld n != 0 then some 0x2501
  else if v = 2 && d.nearFree n != Config.nearChunks then some 0x2502
  else match x.doze with
    | .entering _ | .waking => some 0x2504
    | _ => none

/-- A die's REQ is written: RUN wakes it, LIGHT or DEEP is a request unless the die is there or on its way, 3 is ignored. -/
def Dev.dozeReq (d : Dev) (n v : Nat) : Dev :=
  let x := d.die n
  let put := fun (d : Dev) (v : Nat) => { d with evt := { d.evt with dozeReq := putReq d.evt.dozeReq n v } }
  if v = 3 then d
  else if v = 0 then
    match x.doze with
    | .light | .deep => if d.isRunning .event then (put d 0).wakeDie n else (put d 0).dozeRefuse 0x25F6
    | .entering _ => (put d 0).dozeRefuse 0x2504
    | _ => put d 0
  else if x.doze == (if v = 1 then .light else .deep) || x.doze == .entering (v == 2) then put d v
  else match d.dozeCheck n v with
    | some why => (put d 0).dozeRefuse why
    | none => { (put d v).dozeTo n (.entering (v == 2)) with dozeAborted := false }

/-- HUB_LOW is written: module doze starts, is refused, or ends (R376). -/
def Dev.hubLowReq (d : Dev) (on : Bool) : Dev :=
  let d := { d with evt := { d.evt with hubLowReq := on } }
  if !on then { d with evt := { d.evt with hubLow := false } }
  else if d.evt.hubLow then d
  else if !d.isRunning .event then d.dozeRefuse 0x25F6
  else if (List.range 4).all (fun n => (d.die n).doze == .deep) && (List.range 32).all (fun c => !d.isRunning (claimBlock c)) then
    { d with evt := { d.evt with hubLow := true } }
  else d.dozeRefuse 0x2503

/-- A write of EVT_DOZE_CTL. -/
def Dev.dozeWrite (d : Dev) (v : Nat) : Dev :=
  let d := (List.range 4).foldl (fun d n => d.dozeReq n (bits v (2 * n + 1) (2 * n))) d
  if bit v 8 = d.evt.hubLowReq && !bit v 8 then d else d.hubLowReq (bit v 8)

/-- DOZE_REQUEST (R375, R377, R378). -/
def execDozeRequest (v : W32) (s : State) : Host.Outcome State Fault Refusal := viaCfg s (answer s (s.dev.dozeWrite v.toNat))

/-- DOZE_ENTRY_DONE (R374). -/
def execDozeEntryDone (n : Fin 4) (s : State) : Host.Outcome State Fault Refusal :=
  let d := s.dev
  answer s (match (d.die n.val).doze with
    | .entering deep => d.dozeTo n.val (if deep then .deep else .light)
    | _ => d)

/-- WAKE_DONE (R377): the die is in RUN. -/
def execWakeDone (n : Fin 4) (s : State) : Host.Outcome State Fault Refusal :=
  let d := s.dev
  answer s (if (d.die n.val).doze == .waking then d.dozeTo n.val .run else d)

/-- MODULE_DOZE_REQUEST (R376). -/
def execModuleDozeRequest (s : State) : Host.Outcome State Fault Refusal := viaCfg s (answer s (s.dev.hubLowReq true))

/-- MODULE_DOZE_CLEAR (R376): module doze ends; every die stays DEEP. -/
def execModuleDozeClear (s : State) : Host.Outcome State Fault Refusal := viaCfg s (answer s (s.dev.hubLowReq false))

end Sys2Proof.Machine
end

