-- ==== Sys2Proof/Machine/Health.lean ====
section
/-!
DEFINITION. The health family: substitution of spares, deputy groups and firmware handover, acknowledgement, and telemetry
(chapter 17). What a fault does to the ops that run is in Service.lean.
-/
namespace Sys2Proof.Machine

/-! ## Spares and substitution (R244, R384, R385) -/

/-- A failed lane or core is recorded in the signed store (R381). -/
def Dev.recordRes (d : Dev) (n : Nat) (core : Bool) (p : Nat) : Dev :=
  { d with store :=
      if core then { d.store with cores := Tbl.upd d.store.cores n 0 (fun m => m ||| BitVec.ofNat 9 (2 ^ p)) }
      else { d.store with lanes := Tbl.upd d.store.lanes n 0 (fun m => m ||| BitVec.ofNat 66 (2 ^ p)) } }

/-- A logical lane or core goes out of service or comes into it. -/
def Die.serve (x : Die) (core : Bool) (l : Nat) (on : Bool) : Die :=
  if core then { x with coreLog := if on then x.coreLog ||| BitVec.ofNat 8 (2 ^ l) else x.coreLog &&& ~~~ BitVec.ofNat 8 (2 ^ l) }
  else { x with laneLog := if on then x.laneLog ||| BitVec.ofNat 64 (2 ^ l) else x.laneLog &&& ~~~ BitVec.ofNat 64 (2 ^ l) }

def Die.spares (x : Die) (core : Bool) : List Nat := if core then x.coreSpares else x.laneSpares
def Die.setSpares (x : Die) (core : Bool) (l : List Nat) : Die := if core then { x with coreSpares := l } else { x with laneSpares := l }

/-- The alarm of a failed lane or core (R423). -/
def Dev.resAlarm (d : Dev) (n : Nat) (core : Bool) : Dev :=
  let off := dieBase n + (if core then 0x420 else 0x410)
  d.alarm (0x10 + n) off n (if core then (d.die n).coreLog.setWidth 64 else BitVec.ofNat 64 (d.die n).laneSts)

/-- The claim that holds a logical lane or core. -/
def Dev.ownerOf (d : Dev) (n : Nat) (core : Bool) (l : Nat) : Option Nat :=
  (List.range 32).find? (fun c => !d.isOff (claimBlock c) &&
    (if core then (d.claim c).cores.getLsbD (8 * n + l) else (Tbl.lookD (d.claim c).lanes n (0 : Word)).getLsbD l))

/-- No spare is left: the logical lane or core is withdrawn, its owner's shape is lost, and condition 3 arises (R244); a die that no claim
holds lanes on is numbered afresh (R141). -/
def Dev.withdraw (d : Dev) (n : Nat) (core : Bool) (l : Nat) : Dev :=
  let d := match d.ownerOf n core l with
    | some c => d.modClaim c (fun k => { k with shapeLost := true })
    | none => d
  (d.condArises 3).compactFree n

/-- A waiting substitution starts: the lowest spare is tested, or the resource is withdrawn. -/
def Dev.substitute (d : Dev) (t : Subst) : Dev :=
  let x := d.die t.die
  match x.spares t.core with
  | p :: rest =>
    let d := d.setDie t.die (x.setSpares t.core rest)
    { d with health := { d.health with testing := d.health.testing ++ [{ t with spare := some p }] } }
  | [] => d.withdraw t.die t.core t.logical

/-- A lane or core fails, by physical number: it is recorded and alarmed, and its logical number is substituted, waits under HOLD, or is
withdrawn (R384). -/
def Dev.resFails (d : Dev) (n : Nat) (core : Bool) (p : Nat) : Dev :=
  let x := d.die n
  let list := if core then x.coreList else x.laneList
  let d := d.recordRes n core p
  if list.contains p && (if core then x.coreLog.getLsbD (list.idxOf p) else x.laneLog.getLsbD (list.idxOf p)) then
    let l := list.idxOf p
    let t : Subst := { die := n, core := core, logical := l, spare := none }
    let d := (d.setDie n (x.serve core l false)).resAlarm n core
    if (x.spares core).isEmpty then d.withdraw n core l
    else if d.health.hold then { d with health := { d.health with held := d.health.held ++ [t] } }.condArises 4
    else d.substitute t
  else (d.setDie n (x.setSpares core ((x.spares core).filter (· != p)))).resAlarm n core

/-- SPARE_SELF_TEST_DONE (R384): the spare takes the failed logical number, or is recorded as failed and the next one is tried. -/
def execSpareSelfTestDone (n : Fin 4) (core : Bool) (pass : Bool) (s : State) : Host.Outcome State Fault Refusal :=
  let d := s.dev
  match d.health.testing.find? (fun t => t.die == n.val && t.core == core) with
  | some t =>
    let d := { d with health := { d.health with testing := removeFirst t d.health.testing } }
    match t.spare with
    | some p =>
      if pass then
        let d := d.modDie n.val (fun x =>
          let x := x.serve core t.logical true
          if core then { x with coreList := setNth x.coreList t.logical p } else { x with laneList := setNth x.laneList t.logical p })
        answer s ((d.condArises 0).heldDone.compactFree n.val)
      else answer s (((d.recordRes n.val core p).resAlarm n.val core).substitute { t with spare := none }).heldDone
    | none => answer s d
  | none => answer s d

/-- SPARE_CTL_WRITE (R384, R397): AUTO starts every waiting substitution, HOLD keeps them waiting. -/
def execSpareCtlWrite (v : W32) (s : State) : Host.Outcome State Fault Refusal :=
  let d := s.dev
  viaCfg s (answer s (
    if v.getLsbD 0 then { d with health := { d.health with hold := true } }
    else
      let waits := d.health.held
      let d := { d with health := { d.health with hold := false, held := [] } }
      (waits.foldl Dev.substitute d).heldDone))

/-! ## Acknowledgement (R383) -/

/-- The request is acknowledged; with none raised there is nothing to acknowledge. -/
def Dev.ack (d : Dev) : Dev := if d.power.svcReqN then { d with health := { d.health with acked := true } } else d

/-- SERVICE_ACK (R383). -/
def execServiceAck (s : State) : Host.Outcome State Fault Refusal := viaCfg s (answer s s.dev.ack)

/-- CLEAR_EVENT_RECORDS (R383). -/
def execClearEventRecords (s : State) : Host.Outcome State Fault Refusal :=
  let d := s.dev
  answer s { d with host := { d.host with cxlEvents := [] } }.ack

/-! ## Deputy groups and handover (R389 to R392) -/

/-- HEALTH_FW_STS (Table 17.7). -/
def Health.fwSts (h : Health) : Nat :=
  let phase := match h.fwPhase with | .idle => 0 | .loading => 1 | .import => 2 | .pause => 3 | .standbyReload => 4
  b2n h.fwBusy * 2 ^ 31 + phase * 2 ^ 28 + b2n h.standbyOk * 2 ^ 27 + b2n h.servingB * 2 ^ 26 + h.fwReason.toNat

/-- A phase of a handover, which is logged (R393). -/
def Dev.phase (d : Dev) (busy : Bool) (p : FwPhase) : Dev :=
  let d := { d with health := { d.health with fwBusy := busy, fwPhase := p } }
  d.log 0x26 0x1E0024 0 (BitVec.ofNat 64 d.health.fwSts)

def Dev.fwReason (d : Dev) (why : Nat) : Dev := { d with health := { d.health with fwReason := BitVec.ofNat 16 why } }

/-- The other group serves, and the event routes move to it (R372). -/
def Dev.serveOn (d : Dev) (b : Bool) : Dev :=
  { d with health := { d.health with servingB := b }, evt := { d.evt with groupB := b } }

/-- SECVER of a Kolti image. -/
def secver (image : List Byte) : Nat := fieldAt image 4 4

/-- The image without its signature verifies. -/
def Dev.imageSigned (d : Dev) (image : List Byte) : Bool :=
  let n := image.length - 1280
  d.signedBy .vendor (image.take n) (image.drop n)

/-- HANDOVER (R389 to R391, R402): the standby loads the staged image, takes over, and the former serving group becomes the standby; or
the handover is abandoned, and the standby reloads the serving image. Events, claims and engines run on. -/
def execHandover (standbyFails : Bool) (s : State) : Host.Outcome State Fault Refusal :=
  let d := s.dev
  viaCfg s (match d.sec.staged with
    | none => answer s (d.fwReason 0x2601)
    | some image =>
      if d.health.fwBusy then answer s (d.fwReason 0x2602)
      else if d.store.groups != 0 then answer s (d.fwReason 0x2603)
      else if d.power.pstate != .mgmtUp && d.power.pstate != .running then answer s (d.fwReason 0x26F6)
      else
        let d := d.phase true .loading
        if !d.imageSigned image then answer s (((d.phase true .standbyReload).fwReason 0x2604).phase false .idle)
        else if standbyFails then answer s ((((d.phase true .import).phase true .standbyReload).fwReason 0x2605).phase false .idle)
        else
          let v := BitVec.ofNat 32 (secver image)
          let d := (((d.phase true .import).phase true .pause).serveOn (!d.health.servingB)).phase true .standbyReload
          let d := { d with
            health := { d.health with verServing := v, verStandby := v, standbyOk := true },
            sec := { d.sec with staged := none, serving := image },
            store := { d.store with minSecver := if d.store.minSecver < v then v else d.store.minSecver } }
          answer s (d.phase false .idle))

/-- A group failed its self-test: it is recorded, and condition 8 arises. -/
def Dev.groupFails (d : Dev) (g : Bool) : Dev :=
  let d := { d with store := { d.store with groups := d.store.groups ||| BitVec.ofNat 2 (if g then 2 else 1) },
                    health := { d.health with standbyOk := false, verStandby := 0 } }
  (d.alarm 0x26 0x1E0024 (b2n g) (BitVec.ofNat 64 d.health.fwSts)).condArises 8

/-- DEPUTY_WATCHDOG_EXPIRY (R392): the standby takes over from a serving group, the failed one is self-tested and becomes the standby or
is recorded; with no standby management stops. A group recorded as failed runs no more (R381). -/
def execDeputyWatchdogExpiry (g : Bool) (pass : Bool) (s : State) : Host.Outcome State Fault Refusal :=
  let d := s.dev
  if d.power.kolti && !d.store.groups.getLsbD (b2n g) then
    let serves := d.health.servingB == g
    let d := d.alarm 0x26 0x1E0024 (b2n g) (BitVec.ofNat 64 d.health.fwSts)
    let stops := serves && !d.health.standbyOk
    let d := if stops then { d with power := { d.power with kolti := false }, health := { d.health with stopped := true } }
             else if serves then d.serveOn (!g) else d
    answer s (
      if !pass then d.groupFails g
      else if stops then d
      else { d with health := { d.health with standbyOk := true, verStandby := d.health.verServing } })
  else answer s d

/-! ## Telemetry (R393 to R395) -/

/-- The record of Table 17.5, with the PHASE of a host ring where one is given. -/
def TRec.bytes (t : TRec) (phase : Nat) : List Byte :=
  [BitVec.ofNat 8 (t.cls * 64 + phase * 32), BitVec.ofNat 8 t.block] ++ toLe 2 t.count ++ toLe 4 t.reg ++ toLe 4 t.subject ++
    toLe 6 t.first.toNat ++ toLe 6 t.last.toNat ++ toLe 8 t.value.toNat

/-- The host ring takes records while the health block and the host interface run. -/
def Dev.tqOpen (d : Dev) : Bool := d.isRunning .health && d.hostOpen

/-- Post the oldest record the host ring has not taken, while it has room; an alarm raises vector 1. -/
def Dev.postHost (d : Dev) : Dev :=
  let h := d.health
  if d.tqOpen && Nat.blt (h.tqTail - h.tqHead).toNat (2 ^ h.tqLog2.toNat) then
    match h.queue.find? (fun t => !t.hostDone) with
    | some t =>
      let size := 2 ^ h.tqLog2.toNat
      let bytes := t.bytes (phaseBit h.tqTail size)
      let d := { d with health := { h with
        tqTail := h.tqTail + 1, queue := mergeFirst (fun x => !x.hostDone) (fun x => { x with hostDone := true }) h.queue } }
      let d := d.emit (.telemetry true (h.tqTail.toNat % size) (BitVec.ofNat 256 (leNat bytes)))
      if t.cls = 0 then d.raise 1 else d
    | none => d
  else d

/-- Telemetry flits an output may still send in the frame: to the ceiling, or to the floor under Fixed-Pace (R290, R355). -/
def Dev.telemetryRoom (d : Dev) (n : Nat) (k : Packet) : Bool :=
  let p := d.port n
  let bound := (if d.fixedPace then p.floor else p.ceiling) * d.frames.len.toNat
  let waits := ((p.waiting.filter (fun q => q.user == 6)).map Packet.flits).sum
  p.telemetry + waits + k.flits ≤ bound

/-- The packet that carries a record to the collector: alarms, logs and pads in CTRL, traces in BULK with DE. -/
def Dev.telemetryPacket (d : Dev) (cls : Nat) (bytes : List Byte) : Option Packet :=
  (d.lookup d.health.tdest.toNat).map (fun dst =>
    let v := Envelope.bound (if cls = 2 then 3 else 4) 6 0 dst d.health.tdest.toNat
    d.packet { v with de := cls == 2 } bytes)

/-- The collector takes the oldest record it has not taken, within the bounds of the output. -/
def Dev.postCollector (d : Dev) : Dev :=
  if d.isRunning .health && d.health.tdestValid then
    match d.health.queue.find? (fun t => !t.collDone) with
    | some t =>
      match d.telemetryPacket t.cls (t.bytes 0) with
      | some k =>
        let open_ := match d.route none k with | .out p k' => d.telemetryRoom p k' | _ => true
        if open_ then
          ({ d with health := { d.health with
              queue := mergeFirst (fun x => !x.collDone) (fun x => { x with collDone := true }) d.health.queue } }).inject k
        else d
      | none => d
    | none => d
  else d

/-- Records that every enabled path has taken leave the queue. -/
def Dev.trimQueue (d : Dev) : Dev :=
  { d with health := { d.health with
      queue := d.health.queue.filter (fun t => !(t.hostDone && (t.collDone || !d.health.tdestValid))) } }

/-- TELEMETRY_POST (R395). -/
def execTelemetryPost (s : State) : Host.Outcome State Fault Refusal := answer s s.dev.postHost.postCollector.trimQueue

/-- Every counter of a block, as block ID, register, subject and value (R393). -/
def Dev.counters (d : Dev) : List (Nat × Nat × Nat × Word) :=
  let steps := fun (lo n : Nat) => (List.range n).map (fun i => lo + 8 * i)
  let dies := (List.range 4).flatMap (fun n => ((steps 0x310 15) ++ [0x380] ++ steps 0x510 8).map (fun off =>
    (0x10 + n, dieBase n + off, n, Tbl.lookD (d.die n).cnt off 0)))
  let ports := (List.range 48).flatMap (fun p => (steps 0x40 8).map (fun off =>
    (0x21, 0x140000 + p * 0x400 + off, p, Tbl.lookD (d.port p).cnt off 0)))
  let table := fun (blk base lo n : Nat) (t : Tbl Word) => (steps lo n).map (fun off => (blk, base + off, 0, Tbl.lookD t off 0))
  [(0x01, 0x010020, 0, d.host.cntLinkDown.setWidth 64), (0x01, 0x010028, 0, d.host.cntDbRead)] ++
    (d.rings.filter (fun e => Nat.blt e.1 1024)).flatMap (fun e =>
      [(0x02, 0x011038, e.1, e.2.cntDone), (0x02, 0x011040, e.1, e.2.cntFail.setWidth 64)]) ++ dies ++
    [(0x18, 0x080080, 0, d.hoist.cntUnmapped), (0x18, 0x080088, 0, d.hoist.cntLost)] ++ table 0x28 0x130000 0x40 5 d.shuttle.cnt ++
    table 0x20 0x100000 0x40 8 d.xbar.cnt ++ ports ++ table 0x22 0x160000 0x40 10 d.routing.cnt ++ table 0x23 0x180000 0x40 5 d.coll.cnt ++
    table 0x24 0x1A0000 0x60 4 d.time.cnt ++ (List.range 4).map (fun n => (0x25, 0x1C00A0 + 8 * n, n, (d.die n).cntWake)) ++
    [(0x25, 0x1C00C0, 0, d.evt.krnFaults), (0x26, 0x1E0080, 0, d.health.dropTrace), (0x26, 0x1E0088, 0, d.health.dropLog),
     (0x26, 0x1E0090, 0, d.health.merged), (0x26, 0x1E0098, 0, d.health.alarms), (0x27, 0x200060, 0, d.mbx.cntRefused)]

/-- TRACE_SAMPLE (R393): the counters of every block become trace records; a period of 0 turns traces off. -/
def execTraceSample (s : State) : Host.Outcome State Fault Refusal :=
  let d := s.dev
  if d.health.tracePeriod = 0 then answer s d
  else answer s (d.counters.foldl (fun d x => { d with health := d.health.enqueue d.now 2 x.1 x.2.1 x.2.2.1 x.2.2.2 }) d)

/-- TQ_HEAD_WRITE (R395): the consumed count advances, or the write is ignored with REJECT and an alarm. -/
def execTqHeadWrite (v : W32) (s : State) : Host.Outcome State Fault Refusal :=
  let d := s.dev
  let h := d.health
  viaCfg s (answer s (
    if Nat.ble (h.tqTail - v).toNat (2 ^ h.tqLog2.toNat) && Nat.ble (v - h.tqHead).toNat (h.tqTail - h.tqHead).toNat then
      { d with health := { h with tqHead := v } }
    else (d.setBlock .health { d.block .health with reject := true }).alarm 0x26 0x1E0070 0 (h.tqHead.setWidth 64)))

end Sys2Proof.Machine
end

