-- ==== Sys2Proof/Machine/Fabric.lean ====
section
/-!
DEFINITION. The fabric family: training, flits and replay, link loss, forwarding, ingress and the routing registers (chapter 12).
-/
namespace Sys2Proof.Machine

/-! ## Wiring (R264, R266) -/

/-- A module at `own` may be wired on port `p` to a module at `peer`: the place rules of R264, the site mark apart. -/
def wiredTo (own p peer : Nat) : Bool :=
  if p < 15 then
    boltOf own == boltOf peer && rowOf own == rowOf peer && colOf own != colOf peer && warpPort (colOf own) (colOf peer) == p
  else if p < 30 then
    boltOf own == boltOf peer && colOf own == colOf peer && rowOf own != rowOf peer && weftPort (rowOf own) (rowOf peer) == p
  else boltOf own != boltOf peer

/-- The peer fits the wiring rules of both ends: the same domain, or another one on a port marked SITE_BOUNDARY. -/
def Dev.wired (d : Dev) (p : Nat) (t : TrainResult) : Bool :=
  let home := t.domain == d.routing.domain
  let peer := t.phys.toNat
  let q := t.port.toNat
  !t.duplicate &&
    (if (d.port p).site then !home && Nat.ble 30 q && Nat.blt q 48
     else home && Nat.blt q 48 && (Nat.blt p 30 == Nat.blt q 30) && wiredTo d.self p peer && wiredTo peer q d.self)

/-- The register to which link alarms are keyed, and the alarm (R423). -/
def Dev.portAlarm (d : Dev) (p : Nat) : Dev := d.alarm 0x21 (0x140010 + p * 0x400) p (BitVec.ofNat 64 (d.port p).linkReg)

/-! ## Training (R263 to R265, R275, R388) -/

/-- The link comes up with lanes: counters of flits and credits start afresh. -/
def Port.comeUp (p : Port) (t : TrainResult) (lanes : BitVec 4) (now : Tick) (loop : Option (Fin 4)) : Port :=
  { p with
    link := if lanes = 0xF then .up4 else .up3, lanes := lanes, delay := BitVec.ofNat 10 t.delay, peerDomain := t.domain,
    peerPort := t.port, peerPhys := t.phys, txSeq := 0, rxSeq := 0, refusing := false, flights := [], arriving := [], credits := 705, reserved := [],
    ackTick := now, trainTick := now, alarmed := false, loop := loop }

/-- FABRIC_LINK_UP (R264, R265, R275): training ends in UP4, UP3, MISWIRED or TOO_LONG, or the port stays in TRAINING. -/
def execFabricLinkUp (n : Fin 48) (t : TrainResult) (s : State) : Host.Outcome State Fault Refusal :=
  let d := s.dev
  let p := d.port n.val
  if d.isRunning (.port n) && p.link == .training then
    let lanes := t.lanes &&& p.cfg.mask
    let k := popCount 4 lanes.toNat
    let masked := popCount 4 p.cfg.mask.toNat
    let lost := (setBits 4 (p.cfg.mask &&& ~~~ t.lanes).toNat).head?
    let peerOf := fun (q : Port) => { q with delay := BitVec.ofNat 10 t.delay, peerDomain := t.domain, peerPort := t.port, peerPhys := t.phys }
    if k < 3 || (k = 3 && masked = 4 && p.cfg.degrade != 0) then
      let d' := d.setPort n.val { p with link := .training, trainTick := d.phys, alarmed := true }
      answer s (if p.alarmed then d' else d'.portAlarm n.val)
    else if !d.wired n.val t then
      answer s ((d.setPort n.val { peerOf p with link := .miswired, lanes := 0, trainTick := d.phys }).portAlarm n.val)
    else if 600 < t.delay then
      answer s ((d.setPort n.val { p with link := .tooLong, lanes := 0, delay := BitVec.ofNat 10 (min 1023 t.delay), trainTick := d.phys }).portAlarm n.val)
    else
      let loop := if k = 3 ∧ masked = 4 then lost.map (fun l => Fin.ofNat 4 l) else none
      answer s ((d.setPort n.val (p.comeUp t lanes d.phys loop)).pump n.val)
  else answer s d

/-- The retry timer of a port that is not up has run out: 1 s where it is MISWIRED, else 1 ms (R264, R274, R275). -/
def Dev.retryDue (d : Dev) (p : Port) : Bool :=
  (p.link == .miswired && d.past p.trainTick 1000000) || ((p.link == .down || p.link == .training) && d.past p.trainTick 1000) || p.link == .off

/-- PORT_RETRAIN (R264, R274, R275): training is tried again while the port's block is RUNNING. -/
def execPortRetrain (n : Fin 48) (s : State) : Host.Outcome State Fault Refusal :=
  let d := s.dev
  let p := d.port n.val
  answer s (if d.isRunning (.port n) && d.retryDue p then
    d.setPort n.val { p with link := .training, lanes := 0, trainTick := d.phys } else d)

/-- LOOPBACK_DONE (R388): a failed loopback is the module's own fault and condition 7; a passed one a link alarm only. -/
def execLoopbackDone (n : Fin 48) (pass : Bool) (s : State) : Host.Outcome State Fault Refusal :=
  let d := s.dev
  let p := d.port n.val
  if p.loop.isSome then
    let d := d.setPort n.val { p with loop := none }
    answer s (if pass then d.portAlarm n.val
      else ({ d with store := { d.store with ports := d.store.ports ||| BitVec.ofNat 48 (2 ^ n.val) } }).condArises 7)
  else answer s d

/-! ## Flits (R271 to R273) -/

/-- The exchange op that sends a shuttle packet: that of its claim and channel. -/
def Dev.exchangeOf (d : Dev) (k : Packet) : Option (Nat × W32) :=
  match d.tag k.tag with
  | some t =>
    let y := Tbl.lookD d.shuttle.chans (t.claim * 64 + k.xch) .reset
    if k.p 0 1 = 4 then y.ret.map (fun x => (x.ring, x.count))
    else if k.p 0 1 = 5 then none
    else y.disp.map (fun x => (x.ring, x.count))
  | none => none

/-- The op of this module that sent a packet, as ring and count: the shuttle by its channel, remote memory by OPID, the collective engine
by GID. -/
def Dev.origin (d : Dev) (k : Packet) : Option (Nat × W32) :=
  if k.slog != d.routing.log.toNat then none
  else match k.user with
    | 2 => if k.p 0 1 = 1 || k.p 0 1 = 2 || k.p 0 1 = 4 then (d.xbar.rem.find? (fun o => o.id == k.p 14 2)).map (fun o => (o.ring, o.count)) else none
    | 1 => d.exchangeOf k
    | 3 => (d.coll.groups.find? (fun e => bits e.2.entry.toNat 15 0 == k.p 2 2)).bind (fun e => e.2.op.map (fun o => (o.ring, o.count)))
    | _ => none

/-- RETRY will stand in the record of an op (R98, R273). -/
def Dev.markRetry (d : Dev) (o : Option (Nat × W32)) : Dev :=
  match o with
  | some (r, c) => d.modEntry r c (fun e => { e with res := { e.res with retry := true } })
  | none => d

/-- Flits up to a sequence number are acknowledged. -/
def Port.acked (p : Port) (seq : BitVec 12) (now : Tick) : Port :=
  if p.flights.any (fun f => f.seq == seq) then
    { p with flights := (p.flights.dropWhile (fun f => f.seq != seq)).drop 1, ackTick := now }
  else p

/-- A flit sent once more: its packet counts as retried, which its TAIL flit says (R273). -/
def Flight.again (f : Flight) : Flight := { f with replays := f.replays + 1, packet := { f.packet with retried := true } }

/-- Replay every unacknowledged flit from one onward (R273); a retry puts a run outside its spread (R358). -/
def Dev.replayFrom (d : Dev) (n : Nat) (seq : BitVec 12) : Dev :=
  let p := d.port n
  if p.flights.any (fun f => f.seq == seq) then
    let again := p.flights.dropWhile (fun f => f.seq != seq)
    let kept := p.flights.takeWhile (fun f => f.seq != seq)
    let packets := (again.map (fun f => f.packet)).eraseDups
    let d := d.setPort n { p with
      flights := kept ++ again.map Flight.again
      cnt := bump p.cnt 0x58 again.length }
    let d := packets.foldl (fun d k => d.markRetry (d.origin k)) d
    ({ d with time := { d.time with spreadLost := true } }).emit (.replay n (again.map (fun f => (Flight.again f).flit.bytes)))
  else d

/-- FLIT_NAK (R273). -/
def execFlitNak (n : Fin 48) (seq : BitVec 12) (s : State) : Host.Outcome State Fault Refusal :=
  answer s (if (s.dev.port n.val).up then s.dev.replayFrom n.val seq else s.dev)

/-- Credits come back: a reservation fills first, then the shared room. -/
def Port.credited (p : Port) (vc : Nat) (level : Bool) (n : Nat) : Port :=
  let key := if vc = 5 then (if level then 6 else 5) else vc
  let held := Tbl.lookD p.reserved key 9
  let back := if vc = 5 || level then min n (9 - held) else 0
  { p with reserved := if back = 0 then p.reserved else Tbl.put p.reserved key (held + back), credits := min 705 (p.credits + (n - back)) }

/-- The bytes of packets that are arriving, after a flit's: a HEAD begins a packet, a TAIL ends it (R272). -/
def Port.gather (p : Port) (f : Flit) : Port :=
  let key := 2 * f.vc.toNat + b2n f.level
  { p with arriving := if f.tail then Tbl.del p.arriving key
      else Tbl.put p.arriving key ((if f.head then [] else Tbl.lookD p.arriving key []) ++ f.data) }

/-- FLIT_RECEIVE (R271, R273): a flit that fails its CRC, and those that follow it, are not accepted and a NAK names the first; an accepted one
is counted and acknowledged, and its credits and acknowledgement take effect. -/
def execFlitReceive (n : Fin 48) (b : List Byte) (s : State) : Host.Outcome State Fault Refusal :=
  let d := s.dev
  let f := flitOf b
  let p := d.port n.val
  if !p.up then answer s d
  else if !f.crcOk then
    answer s ((d.setPort n.val { p with cnt := bump p.cnt 0x50 1, refusing := true }).emit (.idle n.val (idleFlit true p.rxSeq).bytes))
  else
    let idle := f.vc == 7
    if !idle && f.seq != p.rxSeq then answer s d
    else
      let p := if idle then p else { p.gather f with rxSeq := p.rxSeq + 1, refusing := false, cnt := bump p.cnt 0x48 1 }
      let p := match f.credit with | some (vc, level, k) => p.credited vc.toNat level k.toNat | none => p
      let p := match f.ack with | some (false, q) => p.acked q d.phys | _ => p
      let d := d.setPort n.val p
      let d := if idle then d else d.emit (.idle n.val (idleFlit false f.seq).bytes)
      let d := match f.ack with | some (true, q) => d.replayFrom n.val q | _ => d
      answer s (d.pump n.val)

/-! ## Link loss (R274) -/

/-- What has arrived of a packet whose tail will not come: it goes on, ended with ABORT (R272). -/
def truncated (b : List Byte) : Packet := { hdr := BitVec.ofNat 256 (leNat (b.take 32)), payload := b.drop 32, retried := false, abort := true }

/-- The link goes DOWN: packets with an unacknowledged flit are discarded with a notice, those that waited find no route, and those of which
a part has arrived go on truncated. -/
def Dev.linkDown (d : Dev) (n : Nat) : Dev :=
  let p := d.port n
  let sent := (p.flights.filter (fun f => f.tail)).map (fun f => f.packet)
  let d := d.setPort n { p with
    link := .down, lanes := 0, flights := [], arriving := [], waiting := [], deDepth := 0, loop := none, cnt := bump p.cnt 0x70 1, trainTick := d.phys }
  let d := if d.time.upPort.toNat = n then d.upstreamLost else d
  let d := sent.foldl (fun d k => d.discard 1 (some n) k) d
  let d := p.waiting.foldl (fun d k => d.discard 3 (some n) k) d
  p.arriving.foldl (fun d e => d.follow (truncated e.2) (d.route (some n) (truncated e.2))) d

/-- The hub decides a failing link's fate: three lanes where one lane holds the errors, on which every unacknowledged flit is sent again,
else DOWN. -/
def Dev.linkFate (d : Dev) (n : Nat) (lane : Option (Fin 4)) : Dev :=
  let p := d.port n
  match lane with
  | some l =>
    if p.cfg.degrade = 0 && p.link == .up4 then
      let d := d.setPort n { p with
        link := .up3, lanes := p.lanes &&& ~~~ BitVec.ofNat 4 (2 ^ l.val), loop := some l, ackTick := d.phys,
        flights := p.flights.map (fun f => { f with replays := 0 }) }
      match p.flights with | f :: _ => d.replayFrom n f.seq | [] => d
    else d.linkDown n
  | none => d.linkDown n

/-- LINK_RETRY_EXHAUSTED (R274): a flit has been replayed RETRY_LIMIT times; `lane` holds at least 90% of the recent symbol errors. -/
def execLinkRetryExhausted (n : Fin 48) (lane : Option (Fin 4)) (s : State) : Host.Outcome State Fault Refusal :=
  let d := s.dev
  let p := d.port n.val
  answer s (if p.up && p.flights.any (fun f => Nat.ble p.cfg.retryLimit.toNat f.replays) then d.linkFate n.val lane else d)

/-- LINK_ACK_TIMEOUT (R274): nothing was acknowledged for LINK_TO µs while flits are outstanding. -/
def execLinkAckTimeout (n : Fin 48) (lane : Option (Fin 4)) (s : State) : Host.Outcome State Fault Refusal :=
  let d := s.dev
  let p := d.port n.val
  answer s (if p.up && !p.flights.isEmpty && d.past p.ackTick p.cfg.linkTo.toNat then d.linkFate n.val lane else d)

/-- LEAVING_NOTICE_RECEIVE (R274): a quiescing peer's notice takes the link DOWN at once. -/
def execLeavingNoticeReceive (n : Fin 48) (s : State) : Host.Outcome State Fault Refusal :=
  answer s (if (s.dev.port n.val).up then s.dev.linkDown n.val else s.dev)

/-! ## Packets -/

/-- PACKET_FORWARD (R276): the hub routes a packet that came by a port, or of its own engines, or discards it. -/
def execPacketForward (from_ : Option (Fin 48)) (k : Packet) (s : State) : Host.Outcome State Fault Refusal :=
  let d := s.dev
  if d.power.hubOn then
    match from_ with
    | none => answer s (d.inject k)
    | some p => answer s (if (d.port p.val).up then d.follow k (d.route (some p.val) k) else d)
  else answer s d

/-- PACKET_INGRESS (R269, R270, R272, R277, R282): the checks at the destination, then the engine; a detoured packet is confirmed. -/
def execPacketIngress (k : Packet) (s : State) : Host.Outcome State Fault Refusal :=
  let d := s.dev
  if !d.power.hubOn then answer s d
  else if k.abort then answer s (d.countRt (causeCounter 2))
  else if k.bad then answer s (d.countRt (causeCounter 7))
  else if !k.mcast && (k.dst != d.self || k.dlog != d.routing.log.toNat) then answer s (d.discard 5 none k)
  else
    let d := match d.tag k.tag with | some t => d.setTag k.tag { t with seen := d.phys } | none => d
    if !k.xsite && d.tagRevoked k.tag then answer s (d.countRt (causeCounter 8))
    else
      let d := if k.detoured then d.emit (.confirm k.diverter k) else d
      answer s (d.emit (.deliver k))

/-- DELIVERY_CONFIRM (R277): a detoured packet has arrived; a FENCE packet whose key has no more of them goes on. -/
def execDeliveryConfirm (src dst : BitVec 20) (cls : BitVec 3) (s : State) : Host.Outcome State Fault Refusal :=
  let d := s.dev
  let key := (src, dst, cls.toNat)
  let d := { d with routing := { d.routing with detours := removeFirst key d.routing.detours } }
  if d.routing.detours.contains key then answer s d
  else
    let mine := fun (k : Packet) => (BitVec.ofNat 20 k.sphys, BitVec.ofNat 20 k.dst, k.cls) == key
    let free := d.routing.held.filter mine
    let d := { d with routing := { d.routing with held := d.routing.held.filter (fun k => !mine k) } }
    answer s (free.foldl (fun d k => d.follow k (d.route none k)) d)

/-! ## Routing registers (R269, R285) -/

/-- The index after an access with AUTOINC, wrapping at the table's end. -/
def autoInc (sel : W32) (w : Nat) : W32 :=
  if sel.getLsbD 31 then BitVec.ofNat 32 (2 ^ 31 + (sel.toNat + 1) % 2 ^ w) else sel

/-- RT_L2P_DATA_WRITE (R267, R269, R285). -/
def execRtL2pDataWrite (v : W32) (s : State) : Host.Outcome State Fault Refusal :=
  viaCfg s (
    let r := s.dev.routing
    answer s { s.dev with routing := { r with
      l2p := Tbl.put r.l2p (bits r.l2pSel.toNat 19 0) (v &&& 0x800FFFFF), l2pSel := autoInc r.l2pSel 20 } })

/-- RT_L2P_DATA_READ (R285); with management stopped the read returns 0 (R392). -/
def execRtL2pDataRead (s : State) : Host.Outcome State Fault Refusal :=
  let r := s.dev.routing
  if s.dev.health.stopped then answer s (s.dev.emit (.data (toLe 4 0)))
  else answer s ({ s.dev with routing := { r with l2pSel := autoInc r.l2pSel 20 } }.emit
    (.data (toLe 4 (Tbl.lookD r.l2p (bits r.l2pSel.toNat 19 0) (0 : W32)).toNat)))

/-- RT_SPAN_DATA_WRITE (R268, R269, R285). -/
def execRtSpanDataWrite (v : Word) (s : State) : Host.Outcome State Fault Refusal :=
  viaCfg s (
    let r := s.dev.routing
    answer s { s.dev with routing := { r with
      span := Tbl.put r.span (bits r.spanSel.toNat 11 0) (v &&& 0xCFFF000000001FFF), spanSel := autoInc r.spanSel 12 } })

/-- RT_SPAN_DATA_READ (R285); with management stopped the read returns 0 (R392). -/
def execRtSpanDataRead (s : State) : Host.Outcome State Fault Refusal :=
  let r := s.dev.routing
  if s.dev.health.stopped then answer s (s.dev.emit (.data (toLe 8 0)))
  else answer s ({ s.dev with routing := { r with spanSel := autoInc r.spanSel 12 } }.emit
    (.data (toLe 8 (Tbl.lookD r.span (bits r.spanSel.toNat 11 0) (0 : Word)).toNat)))

/-- RT_ADAPT_WRITE (R285): ignored with WRITE_REJECT out of range, or under Fixed-Pace. -/
def execRtAdaptWrite (v : W32) (s : State) : Host.Outcome State Fault Refusal :=
  viaCfg s (
    let d := s.dev
    let t := bits v.toNat 31 16
    answer s (if d.fixedPace || Nat.blt t 9 || Nat.blt 1024 t then { d with routing := { d.routing with adaptReject := true } }
      else { d with routing := { d.routing with thresh := BitVec.ofNat 16 t, adaptOff := v.getLsbD 0 } }))

end Sys2Proof.Machine
end

