-- ==== Sys2Proof/Machine/Remote.lean ====
section
/-!
DEFINITION. The remote family: planes, shares and RED profiles, drop-eligible arrivals, the region table, and remote memory at the
source and at the destination (chapter 13).
-/
namespace Sys2Proof.Machine

/-! ## The crossbar's registers (R287, R291, R306) -/

/-- PLANE_RETIRE (R287): in AUTO a failing plane is retired while the other is there; the packets it held are resent, and condition 6
arises. -/
def execPlaneRetire (b : Bool) (s : State) : Host.Outcome State Fault Refusal :=
  let d := s.dev
  if d.xbar.planeMode = 0 && d.store.planes = 0 && d.power.hubOn then
    let held := (d.ports.map (fun e => e.2.waiting.length)).sum
    let (v, d) := d.draw
    let d := { d with
      xbar := { d.xbar with cnt := bump d.xbar.cnt 0x60 (v.toNat % (held + 1)) }
      store := { d.store with planes := if b then 2 else 1 } }
    answer s (d.condArises 6)
  else answer s d

/-- XBAR_PLANE_CTL_WRITE (R287, Table 13.11): code 3 is ignored; a write that leaves a retired plane as the only one sets WRITE_REJECT. -/
def execXbarPlaneCtlWrite (v : W32) (s : State) : Host.Outcome State Fault Refusal :=
  viaCfg s (
    let d := s.dev
    let m := BitVec.ofNat 2 v.toNat
    if m = 3 then answer s d
    else if (m = 1 && d.store.planes.getLsbD 0) || (m = 2 && d.store.planes.getLsbD 1) then
      answer s { d with xbar := { d.xbar with planeReject := true } }
    else
      let d' := { d with xbar := { d.xbar with planeMode := m } }
      answer s (if d'.planesUp = d.planesUp then d' else d'.bumpCap))

/-- XBAR_CLASS_SHARE_WRITE (R306): six shares, none 0, summing to at most 256; in force from the next frame. -/
def execXbarClassShareWrite (v : Word) (s : State) : Host.Outcome State Fault Refusal :=
  viaCfg s (
    let d := s.dev
    let shares := (List.range 6).map (fun i => bits v.toNat (8 * i + 7) (8 * i))
    let ok := shares.all (0 < ·) && decide (shares.sum ≤ 256)
    answer s { d with xbar := if ok then { d.xbar with shareReg := v &&& 0xFFFFFFFFFFFF } else { d.xbar with planeReject := true } })

/-- XBAR_RED_WRITE (R306, Table 13.12): MAX is 1 to 128 and above MIN. -/
def execXbarRedWrite (i : Fin 3) (v : W32) (s : State) : Host.Outcome State Fault Refusal :=
  viaCfg s (
    let d := s.dev
    let hi := bits v.toNat 23 16
    let lo := bits v.toNat 15 8
    let x := d.xbar
    let ok := Nat.blt lo hi && Nat.ble hi 128
    answer s { d with xbar := if ok then { x with red := Tbl.put x.red i.val (v &&& 0xFFFFFF00) } else { x with planeReject := true } })

/-- DE_ARRIVAL (R292, R293): a drop-eligible packet arrives at an output. -/
def execDeArrival (n : Fin 48) (k : Packet) (s : State) : Host.Outcome State Fault Refusal :=
  answer s (if s.dev.power.hubOn && k.de then s.dev.deArrive n.val k else s.dev)

/-! ## Regions (R297, R298, Table 13.4) -/

def rgnKey (x : BitVec 256) : Nat := bits x.toNat 31 0
def rgnObj (x : BitVec 256) : Nat := bits x.toNat 49 32
def rgnValid (x : BitVec 256) : Bool := bit x.toNat 63
def rgnRead (x : BitVec 256) : Bool := bit x.toNat 62
def rgnWrite (x : BitVec 256) : Bool := bit x.toNat 61
def rgnAtomic (x : BitVec 256) : Bool := bit x.toNat 60
def rgnXsite (x : BitVec 256) : Bool := bit x.toNat 59
def rgnAnyTag (x : BitVec 256) : Bool := bit x.toNat 58
def rgnOff (x : BitVec 256) : Nat := bits x.toNat 105 64
def rgnLen (x : BitVec 256) : Nat := bits x.toNat 169 128
def rgnTag (x : BitVec 256) : Nat := bits x.toNat 207 192

def Dev.rgn (d : Dev) (i : Nat) : BitVec 256 := Tbl.lookD d.xbar.regions i 0

/-- The reason a WRITE of the staged entry is refused with, or 0 (R298, Table 18.6 ITEM 3). -/
def Dev.rgnReason (d : Dev) (i : Nat) (x : BitVec 256) : Nat :=
  let n := x.toNat
  if !rgnValid x then 0
  else if bits n 55 50 != 0 || bits n 57 56 != 0 || bits n 127 106 != 0 || bits n 191 170 != 0 || bits n 255 208 != 0 || rgnKey x == 0 ||
      rgnOff x % 64 != 0 || rgnLen x % 64 != 0 || rgnLen x == 0 then 0x20F4
  else
    let o := d.obj (rgnObj x)
    if o.any (fun o => Nat.blt o.len (rgnOff x + rgnLen x)) then 0x20F3
    else if !o.any (fun o => o.st == .ready) then 0x2002
    else if d.xbar.regions.any (fun e => e.1 != i && rgnValid e.2 && rgnKey e.2 == rgnKey x) then 0x2001
    else if rgnXsite x && (rgnRead x || rgnAtomic x || !rgnWrite x) then 0x2003
    else if (rgnXsite x && !d.store.regionPolicy.getLsbD 0) || (rgnAnyTag x && d.store.regionPolicy.getLsbD 1) then 0x20F2
    else 0

/-- RGN_WRITE (R298). -/
def Dev.rgnWrite (d : Dev) : Dev :=
  let i := d.xbar.rgnSel.toNat
  let why := d.rgnReason i d.xbar.rgnData
  let x := d.xbar
  { d with xbar := if why = 0 then { x with regions := Tbl.put x.regions i x.rgnData, rgnReason := 0 } else { x with rgnReason := reason16 why } }

/-- RGN_INVALIDATE (R298): VALID is cleared. -/
def Dev.rgnInvalidate (d : Dev) : Dev :=
  let i := d.xbar.rgnSel.toNat
  { d with xbar := { d.xbar with regions := Tbl.put d.xbar.regions i (invalid (d.rgn i)), rgnReason := 0 } }

/-- RGN_READ (R298): the selected entry is staged. -/
def Dev.rgnReadCmd (d : Dev) : Dev :=
  { d with xbar := { d.xbar with rgnData := d.rgn d.xbar.rgnSel.toNat, rgnReason := 0 } }

def execRgnWrite (s : State) : Host.Outcome State Fault Refusal := viaCfg s (answer s s.dev.rgnWrite)
def execRgnInvalidate (s : State) : Host.Outcome State Fault Refusal := viaCfg s (answer s s.dev.rgnInvalidate)
def execRgnRead (s : State) : Host.Outcome State Fault Refusal := viaCfg s (answer s s.dev.rgnReadCmd)

/-! ## The remote-memory header (R296, Table 13.3) -/

def remHeader (kind rfl aop nak key off id : Nat) : List Byte :=
  [BitVec.ofNat 8 kind, BitVec.ofNat 8 rfl, BitVec.ofNat 8 aop, BitVec.ofNat 8 nak] ++ toLe 4 key ++ toLe 6 off ++ toLe 2 id

/-- A packet handed to the remote-memory engine as one kind: a bad header is discarded and counted (R296). -/
def remAs (s : State) (k : Packet) (kind : Nat) (f : Dev → Dev × List MemOp) : Host.Outcome State Fault Refusal :=
  if k.user ≠ 2 then answer s s.dev
  else if !k.remOk then answer s (s.dev.countRt (causeCounter 7))
  else if k.rkind = kind then answerMem s (f s.dev) else answer s s.dev

/-! ## Atomics (Table 13.7) -/

/-- Bytes of an atomic operation. -/
def atomicWidth (aop : Nat) : Nat := if aop = 0x10 then 4 else 8

/-- The result in memory. -/
def atomicResult (aop old value compare : Nat) : Nat :=
  let s := fun v => signedOf 64 v
  match aop with
  | 0x01 => (old + value) % 2 ^ 64
  | 0x02 => old &&& value
  | 0x03 => old ||| value
  | 0x04 => old ^^^ value
  | 0x05 => min old value
  | 0x06 => max old value
  | 0x07 => if s value < s old then value else old
  | 0x08 => if s old < s value then value else old
  | 0x09 => value
  | 0x0A => if old = compare then value else old
  | 0x10 => f32.rne (Val.add (f32.dec old) (f32.dec (value % 2 ^ 32)))
  | 0x11 => f64.rne (Val.add (f64.dec old) (f64.dec value))
  | _ => old

/-! ## Remote ops at the source (R295, R302 to R304) -/

def Dev.remOp (d : Dev) (r : Nat) (c : W32) : Option RemOp := d.xbar.rem.find? (fun o => o.ring == r && o.count == c)

def Dev.remById (d : Dev) (id : Nat) : Option RemOp := d.xbar.rem.find? (fun o => o.id == id)

def Dev.setRem (d : Dev) (o : RemOp) : Dev := { d with xbar := { d.xbar with rem := d.xbar.rem.map (fun p => if p.id = o.id then o else p) } }

def Dev.dropRem (d : Dev) (id : Nat) : Dev := { d with xbar := { d.xbar with rem := d.xbar.rem.filter (fun p => p.id != id) } }

/-- Chunks of an op. -/
def RemOp.chunks (o : RemOp) : Nat := if o.kind = 4 then 1 else ceilDiv o.len 1536

/-- Bytes of chunk `i`. -/
def RemOp.chunk (o : RemOp) (i : Nat) : Nat := min 1536 (o.len - 1536 * i)

/-- The claim whose op it is. -/
def Dev.remClaim (d : Dev) (o : RemOp) : Nat := (d.ring o.ring).claim.toNat

/-- What an op that ends without its answers leaves undefined: the destination of a GET or a fetching atomic (R99). -/
def RemOp.out (o : RemOp) : List (Nat × Nat) := if o.kind = 2 then [(o.place, o.len)] else if o.fetch then [(o.place, 8)] else []

/-- The packet of chunk `i`; one that stays in this domain gets its coordinate as it is injected (R269). -/
def Dev.chunkPacket (d : Dev) (m : Memory) (o : RemOp) (i : Nat) : Packet :=
  let last := i + 1 == o.chunks
  let head := remHeader o.kind (b2n last * 128 + b2n o.fetch * 64) o.aop 0 o.key.toNat (o.off + 1536 * i) o.id
  let data := if o.kind = 1 then d.readDev m (o.place + 1536 * i) (o.chunk i)
              else if o.kind = 4 then toLe 8 o.value.toNat ++ toLe 8 o.compare.toNat else []
  d.packet { cls := if o.kind = 1 then 3 else 0, user := 2, tag := o.tag.toNat, dst := if o.xsite then o.phys.toNat else 0, dlog := o.log.toNat,
             fence := o.fence && i == 0, de := o.droppable, xsite := o.xsite, retrySeen := false, mask := 0, weft := false } (head ++ data)

/-- Inject chunk `i`: its answer is awaited from here. -/
def Dev.sendChunk (m : Memory) (p : Dev × RemOp) (i : Nat) : Dev × RemOp :=
  let d := p.1
  let o := p.2
  let k := d.chunkPacket m o i
  let bytes := if o.kind = 1 then o.chunk i else 0
  let deep := d.deepBytes (o.place + 1536 * i) bytes
  let d := d.modEntry o.ring o.count (fun e => { e with res := { e.res with fabric := e.res.fabric + d.fabricBytes k, deep := e.res.deep + deep } })
  let d := if bytes = 0 then d else d.engineRead (o.place + 1536 * i) bytes
  let o := { o with sent := i + 1, waits := o.waits ++ [i], lastSent := d.phys }
  ((d.setRem o).injectFor (d.remClaim o) (some (o.ring, o.count)) k, o)

/-- The op ends as its answers have left it. -/
def Dev.endRem (d : Dev) (o : RemOp) : Dev :=
  match d.entry o.ring o.count with
  | some e => if e.phase == .started then (d.dropRem o.id).endOp o.ring e e.res else d.dropRem o.id
  | none => d.dropRem o.id

/-- The remote op is still what its ring's descriptor runs. -/
def Dev.remLive (d : Dev) (o : RemOp) : Bool :=
  match d.entry o.ring o.count with | some e => e.phase == .started | none => false

/-- Ops that something else ended leave the engine. -/
def Dev.sweepRem (d : Dev) : Dev := { d with xbar := { d.xbar with rem := d.xbar.rem.filter d.remLive } }

/-- Inject the chunks that answer room allows: 1,024 of an op, 4,096 in all (R295); an op that loses its destination meanwhile ends, its own
outputs undefined (R99, R267). -/
def Dev.pushRem (d : Dev) (m : Memory) (o : RemOp) : Dev × List MemOp :=
  let room := min (1024 - o.waits.length) (4096 - (d.xbar.rem.map (fun p => p.waits.length)).sum)
  let n := min room (o.chunks - o.sent)
  let p := ((List.range n).map (o.sent + ·)).foldl (fun p i => if p.1.remLive p.2 then Dev.sendChunk m p i else p) (d, o)
  if p.1.remLive o then (p.1, []) else (p.1.dropRem o.id).scramble o.out

/-- The lowest free OPID. -/
def Dev.freeOpid (d : Dev) : Option Nat := (List.range 64).find? (fun i => d.xbar.rem.all (fun o => o.id != i))

/-- What a remote op is started with, once every check has passed. -/
structure RemPlan where
  place : Nat
  len : Nat
  phys : Nat
  tag : Nat
  deriving DecidableEq, Repr

/-- The logical ID's coordinate; this module's own for its own ID. -/
def Dev.remPhys (d : Dev) (log : Nat) : Option Nat :=
  if log = d.routing.log.toNat then (d.lookup log).map (fun _ => d.self) else d.lookup log

/-- The far coordinate lies in RT_MIRROR.FAR_BOLT, and RT_MIRROR is VALID (R280, R304). -/
def Dev.mirrorOk (d : Dev) (phys : Nat) : Bool :=
  let m := d.routing.mirror.toNat
  bit m 31 && boltOf phys == bits m 27 16

/-- The checks of a remote op at its start: the engine's state (R306), the list of R302 or of R303 in its order, RT_MIRROR (R304) and the
claim's tag (R347). -/
def Dev.remChecks (d : Dev) (r : Nat) (e : Entry) : Except Result RemPlan :=
  let x := e.desc
  let atomic := hOpcode x == 0x42
  let fetch := atomic && bit (fld x 41 1) 7
  let len := if atomic then 8 else fld x 44 4
  let off := bits (fld x 24 8) 41 0
  let align := if atomic then atomicWidth (fld x 40 1) else 64
  let dest := bits (fld x 36 4) 19 0
  let xsite := !atomic && bit (fld x 48 1) 7
  let place := if atomic && !fetch then Except.ok none else (d.array r e 16 len (if atomic then 8 else 64)).map some
  let phys := if xsite then (let f := bits (fld x 40 4) 19 0; if d.mirrorOk f then some f else none) else d.remPhys dest
  let aligned := off % align == 0
  if !d.isRunning .xbar then .error (Result.fail stRemoteFailed 0)
  else if atomic && !aligned then .error (Result.fail stAddrFault 24)
  else match place with
  | .error w => .error w
  | .ok p =>
    if !aligned then .error (Result.fail stAddrFault 24)
    else if !xsite && phys.isNone then .error (Result.fail stRemoteFailed 0xFFFF)
    else if (match p with | some p => p.isLost | none => false) then .error (Result.fail stDataLost 16)
    else match phys, d.sendTag (d.claimOf r) with
      | none, _ => .error (Result.fail stRemoteFailed 0xFFFF)
      | _, none => .error (Result.fail stRemoteFailed 0xFFFC)
      | some f, some t => .ok { place := match p with | some p => p.addr | none => 0, len := len, phys := f, tag := t }

/-- Run a remote op: its checks and its place in the engine first, then chunks as answers free room. -/
def runRemote (s : State) (r : RingNo) (count : W32) (opcode kind : Nat) : Host.Outcome State Fault Refusal :=
  let d := s.dev.sweepRem
  match d.op r.val count opcode with
  | none => answer s s.dev
  | some e =>
    match d.remOp r.val count with
    | some o => answerMem s (d.pushRem s.mem o)
    | none =>
      match d.remChecks r.val e with
      | .error w => failOp s r.val e w
      | .ok p =>
        let x := e.desc
        let f := if kind = 4 then 0 else fld x 48 1
        let ranges := [span 16 p.place p.len]
        let lands := kind == 2 || (kind == 4 && bit (fld x 41 1) 7)
        let ins := if kind = 1 then ranges else []
        let outs := if lands then ranges else []
        let wait := d.mustWait e ins outs || d.freeOpid.isNone
        begun { s with dev := d } r.val e wait (d.deepNeeds (ins.map Grid.range) (outs.map Grid.range)) (fun s =>
          let d := ((s.dev.take r.val count).countStreamed ins)
          match d.freeOpid with
          | none => answer s d
          | some id =>
            let o : RemOp := {
              id := id, ring := r.val, count := count, kind := kind, place := p.place, off := bits (fld x 24 8) 41 0, len := p.len, key := BitVec.ofNat 32 (fld x 32 4), log := BitVec.ofNat 20 (fld x 36 4), phys := BitVec.ofNat 20 p.phys,
              xsite := bit f 7, droppable := bit f 6, fence := bit f 5, aop := if kind = 4 then fld x 40 1 else 0,
              fetch := kind == 4 && bit (fld x 41 1) 7, value := BitVec.ofNat 64 (fld x 48 8), compare := BitVec.ofNat 64 (fld x 56 8),
              tag := BitVec.ofNat 16 p.tag, sent := 0, waits := [], lastSent := d.phys, lastHeard := d.phys }
            let d := { d with xbar := { d.xbar with rem := d.xbar.rem ++ [o] } }
            answerMem s (d.pushRem s.mem o))

/-- REMOTE_PUT (R302, R304). -/
def execRemotePut (r : RingNo) (count : W32) (s : State) : Host.Outcome State Fault Refusal := runRemote s r count 0x40 1

/-- REMOTE_GET (R302). -/
def execRemoteGet (r : RingNo) (count : W32) (s : State) : Host.Outcome State Fault Refusal := runRemote s r count 0x41 2

/-- REMOTE_ATOMIC (R303). -/
def execRemoteAtomic (r : RingNo) (count : W32) (s : State) : Host.Outcome State Fault Refusal := runRemote s r count 0x42 4

/-! ## The destination (R299 to R301, Table 13.5) -/

/-- The region and object a packet is served from, or the NAK_CAUSE of the first check that fails. -/
def Dev.serveCheck (d : Dev) (k : Packet) (may : BitVec 256 → Bool) (extent : Nat) : Except Nat (Nat × Obj) :=
  match (d.xbar.regions.find? (fun e => rgnValid e.2 && rgnKey e.2 == k.key)).filter (fun _ => d.isRunning .xbar) with
  | none => .error 1
  | some (_, x) =>
    match (d.obj (rgnObj x)).filter Obj.named with
    | none => .error 2
    | some o =>
      if k.xsite && !rgnXsite x then .error 3
      else if !(k.xsite || rgnAnyTag x || k.tag == rgnTag x) then .error 4
      else if !may x then .error 5
      else if rgnLen x < k.roff + extent then .error 6
      else if o.isLost then .error 7
      else .ok (o.base + rgnOff x + k.roff, o)

/-- An answer to a packet: it goes back to its source in RSP, under its tag; its coordinate is that of the source's logical ID, or across a
site boundary the source's own. -/
def Dev.remAnswer (d : Dev) (k : Packet) (kind nak : Nat) (data : List Byte) : Packet :=
  d.packet { cls := 1, user := 2, tag := k.tag, dst := k.sphys, dlog := k.slog, fence := false, de := kind == 3 && k.de, xsite := k.xsite,
             retrySeen := k.retried, mask := 0, weft := false }
    (remHeader kind k.rfl 0 nak k.key k.roff k.opid ++ data)

/-- A NAK, counted and remembered. Its FABRIC units are the claim's of its tag, else the claim's that owns the region's object, or claim 0's
where there is neither (DESIGN CHOICE, notes/assumptions/55.md). -/
def Dev.sendNak (d : Dev) (k : Packet) (cause : Nat) : Dev :=
  let c := match (d.xbar.regions.find? (fun e => rgnValid e.2 && rgnKey e.2 == k.key)).bind (fun e => d.obj (rgnObj e.2)) with
    | some o => o.claim
    | none => 0
  let d := { d with xbar := { d.xbar with
    lastNak := BitVec.ofNat 32 (cause * 2 ^ 24 + k.slog), cnt := bump d.xbar.cnt 0x70 1 } }
  d.injectFor (((d.tag k.tag).map (fun t => t.claim)).getD c) none (d.remAnswer k 7 cause [])

/-- A landing is charged to the claim that owns the object: 8 units a deep line, 16 a line written in part, never held (R249, R301). -/
def Dev.landing (d : Dev) (o : Obj) (a n : Nat) (write : Bool) : Dev :=
  (d.payDeep o.claim [(a, n)] write).account o.claim 0 (d.deepBytes a n) 0 0

/-- PUT_RECEIVE (R299 to R301): the chunk is written and acknowledged, or refused with a NAK. -/
def execPutReceive (k : Packet) (s : State) : Host.Outcome State Fault Refusal :=
  remAs s k 1 (fun d =>
    let data := k.payload.drop 16
    match d.serveCheck k rgnWrite data.length with
    | .error c => (d.sendNak k c, [])
    | .ok (a, o) =>
      let d := (d.landing o a data.length true).engineWrite a data.length
      let p := d.storeAt a data
      (p.1.injectFor o.claim none (d.remAnswer k 6 0 []), p.2))

/-- GET_REQ_RECEIVE (R299, R302): `n` bytes are read and sent back, or the request is refused with a NAK. -/
def execGetReqReceive (k : Packet) (n : Nat) (s : State) : Host.Outcome State Fault Refusal :=
  remAs s k 2 (fun d =>
    match d.serveCheck k rgnRead n with
    | .error c => (d.sendNak k c, [])
    | .ok (a, o) =>
      let data := d.readDev s.mem a n
      let d := (d.landing o a n false).engineRead a n
      (d.injectFor o.claim none (d.remAnswer k 3 0 data), []))

/-- ATOMIC_REQ_RECEIVE (R299, R303): one read-modify-write, its old value sent back, or a NAK. -/
def execAtomicReqReceive (k : Packet) (s : State) : Host.Outcome State Fault Refusal :=
  remAs s k 4 (fun d =>
    let w := atomicWidth k.aop
    match d.serveCheck k rgnAtomic w with
    | .error c => (d.sendNak k c, [])
    | .ok (a, o) =>
      let old := leNat ((List.range w).map (fun i => d.pendingByte s.mem (a + i)))
      let new := atomicResult k.aop old (k.p 16 8) (k.p 24 8)
      let d := (d.landing o a w true).engineRead a w
      let p := d.storeAt a (toLe w new)
      (p.1.injectFor o.claim none (d.remAnswer k 5 0 (toLe 8 old)), p.2))

/-! ## Answers at the source -/

/-- An answer arrives for an op: the chunk is no longer awaited, a retry is marked, and the op ends with its last answer (R295, R302). -/
def Dev.answered (d : Dev) (k : Packet) (want : RemOp → Bool) (f : RemOp → Nat → Dev → Dev × List MemOp) : Dev × List MemOp :=
  match (d.remById k.opid).filter (fun o => want o && d.remLive o) with
  | none => (d, [])
  | some o =>
    let i := (k.roff - o.off) / 1536
    if o.waits.contains i then
      let d := if k.retried || k.retrySeen then d.markRetry (some (o.ring, o.count)) else d
      let (d, w) := f o i d
      match d.remById k.opid with
      | none => (d, w)
      | some o =>
        let o := { o with waits := o.waits.filter (· != i), lastHeard := d.phys }
        let d := d.setRem o
        (if o.waits.isEmpty && o.sent == o.chunks then d.endRem o else d, w)
    else (d, [])

/-- Data lands for an op of this module. -/
def Dev.landOwn (d : Dev) (o : RemOp) (a : Nat) (data : List Byte) : Dev × List MemOp :=
  let deep := d.deepBytes a data.length
  ((d.modEntry o.ring o.count (fun e => { e with res := { e.res with deep := e.res.deep + deep } })).engineWrite a data.length).storeAt a data

/-- GET_DATA_RECEIVE (R302): the chunk lands at LOCAL + (OFFSET − REMOTE_OFF). -/
def execGetDataReceive (k : Packet) (s : State) : Host.Outcome State Fault Refusal :=
  remAs s k 3 (fun d => d.answered k (fun o => o.kind == 2) (fun o i d =>
    d.landOwn o (o.place + 1536 * i) ((k.payload.drop 16).take (o.chunk i))))

/-- ATOMIC_RSP_RECEIVE (R303): with FETCH the old value lands at RESULT. -/
def execAtomicRspReceive (k : Packet) (s : State) : Host.Outcome State Fault Refusal :=
  remAs s k 5 (fun d => d.answered k (fun o => o.kind == 4) (fun o _ d =>
    if o.fetch then d.landOwn o o.place (slice k.payload 16 8) else (d, [])))

/-- REMOTE_ACK_RECEIVE (R300). -/
def execRemoteAckReceive (k : Packet) (s : State) : Host.Outcome State Fault Refusal :=
  remAs s k 6 (fun d => d.answered k (fun o => o.kind == 1) (fun _ _ d => (d, [])))

/-- REMOTE_NAK_RECEIVE (R299): the op sends nothing more and ends, with the row's status, once the chunks already sent are answered. -/
def execRemoteNakReceive (k : Packet) (s : State) : Host.Outcome State Fault Refusal :=
  remAs s k 7 (fun d =>
    let d := { d with xbar := { d.xbar with cnt := bump d.xbar.cnt 0x78 1 } }
    d.answered k (fun _ => true) (fun o _ d =>
      let st := if k.p 3 1 = 7 then stDataLost else stPermissionFault
      let why : BitVec 16 := if k.p 3 1 = 7 then 24 else 32
      ((d.modEntry o.ring o.count (fun e => { e with res := e.res.meet st why })).setRem { o with sent := o.chunks }, [])))

/-- A remote op ends with REMOTE_FAILED, unless a NAK came first; what a GET or a fetching atomic had not landed is undefined unless the
op is droppable or was refused (R99, R294, R299). -/
def Dev.failRem (d : Dev) (o : RemOp) (reason : Nat) : Dev × List MemOp :=
  match (d.entry o.ring o.count).filter (fun _ => d.remLive o) with
  | none => (d.dropRem o.id, [])
  | some e =>
    let nakked := classOf e.res.status == 3
    let out := if nakked || o.droppable then [] else o.out
    let p := d.scramble out
    (((p.1.dropRem o.id).endOp o.ring e (e.res.meet stRemoteFailed (BitVec.ofNat 16 reason))), p.2)

/-- DE_TIMEOUT (R294): an answer is still missing DE_TO µs after the last request or store packet left. -/
def execDeTimeout (op : Fin 64) (s : State) : Host.Outcome State Fault Refusal :=
  match (s.dev.remById op.val).filter (fun o => o.droppable && !o.waits.isEmpty && o.sent == o.chunks && s.dev.past o.lastSent s.dev.xbar.deTo.toNat) with
  | some o => answerMem s (s.dev.failRem o 0xFFFE)
  | none => answer s s.dev

/-- REM_TIMEOUT (R295): no answer for REM_TO ms. -/
def execRemTimeout (op : Fin 64) (s : State) : Host.Outcome State Fault Refusal :=
  match (s.dev.remById op.val).filter (fun o => !o.droppable && !o.waits.isEmpty && s.dev.past o.lastHeard (1000 * s.dev.xbar.remTo.toNat)) with
  | some o => answerMem s (s.dev.failRem o 0xFFFD)
  | none => answer s s.dev

end Sys2Proof.Machine
end

