-- ==== Sys2Proof/Machine/Claims.lean ====
section
/-!
DEFINITION. The claims family: the shape checks, frames and budgets, and the writable settings (chapter 11).
-/
namespace Sys2Proof.Machine

/-! ## The shape of a claim (Table 11.1, rows 3 to 6) -/

/-- A claim's block number base. -/
def claimBase (c : Nat) : Nat := 0x020000 + c * 0x1000

/-- The masks of a shape: lanes by die, and cores. -/
structure Shape where
  lanes : Tbl Word
  cores : BitVec 32
  deriving DecidableEq, Repr

def Shape.lane (x : Shape) (n : Nat) : Nat := (Tbl.lookD x.lanes n (0 : Word)).toNat
def Shape.core (x : Shape) (n : Nat) : Nat := bits x.cores.toNat (8 * n + 7) (8 * n)
def Claim.shape (k : Claim) : Shape := { lanes := k.lanes, cores := k.cores }
def Claim.quota (k : Claim) (n : Nat) : Nat := (Tbl.lookD k.near n (0 : BitVec 20)).toNat

/-- Claims other than `c` that are not OFF. -/
def Dev.rivals (d : Dev) (c : Nat) : List Claim := ((List.range 32).filter (fun k => k != c && !d.isOff (claimBlock k))).map d.claim

/-- Two tally ranges share a tally. -/
def Claim.tallyMeets (a b : Claim) : Bool :=
  a.tallyCount != 0 && b.tallyCount != 0 && Nat.blt a.tallyFirst.toNat (b.tallyFirst.toNat + b.tallyCount.toNat) &&
    Nat.blt b.tallyFirst.toNat (a.tallyFirst.toNat + a.tallyCount.toNat)

/-- Rows 3 to 6 of Table 11.1 for a claim and a shape: the reason of the first row that fails. -/
def Dev.shapeBad (d : Dev) (c : Nat) (x : Shape) : Option Nat :=
  let k := d.claim c
  let dies := List.range 4
  let top := k.tallyFirst.toNat + k.tallyCount.toNat
  if Nat.blt 65536 top || dies.any (fun n => Nat.blt Config.nearChunks (k.quota n)) then some 0x03F3
  else if dies.any (fun n => (x.lane n).land (d.die n).laneLog.toNat != x.lane n || (x.core n).land (d.die n).coreLog.toNat != x.core n ||
      ((d.die n).contained && (x.lane n != 0 || x.core n != 0 || k.quota n != 0))) ||
      d.store.tallies.any (fun t => Nat.ble k.tallyFirst.toNat t && Nat.blt t top) then some 0x03F7
  else if (d.rivals c).any (fun o => k.tallyMeets o || o.cores.toNat.land x.cores.toNat != 0 ||
      dies.any (fun n => (o.shape.lane n).land (x.lane n) != 0)) then some 0x03F5
  else match dies.find? (fun n => x.lane n != 0) with
    | none => some 0x0301
    | some n => if x.core n = 0 then some 0x0301 else none

/-! ## Frames (R246 to R253, R289 to R291, R394) -/

/-- The drop counters rose in the frame that ends: an alarm for each (R394). -/
def Dev.dropAlarms (d : Dev) : Dev :=
  let h := d.health
  let d := if h.dropTrace != h.dropSeen.1 then d.alarm 0x26 0x1E0080 0 h.dropTrace else d
  let d := if h.dropLog != h.dropSeen.2 then d.alarm 0x26 0x1E0088 0 h.dropLog else d
  { d with health := { d.health with dropSeen := (h.dropTrace, h.dropLog) } }

/-- An empty record (class PAD). -/
def padRec : TRec :=
  { cls := 3, block := 0, count := 0, reg := 0, subject := 0, first := 0, last := 0, value := 0, reserved := false,
    hostDone := false, collDone := false }

/-- Under Fixed-Pace the collector path fills its output's floor with empty records (R355, R395). The fuel bounds the records. -/
def Dev.padFrame : Nat → Dev → Dev
  | 0, d => d
  | fuel + 1, d =>
    match d.telemetryPacket 3 (padRec.bytes 0) with
    | some k =>
      (match d.route none k with
        | .out p k' => if d.telemetryRoom p k' then Dev.padFrame fuel (d.inject k) else d
        | _ => d)
    | none => d

/-- A frame starts on this tick: the first on a multiple of 100,000; the others once the frame has lasted its length, or the timebase has
been stepped (R246). -/
def Dev.frameDue (d : Dev) : Bool :=
  let f := d.frames
  if f.num = 0 then d.now.toNat % 100000 == 0
  else f.skew != d.skew || Nat.ble (10000 * f.len.toNat) (d.now - f.start).toNat

/-- FRAME_START (R6, R246, R247, R250): where a frame starts on this tick, the last one ends with its alarms and pads, and the new one takes
its length, shares, lending and budgets. -/
def execFrameStart (s : State) : Host.Outcome State Fault Refusal :=
  if !s.dev.frameDue then answer s s.dev else
  let d := s.dev
  let d := if d.fixedPace && d.isRunning .health && d.health.tdestValid then d.padFrame (20 * d.frames.len.toNat) else d
  let d := d.dropAlarms.overAlarm
  let d := { d with
    frames := { d.frames with len := d.frames.lenReg, num := d.frames.num + 1, start := d.now, skew := d.skew, lendState := BitVec.ofNat 2 (b2n d.frames.lendOff) },
    xbar := { d.xbar with share := d.xbar.shareReg },
    claims := Tbl.mapAll d.claims (fun _ k => { k with shareNow := k.share }),
    ports := Tbl.mapAll d.ports (fun _ p => { p with telemetry := 0 }) }
  answer s ((List.range 48).foldl (fun d n => d.pump n) d.newBudgets)

/-! ## Settings (R243, R246, R253, R254, R261) -/

/-- CLAIMS_STS.WRITE_REJECT sets. -/
def Dev.claimsReject (d : Dev) : Dev := { d with frames := { d.frames with writeReject := true } }

/-- CLAIM_SHARE_WRITE: a weight of 0 is refused; the weights act from the next frame. -/
def execClaimShareWrite (c : Fin 32) (second : Bool) (v : W32) (s : State) : Host.Outcome State Fault Refusal :=
  let d := s.dev
  let lo := BitVec.ofNat 16 v.toNat
  let hi := BitVec.ofNat 16 (v.toNat / 65536)
  viaCfg s (answer s (
    if lo = 0 ∨ hi = 0 then d.claimsReject
    else Dev.rebudget (d.modClaim c.val (fun k => { k with
      share := if second then { k.share with fabric := lo, coll := hi } else { k.share with deep := lo, hoist := hi } }))))

/-- CLAIM_CFG_WRITE. -/
def execClaimCfgWrite (c : Fin 32) (v : W32) (s : State) : Host.Outcome State Fault Refusal :=
  viaCfg s (answer s (s.dev.modClaim c.val (fun k => { k with share := { k.share with borrow := v.getLsbD 0 } })).rebudget)

/-- CLAIMS_FRAME_WRITE: 1 to 1,000, and not under Fixed-Pace. -/
def execClaimsFrameWrite (v : W32) (s : State) : Host.Outcome State Fault Refusal :=
  let d := s.dev
  let len := bits v.toNat 9 0
  viaCfg s (answer s (
    if d.fixedPace || len == 0 || Nat.blt 1000 len then d.claimsReject
    else { d with frames := { d.frames with lenReg := BitVec.ofNat 10 len } }))

/-- CLAIMS_LEND_WRITE. -/
def execClaimsLendWrite (v : W32) (s : State) : Host.Outcome State Fault Refusal :=
  let d := s.dev
  viaCfg s (answer s (
    if d.fixedPace then d.claimsReject
    else { d with frames := { d.frames with
      lendOff := v.getLsbD 0, lendState := if d.frames.lendState = 2 then 2 else BitVec.ofNat 2 (b2n (v.getLsbD 0)) } }))

/-- CLAIM_METER_SEL_WRITE: METER above 3 or INDEX above 5 is refused. -/
def execClaimMeterSelWrite (c : Fin 32) (v : W32) (s : State) : Host.Outcome State Fault Refusal :=
  let d := s.dev
  let m := bits v.toNat 7 4
  let i := bits v.toNat 3 0
  viaCfg s (answer s (
    if 3 < m ∨ 5 < i then d.claimsReject
    else d.modClaim c.val (fun k => { k with selMeter := BitVec.ofNat 4 m, selIndex := BitVec.ofNat 4 i })))

end Sys2Proof.Machine
end

