-- ==== Sys2Proof/Machine/Wire.lean ====
section
/-!
DEFINITION. How vectors travel: the wire formats of Tables 8.4 and 14.4, block by block (R115, R183, R319).
-/
namespace Sys2Proof.Machine

/-- The element format of a wire format: 0 BF16, 1 binary32, 3 E4M3 blocks, 4 E2M1 blocks. -/
def wireElem : Nat → Nat
  | 0 => 5 | 3 => 2 | 4 => 1 | _ => 6

/-- Bytes of one element, or of one block of 32. -/
def wireBlock : Nat → Nat
  | 0 => 2 | 1 => 4 | 2 => 8 | 3 => 33 | _ => 17

/-- Whether elements travel in blocks of 32. -/
def wireBlocks (w : Nat) : Bool := w == 3 || w == 4

/-- Elements that fit in `room` bytes. -/
def wireFit (w room : Nat) : Nat := if wireBlocks w then room / wireBlock w * 32 else room / wireBlock w

/-- Bytes of `n` elements. -/
def wireSize (w n : Nat) : Nat := if wireBlocks w then ceilDiv n 32 * wireBlock w else n * wireBlock w

/-- One block converted to an MX format with round to nearest even and SAT overflow: its scale code and its 32 element codes
(R115, R183). -/
def mxCodes (fmt : Nat) (vs : List Val) : Nat × List Nat :=
  let m := vs.foldl (fun a v => maxMag a v.mag) none
  let special := vs.any (fun v => match v with | .fin _ _ _ => false | _ => true)
  let q : Nat × Int := match m with
    | none => (if fmt = 1 && special then 255 else 0, -127)
    | some (m, e) =>
      let x := mxExp fmt m e
      if fmt = 1 && special then (255, 0) else if 127 < x then (254, 127) else ((max x (-127) + 127).toNat, max x (-127))
  (q.1, (List.range 32).map (fun i =>
    if q.1 = 255 then (Config.nanBlockElem i).toNat % 2 ^ elemBits fmt
    else match vs[i]? with | some v => mxElem fmt .even q.2 v | none => 0))

/-- Element codes packed as R104 packs them. -/
def packElems (fmt : Nat) (cs : List Nat) : List Byte :=
  if fmt = 1 then (List.range (cs.length / 2)).map (fun j => BitVec.ofNat 8 (nth cs (2 * j) 0 % 16 + 16 * (nth cs (2 * j + 1) 0 % 16)))
  else cs.flatMap (fun c => toLe (elemBits fmt / 8) c)

/-- The blocks of a list of values. -/
def blocksOf (vs : List Val) : List (List Val) := (List.range (ceilDiv vs.length 32)).map (fun b => (vs.drop (32 * b)).take 32)

/-- Values on the wire: elements first, then the scales of their blocks. -/
def encodeWire (w : Nat) (vs : List Val) : List Byte :=
  let fmt := wireElem w
  if wireBlocks w then
    let bs := (blocksOf vs).map (mxCodes fmt)
    bs.flatMap (fun b => packElems fmt b.2) ++ bs.map (fun b => BitVec.ofNat 8 b.1)
  else if w = 2 then vs.flatMap (fun v => toLe 8 (f64.rne v))
  else vs.flatMap (fun v => toLe (elemBits fmt / 8) ((fmtSpec fmt).rne v))

/-- The value of element `i` of `n` on the wire. -/
def wireVal (w n : Nat) (data : Array Byte) (i : Nat) : Val :=
  let fmt := wireElem w
  if wireBlocks w then
    let scale := (data.getD (ceilDiv n 32 * (wireBlock w - 1) + i / 32) 0).toNat
    let code := if fmt = 1 then bits (data.getD (i / 2) 0).toNat (4 * (i % 2) + 3) (4 * (i % 2)) else (data.getD i 0).toNat
    if scale = 255 then .nan else (elemVal fmt code).scale (scale - 127)
  else
    let k := wireBlock w
    let code := leNat ((List.range k).map (fun j => data.getD (k * i + j) 0))
    if w = 2 then f64.dec code else elemVal fmt code

/-- The values of `n` elements on the wire. -/
def decodeWire (w n : Nat) (data : List Byte) : List Val :=
  let a := data.toArray
  (List.range n).map (wireVal w n a)

end Sys2Proof.Machine
end

