-- ==== Sys2Proof/Machine/Coll.lean ====
section
/-!
DEFINITION. The collective family: groups and their tree, the ascent of segments with windows, the root's conversion, the descent, and
aborts (chapter 14).
-/
namespace Sys2Proof.Machine

/-- Segments of the vector that ascends; none for a gathering op. -/
def cSegments (e : Entry) : Nat := if cGathers e then 0 else ceilDiv (cCount e) 4096

/-- Elements of segment `s`. -/
def cSegElems (e : Entry) (s : Nat) : Nat := min 4096 (cCount e - 4096 * s)

/-- The wire format of a contribution (R319). -/
def cWire (e : Entry) : Nat :=
  match cGrade e with
  | 1 => 3 | 2 => 4 | _ => if cGathers e && cIfmt e = 5 then 0 else 1

/-- The wire format of results. -/
def cDownWire (e : Entry) : Nat := if cGathers e then cWire e else if (cOut e).fmt = 5 then 0 else 1

/-- The wire format of what a member sends up: a leaf its contribution, another its partial. -/
def Group.upWire (g : Group) (e : Entry) (p : Nat) : Nat := if (g.children p).isEmpty then cWire e else 2

/-- W_c at the start of a segment (R316). -/
def Group.startWindow (g : Group) (e : Entry) (p : Nat) : Nat :=
  let bytes := ((g.children p).map (fun c => wireSize (g.upWire e c) 4096)).sum
  if bytes = 0 then 4096 else min 4096 (4096 * 1015808 / bytes) / 32 * 32

/-- The node's own contribution to elements `i` to `i + n - 1`, as it stands after any grade. -/
def Dev.cOwnVals (d : Dev) (m : Memory) (r : Nat) (e : Entry) (i n : Nat) : List Val :=
  let k := packBytes (cIfmt e)
  let a := d.cAddr r e 16 + i * k
  let raw := (List.range n).map (fun j => elemVal (cIfmt e) (d.readNat m (a + j * k) k))
  if wireBlocks (cWire e) then decodeWire (cWire e) n (encodeWire (cWire e) raw) else raw

/-! ## Packets of the group -/

/-- A logical ID of a coordinate: the lowest VALID entry that holds it. -/
def Dev.logOf (d : Dev) (phys : Nat) : Nat :=
  match d.routing.l2p.find? (fun e => bit e.2.toNat 31 && bits e.2.toNat 19 0 == phys) with | some e => e.1 | none => 0

/-- The collective header of this module's op (Table 14.4). -/
structure CHead where
  kind : Nat
  wire : Nat
  last : Bool
  seg : Nat
  off : Nat
  elems : Nat
  rank : Nat
  cause : Nat
  deriving DecidableEq, Repr

def CHead.bytes (h : CHead) (g : Group) (e : Entry) : List Byte :=
  [BitVec.ofNat 8 h.kind, BitVec.ofNat 8 (h.wire * 32 + b2n h.last * 16)] ++ toLe 2 g.gid ++ toLe 2 g.seq.toNat ++
    [BitVec.ofNat 8 (cRop e - 4 * b2n (cEmpty e)), BitVec.ofNat 8 (cIfmt e * 16 + (cOut e).fmt)] ++ toLe 4 (cCount e) ++ toLe 4 h.seg ++
    toLe 2 h.off ++ toLe 2 h.elems ++ toLe 4 h.rank ++ [BitVec.ofNat 8 h.cause] ++ List.replicate 7 0

/-- A packet of the op leaves, for its claim: it counts in the op's record. -/
def Dev.collSend (d : Dev) (o : CollOp) (k : Packet) : Dev :=
  (d.modEntry o.ring o.count (fun e => { e with res := { e.res with fabric := e.res.fabric + d.fabricBytes k } })).injectFor
    (d.ring o.ring).claim.toNat (some (o.ring, o.count)) k

/-- A member can be named: a VALID entry of the table holds its coordinate. -/
def Dev.named (d : Dev) (p : Nat) : Bool := p == d.self || d.lookup (d.logOf p) == some p

/-- A unicast packet to a member; where none can be addressed to it the op fails (R267). -/
def Dev.collTo (d : Dev) (o : CollOp) (cls dst : Nat) (payload : List Byte) : Dev :=
  if d.named dst then d.collSend o (d.packet (.bound cls 3 o.tag.toNat dst (d.logOf dst)) payload) else d.failExchange o.ring o.count 0xFFFF

/-- A multicast packet along the row or column. -/
def Dev.collCast (d : Dev) (o : CollOp) (weft : Bool) (mask : Nat) (payload : List Byte) : Dev :=
  if popCount 16 mask ≤ 1 then d
  else d.collSend o (d.packet { Envelope.bound 2 3 o.tag.toNat d.self d.routing.log.toNat with mask := mask, weft := weft } payload)

/-! ## The state of one slot -/

/-- The running op of a slot: its group, op and descriptor, where the descriptor is still started. -/
structure CollRun where
  slot : Nat
  g : Group
  o : CollOp
  e : Entry
  deriving DecidableEq, Repr

def Dev.collRun (d : Dev) (slot : Nat) : Option CollRun :=
  match d.group slot with
  | some g => match g.op with
    | some o => ((d.entry o.ring o.count).filter (fun e => e.phase == .started)).map (fun e => ⟨slot, g, o, e⟩)
    | none => none
  | none => none

def Dev.setColl (d : Dev) (slot : Nat) (o : Option CollOp) : Dev :=
  match d.group slot with | some g => d.setGroup slot { g with op := o } | none => d

def Dev.countColl (d : Dev) (off k : Nat) : Dev := { d with coll := { d.coll with cnt := bump d.coll.cnt off k } }

/-- What the op charges for a node's work on a segment (R318). -/
def Dev.chargeColl (d : Dev) (c : Nat) (owner : Bool) (ticks : Nat) : Dev :=
  (d.modMeter c 48 (fun m => if owner then m.own ticks else m.lent ticks)).modClaim c
    (fun k => { k with accColl := k.accColl + BitVec.ofNat 64 ticks })

/-! ## Accumulation (R313, R320, R322, R323) -/

/-- The landed prefix of a child in the segment; a present child's is whole. -/
def CollOp.prefix (o : CollOp) (n c : Nat) : Nat :=
  if o.present.contains c then n
  else
    let t := Tbl.lookD o.land c []
    ((List.range n).takeWhile (fun p => (Tbl.look t p).isSome)).length

/-- Elements of each child added so far: in fixed order a child waits for those before it; in arrival order each is added as it lands. -/
def CollRun.added (x : CollRun) (self c : Nat) : Nat :=
  let n := cSegElems x.e x.o.seg
  if cArrival x.e then (if x.o.present.contains c then n else (Tbl.lookD x.o.land c []).length)
  else ((((x.g.children self).takeWhile (· != c)) ++ [c]).map (x.o.prefix n)).foldl min n

/-- The larger, or the smaller, of two numbers: any NaN gives NaN, and +0 ranks above −0. -/
def pickVal (max' : Bool) (a b : Val) : Val :=
  match a, b with
  | .nan, _ => .nan
  | _, .nan => .nan
  | a, b =>
    if Val.lt a b then (if max' then b else a)
    else if Val.lt b a then (if max' then a else b)
    else match a with
      | .fin true 0 _ => if max' then b else a
      | _ => if max' then a else b

/-- Contributions of one element, absent ones left out, combined in order; none where every one is absent. -/
def combine (op : Nat) (own : Option Val) (rest : List (Option Val)) : Option Val :=
  if op ≤ 1 then
    some (rest.foldl (fun a v => f64.round (Val.add a (v.getD .zero))) (own.getD .zero))
  else (own :: rest).foldl (fun a v => match a, v with
    | none, v => v
    | a, none => a
    | some a, some v => some (pickVal (op == 2) a v)) none

/-- The accumulator of position `p` of the segment, from the node's own contribution and its children's. -/
def CollRun.accum (x : CollRun) (self : Nat) (own : Option Val) (p : Nat) : Option Val :=
  let landed := fun c => (Tbl.look (Tbl.lookD x.o.land c []) p).map f64.dec
  let cs := x.g.children self
  let order := if cArrival x.e then
      (x.o.order.filter (fun q => q.2 == p)).map (fun q => q.1) ++ cs.filter (fun c => x.o.present.contains c)
    else cs
  combine (cOp x.e) own (order.map (fun c => if x.o.present.contains c then none else landed c))

/-- The root's result for an element: AVG divides, and OUT_CTL converts once (R320). A maximum over nothing is free. -/
def CollRun.result (x : CollRun) (n index free : Nat) (a : Option Val) : Nat :=
  let o := cOut x.e
  let fmt := o.fmt
  match a with
  | none => free % 2 ^ elemBits fmt
  | some v =>
    let v := if cOp x.e = 1 then f64.div v (.fin false n 0) else v
    (fmtSpec fmt).enc (outRnd o x.e.seed.toNat (fld x.e.desc 44 4) index) (!o.inf) v

/-! ## Descent (R314, R325) -/

/-- Result elements land in DST. -/
def Dev.collLand (d : Dev) (slot i : Nat) (codes : List Nat) : Dev × List MemOp :=
  match d.collRun slot with
  | none => (d, [])
  | some x =>
    let k := packBytes (cOut x.e).fmt
    let a := d.cAddr x.o.ring x.e 24 + i * k
    let data := codes.flatMap (toLe k)
    let deep := d.deepBytes a data.length
    let d := d.setColl slot (some { x.o with landed := rangesAdd x.o.landed i (i + codes.length) })
    ((d.modEntry x.o.ring x.o.count (fun e => { e with res := { e.res with deep := e.res.deep + deep } })).engineWrite a data.length).storeAt a data

/-- The element codes of DST that a DOWN packet's data give. -/
def downCodes (e : Entry) (w n : Nat) (data : List Byte) : List Nat :=
  let o := cOut e
  (decodeWire w n data).mapIdx (fun i v =>
    if cGathers e then (fmtSpec o.fmt).enc .even (!o.inf) v else fieldAt data (i * wireBlock w) (wireBlock w))

/-- Pass a result on, by this node's place in the tree: to span children, along the column, along the row. -/
def Dev.collDown (d : Dev) (x : CollRun) (h : CHead) (data : List Byte) : Dev :=
  let self := d.self
  let h := if hOpcode x.e.desc = 0x52 then h else { h with rank := x.g.rank self }
  let pay := h.bytes x.g x.e ++ data
  let top := colOf self == x.g.c0 && rowOf self == x.g.r0
  let d := if top then (x.g.spanChildren self).foldl (fun d c => d.collTo x.o 2 c pay) d else d
  let d := if top then d.collCast x.o true x.g.rowMask pay else d
  if colOf self = x.g.c0 then d.collCast x.o false x.g.colMask pay else d

/-- The first element of DST that a DOWN packet fills at this node, and how many (R325). -/
def CollRun.target (x : CollRun) (self : Nat) (h : CHead) : Nat :=
  let i := 4096 * h.seg + h.off
  match hOpcode x.e.desc with
  | 0x51 => i - x.g.rank self * (cCount x.e / x.g.members)
  | 0x52 => h.rank * cCount x.e + i
  | _ => i

/-- The root sends results `i` to `i + codes.length - 1` of segment `seg` down, or each slice to its owner, and lands its own. -/
def Dev.collRootSend (d : Dev) (slot seg i : Nat) (codes : List Nat) (lastSeg : Bool) : Dev × List MemOp :=
  match d.collRun slot with
  | none => (d, [])
  | some x =>
    let w := cDownWire x.e
    let data := codes.flatMap (toLe (wireBlock w))
    if hOpcode x.e.desc = 0x51 then
      let each := cCount x.e / x.g.members
      let first := 4096 * seg + i
      -- runs of elements with one owner
      let owners := ((List.range codes.length).map (fun j => (first + j) / each)).eraseDups
      owners.foldl (fun p k =>
        let lo := max first (k * each) - first
        let hi := min (first + codes.length) ((k + 1) * each) - first
        let part := (codes.drop lo).take (hi - lo)
        let to' := x.g.at k
        if to' = d.self then (let q := p.1.collLand slot (first + lo - k * each) part; (q.1, p.2 ++ q.2))
        else (p.1.collTo x.o 2 to' (({ kind := 2, wire := w, last := lastSeg, seg := seg, off := i + lo, elems := hi - lo,
                                       rank := x.g.rank d.self, cause := 0 } : CHead).bytes x.g x.e ++ part.flatMap (toLe (wireBlock w))), p.2))
        (d, [])
    else
      let h : CHead := { kind := 2, wire := w, last := lastSeg, seg := seg, off := i, elems := codes.length, rank := x.g.rank d.self, cause := 0 }
      (d.collDown x h data).collLand slot (4096 * seg + i) codes

/-! ## Ascent (R315, R316, R318) -/

/-- Grant a child a window. -/
def Dev.collGrant (d : Dev) (slot c upto : Nat) : Dev :=
  match d.collRun slot with
  | none => d
  | some x =>
    let h : CHead := { kind := 3, wire := 0, last := x.o.seg + 1 == cSegments x.e, seg := x.o.seg, off := upto, elems := 0,
                       rank := x.g.rank d.self, cause := 0 }
    (d.setColl slot (some { x.o with granted := Tbl.put x.o.granted c upto })).collTo x.o 2 c (h.bytes x.g x.e)

/-- Children that still send data. -/
def CollRun.senders (x : CollRun) (self : Nat) : List Nat := (x.g.children self).filter (fun c => !x.o.present.contains c)

/-- The node's engine asks the COLL meter to let it in, once for a segment, or for a gathering op (R318). -/
def Dev.collAsk (d : Dev) (slot : Nat) : Dev :=
  match d.collRun slot with
  | none => d
  | some x => if x.o.admitted then d else d.ask { meter := 48, claim := x.g.claim, units := 0, deep := 0, what := .segment slot }

/-- A segment that the COLL meter admits has its windows granted. -/
def Dev.collAdmit (d : Dev) (slot : Nat) : Dev :=
  match d.collRun slot with
  | none => d
  | some x =>
    if cSegments x.e ≤ x.o.seg then d
    else
      let d := d.collAsk slot
      match (d.collRun slot).filter (fun x => x.o.admitted && x.o.granted.isEmpty) with
      | none => d
      | some x =>
        let w := min (x.g.startWindow x.e d.self) (cSegElems x.e x.o.seg)
        (x.senders d.self).foldl (fun d c => d.collGrant slot c w) d

/-- Windows grow with the elements added; an extension leaves for at least 512 elements, or for the rest of the segment. -/
def Dev.collExtend (d : Dev) (slot : Nat) : Dev :=
  match d.collRun slot with
  | none => d
  | some x =>
    let n := cSegElems x.e x.o.seg
    (x.senders d.self).foldl (fun d c =>
      let upto := min n (x.g.startWindow x.e d.self + x.added d.self c)
      let had := Tbl.lookD x.o.granted c 0
      if had < upto && (had + 512 ≤ upto || upto == n) then d.collGrant slot c upto else d) d

/-- Send elements `i` to `j - 1` of the partial up, as one packet. -/
def Dev.collUp (d : Dev) (m : Memory) (slot i j : Nat) : Dev :=
  match d.collRun slot with
  | none => d
  | some x =>
    let self := d.self
    match x.g.parent self with
    | none => d
    | some p =>
      let w := x.g.upWire x.e self
      let own := if cEmpty x.e then [] else d.cOwnVals m x.o.ring x.e (4096 * x.o.seg + i) (j - i)
      let vals := (List.range (j - i)).map (fun k => (x.accum self own[k]? (i + k)).getD .zero)
      let h : CHead := { kind := 1, wire := w, last := x.o.seg + 1 == cSegments x.e, seg := x.o.seg, off := i, elems := j - i,
                         rank := x.g.rank self, cause := 0 }
      (d.setColl slot (some { x.o with sentUp := j })).collTo x.o 2 p (h.bytes x.g x.e ++ encodeWire w vals)

/-- Send what is final and within the window, in full packets; the rest at the segment's end, or where the window holds it. -/
def Dev.collUpAll : Nat → Dev → Memory → Nat → Nat → Nat → Nat → Dev
  | 0, d, _, _, _, _, _ => d
  | fuel + 1, d, m, slot, final, limit, n =>
    match d.collRun slot with
    | none => d
    | some x =>
      let w := x.g.upWire x.e d.self
      let full := wireFit w 2016
      let upto := min final limit
      let upto := if wireBlocks w && upto != n then upto / 32 * 32 else upto
      let i := x.o.sentUp
      if i + full ≤ upto then Dev.collUpAll fuel (d.collUp m slot i (i + full)) m slot final limit n
      else if i < upto && (upto == n || Nat.blt limit final) then d.collUp m slot i upto
      else d

/-- The root rounds what is final and sends it down, in full packets. -/
def Dev.collRootAll : Nat → Dev → Memory → Nat → Nat → Nat → Dev × List MemOp
  | 0, d, _, _, _, _ => (d, [])
  | fuel + 1, d, m, slot, final, n =>
    match d.collRun slot with
    | none => (d, [])
    | some x =>
      let full := wireFit (cDownWire x.e) 2016
      let i := x.o.sentUp
      let j := if i + full ≤ final then i + full else if final = n then final else i
      if i < j then
        let self := d.self
        let base := 4096 * x.o.seg
        let own := if cEmpty x.e then [] else d.cOwnVals m x.o.ring x.e (base + i) (j - i)
        let codes := (List.range (j - i)).map (fun k =>
          x.result x.g.members (base + i + k) (Config.freeValue (d.draws + k)).toNat (x.accum self own[k]? (i + k)))
        let d := { d.setColl slot (some { x.o with sentUp := j }) with draws := d.draws + (j - i) }
        let p := d.collRootSend slot x.o.seg i codes (x.o.seg + 1 == cSegments x.e)
        let q := Dev.collRootAll fuel p.1 m slot final n
        (q.1, p.2 ++ q.2)
      else (d, [])

/-- The node's work on the segment ends: it is charged and counted, and the next one begins. -/
def Dev.collSegEnd (d : Dev) (slot : Nat) : Dev :=
  match d.collRun slot with
  | none => d
  | some x =>
    let n := cSegElems x.e x.o.seg
    let adds := (x.senders d.self).length * n
    let d := d.setColl slot (some { x.o with
      seg := x.o.seg + 1, admitted := false, land := [], order := [], granted := [], sentUp := 0 })
    let d := ((d.countColl 0x40 1).countColl 0x48 adds).chargeColl x.g.claim x.o.owner (ceilDiv adds 512 + ceilDiv n 512)
    if cEmpty x.e then d
    else
      let k := packBytes (cIfmt x.e)
      let a := d.cAddr x.o.ring x.e 16 + 4096 * x.o.seg * k
      let deep := d.deepBytes a (n * k)
      (d.engineRead a (n * k)).modEntry x.o.ring x.o.count (fun e => { e with res := { e.res with deep := e.res.deep + deep } })

/-- The node and all below it are present markers: it sends one up, and ascends no more (R323). -/
def Dev.collPresent (d : Dev) (slot : Nat) : Dev :=
  match d.collRun slot with
  | none => d
  | some x =>
    match x.g.parent d.self with
    | none => d
    | some p =>
      let h : CHead := { kind := 4, wire := 0, last := false, seg := 0, off := 0, elems := 0, rank := x.g.rank d.self, cause := 0 }
      (d.setColl slot (some { x.o with presentSent := true, seg := cSegments x.e })).collTo x.o 2 p (h.bytes x.g x.e)

/-- Everything has landed and nothing more ascends: the op completes. -/
def Dev.collFinish (d : Dev) (slot : Nat) : Dev :=
  match d.collRun slot with
  | none => d
  | some x =>
    if x.o.seg = cSegments x.e && rangesCount x.o.landed = cDst x.e x.g.members && x.o.held.isEmpty then
      let d := if cGathers x.e && x.o.opened then
          (d.countColl 0x40 (ceilDiv (cCount x.e) 4096)).chargeColl x.g.claim x.o.owner
            (((List.range (ceilDiv (cCount x.e) 4096)).map (fun s => ceilDiv (cSegElems x.e s) 512)).sum)
        else d
      (d.setColl slot none).endOp x.o.ring x.e x.e.res
    else d

/-- One segment's worth of progress; true where the next segment may go on. -/
def Dev.collStep (d : Dev) (m : Memory) (slot : Nat) : Dev × List MemOp × Bool :=
  match (d.collAdmit slot).collRun slot with
  | none => (d, [], false)
  | some x =>
    let d := d.collAdmit slot
    if cSegments x.e ≤ x.o.seg || !x.o.admitted then (d, [], false)
    else
      let self := d.self
      let n := cSegElems x.e x.o.seg
      let final := ((x.g.children self).map (x.o.prefix n)).foldl min n
      let silent := cEmpty x.e && (x.senders self).isEmpty
      match x.g.parent self with
      | none =>
        let p := (d.collExtend slot).collRootAll (n + 1) m slot final n
        match p.1.collRun slot with
        | some y => if y.o.sentUp = n then (p.1.collSegEnd slot, p.2, true) else (p.1, p.2, false)
        | none => (p.1, p.2, false)
      | some _ =>
        if silent && x.o.seg = 0 && x.o.sentUp = 0 then
          (if 0 < x.o.window || x.o.windowSeg != 0 then d.collPresent slot else d, [], false)
        else if cEmpty x.e && x.o.seg = 0 && x.o.sentUp = 0 && (x.g.children self).all (fun c => x.o.present.contains c || x.o.prefix n c == 0) then
          (d.collExtend slot, [], false)
        else
          let limit := if x.o.windowSeg = x.o.seg then x.o.window else 0
          let d := (d.collExtend slot).collUpAll (n + 1) m slot final limit n
          match d.collRun slot with
          | some y => if y.o.sentUp = n then (d.collSegEnd slot, [], true) else (d, [], false)
          | none => (d, [], false)

/-- Progress until something is awaited. The fuel is the number of segments. -/
def Dev.collGo : Nat → Dev → Memory → Nat → Dev × List MemOp
  | 0, d, _, slot => (d.collFinish slot, [])
  | fuel + 1, d, m, slot =>
    let p := d.collStep m slot
    if p.2.2 then (let q := Dev.collGo fuel p.1 m slot; (q.1, p.2.1 ++ q.2)) else (p.1.collFinish slot, p.2.1)

def Dev.collProceed (d : Dev) (m : Memory) (slot : Nat) : Dev × List MemOp :=
  match d.collRun slot with
  | some x => d.collGo (cSegments x.e + 1 - x.o.seg) m slot
  | none => (d, [])

/-! ## Gathering (R325, R326) -/

/-- Cut `n` elements of the own vector into packets within segments: segment, offset and count. -/
def gatherCuts (w n : Nat) : List (Nat × Nat × Nat) :=
  let full := wireFit w 2016
  (List.range (ceilDiv n 4096)).flatMap (fun s =>
    let k := min 4096 (n - 4096 * s)
    (List.range (ceilDiv k full)).map (fun j => (s, full * j, min full (k - full * j))))

/-- One gathered piece goes down from here: it is passed on and lands. -/
def Dev.gatherDown (d : Dev) (slot : Nat) (h : CHead) (data : List Byte) : Dev × List MemOp :=
  match d.collRun slot with
  | none => (d, [])
  | some x =>
    let h := { h with kind := 2 }
    (d.collDown x h data).collLand slot (x.target d.self h) (downCodes x.e h.wire h.elems data)

/-- One gathered piece goes up: on within the parent's window, held before it, or down from the root. -/
def Dev.gatherUp (d : Dev) (slot : Nat) (h : CHead) (data : List Byte) : Dev × List MemOp :=
  match d.collRun slot with
  | none => (d, [])
  | some x =>
    match x.g.parent d.self with
    | none => d.gatherDown slot h data
    | some p =>
      let pay := h.bytes x.g x.e ++ data
      if 0 < x.o.window then (d.collTo x.o 2 p pay, [])
      else (d.setColl slot (some { x.o with held := x.o.held ++ [d.packet (.bound 2 3 x.o.tag.toNat p (d.logOf p)) pay] }), [])

/-- The member's own vector enters the gather. -/
def Dev.gatherOwn (d : Dev) (m : Memory) (slot : Nat) (f : Dev → CHead → List Byte → Dev × List MemOp) : Dev × List MemOp :=
  match d.collRun slot with
  | none => (d, [])
  | some x =>
    let w := cWire x.e
    let k := packBytes (cIfmt x.e)
    let a := d.cAddr x.o.ring x.e 16
    let deep := d.deepBytes a (cCount x.e * k)
    let d := (d.engineRead a (cCount x.e * k)).modEntry x.o.ring x.o.count (fun e => { e with res := { e.res with deep := e.res.deep + deep } })
    (gatherCuts w (cCount x.e)).foldl (fun p q =>
      let vals := d.cOwnVals m x.o.ring x.e (4096 * q.1 + q.2.1) q.2.2
      let h : CHead := { kind := 1, wire := w, last := (q.1 + 1) * 4096 ≥ cCount x.e, seg := q.1, off := q.2.1, elems := q.2.2,
                         rank := x.g.rank d.self, cause := 0 }
      let s := f p.1 h (encodeWire w vals)
      (s.1, p.2 ++ s.2)) (d, [])

/-! ## Aborts (R330) -/

/-- An ABORT for a SEQ to the neighbours but one; it counts in the record of the op it ends, where there is one (R97). -/
def Dev.sendAborts (d : Dev) (g : Group) (tag : Nat) (payload : List Byte) (but : Option Nat) (op : Option (Nat × W32)) : Dev :=
  ((g.parent d.self).toList ++ g.children d.self).foldl (fun d p =>
    if some p = but || !d.named p then d
    else
      let k := d.packet (.bound 4 3 tag p (d.logOf p)) payload
      let d := match op with
        | some o => d.modEntry o.1 o.2 (fun e => { e with res := { e.res with fabric := e.res.fabric + d.fabricBytes k } })
        | none => d
      d.injectFor g.claim none k) d

/-- An op on a slot ends without its result: its neighbours are told, DST is undefined, and the cause is recorded. -/
def Dev.tellAbort (d : Dev) (x : CollRun) (cause : Nat) (but : Option Nat) : Dev × List MemOp :=
  let h : CHead := { kind := 5, wire := 0, last := false, seg := 0, off := 0, elems := 0, rank := x.g.rank d.self, cause := cause }
  let d := d.sendAborts x.g x.o.tag.toNat (h.bytes x.g x.e) but (some (x.o.ring, x.o.count))
  let out := if hOpcode x.e.desc = 0x54 then []
             else [(d.cAddr x.o.ring x.e 24, cDst x.e x.g.members * packBytes (cOut x.e).fmt)]
  let p := d.scramble out
  let d := ((p.1.setColl x.slot none).countColl 0x60 1)
  let d := { d with coll := { d.coll with
    lastAbort := BitVec.ofNat 32 (cause * 2 ^ 24 + x.slot * 2 ^ 16 + x.g.seq.toNat) } }
  (d.alarm 0x23 0x180060 x.slot (Tbl.lookD d.coll.cnt 0x60 0), p.2)

/-- The op on a slot aborts with GROUP_ABORTED (R330). -/
def Dev.abortColl (d : Dev) (slot cause : Nat) (but : Option Nat) : Dev × List MemOp :=
  match d.collRun slot with
  | none => (d, [])
  | some x =>
    let p := d.tellAbort x cause but
    match p.1.entry x.o.ring x.o.count with
    | some e => (p.1.endOp x.o.ring e { e.res with status := stGroupAborted, reason := BitVec.ofNat 16 slot }, p.2)
    | none => p

/-- A running op that lost its address on the way has ended: its neighbours are told, and DST is undefined (R267, R330). -/
def Dev.collGuard (d : Dev) (slot : Nat) (p : Dev × List MemOp) : Dev × List MemOp :=
  match d.collRun slot, p.1.collRun slot, (p.1.group slot).bind (fun g => g.op) with
  | some x, none, some o =>
    if o.ring == x.o.ring && o.count == x.o.count then
      let q := p.1.tellAbort x 6 none
      (q.1, p.2 ++ q.2)
    else p
  | _, _, _ => p

/-! ## Starting an op (R324 to R328, R347) -/

/-- The line's member at ROOT (R326). -/
def Group.lineRoot (g : Group) (self line : Nat) : Option Nat :=
  let root := bits line 3 0
  if bit line 7 then (if g.rows.contains root then some (coord (boltOf self) root (colOf self)) else none)
  else if g.cols.contains root then some (coord (boltOf self) (rowOf self) root) else none

/-- Two byte ranges meet. -/
def rangesMeet (a n b k : Nat) : Bool := decide (a < b + k) && decide (b < a + n)

/-- This node reads SRC (R323, R326). -/
def Dev.collReads (d : Dev) (e : Entry) (g : Group) : Bool :=
  !cEmpty e && (hOpcode e.desc != 0x53 || g.lineRoot d.self (fld e.desc 40 1) == some d.self)

/-- What an op of Table 14.3 may start with: its tag. The checks come in the order of R331, R324 with R145's rules on arrays, R325, R326 and
R347 (R421). -/
def Dev.collChecks (d : Dev) (r : Nat) (e : Entry) (g : Group) : Except Result Nat :=
  let op := hOpcode e.desc
  let n := g.members
  let inFmt := cIfmt e == 5 || cIfmt e == 6
  let outFmt := (cOut e).fmt == 5 || (cOut e).fmt == 6
  let root := g.lineRoot d.self (fld e.desc 40 1)
  let reads := d.collReads e g
  if !d.isRunning .coll then .error (Result.fail stRemoteFailed 0)
  else if !inFmt then .error (Result.fail stOperandRefused 38)
  else if !outFmt then .error (Result.fail stOperandRefused 39)
  else
    let srcLen := cCount e * packBytes (cIfmt e)
    let dstLen := cDst e n * packBytes (cOut e).fmt
    let src := if reads then (d.array r e 16 srcLen 64).map some else .ok none
    match src, d.array r e 24 dstLen 64 with
    | .error w, _ => .error w
    | _, .error w => .error w
    | .ok p, .ok q =>
      if p.any (fun p => rangesMeet p.addr p.len q.addr q.len && !(op == 0x50 && p.addr == q.addr)) then
        .error (Result.fail stOperandRefused 24)
      else if p.any Span.isLost then .error (Result.fail stDataLost 16)
      else if q.isLost then .error (Result.fail stDataLost 24)
      else if op = 0x51 && cCount e % n != 0 then .error (Result.fail stOperandRefused 32)
      else if op = 0x53 && root.isNone then .error (Result.fail stOperandRefused 40)
      else match d.sendTag (d.claimOf r) with
        | none => .error (Result.fail stRemoteFailed 0xFFFC)
        | some t => .ok t

/-- A fresh op on a slot. -/
def CollOp.fresh (r : Nat) (c : W32) (tag : Nat) (seg : Nat) (now : Tick) : CollOp :=
  { ring := r, count := c, tag := BitVec.ofNat 16 tag, seg := seg, opened := false, admitted := false, owner := true, land := [], order := [], granted := [],
    present := [], window := 0, windowSeg := 0, sentUp := 0, presentSent := false, held := [], landed := [], arrived := [], release := none,
    scheduled := false, heard := now }

/-- The op takes its slot's next SEQ; an ABORT already held for it ends it at once, and a WINDOW held for it applies. -/
def Dev.takeSeq (d : Dev) (slot : Nat) (g : Group) : Dev :=
  d.setGroup slot { g with seq := g.seq + 1, op := none, abortNext := false, windowNext := [], arriveNext := [] }

/-- A WINDOW's grant takes effect. -/
def CollOp.grant (o : CollOp) (seg upto : Nat) : CollOp :=
  if seg = o.windowSeg then { o with window := max o.window upto } else { o with window := upto, windowSeg := seg }

/-- An op that an ABORT already met completes with it as it starts (R330). -/
def Dev.bornAborted (d : Dev) (r : Nat) (e : Entry) (slot : Nat) (out : List (Nat × Nat)) : Dev × List MemOp :=
  let p := d.scramble out
  let d := p.1.countColl 0x60 1
  let seq := match d.group slot with | some g => g.seq.toNat | none => 0
  let d := { d with coll := { d.coll with lastAbort := BitVec.ofNat 32 (5 * 2 ^ 24 + slot * 2 ^ 16 + seq) } }
  ((d.alarm 0x23 0x180060 slot (Tbl.lookD d.coll.cnt 0x60 0)).finishOp r e.count (Result.fail stGroupAborted slot), p.2)

/-- The group of an op's slot, where it is VALID and of the ring's claim. -/
def Dev.collGroup (d : Dev) (r : Nat) (e : Entry) : Option Group := (d.group (cSlot e)).filter (fun g => g.claim == d.claimOf r)

/-- This node reads and sends data of its own in a gathering op. -/
def CollRun.gives (x : CollRun) (self : Nat) : Bool :=
  hOpcode x.e.desc == 0x52 || (hOpcode x.e.desc == 0x53 && x.g.lineRoot self (fld x.e.desc 40 1) == some self)

/-- A gathering op that the COLL meter admits sends: up, or down from the root, or along the line. -/
def Dev.gatherBegin (d : Dev) (m : Memory) (slot : Nat) : Dev × List MemOp :=
  match ((d.collAsk slot).collRun slot).filter (fun x => x.o.admitted && !x.o.opened && x.gives d.self) with
  | none => (d.collAsk slot, [])
  | some x =>
    let d := (d.collAsk slot).setColl slot (some { x.o with opened := true })
    if hOpcode x.e.desc = 0x52 then
      let d := (x.g.children d.self).foldl (fun d c => d.collGrant slot c 4096) d
      let p := d.gatherOwn m slot (fun d h b => d.gatherUp slot h b)
      (p.1.collFinish slot, p.2)
    else
      let line := fld x.e.desc 40 1
      let p := d.gatherOwn m slot (fun d h b =>
        let h := { h with kind := 2 }
        let d := d.collCast x.o (bit line 7) (if bit line 7 then x.g.rowMask else x.g.colMask) (h.bytes x.g x.e ++ b)
        d.collLand slot (4096 * h.seg + h.off) (downCodes x.e h.wire h.elems b))
      (p.1.collFinish slot, p.2)

/-- The op of a slot goes on as far as it can: a gather opens, a reduction ascends. -/
def Dev.collBegin (d : Dev) (m : Memory) (slot : Nat) : Dev × List MemOp :=
  match d.collRun slot with
  | none => (d, [])
  | some x =>
    d.collGuard slot (
      if cGathers x.e then (if x.gives d.self && !x.o.opened then d.gatherBegin m slot else (d, []))
      else d.collProceed m slot)

/-- Run an op of Table 14.3: start it on its slot, or let it go on. -/
def runColl (s : State) (r : RingNo) (count : W32) (opcode : Nat) : Host.Outcome State Fault Refusal :=
  let d := s.dev
  match d.op r.val count opcode with
  | none => answer s d
  | some e =>
    let slot := cSlot e
    match d.collGroup r.val e with
    | none => failOp s r.val e (if d.isRunning .coll then Result.fail stOperandRefused 36 else Result.fail stRemoteFailed 0)
    | some g =>
      match g.op.filter (fun o => o.ring == r.val && o.count == count) with
      | some _ => answerMem s (d.collBegin s.mem slot)
      | none =>
        let src := span 16 (d.cAddr r.val e 16) (cCount e * packBytes (cIfmt e))
        let dst := span 24 (d.cAddr r.val e 24) (cDst e g.members * packBytes (cOut e).fmt)
        let ok := d.collChecks r.val e g
        match ok with
        | .error w => answer s ((d.takeSeq slot g).finishOp r.val count w)
        | .ok t =>
          let ins := if d.collReads e g then [src] else []
          begun s r.val e (d.mustWait e ins [dst]) (d.deepNeeds (ins.map Grid.range) [dst.range]) (fun s =>
            let d := ((s.dev.take r.val count).countStreamed ins).takeSeq slot g
            if g.abortNext then answerMem s (d.bornAborted r.val e slot [dst.range])
            else
              let o := CollOp.fresh r.val count t 0 d.phys
              let o := g.windowNext.foldl (fun o k => o.grant (k.p 12 4) (k.p 16 2)) o
              answerMem s ((d.setColl slot (some o)).collBegin s.mem slot))

/-- COLL_ALLREDUCE (R313 to R325). -/
def execCollAllreduce (r : RingNo) (count : W32) (s : State) : Host.Outcome State Fault Refusal := runColl s r count 0x50
/-- COLL_REDUCE_SCATTER (R325). -/
def execCollReduceScatter (r : RingNo) (count : W32) (s : State) : Host.Outcome State Fault Refusal := runColl s r count 0x51
/-- COLL_ALLGATHER (R325). -/
def execCollAllgather (r : RingNo) (count : W32) (s : State) : Host.Outcome State Fault Refusal := runColl s r count 0x52
/-- COLL_BCAST_LINE (R326). -/
def execCollBcastLine (r : RingNo) (count : W32) (s : State) : Host.Outcome State Fault Refusal := runColl s r count 0x53

/-! ## Arrivals (R329) -/

def collKind (k : Packet) : Nat := k.p 0 1

/-- What the checks of R329 make of a packet. -/
inductive CollGate where
  /-- a local copy of this module's own multicast, which took effect when it was sent; or no collective packet -/
  | drop
  | stale
  | abort (slot cause : Nat)
  | now (x : CollRun)
  | next (slot : Nat) (g : Group)

/-- A sender that may send to this node: parent or child; the line's root; the tree's root for a slice. -/
def Dev.collSender (d : Dev) (slot : Nat) (g : Group) (k : Packet) : Bool :=
  let near := g.parent d.self == some k.sphys || (g.children d.self).contains k.sphys
  near || (collKind k == 2 && match d.collRun slot with
    | some x => (hOpcode x.e.desc == 0x53 && g.lineRoot d.self (fld x.e.desc 40 1) == some k.sphys) ||
        (hOpcode x.e.desc == 0x51 && k.sphys == g.root)
    | none => false)

/-- The checks, in order. -/
def Dev.collGate (d : Dev) (k : Packet) : CollGate :=
  if k.user ≠ 3 ∨ k.payload.length < 32 ∨ k.sphys = d.self then .drop
  else if collKind k = 0 ∨ 5 < collKind k then .stale
  else match d.coll.groups.find? (fun e => e.2.gid == k.p 2 2) with
    | none => .stale
    | some (slot, g) =>
      if !d.collSender slot g k then .abort slot 4
      else
        let back := (g.seq.toNat + 65536 - k.p 4 2) % 65536
        if back = 65535 then (if collKind k = 3 || collKind k = 5 then .next slot g else .stale)
        else if back ≠ 0 then .stale
        else match d.collRun slot with
          | none => .stale
          | some x =>
            if k.p 6 1 != cRop x.e - 4 * b2n (cEmpty x.e) || k.p 7 1 != cIfmt x.e * 16 + (cOut x.e).fmt || k.p 8 4 != cCount x.e then
              .abort slot 2
            else .now x

/-- Treat a packet as its gate says. -/
def collAs (s : State) (k : Packet) (kind : Nat) (now : Dev → CollRun → Dev × List MemOp) (next : Dev → Nat → Group → Dev) :
    Host.Outcome State Fault Refusal :=
  let d := s.dev
  match d.collGate k with
  | .drop => answer s d
  | .stale => answer s (d.countColl 0x58 1)
  | .abort slot cause => answerMem s (d.abortColl slot cause none)
  | .next slot g => answer s (if collKind k = kind then next d slot g else d)
  | .now x =>
    if collKind k = kind then
      let d := d.setColl x.slot (some { x.o with heard := d.phys })
      let d := if k.retried then d.markRetry (some (x.o.ring, x.o.count)) else d
      match d.collRun x.slot with
      | some x => answerMem s (d.collGuard x.slot (now d x))
      | none => answer s d
    else answer s d

/-- The header fields of a packet. -/
def collHead (k : Packet) : CHead :=
  { kind := collKind k, wire := bits (k.p 1 1) 7 5, last := bit (k.p 1 1) 4, seg := k.p 12 4, off := k.p 16 2, elems := k.p 18 2,
    rank := k.p 20 4, cause := k.p 24 1 }

/-- COLL_UP_RECEIVE (R313, R316, R322, R325): a child's elements land. -/
def execCollUpReceive (k : Packet) (s : State) : Host.Outcome State Fault Refusal :=
  collAs s k 1 (fun d x =>
    let h := collHead k
    let data := k.payload.drop 32
    if hOpcode x.e.desc = 0x52 then
      let p := d.gatherUp x.slot h data
      (p.1.collFinish x.slot, p.2)
    else if h.seg != x.o.seg || 4 < h.wire then (d, [])
    else
      let vals := decodeWire h.wire h.elems data
      let t := vals.zipIdx.foldl (fun t v => Tbl.put t (h.off + v.2) (f64.rne v.1)) (Tbl.lookD x.o.land k.sphys [])
      let o : CollOp := { x.o with
        land := Tbl.put x.o.land k.sphys t
        order := if cArrival x.e then x.o.order ++ vals.zipIdx.map (fun v => (k.sphys, h.off + v.2)) else [] }
      (d.setColl x.slot (some o)).collProceed s.mem x.slot) (fun d _ _ => d)

/-- COLL_DOWN_RECEIVE (R314): results land and are passed on. -/
def execCollDownReceive (k : Packet) (s : State) : Host.Outcome State Fault Refusal :=
  collAs s k 2 (fun d x =>
    let h := collHead k
    let data := k.payload.drop 32
    let d := if hOpcode x.e.desc = 0x50 || hOpcode x.e.desc = 0x52 then d.collDown x h data else d
    let p := d.collLand x.slot (x.target d.self h) (downCodes x.e h.wire h.elems data)
    (p.1.collFinish x.slot, p.2)) (fun d _ _ => d)

/-- COLL_WINDOW_RECEIVE (R316, R329): a grant takes effect, or is held for the next SEQ. -/
def execCollWindowReceive (k : Packet) (s : State) : Host.Outcome State Fault Refusal :=
  collAs s k 3 (fun d x =>
    let d := d.setColl x.slot (some { x.o.grant (k.p 12 4) (k.p 16 2) with held := [] })
    let d := x.o.held.foldl (fun d q => d.collSend x.o q) d
    d.collProceed s.mem x.slot) (fun d slot g => d.setGroup slot { g with windowNext := g.windowNext ++ [k] })

/-- COLL_PRESENT_RECEIVE (R323). -/
def execCollPresentReceive (k : Packet) (s : State) : Host.Outcome State Fault Refusal :=
  collAs s k 4 (fun d x =>
    ((d.countColl 0x50 1).setColl x.slot (some { x.o with
      present := if x.o.present.contains k.sphys then x.o.present else x.o.present ++ [k.sphys] })).collProceed s.mem x.slot) (fun d _ _ => d)

/-- COLL_ABORT_RECEIVE (R330): the running op aborts, or the next one will; the ABORT goes on to the other neighbours. -/
def execCollAbortReceive (k : Packet) (s : State) : Host.Outcome State Fault Refusal :=
  collAs s k 5 (fun d x => d.abortColl x.slot 5 (some k.sphys))
    (fun d slot g => if g.abortNext then d else
      (d.setGroup slot { g with abortNext := true }).sendAborts g k.tag k.payload (some k.sphys) none)

/-- COLL_TIMEOUT (R330): no packet of the waiting op has arrived for TO µs. -/
def execCollTimeout (slot : Fin 64) (s : State) : Host.Outcome State Fault Refusal :=
  match (s.dev.collRun slot.val).filter (fun x => s.dev.past x.o.heard x.g.limit) with
  | some _ => answerMem s (s.dev.abortColl slot.val 1 none)
  | none => answer s s.dev

/-! ## Group commands (R310, R333) -/

/-- The reason a DEFINE is refused with, or 0. -/
def Dev.grpReason (d : Dev) (slot : Nat) (x : BitVec 128) : Nat :=
  let n := x.toNat
  let g : Group := { entry := x, seq := 0, op := none, abortNext := false, windowNext := [], arriveNext := [] }
  if !d.isRunning .coll || !d.isRunning (claimBlock g.claim) then 0x23F6
  else if bits n 23 21 != 0 || bits n 30 24 != 0 || bits n 47 44 != 0 || bits n 63 60 != 0 || bits n 127 112 != 0 || g.rowMask == 0 ||
      g.colMask == 0 || bits n 111 96 == 0 || Nat.blt g.hi g.lo then 0x23F3
  else if (d.group slot).isSome then 0x2301
  else if !g.isMember d.self then 0x2302
  else if d.coll.groups.any (fun e => e.2.gid == g.gid) then 0x2303
  else 0

/-- A group command ends with a reason. -/
def Dev.grpResult (d : Dev) (why : Nat) : Dev := { d with coll := { d.coll with reason := reason16 why } }

/-- GRP_DEFINE (R310). -/
def Dev.grpDefine (d : Dev) : Dev :=
  let slot := d.coll.sel.toNat
  let why := d.grpReason slot d.coll.data
  if why = 0 then
    (d.setGroup slot { entry := d.coll.data ||| BitVec.ofNat 128 (2 ^ 31), seq := 0, op := none, abortNext := false, windowNext := [], arriveNext := [] }).grpResult 0
  else d.grpResult why

/-- A collective op on the slot has started and not completed. -/
def Dev.slotBusy (d : Dev) (slot : Nat) : Bool :=
  match d.group slot with
  | some g => d.rings.any (fun q => q.2.claim.toNat == g.claim && q.2.ents.any (fun e =>
      (e.phase == .started || e.phase == .done) && Nat.ble 0x50 (hOpcode e.desc) && Nat.ble (hOpcode e.desc) 0x54 && cSlot e == slot))
  | none => false

/-- GRP_RELEASE (R310). -/
def Dev.grpRelease (d : Dev) : Dev :=
  let slot := d.coll.sel.toNat
  if !d.isRunning .coll then d.grpResult 0x23F6
  else if (d.group slot).isNone then d.grpResult 0x2305
  else if d.slotBusy slot then d.grpResult 0x2304
  else ({ d with coll := { d.coll with groups := Tbl.del d.coll.groups slot } }).grpResult 0

/-- GRP_READ (R333): the selected slot's entry; zeros for a FREE one. -/
def Dev.grpRead (d : Dev) : Dev :=
  { d with coll := { d.coll with data := (match d.group d.coll.sel.toNat with | some g => g.entry | none => 0), reason := 0 } }

def execGrpDefine (s : State) : Host.Outcome State Fault Refusal := viaCfg s (answer s s.dev.grpDefine)
def execGrpRelease (s : State) : Host.Outcome State Fault Refusal := viaCfg s (answer s s.dev.grpRelease)
def execGrpRead (s : State) : Host.Outcome State Fault Refusal := viaCfg s (answer s s.dev.grpRead)

end Sys2Proof.Machine
end

