-- ==== Sys2Proof/Machine/Control.lean ====
section
/-!
DEFINITION. The control ops: NOP, FENCE, TALLY_SIGNAL, TALLY_WAIT, REPEAT_BY, SKIP_IF and TIMESTAMP (R81 to R88, Tables 4.6 to 4.8). A
command names the started op it runs; a command that names none changes nothing.
-/
namespace Sys2Proof.Machine

/-- NOP (R81). -/
def execNop (r : RingNo) (count : W32) (s : State) : Host.Outcome State Fault Refusal :=
  match s.dev.op r.val count 0x00 with
  | some e => answer s (s.dev.endOp r.val e .ok)
  | none => answer s s.dev

/-- What a FENCE covers has completed: the earlier descriptors of its ring, or those of its claim that started before it; not the
REPEAT_BY it is in (R82). -/
def Dev.fenceMet (d : Dev) (r : Nat) (e : Entry) : Bool :=
  let parent := ((d.ring r).loopOf e.count).map (fun l => l.base)
  let open_ := fun (x : Entry) => (x.phase == .started || x.phase == .done) && x.seq < e.seq
  if fld e.desc 16 1 = 0 then (d.ring r).ents.all (fun x => !open_ x || parent == some x.count)
  else d.rings.all (fun g => g.2.claim != (d.ring r).claim ||
    g.2.ents.all (fun x => !open_ x || (g.1 == r && parent == some x.count)))

/-- FENCE (R82): done once every descriptor it covers has completed. -/
def execFence (r : RingNo) (count : W32) (s : State) : Host.Outcome State Fault Refusal :=
  match s.dev.op r.val count 0x01 with
  | some e => answer s (if s.dev.fenceMet r.val e then s.dev.endOp r.val e .ok else s.dev)
  | none => answer s s.dev

/-- TALLY_SIGNAL (Table 4.6, R80): ADD, which stops at 2^64 − 1 with TALLY_SATURATED, or SET; then the waiters are served. -/
def execTallySignal (r : RingNo) (count : W32) (s : State) : Host.Outcome State Fault Refusal :=
  match s.dev.op r.val count 0x02 with
  | some e =>
    let t := fld e.desc 16 2
    let v := BitVec.ofNat 64 (fld e.desc 24 8)
    if fld e.desc 18 1 = 0 then
      let p := s.dev.addTally t v
      answer s (p.1.endOp r.val e (if p.2 then Result.fail stTallySaturated t else .ok))
    else answer s ((s.dev.setTallyCount t v).endOp r.val e .ok)
  | none => answer s s.dev

/-- TALLY_WAIT (R78, R95, Table 4.6): done at once where its condition holds, or as a waiter of the tally when it does; on its deadline tick
it is DEADLINE_MISSED. -/
def execTallyWait (r : RingNo) (count : W32) (s : State) : Host.Outcome State Fault Refusal :=
  match s.dev.op r.val count 0x03 with
  | some e => answer s (if deadlineReached s.dev.now e.desc && !s.dev.fixedBits then s.dev.decideEntry r.val count stDeadlineMissed 0
    else s.dev.askTally (fld e.desc 16 2)
      { ring := r.val, count := count, exact := fld e.desc 18 1 == 1, target := BitVec.ofNat 64 (fld e.desc 24 8),
        consume := BitVec.ofNat 64 (fld e.desc 32 8) })
  | none => answer s s.dev

/-- The body of a REPEAT_BY does not run: each descriptor of it completes with one status, and the REPEAT_BY with its own. -/
def Dev.noBody (d : Dev) (r : Nat) (e : Entry) (status : BitVec 16) (res : Result) : Dev :=
  let cs := ((d.ring r).bodyOf e).map (fun x => x.count)
  (cs.foldl (fun d c => d.decideEntry r c status 0) d).endOp r e res

/-- REPEAT_BY (R85 to R88): the count is read and the loop begins. A count read that faults leaves the body PARENT_FAILED; a count of 0
leaves it SKIPPED, and a ring stopped since leaves it CANCELLED. REASON is the number of iterations run. -/
def execRepeatBy (r : RingNo) (count : W32) (s : State) : Host.Outcome State Fault Refusal :=
  let d := s.dev
  match (d.op r.val count 0x04).filter (fun _ => (d.ring r.val).loop.isNone) with
  | some e =>
    match d.access r.val e 16 4 4 with
    | .error res => answer s (d.noBody r.val e stParentFailed { res with reason := 0 })
    | .ok p => begun s r.val e false (d.deepNeeds [(p.addr, 4)] []) (fun s =>
      let d := s.dev
      let n := d.readNat s.mem p.addr 4
      let res := { Result.ok with deep := d.deepBytes p.addr 4 }
      let d := d.engineRead p.addr 4
      if (d.ring r.val).stopped then answer s (d.noBody r.val e stCancelled res)
      else if n = 0 then answer s (d.noBody r.val e stSkipped res)
      else answer s (((d.account (d.claimOf r.val) 0 res.deep 0 0).modEntry r.val count (fun x => { x with res := res })).modRing r.val (fun g => { g with loop := some {
        base := count, len := fld e.desc 28 2, trips := min n (fld e.desc 24 4), iter := 0,
        strides := (List.range 4).map (fun i => BitVec.ofNat 64 (fld e.desc (32 + 8 * i) 8)),
        ending := false, clamped := decide (fld e.desc 24 4 < n), iterations := 0 } })))
  | none => answer s d

/-- The comparison of SKIP_IF (Table 4.7). -/
def skipHolds (cond : Nat) (v c : Word) : Bool :=
  match cond with
  | 0 => v == c | 1 => v != c | 2 => v.ult c | 3 => !v.ult c | 4 => v.slt c | _ => !v.slt c

/-- SKIP_IF (R84): reads its value and decides; OP_COMPLETE applies the skip. REASON is 1 where it skips. -/
def execSkipIf (r : RingNo) (count : W32) (s : State) : Host.Outcome State Fault Refusal :=
  let d := s.dev
  match d.op r.val count 0x05 with
  | some e =>
    match d.access r.val e 16 8 8 with
    | .error res => failOp s r.val e res
    | .ok p => begun s r.val e false (d.deepNeeds [(p.addr, 8)] []) (fun s =>
      let d := s.dev
      let v := BitVec.ofNat 64 (d.readNat s.mem p.addr 8) &&& BitVec.ofNat 64 (fld e.desc 24 8)
      let hit := skipHolds (fld e.desc 40 1) v (BitVec.ofNat 64 (fld e.desc 32 8))
      answer s ((d.engineRead p.addr 8).endOp r.val e
        { Result.ok with reason := BitVec.ofNat 16 (b2n hit), deep := d.deepBytes p.addr 8 }))
  | none => answer s d

/-- TIMESTAMP (R83): the tick on which it started is written to DEST. -/
def execTimestamp (r : RingNo) (count : W32) (s : State) : Host.Outcome State Fault Refusal :=
  let d := s.dev
  match d.op r.val count 0x06 with
  | some e =>
    match d.access r.val e 16 8 8 with
    | .error res => failOp s r.val e res
    | .ok p => begun s r.val e (d.mustWait e [] [span 16 p.addr 8]) (d.deepNeeds [] [(p.addr, 8)]) (fun s =>
        let d := s.dev
        answerMem s ((d.engineWrite p.addr 8).endOp r.val e { Result.ok with deep := d.deepBytes p.addr 8 },
          d.writeDev p.addr (toLe 8 e.start.toNat)))
  | none => answer s d

end Sys2Proof.Machine
end

