-- ==== Sys2Proof/Machine/Security.lean ====
section
/-!
DEFINITION. The security family: the mailbox and its messages, firmware delivery, unlocking, protection changes and attestation
(chapter 18).
-/
namespace Sys2Proof.Machine

/-! ## The mailbox (R403, Tables 18.3, 18.5) -/

/-- A message that the module has read: its type, its tag and its whole bytes. -/
structure Msg where
  type : Nat
  tag : Nat
  bytes : List Byte
  deriving DecidableEq, Repr

/-- The body's bytes from offset `o` of the body. -/
def Msg.body (m : Msg) (o n : Nat) : List Byte := slice m.bytes (16 + o) n
def Msg.b (m : Msg) (o n : Nat) : Nat := leNat (m.body o n)

/-- The message in a request buffer. -/
def msgOf (req : List Byte) : Msg := { type := fieldAt req 0 2, tag := fieldAt req 8 4, bytes := req }

/-- A message without a body. -/
def plainMsg (type : Nat) (tag : W32) : Msg :=
  { type := type, tag := tag.toNat, bytes := toLe 2 type ++ toLe 2 0 ++ toLe 4 0 ++ toLe 4 tag.toNat ++ toLe 4 0 }

/-- Body bytes of a request of each type; none where the type is unknown or its length is its own to say (CHANGE). -/
def bodyLength : Nat → Option Nat
  | 0x0001 | 0x0010 | 0x0012 | 0x0020 => some 0
  | 0x0002 => some 36 | 0x0003 => some 12 | 0x0011 => some 1336
  | _ => none

/-- The header's own fields are in order: STATUS and reserved bits 0, LENGTH at most 65,520 and as long as the request (Table 18.3). -/
def Msg.headerOk (m : Msg) : Bool :=
  fieldAt m.bytes 2 2 == 0 && fieldAt m.bytes 12 4 == 0 && Nat.ble (fieldAt m.bytes 4 4) 65520 &&
    m.bytes.length == 16 + fieldAt m.bytes 4 4 &&
    (match bodyLength m.type with | some n => fieldAt m.bytes 4 4 == n | none => m.type == 0x0021)

/-- Both buffers are 64-byte aligned. -/
def Mailbox.aligned (x : Mailbox) : Bool := x.reqAddr.toNat % 64 == 0 && x.rspAddr.toNat % 64 == 0

/-- A message ends: the reply is written where `header` says so, BUSY clears, DONE sets, vector 6 is raised, and a failure is counted. -/
def Dev.reply (d : Dev) (m : Msg) (status : Nat) (body : List Byte) : Dev :=
  let header := d.mbx.rspAddr.toNat % 64 == 0
  let bytes := toLe 2 m.type ++ toLe 2 status ++ toLe 4 body.length ++ toLe 4 m.tag ++ toLe 4 0 ++ body
  let d := if header then d.emit (.hostWrite d.mbx.rspAddr.toNat bytes) else d
  let failed := status != 0 && status != 7
  ({ d with mbx := { d.mbx with
      busy := false, done := true, status := BitVec.ofNat 16 status, cntRefused := if failed then d.mbx.cntRefused + 1 else d.mbx.cntRefused } }).raise 6

/-- Management serves the mailbox: its mask ROM in AUX_ONLY, Kolti otherwise. -/
def Dev.mailboxServed (d : Dev) : Bool := d.mbx.busy && d.power.mgmtOn && !d.health.stopped && (d.power.kolti || d.power.pstate == .auxOnly)

/-- Serve a message: what every type checks, then its own work, which answers a status or a device and a reply body. -/
def serveMsg (s : State) (m : Msg) (work : Dev → Except Nat (Dev × List Byte)) : Host.Outcome State Fault Refusal :=
  let d := s.dev
  if !d.mailboxServed then answer s d
  else if !d.mbx.aligned then answer s (d.reply { m with type := 0, tag := 0 } 1 [])
  else if d.power.identityBad then answer s (d.reply m 6 [])
  else if !m.headerOk then answer s (d.reply m 1 [])
  else if m.type != 0x0001 && m.type != 0x0003 && !d.isRunning .security then answer s (d.reply m 4 [])
  else match work d with
    | .error st => answer s (d.reply m st [])
    | .ok (d', body) => answer s (d'.reply m 0 body)

/-- MAILBOX_BAD_MESSAGE (R403): a misaligned buffer, a buffer that cannot be read, an unknown type or a header out of order. -/
def execMailboxBadMessage (req : Option (List Byte)) (s : State) : Host.Outcome State Fault Refusal :=
  match req with
  | none =>
    if s.dev.mailboxServed && s.dev.mbx.aligned && !s.dev.power.identityBad then answer s (s.dev.reply (plainMsg 0 0) 8 []) else
      serveMsg s (plainMsg 0 0) (fun _ => .error 1)
  | some bytes =>
    let m := msgOf bytes
    if s.dev.mbx.aligned && m.headerOk then answer s s.dev else serveMsg s m (fun _ => .error 1)

/-! ## Identity and firmware (R399, R402, R407, R420) -/

/-- GET_IDENTITY (R420). -/
def execGetIdentity (tag : W32) (s : State) : Host.Outcome State Fault Refusal :=
  serveMsg s (plainMsg 0x0001 tag) (fun d => .ok (d, deviceId ++ certificate))

/-- The header of a Kolti image is in order, for an image of `n` bytes (R402). -/
def imageOk (image : List Byte) (n : Nat) : Bool :=
  let len := fieldAt image 8 4
  fieldAt image 0 2 == 0x4B4C && fieldAt image 2 1 == 1 && fieldAt image 3 1 == 0 && (slice image 12 52).all (· == 0) &&
    len % 64 == 0 && Nat.ble len (8 * 2 ^ 20) && n == 64 + len + 1280

/-- Kolti runs: each section of the store found without a valid copy raises its alarm (R400, Table 17.9). -/
def Dev.storeAlarms (d : Dev) : Dev :=
  (setBits 5 d.store.noCopy.toNat).foldl (fun d n => d.alarm 0x27 0x200048 n d.store.protSeq) d

/-- An accepted image starts in AUX_ONLY, where a deputy group can run it; elsewhere it is staged. -/
def Dev.takeImage (d : Dev) (image : List Byte) : Except Nat Dev :=
  let v := BitVec.ofNat 32 (fieldAt image 4 4)
  if d.power.pstate == .auxOnly then
    if d.store.groups = 3 then .error 4
    else
      let only := d.store.groups != 0
      let b := d.store.groups.getLsbD 0
      let d := { d with
        power := { d.power with kolti := true },
        sec := { d.sec with serving := image },
        evt := { d.evt with groupB := b },
        health := { d.health with verServing := v, verStandby := if only then 0 else v, standbyOk := !only, servingB := b } }
      .ok (d.setPState .mgmtUp).storeAlarms
  else .ok { d with sec := { d.sec with staged := some image } }

/-- FW_LOAD (R402): `image` is what the module reads at the address the message names. -/
def execFwLoad (req : List Byte) (image : Option (List Byte)) (s : State) : Host.Outcome State Fault Refusal :=
  let m := msgOf req
  serveMsg s { m with type := 0x0003 } (fun d =>
    match image with
    | none => .error 8
    | some img =>
      let n := m.b 8 4
      let bytes := slice img 0 n
      if !imageOk bytes n then .error 1
      else if !d.signedBy .vendor (bytes.take (n - 1280)) (bytes.drop (n - 1280)) then .error 2
      else if BitVec.ofNat 32 (fieldAt bytes 4 4) < d.store.minSecver then .error 5
      else match d.takeImage bytes with
        | .ok d => .ok (d, [])
        | .error st => .error st)

/-! ## Protection settings (R404 to R406, R409) -/

/-- A setting's value as CHANGE carries it. -/
def SignedStore.setting (t : SignedStore) (item : Nat) : List Byte :=
  match item with
  | 1 => t.authorities.flatMap (fun e => [BitVec.ofNat 8 (e.1 / 8), BitVec.ofNat 8 (e.1 % 8)] ++ List.replicate 5 0 ++ e.2)
  | 2 => t.debugKeys.flatMap (fun e => [e.2.1, BitVec.ofNat 8 e.1] ++ List.replicate 5 0 ++ e.2.2)
  | 3 => toLe 4 t.regionPolicy.toNat
  | 4 => toLe 4 t.isolation.toNat
  | 5 => toLe 8 t.siteMarks.toNat
  | _ => toLe 4 (b2n t.ideRequired)

/-- GET_PROTECTION (Table 18.4): PROT_SEQ, then every setting in order. -/
def execGetProtection (tag : W32) (s : State) : Host.Outcome State Fault Refusal :=
  serveMsg s (plainMsg 0x0020 tag) (fun d =>
    .ok (d, toLe 8 d.store.protSeq.toNat ++ (List.range 6).flatMap (fun i => d.store.setting (i + 1))))

/-- The entries of an ITEM 1 or 2 value: first byte, index, key. -/
def settingEntries (v : List Byte) : List (Nat × Nat × List Byte) :=
  (List.range (v.length / 1800)).map (fun i => (fieldAt v (1800 * i) 1, fieldAt v (1800 * i + 1) 1, slice v (1800 * i + 7) 1793))

/-- The length and the bits of a new setting are in range (R409, Table 18.6). -/
def settingOk (item : Nat) (v : List Byte) : Bool :=
  let rsv := (List.range (v.length / 1800)).all (fun i => fieldAt v (1800 * i + 2) 5 == 0)
  let es := settingEntries v
  match item with
  | 1 => v.length % 1800 == 0 && rsv && es.all (fun e => Nat.ble 1 e.1 && Nat.ble e.1 3 && Nat.blt e.2.1 8) &&
      ((es.map (fun e => (e.1, e.2.1))).eraseDups).length == es.length
  | 2 => v.length % 1800 == 0 && rsv && es.all (fun e => Nat.blt e.1 16 && Nat.blt e.2.1 8) &&
      ((es.map (fun e => e.2.1)).eraseDups).length == es.length
  | 3 | 4 => v.length == 4 && Nat.blt (leNat v) 4
  | 5 => v.length == 8 && leNat v % 2 ^ 30 == 0 && Nat.blt (leNat v) (2 ^ 48)
  | 6 => v.length == 4 && Nat.blt (leNat v) 2
  | _ => false

/-- A new setting that the state forbids: a role without an authority, a key under two roles, a mark of a port that is not OFF (R401,
R406). -/
def Dev.settingBarred (d : Dev) (item : Nat) (v : List Byte) : Bool :=
  let es := settingEntries v
  match item with
  | 1 => !([1, 2, 3].all (fun r => es.any (fun e => e.1 == r))) ||
      es.any (fun a => es.any (fun b => a.1 != b.1 && a.2.2 == b.2.2) || d.store.debugKeys.any (fun k => k.2.2 == a.2.2))
  | 2 => es.any (fun a => d.store.authorities.any (fun k => k.2 == a.2.2))
  | 5 => (setBits 48 (d.store.siteMarks.toNat.xor (leNat v))).any (fun p => !d.isOff (.port (Fin.ofNat 48 p)))
  | _ => false

/-- A region entry that carries XSITE becomes not VALID. -/
def dropXsite (x : BitVec 256) : BitVec 256 := if rgnXsite x then invalid x else x

/-- A new setting is in force (R406). -/
def Dev.applySetting (d : Dev) (item : Nat) (v : List Byte) : Dev :=
  let es := settingEntries v
  match item with
  | 1 => { d with store := { d.store with authorities := es.foldl (fun t e => Tbl.put t (e.1 * 8 + e.2.1) e.2.2) [] } }
  | 2 =>
    let keys := es.foldl (fun t e => Tbl.put t e.2.1 (BitVec.ofNat 8 e.1, e.2.2)) ([] : Tbl (BitVec 8 × List Byte))
    let kept := fun (i : Nat) => (Tbl.look d.store.debugKeys i).bind (fun k => (keys.find? (fun e => e.2.2 == k.2)).map (fun e => e.1))
    { d with
      store := { d.store with debugKeys := keys }
      sec := { d.sec with scopes := d.sec.scopes.filterMap (fun x => (kept x.2.1).map (fun i => (x.1, i, x.2.2))) } }
  | 3 =>
    let d := { d with store := { d.store with regionPolicy := BitVec.ofNat 2 (leNat v) } }
    if bit (leNat v) 0 then d
    else { d with xbar := { d.xbar with regions := Tbl.mapAll d.xbar.regions (fun _ x => dropXsite x) } }
  | 4 => { d with store := { d.store with isolation := BitVec.ofNat 2 (leNat v) } }
  | 5 =>
    let changed := setBits 48 (d.store.siteMarks.toNat.xor (leNat v))
    changed.foldl (fun d p => d.modPort p (fun x => { x with site := bit (leNat v) p }))
      { d with store := { d.store with siteMarks := BitVec.ofNat 48 (leNat v) } }
  | _ => { d with store := { d.store with ideRequired := bit (leNat v) 0 } }

/-- CHANGE (R405, R406, R409). -/
def execChange (req : List Byte) (s : State) : Host.Outcome State Fault Refusal :=
  let m := { msgOf req with type := 0x0021 }
  serveMsg s m (fun d =>
    let n := m.b 28 4
    let v := m.body 40 n
    let signed := m.bytes.take (16 + 40 + n)
    if req.length != 16 + 40 + n + 2560 || m.b 25 3 != 0 || m.b 34 6 != 0 || Nat.blt 7 (m.b 32 1) || Nat.blt 7 (m.b 33 1) ||
        !settingOk (m.b 24 1) v then .error 1
    else if m.b 0 8 != (d.store.protSeq + 1).toNat || m.body 8 16 != deviceId then .error 3
    else if !(d.signedAs .operator (m.b 32 1) signed (m.body (40 + n) 1280) &&
        d.signedAs .custodian (m.b 33 1) signed (m.body (40 + n + 1280) 1280)) then .error 2
    else if d.settingBarred (m.b 24 1) v then .error 4
    else
      let d := d.applySetting (m.b 24 1) v
      .ok ({ d with store := { d.store with protSeq := d.store.protSeq + 1 } }, []))

/-! ## Attestation (R407) -/

/-- Scopes open now. -/
def Security.open' (x : Security) : Nat := (x.scopes.foldl (fun m g => m ||| g.1) (0 : BitVec 8)).toNat

/-- The protection section as it is digested: PROT_SEQ, MIN_SECVER and the fixed settings. -/
def SignedStore.protection (t : SignedStore) : List Byte :=
  toLe 8 t.protSeq.toNat ++ toLe 4 t.minSecver.toNat ++ [3, 4, 5, 6].flatMap t.setting

/-- ATTEST: the evidence of Table 18.7. -/
def execAttest (req : List Byte) (s : State) : Host.Outcome State Fault Refusal :=
  let m := { msgOf req with type := 0x0002 }
  serveMsg s m (fun d =>
    let mask := m.b 32 4
    let digest := fun (c : Nat) =>
      let k := d.kernel c
      if d.isRunning (claimBlock c) && !k.image.isEmpty then shake256 k.image 64 else List.replicate 64 0
    let flags := d.sec.open' * 2 ^ 24 + d.healthNow * 2 ^ 20 + b2n d.fixedBits * 2 ^ 19 + b2n d.fixedPace * 2 ^ 18
    let evidence := deviceId ++ m.body 0 32 ++ toLe 8 d.now.toNat ++ toLe 8 d.store.protSeq.toNat ++ shake256 d.sec.serving 64 ++
      shake256 d.store.protection 64 ++ toLe 4 flags ++ toLe 4 mask ++ (setBits 32 mask).flatMap digest
    .ok (d, evidence ++ deviceSign evidence))

/-! ## Debug access (R408) -/

/-- UNLOCK_CHALLENGE: a fresh nonce of 256 bits. -/
def execUnlockChallenge (tag : W32) (s : State) : Host.Outcome State Fault Refusal :=
  serveMsg s (plainMsg 0x0010 tag) (fun d =>
    let n := (List.range 4).flatMap (fun i => toLe 8 (Config.freeValue (d.draws + i)).toNat)
    .ok ({ d with draws := d.draws + 4, sec := { d.sec with nonce := some (BitVec.ofNat 256 (leNat n), d.phys) } }, n))

/-- Some claim is RUNNING. -/
def Dev.anyClaim (d : Dev) : Bool := (List.finRange 32).any (fun c => d.isRunning (.claim c))

/-- What an UNLOCK is refused with; none where the grant opens its scope. -/
def Dev.unlockBad (d : Dev) (m : Msg) : Option Nat :=
  let scope := m.b 48 1
  let key := Tbl.look d.store.debugKeys (m.b 49 1)
  if Nat.blt 15 scope || Nat.blt 7 (m.b 49 1) || m.b 50 2 != 0 || m.b 52 4 == 0 || Nat.blt 86400 (m.b 52 4) then some 1
  else if (match d.sec.nonce with
      | some x => x.1.toNat != m.b 0 32 || Nat.blt 60000000000 (elapsed d.phys x.2)
      | none => true) || m.body 32 16 != deviceId then some 3
  else match key with
    | none => some 2
    | some k =>
      if scope.land k.1.toNat != scope then some 4
      else if !Config.verifies k.2 (m.body 0 56) (m.body 56 1280) then some 2
      else if 4 ≤ scope && d.anyClaim then some 4
      else none

/-- UNLOCK: the nonce is consumed whatever the outcome. -/
def execUnlock (req : List Byte) (s : State) : Host.Outcome State Fault Refusal :=
  let m := { msgOf req with type := 0x0011 }
  let spent := fun (d : Dev) => { d with sec := { d.sec with nonce := none } }
  if s.dev.mailboxServed && s.dev.mbx.aligned && !s.dev.power.identityBad && m.headerOk && s.dev.isRunning .security then
    let d := s.dev
    match d.unlockBad m with
    | some st => answer s ((spent d).reply m st [])
    | none =>
      let close := d.phys + BitVec.ofNat 64 (m.b 52 4 * 1000000000)
      let opened := if m.b 48 1 = 0 then [] else [(BitVec.ofNat 8 (m.b 48 1), m.b 49 1, close)]
      answer s ({ d with sec := { d.sec with nonce := none, scopes := d.sec.scopes ++ opened } }.reply m 0 [])
  else serveMsg s m (fun d => .ok (d, []))

/-- RELOCK: every open scope closes. -/
def execRelock (tag : W32) (s : State) : Host.Outcome State Fault Refusal :=
  serveMsg s (plainMsg 0x0012 tag) (fun d => .ok ({ d with sec := { d.sec with scopes := [] } }, []))

/-- UNLOCK_NONCE_EXPIRY: 60 s have passed since the challenge. -/
def execUnlockNonceExpiry (s : State) : Host.Outcome State Fault Refusal :=
  let d := s.dev
  answer s { d with sec := { d.sec with nonce := d.sec.nonce.filter (fun x => Nat.blt (elapsed d.phys x.2) 60000000000) } }

/-- A scope closes in the grants whose end has come; a grant without scopes is gone. -/
def closeScope (scope : Nat) (now : Tick) (l : List (BitVec 8 × Nat × Tick)) : List (BitVec 8 × Nat × Tick) :=
  (l.map (fun g => if Nat.blt (elapsed now g.2.2) (2 ^ 63) then (g.1 &&& ~~~ BitVec.ofNat 8 (2 ^ scope), g.2) else g)).filter (fun g => g.1 != 0)

/-- DEBUG_SCOPE_EXPIRY: a scope's grant has run for EXPIRY seconds. -/
def execDebugScopeExpiry (scope : Fin 8) (s : State) : Host.Outcome State Fault Refusal :=
  let d := s.dev
  answer s { d with sec := { d.sec with scopes := closeScope scope.val d.phys d.sec.scopes } }

end Sys2Proof.Machine
end

