-- ==== Sys2Proof/Machine/Shuttle.lean ====
section
/-!
DEFINITION. The shuttle family: the exchange table, DISPATCH with its counts, placement, rows and landing, REROUTE, the RETURN ops and
result contexts, COMBINE and CANCEL_BATCH, and the shuttle's packets (chapter 8).
-/
namespace Sys2Proof.Machine

/-! ## Grades (Table 8.4) -/

def gradeTakes (grade fmt : Nat) : Bool := fmt == 5 || fmt == 6 || fmt == 2 || (fmt == 1 && grade != 1)

/-- Bytes of 32 elements with their scale. -/
def blockBytes (fmt : Nat) : Nat := 4 * elemBits fmt + b2n (isMx fmt)

/-- Blocks of a row, and of one packet (R184). -/
def rowBlocks (hidden : Nat) : Nat := ceilDiv hidden 32
def packetBlocks (fmt : Nat) : Nat := 2032 / blockBytes fmt

/-- Packets of a row. -/
def rowPackets (fmt hidden : Nat) : Nat := ceilDiv (rowBlocks hidden) (packetBlocks fmt)

/-- One block as it travels: 32 element codes and the scale code. -/
abbrev XBlock := List Nat × Nat

/-- The blocks of one row of a tensor: unchanged where the format stays, else converted under R115. The tensor is one loaded row of tiles. -/
def convertRow (tiles : Array Tile) (fmt lf hidden row : Nat) : List XBlock :=
  let tile := fun c => tiles.getD (c / 128) Tile.none
  (List.range (rowBlocks hidden)).map (fun b =>
    let cols := (List.range 32).map (fun i => 32 * b + i)
    let held := fun c => Nat.blt c hidden && Nat.blt (row % 128) (tile c).hdr.vr && Nat.blt (c % 128) (tile c).hdr.vc
    if lf = fmt then
      (cols.map (fun c => if held c then (tile c).code (128 * (row % 128) + c % 128) else 0),
       if isMx fmt then (tile (32 * b)).scale (4 * (row % 128) + b % 4) else 0)
    else
      let q := mxCodes lf ((cols.filter held).map (fun c => ((tile c).val (row % 128) (c % 128)).getD Val.zero))
      (q.2, q.1))

/-- Blocks on the wire: elements first, then their scales. -/
def blocksWire (fmt : Nat) (bs : List XBlock) : List Byte :=
  bs.flatMap (fun b => packElems fmt b.1) ++ (if isMx fmt then bs.map (fun b => BitVec.ofNat 8 b.2) else [])

/-- The blocks a packet's data holds. -/
def wireBlocksOf (fmt n : Nat) (data : List Byte) : List XBlock :=
  let a := data.toArray
  (List.range n).map (fun b => ((List.range 32).map (fun i => packedElem fmt a 0 (32 * b + i)),
    if isMx fmt then (a.getD (4 * elemBits fmt * n + b) 0).toNat else 0))

/-- The value of element `i` of a block. -/
def xblockVal (fmt : Nat) (b : XBlock) (i : Nat) : Val :=
  let v := elemVal fmt (nth b.1 i 0)
  if isMx fmt then (if b.2 = 255 then .nan else v.scale (b.2 - 127)) else v

/-! ## Work: a device with the changes of memory so far -/

structure Work where
  d : Dev
  mem : Memory
  ops : List MemOp

def Work.of (s : State) : Work := ⟨s.dev, s.mem, []⟩
def Work.store (w : Work) (o : List MemOp) : Work := { w with mem := w.mem.applyAll o, ops := w.ops ++ o }
def Work.dev (w : Work) (d : Dev) : Work := { w with d := d }
def Work.put (w : Work) (a : Nat) (data : List Byte) : Work :=
  w.store (w.d.writeDev a data)
def Work.answer (s : State) (w : Work) : Host.Outcome State Fault Refusal := answerMem s (w.d, w.ops)

/-- Store blocks of a row in a tensor of `hidden` columns, from block `first` on. -/
def Work.landBlocks (w : Work) (base fmt hidden row first : Nat) (bs : List XBlock) : Work :=
  bs.zipIdx.foldl (fun w (b, k) =>
    let n := first + k
    let tile := base + (row / 128 * ceilDiv hidden 128 + n / 4) * slotBytes fmt + 64
    let w := w.put (tile + (128 * (row % 128) + 32 * (n % 4)) * elemBits fmt / 8) (packElems fmt b.1)
    if isMx fmt then w.put (tile + elemBytes fmt + 4 * (row % 128) + n % 4) [BitVec.ofNat 8 b.2] else w) w

/-! ## The shuttle's state -/

def Dev.chan (d : Dev) (c ch : Nat) : Chan := Tbl.lookD d.shuttle.chans (c * 64 + ch) .reset
def Dev.setChan (d : Dev) (c ch : Nat) (x : Chan) : Dev :=
  { d with shuttle := { d.shuttle with chans := Tbl.put d.shuttle.chans (c * 64 + ch) x } }

/-- A shuttle counter rises; drops and discards are reported as alarms (R191). -/
def Dev.countShuttle (d : Dev) (off k subject : Nat) : Dev :=
  if k = 0 then d
  else
    let d := { d with shuttle := { d.shuttle with cnt := bump d.shuttle.cnt off k } }
    if off = 0x50 || off = 0x60 then d.alarm 0x28 (0x130000 + off) subject (Tbl.lookD d.shuttle.cnt off 0) else d

/-- A row or result of a batch is discarded at landing (R186, R190). -/
def Dev.discardAt (d : Dev) (c : Nat) (batch : Option (Nat × Nat)) : Dev :=
  let d := d.countShuttle 0x50 1 c
  { d with shuttle := { d.shuttle with cancels := d.shuttle.cancels.map (fun x =>
      if x.claim == c && batch == some x.batch then { x with discarded := x.discarded + 1 } else x) } }

/-- The members of a set, as logical ID and coordinate, in ascending coordinate (R171). -/
def Dev.xMembers (d : Dev) (set : Nat) : List (Nat × Nat) :=
  let own := (d.routing.log.toNat, d.self)
  let named := fun p => if p = d.self then own else (d.logOf p, p)
  match set with
  | 0 => [own]
  | 1 => (List.range 16).map (fun c => named (coord (boltOf d.self) (rowOf d.self) c))
  | _ => (List.range 16).map (fun r => named (coord (boltOf d.self) r (colOf d.self)))

/-- The port toward a member. -/
def Dev.portTo (d : Dev) (p : Nat) : Nat :=
  if p = d.self then 0xFFFF
  else if colOf p ≠ colOf d.self then warpPort (colOf d.self) (colOf p) else weftPort (rowOf d.self) (rowOf p)

/-- A shuttle header (Table 8.5). -/
def xhead (kind flags : Nat) (batch : Option (Nat × Nat)) (ch rank token slot block seq : Nat) : List Byte :=
  let b := batch.getD (0, 0)
  ([kind, flags + 32 * b2n batch.isSome, b.1, b.2, ch, rank].map (BitVec.ofNat 8)) ++ toLe 2 token ++ toLe 2 slot ++ toLe 2 block ++ toLe 4 seq

/-- A packet of an exchange op leaves for a member, whose coordinate it gets at injection; it counts in the op's record (R97, R266). -/
def Dev.xSend (d : Dev) (r : Nat) (c : W32) (tag cls member : Nat) (payload : List Byte) : Dev :=
  let k := d.packet (.bound cls 1 tag 0 member) payload
  (d.modEntry r c (fun e => { e with res := { e.res with fabric := e.res.fabric + d.fabricBytes k } })).injectFor (d.claimOf r) (some (r, c)) k

/-- Ranges that an exchange op reads count in its record. -/
def Dev.addRead (d : Dev) (r : Nat) (c : W32) (ranges : List (Nat × Nat)) : Dev :=
  d.modEntry r c (fun e => { e with res := { e.res with deep := e.res.deep + d.deepSum ranges } })

/-- Ranges that it writes are charged as they land, and count in its record (R97, R249). -/
def Dev.addWrite (d : Dev) (r : Nat) (c : W32) (ranges : List (Nat × Nat)) : Dev :=
  (d.addRead r c ranges).payDeep (d.claimOf r) ranges true

/-- The ranges that hold one row of a tensor: in each tile its elements, and its scales. -/
def rowRanges (base fmt hidden row : Nat) : List (Nat × Nat) :=
  (List.range (ceilDiv hidden 128)).flatMap (fun j =>
    let a := base + (row / 128 * ceilDiv hidden 128 + j) * slotBytes fmt + 64
    let n := ceilDiv (part hidden j) 32
    (a + 16 * elemBits fmt * (row % 128), 4 * elemBits fmt * n) ::
      (if isMx fmt then [(a + elemBytes fmt + 4 * (row % 128), n)] else []))

/-! ## COUNT and ARMED messages (R176, R177) -/

/-- The set summary of a DISPATCH. -/
def Exch.summary (x : Exch) : List Byte :=
  toLe 2 (xtTokens x.table - 1) ++ toLe 2 (xtExperts x.table - 1) ++ [BitVec.ofNat 8 (xt x.table 100 1), BitVec.ofNat 8 (xt x.table 101 1),
    BitVec.ofNat 8 (x.grade * 64), 0] ++ toLe 3 (xtHidden x.table) ++ [0] ++ toLe 4 (crc32 (x.map.flatMap (fun e => toLe 8 e.toNat)))

/-- REASON of the first field in which two summaries differ. -/
def summaryDiff (a b : List Byte) : Option Nat :=
  (([(0, 2, 112), (2, 2, 114), (4, 1, 116), (5, 1, 117), (8, 3, 124), (12, 4, 48), (6, 1, 32)] : List (Nat × Nat × Nat)).find?
    (fun f => fieldAt a f.1 f.2.1 != fieldAt b f.1 f.2.1)).map (fun f => f.2.2)

/-- Entries that one packet of a message carries. -/
def msgEntries : Nat := 252

/-- A message of entries to a member, in as many packets as its entries need; TOKEN holds the total. -/
def Dev.xMessage (d : Dev) (x : Exch) (kind member : Nat) (front : List Byte) (l : List (Nat × Nat)) : Dev :=
  (List.range (max 1 (ceilDiv l.length msgEntries))).foldl (fun d i =>
    let es := (l.drop (msgEntries * i)).take msgEntries
    d.xSend x.ring x.count x.tag.toNat 0 member
      (xhead kind (x.grade * 64) x.batch (xtXch x.table) 0 l.length 0 (msgEntries * i) es.length ++ front ++
        es.flatMap (fun p => toLe 4 p.1 ++ toLe 4 p.2))) d

/-- A packet of a message, added to what has been gathered of it. -/
def gather (t : Tbl Counted) (member : Nat) (p : Packet) (front : Nat) : Tbl Counted :=
  let n := p.p 12 4
  let es := (List.range n).map (fun i => (p.p (16 + front + 8 * i) 4, p.p (20 + front + 8 * i) 4))
  Tbl.upd t member { summary := slice p.payload 16 front, total := p.p 6 2, entries := [] } (fun c => { c with entries := c.entries ++ es })

def Counted.whole (c : Counted) : Bool := c.entries.length == c.total

/-- The rows of a message for a slot. -/
def Counted.rowsFor (c : Counted) (slot : Nat) : Nat := ((c.entries.filter (fun e => e.1 == slot)).map (fun e => e.2)).sum

/-! ## DISPATCH: its checks (R165, R166, R173 to R175) -/

/-- Every die on which an object has a tile. -/
def Obj.homes (o : Obj) : List Nat := o.dieList.take (min o.units o.dieList.length)

/-- A local entry's own checks. -/
def Dev.localEntry (d : Dev) (r : Nat) (e : Entry) (v : Word) : Bool :=
  match d.obj (mapObject v) with
  | none => false
  | some o =>
    o.usable e && o.claim == d.claimOf r &&
      (if bits v.toNat 41 40 = 0 then o.homes.all (· == bits v.toNat 43 42) else o.homes.length == 4)

/-- No two entries share DEVICE and SLOT: neighbours of the sorted list differ. -/
def distinctHomes (l : List Word) : Bool :=
  let keys := sortBy Nat.ble (l.map (fun v => mapDevice v * 16384 + mapSlot v))
  (keys.zip (keys.drop 1)).all (fun p => p.1 != p.2)

/-- The map passes R166, and R175 for a set and the slots this module holds. -/
def Dev.mapOk (d : Dev) (r : Nat) (e : Entry) (t : BitVec 1024) (l : List Word) : Bool :=
  let member := fun (v : Word) => match d.lookup (mapDevice v) with
    | some p => (d.xMembers (xtSet t)).any (fun x => x.2 == p)
    | none => false
  distinctHomes l && l.all (fun v =>
    bits v.toNat 39 32 == 0 && Nat.blt (bits v.toNat 41 40) 2 && (bits v.toNat 41 40 != 1 || bits v.toNat 43 42 == 0) &&
      (if mapDevice v = d.routing.log.toNat then d.localEntry r e v && Nat.blt (mapSlot v) (xtSlots t)
       else xtSet t != 0 && member v))

/-- The first of a list of checks that fails. -/
def firstError {α : Type} (l : List (Except Result α)) : Option Result :=
  l.findSome? (fun x => match x with | .error w => some w | .ok _ => none)

/-- The output areas overlap one another or an input (R175): of all areas in address order, one starts before the end of an earlier one, and
one of the two is an output. -/
def areasClash (outs ins : List (Nat × Nat)) : Bool :=
  let l := sortBy (fun a b => Nat.ble a.1.1 b.1.1)
    (((outs.map (fun a => (a, true))) ++ ins.map (fun a => (a, false))).filter (fun a => a.1.2 != 0))
  (l.foldl (fun (p : Bool × Nat × Nat) a =>
    let top := a.1.1 + a.1.2
    (p.1 || Nat.blt a.1.1 (if a.2 then p.2.1 else p.2.2), max p.2.1 top, if a.2 then max p.2.2 top else p.2.2)) (false, 0, 0)).1

/-- The checks of a DISPATCH, in the order of R173, R166 and R175; SRC with its grid. -/
def Dev.dispatchPlan (d : Dev) (m : Memory) (r : Nat) (e : Entry) : Except Result (BitVec 1024 × List Word × Grid) :=
  if !d.isRunning .shuttle then .error (Result.fail stRemoteFailed 0)
  else match d.table r e with
    | .error w => .error w
    | .ok x =>
      let t := x.bytes
      let map := x.map
      if xtSet t != 0 && (d.sendTag (d.claimOf r)).isNone then .error (Result.fail stRemoteFailed 0xFFFC)
      else match d.area r e 16 (xtMap t) (8 * xtExperts t) with
        | .error w => .error w
        | .ok _ =>
          let grade := bits (fld e.desc 32 1) 7 6
          if !d.mapOk r e t map then .error (Result.fail stOperandRefused 16)
          else match settled (d.inputGrid m r e 24 (xtTokens t) (xtHidden t) (gradeTakes grade)) with
            | .error w => .error w
            | .ok g =>
              let axis := isMx g.fmt && (List.range g.tiles).any (fun k => (hdrOf (d.readDev m (g.base + k * g.slot) 64)).axis)
              let lf := landFmt grade g.fmt
              let outs := dispatchOuts t ++ landAreas t lf
              let ins := (d.cAddr r e 16, 128) :: g.range :: dispatchIns t
              if !d.headersOk m g false || axis then .error (Result.fail stOperandRefused 24)
              else if xtLstride t < tensorSize lf (xtLrows t) (xtHidden t) then .error (Result.fail stOperandRefused (16 + 88))
              else match firstError ((outs ++ dispatchIns t).map (fun a => d.area r e 16 a.1 a.2)) with
                | some w => .error w
                | none =>
                  if areasClash outs ins then .error (Result.fail stOperandRefused 16)
                  else match (d.xMembers (xtSet t)).find? (fun x => x.2 != d.self && d.lookup x.1 != some x.2) with
                    | some x => .error (Result.fail stRemoteFailed (d.portTo x.2))
                    | none => .ok (t, map, g)

/-! ## DISPATCH: counts, placement and rows (R177 to R182) -/

/-- The rows of the module's lists, expert by expert, each with its number among the rows for its slot. A list entry that names no token
or rank of the table is passed over. -/
def Dev.rowsOf (d : Dev) (m : Memory) (t : BitVec 1024) (map : List Word) : List Row :=
  (List.range (xtExperts t)).flatMap (fun x =>
    let off := d.readNat m (xtCounts t + 16 * x) 4
    let n := d.readNat m (xtCounts t + 16 * x + 4) 4
    let v := nth map x 0
    let pairs := ((List.range (min n (xtTokens t * xtK t - off))).map (fun j =>
      let b := d.readDev m (xtLists t + 8 * (off + j)) 8
      (fieldAt b 0 2, fieldAt b 2 1 % 16))).filter (fun p => Nat.blt p.1 (xtTokens t) && Nat.blt p.2 (xtK t))
    pairs.zipIdx.map (fun p => { expert := x, member := mapDevice v, slot := mapSlot v, seq := p.2, token := p.1.1, rank := p.1.2 }))

/-- What COUNT tells a member: its slots that receive rows, ascending by expert, and how many. -/
def countsFor (rows : List Row) (member : Nat) : List (Nat × Nat) :=
  let mine := rows.filter (fun r => r.member == member)
  ((mine.map (fun r => r.slot)).eraseDups).map (fun s => (s, mine.countP (fun r => r.slot == s)))

/-- The entries of a ROUTED array with a FATE of PRIMARY or SPILLED, and their weights. -/
def Dev.expected (d : Dev) (m : Memory) (t : BitVec 1024) : Tbl Nat :=
  (List.range (xtTokens t * xtK t)).filterMap (fun i =>
    let b := d.readDev m (xtRouted t + 8 * i) 8
    if fieldAt b 2 1 < 128 then some (i, fieldAt b 4 4) else none)

/-- The rows placed for a slot, by member in ascending logical ID, cut at LROWS (R178, R179). -/
def Exch.place (x : Exch) (slot : Nat) : List (Nat × Nat) :=
  (x.counts.foldl (fun (a : List (Nat × Nat) × Nat) c =>
    let n := min (c.2.rowsFor slot) (xtLrows x.table - a.2)
    if c.2.rowsFor slot = 0 then a else (a.1 ++ [(c.1, n)], a.2 + n)) ([], 0)).1

def planRows (l : List (Nat × Nat)) : Nat := (l.map (fun p => p.2)).sum

/-- Rows that a slot holds or will hold: placed and rerouted to it. -/
def Exch.filled (x : Exch) (slot : Nat) : Nat := planRows (Tbl.lookD x.plan slot []) + Tbl.lookD x.extra slot 0

/-- The landing position of a member's row; none where it was not accepted. -/
def Exch.position (x : Exch) (member slot seq : Nat) : Option Nat :=
  let l := Tbl.lookD x.plan slot []
  match l.find? (fun p => p.1 == member) with
  | some p => if seq < p.2 then some (planRows (l.takeWhile (fun q => q.1 != member)) + seq) else none
  | none => none

def Exch.lf (x : Exch) : Nat := landFmt x.grade x.fmt
def Exch.landBase (x : Exch) (slot : Nat) : Nat := xtLand x.table + slot * xtLstride x.table

/-- A landing tag (Table 8.3). -/
def landTag (origin token rank : Nat) (batch : Option (Nat × Nat)) (rerouted : Bool) : List Byte :=
  let b := batch.getD (0, 0)
  toLe 8 (origin * 2 ^ 44 + token * 2 ^ 28 + rank * 2 ^ 24 + b.1 * 2 ^ 16 + b.2 * 2 ^ 8 + b2n batch.isSome * 128 + b2n rerouted * 64)

/-- A store of a DISPATCH, which counts in its record (R97). -/
def Work.putFor (w : Work) (x : Exch) (a : Nat) (data : List Byte) : Work :=
  let w := w.put a data
  w.dev (w.d.addWrite x.ring x.count [(a, data.length)])

def Work.putTag (w : Work) (x : Exch) (slot row : Nat) (tag : List Byte) : Work :=
  w.putFor x (xtLtag x.table + 8 * (slot * xtLrows x.table + row)) tag

/-- The zeroed body of the tiles that hold rows `lo` to `hi - 1` of a slot and none before `lo`. -/
def Work.clearTiles (w : Work) (x : Exch) (slot lo hi : Nat) : Work :=
  let tc := ceilDiv (xtHidden x.table) 128
  (List.range (ceilDiv hi 128 - ceilDiv lo 128)).foldl (fun w i => (List.range tc).foldl (fun w j =>
    w.put (x.landBase slot + ((ceilDiv lo 128 + i) * tc + j) * slotBytes x.lf + 64) (List.replicate (denseBody x.lf) 0)) w) w

/-- A landing count. -/
def Work.putLcnt (w : Work) (x : Exch) (slot n : Nat) : Work := w.putFor x (xtLcnt x.table + 8 * slot) (toLe 4 n ++ toLe 4 0)

/-- The blocks of token `t` of SRC as the grade sends them. -/
def Work.rowOf (w : Work) (x : Exch) (t : Nat) : List XBlock :=
  let h := xtHidden x.table
  let g : Grid := { off := 24, base := x.src, slot := slotBytes x.fmt, tr := ceilDiv (xtTokens x.table) 128, tc := ceilDiv h 128, fmt := x.fmt }
  convertRow (((List.range g.tc).map (fun j => w.d.tile w.mem g (t / 128) j 128 128)).toArray) x.fmt x.lf h t

/-- A route entry is rewritten: EXPERT, FATE_CAND and WEIGHT. -/
def Work.putRoute (w : Work) (x : Exch) (t r expert fate weight : Nat) : Work :=
  w.putFor x (xtRouted x.table + 8 * (t * xtK x.table + r)) (toLe 2 expert ++ [BitVec.ofNat 8 fate, 0] ++ toLe 4 weight)

/-- The context of an exchange rewritten. -/
def Chan.modRes (y : Chan) (f : Results → Results) : Chan := { y with res := y.res.map f }

/-- An own row that no landing row accepts: ROUTED is amended, and its pair is expected no more (R179). -/
def Work.dropRow (w : Work) (c : Nat) (y : Chan) (x : Exch) (q : Row) : Work × Chan × Exch :=
  let w := (w.putRoute x q.token q.rank 0xFFFF (128 + q.rank) 0)
  let w := w.dev ((w.d.countShuttle 0x60 1 c).modEntry x.ring x.count (fun e => { e with res := e.res.meet stTokensDropped 0 }))
  (w, y.modRes (fun z => { z with expect := Tbl.del z.expect (q.token * xtK x.table + q.rank) }), { x with dropped := x.dropped + 1 })

/-- A row of this module to itself lands, or is discarded where its batch is cancelled (R178, R190). -/
def Work.landOwn (w : Work) (c : Nat) (x : Exch) (q : Row) (slot pos : Nat) (rerouted : Bool) : Work × Exch :=
  let w := w.dev (w.d.countShuttle 0x40 1 c)
  if w.d.staleBatch c x.batch then
    (w.dev (w.d.discardAt c x.batch), { x with lost := Tbl.upd x.lost slot [] (pos :: ·) })
  else
    let bs := w.rowOf x q.token
    let w := (w.landBlocks (x.landBase slot) x.lf (xtHidden x.table) pos 0 bs).putTag x slot pos
      (landTag w.d.routing.log.toNat q.token q.rank x.batch rerouted)
    let a := x.landBase slot + (pos / 128 * ceilDiv (xtHidden x.table) 128) * slotBytes x.lf
    let d := (w.d.countShuttle 0x48 1 c).addWrite x.ring x.count (rowRanges (x.landBase slot) x.lf (xtHidden x.table) pos)
    (w.dev (d.engineWrite a (ceilDiv (xtHidden x.table) 128 * slotBytes x.lf)), x)

/-- A row is sent to another member, packet by packet (R184). -/
def Work.sendRow (w : Work) (c : Nat) (x : Exch) (q : Row) : Work × Exch :=
  let bs := w.rowOf x q.token
  let n := packetBlocks x.lf
  let w := w.dev (w.d.countShuttle 0x40 1 c)
  (List.range (rowPackets x.lf (xtHidden x.table))).foldl (fun (w, x) i =>
    let head := xhead 3 (x.grade * 64) x.batch (xtXch x.table) q.rank q.token q.slot (n * i) q.seq
    (w.dev (w.d.xSend x.ring x.count x.tag.toNat 3 q.member (head ++ blocksWire x.lf ((bs.drop (n * i)).take n))),
     { x with unacked := x.unacked ++ [(q.member, head)] })) (w, x)

/-- The object of a local expert. -/
def Exch.object (x : Exch) (d : Dev) (expert : Nat) : Option Obj := d.obj (mapObject (nth x.map expert 0))

/-- Rows for an expert of this module with a hoist in motion are held, where its object's policy is REROUTE; not under Fixed-Bits (R180,
R182). -/
def Exch.holds (x : Exch) (d : Dev) (q : Row) : Bool :=
  q.member == d.routing.log.toNat && !d.fixedBits &&
    (match x.object d q.expert with | some o => o.reroute && o.moves.any (fun v => v.toNear) | none => false)

/-- The candidate that a held row is rerouted to: its rank in TRIPLES and its expert (R181). -/
def Work.candidate (w : Work) (x : Exch) (q : Row) : Option (Nat × Nat) :=
  let t := x.table
  let k := xtK t
  let serving := (List.range k).map (fun r => w.d.readNat w.mem (xtRouted t + 8 * (q.token * k + r)) 2)
  ((List.range (xtSpare t)).map (fun i =>
    (k + i, w.d.readNat w.mem (xtTriples t + 8 * (q.token * (k + xtSpare t) + k + i) + 2) 2))).find? (fun p =>
      Nat.blt p.2 (xtExperts t) && !serving.contains p.2 && mapDevice (nth x.map p.2 0) == w.d.routing.log.toNat &&
      (match x.object w.d p.2 with
        | some o => o.moves.isEmpty && rangesCount o.near == o.units
        | none => false) &&
      Nat.blt (x.filled (mapSlot (nth x.map p.2 0))) (xtLrows t))

/-- Rows behind a position move down by one, their data and tags, and the last row they leave is zero (R104). -/
def Work.closeGap (w : Work) (x : Exch) (slot pos : Nat) : Work :=
  let tc := ceilDiv (xtHidden x.table) 128
  let at' := fun row j => x.landBase slot + (row / 128 * tc + j) * slotBytes x.lf + 64
  let n := 16 * elemBits x.lf
  let last := x.filled slot - 1
  let w := (List.range (last - pos)).foldl (fun w i =>
    let p := pos + i
    let w := (List.range tc).foldl (fun w j =>
      let w := w.put (at' p j + n * (p % 128)) (w.d.readDev w.mem (at' (p + 1) j + n * ((p + 1) % 128)) n)
      if isMx x.lf then
        w.put (at' p j + elemBytes x.lf + 4 * (p % 128)) (w.d.readDev w.mem (at' (p + 1) j + elemBytes x.lf + 4 * ((p + 1) % 128)) 4)
      else w) w
    w.putTag x slot p (w.d.readDev w.mem (xtLtag x.table + 8 * (slot * xtLrows x.table + p + 1)) 8)) w
  (List.range tc).foldl (fun w j =>
    let w := w.put (at' last j + n * (last % 128)) (List.replicate n 0)
    if isMx x.lf then w.put (at' last j + elemBytes x.lf + 4 * (last % 128)) (List.replicate 4 0) else w) w

/-- A held row leaves its slot: later rows of this module there take the next lower number. -/
def Exch.leave (x : Exch) (own : Nat) (q : Row) : Exch :=
  let pos := (x.position own q.slot q.seq).getD 0
  { x with
    lost := Tbl.upd x.lost q.slot [] (fun l => l.map (fun p => if pos < p then p - 1 else p)),
    plan := Tbl.upd x.plan q.slot [] (fun l => l.map (fun p => if p.1 == own then (p.1, p.2 - 1) else p)),
    rows := x.rows.map (fun o => if o.member == own && o.slot == q.slot && Nat.blt q.seq o.seq then { o with seq := o.seq - 1 } else o) }

/-- A held row at the deadline: rerouted to its candidate, or none found (R181). -/
def Work.reroute (w : Work) (c : Nat) (y : Chan) (x : Exch) (q : Row) : Option (Work × Chan × Exch) :=
  match w.candidate x q with
  | none => none
  | some (rank, expert) =>
    let own := w.d.routing.log.toNat
    let old := w.d.readDev w.mem (xtRouted x.table + 8 * (q.token * xtK x.table + q.rank)) 8
    let w := w.putRoute x q.token q.rank expert (fieldAt old 2 1 / 16 * 16 + rank) (fieldAt old 4 4)
    let w := match x.position own q.slot q.seq with | some p => w.closeGap x q.slot p | none => w
    let x := x.leave own q
    let w := w.putLcnt x q.slot (x.filled q.slot)
    let slot := mapSlot (nth x.map expert 0)
    let pos := x.filled slot
    let w := w.clearTiles x slot pos (pos + 1)
    let x := { x with extra := Tbl.upd x.extra slot 0 (· + 1), rerouted := x.rerouted + 1 }
    let w := w.putLcnt x slot (x.filled slot)
    let w := w.dev ((w.d.countShuttle 0x58 1 c).modEntry x.ring x.count (fun e =>
      { e with res := { e.res.meet stRerouted 0 with approx := true } }))
    let (w, x) := w.landOwn c x q slot pos true
    some (w, y, x)

/-- One own row, where it may go now: dropped, held, rerouted, landed here or sent. -/
def Work.row (w : Work) (c : Nat) (y : Chan) (x : Exch) (late : Bool) (q : Row) : Work × Chan × Exch :=
  let own := w.d.routing.log.toNat
  let q := (x.rows.find? (fun o => o.token == q.token && o.rank == q.rank)).getD q
  let gone := fun (x : Exch) => { x with rows := x.rows.filter (fun o => !(o.token == q.token && o.rank == q.rank)) }
  let send := fun (_ : Unit) =>
    if q.member = own then
      match x.position own q.slot q.seq with
      | some p => let (w, x) := w.landOwn c x q q.slot p false; (w, y, gone x)
      | none => (w, y, gone x)
    else let (w, x) := w.sendRow c x q; (w, y, gone x)
  if !x.cleared.contains q.member then (w, y, x)
  else if x.holds w.d q then
    if late then
      match w.reroute c y (gone x) q with
      | some z => z
      | none => send ()
    else (w, y, x)
  else send ()

/-- A member's ARMED is acted on: the rows it did not accept are dropped. -/
def Work.armedBy (w : Work) (c : Nat) (y : Chan) (x : Exch) (member : Nat) (a : Counted) : Work × Chan × Exch :=
  let out := x.rows.filter (fun q => q.member == member && Nat.ble (a.rowsFor q.slot) q.seq)
  let (w, y, x) := out.foldl (fun (w, y, x) q => w.dropRow c y x q) (w, y, x)
  (w, y, { x with cleared := x.cleared ++ [member], rows := x.rows.filter (fun q => !out.contains q) })

/-- Every local slot that receives rows requests a hoist of its expert's object (R180, R224). -/
def Exch.requestHoists (x : Exch) (d : Dev) : Dev :=
  let here := x.map.filter (fun v => mapDevice v == d.routing.log.toNat && x.plan.any (fun p => p.1 == mapSlot v))
  (here.map mapObject).foldl (fun d n => match d.obj n with | some o => d.heatUnits n 0 o.units 1 | none => d) d

/-- This module places the rows: landing counts, cleared tiles, hoists requested, and ARMED to every member (R177 step 2, R178, R180). -/
def Work.arm (w : Work) (c : Nat) (y : Chan) (x : Exch) : Work × Chan × Exch :=
  let own := w.d.routing.log.toNat
  let slots := sortBy Nat.ble ((x.counts.flatMap (fun m => m.2.entries.map (fun e => e.1))).eraseDups)
  let x := { x with plan := slots.filterMap (fun s => if planRows (x.place s) = 0 then none else some (s, x.place s)), armed := true }
  let w := (List.range (xtSlots x.table)).foldl (fun w s => w.putLcnt x s (x.filled s)) w
  let w := x.plan.foldl (fun w p => w.clearTiles x p.1 0 (planRows p.2)) w
  let accepted := fun m => x.plan.flatMap (fun p => (p.2.filter (fun q => q.1 == m)).map (fun q => (p.1, q.2)))
  let others := (w.d.xMembers (xtSet x.table)).filter (fun m => m.2 != w.d.self)
  let w := w.dev (others.foldl (fun d m => d.xMessage x 2 m.1 [] (accepted m.1)) (x.requestHoists w.d))
  w.armedBy c y x own { summary := [], total := (accepted own).length, entries := accepted own }

/-- A member's COUNT that this module refuses: a summary that differs, or a slot it does not hold (R175, R176). -/
def Exch.refusal (x : Exch) : Option (Nat × Nat) :=
  x.counts.findSome? (fun m =>
    match summaryDiff x.summary m.2.summary with
    | some why => some (m.1, why)
    | none => if m.2.entries.any (fun e => Nat.ble (xtSlots x.table) e.1) then some (m.1, 16) else none)

/-- An exchange ends in a refusal: nothing was moved, and its context is none (R176). -/
def Dev.refuseExchange (d : Dev) (c ch : Nat) (x : Exch) (why : Nat) : Dev :=
  (d.finishOp x.ring x.count (Result.fail stOperandRefused why)).setChan c ch { d.chan c ch with disp := none, res := none }

/-- The header of the landed tile (i, j) of a slot, with the smallest SCALE_CEIL (R103, R106, R178). -/
def Work.tileHeader (w : Work) (x : Exch) (slot rows i j : Nat) : Work :=
  let h := xtHidden x.table
  let a := x.landBase slot + (i * ceilDiv h 128 + j) * slotBytes x.lf
  let n := w.d.tileName a (slotBytes x.lf)
  let hdr : Hdr := { sound := true, fmt := x.lf, codec := 0, sparse := 0, axis := false, vr := part rows i, vc := part h j, ceil := 0,
                     stored := denseBody x.lf, index := n.2, obj := n.1, aux := 0 }
  let top := (loadTile hdr (w.d.readDev w.mem (a + 64) (denseBody x.lf)) 128 128).seen 128 128
  w.put a { hdr with ceil := max top (b2n (!isMx x.lf)) }.bytes

/-- Every expected row has landed or been discarded: none of this module's own waits, and every packet of other members' accepted rows
has come. -/
def Exch.landingDone (x : Exch) (own : Nat) : Bool :=
  let others := (x.plan.map (fun p => planRows (p.2.filter (fun q => q.1 != own)))).sum
  x.armed && !x.rows.any (fun q => q.member == own) && x.got.length == others * rowPackets x.lf (xtHidden x.table)

/-- The rows of a slot that have landed, by position: those discarded at landing leave their places empty (R178, R190). -/
def Exch.landedRows (x : Exch) (slot : Nat) : List Nat :=
  (List.range (x.filled slot)).filter (fun p => !(Tbl.lookD x.lost slot []).contains p)

/-- Landing is complete: headers of the tiles that hold a landed row, WORK, and LTALLY once (R177 step 4, R178). -/
def Work.land (w : Work) (x : Exch) : Work × Exch :=
  let slots := sortBy Nat.ble ((x.plan.map (fun p => p.1) ++ x.extra.map (fun p => p.1)).eraseDups)
  let w := (slots.filter (fun s => !(Tbl.lookD x.lost s []).isEmpty)).foldl (fun w s => w.putLcnt x s (x.landedRows s).length) w
  let work := slots.filter (fun s => !(x.landedRows s).isEmpty)
  let w := work.foldl (fun w s =>
    let rows := x.landedRows s
    (((rows.map (· / 128)).eraseDups)).foldl (fun w i =>
      (List.range (ceilDiv (xtHidden x.table) 128)).foldl (fun w j => w.tileHeader x s (rows.foldl max 0 + 1) i j) w) w) w
  let w := w.putFor x (xtWork x.table) (toLe 4 work.length ++ toLe 4 0 ++ work.flatMap (toLe 4))
  let d := w.d.engineWrite (xtWork x.table) (8 + 4 * work.length)
  (w.dev (d.addTally (xtLtally x.table) 1).1, { x with landed := true })

/-- Blocks of a result that have landed. -/
def Results.blocksOf (z : Results) (key : Nat) : Nat := ((z.got.filter (fun g => g.key == key)).map (fun g => g.blocks)).sum

/-- A result context whose results have all landed signals RTALLY once; one that expects none, when its DISPATCH completes (R186). -/
def Dev.signalResults (d : Dev) (c ch : Nat) : Dev :=
  let y := d.chan c ch
  match y.res with
  | some z =>
    let n := rowBlocks (xtHidden z.table)
    if d.awaits c z && z.final && (!z.expect.isEmpty || y.disp.isNone) && z.expect.all (fun k => z.blocksOf k.1 == n) then
      (d.setChan c ch (y.modRes (fun z => { z with signalled := true }))).addTally (xtRtally z.table) 1 |>.1
    else d
  | none => d

/-- A DISPATCH whose landing is complete and whose rows are all acknowledged completes (R177, R179, R181). -/
def Dev.endDispatch (d : Dev) (c ch : Nat) (x : Exch) : Dev :=
  match d.entry x.ring x.count with
  | some e =>
    let why := if e.res.status = stTokensDropped then x.dropped else if e.res.status = stRerouted then x.rerouted else 0
    let res := if why = 0 then e.res else { e.res with reason := sat16 why }
    (d.endOp x.ring e res).setChan c ch { d.chan c ch with disp := none }
  | none => d.setChan c ch { d.chan c ch with disp := none }

/-- Take the COUNT messages held for a DISPATCH. -/
def Chan.takeHeld (y : Chan) (x : Exch) : Chan × Exch :=
  ({ y with held := y.held.filter (fun h => (Tbl.look x.counts h.1).isSome) },
   { x with counts := y.held.foldl (fun t h => if (Tbl.look t h.1).isSome then t else Tbl.put t h.1 h.2) x.counts })

/-- The op is a started one. -/
def Dev.runs (d : Dev) (r : Nat) (c : W32) : Bool := (d.entry r c).any (fun e => e.phase == .started)

/-- What class 3 leaves undefined of a DISPATCH: its output areas. -/
def Exch.outs (x : Exch) : List (Nat × Nat) := (dispatchOuts x.table).take 4 ++ landAreas x.table x.lf

/-- The exchange of a channel goes as far as it can: refusal, placement, ARMED messages, rows, landing, completion. -/
def Work.advance (w : Work) (c ch : Nat) (late : Bool) : Work :=
  let y := w.d.chan c ch
  match y.disp with
  | none => w
  | some x =>
    let members := w.d.xMembers (xtSet x.table)
    let counted := members.all (fun m => match Tbl.look x.counts m.1 with | some k => k.whole | none => false)
    match if x.armed then none else x.refusal with
    | some (m, why) =>
      let d := if m = w.d.routing.log.toNat then w.d else
        w.d.xSend x.ring x.count x.tag.toNat 0 m (xhead 6 (x.grade * 64) x.batch ch 0 0 0 0 0 ++ toLe 4 why)
      w.dev (d.refuseExchange c ch x why)
    | none =>
      let (w, y, x) := if !x.armed && counted then w.arm c y x else (w, y, x)
      let ready := x.armedBy.filter (fun a => a.2.whole && !x.cleared.contains a.1)
      let (w, y, x) := if x.armed then ready.foldl (fun (w, y, x) a => w.armedBy c y x a.1 a.2) (w, y, x) else (w, y, x)
      let (w, y, x) := x.rows.foldl (fun (w, y, x) q => w.row c y x late q) (w, y, x)
      let own := w.d.routing.log.toNat
      let (w, x) := if x.landingDone own && !x.landed then w.land x else (w, x)
      let closed := members.all (fun m => x.cleared.contains m.1) && x.rows.isEmpty
      let y := if closed then y.modRes (fun z => { z with final := true }) else y
      let done := closed && x.landed && x.unacked.isEmpty
      let d := w.d.setChan c ch { y with disp := some x }
      if d.runs x.ring x.count then w.dev ((if done then d.endDispatch c ch x else d).signalResults c ch)
      else
        -- something else ended the op while it sent: its outputs are undefined (R99, R267)
        let p := (d.setChan c ch { y with disp := none }).scramble x.outs
        { w with d := p.1 }.store p.2

/-! ## CANCEL_BATCH (R190) -/

/-- A DISPATCH of the old epoch has started and not sent its rows yet. -/
def Dev.dispatchWaits (d : Dev) (x : Cancel) : Bool :=
  d.rings.any (fun g => g.2.claim.toNat == x.claim && g.2.ents.any (fun e => e.phase == .started && hOpcode e.desc == 0x22 && hBatch e.desc &&
    (hSlot e.desc, hEpoch e.desc) == x.batch &&
    !d.shuttle.chans.any (fun y => y.2.disp.any (fun o => o.ring == g.1 && o.count == e.count))))

/-- No DISPATCH of the old epoch has a row unsent or unacknowledged. -/
def Dev.cancelDone (d : Dev) (x : Cancel) : Bool :=
  !d.dispatchWaits x && d.shuttle.chans.all (fun y => y.1 / 64 != x.claim || (match y.2.disp with
    | some o => o.batch != some x.batch || (o.rows.isEmpty && o.unacked.isEmpty)
    | none => true))

/-- CANCEL_BATCH ops whose rows are all accounted for are done. -/
def Dev.endCancels (d : Dev) : Dev :=
  let ended := d.shuttle.cancels.filter (fun x => d.cancelDone x)
  ended.foldl (fun d x => d.finishOp x.ring x.count { Result.ok with reason := sat16 x.discarded })
    { d with shuttle := { d.shuttle with cancels := d.shuttle.cancels.filter (fun x => !d.cancelDone x) } }

/-- CANCEL_BATCH (R190): the contexts of the old epoch are disarmed; it is done once every row of the batch is accounted for. -/
def execCancelBatch (r : RingNo) (count : W32) (s : State) : Host.Outcome State Fault Refusal :=
  let d := s.dev
  match d.op r.val count 0x26 with
  | none => answer s d
  | some _ =>
    match d.shuttle.cancels.find? (fun x => x.ring == r.val && x.count == count) with
    | none => answer s d
    | some x =>
      let d := { d with shuttle := { d.shuttle with chans := Tbl.mapAll d.shuttle.chans (fun k y =>
        if k / 64 = x.claim then y.modRes (fun z => { z with armed := z.armed && z.batch != some x.batch }) else y) } }
      answer s d.endCancels

/-! ## DISPATCH -/

/-- Ranges an exchange op reads once: they move on the deep tier and warm their units. -/
def Dev.readTables (d : Dev) (r : Nat) (c : W32) (l : List (Nat × Nat)) : Dev :=
  l.foldl (fun d a => (d.engineRead a.1 a.2).addRead r c [a]) d

/-- What a DISPATCH reads before its rows go: table, lists, counts, map and ROUTED. -/
def Dev.dispatchReads (d : Dev) (r : Nat) (e : Entry) (t : BitVec 1024) : List (Nat × Nat) :=
  (dispatchIns t).drop 1 ++ [(xtRouted t, 8 * xtTokens t * xtK t), (d.cAddr r e 16, 128)]

/-- The rows of SRC that its lists name, once each. -/
def dispatchRows (g : Grid) (t : BitVec 1024) (rows : List Row) : List (Nat × Nat) :=
  ((rows.map (fun q => q.token)).eraseDups).flatMap (rowRanges g.base g.fmt (xtHidden t))

/-- A DISPATCH whose checks have passed sends its COUNT messages (R177 step 1). -/
def Work.dispatch (w : Work) (r : Nat) (e : Entry) (t : BitVec 1024) (map : List Word) (g : Grid) : Work :=
  let d := w.d.take r e.count
  let c := d.claimOf r
  let own := d.routing.log.toNat
  let rows := d.rowsOf w.mem t map
  let batch := if hBatch e.desc then some (hSlot e.desc, hEpoch e.desc) else none
  let tag := match d.sendTag c with | some t => BitVec.ofNat 16 t | none => 0
  let x : Exch :=
    { ring := r, count := e.count, tag := tag, table := t, map := map, grade := bits (fld e.desc 32 1) 7 6, src := g.base, fmt := g.fmt,
      batch := batch, rows := rows, counts := [], armedBy := [], cleared := [], armed := false, plan := [], extra := [], got := [], lost := [],
      unacked := [], landed := false, dropped := 0, rerouted := 0 }
  let mine := countsFor rows own
  let x := { x with counts := [(own, { summary := x.summary, total := mine.length, entries := mine })] }
  let (y, x) := (d.chan c (xtXch t)).takeHeld x
  let res : Results :=
    { armed := true, table := t, batch := batch, expect := d.expected w.mem t, final := false, got := [], signalled := false }
  let d := d.readTables r e.count (d.dispatchReads r e t)
  let d := (d.engineRead g.base (g.tiles * g.slot)).addRead r e.count (dispatchRows g t rows)
  let d := ((d.xMembers (xtSet t)).filter (fun m => m.2 != d.self)).foldl (fun d m => d.xMessage x 1 m.1 x.summary (countsFor rows m.1)) d
  w.dev (d.setChan c (xtXch t) { y with disp := some x, res := some res, retDone := false })

/-- A running DISPATCH fails toward a member (R177): its outputs are undefined. -/
def Work.failDispatch (w : Work) (c ch : Nat) (x : Exch) (reason : Nat) : Work :=
  let p := w.d.scramble x.outs
  let d := (p.1.failExchange x.ring x.count reason).setChan c ch { p.1.chan c ch with disp := none }
  { w with d := d.endCancels }.store p.2

/-- DISPATCH (R171 to R183, R190, R191): its checks and COUNT messages; run again, a DISPATCH that waits goes as far as it can, rows held for
a hoist among it. -/
def execDispatch (r : RingNo) (count : W32) (s : State) : Host.Outcome State Fault Refusal :=
  let d := s.dev
  match d.op r.val count 0x22 with
  | none => answer s d
  | some e =>
    let c := d.claimOf r.val
    match d.shuttle.chans.find? (fun y => y.1 / 64 == c && (match y.2.disp with | some x => x.ring == r.val && x.count == count | none => false)) with
    | some y =>
      let w := (Work.of s).advance c (y.1 % 64) (deadlineReached d.now e.desc)
      Work.answer s (w.dev w.d.endCancels)
    | none =>
      match d.dispatchPlan s.mem r.val e with
      | .error w => answer s (d.finishOp r.val count w).endCancels
      | .ok (t, map, g) =>
        let spans := ((dispatchOuts t ++ landAreas t (landFmt (bits (fld e.desc 32 1) 7 6) g.fmt)).map (fun a => span 16 a.1 a.2))
        let toks := d.rowsOf s.mem t map
        let bad := (d.loadGrid s.mem g (xtTokens t) (xtHidden t)).toList.zipIdx.any (fun k =>
          k.1.bad && toks.any (fun q => q.token / 128 == k.2 / g.tc))
        begun s r.val e (d.mustWaitAlways [g] spans) (d.deepNeeds (d.dispatchReads r.val e t ++ dispatchRows g t toks) []) (fun s =>
          if bad then answer s (s.dev.finishOp r.val count (Result.fail stIndexFault 24)).endCancels
          else
            let w := ((Work.of s).dispatch r.val e t map g).advance c (xtXch t) (deadlineReached d.now e.desc)
            Work.answer s (w.dev w.d.endCancels))

/-! ## Results (R185 to R188) -/

/-- The rows of a RETURN op: slot, row, and its landing tag, in the order of WORK. -/
def Dev.returnRows (d : Dev) (m : Memory) (t : BitVec 1024) : List (Nat × Nat × Nat) :=
  let n := min (d.readNat m (xtWork t) 4) (xtSlots t)
  ((List.range n).map (fun i => d.readNat m (xtWork t + 8 + 4 * i) 4)).flatMap (fun s =>
    if xtSlots t ≤ s then []
    else (List.range (min (d.readNat m (xtLcnt t + 8 * s) 4) (xtLrows t))).map (fun j =>
      (s, j, d.readNat m (xtLtag t + 8 * (s * xtLrows t + j)) 8)))

def tagOrigin (v : Nat) : Nat := bits v 63 44
def tagToken (v : Nat) : Nat := bits v 43 28
def tagRank (v : Nat) : Nat := bits v 27 24
def tagBatch (v : Nat) : Option (Nat × Nat) := if bit v 7 then some (bits v 23 16, bits v 15 8) else none

/-- One element added to ACCBUF: the exact product and the stored element, rounded once to binary32 (R188). -/
def accAdd (old w : Nat) (y : Val) : Nat := f32.rne ((f32.dec old).add ((f32.dec w).mul y))

/-- Where a result lands: base, format and row of SLOTBUF or ACCBUF, and the rows of the whole. -/
def Results.place (z : Results) (accum : Bool) (key : Nat) : Nat × Nat × Nat × Nat :=
  let t := z.table
  if accum then (xtAccbuf t, 6, key / xtK t, xtTokens t) else (xtSlotbuf t, xtSlotFmt t, key, xtTokens t * xtK t)

/-- The tiles of a row that blocks `first` to `first + n - 1` lie in, by address. -/
def Results.tilesOf (z : Results) (accum : Bool) (key first n : Nat) : List (Nat × Nat) :=
  let p := z.place accum key
  (List.range ((first + n + 3) / 4 - first / 4)).map (fun i =>
    (first / 4 + i, p.1 + (p.2.2.1 / 128 * ceilDiv (xtHidden z.table) 128 + first / 4 + i) * slotBytes p.2.1))

/-- A tile there is coded and its stream is malformed (R229). -/
def Work.coded (w : Work) (a : Nat) : Bool × Bool :=
  let h := hdrOf (w.d.readDev w.mem a 64)
  let sound := h.passes (w.d.readDev w.mem a 64) anyFmt false && h.codec == 1
  (sound, sound && (loadTile h (w.d.readDev w.mem (a + 64) h.stored) 128 128).bad)

/-- A coded tile there is decoded, as a RAW tile (R227). -/
def Work.decode (w : Work) (a lf : Nat) : Work :=
  let h := hdrOf (w.d.readDev w.mem a 64)
  if (w.coded a).1 && h.fmt == lf then w.put a (rawBytes h (w.d.readDev w.mem (a + 64) h.stored)) else w

/-- The header of a tile of SLOTBUF or ACCBUF, with the smallest SCALE_CEIL that its elements allow (R103, R106). -/
def Work.resultHeader (w : Work) (a lf vr vc : Nat) : Work :=
  let n := w.d.tileName a (slotBytes lf)
  let hdr : Hdr := { sound := true, fmt := lf, codec := 0, sparse := 0, axis := false, vr := vr, vc := vc, ceil := 0,
                     stored := denseBody lf, index := n.2, obj := n.1, aux := 0 }
  w.put a { hdr with ceil := max ((loadTile hdr (w.d.readDev w.mem (a + 64) (denseBody lf)) 128 128).seen 128 128) 1 }.bytes

/-- Blocks of a result land in SLOTBUF or ACCBUF: coded tiles are decoded first, and the headers of the tiles written (R103, R187, R188,
R227). -/
def Work.landResult (w : Work) (z : Results) (accum : Bool) (key weight fmt first : Nat) (bs : List XBlock) : Work :=
  let h := xtHidden z.table
  let p := z.place accum key
  let lf := p.2.1
  let row := p.2.2.1
  let tiles := z.tilesOf accum key first bs.length
  let w := tiles.foldl (fun w x => w.decode x.2 lf) w
  let w := bs.zipIdx.foldl (fun w (b, k) =>
    let n := first + k
    let a := p.1 + (row / 128 * ceilDiv h 128 + n / 4) * slotBytes lf + 64 + (128 * (row % 128) + 32 * (n % 4)) * elemBits lf / 8
    let cols := min 32 (h - 32 * n)
    let codes := (List.range cols).map (fun i =>
      let v := xblockVal fmt b i
      if accum then accAdd (w.d.readNat w.mem (a + 4 * i) 4) weight v else (fmtSpec lf).rne v)
    w.put a (packElems lf codes)) w
  tiles.foldl (fun w x => w.resultHeader x.2 lf (part p.2.2.2 (row / 128)) (part h x.1)) w

/-- The ranges of a row that blocks `first` on take. -/
def Results.ranges (z : Results) (accum : Bool) (key first n : Nat) : List (Nat × Nat) :=
  let p := z.place accum key
  (z.tilesOf accum key first n).map (fun x =>
    let lo := max first (4 * x.1)
    (x.2 + 64 + (128 * (p.2.2.1 % 128) + 32 * (lo - 4 * x.1)) * elemBits p.2.1 / 8, (min (first + n) (4 * x.1 + 4) - lo) * (4 * elemBits p.2.1)))

/-- A packet of a result that has landed before: of another result of the same rank, or of blocks that have landed (R186). -/
def Results.again (z : Results) (key fmt src first n : Nat) : Bool :=
  z.got.any (fun g => g.key == key && (g.fmt != fmt || g.src != src || (Nat.blt first (g.first + g.blocks) && Nat.blt g.first (first + n))))

/-- Part of a result arrives at this module: it lands or is discarded (R186, R190). A result is counted once, by its last block; a discarded
one of a channel with no context, whose length is not known, by its first. A RETURN op of this module, where there is one, counts its own
landing (R97); what lands from the fabric is accounted to the claim (R254). A result for a tile whose ORE stream is malformed is discarded
(DESIGN CHOICE, notes/assumptions/55.md). -/
def Work.result (w : Work) (own : Option Returning) (c ch : Nat) (accum : Bool) (batch : Option (Nat × Nat)) (token rank fmt src first : Nat)
    (bs : List XBlock) : Work :=
  let y := w.d.chan c ch
  let drop := fun (last : Bool) => if last then w.dev (w.d.discardAt c batch) else w
  match y.res with
  | none => drop (first == 0)
  | some z =>
    let t := z.table
    let key := token * xtK t + rank
    let last := Nat.ble (rowBlocks (xtHidden t)) (first + bs.length)
    let buf := if accum then xtAccbuf t else xtSlotbuf t
    match Tbl.look z.expect key with
    | none => drop last
    | some weight =>
      if !z.armed || w.d.staleBatch c z.batch || w.d.staleBatch c batch || xtK t ≤ rank || buf = 0 || z.again key fmt src first bs.length ||
          (z.tilesOf accum key first bs.length).any (fun x => (w.coded x.2).2) then drop last
      else
        let w := w.landResult z accum key weight fmt first bs
        let ranges := z.ranges accum key first bs.length
        let d := ranges.foldl (fun d x => d.engineWrite x.1 x.2) (w.d.countShuttle 0x48 (b2n last) c)
        let moved := d.deepSum ranges * (if accum then 2 else 1)
        let d := if accum then d.payDeep c ranges false else d
        let d := match own with
          | some x => d.modEntry x.ring x.count (fun e => { e with res := { e.res with deep := e.res.deep + moved } })
          | none => d.account c 0 moved 0 0
        w.dev (((d.payDeep c ranges true).setChan c ch { y with res := some { z with
          got := z.got ++ [{ key := key, first := first, blocks := bs.length, fmt := fmt, src := src }] } }).signalResults c ch)

/-- The checks of a RETURN op: the table, the areas it reads, and the result tiles of the rows it sends (R185). -/
def Dev.returnPlan (d : Dev) (m : Memory) (r : Nat) (e : Entry) : Except Result (BitVec 1024 × Nat × List (Nat × Nat × Nat)) :=
  if !d.isRunning .shuttle then .error (Result.fail stRemoteFailed 0)
  else match d.table r e with
    | .error w => .error w
    | .ok y =>
      let t := y.bytes
      match firstError ([(xtLcnt t, 8 * xtSlots t), (xtLtag t, 8 * xtSlots t * xtLrows t), (xtWork t, 8 + 4 * xtSlots t)].map
          (fun a => d.area r e 16 a.1 a.2)), d.tensorBase r e 24 with
      | some w, _ => .error w
      | none, .error w => .error w
      | none, .ok p =>
        let rows := d.returnRows m t
        let grade := bits (fld e.desc 36 1) 7 6
        let stride := fld e.desc 32 4
        let slots := (rows.map (fun q => q.1)).eraseDups
        let fmt := match slots with | s :: _ => (hdrOf (d.readDev m (p.addr + s * stride) 64)).fmt | [] => 5
        let tc := ceilDiv (xtHidden t) 128
        let grids := slots.map (fun s =>
          ({ off := 24, base := p.addr + s * stride, slot := slotBytes fmt, tr := ceilDiv (rows.countP (fun q => q.1 == s)) 128, tc := tc, fmt := fmt } : Grid))
        let axis := fun (g : Grid) => isMx fmt && (List.range g.tiles).any (fun k => (hdrOf (d.readDev m (g.base + k * g.slot) 64)).axis)
        if !gradeTakes grade fmt then .error (Result.fail stOperandRefused 24)
        else match firstError (grids.map (fun g => d.gridOk r e g)) with
          | some w => .error w
          | none =>
            if grids.any (fun g => !d.headersOk m g false || axis g) then .error (Result.fail stOperandRefused 24)
            else if !slots.isEmpty && Nat.blt stride (tensorSize fmt (xtLrows t) (xtHidden t)) then .error (Result.fail stOperandRefused 32)
            else if rows.any (fun q => tagOrigin q.2.2 != d.routing.log.toNat && (d.lookup (tagOrigin q.2.2)).isNone) then
              .error (Result.fail stRemoteFailed 0xFFFF)
            else if rows.any (fun q => tagOrigin q.2.2 != d.routing.log.toNat) && (d.sendTag (d.claimOf r)).isNone then
              .error (Result.fail stRemoteFailed 0xFFFC)
            else .ok (t, fmt, rows)

/-- One result row is sent to its origin, or lands here where this module is the origin. -/
def Work.sendResult (w : Work) (c : Nat) (x : Returning) (t : BitVec 1024) (grade fmt base stride tag : Nat) (accum : Bool) (q : Nat × Nat × Nat) :
    Work × Returning :=
  let h := xtHidden t
  let lf := landFmt grade fmt
  let g : Grid := { off := 24, base := base + q.1 * stride, slot := slotBytes fmt, tr := ceilDiv (xtLrows t) 128, tc := ceilDiv h 128, fmt := fmt }
  let bs := convertRow (((List.range g.tc).map (fun j => w.d.tile w.mem g (q.2.1 / 128) j 128 128)).toArray) fmt lf h q.2.1
  let v := q.2.2
  let n := packetBlocks lf
  let w := w.dev ((w.d.countShuttle 0x40 1 c).addRead x.ring x.count (rowRanges g.base fmt h q.2.1))
  if tagOrigin v = w.d.routing.log.toNat then
    ((List.range (rowPackets lf h)).foldl (fun w i =>
      w.result (some x) c (xtXch t) accum (tagBatch v) (tagToken v) (tagRank v) lf w.d.routing.log.toNat (n * i) ((bs.drop (n * i)).take n)) w, x)
  else (List.range (rowPackets lf h)).foldl (fun (w, x) i =>
    let head := xhead 4 (grade * 64 + 16 * b2n accum) (tagBatch v) (xtXch t) (tagRank v) (tagToken v) q.1 (n * i) lf
    (w.dev (w.d.xSend x.ring x.count tag 3 (tagOrigin v) (head ++ blocksWire lf ((bs.drop (n * i)).take n))),
     { x with unacked := x.unacked ++ [(tagOrigin v, head)] })) (w, x)

/-- A RETURN op whose results are all acknowledged completes (R185). -/
def Dev.endReturn (d : Dev) (c ch : Nat) : Dev :=
  let y := d.chan c ch
  match y.ret with
  | some x =>
    if x.unacked.isEmpty || !d.runs x.ring x.count then
      let d := match (d.entry x.ring x.count).filter (fun e => e.phase == .started) with | some e => d.endOp x.ring e e.res | none => d
      d.setChan c ch { d.chan c ch with ret := none, retDone := true }
    else d
  | none => d

/-- What both RETURN ops do. -/
def returnOp (s : State) (r : Nat) (count : W32) (opcode : Nat) : Host.Outcome State Fault Refusal :=
  let d := s.dev
  match d.op r count opcode with
  | none => answer s d
  | some e =>
    let c := d.claimOf r
    if d.shuttle.chans.any (fun y => match y.2.ret with | some x => x.ring == r && x.count == count | none => false) then answer s d
    else match d.returnPlan s.mem r e with
      | .error w =>
        let d := d.finishOp r count w
        answer s (match d.table r e with
          | .ok t => d.setChan c (xtXch t.bytes) { d.chan c (xtXch t.bytes) with retDone := true }
          | .error _ => d)
      | .ok (t, fmt, rows) =>
        let base := d.cAddr r e 24
        let stride := fld e.desc 32 4
        let grids := ((rows.map (fun q => q.1)).eraseDups).map (fun k => span 24 (base + k * stride) (tensorSize fmt (rows.countP (fun q => q.1 == k)) (xtHidden t)))
        let bad := rows.any (fun q => (List.range (ceilDiv (xtHidden t) 128)).any (fun j =>
          (d.tile s.mem { off := 24, base := base + q.1 * stride, slot := slotBytes fmt, tr := 1, tc := ceilDiv (xtHidden t) 128, fmt := fmt }
            (q.2.1 / 128) j 128 128).bad))
        let tables := [(d.cAddr r e 16, 128), (xtWork t, 8), (xtLtag t, 8 * rows.length)]
        let reads := rows.flatMap (fun q => rowRanges (base + q.1 * stride) fmt (xtHidden t) q.2.1)
        begun s r e (d.mustWaitAlways grids []) (d.deepNeeds (tables ++ reads) []) (fun s =>
        let d := s.dev.take r count
        if bad then answer s ((d.finishOp r count (Result.fail stIndexFault 24)).setChan c (xtXch t) { d.chan c (xtXch t) with retDone := true })
        else
          let x : Returning := { ring := r, count := count, unacked := [] }
          let w := (Work.of s).dev (d.readTables r count tables)
          let w := w.dev (grids.foldl (fun d g => d.engineRead g.base g.slot) w.d)
          let p := rows.foldl (fun p q =>
            p.1.sendResult c p.2 t (bits (fld e.desc 36 1) 7 6) fmt base stride ((d.sendTag c).getD 0) (opcode == 0x23) q) (w, x)
          let d := p.1.d.setChan c (xtXch t) { p.1.d.chan c (xtXch t) with ret := some p.2 }
          Work.answer s (p.1.dev ((d.endReturn c (xtXch t)).signalResults c (xtXch t)).endCancels))

/-- RETURN_SLOT (R185 to R187). -/
def execReturnSlot (r : RingNo) (count : W32) (s : State) : Host.Outcome State Fault Refusal := returnOp s r.val count 0x24

/-- RETURN_ACCUM (R185, R186, R188). -/
def execReturnAccum (r : RingNo) (count : W32) (s : State) : Host.Outcome State Fault Refusal := returnOp s r.val count 0x23

/-! ## COMBINE (R189) -/

/-- SLOTBUF as a tensor. -/
def slotGrid (t : BitVec 1024) : Grid :=
  { off := 16, base := xtSlotbuf t, slot := slotBytes (xtSlotFmt t), tr := ceilDiv (xtTokens t * xtK t) 128, tc := ceilDiv (xtHidden t) 128,
    fmt := xtSlotFmt t }

/-- ROUTED as a COMBINE reads it: its entries, by token × K + rank. -/
def Dev.routes (d : Dev) (m : Memory) (t : BitVec 1024) : Array (List Byte) :=
  ((List.range (xtTokens t * xtK t)).map (fun i => d.readDev m (xtRouted t + 8 * i) 8)).toArray

/-- The result rows that a COMBINE reads: ranks with a FATE of PRIMARY or SPILLED. -/
def Dev.combineRows (d : Dev) (m : Memory) (t : BitVec 1024) : List Nat :=
  (List.range (xtTokens t * xtK t)).filter (fun q => Nat.blt (fieldAt (d.readDev m (xtRouted t + 8 * q) 8) 2 1) 128)

/-- The tiles of SLOTBUF that hold such a row, by row and column of tiles. -/
def Dev.combineTiles (d : Dev) (m : Memory) (t : BitVec 1024) : List (Nat × Nat) :=
  (((d.combineRows m t).map (· / 128)).eraseDups).flatMap (fun i => (List.range (ceilDiv (xtHidden t) 128)).map (fun j => (i, j)))

/-- The header of such a tile does not pass: another format, or a sparse one (R105, R193). -/
def Dev.slotBad (d : Dev) (m : Memory) (t : BitVec 1024) : Bool :=
  (d.combineTiles m t).any (fun x =>
    let b := d.readDev m ((slotGrid t).tileAt x.1 x.2) 64
    !(hdrOf b).passes b (fun f => f == xtSlotFmt t) false)

/-- The checks of a COMBINE: table, SLOTBUF and ROUTED, BASE where enabled, OUT, overlap, lanes. -/
def Dev.combinePlan (d : Dev) (m : Memory) (r : Nat) (e : Entry) : Plan (BitVec 1024 × Option Grid × Grid) :=
  match d.table r e with
  | .error w => .error (w, [])
  | .ok x =>
    let t := x.bytes
    let h := xtHidden t
    let o := outCtl (fld e.desc 40 1)
    let base := bit (fld e.desc 41 1) 7
    let tk := xtTokens t * xtK t
    let areas := [(xtSlotbuf t, tensorSize (xtSlotFmt t) tk h), (xtRouted t, 8 * tk)]
    let yo := d.outputGrid r e 32 (xtTokens t) h o.fmt
    let bo := d.inputGrid m r e 24 (xtTokens t) h (fun f => f == 5 || f == 6)
    let outs := outRange yo
    if o.fmt = 4 then .error (Result.fail stOperandRefused 40, [])
    else match firstError (areas.map (fun a => d.area r e 16 a.1 a.2)), firstRefusal (if base then [bo, yo] else [yo]) with
      | some w, _ => .error (w, outs)
      | none, some w => .error (w, outs)
      | none, none =>
        let g := gridOf yo
        let b := if base then some (gridOf bo) else none
        let ins := areas.map (fun a => span 16 a.1 a.2) ++ b.toList
        if b.toList.any (fun x => !d.headersOk m x false) then .error (Result.fail stOperandRefused 24, [])
        else if xtSlotbuf t = 0 then .error (Result.fail stAddrFault 16, outs)
        else if d.slotBad m t then .error (Result.fail stOperandRefused 16, [])
        else if ins.any (fun i => g.overlaps i) then .error (Result.fail stOperandRefused 32, [])
        else match d.noLane r with
          | some w => .error (w, outs)
          | none => .ok (t, b, g)

/-- The sum of one output element, before its conversion: BASE, then the landed ranks in order, in binary64. -/
def combineSum (start : Val) (terms : List (Val × Val)) : Val :=
  terms.foldl (fun s p => f64.round (s.add (p.1.mul p.2))) start

/-- BASE as loaded tiles; none without BASE_EN. -/
def Dev.combineBase (d : Dev) (m : Memory) (t : BitVec 1024) (b : Option Grid) : Array Tile :=
  match b with | some x => d.loadGrid m x (xtTokens t) (xtHidden t) | none => #[]

/-- SLOTBUF as loaded tiles. -/
def Dev.combineSlots (d : Dev) (m : Memory) (t : BitVec 1024) : Array Tile := d.loadGrid m (slotGrid t) (xtTokens t * xtK t) (xtHidden t)

/-- Output element (tok, c) before its conversion: ranks DROPPED or NONE are left out. -/
def Dev.combineVal (d : Dev) (m : Memory) (t : BitVec 1024) (b : Option Grid) : Nat → Nat → Val :=
  let k := xtK t
  let base := d.combineBase m t b
  let slots := d.combineSlots m t
  let routes := d.routes m t
  fun tok c =>
    let start := match b with | some x => (gridVal base x tok c).getD Val.zero | none => Val.zero
    combineSum start (((List.range k).filter (fun q => Nat.blt (fieldAt (routes.getD (tok * k + q) []) 2 1) 128)).map (fun q =>
      (f32.dec (fieldAt (routes.getD (tok * k + q) []) 4 4), (gridVal slots (slotGrid t) (tok * k + q) c).getD Val.zero)))

/-- The stores of output tile `n` of a COMBINE. -/
def Dev.combineWrite (d : Dev) (m : Memory) (e : Entry) (t : BitVec 1024) (b : Option Grid) (g : Grid) : Nat → List MemOp :=
  let h := xtHidden t
  let o := outCtl (fld e.desc 40 1)
  let value := d.combineVal m t b
  fun n =>
    let i := n / g.tc
    let j := n % g.tc
    d.writeTile g i j o 0 { vr := part (xtTokens t) i, vc := part h j, val := fun a c => value (128 * i + a) (128 * j + c),
                            rnd := fun a c => outRnd o e.seed.toNat (fld e.desc 44 4) ((128 * i + a) * h + 128 * j + c) }

/-- The stores of a COMBINE. -/
def Dev.combineWrites (d : Dev) (m : Memory) (e : Entry) (t : BitVec 1024) (b : Option Grid) (g : Grid) : List MemOp :=
  (List.range g.tiles).flatMap (d.combineWrite m e t b g)

/-- What a COMBINE reads: its table, ROUTED, the result rows it sums and BASE. -/
def Dev.combineReads (d : Dev) (m : Memory) (r : Nat) (e : Entry) (t : BitVec 1024) (b : Option Grid) : List (Nat × Nat) :=
  [(d.cAddr r e 16, 128), (xtRouted t, 8 * xtTokens t * xtK t)] ++
    (d.combineRows m t).flatMap (rowRanges (xtSlotbuf t) (xtSlotFmt t) (xtHidden t)) ++ b.toList.flatMap (d.gridReads m)

/-- A malformed tile that feeds output tile `n`: the operand it is of, if any (R229). -/
def Dev.combineFed (d : Dev) (m : Memory) (t : BitVec 1024) (b : Option Grid) (g : Grid) : Nat → Option Nat :=
  let base := d.combineBase m t b
  let slots := d.combineSlots m t
  let rows := d.combineRows m t
  fun n =>
    let i := n / g.tc
    let j := n % g.tc
    if (rows.filter (fun q => q / xtK t / 128 == i)).any (fun q => (gridTile slots (slotGrid t) (q / 128) j).bad) then some 16
    else if b.any (fun x => (gridTile base x i j).bad) then some 24 else none

/-- The finishing units of a claim's dies count the elements that they write, and their rounding draws (R141, R189). -/
def Dev.combineCount (d : Dev) (r : Nat) (e : Entry) (t : BitVec 1024) : Dev :=
  let dies := (d.workDies (d.claimOf r)).map (fun x => x.1)
  (List.range (xtTokens t)).foldl (fun d tok =>
    let n := tokenDie dies (xtTokens t) tok
    let d := d.count n 0x340 (xtHidden t)
    if (outCtl (fld e.desc 40 1)).rnd = 0 then d else d.count n 0x348 (xtHidden t)) d

/-- COMBINE (R189); a malformed tile leaves what it feeds untouched, and the rest exact or untouched (R229). -/
def execCombine (r : RingNo) (count : W32) (s : State) : Host.Outcome State Fault Refusal :=
  let d := s.dev
  match d.op r.val count 0x25 with
  | none => answer s d
  | some e =>
    match d.combinePlan s.mem r.val e with
    | .error x => failOut s r.val e x.1 x.2
    | .ok (t, b, g) =>
      let sb := slotGrid t
      begun s r.val e (d.mustWaitAlways (sb :: b.toList) [g]) (d.deepNeeds (d.combineReads s.mem r.val e t b) (d.gridSlots g)) (fun s =>
        let d := s.dev
        let deep := d.deepSum (d.combineReads s.mem r.val e t b) + d.gridDeepOut g
        let d' := (d.engineRead (d.cAddr r.val e 16) 128).engineRead (xtRouted t) (8 * xtTokens t * xtK t)
        let d' := (sb :: b.toList).foldl (fun d x => d.engineRead x.base (x.tiles * x.slot)) d'
        let d' := d'.engineWrite g.base (g.tiles * g.slot)
        let fed := d.combineFed s.mem t b g
        match (List.range g.tiles).findSome? fed with
        | some off =>
          let write := d.combineWrite s.mem e t b g
          let writes := (List.range g.tiles).flatMap (fun n =>
            if (fed n).isSome || !(Config.freeValue (d.draws + n)).getLsbD 0 then [] else write n)
          answerMem s (({ d' with draws := d'.draws + g.tiles }).endOp r.val e (Result.fail stIndexFault off), writes)
        | none => answerMem s ((d'.combineCount r.val e t).endOp r.val e { Result.ok with deep := deep }, d.combineWrites s.mem e t b g))

/-! ## Packets (R175 to R179, R184, R186) -/

/-- The claim a shuttle packet is for: that of its job tag. -/
def Dev.packetClaim (d : Dev) (k : Packet) : Option Nat :=
  if d.isRunning .shuttle && k.user == 1 && Nat.ble 16 k.payload.length then (d.tag k.tag).map (fun t => t.claim) else none

/-- A shuttle packet is acted on, or discarded and counted. -/
def onPacket (s : State) (k : Packet) (kind : Nat) (f : Work → Nat → Nat → Work) : Host.Outcome State Fault Refusal :=
  match s.dev.packetClaim k with
  | some c =>
    if k.xOk kind then
      let w := f (Work.of s) c k.xch
      Work.answer s (w.dev w.d.endCancels)
    else answer s (s.dev.countShuttle 0x50 1 c)
  | none => answer s (s.dev.countShuttle 0x50 1 0xFFFFFFFF)

/-- Whether the deadline of the DISPATCH that runs on a channel is reached. -/
def Dev.lateOn (d : Dev) (c ch : Nat) : Bool :=
  match (d.chan c ch).disp with
  | some x => (match d.entry x.ring x.count with | some e => deadlineReached d.now e.desc | none => false)
  | none => false

/-- An answer to an exchange op that arrives retried, or with RETRY_SEEN, sets RETRY in its record (R98, R273). -/
def Dev.xHeard (d : Dev) (p : Packet) (r : Nat) (c : W32) : Dev := if p.retried || p.retrySeen then d.markRetry (some (r, c)) else d

/-- SHUTTLE_COUNT (R176, R177): taken by the DISPATCH that runs on the channel, or held. -/
def execShuttleCount (p : Packet) (s : State) : Host.Outcome State Fault Refusal :=
  onPacket s p 1 (fun w c ch =>
    let y := w.d.chan c ch
    let open' := match y.disp with
      | some x => !x.armed && (match Tbl.look x.counts p.slog with | some m => !m.whole | none => true)
      | none => false
    match y.disp, open' with
    | some x, true =>
      (w.dev (w.d.setChan c ch { y with disp := some { x with counts := gather x.counts p.slog p 16 } })).advance c ch (w.d.lateOn c ch)
    | _, _ =>
      if match Tbl.look y.held p.slog with | some m => m.whole | none => false then w.dev (w.d.countShuttle 0x50 1 c)
      else w.dev (w.d.setChan c ch { y with held := gather y.held p.slog p 16 }))

/-- SHUTTLE_ARMED (R177, R179). -/
def execShuttleArmed (p : Packet) (s : State) : Host.Outcome State Fault Refusal :=
  onPacket s p 2 (fun w c ch =>
    let y := w.d.chan c ch
    match y.disp with
    | some x =>
      (w.dev ((w.d.xHeard p x.ring x.count).setChan c ch { y with disp := some { x with armedBy := gather x.armedBy p.slog p 0 } })).advance c ch
        (w.d.lateOn c ch)
    | none => w.dev (w.d.countShuttle 0x50 1 c))

/-- SHUTTLE_REFUSE (R175, R176): the DISPATCH completes with OPERAND_REFUSED. -/
def execShuttleRefuse (p : Packet) (s : State) : Host.Outcome State Fault Refusal :=
  onPacket s p 6 (fun w c ch =>
    match (w.d.chan c ch).disp with
    | some x => w.dev (w.d.refuseExchange c ch x (p.p 16 4))
    | none => w.dev (w.d.countShuttle 0x50 1 c))

/-- The acknowledgement of a row or result packet, for the claim it landed for: the header it answers follows its own, and RETRY_SEEN is set
where it came retried (R273). -/
def Dev.xAck (d : Dev) (c : Nat) (p : Packet) : Dev :=
  let head := slice p.payload 0 16
  d.injectFor c none (d.packet { Envelope.bound 1 1 p.tag p.sphys p.slog with retrySeen := p.retried } (xhead 5 0 none p.xch 0 0 0 0 0 ++ head))

/-- SHUTTLE_ROWS (R178, R179, R184): the blocks land in their slot with the row's tag, and are acknowledged. -/
def execShuttleRows (p : Packet) (s : State) : Host.Outcome State Fault Refusal :=
  onPacket s p 3 (fun w c ch =>
    let y := w.d.chan c ch
    let stray := fun (w : Work) => w.dev ((w.d.countShuttle 0x50 1 c).xAck c p)
    match y.disp with
    | none => stray w
    | some x =>
      let slot := p.p 8 2
      let first := p.p 10 2
      let n := min (packetBlocks x.lf) (rowBlocks (xtHidden x.table) - first)
      let key := (p.slog, slot, p.p 12 4, first)
      match x.position p.slog slot (p.p 12 4) with
      | none => stray w
      | some pos =>
        if p.slog = w.d.routing.log.toNat || first % packetBlocks x.lf ≠ 0 || n = 0 || p.payload.length ≠ 16 + n * blockBytes x.lf || x.got.contains key then stray w
        else
          let w := (w.landBlocks (x.landBase slot) x.lf (xtHidden x.table) pos first (wireBlocksOf x.lf n (p.payload.drop 16))).putTag x slot pos
            (landTag p.slog (p.p 6 2) (p.p 5 1) p.xbatch false)
          let last := rowBlocks (xtHidden x.table) ≤ first + n
          let d := (w.d.countShuttle 0x48 (b2n last) c).addWrite x.ring x.count
            (if last then rowRanges (x.landBase slot) x.lf (xtHidden x.table) pos else [])
          let d := (d.engineWrite (x.landBase slot + (pos / 128 * ceilDiv (xtHidden x.table) 128 + first / 4) * slotBytes x.lf) 64).setChan c ch
            { y with disp := some { x with got := x.got ++ [key] } }
          (w.dev (d.xAck c p)).advance c ch (w.d.lateOn c ch))

/-- SHUTTLE_RESULT (R186 to R188): the blocks land or are discarded, and are acknowledged. -/
def execShuttleResult (p : Packet) (s : State) : Host.Outcome State Fault Refusal :=
  match s.dev.packetClaim p with
  | none => answer s (s.dev.countShuttle 0x50 1 0xFFFFFFFF)
  | some c =>
    let fmt := p.p 12 4
    let n := (p.payload.length - 16) / blockBytes fmt
    let ok := p.p 0 1 == 4 && bits (p.p 1 1) 3 0 == 0 && Nat.blt (p.p 4 1) 64 && Nat.blt (p.p 5 1) 16 &&
      (fmt == 1 || fmt == 2 || fmt == 5 || fmt == 6) && n != 0 && p.payload.length == 16 + n * blockBytes fmt
    if ok then
      let w := (Work.of s).result none c p.xch (bit (p.p 1 1) 4) p.xbatch (p.p 6 2) (p.p 5 1) fmt p.slog (p.p 10 2)
        (wireBlocksOf fmt n (p.payload.drop 16))
      Work.answer s (w.dev (w.d.xAck c p).endCancels)
    else answer s (s.dev.countShuttle 0x50 1 c)

/-- SHUTTLE_ACK (R177, R185, R190): a row or result packet has been landed or discarded. -/
def execShuttleAck (p : Packet) (s : State) : Host.Outcome State Fault Refusal :=
  onPacket s p 5 (fun w c ch =>
    let y := w.d.chan c ch
    let key := (p.slog, slice p.payload 16 16)
    match y.disp.filter (fun x => x.unacked.contains key), y.ret with
    | some x, _ =>
      (w.dev ((w.d.xHeard p x.ring x.count).setChan c ch { y with disp := some { x with unacked := removeFirst key x.unacked } })).advance c ch
        (w.d.lateOn c ch)
    | none, some q =>
      w.dev (((w.d.xHeard p q.ring q.count).setChan c ch { y with ret := some { q with unacked := removeFirst key q.unacked } }).endReturn c ch)
    | none, none => w)

/-- ARM_TIMEOUT µs have passed since a DISPATCH started. -/
def Dev.armPast (d : Dev) (x : Exch) : Bool :=
  match d.entry x.ring x.count with
  | some e => d.past (e.start - e.skew) d.shuttle.armTo.toNat
  | none => false

/-- SHUTTLE_ARM_TIMEOUT (R177): another member's COUNT or ARMED has not come in time; of several, the port toward the lowest coordinate is
named. -/
def execShuttleArmTimeout (c : Fin 32) (ch : Fin 64) (s : State) : Host.Outcome State Fault Refusal :=
  let d := s.dev
  match (d.chan c.val ch.val).disp with
  | none => answer s d
  | some x =>
    let whole := fun (t : Tbl Counted) (m : Nat) => match Tbl.look t m with | some k => k.whole | none => false
    let missing := (d.xMembers (xtSet x.table)).find? (fun m => m.2 != d.self && !(whole x.counts m.1 && whole x.armedBy m.1))
    match missing.filter (fun _ => d.armPast x) with
    | some m => Work.answer s ((Work.of s).failDispatch c.val ch.val x (d.portTo m.2))
    | none => answer s d

end Sys2Proof.Machine
end

