-- ==== Sys2Proof/Machine/Time.lean ====
section
/-!
DEFINITION. The time family: hall alignment, barriers, job tags, the start and teardown of jobs, and the two global modes (chapter 15).
The spec gives the messages of this chapter no packet layout: they are operands here, and Output.message on the way out.
-/
namespace Sys2Proof.Machine

def Dev.timeRuns (d : Dev) : Bool := d.isRunning .time

def Dev.countTime (d : Dev) (off : Nat) : Dev := { d with time := { d.time with cnt := bump d.time.cnt off 1 } }

/-! ## Alignment (R337 to R341) -/

/-- The state that a module with a valid reference begins in: LOCKED for a ROOT, ACQUIRE for a FOLLOWER, FREE otherwise (Table 15.1). -/
def Dev.alignStart (d : Dev) : Dev :=
  let d := if d.time.role = 2 then d else { d with time := { d.time with depth := 0, depthExceeded := false } }
  if !d.timeRuns || d.time.refBad || d.time.role = 0 then d.setAlign .free
  else if d.time.role = 1 then d.setAlign .locked
  else d.setAlign .acquire

/-- TIMEREF_BAD (R9, R339): the timebase runs free. -/
def execTimerefBad (s : State) : Host.Outcome State Fault Refusal :=
  answer s ({ s.dev with time := { s.dev.time with refBad := true } }).alignStart

/-- TIMEREF_GOOD (R9, R339). -/
def execTimerefGood (s : State) : Host.Outcome State Fault Refusal :=
  let d := s.dev
  answer s (if d.time.refBad then ({ d with time := { d.time with refBad := false } }).alignStart else d)

/-- The follower's upstream link is up. -/
def Dev.upstream (d : Dev) : Bool := d.timeRuns && d.time.role == 2 && (d.port d.time.upPort.toNat).up && !(d.port d.time.upPort.toNat).site

/-- TIMING_EXCHANGE (R337, R338): the follower sends its request. -/
def execTimingExchange (s : State) : Host.Outcome State Fault Refusal :=
  let d := s.dev
  answer s (if d.upstream then d.emit (.message .timeRequest d.time.upPort.toNat [d.now.toNat]) else d)

def alignCode : Align → Nat
  | .free => 0 | .acquire => 1 | .locked => 2 | .holdover => 3

/-- TIMING_REQUEST_RECEIVE (R337, R338, R342): the answer carries the alignment state and depth. -/
def execTimingRequestReceive (p : Fin 48) (s : State) : Host.Outcome State Fault Refusal :=
  let d := s.dev
  answer s (if d.timeRuns && d.time.role != 0 && !(d.port p.val).site then
    d.emit (.message .timeAnswer p.val [d.now.toNat, alignCode d.time.align, d.time.depth.toNat]) else d)

/-- Twice the offset θ. -/
def theta2 (t1 t2 t3 t4 : Word) : Int := signedOf 64 ((t2 - t1) - (t4 - t3)).toNat

/-- The follower slews or steps (R338). The slew's factor is the spec's own: its size is free within ±200 ppm, its sign is θ's. -/
def Dev.discipline (d : Dev) (th2 : Int) : Dev :=
  let lim : Int := 2 * d.time.stepNs.toNat
  let step := fun (d : Dev) => (d.stepTo (d.now + BitVec.ofInt 64 (Int.tdiv th2 2))).countTime 0x60
  if lim < th2 then step d
  else if th2 < -lim then
    if d.anyClaimRuns then { d with time := { d.time with slew := -20000 } } else step d
  else
    let (v, d) := d.draw
    { d with time := { d.time with slew := Int.sign th2 * (v.toNat % 20001 : Nat) } }

/-- TIMING_ANSWER_RECEIVE (R336, R338, R339): the answer's stamps give θ; the upstream's state and depth move the alignment state. -/
def execTimingAnswerReceive (t1 t2 t3 t4 : Word) (up : Fin 4) (depth : BitVec 3) (s : State) : Host.Outcome State Fault Refusal :=
  let d := s.dev
  if d.upstream && d.time.align != .free then
    let th2 := theta2 t1 t2 t3 t4
    let locked := up.val == 2
    let dep := depth.toNat + 1
    let off := max (-32768) (min 32767 (Int.tdiv th2 2))
    let d := { d with time := { d.time with
      offset := off, depth := BitVec.ofNat 3 (min 7 dep), depthExceeded := Nat.blt 6 dep, missed := 0
      good := if th2.natAbs ≤ 20 then d.time.good + 1 else 0
      bad := if 50 < th2.natAbs then d.time.bad + 1 else 0 } }
    match d.time.align with
    | .holdover => answer s (if locked then (d.setAlign .acquire).discipline th2 else d)
    | .acquire =>
      let d := d.discipline th2
      answer s (if Nat.ble 16 d.time.good && locked && Nat.ble dep 6 then d.setAlign .locked else d)
    | _ =>
      if !locked then answer s (d.setAlign .holdover)
      else
        let d := d.discipline th2
        answer s (if 2 ≤ d.time.bad then d.setAlign .acquire else d)
  else answer s d

/-- TIMING_EXCHANGE_MISSED (R339): four in a row end LOCKED in HOLDOVER. -/
def execTimingExchangeMissed (s : State) : Host.Outcome State Fault Refusal :=
  let d := s.dev
  if d.timeRuns && d.time.role = 2 then
    let d := { d with time := { d.time with missed := d.time.missed + 1, good := 0 } }
    answer s (if 4 ≤ d.time.missed && d.time.align == .locked then d.setAlign .holdover else d)
  else answer s d

/-- SYNC_ARM (R341): TIME_SYNC_CTL.ARM is written 1. -/
def execSyncArm (s : State) : Host.Outcome State Fault Refusal :=
  viaCfg s (answer s { s.dev with time := { s.dev.time with syncArm := true } })

/-- SYNC_PULSE (R341): an armed ROOT loads its counter on the next tick (Dev.syncTick). -/
def execSyncPulse (s : State) : Host.Outcome State Fault Refusal :=
  let d := s.dev
  answer s (if d.time.role = 1 && d.time.syncArm then { d with time := { d.time with syncDue := true } } else d)

/-! ## Barriers (R327, R343 to R345) -/

/-- The running barrier of a slot. -/
def Dev.barrier (d : Dev) (slot : Nat) : Option CollRun := (d.collRun slot).filter (fun x => hOpcode x.e.desc == 0x54)

/-- A message of a barrier: its packet counts in the op's record and at the CTRL meter of its claim (R97, R249). The spec gives these packets
no layout, so that their size is open: a header and a free number of payload bytes. -/
def Dev.barrierMessage (d : Dev) (x : CollRun) (kind : CtrlMsg) (dst : Nat) (fields : List Nat) : Dev :=
  let (v, d) := d.draw
  let n := 32 + v.toNat % 2049
  ((d.modEntry x.o.ring x.o.count (fun e => { e with res := { e.res with fabric := e.res.fabric + n } })).pay x.g.claim 36 (ceilDiv n 64)).emit
    (.message kind dst fields)

/-- RELEASE goes to every child by the tree of R314. -/
def Dev.sendRelease (d : Dev) (x : CollRun) (scheduled : Bool) (value : Nat) : Dev :=
  (x.g.children d.self).foldl (fun d c => d.barrierMessage x .release c [x.g.gid, x.g.seq.toNat, b2n scheduled, value]) d

/-- The first tick of a frame at or after a value (R246). -/
def Dev.frameAtOrAfter (d : Dev) (t : Word) : Word :=
  let len := d.frames.len.toNat * 10000
  d.frames.start + BitVec.ofNat 64 (ceilDiv (t - d.frames.start).toNat (max len 1) * len)

/-- A release outside its bound is counted, and leaves the spread of R357 (R344, R358). -/
def Dev.oddRelease (d : Dev) (off : Nat) (odd : Bool) : Dev :=
  if odd then { d.countTime off with time := { (d.countTime off).time with spreadLost := true } } else d

/-- A member's release tick is known: a value of the counter where it is scheduled, else a physical tick (R336, R343). A late one is counted. -/
def Dev.setRelease (d : Dev) (slot : Nat) (late scheduled : Bool) (at' : Tick) : Dev :=
  match d.barrier slot with
  | none => d
  | some x => (d.setColl slot (some { x.o with release := some at', scheduled := scheduled })).oddRelease 0x70 late

/-- A node whose own barrier has started and whose children have all arrived: ARRIVE goes up, or the root releases. -/
def Dev.barrierStep (d : Dev) (slot : Nat) : Dev :=
  match d.barrier slot with
  | none => d
  | some x =>
    if x.o.presentSent || !(x.g.children d.self).all (fun c => x.o.arrived.contains c) then d
    else
      let d := d.setColl slot (some { x.o with presentSent := true })
      match x.g.parent d.self with
      | some p => d.barrierMessage x .arrive p [x.g.gid, x.g.seq.toNat]
      | none =>
        if x.g.lo = x.g.hi && !d.time.barAlign then
          (d.sendRelease x false d.time.barHold.toNat).setRelease slot false false (d.phys + d.time.barHold.setWidth 64)
        else
          let t := d.now + d.time.barMargin.setWidth 64
          let t := if d.time.barAlign then d.frameAtOrAfter t else t
          (d.sendRelease x true t.toNat).setRelease slot false true t

/-- COLL_BARRIER (R327, R343, R345, R347): it takes its slot's SEQ and waits for its tree. -/
def execCollBarrier (r : RingNo) (count : W32) (s : State) : Host.Outcome State Fault Refusal :=
  let d := s.dev
  match d.op r.val count 0x54 with
  | none => answer s d
  | some e =>
    let slot := cSlot e
    match d.collGroup r.val e with
    | none => failOp s r.val e
        (if d.isRunning .coll && d.timeRuns then Result.fail stOperandRefused 36 else Result.fail stRemoteFailed 0)
    | some g =>
      match g.op.filter (fun o => o.ring == r.val && o.count == count) with
      | some _ => answer s d
      | none =>
        let d := (d.take r.val count).takeSeq slot g
        if !d.isRunning .coll || !d.timeRuns then answer s (d.finishOp r.val count (Result.fail stRemoteFailed 0))
        else match d.sendTag (d.claimOf r.val) with
          | none => answer s (d.finishOp r.val count (Result.fail stRemoteFailed 0xFFFC))
          | some t =>
            if g.abortNext then answerMem s (d.bornAborted r.val e slot [])
            else answer s ((d.setColl slot (some { CollOp.fresh r.val count t 0 d.phys with arrived := g.arriveNext })).barrierStep slot)

/-- The VALID slot that holds a GID. -/
def Dev.slotOf (d : Dev) (gid : Nat) : Option (Nat × Group) := d.coll.groups.find? (fun e => e.2.gid == gid)

/-- How a barrier message's SEQ stands: 0 current, 1 next, 2 neither. -/
def Group.seqAge (g : Group) (seq : BitVec 16) : Nat := if seq = g.seq then 0 else if seq = g.seq + 1 then 1 else 2

/-- BARRIER_ARRIVE_RECEIVE (R343): a child's ARRIVE lands, for the running barrier or for the next. -/
def execBarrierArriveReceive (gid seq : BitVec 16) (src : BitVec 20) (s : State) : Host.Outcome State Fault Refusal :=
  let d := s.dev
  match d.slotOf gid.toNat with
  | none => answer s (d.countColl 0x58 1)
  | some (slot, g) =>
    if !(g.children d.self).contains src.toNat then answerMem s (d.abortColl slot 4 none)
    else match g.seqAge seq, d.barrier slot with
      | 0, some x =>
        answer s ((d.setColl slot (some { x.o with
          arrived := if x.o.arrived.contains src.toNat then x.o.arrived else x.o.arrived ++ [src.toNat], heard := d.phys })).barrierStep slot)
      | 1, _ => answer s (d.setGroup slot { g with arriveNext := if g.arriveNext.contains src.toNat then g.arriveNext else g.arriveNext ++ [src.toNat] })
      | _, _ => answer s (d.countColl 0x58 1)

/-- BARRIER_RELEASE_RECEIVE (R343, R344): the parent's RELEASE fixes the release tick, and goes on to the children. -/
def execBarrierReleaseReceive (p : Fin 48) (gid seq : BitVec 16) (src : BitVec 20) (scheduled : Bool) (value : Word) (s : State) :
    Host.Outcome State Fault Refusal :=
  let d := s.dev
  match d.slotOf gid.toNat with
  | none => answer s (d.countColl 0x58 1)
  | some (slot, g) =>
    if g.parent d.self ≠ some src.toNat then answerMem s (d.abortColl slot 4 none)
    else match g.seqAge seq, d.barrier slot with
      | 0, some x =>
        let d := d.setColl slot (some { x.o with heard := d.phys })
        if scheduled then
          let late := decide (0 < (d.now - value).toNat) && decide ((d.now - value).toNat < 2 ^ 63)
          answer s ((d.sendRelease x true value.toNat).setRelease slot late true (if late then d.now else value))
        else
          let delay := (d.port p.val).delay.toNat
          let late := decide (value.toNat < delay)
          let left := value.toNat - delay
          answer s ((d.sendRelease x false left).setRelease slot late false (d.phys + BitVec.ofNat 64 left))
      | _, _ => answer s (d.countColl 0x58 1)

/-- The counter has reached a value. -/
def reached (now t : Tick) : Bool := decide ((now - t).toNat < 2 ^ 63)

/-- The release tick of a barrier has come. -/
def Dev.releaseDue (d : Dev) (o : CollOp) : Bool := o.release.any (reached (if o.scheduled then d.now else d.phys))

/-- BARRIER_RELEASE_TICK (R344, R345): the barrier is released, and its op is done; a scheduled release while not LOCKED is counted. -/
def execBarrierReleaseTick (slot : Fin 64) (s : State) : Host.Outcome State Fault Refusal :=
  let d := s.dev
  match d.barrier slot.val with
  | some x =>
    answer s (if d.releaseDue x.o then
      (((d.setColl slot.val none).oddRelease 0x78 (x.o.scheduled && d.time.align != .locked)).endOp x.o.ring x.e x.e.res) else d)
  | none => answer s d

/-! ## Tags (R346 to R348, R351) -/

/-- A tag command ends with a reason. -/
def Dev.tagResult (d : Dev) (why : Nat) : Dev := { d with time := { d.time with tagReason := reason16 why } }

/-- TAG_ASSIGN. -/
def Dev.tagAssign (d : Dev) : Dev :=
  let t := d.time.tagSel.toNat
  let c := d.time.tagSelClaim.toNat
  if !d.timeRuns then d.tagResult 0x24F6
  else if t = 0 then d.tagResult 0x2413
  else if (d.tag t).any (fun x => x.st == .draining) then d.tagResult 0x2412
  else if (d.tag t).isSome then d.tagResult 0x2410
  else if (d.currentTag c).isSome then d.tagResult 0x2411
  else if !d.isRunning (claimBlock c) then d.tagResult 0x24F6
  else (d.tagTo t (some { st := .assigned, claim := c, attempt := 0, gid := 0, go := none, since := d.phys, seen := d.phys })).tagResult 0

/-- TAG_UNASSIGN. -/
def Dev.tagUnassign (d : Dev) : Dev :=
  let t := d.time.tagSel.toNat
  if !d.timeRuns then d.tagResult 0x24F6
  else if (d.tag t).any (fun x => x.st == .assigned) then (d.tagTo t none).tagResult 0
  else d.tagResult 0x2414

/-- A STARTING or ACTIVE tag moves to DRAINING. -/
def Dev.drainTag (d : Dev) (t : Nat) : Dev :=
  match (d.tag t).filter (fun x => x.st == .starting || x.st == .active) with
  | some x => d.tagTo t (some { x with st := .draining, since := d.phys })
  | none => d

/-- TAG_REVOKE. -/
def Dev.tagRevoke (d : Dev) : Dev :=
  let t := d.time.tagSel.toNat
  if !d.timeRuns then d.tagResult 0x24F6
  else if (d.tag t).any (fun x => x.st == .starting || x.st == .active) then (d.drainTag t).tagResult 0
  else d.tagResult 0x2414

/-- TAG_QUERY. -/
def Dev.tagQuery (d : Dev) : Dev :=
  let t := d.tag d.time.tagSel.toNat
  if !d.timeRuns then d.tagResult 0x24F6
  else ({ d with time := { d.time with
    tagState := BitVec.ofNat 3 (tagCode t), tagClaim := BitVec.ofNat 5 ((t.map (fun (x : Tag) => x.claim)).getD 0) } }).tagResult 0

def execTagAssign (s : State) : Host.Outcome State Fault Refusal := viaCfg s (answer s s.dev.tagAssign)
def execTagUnassign (s : State) : Host.Outcome State Fault Refusal := viaCfg s (answer s s.dev.tagUnassign)
def execTagRevoke (s : State) : Host.Outcome State Fault Refusal := viaCfg s (answer s s.dev.tagRevoke)
def execTagQuery (s : State) : Host.Outcome State Fault Refusal := viaCfg s (answer s s.dev.tagQuery)

/-! ## Jobs (R349 to R351) -/

/-- The children of a member in the primary tree: bolt roots under the root, then a row, then columns. -/
def Group.jobChildren (g : Group) (p : Nat) : List Nat :=
  let bolts := if p = g.root then ((List.range (g.hi - g.lo)).map (fun i => coord (g.lo + 1 + i) g.r0 g.c0)) else []
  let row := if colOf p = g.c0 ∧ rowOf p = g.r0 then g.cols.tail.map (fun c => coord (boltOf p) g.r0 c) else []
  let col := if rowOf p = g.r0 then g.rows.tail.map (fun r => coord (boltOf p) r (colOf p)) else []
  bolts ++ row ++ col

/-- The parent in the primary tree. -/
def Group.jobParent (g : Group) (p : Nat) : Option Nat :=
  if rowOf p ≠ g.r0 then some (coord (boltOf p) g.r0 (colOf p))
  else if colOf p ≠ g.c0 then some (coord (boltOf p) g.r0 g.c0)
  else if boltOf p ≠ g.lo then some g.root else none

/-- A message to members. -/
def Dev.tell (d : Dev) (kind : CtrlMsg) (to' : List Nat) (fields : List Nat) : Dev := to'.foldl (fun d p => d.emit (.message kind p fields)) d

/-- The job record of a tag. -/
def Dev.job (d : Dev) (t : BitVec 16) (teardown : Bool) : Option Job := d.time.jobs.find? (fun j => j.tag == t && j.teardown == teardown)

def Dev.setJob (d : Dev) (j : Job) : Dev :=
  { d with time := { d.time with jobs := d.time.jobs.filter (fun k => !(k.tag == j.tag && k.teardown == j.teardown)) ++ [j] } }

def Dev.dropJob (d : Dev) (t : BitVec 16) (teardown : Bool) : Dev :=
  { d with time := { d.time with jobs := d.time.jobs.filter (fun k => !(k.tag == t && k.teardown == teardown)) } }

/-- The root's record of the outcome, with vector 5 (Table 15.9). -/
def Dev.outcome (d : Dev) (code cause : Nat) (who : BitVec 20) : Dev :=
  ({ d with time := { d.time with jobOutcome := BitVec.ofNat 3 code, jobCause := BitVec.ofNat 8 cause, jobWho := who } }).raise 5

/-- A tag that is STARTING goes back to ASSIGNED. -/
def Dev.unstart (d : Dev) (t : Nat) (x : Tag) : Dev := d.tagTo t (some { x with st := .assigned, go := none, since := d.phys })

/-- The acceptance test of Table 15.4: the tag moves to STARTING, or the cause. -/
def Dev.acceptJob (d : Dev) (tag : BitVec 16) (gid : BitVec 16) (attempt : BitVec 8) : Dev × Nat :=
  let t := tag.toNat
  match d.tag t with
  | none => (d, 2)
  | some x =>
    if x.st == .draining || d.time.tags.any (fun e => e.1 != t && e.2.claim == x.claim && e.2.st == .draining) then (d, 1)
    else if x.st == .active || (x.st == .starting && Nat.blt (x.attempt - attempt).toNat 128) then (d, 3)
    else
      let d := if x.st == .starting then d.unstart t x else d
      match d.slotOf gid.toNat with
      | none => (d, 4)
      | some (_, g) =>
        if g.claim != x.claim then (d, 5)
        else if 1 < g.members && d.time.align != .locked then (d, 6)
        else (d.tagTo t (some { x with st := .starting, attempt := attempt, gid := gid, go := none, since := d.phys }), 0)

/-- The root gives up a start: ABORT goes down the alternate tree, and its own tag returns to ASSIGNED. -/
def Dev.abandonStart (d : Dev) (j : Job) (code cause : Nat) (who : BitVec 20) : Dev :=
  let d := d.dropJob j.tag false
  let d := match d.slotOf j.gid.toNat with
    | some (_, g) => d.tell .jobAbort (g.children d.self) [j.tag.toNat, j.gid.toNat, j.attempt.toNat]
    | none => d
  let d := match (d.tag j.tag.toNat).filter (fun x => x.st == .starting && x.attempt == j.attempt) with
    | some x => d.unstart j.tag.toNat x
    | none => d
  d.outcome code cause who

/-- The answers at hand decide: the root sends GO or gives up; a member answers its parent once its children have. -/
def Dev.jobStep (d : Dev) (j : Job) : Dev :=
  match d.slotOf j.gid.toNat with
  | none => d
  | some (_, g) =>
    let kids := g.jobChildren d.self
    let all := kids.all (fun c => j.heard.any (fun h => h.toNat == c))
    if j.root then
      match j.refused with
      | some (who, cause) => d.abandonStart j 2 cause who
      | none =>
        if j.accepted = g.members then
          let rel := d.now + d.time.barMargin.setWidth 64
          let d := match d.tag j.tag.toNat with | some x => d.tagTo j.tag.toNat (some { x with go := some rel }) | none => d
          let d := d.tell .jobGo (kids ++ g.children d.self).eraseDups [j.tag.toNat, j.gid.toNat, j.attempt.toNat, rel.toNat]
          (d.dropJob j.tag false).outcome 1 0 0
        else d
    else if all then
      let d := d.dropJob j.tag false
      d.tell .jobAnswer (g.jobParent d.self).toList
        ([j.tag.toNat, j.attempt.toNat, j.accepted] ++ (match j.refused with | some (w, c) => [w.toNat, c] | none => [0, 0]) ++
          [(j.missing.map (fun m => m.toNat + 1)).getD 0])
    else d

/-- Why a JOB_CMD is refused, or 0. -/
def Dev.jobReason (d : Dev) (slot : Nat) : Nat :=
  if !d.timeRuns then 0x24F6
  else if !(d.group slot).any (fun g => d.self == g.root) then 0x2415
  else if d.time.jobs.any (fun j => j.root) then 0x2416
  else 0

/-- JOB_START (R349, R350). -/
def Dev.jobStart (d : Dev) (tag : BitVec 16) (slot : Nat) : Dev :=
  let why := d.jobReason slot
  if why ≠ 0 then d.tagResult why
  else match d.group slot with
    | none => d
    | some g =>
      let d := ({ d with time := { d.time with attempt := d.time.attempt + 1 } }).tagResult 0
      let gid := BitVec.ofNat 16 g.gid
      let a := d.time.attempt
      let p := d.acceptJob tag gid a
      let who := BitVec.ofNat 20 d.self
      if p.2 ≠ 0 then p.1.outcome 2 p.2 who
      else
        let j : Job := {
          root := true, tag := tag, gid := gid, teardown := false, attempt := a, heard := [], accepted := 1, refused := none, missing := none,
          since := d.phys }
        ((p.1.setJob j).tell .jobStart (g.jobChildren d.self) [tag.toNat, g.gid, a.toNat]).jobStep j

def execJobStart (tag : BitVec 16) (slot : Fin 64) (s : State) : Host.Outcome State Fault Refusal := viaCfg s (answer s (s.dev.jobStart tag slot.val))

/-- JOB_START_RECEIVE (R349, R350): the member tests, passes START on, and answers with its children. -/
def execJobStartReceive (src : BitVec 20) (tag gid : BitVec 16) (attempt : BitVec 8) (s : State) : Host.Outcome State Fault Refusal :=
  let d := s.dev
  let p := d.acceptJob tag gid attempt
  match p.1.slotOf gid.toNat with
  | none => answer s (p.1.tell .jobAnswer [src.toNat] [tag.toNat, attempt.toNat, 0, d.self, p.2, 0])
  | some (_, g) =>
    let j : Job := {
      root := false, tag := tag, gid := gid, teardown := false, attempt := attempt, heard := [], accepted := b2n (p.2 == 0)
      refused := if p.2 = 0 then none else some (BitVec.ofNat 20 d.self, p.2)
      missing := none, since := d.phys }
    answer s (((p.1.setJob j).tell .jobStart (g.jobChildren d.self) [tag.toNat, gid.toNat, attempt.toNat]).jobStep j)

/-- JOB_ANSWER_RECEIVE (R349): a child's combined answer. -/
def execJobAnswerReceive (src : BitVec 20) (tag : BitVec 16) (attempt : BitVec 8) (accepted : Nat) (refused : Option (BitVec 20 × BitVec 8))
    (missing : Option (BitVec 20)) (s : State) : Host.Outcome State Fault Refusal :=
  let d := s.dev
  match (d.job tag false).filter (fun j => j.attempt == attempt && !j.heard.contains src) with
  | none => answer s d
  | some j =>
    let low := match j.missing, missing with | some a, some b => some (if a ≤ b then a else b) | a, b => a <|> b
    let j := { j with
      heard := j.heard ++ [src], accepted := j.accepted + accepted
      refused := j.refused <|> refused.map (fun r => (r.1, r.2.toNat))
      missing := low }
    answer s ((d.setJob j).jobStep j)

/-- The lowest coordinate among the primary children that have not answered, and the members those that did have named. -/
def Dev.lowestMissing (d : Dev) (j : Job) : Option (BitVec 20) :=
  match d.slotOf j.gid.toNat with
  | none => j.missing
  | some (_, g) =>
    let silent := (g.jobChildren d.self).filter (fun c => j.heard.all (fun h => h.toNat != c))
    let l := silent ++ (j.missing.map (fun m => m.toNat)).toList
    match l with
    | [] => none
    | a :: t => some (BitVec.ofNat 20 (t.foldl min a))

/-- START_TO, times a half as often as said, has passed since a tick. -/
def Dev.startPast (d : Dev) (t : Tick) (halves : Nat) : Bool := d.past t (halves * d.time.startTo.toNat / 2)

/-- JOB_CHILD_WAIT_TIMEOUT (R349): START_TO ÷ 2 has passed; the node answers and names its lowest missing child. -/
def execJobChildWaitTimeout (tag : BitVec 16) (s : State) : Host.Outcome State Fault Refusal :=
  let d := s.dev
  match (d.job tag false).filter (fun j => !j.root && d.startPast j.since 1) with
  | none => answer s d
  | some j =>
    match d.slotOf j.gid.toNat with
    | none => answer s d
    | some (_, g) =>
      let j := { j with
        missing := d.lowestMissing j
        heard := (g.jobChildren d.self).map (BitVec.ofNat 20) }
      answer s ((d.setJob j).jobStep j)

/-- JOB_START_TIMEOUT (R349): START_TO has passed without every acceptance. -/
def execJobStartTimeout (s : State) : Host.Outcome State Fault Refusal :=
  let d := s.dev
  match d.time.jobs.find? (fun j => j.root && !j.teardown && d.startPast j.since 2) with
  | some j => answer s (d.abandonStart j 3 0 ((d.lowestMissing j).getD 0))
  | none => answer s d

/-- JOB_GO_RECEIVE (R349): the first copy of GO sets the tick, and goes on down both trees. -/
def execJobGoReceive (tag gid : BitVec 16) (attempt : BitVec 8) (rel : Word) (s : State) : Host.Outcome State Fault Refusal :=
  let d := s.dev
  match (d.tag tag.toNat).filter (fun x => x.st == .starting && x.attempt == attempt && x.go.isNone), d.slotOf gid.toNat with
  | some x, some (_, g) =>
    answer s ((d.tagTo tag.toNat (some { x with go := some rel })).tell .jobGo (g.jobChildren d.self ++ g.children d.self).eraseDups
      [tag.toNat, gid.toNat, attempt.toNat, rel.toNat])
  | _, _ => answer s d

/-- JOB_ABORT_RECEIVE (R349): the STARTING tag returns to ASSIGNED, and ABORT goes on down the alternate tree. -/
def execJobAbortReceive (tag gid : BitVec 16) (attempt : BitVec 8) (s : State) : Host.Outcome State Fault Refusal :=
  let d := s.dev
  let d := match (d.tag tag.toNat).filter (fun x => x.st == .starting && x.attempt == attempt) with
    | some x => (d.unstart tag.toNat x).dropJob tag false
    | none => d
  match d.slotOf gid.toNat with
  | some (_, g) => answer s (d.tell .jobAbort (g.children d.self) [tag.toNat, gid.toNat, attempt.toNat])
  | none => answer s d

/-- TAG_ACTIVATE (R349): a STARTING tag whose GO tick the counter has reached becomes ACTIVE. -/
def execTagActivate (tag : BitVec 16) (s : State) : Host.Outcome State Fault Refusal :=
  let d := s.dev
  match (d.tag tag.toNat).filter (fun x => x.st == .starting && x.go.any (reached d.now)) with
  | some x => answer s (d.tagTo tag.toNat (some { x with st := .active, since := d.phys }))
  | none => answer s d

/-- STARTING_TAG_TIMEOUT (R350): neither GO nor ABORT came within 2 × START_TO. -/
def execStartingTagTimeout (tag : BitVec 16) (s : State) : Host.Outcome State Fault Refusal :=
  let d := s.dev
  match (d.tag tag.toNat).filter (fun x => x.st == .starting && x.go.isNone && d.startPast x.since 4) with
  | some x => answer s (d.unstart tag.toNat x)
  | none => answer s d

/-! ### Teardown (R351) -/

/-- The root's teardown ends where all n members have reported. -/
def Dev.teardownStep (d : Dev) (j : Job) : Dev :=
  match d.slotOf j.gid.toNat with
  | some (_, g) => if j.root && j.heard.length = g.members then (d.dropJob j.tag true).outcome 4 0 0 else d
  | none => d

/-- This module's tag is FREE: the root counts itself, a member reports up the primary tree. -/
def Dev.reportFree (d : Dev) (tag : BitVec 16) : Dev :=
  match d.job tag true with
  | none => d
  | some j =>
    if j.root then
      let j := { j with heard := j.heard ++ [BitVec.ofNat 20 d.self], since := d.phys }
      (d.setJob j).teardownStep j
    else match d.slotOf j.gid.toNat with
      | some (_, g) => (d.dropJob tag true).tell .jobFree (g.jobParent d.self).toList [tag.toNat, j.gid.toNat, d.self]
      | none => d.dropJob tag true

/-- The tag is revoked here for a teardown. -/
def Dev.revokeHere (d : Dev) (j : Job) (g : Group) : Dev :=
  let d := (d.setJob j).tell .jobRevoke (g.jobChildren d.self ++ g.children d.self).eraseDups [j.tag.toNat, j.gid.toNat]
  let d := d.drainTag j.tag.toNat
  if (d.tag j.tag.toNat).isNone then d.reportFree j.tag else d

/-- JOB_TEARDOWN (R351). -/
def Dev.jobTeardown (d : Dev) (tag : BitVec 16) (slot : Nat) : Dev :=
  let why := d.jobReason slot
  if why ≠ 0 then d.tagResult why
  else match d.group slot with
    | none => d
    | some g =>
      (d.tagResult 0).revokeHere { root := true, tag := tag, gid := BitVec.ofNat 16 g.gid, teardown := true, attempt := 0, heard := [],
                                   accepted := 0, refused := none, missing := none, since := d.phys } g

def execJobTeardown (tag : BitVec 16) (slot : Fin 64) (s : State) : Host.Outcome State Fault Refusal :=
  viaCfg s (answer s (s.dev.jobTeardown tag slot.val))

/-- JOB_REVOKE_RECEIVE (R351): the first copy drains the tag. -/
def execJobRevokeReceive (tag gid : BitVec 16) (s : State) : Host.Outcome State Fault Refusal :=
  let d := s.dev
  match d.job tag true, d.slotOf gid.toNat with
  | none, some (_, g) =>
    answer s (d.revokeHere { root := false, tag := tag, gid := gid, teardown := true, attempt := 0, heard := [], accepted := 0,
                             refused := none, missing := none, since := d.phys } g)
  | _, _ => answer s d

/-- An op that started under a tag still runs. -/
def Dev.tagInUse (d : Dev) (t : Nat) : Bool :=
  d.xbar.rem.any (fun o => o.tag.toNat == t && d.remLive o) ||
    d.coll.groups.any (fun e => match d.collRun e.1 with | some x => x.o.tag.toNat == t | none => false) ||
    d.ports.any (fun p => p.2.flights.any (fun f => f.packet.tag == t && f.packet.slog == d.routing.log.toNat))

/-- JOB_FREE_REPORT_RECEIVE (R351): a member's report reaches the root, or goes on up. -/
def execJobFreeReportReceive (tag gid : BitVec 16) (member : BitVec 20) (s : State) : Host.Outcome State Fault Refusal :=
  let d := s.dev
  match (d.job tag true).filter (fun j => j.root) with
  | some j =>
    if j.heard.contains member then answer s d
    else
      let j := { j with heard := j.heard ++ [member] }
      answer s ((d.setJob j).teardownStep j)
  | none => match d.slotOf gid.toNat with
    | some (_, g) => answer s (d.tell .jobFree (g.jobParent d.self).toList [tag.toNat, gid.toNat, member.toNat])
    | none => answer s d

/-- TEARDOWN_TIMEOUT (R351): START_TO after its own tag became FREE, some member has not reported. -/
def execTeardownTimeout (s : State) : Host.Outcome State Fault Refusal :=
  let d := s.dev
  match d.time.jobs.find? (fun j => j.root && j.teardown && j.heard.contains (BitVec.ofNat 20 d.self) && d.startPast j.since 2) with
  | none => answer s d
  | some j =>
    let who := match d.slotOf j.gid.toNat with
      | some (_, g) => ((List.range g.members).map g.at).find? (fun p => j.heard.all (fun h => h.toNat != p))
      | none => none
    answer s ((d.dropJob j.tag true).outcome 5 0 (BitVec.ofNat 20 (who.getD 0)))

/-! ## The global modes (R353) -/

/-- Why a write of TIME_REPRO is not applied, or 0. -/
def Dev.reproReason (d : Dev) (bits' pace : Bool) : Nat :=
  let dies := ((List.range 4).filter (fun n => !(d.die n).contained)).map d.die
  if d.anyClaimRuns then 0x2420
  else if pace && !bits' then 0x2421
  else if pace && dies.any (fun x => x.gov.mode != 1 || x.shownState != 7) then 0x2422
  else if pace && dies.any (fun x => dies.any (fun y => x.govReg.pace != y.govReg.pace || x.govReg.supply != y.govReg.supply)) then 0x2423
  else 0

/-- TIME_REPRO_WRITE (R353): when Fixed-Pace ends, lending stays as it is until the next frame (R253). -/
def execTimeReproWrite (v : W32) (s : State) : Host.Outcome State Fault Refusal :=
  viaCfg s (
    let d := s.dev
    let why := d.reproReason (v.getLsbD 0) (v.getLsbD 1)
    if why = 0 then
      answer s { d with
        fixedBits := v.getLsbD 0, fixedPace := v.getLsbD 1
        frames := if d.fixedPace && !v.getLsbD 1 then { d.frames with lendState := 2 } else d.frames }
    else answer s { d with time := { d.time with reproReject := true, reproReason := reason16 why } })

/-- TIME_BAR_CFG_WRITE (R362): out of range, ignored with TIME_STS.REJECT. -/
def execTimeBarCfgWrite (v : W32) (s : State) : Host.Outcome State Fault Refusal :=
  viaCfg s (
    let d := s.dev
    let hold := bits v.toNat 27 16
    let margin := bits v.toNat 15 0
    if Nat.ble 1300 hold && Nat.ble 1000 margin then
      answer s { d with time := { d.time with barAlign := v.getLsbD 31, barHold := BitVec.ofNat 12 hold, barMargin := BitVec.ofNat 16 margin } }
    else answer s (d.setBlock .time { d.block .time with reject := true }))

end Sys2Proof.Machine
end

