-- ==== Sys2Proof/Machine/Service.lean ====
section
/-!
DEFINITION. What a fault, a notice or a drained tag does to the ops that run: the outputs an op leaves undefined, the engines' stops, and
the commands that use them (R281, R330, R347, R385 to R387).
-/
namespace Sys2Proof.Machine

/-! ## Ops that something else ends -/

/-- The outputs that the checks of a lane op name. -/
def planOuts : Except (Result × List (Nat × Nat)) LaneRun → List (Nat × Nat)
  | .ok l => [l.y.range]
  | .error x => x.2

/-- The DISPATCH of a claim that an entry runs, with its channel. -/
def Dev.runningExch (d : Dev) (r : Nat) (e : Entry) : Option Exch :=
  d.shuttle.chans.findSome? (fun y => y.2.disp.filter (fun x => x.ring == r && x.count == e.count))

/-- The output ranges of a started op, undefined once it ends with a status of class 3 (R99); a collective op's DST stands in the
engine's own abort. -/
def Dev.outputs (d : Dev) (m : Memory) (r : Nat) (e : Entry) : List (Nat × Nat) :=
  let x := e.desc
  match hOpcode x with
  | 0x06 => (match d.access r e 16 8 8 with | .ok p => [(p.addr, 8)] | .error _ => [])
  | 0x10 => planOuts (d.matmulPlan m r e false)
  | 0x12 => planOuts (d.convPlan m r e)
  | 0x13 => planOuts (d.matmulPlan m r e true)
  | 0x14 => (match d.finishPlan m r e with | .ok f => [f.y.range] | .error w => w.2)
  | 0x15 => outRange (d.outputGrid r e 16 (fld x 32 3) (fld x 35 3) (outCtl (fld x 38 1)).fmt)
  | 0x20 => (match d.assayPlan m r e with
      | .ok p => (p.2.filter (fun a => a.1 != 24)).map (fun a => (a.2.addr, a.2.len))
      | .error w => w.2)
  | 0x21 => (match d.sluicePlan r e with
      | .ok p => (p.filter (fun a => a.1 != 16)).map (fun a => (a.2.addr, a.2.len))
      | .error w => w.2)
  | 0x22 => (match d.runningExch r e with
      | some o => o.outs
      | none => match d.table r e with | .ok t => (dispatchOuts t.bytes).take 5 | .error _ => [])
  | 0x25 => (match d.combinePlan m r e with | .ok p => [p.2.2.range] | .error w => w.2)
  | 0x33 =>
    let unit := if bit (fld x 40 1) 7 then (match d.access r e 16 1 1 with | .ok p => p.obj.unitSize | .error _ => 1) else 1
    (match d.access r e 24 (fld x 32 8 * unit) 1 with | .ok p => [(p.addr, fld x 32 8 * unit)] | .error _ => [])
  | 0x41 => (match d.array r e 16 (fld x 44 4) 64 with | .ok p => [(p.addr, p.len)] | .error _ => [])
  | 0x42 => if bit (fld x 41 1) 7 then (match d.array r e 16 8 8 with | .ok p => [(p.addr, p.len)] | .error _ => []) else []
  | _ => []

/-- The started ops of a device that another state of it shows ended with a status of class 3. -/
def Dev.killed (d d' : Dev) : List (Nat × Entry) :=
  d.rings.flatMap (fun g => (g.2.ents.filter (fun e => e.phase == .started &&
    (match d'.entry g.1 e.count with | some x => x.phase != .started && classOf x.res.status == 3 | none => false))).map (fun e => (g.1, e)))

/-- What follows where a fault has ended ops: the engines forget them, a collective op is aborted at its neighbours, and their outputs
are undefined. -/
def Dev.reap (d d' : Dev) (m : Memory) : Dev × List MemOp :=
  let dead := d.killed d'
  let p := dead.foldl (fun (p : Dev × List MemOp) x =>
    let q := (p.1.leaveChans x.1 x.2.count).scramble (d.outputs m x.1 x.2)
    (q.1, p.2 ++ q.2)) (d'.sweepRem, [])
  let runs := d.coll.groups.filterMap (fun g => d.collRun g.1)
  runs.foldl (fun (p : Dev × List MemOp) x =>
    if dead.any (fun y => y.1 == x.o.ring && y.2.count == x.o.count) then
      let q := p.1.tellAbort x 6 none
      (q.1, p.2 ++ q.2)
    else p) p

/-- The answer with what follows from the ops that a fault ended. -/
def reapTo (s : State) (d : Dev) : Host.Outcome State Fault Refusal := answerMem s (s.dev.reap d s.mem)

/-! ## The engines' stops -/

/-- Running collective ops that meet a condition abort with cause 6 (R330, R331, R362). -/
def Dev.abortSlots (d : Dev) (p : CollRun → Bool) : Dev × List MemOp :=
  (d.coll.groups.map (fun g => g.1)).foldl (fun (q : Dev × List MemOp) n =>
    match (q.1.collRun n).filter p with
    | some _ => let z := q.1.abortColl n 6 none; (z.1, q.2 ++ z.2)
    | none => q) (d, [])

/-- What an engine block's stop does to its running ops: those of the crossbar run on to their answers or their timeouts (R307). -/
def Dev.stopEngine (d : Dev) (m : Memory) (b : BlockId) : Dev × List MemOp :=
  match b with
  | .coll => d.abortSlots (fun _ => true)
  | .shuttle => d.reap d.stopShuttle m
  | _ => (d, [])

/-- A claim left RUNNING: its collective ops abort with cause 6 (R330). -/
def Dev.abortClaim (d : Dev) (c : Nat) : Dev × List MemOp := d.abortSlots (fun x => x.g.claim == c)

/-- A RUNNING claim moves to QUIESCING (R245, R330). -/
def Dev.leaveClaim (d : Dev) (m : Memory) (c : Nat) : Dev × List MemOp :=
  let b := claimBlock c
  let d' := (d.moveBlock b { d.block b with st := .quiescing }).modClaim c (fun k => { k with leaving := false })
  let x := (d'.claimLeft c).abortClaim c
  let y := d.reap x.1 (m.applyAll x.2)
  (y.1, x.2 ++ y.2)

/-! ## Faults -/

/-- DIE_THERMAL_TRIP (R14): the die's domain is removed, THERM_N asserts, and the die is contained without being recorded. -/
def execDieThermalTrip (n : Fin 4) (s : State) : Host.Outcome State Fault Refusal :=
  let d := s.dev
  if (d.die n.val).on then
    let d := { d with power := { d.power with thermTrip := true, thermN := true } }
    let d := (d.pwrAlarm n.val).containDie n.val true
    reapTo s (d.modDie n.val (fun x => { x with tripped := true }))
  else answer s d

/-- DIE_CONTAIN (R385, R386): a die is contained for a fault other than a thermal trip. -/
def execDieContain (n : Fin 4) (s : State) : Host.Outcome State Fault Refusal :=
  if s.dev.power.hubOn then reapTo s (s.dev.containDie n.val false) else answer s s.dev

/-- LANE_FAULT (R384, R385): a lane's op ends with HARDWARE_FAULT, REASON the die's block ID; a core's kernel faults; the lane or core is
recorded and substituted, waits, or is withdrawn. -/
def execLaneFault (n : Fin 4) (res : DieRes) (op : Option (RingNo × W32)) (s : State) : Host.Outcome State Fault Refusal :=
  let d := s.dev
  let x := d.die n.val
  if x.on && !x.contained then
    match res with
    | .lane p =>
      let d' := match op with
        | some (r, c) => (match d.entry r.val c with
          | some e =>
            let l := x.laneList.idxOf p.val
            if laneOpcode (hOpcode e.desc) && x.laneList.contains p.val && d.ownerOf n.val false l == some (d.claimOf r.val) then
              d.killOp r.val c { e.res with status := stHardwareFault, reason := BitVec.ofNat 16 (0x10 + n.val) }
            else d
          | none => d)
        | none => d
      reapTo s (d'.resFails n.val false p.val)
    | .core p =>
      let l := x.coreList.idxOf p.val
      let d' := if x.coreList.contains p.val then
          (match d.ownerOf n.val true l with | some c => d.krnFault c | none => d) else d
      answer s (d'.resFails n.val true p.val)
  else answer s d

/-- The hub engine blocks of R387. -/
def isEngine : BlockId → Bool
  | .xbar | .routing | .coll | .shuttle => true
  | _ => false

/-- ENGINE_FAULT (R387): the block stops with its own ID and 0xF7; a second fault within 1 s leaves it REFUSED, recorded, with
condition 9. -/
def execEngineFault (b : BlockId) (s : State) : Host.Outcome State Fault Refusal :=
  if isEngine b && s.dev.power.hubOn then
    let k := blockCode b
    let d := s.dev.alarm k 0x1E0010 0xFFFFFFFF s.dev.health.cond
    let again := match Tbl.look d.health.engineFault k with | some t => decide (elapsed d.phys t ≤ 1000000000) | none => false
    let d := { d with health := { d.health with engineFault := Tbl.put d.health.engineFault k d.phys } }
    let ran := d.isRunning b
    let x := d.block b
    let why := reasonOf b 0xF7
    let d :=
      if again then
        let d := d.moveBlock b { x with st := .refused, autoStop := x.autoStop || ran, reason := why }
        { d with store := { d.store with engines := if d.store.engines.contains k then d.store.engines else d.store.engines ++ [k] } }.condArises 9
      else if ran then d.selfStop b why
      else d
    if ran then answerMem s (d.stopEngine s.mem b) else answer s d
  else answer s s.dev

/-- TALLY_ENTRY_FAULT (R385): the claim of the tally stops with 0x03F7; an unassigned tally is out of service for good. -/
def execTallyEntryFault (t : BitVec 16) (s : State) : Host.Outcome State Fault Refusal :=
  if s.dev.power.hubOn then
    let owner := s.dev.tallyOwner t.toNat
    let d := s.dev.alarm 0x03 0x1E0010 t.toNat s.dev.health.cond
    match owner with
    | some c => if d.isRunning (claimBlock c) then 
        let x := (d.stopClaim c 0x03F7).abortClaim c
        let y := d.reap x.1 (s.mem.applyAll x.2)
        answerMem s (y.1, x.2 ++ y.2)
      else answer s d
    | none => answer s (if d.store.tallies.contains t.toNat then d
        else { d with store := { d.store with tallies := d.store.tallies ++ [t.toNat] } })
  else answer s s.dev

/-! ## Notices (R281) -/

/-- The discarded header that a notice carries. -/
def discardedPacket (k : Packet) : Packet :=
  { hdr := BitVec.ofNat 256 (leNat (slice k.payload 16 32)), payload := slice k.payload 48 16, retried := false, abort := false }

/-- The op that sent a discarded packet ends with REMOTE_FAILED, REASON the port. -/
def Dev.noticed (d : Dev) (m : Memory) (k : Packet) (port : Nat) : Dev × List MemOp :=
  match d.origin k with
  | none => (d, [])
  | some (r, c) =>
    match k.user with
    | 2 => (match d.remOp r c with | some o => d.failRem o port | none => (d, []))
    | 3 => (match d.coll.groups.find? (fun g => match d.collRun g.1 with | some x => x.o.ring == r && x.o.count == c | none => false) with
      | some g => d.abortColl g.1 3 none
      | none => (d, []))
    | _ => d.reap (d.failExchange r c port) m

/-- NOTICE_RECEIVE (R281, R330): a notice about a packet of this module. -/
def execNoticeReceive (k : Packet) (s : State) : Host.Outcome State Fault Refusal :=
  let d := s.dev
  if k.isNotice && k.dst == d.self then answerMem s (d.noticed s.mem (discardedPacket k) (k.p 2 2)) else answer s d

/-! ## Tags (R347, R351) -/

/-- An exchange op that started under a tag still runs. -/
def Dev.tagExchanges (d : Dev) (t : Nat) : Bool :=
  d.shuttle.chans.any (fun y => (match y.2.disp with | some x => x.tag.toNat == t | none => false) ||
    ((match d.tag t with | some x => y.1 / 64 == x.claim | none => false) && y.2.ret.isSome))

/-- TAG_DRAIN_COMPLETE (R351): a DRAINING tag whose last op has ended, whose packets are gone and that has been silent for TAG_QUIET is FREE,
and a teardown is told. -/
def execTagDrainComplete (tag : BitVec 16) (s : State) : Host.Outcome State Fault Refusal :=
  let d := s.dev
  match d.tag tag.toNat with
  | some x =>
    if x.st == .draining && !d.tagInUse tag.toNat && !d.tagExchanges tag.toNat && d.past x.seen d.time.tagQuiet.toNat then answer s ((d.tagTo tag.toNat none).reportFree tag)
    else answer s d
  | none => answer s d

end Sys2Proof.Machine
end

