-- ==== Sys2Proof/Machine/Preempt.lean ====
section
/-!
DEFINITION. Admission at the meters (R252), and pre-emption with its context and restore (R255 to R260).
-/
namespace Sys2Proof.Machine

/-! ## Admission (R251, R252) -/

/-- METER_ADMIT (R251, R252): the meter serves the next of its waiting requests, if any may be served: an op goes on once every meter has
admitted it, a move and a collective's segment begin, a packet leaves. -/
def execMeterAdmit (m : Meter) (s : State) : Host.Outcome State Fault Refusal :=
  let d := s.dev.movers.foldl (fun d op => d.turnOp s.mem op) s.dev
  match d.nextAsk (meterKey m) with
  | none => answer s d
  | some a =>
    let x := match a.what with
      | .segment g => (d.serveAsk a).collBegin s.mem g
      | _ => (d.serveAsk a, [])
    let y := s.dev.reap x.1 (s.mem.applyAll x.2)
    answerMem s (y.1, x.2 ++ y.2)

/-! ## Pre-emption (R255 to R258) -/

/-- CLAIM_INFO.PSTATE changes, which is logged (R393). -/
def pstateCode : ClaimP → Nat
  | .active => 0 | .preempting => 1 | .preempted => 2 | .restoring => 3

def Dev.claimTo (d : Dev) (c : Nat) (p : ClaimP) : Dev :=
  if (d.claim c).pstate == p then d
  else (d.modClaim c (fun k => { k with pstate := p })).log 3 (claimBase c + 8) c (BitVec.ofNat 64 (pstateCode p))

/-- The result of a command of CLAIM_CMD. -/
def Dev.claimRes (d : Dev) (c reason : Nat) : Dev :=
  d.modClaim c (fun k => { k with cmdBusy := false, cmdReason := BitVec.ofNat 16 reason, restarted := 0 })

/-- Lanes of a claim. -/
def Claim.laneCount (k : Claim) : Nat := ((List.range 4).map (fun n => popCount 64 (k.shape.lane n))).sum

/-- The context area is unfit (R255). -/
def Dev.areaBad (d : Dev) (c : Nat) (inside : Bool) : Bool :=
  let k := d.claim c
  let need := 2 ^ 20 + (if inside then 430080 * k.laneCount else 0)
  k.ctxAddr.toNat % 4096 != 0 || Nat.blt k.ctxArea.toNat need ||
    (d.findObj (fun o => o.st == .ready && o.flat && o.claim == c) k.ctxAddr.toNat k.ctxArea.toNat).isNone

/-- CLAIM_PREEMPT (R255, R256). -/
def execClaimPreempt (c : Fin 32) (inside : Bool) (s : State) : Host.Outcome State Fault Refusal :=
  let d := s.dev
  let k := d.claim c.val
  viaCfg s (answer s (
    if k.cmdBusy then d
    else if (d.block (.claim c)).st == .quiescing then d.claimRes c.val 0x03F0
    else if !d.isRunning (.claim c) then d.claimRes c.val 0x03F6
    else if k.pstate != .active then d.claimRes c.val 0x0303
    else if d.areaBad c.val inside then d.claimRes c.val 0x0304
    else (d.claimTo c.val .preempting).modClaim c.val (fun k =>
      { k with cmdBusy := true, cmdReason := 0, restarted := 0, preTick := d.phys, preInside := inside })))

/-- Started ops of a claim that have not completed, as ring and entry; a TALLY_WAIT that waits and a loop between its descriptors have
stopped (notes/assumptions/41.md). -/
def Dev.openOps (d : Dev) (c : Nat) : List (Nat × Entry) :=
  d.rings.flatMap (fun g => if g.2.claim.toNat == c then
    (g.2.ents.filter (fun e => e.phase == .done || (e.phase == .started && !e.unstarted && hOpcode e.desc != 0x04))).map (fun e => (g.1, e))
    else [])

/-- CRC-64 with the ECMA-182 polynomial. -/
def crc64 (l : List Byte) : Nat :=
  let step := fun (c : BitVec 64) => if c.getLsbD 63 then (c <<< 1) ^^^ 0x42F0E1EBA9EA3693#64 else c <<< 1
  let take := fun (c : BitVec 64) (b : Byte) => (List.range 8).foldl (fun c _ => step c) (c ^^^ (BitVec.ofNat 64 (b.toNat * 2 ^ 56)))
  (l.foldl take 0).toNat

/-- A context's header with its CHECK left 0 (Table 11.3). -/
def ctxHeader (c : Nat) (k : Claim) (now : Tick) (ops len : Nat) : List Byte :=
  toLe 2 0x4358 ++ [1, BitVec.ofNat 8 (b2n (ops != 0)), BitVec.ofNat 8 c, 0, 0, 0] ++ toLe 8 k.gen.toNat ++ toLe 8 now.toNat ++
    (List.range 4).flatMap (fun n => toLe 8 (k.shape.lane n)) ++ toLe 4 k.cores.toNat ++ toLe 4 ops ++ toLe 8 len ++ toLe 8 0 ++
    List.replicate 4016 0

/-- Where a lane goes on, in a record of 8 bytes: its next chunk's output tile and inner chunk, or all ones. -/
def LaneWork.next (w : LaneWork) : List Byte :=
  match w.todo with
  | c :: _ => toLe 5 c.tile ++ toLe 3 c.inner
  | [] => List.replicate 8 0xFF

/-- The record of an interrupted op: its descriptor, ring and slot, and its lanes' next chunks in the order of dies and lanes. -/
def opRecord (d : Dev) (x : Nat × Entry) : List Byte :=
  let front := toLe 64 x.2.desc.toNat ++ toLe 4 x.1 ++ toLe 4 (x.2.count.toNat % 2 ^ (d.ring x.1).sqLog2.toNat) ++
    (x.2.work.getD []).flatMap LaneWork.next
  front ++ List.replicate (4096 - front.length) 0

/-- Lanes that hold a window of an op. -/
def Entry.windows (e : Entry) : Nat := ((e.work.getD []).filter LaneWork.holdsWindow).length

/-- What the context holds of one interrupted op: its record, and 425,984 bytes of wide partials for each window, whose layout beyond R118
the spec leaves open. -/
def Dev.opSection (d : Dev) (x : Nat × Entry) : List Byte × Dev :=
  let p := d.freeBytes (425984 * x.2.windows)
  (opRecord d x ++ p.1, p.2)

/-- The context that a pre-emption writes; the foreman-core section is in Kolti's own format, which the spec leaves to it (R258). -/
def Dev.context (d : Dev) (c : Nat) (ops : List (Nat × Entry)) : List Byte × Dev :=
  let p := d.freeBytes (2 ^ 20 - 4096)
  let q := ops.foldl (fun (a : List Byte × Dev) x => let y := a.2.opSection x; (a.1 ++ y.1, y.2)) ([], p.2)
  let head := ctxHeader c (d.claim c) d.now ops.length (2 ^ 20 + q.1.length)
  let all := head ++ p.1 ++ q.1
  (head.take 72 ++ toLe 8 (crc64 all) ++ all.drop 80, q.2)

/-- Where a tally waiter of an issue port is numbered while the port is out of the module. -/
def awayRing (c i : Nat) : Nat := 2048 + 32 * c + i

/-- The rings of waiters renumbered. -/
def Dev.renumber (d : Dev) (f : Nat → Nat) : Dev :=
  { d with tallies := Tbl.mapAll d.tallies (fun _ t => { t with waiters := t.waiters.map (fun w => { w with ring := f w.ring }) }) }

/-- The claim's lanes and cores are released; its issue ports leave with the context (R256, R257). -/
def Dev.releaseShape (d : Dev) (c : Nat) : Dev :=
  let mine := d.rings.filter (fun g => Nat.ble 1024 g.1 && g.2.claim.toNat == c)
  let d := d.renumber (fun r => match mine.findIdx? (fun g => g.1 == r) with | some i => awayRing c i | none => r)
  let d := { d with rings := d.rings.filter (fun g => !(Nat.ble 1024 g.1 && g.2.claim.toNat == c)) }
  let d := d.modClaim c (fun k => { k with lanes := [], cores := 0, ports := mine.map (fun g => g.2) })
  (List.range 4).foldl (fun d n => d.compactFree n) d

/-- A claim whose ENABLE was written 0 during its pre-emption leaves RUNNING once that has ended (R245, R256); one that has left already is
rid of its interrupted ops. -/
def Dev.leaveNow (d : Dev) (m : Memory) (c : Nat) : Dev × List MemOp :=
  if (d.claim c).leaving && d.isRunning (claimBlock c) then d.leaveClaim m c
  else if d.isRunning (claimBlock c) then (d, [])
  else d.reap (d.endInterrupted c) m

/-- Every started op of a claim has reached its stopping point (R256). -/
def Dev.allStopped (d : Dev) (c : Nat) : Bool :=
  (d.openOps c).all (fun x => x.2.phase == .started && (d.claim c).preInside && x.2.long && x.2.between)

/-- PREEMPT_SAVE (R256, R258): with every started op at its stopping point the context is written, lanes and cores are released, and PSTATE
becomes PREEMPTED. -/
def execPreemptSave (c : Fin 32) (s : State) : Host.Outcome State Fault Refusal :=
  let d := s.dev
  let k := d.claim c.val
  if k.pstate == .preempting && d.allStopped c.val then
    let x := d.context c.val (d.openOps c.val)
    let d := (x.2.releaseShape c.val).modClaim c.val (fun k => { k with ctxLen := BitVec.ofNat 64 x.1.length })
    let d := (d.claimTo c.val .preempted).claimRes c.val 0
    let saved := s.dev.writeDev k.ctxAddr.toNat x.1
    let y := d.leaveNow (s.mem.applyAll saved) c.val
    answerMem s (y.1, saved ++ y.2)
  else answer s d

/-- PREEMPT_TIMEOUT (R256): with an op not at its stopping point after CLAIM_PREEMPT_TO, the pre-emption is abandoned. -/
def execPreemptTimeout (c : Fin 32) (s : State) : Host.Outcome State Fault Refusal :=
  let d := s.dev
  let k := d.claim c.val
  if k.pstate == .preempting && d.past k.preTick k.preTo.toNat && !d.allStopped c.val then
    answerMem s (((d.claimTo c.val .active).claimRes c.val 0x0305).leaveNow s.mem c.val)
  else answer s d

/-! ## Restore (R259, R260) -/

/-- The checks of a RESTORE on the context at CLAIM_CTX_ADDR: the reason of the first that fails, else the number of interrupted ops. -/
def Dev.restoreCheck (d : Dev) (m : Memory) (c : Nat) (restart : Bool) : Except Nat Nat :=
  let k := d.claim c
  let head := d.readDev m k.ctxAddr.toNat 80
  let len := fieldAt head 64 8
  let new : Shape := { lanes := k.restLanes, cores := k.restCores }
  if fieldAt head 0 2 != 0x4358 || fieldAt head 2 1 != 1 || Nat.blt k.ctxArea.toNat len || Nat.blt len 4096 then .error 0x0311
  else
    let all := d.readDev m k.ctxAddr.toNat len
    if crc64 (all.take 72 ++ List.replicate 8 0 ++ all.drop 80) != fieldAt head 72 8 then .error 0x0311
    else if fieldAt head 4 1 % 32 != c || fieldAt head 8 8 != k.gen.toNat then .error 0x0312
    else match d.shapeBad c new with
      | some why => .error why
      | none =>
        let lanes := fun (n : Nat) => fieldAt head (24 + 8 * n) 8
        let same := (List.range 4).all (fun n => lanes n == new.lane n && (lanes n).land (d.die n).laneLog.toNat == lanes n)
        if !restart && bit (fieldAt head 3 1) 0 && !same then .error 0x0310 else .ok (fieldAt head 60 4)

/-- The issue ports come back on the new cores, in ascending order. -/
def Dev.restorePorts (d : Dev) (c : Nat) : Dev :=
  let k := d.claim c
  let cores := (setBits 32 k.cores.toNat).map (1024 + ·)
  let pairs := cores.zip k.ports
  let d := pairs.foldl (fun d p => d.setRing p.1 p.2) d
  let d := d.renumber (fun r => if awayRing c 0 ≤ r ∧ r < awayRing c 32 then nth cores (r - awayRing c 0) r else r)
  d.modClaim c (fun k => { k with ports := k.ports.drop pairs.length })

/-- Every interrupted op of a claim starts again from its first pick: the picks of its first run are charged, and its record counts those of
the next alone (R254, R260). -/
def Dev.restartOps (d : Dev) (c : Nat) : Dev :=
  (d.openOps c).foldl (fun d x =>
    (d.account c x.2.spent 0 0 0).modEntry x.1 x.2.count (fun e => { e with work := none, paid := [] })) d

/-- Both RESTORE commands. -/
def restoreClaim (s : State) (c : Fin 32) (restart : Bool) : Host.Outcome State Fault Refusal :=
  let d := s.dev
  let k := d.claim c.val
  viaCfg s (answer s (
    if k.cmdBusy then d
    else if (d.block (.claim c)).st == .quiescing then d.claimRes c.val 0x03F0
    else if !d.isRunning (.claim c) then d.claimRes c.val 0x03F6
    else if k.pstate != .preempted then d.claimRes c.val 0x0303
    else
      let d := d.claimTo c.val .restoring
      match d.restoreCheck s.mem c.val restart with
      | .error why => (d.claimTo c.val .preempted).claimRes c.val why
      | .ok ops =>
        let d := d.modClaim c.val (fun k => { k with lanes := k.restLanes, cores := k.restCores, shapeLost := false })
        let d := ((d.restorePorts c.val).claimTo c.val .active).claimRes c.val 0
        if restart then (d.restartOps c.val).modClaim c.val (fun k => { k with restarted := BitVec.ofNat 8 (min ops 255) }) else d))

/-- CLAIM_RESTORE (R259). -/
def execClaimRestore (c : Fin 32) (s : State) : Host.Outcome State Fault Refusal := restoreClaim s c false

/-- CLAIM_RESTORE_RESTART (R260): interrupted ops start again from their first pick. -/
def execClaimRestoreRestart (c : Fin 32) (s : State) : Host.Outcome State Fault Refusal := restoreClaim s c true

end Sys2Proof.Machine
end

