-- ==== Sys2Proof/Machine/Enable.lean ====
section
/-!
DEFINITION. ENABLE of every set-up block: the writes of Table 3.7, each block's consistency check, what a block does as it reaches RUNNING,
and how it reaches OFF (R53 to R57, R416, R417, Tables 11.1 and 19.6).
-/
namespace Sys2Proof.Machine

/-! ## Checks -/

/-- The first cause of a list that applies. -/
def firstCause (l : List (Bool × Nat)) : Option Nat := (l.find? (fun x => x.1)).map (fun x => x.2)

/-- The module is in QUIESCING or QUIESCED (R20). -/
def Dev.inQuiesce (d : Dev) : Bool := d.power.pstate == .quiescing || d.power.pstate == .quiesced

/-- A ring that R58 calls enabled. -/
def Dev.ringEnabled (d : Dev) (r : Nat) : Bool :=
  let st := (d.block (ringBlock r)).st
  st == .checking || st == .running || st == .quiescing

/-- The host areas of a ring, as start and length (R59). -/
def Ring.areas (g : Ring) : List (Nat × Nat) :=
  [(g.sqBase.toNat, 64 * 2 ^ g.sqLog2.toNat), (g.cqBase.toNat, 32 * 2 ^ g.cqLog2.toNat), (g.dbAddr.toNat, 64)]

def areasMeet (a b : Nat × Nat) : Bool := Nat.blt a.1 (b.1 + b.2) && Nat.blt b.1 (a.1 + a.2)

/-- The other ring pairs that a ring is checked against: those enabled before it, since rings are checked in the order of their ENABLE
writes (R58). -/
def Dev.otherRings (d : Dev) (r : Nat) : List Ring :=
  (d.rings.filter (fun e => e.1 != r && Nat.blt e.1 1024 && d.ringEnabled e.1 &&
    ((d.block (ringBlock e.1)).st != .checking || Nat.blt e.2.enSeq (d.ring r).enSeq))).map (fun e => e.2)

/-- The check of a ring (R45, R58, R59, Table 4.13). -/
def Dev.ringCheck (d : Dev) (r : Nat) : Option Nat :=
  let g := d.ring r
  let own := g.areas
  let logOk := fun (v : Nat) => Nat.ble 6 v && Nat.ble v 16
  firstCause [
    (!d.isRunning (claimBlock g.claim.toNat) || !d.isRunning .hostif, 0x02F6),
    (!logOk g.sqLog2.toNat || !logOk g.cqLog2.toNat || Nat.blt g.vector.toNat 16, 0x02F3),
    (g.sqBase.toNat % 4096 != 0 || g.cqBase.toNat % 4096 != 0 || g.dbAddr.toNat % 64 != 0, 0x02F4),
    (areasMeet (nth own 0 (0, 0)) (nth own 1 (0, 0)) || areasMeet (nth own 0 (0, 0)) (nth own 2 (0, 0)) ||
      areasMeet (nth own 1 (0, 0)) (nth own 2 (0, 0)) ||
      (d.otherRings r).any (fun o => own.any (fun a => o.areas.any (areasMeet a))), 0x02F5),
    ((d.otherRings r).any (fun o => o.claim == g.claim && o.index == g.index), 0x0201)]

/-- Near chunks that the claims which are not OFF, this one included, name on a die (Table 11.1, row 7). -/
def Dev.nearNamed (d : Dev) (c n : Nat) : Nat := (d.claim c).quota n + ((d.rivals c).map (fun k => k.quota n)).sum

/-- The check of a claim (Table 11.1); an open debug scope refuses it after row 2 (R56, R408; notes/assumptions/45.md). -/
def Dev.claimCheck (d : Dev) (c : Nat) : Option Nat :=
  let k := d.claim c
  let named := fun (n : Nat) => k.shape.lane n != 0 || k.shape.core n != 0 || k.quota n != 0
  let ready := fun (n : Nat) => (d.die n).contained || (d.isRunning (dieBlock n) && (d.die n).doze == .run)
  if d.power.pstate != .running || (List.range 4).any (fun n => named n && !ready n) then some 0x03F6
  else if !d.sec.scopes.isEmpty then some 0x03F2
  else match d.shapeBad c k.shape with
    | some why => some why
    | none => if (List.range 4).any (fun n => Nat.blt Config.nearChunks (d.nearNamed c n)) then some 0x0302 else none

/-- The check of the host interface (Table 3.10). -/
def Dev.hostCheck (d : Dev) : Option Nat :=
  let h := d.host
  firstCause [(!h.linkUp, 0x0101), (!h.busMaster, 0x0103), (d.store.ideRequired && !h.link.ide, 0x0104),
    (h.pollUs = 0 || Nat.blt 1000 h.pollUs.toNat || h.dbCtlMode = 3, 0x01F3), (h.dbCtlMode = 2 && !h.link.cache, 0x0102)]

/-- The check of a fabric port (R284, Table 12.9). -/
def Dev.portCheck (d : Dev) (p : Nat) : Option Nat :=
  let g := (d.port p).cfg
  firstCause [(!d.isRunning .routing, 0x21F6),
    (Nat.blt (popCount 4 g.mask.toNat) 3 || Nat.blt 1 g.degrade.toNat || g.retryLimit = 0 || Nat.blt 64 g.retryLimit.toNat ||
      Nat.blt g.linkTo.toNat 10, 0x21F3)]

/-- The check of the routing block (R285). -/
def Dev.routingCheck (d : Dev) : Option Nat :=
  let own := Tbl.lookD d.routing.l2p d.routing.log.toNat 0
  let m := d.routing.mirror.toNat
  firstCause [(!d.isRunning .xbar, 0x22F6),
    (!bit own.toNat 31 || bits own.toNat 19 0 != d.routing.phys.toNat, 0x2201),
    (bit m 31 && (Nat.blt 17 (bits m 4 0) || bits m 27 16 == boltOf d.self), 0x2203)]

/-- The check of the time block (R342, R362, Tables 15.8 and 15.9). -/
def Dev.timeCheck (d : Dev) : Option Nat :=
  let t := d.time
  firstCause [(t.role != 0 && !d.isRunning .routing, 0x24F6),
    (t.role = 3 || Nat.blt 47 t.upPort.toNat || Nat.blt t.stepNs.toNat 100 || Nat.blt t.tagQuiet.toNat 10 || Nat.blt t.startTo.toNat 100, 0x24F3),
    (t.role = 2 && (d.port t.upPort.toNat).site, 0x2401)]

/-- The check of the health block (R397). -/
def Dev.healthCheck (d : Dev) : Option Nat :=
  let h := d.health
  let l2p := Tbl.lookD d.routing.l2p h.tdest.toNat 0
  firstCause [(d.power.pstate != .mgmtUp && d.power.pstate != .running, 0x26F6),
    (Nat.blt h.tqLog2.toNat 6 || Nat.blt 16 h.tqLog2.toNat, 0x26F3), (h.tqBase.toNat % 4096 != 0, 0x26F4),
    (h.tdestValid && !bit l2p.toNat 31, 0x2610)]

/-- The check of a loom die after its containment (R416). -/
def Dev.dieCheck (d : Dev) (n : Nat) : Option Nat :=
  let x := d.die n
  if !x.ready || (d.power.pstate != .mainSequencing && d.power.pstate != .running) || x.doze != .run then
    some (0x10F6 + 256 * n) else none

/-- The check of a block: the reason it refuses with, if any. An engine block with a recorded fault refuses whatever else holds (R387), and
so does a contained die (R416); then the quiesce (R20), and each block's own order. -/
def Dev.check (d : Dev) (b : BlockId) : Option Nat :=
  let running := d.power.pstate == .running
  if isEngine b && d.store.engines.contains (blockCode b) then some (blockCode b * 256 + 0xF7)
  else if (match b with | .die n => (d.die n.val).contained | _ => false) then some (blockCode b * 256 + 0xF7)
  else if d.inQuiesce then some (blockCode b * 256 + 0xF0)
  else match b with
    | .hostif => d.hostCheck
    | .ring r => d.ringCheck r.val
    | .claim c => d.claimCheck c.val
    | .die n => d.dieCheck n.val
    | .hoist => if running then none else some 0x18F6
    | .xbar => firstCause [(!running, 0x20F6), (d.xbar.deTo = 0 || d.xbar.remTo = 0, 0x20F3)]
    | .port p => d.portCheck p.val
    | .routing => d.routingCheck
    | .coll => if d.isRunning .xbar && d.isRunning .routing then none else some 0x23F6
    | .time => d.timeCheck
    | .event => if running then none else some 0x25F6
    | .health => d.healthCheck
    | .security => if d.power.pstate == .mgmtUp || running then none else some 0x27F6
    | .shuttle => firstCause [(!d.isRunning .xbar, 0x28F6), (d.shuttle.armTo = 0, 0x28F3)]

/-! ## Reaching RUNNING -/

/-- The mode that HOSTIF_DB_STS reports of a passed check (R47). -/
def HostIf.effectiveMode (h : HostIf) : BitVec 2 := if h.dbCtlMode = 1 then 1 else if h.link.cache then 2 else 1

/-- A ring reaches RUNNING: counts as host software left them, and the doorbell line is read (R64, R76). -/
def Dev.ringRuns (d : Dev) (r : Nat) : Dev :=
  (d.modRing r (fun g => { g with
    sqTailLast := g.sqHead, cqHeadLast := g.cqTail - BitVec.ofNat 32 (2 ^ g.cqLog2.toNat), cntDone := 0, cntFail := 0, ents := [], finished := [], skip := 0, orphans := (0, 0), loop := none, stopped := false })).readLine r

/-- A claim reaches RUNNING (R242). -/
def Dev.claimRuns (d : Dev) (c : Nat) : Dev :=
  let k := d.claim c
  let d := { d with
    tallies := d.tallies.filter (fun e => !(Nat.ble k.tallyFirst.toNat e.1 && Nat.blt e.1 (k.tallyFirst.toNat + k.tallyCount.toNat))),
    shuttle := { d.shuttle with chans := d.shuttle.chans.filter (fun x => x.1 / 64 != c) } }
  Dev.rebudget (d.setClaim c { k with
    gen := k.gen + 1, epochs := [], accPicks := 0, accDeep := 0, accFabric := 0, accHoist := 0, accColl := 0, meters := [],
    pstate := .active, shapeLost := false, leaving := false })

/-- A port reaches RUNNING: one that its own stop took off the link trains again (R275, R284). -/
def Port.runs (p : Port) (hub : Bool) (now : Tick) : Port :=
  if hub && (p.link == .off || p.link == .down) then { p with link := .training, trainTick := now } else p

/-- What a block does as its check passes. A die's accumulator and banked permits stay as they are when its block runs again with its
domain on (DESIGN CHOICE, notes/assumptions/55.md). -/
def Dev.reachRunning (d : Dev) (b : BlockId) : Dev :=
  match b with
  | .hostif =>
    let d := { d with host := { d.host with dbMode := d.host.effectiveMode } }
    let d := ((d.rings.filter (fun e => Nat.blt e.1 1024 && d.ringListens e.1)).map (fun e => e.1)).foldl (fun d r => d.readLine r) d
    d.postEverything.flushMsix
  | .ring r => d.ringRuns r.val
  | .claim c => d.claimRuns c.val
  | .die n => d.modDie n.val (fun x => { x with cnt := [], issued := x.banked })
  | .port p => d.modPort p.val (fun x => x.runs d.power.hubReady d.phys)
  | .time => d.alignStart
  | _ => d

/-- ENABLE_CHECK_DONE (R55): the check ends in RUNNING, or in REFUSED with its reason. -/
def execEnableCheckDone (b : BlockId) (s : State) : Host.Outcome State Fault Refusal :=
  let d := s.dev
  if (d.block b).st == .checking then
    match d.check b with
    | some why => answer s (d.refuse b (reason16 why))
    | none => answer s ((d.moveBlock b { d.block b with st := .running }).reachRunning b)
  else answer s d

/-! ## Writes of ENABLE (Table 3.7) -/

/-- A ring takes its place among the rings to be checked (R58). -/
def Dev.queueCheck (d : Dev) : BlockId → Dev
  | .ring r => d.modRing r.val (fun g => { g with enSeq := (d.rings.map (fun e => e.2.enSeq)).foldl max 0 + 1 })
  | _ => d

/-- A write of ENABLE = 1. -/
def Dev.enable (d : Dev) (b : BlockId) : Dev :=
  let x := d.block b
  match x.st with
  | .off | .refused => (d.queueCheck b).moveBlock b { x with st := .checking, reason := 0 }
  | .checking => d
  | .running => d.moveBlock b { x with reason := reasonOf b 0xF1, reject := true }
  | .quiescing => d.moveBlock b { x with reason := reasonOf b 0xF0, reject := true }

/-- ENABLE_SET (R54). -/
def execEnableSet (b : BlockId) (s : State) : Host.Outcome State Fault Refusal := viaCfg s (answer s (s.dev.enable b))

/-- The time block stops: barriers abort with cause 6, starts of the root are given up with it, and alignment reads FREE (R362). -/
def Dev.stopTime (d : Dev) : Dev × List MemOp :=
  let p := d.abortSlots (fun x => hOpcode x.e.desc == 0x54)
  let starts := p.1.time.jobs.filter (fun j => !j.teardown)
  let d := starts.foldl (fun d j => if j.root then d.abandonStart j 2 6 0 else d.dropJob j.tag false) p.1
  (d.setAlign .free, p.2)

/-- What a write of ENABLE = 0 to a RUNNING block does besides QUIESCING (R52, R76, R191, R245, R331, R362). -/
def Dev.beginStop (d : Dev) (m : Memory) (b : BlockId) : Dev × List MemOp :=
  match b with
  | .hostif => (d.dropLines, [])
  | .ring r => (d.cancelUnstarted r.val, [])
  | .time => d.stopTime
  | .coll | .shuttle => d.stopEngine m b
  | _ => (d, [])

/-- A write of ENABLE = 0. -/
def Dev.disable (d : Dev) (m : Memory) (b : BlockId) : Dev × List MemOp :=
  let x := d.block b
  match x.st with
  | .checking | .refused =>
    let d := d.moveBlock b { x with st := .off }
    (match b with | .claim _ => (List.range 4).foldl (fun d n => d.compactFree n) d | _ => d, [])
  | .running =>
    (match b with
    | .claim c =>
      -- a pre-emption in progress ends first (R256)
      if (d.claim c.val).pstate == .preempting then (d.modClaim c.val (fun k => { k with leaving := true }), []) else d.leaveClaim m c.val
    | _ => (d.moveBlock b { x with st := .quiescing }).beginStop m b)
  | .off | .quiescing => (d, [])

/-- ENABLE_CLEAR (R54). -/
def execEnableClear (b : BlockId) (s : State) : Host.Outcome State Fault Refusal :=
  viaCfg s (answerMem s (s.dev.disable s.mem b))

/-! ## Reaching OFF (R52, R57, R76, R245, R284, R416) -/

/-- A claim that is not OFF holds lanes, cores or near quota on a die. -/
def Dev.dieHeld (d : Dev) (n : Nat) : Bool :=
  (List.range 32).any (fun c => !d.isOff (claimBlock c) &&
    ((d.claim c).shape.lane n != 0 || (d.claim c).shape.core n != 0 || (d.claim c).quota n != 0))

/-- A QUIESCING block's work has stopped. A port stops once its replay buffer drains, and at LINK_TO whatever it holds. -/
def Dev.atRest (d : Dev) (b : BlockId) : Bool :=
  match b with
  | .ring r => (d.ring r.val).ents.isEmpty
  | .claim c => (d.claimOps c.val).isEmpty && ((d.claim c.val).pstate == .active || (d.claim c.val).pstate == .preempted)
  | .die n => !d.dieHeld n.val
  | .hoist => d.objects.all (fun o => o.2.moves.isEmpty)
  | .xbar => d.sweepRem.xbar.rem.isEmpty
  | .coll => d.coll.groups.all (fun g => (d.collRun g.1).isNone)
  | .shuttle => d.shuttle.chans.all (fun y => y.2.disp.isNone && y.2.ret.isNone)
  | _ => true

/-- BLOCK_REACHES_OFF (R57). -/
def execBlockReachesOff (b : BlockId) (s : State) : Host.Outcome State Fault Refusal :=
  let d := s.dev
  if (d.block b).st == .quiescing && d.atRest b then
    answer s (match b with
      | .hostif => ({ d with host := { d.host with dbMode := 0 } }).blockOff b
      | .port p => ((if (d.port p.val).up then d.linkDown p.val else d).modPort p.val (fun x => { x with link := .off })).blockOff b
      | _ => d.blockOff b)
  else answer s d

end Sys2Proof.Machine
end

