-- ==== Sys2Proof/Machine/Capability.lean ====
section
/-!
DEFINITION. The identity and capability block (R414, R415, Tables 19.2 to 19.4): what its registers read as in a state. Every field that
follows health is computed from the resources it counts, so the block holds no state of its own but CAP_GEN and whether step 8 has run.
-/
namespace Sys2Proof.Machine

/-- CAP_IDENT and CAP_LAYOUT read in every state; every other field reads 0 until step 8 of Table 1.9 (R414). -/
def Dev.capField (d : Dev) (v : Nat) : Nat := if d.capFinal then v else 0

/-- The dies in service: those not contained (R386). -/
def Dev.serviceDies (d : Dev) : List Nat := (List.range 4).filter (fun n => !(d.die n).contained)

/-- Deep groups of a die that are lost (R231). -/
def Dev.groupsLost (d : Dev) (n : Nat) : Nat :=
  ((List.range 32).filter (fun g => (Tbl.lookD (d.die n).deepGroup g (0 : W32)).getLsbD 31)).length

/-- LANES of CAP_DIEn, 0 for a contained die. -/
def Dev.capLanes (d : Dev) (n : Nat) : Nat := if (d.die n).contained then 0 else popCount 64 (d.die n).laneLog.toNat

/-- L and G of Table 19.4. -/
def Dev.capL (d : Dev) : Nat := ((List.range 4).map d.capLanes).sum
def Dev.capG (d : Dev) : Nat := (d.serviceDies.map (fun n => 32 - d.groupsLost n)).sum

/-- CAP_IDENT. -/
def capIdent : Nat := 0x4C560400 + Config.stepping.toNat

/-- CAP_LAYOUT. -/
def capLayout : Nat := 1

/-- CAP_DIES: IN_SERVICE, ACTIVE, DIES. -/
def Dev.capDies (d : Dev) : Nat :=
  d.capField ((d.serviceDies.map (fun n => 2 ^ n)).sum * 2 ^ 8 + d.serviceDies.length * 2 ^ 4 + 4)

/-- CAP_DEPUTY: GROUPS, CORES. -/
def Dev.capDeputy (d : Dev) : Nat :=
  let g := 2 - popCount 2 d.store.groups.toNat
  d.capField (g * 2 ^ 4 + 4 * g)

/-- CAP_FABRIC: LANES 4, PLANES, SPAN 18, WEFT 15, WARP 15. -/
def Dev.capFabric (d : Dev) : Nat := d.capField (4 * 2 ^ 28 + d.planesUp * 2 ^ 24 + 18 * 2 ^ 16 + 15 * 2 ^ 8 + 15)

/-- CAP_DIEn, every field 0 for a contained die. -/
def Dev.capDie (d : Dev) (n : Nat) : Nat :=
  let x := d.die n
  let g := d.groupsLost n
  d.capField (if x.contained then 0
    else 8 * 2 ^ 56 + g * 2 ^ 48 + (576 - 18 * g) * 2 ^ 32 + 512 * 2 ^ 22 + popCount 8 x.coreLog.toNat * 2 ^ 18 +
      x.coreSpares.length * 2 ^ 16 + d.capLanes n * 2 ^ 8 + x.laneSpares.length * 2 ^ 6)

/-- CAP_LIMITS0, CAP_LIMITS1 and CAP_LIMITS2. -/
def Dev.capLimits0 (d : Dev) : Nat := d.capField 0x0800040020404010
def Dev.capLimits1 (d : Dev) : Nat := d.capField 0x0004000000010000
def Dev.capLimits2 (d : Dev) : Nat := d.capField 0x0000400000010000

/-- CAP_RATE: MXFP4_NOM and MXFP4_TOP from L, ASSAY and SLUICE from ACTIVE. -/
def Dev.capRate (d : Dev) : Nat :=
  let active := d.serviceDies.length
  d.capField ((d.capL * 589824 / 10000) * 2 ^ 48 + (d.capL * 688128 / 10000) * 2 ^ 32 + 64 * active * 2 ^ 16 + 4000 * active)

/-- CAP_BW: DEEP from G; FABRIC, 100 a port or 75 under condition 7 of Table 17.1; DIE_HUB. One plane halves the last two. -/
def Dev.capBw (d : Dev) : Nat :=
  let fabric := ((List.range 48).map (fun p => if d.store.ports.getLsbD p then 75 else 100)).sum
  let hub := 2000 * d.serviceDies.length
  let half := fun (v : Nat) => if d.planesUp = 2 then v else v / 2
  d.capField ((6144 * d.capG / 10) * 2 ^ 40 + half fabric * 2 ^ 16 + half hub)

/-- A register of the block by its offset, as R412 reads it. -/
def Dev.capRead (d : Dev) (off : Nat) : Nat :=
  match off with
  | 0x00 => capIdent | 0x04 => capLayout | 0x08 => d.capGen.toNat | 0x10 => d.capDies | 0x14 => d.capDeputy | 0x18 => d.capFabric
  | 0x20 => d.capDie 0 | 0x28 => d.capDie 1 | 0x30 => d.capDie 2 | 0x38 => d.capDie 3
  | 0x40 => d.capLimits0 | 0x48 => d.capLimits1 | 0x50 => d.capLimits2 | 0x58 => d.capRate | 0x60 => d.capBw
  | _ => 0

end Sys2Proof.Machine
end

