-- ==== Sys2Proof/Machine/Reads.lean ====
section
/-!
DEFINITION. What a read of CFGWIN returns: every register of every block as it stands in a state (R4, R41, R100, R261, R411, R412, Tables
19.1 and 19.5 with the register tables they name). A reserved offset, a reserved field and a WO register read 0 (R4, Table 0.5). No command
of the block's table is such a read but RT_L2P_DATA_READ and RT_SPAN_DATA_READ, so these are functions of the state alone; a read has no
other effect than the index of those two (R285).
-/
namespace Sys2Proof.Machine

/-- Word `i` of a wide register. -/
def wordAt {w : Nat} (x : BitVec w) (i : Nat) : Nat := x.toNat / 2 ^ (64 * i) % 2 ^ 64

/-- A counter of a table of counters. -/
def cntAt (t : Tbl Word) (off : Nat) : Nat := (Tbl.lookD t off (0 : Word)).toNat

/-- *_CTL: ENABLE reads 1 in CHECKING and RUNNING (R54, R55). -/
def Dev.ctlRead (d : Dev) (b : BlockId) : Nat :=
  match (d.block b).st with | .checking | .running => 1 | _ => 0

/-- The result register of a command that answers at once: BUSY 0 and its REASON. -/
def resRead (reason : BitVec 16) : Nat := reason.toNat

/-- A bit for each number of a list that a condition selects. -/
def maskOf (n : Nat) (p : Nat → Bool) : Nat := ((List.range n).map (fun i => flagAt (p i) i)).sum

/-- The block whose *_CTL register an offset is, but for the ring window. -/
def ctlBlock (off : Nat) : Option BlockId :=
  match off with
  | 0x010000 => some .hostif | 0x080000 => some .hoist | 0x100000 => some .xbar | 0x130000 => some .shuttle
  | 0x160000 => some .routing | 0x180000 => some .coll | 0x1A0000 => some .time | 0x1C0000 => some .event
  | 0x1E0000 => some .health | 0x200000 => some .security
  | _ =>
    if 0x020000 ≤ off ∧ off < 0x040000 ∧ off % 0x1000 = 0 then some (claimBlock ((off - 0x020000) / 0x1000))
    else if 0x040000 ≤ off ∧ off < 0x080000 ∧ off % 0x10000 = 0 then some (dieBlock ((off - 0x040000) / 0x10000))
    else if 0x140000 ≤ off ∧ off < 0x14C000 ∧ off % 0x400 = 0 then some (.port (Fin.ofNat 48 ((off - 0x140000) / 0x400)))
    else none

/-! ## The host interface (Tables 3.8, 3.9) -/

def Dev.hostRead32 (d : Dev) (o : Nat) : Nat :=
  let h := d.host
  match o with
  | 0x08 => h.linkSts
  | 0x10 => h.pollUs.toNat * 2 ^ 16 + h.dbCtlMode.toNat
  | 0x14 => h.dbMode.toNat
  | 0x18 => flagAt h.hdmErrDecoder 16 + h.hdmErrReason.toNat
  | 0x20 => h.cntLinkDown.toNat
  | _ => 0

/-- DATA and the mask bit of an MSI-X entry (PRESUMED, notes/assumptions/46.md: the PCI layout). -/
def HostIf.msixRead32 (h : HostIf) (n o : Nat) : Nat :=
  match o with
  | 8 => (Tbl.lookD h.msixData n (0 : W32)).toNat
  | 12 => b2n (h.msixMask.getLsbD n)
  | _ => 0

/-! ## Rings (Tables 4.11, 4.12) -/

/-- The ring's oldest unstarted descriptor (R78, Table 4.12). -/
def Ring.unstarted (g : Ring) : Option Entry := g.ents.find? (fun e => e.unstarted)

/-- RING_INFO. With every fetched descriptor started, OLDEST is the slot of the next to be fetched (DESIGN CHOICE,
notes/assumptions/54.md). -/
def Dev.ringInfo (d : Dev) (r : Nat) : Nat :=
  let g := d.ring r
  let e := g.unstarted
  let dist := fun (e : Entry) => d.epochDistance r e.desc
  flagAt (!g.room) 31 + flagAt (Nat.ble 32 g.bufUsed) 30 +
    flagAt (e.any (fun e => d.tallies.any (fun t => t.2.waiters.any (fun w => w.ring == r && w.count == e.count)))) 29 +
    flagAt (e.any (fun e => e.phase == .waiting && hBatch e.desc && Nat.blt 0 (dist e) && Nat.blt (dist e) 128)) 28 +
    flagAt (g.oldest.any (fun p => !g.orderOk p.1 p.2)) 27 + flagAt g.loop.isSome 26 +
    flagAt ((d.claim g.claim.toNat).pstate == .preempted) 25 +
    ((e.map (fun e => e.count)).getD g.sqHead).toNat % 2 ^ g.sqLog2.toNat

def Dev.ringRead32 (d : Dev) (o : Nat) : Nat :=
  let r := d.ringSel.toNat
  let g := d.ring r
  match o with
  | 0x00 => r
  | 0x04 => d.ctlRead (ringBlock r)
  | 0x08 => (d.block (ringBlock r)).sts
  | 0x0C => d.ringInfo r
  | 0x10 => flagAt g.halt 31 + g.sqLog2.toNat * 2 ^ 24 + g.cqLog2.toNat * 2 ^ 16 + g.index.toNat * 2 ^ 8 + g.claim.toNat
  | 0x14 => g.irqCount.toNat * 2 ^ 24 + g.irqTimeout.toNat * 2 ^ 12 + g.vector.toNat
  | 0x30 => g.sqHead.toNat
  | 0x34 => g.cqTail.toNat
  | 0x40 => g.cntFail.toNat
  | 0x44 => d.epochClaim.toNat * 2 ^ 8 + d.epochSlot.toNat
  | 0x48 =>
    let c := d.epochClaim.toNat
    flagAt (d.shuttle.cancels.any (fun x => x.claim == c && x.batch.1 == d.epochSlot.toNat)) 8 +
      (Tbl.lookD (d.claim c).epochs d.epochSlot.toNat (0 : BitVec 8)).toNat
  | _ => 0

/-- A 64-bit register of the ring window, or word of RINGS_RUN_MAP or RINGS_STOP_MAP. -/
def Dev.ringRead64 (d : Dev) (o : Nat) : Option Nat :=
  let g := d.ring d.ringSel.toNat
  match o with
  | 0x18 => some g.sqBase.toNat
  | 0x20 => some g.cqBase.toNat
  | 0x28 => some g.dbAddr.toNat
  | 0x38 => some g.cntDone.toNat
  | _ =>
    if 0x100 ≤ o ∧ o < 0x180 then some (maskOf 64 (fun i => d.isRunning (ringBlock ((o - 0x100) * 8 + i))))
    else if 0x180 ≤ o ∧ o < 0x200 then some (maskOf 64 (fun i => (d.block (ringBlock ((o - 0x180) * 8 + i))).autoStop))
    else none

/-! ## Claims (Tables 11.7 to 11.9) -/

def Dev.claimRead32 (d : Dev) (c o : Nat) : Nat :=
  let k := d.claim c
  match o with
  | 0x008 => pstateCode k.pstate * 2 ^ 30 + flagAt k.shapeLost 29
  | 0x00C => b2n k.share.borrow
  | 0x010 => k.share.hoist.toNat * 2 ^ 16 + k.share.deep.toNat
  | 0x014 => k.share.coll.toNat * 2 ^ 16 + k.share.fabric.toNat
  | 0x018 => k.tallyFirst.toNat * 2 ^ 16 + k.tallyCount.toNat
  | 0x01C => k.cores.toNat
  | 0x040 | 0x044 | 0x048 | 0x04C => k.quota ((o - 0x040) / 4)
  | 0x084 => flagAt k.cmdBusy 31 + k.restarted.toNat * 2 ^ 16 + k.cmdReason.toNat
  | 0x088 => k.preTo.toNat
  | 0x0E0 => k.restCores.toNat
  | 0x240 => k.selMeter.toNat * 2 ^ 4 + k.selIndex.toNat
  | _ => 0

/-- The meter that CLAIM_METER_SEL names, none where it names no meter of Table 11.2: every register it selects reads 0 then (R254). -/
def Dev.selected (d : Dev) (c : Nat) : Option MeterSt :=
  let k := d.claim c
  let key := 16 * k.selMeter.toNat + k.selIndex.toNat
  if (allMeters.map meterKey).contains key then some (d.meter c key) else none

/-- A 64-bit register of a claim. -/
def Dev.claimRead64 (d : Dev) (c o : Nat) : Option Nat :=
  let k := d.claim c
  let m := (d.selected c).getD .reset
  match o with
  | 0x050 => some k.gen.toNat
  | 0x090 => some k.ctxAddr.toNat
  | 0x098 => some k.ctxArea.toNat
  | 0x0A0 => some k.ctxLen.toNat
  | 0x200 => some k.accPicks.toNat
  | 0x208 => some k.accDeep.toNat
  | 0x210 => some k.accFabric.toNat
  | 0x218 => some k.accHoist.toNat
  | 0x220 => some k.accColl.toNat
  | 0x248 => some (BitVec.ofInt 64 m.bal).toNat
  | 0x250 => some (BitVec.ofInt 64 m.lastBudget).toNat
  | 0x258 => some (m.lastUsed % 2 ^ 64)
  | 0x260 => some (m.lastBorrowed % 2 ^ 64)
  | 0x268 => some m.accBorrowed.toNat
  | _ =>
    if 0x020 ≤ o ∧ o < 0x040 then some (k.shape.lane ((o - 0x020) / 8))
    else if 0x0C0 ≤ o ∧ o < 0x0E0 then some (Tbl.lookD k.restLanes ((o - 0x0C0) / 8) (0 : Word)).toNat
    else if 0x100 ≤ o ∧ o < 0x180 then some (Tbl.lookD k.seeds ((o - 0x100) / 8) (0 : Word)).toNat
    else none

/-- The registers common to all claims (Table 11.8). -/
def Dev.claimsRead32 (d : Dev) (o : Nat) : Nat :=
  match o with
  | 0x00 => d.frames.lenReg.toNat
  | 0x04 => b2n d.frames.lendOff
  | 0x08 => flagAt d.frames.writeReject 31 + d.lending
  | 0x20 => maskOf 32 (fun c => d.isRunning (claimBlock c))
  | _ => 0

def Dev.claimsRead64 (d : Dev) (o : Nat) : Option Nat :=
  match o with | 0x10 => some d.frames.num.toNat | 0x18 => some d.frames.start.toNat | _ => none

/-! ## Loom dies (Table 19.5) -/

def Dev.dieRead32 (d : Dev) (n o : Nat) : Nat :=
  let x := d.die n
  let g := x.govReg
  match o with
  | 0x0200 => g.mode.toNat
  | 0x0204 => g.pace.toNat
  | 0x0208 => g.vmax.toNat * 2 ^ 16 + g.vmin.toNat
  | 0x020C => g.supply.toNat
  | 0x0210 => x.govSts
  | 0x0214 => x.slowId.toNat * 2 ^ 27 + x.slowest.toNat * 2 ^ 16 + x.fastest.toNat
  | 0x0388 => b2n !d.fixedPace
  | 0x0410 => x.laneSts
  | 0x0420 => x.coreLog.toNat
  | 0x0500 => x.tierAuto.toNat
  | 0x0504 => flagAt x.tierReject 31 + d.autoState n * 2 ^ 28 + d.nearFree n
  | _ => if 0x0580 ≤ o ∧ o < 0x0600 then (Tbl.lookD x.deepGroup ((o - 0x0580) / 4) (0 : W32)).toNat else 0

/-- LD_LANE_MAP: the physical lanes that carry the logical lanes in service (R141). -/
def Die.laneMap (x : Die) : Nat := maskOf 66 (fun p => x.laneList.zipIdx.any (fun l => l.1 == p && x.laneLog.getLsbD l.2))

/-- A 64-bit register of a die; the counters read as SNAP latched them (R36). -/
def Dev.dieRead64 (d : Dev) (n o : Nat) : Option Nat :=
  let x := d.die n
  match o with
  | 0x0308 => some x.snapTick.toNat
  | 0x0400 => some (x.laneMap % 2 ^ 64)
  | 0x0408 => some (x.laneMap / 2 ^ 64)
  | 0x0418 => some x.laneLog.toNat
  | _ =>
    if (0x0310 ≤ o ∧ o < 0x0388) ∨ (0x0510 ≤ o ∧ o < 0x0550) then some (cntAt x.latched o) else none

/-! ## The hoist block (Tables 10.10, 10.11) -/

/-- The code of an object's state (Table 10.2). -/
def objCode : Option Obj → Nat
  | none => 0
  | some o => match o.st with | .free => 0 | .creating => 1 | .ready => 2 | .dying => 3 | .lost => 4

def Dev.hoistRead32 (d : Dev) (o : Nat) : Nat :=
  let h := d.hoist
  match o with
  | 0x10 => h.cfgReg.heatPeriod.toNat * 2 ^ 20 + h.cfgReg.promote.toNat * 2 ^ 12 + h.cfgReg.hyst.toNat * 2 ^ 4 + h.cfgReg.maxMoves.toNat
  | 0x20 => h.sel.toNat
  | 0x28 => flagAt h.busy 31 + objCode (d.obj h.sel.toNat) * 2 ^ 24 + h.reason.toNat
  | 0x90 => d.objects.length
  | _ => 0

def Dev.hoistRead64 (d : Dev) (o : Nat) : Option Nat :=
  let h := d.hoist
  match o with
  | 0x30 => some (h.infoLost.toNat * 2 ^ 32 + h.infoNear.toNat)
  | 0x80 => some h.cntUnmapped.toNat
  | 0x88 => some h.cntLost.toNat
  | _ => if 0x40 ≤ o ∧ o < 0x80 then some (wordAt h.entry ((o - 0x40) / 8)) else none

/-! ## Crossbar, shuttle, ports and routing (Tables 8.8, 12.8 to 12.10, 13.11, 13.12) -/

/-- The state of plane A or B: ACTIVE, RETIRED, or IDLE by the override. -/
def Dev.planeState (d : Dev) (b : Nat) : Nat :=
  if d.store.planes.getLsbD b then 1 else if d.xbar.planeMode.toNat = 2 - b then 2 else 0

def Dev.xbarRead32 (d : Dev) (o : Nat) : Nat :=
  let x := d.xbar
  match o with
  | 0x08 => x.planeMode.toNat
  | 0x0C => flagAt x.planeReject 31 + d.planeState 1 * 2 ^ 2 + d.planeState 0
  | 0x18 => 0x00500014
  | 0x20 | 0x24 | 0x28 => (Tbl.lookD x.red ((o - 0x20) / 4) (redReset ((o - 0x20) / 4))).toNat
  | 0x30 => x.deTo.toNat * 2 ^ 16 + x.remTo.toNat
  | 0x34 => x.lastNak.toNat
  | 0x1000 => x.rgnSel.toNat
  | 0x1008 => resRead x.rgnReason
  | _ => 0

def Dev.xbarRead64 (d : Dev) (o : Nat) : Option Nat :=
  if o = 0x10 then some d.xbar.shareReg.toNat
  else if 0x40 ≤ o ∧ o < 0x80 then some (cntAt d.xbar.cnt o)
  else if 0x1020 ≤ o ∧ o < 0x1040 then some (wordAt d.xbar.rgnData ((o - 0x1020) / 8))
  else none

def Dev.portRead32 (d : Dev) (p o : Nat) : Nat :=
  let x := d.port p
  match o with
  | 0x08 => x.cfg.mask.toNat * 2 ^ 28 + x.cfg.degrade.toNat * 2 ^ 24 + x.cfg.retryLimit.toNat * 2 ^ 8 + x.cfg.linkTo.toNat
  | 0x0C => b2n x.site
  | 0x10 => x.linkReg
  | _ => 0

def Dev.portRead64 (d : Dev) (p o : Nat) : Option Nat :=
  let x := d.port p
  if o = 0x18 then some (x.peerDomain.toNat * 2 ^ 48 + x.peerPort.toNat * 2 ^ 32 + x.peerPhys.toNat)
  else if 0x40 ≤ o ∧ o < 0x80 then some (cntAt x.cnt o)
  else none

/-- RT_ADAPT_STS.STATE. -/
def Dev.adaptCode (d : Dev) : Nat :=
  if !d.isRunning .routing then 0 else if d.fixedPace then 3 else if d.routing.adaptOff then 2 else 1

def Dev.routingRead32 (d : Dev) (o : Nat) : Nat :=
  let t := d.routing
  match o with
  | 0x10 => t.thresh.toNat * 2 ^ 16 + b2n t.adaptOff
  | 0x14 => flagAt t.adaptReject 31 + d.adaptCode
  | 0x18 => t.mirror.toNat
  | 0x20 => t.l2pSel.toNat
  | 0x24 => (Tbl.lookD t.l2p (bits t.l2pSel.toNat 19 0) (0 : W32)).toNat
  | 0x28 => t.spanSel.toNat
  | _ => 0

def Dev.routingRead64 (d : Dev) (o : Nat) : Option Nat :=
  let t := d.routing
  if o = 0x08 then some (t.domain.toNat * 2 ^ 48 + t.log.toNat * 2 ^ 20 + t.phys.toNat)
  else if o = 0x30 then some (Tbl.lookD t.span (bits t.spanSel.toNat 11 0) (0 : Word)).toNat
  else if 0x40 ≤ o ∧ o < 0x90 then some (cntAt t.cnt o)
  else none

/-! ## Collectives and time (Tables 14.7, 14.8, 15.8, 15.9) -/

/-- COLL_GRP_INFO of the selected slot. -/
def Dev.grpInfo (d : Dev) : Nat :=
  match d.group d.coll.sel.toNat with
  | none => 0
  | some g => (if g.op.isSome then 2 else 1) * 2 ^ 30 + g.seq.toNat

def Dev.collRead32 (d : Dev) (o : Nat) : Nat :=
  match o with
  | 0x10 => d.coll.sel.toNat
  | 0x18 => resRead d.coll.reason
  | 0x1C => d.grpInfo
  | 0x30 => d.coll.lastAbort.toNat
  | _ => 0

def Dev.collRead64 (d : Dev) (o : Nat) : Option Nat :=
  if 0x20 ≤ o ∧ o < 0x30 then some (wordAt d.coll.data ((o - 0x20) / 8))
  else if 0x40 ≤ o ∧ o < 0x68 then some (cntAt d.coll.cnt o)
  else none

/-- A signed value in a field of `w` bits, saturating. -/
def satSigned (w : Nat) (v : Int) : Nat := (BitVec.ofInt w (max (-(2 ^ (w - 1) : Int)) (min (2 ^ (w - 1) - 1) v))).toNat

/-- TIME_CLAIM_TAG of a claim. -/
def Dev.claimTag (d : Dev) (c : Nat) : Nat :=
  match d.currentTag c with
  | none => 0
  | some (n, t) => 2 ^ 31 + tagCode (some t) * 2 ^ 16 + n

def Dev.timeRead32 (d : Dev) (o : Nat) : Nat :=
  let t := d.time
  match o with
  | 0x08 => t.role.toNat * 2 ^ 30 + t.upPort.toNat * 2 ^ 24 + t.stepNs.toNat
  | 0x18 => flagAt t.unlockSeen 31 + flagAt t.depthExceeded 30 + flagAt t.refBad 29 + alignCode t.align * 2 ^ 26 + t.depth.toNat * 2 ^ 23 +
      satSigned 16 t.offset
  | 0x1C => satSigned 32 t.slew
  | 0x28 => flagAt t.syncIgnored 1 + flagAt t.syncArm 0
  | 0x30 => flagAt t.barAlign 31 + t.barHold.toNat * 2 ^ 16 + t.barMargin.toNat
  | 0x38 => flagAt d.fixedPace 1 + flagAt d.fixedBits 0
  | 0x3C => flagAt t.spreadLost 31 + flagAt t.reproReject 30 + flagAt d.fixedPace 17 + flagAt d.fixedBits 16 + t.reproReason.toNat
  | 0x40 => t.tagSelClaim.toNat * 2 ^ 16 + t.tagSel.toNat
  | 0x48 => t.tagState.toNat * 2 ^ 24 + t.tagClaim.toNat * 2 ^ 16 + t.tagReason.toNat
  | 0x4C => t.tagQuiet.toNat * 2 ^ 16 + t.startTo.toNat
  | 0x54 => flagAt (t.jobs.any (fun j => j.root)) 31 + t.jobOutcome.toNat * 2 ^ 28 + t.jobCause.toNat * 2 ^ 16 + t.attempt.toNat * 2 ^ 8
  | 0x58 => t.jobWho.toNat
  | _ => if 0x100 ≤ o ∧ o < 0x180 then d.claimTag ((o - 0x100) / 4) else 0

def Dev.timeRead64 (d : Dev) (o : Nat) : Option Nat :=
  if o = 0x10 then some d.now.toNat
  else if o = 0x20 then some d.time.syncLoad.toNat
  else if 0x60 ≤ o ∧ o < 0x80 then some (cntAt d.time.cnt o)
  else none

/-! ## Events, health and security (Tables 2.3, 16.9, 16.10, 17.6, 17.7, 18.10, 18.11) -/

/-- KSTATE. -/
def kernelCode : KState → Nat
  | .none => 0 | .loaded => 1 | .running => 2 | .stopped => 3 | .faulted => 4

/-- EVT_DOZE_STS. -/
def Dev.dozeSts (d : Dev) : Nat :=
  d.evt.dozeReason.toNat * 2 ^ 16 + flagAt d.dozeAborted 13 + flagAt d.evt.hubLow 12 +
    ((List.range 4).map (fun n => dozeCode (d.die n).doze * 2 ^ (3 * n))).sum

def Dev.eventRead32 (d : Dev) (o : Nat) : Nat :=
  match o with
  | 0x20 => b2n d.evt.groupB
  | 0x60 => flagAt d.evt.hubLowReq 8 + d.evt.dozeReq.toNat
  | 0x64 => d.dozeSts
  | 0x80 => d.evt.krnSel.toNat
  | 0x94 => kernelCode (d.kernel d.evt.krnSel.toNat).st * 2 ^ 24 + d.evt.krnReason.toNat
  | _ => 0

def Dev.eventRead64 (d : Dev) (o : Nat) : Option Nat :=
  let hub := Tbl.lookD d.evt.units 0 EvtUnit.reset
  match o with
  | 0x10 => some (wordAt hub.pend 0)
  | 0x18 => some (wordAt hub.pend 1)
  | 0x40 => some d.evt.latch.toNat
  | 0x48 => some d.evt.level.toNat
  | 0x50 => some d.evt.wakeMask.toNat
  | 0x58 => some d.evt.wakeTick.toNat
  | 0x88 => some d.evt.krnAddr.toNat
  | 0xC0 => some d.evt.krnFaults.toNat
  | _ => if 0xA0 ≤ o ∧ o < 0xC0 then some (d.die ((o - 0xA0) / 8)).cntWake.toNat else none

/-- HEALTH_FW_STS.PHASE. -/
def fwCode : FwPhase → Nat
  | .idle => 0 | .loading => 1 | .import => 2 | .pause => 3 | .standbyReload => 4

/-- A spare foreman core is left on a die; before the die is ready, as the store records it (R384). -/
def Dev.coreSpare (d : Dev) (n : Nat) : Bool :=
  if (d.die n).ready then !(d.die n).coreSpares.isEmpty else popCount 9 (Tbl.lookD d.store.cores n (0 : BitVec 9)).toNat == 0

def Dev.healthRead32 (d : Dev) (o : Nat) : Nat :=
  let h := d.health
  match o with
  | 0x08 => flagAt d.svcReq 31 + flagAt h.acked 30 + maskOf 4 (fun n => (d.die n).contained) * 2 ^ 16 + d.healthNow
  | 0x18 => b2n h.hold
  | 0x1C => flagAt (!(h.held.isEmpty && h.testing.isEmpty)) 31 + maskOf 4 d.coreSpare
  | 0x24 => flagAt h.fwBusy 31 + fwCode h.fwPhase * 2 ^ 28 + flagAt h.standbyOk 27 + flagAt h.servingB 26 + h.fwReason.toNat
  | 0x40 => d.pwrSts
  | 0x48 => d.cap.capReg.toNat
  | 0x4C => d.cap.power.toNat
  | 0x68 => h.tqLog2.toNat * 2 ^ 24 + h.tracePeriod.toNat * 2 ^ 12
  | 0x6C => h.tqTail.toNat
  | 0x70 => h.tqHead.toNat
  | 0x74 => flagAt h.tdestValid 31 + h.tdest.toNat
  | _ => 0

def Dev.healthRead64 (d : Dev) (o : Nat) : Option Nat :=
  let h := d.health
  match o with
  | 0x10 => some h.cond.toNat
  | 0x28 => some (h.verServing.toNat * 2 ^ 32 + h.verStandby.toNat)
  | 0x60 => some h.tqBase.toNat
  | 0x80 => some h.dropTrace.toNat
  | 0x88 => some h.dropLog.toNat
  | 0x90 => some h.merged.toNat
  | 0x98 => some h.alarms.toNat
  | _ => none

/-- Whole seconds until the first open debug scope closes, saturating (DESIGN CHOICE, notes/assumptions/54.md: which of several). -/
def Dev.scopeLeft (d : Dev) : Nat :=
  let left := fun (x : BitVec 8 × Nat × Tick) => min 65535 ((x.2.2 - d.phys).toNat / 1000000000)
  match d.sec.scopes with
  | [] => 0
  | x :: t => t.foldl (fun m y => min m (left y)) (left x)

/-- SEC_PROT. -/
def SignedStore.prot (t : SignedStore) : Nat :=
  flagAt t.ideRequired 9 + t.isolation.toNat * 2 ^ 7 + t.regionPolicy.toNat * 2 ^ 5 + t.debugKeys.length

def Dev.securityRead32 (d : Dev) (o : Nat) : Nat :=
  match o with
  | 0x34 => flagAt d.mbx.busy 31 + flagAt d.mbx.done 30 + d.mbx.status.toNat
  | 0x40 => d.store.prot
  | 0x50 => d.sec.open' * 2 ^ 16 + d.scopeLeft
  | 0x58 => d.store.minSecver.toNat
  | _ => 0

def Dev.securityRead64 (d : Dev) (o : Nat) : Option Nat :=
  match o with
  | 0x10 => some (leNat (deviceId.take 8))
  | 0x18 => some (leNat (deviceId.drop 8))
  | 0x20 => some d.mbx.reqAddr.toNat
  | 0x28 => some d.mbx.rspAddr.toNat
  | 0x48 => some d.store.protSeq.toNat
  | 0x60 => some d.mbx.cntRefused.toNat
  | _ => none

/-! ## The map (Table 19.1) -/

/-- The 32-bit register at an offset; 0 where none stands. -/
def Dev.read32 (d : Dev) (off : Nat) : Nat :=
  match ctlBlock off, (if off % 8 = 4 then ctlBlock (off - 4) else none) with
  | some b, _ => d.ctlRead b
  | none, some b => (d.block b).sts
  | none, none =>
    if off < 0x010000 then (if off = 0x08 ∨ 0x20 ≤ off then 0 else d.capRead off)
    else if off < 0x010800 then d.hostRead32 (off - 0x010000)
    else if off < 0x011000 then 0
    else if off < 0x011200 then d.ringRead32 (off - 0x011000)
    else if off < 0x012000 then 0
    else if off < 0x013000 then d.claimsRead32 (off - 0x012000)
    else if off < 0x018000 then 0
    else if off < 0x020000 then d.host.msixRead32 ((off - 0x018000) / 16) (off % 16)
    else if off < 0x040000 then d.claimRead32 ((off - 0x020000) / 0x1000) (off % 0x1000)
    else if off < 0x080000 then d.dieRead32 ((off - 0x040000) / 0x10000) (off % 0x10000)
    else if off < 0x081000 then d.hoistRead32 (off - 0x080000)
    else if off < 0x100000 then 0
    else if off < 0x102000 then d.xbarRead32 (off - 0x100000)
    else if off = 0x130010 then d.shuttle.armTo.toNat * 2 ^ 16
    else if off < 0x140000 then 0
    else if off < 0x14C000 then d.portRead32 ((off - 0x140000) / 0x400) (off % 0x400)
    else if off < 0x160000 then 0
    else if off < 0x161000 then d.routingRead32 (off - 0x160000)
    else if off < 0x180000 then 0
    else if off < 0x181000 then d.collRead32 (off - 0x180000)
    else if off < 0x1A0000 then 0
    else if off < 0x1A0200 then d.timeRead32 (off - 0x1A0000)
    else if off < 0x1C0000 then 0
    else if off < 0x1C1000 then d.eventRead32 (off - 0x1C0000)
    else if off < 0x1E0000 then 0
    else if off < 0x1E1000 then d.healthRead32 (off - 0x1E0000)
    else if off < 0x200000 then 0
    else if off < 0x201000 then d.securityRead32 (off - 0x200000)
    else 0

/-- The 64-bit register, or 64-bit word of a wider one, at an offset that is a multiple of 8, where one stands (R412). -/
def Dev.read64 (d : Dev) (off : Nat) : Option Nat :=
  if off < 0x010000 then (if off = 0x08 ∨ (0x20 ≤ off ∧ off < 0x68) then some (d.capRead off) else none)
  else if off < 0x010800 then (if off = 0x010028 then some d.host.cntDbRead.toNat else none)
  else if off < 0x010900 then some (wordAt d.host.msixPending ((off - 0x010800) / 8))
  else if off < 0x011000 then none
  else if off < 0x011200 then d.ringRead64 (off - 0x011000)
  else if off < 0x012000 then none
  else if off < 0x013000 then d.claimsRead64 (off - 0x012000)
  else if off < 0x018000 then none
  else if off < 0x020000 then
    (if off % 16 = 0 then some (Tbl.lookD d.host.msixAddr ((off - 0x018000) / 16) (0 : Word)).toNat else none)
  else if off < 0x040000 then d.claimRead64 ((off - 0x020000) / 0x1000) (off % 0x1000)
  else if off < 0x080000 then d.dieRead64 ((off - 0x040000) / 0x10000) (off % 0x10000)
  else if off < 0x081000 then d.hoistRead64 (off - 0x080000)
  else if off < 0x100000 then none
  else if off < 0x102000 then d.xbarRead64 (off - 0x100000)
  else if 0x130040 ≤ off ∧ off < 0x130068 then some (cntAt d.shuttle.cnt (off - 0x130000))
  else if off < 0x140000 then none
  else if off < 0x14C000 then d.portRead64 ((off - 0x140000) / 0x400) (off % 0x400)
  else if off < 0x160000 then none
  else if off < 0x161000 then d.routingRead64 (off - 0x160000)
  else if off < 0x180000 then none
  else if off < 0x181000 then d.collRead64 (off - 0x180000)
  else if off < 0x1A0000 then none
  else if off < 0x1A0200 then d.timeRead64 (off - 0x1A0000)
  else if off < 0x1C0000 then none
  else if off < 0x1C1000 then d.eventRead64 (off - 0x1C0000)
  else if off < 0x1E0000 then none
  else if off < 0x1E1000 then d.healthRead64 (off - 0x1E0000)
  else if off < 0x200000 then none
  else if off < 0x201000 then d.securityRead64 (off - 0x200000)
  else none

/-- What a read of CFGWIN returns: a 64-bit register whole or by halves, two 32-bit registers together, 0 with management stopped (R392);
none for a size or alignment that R41 handles as Unsupported Request. -/
def Dev.cfgRead (d : Dev) (off : BitVec 24) (size : Nat) : Option Nat :=
  let o := off.toNat
  if (size ≠ 4 ∧ size ≠ 8) ∨ o % size ≠ 0 then none
  else if d.health.stopped then some 0
  else
    let half := fun (a : Nat) => match d.read64 (a / 8 * 8) with | some v => v / 2 ^ (8 * (a % 8)) % 2 ^ 32 | none => d.read32 a
    some (if size = 4 then half o else half o + half (o + 4) * 2 ^ 32)

end Sys2Proof.Machine
end

