-- ==== Sys2Proof/Machine/Register.lean ====
section
/-!
DEFINITION. REGISTER_WRITE: a write of CFGWIN by its offset, over the register tables of every block (R4, R41, R411, R412, Table 0.5).
-/
namespace Sys2Proof.Machine

/-- A second write follows the first. -/
def andThen (o : Host.Outcome State Fault Refusal) (f : State → Host.Outcome State Fault Refusal) : Host.Outcome State Fault Refusal :=
  match o with | .next s => f s | .fault a => .fault a | .refused a => .refused a

/-- Bits of a written word. -/
def wbits (v : W32) (hi lo : Nat) : Nat := bits v.toNat hi lo

/-! ## Fields common to every block (Table 0.5, Table 3.6) -/

/-- A write of the *_CTL register. -/
def writeCtl (b : BlockId) (v : W32) (s : State) : Host.Outcome State Fault Refusal :=
  if v.getLsbD 0 then answer s (s.dev.enable b) else answerMem s (s.dev.disable s.mem b)

/-- A write of the *_STS register: REJECT and AUTO_STOP clear where 1 is written. -/
def Dev.clearSts (d : Dev) (b : BlockId) (v : W32) : Dev :=
  let x := d.block b
  d.setBlock b { x with reject := x.reject && !v.getLsbD 31, autoStop := x.autoStop && !v.getLsbD 30 }

/-- A write of an RWE field: it acts only while the block is OFF. -/
def Dev.rwe (d : Dev) (b : BlockId) (f : Dev → Dev) : Dev := if d.isOff b then f d else d

/-! ## The host interface and the MSI-X table (Tables 3.8, 3.9) -/

/-- DATA and the mask bit of an MSI-X entry (PRESUMED, notes/assumptions/46.md: the PCI layout). -/
def msixReg (n o : Nat) (v : W32) (s : State) : Host.Outcome State Fault Refusal :=
  let d := s.dev
  match o with
  | 8 => answer s { d with host := { d.host with msixData := Tbl.put d.host.msixData n v } }
  | 12 =>
    if v.getLsbD 0 then answer s { d with host := { d.host with msixMask := d.host.msixMask ||| BitVec.ofNat 2048 (2 ^ n) } }
    else answer s (({ d with host := { d.host with msixMask := d.host.msixMask &&& ~~~ BitVec.ofNat 2048 (2 ^ n) } }).flushMsix)
  | _ => answer s d

/-! ## Rings (Tables 4.11, 4.12) -/

/-- A 32-bit register of the ring window. -/
def ringReg (o : Nat) (v : W32) (s : State) : Host.Outcome State Fault Refusal :=
  let d := s.dev
  let r := d.ringSel.toNat
  let set := fun (f : Ring → Ring) => answer s (d.rwe (ringBlock r) (fun d => d.modRing r f))
  match o with
  | 0x00 => answer s { d with ringSel := v.setWidth 10 }
  | 0x04 => writeCtl (ringBlock r) v s
  | 0x08 => answer s (d.clearSts (ringBlock r) v)
  | 0x10 => set (fun g => { g with
      halt := v.getLsbD 31, sqLog2 := BitVec.ofNat 5 (wbits v 28 24), cqLog2 := BitVec.ofNat 5 (wbits v 20 16),
      index := BitVec.ofNat 6 (wbits v 13 8), claim := v.setWidth 5 })
  | 0x14 => set (fun g => { g with
      irqCount := BitVec.ofNat 8 (wbits v 31 24), irqTimeout := BitVec.ofNat 12 (wbits v 23 12), vector := v.setWidth 11 })
  | 0x30 => set (fun g => { g with sqHead := v })
  | 0x34 => set (fun g => { g with cqTail := v })
  | 0x44 => answer s { d with epochClaim := BitVec.ofNat 5 (wbits v 12 8), epochSlot := v.setWidth 8 }
  | _ => answer s d

/-- Word `i` of RINGS_STOP_MAP: AUTO_STOP of the rings it names clears. -/
def Dev.clearStops (d : Dev) (i : Nat) (v : Word) : Dev :=
  (setBits 64 v.toNat).foldl (fun d k =>
    let b := ringBlock (64 * i + k)
    d.setBlock b { d.block b with autoStop := false }) d

/-! ## Claims (Tables 11.7, 11.8) -/

/-- A 32-bit register of a claim. -/
def claimReg (c : Fin 32) (o : Nat) (v : W32) (s : State) : Host.Outcome State Fault Refusal :=
  let d := s.dev
  let set := fun (f : Claim → Claim) => answer s (d.rwe (.claim c) (fun d => d.modClaim c.val f))
  match o with
  | 0x00C => execClaimCfgWrite c v s
  | 0x010 => execClaimShareWrite c false v s
  | 0x014 => execClaimShareWrite c true v s
  | 0x018 => set (fun k => { k with tallyFirst := BitVec.ofNat 16 (wbits v 31 16), tallyCount := v.setWidth 16 })
  | 0x01C => set (fun k => { k with cores := v })
  | 0x040 | 0x044 | 0x048 | 0x04C => set (fun k => { k with near := Tbl.put k.near ((o - 0x040) / 4) (v.setWidth 20) })
  | 0x080 =>
    (match wbits v 1 0 with
    | 1 => execClaimPreempt c (v.getLsbD 2) s
    | 2 => restoreClaim s c (v.getLsbD 3)
    | _ => answer s d)
  | 0x088 =>
    let us := wbits v 19 0
    answer s (if us = 0 ∨ 1000000 < us then d.claimsReject else d.modClaim c.val (fun k => { k with preTo := BitVec.ofNat 20 us }))
  | 0x0E0 => answer s (d.modClaim c.val (fun k => { k with restCores := v }))
  | 0x240 => execClaimMeterSelWrite c v s
  | _ => answer s d

/-- A 64-bit register of a claim. -/
def Dev.claimReg64 (d : Dev) (c o : Nat) (v : Word) : Option Dev :=
  if 0x020 ≤ o ∧ o < 0x040 then
    some (d.rwe (claimBlock c) (fun d => d.modClaim c (fun k => { k with lanes := Tbl.put k.lanes ((o - 0x020) / 8) v })))
  else if 0x0C0 ≤ o ∧ o < 0x0E0 then some (d.modClaim c (fun k => { k with restLanes := Tbl.put k.restLanes ((o - 0x0C0) / 8) v }))
  else if 0x100 ≤ o ∧ o < 0x180 then some (d.modClaim c (fun k => { k with seeds := Tbl.put k.seeds ((o - 0x100) / 8) v }))
  else match o with
    | 0x090 => some (d.modClaim c (fun k => { k with ctxAddr := v.setWidth 42 }))
    | 0x098 => some (d.modClaim c (fun k => { k with ctxArea := v.setWidth 42 }))
    | _ => none

/-! ## Loom dies (Tables 2.3, 10.12) -/

/-- A 32-bit register of a loom die. -/
def dieReg (n : Fin 4) (o : Nat) (v : W32) (s : State) : Host.Outcome State Fault Refusal :=
  let d := s.dev
  match o with
  | 0x0200 => execGovCtlWrite n v s
  | 0x0204 => execGovPaceWrite n v s
  | 0x0208 => execGovVrangeWrite n v s
  | 0x020C => execGovSupplyWrite n v s
  | 0x0210 => answer s (d.modDie n.val (fun x => { x with
      paceLost := x.paceLost && !v.getLsbD 31, writeReject := x.writeReject && !v.getLsbD 30 }))
  | 0x0300 =>
    if v.getLsbD 0 then execCounterSnap n (v.getLsbD 1) s
    else if v.getLsbD 1 then execCounterClear n s
    else answer s d
  | 0x0500 => execLdTierAutoWrite n v s
  | 0x0504 => answer s (d.modDie n.val (fun x => { x with tierReject := x.tierReject && !v.getLsbD 31 }))
  | _ => answer s d

/-! ## The hoist block (Table 10.10) -/

/-- A 32-bit register of the hoist block. -/
def hoistReg (o : Nat) (v : W32) (s : State) : Host.Outcome State Fault Refusal :=
  let d := s.dev
  match o with
  | 0x10 => execHoistCfgWrite v s
  | 0x20 => answer s { d with hoist := { d.hoist with sel := v.setWidth 18 } }
  | 0x24 =>
    answer s (match wbits v 1 0 with
      | 1 => d.objCreate | 2 => d.objDestroy | 3 => d.objQuery | _ => d)
  | _ => answer s d

/-- Rewrite the 64-bit word `i` of a wide staged register. -/
def putWord {w : Nat} (x : BitVec w) (i : Nat) (v : Word) : BitVec w :=
  BitVec.ofNat w (x.toNat - x.toNat / 2 ^ (64 * i) % 2 ^ 64 * 2 ^ (64 * i) + v.toNat * 2 ^ (64 * i))

/-! ## Crossbar, ports and routing (Tables 12.8, 12.10, 13.11) -/

/-- A 32-bit register of the crossbar block. -/
def xbarReg (o : Nat) (v : W32) (s : State) : Host.Outcome State Fault Refusal :=
  let d := s.dev
  match o with
  | 0x08 => execXbarPlaneCtlWrite v s
  | 0x0C => answer s { d with xbar := { d.xbar with planeReject := d.xbar.planeReject && !v.getLsbD 31 } }
  | 0x20 => execXbarRedWrite 0 v s
  | 0x24 => execXbarRedWrite 1 v s
  | 0x28 => execXbarRedWrite 2 v s
  | 0x30 => answer s (d.rwe .xbar (fun d => { d with xbar := { d.xbar with deTo := BitVec.ofNat 16 (wbits v 31 16), remTo := v.setWidth 16 } }))
  | 0x1000 => answer s { d with xbar := { d.xbar with rgnSel := v.setWidth 12 } }
  | 0x1004 =>
    (match wbits v 1 0 with
    | 1 => execRgnWrite s | 2 => execRgnInvalidate s | 3 => execRgnRead s | _ => answer s d)
  | _ => answer s d

/-- FAB_PORT_CFG. -/
def Dev.portCfg (d : Dev) (p : Fin 48) (v : W32) : Dev :=
  d.rwe (.port p) (fun d => d.modPort p.val (fun x => { x with cfg := {
    mask := BitVec.ofNat 4 (wbits v 31 28), degrade := BitVec.ofNat 2 (wbits v 25 24), retryLimit := BitVec.ofNat 8 (wbits v 15 8),
    linkTo := v.setWidth 8 } }))

/-- A 32-bit register of the routing block. -/
def routingReg (o : Nat) (v : W32) (s : State) : Host.Outcome State Fault Refusal :=
  let d := s.dev
  match o with
  | 0x10 => execRtAdaptWrite v s
  | 0x14 => answer s { d with routing := { d.routing with adaptReject := d.routing.adaptReject && !v.getLsbD 31 } }
  | 0x18 => answer s (d.rwe .routing (fun d => { d with routing := { d.routing with mirror := v &&& 0x8FFFFF1F#32 } }))
  | 0x20 => answer s { d with routing := { d.routing with l2pSel := v &&& 0x800FFFFF#32 } }
  | 0x24 => execRtL2pDataWrite v s
  | 0x28 => answer s { d with routing := { d.routing with spanSel := v &&& 0x80000FFF#32 } }
  | _ => answer s d

/-! ## Collectives and time (Tables 14.7, 15.8) -/

/-- A 32-bit register of the collective block. -/
def collReg (o : Nat) (v : W32) (s : State) : Host.Outcome State Fault Refusal :=
  let d := s.dev
  match o with
  | 0x10 => answer s { d with coll := { d.coll with sel := v.setWidth 6 } }
  | 0x14 =>
    (match wbits v 1 0 with
    | 1 => answer s d.grpDefine | 2 => answer s d.grpRelease | 3 => answer s d.grpRead | _ => answer s d)
  | _ => answer s d

/-- A 32-bit register of the time block. -/
def timeReg (o : Nat) (v : W32) (s : State) : Host.Outcome State Fault Refusal :=
  let d := s.dev
  let set := fun (f : TimeBlk → TimeBlk) => { d with time := f d.time }
  match o with
  | 0x08 => answer s (d.rwe .time (fun d => { d with time := { d.time with
      role := BitVec.ofNat 2 (wbits v 31 30), upPort := BitVec.ofNat 6 (wbits v 29 24), stepNs := v.setWidth 16 } }))
  | 0x18 => answer s (set (fun t => { t with unlockSeen := t.unlockSeen && !v.getLsbD 31 }))
  | 0x28 => answer s (set (fun t => { t with syncArm := v.getLsbD 0, syncIgnored := t.syncIgnored && !v.getLsbD 1 }))
  | 0x30 => execTimeBarCfgWrite v s
  | 0x38 => execTimeReproWrite v s
  | 0x3C => answer s (set (fun t => { t with spreadLost := t.spreadLost && !v.getLsbD 31, reproReject := t.reproReject && !v.getLsbD 30 }))
  | 0x40 => answer s (set (fun t => { t with tagSelClaim := BitVec.ofNat 5 (wbits v 20 16), tagSel := v.setWidth 16 }))
  | 0x44 =>
    (match wbits v 2 0 with
    | 1 => answer s d.tagAssign | 2 => answer s d.tagUnassign | 3 => answer s d.tagRevoke | 4 => answer s d.tagQuery | _ => answer s d)
  | 0x4C => answer s (d.rwe .time (fun d => { d with time := { d.time with
      tagQuiet := BitVec.ofNat 16 (wbits v 31 16), startTo := v.setWidth 16 } }))
  | 0x50 =>
    (match wbits v 1 0 with
    | 1 => answer s (d.jobStart (BitVec.ofNat 16 (wbits v 31 16)) (wbits v 13 8))
    | 2 => answer s (d.jobTeardown (BitVec.ofNat 16 (wbits v 31 16)) (wbits v 13 8))
    | _ => answer s d)
  | _ => answer s d

/-! ## Events, health and security (Tables 16.9, 17.6, 18.10) -/

/-- A 32-bit register of the event block. -/
def eventReg (o : Nat) (v : W32) (s : State) : Host.Outcome State Fault Refusal :=
  let d := s.dev
  match o with
  | 0x60 => answer s (d.dozeWrite v.toNat)
  | 0x80 => answer s { d with evt := { d.evt with krnSel := v.setWidth 5 } }
  | 0x90 =>
    (match wbits v 1 0 with
    | 1 => execKernelLoad s | 2 => execKernelStart s | 3 => execKernelStop s | _ => answer s d)
  | _ => answer s d

/-- A 32-bit register of the health block; whether the standby then fails in a handover that this write starts is open. -/
def healthReg (o : Nat) (v : W32) (s : State) : Host.Outcome State Fault Refusal :=
  let d := s.dev
  match o with
  | 0x0C => answer s (if v.getLsbD 0 then d.ack else d)
  | 0x18 => execSpareCtlWrite v s
  | 0x20 => if wbits v 1 0 = 1 then (let q := d.draw; execHandover (q.1.getLsbD 0) { s with dev := q.2 }) else answer s d
  | 0x30 => answerMem s (d.coldStartWrite (wbits v 31 16) (wbits v 1 0))
  | 0x48 => execPowerCapWrite v s
  | 0x68 => answer s (d.rwe .health (fun d => { d with health := { d.health with
      tqLog2 := BitVec.ofNat 5 (wbits v 28 24), tracePeriod := BitVec.ofNat 12 (wbits v 23 12) } }))
  | 0x70 => execTqHeadWrite v s
  | 0x74 => answer s (d.rwe .health (fun d => { d with health := { d.health with tdestValid := v.getLsbD 31, tdest := v.setWidth 20 } }))
  | _ => answer s d

/-- SEC_MBX_CMD: GO starts a message unless one is being served (R403). -/
def Dev.mailboxGo (d : Dev) (v : W32) : Dev :=
  if v.getLsbD 0 && !d.mbx.busy then { d with mbx := { d.mbx with busy := true, done := false } } else d

/-! ## The map (Table 19.1) -/

/-- A write of 32 bits where a 32-bit register stands. -/
def reg32 (off : Nat) (v : W32) (s : State) : Host.Outcome State Fault Refusal :=
  let d := s.dev
  match ctlBlock off, ctlBlock (off - 4) with
  | some b, _ => writeCtl b v s
  | none, some b => answer s (d.clearSts b v)
  | none, none =>
    if off = 0x010010 then
      answer s (d.rwe .hostif (fun d => { d with host := { d.host with pollUs := BitVec.ofNat 10 (wbits v 25 16), dbCtlMode := v.setWidth 2 } }))
    else if 0x011000 ≤ off ∧ off < 0x011200 then ringReg (off - 0x011000) v s
    else if off = 0x012000 then execClaimsFrameWrite v s
    else if off = 0x012004 then execClaimsLendWrite v s
    else if off = 0x012008 then answer s { d with frames := { d.frames with writeReject := d.frames.writeReject && !v.getLsbD 31 } }
    else if 0x018000 ≤ off ∧ off < 0x020000 then msixReg ((off - 0x018000) / 16) (off % 16) v s
    else if 0x020000 ≤ off ∧ off < 0x040000 then claimReg (Fin.ofNat 32 ((off - 0x020000) / 0x1000)) (off % 0x1000) v s
    else if 0x040000 ≤ off ∧ off < 0x080000 then dieReg (Fin.ofNat 4 ((off - 0x040000) / 0x10000)) (off % 0x10000) v s
    else if 0x080000 ≤ off ∧ off < 0x081000 then hoistReg (off - 0x080000) v s
    else if 0x100000 ≤ off ∧ off < 0x102000 then xbarReg (off - 0x100000) v s
    else if off = 0x130010 then
      answer s (d.rwe .shuttle (fun d => { d with shuttle := { d.shuttle with armTo := BitVec.ofNat 16 (wbits v 31 16) } }))
    else if 0x140000 ≤ off ∧ off < 0x14C000 ∧ off % 0x400 = 8 then answer s (d.portCfg (Fin.ofNat 48 ((off - 0x140000) / 0x400)) v)
    else if 0x160000 ≤ off ∧ off < 0x161000 then routingReg (off - 0x160000) v s
    else if 0x180000 ≤ off ∧ off < 0x181000 then collReg (off - 0x180000) v s
    else if 0x1A0000 ≤ off ∧ off < 0x1A0200 then timeReg (off - 0x1A0000) v s
    else if 0x1C0000 ≤ off ∧ off < 0x1C1000 then eventReg (off - 0x1C0000) v s
    else if 0x1E0000 ≤ off ∧ off < 0x1E1000 then healthReg (off - 0x1E0000) v s
    else if off = 0x200030 then answer s (d.mailboxGo v)
    else answer s d

/-- A write of 64 bits at an offset where a writable 64-bit register, or word of a wider one, stands. -/
def reg64 (off : Nat) (v : Word) (s : State) : Option (Host.Outcome State Fault Refusal) :=
  let d := s.dev
  let r := d.ringSel.toNat
  let ring := fun (f : Ring → Ring) => some (answer s (d.rwe (ringBlock r) (fun d => d.modRing r f)))
  match off with
  | 0x011018 => ring (fun g => { g with sqBase := v })
  | 0x011020 => ring (fun g => { g with cqBase := v })
  | 0x011028 => ring (fun g => { g with dbAddr := v })
  | 0x100010 => some (execXbarClassShareWrite v s)
  | 0x160008 => some (answer s (d.rwe .routing (fun d => { d with routing := { d.routing with
      domain := BitVec.ofNat 16 (v.toNat / 2 ^ 48), log := BitVec.ofNat 20 (v.toNat / 2 ^ 20), phys := v.setWidth 20 } })))
  | 0x160030 => some (execRtSpanDataWrite v s)
  | 0x1A0020 => some (answer s { d with time := { d.time with syncLoad := v } })
  | 0x1C0040 => some (answer s { d with evt := { d.evt with latch := d.evt.latch &&& ~~~ v } })
  | 0x1C0050 => some (answer s { d with evt := { d.evt with wakeMask := v &&& ~~~ 1#64 } })
  | 0x1C0058 => some (answer s { d with evt := { d.evt with wakeTick := v } })
  | 0x1C0088 => some (answer s { d with evt := { d.evt with krnAddr := v &&& BitVec.ofNat 64 (2 ^ 42 - 1) } })
  | 0x1E0060 => some (answer s (d.rwe .health (fun d => { d with health := { d.health with tqBase := v } })))
  | 0x200020 => some (answer s { d with mbx := { d.mbx with reqAddr := v } })
  | 0x200028 => some (answer s { d with mbx := { d.mbx with rspAddr := v } })
  | _ =>
    if 0x011180 ≤ off ∧ off < 0x011200 then some (answer s (d.clearStops ((off - 0x011180) / 8) v))
    else if 0x018000 ≤ off ∧ off < 0x020000 ∧ off % 16 = 0 then
      some (answer s { d with host := { d.host with msixAddr := Tbl.put d.host.msixAddr ((off - 0x018000) / 16) v } })
    else if 0x020000 ≤ off ∧ off < 0x040000 then (d.claimReg64 ((off - 0x020000) / 0x1000) (off % 0x1000) v).map (answer s)
    else if 0x080040 ≤ off ∧ off < 0x080080 then
      some (answer s { d with hoist := { d.hoist with entry := putWord d.hoist.entry ((off - 0x080040) / 8) v } })
    else if 0x101020 ≤ off ∧ off < 0x101040 then
      some (answer s { d with xbar := { d.xbar with rgnData := putWord d.xbar.rgnData ((off - 0x101020) / 8) v } })
    else if 0x180020 ≤ off ∧ off < 0x180030 then
      some (answer s { d with coll := { d.coll with data := putWord d.coll.data ((off - 0x180020) / 8) v } })
    else none

/-- A write of one half of a 64-bit register, or word of a wider one: the other half stays as it reads; of a W1C register it is 0, which
clears nothing. The registers of a claim are written whole (R261); half of one changes nothing (DESIGN CHOICE, notes/assumptions/46.md). -/
def half64 (off : Nat) (v : W32) (s : State) : Option (Host.Outcome State Fault Refusal) :=
  let base := off / 8 * 8
  let clears := base = 0x1C0040 ∨ (0x011180 ≤ base ∧ base < 0x011200)
  let old := if clears then 0 else (s.dev.read64 base).getD 0
  let new := if off % 8 = 0 then old / 2 ^ 32 * 2 ^ 32 + v.toNat else v.toNat * 2 ^ 32 + old % 2 ^ 32
  if 0x020000 ≤ base ∧ base < 0x040000 then none else reg64 base (BitVec.ofNat 64 new) s

/-- REGISTER_WRITE (R4, R41): 32 or 64 bits, naturally aligned; any other size or alignment is an Unsupported Request and changes nothing.
64 bits over two 32-bit registers write both, the lower first. HEALTH_COLD_START is served even with management stopped (R392). -/
def execRegisterWrite (off : BitVec 24) (size : Nat) (v : Word) (s : State) : Host.Outcome State Fault Refusal :=
  let o := off.toNat
  if o = 0x1E0030 ∧ size = 4 then reg32 o (v.setWidth 32) s
  else viaCfg s (
    if size = 4 ∧ o % 4 = 0 then (half64 o (v.setWidth 32) s).getD (reg32 o (v.setWidth 32) s)
    else if size = 8 ∧ o % 8 = 0 then
      match reg64 o v s with
      | some a => a
      | none => andThen (reg32 o (v.setWidth 32) s) (reg32 (o + 4) (BitVec.ofNat 32 (v.toNat / 2 ^ 32)))
    else answer s (s.dev.emit .unsupported))

end Sys2Proof.Machine
end

