-- ==== Sys2Proof/Machine/Window.lean ====
section
/-!
DEFINITION. Host accesses to device memory: HDMWIN and CXL.mem (R43, R44, R211, R233, R234, R377).
-/
namespace Sys2Proof.Machine

/-- The object a host access reaches: one that is READY or LOST (R211). -/
def Dev.hostObj (d : Dev) (a : Nat) : Option Obj := (d.findObj Obj.named a 1).map (fun e => e.2)

/-- The byte a host read returns: 0 for an unmapped address and in a LOST object. -/
def Dev.hostByte (d : Dev) (m : Memory) (a : Nat) : Byte :=
  match d.hostObj a with
  | some o => if o.st == .ready then d.readByte m a else 0
  | none => 0

/-- Count a host access that reaches no object, or a LOST one. -/
def Dev.countHost (d : Dev) (a : Nat) : Dev :=
  match d.hostObj a with
  | none => { d with hoist := { d.hoist with cntUnmapped := d.hoist.cntUnmapped + 1 } }
  | some o => if o.st == .lost then { d with hoist := { d.hoist with cntLost := d.hoist.cntLost + 1 } } else d

/-- A run of bytes cut at multiples of 64, where objects begin and end: address and bytes of each part. The fuel is the number of bytes. -/
def lineParts : Nat → Nat → List Byte → List (Nat × List Byte)
  | 0, _, _ => []
  | _, _, [] => []
  | fuel + 1, a, data => let k := 64 - a % 64; (a, data.take k) :: lineParts fuel (a + k) (data.drop k)

/-- The bytes of a host write that land, by address: those that reach no READY object are discarded. -/
def Dev.hostParts (d : Dev) (a : Nat) (data : List Byte) : List (Nat × List Byte) :=
  (lineParts data.length a data).filter (fun x => match d.hostObj x.1 with | some o => o.st == .ready | none => false)

/-- A host access finds that it cannot correct the line or word of its first byte: the units with a byte in it are lost (R233). -/
def Dev.hostFinds (d : Dev) (a : Nat) : Dev :=
  match d.hostObj a with
  | some o =>
    let i := (a - o.base) / o.unitSize
    if o.st != .ready then d
    else if o.isNear i then d.nearLost (o.unitDie i) a
    else d.deepLost (o.unitDie i) (o.deepPos i + (a - o.base) % o.unitSize)
  | none => d

def Dev.findsIf (d : Dev) (bad : Bool) (a : Nat) : Dev := if bad then d.hostFinds a else d

/-- A host read of device memory, with its data. -/
def Dev.hostRead (d : Dev) (m : Memory) (a n : Nat) : Dev :=
  ((d.countHost a).touchRange a n).emit (.data ((List.range n).map (fun i => d.hostByte m (a + i))))

/-- A host write of device memory. -/
def Dev.hostWrite (d : Dev) (a : Nat) (data : List Byte) : Dev × List MemOp :=
  (d.hostParts a data).foldl (fun (p : Dev × List MemOp) x => let q := p.1.storeAt x.1 x.2; (q.1, p.2 ++ q.2))
    ((d.countHost a).touchRange a data.length, [])

/-- HDMWIN_READ (R44, R233): served from device memory as it stands, where the access may find that a line cannot be corrected; at or above
2,304 GiB an Unsupported Request. -/
def execHdmwinRead (off : BitVec 42) (n : Nat) (bad : Bool) (s : State) : Host.Outcome State Fault Refusal :=
  let d := s.dev
  if !d.host.linkUp then answer s d
  else if Config.deviceEnd ≤ off.toNat then answer s (d.emit .unsupported)
  else answer s ((d.findsIf bad off.toNat).hostRead s.mem off.toNat n)

/-- HDMWIN_WRITE (R44, R232, R233): lands in device memory; at or above 2,304 GiB an Unsupported Request. -/
def execHdmwinWrite (off : BitVec 42) (data : List Byte) (bad : Bool) (s : State) : Host.Outcome State Fault Refusal :=
  let d := s.dev
  if !d.host.linkUp then answer s d
  else if Config.deviceEnd ≤ off.toNat then answer s (d.emit .unsupported)
  else answerMem s ((d.findsIf bad off.toNat).hostWrite off.toNat data)

/-- The host holds a line in its cache, which back-invalidate has the module know (R43). -/
def Dev.hostCaches (d : Dev) (line : Nat) : Dev :=
  if d.host.link.bi && !d.host.cached.contains line then { d with host := { d.host with cached := d.host.cached ++ [line] } } else d

/-- CXL_MEM_REQUEST (R43): a host read or write of a line through a committed decoder is served at the line's home; with CXL.mem not
negotiated, or outside every committed decoder, there is no such request. -/
def execCxlMemRequest (addr : BitVec 42) (data : Option (List Byte)) (bad : Bool) (s : State) : Host.Outcome State Fault Refusal :=
  let d := s.dev
  let covered := d.host.hdm.any (fun e => e.2.committed && decide (e.2.dpa.toNat ≤ addr.toNat) &&
    decide (addr.toNat < e.2.dpa.toNat + e.2.size.toNat))
  if d.host.linkUp && d.host.link.mem && covered then
    let d := d.findsIf bad addr.toNat
    match data with
    | none => answer s ((d.hostRead s.mem addr.toNat 64).hostCaches (addr.toNat / 64 * 64))
    | some bytes => answerMem s (d.hostWrite addr.toNat (bytes.take 64))
  else answer s d

end Sys2Proof.Machine
end

