-- ==== Sys2Proof/Machine/Dispatch.lean ====
section
/-!
DEFINITION. The one dispatch: each command to its meaning.
-/
namespace Sys2Proof.Machine

def exec (i : Instr) (s : State) : Host.Outcome State Fault Refusal :=
  match i with
  | .alwaysOnPowerUp mated mainOk auxOk identityOk noCopy => Sys2Proof.Machine.execAlwaysOnPowerUp mated mainOk auxOk identityOk noCopy s
  | .allPowerRemoved => Sys2Proof.Machine.execAllPowerRemoved s
  | .mainPowerUpRequest => Sys2Proof.Machine.execMainPowerUpRequest s
  | .hubSelfTestDone => Sys2Proof.Machine.execHubSelfTestDone s
  | .loomDieDomainOn d => Sys2Proof.Machine.execLoomDieDomainOn d s
  | .sequencingRetry dom => Sys2Proof.Machine.execSequencingRetry dom s
  | .dieReady d v t => Sys2Proof.Machine.execDieReady d v t s
  | .pstateRunning => Sys2Proof.Machine.execPstateRunning s
  | .auxInputLow => Sys2Proof.Machine.execAuxInputLow s
  | .auxInputRecovered => Sys2Proof.Machine.execAuxInputRecovered s
  | .mainUndervoltage aonHeld => Sys2Proof.Machine.execMainUndervoltage aonHeld s
  | .mainOvervoltage aonHeld => Sys2Proof.Machine.execMainOvervoltage aonHeld s
  | .mainProtectionClose => Sys2Proof.Machine.execMainProtectionClose s
  | .matedNHigh aonHeld => Sys2Proof.Machine.execMatedNHigh aonHeld s
  | .matedNSettled => Sys2Proof.Machine.execMatedNSettled s
  | .pwrWarnAsserted mainHeld aonHeld => Sys2Proof.Machine.execPwrWarnAsserted mainHeld aonHeld s
  | .coldStartArm => Sys2Proof.Machine.execColdStartArm s
  | .coldStartGo => Sys2Proof.Machine.execColdStartGo s
  | .coldStartArmExpiry => Sys2Proof.Machine.execColdStartArmExpiry s
  | .dieThermalTrip d => Sys2Proof.Machine.execDieThermalTrip d s
  | .hubThermalTrip => Sys2Proof.Machine.execHubThermalTrip s
  | .mgmtThermalTrip => Sys2Proof.Machine.execMgmtThermalTrip s
  | .thermClear => Sys2Proof.Machine.execThermClear s
  | .coolantInletHot => Sys2Proof.Machine.execCoolantInletHot s
  | .lowFlow => Sys2Proof.Machine.execLowFlow s
  | .i3cAddressWrite data => Sys2Proof.Machine.execI3cAddressWrite data s
  | .i3cRead n => Sys2Proof.Machine.execI3cRead n s
  | .i3cDynamicAddress a => Sys2Proof.Machine.execI3cDynamicAddress a s
  | .cxlRefclkLost => Sys2Proof.Machine.execCxlRefclkLost s
  | .timerefBad => Sys2Proof.Machine.execTimerefBad s
  | .timerefGood => Sys2Proof.Machine.execTimerefGood s
  | .hostLinkUp l => Sys2Proof.Machine.execHostLinkUp l s
  | .hostLinkDown => Sys2Proof.Machine.execHostLinkDown s
  | .linkTrainRetry clock => Sys2Proof.Machine.execLinkTrainRetry clock s
  | .perstAssert => Sys2Proof.Machine.execPerstAssert s
  | .perstDeassert => Sys2Proof.Machine.execPerstDeassert s
  | .hotReset => Sys2Proof.Machine.execHotReset s
  | .flr => Sys2Proof.Machine.execFlr s
  | .cxlReset => Sys2Proof.Machine.execCxlReset s
  | .globalPersistentFlush => Sys2Proof.Machine.execGlobalPersistentFlush s
  | .hdmCommit dec base size dpa ways => Sys2Proof.Machine.execHdmCommit dec base size dpa ways s
  | .hdmwinRead off n bad => Sys2Proof.Machine.execHdmwinRead off n bad s
  | .hdmwinWrite off data bad => Sys2Proof.Machine.execHdmwinWrite off data bad s
  | .doorbellSnoop r => Sys2Proof.Machine.execDoorbellSnoop r s
  | .doorbellPoll r => Sys2Proof.Machine.execDoorbellPoll r s
  | .doorbellReadReturn r line => Sys2Proof.Machine.execDoorbellReadReturn r line s
  | .msixUnmask v => Sys2Proof.Machine.execMsixUnmask v s
  | .enableSet b => Sys2Proof.Machine.execEnableSet b s
  | .enableClear b => Sys2Proof.Machine.execEnableClear b s
  | .enableCheckDone b => Sys2Proof.Machine.execEnableCheckDone b s
  | .blockReachesOff b => Sys2Proof.Machine.execBlockReachesOff b s
  | .registerWrite off size v => Sys2Proof.Machine.execRegisterWrite off size v s
  | .descriptorFetch r desc => Sys2Proof.Machine.execDescriptorFetch r desc s
  | .descriptorStart r => Sys2Proof.Machine.execDescriptorStart r s
  | .opComplete r count => Sys2Proof.Machine.execOpComplete r count s
  | .recordPost r ok => Sys2Proof.Machine.execRecordPost r ok s
  | .ringIrqTimeout r => Sys2Proof.Machine.execRingIrqTimeout r s
  | .deadlineReached r count => Sys2Proof.Machine.execDeadlineReached r count s
  | .nop r count => Sys2Proof.Machine.execNop r count s
  | .fence r count => Sys2Proof.Machine.execFence r count s
  | .tallySignal r count => Sys2Proof.Machine.execTallySignal r count s
  | .tallyWait r count => Sys2Proof.Machine.execTallyWait r count s
  | .repeatBy r count => Sys2Proof.Machine.execRepeatBy r count s
  | .skipIf r count => Sys2Proof.Machine.execSkipIf r count s
  | .timestamp r count => Sys2Proof.Machine.execTimestamp r count s
  | .matmul r count => Sys2Proof.Machine.execMatmul r count s
  | .conv r count => Sys2Proof.Machine.execConv r count s
  | .spmm r count => Sys2Proof.Machine.execSpmm r count s
  | .finish r count => Sys2Proof.Machine.execFinish r count s
  | .rngFill r count => Sys2Proof.Machine.execRngFill r count s
  | .assay r count => Sys2Proof.Machine.execAssay r count s
  | .sluice r count => Sys2Proof.Machine.execSluice r count s
  | .dispatch r count => Sys2Proof.Machine.execDispatch r count s
  | .returnSlot r count => Sys2Proof.Machine.execReturnSlot r count s
  | .returnAccum r count => Sys2Proof.Machine.execReturnAccum r count s
  | .combine r count => Sys2Proof.Machine.execCombine r count s
  | .cancelBatch r count => Sys2Proof.Machine.execCancelBatch r count s
  | .hoist r count => Sys2Proof.Machine.execHoist r count s
  | .settle r count => Sys2Proof.Machine.execSettle r count s
  | .place r count => Sys2Proof.Machine.execPlace r count s
  | .copy r count => Sys2Proof.Machine.execCopy r count s
  | .remotePut r count => Sys2Proof.Machine.execRemotePut r count s
  | .remoteGet r count => Sys2Proof.Machine.execRemoteGet r count s
  | .remoteAtomic r count => Sys2Proof.Machine.execRemoteAtomic r count s
  | .collAllreduce r count => Sys2Proof.Machine.execCollAllreduce r count s
  | .collReduceScatter r count => Sys2Proof.Machine.execCollReduceScatter r count s
  | .collAllgather r count => Sys2Proof.Machine.execCollAllgather r count s
  | .collBcastLine r count => Sys2Proof.Machine.execCollBcastLine r count s
  | .collBarrier r count => Sys2Proof.Machine.execCollBarrier r count s
  | .permitIssue d stalled short => Sys2Proof.Machine.execPermitIssue d stalled short s
  | .governorWindow dies hub power => Sys2Proof.Machine.execGovernorWindow dies hub power s
  | .govCtlWrite d v => Sys2Proof.Machine.execGovCtlWrite d v s
  | .govPaceWrite d v => Sys2Proof.Machine.execGovPaceWrite d v s
  | .govVrangeWrite d v => Sys2Proof.Machine.execGovVrangeWrite d v s
  | .govSupplyWrite d v => Sys2Proof.Machine.execGovSupplyWrite d v s
  | .powerCapWrite v => Sys2Proof.Machine.execPowerCapWrite v s
  | .counterSnap d clear => Sys2Proof.Machine.execCounterSnap d clear s
  | .counterClear d => Sys2Proof.Machine.execCounterClear d s
  | .laneFault d res op => Sys2Proof.Machine.execLaneFault d res op s
  | .spareSelfTestDone d core pass => Sys2Proof.Machine.execSpareSelfTestDone d core pass s
  | .shuttleCount p => Sys2Proof.Machine.execShuttleCount p s
  | .shuttleArmed p => Sys2Proof.Machine.execShuttleArmed p s
  | .shuttleRefuse p => Sys2Proof.Machine.execShuttleRefuse p s
  | .shuttleRows p => Sys2Proof.Machine.execShuttleRows p s
  | .shuttleResult p => Sys2Proof.Machine.execShuttleResult p s
  | .shuttleAck p => Sys2Proof.Machine.execShuttleAck p s
  | .shuttleArmTimeout c ch => Sys2Proof.Machine.execShuttleArmTimeout c ch s
  | .objCreate => Sys2Proof.Machine.execObjCreate s
  | .objCreateDone n => Sys2Proof.Machine.execObjCreateDone n s
  | .objDestroy => Sys2Proof.Machine.execObjDestroy s
  | .objQuery => Sys2Proof.Machine.execObjQuery s
  | .moveCommit n unit => Sys2Proof.Machine.execMoveCommit n unit s
  | .hoistEvaluation d => Sys2Proof.Machine.execHoistEvaluation d s
  | .heatHalving => Sys2Proof.Machine.execHeatHalving s
  | .patrolScrub d near off res => Sys2Proof.Machine.execPatrolScrub d near off res s
  | .ldTierAutoWrite d v => Sys2Proof.Machine.execLdTierAutoWrite d v s
  | .hoistCfgWrite v => Sys2Proof.Machine.execHoistCfgWrite v s
  | .frameStart => Sys2Proof.Machine.execFrameStart s
  | .meterAdmit m => Sys2Proof.Machine.execMeterAdmit m s
  | .claimPreempt c inside => Sys2Proof.Machine.execClaimPreempt c inside s
  | .preemptSave c => Sys2Proof.Machine.execPreemptSave c s
  | .preemptTimeout c => Sys2Proof.Machine.execPreemptTimeout c s
  | .claimRestore c => Sys2Proof.Machine.execClaimRestore c s
  | .claimRestoreRestart c => Sys2Proof.Machine.execClaimRestoreRestart c s
  | .claimShareWrite c second v => Sys2Proof.Machine.execClaimShareWrite c second v s
  | .claimCfgWrite c v => Sys2Proof.Machine.execClaimCfgWrite c v s
  | .claimsFrameWrite v => Sys2Proof.Machine.execClaimsFrameWrite v s
  | .claimsLendWrite v => Sys2Proof.Machine.execClaimsLendWrite v s
  | .claimMeterSelWrite c v => Sys2Proof.Machine.execClaimMeterSelWrite c v s
  | .fabricLinkUp p t => Sys2Proof.Machine.execFabricLinkUp p t s
  | .portRetrain p => Sys2Proof.Machine.execPortRetrain p s
  | .flitReceive p f => Sys2Proof.Machine.execFlitReceive p f s
  | .flitNak p seq => Sys2Proof.Machine.execFlitNak p seq s
  | .linkRetryExhausted p lane => Sys2Proof.Machine.execLinkRetryExhausted p lane s
  | .linkAckTimeout p lane => Sys2Proof.Machine.execLinkAckTimeout p lane s
  | .leavingNoticeReceive p => Sys2Proof.Machine.execLeavingNoticeReceive p s
  | .loopbackDone p pass => Sys2Proof.Machine.execLoopbackDone p pass s
  | .packetForward p k => Sys2Proof.Machine.execPacketForward p k s
  | .packetIngress k => Sys2Proof.Machine.execPacketIngress k s
  | .noticeReceive k => Sys2Proof.Machine.execNoticeReceive k s
  | .deliveryConfirm src dst cls => Sys2Proof.Machine.execDeliveryConfirm src dst cls s
  | .rtL2pDataWrite v => Sys2Proof.Machine.execRtL2pDataWrite v s
  | .rtL2pDataRead => Sys2Proof.Machine.execRtL2pDataRead s
  | .rtSpanDataWrite v => Sys2Proof.Machine.execRtSpanDataWrite v s
  | .rtSpanDataRead => Sys2Proof.Machine.execRtSpanDataRead s
  | .rtAdaptWrite v => Sys2Proof.Machine.execRtAdaptWrite v s
  | .planeRetire b => Sys2Proof.Machine.execPlaneRetire b s
  | .xbarPlaneCtlWrite v => Sys2Proof.Machine.execXbarPlaneCtlWrite v s
  | .xbarClassShareWrite v => Sys2Proof.Machine.execXbarClassShareWrite v s
  | .xbarRedWrite c v => Sys2Proof.Machine.execXbarRedWrite c v s
  | .deArrival p k => Sys2Proof.Machine.execDeArrival p k s
  | .putReceive k => Sys2Proof.Machine.execPutReceive k s
  | .getReqReceive k n => Sys2Proof.Machine.execGetReqReceive k n s
  | .atomicReqReceive k => Sys2Proof.Machine.execAtomicReqReceive k s
  | .getDataReceive k => Sys2Proof.Machine.execGetDataReceive k s
  | .atomicRspReceive k => Sys2Proof.Machine.execAtomicRspReceive k s
  | .remoteAckReceive k => Sys2Proof.Machine.execRemoteAckReceive k s
  | .remoteNakReceive k => Sys2Proof.Machine.execRemoteNakReceive k s
  | .deTimeout op => Sys2Proof.Machine.execDeTimeout op s
  | .remTimeout op => Sys2Proof.Machine.execRemTimeout op s
  | .rgnWrite => Sys2Proof.Machine.execRgnWrite s
  | .rgnInvalidate => Sys2Proof.Machine.execRgnInvalidate s
  | .rgnRead => Sys2Proof.Machine.execRgnRead s
  | .grpDefine => Sys2Proof.Machine.execGrpDefine s
  | .grpRelease => Sys2Proof.Machine.execGrpRelease s
  | .grpRead => Sys2Proof.Machine.execGrpRead s
  | .collUpReceive k => Sys2Proof.Machine.execCollUpReceive k s
  | .collDownReceive k => Sys2Proof.Machine.execCollDownReceive k s
  | .collWindowReceive k => Sys2Proof.Machine.execCollWindowReceive k s
  | .collPresentReceive k => Sys2Proof.Machine.execCollPresentReceive k s
  | .collAbortReceive k => Sys2Proof.Machine.execCollAbortReceive k s
  | .collTimeout slot => Sys2Proof.Machine.execCollTimeout slot s
  | .timingExchange => Sys2Proof.Machine.execTimingExchange s
  | .timingRequestReceive p => Sys2Proof.Machine.execTimingRequestReceive p s
  | .timingAnswerReceive t1 t2 t3 t4 up depth => Sys2Proof.Machine.execTimingAnswerReceive t1 t2 t3 t4 up depth s
  | .timingExchangeMissed => Sys2Proof.Machine.execTimingExchangeMissed s
  | .syncArm => Sys2Proof.Machine.execSyncArm s
  | .syncPulse => Sys2Proof.Machine.execSyncPulse s
  | .barrierArriveReceive gid seq src => Sys2Proof.Machine.execBarrierArriveReceive gid seq src s
  | .barrierReleaseReceive p gid seq src scheduled value => Sys2Proof.Machine.execBarrierReleaseReceive p gid seq src scheduled value s
  | .barrierReleaseTick slot => Sys2Proof.Machine.execBarrierReleaseTick slot s
  | .tagAssign => Sys2Proof.Machine.execTagAssign s
  | .tagUnassign => Sys2Proof.Machine.execTagUnassign s
  | .tagRevoke => Sys2Proof.Machine.execTagRevoke s
  | .tagQuery => Sys2Proof.Machine.execTagQuery s
  | .jobStart tag slot => Sys2Proof.Machine.execJobStart tag slot s
  | .jobTeardown tag slot => Sys2Proof.Machine.execJobTeardown tag slot s
  | .jobStartReceive src tag gid attempt => Sys2Proof.Machine.execJobStartReceive src tag gid attempt s
  | .jobAnswerReceive src tag attempt accepted refused missing => Sys2Proof.Machine.execJobAnswerReceive src tag attempt accepted refused missing s
  | .jobChildWaitTimeout tag => Sys2Proof.Machine.execJobChildWaitTimeout tag s
  | .jobStartTimeout => Sys2Proof.Machine.execJobStartTimeout s
  | .jobGoReceive tag gid attempt rel => Sys2Proof.Machine.execJobGoReceive tag gid attempt rel s
  | .jobAbortReceive tag gid attempt => Sys2Proof.Machine.execJobAbortReceive tag gid attempt s
  | .tagActivate tag => Sys2Proof.Machine.execTagActivate tag s
  | .startingTagTimeout tag => Sys2Proof.Machine.execStartingTagTimeout tag s
  | .jobRevokeReceive tag gid => Sys2Proof.Machine.execJobRevokeReceive tag gid s
  | .tagDrainComplete tag => Sys2Proof.Machine.execTagDrainComplete tag s
  | .jobFreeReportReceive tag gid member => Sys2Proof.Machine.execJobFreeReportReceive tag gid member s
  | .teardownTimeout => Sys2Proof.Machine.execTeardownTimeout s
  | .timeReproWrite v => Sys2Proof.Machine.execTimeReproWrite v s
  | .timeBarCfgWrite v => Sys2Proof.Machine.execTimeBarCfgWrite v s
  | .eventSourceAssert unit src => Sys2Proof.Machine.execEventSourceAssert unit src s
  | .eventDeliver unit core => Sys2Proof.Machine.execEventDeliver unit core s
  | .endOfService unit core level => Sys2Proof.Machine.execEndOfService unit core level s
  | .monitorSample levels sample => Sys2Proof.Machine.execMonitorSample levels sample s
  | .kernelLoad => Sys2Proof.Machine.execKernelLoad s
  | .kernelStart => Sys2Proof.Machine.execKernelStart s
  | .kernelStop => Sys2Proof.Machine.execKernelStop s
  | .kernelException c => Sys2Proof.Machine.execKernelException c s
  | .kernelIssue d core desc => Sys2Proof.Machine.execKernelIssue d core desc s
  | .kernelHeadWrite d core v => Sys2Proof.Machine.execKernelHeadWrite d core v s
  | .dozeRequest v => Sys2Proof.Machine.execDozeRequest v s
  | .dozeEntryDone d => Sys2Proof.Machine.execDozeEntryDone d s
  | .wakeDone d => Sys2Proof.Machine.execWakeDone d s
  | .moduleDozeRequest => Sys2Proof.Machine.execModuleDozeRequest s
  | .moduleDozeClear => Sys2Proof.Machine.execModuleDozeClear s
  | .handover standbyFails => Sys2Proof.Machine.execHandover standbyFails s
  | .deputyWatchdogExpiry g pass => Sys2Proof.Machine.execDeputyWatchdogExpiry g pass s
  | .serviceAck => Sys2Proof.Machine.execServiceAck s
  | .clearEventRecords => Sys2Proof.Machine.execClearEventRecords s
  | .spareCtlWrite v => Sys2Proof.Machine.execSpareCtlWrite v s
  | .dieContain d => Sys2Proof.Machine.execDieContain d s
  | .engineFault b => Sys2Proof.Machine.execEngineFault b s
  | .tallyEntryFault t => Sys2Proof.Machine.execTallyEntryFault t s
  | .telemetryPost => Sys2Proof.Machine.execTelemetryPost s
  | .traceSample => Sys2Proof.Machine.execTraceSample s
  | .tqHeadWrite v => Sys2Proof.Machine.execTqHeadWrite v s
  | .getIdentity tag => Sys2Proof.Machine.execGetIdentity tag s
  | .attest req => Sys2Proof.Machine.execAttest req s
  | .fwLoad req image => Sys2Proof.Machine.execFwLoad req image s
  | .unlockChallenge tag => Sys2Proof.Machine.execUnlockChallenge tag s
  | .unlock req => Sys2Proof.Machine.execUnlock req s
  | .relock tag => Sys2Proof.Machine.execRelock tag s
  | .unlockNonceExpiry => Sys2Proof.Machine.execUnlockNonceExpiry s
  | .debugScopeExpiry scope => Sys2Proof.Machine.execDebugScopeExpiry scope s
  | .getProtection tag => Sys2Proof.Machine.execGetProtection tag s
  | .change req => Sys2Proof.Machine.execChange req s
  | .cxlMemRequest addr data bad => Sys2Proof.Machine.execCxlMemRequest addr data bad s
  | .mailboxBadMessage req => Sys2Proof.Machine.execMailboxBadMessage req s

end Sys2Proof.Machine
end

