-- ==== Sys2Proof/Machine/Step.lean ====
section
/-!
DEFINITION. One step: the command at the front of the queue, or, on an empty queue, one tick of the timebase (notes/assumptions/6.md).
-/
namespace Sys2Proof.Machine

/-- The state with its queue replaced. -/
def State.withQueue (s : State) (q : List Instr) : State := { s with pending := q }

/-- A tick on an empty queue: the counter, the pace gates and the pending latches move (R25, R36, R335). -/
def idle (s : State) : State := { s with dev := s.dev.tick }

/-- One step. -/
def step (s : State) : Host.Outcome State Fault Refusal :=
  match s.pending with
  | [] => .next (idle s)
  | c :: rest => exec c (s.withQueue rest)

/-- The state with the command that a word spells at the front of its queue. -/
def State.withFetchWord (s : State) (nbits w : Nat) : State :=
  match Sys2Proof.decodeTableWord nbits w with
  | some c => s.withQueue (c :: s.pending)
  | none => s

end Sys2Proof.Machine
end

