-- ==== Sys2Proof/Safety.lean ====
section
/-!
DEFINITION. What the claims about the machine are stated in: a step that completes, device memory in its canonical form, and the outcomes
a command can have.
-/
namespace Sys2Proof.Machine

/-- A command completes: it answers a next state. -/
def Completes (c : Instr) (s : State) : Prop := ∃ t, exec c s = .next t

/-- A command completes in a next state that has a property. -/
def Ends (c : Instr) (s : State) (p : State → Prop) : Prop := ∃ t, exec c s = .next t ∧ p t

/-- A started op whose work has ended with a result; an op of class 2 did not run. -/
def Entry.doneWith (e : Entry) (res : Result) : Entry := { e with phase := .done, res := res, ran := classOf res.status != 2 }

/-- Ring `r` alone differs, and in it only the descriptors that are in hand. -/
def OnlyRing (r : Nat) (s t : State) : Prop := ∀ k, k ≠ r → t.dev.ring k = s.dev.ring k

/-- What the work of an op may touch besides memory: its ring, its claim's accounts and meters, the turn at its engine, the dies' counters,
heat and doze, the host's copies that it recalls, and the draws of free values. `t` gives the values of those parts, `d` all others. -/
def Dev.worked (d t : Dev) : Dev :=
  { d with
    rings := t.rings, claims := t.claims, turns := t.turns, dies := t.dies, health := t.health, dozeAborted := t.dozeAborted,
    draws := t.draws, out := t.out, host := { d.host with cached := t.host.cached, msixPending := t.host.msixPending } }

/-- What a packet that is sent may touch: the meters and their requests, the op that sends it, the ports, the counters and queues of routing,
the counters of dropped packets, the exchange channels and their counters, alarms, the spread mark, the draws of free values and what is put
out. -/
def Dev.sent (d t : Dev) : Dev :=
  { d with
    rings := t.rings, claims := t.claims, ports := t.ports, health := t.health, draws := t.draws, out := t.out,
    host := { d.host with msixPending := t.host.msixPending },
    frames := { d.frames with asks := t.frames.asks, lastServed := t.frames.lastServed },
    shuttle := { d.shuttle with cnt := t.shuttle.cnt, chans := t.shuttle.chans, cancels := t.shuttle.cancels },
    routing := { d.routing with cnt := t.routing.cnt, detours := t.routing.detours, held := t.routing.held },
    xbar := { d.xbar with cnt := t.xbar.cnt, rem := t.xbar.rem }, time := { d.time with spreadLost := t.time.spreadLost } }

/-- Every outcome of a command that is a next state has a property. -/
def Keeps (c : Instr) (s : State) (p : State → Prop) : Prop := ∀ t, exec c s = .next t → p t

/-- The invariant of device memory: addresses strictly rising, and no byte listed that reads as an unlisted one does. -/
def MemoryOk (s : State) : Prop := Memory.wf s.mem

end Sys2Proof.Machine
end

