-- ==== Sys2Proof/Certificates/Slice0/Obligations.lean ====
section
/-!
DEFINITION. The statements for the provers, by chapter of the spec. `Ends c s p`: command `c` answers from `s` a next state with
property `p`. A frame is written as an equation of the whole next state, in which the parts that may change are its own.
-/
open Sys2Proof Sys2Proof.Machine

/-- For every command c, every state and every rest of the queue, a step with c at the front is exec of c on the state with that rest. (That commands wait in a queue is the model's own frame, notes/assumptions/1.md.) On an empty queue a step answers a next state in which one physical tick has passed, the timebase counter having advanced by one unless a sync load falls due on that tick, when it takes its load or marks the pulse ignored; memory, the queue and the signed store are as they were. That a step on an empty queue is a tick is the model's choice, notes/assumptions/6.md. -/
def Obligations.StepRunsTheFrontCommand : Prop :=
  (∀ (c : Instr) (rest : List Instr) (s : State), step (s.withQueue (c :: rest)) = exec c (s.withQueue rest)) ∧
  ∀ s : State, s.pending = [] →
    ∃ t, step s = .next t ∧ t.dev.phys = s.dev.phys + 1 ∧ (s.dev.time.syncDue = false → t.dev.now = s.dev.now + 1 ∧ t.dev.skew = s.dev.skew) ∧
      (s.dev.time.syncDue = true → t.dev.time = { s.dev.time with syncArm := false, syncDue := false,
                                                                   syncIgnored := s.dev.time.syncIgnored || s.dev.anyClaimRuns } ∧
        t.dev.now = if s.dev.anyClaimRuns then s.dev.now + 1 else s.dev.time.syncLoad) ∧
      t.mem = s.mem ∧ t.pending = [] ∧ t.dev.store = s.dev.store

/-- In the reset state memory has its canonical form and lists nothing, no command waits, PSTATE is AUX_ONLY with the hub domain off, every block is OFF, every ring stands as Table 4.12 resets it and no die is on. The values the spec states none for are the model's, notes/assumptions/2.md. -/
def Obligations.ResetStandsInAuxOnly : Prop :=
  MemoryOk State.reset ∧ State.reset.mem = [] ∧ State.reset.pending = [] ∧ State.reset.dev.power.pstate = .auxOnly ∧
    State.reset.dev.power.hubOn = false ∧ (∀ b, State.reset.dev.isOff b = true) ∧ (∀ r, State.reset.dev.ring r = Ring.reset) ∧
    (∀ n, (State.reset.dev.die n).on = false)

/-- Every command, in every state, answers a next state; it leaves the queue of waiting commands as it was, and what it does to device memory is a sequence of stores of bytes and drops of ranges. No command is refused and none faults. -/
def Obligations.EveryCommandAnswers : Prop :=
  ∀ (c : Instr) (s : State), ∃ (d : Dev) (ws : List MemOp), exec c s = .next { s with dev := d, mem := s.mem.applyAll ws }

/-- From every state whose memory has the canonical form (addresses strictly rising, no listed byte reading as an unlisted one does), whatever the queue holds and whatever the command's operands, a step that answers a next state answers one whose memory has it. The form is the model's, notes/assumptions/3.md. -/
def Obligations.EveryStepKeepsMemoryCanonical : Prop :=
  ∀ s t : State, MemoryOk s → step s = .next t → MemoryOk t

/-- ALWAYS_ON_POWER_UP leaves AUX_ONLY with the supplies and the connector as they are and memory empty, and its record UNWARNED with an all-ones tick where it was found ARMED; a section of the signed store with no valid copy is read as Table 18.1 states, its alarm still to come, MIN_SECVER and the loss tick free. MAIN_POWER_UP_REQUEST by Kolti in MGMT_UP, with MAIN_OK, the connector seated and no hub trip, enters MAIN_SEQUENCING with the hub domain on. HUB_SELF_TEST_DONE sets the ports that are DOWN TRAINING. LOOM_DIE_DOMAIN_ON turns a die on, with its written settings, once the dies before it are on, unless its retries are used up. DIE_READY, with the supply at its target, has it ready and its block CHECKING, or contained where its slowest canary is below the floor. SEQUENCING_RETRY counts a retry, the first three doing nothing more. PSTATE_RUNNING enters RUNNING with CAP_GEN 1 and ARMED set, cause and tick unchanged. Each equation of the whole state names all that may change. -/
def Obligations.PowerUpFollowsItsSteps : Prop :=
  ∀ s : State,
    (∀ mated mainOk auxOk identityOk (noCopy : BitVec 5), Ends (.alwaysOnPowerUp mated mainOk auxOk identityOk noCopy) s (fun t =>
      let a := s.dev.store
      t.pending = s.pending ∧ (∀ a, a < 2 ^ 64 → t.mem.get a = 0) ∧ t.dev.power.pstate = .auxOnly ∧ t.dev.power.mated = mated ∧
      t.dev.power.mainOk = mainOk ∧ t.dev.power.auxOk = auxOk ∧ t.dev.power.hubOn = false ∧
      t.dev.power.identityBad = (!identityOk || noCopy.getLsbD 0) ∧
      (noCopy = 0 → t.dev.store = (if a.armed then { a with lossCause := 3, lossTick := BitVec.allOnes 64, armed := false, noCopy := 0 }
                                   else { a with noCopy := 0 })) ∧
      t.dev.store.noCopy = noCopy ∧
      (noCopy.getLsbD 1 = true → t.dev.store.authorities = [] ∧ t.dev.store.debugKeys = []) ∧
      (noCopy.getLsbD 1 = false → noCopy.getLsbD 2 = false → t.dev.store.authorities = a.authorities ∧ t.dev.store.debugKeys = a.debugKeys) ∧
      (noCopy.getLsbD 2 = true → t.dev.store.protSeq = 0 ∧ t.dev.store.regionPolicy = 2 ∧ t.dev.store.isolation = 1 ∧
        t.dev.store.siteMarks = 0 ∧ t.dev.store.ideRequired = true ∧ t.dev.store.authorities = []) ∧
      (noCopy.getLsbD 3 = true → t.dev.health.cond = 0 ∧ t.dev.healthNow = 2 ∧ t.dev.power.svcReqN = true ∧ t.dev.store.conditions = 0) ∧
      (noCopy.getLsbD 4 = true → t.dev.store.lossCause = 0 ∧ t.dev.store.armed = false))) ∧
    (s.dev.power.kolti = true → s.dev.power.pstate = .mgmtUp → s.dev.power.mainOk = true → s.dev.power.matedSettled = true →
      s.dev.power.hubTripped = false → Ends .mainPowerUpRequest s (fun t =>
        t = { s with dev := { s.dev with power := t.dev.power } } ∧ t.dev.power.pstate = .mainSequencing ∧ t.dev.power.hubOn = true ∧
        t.dev.power.hubReady = false ∧ t.dev.power.retries = [] ∧ t.dev.power.mainOk = true)) ∧
    (s.dev.power.pstate = .mainSequencing → s.dev.power.hubOn = true → s.dev.power.hubReady = false →
      Ends .hubSelfTestDone s (fun t =>
        t = { s with dev := { s.dev with power := { s.dev.power with hubReady := true }, ports := t.dev.ports } } ∧
        ∀ p < 48, (t.dev.port p).link = (if (s.dev.port p).link = .down then .training else (s.dev.port p).link))) ∧
    (∀ n : Fin 4, s.dev.power.pstate = .mainSequencing → s.dev.power.hubOn = true → (s.dev.die n.val).on = false →
      (s.dev.die n.val).contained = false → (∀ k < n.val, (s.dev.die k).on = true) → Tbl.lookD s.dev.power.retries n.val 0 ≤ 3 →
      Ends (.loomDieDomainOn n) s (fun t =>
        t = { s with dev := { s.dev with dies := t.dev.dies } } ∧ (t.dev.die n.val).on = true ∧ (t.dev.die n.val).ready = false ∧
        (t.dev.die n.val).gov = (s.dev.die n.val).govReg ∧ (t.dev.die n.val).shownState = (if (t.dev.die n.val).governed then 1 else 0) ∧
        ((s.dev.die n.val).govReg.vmin ≤ 720 → 720 ≤ (s.dev.die n.val).govReg.vmax → (t.dev.die n.val).vout = 720) ∧
        ∀ k, k ≠ n.val → t.dev.die k = s.dev.die k)) ∧
    (∀ (n : Fin 4) slowest junction, s.dev.power.pstate = .mainSequencing → (s.dev.die n.val).on = true → (s.dev.die n.val).ready = false →
      (s.dev.die n.val).contained = false → s.dev.isOff (.die n) = true → (s.dev.die n.val).target ≠ 0 →
      (s.dev.die n.val).vout = (s.dev.die n.val).target → floorRate (s.dev.die n.val).vout.toNat junction ≤ slowest.toNat →
      Ends (.dieReady n slowest junction) s (fun t =>
        t = { s with dev := { s.dev with dies := t.dev.dies, blocks := t.dev.blocks, health := t.dev.health, host := t.dev.host,
                                          out := t.dev.out } } ∧
        (t.dev.die n.val).ready = true ∧ (t.dev.block (.die n)).st = .checking)) ∧
    (∀ (n : Fin 4) slowest junction, s.dev.power.pstate = .mainSequencing → (s.dev.die n.val).on = true → (s.dev.die n.val).ready = false →
      (s.dev.die n.val).contained = false → (s.dev.die n.val).target ≠ 0 → (s.dev.die n.val).vout = (s.dev.die n.val).target →
      slowest.toNat < floorRate (s.dev.die n.val).vout.toNat junction →
      Ends (.dieReady n slowest junction) s (fun t =>
        (t.dev.die n.val).contained = true ∧ (t.dev.die n.val).on = false ∧ t.dev.health.cond.getLsbD 10 = true ∧ t.pending = s.pending)) ∧
    (∀ dom : Fin 5, s.dev.power.pstate = .mainSequencing → Tbl.lookD s.dev.power.retries dom.val 0 < 3 →
      Ends (.sequencingRetry dom) s (fun t =>
        t = { s with dev := { s.dev with power := { s.dev.power with retries := t.dev.power.retries } } } ∧
        Tbl.lookD t.dev.power.retries dom.val 0 = Tbl.lookD s.dev.power.retries dom.val 0 + 1)) ∧
    (s.dev.power.pstate = .mainSequencing → s.dev.power.hubReady = true → (∀ n < 4, (s.dev.die n).ready = true) →
      Ends .pstateRunning s (fun t =>
        t = { s with dev := { s.dev with power := { s.dev.power with pstate := .running }, evt := t.dev.evt, capFinal := true,
                                          capGen := 1, capTick := t.dev.capTick, store := { s.dev.store with armed := true } } }))

/-- With the always-on domain on: AUX_INPUT_LOW with MAIN_OK switches management to the internal path (AUX_OK clear, AUX_FROM_MAIN set) and raises its two alarms; AUX_INPUT_RECOVERED switches back; MAIN_PROTECTION_CLOSE sets MAIN_OK; MATED_N_SETTLED shows the connector seated. THERM_CLEAR releases THERM_N. COOLANT_INLET_HOT and LOW_FLOW each raise one health alarm, which raises vector 1, and nothing else. The I3C target, with the always-on domain on: a write of one even byte sets the register address and is acknowledged; an odd one is NACKed and changes nothing else; a read returns the asked number of bytes, those above register 0x11 being 0, and HEALTH_PWR_STS at 0x0E reads with its low byte first; dynamic address assignment overrides the strap address. Nothing else changes. -/
def Obligations.SuppliesAndPinsFollowTheirEvents : Prop :=
  ∀ s : State,
    (s.dev.power.aonOn = true → s.dev.power.mainOk = true → Ends .auxInputLow s (fun t =>
      t = { s with dev := { s.dev with
        power := { s.dev.power with auxOk := false, auxFromMain := true }, health := t.dev.health
        host := { s.dev.host with msixPending := t.dev.host.msixPending }, out := t.dev.out } } ∧
      t.dev.health.alarms = s.dev.health.alarms + 2 ∧ (.msix 1 ∈ t.dev.out ∨ t.dev.host.msixPending.getLsbD 1 = true))) ∧
    (s.dev.power.aonOn = true → Ends .auxInputRecovered s (fun t =>
      t = { s with dev := { s.dev with power := { s.dev.power with auxOk := true, auxFromMain := false } } })) ∧
    (s.dev.power.aonOn = true → Ends .mainProtectionClose s (fun t =>
      t = { s with dev := { s.dev with power := { s.dev.power with mainOk := true, mainLive := true, protectionOpen := false } } })) ∧
    (s.dev.power.aonOn = true → Ends .matedNSettled s (fun t =>
      t = { s with dev := { s.dev with power := { s.dev.power with mated := true, matedSettled := true } } })) ∧
    Ends .thermClear s (fun t => t = { s with dev := { s.dev with power := { s.dev.power with thermN := false } } }) ∧
    Ends .coolantInletHot s (fun t =>
      t = { s with dev := { s.dev with health := t.dev.health, host := t.dev.host, out := t.dev.out } } ∧ t.dev.health.alarms = s.dev.health.alarms + 1) ∧
    Ends .lowFlow s (fun t =>
      t = { s with dev := { s.dev with health := t.dev.health, host := t.dev.host, out := t.dev.out } } ∧ t.dev.health.alarms = s.dev.health.alarms + 1) ∧
    (s.dev.power.aonOn = true →
      (∀ a : Byte, a.toNat % 2 = 0 → Ends (.i3cAddressWrite [a]) s (fun t =>
        t = { s with dev := { s.dev with power := { s.dev.power with i3cPtr := a }, out := .i3cAck :: s.dev.out } })) ∧
      (∀ a : Byte, a.toNat % 2 = 1 → Ends (.i3cAddressWrite [a]) s (fun t =>
        t = { s with dev := { s.dev with out := .i3cNack :: s.dev.out } })) ∧
      (∀ n, Ends (.i3cRead n) s (fun t => ∃ bytes : List Byte,
        t = { s with dev := { s.dev with out := .i3cData bytes :: s.dev.out } } ∧ bytes.length = n ∧
        (∀ i < n, 0x11 < s.dev.power.i3cPtr.toNat + i → bytes[i]? = some 0) ∧
        (s.dev.power.i3cPtr = 0x0E → 2 ≤ n → bytes.take 2 = toLe 2 (s.dev.pwrSts % 2 ^ 16)))) ∧
      (∀ a, Ends (.i3cDynamicAddress a) s (fun t =>
        t = { s with dev := { s.dev with power := { s.dev.power with i3cDynamic := some a } } } ∧ t.dev.power.i3cAddress = a)))

/-- With main present and no quiesce under way or ended, the internal path not feeding management and the always-on domain held: MAIN_UNDERVOLTAGE, and MAIN_OVERVOLTAGE, which opens the protection, run the whole sequence of Table 1.10: it ends QUIESCED with the hub domain and every die off, MAIN_OK clear, device memory empty and the power-loss record written with its cause and the tick of step 1, the rest of the signed store and the queue as they were. -/
def Obligations.LossOfMainRunsTheQuiesce : Prop :=
  ∀ s : State, s.dev.power.aonOn = true → s.dev.power.mainLive = true → s.dev.power.mgmtTripped = false →
    s.dev.power.pstate ≠ .quiescing → s.dev.power.pstate ≠ .quiesced → s.dev.power.auxFromMain = false →
    Ends (.mainUndervoltage true) s (fun t =>
      t.dev.power.pstate = .quiesced ∧ t.dev.power.hubOn = false ∧ t.dev.power.mainOk = false ∧ (∀ n, (t.dev.die n).on = false) ∧
      (∀ a, a < 2 ^ 64 → t.mem.get a = 0) ∧ t.pending = s.pending ∧ t.dev.now = s.dev.now ∧
      t.dev.store = { s.dev.store with lossCause := 3, lossTick := s.dev.now, armed := false }) ∧
    Ends (.mainOvervoltage true) s (fun t =>
      t.dev.power.pstate = .quiesced ∧ t.dev.power.hubOn = false ∧ t.dev.power.mainOk = false ∧ t.dev.power.protectionOpen = true ∧
      (∀ n, (t.dev.die n).on = false) ∧ (∀ a, a < 2 ^ 64 → t.mem.get a = 0) ∧ t.pending = s.pending ∧ t.dev.now = s.dev.now ∧
      t.dev.store = { s.dev.store with lossCause := 4, lossTick := s.dev.now, armed := false })

/-- With main present and no quiesce under way or ended, PWR_WARN_N outside MAIN_SEQUENCING runs the quiesce and records WARNED_CLEAN where main held, else WARNED_INCOMPLETE; MATED_N high, with a main domain on in RUNNING, records UNWARNED; both end QUIESCED with the domains off and memory empty. In MAIN_SEQUENCING, PWR_WARN_N undoes the power-up: MGMT_UP, no record. A hub thermal trip takes every main domain off, asserts THERM_N, clears ARMED and returns PSTATE to MGMT_UP. A management trip holds the module in AUX_ONLY with its domain off. ALL_POWER_REMOVED loses all but the signed store. -/
def Obligations.WarnedAndUnseatedLossesQuiesce : Prop :=
  ∀ s : State,
    (s.dev.canQuiesce = true → s.dev.power.pstate ≠ .mainSequencing → ∀ mainHeld, Ends (.pwrWarnAsserted mainHeld true) s (fun t =>
      t.dev.power.pstate = .quiesced ∧ t.dev.power.hubOn = false ∧ (∀ n, (t.dev.die n).on = false) ∧
      (∀ a, a < 2 ^ 64 → t.mem.get a = 0) ∧ t.pending = s.pending ∧
      t.dev.store = { s.dev.store with lossCause := if mainHeld then 1 else 2, lossTick := s.dev.now, armed := false })) ∧
    (s.dev.power.pstate = .running → s.dev.power.hubOn = true → Ends (.matedNHigh true) s (fun t =>
      t.dev.power.pstate = .quiesced ∧ t.dev.power.hubOn = false ∧ t.dev.power.mated = false ∧ (∀ n, (t.dev.die n).on = false) ∧
      (∀ a, a < 2 ^ 64 → t.mem.get a = 0) ∧ t.pending = s.pending ∧
      t.dev.store = { s.dev.store with lossCause := 3, lossTick := s.dev.now, armed := false })) ∧
    (s.dev.canQuiesce = true → s.dev.power.pstate = .mainSequencing → ∀ mainHeld aonHeld, Ends (.pwrWarnAsserted mainHeld aonHeld) s (fun t =>
      t.dev.power.pstate = .mgmtUp ∧ t.dev.power.hubOn = false ∧ (∀ n, (t.dev.die n).on = false) ∧ t.dev.store = s.dev.store ∧
      t.pending = s.pending)) ∧
    (s.dev.power.hubOn = true → Ends .hubThermalTrip s (fun t =>
      t.dev.power.pstate = .mgmtUp ∧ t.dev.power.hubOn = false ∧ t.dev.power.thermN = true ∧ t.dev.power.thermTrip = true ∧
      t.dev.power.hubTripped = true ∧ (∀ n, (t.dev.die n).on = false) ∧ t.dev.store = { s.dev.store with armed := false } ∧
      t.pending = s.pending)) ∧
    (s.dev.power.mgmtOn = true → Ends .mgmtThermalTrip s (fun t =>
      t.dev.power.pstate = .auxOnly ∧ t.dev.power.mgmtOn = false ∧ t.dev.power.thermN = true ∧ t.dev.host.linkUp = false ∧
      t.dev.store = s.dev.store ∧ t.dev.now = s.dev.now)) ∧
    Ends .allPowerRemoved s (fun t =>
      t.dev.power.aonOn = false ∧ t.dev.power.mgmtOn = false ∧ t.dev.power.hubOn = false ∧ t.dev.store = s.dev.store ∧
      (∀ a, a < 2 ^ 64 → t.mem.get a = 0) ∧ t.pending = s.pending)

/-- COLD_START_ARM records its tick and changes nothing else; COLD_START_ARM_EXPIRY drops it. COLD_START_GO within 1,000,000 ticks of an ARM returns the module to AUX_ONLY: every block that the health record does not name OFF, memory empty, ARMED clear with no power-loss record, the timebase counter and the inputs as they were. Without a pending ARM it changes nothing. -/
def Obligations.ColdStartTakesTwoWrites : Prop :=
  ∀ s : State,
    Ends .coldStartArm s (fun t => t = { s with dev := { s.dev with power := { s.dev.power with armTick := some s.dev.phys } } }) ∧
    Ends .coldStartArmExpiry s (fun t => t = { s with dev := { s.dev with power := { s.dev.power with armTick := none } } }) ∧
    (s.dev.power.armTick = none → Ends .coldStartGo s (fun t => t = s)) ∧
    (∀ k, s.dev.power.armTick = some k → elapsed s.dev.phys k ≤ 1000000 → Ends .coldStartGo s (fun t =>
      t.dev.power.pstate = .auxOnly ∧ t.dev.power.hubOn = false ∧ t.dev.now = s.dev.now ∧
      t.dev.power.mainOk = s.dev.power.mainOk ∧ t.dev.power.auxOk = s.dev.power.auxOk ∧
      (s.dev.store.engines = [] → ∀ b, t.dev.isOff b = true) ∧ (∀ a, a < 2 ^ 64 → t.mem.get a = 0) ∧ t.pending = s.pending ∧
      t.dev.store = { s.dev.store with armed := false }))

/-- With management running and Fixed-Pace off: a MODE of 0 or 1, a PACE from 300 to 1,050 in tens, a VMAX and VMIN of 600 to 850 mV in fives around SUPPLY, and a SUPPLY in fives inside the range are each taken in full into the register of that die; any other value, or any write under Fixed-Pace, sets WRITE_REJECT and changes nothing else. A cap from 1,800 to 3,600 in tens is taken; any other only adds a log. -/
def Obligations.GovernorWritesTakeOnlyLegalFields : Prop :=
  ∀ s : State, s.dev.health.stopped = false → ∀ (n : Fin 4) (v : W32),
    let x := s.dev.die n.val
    let ctl := bits v.toNat 1 0
    let pace := bits v.toNat 10 0
    let hi := bits v.toNat 25 16
    let lo := bits v.toNat 9 0
    let cap := bits v.toNat 11 0
    let lands := fun (c : Instr) (ok : Prop) (g : GovSet) =>
      (s.dev.fixedPace = false → ok → Ends c s (fun t => t = { s with dev := s.dev.setDie n.val { x with govReg := g } })) ∧
      (s.dev.fixedPace = true ∨ ¬ ok → Ends c s (fun t => t = { s with dev := s.dev.setDie n.val { x with writeReject := true } }))
    lands (.govCtlWrite n v) (ctl ≤ 1) { x.govReg with mode := BitVec.ofNat 2 ctl } ∧
    lands (.govPaceWrite n v) (300 ≤ pace ∧ pace ≤ 1050 ∧ pace % 10 = 0) { x.govReg with pace := BitVec.ofNat 11 pace } ∧
    lands (.govVrangeWrite n v)
      (600 ≤ lo ∧ lo ≤ x.govReg.supply.toNat ∧ x.govReg.supply.toNat ≤ hi ∧ hi ≤ 850 ∧ lo % 5 = 0 ∧ hi % 5 = 0)
      { x.govReg with vmax := BitVec.ofNat 10 hi, vmin := BitVec.ofNat 10 lo } ∧
    lands (.govSupplyWrite n v)
      (600 ≤ lo ∧ lo ≤ 850 ∧ lo % 5 = 0 ∧ x.govReg.vmin.toNat ≤ lo ∧ lo ≤ x.govReg.vmax.toNat) { x.govReg with supply := BitVec.ofNat 10 lo } ∧
    (1800 ≤ cap ∧ cap ≤ 3600 ∧ cap % 10 = 0 → Ends (.powerCapWrite v) s (fun t =>
      t = { s with dev := { s.dev with cap := { s.dev.cap with capReg := BitVec.ofNat 12 cap } } })) ∧
    (¬ (1800 ≤ cap ∧ cap ≤ 3600 ∧ cap % 10 = 0) → Ends (.powerCapWrite v) s (fun t =>
      t = { s with dev := { s.dev with health := t.dev.health } } ∧ t.dev.health.alarms = s.dev.health.alarms))

/-- GOVERNOR_WINDOW with a reading for each die: every powered die that does not doze has its settings in force, an effective pace that is a multiple of 10 and at most its setpoint, the paces the current limit and the cap impose, the thermal limit and its slowest canary, which LD_CANARY shows with the lowest index that reads it, and a supply that has moved at most 5 mV; a cap written is in force. Memory, the queue, the rings and the signed store stay, and but on a frame's first tick the claims. -/
def Obligations.WindowHoldsEveryLimit : Prop :=
  ∀ (s : State) (z0 z1 z2 z3 : DieReading) (hub : List (BitVec 11)) (power : Nat),
    Ends (.governorWindow [z0, z1, z2, z3] hub power) s (fun t =>
    t.mem = s.mem ∧ t.pending = s.pending ∧ t.dev.rings = s.dev.rings ∧ t.dev.store = s.dev.store ∧
    (s.dev.now ≠ s.dev.frames.start → t.dev.claims = s.dev.claims) ∧ t.dev.cap.hubCanaries = hub ∧
    t.dev.cap.cap = s.dev.cap.capReg ∧
    ∀ (n : Fin 4), (s.dev.die n.val).governed = true →
      let z := nth [z0, z1, z2, z3] n.val z0
      let x := s.dev.die n.val
      let y := t.dev.die n.val
      y.gov = x.govReg ∧ y.eff.toNat % 10 = 0 ∧ y.eff.toNat ≤ x.govReg.pace.toNat ∧ y.eff.toNat ≤ y.capPace ∧ y.eff.toNat ≤ y.curPace ∧
      y.eff.toNat ≤ thermalPace z.junction ∧ y.eff.toNat ≤ y.slowest.toNat ∧
      ((∃ c ∈ z.canaries, floorRate x.vout.toNat z.junction ≤ c.toNat) → (∀ c ∈ z.canaries, floorRate x.vout.toNat z.junction ≤ c.toNat) →
        (∀ c ∈ z.canaries, y.slowest ≤ c) ∧ nth z.canaries (slowestOf z.canaries).2 0 = y.slowest ∧
        ∀ i < (slowestOf z.canaries).2, nth z.canaries i 0 ≠ y.slowest) ∧
      y.vout.toNat ≤ x.vout.toNat + 5 ∧ x.vout.toNat ≤ y.vout.toNat + 5)

/-- PERMIT_ISSUE on a die that serves ops and does not doze, with 1,000 or more accumulated, takes 1,000 off the accumulator and issues one permit to every active lane: banked permits and the four counters PICKS, SHORT, STALL and IDLE together rise by the number of active lanes, and no bank passes 16. With no lane op in hand each active lane's bank rises by one, at most 16, and a permit over that is counted IDLE. COUNTER_SNAP and COUNTER_CLEAR set their pending latch; the tick that follows on an empty queue latches the counters with the new tick, or clears them. All else in the die and all other dies stay. -/
def Obligations.PermitsAndCountersMove : Prop :=
  ∀ (s : State) (n : Fin 4) (stalled short : BitVec 64),
    (s.dev.dieServes n.val = true → (s.dev.die n.val).governed = true → 1000 ≤ (s.dev.die n.val).acc → (∀ l < 64, (s.dev.die n.val).bank l ≤ 16) →
      let x := s.dev.die n.val
      let lanes := setBits 64 x.laneLog.toNat
      let four := fun (y : Die) => Tbl.lookD y.cnt cntPicks 0 + Tbl.lookD y.cnt cntShort 0 + Tbl.lookD y.cnt cntStall 0 + Tbl.lookD y.cnt cntIdle 0
      let held := fun (y : Die) => ((List.range 64).map y.bank).sum
      Ends (.permitIssue n stalled short) s (fun t =>
        t = { s with dev := { s.dev with dies := t.dev.dies, rings := t.dev.rings } } ∧ (∀ k, k ≠ n.val → t.dev.die k = s.dev.die k) ∧
        (t.dev.die n.val).acc = x.acc - 1000 ∧ (∀ l < 64, (t.dev.die n.val).bank l ≤ 16) ∧
        (∀ l < 64, x.laneLog.getLsbD l = false → (t.dev.die n.val).bank l = x.bank l) ∧
        four (t.dev.die n.val) + BitVec.ofNat 64 (held (t.dev.die n.val)) = four x + BitVec.ofNat 64 (held x) + BitVec.ofNat 64 lanes.length ∧
        ((∀ g ∈ s.dev.rings, ∀ e ∈ g.2.ents, laneOpcode (hOpcode e.desc) = false ∧ e.work = none) →
          t.dev.rings = s.dev.rings ∧
          (∀ l < 64, (t.dev.die n.val).bank l = if x.laneLog.getLsbD l then min 16 (x.bank l + 1) else x.bank l) ∧
          Tbl.lookD (t.dev.die n.val).cnt cntIdle 0 =
            Tbl.lookD x.cnt cntIdle 0 + BitVec.ofNat 64 (lanes.filter (fun l => x.bank l == 16)).length))) ∧
    (s.dev.health.stopped = false → ∀ clear, Ends (.counterSnap n clear) s (fun t =>
      t = { s with dev := s.dev.setDie n.val { s.dev.die n.val with
        snapPend := true, clearPend := (s.dev.die n.val).clearPend || clear } } ∧
      ((idle t).dev.die n.val).latched = (s.dev.die n.val).cnt ∧ ((idle t).dev.die n.val).snapTick = (idle t).dev.now)) ∧
    (s.dev.health.stopped = false → Ends (.counterClear n) s (fun t =>
      t = { s with dev := s.dev.setDie n.val { s.dev.die n.val with clearPend := true } } ∧ ((idle t).dev.die n.val).cnt = []))

/-- HOST_LINK_UP brings the link up as it settled where training may run (management on, PERST_N high, the reference clock there, the supply in range for 100 ms), and does nothing where it may not: below 32 GT/s a plain endpoint with no CXL.cache, CXL.mem or back-invalidate and one alarm; back-invalidate only at 64 GT/s. HOST_LINK_DOWN and CXL_REFCLK_LOST take a RUNNING host interface to OFF with AUTO_STOP and 0x0101, count one loss, drop every doorbell line, and keep configuration space. LINK_TRAIN_RETRY, 100 ms after the last attempt, looks at the clock again; it and PERST_DEASSERT start training where it may run. PERST_ASSERT (0x0108) holds the link down, and HOT_RESET (0x0105), FLR (0x0106) and CXL_RESET (0x0107) leave it up; all four reset configuration space. GLOBAL_PERSISTENT_FLUSH does nothing. Memory, claims and objects stay in all of them. -/
def Obligations.HostLinkEventsMoveTheInterface : Prop :=
  ∀ s : State,
    let keeps := fun (t : State) =>
      t = { s with dev := { s.dev with host := t.dev.host, rings := t.dev.rings, blocks := t.dev.blocks, health := t.dev.health,
                                       mbx := t.dev.mbx, out := t.dev.out } } ∧
      ∀ r, t.dev.ring r = { s.dev.ring r with lineHeld := false, lineRead := false }
    let off := fun (t : State) (why : BitVec 16) =>
      t.dev.block .hostif = { s.dev.block .hostif with st := .off, autoStop := true, reason := why }
    let fresh := fun (h : HostIf) => h.busMaster = false ∧ h.bar0 = 0 ∧ h.bar2 = 0 ∧ h.bar4 = 0 ∧ h.msixOn = false ∧ h.msixPending = 0 ∧
      h.msixMask = BitVec.allOnes 2048 ∧ h.hdm = [] ∧ h.cached = []
    let settled : Bool := Nat.ble 100000000 (elapsed s.dev.phys s.dev.host.supplyTick)
    let may : Prop := s.dev.power.mgmtOn = true ∧ s.dev.host.perstLow = false ∧ s.dev.host.refclk = true ∧ settled = true
    (∀ l : LinkResult, s.dev.host.linkUp = false →
      (may → Ends (.hostLinkUp l) s (fun t =>
        t = { s with dev := { s.dev with
              host := { s.dev.host with linkUp := true, link := t.dev.host.link, training := false, msixPending := t.dev.host.msixPending,
                                        busMaster := l.busMaster, bar2 := l.bar2 },
              health := t.dev.health, out := t.dev.out } } ∧
        (l.speed = 1 → t.dev.host.link.cache = false ∧ t.dev.host.link.mem = false ∧ t.dev.host.link.bi = false ∧
          t.dev.health.alarms = s.dev.health.alarms + 1) ∧
        (l.speed = 2 ∨ l.speed = 3 → t.dev.host.link = { l with bi := l.bi && l.speed == 3 } ∧ t.dev.health = s.dev.health ∧
          t.dev.host.msixPending = s.dev.host.msixPending ∧ t.dev.out = s.dev.out))) ∧
      (¬ may → Ends (.hostLinkUp l) s (fun t => t = s))) ∧
    (s.dev.host.linkUp = true → s.dev.isRunning .hostif = true → Ends .hostLinkDown s (fun t =>
      keeps t ∧ off t 0x0101 ∧ t.dev.host.linkUp = false ∧ t.dev.host.cntLinkDown = s.dev.host.cntLinkDown + 1 ∧
      t.dev.host.bar2 = s.dev.host.bar2 ∧ t.dev.host.hdm = s.dev.host.hdm ∧ t.dev.host.busMaster = s.dev.host.busMaster)) ∧
    (s.dev.host.linkUp = true → s.dev.isRunning .hostif = true → Ends .cxlRefclkLost s (fun t =>
      keeps t ∧ off t 0x0101 ∧ t.dev.host.linkUp = false ∧ t.dev.host.refclk = false ∧
      t.dev.host.cntLinkDown = s.dev.host.cntLinkDown + 1 ∧ t.dev.host.bar2 = s.dev.host.bar2 ∧ t.dev.host.hdm = s.dev.host.hdm)) ∧
    (∀ clock, s.dev.host.linkUp = false → s.dev.host.perstLow = false → s.dev.past s.dev.host.trainTick 100000 = true → Ends (.linkTrainRetry clock) s (fun t =>
      t = { s with dev := { s.dev with host := { s.dev.host with
            refclk := clock, training := s.dev.power.mgmtOn && clock && settled, trainTick := s.dev.phys } } })) ∧
    (s.dev.host.perstLow = true → Ends .perstDeassert s (fun t =>
      t = { s with dev := { s.dev with host := { s.dev.host with
            perstLow := false, training := s.dev.power.mgmtOn && s.dev.host.refclk && settled, trainTick := s.dev.phys } } })) ∧
    (s.dev.isRunning .hostif = true → Ends .perstAssert s (fun t =>
      keeps t ∧ off t 0x0108 ∧ t.dev.host.linkUp = false ∧ t.dev.host.perstLow = true ∧ fresh t.dev.host)) ∧
    (s.dev.host.linkUp = true → s.dev.isRunning .hostif = true →
      Ends .hotReset s (fun t => keeps t ∧ off t 0x0105 ∧ t.dev.host.linkUp = true ∧ fresh t.dev.host) ∧
      Ends .flr s (fun t => keeps t ∧ off t 0x0106 ∧ t.dev.host.linkUp = true ∧ fresh t.dev.host) ∧
      Ends .cxlReset s (fun t => keeps t ∧ off t 0x0107 ∧ t.dev.host.linkUp = true ∧ fresh t.dev.host)) ∧
    Ends .globalPersistentFlush s (fun t => t = s)

/-- HDM_COMMIT under every condition of R42 commits the decoder; without CXL.mem it sets Error Not Committed with 0x0112. HDMWIN_READ below 2,304 GiB returns the asked bytes as they stand, HDMWIN_WRITE stores at the keys that its bytes' homes give and leaves every other byte, what falls in a unit in motion waiting in its object, and either above it is an Unsupported Request with no other effect. CXL_MEM_REQUEST in a committed decoder reads or writes the line the same way, a read with back-invalidate noting the host's copy. Apart from wake-ups and the counts of unmapped and lost accesses nothing else changes. A read that finds a near word of a READY object beyond correction makes that object LOST, with the word's unit among its lost units. -/
def Obligations.HostReachesDeviceMemory : Prop :=
  ∀ s : State, s.dev.host.linkUp = true →
    let reads := fun (t : State) (a n : Nat) =>
      t = { s with dev := { s.dev with dies := t.dev.dies, health := t.dev.health, dozeAborted := t.dev.dozeAborted, hoist := t.dev.hoist,
                                       host := { s.dev.host with cached := t.dev.host.cached },
                                       out := .data ((List.range n).map (fun i => s.dev.hostByte s.mem (a + i))) :: s.dev.out } }
    let writes := fun (t : State) (a : Nat) (data : List Byte) =>
      t = { s with dev := { s.dev with dies := t.dev.dies, health := t.dev.health, dozeAborted := t.dev.dozeAborted, hoist := t.dev.hoist,
                                       objects := t.dev.objects },
                   mem := t.mem } ∧
      ((∀ e ∈ s.dev.objects, ∀ v ∈ e.2.moves, v.begun = false) → t.dev.objects = s.dev.objects) ∧
      (∀ k o, Tbl.look s.dev.objects k = some o → ∃ h, Tbl.look t.dev.objects k = some { o with held := o.held ++ h }) ∧
      t.mem = s.mem.applyAll (s.dev.hostWrite a data).2 ∧
      ∀ k, (∀ w ∈ (s.dev.hostWrite a data).2, w.spares k) → t.mem.get k = s.mem.get k
    (∀ (dec : Fin 2) (base size dpa : Word), s.dev.host.link.mem = true → base.toNat % 2 ^ 28 = 0 → size.toNat % 2 ^ 28 = 0 →
      dpa.toNat + size.toNat ≤ 2304 * 2 ^ 30 → base = s.dev.host.bar2 + dpa →
      (∀ e ∈ s.dev.host.hdm, e.1 ≠ dec.val → e.2.committed = true →
        dpa.toNat + size.toNat ≤ e.2.dpa.toNat ∨ e.2.dpa.toNat + e.2.size.toNat ≤ dpa.toNat) →
      Ends (.hdmCommit dec base size dpa 0) s (fun t =>
        t = { s with dev := { s.dev with host := { s.dev.host with hdm := t.dev.host.hdm } } } ∧
        Tbl.look t.dev.host.hdm dec.val = some { base := base, size := size, dpa := dpa, ways := 0, committed := true, error := false })) ∧
    (∀ (dec : Fin 2) (base size dpa : Word) (ways : BitVec 4), s.dev.host.link.mem = false →
      Ends (.hdmCommit dec base size dpa ways) s (fun t =>
        t = { s with dev := { s.dev with host := { s.dev.host with
              hdm := t.dev.host.hdm, hdmErrDecoder := dec.val == 1, hdmErrReason := 0x0112 } } } ∧
        ∃ h, Tbl.look t.dev.host.hdm dec.val = some h ∧ h.committed = false ∧ h.error = true)) ∧
    (∀ (off : BitVec 42) (n : Nat), off.toNat < 2304 * 2 ^ 30 → Ends (.hdmwinRead off n false) s (fun t =>
      reads t off.toNat n ∧ t.dev.host = s.dev.host)) ∧
    (∀ (off : BitVec 42) (n k : Nat) (o : Obj), off.toNat < 2304 * 2 ^ 30 → s.dev.findObj Obj.named off.toNat 1 = some (k, o) →
      s.dev.obj k = some o → o.st = .ready → o.isNear ((off.toNat - o.base) / o.unitSize) = true →
      Ends (.hdmwinRead off n true) s (fun t => t.mem = s.mem ∧
        ∃ o', t.dev.obj k = some o' ∧ o'.st = .lost ∧ inRanges o'.lostUnits ((off.toNat - o.base) / o.unitSize) = true)) ∧
    (∀ (off : BitVec 42) (data : List Byte), off.toNat < 2304 * 2 ^ 30 → Ends (.hdmwinWrite off data false) s (fun t => writes t off.toNat data)) ∧
    (∀ (off : BitVec 42) (n : Nat) (data : List Byte) (bad : Bool), 2304 * 2 ^ 30 ≤ off.toNat →
      Ends (.hdmwinRead off n bad) s (fun t => t = { s with dev := { s.dev with out := .unsupported :: s.dev.out } }) ∧
      Ends (.hdmwinWrite off data bad) s (fun t => t = { s with dev := { s.dev with out := .unsupported :: s.dev.out } })) ∧
    (∀ (a : BitVec 42) (line : List Byte), line.length = 64 → s.dev.host.link.mem = true →
      (∃ e ∈ s.dev.host.hdm, e.2.committed = true ∧ e.2.dpa.toNat ≤ a.toNat ∧ a.toNat < e.2.dpa.toNat + e.2.size.toNat) →
      Ends (.cxlMemRequest a none false) s (fun t =>
        reads t a.toNat 64 ∧ (s.dev.host.link.bi = true → a.toNat / 64 * 64 ∈ t.dev.host.cached)) ∧
      Ends (.cxlMemRequest a (some line) false) s (fun t => writes t a.toNat line))

/-- Memory in canonical form, a range whose every byte lies in one READY object that alone reaches those addresses and whose units there are homed near and not in motion: after HDMWIN_WRITE of the range, a host read of each byte returns the byte written. -/
def Obligations.HostWriteReadsBack : Prop :=
  ∀ (s : State) (off : BitVec 42) (data : List Byte) (n : Nat) (o : Obj), MemoryOk s → s.dev.host.linkUp = true →
    off.toNat < 2304 * 2 ^ 30 → o.st = .ready →
    (∀ i < data.length, s.dev.findObj Obj.named (off.toNat + i) 1 = some (n, o) ∧
      s.dev.findObj (fun x => x.st != .free) (off.toNat + i) 1 = some (n, o) ∧ o.base ≤ off.toNat + i ∧
      o.isNear ((off.toNat + i - o.base) / o.unitSize) = true ∧ o.inMotion ((off.toNat + i - o.base) / o.unitSize) = false) →
    Ends (.hdmwinWrite off data false) s (fun t => ∀ i (h : i < data.length), t.dev.hostByte t.mem (off.toNat + i) = data[i])

/-- With the host interface RUNNING and the link up. In CACHE mode a snoop of a held line, and in POLL mode a poll, of a RUNNING ring issue one read and count it. The line's return with both counts, its bytes 0 to 3 and 4 to 7, inside the bounds of R64 is taken, a ring with no finished record changing nothing else; a tail out of bounds stops the ring with 0x0210, a head with 0x0211, and a read that failed with 0x0214. MSIX_UNMASK of a pending vector with MSI-X enabled sends its message and clears its pending and mask bits. -/
def Obligations.DoorbellsAndVectorsMove : Prop :=
  ∀ (s : State) (r : Fin 1024), s.dev.host.linkUp = true → s.dev.isRunning .hostif = true →
    let g := s.dev.ring r.val
    let issued := fun (t : State) =>
      t = { s with dev := { s.dev with rings := t.dev.rings, host := { s.dev.host with cntDbRead := s.dev.host.cntDbRead + 1 },
                                       out := .doorbellRead r.val :: s.dev.out } } ∧
      t.dev.ring r.val = { g with lineRead := true, lineHeld := false, lineTick := s.dev.now } ∧ ∀ k, k ≠ r.val → t.dev.ring k = s.dev.ring k
    let tailFits := fun (tail : W32) => (tail - g.sqHead).toNat ≤ 2 ^ g.sqLog2.toNat ∧ (tail - g.sqTailLast).toNat ≤ 2 ^ g.sqLog2.toNat
    let headFits := fun (head : W32) =>
      (g.cqTail - head).toNat ≤ 2 ^ g.cqLog2.toNat ∧ (head - g.cqHeadLast).toNat ≤ (g.cqTail - g.cqHeadLast).toNat
    (s.dev.isRunning (.ring r) = true → s.dev.host.dbMode = 2 → g.lineHeld = true → Ends (.doorbellSnoop r) s issued) ∧
    (s.dev.isRunning (.ring r) = true → s.dev.host.dbMode = 1 → Ends (.doorbellPoll r) s issued) ∧
    (∀ line : List Byte, line.length = 64 → s.dev.isRunning (.ring r) = true → g.lineRead = true → g.finished = [] →
      tailFits (BitVec.ofNat 32 (leNat (line.take 4))) → headFits (BitVec.ofNat 32 (leNat ((line.drop 4).take 4))) →
      Ends (.doorbellReadReturn r (some line)) s (fun t =>
        t = { s with dev := { s.dev with rings := t.dev.rings } } ∧
        t.dev.ring r.val = { g with lineRead := false, lineHeld := s.dev.host.dbMode == 2, sqTailLast := BitVec.ofNat 32 (leNat (line.take 4)),
                                    cqHeadLast := BitVec.ofNat 32 (leNat ((line.drop 4).take 4)) } ∧
        ∀ k, k ≠ r.val → t.dev.ring k = s.dev.ring k)) ∧
    (∀ line : Option (List Byte), s.dev.isRunning (.ring r) = true → g.lineRead = true →
      let why : Option (BitVec 16) := match line with
        | none => some 0x0214
        | some l => if ¬ tailFits (BitVec.ofNat 32 (leNat (l.take 4))) then some 0x0210
                    else if ¬ headFits (BitVec.ofNat 32 (leNat ((l.drop 4).take 4))) then some 0x0211 else none
      ∀ w, why = some w → Ends (.doorbellReadReturn r line) s (fun t =>
        t.dev.block (.ring r) = { s.dev.block (.ring r) with st := .quiescing, autoStop := true, reason := w } ∧
        t.mem = s.mem ∧ t.dev.claims = s.dev.claims ∧ t.dev.objects = s.dev.objects)) ∧
    (∀ v : Fin 2048, s.dev.host.msixOn = true → s.dev.host.msixPending.getLsbD v.val = true →
      Ends (.msixUnmask (some v)) s (fun t =>
        t = { s with dev := { s.dev with host := { s.dev.host with msixPending := t.dev.host.msixPending, msixMask := t.dev.host.msixMask },
                                         out := t.dev.out } } ∧
        t.dev.host.msixMask.getLsbD v.val = false ∧ t.dev.host.msixPending.getLsbD v.val = false ∧ Output.msix v.val ∈ t.dev.out))

/-- For every block. ENABLE_SET: from OFF or REFUSED to CHECKING with REASON 0; in CHECKING nothing; in RUNNING REJECT with 0xF1 and in QUIESCING REJECT with 0xF0, STATE kept. ENABLE_CLEAR: in OFF or QUIESCING nothing; from CHECKING or REFUSED to OFF; from RUNNING to QUIESCING, a claim in PREEMPTING leaving RUNNING only as its pre-emption ends. ENABLE_CHECK_DONE ends CHECKING in RUNNING where no cause applies, else in REFUSED with the cause. BLOCK_REACHES_OFF ends QUIESCING in OFF once the block's work has stopped, AUTO_STOP and REASON kept. ENABLE_SET and a refusing check change no other block's status, and memory not at all. -/
def Obligations.EnableWritesActByState : Prop :=
  ∀ (s : State) (b : BlockId), s.dev.health.stopped = false →
    let x := s.dev.block b
    let only := fun (t : State) =>
      t = { s with dev := { s.dev with blocks := t.dev.blocks, health := t.dev.health, host := t.dev.host, out := t.dev.out,
                                       rings := t.dev.rings } } ∧
      (∀ r, t.dev.ring r = { s.dev.ring r with enSeq := (t.dev.ring r).enSeq }) ∧ ∀ b', b' ≠ b → t.dev.block b' = s.dev.block b'
    (x.st = .off ∨ x.st = .refused → Ends (.enableSet b) s (fun t => only t ∧ t.dev.block b = { x with st := .checking, reason := 0 })) ∧
    (x.st = .checking → Ends (.enableSet b) s (fun t => t = s)) ∧
    (x.st = .running → Ends (.enableSet b) s (fun t => only t ∧ t.dev.block b = { x with reject := true, reason := reasonOf b 0xF1 })) ∧
    (x.st = .quiescing → Ends (.enableSet b) s (fun t => only t ∧ t.dev.block b = { x with reject := true, reason := reasonOf b 0xF0 })) ∧
    (x.st = .off ∨ x.st = .quiescing → Ends (.enableClear b) s (fun t => t = s)) ∧
    (x.st = .checking ∨ x.st = .refused → Ends (.enableClear b) s (fun t => t.dev.block b = { x with st := .off } ∧ t.mem = s.mem)) ∧
    (x.st = .running → (∀ c, b = .claim c → (s.dev.claim c.val).pstate ≠ .preempting) →
      Ends (.enableClear b) s (fun t => (t.dev.block b).st = .quiescing ∧ t.pending = s.pending)) ∧
    (∀ c, b = .claim c → x.st = .running → (s.dev.claim c.val).pstate = .preempting → Ends (.enableClear b) s (fun t =>
      t = { s with dev := s.dev.modClaim c.val (fun k => { k with leaving := true }) })) ∧
    (∀ why, x.st = .checking → s.dev.check b = some why → Ends (.enableCheckDone b) s (fun t =>
      only t ∧ t.dev.block b = { x with st := .refused, reason := reason16 why })) ∧
    (x.st = .checking → s.dev.check b = none → Ends (.enableCheckDone b) s (fun t => (t.dev.block b).st = .running ∧ t.mem = s.mem)) ∧
    (x.st = .quiescing → s.dev.atRest b = true → Ends (.blockReachesOff b) s (fun t =>
      t.dev.block b = { x with st := .off } ∧ t.mem = s.mem))

/-- With management running. A write of another size than 4 or 8 bytes, or unaligned, is answered Unsupported Request and changes nothing else. A 32-bit write at or above 0x0040_0000 is discarded. HOSTIF_DB_CTL takes POLL_US and MODE while the host interface is OFF, and nothing otherwise, and then reads them back. A 64-bit write of RING_SQ_BASE sets the selected ring's base while that ring is OFF, a 32-bit write one half of it. A read of another size is unsupported, and offsets at or above 0x0040_0000 read 0. A write of *_CTL with bit 0 set is ENABLE_SET and clear is ENABLE_CLEAR, shown for the hoist block. With management stopped a write is discarded, HEALTH_COLD_START apart. -/
def Obligations.RegisterWritesFollowTheMap : Prop :=
  ∀ (s : State) (v : Word),
    (s.dev.health.stopped = false →
      (∀ (off : BitVec 24) (n : Nat), ¬ (n = 4 ∧ off.toNat % 4 = 0) → ¬ (n = 8 ∧ off.toNat % 8 = 0) →
        Ends (.registerWrite off n v) s (fun t => t = { s with dev := { s.dev with out := .unsupported :: s.dev.out } })) ∧
      (∀ off : BitVec 24, 0x400000 ≤ off.toNat → off.toNat % 4 = 0 → Ends (.registerWrite off 4 v) s (fun t => t = s)) ∧
      (s.dev.isOff .hostif = true → Ends (.registerWrite 0x010010 4 v) s (fun t =>
        t = { s with dev := { s.dev with host := { s.dev.host with
              pollUs := BitVec.ofNat 10 (bits v.toNat 25 16), dbCtlMode := BitVec.ofNat 2 v.toNat } } } ∧
        t.dev.cfgRead 0x010010 4 = some (bits v.toNat 25 16 * 2 ^ 16 + bits v.toNat 1 0))) ∧
      (s.dev.isOff .hostif = false → Ends (.registerWrite 0x010010 4 v) s (fun t => t = s)) ∧
      (s.dev.isOff (ringBlock s.dev.ringSel.toNat) = true → Ends (.registerWrite 0x011018 8 v) s (fun t =>
        t = { s with dev := s.dev.modRing s.dev.ringSel.toNat (fun g => { g with sqBase := v }) }) ∧
        Ends (.registerWrite 0x01101C 4 v) s (fun t => t = { s with dev := s.dev.modRing s.dev.ringSel.toNat (fun g =>
          { g with sqBase := BitVec.ofNat 64 (v.toNat % 2 ^ 32 * 2 ^ 32 + g.sqBase.toNat % 2 ^ 32) }) })) ∧
      (∀ (off : BitVec 24) (n : Nat), ¬ (n = 4 ∧ off.toNat % 4 = 0) → ¬ (n = 8 ∧ off.toNat % 8 = 0) → s.dev.cfgRead off n = none) ∧
      (∀ off : BitVec 24, 0x400000 ≤ off.toNat → off.toNat % 4 = 0 → s.dev.cfgRead off 4 = some 0) ∧
      exec (.registerWrite 0x080000 4 1) s = exec (.enableSet .hoist) s ∧
      exec (.registerWrite 0x080000 4 0) s = exec (.enableClear .hoist) s) ∧
    (s.dev.health.stopped = true → ∀ (off : BitVec 24) (n : Nat), off ≠ 0x1E0030 → Ends (.registerWrite off n v) s (fun t => t = s))

/-- A RUNNING ring with the host open, that has not stopped and has a valid tail ahead, fetches the descriptor at SQ_HEAD: SQ_HEAD rises by one and the descriptor joins the ring's list, where nothing decides it at fetch. DESCRIPTOR_START of a ring that may start: its oldest waiting descriptor, outside a loop, with no deadline, header wait or batch, that ring order, the buffer of 32 entries and the checks of R421 let start, starts on this tick, takes the next start number and holds a buffer entry. No other ring and nothing else changes. -/
def Obligations.DescriptorsAreFetchedAndStartInOrder : Prop :=
  ∀ s : State,
    (∀ (r : Fin 1024) (x : BitVec 512), s.dev.isRunning (.ring r) = true → s.dev.host.linkUp = true → s.dev.isRunning .hostif = true →
      (s.dev.ring r.val).stopped = false → (s.dev.ring r.val).sqHead ≠ (s.dev.ring r.val).sqTailLast →
      s.dev.fetchFate r.val (s.dev.ring r.val).sqHead x = none → Ends (.descriptorFetch r (some x)) s (fun t =>
        let g := s.dev.ring r.val
        t = { s with dev := { s.dev with rings := t.dev.rings } } ∧ OnlyRing r.val s t ∧
        t.dev.ring r.val = { g with sqHead := g.sqHead + 1, ents := g.ents ++ [Entry.fresh g.sqHead x], skip := g.skip - 1,
                                    orphans := (g.orphans.1 - 1, g.orphans.2) })) ∧
    (∀ (r : RingNo) (prev : Option Entry) (e : Entry), s.dev.ringStarts r.val = true → (s.dev.ring r.val).oldest = some (prev, e) →
      s.dev.entry r.val e.count = some e → (s.dev.ring r.val).loop = none → hDeadline e.desc = 0 → hWait e.desc = false →
      hBatch e.desc = false → hOpcode e.desc ≠ 0x04 → hOpcode e.desc ≠ 0x26 → (s.dev.ring r.val).orderOk prev e = true →
      (s.dev.ring r.val).bufUsed < 32 → s.dev.startCheck r.val e = none → s.dev.startHeld s.mem r.val e = false →
      Ends (.descriptorStart r) s (fun t =>
        t = { s with dev := { s.dev with rings := t.dev.rings, started := s.dev.started + 1 } } ∧ OnlyRing r.val s t ∧
        ∃ e', t.dev.entry r.val e.count = some e' ∧ e'.desc = e.desc ∧ e'.phase = .started ∧ e'.start = s.dev.now ∧
          e'.seq = s.dev.started ∧ e'.buf = true ∧ e'.ran = true))

/-- OP_COMPLETE of an op whose work is done, outside a loop and with no header signal, completes it with its own result and queues its record. RECORD_POST of a ring whose completion ring has room writes the oldest record into slot CQ_TAIL mod size, with the PHASE of R65 in bit 63, and advances CQ_TAIL and CNT_DONE. RING_IRQ_TIMEOUT, TIMEOUT µs after the first record not signalled, raises the ring's vector and starts counting again. DEADLINE_REACHED decides an unstarted descriptor DEADLINE_MISSED without running it, whatever it waits for, but under Fixed-Bits changes nothing. -/
def Obligations.OpsCompleteAndTheirRecordsArePosted : Prop :=
  ∀ s : State,
    (∀ (r : RingNo) (c : W32) (e : Entry), s.dev.entry r.val c = some e → e.phase = .done → e.buf = true → hSignal e.desc = false →
      hOpcode e.desc ≠ 0x05 → (s.dev.ring r.val).loop = none → Ends (.opComplete r c) s (fun t =>
        t = { s with dev := { s.dev with rings := t.dev.rings, objects := t.dev.objects, dies := t.dev.dies } } ∧ OnlyRing r.val s t ∧
        (∃ e', t.dev.entry r.val c = some e' ∧ e'.phase = .completed ∧ e'.res = e.res ∧ e'.start = e.start ∧ e'.ran = e.ran) ∧
        (t.dev.ring r.val).finished = (s.dev.ring r.val).finished ++ [c])) ∧
    (∀ (r : RingNo) (c : W32) (rest : List W32) (e : Entry), r.val < 1024 → s.dev.ringPosts r.val = true →
      (s.dev.ring r.val).finished = c :: rest → s.dev.entry r.val c = some e → (s.dev.ring r.val).room = true →
      classOf e.res.status < 2 → Ends (.recordPost r true) s (fun t =>
        let g := s.dev.ring r.val
        Output.record r.val (g.cqTail.toNat % 2 ^ g.cqLog2.toNat) (recordOf r.val g e g.cqTail) ∈ t.dev.out ∧
        (g.sqLog2.toNat ≤ 16 → (recordOf r.val g e g.cqTail).toNat / 2 ^ 63 % 2 = 1 - g.cqTail.toNat / 2 ^ g.cqLog2.toNat % 2) ∧
        (t.dev.ring r.val).cqTail = g.cqTail + 1 ∧ (t.dev.ring r.val).cntDone = g.cntDone + 1 ∧ OnlyRing r.val s t ∧
        t = { s with dev := { s.dev with rings := t.dev.rings, host := t.dev.host, out := t.dev.out } })) ∧
    (∀ (r : Fin 1024) (first : Tick), (s.dev.ring r.val).firstUnsignalled = some first → (s.dev.ring r.val).irqTimeout ≠ 0 →
      s.dev.past first (s.dev.ring r.val).irqTimeout.toNat = true →
      Ends (.ringIrqTimeout r) s (fun t =>
        t = { s with dev := { s.dev with rings := t.dev.rings, host := t.dev.host, out := t.dev.out } } ∧ OnlyRing r.val s t ∧
        t.dev.ring r.val = { s.dev.ring r.val with sinceRaise := 0, firstUnsignalled := none } ∧
        (s.dev.msixOpen = true → s.dev.host.msixMask.getLsbD (s.dev.ring r.val).vector.toNat = false →
          t.dev.out = .msix (s.dev.ring r.val).vector.toNat :: s.dev.out))) ∧
    (∀ (r : RingNo) (c : W32) (e : Entry), s.dev.entry r.val c = some e → e.unstarted = true → hOpcode e.desc ≠ 0x04 →
      deadlineReached s.dev.now e.desc = true → (s.dev.ring r.val).covered c = false → (s.dev.ring r.val).loop = none →
      (s.dev.fixedBits = false → Ends (.deadlineReached r c) s (fun t =>
        t = { s with dev := { s.dev with rings := t.dev.rings, tallies := t.dev.tallies } } ∧
        ∃ e', t.dev.entry r.val c = some e' ∧ e'.phase = .completed ∧ e'.res.status = 0x2001 ∧ e'.ran = false)) ∧
      (s.dev.fixedBits = true → Ends (.deadlineReached r c) s (fun t => t = s)))

/-- For a descriptor with a non-zero DEADLINE and every tick t: the deadline is reached exactly when (t[47:0] − DEADLINE) mod 2^48 < 2^47. It is reached on the tick equal to DEADLINE, and on each of the 2^47 ticks from there, and no longer on the one after them. -/
def Obligations.DeadlineHoldsForHalfTheClock : Prop :=
  ∀ (t : Tick) (x : BitVec 512), hDeadline x ≠ 0 →
    (deadlineReached t x = true ↔ ((t.toNat % 2 ^ 48 : Nat) - (hDeadline x : Int)) % 2 ^ 48 < 2 ^ 47) ∧
    (t.toNat % 2 ^ 48 = hDeadline x → deadlineReached t x = true ∧
      (∀ k < 2 ^ 47, deadlineReached (t + BitVec.ofNat 64 k) x = true) ∧ deadlineReached (t + BitVec.ofNat 64 (2 ^ 47)) x = false)

/-- A started NOP of a claim that works ends OK: its own descriptor is done with nothing counted, and no other descriptor or ring, no tally, no claim's registers, no memory and nothing else changes. Its header wait and header signal are applied by DESCRIPTOR_START and OP_COMPLETE. -/
def Obligations.NopDoesNothing : Prop :=
  ∀ (s : State) (r : RingNo) (c : W32) (e : Entry), s.dev.op r.val c 0x00 = some e → Ends (.nop r c) s (fun t =>
    t = { s with dev := { s.dev with rings := t.dev.rings, claims := t.dev.claims } } ∧ OnlyRing r.val s t ∧
    (∀ k, t.dev.claim k = s.dev.claim k) ∧ t.dev.entry r.val c = some (e.doneWith .ok) ∧
    (∀ c', c' ≠ c → t.dev.entry r.val c' = s.dev.entry r.val c') ∧
    t.dev.ring r.val = { s.dev.ring r.val with ents := (t.dev.ring r.val).ents })

/-- A started TIMESTAMP whose DEST is accessible, in no unit in motion, and whose meters have admitted it stores at DEST the 8 bytes of the tick it started on, least significant first, ends OK, and leaves every byte outside those stores. The START_TICK of the record of any descriptor, in a ring of a legal size, is the low 48 bits of the tick it started on. A DEST that is not 8-byte aligned ends with ADDR_FAULT, REASON 16, and stores nothing. -/
def Obligations.TimestampWritesItsStartTick : Prop :=
  ∀ (s : State) (r : RingNo) (c : W32) (e : Entry), s.dev.op r.val c 0x06 = some e →
    (∀ p, s.dev.access r.val e 16 8 8 = .ok p → s.dev.mustWait e [] [span 16 p.addr 8] = false →
      e.admitted (s.dev.deepNeeds [] [(p.addr, 8)]) = true → Ends (.timestamp r c) s (fun t =>
      t.mem = s.mem.applyAll (s.dev.writeDev p.addr (toLe 8 e.start.toNat)) ∧ leNat (toLe 8 e.start.toNat) = e.start.toNat ∧
      (∀ k, (∀ w ∈ s.dev.writeDev p.addr (toLe 8 e.start.toNat), w.spares k) → t.mem.get k = s.mem.get k) ∧
      (∃ e', t.dev.entry r.val c = some e' ∧ e'.phase = .done ∧ e'.res.status = 0 ∧ e'.start = e.start) ∧ OnlyRing r.val s t ∧
      t = { s with dev := s.dev.worked t.dev, mem := t.mem })) ∧
    (∀ (n : Nat) (g : Ring) (k : W32), g.sqLog2.toNat ≤ 16 → (recordOf n g e k).toNat / 2 ^ 64 % 2 ^ 48 = e.start.toNat % 2 ^ 48) ∧
    (effAddr ((s.dev.ring r.val).loopOf e.count) e.desc 16 % 8 ≠ 0 → Ends (.timestamp r c) s (fun t =>
      t = { s with dev := { s.dev with rings := t.dev.rings } } ∧ OnlyRing r.val s t ∧
      t.dev.entry r.val c = some (e.doneWith (Result.fail 0x3001 16))))

/-- A FENCE is done OK where what it covers has completed, and waits otherwise. TALLY_SIGNAL adds, stopping at 2^64 − 1 with TALLY_SATURATED, or sets; with no waiter the count is exactly that. TALLY_WAIT is done OK with its consume applied where its condition holds, and else joins the tail of the waiter list, its entry still started; on its deadline tick it is DEADLINE_MISSED. SKIP_IF, its meters having admitted it, ends OK with REASON 1 exactly where (value AND MASK) COND COMPARAND holds. REPEAT_BY, its meters having admitted it, with a count of 1 or more and its whole body fetched and waiting starts a loop of min(count, TRIP_MAX) iterations; with a count of 0 it is done OK with REASON 0; and it is done with its iterations as REASON when the one body descriptor of its last iteration completes OK. None of them touches memory. -/
def Obligations.ControlOpsDoTheirWork : Prop :=
  ∀ (s : State) (r : RingNo) (c : W32) (e : Entry),
    let keeps := fun (t : State) =>
      t = { s with dev := { s.dev.worked t.dev with tallies := t.dev.tallies } } ∧ OnlyRing r.val s t
    let id := fld e.desc 16 2
    let v := BitVec.ofNat 64 (fld e.desc 24 8)
    let y := s.dev.tally id
    (s.dev.op r.val c 0x01 = some e →
      (s.dev.fenceMet r.val e = true → Ends (.fence r c) s (fun t => keeps t ∧ t.dev.entry r.val c = some (e.doneWith .ok))) ∧
      (s.dev.fenceMet r.val e = false → Ends (.fence r c) s (fun t => t = s))) ∧
    (s.dev.op r.val c 0x02 = some e → y.waiters = [] → Ends (.tallySignal r c) s (fun t =>
      keeps t ∧ (∀ k, k ≠ id → t.dev.tally k = s.dev.tally k) ∧ (t.dev.tally id).waiters = [] ∧
      (t.dev.tally id).count.toNat = (if fld e.desc 18 1 = 0 then min (2 ^ 64 - 1) (y.count.toNat + v.toNat) else v.toNat) ∧
      t.dev.entry r.val c = some (e.doneWith (if fld e.desc 18 1 = 0 ∧ 2 ^ 64 ≤ y.count.toNat + v.toNat then Result.fail 0x1006 id else .ok)))) ∧
    (s.dev.op r.val c 0x03 = some e → y.waiters = [] →
      let holds := if fld e.desc 18 1 = 1 then y.count = v else v ≤ y.count
      let late := deadlineReached s.dev.now e.desc = true ∧ s.dev.fixedBits = false
      (¬ late → holds → Ends (.tallyWait r c) s (fun t => keeps t ∧ (∀ k, k ≠ id → t.dev.tally k = s.dev.tally k) ∧
        (t.dev.tally id).count = y.count - BitVec.ofNat 64 (fld e.desc 32 8) ∧ (t.dev.tally id).waiters = [] ∧
        ∃ e', t.dev.entry r.val c = some e' ∧ e'.phase = .done ∧ e'.res = e.res ∧ e'.ran = true)) ∧
      (¬ late → ¬ holds → Ends (.tallyWait r c) s (fun t => keeps t ∧ (∀ k, k ≠ id → t.dev.tally k = s.dev.tally k) ∧
        (t.dev.tally id).count = y.count ∧ (t.dev.tally id).waiters.map (fun w => (w.ring, w.count)) = [(r.val, c)] ∧
        t.dev.entry r.val c = some e)) ∧
      (late → (s.dev.ring r.val).loop = none → hSignal e.desc = false → Ends (.tallyWait r c) s (fun t => keeps t ∧
        ∃ e', t.dev.entry r.val c = some e' ∧ e'.phase = .completed ∧ e'.res.status = 0x2001 ∧ e'.ran = false))) ∧
    (∀ p, s.dev.op r.val c 0x05 = some e → s.dev.access r.val e 16 8 8 = .ok p →
      e.admitted (s.dev.deepNeeds [(p.addr, 8)] []) = true → Ends (.skipIf r c) s (fun t =>
      let a := BitVec.ofNat 64 (s.dev.readNat s.mem p.addr 8) &&& v
      let b := BitVec.ofNat 64 (fld e.desc 32 8)
      let hit := match fld e.desc 40 1 with
        | 0 => a = b | 1 => a ≠ b | 2 => a < b | 3 => b ≤ a | 4 => a.toInt < b.toInt | _ => b.toInt ≤ a.toInt
      keeps t ∧ ∃ e', t.dev.entry r.val c = some e' ∧ e'.phase = .done ∧ e'.res.status = 0 ∧ (e'.res.reason = 1 ↔ hit) ∧
        (e'.res.reason = 0 ↔ ¬ hit))) ∧
    (∀ p, s.dev.op r.val c 0x04 = some e → (s.dev.ring r.val).loop = none → s.dev.access r.val e 16 4 4 = .ok p →
      e.admitted (s.dev.deepNeeds [(p.addr, 4)] []) = true → (s.dev.ring r.val).stopped = false →
      ((∀ i k, ∀ w ∈ (s.dev.tally i).waiters, w.ring = r.val → w.count = k → k ≠ c) → s.dev.readNat s.mem p.addr 4 = 0 →
        Ends (.repeatBy r c) s (fun t => t.mem = s.mem ∧
          ∃ e', t.dev.entry r.val c = some e' ∧ e'.phase = .done ∧ e'.res.status = 0 ∧ e'.res.reason = 0)) ∧
      ((∀ x ∈ (s.dev.ring r.val).bodyOf e, x.phase = .waiting) → s.dev.readNat s.mem p.addr 4 ≠ 0 → Ends (.repeatBy r c) s (fun t =>
        keeps t ∧ ∃ l, (t.dev.ring r.val).loop = some l ∧ l.base = c ∧ l.len = fld e.desc 28 2 ∧
          l.trips = min (s.dev.readNat s.mem p.addr 4) (fld e.desc 24 4) ∧ l.iter = 0 ∧ l.ending = false ∧
          ∃ e', t.dev.entry r.val c = some e' ∧ e'.phase = .started))) ∧
    (∀ (l : Loop) (b : Entry), (s.dev.ring r.val).loop = some l → l.base = c → l.ending = false → l.trips ≤ l.iter + 1 → l.iterations < 65535 →
      s.dev.entry r.val c = some e → hOpcode e.desc = 0x04 → e.phase = .started →
      (s.dev.ring r.val).ents.filter (fun x => l.body x.count) = [b] → s.dev.entry r.val b.count = some b → b.phase = .done → b.ran = true →
      b.res.status = 0 → hOpcode b.desc ≠ 0x05 → hSignal b.desc = false → (b.total.all (fun k => k.all.status == 0) = true) →
      Ends (.opComplete r b.count) s (fun t => ∃ e', t.dev.entry r.val c = some e' ∧ e'.phase = .done ∧
        e'.res.status = (if l.clamped then 0x1005 else 0) ∧ e'.res.reason.toNat = l.iterations + 1))

/-- Whatever waits on the tally, after a TALLY_SIGNAL, ADD or SET, no waiter that is left on it has a condition that its count meets and is in time, every waiter that is left was waiting before, and no other tally changes. -/
def Obligations.NoReadyWaiterIsLeft : Prop :=
  ∀ (s : State) (r : RingNo) (c : W32) (e : Entry), s.dev.op r.val c 0x02 = some e → Ends (.tallySignal r c) s (fun t =>
    (∀ w ∈ (t.dev.tally (fld e.desc 16 2)).waiters,
      w.holds (t.dev.tally (fld e.desc 16 2)).count = false ∨ t.dev.tooLate w = true) ∧
    (∀ w ∈ (t.dev.tally (fld e.desc 16 2)).waiters, w ∈ (s.dev.tally (fld e.desc 16 2)).waiters) ∧
    ∀ k, k ≠ fld e.desc 16 2 → t.dev.tally k = s.dev.tally k)

/-- A started MATMUL, CONV or SPMM that passes its checks, of a claim with working lanes and with no malformed tile. Its lanes begin it where none of its tensors is in motion and its meters have admitted it: the picks made and owed are those of its work, the status is FORMAT_VIOLATION where a structured tile is over its declaration, else STREAMED where a tile streamed through, else OK, and where the lanes hold the permits it ends at once. Once its lanes have made every pick it ends: it stores each output tile once, from the exact window of each element, every byte outside those stores reads as before, and it counts the picks made. No other ring, no object, tally, port or block and no other claim changes. -/
def Obligations.LaneOpsWriteTheirWholeOutput : Prop :=
  ∀ (s : State) (r : RingNo) (c : W32) (e : Entry) (l : LaneRun),
    let dies := s.dev.workDies (s.dev.claimOf r.val)
    dies ≠ [] → (∀ k < l.y.tiles, l.fed (k / l.y.tc) (k % l.y.tc) = false) →
    let gives := fun (t : State) =>
      t.mem = s.mem.applyAll (l.writes s.dev e) ∧
      (∀ k, (∀ w ∈ l.writes s.dev e, w.spares k) → t.mem.get k = s.mem.get k) ∧
      (∃ e', t.dev.entry r.val c = some e' ∧ e'.phase = .done ∧ e'.ran = true ∧ e'.desc = e.desc ∧
        e'.res.picks = e.spent ∧ e'.res.fabric = e.res.fabric ∧ e'.res.status = e.res.status) ∧
      OnlyRing r.val s t ∧ (∀ k, k ≠ s.dev.claimOf r.val → t.dev.claim k = s.dev.claim k) ∧
      t = { s with dev := s.dev.worked t.dev, mem := t.mem }
    let begins := fun (t : State) =>
      (∃ e', t.dev.entry r.val c = some e' ∧ e'.desc = e.desc ∧
        e'.res.status = (if l.violations ≠ 0 then 0x1001 else if s.dev.streamed [l.x, l.w] ≠ 0 then 0x1003 else 0x0000) ∧
        ((e'.work.getD []).map (fun w => w.spent + w.owed)).sum = ((l.work dies).map (·.picks)).sum ∧
        ((e'.phase = .started ∧ e'.drained = false ∧ t.mem = s.mem) ∨
          (e'.phase = .done ∧ e'.drained = true ∧ e'.res.picks = ((l.work dies).map (·.picks)).sum ∧
            t.mem = s.mem.applyAll (l.writes s.dev e)))) ∧
      t = { s with dev := s.dev.worked t.dev, mem := t.mem }
    let ends := fun (op : Instr) =>
      (e.drained = true → Ends op s gives) ∧
      (e.work = none → s.dev.mustWait e [l.x, l.w] [l.y] = false → e.admitted (l.needs s.dev s.mem (l.work dies)) = true →
        Ends op s begins)
    (s.dev.op r.val c 0x10 = some e → s.dev.matmulPlan s.mem r.val e false = .ok l → ends (.matmul r c)) ∧
    (s.dev.op r.val c 0x12 = some e → s.dev.convPlan s.mem r.val e = .ok l → ends (.conv r c)) ∧
    (s.dev.op r.val c 0x13 = some e → s.dev.matmulPlan s.mem r.val e true = .ok l → ends (.spmm r c))

/-- A product of two finite values is exact, and adds to W its magnitude in grid units 2^(A − 176), truncated toward zero, with its sign. The final window, flags included, is the same for every order of the products, and for every division into parts whose windows are added and flags ORed. For K ≥ 1 finite products the window value differs from their exact sum by less than K grid units (both in units of any 2^g that all are multiples of). Special values never enter W: a NaN operand, of a block of scale 0xFF among them, or infinity times zero sets NAN, infinity times anything else the flag of the product's sign. -/
def Obligations.WindowsAddExactlyInAnyOrder : Prop :=
  (∀ (a : Int) (u : Window) (x y : Bool) (m n : Nat) (e f : Int), (Val.fin x m e).mul (.fin y n f) = .fin (x != y) (m * n) (e + f) ∧
    (u.addProduct a (.fin x m e)).w = u.w + signed x (if a - 176 ≤ e then m * 2 ^ (e - (a - 176)).toNat else m / 2 ^ (a - 176 - e).toNat)) ∧
  (∀ (a : Int) (l l' : List Val), l.Perm l' →
    l.foldl (Window.addProduct a) Window.zero = l'.foldl (Window.addProduct a) Window.zero) ∧
  (∀ (a : Int) (l l' : List Val),
    let x := l.foldl (Window.addProduct a) Window.zero
    let y := l'.foldl (Window.addProduct a) Window.zero
    (l ++ l').foldl (Window.addProduct a) Window.zero = ⟨x.w + y.w, x.nan || y.nan, x.pinf || y.pinf, x.ninf || y.ninf⟩) ∧
  (∀ (a g : Int) (l : List (Bool × Nat × Int)), l ≠ [] → g ≤ a - 176 → (∀ p ∈ l, g ≤ p.2.2) →
    let grid : Int := 2 ^ (a - 176 - g).toNat
    let exact := (l.map (fun p => signed p.1 p.2.1 * 2 ^ (p.2.2 - g).toNat)).sum
    let w := ((l.map (fun p => Val.fin p.1 p.2.1 p.2.2)).foldl (Window.addProduct a) Window.zero).w
    (exact - w * grid).natAbs < l.length * grid.natAbs) ∧
  (∀ (a : Int) (u : Window) (v : Val), (∀ x m e, v ≠ .fin x m e) → (u.addProduct a v).w = u.w) ∧
  (∀ (a : Int) (u : Window) (v : Val) (x y : Bool) (m : Nat) (e : Int),
    (u.addProduct a (Val.nan.mul v)).nan = true ∧ (u.addProduct a (v.mul .nan)).nan = true ∧
    (u.addProduct a ((Val.inf x).mul (.fin y 0 e))).nan = true ∧ (u.addProduct a ((Val.fin y 0 e).mul (.inf x))).nan = true ∧
    (0 < m → u.addProduct a ((Val.inf x).mul (.fin y m e)) =
      if x = y then { u with pinf := true } else { u with ninf := true }) ∧
    (0 < m → u.addProduct a ((Val.fin y m e).mul (.inf x)) = if x = y then { u with pinf := true } else { u with ninf := true }) ∧
    u.addProduct a ((Val.inf x).mul (.inf y)) = if x = y then { u with pinf := true } else { u with ninf := true }) ∧
  (∀ (t : Tile) (i j : Nat), i < t.hdr.vr → j < t.hdr.vc → isMx t.hdr.fmt = true → t.scale (blockOf t.hdr.axis i j) = 255 →
    t.val i j = some .nan)

/-- A started FINISH or RNG_FILL that passes its checks, with no tensor of it in motion, its meters having admitted it and no malformed tile, stores its output tiles and nothing else, and ends OK, a FINISH STREAMED where a tile streamed through, with no picks. The functions ADD and MUL give the exact sum or product rounded once to binary32. An element-keyed draw takes the words of the block that seed, element index, stream and tensor give, whatever runs it; a lane-keyed one words of the streams of the claim's lanes. -/
def Obligations.FinishAndRngFillWriteTheirOutput : Prop :=
  (∀ (s : State) (r : RingNo) (c : W32) (e : Entry),
    let gives := fun (ws : List MemOp) (st : BitVec 16) (t : State) =>
      t.mem = s.mem.applyAll ws ∧ (∀ k, (∀ w ∈ ws, w.spares k) → t.mem.get k = s.mem.get k) ∧
      (∃ e', t.dev.entry r.val c = some e' ∧ e'.phase = .done ∧ e'.res.status = st ∧ e'.res.picks = 0 ∧ e'.desc = e.desc) ∧
      OnlyRing r.val s t ∧ (∀ k, k ≠ s.dev.claimOf r.val → t.dev.claim k = s.dev.claim k) ∧
      t = { s with dev := s.dev.worked t.dev, mem := t.mem }
    (∀ f : FinishRun, s.dev.op r.val c 0x14 = some e → s.dev.finishPlan s.mem r.val e = .ok f →
      s.dev.mustWait e (f.a :: f.b.toList) [f.y] = false → e.admitted (f.needs s.dev s.mem) = true →
      (∀ x ∈ (f.loadA s.dev s.mem).toList ++ (f.loadB s.dev s.mem).toList ++ (f.loadD s.dev s.mem).toList, x.bad = false) →
      Ends (.finish r c) s (gives (f.writes s.dev s.mem e) (if s.dev.streamed (f.a :: f.b.toList) ≠ 0 then 0x1003 else 0x0000))) ∧
    (∀ g : Grid, s.dev.op r.val c 0x15 = some e →
      settled (s.dev.outputGrid r.val e 16 (fld e.desc 32 3) (fld e.desc 35 3) (outCtl (fld e.desc 38 1)).fmt) = .ok g →
      fld e.desc 24 4 ≠ 0xFFFFFFFF →
      (bit (fld e.desc 39 1) 7 = true → bit (fld e.desc 39 1) 6 = false →
        ∀ k ∈ s.dev.lambdas (s.dev.claimOf r.val), (fld e.desc 24 4 + k) % 2 ^ 32 ≠ 0xFFFFFFFF) →
      (bits (fld e.desc 39 1) 5 4 = 2 → (outCtl (fld e.desc 38 1)).fmt = 6) → s.dev.mustWait e [] [g] = false →
      e.admitted (s.dev.deepNeeds [] (s.dev.gridSlots g)) = true →
      Ends (.rngFill r c) s (gives (s.dev.rngWrites r.val e g) 0x0000))) ∧
  (∀ a b imm : Nat, finishElem 0x02 a b imm = f32.rne ((f32.dec a).add (f32.dec b)) ∧
    finishElem 0x03 a b imm = f32.rne ((f32.dec a).mul (f32.dec b)) ∧ finishElem 0x06 a b imm = f32.rne ((f32.dec a).mul (f32.dec imm))) ∧
  (∀ (d d' : Dev) (r r' : Nat) (e : Entry) (n n' i : Nat), bit (fld e.desc 39 1) 7 = false →
    d.rngWords r e n i = d'.rngWords r' e n' i ∧ (d.rngWords r e n i).1 = (philox e.seed.toNat i (fld e.desc 28 4) (fld e.desc 24 4)).1) ∧
  (∀ (d : Dev) (r : Nat) (e : Entry) (n i : Nat), bit (fld e.desc 39 1) 7 = true → i < n → d.lambdas (d.claimOf r) ≠ [] →
    ∃ lane ∈ d.lambdas (d.claimOf r), ∃ k, (d.rngWords r e n i).1 = laneWord e lane k)

/-- A started ASSAY or SLUICE that passes its checks, with nothing of it in motion and its meters having admitted it, writes its triples and sums, or its four outputs, leaves every byte outside them, counts no picks and ends OK, a SLUICE TOKENS_DROPPED where pairs were dropped. A SLUICE whose triples break R155 ends OPERAND_REFUSED and writes nothing. The candidates of a token are distinct experts of the op, at most K + SPARE. No expert is admitted more pairs than its capacity, and its list holds exactly the pairs admitted. -/
def Obligations.AssayAndSluiceWriteTheirArrays : Prop :=
  (∀ (s : State) (r : RingNo) (c : W32) (e : Entry),
    let gives := fun (ws : List MemOp) (st : BitVec 16) (t : State) =>
      t.mem = s.mem.applyAll ws ∧ (∀ k, (∀ w ∈ ws, w.spares k) → t.mem.get k = s.mem.get k) ∧
      (∃ e', t.dev.entry r.val c = some e' ∧ e'.phase = .done ∧ e'.res.status = st ∧ e'.res.picks = 0 ∧ e'.res.fabric = 0 ∧
        e'.desc = e.desc) ∧
      OnlyRing r.val s t ∧ (∀ k, k ≠ s.dev.claimOf r.val → t.dev.claim k = s.dev.claim k) ∧
      t = { s with dev := s.dev.worked t.dev, mem := t.mem }
    (∀ (g : Grid) (ps : List (Nat × Span)), s.dev.op r.val c 0x20 = some e → s.dev.assayPlan s.mem r.val e = .ok (g, ps) →
      let ins := g :: (ps.filter (fun x => x.1 == 24)).map (fun x => x.2.grid x.1)
      let outs := (ps.filter (fun x => x.1 != 24)).map (fun x => x.2.grid x.1)
      s.dev.mustWaitAlways ins outs = false →
      e.admitted (s.dev.deepNeeds (s.dev.gridReads s.mem g ++ (ins.drop 1).map Grid.range) (outs.map Grid.range)) = true →
      (∀ x ∈ (s.dev.loadGrid s.mem g (assayOp e.desc).tokens (assayOp e.desc).experts).toList, x.bad = false) →
      Ends (.assay r c) s (gives (s.dev.assayWrites s.mem e g ps) 0x0000)) ∧
    (∀ ps : List (Nat × Span), s.dev.op r.val c 0x21 = some e → s.dev.sluicePlan r.val e = .ok ps →
      let gs := ps.map (fun x => x.2.grid x.1)
      let o := sluiceOp e.desc
      let tri := s.dev.sluiceTriple s.mem o (spanAddr ps 16)
      s.dev.mustWaitAlways (gs.take 1) (gs.drop 1) = false → e.admitted (s.dev.sluiceNeeds s.mem e ps) = true →
      ((∀ k < o.tokens, o.tokenOk k ((List.range o.picks).map (tri k)) = true) → Ends (.sluice r c) s
        (gives (s.dev.sluiceWrites s.mem e ps) (if (o.run tri).dropped = [] then 0x0000 else 0x1004))) ∧
      ((∃ k < o.tokens, o.tokenOk k ((List.range o.picks).map (tri k)) = false) → Ends (.sluice r c) s (gives [] 0x200A)))) ∧
  (∀ (o : AssayOp) (g : Gate), (o.candidates g).Nodup ∧ (o.candidates g).length ≤ o.picks ∧ ∀ x ∈ o.candidates g, x < o.experts) ∧
  (∀ (o : SluiceOp) (tri : Nat → Nat → Triple) (x : Nat),
    (∀ cap, o.limit = some cap → (o.run tri).admitted.getD x 0 ≤ cap) ∧
    ((o.run tri).lists.getD x []).length = (o.run tri).admitted.getD x 0)

/-- A started DISPATCH that passes its checks, nothing of it in motion and its meters having admitted it, on a channel where no COUNT is held: with other members in its set it changes no memory, holds its rows, counts its own and waits for theirs, and its context expects the PRIMARY and SPILLED pairs of ROUTED. With the set SELF and no rows it writes zero landing counts and an empty WORK, adds 1 to LTALLY and completes. CANCEL_BATCH disarms every context of its batch, and is done, with the number discarded, once each row of the batch is accounted for. -/
def Obligations.DispatchArmsAndCancelDisarms : Prop :=
  ∀ (s : State) (r : RingNo) (c : W32) (e : Entry),
    let k := s.dev.claimOf r.val
    (∀ (t : BitVec 1024) (map : List Word) (g : Grid), s.dev.op r.val c 0x22 = some e →
      (∀ y ∈ s.dev.shuttle.chans, ∀ x, y.2.disp = some x → ¬ (y.1 / 64 = k ∧ x.ring = r.val ∧ x.count = c)) →
      (∀ x ∈ s.dev.shuttle.cancels, ¬ (x.ring = r.val ∧ x.count = c)) →
      s.dev.dispatchPlan s.mem r.val e = .ok (t, map, g) →
      s.dev.mustWaitAlways [g] ((dispatchOuts t ++ landAreas t (landFmt (bits (fld e.desc 32 1) 7 6) g.fmt)).map (fun a => span 16 a.1 a.2)) = false →
      e.admitted (s.dev.deepNeeds (s.dev.dispatchReads r.val e t ++ dispatchRows g t (s.dev.rowsOf s.mem t map)) []) = true →
      (∀ x ∈ (s.dev.loadGrid s.mem g (xtTokens t) (xtHidden t)).toList.zipIdx, x.1.bad = true →
        ∀ q ∈ s.dev.rowsOf s.mem t map, q.token / 128 ≠ x.2 / g.tc) → (s.dev.chan k (xtXch t)).held = [] →
      ((∃ m ∈ s.dev.xMembers (xtSet t), m.1 ≠ s.dev.routing.log.toNat) → Ends (.dispatch r c) s (fun u =>
        u = { s with dev := (s.dev.sent u.dev).worked u.dev } ∧ OnlyRing r.val s u ∧
        (∃ e', u.dev.entry r.val c = some e' ∧ e'.phase = .started) ∧
        ∃ x z, u.dev.chan k (xtXch t) = { s.dev.chan k (xtXch t) with disp := some x, res := some z, retDone := false } ∧
          x.ring = r.val ∧ x.count = c ∧ x.table = t ∧ x.map = map ∧ x.rows = s.dev.rowsOf s.mem t map ∧ x.armed = false ∧
          x.counts.map (fun m => m.1) = [s.dev.routing.log.toNat] ∧
          z.armed = true ∧ z.table = t ∧ z.expect = s.dev.expected s.mem t ∧ z.got = [] ∧ z.final = false)) ∧
      (xtSet t = 0 → s.dev.rowsOf s.mem t map = [] → e.res = Result.ok → xtLtally t ≠ xtRtally t →
        (s.dev.tally (xtLtally t)).waiters = [] → Ends (.dispatch r c) s (fun u =>
        u.mem = s.mem.applyAll ((List.range (xtSlots t)).flatMap (fun i => s.dev.writeDev (xtLcnt t + 8 * i) (toLe 8 0)) ++
          s.dev.writeDev (xtWork t) (toLe 8 0)) ∧
        (∃ e', u.dev.entry r.val c = some e' ∧ e'.phase = .done ∧ e'.res.status = 0 ∧ e'.res.fabric = 0) ∧
        (u.dev.tally (xtLtally t)).count = satAdd (s.dev.tally (xtLtally t)).count 1 ∧ (u.dev.chan k (xtXch t)).disp = none ∧
        u.pending = s.pending))) ∧
    (∀ x : Cancel, s.dev.op r.val c 0x26 = some e → s.dev.shuttle.cancels.find? (fun y => y.ring == r.val && y.count == c) = some x →
      (∀ y ∈ s.dev.shuttle.cancels, y.ring = r.val → y.count = c → y = x) → Ends (.cancelBatch r c) s (fun u =>
      u = { s with dev := { s.dev with
              rings := u.dev.rings
              turns := u.dev.turns
              shuttle := { s.dev.shuttle with chans := u.dev.shuttle.chans, cancels := u.dev.shuttle.cancels } } } ∧
      (∀ i z, (Tbl.look s.dev.shuttle.chans i).bind Chan.res = some z → i / 64 = x.claim → z.batch = some x.batch →
        (Tbl.look u.dev.shuttle.chans i).bind Chan.res = some { z with armed := false }) ∧
      (s.dev.cancelDone x = true → x ∉ u.dev.shuttle.cancels ∧
        u.dev.entry r.val c = some (e.doneWith { Result.ok with reason := sat16 x.discarded })) ∧
      (s.dev.cancelDone x = false → x ∈ u.dev.shuttle.cancels ∧ u.dev.entry r.val c = some e)))

/-- RETURN_SLOT and RETURN_ACCUM, their meters having admitted them, on a module that landed no rows complete at once with OK and free their channel. Where every row came from another member, each packet of each row is sent and awaited, and no memory of this module changes. A COMBINE that passes its checks, with nothing of it in motion, its meters having admitted it and no malformed tile, stores its output tiles, from BASE and the ranks not DROPPED or NONE in order, each addition rounded to binary64, leaves every byte outside them and ends OK. -/
def Obligations.ReturnsSendTheirRowsAndCombineSums : Prop :=
  ∀ (s : State) (r : RingNo) (c : W32) (e : Entry),
    let k := s.dev.claimOf r.val
    (∀ (opc : Nat) (t : BitVec 1024) (fmt : Nat) (rows : List (Nat × Nat × Nat)), opc = 0x23 ∨ opc = 0x24 →
      s.dev.op r.val c opc = some e → (∀ y ∈ s.dev.shuttle.chans, ∀ x, y.2.ret = some x → ¬ (x.ring = r.val ∧ x.count = c)) →
      s.dev.returnPlan s.mem r.val e = .ok (t, fmt, rows) →
      let cmd := if opc = 0x24 then Instr.returnSlot r c else Instr.returnAccum r c
      let stride := fld e.desc 32 4
      let base := s.dev.cAddr r.val e 24
      let tile := fun (q : Nat × Nat × Nat) j => s.dev.tile s.mem { off := 24, base := base + q.1 * stride, slot := slotBytes fmt, tr := 1,
                                                                    tc := ceilDiv (xtHidden t) 128, fmt := fmt } (q.2.1 / 128) j 128 128
      let frame := fun (u : State) => u = { s with dev := { (s.dev.sent u.dev).worked u.dev with tallies := u.dev.tallies } }
      let reads := rows.flatMap (fun q => rowRanges (base + q.1 * stride) fmt (xtHidden t) q.2.1)
      e.admitted (s.dev.deepNeeds ([(s.dev.cAddr r.val e 16, 128), (xtWork t, 8), (xtLtag t, 8 * rows.length)] ++ reads) []) = true →
      (rows = [] → e.res = Result.ok → Ends cmd s (fun u => frame u ∧ u.mem = s.mem ∧
        (∃ e', u.dev.entry r.val c = some e' ∧ e'.phase = .done ∧ e'.res.status = 0) ∧
        (u.dev.chan k (xtXch t)).ret = none ∧ (u.dev.chan k (xtXch t)).retDone = true)) ∧
      (rows ≠ [] → (∀ q ∈ rows, tagOrigin q.2.2 ≠ s.dev.routing.log.toNat) →
        (∀ q ∈ rows, ∀ j < ceilDiv (xtHidden t) 128, (tile q j).bad = false) →
        s.dev.mustWaitAlways (((rows.map (fun q => q.1)).eraseDups).map (fun i =>
          span 24 (base + i * stride) (tensorSize fmt (rows.countP (fun q => q.1 == i)) (xtHidden t)))) [] = false →
        Ends cmd s (fun u => frame u ∧ u.mem = s.mem ∧ ∃ x, (u.dev.chan k (xtXch t)).ret = some x ∧ x.ring = r.val ∧ x.count = c ∧
          x.unacked.length = rows.length * rowPackets (landFmt (bits (fld e.desc 36 1) 7 6) fmt) (xtHidden t)))) ∧
    (∀ (t : BitVec 1024) (b : Option Grid) (g : Grid), s.dev.op r.val c 0x25 = some e →
      s.dev.combinePlan s.mem r.val e = .ok (t, b, g) → s.dev.mustWaitAlways (slotGrid t :: b.toList) [g] = false →
      e.admitted (s.dev.deepNeeds (s.dev.combineReads s.mem r.val e t b) (s.dev.gridSlots g)) = true →
      (∀ n < g.tiles, s.dev.combineFed s.mem t b g n = none) → Ends (.combine r c) s (fun u =>
        let ws := s.dev.combineWrites s.mem e t b g
        u.mem = s.mem.applyAll ws ∧ (∀ a, (∀ w ∈ ws, w.spares a) → u.mem.get a = s.mem.get a) ∧
        (∃ e', u.dev.entry r.val c = some e' ∧ e'.phase = .done ∧ e'.res.status = 0 ∧ e'.res.picks = 0) ∧ OnlyRing r.val s u ∧
        (∀ i, i ≠ k → u.dev.claim i = s.dev.claim i) ∧ u = { s with dev := s.dev.worked u.dev, mem := u.mem })) ∧
    (∀ (start : Val) (l : List (Val × Val)) (p : Val × Val),
      combineSum start (l ++ [p]) = f64.round ((combineSum start l).add (p.1.mul p.2)))

/-- With the shuttle RUNNING, the packet's tag known and its op running: a COUNT with no DISPATCH on its channel is held; an ARMED that comes before placement is gathered; a REFUSE ends the DISPATCH OPERAND_REFUSED with its REASON and frees the context. A ROWS packet of an accepted row stores its blocks and tag, a RESULT of an expected pair its blocks, and each is marked as come; a RESULT that nothing expects changes no memory. The last ACK of a RETURN op completes it. The ARM timeout, ARM_TIMEOUT after the start, fails the DISPATCH toward the first member it waits for. Packets with no claim, or no DISPATCH for an ARMED, are counted as discards. -/
def Obligations.ShuttlePacketsMoveTheExchange : Prop :=
  ∀ (s : State) (p : Packet) (c : Nat),
    let y := s.dev.chan c p.xch
    let sh := fun (u : State) => { s.dev.shuttle with cnt := u.dev.shuttle.cnt, chans := u.dev.shuttle.chans, cancels := u.dev.shuttle.cancels }
    let local' := fun (u : State) => u = { s with dev := { s.dev with rings := u.dev.rings, turns := u.dev.turns, shuttle := sh u } }
    let wide := fun (u : State) => u = { s with dev := { (s.dev.sent u.dev).worked u.dev with tallies := u.dev.tallies }, mem := u.mem }
    (s.dev.packetClaim p = none → ∀ cmd ∈ [Instr.shuttleCount p, .shuttleArmed p, .shuttleRefuse p, .shuttleRows p, .shuttleResult p, .shuttleAck p],
      Ends cmd s (fun u => u = { s with dev := { s.dev with
        shuttle := { s.dev.shuttle with cnt := u.dev.shuttle.cnt }, health := u.dev.health
        host := { s.dev.host with msixPending := u.dev.host.msixPending }, out := u.dev.out } } ∧
        Tbl.lookD u.dev.shuttle.cnt 0x50 0 = Tbl.lookD s.dev.shuttle.cnt 0x50 0 + 1)) ∧
    (s.dev.packetClaim p = some c → p.xOk 1 = true → y.disp = none → (∀ m, Tbl.look y.held p.slog = some m → m.whole = false) →
      Ends (.shuttleCount p) s (fun u => local' u ∧ u.dev.chan c p.xch = { y with held := gather y.held p.slog p 16 })) ∧
    (s.dev.packetClaim p = some c → p.xOk 2 = true → y.disp = none → Ends (.shuttleArmed p) s (fun u =>
      u.mem = s.mem ∧ Tbl.lookD u.dev.shuttle.cnt 0x50 0 = Tbl.lookD s.dev.shuttle.cnt 0x50 0 + 1 ∧ u.dev.chan c p.xch = y)) ∧
    (∀ x, s.dev.packetClaim p = some c → p.xOk 2 = true → y.disp = some x → s.dev.runs x.ring x.count = true → x.armed = false → x.cleared = [] → x.refusal = none →
      (∃ m ∈ s.dev.xMembers (xtSet x.table), ∀ q, Tbl.look x.counts m.1 = some q → q.whole = false) →
      Ends (.shuttleArmed p) s (fun u => u.mem = s.mem ∧
        (u.dev.chan c p.xch).disp = some { x with armedBy := gather x.armedBy p.slog p 0 })) ∧
    (∀ x e, s.dev.packetClaim p = some c → p.xOk 6 = true → y.disp = some x → s.dev.entry x.ring x.count = some e → e.phase = .started →
      Ends (.shuttleRefuse p) s (fun u => local' u ∧ u.dev.chan c p.xch = { y with disp := none, res := none } ∧
        ∃ e', u.dev.entry x.ring x.count = some e' ∧ e'.phase = .done ∧ e'.res = Result.fail 0x200A (p.p 16 4) ∧ e'.ran = false)) ∧
    (∀ x pos, s.dev.packetClaim p = some c → p.xOk 3 = true → y.disp = some x → x.position p.slog (p.p 8 2) (p.p 12 4) = some pos →
      let first := p.p 10 2
      let n := min (packetBlocks x.lf) (rowBlocks (xtHidden x.table) - first)
      let key := (p.slog, p.p 8 2, p.p 12 4, first)
      p.slog ≠ s.dev.routing.log.toNat → first % packetBlocks x.lf = 0 → n ≠ 0 → p.payload.length = 16 + n * blockBytes x.lf → key ∉ x.got →
      s.dev.runs x.ring x.count = true → x.armed = true → x.landed = false → x.rows = [] → (∀ a ∈ x.armedBy, a.1 ∈ x.cleared) →
      { x with got := x.got ++ [key] }.landingDone s.dev.routing.log.toNat = false → Ends (.shuttleRows p) s (fun u => wide u ∧
        u.mem = s.mem.applyAll (((Work.of s).landBlocks (x.landBase (p.p 8 2)) x.lf (xtHidden x.table) pos first
          (wireBlocksOf x.lf n (p.payload.drop 16))).putTag x (p.p 8 2) pos (landTag p.slog (p.p 6 2) (p.p 5 1) p.xbatch false)).ops ∧
        (u.dev.chan c p.xch).disp = some { x with got := x.got ++ [key] })) ∧
    (∀ z w, s.dev.packetClaim p = some c → y.res = some z →
      let fmt := p.p 12 4
      let n := (p.payload.length - 16) / blockBytes fmt
      let accum := bit (p.p 1 1) 4
      let key := p.p 6 2 * xtK z.table + p.p 5 1
      p.p 0 1 = 4 → bits (p.p 1 1) 3 0 = 0 → p.p 4 1 < 64 → p.p 5 1 < 16 → fmt = 1 ∨ fmt = 2 ∨ fmt = 5 ∨ fmt = 6 → n ≠ 0 →
      p.payload.length = 16 + n * blockBytes fmt →
      (Tbl.look z.expect key = some w → z.armed = true → s.dev.staleBatch c z.batch = false → s.dev.staleBatch c p.xbatch = false →
        p.p 5 1 < xtK z.table → (if accum then xtAccbuf z.table else xtSlotbuf z.table) ≠ 0 → z.again key fmt p.slog (p.p 10 2) n = false →
        (∀ a ∈ z.tilesOf accum key (p.p 10 2) n, ((Work.of s).coded a.2).2 = false) →
        Ends (.shuttleResult p) s (fun u => wide u ∧
          u.mem = s.mem.applyAll ((Work.of s).landResult z accum key w fmt (p.p 10 2) (wireBlocksOf fmt n (p.payload.drop 16))).ops ∧
          ∃ z', (u.dev.chan c p.xch).res = some z' ∧ z'.got = z.got ++ [{ key := key, first := p.p 10 2, blocks := n, fmt := fmt, src := p.slog }] ∧ z'.expect = z.expect)) ∧
      (Tbl.look z.expect key = none → Ends (.shuttleResult p) s (fun u => wide u ∧ u.mem = s.mem ∧ u.dev.chan c p.xch = y))) ∧
    (∀ q e, s.dev.packetClaim p = some c → p.xOk 5 = true → y.disp = none → y.ret = some q → q.unacked = [(p.slog, slice p.payload 16 16)] →
      s.dev.entry q.ring q.count = some e → e.phase = .started → Ends (.shuttleAck p) s (fun u =>
        u = { s with dev := { s.dev with rings := u.dev.rings, claims := u.dev.claims, turns := u.dev.turns, shuttle := sh u } } ∧
        u.dev.chan c p.xch = { y with ret := none, retDone := true } ∧ ∃ e', u.dev.entry q.ring q.count = some e' ∧ e'.phase = .done ∧
          e'.res = { e.res with retry := e.res.retry || p.retried || p.retrySeen })) ∧
    (∀ (k : Fin 32) (ch : Fin 64) (x : Exch) (m : Nat × Nat) (e : Entry), (s.dev.chan k.val ch.val).disp = some x →
      (s.dev.xMembers (xtSet x.table)).find? (fun m => m.2 != s.dev.self &&
        !((Tbl.look x.counts m.1).any Counted.whole && (Tbl.look x.armedBy m.1).any Counted.whole)) = some m → s.dev.armPast x = true →
      s.dev.entry x.ring x.count = some e → e.phase = .started → classOf e.res.status < 3 → Ends (.shuttleArmTimeout k ch) s (fun u =>
        u = { s with dev := { s.dev with rings := u.dev.rings, claims := u.dev.claims, turns := u.dev.turns, draws := u.dev.draws,
                                         shuttle := sh u }, mem := u.mem } ∧
        u.mem = s.mem.applyAll (s.dev.scramble x.outs).2 ∧ (u.dev.chan k.val ch.val).disp = none ∧
        ∃ e', u.dev.entry x.ring x.count = some e' ∧ e'.phase = .done ∧ e'.res.status = 0x3005 ∧
          e'.res.reason = BitVec.ofNat 16 (s.dev.portTo m.2)))

/-- With management running: CREATE stores its reason and, where every check passes, enters the staged object CREATING, apart in device and deep addresses from every object that is not FREE; no other object changes. The end of creation drops the cells a ZERO object zero-fills and makes it READY, or LOST where a unit of it is lost. DESTROY of a READY or LOST object answers 0, makes its regions not VALID and the object DYING, or FREE at once. QUERY fills the entry and the counts of lost and near units, zeros for a FREE object. -/
def Obligations.ObjectsAreCreatedQueriedAndDestroyed : Prop :=
  ∀ s : State,
    let n := s.dev.hoist.sel.toNat
    let x := s.dev.hoist.entry
    (s.dev.health.stopped = false → Ends .objCreate s (fun t =>
      let why := s.dev.createReason n x
      t = { s with dev := { s.dev with objects := t.dev.objects, hoist := { s.dev.hoist with reason := BitVec.ofNat 16 why } } } ∧
      (∀ k, k ≠ n → t.dev.obj k = s.dev.obj k) ∧ (why ≠ 0 → t.dev.objects = s.dev.objects) ∧
      (why = 0 → s.dev.obj n = none ∧ (∃ o, t.dev.obj n = some o ∧ o.st = .creating ∧ o.base = (objOf x).base ∧ o.len = (objOf x).len ∧
          o.claim = (objOf x).claim ∧ o.placement = (objOf x).placement ∧ o.moves = [] ∧ o.lostUnits = [] ∧
          ((objOf x).placement = 0 → ∀ i < o.units, o.isNear i = true) ∧ ((objOf x).placement ≠ 0 → o.near = [])) ∧
        (objOf x).base + (objOf x).len ≤ 2304 * 2 ^ 30 ∧ (objOf x).base % 64 = 0 ∧ 0 < (objOf x).len ∧
        ∀ y ∈ s.dev.objects, y.2.st ≠ .free →
          meets ((objOf x).base, (objOf x).base + (objOf x).len) (y.2.base, y.2.base + y.2.len) = false ∧
          ∀ k < 4, meets ((objOf x).deepRange k) (y.2.deepRange k) = false))) ∧
    (∀ (k : Fin 262144) (o : Obj), s.dev.obj k.val = some o → o.st = .creating → o.doomed = false → Ends (.objCreateDone k) s (fun t =>
      t = { s with dev := { s.dev with objects := t.dev.objects }, mem := s.mem.applyAll (if o.zero then o.zeroFill else []) } ∧
      t.dev.obj k.val = some { o with st := if o.lostCount ≠ 0 then .lost else .ready, readySeq := s.dev.started } ∧
      ∀ j, j ≠ k.val → t.dev.obj j = s.dev.obj j)) ∧
    (∀ o, s.dev.health.stopped = false → s.dev.isRunning .hoist = true → s.dev.obj n = some o → o.st = .ready ∨ o.st = .lost →
      Ends .objDestroy s (fun t =>
        t = { s with dev := { s.dev with objects := t.dev.objects, dies := t.dev.dies, xbar := { s.dev.xbar with regions := t.dev.xbar.regions },
                                         hoist := { s.dev.hoist with reason := 0 } } } ∧
        (t.dev.obj n = none ∨ t.dev.obj n = some { o with st := .dying, dyingSeq := s.dev.started }) ∧
        (∀ i g, Tbl.look t.dev.xbar.regions i = some g → bits g.toNat 49 32 = n → bit g.toNat 63 = false) ∧
        ∀ k q, k ≠ n → s.dev.obj k = some q → (∀ y ∈ s.dev.objects, y.1 = k → y.2.st ≠ .dying) → t.dev.obj k = some q)) ∧
    (s.dev.health.stopped = false → s.dev.isRunning .hoist = true → Ends .objQuery s (fun t =>
      t = { s with dev := { s.dev with hoist := t.dev.hoist } } ∧
      (s.dev.obj n = none → t.dev.hoist = { s.dev.hoist with entry := 0, infoLost := 0, infoNear := 0, reason := 0 }) ∧
      ∀ o, s.dev.obj n = some o → t.dev.hoist = { s.dev.hoist with
        entry := o.entry, infoLost := BitVec.ofNat 32 o.lostCount, infoNear := BitVec.ofNat 32 (rangesCount o.near), reason := 0 }))

/-- A HOIST or SETTLE that passes its checks, where the near chunks it needs are free, gives each named unit of the other home a move of its own, in their order, and changes no home and no memory; with no such unit it ends OK at once. A PLACE takes its policy at the start, and ends at once where no unit has to move; to PIN_DEEP it gives every near unit a move. A COPY, its meters having admitted it, of 64-byte multiples stores the bytes it read; a COPY of tiles stores each tile as its CODEC says; both leave every byte outside their stores and end OK. -/
def Obligations.HoistOpsStartTheirMovesAndCopyCopies : Prop :=
  ∀ (s : State) (r : RingNo) (c : W32) (e : Entry),
    let started := fun (t : State) => OnlyRing r.val s t ∧ t = { s with dev := { s.dev.worked t.dev with
      objects := t.dev.objects, frames := { s.dev.frames with asks := t.dev.frames.asks, lastServed := t.dev.frames.lastServed } } }
    let ended := fun (t : State) (res : Result) => t.dev.entry r.val c = some ({ e with taken := true }.doneWith res) ∧ OnlyRing r.val s t ∧
      t = { s with dev := { s.dev with rings := t.dev.rings, claims := t.dev.claims, objects := t.dev.objects, turns := t.dev.turns } }
    (∀ (opc : Nat) (p : Place), opc = 0x30 ∨ opc = 0x31 → s.dev.op r.val c opc = some e → s.dev.isRunning .hoist = true →
      s.dev.opMoving r.val c = false → s.dev.place r.val e 16 1 1 = .ok p → s.dev.obj p.num = some p.obj →
      (p.addr - p.obj.base) % p.obj.unitSize = 0 → p.obj.isLost = false →
      let cmd := if opc = 0x30 then Instr.hoist r c else Instr.settle r c
      let lo := (p.addr - p.obj.base) / p.obj.unitSize
      let n := fld e.desc 24 4
      let near := decide (opc = 0x30)
      let units := ((List.range n).map (lo + ·)).filter (fun i => p.obj.isNear i != near)
      lo + n ≤ p.obj.units → p.obj.placement ≠ (if near then 1 else 0) → (∀ v ∈ p.obj.moves, v.unit < lo ∨ lo + n ≤ v.unit) →
      (units = [] → Ends cmd s (fun t => ended t e.res)) ∧
      (units ≠ [] → (near = true → ∀ k ∈ p.obj.dieList,
          (units.countP (fun i => p.obj.unitDie i == k)) * p.obj.chunks ≤ s.dev.nearLeft p.obj.claim k) → Ends cmd s (fun t => started t ∧
        (∃ o', t.dev.obj p.num = some o' ∧ { o' with moves := [] } = { p.obj with moves := [] } ∧
          o'.moves.map (fun v => { v with begun := false }) = (p.obj.moves.map (fun v => { v with begun := false })) ++ units.zipIdx.map
            (fun i => { unit := i.1, toNear := near, begun := false, ord := i.2, op := some (r.val, c), evict := false })) ∧
        ∀ k, k ≠ p.num → t.dev.obj k = s.dev.obj k))) ∧
    (∀ o : Obj, s.dev.op r.val c 0x32 = some e →
      let n := bits (fld e.desc 16 4) 17 0
      let p := fld e.desc 20 1
      s.dev.obj n = some o → o.usable e = true → o.claim = s.dev.claimOf r.val → s.dev.isRunning .hoist = true →
      s.dev.opMoving r.val c = false → o.isLost = false → o.placing = none → o.moves = [] →
      ((bits p 7 6 = 0 ∧ ∀ i < o.units, o.isNear i = true) ∨ (bits p 7 6 = 1 ∧ ∀ i < o.units, o.isNear i = false) ∨ bits p 7 6 = 2 →
        Ends (.place r c) s (fun t => ended t e.res ∧
          t.dev.obj n = some { o with placement := bits p 7 6, reroute := bit p 5, codeDeep := bit p 4 })) ∧
      (bits p 7 6 = 1 → (∃ i < o.units, o.isNear i = true) → Ends (.place r c) s (fun t => started t ∧
        ∃ o', t.dev.obj n = some o' ∧ o'.placement = 1 ∧ o'.near = o.near ∧
          o'.moves.map (fun v => (v.unit, v.toNear)) = ((List.range o.units).filter o.isNear).map (fun i => (i, false))))) ∧
    (s.dev.op r.val c 0x33 = some e → s.dev.isRunning .hoist = true →
      let len := fld e.desc 32 8
      let gives := fun (ws : List MemOp) (t : State) =>
        t.mem = s.mem.applyAll ws ∧ (∀ k, (∀ w ∈ ws, w.spares k) → t.mem.get k = s.mem.get k) ∧
        (∃ e', t.dev.entry r.val c = some e' ∧ e'.phase = .done ∧ e'.res.status = 0 ∧ e'.res.picks = 0) ∧ OnlyRing r.val s t ∧
        t = { s with dev := s.dev.worked t.dev, mem := t.mem }
      (∀ p q : Place, bit (fld e.desc 40 1) 7 = false → len % 64 = 0 → s.dev.access r.val e 16 len 64 = .ok p →
        s.dev.access r.val e 24 len 64 = .ok q → (span 16 p.addr len).overlaps (span 24 q.addr len) = false →
        s.dev.mustWait e [span 16 p.addr len] [span 24 q.addr len] = false →
        e.admitted (s.dev.copyNeeds [(p.addr, len)] (q.addr, len)) = true →
        Ends (.copy r c) s (gives (s.dev.writeDev q.addr (s.dev.readDev s.mem p.addr len)))) ∧
      (∀ p0 p q : Place, bit (fld e.desc 40 1) 7 = true → s.dev.access r.val e 16 1 1 = .ok p0 →
        let u := p0.obj.unitSize
        let codec := bits (fld e.desc 40 1) 6 5
        s.dev.access r.val e 16 (len * u) 1 = .ok p → s.dev.access r.val e 24 (len * u) 1 = .ok q → p.obj = p0.obj → p.obj.flat = false →
        q.obj.flat = false → p.obj.slotFmt = q.obj.slotFmt → (p.addr - p.obj.base) % u = 0 → (q.addr - q.obj.base) % u = 0 →
        (span 16 p.addr (len * u)).overlaps (span 24 q.addr (len * u)) = false →
        s.dev.mustWait e [span 16 p.addr (len * u)] [span 24 q.addr (len * u)] = false →
        e.admitted (s.dev.copyNeeds ((s.dev.copyIn s.mem p len).zipIdx.map (fun x =>
          (p.addr + x.2 * u, min u (64 + (hdrOf (x.1.take 64)).stored)))) (q.addr, len * u)) = true →
        (∀ b ∈ s.dev.copyIn s.mem p len, (hdrOf (b.take 64)).passes (b.take 64) anyFmt true = true) →
        (∀ b ∈ s.dev.copyOut s.mem p q len codec, b.2 = false) →
        Ends (.copy r c) s (gives (s.dev.copyWrites s.mem p q len codec))))

/-- MOVE_COMMIT of a move under way that waits for no displaced unit gives the unit the home it moved to and no other unit another; its contents at the new home are what it held, coded where R227 says, where no write waits for it, and the move is over. HOIST_EVALUATION starts moves and changes no home and no memory. HEAT_HALVING halves every heat count. A clean scrub changes nothing; an uncorrectable deep line makes every unit homed there lost and raises an alarm. LD_TIER_AUTO and HOIST_CFG take legal values; others leave them as they are and set the reject bit. -/
def Obligations.UnitsMoveBetweenTheirHomes : Prop :=
  ∀ s : State,
    (∀ (n : Fin 262144) (unit : Nat) (o : Obj) (v : Move), s.dev.obj n.val = some o →
      o.moves.find? (fun w => w.unit == unit && w.begun) = some v →
      (v.toNear = true → ∀ y ∈ s.dev.objects, y.2.claim = o.claim → ∀ w ∈ y.2.moves, w.evict = true →
        y.2.unitDie w.unit = o.unitDie unit → w.op ≠ v.op) → MemoryOk s →
      Ends (.moveCommit n unit) s (fun t => MemoryOk t ∧
        t = { s with dev := { s.dev.worked t.dev with
                objects := t.dev.objects, frames := { s.dev.frames with asks := t.dev.frames.asks, lastServed := t.dev.frames.lastServed } },
                     mem := t.mem } ∧
        ∃ o', t.dev.obj n.val = some o' ∧ (∀ w ∈ o'.moves, w.unit ≠ unit) ∧ o'.isNear unit = v.toNear ∧
          (∀ i, i ≠ unit → o'.isNear i = o.isNear i) ∧ o'.base = o.base ∧ o'.st = o.st ∧
          ((∀ x ∈ o.held, x.1 < o.base + unit * o.unitSize ∨ o.base + (unit + 1) * o.unitSize ≤ x.1) →
            o'.unitData t.mem unit = o.arrival v.toNear (o.unitData s.mem unit)))) ∧
    (∀ n : Fin 4, s.dev.autoState n.val = 1 → s.dev.isRunning .hoist = true → Ends (.hoistEvaluation n) s (fun t =>
      t = { s with dev := { s.dev with objects := t.dev.objects, claims := t.dev.claims, dies := t.dev.dies, health := t.dev.health,
                                       dozeAborted := t.dev.dozeAborted,
                                       hoist := { s.dev.hoist with cfg := { s.dev.hoist.cfgReg with heatPeriod := s.dev.hoist.cfg.heatPeriod } } } } ∧
      ∀ k o, s.dev.obj k = some o → ∃ new, t.dev.obj k = some { o with moves := o.moves ++ new } ∧ ∀ v ∈ new, v.op = none)) ∧
    Ends .heatHalving s (fun t =>
      t = { s with dev := { s.dev with dies := t.dev.dies, hoist := { s.dev.hoist with heatTick := s.dev.now, cfg := t.dev.hoist.cfg } } } ∧
      t.dev.hoist.cfg = { s.dev.hoist.cfg with heatPeriod := s.dev.hoist.cfgReg.heatPeriod } ∧
      ∀ n k u, (t.dev.die n).heatOf k u = (s.dev.die n).heatOf k u / 2) ∧
    (∀ (n : Fin 4) (near : Bool) (off : BitVec 42), (s.dev.die n.val).on = true →
      Ends (.patrolScrub n near off .clean) s (fun t => t = s) ∧
      Ends (.patrolScrub n false off .uncorrectable) s (fun t =>
        t = { s with dev := { s.dev with objects := t.dev.objects, dies := t.dev.dies, health := t.dev.health
                                         host := { s.dev.host with msixPending := t.dev.host.msixPending }, out := t.dev.out } } ∧
        ∀ u ∈ s.dev.deepUnits n.val (off.toNat / 512 * 512) (off.toNat / 512 * 512 + 512), ∀ o, s.dev.obj u.1 = some o →
          ∃ o', t.dev.obj u.1 = some o' ∧ inRanges o'.lostUnits u.2 = true ∧ (o.st = .ready → o'.st = .lost))) ∧
    (s.dev.health.stopped = false →
      (∀ (n : Fin 4) (v : W32), Ends (.ldTierAutoWrite n v) s (fun t =>
        t = { s with dev := { s.dev with dies := t.dev.dies } } ∧ (∀ k, k ≠ n.val → t.dev.die k = s.dev.die k) ∧
        t.dev.die n.val = (if s.dev.fixedPace = true ∨ 1 < v.toNat % 4 then { s.dev.die n.val with tierReject := true }
                           else { s.dev.die n.val with tierAuto := v.setWidth 2 }))) ∧
      (∀ v : W32, Ends (.hoistCfgWrite v) s (fun t =>
        let legal := v.toNat / 2 ^ 20 ≠ 0 ∧ v.toNat / 2 ^ 12 % 256 ≠ 0 ∧ v.toNat / 16 % 256 ≤ v.toNat / 2 ^ 12 % 256 ∧ v.toNat % 16 ≠ 0
        (legal → t = { s with dev := { s.dev with hoist := { s.dev.hoist with cfgReg :=
          { heatPeriod := v.extractLsb' 20 12, promote := v.extractLsb' 12 8, hyst := v.extractLsb' 4 8, maxMoves := v.extractLsb' 0 4 } } } }) ∧
        (¬ legal → t = { s with dev := s.dev.setBlock .hoist { s.dev.block .hoist with reject := true } }))))

/-- FRAME_START, where a frame starts on this tick, takes the new length, shares and lending, counts the frame, latches each meter, and gives each RUNNING claim its weighted part of every meter but CTRL, rounded down, less its debt. Elsewhere it does nothing. METER_ADMIT serves one waiting request: of a claim with a balance above 0, else of one that may borrow; where none is, nothing changes. A request of an op leaves the list and is charged to its claim, own or borrowed, and to no other. The share, lending, frame and meter-select registers take legal values; a write out of range leaves them as they are and sets WRITE_REJECT. -/
def Obligations.FramesShareOutAndMetersCharge : Prop :=
  ∀ s : State,
    (s.dev.frameDue = false → Ends .frameStart s (fun t => t = s)) ∧
    (s.dev.frameDue = true → Ends .frameStart s (fun t =>
      let u := { s.dev with frames := { s.dev.frames with len := s.dev.frames.lenReg }, xbar := { s.dev.xbar with share := s.dev.xbar.shareReg } }
      let run := (List.range 32).filter (fun c => s.dev.isRunning (claimBlock c))
      t = { s with dev := { s.dev.sent t.dev with
              frames := { s.dev.frames with len := s.dev.frames.lenReg, num := s.dev.frames.num + 1, start := s.dev.now, skew := s.dev.skew
                                            lendState := if s.dev.frames.lendOff then 1 else 0 }
              xbar := { s.dev.xbar with share := s.dev.xbar.shareReg, cnt := t.dev.xbar.cnt }
              claims := t.dev.claims } } ∧
      (∀ c, (t.dev.claim c).shareNow = (s.dev.claim c).share ∧ (t.dev.claim c).share = (s.dev.claim c).share) ∧
      ∀ c ∈ run, ∀ m ∈ allMeters, let old := s.dev.meter c (meterKey m)
        let new := t.dev.meter c (meterKey m)
        new.bal = new.budget ∧ new.used = 0 ∧ new.borrowed = 0 ∧ new.lastUsed = old.used ∧ new.lastBudget = old.budget ∧
        new.lastBorrowed = old.borrowed ∧
        (m ≠ .fabric 4 → new.budget =
          ((u.capacity m * (s.dev.claim c).share.weight m / (run.map (fun k => (s.dev.claim k).share.weight m)).sum : Nat) : Int) -
            max 0 (-old.bal)))) ∧
    (∀ m : Meter, s.dev.movers = [] →
      let key := meterKey m
      let asks := s.dev.asksAt key
      let mine := fun (a : Ask) => 0 < (s.dev.meter a.claim key).bal
      ((∀ a ∈ asks, a.claim < 32 ∧ ¬ mine a ∧ s.dev.mayBorrow a.claim = false) → Ends (.meterAdmit m) s (fun t => t = s)) ∧
      (∀ a, s.dev.nextAsk key = some a → a ∈ asks ∧ (mine a ∨ (s.dev.mayBorrow a.claim = true ∧ ∀ b ∈ asks, ¬ mine b))) ∧
      (∀ a r k, s.dev.nextAsk key = some a → a.what = .op r k → key ≠ 48 → Ends (.meterAdmit m) s (fun t =>
        t = { s with dev := { s.dev with
                rings := t.dev.rings, claims := t.dev.claims, xbar := { s.dev.xbar with rem := t.dev.xbar.rem }
                frames := { s.dev.frames with asks := s.dev.frames.asks.erase a, lastServed := Tbl.put s.dev.frames.lastServed key a.claim } } } ∧
        OnlyRing r s t ∧ (∀ j, j ≠ a.claim → t.dev.claim j = s.dev.claim j) ∧
        t.dev.meter a.claim key = (if mine a then (s.dev.meter a.claim key).own a.units else (s.dev.meter a.claim key).lent a.units) ∧
        ∃ e', t.dev.entry r k = some e' ∧ e'.phase = .started ∧ key ∈ e'.paid))) ∧
    (s.dev.health.stopped = false →
      let reject := { s with dev := { s.dev with frames := { s.dev.frames with writeReject := true } } }
      let first := s.dev.frames.num ≠ 0 ∧ s.dev.frames.start = s.dev.now
      let acts := fun (c : Fin 32) (k : Claim) (t : State) => t = { s with dev := { s.dev with claims := t.dev.claims } } ∧
        (t.dev.claim c.val).share = k.share ∧ (first → ∀ j, (t.dev.claim j).shareNow = (t.dev.claim j).share) ∧
        (¬ first → t.dev.claim c.val = k ∧ ∀ j, j ≠ c.val → t.dev.claim j = s.dev.claim j)
      let only := fun (c : Fin 32) (k : Claim) (t : State) => t = { s with dev := { s.dev with claims := t.dev.claims } } ∧
        t.dev.claim c.val = k ∧ ∀ j, j ≠ c.val → t.dev.claim j = s.dev.claim j
      (∀ (c : Fin 32) (v : W32), let k := s.dev.claim c.val
        (v.toNat % 65536 = 0 ∨ v.toNat / 65536 = 0 → Ends (.claimShareWrite c false v) s (fun t => t = reject) ∧
          Ends (.claimShareWrite c true v) s (fun t => t = reject)) ∧
        (v.toNat % 65536 ≠ 0 → v.toNat / 65536 ≠ 0 →
          Ends (.claimShareWrite c false v) s (acts c { k with share := { k.share with deep := v.setWidth 16, hoist := v.extractLsb' 16 16 } }) ∧
          Ends (.claimShareWrite c true v) s (acts c { k with share := { k.share with fabric := v.setWidth 16, coll := v.extractLsb' 16 16 } })) ∧
        Ends (.claimCfgWrite c v) s (acts c { k with share := { k.share with borrow := v.getLsbD 0 } }) ∧
        (3 < v.toNat / 16 % 16 ∨ 5 < v.toNat % 16 → Ends (.claimMeterSelWrite c v) s (fun t => t = reject)) ∧
        (v.toNat / 16 % 16 ≤ 3 → v.toNat % 16 ≤ 5 → Ends (.claimMeterSelWrite c v) s
          (only c { k with selMeter := v.extractLsb' 4 4, selIndex := v.extractLsb' 0 4 }))) ∧
      (∀ v : W32,
        Ends (.claimsFrameWrite v) s (fun t => if s.dev.fixedPace = true ∨ v.toNat % 1024 = 0 ∨ 1000 < v.toNat % 1024 then t = reject
          else t = { s with dev := { s.dev with frames := { s.dev.frames with lenReg := v.setWidth 10 } } }) ∧
        Ends (.claimsLendWrite v) s (fun t => if s.dev.fixedPace then t = reject
          else t = { s with dev := { s.dev with frames := { s.dev.frames with
                                    lendOff := v.getLsbD 0
                                    lendState := if s.dev.frames.lendState = 2 then 2 else if v.getLsbD 0 then 1 else 0 } } })))

/-- PREEMPT of a RUNNING, ACTIVE claim with a fit context area enters PREEMPTING; the save, with every started op at its stopping point, writes the context, whose CHECK is right, releases lanes and cores and enters PREEMPTED; the timeout, CLAIM_PREEMPT_TO later with one that is not, returns to ACTIVE with 0x0305. RESTORE of a PREEMPTED claim whose context passes gives it the shape asked for and ACTIVE, with the interrupted ops counted under RESTART, at most 255; one that fails leaves it PREEMPTED with the reason of the first failing check. Memory changes only by the save, and no other claim changes. -/
def Obligations.ClaimsArePreemptedAndRestored : Prop :=
  ∀ (s : State) (c : Fin 32),
    let k := s.dev.claim c.val
    let others := fun (t : State) => ∀ j, j ≠ c.val → t.dev.claim j = s.dev.claim j
    let small := fun (t : State) => t = { s with dev := { s.dev with claims := t.dev.claims, health := t.dev.health } } ∧ others t
    (∀ inside, s.dev.health.stopped = false → s.dev.isRunning (.claim c) = true → k.cmdBusy = false → Ends (.claimPreempt c inside) s (fun t =>
      small t ∧ t.dev.claim c.val =
        if k.pstate ≠ .active then { k with cmdReason := 0x0303, restarted := 0 }
        else if s.dev.areaBad c.val inside then { k with cmdReason := 0x0304, restarted := 0 }
        else { k with pstate := .preempting, cmdBusy := true, cmdReason := 0, restarted := 0, preTick := s.dev.phys, preInside := inside })) ∧
    (k.pstate = .preempting → s.dev.allStopped c.val = true → k.leaving = false → s.dev.isRunning (.claim c) = true →
      (∀ x ∈ s.dev.openOps c.val, (x.2.work.getD []).length ≤ 256) →
      Ends (.preemptSave c) s (fun t =>
        let ctx := (s.dev.context c.val (s.dev.openOps c.val)).1
        t = { s with dev := { s.dev with claims := t.dev.claims, health := t.dev.health, rings := t.dev.rings, tallies := t.dev.tallies,
                                         dies := t.dev.dies, draws := t.dev.draws, capGen := t.dev.capGen, capTick := t.dev.capTick
                                         power := { s.dev.power with svcReqN := t.dev.power.svcReqN } },
                     mem := s.mem.applyAll (s.dev.writeDev k.ctxAddr.toNat ctx) } ∧
        ctx.length = 2 ^ 20 + ((s.dev.openOps c.val).map (fun x => 4096 + 425984 * x.2.windows)).sum ∧ fieldAt ctx 0 2 = 0x4358 ∧ fieldAt ctx 8 8 = k.gen.toNat ∧
        fieldAt ctx 64 8 = ctx.length % 2 ^ 64 ∧ crc64 (ctx.take 72 ++ List.replicate 8 0 ++ ctx.drop 80) = fieldAt ctx 72 8 ∧
        (t.dev.claim c.val).pstate = .preempted ∧ (t.dev.claim c.val).lanes = [] ∧ (t.dev.claim c.val).cores = 0 ∧
        (t.dev.claim c.val).ctxLen = BitVec.ofNat 64 ctx.length ∧ (t.dev.claim c.val).cmdBusy = false ∧
        (t.dev.claim c.val).cmdReason = 0 ∧ (t.dev.claim c.val).gen = k.gen ∧ others t ∧ ∀ n < 1024, t.dev.ring n = s.dev.ring n)) ∧
    (k.pstate = .preempting → s.dev.past k.preTick k.preTo.toNat = true → s.dev.allStopped c.val = false → k.leaving = false →
      s.dev.isRunning (.claim c) = true → Ends (.preemptTimeout c) s (fun t => small t ∧
      t.dev.claim c.val = { k with pstate := .active, cmdBusy := false, cmdReason := 0x0305, restarted := 0 })) ∧
    (k.pstate ≠ .preempting ∨ s.dev.past k.preTick k.preTo.toNat = false ∨ s.dev.allStopped c.val = true →
      Ends (.preemptTimeout c) s (fun t => t = s)) ∧
    (∀ restart, s.dev.health.stopped = false → s.dev.isRunning (.claim c) = true → k.cmdBusy = false → k.pstate = .preempted →
      let cmd := if restart then Instr.claimRestoreRestart c else Instr.claimRestore c
      (∀ why, s.dev.restoreCheck s.mem c.val restart = .error why → Ends cmd s (fun t => small t ∧
        t.dev.claim c.val = { k with cmdReason := BitVec.ofNat 16 why, restarted := 0 })) ∧
      (∀ n, s.dev.restoreCheck s.mem c.val restart = .ok n → Ends cmd s (fun t =>
        t = { s with dev := { s.dev with claims := t.dev.claims, health := t.dev.health, rings := t.dev.rings, tallies := t.dev.tallies } } ∧
        others t ∧ (restart = false → ∀ r < 1024, t.dev.ring r = s.dev.ring r) ∧
        (restart = true → ∀ x ∈ s.dev.openOps c.val, x.1 < 1024 → ∃ e', t.dev.entry x.1 x.2.count = some e' ∧ e'.work = none) ∧
        t.dev.claim c.val = { k with
          pstate := .active, lanes := k.restLanes, cores := k.restCores, shapeLost := false, cmdReason := 0,
          ports := (t.dev.claim c.val).ports, accPicks := (t.dev.claim c.val).accPicks
          restarted := if restart then BitVec.ofNat 8 (min n 255) else 0 })))

/-- Training of a RUNNING port ends as its result says: it stays TRAINING with too few lanes, or ends MISWIRED, TOO_LONG, UP4 or UP3, afresh. RETRAIN starts it again once the retry timer has run out. A flit of 256 bytes with a bad CRC is counted and NAKed at the number expected, in an idle flit; the flit expected is counted and acknowledged; one out of order changes nothing. A NAK replays the flits from its own on, each counted once more. A link that exhausts its retries or its time goes to three lanes where DEGRADE lets one failing lane go, else DOWN; so does a leaving notice. A failed loopback sets condition 7, a passed one raises the link alarm. No other port's link changes. -/
def Obligations.LinksTrainRetryAndGoDown : Prop :=
  ∀ (s : State) (n : Fin 48),
    let p := s.dev.port n.val
    let links := fun (t : State) => t = { s with dev := { s.dev.sent t.dev with time := t.dev.time } } ∧
      ∀ j, j ≠ n.val → (t.dev.port j).link = (s.dev.port j).link ∧ (t.dev.port j).lanes = (s.dev.port j).lanes
    (∀ r : TrainResult, s.dev.isRunning (.port n) = true → p.link = .training → Ends (.fabricLinkUp n r) s (fun t => links t ∧
      let lanes := r.lanes &&& p.cfg.mask
      let k := popCount 4 lanes.toNat
      let q := t.dev.port n.val
      if k < 3 ∨ (k = 3 ∧ p.cfg.mask = 0xF ∧ p.cfg.degrade ≠ 0) then
        q = { p with link := .training, trainTick := s.dev.phys, alarmed := true } ∧
          t.dev.health.alarms = s.dev.health.alarms + (if p.alarmed then 0 else 1)
      else if s.dev.wired n.val r = false then
        q.link = .miswired ∧ q.lanes = 0 ∧ q.peerPhys = r.phys ∧ t.dev.health.alarms = s.dev.health.alarms + 1
      else if 600 < r.delay then q.link = .tooLong ∧ q.lanes = 0 ∧ t.dev.health.alarms = s.dev.health.alarms + 1
      else q.link = (if lanes = 0xF then .up4 else .up3) ∧ q.lanes = lanes ∧ q.delay = BitVec.ofNat 10 r.delay ∧ q.rxSeq = 0 ∧
        q.refusing = false ∧ q.alarmed = false)) ∧
    (s.dev.isRunning (.port n) = true → p.link = .off ∨ (p.link = .down ∨ p.link = .training) ∧ s.dev.past p.trainTick 1000 = true ∨
        p.link = .miswired ∧ s.dev.past p.trainTick 1000000 = true →
      Ends (.portRetrain n) s (fun t => links t ∧ t.dev.port n.val = { p with link := .training, lanes := 0, trainTick := s.dev.phys })) ∧
    (∀ b : List Byte, p.up = true →
      let f := flitOf b
      (f.crcOk = false → Ends (.flitReceive n b) s (fun t => links t ∧ t.dev.out = .idle n.val (idleFlit true p.rxSeq).bytes :: s.dev.out ∧
        t.dev.port n.val = { p with cnt := bump p.cnt 0x50 1, refusing := true })) ∧
      (f.crcOk = true → f.vc ≠ 7 → f.seq ≠ p.rxSeq → Ends (.flitReceive n b) s (fun t => t = s)) ∧
      (f.crcOk = true → f.vc ≠ 7 → f.seq = p.rxSeq → Ends (.flitReceive n b) s (fun t => links t ∧
        (t.dev.port n.val).rxSeq = p.rxSeq + 1 ∧ (t.dev.port n.val).refusing = false ∧ .idle n.val (idleFlit false f.seq).bytes ∈ t.dev.out ∧
        (t.dev.port n.val).link = p.link))) ∧
    (∀ q : BitVec 12, p.up = true → p.flights.any (fun f => f.seq == q) = true → Ends (.flitNak n q) s (fun t => links t ∧
      (t.dev.port n.val).flights.map (fun f => (f.seq, f.replays)) =
        (p.flights.takeWhile (fun f => f.seq != q)).map (fun f => (f.seq, f.replays)) ++
        (p.flights.dropWhile (fun f => f.seq != q)).map (fun f => (f.seq, f.replays + 1)) ∧
      t.dev.out = .replay n.val (((t.dev.port n.val).flights.dropWhile (fun f => f.seq != q)).map (fun f => f.flit.bytes)) :: s.dev.out)) ∧
    (∀ lane : Option (Fin 4), p.up = true →
      let falls := fun (t : State) => links t ∧ match lane with
        | some l => if p.cfg.degrade = 0 ∧ p.link = .up4 then (t.dev.port n.val).link = .up3 ∧ (t.dev.port n.val).loop = some l ∧
              (t.dev.port n.val).lanes = p.lanes &&& ~~~ BitVec.ofNat 4 (2 ^ l.val)
            else (t.dev.port n.val).link = .down ∧ (t.dev.port n.val).lanes = 0
        | none => (t.dev.port n.val).link = .down ∧ (t.dev.port n.val).lanes = 0
      (p.flights.any (fun f => Nat.ble p.cfg.retryLimit.toNat f.replays) = true → Ends (.linkRetryExhausted n lane) s falls) ∧
      (p.flights ≠ [] → s.dev.past p.ackTick p.cfg.linkTo.toNat = true → Ends (.linkAckTimeout n lane) s falls)) ∧
    (p.up = true → Ends (.leavingNoticeReceive n) s (fun t => links t ∧ (t.dev.port n.val).link = .down ∧ (t.dev.port n.val).lanes = 0)) ∧
    (p.loop.isSome = true → Ends (.loopbackDone n true) s (fun t => links t ∧ t.dev.port n.val = { p with loop := none } ∧
        t.dev.health.alarms = s.dev.health.alarms + 1 ∧ t.dev.health.cond = s.dev.health.cond) ∧
      Ends (.loopbackDone n false) s (fun t => t.dev.port n.val = { p with loop := none } ∧ t.dev.health.cond.getLsbD 7 = true ∧
        t.dev.store.ports = s.dev.store.ports ||| BitVec.ofNat 48 (2 ^ n.val) ∧ t.mem = s.mem ∧ t.pending = s.pending))

/-- With the hub on, a packet that came by an up port not at a site boundary: at its own coordinate it is for this module; with eight hops it is dropped and counted; for another module of this bolt it joins the queue of the port toward it, one hop further, where that port is up. At the destination an aborted packet, a bad header or a revoked tag is counted and dropped, one for another module is discarded, and any other is delivered, a detoured one being confirmed. A notice about a PUT of this module ends it REMOTE_FAILED with the port. A delivery confirmation takes one detour off the list and holds FENCE packets while others of their flow are out. -/
def Obligations.PacketsAreRoutedCheckedAndDelivered : Prop :=
  ∀ (s : State) (k : Packet), s.dev.power.hubOn = true →
    (∀ p : Fin 48, (s.dev.port p.val).up = true → (s.dev.port p.val).site = false → k.mcast = false →
      (k.dst = s.dev.self → Ends (.packetForward (some p) k) s (fun t => t = { s with dev := s.dev.emit (.packet none k) })) ∧
      (k.dst ≠ s.dev.self → k.detoured = false → 8 ≤ k.hops → Ends (.packetForward (some p) k) s (fun t =>
        t = { s with dev := s.dev.sent t.dev } ∧ Tbl.lookD t.dev.routing.cnt 0x58 0 = Tbl.lookD s.dev.routing.cnt 0x58 0 + 1 ∧
        t.dev.health.alarms = s.dev.health.alarms + 1)) ∧
      (k.dst ≠ s.dev.self → k.detoured = false → k.hops < 8 → k.xsite = false → k.de = false → boltOf k.dst = boltOf s.dev.self →
        let q := if colOf k.dst ≠ colOf s.dev.self then warpPort (colOf s.dev.self) (colOf k.dst) else weftPort (rowOf s.dev.self) (rowOf k.dst)
        (s.dev.port q).up = true → (s.dev.port q).site = false → Ends (.packetForward (some p) k) s (fun t =>
          t = { s with dev := s.dev.sent t.dev } ∧ (∀ j, j ≠ q → t.dev.port j = s.dev.port j) ∧
          (k.hop ∈ (t.dev.port q).waiting ∨ .packet (some q) k.hop ∈ t.dev.out)))) ∧
    (k.mcast = false → k.dst = s.dev.self → k.xsite = false → k.de = false →
      Ends (.packetForward none k) s (fun t => t = { s with dev := s.dev.emit (.packet none k) })) ∧
    (let seen := match s.dev.tag k.tag with | some g => s.dev.setTag k.tag { g with seen := s.dev.phys } | none => s.dev
      (k.abort = true → Ends (.packetIngress k) s (fun t => t = { s with dev := s.dev.countRt 0x80 })) ∧
      (k.abort = false → k.bad = true → Ends (.packetIngress k) s (fun t => t = { s with dev := s.dev.countRt 0x70 })) ∧
      (k.abort = false → k.bad = false → k.mcast = false → k.dst ≠ s.dev.self ∨ k.dlog ≠ s.dev.routing.log.toNat →
        Ends (.packetIngress k) s (fun t => t = { s with dev := s.dev.sent t.dev } ∧ ∀ q, .deliver q ∈ t.dev.out → .deliver q ∈ s.dev.out)) ∧
      (k.abort = false → k.bad = false → k.mcast = true ∨ (k.dst = s.dev.self ∧ k.dlog = s.dev.routing.log.toNat) →
        (k.xsite = false → s.dev.tagRevoked k.tag = true → Ends (.packetIngress k) s (fun t => t = { s with dev := seen.countRt 0x78 })) ∧
        (k.xsite = true ∨ s.dev.tagRevoked k.tag = false → Ends (.packetIngress k) s (fun t =>
          t = { s with dev := { seen with out := .deliver k :: ((if k.detoured then [.confirm k.diverter k] else []) ++ s.dev.out) } })))) ∧
    (∀ (o : RemOp) (e : Entry), k.isNotice = true → k.dst = s.dev.self → s.dev.origin (discardedPacket k) = some (o.ring, o.count) →
      (discardedPacket k).user = 2 → s.dev.remOp o.ring o.count = some o → o.kind = 1 → o.fetch = false →
      s.dev.entry o.ring o.count = some e → e.phase = .started → classOf e.res.status < 3 → Ends (.noticeReceive k) s (fun t =>
        t = { s with dev := { s.dev with rings := t.dev.rings, claims := t.dev.claims, turns := t.dev.turns
                                         xbar := { s.dev.xbar with rem := t.dev.xbar.rem } } } ∧
        (∃ e', t.dev.entry o.ring o.count = some e' ∧ e'.phase = .done ∧ e'.res = { e.res with status := 0x3005, reason := BitVec.ofNat 16 (k.p 2 2) }) ∧
        ∀ x ∈ t.dev.xbar.rem, x.id ≠ o.id)) ∧
    (∀ (src dst : BitVec 20) (cls : BitVec 3), let key := (src, dst, cls.toNat)
      let left := removeFirst key s.dev.routing.detours
      Ends (.deliveryConfirm src dst cls) s (fun t => t = { s with dev := s.dev.sent t.dev } ∧
        (key ∈ left ∨ (∀ q ∈ s.dev.routing.held, (BitVec.ofNat 20 q.sphys, BitVec.ofNat 20 q.dst, q.cls) ≠ key) →
          t = { s with dev := { s.dev with routing := { s.dev.routing with detours := left } } }) ∧
        ∀ q ∈ s.dev.routing.held, (BitVec.ofNat 20 q.sphys, BitVec.ofNat 20 q.dst, q.cls) ≠ key → q ∈ t.dev.routing.held))

/-- With management running the L2P and SPAN windows write and read the entry selected and step the index under AUTOINC; RT_ADAPT, the class shares and the RED profiles take legal values and mark others; a plane write leaves a retired plane out. PLANE_RETIRE in AUTO with both planes there retires one and sets condition 6. RGN_WRITE enters the staged region where no check fails, else stores the reason alone; INVALIDATE clears VALID; READ stages the entry. A drop-eligible arrival moves its queue's average, is dropped at or above MAX, and joins the queue below MIN where there is room. -/
def Obligations.RoutingAndCrossbarRegistersTakeTheirValues : Prop :=
  ∀ s : State,
    (s.dev.health.stopped = false →
      let r := s.dev.routing
      let x := s.dev.xbar
      let i := r.l2pSel.toNat % 2 ^ 20
      let j := r.spanSel.toNat % 2 ^ 12
      let rt := fun (y : Routing) (t : State) => t = { s with dev := { s.dev with routing := y } }
      let xb := fun (y : Xbar) (t : State) => t = { s with dev := { s.dev with xbar := y } }
      (∀ v : W32, Ends (.rtL2pDataWrite v) s (rt { r with l2p := Tbl.put r.l2p i (v &&& 0x800FFFFF), l2pSel := autoInc r.l2pSel 20 })) ∧
      Ends .rtL2pDataRead s (fun t => t = { s with dev := { s.dev with
        routing := { r with l2pSel := autoInc r.l2pSel 20 }, out := .data (toLe 4 (Tbl.lookD r.l2p i (0 : W32)).toNat) :: s.dev.out } }) ∧
      (∀ v : Word, Ends (.rtSpanDataWrite v) s
        (rt { r with span := Tbl.put r.span j (v &&& 0xCFFF000000001FFF), spanSel := autoInc r.spanSel 12 })) ∧
      Ends .rtSpanDataRead s (fun t => t = { s with dev := { s.dev with
        routing := { r with spanSel := autoInc r.spanSel 12 }, out := .data (toLe 8 (Tbl.lookD r.span j (0 : Word)).toNat) :: s.dev.out } }) ∧
      (∀ v : W32, Ends (.rtAdaptWrite v) s (if s.dev.fixedPace = true ∨ v.toNat / 65536 < 9 ∨ 1024 < v.toNat / 65536
        then rt { r with adaptReject := true } else rt { r with thresh := v.extractLsb' 16 16, adaptOff := v.getLsbD 0 })) ∧
      (∀ v : W32, let m := v.toNat % 4
        (m = 3 → Ends (.xbarPlaneCtlWrite v) s (fun t => t = s)) ∧
        ((m = 1 ∧ s.dev.store.planes.getLsbD 0 = true) ∨ (m = 2 ∧ s.dev.store.planes.getLsbD 1 = true) →
          Ends (.xbarPlaneCtlWrite v) s (xb { x with planeReject := true })) ∧
        (m = 0 ∨ (m = 1 ∧ s.dev.store.planes.getLsbD 0 = false) ∨ (m = 2 ∧ s.dev.store.planes.getLsbD 1 = false) →
          Ends (.xbarPlaneCtlWrite v) s (fun t =>
            t = { s with dev := { s.dev with xbar := { x with planeMode := v.setWidth 2 }, capGen := t.dev.capGen, capTick := t.dev.capTick } }))) ∧
      (∀ v : Word, let sh := (List.range 6).map (fun c => v.toNat / 2 ^ (8 * c) % 256)
        Ends (.xbarClassShareWrite v) s (if (∀ c ∈ sh, c ≠ 0) ∧ sh.sum ≤ 256 then xb { x with shareReg := v &&& 0xFFFFFFFFFFFF }
          else xb { x with planeReject := true })) ∧
      (∀ (c : Fin 3) (v : W32), let hi := v.toNat / 65536 % 256
        Ends (.xbarRedWrite c v) s (if v.toNat / 256 % 256 < hi ∧ hi ≤ 128 then xb { x with red := Tbl.put x.red c.val (v &&& 0xFFFFFF00) }
          else xb { x with planeReject := true })) ∧
      Ends .rgnWrite s (fun t => let why := s.dev.rgnReason x.rgnSel.toNat x.rgnData
        (why ≠ 0 → xb { x with rgnReason := BitVec.ofNat 16 why } t) ∧
        (why = 0 → xb { x with regions := Tbl.put x.regions x.rgnSel.toNat x.rgnData, rgnReason := 0 } t ∧
          (rgnValid x.rgnData = true → ∃ o, s.dev.obj (rgnObj x.rgnData) = some o ∧ o.st = .ready ∧
            rgnOff x.rgnData + rgnLen x.rgnData ≤ o.len ∧
            ∀ y ∈ x.regions, y.1 ≠ x.rgnSel.toNat → rgnValid y.2 = true → rgnKey y.2 ≠ rgnKey x.rgnData))) ∧
      Ends .rgnInvalidate s (fun t => xb { x with regions := t.dev.xbar.regions, rgnReason := 0 } t ∧
        rgnValid (t.dev.rgn x.rgnSel.toNat) = false ∧ ∀ k, k ≠ x.rgnSel.toNat → t.dev.rgn k = s.dev.rgn k) ∧
      Ends .rgnRead s (xb { x with rgnData := s.dev.rgn x.rgnSel.toNat, rgnReason := 0 })) ∧
    (∀ b, s.dev.xbar.planeMode = 0 → s.dev.store.planes = 0 → s.dev.power.hubOn = true → Ends (.planeRetire b) s (fun t =>
      t = { s with dev := { s.dev with
        xbar := { s.dev.xbar with cnt := t.dev.xbar.cnt }, store := { s.dev.store with planes := if b then 2 else 1 }, draws := s.dev.draws + 1,
        health := { s.dev.health with cond := s.dev.health.cond ||| 0x40, acked := false }, power := { s.dev.power with svcReqN := true },
        host := t.dev.host, capGen := t.dev.capGen, capTick := t.dev.capTick, out := t.dev.out } })) ∧
    (∀ (n : Fin 48) (k : Packet), s.dev.power.hubOn = true → k.de = true → Ends (.deArrival n k) s (fun t =>
      let p := s.dev.port n.val
      let red := (Tbl.lookD s.dev.xbar.red k.colour (redReset k.colour)).toNat
      let avg := p.deAvg + Int.tdiv ((p.deDepth : Int) * 16 - p.deAvg) 16
      t = { s with dev := s.dev.sent t.dev } ∧ t.dev.draws = s.dev.draws + 1 ∧ (∀ j, j ≠ n.val → t.dev.port j = s.dev.port j) ∧
      (t.dev.port n.val).deAvg = avg ∧
      (((red / 65536 % 256 : Nat) : Int) * 16 ≤ avg → ((red / 256 % 256 : Nat) : Int) * 16 ≤ avg →
        t.dev.port n.val = { p with deAvg := avg } ∧
        Tbl.lookD t.dev.xbar.cnt (0x40 + 8 * k.colour) 0 = Tbl.lookD s.dev.xbar.cnt (0x40 + 8 * k.colour) 0 + 1) ∧
      (avg < ((red / 256 % 256 : Nat) : Int) * 16 → p.deDepth + k.flits ≤ 128 →
        k ∈ (t.dev.port n.val).waiting ∨ .packet (some n.val) k ∈ t.dev.out)))

/-- A started REMOTE_PUT, REMOTE_GET or REMOTE_ATOMIC that passes its checks, with nothing of it in motion, its meters having admitted it and an OPID free, takes that OPID and sends its first chunks in order, at most 1,024, and as many as the 4,096 answers in all leave room for; each is awaited, and no memory changes. DE_TIMEOUT, DE_TO after its last packet left, ends a droppable op that has sent everything and still awaits answers REMOTE_FAILED with 0xFFFE and writes nothing; REM_TIMEOUT, REM_TO after its last answer, ends another with 0xFFFD and leaves what a GET or a fetching atomic was to write undefined, and no other byte. -/
def Obligations.RemoteOpsSendTheirChunksAndEnd : Prop :=
  (∀ (s : State) (r : RingNo) (c : W32) (e : Entry) (opc kind : Nat) (p : RemPlan) (id : Nat),
    let d := s.dev.sweepRem
    (opc, kind) ∈ [(0x40, 1), (0x41, 2), (0x42, 4)] → d.op r.val c opc = some e → d.remOp r.val c = none → d.remChecks r.val e = .ok p →
    let ins := if kind = 1 then [span 16 p.place p.len] else []
    let outs := if kind = 2 ∨ (kind = 4 ∧ bit (fld e.desc 41 1) 7 = true) then [span 16 p.place p.len] else []
    d.mustWait e ins outs = false → e.admitted (d.deepNeeds (ins.map Grid.range) (outs.map Grid.range)) = true →
    d.freeOpid = some id →
    let cmd := if opc = 0x40 then Instr.remotePut r c else if opc = 0x41 then .remoteGet r c else .remoteAtomic r c
    Ends cmd s (fun t =>
      t = { s with dev := (s.dev.sent t.dev).worked t.dev } ∧ OnlyRing r.val s t ∧
      ∃ o, t.dev.remById id = some o ∧ o.ring = r.val ∧ o.count = c ∧ o.kind = kind ∧ o.place = p.place ∧ o.len = p.len ∧
        o.sent = min o.chunks (min 1024 (4096 - (d.xbar.rem.map (fun q => q.waits.length)).sum)) ∧ o.waits = List.range o.sent ∧
        ∃ e', t.dev.entry r.val c = some e' ∧ e'.phase = .started)) ∧
  (∀ (s : State) (id : Fin 64) (o : RemOp) (e : Entry), s.dev.remById id.val = some o → o.waits ≠ [] →
    s.dev.entry o.ring o.count = some e → e.phase = .started → classOf e.res.status < 3 →
    let ended := fun (why : BitVec 16) (t : State) =>
      t = { s with dev := { s.dev with rings := t.dev.rings, claims := t.dev.claims, turns := t.dev.turns, draws := t.dev.draws,
                                       xbar := { s.dev.xbar with rem := t.dev.xbar.rem } }, mem := t.mem } ∧
      (∃ e', t.dev.entry o.ring o.count = some e' ∧ e'.phase = .done ∧ e'.res = { e.res with status := 0x3005, reason := why }) ∧ ∀ q ∈ t.dev.xbar.rem, q.id ≠ o.id
    (o.droppable = true → o.sent = o.chunks → s.dev.past o.lastSent s.dev.xbar.deTo.toNat = true → Ends (.deTimeout id) s (fun t => ended 0xFFFE t ∧ t.mem = s.mem)) ∧
    (o.droppable = false → s.dev.past o.lastHeard (1000 * s.dev.xbar.remTo.toNat) = true →
      let out := if o.kind = 2 then [(o.place, o.len)] else if o.fetch then [(o.place, 8)] else []
      Ends (.remTimeout id) s (fun t => ended 0xFFFD t ∧ t.mem = s.mem.applyAll (s.dev.scramble out).2 ∧
        ∀ k, (∀ w ∈ (s.dev.scramble out).2, w.spares k) → t.mem.get k = s.mem.get k)))

/-- A request that passes Table 13.5 is served: a PUT stores its data, a GET changes no byte, an atomic stores its result over what it read (a write to a unit in motion waits for its commit); one that fails is refused with a NAK, counted and remembered, and reads and writes nothing. A packet with a bad header is counted. An awaited answer takes its chunk off the op: an ACK changes no memory, GET data lands at its place, a fetched value lands at RESULT, a NAK leaves its row's status and stops sending. With the last answer the op ends. -/
def Obligations.RemotePacketsAreServedAndAnswered : Prop :=
  ∀ (s : State) (k : Packet), k.user = 2 →
    (k.remOk = false → ∀ n, ∀ cmd ∈ [Instr.putReceive k, .getReqReceive k n, .atomicReqReceive k, .getDataReceive k, .atomicRspReceive k,
      .remoteAckReceive k, .remoteNakReceive k], Ends cmd s (fun t => t = { s with dev := s.dev.countRt 0x70 })) ∧
    (k.remOk = true →
      let served := fun (p : Dev × List MemOp) (t : State) =>
        t = { s with dev := { (s.dev.sent t.dev).worked t.dev with objects := p.1.objects }, mem := s.mem.applyAll p.2 } ∧
        ∀ a, (∀ w ∈ p.2, w.spares a) → t.mem.get a = s.mem.get a
      let refused := fun (why : Nat) (t : State) =>
        t = { s with dev := { s.dev.sent t.dev with xbar := { s.dev.xbar with
                cnt := t.dev.xbar.cnt, rem := t.dev.xbar.rem, lastNak := BitVec.ofNat 32 (why * 2 ^ 24 + k.slog) } } } ∧
        Tbl.lookD t.dev.xbar.cnt 0x70 0 = Tbl.lookD s.dev.xbar.cnt 0x70 0 + 1
      let w := atomicWidth k.aop
      (k.rkind = 1 →
        (∀ a o, s.dev.serveCheck k rgnWrite (k.payload.length - 16) = .ok (a, o) →
          Ends (.putReceive k) s (served (s.dev.storeAt a (k.payload.drop 16)))) ∧
        (∀ why, s.dev.serveCheck k rgnWrite (k.payload.length - 16) = .error why → Ends (.putReceive k) s (refused why))) ∧
      (k.rkind = 2 → ∀ n,
        (∀ a o, s.dev.serveCheck k rgnRead n = .ok (a, o) → Ends (.getReqReceive k n) s (served (s.dev, []))) ∧
        (∀ why, s.dev.serveCheck k rgnRead n = .error why → Ends (.getReqReceive k n) s (refused why))) ∧
      (k.rkind = 4 →
        (∀ a o, s.dev.serveCheck k rgnAtomic w = .ok (a, o) → Ends (.atomicReqReceive k) s
          (served (s.dev.storeAt a (toLe w (atomicResult k.aop
            (leNat ((List.range w).map (fun i => s.dev.pendingByte s.mem (a + i)))) (k.p 16 8) (k.p 24 8)))))) ∧
        (∀ why, s.dev.serveCheck k rgnAtomic w = .error why → Ends (.atomicReqReceive k) s (refused why))) ∧
      (∀ (o : RemOp) (e : Entry), s.dev.remById k.opid = some o → s.dev.entry o.ring o.count = some e → e.phase = .started →
        k.retried = false → k.retrySeen = false →
        let i := (k.roff - o.off) / 1536
        i ∈ o.waits →
        let taken := fun (p : Dev × List MemOp) (ok : Result → Prop) (n : Nat) (t : State) =>
          t = { s with dev := { s.dev.worked t.dev with
                  objects := p.1.objects, xbar := { s.dev.xbar with rem := t.dev.xbar.rem, cnt := t.dev.xbar.cnt } }, mem := t.mem } ∧
          t.mem = s.mem.applyAll p.2 ∧ (∀ a, (∀ w ∈ p.2, w.spares a) → t.mem.get a = s.mem.get a) ∧ ∃ e', t.dev.entry o.ring o.count = some e' ∧ ok e'.res ∧
          (o.waits.filter (· != i) = [] ∧ n = o.chunks → e'.phase = .done ∧ ∀ q ∈ t.dev.xbar.rem, q.id ≠ o.id) ∧
          (¬ (o.waits.filter (· != i) = [] ∧ n = o.chunks) → e'.phase = .started ∧
            t.dev.remById o.id = some { o with sent := n, waits := o.waits.filter (· != i), lastHeard := s.dev.phys })
        let same := fun (x : Result) => x.status = e.res.status ∧ x.reason = e.res.reason ∧ x.fabric = e.res.fabric
        (k.rkind = 6 → o.kind = 1 → Ends (.remoteAckReceive k) s (taken (s.dev, []) same o.sent)) ∧
        (k.rkind = 3 → o.kind = 2 → Ends (.getDataReceive k) s
          (taken (s.dev.storeAt (o.place + 1536 * i) ((k.payload.drop 16).take (o.chunk i))) same o.sent)) ∧
        (k.rkind = 5 → o.kind = 4 → Ends (.atomicRspReceive k) s
          (taken (if o.fetch then s.dev.storeAt o.place (slice k.payload 16 8) else (s.dev, [])) same o.sent)) ∧
        (k.rkind = 7 → classOf e.res.status < 3 → Ends (.remoteNakReceive k) s (taken (s.dev, [])
          (fun x => x.status = (if k.p 3 1 = 7 then 0x3003 else 0x3004) ∧ x.reason = (if k.p 3 1 = 7 then 24 else 32)) o.chunks))))

/-- A started collective op on a slot its claim owns takes the slot's next SEQ. One that fails a check ends with that check's result. One that passes, with nothing of it in motion, its meters having admitted it and every member named in the table, runs on the slot, its descriptor still started, or has ended OK as its result stood; whatever it stores lies in DST; other groups and rings stand. In a group of this module alone, and with the COLL meter free for it, a vector that fits one packet is reduced, rounded and stored, or converted and stored, and the op ends. A barrier waits for ARRIVE of its children, then sends its own to the parent, or at the root fixes its release tick. -/
def Obligations.CollectiveOpsTakeTheirSlotAndLandInDst : Prop :=
  ∀ (s : State) (r : RingNo) (c : W32) (e : Entry) (g : Group) (opc : Nat) (cmd : Instr),
    (opc, cmd) ∈ [(0x50, Instr.collAllreduce r c), (0x51, .collReduceScatter r c), (0x52, .collAllgather r c), (0x53, .collBcastLine r c),
      (0x54, .collBarrier r c)] →
    s.dev.op r.val c opc = some e → s.dev.collGroup r.val e = some g → g.op.filter (fun o => o.ring == r.val && o.count == c) = none →
    let slot := cSlot e
    let k := packBytes (cOut e).fmt
    let dst := s.dev.cAddr r.val e 24
    let idle : Group := { g with seq := g.seq + 1, op := none, abortNext := false, windowNext := [], arriveNext := [] }
    let others := fun (t : State) => OnlyRing r.val s t ∧ ∀ j, j ≠ slot → t.dev.group j = s.dev.group j
    let ended := fun (t : State) => t.dev.group slot = some idle ∧
      ∃ e', t.dev.entry r.val c = some e' ∧ e'.phase = .done ∧ e'.res.status = e.res.status ∧ e'.res.reason = e.res.reason
    let ins := if s.dev.collReads e g then [span 16 (s.dev.cAddr r.val e 16) (cCount e * packBytes (cIfmt e))] else []
    let out := span 24 dst (cDst e g.members * k)
    (opc ≠ 0x54 → ∀ w, s.dev.collChecks r.val e g = .error w → Ends cmd s (fun t =>
      t = { s with dev := { s.dev with rings := t.dev.rings, turns := t.dev.turns, coll := { s.dev.coll with groups := t.dev.coll.groups } } } ∧
      others t ∧ t.dev.group slot = some idle ∧ t.dev.entry r.val c = some ({ e with taken := true }.doneWith w))) ∧
    (opc ≠ 0x54 → ∀ tag, s.dev.collChecks r.val e g = .ok tag → g.abortNext = false → g.isMember s.dev.self = true →
      (∀ q ∈ g.children s.dev.self ++ (g.parent s.dev.self).toList ++ (List.range g.members).map g.at, s.dev.named q = true) →
      s.dev.mustWait e ins [out] = false → e.admitted (s.dev.deepNeeds (ins.map Grid.range) [out.range]) = true →
      Ends cmd s (fun t => others t ∧
        t = { s with
          dev := { (s.dev.sent t.dev).worked t.dev with coll := { s.dev.coll with cnt := t.dev.coll.cnt, groups := t.dev.coll.groups } }
          mem := t.mem } ∧
        (∃ ps : List (Nat × List Byte), (∀ p ∈ ps, dst ≤ p.1 ∧ p.1 + p.2.length ≤ dst + cDst e g.members * k) ∧
          t.mem = s.mem.applyAll (ps.flatMap (fun p => (s.dev.storeAt p.1 p.2).2))) ∧
        (ended t ∨ ∃ o e', t.dev.group slot = some { idle with op := some o } ∧ o.ring = r.val ∧ o.count = c ∧
          t.dev.entry r.val c = some e' ∧ e'.phase = .started)) ∧
      (g.children s.dev.self = [] → g.parent s.dev.self = none → cEmpty e = false → g.windowNext = [] → 0 < cCount e →
        0 < (s.dev.meter g.claim 48).bal ∨ s.dev.mayBorrow g.claim = true → (∀ a ∈ s.dev.frames.asks, a.meter ≠ 48) → g.claim < 32 →
        (opc = 0x50 ∨ opc = 0x51 → cCount e ≤ wireFit (cDownWire e) 2016) →
        (opc = 0x52 ∨ opc = 0x53 → cCount e ≤ wireFit (cWire e) 2016) →
        (opc = 0x53 → g.lineRoot s.dev.self (fld e.desc 40 1) = some s.dev.self) →
        let own := s.dev.cOwnVals s.mem r.val e 0 (cCount e)
        let reduced := own.mapIdx (fun i v => (fmtSpec (cOut e).fmt).enc (outRnd (cOut e) e.seed.toNat (fld e.desc 44 4) i) (!(cOut e).inf)
          (if cOp e = 1 then f64.div v (.fin false 1 0) else v))
        let codes := if opc = 0x50 ∨ opc = 0x51 then reduced else downCodes e (cWire e) (cCount e) (encodeWire (cWire e) own)
        Ends cmd s (fun t => ended t ∧ t.mem = s.mem.applyAll (s.dev.storeAt dst (codes.flatMap (toLe k))).2 ∧
          ∀ p q, .packet p q ∈ t.dev.out → .packet p q ∈ s.dev.out))) ∧
    (opc = 0x54 → ∀ tag, s.dev.isRunning .coll = true → s.dev.isRunning .time = true → s.dev.sendTag (s.dev.claimOf r.val) = some tag →
      g.abortNext = false → Ends cmd s (fun t => others t ∧
        t = { s with dev := { s.dev with rings := t.dev.rings, claims := t.dev.claims, turns := t.dev.turns, draws := t.dev.draws, out := t.dev.out
                                         coll := { s.dev.coll with groups := t.dev.coll.groups }
                                         time := { s.dev.time with cnt := t.dev.time.cnt, spreadLost := t.dev.time.spreadLost } } } ∧
        (∃ e', t.dev.entry r.val c = some e' ∧ e'.phase = .started ∧ e'.desc = e.desc) ∧
        ∃ o, t.dev.group slot = some { idle with op := some o } ∧ o.ring = r.val ∧ o.count = c ∧ o.arrived = g.arriveNext ∧
          let now := s.dev.now + s.dev.time.barMargin.setWidth 64
          if ∃ x ∈ g.children s.dev.self, x ∉ g.arriveNext then o.presentSent = false ∧ o.release = none ∧ t.dev.out = s.dev.out
          else o.presentSent = true ∧ match g.parent s.dev.self with
            | some p => o.release = none ∧ t.dev.out = .message .arrive p [g.gid, (g.seq + 1).toNat] :: s.dev.out
            | none => o.scheduled = !(decide (g.lo = g.hi) && !s.dev.time.barAlign) ∧
                o.release = some (if g.lo = g.hi ∧ s.dev.time.barAlign = false then s.dev.phys + s.dev.time.barHold.setWidth 64
                else if s.dev.time.barAlign = true then s.dev.frameAtOrAfter now else now)))

/-- With every neighbour and member named in the table: a packet that fails a check of R329 is counted, dropped, or aborts its op. A child's elements land for the segment they name and, while another child has sent nothing, nothing more ascends. Results land in DST at their place, and the op ends with the last of them. A window raises the node's own, or is held for the next SEQ. A present marker is counted and its child taken as present. An ABORT or a timeout ends the op GROUP_ABORTED with its slot, DST undefined and nothing else written; an ABORT for the next SEQ is held. -/
def Obligations.CollectivePacketsLandAndAbortsEnd : Prop :=
  ∀ (s : State) (k : Packet),
    let cmds := [Instr.collUpReceive k, .collDownReceive k, .collWindowReceive k, .collPresentReceive k, .collAbortReceive k]
    let dst := fun (x : CollRun) => s.dev.cAddr x.o.ring x.e 24
    let size := fun (x : CollRun) => cDst x.e x.g.members * packBytes (cOut x.e).fmt
    let frame := fun (t : State) =>
      t = { s with
        dev := { (s.dev.sent t.dev).worked t.dev with
          objects := t.dev.objects, coll := { s.dev.coll with cnt := t.dev.coll.cnt, groups := t.dev.coll.groups } }
        mem := t.mem }
    let inDst := fun (x : CollRun) (t : State) => ∃ ps : List (Nat × List Byte),
      (∀ p ∈ ps, dst x ≤ p.1 ∧ p.1 + p.2.length ≤ dst x + size x) ∧ t.mem = s.mem.applyAll (ps.flatMap (fun p => (s.dev.storeAt p.1 p.2).2))
    let aborted := fun (x : CollRun) (cause : Nat) (t : State) =>
      let out := if hOpcode x.e.desc = 0x54 then [] else [(dst x, size x)]
      t = { s with
        dev := { s.dev.sent t.dev with
          rings := t.dev.rings, claims := t.dev.claims, turns := t.dev.turns
          coll := { s.dev.coll with
            cnt := t.dev.coll.cnt, groups := t.dev.coll.groups
            lastAbort := BitVec.ofNat 32 (cause * 2 ^ 24 + x.slot * 2 ^ 16 + x.g.seq.toNat) } }
        mem := s.mem.applyAll (s.dev.scramble out).2 } ∧
      (∃ e', t.dev.entry x.o.ring x.o.count = some e' ∧ e'.phase = .done ∧ e'.res.status = 0x3006 ∧ e'.res.reason = BitVec.ofNat 16 x.slot) ∧
      t.dev.group x.slot = some { x.g with op := none } ∧ (∀ j, j ≠ x.slot → t.dev.group j = s.dev.group j) ∧
      Tbl.lookD t.dev.coll.cnt 0x60 0 = Tbl.lookD s.dev.coll.cnt 0x60 0 + 1
    (s.dev.collGate k = .drop → ∀ cmd ∈ cmds, Ends cmd s (fun t => t = s)) ∧
    (s.dev.collGate k = .stale → ∀ cmd ∈ cmds, Ends cmd s (fun t => t = { s with dev := s.dev.countColl 0x58 1 })) ∧
    (∀ slot cause x, s.dev.collGate k = .abort slot cause → s.dev.collRun slot = some x → ∀ cmd ∈ cmds,
      Ends cmd s (aborted x cause)) ∧
    (∀ slot g, s.dev.collGate k = .next slot g →
      (collKind k = 3 → Ends (.collWindowReceive k) s (fun t =>
        t = { s with dev := s.dev.setGroup slot { g with windowNext := g.windowNext ++ [k] } })) ∧
      (collKind k = 5 → g.abortNext = false → Ends (.collAbortReceive k) s (fun t =>
        t = { s with dev := { s.dev.sent t.dev with coll := { s.dev.coll with groups := t.dev.coll.groups } } } ∧
        t.dev.group slot = some { g with abortNext := true } ∧ ∀ j, j ≠ slot → t.dev.group j = s.dev.group j))) ∧
    (∀ x : CollRun, s.dev.collGate k = .now x → k.retried = false → (∀ q ∈ x.o.held, (s.dev.addressed q).isSome = true) →
      (∀ q ∈ x.g.children s.dev.self ++ (x.g.parent s.dev.self).toList ++ (List.range x.g.members).map x.g.at, s.dev.named q = true) →
      let h := collHead k
      let data := k.payload.drop 32
      let o1 := { x.o with heard := s.dev.phys }
      (∀ y, collKind k = 1 → hOpcode x.e.desc = 0x50 ∨ hOpcode x.e.desc = 0x51 → h.seg = x.o.seg → h.wire ≤ 4 → x.o.admitted = true →
        x.o.sentUp = 0 → x.o.seg < cSegments x.e → y ∈ x.g.children s.dev.self → y ≠ k.sphys → y ∉ x.o.present → Tbl.lookD x.o.land y [] = [] →
        Ends (.collUpReceive k) s (fun t => frame t ∧ t.mem = s.mem ∧ ∃ land granted,
          t.dev.group x.slot = some { x.g with op := some { o1 with
            land := land
            granted := granted
            order := if cArrival x.e then x.o.order ++ (List.range h.elems).map (fun i => (k.sphys, h.off + i)) else [] } } ∧
          (∀ p, Tbl.look (Tbl.lookD land k.sphys []) p = if h.off ≤ p ∧ p < h.off + h.elems
            then ((decodeWire h.wire h.elems data)[p - h.off]?).map f64.rne else Tbl.look (Tbl.lookD x.o.land k.sphys []) p) ∧
          ∀ q, q ≠ k.sphys → Tbl.lookD land q [] = Tbl.lookD x.o.land q [])) ∧
      (collKind k = 2 →
        let i := x.target s.dev.self h
        let codes := downCodes x.e h.wire h.elems data
        let landed := rangesAdd x.o.landed i (i + codes.length)
        let ended := x.o.seg = cSegments x.e ∧ rangesCount landed = cDst x.e x.g.members ∧ x.o.held = []
        Ends (.collDownReceive k) s (fun t => frame t ∧ (∃ e', t.dev.entry x.o.ring x.o.count = some e' ∧
            e'.phase = (if ended then .done else .started) ∧ e'.res.status = x.e.res.status) ∧
          t.mem = s.mem.applyAll (s.dev.storeAt (dst x + i * packBytes (cOut x.e).fmt) (codes.flatMap (toLe (packBytes (cOut x.e).fmt)))).2 ∧
          t.dev.group x.slot = some { x.g with op := if ended then none else some { o1 with landed := landed } })) ∧
      (collKind k = 3 → Ends (.collWindowReceive k) s (fun t => frame t ∧ inDst x t ∧ ∃ op, t.dev.group x.slot = some { x.g with op := op } ∧
        ∀ o, op = some o → (o.window, o.windowSeg) = ((x.o.grant h.seg h.off).window, (x.o.grant h.seg h.off).windowSeg) ∧ o.held = [])) ∧
      (collKind k = 4 → Ends (.collPresentReceive k) s (fun t => frame t ∧ inDst x t ∧
        Tbl.lookD t.dev.coll.cnt 0x50 0 = Tbl.lookD s.dev.coll.cnt 0x50 0 + 1 ∧
        ∃ op, t.dev.group x.slot = some { x.g with op := op } ∧ ∀ o, op = some o → k.sphys ∈ o.present)) ∧
      (collKind k = 5 → Ends (.collAbortReceive k) s (aborted x 5))) ∧
    (∀ (slot : Fin 64) (x : CollRun), s.dev.collRun slot.val = some x → s.dev.past x.o.heard x.g.limit = true → Ends (.collTimeout slot) s (aborted x 1))

/-- With management running, DEFINE stores 0 and makes the selected slot VALID with the staged entry where the slot was FREE, this module is a member, the GID is new and no reserved bit or range check fails, with the collective block and the claim RUNNING; else it stores one of its five reasons and changes nothing more. RELEASE makes the slot FREE, unless it is FREE already or an op on it runs. READ stages the slot's entry, zeros for a FREE one. No other slot changes. -/
def Obligations.GroupsAreDefinedReleasedAndRead : Prop :=
  ∀ s : State, s.dev.health.stopped = false →
    let slot := s.dev.coll.sel.toNat
    let n := s.dev.coll.data
    let here := fun (t : State) (why : Nat) => t = { s with dev := { s.dev with coll := { s.dev.coll with
      groups := t.dev.coll.groups, reason := BitVec.ofNat 16 why } } } ∧ ∀ j, j ≠ slot → t.dev.group j = s.dev.group j
    Ends .grpDefine s (fun t =>
      let why := s.dev.grpReason slot n
      here t why ∧ (why ≠ 0 → t.dev.coll.groups = s.dev.coll.groups ∧ why ∈ [0x2301, 0x2302, 0x2303, 0x23F3, 0x23F6]) ∧
      (why = 0 → s.dev.group slot = none ∧ s.dev.isRunning .coll = true ∧ s.dev.isRunning (claimBlock (bits n.toNat 20 16)) = true ∧
        (∀ y ∈ s.dev.coll.groups, y.2.gid ≠ bits n.toNat 15 0) ∧
        ∃ g : Group, t.dev.group slot = some g ∧ g.entry = n ||| 0x80000000 ∧ g.seq = 0 ∧ g.op = none ∧ g.isMember s.dev.self = true ∧
          g.lo ≤ g.hi ∧ g.rowMask ≠ 0 ∧ g.colMask ≠ 0 ∧ g.gid = bits n.toNat 15 0)) ∧
    Ends .grpRelease s (fun t =>
      (s.dev.isRunning .coll = false → here t 0x23F6 ∧ t.dev.coll.groups = s.dev.coll.groups) ∧
      (s.dev.isRunning .coll = true → s.dev.group slot = none → here t 0x2305 ∧ t.dev.coll.groups = s.dev.coll.groups) ∧
      (s.dev.isRunning .coll = true → s.dev.group slot ≠ none →
        (s.dev.slotBusy slot = true → here t 0x2304 ∧ t.dev.coll.groups = s.dev.coll.groups) ∧
        (s.dev.slotBusy slot = false → here t 0 ∧ t.dev.group slot = none))) ∧
    Ends .grpRead s (fun t => t = { s with dev := { s.dev with coll := { s.dev.coll with
      data := (match s.dev.group slot with | some g => g.entry | none => 0), reason := 0 } } })

/-- A bad reference makes the timebase FREE; its return begins ACQUIRE, LOCKED or FREE by the role. A follower with its upstream link asks; a module with a role answers. An answer records offset and depth, moves the alignment state, and slews or steps: it steps back only while no claim runs. Four missed exchanges end LOCKED in HOLDOVER. An armed root's pulse has its counter load on the next tick, unless a claim runs then. A mode write is applied or its reason stored; barrier timing takes values in range. -/
def Obligations.TimebasesAlignStepAndSync : Prop :=
  ∀ s : State,
    let d := s.dev
    let time := fun (x : TimeBlk) (t : State) => t = { s with dev := { d with time := x } }
    let frame := fun (t : State) => t = { s with dev := { d with
      now := t.dev.now, skew := t.dev.skew, draws := t.dev.draws, health := t.dev.health, host := t.dev.host, out := t.dev.out
      time := { d.time with
        align := t.dev.time.align, good := t.dev.time.good, bad := t.dev.time.bad, missed := t.dev.time.missed
        unlockSeen := t.dev.time.unlockSeen, cnt := t.dev.time.cnt, offset := t.dev.time.offset, depth := t.dev.time.depth
        depthExceeded := t.dev.time.depthExceeded, slew := t.dev.time.slew, refBad := t.dev.time.refBad } } }
    let runs := d.isRunning .time
    let leaves := fun (t : State) => (d.time.align = .locked → t.dev.time.align ≠ .locked → t.dev.time.unlockSeen = true ∧
      Tbl.lookD t.dev.time.cnt 0x68 0 = Tbl.lookD d.time.cnt 0x68 0 + 1 ∧ t.dev.health.alarms = d.health.alarms + 1)
    Ends .timerefBad s (fun t => frame t ∧ leaves t ∧ t.dev.time.refBad = true ∧ t.dev.time.align = .free ∧ t.dev.now = d.now) ∧
    (d.time.refBad = true → Ends .timerefGood s (fun t => frame t ∧ leaves t ∧ t.dev.time.refBad = false ∧ t.dev.now = d.now ∧
      t.dev.time.align = (if runs = false ∨ d.time.role = 0 then .free else if d.time.role = 1 then .locked else .acquire))) ∧
    (d.upstream = true → Ends .timingExchange s (fun t =>
      t = { s with dev := d.emit (.message .timeRequest d.time.upPort.toNat [d.now.toNat]) })) ∧
    (∀ p : Fin 48, runs = true → d.time.role ≠ 0 → (d.port p.val).site = false → Ends (.timingRequestReceive p) s (fun t =>
      t = { s with dev := d.emit (.message .timeAnswer p.val [d.now.toNat, alignCode d.time.align, d.time.depth.toNat]) })) ∧
    (∀ (t1 t2 t3 t4 : Word) (up : Fin 4) (depth : BitVec 3), d.upstream = true → d.time.align ≠ .free →
      let th2 := theta2 t1 t2 t3 t4
      let lim : Int := 2 * d.time.stepNs.toNat
      let dep := depth.toNat + 1
      let good := if th2.natAbs ≤ 20 then d.time.good + 1 else 0
      let bad := if 50 < th2.natAbs then d.time.bad + 1 else 0
      let used := d.time.align = .acquire ∨ up.val = 2
      let steps := used ∧ (lim < th2 ∨ (th2 < -lim ∧ d.anyClaimRuns = false))
      Ends (.timingAnswerReceive t1 t2 t3 t4 up depth) s (fun t => frame t ∧ leaves t ∧ t.dev.time.refBad = d.time.refBad ∧
        t.dev.time.offset = max (-32768) (min 32767 (Int.tdiv th2 2)) ∧ t.dev.time.depth.toNat = min 7 dep ∧
        (t.dev.time.depthExceeded = true ↔ 6 < dep) ∧
        (steps → t.dev.now = d.now + BitVec.ofInt 64 (Int.tdiv th2 2) ∧ t.dev.skew = d.skew + BitVec.ofInt 64 (Int.tdiv th2 2) ∧
          t.dev.time.slew = d.time.slew ∧ Tbl.lookD t.dev.time.cnt 0x60 0 = Tbl.lookD d.time.cnt 0x60 0 + 1) ∧
        (¬ steps → t.dev.now = d.now ∧ t.dev.skew = d.skew ∧ Tbl.lookD t.dev.time.cnt 0x60 0 = Tbl.lookD d.time.cnt 0x60 0 ∧
          (¬ used → t.dev.time.slew = d.time.slew) ∧ (used → th2 < -lim → t.dev.time.slew = -20000) ∧
          (used → -lim ≤ th2 → 0 ≤ t.dev.time.slew * Int.sign th2 ∧ t.dev.time.slew.natAbs ≤ 20000)) ∧
        t.dev.time.align = (match d.time.align with
          | .free => .free
          | .holdover => if up.val = 2 then .acquire else .holdover
          | .acquire => if 16 ≤ good ∧ up.val = 2 ∧ dep ≤ 6 then .locked else .acquire
          | .locked => if up.val ≠ 2 then .holdover else if 2 ≤ bad then .acquire else .locked))) ∧
    (runs = true → d.time.role = 2 → Ends .timingExchangeMissed s (fun t => frame t ∧ leaves t ∧ t.dev.now = d.now ∧
      t.dev.time.align = (if 3 ≤ d.time.missed ∧ d.time.align = .locked then .holdover else d.time.align) ∧
      (t.dev.time.align = d.time.align → time { d.time with missed := d.time.missed + 1, good := 0 } t))) ∧
    (d.time.role = 1 → d.time.syncArm = true → Ends .syncPulse s (fun t => time { d.time with syncDue := true } t ∧
      (d.anyClaimRuns = true → (idle t).dev.now = d.now + 1 ∧
        (idle t).dev.time = { d.time with syncArm := false, syncDue := false, syncIgnored := true }) ∧
      (d.anyClaimRuns = false → (idle t).dev.now = d.time.syncLoad ∧ (idle t).dev.skew = d.skew + (d.time.syncLoad - (d.now + 1)) ∧
        (idle t).dev.time = { d.time with syncArm := false, syncDue := false }))) ∧
    (d.health.stopped = false →
      Ends .syncArm s (time { d.time with syncArm := true }) ∧
      (∀ v : W32, let why := d.reproReason (v.getLsbD 0) (v.getLsbD 1)
        (why ≠ 0 → Ends (.timeReproWrite v) s (time { d.time with reproReject := true, reproReason := BitVec.ofNat 16 why })) ∧
        (why = 0 → Ends (.timeReproWrite v) s (fun t =>
          t = { s with dev := { d with fixedBits := v.getLsbD 0, fixedPace := v.getLsbD 1, frames := t.dev.frames } } ∧
          d.anyClaimRuns = false ∧ (v.getLsbD 1 = true → v.getLsbD 0 = true) ∧
          t.dev.frames = (if d.fixedPace = true ∧ v.getLsbD 1 = false then { d.frames with lendState := 2 } else d.frames)))) ∧
      ∀ v : W32, let hold := v.toNat / 65536 % 4096
        (1300 ≤ hold ∧ 1000 ≤ v.toNat % 65536 → Ends (.timeBarCfgWrite v) s (time { d.time with
          barAlign := v.getLsbD 31, barHold := BitVec.ofNat 12 hold, barMargin := BitVec.ofNat 16 (v.toNat % 65536) })) ∧
        (¬ (1300 ≤ hold ∧ 1000 ≤ v.toNat % 65536) → Ends (.timeBarCfgWrite v) s (fun t =>
          t = { s with dev := d.setBlock .time { d.block .time with reject := true } })))

/-- An ARRIVE of a child joins the running barrier's arrivals; once all children have arrived ARRIVE goes to the parent, or the root fixes the release tick. One for the next SEQ is held for it. A RELEASE from the parent goes to every child, less the link's delay where it is a delay, and fixes this member's tick: a late one is now, counted, and ends the spread. A delay counts in physical ticks, a scheduled tick is a value of the counter; one reached while not LOCKED is counted too. Each message of a barrier counts in its op's record and its claim's meter. A message for no group is counted. On its tick a barrier's op ends with its result and leaves its slot. -/
def Obligations.BarriersGatherAndReleaseTheirMembers : Prop :=
  ∀ (s : State) (gid seq : BitVec 16) (src : BitVec 20),
    let d := s.dev
    let frame := fun (t : State) => t = { s with dev := { d with
      rings := t.dev.rings, claims := t.dev.claims, draws := t.dev.draws, out := t.dev.out
      coll := { d.coll with groups := t.dev.coll.groups }
      time := { d.time with cnt := t.dev.time.cnt, spreadLost := t.dev.time.spreadLost } } }
    let pays := fun (x : CollRun) (t : State) => OnlyRing x.o.ring s t ∧ (∀ c, c ≠ x.g.claim → t.dev.claim c = d.claim c) ∧
      ∃ fabric, x.e.res.fabric ≤ fabric ∧ t.dev.entry x.o.ring x.o.count = some { x.e with res := { x.e.res with fabric := fabric } } ∧
        (d.out.length < t.dev.out.length → x.e.res.fabric < fabric)
    (d.slotOf gid.toNat = none → Ends (.barrierArriveReceive gid seq src) s (fun t => t = { s with dev := d.countColl 0x58 1 }) ∧
      ∀ p sch v, Ends (.barrierReleaseReceive p gid seq src sch v) s (fun t => t = { s with dev := d.countColl 0x58 1 })) ∧
    (∀ slot g, d.slotOf gid.toNat = some (slot, g) → (g.children d.self).contains src.toNat = true → seq = g.seq + 1 →
      Ends (.barrierArriveReceive gid seq src) s (fun t => t = { s with dev := d.setGroup slot { g with
        arriveNext := if g.arriveNext.contains src.toNat then g.arriveNext else g.arriveNext ++ [src.toNat] } })) ∧
    (∀ x : CollRun, d.slotOf gid.toNat = some (x.slot, x.g) → d.barrier x.slot = some x → seq = x.g.seq →
      let others := fun (t : State) => ∀ j, j ≠ x.slot → t.dev.group j = d.group j
      (x.o.presentSent = false → x.o.release = none → (x.g.children d.self).contains src.toNat = true →
        Ends (.barrierArriveReceive gid seq src) s (fun t => frame t ∧ others t ∧ pays x t ∧
          ∃ o, t.dev.group x.slot = some { x.g with op := some o } ∧ src.toNat ∈ o.arrived ∧ (∀ y ∈ x.o.arrived, y ∈ o.arrived) ∧
            (∀ y ∈ o.arrived, y = src.toNat ∨ y ∈ x.o.arrived) ∧
            if ∀ y ∈ x.g.children d.self, y ∈ o.arrived then o.presentSent = true ∧ (match x.g.parent d.self with
                | some p => o.release = none ∧ t.dev.out = .message .arrive p [x.g.gid, x.g.seq.toNat] :: d.out
                | none => o.release.isSome = true ∧ ∀ c ∈ x.g.children d.self, ∃ b v, .message .release c [x.g.gid, x.g.seq.toNat, b, v] ∈ t.dev.out)
            else o.presentSent = false ∧ o.release = none ∧ t.dev.out = d.out)) ∧
      (∀ (p : Fin 48) (sch : Bool) (v : Word), x.g.parent d.self = some src.toNat →
        Ends (.barrierReleaseReceive p gid seq src sch v) s (fun t => frame t ∧ others t ∧ pays x t ∧
          let delay := (d.port p.val).delay.toNat
          let late := if sch then 0 < (d.now - v).toNat ∧ (d.now - v).toNat < 2 ^ 63 else v.toNat < delay
          let left := if sch then v.toNat else v.toNat - delay
          let at' := if sch then (if late then d.now else v) else d.phys + BitVec.ofNat 64 left
          t.dev.group x.slot = some { x.g with op := some { x.o with heard := d.phys, release := some at', scheduled := sch } } ∧
          (∀ c ∈ x.g.children d.self, .message .release c [x.g.gid, x.g.seq.toNat, b2n sch, left] ∈ t.dev.out) ∧
          (late → t.dev.time.spreadLost = true ∧ Tbl.lookD t.dev.time.cnt 0x70 0 = Tbl.lookD d.time.cnt 0x70 0 + 1) ∧
          (¬ late → t.dev.time = d.time)))) ∧
    (∀ (slot : Fin 64) (x : CollRun) (tick : Tick), d.barrier slot.val = some x → x.o.release = some tick →
      reached (if x.o.scheduled then d.now else d.phys) tick = true →
      Ends (.barrierReleaseTick slot) s (fun t =>
        t = { s with dev := { d with rings := t.dev.rings, claims := t.dev.claims, turns := t.dev.turns
                                     coll := { d.coll with groups := t.dev.coll.groups }, time := t.dev.time } } ∧
        (if x.o.scheduled = true ∧ d.time.align ≠ .locked then
          t.dev.time = { d.time with cnt := t.dev.time.cnt, spreadLost := true } ∧
            Tbl.lookD t.dev.time.cnt 0x78 0 = Tbl.lookD d.time.cnt 0x78 0 + 1
        else t.dev.time = d.time) ∧
        (∃ e', t.dev.entry x.o.ring x.o.count = some e' ∧ e'.phase = .done ∧ e'.res = x.e.res) ∧ t.dev.group slot.val = some { x.g with op := none } ∧
        ∀ j, j ≠ slot.val → t.dev.group j = d.group j))

/-- With the time block RUNNING: ASSIGN gives a FREE tag other than 0 to a RUNNING claim that has no current tag, else stores a reason; UNASSIGN frees an ASSIGNED tag; REVOKE drains a STARTING or ACTIVE one; QUERY reads state and claim. A STARTING tag becomes ACTIVE once its GO tick is reached, or ASSIGNED again when nothing came in 2 × START_TO; GO sets its tick and goes on; ABORT returns it to ASSIGNED. A DRAINING tag out of use and silent for TAG_QUIET becomes FREE. No other tag moves. -/
def Obligations.TagsMoveThroughTheirStates : Prop :=
  ∀ (s : State) (tag gid : BitVec 16),
    let d := s.dev
    let n := d.time.tagSel.toNat
    let c := d.time.tagSelClaim.toNat
    let moved := fun (k : Nat) (t : State) =>
      t = { s with dev := { d with health := t.dev.health, time := { d.time with tags := t.dev.time.tags, tagReason := t.dev.time.tagReason } } } ∧
      ∀ j, j ≠ k → t.dev.tag j = d.tag j
    let why := fun (k : Nat) (t : State) => t = { s with dev := { d with time := { d.time with tagReason := BitVec.ofNat 16 k } } }
    (d.health.stopped = false → d.isRunning .time = true →
      (n ≠ 0 ∧ d.tag n = none ∧ d.currentTag c = none ∧ d.isRunning (claimBlock c) = true → Ends .tagAssign s (fun t => moved n t ∧
        t.dev.time.tagReason = 0 ∧
        t.dev.tag n = some { st := .assigned, claim := c, attempt := 0, gid := 0, go := none, since := d.phys, seen := d.phys })) ∧
      (n = 0 → Ends .tagAssign s (why 0x2413)) ∧
      (∀ x, n ≠ 0 → d.tag n = some x → Ends .tagAssign s (why (if x.st = .draining then 0x2412 else 0x2410))) ∧
      (n ≠ 0 → d.tag n = none → d.currentTag c ≠ none → Ends .tagAssign s (why 0x2411)) ∧
      (∀ x, d.tag n = some x → x.st = .assigned → Ends .tagUnassign s (fun t => moved n t ∧ t.dev.time.tagReason = 0 ∧ t.dev.tag n = none)) ∧
      (∀ x, d.tag n = some x → x.st = .starting ∨ x.st = .active → Ends .tagRevoke s (fun t => moved n t ∧ t.dev.time.tagReason = 0 ∧
        t.dev.tag n = some { x with st := .draining, since := d.phys })) ∧
      (d.tag n = none → Ends .tagUnassign s (why 0x2414) ∧ Ends .tagRevoke s (why 0x2414)) ∧
      Ends .tagQuery s (fun t => t = { s with dev := { d with time := { d.time with
        tagState := BitVec.ofNat 3 (tagCode (d.tag n)), tagClaim := BitVec.ofNat 5 (((d.tag n).map Tag.claim).getD 0), tagReason := 0 } } })) ∧
    (∀ x, d.tag tag.toNat = some x →
      (x.st = .starting → ∀ g, x.go = some g → reached d.now g = true → Ends (.tagActivate tag) s (fun t => moved tag.toNat t ∧
        t.dev.tag tag.toNat = some { x with st := .active, since := d.phys })) ∧
      (x.st = .starting → x.go = none → 2000 * d.time.startTo.toNat ≤ elapsed d.phys x.since → Ends (.startingTagTimeout tag) s (fun t => moved tag.toNat t ∧
        t.dev.tag tag.toNat = some { x with st := .assigned, since := d.phys })) ∧
      (x.st = .draining → d.tagInUse tag.toNat = false → d.tagExchanges tag.toNat = false → d.past x.seen d.time.tagQuiet.toNat = true →
        d.job tag true = none →
        Ends (.tagDrainComplete tag) s (fun t => moved tag.toNat t ∧ t.dev.tag tag.toNat = none)) ∧
      ∀ slot g, d.slotOf gid.toNat = some (slot, g) → x.st = .starting →
        (∀ rel : Word, x.go = none → Ends (.jobGoReceive tag gid x.attempt rel) s (fun t =>
          t = { s with dev := { d with out := t.dev.out, time := { d.time with tags := t.dev.time.tags } } } ∧
          t.dev.tag tag.toNat = some { x with go := some rel } ∧ (∀ j, j ≠ tag.toNat → t.dev.tag j = d.tag j) ∧
          ∀ p, p ∈ g.jobChildren d.self ∨ p ∈ g.children d.self →
            .message .jobGo p [tag.toNat, gid.toNat, x.attempt.toNat, rel.toNat] ∈ t.dev.out)) ∧
        Ends (.jobAbortReceive tag gid x.attempt) s (fun t =>
          t = { s with dev := { d with
            health := t.dev.health, out := t.dev.out
            time := { d.time with tags := t.dev.time.tags, jobs := t.dev.time.jobs } } } ∧
          t.dev.tag tag.toNat = some { x with st := .assigned, go := none, since := d.phys } ∧ (∀ j, j ≠ tag.toNat → t.dev.tag j = d.tag j) ∧
          t.dev.job tag false = none ∧ ∀ p ∈ g.children d.self, .message .jobAbort p [tag.toNat, gid.toNat, x.attempt.toNat] ∈ t.dev.out))

/-- JOB_START on a root with no job in hand takes an ATTEMPT. Where the root's own test fails the outcome is REFUSED with its cause; else its tag is STARTING and START goes to its children, or with one member GO is given. A member tests, passes START on, and a leaf answers at once. The root gives GO with the last acceptance, ends REFUSED at the first refusal and TIMED OUT after START_TO, its own tag ASSIGNED again; a member answers its parent when all its children have, or after half of START_TO, naming the lowest missing one. -/
def Obligations.JobsStartWhenEveryMemberAccepts : Prop :=
  ∀ (s : State) (tag : BitVec 16) (slot : Fin 64) (g : Group), s.dev.slotOf g.gid = some (slot.val, g) →
    let d := s.dev
    let gid := BitVec.ofNat 16 g.gid
    let kids := g.jobChildren d.self
    let fresh : Bool → BitVec 8 → Nat → Option (BitVec 20 × Nat) → Job := fun root a n no =>
      { root := root, tag := tag, gid := gid, teardown := false, attempt := a, heard := [], accepted := n, refused := no, missing := none,
        since := d.phys }
    let frame := fun (t : State) => t = { s with dev := { d with
      health := t.dev.health, host := t.dev.host, out := t.dev.out
      time := { d.time with
        tags := t.dev.time.tags, jobs := t.dev.time.jobs, attempt := t.dev.time.attempt, tagReason := t.dev.time.tagReason
        jobOutcome := t.dev.time.jobOutcome, jobCause := t.dev.time.jobCause, jobWho := t.dev.time.jobWho } } } ∧
      ∀ j, j ≠ tag.toNat → t.dev.tag j = d.tag j
    let outcome := fun (code cause : Nat) (who : BitVec 20) (t : State) => t.dev.time.jobOutcome = BitVec.ofNat 3 code ∧
      t.dev.time.jobCause = BitVec.ofNat 8 cause ∧ t.dev.time.jobWho = who ∧
      (.msix 5 ∈ t.dev.out ∨ t.dev.host.msixPending.getLsbD 5 = true) ∧ t.dev.job tag false = none
    let told := fun (kind : CtrlMsg) (ps fields : List Nat) (t : State) => ∀ p ∈ ps, .message kind p fields ∈ t.dev.out
    let given := fun (a : Nat) (t : State) => outcome 1 0 0 t ∧
      told .jobGo (kids ++ g.children d.self) [tag.toNat, gid.toNat, a, (d.now + d.time.barMargin.setWidth 64).toNat] t
    (d.health.stopped = false →
      (∀ why, d.jobReason slot.val = why → why ≠ 0 → Ends (.jobStart tag slot) s (fun t =>
        t = { s with dev := { d with time := { d.time with tagReason := BitVec.ofNat 16 why } } })) ∧
      (d.jobReason slot.val = 0 → d.group slot.val = some g →
        let a := d.time.attempt + 1
        let k := (d.acceptJob tag gid a).2
        Ends (.jobStart tag slot) s (fun t => frame t ∧ t.dev.time.attempt = a ∧ t.dev.time.tagReason = 0 ∧
          (k ≠ 0 → t.dev.time.jobOutcome = 2 ∧ t.dev.time.jobCause = BitVec.ofNat 8 k ∧ t.dev.time.jobWho = BitVec.ofNat 20 d.self ∧
            t.dev.time.jobs = d.time.jobs) ∧
          (k = 0 → ∃ x y, d.tag tag.toNat = some x ∧ t.dev.tag tag.toNat = some y ∧ y.claim = x.claim ∧ y.st = .starting ∧ y.attempt = a ∧
            y.gid = gid ∧ told .jobStart kids [tag.toNat, g.gid, a.toNat] t ∧
            (g.members = 1 → given a.toNat t ∧ y.go = some (d.now + d.time.barMargin.setWidth 64)) ∧
            (g.members ≠ 1 → y.go = none ∧ t.dev.job tag false = some (fresh true a 1 none)))))) ∧
    (∀ (src : BitVec 20) (a : BitVec 8), let k := (d.acceptJob tag gid a).2
      Ends (.jobStartReceive src tag gid a) s (fun t => frame t ∧ told .jobStart kids [tag.toNat, gid.toNat, a.toNat] t ∧
        (k = 0 → ∃ y, t.dev.tag tag.toNat = some y ∧ y.st = .starting ∧ y.attempt = a ∧ y.gid = gid ∧ y.go = none) ∧
        (kids = [] → t.dev.job tag false = none ∧ told .jobAnswer (g.jobParent d.self).toList
          (if k = 0 then [tag.toNat, a.toNat, 1, 0, 0, 0] else [tag.toNat, a.toNat, 0, (BitVec.ofNat 20 d.self).toNat, k, 0]) t) ∧
        (kids ≠ [] → t.dev.job tag false =
          some (fresh false a (b2n (k == 0)) (if k = 0 then none else some (BitVec.ofNat 20 d.self, k)))))) ∧
    (∀ (j : Job) (src : BitVec 20) (n : Nat) (no : Option (BitVec 20 × BitVec 8)), d.job tag false = some j → j.gid = gid → src ∉ j.heard →
      j.missing = none →
      let all := kids.all (fun c => (j.heard ++ [src]).any (fun h => h.toNat == c))
      let refused := j.refused <|> no.map (fun r => (r.1, r.2.toNat))
      Ends (.jobAnswerReceive src tag j.attempt n no none) s (fun t => frame t ∧
        (j.root = true → ∀ who cause, refused = some (who, cause) → outcome 2 cause who t ∧
          told .jobAbort (g.children d.self) [tag.toNat, gid.toNat, j.attempt.toNat] t) ∧
        (j.root = true → refused = none → j.accepted + n = g.members → given j.attempt.toNat t) ∧
        ((j.root = true ∧ refused = none ∧ j.accepted + n ≠ g.members) ∨ (j.root = false ∧ all = false) →
          t.dev.job tag false = some { j with heard := j.heard ++ [src], accepted := j.accepted + n, refused := refused }) ∧
        (j.root = false → all = true → t.dev.job tag false = none ∧ told .jobAnswer (g.jobParent d.self).toList
          ([tag.toNat, j.attempt.toNat, j.accepted + n] ++ (match refused with | some (w, c) => [w.toNat, c] | none => [0, 0]) ++ [0]) t))) ∧
    (∀ j : Job, d.job tag false = some j → j.root = false → j.gid = gid → d.startPast j.since 1 = true →
      Ends (.jobChildWaitTimeout tag) s (fun t =>
      t = { s with dev := { d with out := t.dev.out, time := { d.time with jobs := t.dev.time.jobs } } } ∧ t.dev.job tag false = none ∧
      told .jobAnswer (g.jobParent d.self).toList ([tag.toNat, j.attempt.toNat, j.accepted] ++
        (match j.refused with | some (w, c) => [w.toNat, c] | none => [0, 0]) ++ [((d.lowestMissing j).map (fun m => m.toNat + 1)).getD 0]) t)) ∧
    (∀ j : Job, d.time.jobs.find? (fun q => q.root && !q.teardown && d.startPast q.since 2) = some j → j.tag = tag → j.gid = gid → Ends .jobStartTimeout s (fun t =>
      frame t ∧ outcome 3 0 ((d.lowestMissing j).getD 0) t ∧ told .jobAbort (g.children d.self) [tag.toNat, gid.toNat, j.attempt.toNat] t ∧
      ∀ x, d.tag tag.toNat = some x → x.st = .starting → x.attempt = j.attempt →
        t.dev.tag tag.toNat = some { x with st := .assigned, go := none, since := d.phys }))

/-- JOB_TEARDOWN on a root with no job in hand, and a member's first REVOKE, drain the tag, pass REVOKE on and keep a record; where the tag is FREE already the root counts itself and a member reports up. A DRAINING tag out of use and silent for TAG_QUIET becomes FREE and does the same. The root counts each member once and ends TORN DOWN with the last; another node passes a report up. START_TO after its own tag is FREE the root's timeout ends the teardown and names the first missing member. -/
def Obligations.TeardownsDrainReportAndEnd : Prop :=
  ∀ (s : State) (tag : BitVec 16) (slot : Fin 64) (g : Group), s.dev.slotOf g.gid = some (slot.val, g) → g.members ≠ 0 →
    let d := s.dev
    let gid := BitVec.ofNat 16 g.gid
    let me := BitVec.ofNat 20 d.self
    let kids := g.jobChildren d.self ++ g.children d.self
    let job : Bool → List (BitVec 20) → Job := fun root heard =>
      { root := root, tag := tag, gid := gid, teardown := true, attempt := 0, heard := heard, accepted := 0, refused := none, missing := none,
        since := d.phys }
    let frame := fun (t : State) => t = { s with dev := { d with
      health := t.dev.health, host := t.dev.host, out := t.dev.out
      time := { d.time with
        tags := t.dev.time.tags, jobs := t.dev.time.jobs, tagReason := t.dev.time.tagReason
        jobOutcome := t.dev.time.jobOutcome, jobCause := t.dev.time.jobCause, jobWho := t.dev.time.jobWho } } } ∧
      ∀ j, j ≠ tag.toNat → t.dev.tag j = d.tag j
    let ended := fun (code : Nat) (who : BitVec 20) (t : State) => t.dev.time.jobOutcome = BitVec.ofNat 3 code ∧ t.dev.time.jobCause = 0 ∧
      t.dev.time.jobWho = who ∧ (.msix 5 ∈ t.dev.out ∨ t.dev.host.msixPending.getLsbD 5 = true) ∧ t.dev.job tag true = none
    let told := fun (kind : CtrlMsg) (ps fields : List Nat) (t : State) => ∀ p ∈ ps, .message kind p fields ∈ t.dev.out
    let drains := fun (root : Bool) (t : State) => frame t ∧ told .jobRevoke kids [tag.toNat, gid.toNat] t ∧
      (∀ x, d.tag tag.toNat = some x → t.dev.job tag true = some (job root []) ∧
        (x.st = .starting ∨ x.st = .active → t.dev.tag tag.toNat = some { x with st := .draining, since := d.phys }) ∧
        (x.st = .assigned ∨ x.st = .draining → t.dev.tag tag.toNat = some x)) ∧
      (d.tag tag.toNat = none → t.dev.tag tag.toNat = none ∧
        (root = true → if g.members = 1 then ended 4 0 t else t.dev.job tag true = some (job true [me])) ∧
        (root = false → t.dev.job tag true = none ∧ told .jobFree (g.jobParent d.self).toList [tag.toNat, gid.toNat, d.self] t))
    (d.health.stopped = false → d.jobReason slot.val = 0 → d.group slot.val = some g → Ends (.jobTeardown tag slot) s (fun t =>
      drains true t ∧ t.dev.time.tagReason = 0)) ∧
    (d.job tag true = none → Ends (.jobRevokeReceive tag gid) s (drains false)) ∧
    (∀ (j : Job) (x : Tag), d.job tag true = some j → j.gid = gid → d.tag tag.toNat = some x → x.st = .draining →
      d.tagInUse tag.toNat = false → d.tagExchanges tag.toNat = false → d.past x.seen d.time.tagQuiet.toNat = true →
      Ends (.tagDrainComplete tag) s (fun t => frame t ∧
        t.dev.tag tag.toNat = none ∧ (j.root = true → if j.heard.length + 1 = g.members then ended 4 0 t
            else t.dev.job tag true = some { j with heard := j.heard ++ [me], since := d.phys }) ∧
        (j.root = false → t.dev.job tag true = none ∧ told .jobFree (g.jobParent d.self).toList [tag.toNat, gid.toNat, d.self] t))) ∧
    (∀ (j : Job) (m : BitVec 20), d.job tag true = some j → j.root = true → j.gid = gid →
      (m ∈ j.heard → Ends (.jobFreeReportReceive tag gid m) s (fun t => t = s)) ∧
      (m ∉ j.heard → Ends (.jobFreeReportReceive tag gid m) s (fun t => frame t ∧ if j.heard.length + 1 = g.members then ended 4 0 t
        else t.dev.job tag true = some { j with heard := j.heard ++ [m] }))) ∧
    (∀ m : BitVec 20, (∀ j, d.job tag true = some j → j.root = false) → Ends (.jobFreeReportReceive tag gid m) s (fun t =>
      t = { s with dev := { d with out := t.dev.out } } ∧ told .jobFree (g.jobParent d.self).toList [tag.toNat, gid.toNat, m.toNat] t)) ∧
    (∀ j : Job, d.time.jobs.find? (fun q => q.root && q.teardown && q.heard.contains me && d.startPast q.since 2) = some j → j.tag = tag → j.gid = gid →
      Ends .teardownTimeout s (fun t => frame t ∧ ended 5
        (BitVec.ofNat 20 ((((List.range g.members).map g.at).find? (fun p => j.heard.all (fun h => h.toNat != p))).getD 0)) t))

/-- An asserted source sets its pending bit and no other. A core is given the pending source routed to it that it does not serve with the highest priority, the lowest number among equals, above what it serves and at most 16 deep; its number stands in CAUSE. At the end of service the bit clears, or sets again where the level lasts. A sample without the power warning shows the levels of supplies, coolant and TIMEREF, latches them, and ends module doze where a fresh latch is in the wake mask. -/
def Obligations.EventsPendAreDeliveredAndServed : Prop :=
  ∀ (s : State) (u : Fin 33) (core : Fin 8),
    let d := s.dev
    let x := d.unit u.val
    let units := fun (t : State) => t = { s with dev := { d with out := t.dev.out, evt := { d.evt with units := t.dev.evt.units } } } ∧
      ∀ k, k ≠ u.val → t.dev.unit k = d.unit k
    (∀ n : Fin 128, sourceOk u.val n.val = true → d.level u.val n.val true = true → Ends (.eventSourceAssert u n) s (fun t => units t ∧
      t.dev.out = d.out ∧ (t.dev.unit u.val).serving = x.serving ∧ (t.dev.unit u.val).cause = x.cause ∧
      ∀ k, k < 128 → (t.dev.unit u.val).pend.getLsbD k = (x.pend.getLsbD k || k == n.val))) ∧
    (∀ n, d.nextEvent u.val core.val = some n → (u.val = 0 → d.power.kolti = true) →
      let serving := Tbl.lookD x.serving core.val []
      Ends (.eventDeliver u core) s (fun t => units t ∧ t.dev.out = .event u.val core.val n :: d.out ∧
        (t.dev.unit u.val).pend = x.pend ∧ Tbl.lookD (t.dev.unit u.val).serving core.val [] = n :: serving ∧
        Tbl.look (t.dev.unit u.val).cause core.val = some n ∧
        x.pend.getLsbD n = true ∧ d.routed u.val core.val n = true ∧ n ∉ serving ∧
        (∀ m, m < 128 → x.pend.getLsbD m = true → d.routed u.val core.val m = true → m ∉ serving →
          prioOf u.val m ≤ prioOf u.val n ∧ (prioOf u.val m = prioOf u.val n → n ≤ m)) ∧
        ∀ m rest, serving = m :: rest → prioOf u.val m < prioOf u.val n ∧ serving.length < 16)) ∧
    (∀ (lvl : Bool) n rest, Tbl.lookD x.serving core.val [] = n :: rest → n < 128 → Ends (.endOfService u core lvl) s (fun t => units t ∧
      t.dev.out = d.out ∧ Tbl.lookD (t.dev.unit u.val).serving core.val [] = rest ∧ (t.dev.unit u.val).pend.getLsbD n = d.level u.val n lvl ∧
      ∀ k, k < 128 → k ≠ n → (t.dev.unit u.val).pend.getLsbD k = x.pend.getLsbD k)) ∧
    (∀ (levels : BitVec 64) (z : Sensors), d.power.aonOn = true → levels.getLsbD 0 = false → Ends (.monitorSample levels z) s (fun t =>
      let l := t.dev.evt.level
      t = { s with dev := { d with
        dies := t.dev.dies, health := t.dev.health
        power := { d.power with
          sensors := z, mainOk := mainInRange z && !d.power.protectionOpen, auxOk := auxInRange z
          mainLive := d.power.mainLive || (Nat.ble 3900 z.mainV && !d.power.protectionOpen) }
        evt := { d.evt with level := l, latch := d.evt.latch ||| l, hubLow := t.dev.evt.hubLow } } } ∧
      l.getLsbD 1 = !mainInRange z ∧ l.getLsbD 2 = decide (z.auxV < 1080) ∧ l.getLsbD 3 = d.power.thermN ∧ l.getLsbD 4 = decide (400 < z.inlet) ∧
      l.getLsbD 5 = decide (160 < z.outlet - z.inlet) ∧ l.getLsbD 13 = d.power.svcReqN ∧ l.getLsbD 14 = decide (d.evt.wakeTick ≤ d.now) ∧
      l.getLsbD 15 = false ∧ l.getLsbD 8 = d.time.refBad ∧ (∀ k, k < 13 → 5 < k → k ≠ 8 → l.getLsbD k = levels.getLsbD k) ∧
      (∀ k, 16 ≤ k → k < 64 → l.getLsbD k = levels.getLsbD k) ∧
      let wakes := ∃ k, 0 < k ∧ k < 64 ∧ l.getLsbD k = true ∧ d.evt.latch.getLsbD k = false ∧ d.evt.wakeMask.getLsbD k = true
      (d.evt.hubLow = true → wakes → t.dev.evt.hubLow = false ∧
        ∀ n, n < 4 → (d.die n).doze = .light ∨ (d.die n).doze = .deep → (t.dev.die n).doze = .waking) ∧
      (d.evt.hubLow = false ∨ ¬ wakes → t.dev.evt.hubLow = d.evt.hubLow ∧ t.dev.dies = d.dies ∧ t.dev.health = d.health)))

/-- With management running, LOAD of an image that fails a check stores its reason and leaves the kernel; one that passes is LOADED, with the image's bytes. START of a LOADED or STOPPED kernel runs it with an issue port on every core of its claim, and STOP halts a RUNNING one; elsewhere they store 0x2508. An exception faults a RUNNING kernel, stores 0x2509 and is counted. A store to a port of a RUNNING kernel joins that port's list at its count, and does nothing while 64 records await the kernel; a head count frees window slots. -/
def Obligations.KernelsLoadStartStopAndIssue : Prop :=
  ∀ s : State,
    let d := s.dev
    let c := d.selKernel
    let evt := fun (x : Evt) (t : State) => t = { s with dev := { d with evt := x } }
    let kernel := fun (t : State) => t = { s with dev := { d with
        rings := t.dev.rings, dies := t.dev.dies, health := t.dev.health, dozeAborted := t.dev.dozeAborted, out := t.dev.out
        host := { d.host with cached := t.dev.host.cached }
        evt := { d.evt with kernels := t.dev.evt.kernels, krnReason := t.dev.evt.krnReason } } } ∧ ∀ k, k ≠ c → t.dev.kernel k = d.kernel k
    (d.health.stopped = false →
      (∀ why, d.krnCheck s.mem c = .error why → Ends .kernelLoad s (evt { d.evt with krnReason := BitVec.ofNat 16 why })) ∧
      (∀ auth body, d.krnCheck s.mem c = .ok (auth, body) → Ends .kernelLoad s (fun t => kernel t ∧ t.dev.evt.krnReason = 0 ∧
        t.dev.kernel c = { st := .loaded, image := body, auth := auth } ∧ t.dev.rings = d.rings ∧
        (∀ o ∈ t.dev.out, o ∈ d.out ∨ ∃ a ∈ d.host.cached, o = .recall a ∧ a ∉ t.dev.host.cached) ∧
        body = d.readDev s.mem (d.evt.krnAddr.toNat % 2 ^ 42) body.length)) ∧
      (d.isRunning .event = true → (d.kernel c).st = .loaded ∨ (d.kernel c).st = .stopped → Ends .kernelStart s (fun t => kernel t ∧
        t.dev.evt.krnReason = 0 ∧ t.dev.kernel c = { d.kernel c with st := .running } ∧ t.dev.out = .kernel c true :: d.out ∧
        t.dev.dies = d.dies ∧ t.dev.health = d.health ∧ t.dev.host = d.host ∧
        (∀ k, k < 32 → (d.claim c).cores.getLsbD k = true → (t.dev.ring (1024 + k)).claim = BitVec.ofNat 5 c) ∧
        ∀ r, r < 1024 → t.dev.ring r = d.ring r)) ∧
      (d.isRunning .event = true → (d.kernel c).st = .running → Ends .kernelStop s (fun t => kernel t ∧ t.dev.evt.krnReason = 0 ∧
        t.dev.kernel c = { d.kernel c with st := .stopped } ∧ t.dev.out = .kernel c false :: d.out ∧ t.dev.rings = d.rings ∧
        t.dev.dies = d.dies ∧ t.dev.health = d.health ∧ t.dev.host = d.host)) ∧
      (d.isRunning .event = true → (d.kernel c).st ≠ .loaded → (d.kernel c).st ≠ .stopped →
        Ends .kernelStart s (evt { d.evt with krnReason := 0x2508 })) ∧
      (d.isRunning .event = true → (d.kernel c).st ≠ .running → Ends .kernelStop s (evt { d.evt with krnReason := 0x2508 }))) ∧
    (∀ n : Fin 32, (d.kernel n.val).st = .running → Ends (.kernelException n) s (fun t =>
      t = { s with dev := { d with
        health := t.dev.health, out := t.dev.out, host := { d.host with msixPending := t.dev.host.msixPending }
        evt := { d.evt with kernels := t.dev.evt.kernels, krnReason := 0x2509, krnFaults := d.evt.krnFaults + 1 } } } ∧
      t.dev.kernel n.val = { d.kernel n.val with st := .faulted } ∧ (∀ k, k ≠ n.val → t.dev.kernel k = d.kernel k) ∧
      .kernel n.val false ∈ t.dev.out ∧ t.dev.health.alarms = d.health.alarms + 1 ∧
      (.msix 1 ∈ t.dev.out ∨ t.dev.host.msixPending.getLsbD 1 = true))) ∧
    (∀ (n : Fin 4) (core : Fin 8) (k : Nat), d.krnClaim (8 * n.val + core.val) = some k →
      let r := 1024 + 8 * n.val + core.val
      let g := d.ring r
      (∀ desc : BitVec 512, g.claim.toNat = k → g.stopped = false →
        ((g.cqTail - g.cqHeadLast).toNat < 64 → g.ents.length < 64 → d.fetchFate r g.sqHead desc = none →
          Ends (.kernelIssue n core desc) s (fun t => t = { s with dev := { d with rings := t.dev.rings } } ∧ OnlyRing r s t ∧
            (t.dev.ring r).sqHead = g.sqHead + 1 ∧ (t.dev.ring r).ents = g.ents ++ [Entry.fresh g.sqHead desc] ∧
            (t.dev.ring r).cqTail = g.cqTail ∧ (t.dev.ring r).cqHeadLast = g.cqHeadLast)) ∧
        (64 ≤ (g.cqTail - g.cqHeadLast).toNat → Ends (.kernelIssue n core desc) s (fun t => t = s))) ∧
      ∀ v : W32, g.finished = [] →
        (g.headOk v = true → Ends (.kernelHeadWrite n core v) s (fun t => t = { s with dev := d.setRing r { g with cqHeadLast := v } })) ∧
        (g.headOk v = false → Ends (.kernelHeadWrite n core v) s (fun t => t = s)))

/-- With management running, a doze write moves a die with a request that passes R375 to ENTERING, one in LIGHT or DEEP asked for RUN to WAKING, counted, and no other; nothing else of a die moves. An entry ends in LIGHT or DEEP, a wake in RUN. HUB_LOW puts the module in doze with every die DEEP and no claim RUNNING, and else stores 0x2503; cleared, module doze ends and every die stays as it is. -/
def Obligations.DiesAndModuleDozeAndWake : Prop :=
  ∀ s : State,
    let d := s.dev
    let dozed := fun (t : State) => t = { s with dev := { d with
      dies := t.dev.dies, health := t.dev.health, dozeAborted := t.dev.dozeAborted
      evt := { d.evt with
        dozeReq := t.dev.evt.dozeReq, dozeReason := t.dev.evt.dozeReason, hubLow := t.dev.evt.hubLow, hubLowReq := t.dev.evt.hubLowReq } } }
    let evt := fun (x : Evt) (t : State) => t = { s with dev := { d with evt := x } }
    (d.health.stopped = false →
      (∀ v : W32, Ends (.dozeRequest v) s (fun t => dozed t ∧ ∀ n, n < 4 →
        let q := v.toNat / 4 ^ n % 4
        let x := d.die n
        let wakes := q = 0 ∧ (x.doze = .light ∨ x.doze = .deep) ∧ d.isRunning .event = true
        let enters := (q = 1 ∨ q = 2) ∧ x.doze ≠ (if q = 1 then .light else .deep) ∧ d.dozeCheck n q = none
        (wakes → t.dev.die n = { x with doze := .waking, cntWake := x.cntWake + 1 }) ∧
        (enters → t.dev.die n = { x with doze := .entering (q == 2) }) ∧ (¬ wakes → ¬ enters → t.dev.die n = x))) ∧
      (d.evt.hubLow = false → d.isRunning .event = true →
        let free := (∀ n, n < 4 → (d.die n).doze = .deep) ∧ ∀ c, c < 32 → d.isRunning (claimBlock c) = false
        (free → Ends .moduleDozeRequest s (evt { d.evt with hubLowReq := true, hubLow := true })) ∧
        (¬ free → Ends .moduleDozeRequest s (evt { d.evt with hubLowReq := true, dozeReason := 0x2503 }))) ∧
      Ends .moduleDozeClear s (evt { d.evt with hubLowReq := false, hubLow := false })) ∧
    (∀ n : Fin 4, let die := fun (x : Doze) (t : State) =>
        t = { s with dev := { d with dies := t.dev.dies, health := t.dev.health } } ∧ t.dev.die n.val = { d.die n.val with doze := x } ∧
        ∀ k, k ≠ n.val → t.dev.die k = d.die k
      (∀ deep, (d.die n.val).doze = .entering deep → Ends (.dozeEntryDone n) s (die (if deep then .deep else .light))) ∧
      ((d.die n.val).doze = .waking → Ends (.wakeDone n) s (die .run)))

/-- On a die that is on and not contained, the failure of a lane or core that serves records it, takes its logical number out of service and raises an alarm; a lane op on it ends HARDWARE_FAULT with the die's block ID. The lowest spare is tested for the number, or it waits under HOLD with condition 4, or with no spare condition 3 arises and the owner's shape is lost. A spare that passes takes the number with condition 0; one that fails is recorded. HOLD and AUTO take effect, AUTO with nothing left waiting. Nothing else changes but the replacement request. -/
def Obligations.SparesSubstituteFailedLanesAndCores : Prop :=
  ∀ (s : State) (n : Fin 4),
    let d := s.dev
    let x := d.die n.val
    let frame := fun (t : State) =>
      t = { s with dev := { d with
        dies := t.dev.dies, health := t.dev.health, claims := t.dev.claims, host := t.dev.host, capGen := t.dev.capGen, capTick := t.dev.capTick
        out := t.dev.out, power := { d.power with svcReqN := t.dev.power.svcReqN }, xbar := { d.xbar with rem := t.dev.xbar.rem }
        store := { d.store with lanes := t.dev.store.lanes, cores := t.dev.store.cores } } } ∧ ∀ k, k ≠ n.val → t.dev.die k = d.die k
    let held := d.lanesHeld n.val ≠ 0 ∧ d.coresHeld n.val ≠ 0
    let fails := fun (core : Bool) (l : Nat) (t : State) =>
      frame t ∧ t.dev.health.alarms = d.health.alarms + 1 ∧
      let spares := x.spares core
      let sub : Option Nat → Subst := fun p => { die := n.val, core := core, logical := l, spare := p }
      (if core then t.dev.store.lanes = d.store.lanes else t.dev.store.cores = d.store.cores) ∧
      (held ∨ spares ≠ [] → if core then (t.dev.die n.val).laneLog = x.laneLog else (t.dev.die n.val).coreLog = x.coreLog) ∧
      (spares ≠ [] → (if core then (t.dev.die n.val).coreLog = x.coreLog &&& ~~~ BitVec.ofNat 8 (2 ^ l)
          else (t.dev.die n.val).laneLog = x.laneLog &&& ~~~ BitVec.ofNat 64 (2 ^ l))) ∧
      (∀ p rest, spares = p :: rest → d.health.hold = false → t.dev.health.testing = d.health.testing ++ [sub (some p)] ∧
        (t.dev.die n.val).spares core = rest ∧ t.dev.health.cond = d.health.cond ∧ t.dev.claims = d.claims) ∧
      (spares ≠ [] → d.health.hold = true → t.dev.health.held = d.health.held ++ [sub none] ∧
        t.dev.health.cond = d.health.cond ||| 0x10 ∧ t.dev.claims = d.claims) ∧
      (spares = [] → t.dev.health.cond ||| 0x10 = d.health.cond ||| 0x18 ∧ ∀ c, d.ownerOf n.val core l = some c →
        t.dev.claim c = { d.claim c with shapeLost := true })
    (x.on = true → x.contained = false →
      (∀ p : Fin 66, let l := x.laneList.idxOf p.val
        x.laneList.contains p.val = true → x.laneLog.getLsbD l = true → d.lanesHeld n.val ≠ 0 →
        (d.killed d = [] → Ends (.laneFault n (.lane p) none) s (fun t => fails false l t ∧ t.dev.rings = d.rings ∧
          Tbl.lookD t.dev.store.lanes n.val 0 = Tbl.lookD d.store.lanes n.val 0 ||| BitVec.ofNat 66 (2 ^ p.val))) ∧
        ∀ (r : RingNo) (c : W32) (e : Entry), d.entry r.val c = some e → e.phase = .started → laneOpcode (hOpcode e.desc) = true →
          d.ownerOf n.val false l = some (d.claimOf r.val) → Ends (.laneFault n (.lane p) (some (r, c))) s (fun t => OnlyRing r.val s t ∧
            ∃ e', t.dev.entry r.val c = some e' ∧ e'.phase = .done ∧ e'.res.status = 0x3007 ∧
              e'.res.reason = BitVec.ofNat 16 (0x10 + n.val))) ∧
      (∀ p : Fin 9, let l := x.coreList.idxOf p.val
        x.coreList.contains p.val = true → x.coreLog.getLsbD l = true → d.coresHeld n.val ≠ 0 →
        (∀ c, d.ownerOf n.val true l = some c → (d.kernel c).st ≠ .running) →
        Ends (.laneFault n (.core p) none) s (fun t => fails true l t ∧ t.dev.rings = d.rings ∧
          Tbl.lookD t.dev.store.cores n.val 0 = Tbl.lookD d.store.cores n.val 0 ||| BitVec.ofNat 9 (2 ^ p.val)))) ∧
    (∀ (core : Bool) (u : Subst) (p : Nat), d.health.testing.find? (fun t => t.die == n.val && t.core == core) = some u → u.spare = some p → held →
      Ends (.spareSelfTestDone n core true) s (fun t => frame t ∧ t.dev.health.cond.getLsbD 0 = true ∧
        t.dev.health.testing = removeFirst u d.health.testing ∧ t.dev.health.held = d.health.held ∧ t.dev.store = d.store ∧
        t.dev.die n.val = (if core then { x with
            coreLog := x.coreLog ||| BitVec.ofNat 8 (2 ^ u.logical), coreList := setNth x.coreList u.logical p }
          else { x with laneLog := x.laneLog ||| BitVec.ofNat 64 (2 ^ u.logical), laneList := setNth x.laneList u.logical p })) ∧
      Ends (.spareSelfTestDone n core false) s (fun t => frame t ∧ t.dev.health.alarms = d.health.alarms + 1 ∧
        (core = false → Tbl.lookD t.dev.store.lanes n.val 0 = Tbl.lookD d.store.lanes n.val 0 ||| BitVec.ofNat 66 (2 ^ p)) ∧
        (core = true → Tbl.lookD t.dev.store.cores n.val 0 = Tbl.lookD d.store.cores n.val 0 ||| BitVec.ofNat 9 (2 ^ p)) ∧
        (∀ q rest, x.spares core = q :: rest →
          t.dev.health.testing = removeFirst u d.health.testing ++ [{ u with spare := some q }] ∧ (t.dev.die n.val).spares core = rest) ∧
        (x.spares core = [] → t.dev.health.testing = removeFirst u d.health.testing ∧ t.dev.health.cond.getLsbD 3 = true))) ∧
    (d.health.stopped = false → ∀ v : W32,
      (v.getLsbD 0 = true → Ends (.spareCtlWrite v) s (fun t => t = { s with dev := { d with health := { d.health with hold := true } } })) ∧
      (v.getLsbD 0 = false → Ends (.spareCtlWrite v) s (fun t => t.dev.health.hold = false ∧ t.dev.health.held = [] ∧ t.mem = s.mem ∧
        t.pending = s.pending ∧ t.dev.rings = d.rings ∧ t.dev.store = d.store ∧ (d.health.held = [] → d.health.testing = [] →
          t.dev.health.cond = d.health.cond &&& ~~~ 0x10))))

/-- Containment of a die powers it off with no lane or core left, makes every READY object with units there LOST, takes the shape of every claim with lanes or cores there, stops a RUNNING die block with its own ID and 0xF7, and sets condition 10; it is recorded, a thermal trip alone is not and asserts THERM_N. An engine's fault quiesces its block with 0xF7; a second within 1 s leaves it REFUSED, recorded, with condition 9. A fault of an assigned tally stops its claim with 0x03F7; an unassigned one is out of service. -/
def Obligations.FaultsContainDiesAndStopEngines : Prop :=
  ∀ (s : State),
    let d := s.dev
    (∀ n : Fin 4, (d.die n.val).contained = false →
      let contained := fun (t : State) => (t.dev.die n.val).contained = true ∧ (t.dev.die n.val).on = false ∧
        (t.dev.die n.val).laneList = [] ∧ (t.dev.die n.val).coreList = [] ∧ (t.dev.die n.val).laneLog = 0 ∧ (t.dev.die n.val).coreLog = 0 ∧
        (∀ k, k ≠ n.val → t.dev.die k = d.die k) ∧ t.pending = s.pending ∧ t.dev.health.cond.getLsbD 10 = true ∧
        t.dev.health.acked = false ∧ t.dev.power.svcReqN = true ∧ t.dev.tallies = d.tallies ∧
        (∀ k o, d.obj k = some o → ∃ q, t.dev.obj k = some q ∧ q.base = o.base ∧ q.len = o.len ∧ q.near = o.near ∧
          (o.dies.getLsbD n.val = false → q = o) ∧ (o.dies.getLsbD n.val = true → q.lostDies.getLsbD n.val = true ∧
            (o.st = .ready → q.st = .lost) ∧ (o.st ≠ .ready → q.st = o.st) ∧ ∀ v ∈ q.moves, o.unitDie v.unit ≠ n.val)) ∧
        (∀ c, c < 32 → d.isOff (claimBlock c) = false → Tbl.lookD (d.claim c).lanes n.val (0 : Word) ≠ 0 → (t.dev.claim c).shapeLost = true) ∧
        (d.isRunning (.die n) = true → t.dev.block (.die n) = { d.block (.die n) with
          st := .off, autoStop := true, reason := BitVec.ofNat 16 ((0x10 + n.val) * 256 + 0xF7) })
      (d.power.hubOn = true → Ends (.dieContain n) s (fun t => contained t ∧ t.dev.store.dies = d.store.dies ||| BitVec.ofNat 4 (2 ^ n.val))) ∧
      ((d.die n.val).on = true → Ends (.dieThermalTrip n) s (fun t => contained t ∧ t.dev.store.dies = d.store.dies ∧
        (t.dev.die n.val).tripped = true ∧ t.dev.power.thermN = true ∧ t.dev.power.thermTrip = true))) ∧
    (∀ b : BlockId, isEngine b = true → d.power.hubOn = true →
      let k := blockCode b
      let again := ∃ t0, Tbl.look d.health.engineFault k = some t0 ∧ elapsed d.phys t0 ≤ 1000000000
      let why := BitVec.ofNat 16 (k * 256 + 0xF7)
      Ends (.engineFault b) s (fun t => t.pending = s.pending ∧ Tbl.look t.dev.health.engineFault k = some d.phys ∧
        (∀ c, blockKey c ≠ blockKey b → t.dev.block c = d.block c) ∧
        (again → t.dev.block b = { d.block b with st := .refused, autoStop := (d.block b).autoStop || d.isRunning b, reason := why } ∧
          k ∈ t.dev.store.engines ∧ t.dev.health.cond.getLsbD 9 = true) ∧
        (¬ again → t.dev.store = d.store ∧ t.dev.health.cond = d.health.cond ∧
          t.dev.block b = (if d.isRunning b then { d.block b with st := .quiescing, autoStop := true, reason := why } else d.block b)))) ∧
    (∀ n : BitVec 16, d.power.hubOn = true →
      (d.tallyOwner n.toNat = none → Ends (.tallyEntryFault n) s (fun t =>
        t = { s with dev := { d with
          health := t.dev.health, out := t.dev.out, host := { d.host with msixPending := t.dev.host.msixPending }
          store := { d.store with tallies := t.dev.store.tallies } } } ∧ (.msix 1 ∈ t.dev.out ∨ t.dev.host.msixPending.getLsbD 1 = true) ∧
        t.dev.health.alarms = d.health.alarms + 1 ∧ n.toNat ∈ t.dev.store.tallies ∧ ∀ k ∈ d.store.tallies, k ∈ t.dev.store.tallies)) ∧
      ∀ c, d.tallyOwner n.toNat = some c → d.isRunning (claimBlock c) = true → Ends (.tallyEntryFault n) s (fun t =>
        t.pending = s.pending ∧ t.dev.store = d.store ∧ t.dev.block (claimBlock c) = { d.block (claimBlock c) with
          st := .quiescing, autoStop := true, reason := 0x03F7 }))

/-- A HANDOVER with no staged image, or one that does not verify, or a standby that fails stores its reason and the serving group goes on; a good one serves on the other group at once with the event routes, raises MIN_SECVER and leaves no staged image. A failed serving group hands over to the standby, or management stops; one that fails its self-test is recorded with condition 8. Acknowledgement sets ACKED while the request stands. The oldest record a path has not taken is posted while it has room; traces are queued by period; a head count in range is taken, another marked. -/
def Obligations.DeputiesHandOverAndTelemetryIsPosted : Prop :=
  ∀ s : State,
    let d := s.dev
    let h := d.health
    let health := fun (x : Health) (t : State) => t = { s with dev := { d with health := x } }
    (h.stopped = false → ∀ fails : Bool,
      (d.sec.staged = none → Ends (.handover fails) s (health { h with fwReason := 0x2601 })) ∧
      (∀ image, d.sec.staged = some image → h.fwBusy = false → d.store.groups = 0 → d.power.pstate = .mgmtUp ∨ d.power.pstate = .running →
        let v := BitVec.ofNat 32 (fieldAt image 4 4)
        let signed := d.imageSigned image
        Ends (.handover fails) s (fun t => t.dev.health.fwBusy = false ∧ t.dev.health.fwPhase = .idle ∧ t.dev.rings = d.rings ∧
          t.dev.claims = d.claims ∧ t.mem = s.mem ∧ t.pending = s.pending ∧
          (signed = false ∨ fails = true → t.dev.health.fwReason = (if signed then 0x2605 else 0x2604) ∧
            t.dev.health.servingB = h.servingB ∧ t.dev.sec = d.sec ∧ t.dev.store = d.store ∧ t.dev.evt = d.evt) ∧
          (signed = true → fails = false → t.dev.health.servingB = !h.servingB ∧ t.dev.evt = { d.evt with groupB := !h.servingB } ∧
            t.dev.health.verServing = v ∧ t.dev.health.verStandby = v ∧ t.dev.health.standbyOk = true ∧ t.dev.sec.staged = none ∧
            t.dev.sec.serving = image ∧ d.store.minSecver ≤ t.dev.store.minSecver ∧ v ≤ t.dev.store.minSecver ∧
            (t.dev.store.minSecver = v ∨ t.dev.store.minSecver = d.store.minSecver))))) ∧
    (∀ g pass : Bool, d.store.groups.getLsbD (b2n g) = true → Ends (.deputyWatchdogExpiry g pass) s (fun t => t = s)) ∧
    (∀ g pass : Bool, d.power.kolti = true → d.store.groups.getLsbD (b2n g) = false → Ends (.deputyWatchdogExpiry g pass) s (fun t =>
      let serves := h.servingB = g
      t.dev.rings = d.rings ∧ t.dev.blocks = d.blocks ∧ t.mem = s.mem ∧ t.pending = s.pending ∧
      (serves → h.standbyOk = true → t.dev.health.servingB = !g ∧ t.dev.evt.groupB = !g ∧ t.dev.health.stopped = h.stopped) ∧
      (serves → h.standbyOk = false → t.dev.health.stopped = true ∧ t.dev.power.kolti = false) ∧
      (¬ serves → t.dev.health.servingB = h.servingB ∧ t.dev.health.stopped = h.stopped) ∧
      (pass = false → t.dev.store.groups = d.store.groups ||| (if g then 2 else 1) ∧ t.dev.health.standbyOk = false ∧
        t.dev.health.cond.getLsbD 8 = true) ∧
      (pass = true → t.dev.store = d.store ∧ t.dev.health.cond = h.cond))) ∧
    (h.stopped = false → Ends .serviceAck s (health { h with acked := h.acked || d.power.svcReqN })) ∧
    Ends .clearEventRecords s (fun t => t = { s with dev := { d with
      host := { d.host with cxlEvents := [] }, health := { h with acked := h.acked || d.power.svcReqN } } }) ∧
    Ends .telemetryPost s (fun t =>
      t = { s with dev := { d.sent t.dev with host := t.dev.host } } ∧
      (∀ x ∈ t.dev.health.queue, x.hostDone = false ∨ (x.collDone = false ∧ h.tdestValid = true)) ∧
      (d.tqOpen = true → (h.tqTail - h.tqHead).toNat < 2 ^ h.tqLog2.toNat → ∀ x, h.queue.find? (fun q => !q.hostDone) = some x →
        t.dev.health.tqTail = h.tqTail + 1 ∧ t.dev.health.tqHead = h.tqHead ∧
        .telemetry true (h.tqTail.toNat % 2 ^ h.tqLog2.toNat)
          (BitVec.ofNat 256 (leNat (x.bytes (phaseBit h.tqTail (2 ^ h.tqLog2.toNat))))) ∈ t.dev.out ∧
        (x.cls = 0 → .msix 1 ∈ t.dev.out ∨ t.dev.host.msixPending.getLsbD 1 = true))) ∧
    (h.tracePeriod ≠ 0 → Ends .traceSample s (fun t => t = { s with dev := { d with health := { h with
        queue := t.dev.health.queue, merged := t.dev.health.merged, dropTrace := t.dev.health.dropTrace, dropLog := t.dev.health.dropLog } } } ∧
      ∀ x ∈ h.queue, x.cls ≠ 2 → x ∈ t.dev.health.queue)) ∧
    (h.stopped = false → ∀ v : W32, let ok := (h.tqTail - v).toNat ≤ 2 ^ h.tqLog2.toNat ∧ (v - h.tqHead).toNat ≤ (h.tqTail - h.tqHead).toNat
      (ok → Ends (.tqHeadWrite v) s (health { h with tqHead := v })) ∧
      (¬ ok → Ends (.tqHeadWrite v) s (fun t => t.dev.health.tqHead = h.tqHead ∧ (t.dev.block .health).reject = true ∧
        t.dev.health.alarms = h.alarms + 1 ∧ t = { s with dev := { d with
          health := t.dev.health, blocks := t.dev.blocks, out := t.dev.out, host := { d.host with msixPending := t.dev.host.msixPending } } })))

/-- With the mailbox served, buffers aligned and identity intact, each message is answered at the reply address, BUSY clears, DONE sets, vector 6 is raised and a failure is counted. GET_IDENTITY gives device ID and certificate, GET_PROTECTION the settings, ATTEST signed evidence over its nonce; nothing else changes. FW_LOAD of an image that cannot be read, is malformed, unsigned or too old is refused; a good one starts in AUX_ONLY or is staged. Unreadable or malformed messages get their statuses, and so do misaligned buffers. -/
def Obligations.MailboxMessagesAreServedAndAnswered : Prop :=
  ∀ s : State, s.dev.mailboxServed = true →
    let d := s.dev
    let answered := fun (x : Dev) (type tag st : Nat) (body : List Byte) (t : State) =>
      t = { s with dev := { x with
        host := t.dev.host, out := t.dev.out
        mbx := { d.mbx with
          busy := false, done := true, status := BitVec.ofNat 16 st
          cntRefused := d.mbx.cntRefused + (if st = 0 then 0 else 1) } } } ∧
      (.msix 6 ∈ t.dev.out ∨ t.dev.host.msixPending.getLsbD 6 = true) ∧
      .hostWrite d.mbx.rspAddr.toNat (toLe 2 type ++ toLe 2 st ++ toLe 4 body.length ++ toLe 4 tag ++ toLe 4 0 ++ body) ∈ t.dev.out
    (d.mbx.aligned = false → ∀ req, Ends (.mailboxBadMessage req) s (fun t => t.dev.mbx.busy = false ∧ t.dev.mbx.done = true ∧
      t.dev.mbx.status = 1 ∧ t.dev.mbx.cntRefused = d.mbx.cntRefused + 1 ∧
      t = { s with dev := { d with mbx := t.dev.mbx, host := t.dev.host, out := t.dev.out } })) ∧
    (d.mbx.aligned = true → d.power.identityBad = false →
      Ends (.mailboxBadMessage none) s (answered d 0 0 8 []) ∧
      (∀ req, (msgOf req).headerOk = false → Ends (.mailboxBadMessage (some req)) s (answered d (msgOf req).type (msgOf req).tag 1 [])) ∧
      (∀ tag : W32, Ends (.getIdentity tag) s (answered d 0x0001 tag.toNat 0 (deviceId ++ certificate)) ∧
        (d.isRunning .security = true → Ends (.getProtection tag) s (answered d 0x0020 tag.toNat 0
          (toLe 8 d.store.protSeq.toNat ++ (List.range 6).flatMap (fun i => d.store.setting (i + 1))))) ∧
        (d.isRunning .security = false → Ends (.getProtection tag) s (answered d 0x0020 tag.toNat 4 []))) ∧
      (∀ req, let m := { msgOf req with type := 0x0002 }
        m.headerOk = true → d.isRunning .security = true → Ends (.attest req) s (fun t => ∃ rest,
          let evidence := deviceId ++ m.body 0 32 ++ toLe 8 d.now.toNat ++ toLe 8 d.store.protSeq.toNat ++ shake256 d.sec.serving 64 ++
            shake256 d.store.protection 64 ++ rest
          answered d 0x0002 m.tag 0 (evidence ++ deviceSign evidence) t)) ∧
      (∀ req img, let m := { msgOf req with type := 0x0003 }
        let n := m.b 8 4
        let bytes := slice img 0 n
        let v := BitVec.ofNat 32 (fieldAt bytes 4 4)
        let signed := d.signedBy .vendor (bytes.take (n - 1280)) (bytes.drop (n - 1280))
        m.headerOk = true →
          Ends (.fwLoad req none) s (answered d 0x0003 m.tag 8 []) ∧
          (imageOk bytes n = false → Ends (.fwLoad req (some img)) s (answered d 0x0003 m.tag 1 [])) ∧
          (imageOk bytes n = true → signed = false → Ends (.fwLoad req (some img)) s (answered d 0x0003 m.tag 2 [])) ∧
          (imageOk bytes n = true → signed = true → v < d.store.minSecver → Ends (.fwLoad req (some img)) s (answered d 0x0003 m.tag 5 [])) ∧
          (imageOk bytes n = true → signed = true → d.store.minSecver ≤ v →
            (d.power.pstate ≠ .auxOnly → Ends (.fwLoad req (some img)) s
              (answered { d with sec := { d.sec with staged := some bytes } } 0x0003 m.tag 0 [])) ∧
            (d.power.pstate = .auxOnly → d.store.groups ≠ 3 → Ends (.fwLoad req (some img)) s (fun t => t.dev.mbx.status = 0 ∧
              t.dev.mbx.busy = false ∧ t.dev.power.pstate = .mgmtUp ∧ t.dev.power.kolti = true ∧ t.dev.sec.serving = bytes ∧
              t.dev.health.verServing = v ∧ (t.dev.health.standbyOk = true ↔ d.store.groups = 0) ∧
              t.dev.health.servingB = d.store.groups.getLsbD 0 ∧ t.dev.evt.groupB = d.store.groups.getLsbD 0 ∧ t.dev.store = d.store ∧
              t.mem = s.mem ∧ t.pending = s.pending)))))

/-- UNLOCK_CHALLENGE stores the nonce it answers. UNLOCK uses up the nonce: refused, it gives its status; else its scopes, if it names any, open until the end of its seconds. RELOCK closes every scope. A nonce 60 s old is none, a younger one stays; an expired scope leaves the grants whose end has come, and no other grant and no other scope changes. A CHANGE out of range, out of sequence or for another device, not signed by both authorities, or barred by the state gets its status and changes nothing; else PROT_SEQ rises by 1 and the setting is in force. -/
def Obligations.DebugAndProtectionFollowTheirAuthorities : Prop :=
  ∀ s : State,
    let d := s.dev
    let answered := fun (x : Dev) (type tag st : Nat) (body : List Byte) (t : State) =>
      t = { s with dev := { x with
        host := t.dev.host, out := t.dev.out
        mbx := { d.mbx with
          busy := false, done := true, status := BitVec.ofNat 16 st
          cntRefused := d.mbx.cntRefused + (if st = 0 then 0 else 1) } } } ∧
      (.msix 6 ∈ t.dev.out ∨ t.dev.host.msixPending.getLsbD 6 = true) ∧
      .hostWrite d.mbx.rspAddr.toNat (toLe 2 type ++ toLe 2 st ++ toLe 4 body.length ++ toLe 4 tag ++ toLe 4 0 ++ body) ∈ t.dev.out
    let sec := fun (x : Security) => { d with sec := x }
    (∀ n tick, d.sec.nonce = some (n, tick) →
      (60000000000 ≤ elapsed d.phys tick → Ends .unlockNonceExpiry s (fun t => t = { s with dev := sec { d.sec with nonce := none } })) ∧
      (elapsed d.phys tick < 60000000000 → Ends .unlockNonceExpiry s (fun t => t = s))) ∧
    (d.sec.nonce = none → Ends .unlockNonceExpiry s (fun t => t = s)) ∧
    (∀ scope : Fin 8, Ends (.debugScopeExpiry scope) s (fun t => t = { s with dev := sec { d.sec with scopes := t.dev.sec.scopes } } ∧
      t.dev.sec.scopes.filter (fun g => g.1.getLsbD scope.val) =
        d.sec.scopes.filter (fun g => g.1.getLsbD scope.val && decide (2 ^ 63 ≤ elapsed d.phys g.2.2)) ∧
      ∀ k, k < 8 → k ≠ scope.val → (t.dev.sec.scopes.filter (fun g => g.1.getLsbD k)).map (fun g => g.2) =
        (d.sec.scopes.filter (fun g => g.1.getLsbD k)).map (fun g => g.2))) ∧
    (d.mailboxServed = true → d.mbx.aligned = true → d.power.identityBad = false → d.isRunning .security = true →
      (∀ tag : W32,
        Ends (.unlockChallenge tag) s (fun t => ∃ nonce body, body.length = 32 ∧ nonce = BitVec.ofNat 256 (leNat body) ∧
          answered { d with draws := d.draws + 4, sec := { d.sec with nonce := some (nonce, d.phys) } } 0x0010 tag.toNat 0 body t) ∧
        Ends (.relock tag) s (answered (sec { d.sec with scopes := [] }) 0x0012 tag.toNat 0 [])) ∧
      (∀ req, let m := { msgOf req with type := 0x0011 }
        m.headerOk = true →
          (∀ st, d.unlockBad m = some st → Ends (.unlock req) s (answered (sec { d.sec with nonce := none }) 0x0011 m.tag st [])) ∧
          (d.unlockBad m = none → Ends (.unlock req) s (answered (sec { d.sec with
            nonce := none
            scopes := d.sec.scopes ++ (if m.b 48 1 = 0 then []
              else [(BitVec.ofNat 8 (m.b 48 1), m.b 49 1, d.phys + BitVec.ofNat 64 (m.b 52 4 * 1000000000))]) })
            0x0011 m.tag 0 []))) ∧
      (∀ req, let m := { msgOf req with type := 0x0021 }
        let item := m.b 24 1
        let n := m.b 28 4
        let v := m.body 40 n
        let part := m.bytes.take (56 + n)
        let bad := req.length ≠ 16 + 40 + n + 2560 ∨ m.b 25 3 ≠ 0 ∨ m.b 34 6 ≠ 0 ∨ 7 < m.b 32 1 ∨ 7 < m.b 33 1 ∨ settingOk item v = false
        let other := m.b 0 8 ≠ (d.store.protSeq + 1).toNat ∨ m.body 8 16 ≠ deviceId
        let signed := d.signedAs .operator (m.b 32 1) part (m.body (40 + n) 1280) = true ∧
          d.signedAs .custodian (m.b 33 1) part (m.body (40 + n + 1280) 1280) = true
        m.headerOk = true →
          (bad → Ends (.change req) s (answered d 0x0021 m.tag 1 [])) ∧
          (¬ bad → other → Ends (.change req) s (answered d 0x0021 m.tag 3 [])) ∧
          (¬ bad → ¬ other → ¬ signed → Ends (.change req) s (answered d 0x0021 m.tag 2 [])) ∧
          (¬ bad → ¬ other → signed → d.settingBarred item v = true → Ends (.change req) s (answered d 0x0021 m.tag 4 [])) ∧
          (¬ bad → ¬ other → signed → d.settingBarred item v = false → Ends (.change req) s (fun t =>
            answered { d with ports := t.dev.ports, sec := t.dev.sec, store := t.dev.store, xbar := t.dev.xbar } 0x0021 m.tag 0 [] t ∧
            t.dev.store.protSeq = d.store.protSeq + 1 ∧
            (item = 3 → t.dev.store.regionPolicy = BitVec.ofNat 2 (leNat v) ∧ (leNat v % 2 = 0 → ∀ i g, Tbl.look t.dev.xbar.regions i = some g →
              rgnXsite g = true → rgnValid g = false)) ∧
            (item = 4 → t.dev.store.isolation = BitVec.ofNat 2 (leNat v)) ∧
            (item = 5 → t.dev.store.siteMarks = BitVec.ofNat 48 (leNat v)) ∧
            (item = 6 → (t.dev.store.ideRequired = true ↔ leNat v % 2 = 1)) ∧
            (item ≠ 1 → t.dev.store.authorities = d.store.authorities) ∧ (item ≠ 2 → t.dev.store.debugKeys = d.store.debugKeys) ∧
            (item = 1 → ∀ r, 1 ≤ r → r ≤ 3 → ∃ i, i < 8 ∧ (Tbl.look t.dev.store.authorities (r * 8 + i)).isSome = true)))))

/-- A started op under its chapter's conditions alone answers a next state with its own effect. FENCE with what it covers completed, TALLY_WAIT whose condition holds in time, SKIP_IF, and REPEAT_BY with a count of 0 are done OK; REPEAT_BY of a waiting body starts its loop. ASSAY, SLUICE, COMBINE and COPY are done with their stores made. RETURN_SLOT and RETURN_ACCUM with no landed row are done OK; with rows of other members they wait for an acknowledgement of each packet. HOIST, SETTLE and PLACE with no unit to move are done; else each unit to move is in motion. A remote op holds an OPID with its first chunks sent and awaited; a collective op has taken the next SEQ of its slot, and runs there or is done. -/
def Obligations.EveryKindOfOpCompletes : Prop :=
  ∀ (s : State) (r : RingNo) (c : W32) (e : Entry),
    let k := s.dev.claimOf r.val
    let ends := fun (cmd : Instr) (st : BitVec 16) (ws : List MemOp) => ∃ t, exec cmd s = .next t ∧ t.mem = s.mem.applyAll ws ∧
      ∃ e', t.dev.entry r.val c = some e' ∧ e'.phase = .done ∧ e'.res.status = st
    let runs := fun (t : State) => ∃ e', t.dev.entry r.val c = some e' ∧ e'.phase = .started
    (s.dev.op r.val c 0x01 = some e → s.dev.fenceMet r.val e = true → ends (.fence r c) 0 []) ∧
    (s.dev.op r.val c 0x03 = some e → let y := s.dev.tally (fld e.desc 16 2)
      let v := BitVec.ofNat 64 (fld e.desc 24 8)
      y.waiters = [] → (if fld e.desc 18 1 = 1 then y.count = v else v ≤ y.count) →
      (deadlineReached s.dev.now e.desc = false ∨ s.dev.fixedBits = true) → ends (.tallyWait r c) e.res.status []) ∧
    (∀ p, s.dev.op r.val c 0x05 = some e → s.dev.access r.val e 16 8 8 = .ok p →
      e.admitted (s.dev.deepNeeds [(p.addr, 8)] []) = true → ends (.skipIf r c) 0 []) ∧
    (∀ p, s.dev.op r.val c 0x04 = some e → (s.dev.ring r.val).loop = none → s.dev.access r.val e 16 4 4 = .ok p →
      e.admitted (s.dev.deepNeeds [(p.addr, 4)] []) = true → (s.dev.ring r.val).stopped = false →
      (s.dev.readNat s.mem p.addr 4 = 0 → (∀ i, ∀ w ∈ (s.dev.tally i).waiters, w.ring ≠ r.val ∨ w.count ≠ c) → ends (.repeatBy r c) 0 []) ∧
      (s.dev.readNat s.mem p.addr 4 ≠ 0 → (∀ x ∈ (s.dev.ring r.val).bodyOf e, x.phase = .waiting) → ∃ t, exec (.repeatBy r c) s = .next t ∧
        runs t ∧ ∃ l, (t.dev.ring r.val).loop = some l ∧ l.base = c ∧ l.trips = min (s.dev.readNat s.mem p.addr 4) (fld e.desc 24 4))) ∧
    (∀ (g : Grid) (ps : List (Nat × Span)), s.dev.op r.val c 0x20 = some e → s.dev.assayPlan s.mem r.val e = .ok (g, ps) →
      let ins := g :: (ps.filter (fun x => x.1 == 24)).map (fun x => x.2.grid x.1)
      let outs := (ps.filter (fun x => x.1 != 24)).map (fun x => x.2.grid x.1)
      s.dev.mustWaitAlways ins outs = false →
      e.admitted (s.dev.deepNeeds (s.dev.gridReads s.mem g ++ (ins.drop 1).map Grid.range) (outs.map Grid.range)) = true →
      (∀ x ∈ (s.dev.loadGrid s.mem g (assayOp e.desc).tokens (assayOp e.desc).experts).toList, x.bad = false) →
      ends (.assay r c) 0 (s.dev.assayWrites s.mem e g ps)) ∧
    (∀ ps : List (Nat × Span), s.dev.op r.val c 0x21 = some e → s.dev.sluicePlan r.val e = .ok ps →
      let gs := ps.map (fun x => x.2.grid x.1)
      let o := sluiceOp e.desc
      let tri := s.dev.sluiceTriple s.mem o (spanAddr ps 16)
      s.dev.mustWaitAlways (gs.take 1) (gs.drop 1) = false → e.admitted (s.dev.sluiceNeeds s.mem e ps) = true →
      (∀ n < o.tokens, o.tokenOk n ((List.range o.picks).map (tri n)) = true) →
      ends (.sluice r c) (if (o.run tri).dropped = [] then 0 else 0x1004) (s.dev.sluiceWrites s.mem e ps)) ∧
    (let returns := fun (opc : Nat) (cmd : Instr) => ∀ (t : BitVec 1024) (fmt : Nat) (rows : List (Nat × Nat × Nat)),
      s.dev.op r.val c opc = some e → (∀ y ∈ s.dev.shuttle.chans, ∀ x, y.2.ret = some x → ¬ (x.ring = r.val ∧ x.count = c)) →
      s.dev.returnPlan s.mem r.val e = .ok (t, fmt, rows) →
      let stride := fld e.desc 32 4
      let base := s.dev.cAddr r.val e 24
      let tile := fun (q : Nat × Nat × Nat) j => s.dev.tile s.mem { off := 24, base := base + q.1 * stride, slot := slotBytes fmt, tr := 1,
                                                                    tc := ceilDiv (xtHidden t) 128, fmt := fmt } (q.2.1 / 128) j 128 128
      e.admitted (s.dev.deepNeeds ([(s.dev.cAddr r.val e 16, 128), (xtWork t, 8), (xtLtag t, 8 * rows.length)] ++
        rows.flatMap (fun q => rowRanges (base + q.1 * stride) fmt (xtHidden t) q.2.1)) []) = true →
      (rows = [] → e.res = Result.ok → ends cmd 0 []) ∧
      (rows ≠ [] → (∀ q ∈ rows, tagOrigin q.2.2 ≠ s.dev.routing.log.toNat) →
        (∀ q ∈ rows, ∀ j < ceilDiv (xtHidden t) 128, (tile q j).bad = false) →
        s.dev.mustWaitAlways (((rows.map (fun q => q.1)).eraseDups).map (fun i =>
          span 24 (base + i * stride) (tensorSize fmt (rows.countP (fun q => q.1 == i)) (xtHidden t)))) [] = false →
        ∃ u, exec cmd s = .next u ∧ ∃ x, (u.dev.chan k (xtXch t)).ret = some x ∧ x.ring = r.val ∧ x.count = c ∧
          x.unacked.length = rows.length * rowPackets (landFmt (bits (fld e.desc 36 1) 7 6) fmt) (xtHidden t))
     returns 0x23 (.returnSlot r c) ∧ returns 0x24 (.returnAccum r c)) ∧
    (∀ (t : BitVec 1024) (b : Option Grid) (g : Grid), s.dev.op r.val c 0x25 = some e →
      s.dev.combinePlan s.mem r.val e = .ok (t, b, g) → s.dev.mustWaitAlways (slotGrid t :: b.toList) [g] = false →
      e.admitted (s.dev.deepNeeds (s.dev.combineReads s.mem r.val e t b) (s.dev.gridSlots g)) = true →
      (∀ n < g.tiles, s.dev.combineFed s.mem t b g n = none) → ends (.combine r c) 0 (s.dev.combineWrites s.mem e t b g)) ∧
    (let moves := fun (opc : Nat) (near : Bool) (cmd : Instr) => ∀ p : Place, s.dev.op r.val c opc = some e →
      s.dev.isRunning .hoist = true → s.dev.opMoving r.val c = false → s.dev.place r.val e 16 1 1 = .ok p → s.dev.obj p.num = some p.obj →
      (p.addr - p.obj.base) % p.obj.unitSize = 0 → p.obj.isLost = false →
      let lo := (p.addr - p.obj.base) / p.obj.unitSize
      let n := fld e.desc 24 4
      let units := ((List.range n).map (lo + ·)).filter (fun i => p.obj.isNear i != near)
      lo + n ≤ p.obj.units → p.obj.placement ≠ (if near then 1 else 0) → (∀ v ∈ p.obj.moves, v.unit < lo ∨ lo + n ≤ v.unit) →
      (units = [] → ends cmd e.res.status []) ∧
      (units ≠ [] → (near = true → ∀ k ∈ p.obj.dieList,
          (units.countP (fun i => p.obj.unitDie i == k)) * p.obj.chunks ≤ s.dev.nearLeft p.obj.claim k) → ∃ t, exec cmd s = .next t ∧
        ∃ o, t.dev.obj p.num = some o ∧ ∀ i ∈ units, ∃ v ∈ o.moves, v.unit = i ∧ v.toNear = near ∧ v.op = some (r.val, c))
     moves 0x30 true (.hoist r c) ∧ moves 0x31 false (.settle r c)) ∧
    (∀ o : Obj, s.dev.op r.val c 0x32 = some e →
      let n := bits (fld e.desc 16 4) 17 0
      let p := bits (fld e.desc 20 1) 7 6
      s.dev.obj n = some o → o.usable e = true → o.claim = k → s.dev.isRunning .hoist = true → s.dev.opMoving r.val c = false →
      o.isLost = false → o.placing = none → o.moves = [] →
      ((p = 0 ∧ ∀ i < o.units, o.isNear i = true) ∨ (p = 1 ∧ ∀ i < o.units, o.isNear i = false) ∨ p = 2 → ends (.place r c) e.res.status []) ∧
      (p = 1 → (∃ i < o.units, o.isNear i = true) → ∃ t, exec (.place r c) s = .next t ∧ ∃ o', t.dev.obj n = some o' ∧ o'.placement = 1 ∧
        o'.moves.map (fun v => v.unit) = (List.range o.units).filter o.isNear)) ∧
    (∀ p q : Place, let len := fld e.desc 32 8
      s.dev.op r.val c 0x33 = some e → s.dev.isRunning .hoist = true → bit (fld e.desc 40 1) 7 = false → len % 64 = 0 →
      s.dev.access r.val e 16 len 64 = .ok p → s.dev.access r.val e 24 len 64 = .ok q →
      (span 16 p.addr len).overlaps (span 24 q.addr len) = false → s.dev.mustWait e [span 16 p.addr len] [span 24 q.addr len] = false →
      e.admitted (s.dev.copyNeeds [(p.addr, len)] (q.addr, len)) = true →
      ends (.copy r c) 0 (s.dev.writeDev q.addr (s.dev.readDev s.mem p.addr len))) ∧
    (let remote := fun (opc kind : Nat) (cmd : Instr) => ∀ (p : RemPlan) (id : Nat), let d := s.dev.sweepRem
      d.op r.val c opc = some e → d.remOp r.val c = none → d.remChecks r.val e = .ok p →
      let ins := if kind = 1 then [span 16 p.place p.len] else []
      let outs := if kind = 2 ∨ (kind = 4 ∧ bit (fld e.desc 41 1) 7 = true) then [span 16 p.place p.len] else []
      d.mustWait e ins outs = false → e.admitted (d.deepNeeds (ins.map Grid.range) (outs.map Grid.range)) = true → d.freeOpid = some id →
      ∃ t, exec cmd s = .next t ∧ runs t ∧ ∃ o, t.dev.remById id = some o ∧ o.ring = r.val ∧ o.count = c ∧ o.kind = kind ∧
        o.waits = List.range o.sent ∧ o.sent = min o.chunks (min 1024 (4096 - (d.xbar.rem.map (fun q => q.waits.length)).sum))
     remote 0x40 1 (.remotePut r c) ∧ remote 0x41 2 (.remoteGet r c) ∧ remote 0x42 4 (.remoteAtomic r c)) ∧
    (∀ (g : Group) (tag : Nat), s.dev.collGroup r.val e = some g →
      g.op.filter (fun o => o.ring == r.val && o.count == c) = none → g.abortNext = false →
      (∀ q ∈ g.children s.dev.self ++ (g.parent s.dev.self).toList ++ (List.range g.members).map g.at, s.dev.named q = true) →
      let taken := fun (t : State) => ∃ g', t.dev.group (cSlot e) = some g' ∧ g'.entry = g.entry ∧ g'.seq = g.seq + 1
      let ins := if s.dev.collReads e g then [span 16 (s.dev.cAddr r.val e 16) (cCount e * packBytes (cIfmt e))] else []
      let out := span 24 (s.dev.cAddr r.val e 24) (cDst e g.members * packBytes (cOut e).fmt)
      let reduces := fun (opc : Nat) (cmd : Instr) => s.dev.op r.val c opc = some e → s.dev.collChecks r.val e g = .ok tag →
        g.isMember s.dev.self = true → s.dev.mustWait e ins [out] = false → e.admitted (s.dev.deepNeeds (ins.map Grid.range) [out.range]) = true →
        ∃ t, exec cmd s = .next t ∧ taken t ∧ ∃ e', t.dev.entry r.val c = some e' ∧ (e'.phase = .started ∨ e'.phase = .done)
      reduces 0x50 (.collAllreduce r c) ∧ reduces 0x51 (.collReduceScatter r c) ∧ reduces 0x52 (.collAllgather r c) ∧
      reduces 0x53 (.collBcastLine r c) ∧
      (s.dev.op r.val c 0x54 = some e → s.dev.isRunning .coll = true → s.dev.isRunning .time = true → s.dev.sendTag k = some tag →
        ∃ t, exec (.collBarrier r c) s = .next t ∧ taken t ∧ runs t ∧
          ((∀ x ∈ g.children s.dev.self, x ∈ g.arriveNext) → ∀ p, g.parent s.dev.self = some p →
            .message .arrive p [g.gid, (g.seq + 1).toNat] ∈ t.dev.out)))

/-- A packet under its chapter's conditions alone answers a next state with its own effect. Remote memory, the header in order: a PUT, a GET request and an atomic request that pass are served, a write standing in memory and an answer on its way in the ports; ACK, GET data, fetched value and NAK take their chunk off the op that awaits it. Shuttle, for a claim that its tag names: a COUNT is held for its DISPATCH, an ARMED is gathered, a REFUSE ends the DISPATCH, a row lands with its tag, a result lands, the last ACK ends a RETURN, and the ARM timeout ends a DISPATCH. Collectives, for the op of their SEQ: elements of a child land, results land in DST, a window is granted, a present marker is counted, an ABORT and a timeout end the op. -/
def Obligations.EveryKindOfPacketHasItsEffect : Prop :=
  ∀ (s : State) (k : Packet),
    let ended := fun (cmd : Instr) (r : Nat) (n : W32) (st : BitVec 16) => ∃ t, exec cmd s = .next t ∧
      ∃ e, t.dev.entry r n = some e ∧ e.phase = .done ∧ e.res.status = st
    (k.user = 2 → k.remOk = true →
      (∀ a o, k.rkind = 1 → s.dev.serveCheck k rgnWrite (k.payload.length - 16) = .ok (a, o) →
        ∃ t, exec (.putReceive k) s = .next t ∧ t.mem = s.mem.applyAll (s.dev.storeAt a (k.payload.drop 16)).2) ∧
      (∀ n a o, k.rkind = 2 → s.dev.serveCheck k rgnRead n = .ok (a, o) → ∃ t, exec (.getReqReceive k n) s = .next t ∧ t.mem = s.mem ∧
        t.dev.xbar.lastNak = s.dev.xbar.lastNak) ∧
      (∀ a o, let w := atomicWidth k.aop
        k.rkind = 4 → s.dev.serveCheck k rgnAtomic w = .ok (a, o) →
        ∃ t, exec (.atomicReqReceive k) s = .next t ∧ t.mem = s.mem.applyAll (s.dev.storeAt a (toLe w (atomicResult k.aop
          (leNat ((List.range w).map (fun i => s.dev.pendingByte s.mem (a + i)))) (k.p 16 8) (k.p 24 8)))).2) ∧
      (∀ (o : RemOp) (e : Entry), s.dev.remById k.opid = some o → s.dev.entry o.ring o.count = some e → e.phase = .started →
        k.retried = false → k.retrySeen = false → (k.roff - o.off) / 1536 ∈ o.waits →
        let took := fun (cmd : Instr) (ok : Result → Prop) (ws : List MemOp) => ∃ t, exec cmd s = .next t ∧ t.mem = s.mem.applyAll ws ∧
          (∃ e', t.dev.entry o.ring o.count = some e' ∧ ok e'.res) ∧ ∀ q, t.dev.remById o.id = some q → (k.roff - o.off) / 1536 ∉ q.waits
        (k.rkind = 6 → o.kind = 1 → took (.remoteAckReceive k) (fun x => x.status = e.res.status) []) ∧
        (k.rkind = 3 → o.kind = 2 → took (.getDataReceive k) (fun x => x.status = e.res.status)
          (s.dev.storeAt (o.place + 1536 * ((k.roff - o.off) / 1536)) ((k.payload.drop 16).take (o.chunk ((k.roff - o.off) / 1536)))).2) ∧
        (k.rkind = 5 → o.kind = 4 → took (.atomicRspReceive k) (fun x => x.status = e.res.status)
          (if o.fetch then (s.dev.storeAt o.place (slice k.payload 16 8)).2 else [])) ∧
        (k.rkind = 7 → classOf e.res.status < 3 → took (.remoteNakReceive k) (fun x => x.status = (if k.p 3 1 = 7 then 0x3003 else 0x3004)) []))) ∧
    (∀ c, s.dev.packetClaim k = some c →
      let y := s.dev.chan c k.xch
      (k.xOk 1 = true → y.disp = none → (∀ m, Tbl.look y.held k.slog = some m → m.whole = false) →
        ∃ t, exec (.shuttleCount k) s = .next t ∧ t.dev.chan c k.xch = { y with held := gather y.held k.slog k 16 }) ∧
      (∀ x, k.xOk 2 = true → y.disp = some x → s.dev.runs x.ring x.count = true → x.armed = false → x.cleared = [] → x.refusal = none →
        (∃ m ∈ s.dev.xMembers (xtSet x.table), ∀ q, Tbl.look x.counts m.1 = some q → q.whole = false) →
        ∃ t, exec (.shuttleArmed k) s = .next t ∧ (t.dev.chan c k.xch).disp = some { x with armedBy := gather x.armedBy k.slog k 0 }) ∧
      (∀ x e, k.xOk 6 = true → y.disp = some x → s.dev.entry x.ring x.count = some e → e.phase = .started →
        ended (.shuttleRefuse k) x.ring x.count 0x200A) ∧
      (∀ x pos, k.xOk 3 = true → y.disp = some x → x.position k.slog (k.p 8 2) (k.p 12 4) = some pos →
        let first := k.p 10 2
        let n := min (packetBlocks x.lf) (rowBlocks (xtHidden x.table) - first)
        let key := (k.slog, k.p 8 2, k.p 12 4, first)
        k.slog ≠ s.dev.routing.log.toNat → first % packetBlocks x.lf = 0 → n ≠ 0 → k.payload.length = 16 + n * blockBytes x.lf → key ∉ x.got →
        s.dev.runs x.ring x.count = true → x.armed = true → x.landed = false → x.rows = [] → (∀ a ∈ x.armedBy, a.1 ∈ x.cleared) →
        { x with got := x.got ++ [key] }.landingDone s.dev.routing.log.toNat = false → ∃ t, exec (.shuttleRows k) s = .next t ∧
          (t.dev.chan c k.xch).disp = some { x with got := x.got ++ [key] } ∧
          t.mem = s.mem.applyAll (((Work.of s).landBlocks (x.landBase (k.p 8 2)) x.lf (xtHidden x.table) pos first
            (wireBlocksOf x.lf n (k.payload.drop 16))).putTag x (k.p 8 2) pos (landTag k.slog (k.p 6 2) (k.p 5 1) k.xbatch false)).ops) ∧
      (∀ z w, y.res = some z →
        let fmt := k.p 12 4
        let n := (k.payload.length - 16) / blockBytes fmt
        let accum := bit (k.p 1 1) 4
        let key := k.p 6 2 * xtK z.table + k.p 5 1
        k.p 0 1 = 4 → bits (k.p 1 1) 3 0 = 0 → k.p 4 1 < 64 → k.p 5 1 < 16 → fmt = 1 ∨ fmt = 2 ∨ fmt = 5 ∨ fmt = 6 → n ≠ 0 →
        k.payload.length = 16 + n * blockBytes fmt → Tbl.look z.expect key = some w → z.armed = true → s.dev.staleBatch c z.batch = false →
        s.dev.staleBatch c k.xbatch = false → k.p 5 1 < xtK z.table → (if accum then xtAccbuf z.table else xtSlotbuf z.table) ≠ 0 →
        z.again key fmt k.slog (k.p 10 2) n = false → (∀ a ∈ z.tilesOf accum key (k.p 10 2) n, ((Work.of s).coded a.2).2 = false) →
        ∃ t, exec (.shuttleResult k) s = .next t ∧
          t.mem = s.mem.applyAll ((Work.of s).landResult z accum key w fmt (k.p 10 2) (wireBlocksOf fmt n (k.payload.drop 16))).ops) ∧
      (∀ q e, k.xOk 5 = true → y.disp = none → y.ret = some q → q.unacked = [(k.slog, slice k.payload 16 16)] →
        s.dev.entry q.ring q.count = some e → e.phase = .started → ended (.shuttleAck k) q.ring q.count e.res.status)) ∧
    (∀ (c : Fin 32) (ch : Fin 64) (x : Exch) (m : Nat × Nat) (e : Entry), (s.dev.chan c.val ch.val).disp = some x →
      (s.dev.xMembers (xtSet x.table)).find? (fun m => m.2 != s.dev.self &&
        !((Tbl.look x.counts m.1).any Counted.whole && (Tbl.look x.armedBy m.1).any Counted.whole)) = some m → s.dev.armPast x = true →
      s.dev.entry x.ring x.count = some e → e.phase = .started → classOf e.res.status < 3 →
      ended (.shuttleArmTimeout c ch) x.ring x.count 0x3005) ∧
    (∀ x : CollRun, s.dev.collGate k = .now x → k.retried = false → (∀ q ∈ x.o.held, (s.dev.addressed q).isSome = true) →
      (∀ q ∈ x.g.children s.dev.self ++ (x.g.parent s.dev.self).toList ++ (List.range x.g.members).map x.g.at, s.dev.named q = true) →
      let h := collHead k
      let data := k.payload.drop 32
      (∀ y, collKind k = 1 → hOpcode x.e.desc = 0x50 ∨ hOpcode x.e.desc = 0x51 → h.seg = x.o.seg → h.wire ≤ 4 → x.o.admitted = true →
        x.o.sentUp = 0 → x.o.seg < cSegments x.e → y ∈ x.g.children s.dev.self → y ≠ k.sphys → y ∉ x.o.present → Tbl.lookD x.o.land y [] = [] →
        ∃ t, exec (.collUpReceive k) s = .next t ∧ ∃ g o, t.dev.group x.slot = some g ∧ g.op = some o ∧ ∀ p, h.off ≤ p → p < h.off + h.elems →
          Tbl.look (Tbl.lookD o.land k.sphys []) p = ((decodeWire h.wire h.elems data)[p - h.off]?).map f64.rne) ∧
      (collKind k = 2 → let codes := downCodes x.e h.wire h.elems data
        ∃ t, exec (.collDownReceive k) s = .next t ∧ t.mem = s.mem.applyAll (s.dev.storeAt
          (s.dev.cAddr x.o.ring x.e 24 + x.target s.dev.self h * packBytes (cOut x.e).fmt) (codes.flatMap (toLe (packBytes (cOut x.e).fmt)))).2) ∧
      (collKind k = 3 → ∃ t, exec (.collWindowReceive k) s = .next t ∧ ∃ g, t.dev.group x.slot = some g ∧ ∀ o, g.op = some o →
        (o.window, o.windowSeg) = ((x.o.grant h.seg h.off).window, (x.o.grant h.seg h.off).windowSeg)) ∧
      (collKind k = 4 → ∃ t, exec (.collPresentReceive k) s = .next t ∧
        Tbl.lookD t.dev.coll.cnt 0x50 0 = Tbl.lookD s.dev.coll.cnt 0x50 0 + 1) ∧
      (collKind k = 5 → ended (.collAbortReceive k) x.o.ring x.o.count 0x3006)) ∧
    (∀ (slot : Fin 64) (x : CollRun), s.dev.collRun slot.val = some x → s.dev.past x.o.heard x.g.limit = true →
      ended (.collTimeout slot) x.o.ring x.o.count 0x3006)
end

