-- ==== Sys2Proof/Laws/Flits.lean ====
section
/-!
SUPPORT. The laws of little-endian fields, and the flit that the bytes of a flit spell (R271).
-/
namespace Sys2Proof.Machine

@[simp] theorem toLe_length (n v : Nat) : (toLe n v).length = n := by
  induction n generalizing v with
  | zero => rfl
  | succ n ih => simp [toLe, ih]

theorem leNat_toLe (n v : Nat) : leNat (toLe n v) = v % 256 ^ n := by
  induction n generalizing v with
  | zero => simp [toLe, leNat, Nat.mod_one]
  | succ n ih =>
    rw [toLe, leNat, ih, BitVec.toNat_ofNat, pow_succ' 256 n, Nat.mod_mul (x := v) (a := 256)]

theorem nth_append_right (a b : List Byte) (i : Nat) : nth (a ++ b) (a.length + i) 0 = nth b i 0 := by
  induction a with
  | nil => simp
  | cons x a ih => simpa [nth, Nat.add_right_comm _ 1] using ih

theorem nth_append_left (a b : List Byte) {i : Nat} (h : i < a.length) : nth (a ++ b) i 0 = nth a i 0 := by
  induction a generalizing i with
  | nil => simp at h
  | cons x a ih =>
    cases i with
    | zero => rfl
    | succ i => simpa [nth] using ih (by simpa using h)

theorem slice_append (a b : List Byte) : slice (a ++ b) a.length b.length = b := by
  have h : ∀ l : List Byte, (List.range l.length).map (fun i => nth l i 0) = l := by
    intro l
    induction l with
    | nil => rfl
    | cons x l ih => rw [List.length_cons, List.range_succ_eq_map]; simpa [nth, Function.comp_def] using ih
  simp only [slice, nth_append_right, h]

/-- The field of a list that a value was written into. -/
theorem fieldAt_toLe (a c : List Byte) (n v : Nat) : fieldAt (a ++ (toLe n v ++ c)) a.length n = v % 256 ^ n := by
  have : slice (a ++ (toLe n v ++ c)) a.length n = toLe n v := by
    rw [← List.append_assoc]
    refine Eq.trans (List.map_congr_left fun i hi => ?_) ((congrArg _ (toLe_length n v).symm).trans (slice_append a (toLe n v)))
    exact nth_append_left _ _ (by rw [List.length_append, toLe_length]; have := List.mem_range.mp hi; omega)
  rw [fieldAt, this, leNat_toLe]

theorem crc32_lt (l : List Byte) : crc32 l < 2 ^ 32 := by unfold crc32; exact BitVec.isLt _

/-- 252 bytes with their CRC make a good flit; with another number, a bad one. -/
theorem flitOf_crcOk (b : List Byte) (v : Nat) (h : b.length = 252) : (flitOf (b ++ toLe 4 v)).crcOk = (crc32 b == v % 2 ^ 32) := by
  have ht : (b ++ toLe 4 v).take 252 = b := by rw [← h, List.take_left]
  have hf : fieldAt (b ++ toLe 4 v) 252 4 = v % 2 ^ 32 := by
    have := fieldAt_toLe b [] 4 v
    rwa [List.append_nil, h] at this
  simp [flitOf, ht, hf, h]

/-- The bytes of a flit carry its CRC. -/
theorem Flit.crcOk_bytes (f : Flit) (h : f.data.length ≤ 240) : (flitOf f.bytes).crcOk = true := by
  unfold Flit.bytes
  dsimp only
  rw [flitOf_crcOk _ _ (by simp; omega), Nat.mod_eq_of_lt (crc32_lt _)]
  exact beq_self_eq_true _

end Sys2Proof.Machine
end

