-- ==== Sys2Proof/Laws/Memory.lean ====
section
/-!
SUPPORT. The laws of memory: every operation keeps the canonical form, a write is read back, and no other byte moves.
-/
namespace Sys2Proof.Machine

/-! ## The canonical form -/

/-- `lo`, where there is one, lies below `a`. -/
def Memory.below : Option Nat → Nat → Prop
  | none, _ => True
  | some l, a => l < a

theorem Memory.wfFrom_cons (lo : Option Nat) (a : Nat) (b : Byte) (m : Memory) :
    Memory.wfFrom lo ((a, b) :: m) = true ↔ Memory.below lo a ∧ b ≠ 0 ∧ Memory.wfFrom (some a) m = true := by
  cases lo <;> simp [Memory.wfFrom, Memory.below, and_assoc]

theorem Memory.wfFrom_mono {lo lo' : Option Nat} {m : Memory} (h : Memory.wfFrom lo m = true)
    (hb : ∀ a, Memory.below lo a → Memory.below lo' a) : Memory.wfFrom lo' m = true := by
  cases m with
  | nil => rfl
  | cons c m =>
    obtain ⟨a, b⟩ := c
    rw [Memory.wfFrom_cons] at h ⊢
    exact ⟨hb _ h.1, h.2⟩

theorem Memory.wfFrom_set {lo : Option Nat} {m : Memory} {a : Nat} {b : Byte} (h : Memory.wfFrom lo m = true)
    (hb : Memory.below lo a) : Memory.wfFrom lo (Memory.set m a b) = true := by
  induction m generalizing lo with
  | nil =>
    by_cases hz : b = 0
    · simp [Memory.set, hz, Memory.wfFrom]
    · rw [Memory.set, if_neg hz, Memory.wfFrom_cons]; exact ⟨hb, hz, rfl⟩
  | cons c m ih =>
    obtain ⟨i, c⟩ := c
    have h' := h
    rw [Memory.wfFrom_cons] at h'
    obtain ⟨h1, h2, h3⟩ := h'
    unfold Memory.set
    split_ifs with hlt hz heq hz
    · exact h
    · rw [Memory.wfFrom_cons, Memory.wfFrom_cons]; exact ⟨hb, hz, hlt, h2, h3⟩
    · subst heq
      refine Memory.wfFrom_mono h3 fun x hx => ?_
      cases lo with
      | none => trivial
      | some l => exact Nat.lt_trans h1 hx
    · subst heq; rw [Memory.wfFrom_cons]; exact ⟨h1, hz, h3⟩
    · rw [Memory.wfFrom_cons]
      exact ⟨h1, h2, ih h3 (show i < a by omega)⟩

theorem Memory.wf_set {m : Memory} (h : Memory.wf m = true) (a : Nat) (b : Byte) : Memory.wf (Memory.set m a b) = true :=
  Memory.wfFrom_set h trivial

theorem Memory.wf_write {m : Memory} (h : Memory.wf m = true) (a : Nat) (l : List Byte) : Memory.wf (Memory.write m a l) = true := by
  induction l generalizing m a with
  | nil => exact h
  | cons b l ih => exact ih (Memory.wf_set h a b) (a + 1)

theorem Memory.wfFrom_filter {lo : Option Nat} {m : Memory} (h : Memory.wfFrom lo m = true) (p : Host.Cell → Bool) :
    Memory.wfFrom lo (m.filter p) = true := by
  induction m generalizing lo with
  | nil => rfl
  | cons c m ih =>
    obtain ⟨a, b⟩ := c
    rw [Memory.wfFrom_cons] at h
    obtain ⟨h1, h2, h3⟩ := h
    rw [List.filter_cons]
    split
    · rw [Memory.wfFrom_cons]; exact ⟨h1, h2, ih h3⟩
    · refine Memory.wfFrom_mono (ih h3) fun x hx => ?_
      cases lo with
      | none => trivial
      | some l => exact Nat.lt_trans h1 hx

theorem Memory.wf_apply {m : Memory} (h : Memory.wf m = true) (w : MemOp) : Memory.wf (Memory.apply m w) = true := by
  cases w with
  | bytes k l => exact Memory.wf_write h k l
  | clear lo hi => exact Memory.wfFrom_filter h _

/-- Every run of changes keeps the canonical form. -/
theorem Memory.wf_applyAll {m : Memory} (h : Memory.wf m = true) (ws : List MemOp) : Memory.wf (Memory.applyAll m ws) = true := by
  induction ws generalizing m with
  | nil => exact h
  | cons w ws ih => exact ih (Memory.wf_apply h w)

@[simp] theorem Memory.applyAll_nil (m : Memory) : Memory.applyAll m [] = m := rfl

/-! ## Reading back -/

theorem Memory.get_of_below {lo : Nat} {m : Memory} (h : Memory.wfFrom (some lo) m = true) {a : Nat} (ha : a ≤ lo) :
    Memory.get m a = 0 := by
  induction m generalizing lo with
  | nil => rfl
  | cons c m ih =>
    obtain ⟨i, c⟩ := c
    rw [Memory.wfFrom_cons] at h
    obtain ⟨h1, _, h3⟩ := h
    have : i ≠ a := by have : lo < i := h1; omega
    rw [Memory.get, if_neg this]
    exact ih h3 (by have : lo < i := h1; omega)

theorem Memory.get_set_other (m : Memory) {a k : Nat} (b : Byte) (h : k ≠ a) : Memory.get (Memory.set m a b) k = Memory.get m k := by
  induction m with
  | nil =>
    unfold Memory.set
    split_ifs
    · rfl
    · simp [Memory.get, Ne.symm h]
  | cons c m ih =>
    obtain ⟨i, c⟩ := c
    unfold Memory.set
    split_ifs with hlt hz heq hz
    · rfl
    · rw [Memory.get, if_neg (Ne.symm h)]
    · subst heq; rw [Memory.get, if_neg (Ne.symm h)]
    · subst heq; simp only [Memory.get, if_neg (Ne.symm h)]
    · simp only [Memory.get, ih]

theorem Memory.get_set_same {lo : Option Nat} {m : Memory} (h : Memory.wfFrom lo m = true) (a : Nat) (b : Byte) :
    Memory.get (Memory.set m a b) a = b := by
  induction m generalizing lo with
  | nil =>
    unfold Memory.set
    split_ifs with hz
    · exact hz.symm
    · simp [Memory.get]
  | cons c m ih =>
    obtain ⟨i, c⟩ := c
    rw [Memory.wfFrom_cons] at h
    obtain ⟨h1, h2, h3⟩ := h
    unfold Memory.set
    split_ifs with hlt hz heq hz
    · rw [Memory.get, if_neg (by omega), hz]
      exact Memory.get_of_below h3 (Nat.le_of_lt hlt)
    · simp [Memory.get]
    · subst heq; rw [hz]; exact Memory.get_of_below h3 (Nat.le_refl _)
    · simp [Memory.get]
    · rw [Memory.get, if_neg heq]; exact ih h3

theorem Memory.get_write_other (m : Memory) (a : Nat) (l : List Byte) {k : Nat} (h : k < a ∨ a + l.length ≤ k) :
    Memory.get (Memory.write m a l) k = Memory.get m k := by
  induction l generalizing m a with
  | nil => rfl
  | cons b l ih =>
    simp only [List.length_cons] at h
    rw [Memory.write, ih _ _ (by omega), Memory.get_set_other _ _ (by omega)]

theorem Memory.get_write_same {m : Memory} (h : Memory.wf m = true) (a : Nat) (l : List Byte) {i : Nat} (hi : i < l.length) :
    Memory.get (Memory.write m a l) (a + i) = l[i] := by
  induction l generalizing m a i with
  | nil => simp at hi
  | cons b l ih =>
    cases i with
    | zero =>
      rw [Memory.write, Memory.get_write_other _ _ _ (by omega)]
      exact Memory.get_set_same (lo := none) h a b
    | succ i =>
      rw [Memory.write]
      have := ih (Memory.wf_set h a b) (a + 1) (i := i) (by simpa using hi)
      rw [show a + (i + 1) = a + 1 + i by omega, this]
      simp

theorem Memory.get_filter_other (m : Memory) (p : Host.Cell → Bool) (k : Nat) (h : ∀ b, p (k, b) = true) :
    Memory.get (m.filter p) k = Memory.get m k := by
  induction m with
  | nil => rfl
  | cons c m ih =>
    obtain ⟨i, b⟩ := c
    rw [List.filter_cons]
    by_cases hk : i = k
    · subst hk; simp [h, Memory.get]
    · split
      · simp only [Memory.get, if_neg hk, ih]
      · rw [Memory.get, if_neg hk, ih]

theorem Memory.get_apply_spares (m : Memory) (w : MemOp) {k : Nat} (h : w.spares k) : Memory.get (Memory.apply m w) k = Memory.get m k := by
  cases w with
  | bytes a l => exact Memory.get_write_other m a l h
  | clear lo hi =>
    refine Memory.get_filter_other m _ k fun b => ?_
    have h' : k < lo ∨ hi ≤ k := h
    simpa using h'

/-- Changes that name no byte of `k` leave it. -/
theorem Memory.get_applyAll_spares (m : Memory) (ws : List MemOp) {k : Nat} (h : ∀ w ∈ ws, w.spares k) :
    Memory.get (Memory.applyAll m ws) k = Memory.get m k := by
  induction ws generalizing m with
  | nil => rfl
  | cons w ws ih =>
    rw [Memory.applyAll, ih _ fun v hv => h v (by simp [hv]), Memory.get_apply_spares m w (h w (by simp))]

end Sys2Proof.Machine
end

