-- ==== Sys2Proof/Laws/State.lean ====
section
/-!
SUPPORT. What each plain update of the device leaves: one law for each field, each by unfolding the update.
-/
namespace Sys2Proof.Machine

variable (d : Dev)

/-! ## setDie -/

@[simp] theorem Dev.setDie_now (n : Nat) (x : Die) : (d.setDie n x).now = d.now := rfl
@[simp] theorem Dev.setDie_skew (n : Nat) (x : Die) : (d.setDie n x).skew = d.skew := rfl
@[simp] theorem Dev.setDie_power (n : Nat) (x : Die) : (d.setDie n x).power = d.power := rfl
@[simp] theorem Dev.setDie_cap (n : Nat) (x : Die) : (d.setDie n x).cap = d.cap := rfl
@[simp] theorem Dev.setDie_host (n : Nat) (x : Die) : (d.setDie n x).host = d.host := rfl
@[simp] theorem Dev.setDie_blocks (n : Nat) (x : Die) : (d.setDie n x).blocks = d.blocks := rfl
@[simp] theorem Dev.setDie_ringSel (n : Nat) (x : Die) : (d.setDie n x).ringSel = d.ringSel := rfl
@[simp] theorem Dev.setDie_epochClaim (n : Nat) (x : Die) : (d.setDie n x).epochClaim = d.epochClaim := rfl
@[simp] theorem Dev.setDie_epochSlot (n : Nat) (x : Die) : (d.setDie n x).epochSlot = d.epochSlot := rfl
@[simp] theorem Dev.setDie_rings (n : Nat) (x : Die) : (d.setDie n x).rings = d.rings := rfl
@[simp] theorem Dev.setDie_tallies (n : Nat) (x : Die) : (d.setDie n x).tallies = d.tallies := rfl
@[simp] theorem Dev.setDie_claims (n : Nat) (x : Die) : (d.setDie n x).claims = d.claims := rfl
@[simp] theorem Dev.setDie_frames (n : Nat) (x : Die) : (d.setDie n x).frames = d.frames := rfl
@[simp] theorem Dev.setDie_objects (n : Nat) (x : Die) : (d.setDie n x).objects = d.objects := rfl
@[simp] theorem Dev.setDie_hoist (n : Nat) (x : Die) : (d.setDie n x).hoist = d.hoist := rfl
@[simp] theorem Dev.setDie_health (n : Nat) (x : Die) : (d.setDie n x).health = d.health := rfl
@[simp] theorem Dev.setDie_store (n : Nat) (x : Die) : (d.setDie n x).store = d.store := rfl
@[simp] theorem Dev.setDie_mbx (n : Nat) (x : Die) : (d.setDie n x).mbx = d.mbx := rfl
@[simp] theorem Dev.setDie_sec (n : Nat) (x : Die) : (d.setDie n x).sec = d.sec := rfl
@[simp] theorem Dev.setDie_ports (n : Nat) (x : Die) : (d.setDie n x).ports = d.ports := rfl
@[simp] theorem Dev.setDie_routing (n : Nat) (x : Die) : (d.setDie n x).routing = d.routing := rfl
@[simp] theorem Dev.setDie_xbar (n : Nat) (x : Die) : (d.setDie n x).xbar = d.xbar := rfl
@[simp] theorem Dev.setDie_coll (n : Nat) (x : Die) : (d.setDie n x).coll = d.coll := rfl
@[simp] theorem Dev.setDie_time (n : Nat) (x : Die) : (d.setDie n x).time = d.time := rfl
@[simp] theorem Dev.setDie_evt (n : Nat) (x : Die) : (d.setDie n x).evt = d.evt := rfl
@[simp] theorem Dev.setDie_shuttle (n : Nat) (x : Die) : (d.setDie n x).shuttle = d.shuttle := rfl
@[simp] theorem Dev.setDie_dozeAborted (n : Nat) (x : Die) : (d.setDie n x).dozeAborted = d.dozeAborted := rfl
@[simp] theorem Dev.setDie_fixedBits (n : Nat) (x : Die) : (d.setDie n x).fixedBits = d.fixedBits := rfl
@[simp] theorem Dev.setDie_fixedPace (n : Nat) (x : Die) : (d.setDie n x).fixedPace = d.fixedPace := rfl
@[simp] theorem Dev.setDie_started (n : Nat) (x : Die) : (d.setDie n x).started = d.started := rfl
@[simp] theorem Dev.setDie_turns (n : Nat) (x : Die) : (d.setDie n x).turns = d.turns := rfl
@[simp] theorem Dev.setDie_capGen (n : Nat) (x : Die) : (d.setDie n x).capGen = d.capGen := rfl
@[simp] theorem Dev.setDie_capFinal (n : Nat) (x : Die) : (d.setDie n x).capFinal = d.capFinal := rfl
@[simp] theorem Dev.setDie_capTick (n : Nat) (x : Die) : (d.setDie n x).capTick = d.capTick := rfl
@[simp] theorem Dev.setDie_draws (n : Nat) (x : Die) : (d.setDie n x).draws = d.draws := rfl
@[simp] theorem Dev.setDie_out (n : Nat) (x : Die) : (d.setDie n x).out = d.out := rfl

/-! ## modDie -/

@[simp] theorem Dev.modDie_now (n : Nat) (f : Die → Die) : (d.modDie n f).now = d.now := rfl
@[simp] theorem Dev.modDie_skew (n : Nat) (f : Die → Die) : (d.modDie n f).skew = d.skew := rfl
@[simp] theorem Dev.modDie_power (n : Nat) (f : Die → Die) : (d.modDie n f).power = d.power := rfl
@[simp] theorem Dev.modDie_cap (n : Nat) (f : Die → Die) : (d.modDie n f).cap = d.cap := rfl
@[simp] theorem Dev.modDie_host (n : Nat) (f : Die → Die) : (d.modDie n f).host = d.host := rfl
@[simp] theorem Dev.modDie_blocks (n : Nat) (f : Die → Die) : (d.modDie n f).blocks = d.blocks := rfl
@[simp] theorem Dev.modDie_ringSel (n : Nat) (f : Die → Die) : (d.modDie n f).ringSel = d.ringSel := rfl
@[simp] theorem Dev.modDie_epochClaim (n : Nat) (f : Die → Die) : (d.modDie n f).epochClaim = d.epochClaim := rfl
@[simp] theorem Dev.modDie_epochSlot (n : Nat) (f : Die → Die) : (d.modDie n f).epochSlot = d.epochSlot := rfl
@[simp] theorem Dev.modDie_rings (n : Nat) (f : Die → Die) : (d.modDie n f).rings = d.rings := rfl
@[simp] theorem Dev.modDie_tallies (n : Nat) (f : Die → Die) : (d.modDie n f).tallies = d.tallies := rfl
@[simp] theorem Dev.modDie_claims (n : Nat) (f : Die → Die) : (d.modDie n f).claims = d.claims := rfl
@[simp] theorem Dev.modDie_frames (n : Nat) (f : Die → Die) : (d.modDie n f).frames = d.frames := rfl
@[simp] theorem Dev.modDie_objects (n : Nat) (f : Die → Die) : (d.modDie n f).objects = d.objects := rfl
@[simp] theorem Dev.modDie_hoist (n : Nat) (f : Die → Die) : (d.modDie n f).hoist = d.hoist := rfl
@[simp] theorem Dev.modDie_health (n : Nat) (f : Die → Die) : (d.modDie n f).health = d.health := rfl
@[simp] theorem Dev.modDie_store (n : Nat) (f : Die → Die) : (d.modDie n f).store = d.store := rfl
@[simp] theorem Dev.modDie_mbx (n : Nat) (f : Die → Die) : (d.modDie n f).mbx = d.mbx := rfl
@[simp] theorem Dev.modDie_sec (n : Nat) (f : Die → Die) : (d.modDie n f).sec = d.sec := rfl
@[simp] theorem Dev.modDie_ports (n : Nat) (f : Die → Die) : (d.modDie n f).ports = d.ports := rfl
@[simp] theorem Dev.modDie_routing (n : Nat) (f : Die → Die) : (d.modDie n f).routing = d.routing := rfl
@[simp] theorem Dev.modDie_xbar (n : Nat) (f : Die → Die) : (d.modDie n f).xbar = d.xbar := rfl
@[simp] theorem Dev.modDie_coll (n : Nat) (f : Die → Die) : (d.modDie n f).coll = d.coll := rfl
@[simp] theorem Dev.modDie_time (n : Nat) (f : Die → Die) : (d.modDie n f).time = d.time := rfl
@[simp] theorem Dev.modDie_evt (n : Nat) (f : Die → Die) : (d.modDie n f).evt = d.evt := rfl
@[simp] theorem Dev.modDie_shuttle (n : Nat) (f : Die → Die) : (d.modDie n f).shuttle = d.shuttle := rfl
@[simp] theorem Dev.modDie_dozeAborted (n : Nat) (f : Die → Die) : (d.modDie n f).dozeAborted = d.dozeAborted := rfl
@[simp] theorem Dev.modDie_fixedBits (n : Nat) (f : Die → Die) : (d.modDie n f).fixedBits = d.fixedBits := rfl
@[simp] theorem Dev.modDie_fixedPace (n : Nat) (f : Die → Die) : (d.modDie n f).fixedPace = d.fixedPace := rfl
@[simp] theorem Dev.modDie_started (n : Nat) (f : Die → Die) : (d.modDie n f).started = d.started := rfl
@[simp] theorem Dev.modDie_turns (n : Nat) (f : Die → Die) : (d.modDie n f).turns = d.turns := rfl
@[simp] theorem Dev.modDie_capGen (n : Nat) (f : Die → Die) : (d.modDie n f).capGen = d.capGen := rfl
@[simp] theorem Dev.modDie_capFinal (n : Nat) (f : Die → Die) : (d.modDie n f).capFinal = d.capFinal := rfl
@[simp] theorem Dev.modDie_capTick (n : Nat) (f : Die → Die) : (d.modDie n f).capTick = d.capTick := rfl
@[simp] theorem Dev.modDie_draws (n : Nat) (f : Die → Die) : (d.modDie n f).draws = d.draws := rfl
@[simp] theorem Dev.modDie_out (n : Nat) (f : Die → Die) : (d.modDie n f).out = d.out := rfl

/-! ## setRing -/

@[simp] theorem Dev.setRing_now (n : Nat) (x : Ring) : (d.setRing n x).now = d.now := rfl
@[simp] theorem Dev.setRing_skew (n : Nat) (x : Ring) : (d.setRing n x).skew = d.skew := rfl
@[simp] theorem Dev.setRing_power (n : Nat) (x : Ring) : (d.setRing n x).power = d.power := rfl
@[simp] theorem Dev.setRing_dies (n : Nat) (x : Ring) : (d.setRing n x).dies = d.dies := rfl
@[simp] theorem Dev.setRing_cap (n : Nat) (x : Ring) : (d.setRing n x).cap = d.cap := rfl
@[simp] theorem Dev.setRing_host (n : Nat) (x : Ring) : (d.setRing n x).host = d.host := rfl
@[simp] theorem Dev.setRing_blocks (n : Nat) (x : Ring) : (d.setRing n x).blocks = d.blocks := rfl
@[simp] theorem Dev.setRing_ringSel (n : Nat) (x : Ring) : (d.setRing n x).ringSel = d.ringSel := rfl
@[simp] theorem Dev.setRing_epochClaim (n : Nat) (x : Ring) : (d.setRing n x).epochClaim = d.epochClaim := rfl
@[simp] theorem Dev.setRing_epochSlot (n : Nat) (x : Ring) : (d.setRing n x).epochSlot = d.epochSlot := rfl
@[simp] theorem Dev.setRing_tallies (n : Nat) (x : Ring) : (d.setRing n x).tallies = d.tallies := rfl
@[simp] theorem Dev.setRing_claims (n : Nat) (x : Ring) : (d.setRing n x).claims = d.claims := rfl
@[simp] theorem Dev.setRing_frames (n : Nat) (x : Ring) : (d.setRing n x).frames = d.frames := rfl
@[simp] theorem Dev.setRing_objects (n : Nat) (x : Ring) : (d.setRing n x).objects = d.objects := rfl
@[simp] theorem Dev.setRing_hoist (n : Nat) (x : Ring) : (d.setRing n x).hoist = d.hoist := rfl
@[simp] theorem Dev.setRing_health (n : Nat) (x : Ring) : (d.setRing n x).health = d.health := rfl
@[simp] theorem Dev.setRing_store (n : Nat) (x : Ring) : (d.setRing n x).store = d.store := rfl
@[simp] theorem Dev.setRing_mbx (n : Nat) (x : Ring) : (d.setRing n x).mbx = d.mbx := rfl
@[simp] theorem Dev.setRing_sec (n : Nat) (x : Ring) : (d.setRing n x).sec = d.sec := rfl
@[simp] theorem Dev.setRing_ports (n : Nat) (x : Ring) : (d.setRing n x).ports = d.ports := rfl
@[simp] theorem Dev.setRing_routing (n : Nat) (x : Ring) : (d.setRing n x).routing = d.routing := rfl
@[simp] theorem Dev.setRing_xbar (n : Nat) (x : Ring) : (d.setRing n x).xbar = d.xbar := rfl
@[simp] theorem Dev.setRing_coll (n : Nat) (x : Ring) : (d.setRing n x).coll = d.coll := rfl
@[simp] theorem Dev.setRing_time (n : Nat) (x : Ring) : (d.setRing n x).time = d.time := rfl
@[simp] theorem Dev.setRing_evt (n : Nat) (x : Ring) : (d.setRing n x).evt = d.evt := rfl
@[simp] theorem Dev.setRing_shuttle (n : Nat) (x : Ring) : (d.setRing n x).shuttle = d.shuttle := rfl
@[simp] theorem Dev.setRing_dozeAborted (n : Nat) (x : Ring) : (d.setRing n x).dozeAborted = d.dozeAborted := rfl
@[simp] theorem Dev.setRing_fixedBits (n : Nat) (x : Ring) : (d.setRing n x).fixedBits = d.fixedBits := rfl
@[simp] theorem Dev.setRing_fixedPace (n : Nat) (x : Ring) : (d.setRing n x).fixedPace = d.fixedPace := rfl
@[simp] theorem Dev.setRing_started (n : Nat) (x : Ring) : (d.setRing n x).started = d.started := rfl
@[simp] theorem Dev.setRing_turns (n : Nat) (x : Ring) : (d.setRing n x).turns = d.turns := rfl
@[simp] theorem Dev.setRing_capGen (n : Nat) (x : Ring) : (d.setRing n x).capGen = d.capGen := rfl
@[simp] theorem Dev.setRing_capFinal (n : Nat) (x : Ring) : (d.setRing n x).capFinal = d.capFinal := rfl
@[simp] theorem Dev.setRing_capTick (n : Nat) (x : Ring) : (d.setRing n x).capTick = d.capTick := rfl
@[simp] theorem Dev.setRing_draws (n : Nat) (x : Ring) : (d.setRing n x).draws = d.draws := rfl
@[simp] theorem Dev.setRing_out (n : Nat) (x : Ring) : (d.setRing n x).out = d.out := rfl

/-! ## modRing -/

@[simp] theorem Dev.modRing_now (n : Nat) (f : Ring → Ring) : (d.modRing n f).now = d.now := rfl
@[simp] theorem Dev.modRing_skew (n : Nat) (f : Ring → Ring) : (d.modRing n f).skew = d.skew := rfl
@[simp] theorem Dev.modRing_power (n : Nat) (f : Ring → Ring) : (d.modRing n f).power = d.power := rfl
@[simp] theorem Dev.modRing_dies (n : Nat) (f : Ring → Ring) : (d.modRing n f).dies = d.dies := rfl
@[simp] theorem Dev.modRing_cap (n : Nat) (f : Ring → Ring) : (d.modRing n f).cap = d.cap := rfl
@[simp] theorem Dev.modRing_host (n : Nat) (f : Ring → Ring) : (d.modRing n f).host = d.host := rfl
@[simp] theorem Dev.modRing_blocks (n : Nat) (f : Ring → Ring) : (d.modRing n f).blocks = d.blocks := rfl
@[simp] theorem Dev.modRing_ringSel (n : Nat) (f : Ring → Ring) : (d.modRing n f).ringSel = d.ringSel := rfl
@[simp] theorem Dev.modRing_epochClaim (n : Nat) (f : Ring → Ring) : (d.modRing n f).epochClaim = d.epochClaim := rfl
@[simp] theorem Dev.modRing_epochSlot (n : Nat) (f : Ring → Ring) : (d.modRing n f).epochSlot = d.epochSlot := rfl
@[simp] theorem Dev.modRing_tallies (n : Nat) (f : Ring → Ring) : (d.modRing n f).tallies = d.tallies := rfl
@[simp] theorem Dev.modRing_claims (n : Nat) (f : Ring → Ring) : (d.modRing n f).claims = d.claims := rfl
@[simp] theorem Dev.modRing_frames (n : Nat) (f : Ring → Ring) : (d.modRing n f).frames = d.frames := rfl
@[simp] theorem Dev.modRing_objects (n : Nat) (f : Ring → Ring) : (d.modRing n f).objects = d.objects := rfl
@[simp] theorem Dev.modRing_hoist (n : Nat) (f : Ring → Ring) : (d.modRing n f).hoist = d.hoist := rfl
@[simp] theorem Dev.modRing_health (n : Nat) (f : Ring → Ring) : (d.modRing n f).health = d.health := rfl
@[simp] theorem Dev.modRing_store (n : Nat) (f : Ring → Ring) : (d.modRing n f).store = d.store := rfl
@[simp] theorem Dev.modRing_mbx (n : Nat) (f : Ring → Ring) : (d.modRing n f).mbx = d.mbx := rfl
@[simp] theorem Dev.modRing_sec (n : Nat) (f : Ring → Ring) : (d.modRing n f).sec = d.sec := rfl
@[simp] theorem Dev.modRing_ports (n : Nat) (f : Ring → Ring) : (d.modRing n f).ports = d.ports := rfl
@[simp] theorem Dev.modRing_routing (n : Nat) (f : Ring → Ring) : (d.modRing n f).routing = d.routing := rfl
@[simp] theorem Dev.modRing_xbar (n : Nat) (f : Ring → Ring) : (d.modRing n f).xbar = d.xbar := rfl
@[simp] theorem Dev.modRing_coll (n : Nat) (f : Ring → Ring) : (d.modRing n f).coll = d.coll := rfl
@[simp] theorem Dev.modRing_time (n : Nat) (f : Ring → Ring) : (d.modRing n f).time = d.time := rfl
@[simp] theorem Dev.modRing_evt (n : Nat) (f : Ring → Ring) : (d.modRing n f).evt = d.evt := rfl
@[simp] theorem Dev.modRing_shuttle (n : Nat) (f : Ring → Ring) : (d.modRing n f).shuttle = d.shuttle := rfl
@[simp] theorem Dev.modRing_dozeAborted (n : Nat) (f : Ring → Ring) : (d.modRing n f).dozeAborted = d.dozeAborted := rfl
@[simp] theorem Dev.modRing_fixedBits (n : Nat) (f : Ring → Ring) : (d.modRing n f).fixedBits = d.fixedBits := rfl
@[simp] theorem Dev.modRing_fixedPace (n : Nat) (f : Ring → Ring) : (d.modRing n f).fixedPace = d.fixedPace := rfl
@[simp] theorem Dev.modRing_started (n : Nat) (f : Ring → Ring) : (d.modRing n f).started = d.started := rfl
@[simp] theorem Dev.modRing_turns (n : Nat) (f : Ring → Ring) : (d.modRing n f).turns = d.turns := rfl
@[simp] theorem Dev.modRing_capGen (n : Nat) (f : Ring → Ring) : (d.modRing n f).capGen = d.capGen := rfl
@[simp] theorem Dev.modRing_capFinal (n : Nat) (f : Ring → Ring) : (d.modRing n f).capFinal = d.capFinal := rfl
@[simp] theorem Dev.modRing_capTick (n : Nat) (f : Ring → Ring) : (d.modRing n f).capTick = d.capTick := rfl
@[simp] theorem Dev.modRing_draws (n : Nat) (f : Ring → Ring) : (d.modRing n f).draws = d.draws := rfl
@[simp] theorem Dev.modRing_out (n : Nat) (f : Ring → Ring) : (d.modRing n f).out = d.out := rfl

/-! ## setClaim -/

@[simp] theorem Dev.setClaim_now (n : Nat) (x : Claim) : (d.setClaim n x).now = d.now := rfl
@[simp] theorem Dev.setClaim_skew (n : Nat) (x : Claim) : (d.setClaim n x).skew = d.skew := rfl
@[simp] theorem Dev.setClaim_power (n : Nat) (x : Claim) : (d.setClaim n x).power = d.power := rfl
@[simp] theorem Dev.setClaim_dies (n : Nat) (x : Claim) : (d.setClaim n x).dies = d.dies := rfl
@[simp] theorem Dev.setClaim_cap (n : Nat) (x : Claim) : (d.setClaim n x).cap = d.cap := rfl
@[simp] theorem Dev.setClaim_host (n : Nat) (x : Claim) : (d.setClaim n x).host = d.host := rfl
@[simp] theorem Dev.setClaim_blocks (n : Nat) (x : Claim) : (d.setClaim n x).blocks = d.blocks := rfl
@[simp] theorem Dev.setClaim_ringSel (n : Nat) (x : Claim) : (d.setClaim n x).ringSel = d.ringSel := rfl
@[simp] theorem Dev.setClaim_epochClaim (n : Nat) (x : Claim) : (d.setClaim n x).epochClaim = d.epochClaim := rfl
@[simp] theorem Dev.setClaim_epochSlot (n : Nat) (x : Claim) : (d.setClaim n x).epochSlot = d.epochSlot := rfl
@[simp] theorem Dev.setClaim_rings (n : Nat) (x : Claim) : (d.setClaim n x).rings = d.rings := rfl
@[simp] theorem Dev.setClaim_tallies (n : Nat) (x : Claim) : (d.setClaim n x).tallies = d.tallies := rfl
@[simp] theorem Dev.setClaim_frames (n : Nat) (x : Claim) : (d.setClaim n x).frames = d.frames := rfl
@[simp] theorem Dev.setClaim_objects (n : Nat) (x : Claim) : (d.setClaim n x).objects = d.objects := rfl
@[simp] theorem Dev.setClaim_hoist (n : Nat) (x : Claim) : (d.setClaim n x).hoist = d.hoist := rfl
@[simp] theorem Dev.setClaim_health (n : Nat) (x : Claim) : (d.setClaim n x).health = d.health := rfl
@[simp] theorem Dev.setClaim_store (n : Nat) (x : Claim) : (d.setClaim n x).store = d.store := rfl
@[simp] theorem Dev.setClaim_mbx (n : Nat) (x : Claim) : (d.setClaim n x).mbx = d.mbx := rfl
@[simp] theorem Dev.setClaim_sec (n : Nat) (x : Claim) : (d.setClaim n x).sec = d.sec := rfl
@[simp] theorem Dev.setClaim_ports (n : Nat) (x : Claim) : (d.setClaim n x).ports = d.ports := rfl
@[simp] theorem Dev.setClaim_routing (n : Nat) (x : Claim) : (d.setClaim n x).routing = d.routing := rfl
@[simp] theorem Dev.setClaim_xbar (n : Nat) (x : Claim) : (d.setClaim n x).xbar = d.xbar := rfl
@[simp] theorem Dev.setClaim_coll (n : Nat) (x : Claim) : (d.setClaim n x).coll = d.coll := rfl
@[simp] theorem Dev.setClaim_time (n : Nat) (x : Claim) : (d.setClaim n x).time = d.time := rfl
@[simp] theorem Dev.setClaim_evt (n : Nat) (x : Claim) : (d.setClaim n x).evt = d.evt := rfl
@[simp] theorem Dev.setClaim_shuttle (n : Nat) (x : Claim) : (d.setClaim n x).shuttle = d.shuttle := rfl
@[simp] theorem Dev.setClaim_dozeAborted (n : Nat) (x : Claim) : (d.setClaim n x).dozeAborted = d.dozeAborted := rfl
@[simp] theorem Dev.setClaim_fixedBits (n : Nat) (x : Claim) : (d.setClaim n x).fixedBits = d.fixedBits := rfl
@[simp] theorem Dev.setClaim_fixedPace (n : Nat) (x : Claim) : (d.setClaim n x).fixedPace = d.fixedPace := rfl
@[simp] theorem Dev.setClaim_started (n : Nat) (x : Claim) : (d.setClaim n x).started = d.started := rfl
@[simp] theorem Dev.setClaim_turns (n : Nat) (x : Claim) : (d.setClaim n x).turns = d.turns := rfl
@[simp] theorem Dev.setClaim_capGen (n : Nat) (x : Claim) : (d.setClaim n x).capGen = d.capGen := rfl
@[simp] theorem Dev.setClaim_capFinal (n : Nat) (x : Claim) : (d.setClaim n x).capFinal = d.capFinal := rfl
@[simp] theorem Dev.setClaim_capTick (n : Nat) (x : Claim) : (d.setClaim n x).capTick = d.capTick := rfl
@[simp] theorem Dev.setClaim_draws (n : Nat) (x : Claim) : (d.setClaim n x).draws = d.draws := rfl
@[simp] theorem Dev.setClaim_out (n : Nat) (x : Claim) : (d.setClaim n x).out = d.out := rfl

/-! ## modClaim -/

@[simp] theorem Dev.modClaim_now (n : Nat) (f : Claim → Claim) : (d.modClaim n f).now = d.now := rfl
@[simp] theorem Dev.modClaim_skew (n : Nat) (f : Claim → Claim) : (d.modClaim n f).skew = d.skew := rfl
@[simp] theorem Dev.modClaim_power (n : Nat) (f : Claim → Claim) : (d.modClaim n f).power = d.power := rfl
@[simp] theorem Dev.modClaim_dies (n : Nat) (f : Claim → Claim) : (d.modClaim n f).dies = d.dies := rfl
@[simp] theorem Dev.modClaim_cap (n : Nat) (f : Claim → Claim) : (d.modClaim n f).cap = d.cap := rfl
@[simp] theorem Dev.modClaim_host (n : Nat) (f : Claim → Claim) : (d.modClaim n f).host = d.host := rfl
@[simp] theorem Dev.modClaim_blocks (n : Nat) (f : Claim → Claim) : (d.modClaim n f).blocks = d.blocks := rfl
@[simp] theorem Dev.modClaim_ringSel (n : Nat) (f : Claim → Claim) : (d.modClaim n f).ringSel = d.ringSel := rfl
@[simp] theorem Dev.modClaim_epochClaim (n : Nat) (f : Claim → Claim) : (d.modClaim n f).epochClaim = d.epochClaim := rfl
@[simp] theorem Dev.modClaim_epochSlot (n : Nat) (f : Claim → Claim) : (d.modClaim n f).epochSlot = d.epochSlot := rfl
@[simp] theorem Dev.modClaim_rings (n : Nat) (f : Claim → Claim) : (d.modClaim n f).rings = d.rings := rfl
@[simp] theorem Dev.modClaim_tallies (n : Nat) (f : Claim → Claim) : (d.modClaim n f).tallies = d.tallies := rfl
@[simp] theorem Dev.modClaim_frames (n : Nat) (f : Claim → Claim) : (d.modClaim n f).frames = d.frames := rfl
@[simp] theorem Dev.modClaim_objects (n : Nat) (f : Claim → Claim) : (d.modClaim n f).objects = d.objects := rfl
@[simp] theorem Dev.modClaim_hoist (n : Nat) (f : Claim → Claim) : (d.modClaim n f).hoist = d.hoist := rfl
@[simp] theorem Dev.modClaim_health (n : Nat) (f : Claim → Claim) : (d.modClaim n f).health = d.health := rfl
@[simp] theorem Dev.modClaim_store (n : Nat) (f : Claim → Claim) : (d.modClaim n f).store = d.store := rfl
@[simp] theorem Dev.modClaim_mbx (n : Nat) (f : Claim → Claim) : (d.modClaim n f).mbx = d.mbx := rfl
@[simp] theorem Dev.modClaim_sec (n : Nat) (f : Claim → Claim) : (d.modClaim n f).sec = d.sec := rfl
@[simp] theorem Dev.modClaim_ports (n : Nat) (f : Claim → Claim) : (d.modClaim n f).ports = d.ports := rfl
@[simp] theorem Dev.modClaim_routing (n : Nat) (f : Claim → Claim) : (d.modClaim n f).routing = d.routing := rfl
@[simp] theorem Dev.modClaim_xbar (n : Nat) (f : Claim → Claim) : (d.modClaim n f).xbar = d.xbar := rfl
@[simp] theorem Dev.modClaim_coll (n : Nat) (f : Claim → Claim) : (d.modClaim n f).coll = d.coll := rfl
@[simp] theorem Dev.modClaim_time (n : Nat) (f : Claim → Claim) : (d.modClaim n f).time = d.time := rfl
@[simp] theorem Dev.modClaim_evt (n : Nat) (f : Claim → Claim) : (d.modClaim n f).evt = d.evt := rfl
@[simp] theorem Dev.modClaim_shuttle (n : Nat) (f : Claim → Claim) : (d.modClaim n f).shuttle = d.shuttle := rfl
@[simp] theorem Dev.modClaim_dozeAborted (n : Nat) (f : Claim → Claim) : (d.modClaim n f).dozeAborted = d.dozeAborted := rfl
@[simp] theorem Dev.modClaim_fixedBits (n : Nat) (f : Claim → Claim) : (d.modClaim n f).fixedBits = d.fixedBits := rfl
@[simp] theorem Dev.modClaim_fixedPace (n : Nat) (f : Claim → Claim) : (d.modClaim n f).fixedPace = d.fixedPace := rfl
@[simp] theorem Dev.modClaim_started (n : Nat) (f : Claim → Claim) : (d.modClaim n f).started = d.started := rfl
@[simp] theorem Dev.modClaim_turns (n : Nat) (f : Claim → Claim) : (d.modClaim n f).turns = d.turns := rfl
@[simp] theorem Dev.modClaim_capGen (n : Nat) (f : Claim → Claim) : (d.modClaim n f).capGen = d.capGen := rfl
@[simp] theorem Dev.modClaim_capFinal (n : Nat) (f : Claim → Claim) : (d.modClaim n f).capFinal = d.capFinal := rfl
@[simp] theorem Dev.modClaim_capTick (n : Nat) (f : Claim → Claim) : (d.modClaim n f).capTick = d.capTick := rfl
@[simp] theorem Dev.modClaim_draws (n : Nat) (f : Claim → Claim) : (d.modClaim n f).draws = d.draws := rfl
@[simp] theorem Dev.modClaim_out (n : Nat) (f : Claim → Claim) : (d.modClaim n f).out = d.out := rfl

/-! ## setTally -/

@[simp] theorem Dev.setTally_now (n : Nat) (x : Tally) : (d.setTally n x).now = d.now := rfl
@[simp] theorem Dev.setTally_skew (n : Nat) (x : Tally) : (d.setTally n x).skew = d.skew := rfl
@[simp] theorem Dev.setTally_power (n : Nat) (x : Tally) : (d.setTally n x).power = d.power := rfl
@[simp] theorem Dev.setTally_dies (n : Nat) (x : Tally) : (d.setTally n x).dies = d.dies := rfl
@[simp] theorem Dev.setTally_cap (n : Nat) (x : Tally) : (d.setTally n x).cap = d.cap := rfl
@[simp] theorem Dev.setTally_host (n : Nat) (x : Tally) : (d.setTally n x).host = d.host := rfl
@[simp] theorem Dev.setTally_blocks (n : Nat) (x : Tally) : (d.setTally n x).blocks = d.blocks := rfl
@[simp] theorem Dev.setTally_ringSel (n : Nat) (x : Tally) : (d.setTally n x).ringSel = d.ringSel := rfl
@[simp] theorem Dev.setTally_epochClaim (n : Nat) (x : Tally) : (d.setTally n x).epochClaim = d.epochClaim := rfl
@[simp] theorem Dev.setTally_epochSlot (n : Nat) (x : Tally) : (d.setTally n x).epochSlot = d.epochSlot := rfl
@[simp] theorem Dev.setTally_rings (n : Nat) (x : Tally) : (d.setTally n x).rings = d.rings := rfl
@[simp] theorem Dev.setTally_claims (n : Nat) (x : Tally) : (d.setTally n x).claims = d.claims := rfl
@[simp] theorem Dev.setTally_frames (n : Nat) (x : Tally) : (d.setTally n x).frames = d.frames := rfl
@[simp] theorem Dev.setTally_objects (n : Nat) (x : Tally) : (d.setTally n x).objects = d.objects := rfl
@[simp] theorem Dev.setTally_hoist (n : Nat) (x : Tally) : (d.setTally n x).hoist = d.hoist := rfl
@[simp] theorem Dev.setTally_health (n : Nat) (x : Tally) : (d.setTally n x).health = d.health := rfl
@[simp] theorem Dev.setTally_store (n : Nat) (x : Tally) : (d.setTally n x).store = d.store := rfl
@[simp] theorem Dev.setTally_mbx (n : Nat) (x : Tally) : (d.setTally n x).mbx = d.mbx := rfl
@[simp] theorem Dev.setTally_sec (n : Nat) (x : Tally) : (d.setTally n x).sec = d.sec := rfl
@[simp] theorem Dev.setTally_ports (n : Nat) (x : Tally) : (d.setTally n x).ports = d.ports := rfl
@[simp] theorem Dev.setTally_routing (n : Nat) (x : Tally) : (d.setTally n x).routing = d.routing := rfl
@[simp] theorem Dev.setTally_xbar (n : Nat) (x : Tally) : (d.setTally n x).xbar = d.xbar := rfl
@[simp] theorem Dev.setTally_coll (n : Nat) (x : Tally) : (d.setTally n x).coll = d.coll := rfl
@[simp] theorem Dev.setTally_time (n : Nat) (x : Tally) : (d.setTally n x).time = d.time := rfl
@[simp] theorem Dev.setTally_evt (n : Nat) (x : Tally) : (d.setTally n x).evt = d.evt := rfl
@[simp] theorem Dev.setTally_shuttle (n : Nat) (x : Tally) : (d.setTally n x).shuttle = d.shuttle := rfl
@[simp] theorem Dev.setTally_dozeAborted (n : Nat) (x : Tally) : (d.setTally n x).dozeAborted = d.dozeAborted := rfl
@[simp] theorem Dev.setTally_fixedBits (n : Nat) (x : Tally) : (d.setTally n x).fixedBits = d.fixedBits := rfl
@[simp] theorem Dev.setTally_fixedPace (n : Nat) (x : Tally) : (d.setTally n x).fixedPace = d.fixedPace := rfl
@[simp] theorem Dev.setTally_started (n : Nat) (x : Tally) : (d.setTally n x).started = d.started := rfl
@[simp] theorem Dev.setTally_turns (n : Nat) (x : Tally) : (d.setTally n x).turns = d.turns := rfl
@[simp] theorem Dev.setTally_capGen (n : Nat) (x : Tally) : (d.setTally n x).capGen = d.capGen := rfl
@[simp] theorem Dev.setTally_capFinal (n : Nat) (x : Tally) : (d.setTally n x).capFinal = d.capFinal := rfl
@[simp] theorem Dev.setTally_capTick (n : Nat) (x : Tally) : (d.setTally n x).capTick = d.capTick := rfl
@[simp] theorem Dev.setTally_draws (n : Nat) (x : Tally) : (d.setTally n x).draws = d.draws := rfl
@[simp] theorem Dev.setTally_out (n : Nat) (x : Tally) : (d.setTally n x).out = d.out := rfl

/-! ## setObj -/

@[simp] theorem Dev.setObj_now (n : Nat) (x : Obj) : (d.setObj n x).now = d.now := rfl
@[simp] theorem Dev.setObj_skew (n : Nat) (x : Obj) : (d.setObj n x).skew = d.skew := rfl
@[simp] theorem Dev.setObj_power (n : Nat) (x : Obj) : (d.setObj n x).power = d.power := rfl
@[simp] theorem Dev.setObj_dies (n : Nat) (x : Obj) : (d.setObj n x).dies = d.dies := rfl
@[simp] theorem Dev.setObj_cap (n : Nat) (x : Obj) : (d.setObj n x).cap = d.cap := rfl
@[simp] theorem Dev.setObj_host (n : Nat) (x : Obj) : (d.setObj n x).host = d.host := rfl
@[simp] theorem Dev.setObj_blocks (n : Nat) (x : Obj) : (d.setObj n x).blocks = d.blocks := rfl
@[simp] theorem Dev.setObj_ringSel (n : Nat) (x : Obj) : (d.setObj n x).ringSel = d.ringSel := rfl
@[simp] theorem Dev.setObj_epochClaim (n : Nat) (x : Obj) : (d.setObj n x).epochClaim = d.epochClaim := rfl
@[simp] theorem Dev.setObj_epochSlot (n : Nat) (x : Obj) : (d.setObj n x).epochSlot = d.epochSlot := rfl
@[simp] theorem Dev.setObj_rings (n : Nat) (x : Obj) : (d.setObj n x).rings = d.rings := rfl
@[simp] theorem Dev.setObj_tallies (n : Nat) (x : Obj) : (d.setObj n x).tallies = d.tallies := rfl
@[simp] theorem Dev.setObj_claims (n : Nat) (x : Obj) : (d.setObj n x).claims = d.claims := rfl
@[simp] theorem Dev.setObj_frames (n : Nat) (x : Obj) : (d.setObj n x).frames = d.frames := rfl
@[simp] theorem Dev.setObj_hoist (n : Nat) (x : Obj) : (d.setObj n x).hoist = d.hoist := rfl
@[simp] theorem Dev.setObj_health (n : Nat) (x : Obj) : (d.setObj n x).health = d.health := rfl
@[simp] theorem Dev.setObj_store (n : Nat) (x : Obj) : (d.setObj n x).store = d.store := rfl
@[simp] theorem Dev.setObj_mbx (n : Nat) (x : Obj) : (d.setObj n x).mbx = d.mbx := rfl
@[simp] theorem Dev.setObj_sec (n : Nat) (x : Obj) : (d.setObj n x).sec = d.sec := rfl
@[simp] theorem Dev.setObj_ports (n : Nat) (x : Obj) : (d.setObj n x).ports = d.ports := rfl
@[simp] theorem Dev.setObj_routing (n : Nat) (x : Obj) : (d.setObj n x).routing = d.routing := rfl
@[simp] theorem Dev.setObj_xbar (n : Nat) (x : Obj) : (d.setObj n x).xbar = d.xbar := rfl
@[simp] theorem Dev.setObj_coll (n : Nat) (x : Obj) : (d.setObj n x).coll = d.coll := rfl
@[simp] theorem Dev.setObj_time (n : Nat) (x : Obj) : (d.setObj n x).time = d.time := rfl
@[simp] theorem Dev.setObj_evt (n : Nat) (x : Obj) : (d.setObj n x).evt = d.evt := rfl
@[simp] theorem Dev.setObj_shuttle (n : Nat) (x : Obj) : (d.setObj n x).shuttle = d.shuttle := rfl
@[simp] theorem Dev.setObj_dozeAborted (n : Nat) (x : Obj) : (d.setObj n x).dozeAborted = d.dozeAborted := rfl
@[simp] theorem Dev.setObj_fixedBits (n : Nat) (x : Obj) : (d.setObj n x).fixedBits = d.fixedBits := rfl
@[simp] theorem Dev.setObj_fixedPace (n : Nat) (x : Obj) : (d.setObj n x).fixedPace = d.fixedPace := rfl
@[simp] theorem Dev.setObj_started (n : Nat) (x : Obj) : (d.setObj n x).started = d.started := rfl
@[simp] theorem Dev.setObj_turns (n : Nat) (x : Obj) : (d.setObj n x).turns = d.turns := rfl
@[simp] theorem Dev.setObj_capGen (n : Nat) (x : Obj) : (d.setObj n x).capGen = d.capGen := rfl
@[simp] theorem Dev.setObj_capFinal (n : Nat) (x : Obj) : (d.setObj n x).capFinal = d.capFinal := rfl
@[simp] theorem Dev.setObj_capTick (n : Nat) (x : Obj) : (d.setObj n x).capTick = d.capTick := rfl
@[simp] theorem Dev.setObj_draws (n : Nat) (x : Obj) : (d.setObj n x).draws = d.draws := rfl
@[simp] theorem Dev.setObj_out (n : Nat) (x : Obj) : (d.setObj n x).out = d.out := rfl

/-! ## setPort -/

@[simp] theorem Dev.setPort_now (n : Nat) (x : Port) : (d.setPort n x).now = d.now := rfl
@[simp] theorem Dev.setPort_skew (n : Nat) (x : Port) : (d.setPort n x).skew = d.skew := rfl
@[simp] theorem Dev.setPort_power (n : Nat) (x : Port) : (d.setPort n x).power = d.power := rfl
@[simp] theorem Dev.setPort_dies (n : Nat) (x : Port) : (d.setPort n x).dies = d.dies := rfl
@[simp] theorem Dev.setPort_cap (n : Nat) (x : Port) : (d.setPort n x).cap = d.cap := rfl
@[simp] theorem Dev.setPort_host (n : Nat) (x : Port) : (d.setPort n x).host = d.host := rfl
@[simp] theorem Dev.setPort_blocks (n : Nat) (x : Port) : (d.setPort n x).blocks = d.blocks := rfl
@[simp] theorem Dev.setPort_ringSel (n : Nat) (x : Port) : (d.setPort n x).ringSel = d.ringSel := rfl
@[simp] theorem Dev.setPort_epochClaim (n : Nat) (x : Port) : (d.setPort n x).epochClaim = d.epochClaim := rfl
@[simp] theorem Dev.setPort_epochSlot (n : Nat) (x : Port) : (d.setPort n x).epochSlot = d.epochSlot := rfl
@[simp] theorem Dev.setPort_rings (n : Nat) (x : Port) : (d.setPort n x).rings = d.rings := rfl
@[simp] theorem Dev.setPort_tallies (n : Nat) (x : Port) : (d.setPort n x).tallies = d.tallies := rfl
@[simp] theorem Dev.setPort_claims (n : Nat) (x : Port) : (d.setPort n x).claims = d.claims := rfl
@[simp] theorem Dev.setPort_frames (n : Nat) (x : Port) : (d.setPort n x).frames = d.frames := rfl
@[simp] theorem Dev.setPort_objects (n : Nat) (x : Port) : (d.setPort n x).objects = d.objects := rfl
@[simp] theorem Dev.setPort_hoist (n : Nat) (x : Port) : (d.setPort n x).hoist = d.hoist := rfl
@[simp] theorem Dev.setPort_health (n : Nat) (x : Port) : (d.setPort n x).health = d.health := rfl
@[simp] theorem Dev.setPort_store (n : Nat) (x : Port) : (d.setPort n x).store = d.store := rfl
@[simp] theorem Dev.setPort_mbx (n : Nat) (x : Port) : (d.setPort n x).mbx = d.mbx := rfl
@[simp] theorem Dev.setPort_sec (n : Nat) (x : Port) : (d.setPort n x).sec = d.sec := rfl
@[simp] theorem Dev.setPort_routing (n : Nat) (x : Port) : (d.setPort n x).routing = d.routing := rfl
@[simp] theorem Dev.setPort_xbar (n : Nat) (x : Port) : (d.setPort n x).xbar = d.xbar := rfl
@[simp] theorem Dev.setPort_coll (n : Nat) (x : Port) : (d.setPort n x).coll = d.coll := rfl
@[simp] theorem Dev.setPort_time (n : Nat) (x : Port) : (d.setPort n x).time = d.time := rfl
@[simp] theorem Dev.setPort_evt (n : Nat) (x : Port) : (d.setPort n x).evt = d.evt := rfl
@[simp] theorem Dev.setPort_shuttle (n : Nat) (x : Port) : (d.setPort n x).shuttle = d.shuttle := rfl
@[simp] theorem Dev.setPort_dozeAborted (n : Nat) (x : Port) : (d.setPort n x).dozeAborted = d.dozeAborted := rfl
@[simp] theorem Dev.setPort_fixedBits (n : Nat) (x : Port) : (d.setPort n x).fixedBits = d.fixedBits := rfl
@[simp] theorem Dev.setPort_fixedPace (n : Nat) (x : Port) : (d.setPort n x).fixedPace = d.fixedPace := rfl
@[simp] theorem Dev.setPort_started (n : Nat) (x : Port) : (d.setPort n x).started = d.started := rfl
@[simp] theorem Dev.setPort_turns (n : Nat) (x : Port) : (d.setPort n x).turns = d.turns := rfl
@[simp] theorem Dev.setPort_capGen (n : Nat) (x : Port) : (d.setPort n x).capGen = d.capGen := rfl
@[simp] theorem Dev.setPort_capFinal (n : Nat) (x : Port) : (d.setPort n x).capFinal = d.capFinal := rfl
@[simp] theorem Dev.setPort_capTick (n : Nat) (x : Port) : (d.setPort n x).capTick = d.capTick := rfl
@[simp] theorem Dev.setPort_draws (n : Nat) (x : Port) : (d.setPort n x).draws = d.draws := rfl
@[simp] theorem Dev.setPort_out (n : Nat) (x : Port) : (d.setPort n x).out = d.out := rfl

/-! ## modPort -/

@[simp] theorem Dev.modPort_now (n : Nat) (f : Port → Port) : (d.modPort n f).now = d.now := rfl
@[simp] theorem Dev.modPort_skew (n : Nat) (f : Port → Port) : (d.modPort n f).skew = d.skew := rfl
@[simp] theorem Dev.modPort_power (n : Nat) (f : Port → Port) : (d.modPort n f).power = d.power := rfl
@[simp] theorem Dev.modPort_dies (n : Nat) (f : Port → Port) : (d.modPort n f).dies = d.dies := rfl
@[simp] theorem Dev.modPort_cap (n : Nat) (f : Port → Port) : (d.modPort n f).cap = d.cap := rfl
@[simp] theorem Dev.modPort_host (n : Nat) (f : Port → Port) : (d.modPort n f).host = d.host := rfl
@[simp] theorem Dev.modPort_blocks (n : Nat) (f : Port → Port) : (d.modPort n f).blocks = d.blocks := rfl
@[simp] theorem Dev.modPort_ringSel (n : Nat) (f : Port → Port) : (d.modPort n f).ringSel = d.ringSel := rfl
@[simp] theorem Dev.modPort_epochClaim (n : Nat) (f : Port → Port) : (d.modPort n f).epochClaim = d.epochClaim := rfl
@[simp] theorem Dev.modPort_epochSlot (n : Nat) (f : Port → Port) : (d.modPort n f).epochSlot = d.epochSlot := rfl
@[simp] theorem Dev.modPort_rings (n : Nat) (f : Port → Port) : (d.modPort n f).rings = d.rings := rfl
@[simp] theorem Dev.modPort_tallies (n : Nat) (f : Port → Port) : (d.modPort n f).tallies = d.tallies := rfl
@[simp] theorem Dev.modPort_claims (n : Nat) (f : Port → Port) : (d.modPort n f).claims = d.claims := rfl
@[simp] theorem Dev.modPort_frames (n : Nat) (f : Port → Port) : (d.modPort n f).frames = d.frames := rfl
@[simp] theorem Dev.modPort_objects (n : Nat) (f : Port → Port) : (d.modPort n f).objects = d.objects := rfl
@[simp] theorem Dev.modPort_hoist (n : Nat) (f : Port → Port) : (d.modPort n f).hoist = d.hoist := rfl
@[simp] theorem Dev.modPort_health (n : Nat) (f : Port → Port) : (d.modPort n f).health = d.health := rfl
@[simp] theorem Dev.modPort_store (n : Nat) (f : Port → Port) : (d.modPort n f).store = d.store := rfl
@[simp] theorem Dev.modPort_mbx (n : Nat) (f : Port → Port) : (d.modPort n f).mbx = d.mbx := rfl
@[simp] theorem Dev.modPort_sec (n : Nat) (f : Port → Port) : (d.modPort n f).sec = d.sec := rfl
@[simp] theorem Dev.modPort_routing (n : Nat) (f : Port → Port) : (d.modPort n f).routing = d.routing := rfl
@[simp] theorem Dev.modPort_xbar (n : Nat) (f : Port → Port) : (d.modPort n f).xbar = d.xbar := rfl
@[simp] theorem Dev.modPort_coll (n : Nat) (f : Port → Port) : (d.modPort n f).coll = d.coll := rfl
@[simp] theorem Dev.modPort_time (n : Nat) (f : Port → Port) : (d.modPort n f).time = d.time := rfl
@[simp] theorem Dev.modPort_evt (n : Nat) (f : Port → Port) : (d.modPort n f).evt = d.evt := rfl
@[simp] theorem Dev.modPort_shuttle (n : Nat) (f : Port → Port) : (d.modPort n f).shuttle = d.shuttle := rfl
@[simp] theorem Dev.modPort_dozeAborted (n : Nat) (f : Port → Port) : (d.modPort n f).dozeAborted = d.dozeAborted := rfl
@[simp] theorem Dev.modPort_fixedBits (n : Nat) (f : Port → Port) : (d.modPort n f).fixedBits = d.fixedBits := rfl
@[simp] theorem Dev.modPort_fixedPace (n : Nat) (f : Port → Port) : (d.modPort n f).fixedPace = d.fixedPace := rfl
@[simp] theorem Dev.modPort_started (n : Nat) (f : Port → Port) : (d.modPort n f).started = d.started := rfl
@[simp] theorem Dev.modPort_turns (n : Nat) (f : Port → Port) : (d.modPort n f).turns = d.turns := rfl
@[simp] theorem Dev.modPort_capGen (n : Nat) (f : Port → Port) : (d.modPort n f).capGen = d.capGen := rfl
@[simp] theorem Dev.modPort_capFinal (n : Nat) (f : Port → Port) : (d.modPort n f).capFinal = d.capFinal := rfl
@[simp] theorem Dev.modPort_capTick (n : Nat) (f : Port → Port) : (d.modPort n f).capTick = d.capTick := rfl
@[simp] theorem Dev.modPort_draws (n : Nat) (f : Port → Port) : (d.modPort n f).draws = d.draws := rfl
@[simp] theorem Dev.modPort_out (n : Nat) (f : Port → Port) : (d.modPort n f).out = d.out := rfl

/-! ## setGroup -/

@[simp] theorem Dev.setGroup_now (n : Nat) (x : Group) : (d.setGroup n x).now = d.now := rfl
@[simp] theorem Dev.setGroup_skew (n : Nat) (x : Group) : (d.setGroup n x).skew = d.skew := rfl
@[simp] theorem Dev.setGroup_power (n : Nat) (x : Group) : (d.setGroup n x).power = d.power := rfl
@[simp] theorem Dev.setGroup_dies (n : Nat) (x : Group) : (d.setGroup n x).dies = d.dies := rfl
@[simp] theorem Dev.setGroup_cap (n : Nat) (x : Group) : (d.setGroup n x).cap = d.cap := rfl
@[simp] theorem Dev.setGroup_host (n : Nat) (x : Group) : (d.setGroup n x).host = d.host := rfl
@[simp] theorem Dev.setGroup_blocks (n : Nat) (x : Group) : (d.setGroup n x).blocks = d.blocks := rfl
@[simp] theorem Dev.setGroup_ringSel (n : Nat) (x : Group) : (d.setGroup n x).ringSel = d.ringSel := rfl
@[simp] theorem Dev.setGroup_epochClaim (n : Nat) (x : Group) : (d.setGroup n x).epochClaim = d.epochClaim := rfl
@[simp] theorem Dev.setGroup_epochSlot (n : Nat) (x : Group) : (d.setGroup n x).epochSlot = d.epochSlot := rfl
@[simp] theorem Dev.setGroup_rings (n : Nat) (x : Group) : (d.setGroup n x).rings = d.rings := rfl
@[simp] theorem Dev.setGroup_tallies (n : Nat) (x : Group) : (d.setGroup n x).tallies = d.tallies := rfl
@[simp] theorem Dev.setGroup_claims (n : Nat) (x : Group) : (d.setGroup n x).claims = d.claims := rfl
@[simp] theorem Dev.setGroup_frames (n : Nat) (x : Group) : (d.setGroup n x).frames = d.frames := rfl
@[simp] theorem Dev.setGroup_objects (n : Nat) (x : Group) : (d.setGroup n x).objects = d.objects := rfl
@[simp] theorem Dev.setGroup_hoist (n : Nat) (x : Group) : (d.setGroup n x).hoist = d.hoist := rfl
@[simp] theorem Dev.setGroup_health (n : Nat) (x : Group) : (d.setGroup n x).health = d.health := rfl
@[simp] theorem Dev.setGroup_store (n : Nat) (x : Group) : (d.setGroup n x).store = d.store := rfl
@[simp] theorem Dev.setGroup_mbx (n : Nat) (x : Group) : (d.setGroup n x).mbx = d.mbx := rfl
@[simp] theorem Dev.setGroup_sec (n : Nat) (x : Group) : (d.setGroup n x).sec = d.sec := rfl
@[simp] theorem Dev.setGroup_ports (n : Nat) (x : Group) : (d.setGroup n x).ports = d.ports := rfl
@[simp] theorem Dev.setGroup_routing (n : Nat) (x : Group) : (d.setGroup n x).routing = d.routing := rfl
@[simp] theorem Dev.setGroup_xbar (n : Nat) (x : Group) : (d.setGroup n x).xbar = d.xbar := rfl
@[simp] theorem Dev.setGroup_time (n : Nat) (x : Group) : (d.setGroup n x).time = d.time := rfl
@[simp] theorem Dev.setGroup_evt (n : Nat) (x : Group) : (d.setGroup n x).evt = d.evt := rfl
@[simp] theorem Dev.setGroup_shuttle (n : Nat) (x : Group) : (d.setGroup n x).shuttle = d.shuttle := rfl
@[simp] theorem Dev.setGroup_dozeAborted (n : Nat) (x : Group) : (d.setGroup n x).dozeAborted = d.dozeAborted := rfl
@[simp] theorem Dev.setGroup_fixedBits (n : Nat) (x : Group) : (d.setGroup n x).fixedBits = d.fixedBits := rfl
@[simp] theorem Dev.setGroup_fixedPace (n : Nat) (x : Group) : (d.setGroup n x).fixedPace = d.fixedPace := rfl
@[simp] theorem Dev.setGroup_started (n : Nat) (x : Group) : (d.setGroup n x).started = d.started := rfl
@[simp] theorem Dev.setGroup_turns (n : Nat) (x : Group) : (d.setGroup n x).turns = d.turns := rfl
@[simp] theorem Dev.setGroup_capGen (n : Nat) (x : Group) : (d.setGroup n x).capGen = d.capGen := rfl
@[simp] theorem Dev.setGroup_capFinal (n : Nat) (x : Group) : (d.setGroup n x).capFinal = d.capFinal := rfl
@[simp] theorem Dev.setGroup_capTick (n : Nat) (x : Group) : (d.setGroup n x).capTick = d.capTick := rfl
@[simp] theorem Dev.setGroup_draws (n : Nat) (x : Group) : (d.setGroup n x).draws = d.draws := rfl
@[simp] theorem Dev.setGroup_out (n : Nat) (x : Group) : (d.setGroup n x).out = d.out := rfl

/-! ## setTag -/

@[simp] theorem Dev.setTag_now (n : Nat) (x : Tag) : (d.setTag n x).now = d.now := rfl
@[simp] theorem Dev.setTag_skew (n : Nat) (x : Tag) : (d.setTag n x).skew = d.skew := rfl
@[simp] theorem Dev.setTag_power (n : Nat) (x : Tag) : (d.setTag n x).power = d.power := rfl
@[simp] theorem Dev.setTag_dies (n : Nat) (x : Tag) : (d.setTag n x).dies = d.dies := rfl
@[simp] theorem Dev.setTag_cap (n : Nat) (x : Tag) : (d.setTag n x).cap = d.cap := rfl
@[simp] theorem Dev.setTag_host (n : Nat) (x : Tag) : (d.setTag n x).host = d.host := rfl
@[simp] theorem Dev.setTag_blocks (n : Nat) (x : Tag) : (d.setTag n x).blocks = d.blocks := rfl
@[simp] theorem Dev.setTag_ringSel (n : Nat) (x : Tag) : (d.setTag n x).ringSel = d.ringSel := rfl
@[simp] theorem Dev.setTag_epochClaim (n : Nat) (x : Tag) : (d.setTag n x).epochClaim = d.epochClaim := rfl
@[simp] theorem Dev.setTag_epochSlot (n : Nat) (x : Tag) : (d.setTag n x).epochSlot = d.epochSlot := rfl
@[simp] theorem Dev.setTag_rings (n : Nat) (x : Tag) : (d.setTag n x).rings = d.rings := rfl
@[simp] theorem Dev.setTag_tallies (n : Nat) (x : Tag) : (d.setTag n x).tallies = d.tallies := rfl
@[simp] theorem Dev.setTag_claims (n : Nat) (x : Tag) : (d.setTag n x).claims = d.claims := rfl
@[simp] theorem Dev.setTag_frames (n : Nat) (x : Tag) : (d.setTag n x).frames = d.frames := rfl
@[simp] theorem Dev.setTag_objects (n : Nat) (x : Tag) : (d.setTag n x).objects = d.objects := rfl
@[simp] theorem Dev.setTag_hoist (n : Nat) (x : Tag) : (d.setTag n x).hoist = d.hoist := rfl
@[simp] theorem Dev.setTag_health (n : Nat) (x : Tag) : (d.setTag n x).health = d.health := rfl
@[simp] theorem Dev.setTag_store (n : Nat) (x : Tag) : (d.setTag n x).store = d.store := rfl
@[simp] theorem Dev.setTag_mbx (n : Nat) (x : Tag) : (d.setTag n x).mbx = d.mbx := rfl
@[simp] theorem Dev.setTag_sec (n : Nat) (x : Tag) : (d.setTag n x).sec = d.sec := rfl
@[simp] theorem Dev.setTag_ports (n : Nat) (x : Tag) : (d.setTag n x).ports = d.ports := rfl
@[simp] theorem Dev.setTag_routing (n : Nat) (x : Tag) : (d.setTag n x).routing = d.routing := rfl
@[simp] theorem Dev.setTag_xbar (n : Nat) (x : Tag) : (d.setTag n x).xbar = d.xbar := rfl
@[simp] theorem Dev.setTag_coll (n : Nat) (x : Tag) : (d.setTag n x).coll = d.coll := rfl
@[simp] theorem Dev.setTag_evt (n : Nat) (x : Tag) : (d.setTag n x).evt = d.evt := rfl
@[simp] theorem Dev.setTag_shuttle (n : Nat) (x : Tag) : (d.setTag n x).shuttle = d.shuttle := rfl
@[simp] theorem Dev.setTag_dozeAborted (n : Nat) (x : Tag) : (d.setTag n x).dozeAborted = d.dozeAborted := rfl
@[simp] theorem Dev.setTag_fixedBits (n : Nat) (x : Tag) : (d.setTag n x).fixedBits = d.fixedBits := rfl
@[simp] theorem Dev.setTag_fixedPace (n : Nat) (x : Tag) : (d.setTag n x).fixedPace = d.fixedPace := rfl
@[simp] theorem Dev.setTag_started (n : Nat) (x : Tag) : (d.setTag n x).started = d.started := rfl
@[simp] theorem Dev.setTag_turns (n : Nat) (x : Tag) : (d.setTag n x).turns = d.turns := rfl
@[simp] theorem Dev.setTag_capGen (n : Nat) (x : Tag) : (d.setTag n x).capGen = d.capGen := rfl
@[simp] theorem Dev.setTag_capFinal (n : Nat) (x : Tag) : (d.setTag n x).capFinal = d.capFinal := rfl
@[simp] theorem Dev.setTag_capTick (n : Nat) (x : Tag) : (d.setTag n x).capTick = d.capTick := rfl
@[simp] theorem Dev.setTag_draws (n : Nat) (x : Tag) : (d.setTag n x).draws = d.draws := rfl
@[simp] theorem Dev.setTag_out (n : Nat) (x : Tag) : (d.setTag n x).out = d.out := rfl

/-! ## setKernel -/

@[simp] theorem Dev.setKernel_now (n : Nat) (x : Kernel) : (d.setKernel n x).now = d.now := rfl
@[simp] theorem Dev.setKernel_skew (n : Nat) (x : Kernel) : (d.setKernel n x).skew = d.skew := rfl
@[simp] theorem Dev.setKernel_power (n : Nat) (x : Kernel) : (d.setKernel n x).power = d.power := rfl
@[simp] theorem Dev.setKernel_dies (n : Nat) (x : Kernel) : (d.setKernel n x).dies = d.dies := rfl
@[simp] theorem Dev.setKernel_cap (n : Nat) (x : Kernel) : (d.setKernel n x).cap = d.cap := rfl
@[simp] theorem Dev.setKernel_host (n : Nat) (x : Kernel) : (d.setKernel n x).host = d.host := rfl
@[simp] theorem Dev.setKernel_blocks (n : Nat) (x : Kernel) : (d.setKernel n x).blocks = d.blocks := rfl
@[simp] theorem Dev.setKernel_ringSel (n : Nat) (x : Kernel) : (d.setKernel n x).ringSel = d.ringSel := rfl
@[simp] theorem Dev.setKernel_epochClaim (n : Nat) (x : Kernel) : (d.setKernel n x).epochClaim = d.epochClaim := rfl
@[simp] theorem Dev.setKernel_epochSlot (n : Nat) (x : Kernel) : (d.setKernel n x).epochSlot = d.epochSlot := rfl
@[simp] theorem Dev.setKernel_rings (n : Nat) (x : Kernel) : (d.setKernel n x).rings = d.rings := rfl
@[simp] theorem Dev.setKernel_tallies (n : Nat) (x : Kernel) : (d.setKernel n x).tallies = d.tallies := rfl
@[simp] theorem Dev.setKernel_claims (n : Nat) (x : Kernel) : (d.setKernel n x).claims = d.claims := rfl
@[simp] theorem Dev.setKernel_frames (n : Nat) (x : Kernel) : (d.setKernel n x).frames = d.frames := rfl
@[simp] theorem Dev.setKernel_objects (n : Nat) (x : Kernel) : (d.setKernel n x).objects = d.objects := rfl
@[simp] theorem Dev.setKernel_hoist (n : Nat) (x : Kernel) : (d.setKernel n x).hoist = d.hoist := rfl
@[simp] theorem Dev.setKernel_health (n : Nat) (x : Kernel) : (d.setKernel n x).health = d.health := rfl
@[simp] theorem Dev.setKernel_store (n : Nat) (x : Kernel) : (d.setKernel n x).store = d.store := rfl
@[simp] theorem Dev.setKernel_mbx (n : Nat) (x : Kernel) : (d.setKernel n x).mbx = d.mbx := rfl
@[simp] theorem Dev.setKernel_sec (n : Nat) (x : Kernel) : (d.setKernel n x).sec = d.sec := rfl
@[simp] theorem Dev.setKernel_ports (n : Nat) (x : Kernel) : (d.setKernel n x).ports = d.ports := rfl
@[simp] theorem Dev.setKernel_routing (n : Nat) (x : Kernel) : (d.setKernel n x).routing = d.routing := rfl
@[simp] theorem Dev.setKernel_xbar (n : Nat) (x : Kernel) : (d.setKernel n x).xbar = d.xbar := rfl
@[simp] theorem Dev.setKernel_coll (n : Nat) (x : Kernel) : (d.setKernel n x).coll = d.coll := rfl
@[simp] theorem Dev.setKernel_time (n : Nat) (x : Kernel) : (d.setKernel n x).time = d.time := rfl
@[simp] theorem Dev.setKernel_shuttle (n : Nat) (x : Kernel) : (d.setKernel n x).shuttle = d.shuttle := rfl
@[simp] theorem Dev.setKernel_dozeAborted (n : Nat) (x : Kernel) : (d.setKernel n x).dozeAborted = d.dozeAborted := rfl
@[simp] theorem Dev.setKernel_fixedBits (n : Nat) (x : Kernel) : (d.setKernel n x).fixedBits = d.fixedBits := rfl
@[simp] theorem Dev.setKernel_fixedPace (n : Nat) (x : Kernel) : (d.setKernel n x).fixedPace = d.fixedPace := rfl
@[simp] theorem Dev.setKernel_started (n : Nat) (x : Kernel) : (d.setKernel n x).started = d.started := rfl
@[simp] theorem Dev.setKernel_turns (n : Nat) (x : Kernel) : (d.setKernel n x).turns = d.turns := rfl
@[simp] theorem Dev.setKernel_capGen (n : Nat) (x : Kernel) : (d.setKernel n x).capGen = d.capGen := rfl
@[simp] theorem Dev.setKernel_capFinal (n : Nat) (x : Kernel) : (d.setKernel n x).capFinal = d.capFinal := rfl
@[simp] theorem Dev.setKernel_capTick (n : Nat) (x : Kernel) : (d.setKernel n x).capTick = d.capTick := rfl
@[simp] theorem Dev.setKernel_draws (n : Nat) (x : Kernel) : (d.setKernel n x).draws = d.draws := rfl
@[simp] theorem Dev.setKernel_out (n : Nat) (x : Kernel) : (d.setKernel n x).out = d.out := rfl

/-! ## setUnit -/

@[simp] theorem Dev.setUnit_now (u : Nat) (x : EvtUnit) : (d.setUnit u x).now = d.now := rfl
@[simp] theorem Dev.setUnit_skew (u : Nat) (x : EvtUnit) : (d.setUnit u x).skew = d.skew := rfl
@[simp] theorem Dev.setUnit_power (u : Nat) (x : EvtUnit) : (d.setUnit u x).power = d.power := rfl
@[simp] theorem Dev.setUnit_dies (u : Nat) (x : EvtUnit) : (d.setUnit u x).dies = d.dies := rfl
@[simp] theorem Dev.setUnit_cap (u : Nat) (x : EvtUnit) : (d.setUnit u x).cap = d.cap := rfl
@[simp] theorem Dev.setUnit_host (u : Nat) (x : EvtUnit) : (d.setUnit u x).host = d.host := rfl
@[simp] theorem Dev.setUnit_blocks (u : Nat) (x : EvtUnit) : (d.setUnit u x).blocks = d.blocks := rfl
@[simp] theorem Dev.setUnit_ringSel (u : Nat) (x : EvtUnit) : (d.setUnit u x).ringSel = d.ringSel := rfl
@[simp] theorem Dev.setUnit_epochClaim (u : Nat) (x : EvtUnit) : (d.setUnit u x).epochClaim = d.epochClaim := rfl
@[simp] theorem Dev.setUnit_epochSlot (u : Nat) (x : EvtUnit) : (d.setUnit u x).epochSlot = d.epochSlot := rfl
@[simp] theorem Dev.setUnit_rings (u : Nat) (x : EvtUnit) : (d.setUnit u x).rings = d.rings := rfl
@[simp] theorem Dev.setUnit_tallies (u : Nat) (x : EvtUnit) : (d.setUnit u x).tallies = d.tallies := rfl
@[simp] theorem Dev.setUnit_claims (u : Nat) (x : EvtUnit) : (d.setUnit u x).claims = d.claims := rfl
@[simp] theorem Dev.setUnit_frames (u : Nat) (x : EvtUnit) : (d.setUnit u x).frames = d.frames := rfl
@[simp] theorem Dev.setUnit_objects (u : Nat) (x : EvtUnit) : (d.setUnit u x).objects = d.objects := rfl
@[simp] theorem Dev.setUnit_hoist (u : Nat) (x : EvtUnit) : (d.setUnit u x).hoist = d.hoist := rfl
@[simp] theorem Dev.setUnit_health (u : Nat) (x : EvtUnit) : (d.setUnit u x).health = d.health := rfl
@[simp] theorem Dev.setUnit_store (u : Nat) (x : EvtUnit) : (d.setUnit u x).store = d.store := rfl
@[simp] theorem Dev.setUnit_mbx (u : Nat) (x : EvtUnit) : (d.setUnit u x).mbx = d.mbx := rfl
@[simp] theorem Dev.setUnit_sec (u : Nat) (x : EvtUnit) : (d.setUnit u x).sec = d.sec := rfl
@[simp] theorem Dev.setUnit_ports (u : Nat) (x : EvtUnit) : (d.setUnit u x).ports = d.ports := rfl
@[simp] theorem Dev.setUnit_routing (u : Nat) (x : EvtUnit) : (d.setUnit u x).routing = d.routing := rfl
@[simp] theorem Dev.setUnit_xbar (u : Nat) (x : EvtUnit) : (d.setUnit u x).xbar = d.xbar := rfl
@[simp] theorem Dev.setUnit_coll (u : Nat) (x : EvtUnit) : (d.setUnit u x).coll = d.coll := rfl
@[simp] theorem Dev.setUnit_time (u : Nat) (x : EvtUnit) : (d.setUnit u x).time = d.time := rfl
@[simp] theorem Dev.setUnit_shuttle (u : Nat) (x : EvtUnit) : (d.setUnit u x).shuttle = d.shuttle := rfl
@[simp] theorem Dev.setUnit_dozeAborted (u : Nat) (x : EvtUnit) : (d.setUnit u x).dozeAborted = d.dozeAborted := rfl
@[simp] theorem Dev.setUnit_fixedBits (u : Nat) (x : EvtUnit) : (d.setUnit u x).fixedBits = d.fixedBits := rfl
@[simp] theorem Dev.setUnit_fixedPace (u : Nat) (x : EvtUnit) : (d.setUnit u x).fixedPace = d.fixedPace := rfl
@[simp] theorem Dev.setUnit_started (u : Nat) (x : EvtUnit) : (d.setUnit u x).started = d.started := rfl
@[simp] theorem Dev.setUnit_turns (u : Nat) (x : EvtUnit) : (d.setUnit u x).turns = d.turns := rfl
@[simp] theorem Dev.setUnit_capGen (u : Nat) (x : EvtUnit) : (d.setUnit u x).capGen = d.capGen := rfl
@[simp] theorem Dev.setUnit_capFinal (u : Nat) (x : EvtUnit) : (d.setUnit u x).capFinal = d.capFinal := rfl
@[simp] theorem Dev.setUnit_capTick (u : Nat) (x : EvtUnit) : (d.setUnit u x).capTick = d.capTick := rfl
@[simp] theorem Dev.setUnit_draws (u : Nat) (x : EvtUnit) : (d.setUnit u x).draws = d.draws := rfl
@[simp] theorem Dev.setUnit_out (u : Nat) (x : EvtUnit) : (d.setUnit u x).out = d.out := rfl

/-! ## setBlock -/

@[simp] theorem Dev.setBlock_now (b : BlockId) (x : Block) : (d.setBlock b x).now = d.now := rfl
@[simp] theorem Dev.setBlock_skew (b : BlockId) (x : Block) : (d.setBlock b x).skew = d.skew := rfl
@[simp] theorem Dev.setBlock_power (b : BlockId) (x : Block) : (d.setBlock b x).power = d.power := rfl
@[simp] theorem Dev.setBlock_dies (b : BlockId) (x : Block) : (d.setBlock b x).dies = d.dies := rfl
@[simp] theorem Dev.setBlock_cap (b : BlockId) (x : Block) : (d.setBlock b x).cap = d.cap := rfl
@[simp] theorem Dev.setBlock_host (b : BlockId) (x : Block) : (d.setBlock b x).host = d.host := rfl
@[simp] theorem Dev.setBlock_ringSel (b : BlockId) (x : Block) : (d.setBlock b x).ringSel = d.ringSel := rfl
@[simp] theorem Dev.setBlock_epochClaim (b : BlockId) (x : Block) : (d.setBlock b x).epochClaim = d.epochClaim := rfl
@[simp] theorem Dev.setBlock_epochSlot (b : BlockId) (x : Block) : (d.setBlock b x).epochSlot = d.epochSlot := rfl
@[simp] theorem Dev.setBlock_rings (b : BlockId) (x : Block) : (d.setBlock b x).rings = d.rings := rfl
@[simp] theorem Dev.setBlock_tallies (b : BlockId) (x : Block) : (d.setBlock b x).tallies = d.tallies := rfl
@[simp] theorem Dev.setBlock_claims (b : BlockId) (x : Block) : (d.setBlock b x).claims = d.claims := rfl
@[simp] theorem Dev.setBlock_frames (b : BlockId) (x : Block) : (d.setBlock b x).frames = d.frames := rfl
@[simp] theorem Dev.setBlock_objects (b : BlockId) (x : Block) : (d.setBlock b x).objects = d.objects := rfl
@[simp] theorem Dev.setBlock_hoist (b : BlockId) (x : Block) : (d.setBlock b x).hoist = d.hoist := rfl
@[simp] theorem Dev.setBlock_health (b : BlockId) (x : Block) : (d.setBlock b x).health = d.health := rfl
@[simp] theorem Dev.setBlock_store (b : BlockId) (x : Block) : (d.setBlock b x).store = d.store := rfl
@[simp] theorem Dev.setBlock_mbx (b : BlockId) (x : Block) : (d.setBlock b x).mbx = d.mbx := rfl
@[simp] theorem Dev.setBlock_sec (b : BlockId) (x : Block) : (d.setBlock b x).sec = d.sec := rfl
@[simp] theorem Dev.setBlock_ports (b : BlockId) (x : Block) : (d.setBlock b x).ports = d.ports := rfl
@[simp] theorem Dev.setBlock_routing (b : BlockId) (x : Block) : (d.setBlock b x).routing = d.routing := rfl
@[simp] theorem Dev.setBlock_xbar (b : BlockId) (x : Block) : (d.setBlock b x).xbar = d.xbar := rfl
@[simp] theorem Dev.setBlock_coll (b : BlockId) (x : Block) : (d.setBlock b x).coll = d.coll := rfl
@[simp] theorem Dev.setBlock_time (b : BlockId) (x : Block) : (d.setBlock b x).time = d.time := rfl
@[simp] theorem Dev.setBlock_evt (b : BlockId) (x : Block) : (d.setBlock b x).evt = d.evt := rfl
@[simp] theorem Dev.setBlock_shuttle (b : BlockId) (x : Block) : (d.setBlock b x).shuttle = d.shuttle := rfl
@[simp] theorem Dev.setBlock_dozeAborted (b : BlockId) (x : Block) : (d.setBlock b x).dozeAborted = d.dozeAborted := rfl
@[simp] theorem Dev.setBlock_fixedBits (b : BlockId) (x : Block) : (d.setBlock b x).fixedBits = d.fixedBits := rfl
@[simp] theorem Dev.setBlock_fixedPace (b : BlockId) (x : Block) : (d.setBlock b x).fixedPace = d.fixedPace := rfl
@[simp] theorem Dev.setBlock_started (b : BlockId) (x : Block) : (d.setBlock b x).started = d.started := rfl
@[simp] theorem Dev.setBlock_turns (b : BlockId) (x : Block) : (d.setBlock b x).turns = d.turns := rfl
@[simp] theorem Dev.setBlock_capGen (b : BlockId) (x : Block) : (d.setBlock b x).capGen = d.capGen := rfl
@[simp] theorem Dev.setBlock_capFinal (b : BlockId) (x : Block) : (d.setBlock b x).capFinal = d.capFinal := rfl
@[simp] theorem Dev.setBlock_capTick (b : BlockId) (x : Block) : (d.setBlock b x).capTick = d.capTick := rfl
@[simp] theorem Dev.setBlock_draws (b : BlockId) (x : Block) : (d.setBlock b x).draws = d.draws := rfl
@[simp] theorem Dev.setBlock_out (b : BlockId) (x : Block) : (d.setBlock b x).out = d.out := rfl

/-! ## emit -/

@[simp] theorem Dev.emit_now (o : Output) : (d.emit o).now = d.now := rfl
@[simp] theorem Dev.emit_skew (o : Output) : (d.emit o).skew = d.skew := rfl
@[simp] theorem Dev.emit_power (o : Output) : (d.emit o).power = d.power := rfl
@[simp] theorem Dev.emit_dies (o : Output) : (d.emit o).dies = d.dies := rfl
@[simp] theorem Dev.emit_cap (o : Output) : (d.emit o).cap = d.cap := rfl
@[simp] theorem Dev.emit_host (o : Output) : (d.emit o).host = d.host := rfl
@[simp] theorem Dev.emit_blocks (o : Output) : (d.emit o).blocks = d.blocks := rfl
@[simp] theorem Dev.emit_ringSel (o : Output) : (d.emit o).ringSel = d.ringSel := rfl
@[simp] theorem Dev.emit_epochClaim (o : Output) : (d.emit o).epochClaim = d.epochClaim := rfl
@[simp] theorem Dev.emit_epochSlot (o : Output) : (d.emit o).epochSlot = d.epochSlot := rfl
@[simp] theorem Dev.emit_rings (o : Output) : (d.emit o).rings = d.rings := rfl
@[simp] theorem Dev.emit_tallies (o : Output) : (d.emit o).tallies = d.tallies := rfl
@[simp] theorem Dev.emit_claims (o : Output) : (d.emit o).claims = d.claims := rfl
@[simp] theorem Dev.emit_frames (o : Output) : (d.emit o).frames = d.frames := rfl
@[simp] theorem Dev.emit_objects (o : Output) : (d.emit o).objects = d.objects := rfl
@[simp] theorem Dev.emit_hoist (o : Output) : (d.emit o).hoist = d.hoist := rfl
@[simp] theorem Dev.emit_health (o : Output) : (d.emit o).health = d.health := rfl
@[simp] theorem Dev.emit_store (o : Output) : (d.emit o).store = d.store := rfl
@[simp] theorem Dev.emit_mbx (o : Output) : (d.emit o).mbx = d.mbx := rfl
@[simp] theorem Dev.emit_sec (o : Output) : (d.emit o).sec = d.sec := rfl
@[simp] theorem Dev.emit_ports (o : Output) : (d.emit o).ports = d.ports := rfl
@[simp] theorem Dev.emit_routing (o : Output) : (d.emit o).routing = d.routing := rfl
@[simp] theorem Dev.emit_xbar (o : Output) : (d.emit o).xbar = d.xbar := rfl
@[simp] theorem Dev.emit_coll (o : Output) : (d.emit o).coll = d.coll := rfl
@[simp] theorem Dev.emit_time (o : Output) : (d.emit o).time = d.time := rfl
@[simp] theorem Dev.emit_evt (o : Output) : (d.emit o).evt = d.evt := rfl
@[simp] theorem Dev.emit_shuttle (o : Output) : (d.emit o).shuttle = d.shuttle := rfl
@[simp] theorem Dev.emit_dozeAborted (o : Output) : (d.emit o).dozeAborted = d.dozeAborted := rfl
@[simp] theorem Dev.emit_fixedBits (o : Output) : (d.emit o).fixedBits = d.fixedBits := rfl
@[simp] theorem Dev.emit_fixedPace (o : Output) : (d.emit o).fixedPace = d.fixedPace := rfl
@[simp] theorem Dev.emit_started (o : Output) : (d.emit o).started = d.started := rfl
@[simp] theorem Dev.emit_turns (o : Output) : (d.emit o).turns = d.turns := rfl
@[simp] theorem Dev.emit_capGen (o : Output) : (d.emit o).capGen = d.capGen := rfl
@[simp] theorem Dev.emit_capFinal (o : Output) : (d.emit o).capFinal = d.capFinal := rfl
@[simp] theorem Dev.emit_capTick (o : Output) : (d.emit o).capTick = d.capTick := rfl
@[simp] theorem Dev.emit_draws (o : Output) : (d.emit o).draws = d.draws := rfl

/-! ## emitAll -/

@[simp] theorem Dev.emitAll_now (os : List Output) : (d.emitAll os).now = d.now := rfl
@[simp] theorem Dev.emitAll_skew (os : List Output) : (d.emitAll os).skew = d.skew := rfl
@[simp] theorem Dev.emitAll_power (os : List Output) : (d.emitAll os).power = d.power := rfl
@[simp] theorem Dev.emitAll_dies (os : List Output) : (d.emitAll os).dies = d.dies := rfl
@[simp] theorem Dev.emitAll_cap (os : List Output) : (d.emitAll os).cap = d.cap := rfl
@[simp] theorem Dev.emitAll_host (os : List Output) : (d.emitAll os).host = d.host := rfl
@[simp] theorem Dev.emitAll_blocks (os : List Output) : (d.emitAll os).blocks = d.blocks := rfl
@[simp] theorem Dev.emitAll_ringSel (os : List Output) : (d.emitAll os).ringSel = d.ringSel := rfl
@[simp] theorem Dev.emitAll_epochClaim (os : List Output) : (d.emitAll os).epochClaim = d.epochClaim := rfl
@[simp] theorem Dev.emitAll_epochSlot (os : List Output) : (d.emitAll os).epochSlot = d.epochSlot := rfl
@[simp] theorem Dev.emitAll_rings (os : List Output) : (d.emitAll os).rings = d.rings := rfl
@[simp] theorem Dev.emitAll_tallies (os : List Output) : (d.emitAll os).tallies = d.tallies := rfl
@[simp] theorem Dev.emitAll_claims (os : List Output) : (d.emitAll os).claims = d.claims := rfl
@[simp] theorem Dev.emitAll_frames (os : List Output) : (d.emitAll os).frames = d.frames := rfl
@[simp] theorem Dev.emitAll_objects (os : List Output) : (d.emitAll os).objects = d.objects := rfl
@[simp] theorem Dev.emitAll_hoist (os : List Output) : (d.emitAll os).hoist = d.hoist := rfl
@[simp] theorem Dev.emitAll_health (os : List Output) : (d.emitAll os).health = d.health := rfl
@[simp] theorem Dev.emitAll_store (os : List Output) : (d.emitAll os).store = d.store := rfl
@[simp] theorem Dev.emitAll_mbx (os : List Output) : (d.emitAll os).mbx = d.mbx := rfl
@[simp] theorem Dev.emitAll_sec (os : List Output) : (d.emitAll os).sec = d.sec := rfl
@[simp] theorem Dev.emitAll_ports (os : List Output) : (d.emitAll os).ports = d.ports := rfl
@[simp] theorem Dev.emitAll_routing (os : List Output) : (d.emitAll os).routing = d.routing := rfl
@[simp] theorem Dev.emitAll_xbar (os : List Output) : (d.emitAll os).xbar = d.xbar := rfl
@[simp] theorem Dev.emitAll_coll (os : List Output) : (d.emitAll os).coll = d.coll := rfl
@[simp] theorem Dev.emitAll_time (os : List Output) : (d.emitAll os).time = d.time := rfl
@[simp] theorem Dev.emitAll_evt (os : List Output) : (d.emitAll os).evt = d.evt := rfl
@[simp] theorem Dev.emitAll_shuttle (os : List Output) : (d.emitAll os).shuttle = d.shuttle := rfl
@[simp] theorem Dev.emitAll_dozeAborted (os : List Output) : (d.emitAll os).dozeAborted = d.dozeAborted := rfl
@[simp] theorem Dev.emitAll_fixedBits (os : List Output) : (d.emitAll os).fixedBits = d.fixedBits := rfl
@[simp] theorem Dev.emitAll_fixedPace (os : List Output) : (d.emitAll os).fixedPace = d.fixedPace := rfl
@[simp] theorem Dev.emitAll_started (os : List Output) : (d.emitAll os).started = d.started := rfl
@[simp] theorem Dev.emitAll_turns (os : List Output) : (d.emitAll os).turns = d.turns := rfl
@[simp] theorem Dev.emitAll_capGen (os : List Output) : (d.emitAll os).capGen = d.capGen := rfl
@[simp] theorem Dev.emitAll_capFinal (os : List Output) : (d.emitAll os).capFinal = d.capFinal := rfl
@[simp] theorem Dev.emitAll_capTick (os : List Output) : (d.emitAll os).capTick = d.capTick := rfl
@[simp] theorem Dev.emitAll_draws (os : List Output) : (d.emitAll os).draws = d.draws := rfl

/-! ## log -/

@[simp] theorem Dev.log_now (b r u : Nat) (v : Word) : (d.log b r u v).now = d.now := rfl
@[simp] theorem Dev.log_skew (b r u : Nat) (v : Word) : (d.log b r u v).skew = d.skew := rfl
@[simp] theorem Dev.log_power (b r u : Nat) (v : Word) : (d.log b r u v).power = d.power := rfl
@[simp] theorem Dev.log_dies (b r u : Nat) (v : Word) : (d.log b r u v).dies = d.dies := rfl
@[simp] theorem Dev.log_cap (b r u : Nat) (v : Word) : (d.log b r u v).cap = d.cap := rfl
@[simp] theorem Dev.log_host (b r u : Nat) (v : Word) : (d.log b r u v).host = d.host := rfl
@[simp] theorem Dev.log_blocks (b r u : Nat) (v : Word) : (d.log b r u v).blocks = d.blocks := rfl
@[simp] theorem Dev.log_ringSel (b r u : Nat) (v : Word) : (d.log b r u v).ringSel = d.ringSel := rfl
@[simp] theorem Dev.log_epochClaim (b r u : Nat) (v : Word) : (d.log b r u v).epochClaim = d.epochClaim := rfl
@[simp] theorem Dev.log_epochSlot (b r u : Nat) (v : Word) : (d.log b r u v).epochSlot = d.epochSlot := rfl
@[simp] theorem Dev.log_rings (b r u : Nat) (v : Word) : (d.log b r u v).rings = d.rings := rfl
@[simp] theorem Dev.log_tallies (b r u : Nat) (v : Word) : (d.log b r u v).tallies = d.tallies := rfl
@[simp] theorem Dev.log_claims (b r u : Nat) (v : Word) : (d.log b r u v).claims = d.claims := rfl
@[simp] theorem Dev.log_frames (b r u : Nat) (v : Word) : (d.log b r u v).frames = d.frames := rfl
@[simp] theorem Dev.log_objects (b r u : Nat) (v : Word) : (d.log b r u v).objects = d.objects := rfl
@[simp] theorem Dev.log_hoist (b r u : Nat) (v : Word) : (d.log b r u v).hoist = d.hoist := rfl
@[simp] theorem Dev.log_store (b r u : Nat) (v : Word) : (d.log b r u v).store = d.store := rfl
@[simp] theorem Dev.log_mbx (b r u : Nat) (v : Word) : (d.log b r u v).mbx = d.mbx := rfl
@[simp] theorem Dev.log_sec (b r u : Nat) (v : Word) : (d.log b r u v).sec = d.sec := rfl
@[simp] theorem Dev.log_ports (b r u : Nat) (v : Word) : (d.log b r u v).ports = d.ports := rfl
@[simp] theorem Dev.log_routing (b r u : Nat) (v : Word) : (d.log b r u v).routing = d.routing := rfl
@[simp] theorem Dev.log_xbar (b r u : Nat) (v : Word) : (d.log b r u v).xbar = d.xbar := rfl
@[simp] theorem Dev.log_coll (b r u : Nat) (v : Word) : (d.log b r u v).coll = d.coll := rfl
@[simp] theorem Dev.log_time (b r u : Nat) (v : Word) : (d.log b r u v).time = d.time := rfl
@[simp] theorem Dev.log_evt (b r u : Nat) (v : Word) : (d.log b r u v).evt = d.evt := rfl
@[simp] theorem Dev.log_shuttle (b r u : Nat) (v : Word) : (d.log b r u v).shuttle = d.shuttle := rfl
@[simp] theorem Dev.log_dozeAborted (b r u : Nat) (v : Word) : (d.log b r u v).dozeAborted = d.dozeAborted := rfl
@[simp] theorem Dev.log_fixedBits (b r u : Nat) (v : Word) : (d.log b r u v).fixedBits = d.fixedBits := rfl
@[simp] theorem Dev.log_fixedPace (b r u : Nat) (v : Word) : (d.log b r u v).fixedPace = d.fixedPace := rfl
@[simp] theorem Dev.log_started (b r u : Nat) (v : Word) : (d.log b r u v).started = d.started := rfl
@[simp] theorem Dev.log_turns (b r u : Nat) (v : Word) : (d.log b r u v).turns = d.turns := rfl
@[simp] theorem Dev.log_capGen (b r u : Nat) (v : Word) : (d.log b r u v).capGen = d.capGen := rfl
@[simp] theorem Dev.log_capFinal (b r u : Nat) (v : Word) : (d.log b r u v).capFinal = d.capFinal := rfl
@[simp] theorem Dev.log_capTick (b r u : Nat) (v : Word) : (d.log b r u v).capTick = d.capTick := rfl
@[simp] theorem Dev.log_draws (b r u : Nat) (v : Word) : (d.log b r u v).draws = d.draws := rfl
@[simp] theorem Dev.log_out (b r u : Nat) (v : Word) : (d.log b r u v).out = d.out := rfl

/-! ## stepTo -/

@[simp] theorem Dev.stepTo_power (v : Word) : (d.stepTo v).power = d.power := rfl
@[simp] theorem Dev.stepTo_dies (v : Word) : (d.stepTo v).dies = d.dies := rfl
@[simp] theorem Dev.stepTo_cap (v : Word) : (d.stepTo v).cap = d.cap := rfl
@[simp] theorem Dev.stepTo_host (v : Word) : (d.stepTo v).host = d.host := rfl
@[simp] theorem Dev.stepTo_blocks (v : Word) : (d.stepTo v).blocks = d.blocks := rfl
@[simp] theorem Dev.stepTo_ringSel (v : Word) : (d.stepTo v).ringSel = d.ringSel := rfl
@[simp] theorem Dev.stepTo_epochClaim (v : Word) : (d.stepTo v).epochClaim = d.epochClaim := rfl
@[simp] theorem Dev.stepTo_epochSlot (v : Word) : (d.stepTo v).epochSlot = d.epochSlot := rfl
@[simp] theorem Dev.stepTo_rings (v : Word) : (d.stepTo v).rings = d.rings := rfl
@[simp] theorem Dev.stepTo_tallies (v : Word) : (d.stepTo v).tallies = d.tallies := rfl
@[simp] theorem Dev.stepTo_claims (v : Word) : (d.stepTo v).claims = d.claims := rfl
@[simp] theorem Dev.stepTo_frames (v : Word) : (d.stepTo v).frames = d.frames := rfl
@[simp] theorem Dev.stepTo_objects (v : Word) : (d.stepTo v).objects = d.objects := rfl
@[simp] theorem Dev.stepTo_hoist (v : Word) : (d.stepTo v).hoist = d.hoist := rfl
@[simp] theorem Dev.stepTo_health (v : Word) : (d.stepTo v).health = d.health := rfl
@[simp] theorem Dev.stepTo_store (v : Word) : (d.stepTo v).store = d.store := rfl
@[simp] theorem Dev.stepTo_mbx (v : Word) : (d.stepTo v).mbx = d.mbx := rfl
@[simp] theorem Dev.stepTo_sec (v : Word) : (d.stepTo v).sec = d.sec := rfl
@[simp] theorem Dev.stepTo_ports (v : Word) : (d.stepTo v).ports = d.ports := rfl
@[simp] theorem Dev.stepTo_routing (v : Word) : (d.stepTo v).routing = d.routing := rfl
@[simp] theorem Dev.stepTo_xbar (v : Word) : (d.stepTo v).xbar = d.xbar := rfl
@[simp] theorem Dev.stepTo_coll (v : Word) : (d.stepTo v).coll = d.coll := rfl
@[simp] theorem Dev.stepTo_time (v : Word) : (d.stepTo v).time = d.time := rfl
@[simp] theorem Dev.stepTo_evt (v : Word) : (d.stepTo v).evt = d.evt := rfl
@[simp] theorem Dev.stepTo_shuttle (v : Word) : (d.stepTo v).shuttle = d.shuttle := rfl
@[simp] theorem Dev.stepTo_dozeAborted (v : Word) : (d.stepTo v).dozeAborted = d.dozeAborted := rfl
@[simp] theorem Dev.stepTo_fixedBits (v : Word) : (d.stepTo v).fixedBits = d.fixedBits := rfl
@[simp] theorem Dev.stepTo_fixedPace (v : Word) : (d.stepTo v).fixedPace = d.fixedPace := rfl
@[simp] theorem Dev.stepTo_started (v : Word) : (d.stepTo v).started = d.started := rfl
@[simp] theorem Dev.stepTo_turns (v : Word) : (d.stepTo v).turns = d.turns := rfl
@[simp] theorem Dev.stepTo_capGen (v : Word) : (d.stepTo v).capGen = d.capGen := rfl
@[simp] theorem Dev.stepTo_capFinal (v : Word) : (d.stepTo v).capFinal = d.capFinal := rfl
@[simp] theorem Dev.stepTo_capTick (v : Word) : (d.stepTo v).capTick = d.capTick := rfl
@[simp] theorem Dev.stepTo_draws (v : Word) : (d.stepTo v).draws = d.draws := rfl
@[simp] theorem Dev.stepTo_out (v : Word) : (d.stepTo v).out = d.out := rfl

/-! ## modEntry -/

@[simp] theorem Dev.modEntry_now (r : Nat) (c : W32) (f : Entry → Entry) : (d.modEntry r c f).now = d.now := rfl
@[simp] theorem Dev.modEntry_skew (r : Nat) (c : W32) (f : Entry → Entry) : (d.modEntry r c f).skew = d.skew := rfl
@[simp] theorem Dev.modEntry_power (r : Nat) (c : W32) (f : Entry → Entry) : (d.modEntry r c f).power = d.power := rfl
@[simp] theorem Dev.modEntry_dies (r : Nat) (c : W32) (f : Entry → Entry) : (d.modEntry r c f).dies = d.dies := rfl
@[simp] theorem Dev.modEntry_cap (r : Nat) (c : W32) (f : Entry → Entry) : (d.modEntry r c f).cap = d.cap := rfl
@[simp] theorem Dev.modEntry_host (r : Nat) (c : W32) (f : Entry → Entry) : (d.modEntry r c f).host = d.host := rfl
@[simp] theorem Dev.modEntry_blocks (r : Nat) (c : W32) (f : Entry → Entry) : (d.modEntry r c f).blocks = d.blocks := rfl
@[simp] theorem Dev.modEntry_ringSel (r : Nat) (c : W32) (f : Entry → Entry) : (d.modEntry r c f).ringSel = d.ringSel := rfl
@[simp] theorem Dev.modEntry_epochClaim (r : Nat) (c : W32) (f : Entry → Entry) : (d.modEntry r c f).epochClaim = d.epochClaim := rfl
@[simp] theorem Dev.modEntry_epochSlot (r : Nat) (c : W32) (f : Entry → Entry) : (d.modEntry r c f).epochSlot = d.epochSlot := rfl
@[simp] theorem Dev.modEntry_tallies (r : Nat) (c : W32) (f : Entry → Entry) : (d.modEntry r c f).tallies = d.tallies := rfl
@[simp] theorem Dev.modEntry_claims (r : Nat) (c : W32) (f : Entry → Entry) : (d.modEntry r c f).claims = d.claims := rfl
@[simp] theorem Dev.modEntry_frames (r : Nat) (c : W32) (f : Entry → Entry) : (d.modEntry r c f).frames = d.frames := rfl
@[simp] theorem Dev.modEntry_objects (r : Nat) (c : W32) (f : Entry → Entry) : (d.modEntry r c f).objects = d.objects := rfl
@[simp] theorem Dev.modEntry_hoist (r : Nat) (c : W32) (f : Entry → Entry) : (d.modEntry r c f).hoist = d.hoist := rfl
@[simp] theorem Dev.modEntry_health (r : Nat) (c : W32) (f : Entry → Entry) : (d.modEntry r c f).health = d.health := rfl
@[simp] theorem Dev.modEntry_store (r : Nat) (c : W32) (f : Entry → Entry) : (d.modEntry r c f).store = d.store := rfl
@[simp] theorem Dev.modEntry_mbx (r : Nat) (c : W32) (f : Entry → Entry) : (d.modEntry r c f).mbx = d.mbx := rfl
@[simp] theorem Dev.modEntry_sec (r : Nat) (c : W32) (f : Entry → Entry) : (d.modEntry r c f).sec = d.sec := rfl
@[simp] theorem Dev.modEntry_ports (r : Nat) (c : W32) (f : Entry → Entry) : (d.modEntry r c f).ports = d.ports := rfl
@[simp] theorem Dev.modEntry_routing (r : Nat) (c : W32) (f : Entry → Entry) : (d.modEntry r c f).routing = d.routing := rfl
@[simp] theorem Dev.modEntry_xbar (r : Nat) (c : W32) (f : Entry → Entry) : (d.modEntry r c f).xbar = d.xbar := rfl
@[simp] theorem Dev.modEntry_coll (r : Nat) (c : W32) (f : Entry → Entry) : (d.modEntry r c f).coll = d.coll := rfl
@[simp] theorem Dev.modEntry_time (r : Nat) (c : W32) (f : Entry → Entry) : (d.modEntry r c f).time = d.time := rfl
@[simp] theorem Dev.modEntry_evt (r : Nat) (c : W32) (f : Entry → Entry) : (d.modEntry r c f).evt = d.evt := rfl
@[simp] theorem Dev.modEntry_shuttle (r : Nat) (c : W32) (f : Entry → Entry) : (d.modEntry r c f).shuttle = d.shuttle := rfl
@[simp] theorem Dev.modEntry_dozeAborted (r : Nat) (c : W32) (f : Entry → Entry) : (d.modEntry r c f).dozeAborted = d.dozeAborted := rfl
@[simp] theorem Dev.modEntry_fixedBits (r : Nat) (c : W32) (f : Entry → Entry) : (d.modEntry r c f).fixedBits = d.fixedBits := rfl
@[simp] theorem Dev.modEntry_fixedPace (r : Nat) (c : W32) (f : Entry → Entry) : (d.modEntry r c f).fixedPace = d.fixedPace := rfl
@[simp] theorem Dev.modEntry_started (r : Nat) (c : W32) (f : Entry → Entry) : (d.modEntry r c f).started = d.started := rfl
@[simp] theorem Dev.modEntry_turns (r : Nat) (c : W32) (f : Entry → Entry) : (d.modEntry r c f).turns = d.turns := rfl
@[simp] theorem Dev.modEntry_capGen (r : Nat) (c : W32) (f : Entry → Entry) : (d.modEntry r c f).capGen = d.capGen := rfl
@[simp] theorem Dev.modEntry_capFinal (r : Nat) (c : W32) (f : Entry → Entry) : (d.modEntry r c f).capFinal = d.capFinal := rfl
@[simp] theorem Dev.modEntry_capTick (r : Nat) (c : W32) (f : Entry → Entry) : (d.modEntry r c f).capTick = d.capTick := rfl
@[simp] theorem Dev.modEntry_draws (r : Nat) (c : W32) (f : Entry → Entry) : (d.modEntry r c f).draws = d.draws := rfl
@[simp] theorem Dev.modEntry_out (r : Nat) (c : W32) (f : Entry → Entry) : (d.modEntry r c f).out = d.out := rfl

/-! ## serve -/

@[simp] theorem Dev.serve_now (w : Waiter) : (d.serve w).now = d.now := rfl
@[simp] theorem Dev.serve_skew (w : Waiter) : (d.serve w).skew = d.skew := rfl
@[simp] theorem Dev.serve_power (w : Waiter) : (d.serve w).power = d.power := rfl
@[simp] theorem Dev.serve_dies (w : Waiter) : (d.serve w).dies = d.dies := rfl
@[simp] theorem Dev.serve_cap (w : Waiter) : (d.serve w).cap = d.cap := rfl
@[simp] theorem Dev.serve_host (w : Waiter) : (d.serve w).host = d.host := rfl
@[simp] theorem Dev.serve_blocks (w : Waiter) : (d.serve w).blocks = d.blocks := rfl
@[simp] theorem Dev.serve_ringSel (w : Waiter) : (d.serve w).ringSel = d.ringSel := rfl
@[simp] theorem Dev.serve_epochClaim (w : Waiter) : (d.serve w).epochClaim = d.epochClaim := rfl
@[simp] theorem Dev.serve_epochSlot (w : Waiter) : (d.serve w).epochSlot = d.epochSlot := rfl
@[simp] theorem Dev.serve_tallies (w : Waiter) : (d.serve w).tallies = d.tallies := rfl
@[simp] theorem Dev.serve_claims (w : Waiter) : (d.serve w).claims = d.claims := rfl
@[simp] theorem Dev.serve_frames (w : Waiter) : (d.serve w).frames = d.frames := rfl
@[simp] theorem Dev.serve_objects (w : Waiter) : (d.serve w).objects = d.objects := rfl
@[simp] theorem Dev.serve_hoist (w : Waiter) : (d.serve w).hoist = d.hoist := rfl
@[simp] theorem Dev.serve_health (w : Waiter) : (d.serve w).health = d.health := rfl
@[simp] theorem Dev.serve_store (w : Waiter) : (d.serve w).store = d.store := rfl
@[simp] theorem Dev.serve_mbx (w : Waiter) : (d.serve w).mbx = d.mbx := rfl
@[simp] theorem Dev.serve_sec (w : Waiter) : (d.serve w).sec = d.sec := rfl
@[simp] theorem Dev.serve_ports (w : Waiter) : (d.serve w).ports = d.ports := rfl
@[simp] theorem Dev.serve_routing (w : Waiter) : (d.serve w).routing = d.routing := rfl
@[simp] theorem Dev.serve_xbar (w : Waiter) : (d.serve w).xbar = d.xbar := rfl
@[simp] theorem Dev.serve_coll (w : Waiter) : (d.serve w).coll = d.coll := rfl
@[simp] theorem Dev.serve_time (w : Waiter) : (d.serve w).time = d.time := rfl
@[simp] theorem Dev.serve_evt (w : Waiter) : (d.serve w).evt = d.evt := rfl
@[simp] theorem Dev.serve_shuttle (w : Waiter) : (d.serve w).shuttle = d.shuttle := rfl
@[simp] theorem Dev.serve_dozeAborted (w : Waiter) : (d.serve w).dozeAborted = d.dozeAborted := rfl
@[simp] theorem Dev.serve_fixedBits (w : Waiter) : (d.serve w).fixedBits = d.fixedBits := rfl
@[simp] theorem Dev.serve_fixedPace (w : Waiter) : (d.serve w).fixedPace = d.fixedPace := rfl
@[simp] theorem Dev.serve_started (w : Waiter) : (d.serve w).started = d.started := rfl
@[simp] theorem Dev.serve_turns (w : Waiter) : (d.serve w).turns = d.turns := rfl
@[simp] theorem Dev.serve_capGen (w : Waiter) : (d.serve w).capGen = d.capGen := rfl
@[simp] theorem Dev.serve_capFinal (w : Waiter) : (d.serve w).capFinal = d.capFinal := rfl
@[simp] theorem Dev.serve_capTick (w : Waiter) : (d.serve w).capTick = d.capTick := rfl
@[simp] theorem Dev.serve_draws (w : Waiter) : (d.serve w).draws = d.draws := rfl
@[simp] theorem Dev.serve_out (w : Waiter) : (d.serve w).out = d.out := rfl

/-! ## leaveTallies -/

@[simp] theorem Dev.leaveTallies_now (r : Nat) (c : W32) : (d.leaveTallies r c).now = d.now := rfl
@[simp] theorem Dev.leaveTallies_skew (r : Nat) (c : W32) : (d.leaveTallies r c).skew = d.skew := rfl
@[simp] theorem Dev.leaveTallies_power (r : Nat) (c : W32) : (d.leaveTallies r c).power = d.power := rfl
@[simp] theorem Dev.leaveTallies_dies (r : Nat) (c : W32) : (d.leaveTallies r c).dies = d.dies := rfl
@[simp] theorem Dev.leaveTallies_cap (r : Nat) (c : W32) : (d.leaveTallies r c).cap = d.cap := rfl
@[simp] theorem Dev.leaveTallies_host (r : Nat) (c : W32) : (d.leaveTallies r c).host = d.host := rfl
@[simp] theorem Dev.leaveTallies_blocks (r : Nat) (c : W32) : (d.leaveTallies r c).blocks = d.blocks := rfl
@[simp] theorem Dev.leaveTallies_ringSel (r : Nat) (c : W32) : (d.leaveTallies r c).ringSel = d.ringSel := rfl
@[simp] theorem Dev.leaveTallies_epochClaim (r : Nat) (c : W32) : (d.leaveTallies r c).epochClaim = d.epochClaim := rfl
@[simp] theorem Dev.leaveTallies_epochSlot (r : Nat) (c : W32) : (d.leaveTallies r c).epochSlot = d.epochSlot := rfl
@[simp] theorem Dev.leaveTallies_rings (r : Nat) (c : W32) : (d.leaveTallies r c).rings = d.rings := rfl
@[simp] theorem Dev.leaveTallies_claims (r : Nat) (c : W32) : (d.leaveTallies r c).claims = d.claims := rfl
@[simp] theorem Dev.leaveTallies_frames (r : Nat) (c : W32) : (d.leaveTallies r c).frames = d.frames := rfl
@[simp] theorem Dev.leaveTallies_objects (r : Nat) (c : W32) : (d.leaveTallies r c).objects = d.objects := rfl
@[simp] theorem Dev.leaveTallies_hoist (r : Nat) (c : W32) : (d.leaveTallies r c).hoist = d.hoist := rfl
@[simp] theorem Dev.leaveTallies_health (r : Nat) (c : W32) : (d.leaveTallies r c).health = d.health := rfl
@[simp] theorem Dev.leaveTallies_store (r : Nat) (c : W32) : (d.leaveTallies r c).store = d.store := rfl
@[simp] theorem Dev.leaveTallies_mbx (r : Nat) (c : W32) : (d.leaveTallies r c).mbx = d.mbx := rfl
@[simp] theorem Dev.leaveTallies_sec (r : Nat) (c : W32) : (d.leaveTallies r c).sec = d.sec := rfl
@[simp] theorem Dev.leaveTallies_ports (r : Nat) (c : W32) : (d.leaveTallies r c).ports = d.ports := rfl
@[simp] theorem Dev.leaveTallies_routing (r : Nat) (c : W32) : (d.leaveTallies r c).routing = d.routing := rfl
@[simp] theorem Dev.leaveTallies_xbar (r : Nat) (c : W32) : (d.leaveTallies r c).xbar = d.xbar := rfl
@[simp] theorem Dev.leaveTallies_coll (r : Nat) (c : W32) : (d.leaveTallies r c).coll = d.coll := rfl
@[simp] theorem Dev.leaveTallies_time (r : Nat) (c : W32) : (d.leaveTallies r c).time = d.time := rfl
@[simp] theorem Dev.leaveTallies_evt (r : Nat) (c : W32) : (d.leaveTallies r c).evt = d.evt := rfl
@[simp] theorem Dev.leaveTallies_shuttle (r : Nat) (c : W32) : (d.leaveTallies r c).shuttle = d.shuttle := rfl
@[simp] theorem Dev.leaveTallies_dozeAborted (r : Nat) (c : W32) : (d.leaveTallies r c).dozeAborted = d.dozeAborted := rfl
@[simp] theorem Dev.leaveTallies_fixedBits (r : Nat) (c : W32) : (d.leaveTallies r c).fixedBits = d.fixedBits := rfl
@[simp] theorem Dev.leaveTallies_fixedPace (r : Nat) (c : W32) : (d.leaveTallies r c).fixedPace = d.fixedPace := rfl
@[simp] theorem Dev.leaveTallies_started (r : Nat) (c : W32) : (d.leaveTallies r c).started = d.started := rfl
@[simp] theorem Dev.leaveTallies_turns (r : Nat) (c : W32) : (d.leaveTallies r c).turns = d.turns := rfl
@[simp] theorem Dev.leaveTallies_capGen (r : Nat) (c : W32) : (d.leaveTallies r c).capGen = d.capGen := rfl
@[simp] theorem Dev.leaveTallies_capFinal (r : Nat) (c : W32) : (d.leaveTallies r c).capFinal = d.capFinal := rfl
@[simp] theorem Dev.leaveTallies_capTick (r : Nat) (c : W32) : (d.leaveTallies r c).capTick = d.capTick := rfl
@[simp] theorem Dev.leaveTallies_draws (r : Nat) (c : W32) : (d.leaveTallies r c).draws = d.draws := rfl
@[simp] theorem Dev.leaveTallies_out (r : Nat) (c : W32) : (d.leaveTallies r c).out = d.out := rfl

/-! ## account -/

@[simp] theorem Dev.account_now (c p e f h : Nat) : (d.account c p e f h).now = d.now := rfl
@[simp] theorem Dev.account_skew (c p e f h : Nat) : (d.account c p e f h).skew = d.skew := rfl
@[simp] theorem Dev.account_power (c p e f h : Nat) : (d.account c p e f h).power = d.power := rfl
@[simp] theorem Dev.account_dies (c p e f h : Nat) : (d.account c p e f h).dies = d.dies := rfl
@[simp] theorem Dev.account_cap (c p e f h : Nat) : (d.account c p e f h).cap = d.cap := rfl
@[simp] theorem Dev.account_host (c p e f h : Nat) : (d.account c p e f h).host = d.host := rfl
@[simp] theorem Dev.account_blocks (c p e f h : Nat) : (d.account c p e f h).blocks = d.blocks := rfl
@[simp] theorem Dev.account_ringSel (c p e f h : Nat) : (d.account c p e f h).ringSel = d.ringSel := rfl
@[simp] theorem Dev.account_epochClaim (c p e f h : Nat) : (d.account c p e f h).epochClaim = d.epochClaim := rfl
@[simp] theorem Dev.account_epochSlot (c p e f h : Nat) : (d.account c p e f h).epochSlot = d.epochSlot := rfl
@[simp] theorem Dev.account_rings (c p e f h : Nat) : (d.account c p e f h).rings = d.rings := rfl
@[simp] theorem Dev.account_tallies (c p e f h : Nat) : (d.account c p e f h).tallies = d.tallies := rfl
@[simp] theorem Dev.account_frames (c p e f h : Nat) : (d.account c p e f h).frames = d.frames := rfl
@[simp] theorem Dev.account_objects (c p e f h : Nat) : (d.account c p e f h).objects = d.objects := rfl
@[simp] theorem Dev.account_hoist (c p e f h : Nat) : (d.account c p e f h).hoist = d.hoist := rfl
@[simp] theorem Dev.account_health (c p e f h : Nat) : (d.account c p e f h).health = d.health := rfl
@[simp] theorem Dev.account_store (c p e f h : Nat) : (d.account c p e f h).store = d.store := rfl
@[simp] theorem Dev.account_mbx (c p e f h : Nat) : (d.account c p e f h).mbx = d.mbx := rfl
@[simp] theorem Dev.account_sec (c p e f h : Nat) : (d.account c p e f h).sec = d.sec := rfl
@[simp] theorem Dev.account_ports (c p e f h : Nat) : (d.account c p e f h).ports = d.ports := rfl
@[simp] theorem Dev.account_routing (c p e f h : Nat) : (d.account c p e f h).routing = d.routing := rfl
@[simp] theorem Dev.account_xbar (c p e f h : Nat) : (d.account c p e f h).xbar = d.xbar := rfl
@[simp] theorem Dev.account_coll (c p e f h : Nat) : (d.account c p e f h).coll = d.coll := rfl
@[simp] theorem Dev.account_time (c p e f h : Nat) : (d.account c p e f h).time = d.time := rfl
@[simp] theorem Dev.account_evt (c p e f h : Nat) : (d.account c p e f h).evt = d.evt := rfl
@[simp] theorem Dev.account_shuttle (c p e f h : Nat) : (d.account c p e f h).shuttle = d.shuttle := rfl
@[simp] theorem Dev.account_dozeAborted (c p e f h : Nat) : (d.account c p e f h).dozeAborted = d.dozeAborted := rfl
@[simp] theorem Dev.account_fixedBits (c p e f h : Nat) : (d.account c p e f h).fixedBits = d.fixedBits := rfl
@[simp] theorem Dev.account_fixedPace (c p e f h : Nat) : (d.account c p e f h).fixedPace = d.fixedPace := rfl
@[simp] theorem Dev.account_started (c p e f h : Nat) : (d.account c p e f h).started = d.started := rfl
@[simp] theorem Dev.account_turns (c p e f h : Nat) : (d.account c p e f h).turns = d.turns := rfl
@[simp] theorem Dev.account_capGen (c p e f h : Nat) : (d.account c p e f h).capGen = d.capGen := rfl
@[simp] theorem Dev.account_capFinal (c p e f h : Nat) : (d.account c p e f h).capFinal = d.capFinal := rfl
@[simp] theorem Dev.account_capTick (c p e f h : Nat) : (d.account c p e f h).capTick = d.capTick := rfl
@[simp] theorem Dev.account_draws (c p e f h : Nat) : (d.account c p e f h).draws = d.draws := rfl
@[simp] theorem Dev.account_out (c p e f h : Nat) : (d.account c p e f h).out = d.out := rfl

/-! ## modMeter -/

@[simp] theorem Dev.modMeter_now (c k : Nat) (f : MeterSt → MeterSt) : (d.modMeter c k f).now = d.now := rfl
@[simp] theorem Dev.modMeter_skew (c k : Nat) (f : MeterSt → MeterSt) : (d.modMeter c k f).skew = d.skew := rfl
@[simp] theorem Dev.modMeter_power (c k : Nat) (f : MeterSt → MeterSt) : (d.modMeter c k f).power = d.power := rfl
@[simp] theorem Dev.modMeter_dies (c k : Nat) (f : MeterSt → MeterSt) : (d.modMeter c k f).dies = d.dies := rfl
@[simp] theorem Dev.modMeter_cap (c k : Nat) (f : MeterSt → MeterSt) : (d.modMeter c k f).cap = d.cap := rfl
@[simp] theorem Dev.modMeter_host (c k : Nat) (f : MeterSt → MeterSt) : (d.modMeter c k f).host = d.host := rfl
@[simp] theorem Dev.modMeter_blocks (c k : Nat) (f : MeterSt → MeterSt) : (d.modMeter c k f).blocks = d.blocks := rfl
@[simp] theorem Dev.modMeter_ringSel (c k : Nat) (f : MeterSt → MeterSt) : (d.modMeter c k f).ringSel = d.ringSel := rfl
@[simp] theorem Dev.modMeter_epochClaim (c k : Nat) (f : MeterSt → MeterSt) : (d.modMeter c k f).epochClaim = d.epochClaim := rfl
@[simp] theorem Dev.modMeter_epochSlot (c k : Nat) (f : MeterSt → MeterSt) : (d.modMeter c k f).epochSlot = d.epochSlot := rfl
@[simp] theorem Dev.modMeter_rings (c k : Nat) (f : MeterSt → MeterSt) : (d.modMeter c k f).rings = d.rings := rfl
@[simp] theorem Dev.modMeter_tallies (c k : Nat) (f : MeterSt → MeterSt) : (d.modMeter c k f).tallies = d.tallies := rfl
@[simp] theorem Dev.modMeter_frames (c k : Nat) (f : MeterSt → MeterSt) : (d.modMeter c k f).frames = d.frames := rfl
@[simp] theorem Dev.modMeter_objects (c k : Nat) (f : MeterSt → MeterSt) : (d.modMeter c k f).objects = d.objects := rfl
@[simp] theorem Dev.modMeter_hoist (c k : Nat) (f : MeterSt → MeterSt) : (d.modMeter c k f).hoist = d.hoist := rfl
@[simp] theorem Dev.modMeter_health (c k : Nat) (f : MeterSt → MeterSt) : (d.modMeter c k f).health = d.health := rfl
@[simp] theorem Dev.modMeter_store (c k : Nat) (f : MeterSt → MeterSt) : (d.modMeter c k f).store = d.store := rfl
@[simp] theorem Dev.modMeter_mbx (c k : Nat) (f : MeterSt → MeterSt) : (d.modMeter c k f).mbx = d.mbx := rfl
@[simp] theorem Dev.modMeter_sec (c k : Nat) (f : MeterSt → MeterSt) : (d.modMeter c k f).sec = d.sec := rfl
@[simp] theorem Dev.modMeter_ports (c k : Nat) (f : MeterSt → MeterSt) : (d.modMeter c k f).ports = d.ports := rfl
@[simp] theorem Dev.modMeter_routing (c k : Nat) (f : MeterSt → MeterSt) : (d.modMeter c k f).routing = d.routing := rfl
@[simp] theorem Dev.modMeter_xbar (c k : Nat) (f : MeterSt → MeterSt) : (d.modMeter c k f).xbar = d.xbar := rfl
@[simp] theorem Dev.modMeter_coll (c k : Nat) (f : MeterSt → MeterSt) : (d.modMeter c k f).coll = d.coll := rfl
@[simp] theorem Dev.modMeter_time (c k : Nat) (f : MeterSt → MeterSt) : (d.modMeter c k f).time = d.time := rfl
@[simp] theorem Dev.modMeter_evt (c k : Nat) (f : MeterSt → MeterSt) : (d.modMeter c k f).evt = d.evt := rfl
@[simp] theorem Dev.modMeter_shuttle (c k : Nat) (f : MeterSt → MeterSt) : (d.modMeter c k f).shuttle = d.shuttle := rfl
@[simp] theorem Dev.modMeter_dozeAborted (c k : Nat) (f : MeterSt → MeterSt) : (d.modMeter c k f).dozeAborted = d.dozeAborted := rfl
@[simp] theorem Dev.modMeter_fixedBits (c k : Nat) (f : MeterSt → MeterSt) : (d.modMeter c k f).fixedBits = d.fixedBits := rfl
@[simp] theorem Dev.modMeter_fixedPace (c k : Nat) (f : MeterSt → MeterSt) : (d.modMeter c k f).fixedPace = d.fixedPace := rfl
@[simp] theorem Dev.modMeter_started (c k : Nat) (f : MeterSt → MeterSt) : (d.modMeter c k f).started = d.started := rfl
@[simp] theorem Dev.modMeter_turns (c k : Nat) (f : MeterSt → MeterSt) : (d.modMeter c k f).turns = d.turns := rfl
@[simp] theorem Dev.modMeter_capGen (c k : Nat) (f : MeterSt → MeterSt) : (d.modMeter c k f).capGen = d.capGen := rfl
@[simp] theorem Dev.modMeter_capFinal (c k : Nat) (f : MeterSt → MeterSt) : (d.modMeter c k f).capFinal = d.capFinal := rfl
@[simp] theorem Dev.modMeter_capTick (c k : Nat) (f : MeterSt → MeterSt) : (d.modMeter c k f).capTick = d.capTick := rfl
@[simp] theorem Dev.modMeter_draws (c k : Nat) (f : MeterSt → MeterSt) : (d.modMeter c k f).draws = d.draws := rfl
@[simp] theorem Dev.modMeter_out (c k : Nat) (f : MeterSt → MeterSt) : (d.modMeter c k f).out = d.out := rfl

/-! ## objResult -/

@[simp] theorem Dev.objResult_now (x : Nat) : (d.objResult x).now = d.now := rfl
@[simp] theorem Dev.objResult_skew (x : Nat) : (d.objResult x).skew = d.skew := rfl
@[simp] theorem Dev.objResult_power (x : Nat) : (d.objResult x).power = d.power := rfl
@[simp] theorem Dev.objResult_dies (x : Nat) : (d.objResult x).dies = d.dies := rfl
@[simp] theorem Dev.objResult_cap (x : Nat) : (d.objResult x).cap = d.cap := rfl
@[simp] theorem Dev.objResult_host (x : Nat) : (d.objResult x).host = d.host := rfl
@[simp] theorem Dev.objResult_blocks (x : Nat) : (d.objResult x).blocks = d.blocks := rfl
@[simp] theorem Dev.objResult_ringSel (x : Nat) : (d.objResult x).ringSel = d.ringSel := rfl
@[simp] theorem Dev.objResult_epochClaim (x : Nat) : (d.objResult x).epochClaim = d.epochClaim := rfl
@[simp] theorem Dev.objResult_epochSlot (x : Nat) : (d.objResult x).epochSlot = d.epochSlot := rfl
@[simp] theorem Dev.objResult_rings (x : Nat) : (d.objResult x).rings = d.rings := rfl
@[simp] theorem Dev.objResult_tallies (x : Nat) : (d.objResult x).tallies = d.tallies := rfl
@[simp] theorem Dev.objResult_claims (x : Nat) : (d.objResult x).claims = d.claims := rfl
@[simp] theorem Dev.objResult_frames (x : Nat) : (d.objResult x).frames = d.frames := rfl
@[simp] theorem Dev.objResult_objects (x : Nat) : (d.objResult x).objects = d.objects := rfl
@[simp] theorem Dev.objResult_health (x : Nat) : (d.objResult x).health = d.health := rfl
@[simp] theorem Dev.objResult_store (x : Nat) : (d.objResult x).store = d.store := rfl
@[simp] theorem Dev.objResult_mbx (x : Nat) : (d.objResult x).mbx = d.mbx := rfl
@[simp] theorem Dev.objResult_sec (x : Nat) : (d.objResult x).sec = d.sec := rfl
@[simp] theorem Dev.objResult_ports (x : Nat) : (d.objResult x).ports = d.ports := rfl
@[simp] theorem Dev.objResult_routing (x : Nat) : (d.objResult x).routing = d.routing := rfl
@[simp] theorem Dev.objResult_xbar (x : Nat) : (d.objResult x).xbar = d.xbar := rfl
@[simp] theorem Dev.objResult_coll (x : Nat) : (d.objResult x).coll = d.coll := rfl
@[simp] theorem Dev.objResult_time (x : Nat) : (d.objResult x).time = d.time := rfl
@[simp] theorem Dev.objResult_evt (x : Nat) : (d.objResult x).evt = d.evt := rfl
@[simp] theorem Dev.objResult_shuttle (x : Nat) : (d.objResult x).shuttle = d.shuttle := rfl
@[simp] theorem Dev.objResult_dozeAborted (x : Nat) : (d.objResult x).dozeAborted = d.dozeAborted := rfl
@[simp] theorem Dev.objResult_fixedBits (x : Nat) : (d.objResult x).fixedBits = d.fixedBits := rfl
@[simp] theorem Dev.objResult_fixedPace (x : Nat) : (d.objResult x).fixedPace = d.fixedPace := rfl
@[simp] theorem Dev.objResult_started (x : Nat) : (d.objResult x).started = d.started := rfl
@[simp] theorem Dev.objResult_turns (x : Nat) : (d.objResult x).turns = d.turns := rfl
@[simp] theorem Dev.objResult_capGen (x : Nat) : (d.objResult x).capGen = d.capGen := rfl
@[simp] theorem Dev.objResult_capFinal (x : Nat) : (d.objResult x).capFinal = d.capFinal := rfl
@[simp] theorem Dev.objResult_capTick (x : Nat) : (d.objResult x).capTick = d.capTick := rfl
@[simp] theorem Dev.objResult_draws (x : Nat) : (d.objResult x).draws = d.draws := rfl
@[simp] theorem Dev.objResult_out (x : Nat) : (d.objResult x).out = d.out := rfl

/-! ## freeObj -/

@[simp] theorem Dev.freeObj_now (n : Nat) : (d.freeObj n).now = d.now := rfl
@[simp] theorem Dev.freeObj_skew (n : Nat) : (d.freeObj n).skew = d.skew := rfl
@[simp] theorem Dev.freeObj_power (n : Nat) : (d.freeObj n).power = d.power := rfl
@[simp] theorem Dev.freeObj_cap (n : Nat) : (d.freeObj n).cap = d.cap := rfl
@[simp] theorem Dev.freeObj_host (n : Nat) : (d.freeObj n).host = d.host := rfl
@[simp] theorem Dev.freeObj_blocks (n : Nat) : (d.freeObj n).blocks = d.blocks := rfl
@[simp] theorem Dev.freeObj_ringSel (n : Nat) : (d.freeObj n).ringSel = d.ringSel := rfl
@[simp] theorem Dev.freeObj_epochClaim (n : Nat) : (d.freeObj n).epochClaim = d.epochClaim := rfl
@[simp] theorem Dev.freeObj_epochSlot (n : Nat) : (d.freeObj n).epochSlot = d.epochSlot := rfl
@[simp] theorem Dev.freeObj_rings (n : Nat) : (d.freeObj n).rings = d.rings := rfl
@[simp] theorem Dev.freeObj_tallies (n : Nat) : (d.freeObj n).tallies = d.tallies := rfl
@[simp] theorem Dev.freeObj_claims (n : Nat) : (d.freeObj n).claims = d.claims := rfl
@[simp] theorem Dev.freeObj_frames (n : Nat) : (d.freeObj n).frames = d.frames := rfl
@[simp] theorem Dev.freeObj_hoist (n : Nat) : (d.freeObj n).hoist = d.hoist := rfl
@[simp] theorem Dev.freeObj_health (n : Nat) : (d.freeObj n).health = d.health := rfl
@[simp] theorem Dev.freeObj_store (n : Nat) : (d.freeObj n).store = d.store := rfl
@[simp] theorem Dev.freeObj_mbx (n : Nat) : (d.freeObj n).mbx = d.mbx := rfl
@[simp] theorem Dev.freeObj_sec (n : Nat) : (d.freeObj n).sec = d.sec := rfl
@[simp] theorem Dev.freeObj_ports (n : Nat) : (d.freeObj n).ports = d.ports := rfl
@[simp] theorem Dev.freeObj_routing (n : Nat) : (d.freeObj n).routing = d.routing := rfl
@[simp] theorem Dev.freeObj_xbar (n : Nat) : (d.freeObj n).xbar = d.xbar := rfl
@[simp] theorem Dev.freeObj_coll (n : Nat) : (d.freeObj n).coll = d.coll := rfl
@[simp] theorem Dev.freeObj_time (n : Nat) : (d.freeObj n).time = d.time := rfl
@[simp] theorem Dev.freeObj_evt (n : Nat) : (d.freeObj n).evt = d.evt := rfl
@[simp] theorem Dev.freeObj_shuttle (n : Nat) : (d.freeObj n).shuttle = d.shuttle := rfl
@[simp] theorem Dev.freeObj_dozeAborted (n : Nat) : (d.freeObj n).dozeAborted = d.dozeAborted := rfl
@[simp] theorem Dev.freeObj_fixedBits (n : Nat) : (d.freeObj n).fixedBits = d.fixedBits := rfl
@[simp] theorem Dev.freeObj_fixedPace (n : Nat) : (d.freeObj n).fixedPace = d.fixedPace := rfl
@[simp] theorem Dev.freeObj_started (n : Nat) : (d.freeObj n).started = d.started := rfl
@[simp] theorem Dev.freeObj_turns (n : Nat) : (d.freeObj n).turns = d.turns := rfl
@[simp] theorem Dev.freeObj_capGen (n : Nat) : (d.freeObj n).capGen = d.capGen := rfl
@[simp] theorem Dev.freeObj_capFinal (n : Nat) : (d.freeObj n).capFinal = d.capFinal := rfl
@[simp] theorem Dev.freeObj_capTick (n : Nat) : (d.freeObj n).capTick = d.capTick := rfl
@[simp] theorem Dev.freeObj_draws (n : Nat) : (d.freeObj n).draws = d.draws := rfl
@[simp] theorem Dev.freeObj_out (n : Nat) : (d.freeObj n).out = d.out := rfl

/-! ## dropLines -/

@[simp] theorem Dev.dropLines_now  : d.dropLines.now = d.now := rfl
@[simp] theorem Dev.dropLines_skew  : d.dropLines.skew = d.skew := rfl
@[simp] theorem Dev.dropLines_power  : d.dropLines.power = d.power := rfl
@[simp] theorem Dev.dropLines_dies  : d.dropLines.dies = d.dies := rfl
@[simp] theorem Dev.dropLines_cap  : d.dropLines.cap = d.cap := rfl
@[simp] theorem Dev.dropLines_host  : d.dropLines.host = d.host := rfl
@[simp] theorem Dev.dropLines_blocks  : d.dropLines.blocks = d.blocks := rfl
@[simp] theorem Dev.dropLines_ringSel  : d.dropLines.ringSel = d.ringSel := rfl
@[simp] theorem Dev.dropLines_epochClaim  : d.dropLines.epochClaim = d.epochClaim := rfl
@[simp] theorem Dev.dropLines_epochSlot  : d.dropLines.epochSlot = d.epochSlot := rfl
@[simp] theorem Dev.dropLines_tallies  : d.dropLines.tallies = d.tallies := rfl
@[simp] theorem Dev.dropLines_claims  : d.dropLines.claims = d.claims := rfl
@[simp] theorem Dev.dropLines_frames  : d.dropLines.frames = d.frames := rfl
@[simp] theorem Dev.dropLines_objects  : d.dropLines.objects = d.objects := rfl
@[simp] theorem Dev.dropLines_hoist  : d.dropLines.hoist = d.hoist := rfl
@[simp] theorem Dev.dropLines_health  : d.dropLines.health = d.health := rfl
@[simp] theorem Dev.dropLines_store  : d.dropLines.store = d.store := rfl
@[simp] theorem Dev.dropLines_mbx  : d.dropLines.mbx = d.mbx := rfl
@[simp] theorem Dev.dropLines_sec  : d.dropLines.sec = d.sec := rfl
@[simp] theorem Dev.dropLines_ports  : d.dropLines.ports = d.ports := rfl
@[simp] theorem Dev.dropLines_routing  : d.dropLines.routing = d.routing := rfl
@[simp] theorem Dev.dropLines_xbar  : d.dropLines.xbar = d.xbar := rfl
@[simp] theorem Dev.dropLines_coll  : d.dropLines.coll = d.coll := rfl
@[simp] theorem Dev.dropLines_time  : d.dropLines.time = d.time := rfl
@[simp] theorem Dev.dropLines_evt  : d.dropLines.evt = d.evt := rfl
@[simp] theorem Dev.dropLines_shuttle  : d.dropLines.shuttle = d.shuttle := rfl
@[simp] theorem Dev.dropLines_dozeAborted  : d.dropLines.dozeAborted = d.dozeAborted := rfl
@[simp] theorem Dev.dropLines_fixedBits  : d.dropLines.fixedBits = d.fixedBits := rfl
@[simp] theorem Dev.dropLines_fixedPace  : d.dropLines.fixedPace = d.fixedPace := rfl
@[simp] theorem Dev.dropLines_started  : d.dropLines.started = d.started := rfl
@[simp] theorem Dev.dropLines_turns  : d.dropLines.turns = d.turns := rfl
@[simp] theorem Dev.dropLines_capGen  : d.dropLines.capGen = d.capGen := rfl
@[simp] theorem Dev.dropLines_capFinal  : d.dropLines.capFinal = d.capFinal := rfl
@[simp] theorem Dev.dropLines_capTick  : d.dropLines.capTick = d.capTick := rfl
@[simp] theorem Dev.dropLines_draws  : d.dropLines.draws = d.draws := rfl
@[simp] theorem Dev.dropLines_out  : d.dropLines.out = d.out := rfl

end Sys2Proof.Machine
end

