-- ==== Sys2Proof/Laws/Ops.lean ====
section
/-!
SUPPORT. What each shared operation leaves of the device: one law for each field.
-/
namespace Sys2Proof.Machine

-- One proof at a time: proofs in parallel would all wait, each in a thread of its own, for the equation of one definition.
set_option Elab.async false

variable (d : Dev)

/-! ## Folds -/

/-- What every step of a fold keeps, the fold keeps. -/
theorem foldl_keep {α β γ : Type} (g : α → γ) (f : α → β → α) (h : ∀ a b, g (f a b) = g a) (l : List β) (a : α) :
    g (l.foldl f a) = g a := by
  induction l generalizing a with
  | nil => rfl
  | cons b l ih => rw [List.foldl_cons, ih, h]

/-! ## draw -/

@[simp] theorem Dev.draw_now  : (d.draw).2.now = d.now := by
  rfl
@[simp] theorem Dev.draw_skew  : (d.draw).2.skew = d.skew := by
  rfl
@[simp] theorem Dev.draw_power  : (d.draw).2.power = d.power := by
  rfl
@[simp] theorem Dev.draw_dies  : (d.draw).2.dies = d.dies := by
  rfl
@[simp] theorem Dev.draw_cap  : (d.draw).2.cap = d.cap := by
  rfl
@[simp] theorem Dev.draw_host  : (d.draw).2.host = d.host := by
  rfl
@[simp] theorem Dev.draw_blocks  : (d.draw).2.blocks = d.blocks := by
  rfl
@[simp] theorem Dev.draw_ringSel  : (d.draw).2.ringSel = d.ringSel := by
  rfl
@[simp] theorem Dev.draw_epochClaim  : (d.draw).2.epochClaim = d.epochClaim := by
  rfl
@[simp] theorem Dev.draw_epochSlot  : (d.draw).2.epochSlot = d.epochSlot := by
  rfl
@[simp] theorem Dev.draw_rings  : (d.draw).2.rings = d.rings := by
  rfl
@[simp] theorem Dev.draw_tallies  : (d.draw).2.tallies = d.tallies := by
  rfl
@[simp] theorem Dev.draw_claims  : (d.draw).2.claims = d.claims := by
  rfl
@[simp] theorem Dev.draw_frames  : (d.draw).2.frames = d.frames := by
  rfl
@[simp] theorem Dev.draw_objects  : (d.draw).2.objects = d.objects := by
  rfl
@[simp] theorem Dev.draw_hoist  : (d.draw).2.hoist = d.hoist := by
  rfl
@[simp] theorem Dev.draw_health  : (d.draw).2.health = d.health := by
  rfl
@[simp] theorem Dev.draw_store  : (d.draw).2.store = d.store := by
  rfl
@[simp] theorem Dev.draw_mbx  : (d.draw).2.mbx = d.mbx := by
  rfl
@[simp] theorem Dev.draw_sec  : (d.draw).2.sec = d.sec := by
  rfl
@[simp] theorem Dev.draw_ports  : (d.draw).2.ports = d.ports := by
  rfl
@[simp] theorem Dev.draw_routing  : (d.draw).2.routing = d.routing := by
  rfl
@[simp] theorem Dev.draw_xbar  : (d.draw).2.xbar = d.xbar := by
  rfl
@[simp] theorem Dev.draw_coll  : (d.draw).2.coll = d.coll := by
  rfl
@[simp] theorem Dev.draw_time  : (d.draw).2.time = d.time := by
  rfl
@[simp] theorem Dev.draw_evt  : (d.draw).2.evt = d.evt := by
  rfl
@[simp] theorem Dev.draw_shuttle  : (d.draw).2.shuttle = d.shuttle := by
  rfl
@[simp] theorem Dev.draw_dozeAborted  : (d.draw).2.dozeAborted = d.dozeAborted := by
  rfl
@[simp] theorem Dev.draw_fixedBits  : (d.draw).2.fixedBits = d.fixedBits := by
  rfl
@[simp] theorem Dev.draw_fixedPace  : (d.draw).2.fixedPace = d.fixedPace := by
  rfl
@[simp] theorem Dev.draw_started  : (d.draw).2.started = d.started := by
  rfl
@[simp] theorem Dev.draw_turns  : (d.draw).2.turns = d.turns := by
  rfl
@[simp] theorem Dev.draw_capGen  : (d.draw).2.capGen = d.capGen := by
  rfl
@[simp] theorem Dev.draw_capFinal  : (d.draw).2.capFinal = d.capFinal := by
  rfl
@[simp] theorem Dev.draw_capTick  : (d.draw).2.capTick = d.capTick := by
  rfl
@[simp] theorem Dev.draw_out  : (d.draw).2.out = d.out := by
  rfl

/-! ## raise -/

@[simp] theorem Dev.raise_now (v : Nat) : (d.raise v).now = d.now := by
  unfold Dev.raise; try dsimp only
  (repeat' split) <;> simp
@[simp] theorem Dev.raise_skew (v : Nat) : (d.raise v).skew = d.skew := by
  unfold Dev.raise; try dsimp only
  (repeat' split) <;> simp
@[simp] theorem Dev.raise_power (v : Nat) : (d.raise v).power = d.power := by
  unfold Dev.raise; try dsimp only
  (repeat' split) <;> simp
@[simp] theorem Dev.raise_dies (v : Nat) : (d.raise v).dies = d.dies := by
  unfold Dev.raise; try dsimp only
  (repeat' split) <;> simp
@[simp] theorem Dev.raise_cap (v : Nat) : (d.raise v).cap = d.cap := by
  unfold Dev.raise; try dsimp only
  (repeat' split) <;> simp
@[simp] theorem Dev.raise_blocks (v : Nat) : (d.raise v).blocks = d.blocks := by
  unfold Dev.raise; try dsimp only
  (repeat' split) <;> simp
@[simp] theorem Dev.raise_ringSel (v : Nat) : (d.raise v).ringSel = d.ringSel := by
  unfold Dev.raise; try dsimp only
  (repeat' split) <;> simp
@[simp] theorem Dev.raise_epochClaim (v : Nat) : (d.raise v).epochClaim = d.epochClaim := by
  unfold Dev.raise; try dsimp only
  (repeat' split) <;> simp
@[simp] theorem Dev.raise_epochSlot (v : Nat) : (d.raise v).epochSlot = d.epochSlot := by
  unfold Dev.raise; try dsimp only
  (repeat' split) <;> simp
@[simp] theorem Dev.raise_rings (v : Nat) : (d.raise v).rings = d.rings := by
  unfold Dev.raise; try dsimp only
  (repeat' split) <;> simp
@[simp] theorem Dev.raise_tallies (v : Nat) : (d.raise v).tallies = d.tallies := by
  unfold Dev.raise; try dsimp only
  (repeat' split) <;> simp
@[simp] theorem Dev.raise_claims (v : Nat) : (d.raise v).claims = d.claims := by
  unfold Dev.raise; try dsimp only
  (repeat' split) <;> simp
@[simp] theorem Dev.raise_frames (v : Nat) : (d.raise v).frames = d.frames := by
  unfold Dev.raise; try dsimp only
  (repeat' split) <;> simp
@[simp] theorem Dev.raise_objects (v : Nat) : (d.raise v).objects = d.objects := by
  unfold Dev.raise; try dsimp only
  (repeat' split) <;> simp
@[simp] theorem Dev.raise_hoist (v : Nat) : (d.raise v).hoist = d.hoist := by
  unfold Dev.raise; try dsimp only
  (repeat' split) <;> simp
@[simp] theorem Dev.raise_health (v : Nat) : (d.raise v).health = d.health := by
  unfold Dev.raise; try dsimp only
  (repeat' split) <;> simp
@[simp] theorem Dev.raise_store (v : Nat) : (d.raise v).store = d.store := by
  unfold Dev.raise; try dsimp only
  (repeat' split) <;> simp
@[simp] theorem Dev.raise_mbx (v : Nat) : (d.raise v).mbx = d.mbx := by
  unfold Dev.raise; try dsimp only
  (repeat' split) <;> simp
@[simp] theorem Dev.raise_sec (v : Nat) : (d.raise v).sec = d.sec := by
  unfold Dev.raise; try dsimp only
  (repeat' split) <;> simp
@[simp] theorem Dev.raise_ports (v : Nat) : (d.raise v).ports = d.ports := by
  unfold Dev.raise; try dsimp only
  (repeat' split) <;> simp
@[simp] theorem Dev.raise_routing (v : Nat) : (d.raise v).routing = d.routing := by
  unfold Dev.raise; try dsimp only
  (repeat' split) <;> simp
@[simp] theorem Dev.raise_xbar (v : Nat) : (d.raise v).xbar = d.xbar := by
  unfold Dev.raise; try dsimp only
  (repeat' split) <;> simp
@[simp] theorem Dev.raise_coll (v : Nat) : (d.raise v).coll = d.coll := by
  unfold Dev.raise; try dsimp only
  (repeat' split) <;> simp
@[simp] theorem Dev.raise_time (v : Nat) : (d.raise v).time = d.time := by
  unfold Dev.raise; try dsimp only
  (repeat' split) <;> simp
@[simp] theorem Dev.raise_evt (v : Nat) : (d.raise v).evt = d.evt := by
  unfold Dev.raise; try dsimp only
  (repeat' split) <;> simp
@[simp] theorem Dev.raise_shuttle (v : Nat) : (d.raise v).shuttle = d.shuttle := by
  unfold Dev.raise; try dsimp only
  (repeat' split) <;> simp
@[simp] theorem Dev.raise_dozeAborted (v : Nat) : (d.raise v).dozeAborted = d.dozeAborted := by
  unfold Dev.raise; try dsimp only
  (repeat' split) <;> simp
@[simp] theorem Dev.raise_fixedBits (v : Nat) : (d.raise v).fixedBits = d.fixedBits := by
  unfold Dev.raise; try dsimp only
  (repeat' split) <;> simp
@[simp] theorem Dev.raise_fixedPace (v : Nat) : (d.raise v).fixedPace = d.fixedPace := by
  unfold Dev.raise; try dsimp only
  (repeat' split) <;> simp
@[simp] theorem Dev.raise_started (v : Nat) : (d.raise v).started = d.started := by
  unfold Dev.raise; try dsimp only
  (repeat' split) <;> simp
@[simp] theorem Dev.raise_turns (v : Nat) : (d.raise v).turns = d.turns := by
  unfold Dev.raise; try dsimp only
  (repeat' split) <;> simp
@[simp] theorem Dev.raise_capGen (v : Nat) : (d.raise v).capGen = d.capGen := by
  unfold Dev.raise; try dsimp only
  (repeat' split) <;> simp
@[simp] theorem Dev.raise_capFinal (v : Nat) : (d.raise v).capFinal = d.capFinal := by
  unfold Dev.raise; try dsimp only
  (repeat' split) <;> simp
@[simp] theorem Dev.raise_capTick (v : Nat) : (d.raise v).capTick = d.capTick := by
  unfold Dev.raise; try dsimp only
  (repeat' split) <;> simp
@[simp] theorem Dev.raise_draws (v : Nat) : (d.raise v).draws = d.draws := by
  unfold Dev.raise; try dsimp only
  (repeat' split) <;> simp

/-! ## alarm -/

@[simp] theorem Dev.alarm_now (b r u : Nat) (v : Word) : (d.alarm b r u v).now = d.now := by
  simp [Dev.alarm]
@[simp] theorem Dev.alarm_skew (b r u : Nat) (v : Word) : (d.alarm b r u v).skew = d.skew := by
  simp [Dev.alarm]
@[simp] theorem Dev.alarm_power (b r u : Nat) (v : Word) : (d.alarm b r u v).power = d.power := by
  simp [Dev.alarm]
@[simp] theorem Dev.alarm_dies (b r u : Nat) (v : Word) : (d.alarm b r u v).dies = d.dies := by
  simp [Dev.alarm]
@[simp] theorem Dev.alarm_cap (b r u : Nat) (v : Word) : (d.alarm b r u v).cap = d.cap := by
  simp [Dev.alarm]
@[simp] theorem Dev.alarm_blocks (b r u : Nat) (v : Word) : (d.alarm b r u v).blocks = d.blocks := by
  simp [Dev.alarm]
@[simp] theorem Dev.alarm_ringSel (b r u : Nat) (v : Word) : (d.alarm b r u v).ringSel = d.ringSel := by
  simp [Dev.alarm]
@[simp] theorem Dev.alarm_epochClaim (b r u : Nat) (v : Word) : (d.alarm b r u v).epochClaim = d.epochClaim := by
  simp [Dev.alarm]
@[simp] theorem Dev.alarm_epochSlot (b r u : Nat) (v : Word) : (d.alarm b r u v).epochSlot = d.epochSlot := by
  simp [Dev.alarm]
@[simp] theorem Dev.alarm_rings (b r u : Nat) (v : Word) : (d.alarm b r u v).rings = d.rings := by
  simp [Dev.alarm]
@[simp] theorem Dev.alarm_tallies (b r u : Nat) (v : Word) : (d.alarm b r u v).tallies = d.tallies := by
  simp [Dev.alarm]
@[simp] theorem Dev.alarm_claims (b r u : Nat) (v : Word) : (d.alarm b r u v).claims = d.claims := by
  simp [Dev.alarm]
@[simp] theorem Dev.alarm_frames (b r u : Nat) (v : Word) : (d.alarm b r u v).frames = d.frames := by
  simp [Dev.alarm]
@[simp] theorem Dev.alarm_objects (b r u : Nat) (v : Word) : (d.alarm b r u v).objects = d.objects := by
  simp [Dev.alarm]
@[simp] theorem Dev.alarm_hoist (b r u : Nat) (v : Word) : (d.alarm b r u v).hoist = d.hoist := by
  simp [Dev.alarm]
@[simp] theorem Dev.alarm_store (b r u : Nat) (v : Word) : (d.alarm b r u v).store = d.store := by
  simp [Dev.alarm]
@[simp] theorem Dev.alarm_mbx (b r u : Nat) (v : Word) : (d.alarm b r u v).mbx = d.mbx := by
  simp [Dev.alarm]
@[simp] theorem Dev.alarm_sec (b r u : Nat) (v : Word) : (d.alarm b r u v).sec = d.sec := by
  simp [Dev.alarm]
@[simp] theorem Dev.alarm_ports (b r u : Nat) (v : Word) : (d.alarm b r u v).ports = d.ports := by
  simp [Dev.alarm]
@[simp] theorem Dev.alarm_routing (b r u : Nat) (v : Word) : (d.alarm b r u v).routing = d.routing := by
  simp [Dev.alarm]
@[simp] theorem Dev.alarm_xbar (b r u : Nat) (v : Word) : (d.alarm b r u v).xbar = d.xbar := by
  simp [Dev.alarm]
@[simp] theorem Dev.alarm_coll (b r u : Nat) (v : Word) : (d.alarm b r u v).coll = d.coll := by
  simp [Dev.alarm]
@[simp] theorem Dev.alarm_time (b r u : Nat) (v : Word) : (d.alarm b r u v).time = d.time := by
  simp [Dev.alarm]
@[simp] theorem Dev.alarm_evt (b r u : Nat) (v : Word) : (d.alarm b r u v).evt = d.evt := by
  simp [Dev.alarm]
@[simp] theorem Dev.alarm_shuttle (b r u : Nat) (v : Word) : (d.alarm b r u v).shuttle = d.shuttle := by
  simp [Dev.alarm]
@[simp] theorem Dev.alarm_dozeAborted (b r u : Nat) (v : Word) : (d.alarm b r u v).dozeAborted = d.dozeAborted := by
  simp [Dev.alarm]
@[simp] theorem Dev.alarm_fixedBits (b r u : Nat) (v : Word) : (d.alarm b r u v).fixedBits = d.fixedBits := by
  simp [Dev.alarm]
@[simp] theorem Dev.alarm_fixedPace (b r u : Nat) (v : Word) : (d.alarm b r u v).fixedPace = d.fixedPace := by
  simp [Dev.alarm]
@[simp] theorem Dev.alarm_started (b r u : Nat) (v : Word) : (d.alarm b r u v).started = d.started := by
  simp [Dev.alarm]
@[simp] theorem Dev.alarm_turns (b r u : Nat) (v : Word) : (d.alarm b r u v).turns = d.turns := by
  simp [Dev.alarm]
@[simp] theorem Dev.alarm_capGen (b r u : Nat) (v : Word) : (d.alarm b r u v).capGen = d.capGen := by
  simp [Dev.alarm]
@[simp] theorem Dev.alarm_capFinal (b r u : Nat) (v : Word) : (d.alarm b r u v).capFinal = d.capFinal := by
  simp [Dev.alarm]
@[simp] theorem Dev.alarm_capTick (b r u : Nat) (v : Word) : (d.alarm b r u v).capTick = d.capTick := by
  simp [Dev.alarm]
@[simp] theorem Dev.alarm_draws (b r u : Nat) (v : Word) : (d.alarm b r u v).draws = d.draws := by
  simp [Dev.alarm]

/-! ## moveBlock -/

@[simp] theorem Dev.moveBlock_now (b : BlockId) (x : Block) : (d.moveBlock b x).now = d.now := by
  unfold Dev.moveBlock; try dsimp only
  (repeat' split) <;> simp
@[simp] theorem Dev.moveBlock_skew (b : BlockId) (x : Block) : (d.moveBlock b x).skew = d.skew := by
  unfold Dev.moveBlock; try dsimp only
  (repeat' split) <;> simp
@[simp] theorem Dev.moveBlock_power (b : BlockId) (x : Block) : (d.moveBlock b x).power = d.power := by
  unfold Dev.moveBlock; try dsimp only
  (repeat' split) <;> simp
@[simp] theorem Dev.moveBlock_dies (b : BlockId) (x : Block) : (d.moveBlock b x).dies = d.dies := by
  unfold Dev.moveBlock; try dsimp only
  (repeat' split) <;> simp
@[simp] theorem Dev.moveBlock_cap (b : BlockId) (x : Block) : (d.moveBlock b x).cap = d.cap := by
  unfold Dev.moveBlock; try dsimp only
  (repeat' split) <;> simp
@[simp] theorem Dev.moveBlock_ringSel (b : BlockId) (x : Block) : (d.moveBlock b x).ringSel = d.ringSel := by
  unfold Dev.moveBlock; try dsimp only
  (repeat' split) <;> simp
@[simp] theorem Dev.moveBlock_epochClaim (b : BlockId) (x : Block) : (d.moveBlock b x).epochClaim = d.epochClaim := by
  unfold Dev.moveBlock; try dsimp only
  (repeat' split) <;> simp
@[simp] theorem Dev.moveBlock_epochSlot (b : BlockId) (x : Block) : (d.moveBlock b x).epochSlot = d.epochSlot := by
  unfold Dev.moveBlock; try dsimp only
  (repeat' split) <;> simp
@[simp] theorem Dev.moveBlock_rings (b : BlockId) (x : Block) : (d.moveBlock b x).rings = d.rings := by
  unfold Dev.moveBlock; try dsimp only
  (repeat' split) <;> simp
@[simp] theorem Dev.moveBlock_tallies (b : BlockId) (x : Block) : (d.moveBlock b x).tallies = d.tallies := by
  unfold Dev.moveBlock; try dsimp only
  (repeat' split) <;> simp
@[simp] theorem Dev.moveBlock_claims (b : BlockId) (x : Block) : (d.moveBlock b x).claims = d.claims := by
  unfold Dev.moveBlock; try dsimp only
  (repeat' split) <;> simp
@[simp] theorem Dev.moveBlock_frames (b : BlockId) (x : Block) : (d.moveBlock b x).frames = d.frames := by
  unfold Dev.moveBlock; try dsimp only
  (repeat' split) <;> simp
@[simp] theorem Dev.moveBlock_objects (b : BlockId) (x : Block) : (d.moveBlock b x).objects = d.objects := by
  unfold Dev.moveBlock; try dsimp only
  (repeat' split) <;> simp
@[simp] theorem Dev.moveBlock_hoist (b : BlockId) (x : Block) : (d.moveBlock b x).hoist = d.hoist := by
  unfold Dev.moveBlock; try dsimp only
  (repeat' split) <;> simp
@[simp] theorem Dev.moveBlock_store (b : BlockId) (x : Block) : (d.moveBlock b x).store = d.store := by
  unfold Dev.moveBlock; try dsimp only
  (repeat' split) <;> simp
@[simp] theorem Dev.moveBlock_mbx (b : BlockId) (x : Block) : (d.moveBlock b x).mbx = d.mbx := by
  unfold Dev.moveBlock; try dsimp only
  (repeat' split) <;> simp
@[simp] theorem Dev.moveBlock_sec (b : BlockId) (x : Block) : (d.moveBlock b x).sec = d.sec := by
  unfold Dev.moveBlock; try dsimp only
  (repeat' split) <;> simp
@[simp] theorem Dev.moveBlock_ports (b : BlockId) (x : Block) : (d.moveBlock b x).ports = d.ports := by
  unfold Dev.moveBlock; try dsimp only
  (repeat' split) <;> simp
@[simp] theorem Dev.moveBlock_routing (b : BlockId) (x : Block) : (d.moveBlock b x).routing = d.routing := by
  unfold Dev.moveBlock; try dsimp only
  (repeat' split) <;> simp
@[simp] theorem Dev.moveBlock_xbar (b : BlockId) (x : Block) : (d.moveBlock b x).xbar = d.xbar := by
  unfold Dev.moveBlock; try dsimp only
  (repeat' split) <;> simp
@[simp] theorem Dev.moveBlock_coll (b : BlockId) (x : Block) : (d.moveBlock b x).coll = d.coll := by
  unfold Dev.moveBlock; try dsimp only
  (repeat' split) <;> simp
@[simp] theorem Dev.moveBlock_time (b : BlockId) (x : Block) : (d.moveBlock b x).time = d.time := by
  unfold Dev.moveBlock; try dsimp only
  (repeat' split) <;> simp
@[simp] theorem Dev.moveBlock_evt (b : BlockId) (x : Block) : (d.moveBlock b x).evt = d.evt := by
  unfold Dev.moveBlock; try dsimp only
  (repeat' split) <;> simp
@[simp] theorem Dev.moveBlock_shuttle (b : BlockId) (x : Block) : (d.moveBlock b x).shuttle = d.shuttle := by
  unfold Dev.moveBlock; try dsimp only
  (repeat' split) <;> simp
@[simp] theorem Dev.moveBlock_dozeAborted (b : BlockId) (x : Block) : (d.moveBlock b x).dozeAborted = d.dozeAborted := by
  unfold Dev.moveBlock; try dsimp only
  (repeat' split) <;> simp
@[simp] theorem Dev.moveBlock_fixedBits (b : BlockId) (x : Block) : (d.moveBlock b x).fixedBits = d.fixedBits := by
  unfold Dev.moveBlock; try dsimp only
  (repeat' split) <;> simp
@[simp] theorem Dev.moveBlock_fixedPace (b : BlockId) (x : Block) : (d.moveBlock b x).fixedPace = d.fixedPace := by
  unfold Dev.moveBlock; try dsimp only
  (repeat' split) <;> simp
@[simp] theorem Dev.moveBlock_started (b : BlockId) (x : Block) : (d.moveBlock b x).started = d.started := by
  unfold Dev.moveBlock; try dsimp only
  (repeat' split) <;> simp
@[simp] theorem Dev.moveBlock_turns (b : BlockId) (x : Block) : (d.moveBlock b x).turns = d.turns := by
  unfold Dev.moveBlock; try dsimp only
  (repeat' split) <;> simp
@[simp] theorem Dev.moveBlock_capGen (b : BlockId) (x : Block) : (d.moveBlock b x).capGen = d.capGen := by
  unfold Dev.moveBlock; try dsimp only
  (repeat' split) <;> simp
@[simp] theorem Dev.moveBlock_capFinal (b : BlockId) (x : Block) : (d.moveBlock b x).capFinal = d.capFinal := by
  unfold Dev.moveBlock; try dsimp only
  (repeat' split) <;> simp
@[simp] theorem Dev.moveBlock_capTick (b : BlockId) (x : Block) : (d.moveBlock b x).capTick = d.capTick := by
  unfold Dev.moveBlock; try dsimp only
  (repeat' split) <;> simp
@[simp] theorem Dev.moveBlock_draws (b : BlockId) (x : Block) : (d.moveBlock b x).draws = d.draws := by
  unfold Dev.moveBlock; try dsimp only
  (repeat' split) <;> simp

/-! ## selfStop -/

@[simp] theorem Dev.selfStop_now (b : BlockId) (x : BitVec 16) : (d.selfStop b x).now = d.now := by
  simp [Dev.selfStop]
@[simp] theorem Dev.selfStop_skew (b : BlockId) (x : BitVec 16) : (d.selfStop b x).skew = d.skew := by
  simp [Dev.selfStop]
@[simp] theorem Dev.selfStop_power (b : BlockId) (x : BitVec 16) : (d.selfStop b x).power = d.power := by
  simp [Dev.selfStop]
@[simp] theorem Dev.selfStop_dies (b : BlockId) (x : BitVec 16) : (d.selfStop b x).dies = d.dies := by
  simp [Dev.selfStop]
@[simp] theorem Dev.selfStop_cap (b : BlockId) (x : BitVec 16) : (d.selfStop b x).cap = d.cap := by
  simp [Dev.selfStop]
@[simp] theorem Dev.selfStop_ringSel (b : BlockId) (x : BitVec 16) : (d.selfStop b x).ringSel = d.ringSel := by
  simp [Dev.selfStop]
@[simp] theorem Dev.selfStop_epochClaim (b : BlockId) (x : BitVec 16) : (d.selfStop b x).epochClaim = d.epochClaim := by
  simp [Dev.selfStop]
@[simp] theorem Dev.selfStop_epochSlot (b : BlockId) (x : BitVec 16) : (d.selfStop b x).epochSlot = d.epochSlot := by
  simp [Dev.selfStop]
@[simp] theorem Dev.selfStop_rings (b : BlockId) (x : BitVec 16) : (d.selfStop b x).rings = d.rings := by
  simp [Dev.selfStop]
@[simp] theorem Dev.selfStop_tallies (b : BlockId) (x : BitVec 16) : (d.selfStop b x).tallies = d.tallies := by
  simp [Dev.selfStop]
@[simp] theorem Dev.selfStop_claims (b : BlockId) (x : BitVec 16) : (d.selfStop b x).claims = d.claims := by
  simp [Dev.selfStop]
@[simp] theorem Dev.selfStop_frames (b : BlockId) (x : BitVec 16) : (d.selfStop b x).frames = d.frames := by
  simp [Dev.selfStop]
@[simp] theorem Dev.selfStop_objects (b : BlockId) (x : BitVec 16) : (d.selfStop b x).objects = d.objects := by
  simp [Dev.selfStop]
@[simp] theorem Dev.selfStop_hoist (b : BlockId) (x : BitVec 16) : (d.selfStop b x).hoist = d.hoist := by
  simp [Dev.selfStop]
@[simp] theorem Dev.selfStop_store (b : BlockId) (x : BitVec 16) : (d.selfStop b x).store = d.store := by
  simp [Dev.selfStop]
@[simp] theorem Dev.selfStop_mbx (b : BlockId) (x : BitVec 16) : (d.selfStop b x).mbx = d.mbx := by
  simp [Dev.selfStop]
@[simp] theorem Dev.selfStop_sec (b : BlockId) (x : BitVec 16) : (d.selfStop b x).sec = d.sec := by
  simp [Dev.selfStop]
@[simp] theorem Dev.selfStop_ports (b : BlockId) (x : BitVec 16) : (d.selfStop b x).ports = d.ports := by
  simp [Dev.selfStop]
@[simp] theorem Dev.selfStop_routing (b : BlockId) (x : BitVec 16) : (d.selfStop b x).routing = d.routing := by
  simp [Dev.selfStop]
@[simp] theorem Dev.selfStop_xbar (b : BlockId) (x : BitVec 16) : (d.selfStop b x).xbar = d.xbar := by
  simp [Dev.selfStop]
@[simp] theorem Dev.selfStop_coll (b : BlockId) (x : BitVec 16) : (d.selfStop b x).coll = d.coll := by
  simp [Dev.selfStop]
@[simp] theorem Dev.selfStop_time (b : BlockId) (x : BitVec 16) : (d.selfStop b x).time = d.time := by
  simp [Dev.selfStop]
@[simp] theorem Dev.selfStop_evt (b : BlockId) (x : BitVec 16) : (d.selfStop b x).evt = d.evt := by
  simp [Dev.selfStop]
@[simp] theorem Dev.selfStop_shuttle (b : BlockId) (x : BitVec 16) : (d.selfStop b x).shuttle = d.shuttle := by
  simp [Dev.selfStop]
@[simp] theorem Dev.selfStop_dozeAborted (b : BlockId) (x : BitVec 16) : (d.selfStop b x).dozeAborted = d.dozeAborted := by
  simp [Dev.selfStop]
@[simp] theorem Dev.selfStop_fixedBits (b : BlockId) (x : BitVec 16) : (d.selfStop b x).fixedBits = d.fixedBits := by
  simp [Dev.selfStop]
@[simp] theorem Dev.selfStop_fixedPace (b : BlockId) (x : BitVec 16) : (d.selfStop b x).fixedPace = d.fixedPace := by
  simp [Dev.selfStop]
@[simp] theorem Dev.selfStop_started (b : BlockId) (x : BitVec 16) : (d.selfStop b x).started = d.started := by
  simp [Dev.selfStop]
@[simp] theorem Dev.selfStop_turns (b : BlockId) (x : BitVec 16) : (d.selfStop b x).turns = d.turns := by
  simp [Dev.selfStop]
@[simp] theorem Dev.selfStop_capGen (b : BlockId) (x : BitVec 16) : (d.selfStop b x).capGen = d.capGen := by
  simp [Dev.selfStop]
@[simp] theorem Dev.selfStop_capFinal (b : BlockId) (x : BitVec 16) : (d.selfStop b x).capFinal = d.capFinal := by
  simp [Dev.selfStop]
@[simp] theorem Dev.selfStop_capTick (b : BlockId) (x : BitVec 16) : (d.selfStop b x).capTick = d.capTick := by
  simp [Dev.selfStop]
@[simp] theorem Dev.selfStop_draws (b : BlockId) (x : BitVec 16) : (d.selfStop b x).draws = d.draws := by
  simp [Dev.selfStop]

/-! ## refuse -/

@[simp] theorem Dev.refuse_now (b : BlockId) (x : BitVec 16) : (d.refuse b x).now = d.now := by
  simp [Dev.refuse]
@[simp] theorem Dev.refuse_skew (b : BlockId) (x : BitVec 16) : (d.refuse b x).skew = d.skew := by
  simp [Dev.refuse]
@[simp] theorem Dev.refuse_power (b : BlockId) (x : BitVec 16) : (d.refuse b x).power = d.power := by
  simp [Dev.refuse]
@[simp] theorem Dev.refuse_dies (b : BlockId) (x : BitVec 16) : (d.refuse b x).dies = d.dies := by
  simp [Dev.refuse]
@[simp] theorem Dev.refuse_cap (b : BlockId) (x : BitVec 16) : (d.refuse b x).cap = d.cap := by
  simp [Dev.refuse]
@[simp] theorem Dev.refuse_ringSel (b : BlockId) (x : BitVec 16) : (d.refuse b x).ringSel = d.ringSel := by
  simp [Dev.refuse]
@[simp] theorem Dev.refuse_epochClaim (b : BlockId) (x : BitVec 16) : (d.refuse b x).epochClaim = d.epochClaim := by
  simp [Dev.refuse]
@[simp] theorem Dev.refuse_epochSlot (b : BlockId) (x : BitVec 16) : (d.refuse b x).epochSlot = d.epochSlot := by
  simp [Dev.refuse]
@[simp] theorem Dev.refuse_rings (b : BlockId) (x : BitVec 16) : (d.refuse b x).rings = d.rings := by
  simp [Dev.refuse]
@[simp] theorem Dev.refuse_tallies (b : BlockId) (x : BitVec 16) : (d.refuse b x).tallies = d.tallies := by
  simp [Dev.refuse]
@[simp] theorem Dev.refuse_claims (b : BlockId) (x : BitVec 16) : (d.refuse b x).claims = d.claims := by
  simp [Dev.refuse]
@[simp] theorem Dev.refuse_frames (b : BlockId) (x : BitVec 16) : (d.refuse b x).frames = d.frames := by
  simp [Dev.refuse]
@[simp] theorem Dev.refuse_objects (b : BlockId) (x : BitVec 16) : (d.refuse b x).objects = d.objects := by
  simp [Dev.refuse]
@[simp] theorem Dev.refuse_hoist (b : BlockId) (x : BitVec 16) : (d.refuse b x).hoist = d.hoist := by
  simp [Dev.refuse]
@[simp] theorem Dev.refuse_store (b : BlockId) (x : BitVec 16) : (d.refuse b x).store = d.store := by
  simp [Dev.refuse]
@[simp] theorem Dev.refuse_mbx (b : BlockId) (x : BitVec 16) : (d.refuse b x).mbx = d.mbx := by
  simp [Dev.refuse]
@[simp] theorem Dev.refuse_sec (b : BlockId) (x : BitVec 16) : (d.refuse b x).sec = d.sec := by
  simp [Dev.refuse]
@[simp] theorem Dev.refuse_ports (b : BlockId) (x : BitVec 16) : (d.refuse b x).ports = d.ports := by
  simp [Dev.refuse]
@[simp] theorem Dev.refuse_routing (b : BlockId) (x : BitVec 16) : (d.refuse b x).routing = d.routing := by
  simp [Dev.refuse]
@[simp] theorem Dev.refuse_xbar (b : BlockId) (x : BitVec 16) : (d.refuse b x).xbar = d.xbar := by
  simp [Dev.refuse]
@[simp] theorem Dev.refuse_coll (b : BlockId) (x : BitVec 16) : (d.refuse b x).coll = d.coll := by
  simp [Dev.refuse]
@[simp] theorem Dev.refuse_time (b : BlockId) (x : BitVec 16) : (d.refuse b x).time = d.time := by
  simp [Dev.refuse]
@[simp] theorem Dev.refuse_evt (b : BlockId) (x : BitVec 16) : (d.refuse b x).evt = d.evt := by
  simp [Dev.refuse]
@[simp] theorem Dev.refuse_shuttle (b : BlockId) (x : BitVec 16) : (d.refuse b x).shuttle = d.shuttle := by
  simp [Dev.refuse]
@[simp] theorem Dev.refuse_dozeAborted (b : BlockId) (x : BitVec 16) : (d.refuse b x).dozeAborted = d.dozeAborted := by
  simp [Dev.refuse]
@[simp] theorem Dev.refuse_fixedBits (b : BlockId) (x : BitVec 16) : (d.refuse b x).fixedBits = d.fixedBits := by
  simp [Dev.refuse]
@[simp] theorem Dev.refuse_fixedPace (b : BlockId) (x : BitVec 16) : (d.refuse b x).fixedPace = d.fixedPace := by
  simp [Dev.refuse]
@[simp] theorem Dev.refuse_started (b : BlockId) (x : BitVec 16) : (d.refuse b x).started = d.started := by
  simp [Dev.refuse]
@[simp] theorem Dev.refuse_turns (b : BlockId) (x : BitVec 16) : (d.refuse b x).turns = d.turns := by
  simp [Dev.refuse]
@[simp] theorem Dev.refuse_capGen (b : BlockId) (x : BitVec 16) : (d.refuse b x).capGen = d.capGen := by
  simp [Dev.refuse]
@[simp] theorem Dev.refuse_capFinal (b : BlockId) (x : BitVec 16) : (d.refuse b x).capFinal = d.capFinal := by
  simp [Dev.refuse]
@[simp] theorem Dev.refuse_capTick (b : BlockId) (x : BitVec 16) : (d.refuse b x).capTick = d.capTick := by
  simp [Dev.refuse]
@[simp] theorem Dev.refuse_draws (b : BlockId) (x : BitVec 16) : (d.refuse b x).draws = d.draws := by
  simp [Dev.refuse]

/-! ## bumpCap -/

@[simp] theorem Dev.bumpCap_now  : d.bumpCap.now = d.now := by
  unfold Dev.bumpCap; try dsimp only
  (repeat' split) <;> simp
@[simp] theorem Dev.bumpCap_skew  : d.bumpCap.skew = d.skew := by
  unfold Dev.bumpCap; try dsimp only
  (repeat' split) <;> simp
@[simp] theorem Dev.bumpCap_power  : d.bumpCap.power = d.power := by
  unfold Dev.bumpCap; try dsimp only
  (repeat' split) <;> simp
@[simp] theorem Dev.bumpCap_dies  : d.bumpCap.dies = d.dies := by
  unfold Dev.bumpCap; try dsimp only
  (repeat' split) <;> simp
@[simp] theorem Dev.bumpCap_cap  : d.bumpCap.cap = d.cap := by
  unfold Dev.bumpCap; try dsimp only
  (repeat' split) <;> simp
@[simp] theorem Dev.bumpCap_host  : d.bumpCap.host = d.host := by
  unfold Dev.bumpCap; try dsimp only
  (repeat' split) <;> simp
@[simp] theorem Dev.bumpCap_blocks  : d.bumpCap.blocks = d.blocks := by
  unfold Dev.bumpCap; try dsimp only
  (repeat' split) <;> simp
@[simp] theorem Dev.bumpCap_ringSel  : d.bumpCap.ringSel = d.ringSel := by
  unfold Dev.bumpCap; try dsimp only
  (repeat' split) <;> simp
@[simp] theorem Dev.bumpCap_epochClaim  : d.bumpCap.epochClaim = d.epochClaim := by
  unfold Dev.bumpCap; try dsimp only
  (repeat' split) <;> simp
@[simp] theorem Dev.bumpCap_epochSlot  : d.bumpCap.epochSlot = d.epochSlot := by
  unfold Dev.bumpCap; try dsimp only
  (repeat' split) <;> simp
@[simp] theorem Dev.bumpCap_rings  : d.bumpCap.rings = d.rings := by
  unfold Dev.bumpCap; try dsimp only
  (repeat' split) <;> simp
@[simp] theorem Dev.bumpCap_tallies  : d.bumpCap.tallies = d.tallies := by
  unfold Dev.bumpCap; try dsimp only
  (repeat' split) <;> simp
@[simp] theorem Dev.bumpCap_claims  : d.bumpCap.claims = d.claims := by
  unfold Dev.bumpCap; try dsimp only
  (repeat' split) <;> simp
@[simp] theorem Dev.bumpCap_frames  : d.bumpCap.frames = d.frames := by
  unfold Dev.bumpCap; try dsimp only
  (repeat' split) <;> simp
@[simp] theorem Dev.bumpCap_objects  : d.bumpCap.objects = d.objects := by
  unfold Dev.bumpCap; try dsimp only
  (repeat' split) <;> simp
@[simp] theorem Dev.bumpCap_hoist  : d.bumpCap.hoist = d.hoist := by
  unfold Dev.bumpCap; try dsimp only
  (repeat' split) <;> simp
@[simp] theorem Dev.bumpCap_health  : d.bumpCap.health = d.health := by
  unfold Dev.bumpCap; try dsimp only
  (repeat' split) <;> simp
@[simp] theorem Dev.bumpCap_store  : d.bumpCap.store = d.store := by
  unfold Dev.bumpCap; try dsimp only
  (repeat' split) <;> simp
@[simp] theorem Dev.bumpCap_mbx  : d.bumpCap.mbx = d.mbx := by
  unfold Dev.bumpCap; try dsimp only
  (repeat' split) <;> simp
@[simp] theorem Dev.bumpCap_sec  : d.bumpCap.sec = d.sec := by
  unfold Dev.bumpCap; try dsimp only
  (repeat' split) <;> simp
@[simp] theorem Dev.bumpCap_ports  : d.bumpCap.ports = d.ports := by
  unfold Dev.bumpCap; try dsimp only
  (repeat' split) <;> simp
@[simp] theorem Dev.bumpCap_routing  : d.bumpCap.routing = d.routing := by
  unfold Dev.bumpCap; try dsimp only
  (repeat' split) <;> simp
@[simp] theorem Dev.bumpCap_xbar  : d.bumpCap.xbar = d.xbar := by
  unfold Dev.bumpCap; try dsimp only
  (repeat' split) <;> simp
@[simp] theorem Dev.bumpCap_coll  : d.bumpCap.coll = d.coll := by
  unfold Dev.bumpCap; try dsimp only
  (repeat' split) <;> simp
@[simp] theorem Dev.bumpCap_time  : d.bumpCap.time = d.time := by
  unfold Dev.bumpCap; try dsimp only
  (repeat' split) <;> simp
@[simp] theorem Dev.bumpCap_evt  : d.bumpCap.evt = d.evt := by
  unfold Dev.bumpCap; try dsimp only
  (repeat' split) <;> simp
@[simp] theorem Dev.bumpCap_shuttle  : d.bumpCap.shuttle = d.shuttle := by
  unfold Dev.bumpCap; try dsimp only
  (repeat' split) <;> simp
@[simp] theorem Dev.bumpCap_dozeAborted  : d.bumpCap.dozeAborted = d.dozeAborted := by
  unfold Dev.bumpCap; try dsimp only
  (repeat' split) <;> simp
@[simp] theorem Dev.bumpCap_fixedBits  : d.bumpCap.fixedBits = d.fixedBits := by
  unfold Dev.bumpCap; try dsimp only
  (repeat' split) <;> simp
@[simp] theorem Dev.bumpCap_fixedPace  : d.bumpCap.fixedPace = d.fixedPace := by
  unfold Dev.bumpCap; try dsimp only
  (repeat' split) <;> simp
@[simp] theorem Dev.bumpCap_started  : d.bumpCap.started = d.started := by
  unfold Dev.bumpCap; try dsimp only
  (repeat' split) <;> simp
@[simp] theorem Dev.bumpCap_turns  : d.bumpCap.turns = d.turns := by
  unfold Dev.bumpCap; try dsimp only
  (repeat' split) <;> simp
@[simp] theorem Dev.bumpCap_capFinal  : d.bumpCap.capFinal = d.capFinal := by
  unfold Dev.bumpCap; try dsimp only
  (repeat' split) <;> simp
@[simp] theorem Dev.bumpCap_draws  : d.bumpCap.draws = d.draws := by
  unfold Dev.bumpCap; try dsimp only
  (repeat' split) <;> simp
@[simp] theorem Dev.bumpCap_out  : d.bumpCap.out = d.out := by
  unfold Dev.bumpCap; try dsimp only
  (repeat' split) <;> simp

/-! ## condArises -/

@[simp] theorem Dev.condArises_now (n : Nat) : (d.condArises n).now = d.now := by
  unfold Dev.condArises; try dsimp only
  (repeat' split) <;> simp
@[simp] theorem Dev.condArises_skew (n : Nat) : (d.condArises n).skew = d.skew := by
  unfold Dev.condArises; try dsimp only
  (repeat' split) <;> simp
@[simp] theorem Dev.condArises_dies (n : Nat) : (d.condArises n).dies = d.dies := by
  unfold Dev.condArises; try dsimp only
  (repeat' split) <;> simp
@[simp] theorem Dev.condArises_cap (n : Nat) : (d.condArises n).cap = d.cap := by
  unfold Dev.condArises; try dsimp only
  (repeat' split) <;> simp
@[simp] theorem Dev.condArises_blocks (n : Nat) : (d.condArises n).blocks = d.blocks := by
  unfold Dev.condArises; try dsimp only
  (repeat' split) <;> simp
@[simp] theorem Dev.condArises_ringSel (n : Nat) : (d.condArises n).ringSel = d.ringSel := by
  unfold Dev.condArises; try dsimp only
  (repeat' split) <;> simp
@[simp] theorem Dev.condArises_epochClaim (n : Nat) : (d.condArises n).epochClaim = d.epochClaim := by
  unfold Dev.condArises; try dsimp only
  (repeat' split) <;> simp
@[simp] theorem Dev.condArises_epochSlot (n : Nat) : (d.condArises n).epochSlot = d.epochSlot := by
  unfold Dev.condArises; try dsimp only
  (repeat' split) <;> simp
@[simp] theorem Dev.condArises_rings (n : Nat) : (d.condArises n).rings = d.rings := by
  unfold Dev.condArises; try dsimp only
  (repeat' split) <;> simp
@[simp] theorem Dev.condArises_tallies (n : Nat) : (d.condArises n).tallies = d.tallies := by
  unfold Dev.condArises; try dsimp only
  (repeat' split) <;> simp
@[simp] theorem Dev.condArises_claims (n : Nat) : (d.condArises n).claims = d.claims := by
  unfold Dev.condArises; try dsimp only
  (repeat' split) <;> simp
@[simp] theorem Dev.condArises_frames (n : Nat) : (d.condArises n).frames = d.frames := by
  unfold Dev.condArises; try dsimp only
  (repeat' split) <;> simp
@[simp] theorem Dev.condArises_objects (n : Nat) : (d.condArises n).objects = d.objects := by
  unfold Dev.condArises; try dsimp only
  (repeat' split) <;> simp
@[simp] theorem Dev.condArises_hoist (n : Nat) : (d.condArises n).hoist = d.hoist := by
  unfold Dev.condArises; try dsimp only
  (repeat' split) <;> simp
@[simp] theorem Dev.condArises_store (n : Nat) : (d.condArises n).store = d.store := by
  unfold Dev.condArises; try dsimp only
  (repeat' split) <;> simp
@[simp] theorem Dev.condArises_mbx (n : Nat) : (d.condArises n).mbx = d.mbx := by
  unfold Dev.condArises; try dsimp only
  (repeat' split) <;> simp
@[simp] theorem Dev.condArises_sec (n : Nat) : (d.condArises n).sec = d.sec := by
  unfold Dev.condArises; try dsimp only
  (repeat' split) <;> simp
@[simp] theorem Dev.condArises_ports (n : Nat) : (d.condArises n).ports = d.ports := by
  unfold Dev.condArises; try dsimp only
  (repeat' split) <;> simp
@[simp] theorem Dev.condArises_routing (n : Nat) : (d.condArises n).routing = d.routing := by
  unfold Dev.condArises; try dsimp only
  (repeat' split) <;> simp
@[simp] theorem Dev.condArises_xbar (n : Nat) : (d.condArises n).xbar = d.xbar := by
  unfold Dev.condArises; try dsimp only
  (repeat' split) <;> simp
@[simp] theorem Dev.condArises_coll (n : Nat) : (d.condArises n).coll = d.coll := by
  unfold Dev.condArises; try dsimp only
  (repeat' split) <;> simp
@[simp] theorem Dev.condArises_time (n : Nat) : (d.condArises n).time = d.time := by
  unfold Dev.condArises; try dsimp only
  (repeat' split) <;> simp
@[simp] theorem Dev.condArises_evt (n : Nat) : (d.condArises n).evt = d.evt := by
  unfold Dev.condArises; try dsimp only
  (repeat' split) <;> simp
@[simp] theorem Dev.condArises_shuttle (n : Nat) : (d.condArises n).shuttle = d.shuttle := by
  unfold Dev.condArises; try dsimp only
  (repeat' split) <;> simp
@[simp] theorem Dev.condArises_dozeAborted (n : Nat) : (d.condArises n).dozeAborted = d.dozeAborted := by
  unfold Dev.condArises; try dsimp only
  (repeat' split) <;> simp
@[simp] theorem Dev.condArises_fixedBits (n : Nat) : (d.condArises n).fixedBits = d.fixedBits := by
  unfold Dev.condArises; try dsimp only
  (repeat' split) <;> simp
@[simp] theorem Dev.condArises_fixedPace (n : Nat) : (d.condArises n).fixedPace = d.fixedPace := by
  unfold Dev.condArises; try dsimp only
  (repeat' split) <;> simp
@[simp] theorem Dev.condArises_started (n : Nat) : (d.condArises n).started = d.started := by
  unfold Dev.condArises; try dsimp only
  (repeat' split) <;> simp
@[simp] theorem Dev.condArises_turns (n : Nat) : (d.condArises n).turns = d.turns := by
  unfold Dev.condArises; try dsimp only
  (repeat' split) <;> simp
@[simp] theorem Dev.condArises_capFinal (n : Nat) : (d.condArises n).capFinal = d.capFinal := by
  unfold Dev.condArises; try dsimp only
  (repeat' split) <;> simp
@[simp] theorem Dev.condArises_draws (n : Nat) : (d.condArises n).draws = d.draws := by
  unfold Dev.condArises; try dsimp only
  (repeat' split) <;> simp

/-! ## condEnds -/

@[simp] theorem Dev.condEnds_now (n : Nat) : (d.condEnds n).now = d.now := by
  unfold Dev.condEnds; try dsimp only
  (repeat' split) <;> simp
@[simp] theorem Dev.condEnds_skew (n : Nat) : (d.condEnds n).skew = d.skew := by
  unfold Dev.condEnds; try dsimp only
  (repeat' split) <;> simp
@[simp] theorem Dev.condEnds_dies (n : Nat) : (d.condEnds n).dies = d.dies := by
  unfold Dev.condEnds; try dsimp only
  (repeat' split) <;> simp
@[simp] theorem Dev.condEnds_cap (n : Nat) : (d.condEnds n).cap = d.cap := by
  unfold Dev.condEnds; try dsimp only
  (repeat' split) <;> simp
@[simp] theorem Dev.condEnds_host (n : Nat) : (d.condEnds n).host = d.host := by
  unfold Dev.condEnds; try dsimp only
  (repeat' split) <;> simp
@[simp] theorem Dev.condEnds_blocks (n : Nat) : (d.condEnds n).blocks = d.blocks := by
  unfold Dev.condEnds; try dsimp only
  (repeat' split) <;> simp
@[simp] theorem Dev.condEnds_ringSel (n : Nat) : (d.condEnds n).ringSel = d.ringSel := by
  unfold Dev.condEnds; try dsimp only
  (repeat' split) <;> simp
@[simp] theorem Dev.condEnds_epochClaim (n : Nat) : (d.condEnds n).epochClaim = d.epochClaim := by
  unfold Dev.condEnds; try dsimp only
  (repeat' split) <;> simp
@[simp] theorem Dev.condEnds_epochSlot (n : Nat) : (d.condEnds n).epochSlot = d.epochSlot := by
  unfold Dev.condEnds; try dsimp only
  (repeat' split) <;> simp
@[simp] theorem Dev.condEnds_rings (n : Nat) : (d.condEnds n).rings = d.rings := by
  unfold Dev.condEnds; try dsimp only
  (repeat' split) <;> simp
@[simp] theorem Dev.condEnds_tallies (n : Nat) : (d.condEnds n).tallies = d.tallies := by
  unfold Dev.condEnds; try dsimp only
  (repeat' split) <;> simp
@[simp] theorem Dev.condEnds_claims (n : Nat) : (d.condEnds n).claims = d.claims := by
  unfold Dev.condEnds; try dsimp only
  (repeat' split) <;> simp
@[simp] theorem Dev.condEnds_frames (n : Nat) : (d.condEnds n).frames = d.frames := by
  unfold Dev.condEnds; try dsimp only
  (repeat' split) <;> simp
@[simp] theorem Dev.condEnds_objects (n : Nat) : (d.condEnds n).objects = d.objects := by
  unfold Dev.condEnds; try dsimp only
  (repeat' split) <;> simp
@[simp] theorem Dev.condEnds_hoist (n : Nat) : (d.condEnds n).hoist = d.hoist := by
  unfold Dev.condEnds; try dsimp only
  (repeat' split) <;> simp
@[simp] theorem Dev.condEnds_store (n : Nat) : (d.condEnds n).store = d.store := by
  unfold Dev.condEnds; try dsimp only
  (repeat' split) <;> simp
@[simp] theorem Dev.condEnds_mbx (n : Nat) : (d.condEnds n).mbx = d.mbx := by
  unfold Dev.condEnds; try dsimp only
  (repeat' split) <;> simp
@[simp] theorem Dev.condEnds_sec (n : Nat) : (d.condEnds n).sec = d.sec := by
  unfold Dev.condEnds; try dsimp only
  (repeat' split) <;> simp
@[simp] theorem Dev.condEnds_ports (n : Nat) : (d.condEnds n).ports = d.ports := by
  unfold Dev.condEnds; try dsimp only
  (repeat' split) <;> simp
@[simp] theorem Dev.condEnds_routing (n : Nat) : (d.condEnds n).routing = d.routing := by
  unfold Dev.condEnds; try dsimp only
  (repeat' split) <;> simp
@[simp] theorem Dev.condEnds_xbar (n : Nat) : (d.condEnds n).xbar = d.xbar := by
  unfold Dev.condEnds; try dsimp only
  (repeat' split) <;> simp
@[simp] theorem Dev.condEnds_coll (n : Nat) : (d.condEnds n).coll = d.coll := by
  unfold Dev.condEnds; try dsimp only
  (repeat' split) <;> simp
@[simp] theorem Dev.condEnds_time (n : Nat) : (d.condEnds n).time = d.time := by
  unfold Dev.condEnds; try dsimp only
  (repeat' split) <;> simp
@[simp] theorem Dev.condEnds_evt (n : Nat) : (d.condEnds n).evt = d.evt := by
  unfold Dev.condEnds; try dsimp only
  (repeat' split) <;> simp
@[simp] theorem Dev.condEnds_shuttle (n : Nat) : (d.condEnds n).shuttle = d.shuttle := by
  unfold Dev.condEnds; try dsimp only
  (repeat' split) <;> simp
@[simp] theorem Dev.condEnds_dozeAborted (n : Nat) : (d.condEnds n).dozeAborted = d.dozeAborted := by
  unfold Dev.condEnds; try dsimp only
  (repeat' split) <;> simp
@[simp] theorem Dev.condEnds_fixedBits (n : Nat) : (d.condEnds n).fixedBits = d.fixedBits := by
  unfold Dev.condEnds; try dsimp only
  (repeat' split) <;> simp
@[simp] theorem Dev.condEnds_fixedPace (n : Nat) : (d.condEnds n).fixedPace = d.fixedPace := by
  unfold Dev.condEnds; try dsimp only
  (repeat' split) <;> simp
@[simp] theorem Dev.condEnds_started (n : Nat) : (d.condEnds n).started = d.started := by
  unfold Dev.condEnds; try dsimp only
  (repeat' split) <;> simp
@[simp] theorem Dev.condEnds_turns (n : Nat) : (d.condEnds n).turns = d.turns := by
  unfold Dev.condEnds; try dsimp only
  (repeat' split) <;> simp
@[simp] theorem Dev.condEnds_capFinal (n : Nat) : (d.condEnds n).capFinal = d.capFinal := by
  unfold Dev.condEnds; try dsimp only
  (repeat' split) <;> simp
@[simp] theorem Dev.condEnds_draws (n : Nat) : (d.condEnds n).draws = d.draws := by
  unfold Dev.condEnds; try dsimp only
  (repeat' split) <;> simp
@[simp] theorem Dev.condEnds_out (n : Nat) : (d.condEnds n).out = d.out := by
  unfold Dev.condEnds; try dsimp only
  (repeat' split) <;> simp

/-! ## setAlign -/

@[simp] theorem Dev.setAlign_now (a : Align) : (d.setAlign a).now = d.now := by
  unfold Dev.setAlign; try dsimp only
  (repeat' split) <;> simp
@[simp] theorem Dev.setAlign_skew (a : Align) : (d.setAlign a).skew = d.skew := by
  unfold Dev.setAlign; try dsimp only
  (repeat' split) <;> simp
@[simp] theorem Dev.setAlign_power (a : Align) : (d.setAlign a).power = d.power := by
  unfold Dev.setAlign; try dsimp only
  (repeat' split) <;> simp
@[simp] theorem Dev.setAlign_dies (a : Align) : (d.setAlign a).dies = d.dies := by
  unfold Dev.setAlign; try dsimp only
  (repeat' split) <;> simp
@[simp] theorem Dev.setAlign_cap (a : Align) : (d.setAlign a).cap = d.cap := by
  unfold Dev.setAlign; try dsimp only
  (repeat' split) <;> simp
@[simp] theorem Dev.setAlign_blocks (a : Align) : (d.setAlign a).blocks = d.blocks := by
  unfold Dev.setAlign; try dsimp only
  (repeat' split) <;> simp
@[simp] theorem Dev.setAlign_ringSel (a : Align) : (d.setAlign a).ringSel = d.ringSel := by
  unfold Dev.setAlign; try dsimp only
  (repeat' split) <;> simp
@[simp] theorem Dev.setAlign_epochClaim (a : Align) : (d.setAlign a).epochClaim = d.epochClaim := by
  unfold Dev.setAlign; try dsimp only
  (repeat' split) <;> simp
@[simp] theorem Dev.setAlign_epochSlot (a : Align) : (d.setAlign a).epochSlot = d.epochSlot := by
  unfold Dev.setAlign; try dsimp only
  (repeat' split) <;> simp
@[simp] theorem Dev.setAlign_rings (a : Align) : (d.setAlign a).rings = d.rings := by
  unfold Dev.setAlign; try dsimp only
  (repeat' split) <;> simp
@[simp] theorem Dev.setAlign_tallies (a : Align) : (d.setAlign a).tallies = d.tallies := by
  unfold Dev.setAlign; try dsimp only
  (repeat' split) <;> simp
@[simp] theorem Dev.setAlign_claims (a : Align) : (d.setAlign a).claims = d.claims := by
  unfold Dev.setAlign; try dsimp only
  (repeat' split) <;> simp
@[simp] theorem Dev.setAlign_frames (a : Align) : (d.setAlign a).frames = d.frames := by
  unfold Dev.setAlign; try dsimp only
  (repeat' split) <;> simp
@[simp] theorem Dev.setAlign_objects (a : Align) : (d.setAlign a).objects = d.objects := by
  unfold Dev.setAlign; try dsimp only
  (repeat' split) <;> simp
@[simp] theorem Dev.setAlign_hoist (a : Align) : (d.setAlign a).hoist = d.hoist := by
  unfold Dev.setAlign; try dsimp only
  (repeat' split) <;> simp
@[simp] theorem Dev.setAlign_store (a : Align) : (d.setAlign a).store = d.store := by
  unfold Dev.setAlign; try dsimp only
  (repeat' split) <;> simp
@[simp] theorem Dev.setAlign_mbx (a : Align) : (d.setAlign a).mbx = d.mbx := by
  unfold Dev.setAlign; try dsimp only
  (repeat' split) <;> simp
@[simp] theorem Dev.setAlign_sec (a : Align) : (d.setAlign a).sec = d.sec := by
  unfold Dev.setAlign; try dsimp only
  (repeat' split) <;> simp
@[simp] theorem Dev.setAlign_ports (a : Align) : (d.setAlign a).ports = d.ports := by
  unfold Dev.setAlign; try dsimp only
  (repeat' split) <;> simp
@[simp] theorem Dev.setAlign_routing (a : Align) : (d.setAlign a).routing = d.routing := by
  unfold Dev.setAlign; try dsimp only
  (repeat' split) <;> simp
@[simp] theorem Dev.setAlign_xbar (a : Align) : (d.setAlign a).xbar = d.xbar := by
  unfold Dev.setAlign; try dsimp only
  (repeat' split) <;> simp
@[simp] theorem Dev.setAlign_coll (a : Align) : (d.setAlign a).coll = d.coll := by
  unfold Dev.setAlign; try dsimp only
  (repeat' split) <;> simp
@[simp] theorem Dev.setAlign_evt (a : Align) : (d.setAlign a).evt = d.evt := by
  unfold Dev.setAlign; try dsimp only
  (repeat' split) <;> simp
@[simp] theorem Dev.setAlign_shuttle (a : Align) : (d.setAlign a).shuttle = d.shuttle := by
  unfold Dev.setAlign; try dsimp only
  (repeat' split) <;> simp
@[simp] theorem Dev.setAlign_dozeAborted (a : Align) : (d.setAlign a).dozeAborted = d.dozeAborted := by
  unfold Dev.setAlign; try dsimp only
  (repeat' split) <;> simp
@[simp] theorem Dev.setAlign_fixedBits (a : Align) : (d.setAlign a).fixedBits = d.fixedBits := by
  unfold Dev.setAlign; try dsimp only
  (repeat' split) <;> simp
@[simp] theorem Dev.setAlign_fixedPace (a : Align) : (d.setAlign a).fixedPace = d.fixedPace := by
  unfold Dev.setAlign; try dsimp only
  (repeat' split) <;> simp
@[simp] theorem Dev.setAlign_started (a : Align) : (d.setAlign a).started = d.started := by
  unfold Dev.setAlign; try dsimp only
  (repeat' split) <;> simp
@[simp] theorem Dev.setAlign_turns (a : Align) : (d.setAlign a).turns = d.turns := by
  unfold Dev.setAlign; try dsimp only
  (repeat' split) <;> simp
@[simp] theorem Dev.setAlign_capGen (a : Align) : (d.setAlign a).capGen = d.capGen := by
  unfold Dev.setAlign; try dsimp only
  (repeat' split) <;> simp
@[simp] theorem Dev.setAlign_capFinal (a : Align) : (d.setAlign a).capFinal = d.capFinal := by
  unfold Dev.setAlign; try dsimp only
  (repeat' split) <;> simp
@[simp] theorem Dev.setAlign_capTick (a : Align) : (d.setAlign a).capTick = d.capTick := by
  unfold Dev.setAlign; try dsimp only
  (repeat' split) <;> simp
@[simp] theorem Dev.setAlign_draws (a : Align) : (d.setAlign a).draws = d.draws := by
  unfold Dev.setAlign; try dsimp only
  (repeat' split) <;> simp

/-! ## upstreamLost -/

@[simp] theorem Dev.upstreamLost_now  : d.upstreamLost.now = d.now := by
  unfold Dev.upstreamLost; try dsimp only
  (repeat' split) <;> simp
@[simp] theorem Dev.upstreamLost_skew  : d.upstreamLost.skew = d.skew := by
  unfold Dev.upstreamLost; try dsimp only
  (repeat' split) <;> simp
@[simp] theorem Dev.upstreamLost_power  : d.upstreamLost.power = d.power := by
  unfold Dev.upstreamLost; try dsimp only
  (repeat' split) <;> simp
@[simp] theorem Dev.upstreamLost_dies  : d.upstreamLost.dies = d.dies := by
  unfold Dev.upstreamLost; try dsimp only
  (repeat' split) <;> simp
@[simp] theorem Dev.upstreamLost_cap  : d.upstreamLost.cap = d.cap := by
  unfold Dev.upstreamLost; try dsimp only
  (repeat' split) <;> simp
@[simp] theorem Dev.upstreamLost_blocks  : d.upstreamLost.blocks = d.blocks := by
  unfold Dev.upstreamLost; try dsimp only
  (repeat' split) <;> simp
@[simp] theorem Dev.upstreamLost_ringSel  : d.upstreamLost.ringSel = d.ringSel := by
  unfold Dev.upstreamLost; try dsimp only
  (repeat' split) <;> simp
@[simp] theorem Dev.upstreamLost_epochClaim  : d.upstreamLost.epochClaim = d.epochClaim := by
  unfold Dev.upstreamLost; try dsimp only
  (repeat' split) <;> simp
@[simp] theorem Dev.upstreamLost_epochSlot  : d.upstreamLost.epochSlot = d.epochSlot := by
  unfold Dev.upstreamLost; try dsimp only
  (repeat' split) <;> simp
@[simp] theorem Dev.upstreamLost_rings  : d.upstreamLost.rings = d.rings := by
  unfold Dev.upstreamLost; try dsimp only
  (repeat' split) <;> simp
@[simp] theorem Dev.upstreamLost_tallies  : d.upstreamLost.tallies = d.tallies := by
  unfold Dev.upstreamLost; try dsimp only
  (repeat' split) <;> simp
@[simp] theorem Dev.upstreamLost_claims  : d.upstreamLost.claims = d.claims := by
  unfold Dev.upstreamLost; try dsimp only
  (repeat' split) <;> simp
@[simp] theorem Dev.upstreamLost_frames  : d.upstreamLost.frames = d.frames := by
  unfold Dev.upstreamLost; try dsimp only
  (repeat' split) <;> simp
@[simp] theorem Dev.upstreamLost_objects  : d.upstreamLost.objects = d.objects := by
  unfold Dev.upstreamLost; try dsimp only
  (repeat' split) <;> simp
@[simp] theorem Dev.upstreamLost_hoist  : d.upstreamLost.hoist = d.hoist := by
  unfold Dev.upstreamLost; try dsimp only
  (repeat' split) <;> simp
@[simp] theorem Dev.upstreamLost_store  : d.upstreamLost.store = d.store := by
  unfold Dev.upstreamLost; try dsimp only
  (repeat' split) <;> simp
@[simp] theorem Dev.upstreamLost_mbx  : d.upstreamLost.mbx = d.mbx := by
  unfold Dev.upstreamLost; try dsimp only
  (repeat' split) <;> simp
@[simp] theorem Dev.upstreamLost_sec  : d.upstreamLost.sec = d.sec := by
  unfold Dev.upstreamLost; try dsimp only
  (repeat' split) <;> simp
@[simp] theorem Dev.upstreamLost_ports  : d.upstreamLost.ports = d.ports := by
  unfold Dev.upstreamLost; try dsimp only
  (repeat' split) <;> simp
@[simp] theorem Dev.upstreamLost_routing  : d.upstreamLost.routing = d.routing := by
  unfold Dev.upstreamLost; try dsimp only
  (repeat' split) <;> simp
@[simp] theorem Dev.upstreamLost_xbar  : d.upstreamLost.xbar = d.xbar := by
  unfold Dev.upstreamLost; try dsimp only
  (repeat' split) <;> simp
@[simp] theorem Dev.upstreamLost_coll  : d.upstreamLost.coll = d.coll := by
  unfold Dev.upstreamLost; try dsimp only
  (repeat' split) <;> simp
@[simp] theorem Dev.upstreamLost_evt  : d.upstreamLost.evt = d.evt := by
  unfold Dev.upstreamLost; try dsimp only
  (repeat' split) <;> simp
@[simp] theorem Dev.upstreamLost_shuttle  : d.upstreamLost.shuttle = d.shuttle := by
  unfold Dev.upstreamLost; try dsimp only
  (repeat' split) <;> simp
@[simp] theorem Dev.upstreamLost_dozeAborted  : d.upstreamLost.dozeAborted = d.dozeAborted := by
  unfold Dev.upstreamLost; try dsimp only
  (repeat' split) <;> simp
@[simp] theorem Dev.upstreamLost_fixedBits  : d.upstreamLost.fixedBits = d.fixedBits := by
  unfold Dev.upstreamLost; try dsimp only
  (repeat' split) <;> simp
@[simp] theorem Dev.upstreamLost_fixedPace  : d.upstreamLost.fixedPace = d.fixedPace := by
  unfold Dev.upstreamLost; try dsimp only
  (repeat' split) <;> simp
@[simp] theorem Dev.upstreamLost_started  : d.upstreamLost.started = d.started := by
  unfold Dev.upstreamLost; try dsimp only
  (repeat' split) <;> simp
@[simp] theorem Dev.upstreamLost_turns  : d.upstreamLost.turns = d.turns := by
  unfold Dev.upstreamLost; try dsimp only
  (repeat' split) <;> simp
@[simp] theorem Dev.upstreamLost_capGen  : d.upstreamLost.capGen = d.capGen := by
  unfold Dev.upstreamLost; try dsimp only
  (repeat' split) <;> simp
@[simp] theorem Dev.upstreamLost_capFinal  : d.upstreamLost.capFinal = d.capFinal := by
  unfold Dev.upstreamLost; try dsimp only
  (repeat' split) <;> simp
@[simp] theorem Dev.upstreamLost_capTick  : d.upstreamLost.capTick = d.capTick := by
  unfold Dev.upstreamLost; try dsimp only
  (repeat' split) <;> simp
@[simp] theorem Dev.upstreamLost_draws  : d.upstreamLost.draws = d.draws := by
  unfold Dev.upstreamLost; try dsimp only
  (repeat' split) <;> simp

/-! ## tagTo -/

@[simp] theorem Dev.tagTo_now (n : Nat) (t : Option Tag) : (d.tagTo n t).now = d.now := by
  unfold Dev.tagTo; try dsimp only
  (repeat' split) <;> simp
@[simp] theorem Dev.tagTo_skew (n : Nat) (t : Option Tag) : (d.tagTo n t).skew = d.skew := by
  unfold Dev.tagTo; try dsimp only
  (repeat' split) <;> simp
@[simp] theorem Dev.tagTo_power (n : Nat) (t : Option Tag) : (d.tagTo n t).power = d.power := by
  unfold Dev.tagTo; try dsimp only
  (repeat' split) <;> simp
@[simp] theorem Dev.tagTo_dies (n : Nat) (t : Option Tag) : (d.tagTo n t).dies = d.dies := by
  unfold Dev.tagTo; try dsimp only
  (repeat' split) <;> simp
@[simp] theorem Dev.tagTo_cap (n : Nat) (t : Option Tag) : (d.tagTo n t).cap = d.cap := by
  unfold Dev.tagTo; try dsimp only
  (repeat' split) <;> simp
@[simp] theorem Dev.tagTo_host (n : Nat) (t : Option Tag) : (d.tagTo n t).host = d.host := by
  unfold Dev.tagTo; try dsimp only
  (repeat' split) <;> simp
@[simp] theorem Dev.tagTo_blocks (n : Nat) (t : Option Tag) : (d.tagTo n t).blocks = d.blocks := by
  unfold Dev.tagTo; try dsimp only
  (repeat' split) <;> simp
@[simp] theorem Dev.tagTo_ringSel (n : Nat) (t : Option Tag) : (d.tagTo n t).ringSel = d.ringSel := by
  unfold Dev.tagTo; try dsimp only
  (repeat' split) <;> simp
@[simp] theorem Dev.tagTo_epochClaim (n : Nat) (t : Option Tag) : (d.tagTo n t).epochClaim = d.epochClaim := by
  unfold Dev.tagTo; try dsimp only
  (repeat' split) <;> simp
@[simp] theorem Dev.tagTo_epochSlot (n : Nat) (t : Option Tag) : (d.tagTo n t).epochSlot = d.epochSlot := by
  unfold Dev.tagTo; try dsimp only
  (repeat' split) <;> simp
@[simp] theorem Dev.tagTo_rings (n : Nat) (t : Option Tag) : (d.tagTo n t).rings = d.rings := by
  unfold Dev.tagTo; try dsimp only
  (repeat' split) <;> simp
@[simp] theorem Dev.tagTo_tallies (n : Nat) (t : Option Tag) : (d.tagTo n t).tallies = d.tallies := by
  unfold Dev.tagTo; try dsimp only
  (repeat' split) <;> simp
@[simp] theorem Dev.tagTo_claims (n : Nat) (t : Option Tag) : (d.tagTo n t).claims = d.claims := by
  unfold Dev.tagTo; try dsimp only
  (repeat' split) <;> simp
@[simp] theorem Dev.tagTo_frames (n : Nat) (t : Option Tag) : (d.tagTo n t).frames = d.frames := by
  unfold Dev.tagTo; try dsimp only
  (repeat' split) <;> simp
@[simp] theorem Dev.tagTo_objects (n : Nat) (t : Option Tag) : (d.tagTo n t).objects = d.objects := by
  unfold Dev.tagTo; try dsimp only
  (repeat' split) <;> simp
@[simp] theorem Dev.tagTo_hoist (n : Nat) (t : Option Tag) : (d.tagTo n t).hoist = d.hoist := by
  unfold Dev.tagTo; try dsimp only
  (repeat' split) <;> simp
@[simp] theorem Dev.tagTo_store (n : Nat) (t : Option Tag) : (d.tagTo n t).store = d.store := by
  unfold Dev.tagTo; try dsimp only
  (repeat' split) <;> simp
@[simp] theorem Dev.tagTo_mbx (n : Nat) (t : Option Tag) : (d.tagTo n t).mbx = d.mbx := by
  unfold Dev.tagTo; try dsimp only
  (repeat' split) <;> simp
@[simp] theorem Dev.tagTo_sec (n : Nat) (t : Option Tag) : (d.tagTo n t).sec = d.sec := by
  unfold Dev.tagTo; try dsimp only
  (repeat' split) <;> simp
@[simp] theorem Dev.tagTo_ports (n : Nat) (t : Option Tag) : (d.tagTo n t).ports = d.ports := by
  unfold Dev.tagTo; try dsimp only
  (repeat' split) <;> simp
@[simp] theorem Dev.tagTo_routing (n : Nat) (t : Option Tag) : (d.tagTo n t).routing = d.routing := by
  unfold Dev.tagTo; try dsimp only
  (repeat' split) <;> simp
@[simp] theorem Dev.tagTo_xbar (n : Nat) (t : Option Tag) : (d.tagTo n t).xbar = d.xbar := by
  unfold Dev.tagTo; try dsimp only
  (repeat' split) <;> simp
@[simp] theorem Dev.tagTo_coll (n : Nat) (t : Option Tag) : (d.tagTo n t).coll = d.coll := by
  unfold Dev.tagTo; try dsimp only
  (repeat' split) <;> simp
@[simp] theorem Dev.tagTo_evt (n : Nat) (t : Option Tag) : (d.tagTo n t).evt = d.evt := by
  unfold Dev.tagTo; try dsimp only
  (repeat' split) <;> simp
@[simp] theorem Dev.tagTo_shuttle (n : Nat) (t : Option Tag) : (d.tagTo n t).shuttle = d.shuttle := by
  unfold Dev.tagTo; try dsimp only
  (repeat' split) <;> simp
@[simp] theorem Dev.tagTo_dozeAborted (n : Nat) (t : Option Tag) : (d.tagTo n t).dozeAborted = d.dozeAborted := by
  unfold Dev.tagTo; try dsimp only
  (repeat' split) <;> simp
@[simp] theorem Dev.tagTo_fixedBits (n : Nat) (t : Option Tag) : (d.tagTo n t).fixedBits = d.fixedBits := by
  unfold Dev.tagTo; try dsimp only
  (repeat' split) <;> simp
@[simp] theorem Dev.tagTo_fixedPace (n : Nat) (t : Option Tag) : (d.tagTo n t).fixedPace = d.fixedPace := by
  unfold Dev.tagTo; try dsimp only
  (repeat' split) <;> simp
@[simp] theorem Dev.tagTo_started (n : Nat) (t : Option Tag) : (d.tagTo n t).started = d.started := by
  unfold Dev.tagTo; try dsimp only
  (repeat' split) <;> simp
@[simp] theorem Dev.tagTo_turns (n : Nat) (t : Option Tag) : (d.tagTo n t).turns = d.turns := by
  unfold Dev.tagTo; try dsimp only
  (repeat' split) <;> simp
@[simp] theorem Dev.tagTo_capGen (n : Nat) (t : Option Tag) : (d.tagTo n t).capGen = d.capGen := by
  unfold Dev.tagTo; try dsimp only
  (repeat' split) <;> simp
@[simp] theorem Dev.tagTo_capFinal (n : Nat) (t : Option Tag) : (d.tagTo n t).capFinal = d.capFinal := by
  unfold Dev.tagTo; try dsimp only
  (repeat' split) <;> simp
@[simp] theorem Dev.tagTo_capTick (n : Nat) (t : Option Tag) : (d.tagTo n t).capTick = d.capTick := by
  unfold Dev.tagTo; try dsimp only
  (repeat' split) <;> simp
@[simp] theorem Dev.tagTo_draws (n : Nat) (t : Option Tag) : (d.tagTo n t).draws = d.draws := by
  unfold Dev.tagTo; try dsimp only
  (repeat' split) <;> simp
@[simp] theorem Dev.tagTo_out (n : Nat) (t : Option Tag) : (d.tagTo n t).out = d.out := by
  unfold Dev.tagTo; try dsimp only
  (repeat' split) <;> simp

/-! ## dozeTo -/

@[simp] theorem Dev.dozeTo_now (n : Nat) (x : Doze) : (d.dozeTo n x).now = d.now := by
  unfold Dev.dozeTo; try dsimp only
  (repeat' split) <;> simp
@[simp] theorem Dev.dozeTo_skew (n : Nat) (x : Doze) : (d.dozeTo n x).skew = d.skew := by
  unfold Dev.dozeTo; try dsimp only
  (repeat' split) <;> simp
@[simp] theorem Dev.dozeTo_power (n : Nat) (x : Doze) : (d.dozeTo n x).power = d.power := by
  unfold Dev.dozeTo; try dsimp only
  (repeat' split) <;> simp
@[simp] theorem Dev.dozeTo_cap (n : Nat) (x : Doze) : (d.dozeTo n x).cap = d.cap := by
  unfold Dev.dozeTo; try dsimp only
  (repeat' split) <;> simp
@[simp] theorem Dev.dozeTo_host (n : Nat) (x : Doze) : (d.dozeTo n x).host = d.host := by
  unfold Dev.dozeTo; try dsimp only
  (repeat' split) <;> simp
@[simp] theorem Dev.dozeTo_blocks (n : Nat) (x : Doze) : (d.dozeTo n x).blocks = d.blocks := by
  unfold Dev.dozeTo; try dsimp only
  (repeat' split) <;> simp
@[simp] theorem Dev.dozeTo_ringSel (n : Nat) (x : Doze) : (d.dozeTo n x).ringSel = d.ringSel := by
  unfold Dev.dozeTo; try dsimp only
  (repeat' split) <;> simp
@[simp] theorem Dev.dozeTo_epochClaim (n : Nat) (x : Doze) : (d.dozeTo n x).epochClaim = d.epochClaim := by
  unfold Dev.dozeTo; try dsimp only
  (repeat' split) <;> simp
@[simp] theorem Dev.dozeTo_epochSlot (n : Nat) (x : Doze) : (d.dozeTo n x).epochSlot = d.epochSlot := by
  unfold Dev.dozeTo; try dsimp only
  (repeat' split) <;> simp
@[simp] theorem Dev.dozeTo_rings (n : Nat) (x : Doze) : (d.dozeTo n x).rings = d.rings := by
  unfold Dev.dozeTo; try dsimp only
  (repeat' split) <;> simp
@[simp] theorem Dev.dozeTo_tallies (n : Nat) (x : Doze) : (d.dozeTo n x).tallies = d.tallies := by
  unfold Dev.dozeTo; try dsimp only
  (repeat' split) <;> simp
@[simp] theorem Dev.dozeTo_claims (n : Nat) (x : Doze) : (d.dozeTo n x).claims = d.claims := by
  unfold Dev.dozeTo; try dsimp only
  (repeat' split) <;> simp
@[simp] theorem Dev.dozeTo_frames (n : Nat) (x : Doze) : (d.dozeTo n x).frames = d.frames := by
  unfold Dev.dozeTo; try dsimp only
  (repeat' split) <;> simp
@[simp] theorem Dev.dozeTo_objects (n : Nat) (x : Doze) : (d.dozeTo n x).objects = d.objects := by
  unfold Dev.dozeTo; try dsimp only
  (repeat' split) <;> simp
@[simp] theorem Dev.dozeTo_hoist (n : Nat) (x : Doze) : (d.dozeTo n x).hoist = d.hoist := by
  unfold Dev.dozeTo; try dsimp only
  (repeat' split) <;> simp
@[simp] theorem Dev.dozeTo_store (n : Nat) (x : Doze) : (d.dozeTo n x).store = d.store := by
  unfold Dev.dozeTo; try dsimp only
  (repeat' split) <;> simp
@[simp] theorem Dev.dozeTo_mbx (n : Nat) (x : Doze) : (d.dozeTo n x).mbx = d.mbx := by
  unfold Dev.dozeTo; try dsimp only
  (repeat' split) <;> simp
@[simp] theorem Dev.dozeTo_sec (n : Nat) (x : Doze) : (d.dozeTo n x).sec = d.sec := by
  unfold Dev.dozeTo; try dsimp only
  (repeat' split) <;> simp
@[simp] theorem Dev.dozeTo_ports (n : Nat) (x : Doze) : (d.dozeTo n x).ports = d.ports := by
  unfold Dev.dozeTo; try dsimp only
  (repeat' split) <;> simp
@[simp] theorem Dev.dozeTo_routing (n : Nat) (x : Doze) : (d.dozeTo n x).routing = d.routing := by
  unfold Dev.dozeTo; try dsimp only
  (repeat' split) <;> simp
@[simp] theorem Dev.dozeTo_xbar (n : Nat) (x : Doze) : (d.dozeTo n x).xbar = d.xbar := by
  unfold Dev.dozeTo; try dsimp only
  (repeat' split) <;> simp
@[simp] theorem Dev.dozeTo_coll (n : Nat) (x : Doze) : (d.dozeTo n x).coll = d.coll := by
  unfold Dev.dozeTo; try dsimp only
  (repeat' split) <;> simp
@[simp] theorem Dev.dozeTo_time (n : Nat) (x : Doze) : (d.dozeTo n x).time = d.time := by
  unfold Dev.dozeTo; try dsimp only
  (repeat' split) <;> simp
@[simp] theorem Dev.dozeTo_evt (n : Nat) (x : Doze) : (d.dozeTo n x).evt = d.evt := by
  unfold Dev.dozeTo; try dsimp only
  (repeat' split) <;> simp
@[simp] theorem Dev.dozeTo_shuttle (n : Nat) (x : Doze) : (d.dozeTo n x).shuttle = d.shuttle := by
  unfold Dev.dozeTo; try dsimp only
  (repeat' split) <;> simp
@[simp] theorem Dev.dozeTo_dozeAborted (n : Nat) (x : Doze) : (d.dozeTo n x).dozeAborted = d.dozeAborted := by
  unfold Dev.dozeTo; try dsimp only
  (repeat' split) <;> simp
@[simp] theorem Dev.dozeTo_fixedBits (n : Nat) (x : Doze) : (d.dozeTo n x).fixedBits = d.fixedBits := by
  unfold Dev.dozeTo; try dsimp only
  (repeat' split) <;> simp
@[simp] theorem Dev.dozeTo_fixedPace (n : Nat) (x : Doze) : (d.dozeTo n x).fixedPace = d.fixedPace := by
  unfold Dev.dozeTo; try dsimp only
  (repeat' split) <;> simp
@[simp] theorem Dev.dozeTo_started (n : Nat) (x : Doze) : (d.dozeTo n x).started = d.started := by
  unfold Dev.dozeTo; try dsimp only
  (repeat' split) <;> simp
@[simp] theorem Dev.dozeTo_turns (n : Nat) (x : Doze) : (d.dozeTo n x).turns = d.turns := by
  unfold Dev.dozeTo; try dsimp only
  (repeat' split) <;> simp
@[simp] theorem Dev.dozeTo_capGen (n : Nat) (x : Doze) : (d.dozeTo n x).capGen = d.capGen := by
  unfold Dev.dozeTo; try dsimp only
  (repeat' split) <;> simp
@[simp] theorem Dev.dozeTo_capFinal (n : Nat) (x : Doze) : (d.dozeTo n x).capFinal = d.capFinal := by
  unfold Dev.dozeTo; try dsimp only
  (repeat' split) <;> simp
@[simp] theorem Dev.dozeTo_capTick (n : Nat) (x : Doze) : (d.dozeTo n x).capTick = d.capTick := by
  unfold Dev.dozeTo; try dsimp only
  (repeat' split) <;> simp
@[simp] theorem Dev.dozeTo_draws (n : Nat) (x : Doze) : (d.dozeTo n x).draws = d.draws := by
  unfold Dev.dozeTo; try dsimp only
  (repeat' split) <;> simp
@[simp] theorem Dev.dozeTo_out (n : Nat) (x : Doze) : (d.dozeTo n x).out = d.out := by
  unfold Dev.dozeTo; try dsimp only
  (repeat' split) <;> simp

/-! ## wakeDie -/

@[simp] theorem Dev.wakeDie_now (n : Nat) : (d.wakeDie n).now = d.now := by
  unfold Dev.wakeDie; try dsimp only
  (repeat' split) <;> simp
@[simp] theorem Dev.wakeDie_skew (n : Nat) : (d.wakeDie n).skew = d.skew := by
  unfold Dev.wakeDie; try dsimp only
  (repeat' split) <;> simp
@[simp] theorem Dev.wakeDie_power (n : Nat) : (d.wakeDie n).power = d.power := by
  unfold Dev.wakeDie; try dsimp only
  (repeat' split) <;> simp
@[simp] theorem Dev.wakeDie_cap (n : Nat) : (d.wakeDie n).cap = d.cap := by
  unfold Dev.wakeDie; try dsimp only
  (repeat' split) <;> simp
@[simp] theorem Dev.wakeDie_host (n : Nat) : (d.wakeDie n).host = d.host := by
  unfold Dev.wakeDie; try dsimp only
  (repeat' split) <;> simp
@[simp] theorem Dev.wakeDie_blocks (n : Nat) : (d.wakeDie n).blocks = d.blocks := by
  unfold Dev.wakeDie; try dsimp only
  (repeat' split) <;> simp
@[simp] theorem Dev.wakeDie_ringSel (n : Nat) : (d.wakeDie n).ringSel = d.ringSel := by
  unfold Dev.wakeDie; try dsimp only
  (repeat' split) <;> simp
@[simp] theorem Dev.wakeDie_epochClaim (n : Nat) : (d.wakeDie n).epochClaim = d.epochClaim := by
  unfold Dev.wakeDie; try dsimp only
  (repeat' split) <;> simp
@[simp] theorem Dev.wakeDie_epochSlot (n : Nat) : (d.wakeDie n).epochSlot = d.epochSlot := by
  unfold Dev.wakeDie; try dsimp only
  (repeat' split) <;> simp
@[simp] theorem Dev.wakeDie_rings (n : Nat) : (d.wakeDie n).rings = d.rings := by
  unfold Dev.wakeDie; try dsimp only
  (repeat' split) <;> simp
@[simp] theorem Dev.wakeDie_tallies (n : Nat) : (d.wakeDie n).tallies = d.tallies := by
  unfold Dev.wakeDie; try dsimp only
  (repeat' split) <;> simp
@[simp] theorem Dev.wakeDie_claims (n : Nat) : (d.wakeDie n).claims = d.claims := by
  unfold Dev.wakeDie; try dsimp only
  (repeat' split) <;> simp
@[simp] theorem Dev.wakeDie_frames (n : Nat) : (d.wakeDie n).frames = d.frames := by
  unfold Dev.wakeDie; try dsimp only
  (repeat' split) <;> simp
@[simp] theorem Dev.wakeDie_objects (n : Nat) : (d.wakeDie n).objects = d.objects := by
  unfold Dev.wakeDie; try dsimp only
  (repeat' split) <;> simp
@[simp] theorem Dev.wakeDie_hoist (n : Nat) : (d.wakeDie n).hoist = d.hoist := by
  unfold Dev.wakeDie; try dsimp only
  (repeat' split) <;> simp
@[simp] theorem Dev.wakeDie_store (n : Nat) : (d.wakeDie n).store = d.store := by
  unfold Dev.wakeDie; try dsimp only
  (repeat' split) <;> simp
@[simp] theorem Dev.wakeDie_mbx (n : Nat) : (d.wakeDie n).mbx = d.mbx := by
  unfold Dev.wakeDie; try dsimp only
  (repeat' split) <;> simp
@[simp] theorem Dev.wakeDie_sec (n : Nat) : (d.wakeDie n).sec = d.sec := by
  unfold Dev.wakeDie; try dsimp only
  (repeat' split) <;> simp
@[simp] theorem Dev.wakeDie_ports (n : Nat) : (d.wakeDie n).ports = d.ports := by
  unfold Dev.wakeDie; try dsimp only
  (repeat' split) <;> simp
@[simp] theorem Dev.wakeDie_routing (n : Nat) : (d.wakeDie n).routing = d.routing := by
  unfold Dev.wakeDie; try dsimp only
  (repeat' split) <;> simp
@[simp] theorem Dev.wakeDie_xbar (n : Nat) : (d.wakeDie n).xbar = d.xbar := by
  unfold Dev.wakeDie; try dsimp only
  (repeat' split) <;> simp
@[simp] theorem Dev.wakeDie_coll (n : Nat) : (d.wakeDie n).coll = d.coll := by
  unfold Dev.wakeDie; try dsimp only
  (repeat' split) <;> simp
@[simp] theorem Dev.wakeDie_time (n : Nat) : (d.wakeDie n).time = d.time := by
  unfold Dev.wakeDie; try dsimp only
  (repeat' split) <;> simp
@[simp] theorem Dev.wakeDie_evt (n : Nat) : (d.wakeDie n).evt = d.evt := by
  unfold Dev.wakeDie; try dsimp only
  (repeat' split) <;> simp
@[simp] theorem Dev.wakeDie_shuttle (n : Nat) : (d.wakeDie n).shuttle = d.shuttle := by
  unfold Dev.wakeDie; try dsimp only
  (repeat' split) <;> simp
@[simp] theorem Dev.wakeDie_dozeAborted (n : Nat) : (d.wakeDie n).dozeAborted = d.dozeAborted := by
  unfold Dev.wakeDie; try dsimp only
  (repeat' split) <;> simp
@[simp] theorem Dev.wakeDie_fixedBits (n : Nat) : (d.wakeDie n).fixedBits = d.fixedBits := by
  unfold Dev.wakeDie; try dsimp only
  (repeat' split) <;> simp
@[simp] theorem Dev.wakeDie_fixedPace (n : Nat) : (d.wakeDie n).fixedPace = d.fixedPace := by
  unfold Dev.wakeDie; try dsimp only
  (repeat' split) <;> simp
@[simp] theorem Dev.wakeDie_started (n : Nat) : (d.wakeDie n).started = d.started := by
  unfold Dev.wakeDie; try dsimp only
  (repeat' split) <;> simp
@[simp] theorem Dev.wakeDie_turns (n : Nat) : (d.wakeDie n).turns = d.turns := by
  unfold Dev.wakeDie; try dsimp only
  (repeat' split) <;> simp
@[simp] theorem Dev.wakeDie_capGen (n : Nat) : (d.wakeDie n).capGen = d.capGen := by
  unfold Dev.wakeDie; try dsimp only
  (repeat' split) <;> simp
@[simp] theorem Dev.wakeDie_capFinal (n : Nat) : (d.wakeDie n).capFinal = d.capFinal := by
  unfold Dev.wakeDie; try dsimp only
  (repeat' split) <;> simp
@[simp] theorem Dev.wakeDie_capTick (n : Nat) : (d.wakeDie n).capTick = d.capTick := by
  unfold Dev.wakeDie; try dsimp only
  (repeat' split) <;> simp
@[simp] theorem Dev.wakeDie_draws (n : Nat) : (d.wakeDie n).draws = d.draws := by
  unfold Dev.wakeDie; try dsimp only
  (repeat' split) <;> simp
@[simp] theorem Dev.wakeDie_out (n : Nat) : (d.wakeDie n).out = d.out := by
  unfold Dev.wakeDie; try dsimp only
  (repeat' split) <;> simp

/-! ## count -/

@[simp] theorem Dev.count_now (n o k : Nat) : (d.count n o k).now = d.now := by
  unfold Dev.count; try dsimp only
  (repeat' split) <;> simp
@[simp] theorem Dev.count_skew (n o k : Nat) : (d.count n o k).skew = d.skew := by
  unfold Dev.count; try dsimp only
  (repeat' split) <;> simp
@[simp] theorem Dev.count_power (n o k : Nat) : (d.count n o k).power = d.power := by
  unfold Dev.count; try dsimp only
  (repeat' split) <;> simp
@[simp] theorem Dev.count_cap (n o k : Nat) : (d.count n o k).cap = d.cap := by
  unfold Dev.count; try dsimp only
  (repeat' split) <;> simp
@[simp] theorem Dev.count_host (n o k : Nat) : (d.count n o k).host = d.host := by
  unfold Dev.count; try dsimp only
  (repeat' split) <;> simp
@[simp] theorem Dev.count_blocks (n o k : Nat) : (d.count n o k).blocks = d.blocks := by
  unfold Dev.count; try dsimp only
  (repeat' split) <;> simp
@[simp] theorem Dev.count_ringSel (n o k : Nat) : (d.count n o k).ringSel = d.ringSel := by
  unfold Dev.count; try dsimp only
  (repeat' split) <;> simp
@[simp] theorem Dev.count_epochClaim (n o k : Nat) : (d.count n o k).epochClaim = d.epochClaim := by
  unfold Dev.count; try dsimp only
  (repeat' split) <;> simp
@[simp] theorem Dev.count_epochSlot (n o k : Nat) : (d.count n o k).epochSlot = d.epochSlot := by
  unfold Dev.count; try dsimp only
  (repeat' split) <;> simp
@[simp] theorem Dev.count_rings (n o k : Nat) : (d.count n o k).rings = d.rings := by
  unfold Dev.count; try dsimp only
  (repeat' split) <;> simp
@[simp] theorem Dev.count_tallies (n o k : Nat) : (d.count n o k).tallies = d.tallies := by
  unfold Dev.count; try dsimp only
  (repeat' split) <;> simp
@[simp] theorem Dev.count_claims (n o k : Nat) : (d.count n o k).claims = d.claims := by
  unfold Dev.count; try dsimp only
  (repeat' split) <;> simp
@[simp] theorem Dev.count_frames (n o k : Nat) : (d.count n o k).frames = d.frames := by
  unfold Dev.count; try dsimp only
  (repeat' split) <;> simp
@[simp] theorem Dev.count_objects (n o k : Nat) : (d.count n o k).objects = d.objects := by
  unfold Dev.count; try dsimp only
  (repeat' split) <;> simp
@[simp] theorem Dev.count_hoist (n o k : Nat) : (d.count n o k).hoist = d.hoist := by
  unfold Dev.count; try dsimp only
  (repeat' split) <;> simp
@[simp] theorem Dev.count_health (n o k : Nat) : (d.count n o k).health = d.health := by
  unfold Dev.count; try dsimp only
  (repeat' split) <;> simp
@[simp] theorem Dev.count_store (n o k : Nat) : (d.count n o k).store = d.store := by
  unfold Dev.count; try dsimp only
  (repeat' split) <;> simp
@[simp] theorem Dev.count_mbx (n o k : Nat) : (d.count n o k).mbx = d.mbx := by
  unfold Dev.count; try dsimp only
  (repeat' split) <;> simp
@[simp] theorem Dev.count_sec (n o k : Nat) : (d.count n o k).sec = d.sec := by
  unfold Dev.count; try dsimp only
  (repeat' split) <;> simp
@[simp] theorem Dev.count_ports (n o k : Nat) : (d.count n o k).ports = d.ports := by
  unfold Dev.count; try dsimp only
  (repeat' split) <;> simp
@[simp] theorem Dev.count_routing (n o k : Nat) : (d.count n o k).routing = d.routing := by
  unfold Dev.count; try dsimp only
  (repeat' split) <;> simp
@[simp] theorem Dev.count_xbar (n o k : Nat) : (d.count n o k).xbar = d.xbar := by
  unfold Dev.count; try dsimp only
  (repeat' split) <;> simp
@[simp] theorem Dev.count_coll (n o k : Nat) : (d.count n o k).coll = d.coll := by
  unfold Dev.count; try dsimp only
  (repeat' split) <;> simp
@[simp] theorem Dev.count_time (n o k : Nat) : (d.count n o k).time = d.time := by
  unfold Dev.count; try dsimp only
  (repeat' split) <;> simp
@[simp] theorem Dev.count_evt (n o k : Nat) : (d.count n o k).evt = d.evt := by
  unfold Dev.count; try dsimp only
  (repeat' split) <;> simp
@[simp] theorem Dev.count_shuttle (n o k : Nat) : (d.count n o k).shuttle = d.shuttle := by
  unfold Dev.count; try dsimp only
  (repeat' split) <;> simp
@[simp] theorem Dev.count_dozeAborted (n o k : Nat) : (d.count n o k).dozeAborted = d.dozeAborted := by
  unfold Dev.count; try dsimp only
  (repeat' split) <;> simp
@[simp] theorem Dev.count_fixedBits (n o k : Nat) : (d.count n o k).fixedBits = d.fixedBits := by
  unfold Dev.count; try dsimp only
  (repeat' split) <;> simp
@[simp] theorem Dev.count_fixedPace (n o k : Nat) : (d.count n o k).fixedPace = d.fixedPace := by
  unfold Dev.count; try dsimp only
  (repeat' split) <;> simp
@[simp] theorem Dev.count_started (n o k : Nat) : (d.count n o k).started = d.started := by
  unfold Dev.count; try dsimp only
  (repeat' split) <;> simp
@[simp] theorem Dev.count_turns (n o k : Nat) : (d.count n o k).turns = d.turns := by
  unfold Dev.count; try dsimp only
  (repeat' split) <;> simp
@[simp] theorem Dev.count_capGen (n o k : Nat) : (d.count n o k).capGen = d.capGen := by
  unfold Dev.count; try dsimp only
  (repeat' split) <;> simp
@[simp] theorem Dev.count_capFinal (n o k : Nat) : (d.count n o k).capFinal = d.capFinal := by
  unfold Dev.count; try dsimp only
  (repeat' split) <;> simp
@[simp] theorem Dev.count_capTick (n o k : Nat) : (d.count n o k).capTick = d.capTick := by
  unfold Dev.count; try dsimp only
  (repeat' split) <;> simp
@[simp] theorem Dev.count_draws (n o k : Nat) : (d.count n o k).draws = d.draws := by
  unfold Dev.count; try dsimp only
  (repeat' split) <;> simp
@[simp] theorem Dev.count_out (n o k : Nat) : (d.count n o k).out = d.out := by
  unfold Dev.count; try dsimp only
  (repeat' split) <;> simp

/-! ## touchDie -/

@[simp] theorem Dev.touchDie_now (n : Nat) : (d.touchDie n).now = d.now := by
  unfold Dev.touchDie; try dsimp only
  (repeat' split) <;> simp
@[simp] theorem Dev.touchDie_skew (n : Nat) : (d.touchDie n).skew = d.skew := by
  unfold Dev.touchDie; try dsimp only
  (repeat' split) <;> simp
@[simp] theorem Dev.touchDie_power (n : Nat) : (d.touchDie n).power = d.power := by
  unfold Dev.touchDie; try dsimp only
  (repeat' split) <;> simp
@[simp] theorem Dev.touchDie_cap (n : Nat) : (d.touchDie n).cap = d.cap := by
  unfold Dev.touchDie; try dsimp only
  (repeat' split) <;> simp
@[simp] theorem Dev.touchDie_host (n : Nat) : (d.touchDie n).host = d.host := by
  unfold Dev.touchDie; try dsimp only
  (repeat' split) <;> simp
@[simp] theorem Dev.touchDie_blocks (n : Nat) : (d.touchDie n).blocks = d.blocks := by
  unfold Dev.touchDie; try dsimp only
  (repeat' split) <;> simp
@[simp] theorem Dev.touchDie_ringSel (n : Nat) : (d.touchDie n).ringSel = d.ringSel := by
  unfold Dev.touchDie; try dsimp only
  (repeat' split) <;> simp
@[simp] theorem Dev.touchDie_epochClaim (n : Nat) : (d.touchDie n).epochClaim = d.epochClaim := by
  unfold Dev.touchDie; try dsimp only
  (repeat' split) <;> simp
@[simp] theorem Dev.touchDie_epochSlot (n : Nat) : (d.touchDie n).epochSlot = d.epochSlot := by
  unfold Dev.touchDie; try dsimp only
  (repeat' split) <;> simp
@[simp] theorem Dev.touchDie_rings (n : Nat) : (d.touchDie n).rings = d.rings := by
  unfold Dev.touchDie; try dsimp only
  (repeat' split) <;> simp
@[simp] theorem Dev.touchDie_tallies (n : Nat) : (d.touchDie n).tallies = d.tallies := by
  unfold Dev.touchDie; try dsimp only
  (repeat' split) <;> simp
@[simp] theorem Dev.touchDie_claims (n : Nat) : (d.touchDie n).claims = d.claims := by
  unfold Dev.touchDie; try dsimp only
  (repeat' split) <;> simp
@[simp] theorem Dev.touchDie_frames (n : Nat) : (d.touchDie n).frames = d.frames := by
  unfold Dev.touchDie; try dsimp only
  (repeat' split) <;> simp
@[simp] theorem Dev.touchDie_objects (n : Nat) : (d.touchDie n).objects = d.objects := by
  unfold Dev.touchDie; try dsimp only
  (repeat' split) <;> simp
@[simp] theorem Dev.touchDie_hoist (n : Nat) : (d.touchDie n).hoist = d.hoist := by
  unfold Dev.touchDie; try dsimp only
  (repeat' split) <;> simp
@[simp] theorem Dev.touchDie_store (n : Nat) : (d.touchDie n).store = d.store := by
  unfold Dev.touchDie; try dsimp only
  (repeat' split) <;> simp
@[simp] theorem Dev.touchDie_mbx (n : Nat) : (d.touchDie n).mbx = d.mbx := by
  unfold Dev.touchDie; try dsimp only
  (repeat' split) <;> simp
@[simp] theorem Dev.touchDie_sec (n : Nat) : (d.touchDie n).sec = d.sec := by
  unfold Dev.touchDie; try dsimp only
  (repeat' split) <;> simp
@[simp] theorem Dev.touchDie_ports (n : Nat) : (d.touchDie n).ports = d.ports := by
  unfold Dev.touchDie; try dsimp only
  (repeat' split) <;> simp
@[simp] theorem Dev.touchDie_routing (n : Nat) : (d.touchDie n).routing = d.routing := by
  unfold Dev.touchDie; try dsimp only
  (repeat' split) <;> simp
@[simp] theorem Dev.touchDie_xbar (n : Nat) : (d.touchDie n).xbar = d.xbar := by
  unfold Dev.touchDie; try dsimp only
  (repeat' split) <;> simp
@[simp] theorem Dev.touchDie_coll (n : Nat) : (d.touchDie n).coll = d.coll := by
  unfold Dev.touchDie; try dsimp only
  (repeat' split) <;> simp
@[simp] theorem Dev.touchDie_time (n : Nat) : (d.touchDie n).time = d.time := by
  unfold Dev.touchDie; try dsimp only
  (repeat' split) <;> simp
@[simp] theorem Dev.touchDie_evt (n : Nat) : (d.touchDie n).evt = d.evt := by
  unfold Dev.touchDie; try dsimp only
  (repeat' split) <;> simp
@[simp] theorem Dev.touchDie_shuttle (n : Nat) : (d.touchDie n).shuttle = d.shuttle := by
  unfold Dev.touchDie; try dsimp only
  (repeat' split) <;> simp
@[simp] theorem Dev.touchDie_fixedBits (n : Nat) : (d.touchDie n).fixedBits = d.fixedBits := by
  unfold Dev.touchDie; try dsimp only
  (repeat' split) <;> simp
@[simp] theorem Dev.touchDie_fixedPace (n : Nat) : (d.touchDie n).fixedPace = d.fixedPace := by
  unfold Dev.touchDie; try dsimp only
  (repeat' split) <;> simp
@[simp] theorem Dev.touchDie_started (n : Nat) : (d.touchDie n).started = d.started := by
  unfold Dev.touchDie; try dsimp only
  (repeat' split) <;> simp
@[simp] theorem Dev.touchDie_turns (n : Nat) : (d.touchDie n).turns = d.turns := by
  unfold Dev.touchDie; try dsimp only
  (repeat' split) <;> simp
@[simp] theorem Dev.touchDie_capGen (n : Nat) : (d.touchDie n).capGen = d.capGen := by
  unfold Dev.touchDie; try dsimp only
  (repeat' split) <;> simp
@[simp] theorem Dev.touchDie_capFinal (n : Nat) : (d.touchDie n).capFinal = d.capFinal := by
  unfold Dev.touchDie; try dsimp only
  (repeat' split) <;> simp
@[simp] theorem Dev.touchDie_capTick (n : Nat) : (d.touchDie n).capTick = d.capTick := by
  unfold Dev.touchDie; try dsimp only
  (repeat' split) <;> simp
@[simp] theorem Dev.touchDie_draws (n : Nat) : (d.touchDie n).draws = d.draws := by
  unfold Dev.touchDie; try dsimp only
  (repeat' split) <;> simp
@[simp] theorem Dev.touchDie_out (n : Nat) : (d.touchDie n).out = d.out := by
  unfold Dev.touchDie; try dsimp only
  (repeat' split) <;> simp

/-! ## setPState -/

@[simp] theorem Dev.setPState_now (p : PState) : (d.setPState p).now = d.now := by
  unfold Dev.setPState; try dsimp only
  (repeat' split) <;> simp
@[simp] theorem Dev.setPState_skew (p : PState) : (d.setPState p).skew = d.skew := by
  unfold Dev.setPState; try dsimp only
  (repeat' split) <;> simp
@[simp] theorem Dev.setPState_dies (p : PState) : (d.setPState p).dies = d.dies := by
  unfold Dev.setPState; try dsimp only
  (repeat' split) <;> simp
@[simp] theorem Dev.setPState_cap (p : PState) : (d.setPState p).cap = d.cap := by
  unfold Dev.setPState; try dsimp only
  (repeat' split) <;> simp
@[simp] theorem Dev.setPState_blocks (p : PState) : (d.setPState p).blocks = d.blocks := by
  unfold Dev.setPState; try dsimp only
  (repeat' split) <;> simp
@[simp] theorem Dev.setPState_ringSel (p : PState) : (d.setPState p).ringSel = d.ringSel := by
  unfold Dev.setPState; try dsimp only
  (repeat' split) <;> simp
@[simp] theorem Dev.setPState_epochClaim (p : PState) : (d.setPState p).epochClaim = d.epochClaim := by
  unfold Dev.setPState; try dsimp only
  (repeat' split) <;> simp
@[simp] theorem Dev.setPState_epochSlot (p : PState) : (d.setPState p).epochSlot = d.epochSlot := by
  unfold Dev.setPState; try dsimp only
  (repeat' split) <;> simp
@[simp] theorem Dev.setPState_rings (p : PState) : (d.setPState p).rings = d.rings := by
  unfold Dev.setPState; try dsimp only
  (repeat' split) <;> simp
@[simp] theorem Dev.setPState_tallies (p : PState) : (d.setPState p).tallies = d.tallies := by
  unfold Dev.setPState; try dsimp only
  (repeat' split) <;> simp
@[simp] theorem Dev.setPState_claims (p : PState) : (d.setPState p).claims = d.claims := by
  unfold Dev.setPState; try dsimp only
  (repeat' split) <;> simp
@[simp] theorem Dev.setPState_frames (p : PState) : (d.setPState p).frames = d.frames := by
  unfold Dev.setPState; try dsimp only
  (repeat' split) <;> simp
@[simp] theorem Dev.setPState_objects (p : PState) : (d.setPState p).objects = d.objects := by
  unfold Dev.setPState; try dsimp only
  (repeat' split) <;> simp
@[simp] theorem Dev.setPState_hoist (p : PState) : (d.setPState p).hoist = d.hoist := by
  unfold Dev.setPState; try dsimp only
  (repeat' split) <;> simp
@[simp] theorem Dev.setPState_health (p : PState) : (d.setPState p).health = d.health := by
  unfold Dev.setPState; try dsimp only
  (repeat' split) <;> simp
@[simp] theorem Dev.setPState_store (p : PState) : (d.setPState p).store = d.store := by
  unfold Dev.setPState; try dsimp only
  (repeat' split) <;> simp
@[simp] theorem Dev.setPState_mbx (p : PState) : (d.setPState p).mbx = d.mbx := by
  unfold Dev.setPState; try dsimp only
  (repeat' split) <;> simp
@[simp] theorem Dev.setPState_sec (p : PState) : (d.setPState p).sec = d.sec := by
  unfold Dev.setPState; try dsimp only
  (repeat' split) <;> simp
@[simp] theorem Dev.setPState_ports (p : PState) : (d.setPState p).ports = d.ports := by
  unfold Dev.setPState; try dsimp only
  (repeat' split) <;> simp
@[simp] theorem Dev.setPState_routing (p : PState) : (d.setPState p).routing = d.routing := by
  unfold Dev.setPState; try dsimp only
  (repeat' split) <;> simp
@[simp] theorem Dev.setPState_xbar (p : PState) : (d.setPState p).xbar = d.xbar := by
  unfold Dev.setPState; try dsimp only
  (repeat' split) <;> simp
@[simp] theorem Dev.setPState_coll (p : PState) : (d.setPState p).coll = d.coll := by
  unfold Dev.setPState; try dsimp only
  (repeat' split) <;> simp
@[simp] theorem Dev.setPState_time (p : PState) : (d.setPState p).time = d.time := by
  unfold Dev.setPState; try dsimp only
  (repeat' split) <;> simp
@[simp] theorem Dev.setPState_shuttle (p : PState) : (d.setPState p).shuttle = d.shuttle := by
  unfold Dev.setPState; try dsimp only
  (repeat' split) <;> simp
@[simp] theorem Dev.setPState_dozeAborted (p : PState) : (d.setPState p).dozeAborted = d.dozeAborted := by
  unfold Dev.setPState; try dsimp only
  (repeat' split) <;> simp
@[simp] theorem Dev.setPState_fixedBits (p : PState) : (d.setPState p).fixedBits = d.fixedBits := by
  unfold Dev.setPState; try dsimp only
  (repeat' split) <;> simp
@[simp] theorem Dev.setPState_fixedPace (p : PState) : (d.setPState p).fixedPace = d.fixedPace := by
  unfold Dev.setPState; try dsimp only
  (repeat' split) <;> simp
@[simp] theorem Dev.setPState_started (p : PState) : (d.setPState p).started = d.started := by
  unfold Dev.setPState; try dsimp only
  (repeat' split) <;> simp
@[simp] theorem Dev.setPState_turns (p : PState) : (d.setPState p).turns = d.turns := by
  unfold Dev.setPState; try dsimp only
  (repeat' split) <;> simp
@[simp] theorem Dev.setPState_capGen (p : PState) : (d.setPState p).capGen = d.capGen := by
  unfold Dev.setPState; try dsimp only
  (repeat' split) <;> simp
@[simp] theorem Dev.setPState_capFinal (p : PState) : (d.setPState p).capFinal = d.capFinal := by
  unfold Dev.setPState; try dsimp only
  (repeat' split) <;> simp
@[simp] theorem Dev.setPState_capTick (p : PState) : (d.setPState p).capTick = d.capTick := by
  unfold Dev.setPState; try dsimp only
  (repeat' split) <;> simp
@[simp] theorem Dev.setPState_draws (p : PState) : (d.setPState p).draws = d.draws := by
  unfold Dev.setPState; try dsimp only
  (repeat' split) <;> simp

/-! ## touchRange -/

@[simp] theorem Dev.touchRange_now (a n : Nat) : (d.touchRange a n).now = d.now := by
  unfold Dev.touchRange
  exact foldl_keep Dev.now _ (fun _ ⟨_, _, _, _⟩ => foldl_keep Dev.now _ (fun _ _ => by simp) _ _) _ _
@[simp] theorem Dev.touchRange_skew (a n : Nat) : (d.touchRange a n).skew = d.skew := by
  unfold Dev.touchRange
  exact foldl_keep Dev.skew _ (fun _ ⟨_, _, _, _⟩ => foldl_keep Dev.skew _ (fun _ _ => by simp) _ _) _ _
@[simp] theorem Dev.touchRange_power (a n : Nat) : (d.touchRange a n).power = d.power := by
  unfold Dev.touchRange
  exact foldl_keep Dev.power _ (fun _ ⟨_, _, _, _⟩ => foldl_keep Dev.power _ (fun _ _ => by simp) _ _) _ _
@[simp] theorem Dev.touchRange_cap (a n : Nat) : (d.touchRange a n).cap = d.cap := by
  unfold Dev.touchRange
  exact foldl_keep Dev.cap _ (fun _ ⟨_, _, _, _⟩ => foldl_keep Dev.cap _ (fun _ _ => by simp) _ _) _ _
@[simp] theorem Dev.touchRange_host (a n : Nat) : (d.touchRange a n).host = d.host := by
  unfold Dev.touchRange
  exact foldl_keep Dev.host _ (fun _ ⟨_, _, _, _⟩ => foldl_keep Dev.host _ (fun _ _ => by simp) _ _) _ _
@[simp] theorem Dev.touchRange_blocks (a n : Nat) : (d.touchRange a n).blocks = d.blocks := by
  unfold Dev.touchRange
  exact foldl_keep Dev.blocks _ (fun _ ⟨_, _, _, _⟩ => foldl_keep Dev.blocks _ (fun _ _ => by simp) _ _) _ _
@[simp] theorem Dev.touchRange_ringSel (a n : Nat) : (d.touchRange a n).ringSel = d.ringSel := by
  unfold Dev.touchRange
  exact foldl_keep Dev.ringSel _ (fun _ ⟨_, _, _, _⟩ => foldl_keep Dev.ringSel _ (fun _ _ => by simp) _ _) _ _
@[simp] theorem Dev.touchRange_epochClaim (a n : Nat) : (d.touchRange a n).epochClaim = d.epochClaim := by
  unfold Dev.touchRange
  exact foldl_keep Dev.epochClaim _ (fun _ ⟨_, _, _, _⟩ => foldl_keep Dev.epochClaim _ (fun _ _ => by simp) _ _) _ _
@[simp] theorem Dev.touchRange_epochSlot (a n : Nat) : (d.touchRange a n).epochSlot = d.epochSlot := by
  unfold Dev.touchRange
  exact foldl_keep Dev.epochSlot _ (fun _ ⟨_, _, _, _⟩ => foldl_keep Dev.epochSlot _ (fun _ _ => by simp) _ _) _ _
@[simp] theorem Dev.touchRange_rings (a n : Nat) : (d.touchRange a n).rings = d.rings := by
  unfold Dev.touchRange
  exact foldl_keep Dev.rings _ (fun _ ⟨_, _, _, _⟩ => foldl_keep Dev.rings _ (fun _ _ => by simp) _ _) _ _
@[simp] theorem Dev.touchRange_tallies (a n : Nat) : (d.touchRange a n).tallies = d.tallies := by
  unfold Dev.touchRange
  exact foldl_keep Dev.tallies _ (fun _ ⟨_, _, _, _⟩ => foldl_keep Dev.tallies _ (fun _ _ => by simp) _ _) _ _
@[simp] theorem Dev.touchRange_claims (a n : Nat) : (d.touchRange a n).claims = d.claims := by
  unfold Dev.touchRange
  exact foldl_keep Dev.claims _ (fun _ ⟨_, _, _, _⟩ => foldl_keep Dev.claims _ (fun _ _ => by simp) _ _) _ _
@[simp] theorem Dev.touchRange_frames (a n : Nat) : (d.touchRange a n).frames = d.frames := by
  unfold Dev.touchRange
  exact foldl_keep Dev.frames _ (fun _ ⟨_, _, _, _⟩ => foldl_keep Dev.frames _ (fun _ _ => by simp) _ _) _ _
@[simp] theorem Dev.touchRange_objects (a n : Nat) : (d.touchRange a n).objects = d.objects := by
  unfold Dev.touchRange
  exact foldl_keep Dev.objects _ (fun _ ⟨_, _, _, _⟩ => foldl_keep Dev.objects _ (fun _ _ => by simp) _ _) _ _
@[simp] theorem Dev.touchRange_hoist (a n : Nat) : (d.touchRange a n).hoist = d.hoist := by
  unfold Dev.touchRange
  exact foldl_keep Dev.hoist _ (fun _ ⟨_, _, _, _⟩ => foldl_keep Dev.hoist _ (fun _ _ => by simp) _ _) _ _
@[simp] theorem Dev.touchRange_store (a n : Nat) : (d.touchRange a n).store = d.store := by
  unfold Dev.touchRange
  exact foldl_keep Dev.store _ (fun _ ⟨_, _, _, _⟩ => foldl_keep Dev.store _ (fun _ _ => by simp) _ _) _ _
@[simp] theorem Dev.touchRange_mbx (a n : Nat) : (d.touchRange a n).mbx = d.mbx := by
  unfold Dev.touchRange
  exact foldl_keep Dev.mbx _ (fun _ ⟨_, _, _, _⟩ => foldl_keep Dev.mbx _ (fun _ _ => by simp) _ _) _ _
@[simp] theorem Dev.touchRange_sec (a n : Nat) : (d.touchRange a n).sec = d.sec := by
  unfold Dev.touchRange
  exact foldl_keep Dev.sec _ (fun _ ⟨_, _, _, _⟩ => foldl_keep Dev.sec _ (fun _ _ => by simp) _ _) _ _
@[simp] theorem Dev.touchRange_ports (a n : Nat) : (d.touchRange a n).ports = d.ports := by
  unfold Dev.touchRange
  exact foldl_keep Dev.ports _ (fun _ ⟨_, _, _, _⟩ => foldl_keep Dev.ports _ (fun _ _ => by simp) _ _) _ _
@[simp] theorem Dev.touchRange_routing (a n : Nat) : (d.touchRange a n).routing = d.routing := by
  unfold Dev.touchRange
  exact foldl_keep Dev.routing _ (fun _ ⟨_, _, _, _⟩ => foldl_keep Dev.routing _ (fun _ _ => by simp) _ _) _ _
@[simp] theorem Dev.touchRange_xbar (a n : Nat) : (d.touchRange a n).xbar = d.xbar := by
  unfold Dev.touchRange
  exact foldl_keep Dev.xbar _ (fun _ ⟨_, _, _, _⟩ => foldl_keep Dev.xbar _ (fun _ _ => by simp) _ _) _ _
@[simp] theorem Dev.touchRange_coll (a n : Nat) : (d.touchRange a n).coll = d.coll := by
  unfold Dev.touchRange
  exact foldl_keep Dev.coll _ (fun _ ⟨_, _, _, _⟩ => foldl_keep Dev.coll _ (fun _ _ => by simp) _ _) _ _
@[simp] theorem Dev.touchRange_time (a n : Nat) : (d.touchRange a n).time = d.time := by
  unfold Dev.touchRange
  exact foldl_keep Dev.time _ (fun _ ⟨_, _, _, _⟩ => foldl_keep Dev.time _ (fun _ _ => by simp) _ _) _ _
@[simp] theorem Dev.touchRange_evt (a n : Nat) : (d.touchRange a n).evt = d.evt := by
  unfold Dev.touchRange
  exact foldl_keep Dev.evt _ (fun _ ⟨_, _, _, _⟩ => foldl_keep Dev.evt _ (fun _ _ => by simp) _ _) _ _
@[simp] theorem Dev.touchRange_shuttle (a n : Nat) : (d.touchRange a n).shuttle = d.shuttle := by
  unfold Dev.touchRange
  exact foldl_keep Dev.shuttle _ (fun _ ⟨_, _, _, _⟩ => foldl_keep Dev.shuttle _ (fun _ _ => by simp) _ _) _ _
@[simp] theorem Dev.touchRange_fixedBits (a n : Nat) : (d.touchRange a n).fixedBits = d.fixedBits := by
  unfold Dev.touchRange
  exact foldl_keep Dev.fixedBits _ (fun _ ⟨_, _, _, _⟩ => foldl_keep Dev.fixedBits _ (fun _ _ => by simp) _ _) _ _
@[simp] theorem Dev.touchRange_fixedPace (a n : Nat) : (d.touchRange a n).fixedPace = d.fixedPace := by
  unfold Dev.touchRange
  exact foldl_keep Dev.fixedPace _ (fun _ ⟨_, _, _, _⟩ => foldl_keep Dev.fixedPace _ (fun _ _ => by simp) _ _) _ _
@[simp] theorem Dev.touchRange_started (a n : Nat) : (d.touchRange a n).started = d.started := by
  unfold Dev.touchRange
  exact foldl_keep Dev.started _ (fun _ ⟨_, _, _, _⟩ => foldl_keep Dev.started _ (fun _ _ => by simp) _ _) _ _
@[simp] theorem Dev.touchRange_turns (a n : Nat) : (d.touchRange a n).turns = d.turns := by
  unfold Dev.touchRange
  exact foldl_keep Dev.turns _ (fun _ ⟨_, _, _, _⟩ => foldl_keep Dev.turns _ (fun _ _ => by simp) _ _) _ _
@[simp] theorem Dev.touchRange_capGen (a n : Nat) : (d.touchRange a n).capGen = d.capGen := by
  unfold Dev.touchRange
  exact foldl_keep Dev.capGen _ (fun _ ⟨_, _, _, _⟩ => foldl_keep Dev.capGen _ (fun _ _ => by simp) _ _) _ _
@[simp] theorem Dev.touchRange_capFinal (a n : Nat) : (d.touchRange a n).capFinal = d.capFinal := by
  unfold Dev.touchRange
  exact foldl_keep Dev.capFinal _ (fun _ ⟨_, _, _, _⟩ => foldl_keep Dev.capFinal _ (fun _ _ => by simp) _ _) _ _
@[simp] theorem Dev.touchRange_capTick (a n : Nat) : (d.touchRange a n).capTick = d.capTick := by
  unfold Dev.touchRange
  exact foldl_keep Dev.capTick _ (fun _ ⟨_, _, _, _⟩ => foldl_keep Dev.capTick _ (fun _ _ => by simp) _ _) _ _
@[simp] theorem Dev.touchRange_draws (a n : Nat) : (d.touchRange a n).draws = d.draws := by
  unfold Dev.touchRange
  exact foldl_keep Dev.draws _ (fun _ ⟨_, _, _, _⟩ => foldl_keep Dev.draws _ (fun _ _ => by simp) _ _) _ _
@[simp] theorem Dev.touchRange_out (a n : Nat) : (d.touchRange a n).out = d.out := by
  unfold Dev.touchRange
  exact foldl_keep Dev.out _ (fun _ ⟨_, _, _, _⟩ => foldl_keep Dev.out _ (fun _ _ => by simp) _ _) _ _

/-! ## heatUnits -/

@[simp] theorem Dev.heatUnits_now (n lo hi k : Nat) : (d.heatUnits n lo hi k).now = d.now := by
  unfold Dev.heatUnits; repeat' split
  · rfl
  · exact foldl_keep Dev.now _ (fun _ _ => by simp) _ _
  · rfl
@[simp] theorem Dev.heatUnits_skew (n lo hi k : Nat) : (d.heatUnits n lo hi k).skew = d.skew := by
  unfold Dev.heatUnits; repeat' split
  · rfl
  · exact foldl_keep Dev.skew _ (fun _ _ => by simp) _ _
  · rfl
@[simp] theorem Dev.heatUnits_power (n lo hi k : Nat) : (d.heatUnits n lo hi k).power = d.power := by
  unfold Dev.heatUnits; repeat' split
  · rfl
  · exact foldl_keep Dev.power _ (fun _ _ => by simp) _ _
  · rfl
@[simp] theorem Dev.heatUnits_cap (n lo hi k : Nat) : (d.heatUnits n lo hi k).cap = d.cap := by
  unfold Dev.heatUnits; repeat' split
  · rfl
  · exact foldl_keep Dev.cap _ (fun _ _ => by simp) _ _
  · rfl
@[simp] theorem Dev.heatUnits_host (n lo hi k : Nat) : (d.heatUnits n lo hi k).host = d.host := by
  unfold Dev.heatUnits; repeat' split
  · rfl
  · exact foldl_keep Dev.host _ (fun _ _ => by simp) _ _
  · rfl
@[simp] theorem Dev.heatUnits_blocks (n lo hi k : Nat) : (d.heatUnits n lo hi k).blocks = d.blocks := by
  unfold Dev.heatUnits; repeat' split
  · rfl
  · exact foldl_keep Dev.blocks _ (fun _ _ => by simp) _ _
  · rfl
@[simp] theorem Dev.heatUnits_ringSel (n lo hi k : Nat) : (d.heatUnits n lo hi k).ringSel = d.ringSel := by
  unfold Dev.heatUnits; repeat' split
  · rfl
  · exact foldl_keep Dev.ringSel _ (fun _ _ => by simp) _ _
  · rfl
@[simp] theorem Dev.heatUnits_epochClaim (n lo hi k : Nat) : (d.heatUnits n lo hi k).epochClaim = d.epochClaim := by
  unfold Dev.heatUnits; repeat' split
  · rfl
  · exact foldl_keep Dev.epochClaim _ (fun _ _ => by simp) _ _
  · rfl
@[simp] theorem Dev.heatUnits_epochSlot (n lo hi k : Nat) : (d.heatUnits n lo hi k).epochSlot = d.epochSlot := by
  unfold Dev.heatUnits; repeat' split
  · rfl
  · exact foldl_keep Dev.epochSlot _ (fun _ _ => by simp) _ _
  · rfl
@[simp] theorem Dev.heatUnits_rings (n lo hi k : Nat) : (d.heatUnits n lo hi k).rings = d.rings := by
  unfold Dev.heatUnits; repeat' split
  · rfl
  · exact foldl_keep Dev.rings _ (fun _ _ => by simp) _ _
  · rfl
@[simp] theorem Dev.heatUnits_tallies (n lo hi k : Nat) : (d.heatUnits n lo hi k).tallies = d.tallies := by
  unfold Dev.heatUnits; repeat' split
  · rfl
  · exact foldl_keep Dev.tallies _ (fun _ _ => by simp) _ _
  · rfl
@[simp] theorem Dev.heatUnits_claims (n lo hi k : Nat) : (d.heatUnits n lo hi k).claims = d.claims := by
  unfold Dev.heatUnits; repeat' split
  · rfl
  · exact foldl_keep Dev.claims _ (fun _ _ => by simp) _ _
  · rfl
@[simp] theorem Dev.heatUnits_frames (n lo hi k : Nat) : (d.heatUnits n lo hi k).frames = d.frames := by
  unfold Dev.heatUnits; repeat' split
  · rfl
  · exact foldl_keep Dev.frames _ (fun _ _ => by simp) _ _
  · rfl
@[simp] theorem Dev.heatUnits_objects (n lo hi k : Nat) : (d.heatUnits n lo hi k).objects = d.objects := by
  unfold Dev.heatUnits; repeat' split
  · rfl
  · exact foldl_keep Dev.objects _ (fun _ _ => by simp) _ _
  · rfl
@[simp] theorem Dev.heatUnits_hoist (n lo hi k : Nat) : (d.heatUnits n lo hi k).hoist = d.hoist := by
  unfold Dev.heatUnits; repeat' split
  · rfl
  · exact foldl_keep Dev.hoist _ (fun _ _ => by simp) _ _
  · rfl
@[simp] theorem Dev.heatUnits_health (n lo hi k : Nat) : (d.heatUnits n lo hi k).health = d.health := by
  unfold Dev.heatUnits; repeat' split
  · rfl
  · exact foldl_keep Dev.health _ (fun _ _ => by simp) _ _
  · rfl
@[simp] theorem Dev.heatUnits_store (n lo hi k : Nat) : (d.heatUnits n lo hi k).store = d.store := by
  unfold Dev.heatUnits; repeat' split
  · rfl
  · exact foldl_keep Dev.store _ (fun _ _ => by simp) _ _
  · rfl
@[simp] theorem Dev.heatUnits_mbx (n lo hi k : Nat) : (d.heatUnits n lo hi k).mbx = d.mbx := by
  unfold Dev.heatUnits; repeat' split
  · rfl
  · exact foldl_keep Dev.mbx _ (fun _ _ => by simp) _ _
  · rfl
@[simp] theorem Dev.heatUnits_sec (n lo hi k : Nat) : (d.heatUnits n lo hi k).sec = d.sec := by
  unfold Dev.heatUnits; repeat' split
  · rfl
  · exact foldl_keep Dev.sec _ (fun _ _ => by simp) _ _
  · rfl
@[simp] theorem Dev.heatUnits_ports (n lo hi k : Nat) : (d.heatUnits n lo hi k).ports = d.ports := by
  unfold Dev.heatUnits; repeat' split
  · rfl
  · exact foldl_keep Dev.ports _ (fun _ _ => by simp) _ _
  · rfl
@[simp] theorem Dev.heatUnits_routing (n lo hi k : Nat) : (d.heatUnits n lo hi k).routing = d.routing := by
  unfold Dev.heatUnits; repeat' split
  · rfl
  · exact foldl_keep Dev.routing _ (fun _ _ => by simp) _ _
  · rfl
@[simp] theorem Dev.heatUnits_xbar (n lo hi k : Nat) : (d.heatUnits n lo hi k).xbar = d.xbar := by
  unfold Dev.heatUnits; repeat' split
  · rfl
  · exact foldl_keep Dev.xbar _ (fun _ _ => by simp) _ _
  · rfl
@[simp] theorem Dev.heatUnits_coll (n lo hi k : Nat) : (d.heatUnits n lo hi k).coll = d.coll := by
  unfold Dev.heatUnits; repeat' split
  · rfl
  · exact foldl_keep Dev.coll _ (fun _ _ => by simp) _ _
  · rfl
@[simp] theorem Dev.heatUnits_time (n lo hi k : Nat) : (d.heatUnits n lo hi k).time = d.time := by
  unfold Dev.heatUnits; repeat' split
  · rfl
  · exact foldl_keep Dev.time _ (fun _ _ => by simp) _ _
  · rfl
@[simp] theorem Dev.heatUnits_evt (n lo hi k : Nat) : (d.heatUnits n lo hi k).evt = d.evt := by
  unfold Dev.heatUnits; repeat' split
  · rfl
  · exact foldl_keep Dev.evt _ (fun _ _ => by simp) _ _
  · rfl
@[simp] theorem Dev.heatUnits_shuttle (n lo hi k : Nat) : (d.heatUnits n lo hi k).shuttle = d.shuttle := by
  unfold Dev.heatUnits; repeat' split
  · rfl
  · exact foldl_keep Dev.shuttle _ (fun _ _ => by simp) _ _
  · rfl
@[simp] theorem Dev.heatUnits_dozeAborted (n lo hi k : Nat) : (d.heatUnits n lo hi k).dozeAborted = d.dozeAborted := by
  unfold Dev.heatUnits; repeat' split
  · rfl
  · exact foldl_keep Dev.dozeAborted _ (fun _ _ => by simp) _ _
  · rfl
@[simp] theorem Dev.heatUnits_fixedBits (n lo hi k : Nat) : (d.heatUnits n lo hi k).fixedBits = d.fixedBits := by
  unfold Dev.heatUnits; repeat' split
  · rfl
  · exact foldl_keep Dev.fixedBits _ (fun _ _ => by simp) _ _
  · rfl
@[simp] theorem Dev.heatUnits_fixedPace (n lo hi k : Nat) : (d.heatUnits n lo hi k).fixedPace = d.fixedPace := by
  unfold Dev.heatUnits; repeat' split
  · rfl
  · exact foldl_keep Dev.fixedPace _ (fun _ _ => by simp) _ _
  · rfl
@[simp] theorem Dev.heatUnits_started (n lo hi k : Nat) : (d.heatUnits n lo hi k).started = d.started := by
  unfold Dev.heatUnits; repeat' split
  · rfl
  · exact foldl_keep Dev.started _ (fun _ _ => by simp) _ _
  · rfl
@[simp] theorem Dev.heatUnits_turns (n lo hi k : Nat) : (d.heatUnits n lo hi k).turns = d.turns := by
  unfold Dev.heatUnits; repeat' split
  · rfl
  · exact foldl_keep Dev.turns _ (fun _ _ => by simp) _ _
  · rfl
@[simp] theorem Dev.heatUnits_capGen (n lo hi k : Nat) : (d.heatUnits n lo hi k).capGen = d.capGen := by
  unfold Dev.heatUnits; repeat' split
  · rfl
  · exact foldl_keep Dev.capGen _ (fun _ _ => by simp) _ _
  · rfl
@[simp] theorem Dev.heatUnits_capFinal (n lo hi k : Nat) : (d.heatUnits n lo hi k).capFinal = d.capFinal := by
  unfold Dev.heatUnits; repeat' split
  · rfl
  · exact foldl_keep Dev.capFinal _ (fun _ _ => by simp) _ _
  · rfl
@[simp] theorem Dev.heatUnits_capTick (n lo hi k : Nat) : (d.heatUnits n lo hi k).capTick = d.capTick := by
  unfold Dev.heatUnits; repeat' split
  · rfl
  · exact foldl_keep Dev.capTick _ (fun _ _ => by simp) _ _
  · rfl
@[simp] theorem Dev.heatUnits_draws (n lo hi k : Nat) : (d.heatUnits n lo hi k).draws = d.draws := by
  unfold Dev.heatUnits; repeat' split
  · rfl
  · exact foldl_keep Dev.draws _ (fun _ _ => by simp) _ _
  · rfl
@[simp] theorem Dev.heatUnits_out (n lo hi k : Nat) : (d.heatUnits n lo hi k).out = d.out := by
  unfold Dev.heatUnits; repeat' split
  · rfl
  · exact foldl_keep Dev.out _ (fun _ _ => by simp) _ _
  · rfl

/-! ## heatRange -/

@[simp] theorem Dev.heatRange_now (a n k : Nat) : (d.heatRange a n k).now = d.now := by
  unfold Dev.heatRange; exact foldl_keep Dev.now _ (fun _ _ => by (repeat' split) <;> simp) _ _
@[simp] theorem Dev.heatRange_skew (a n k : Nat) : (d.heatRange a n k).skew = d.skew := by
  unfold Dev.heatRange; exact foldl_keep Dev.skew _ (fun _ _ => by (repeat' split) <;> simp) _ _
@[simp] theorem Dev.heatRange_power (a n k : Nat) : (d.heatRange a n k).power = d.power := by
  unfold Dev.heatRange; exact foldl_keep Dev.power _ (fun _ _ => by (repeat' split) <;> simp) _ _
@[simp] theorem Dev.heatRange_cap (a n k : Nat) : (d.heatRange a n k).cap = d.cap := by
  unfold Dev.heatRange; exact foldl_keep Dev.cap _ (fun _ _ => by (repeat' split) <;> simp) _ _
@[simp] theorem Dev.heatRange_host (a n k : Nat) : (d.heatRange a n k).host = d.host := by
  unfold Dev.heatRange; exact foldl_keep Dev.host _ (fun _ _ => by (repeat' split) <;> simp) _ _
@[simp] theorem Dev.heatRange_blocks (a n k : Nat) : (d.heatRange a n k).blocks = d.blocks := by
  unfold Dev.heatRange; exact foldl_keep Dev.blocks _ (fun _ _ => by (repeat' split) <;> simp) _ _
@[simp] theorem Dev.heatRange_ringSel (a n k : Nat) : (d.heatRange a n k).ringSel = d.ringSel := by
  unfold Dev.heatRange; exact foldl_keep Dev.ringSel _ (fun _ _ => by (repeat' split) <;> simp) _ _
@[simp] theorem Dev.heatRange_epochClaim (a n k : Nat) : (d.heatRange a n k).epochClaim = d.epochClaim := by
  unfold Dev.heatRange; exact foldl_keep Dev.epochClaim _ (fun _ _ => by (repeat' split) <;> simp) _ _
@[simp] theorem Dev.heatRange_epochSlot (a n k : Nat) : (d.heatRange a n k).epochSlot = d.epochSlot := by
  unfold Dev.heatRange; exact foldl_keep Dev.epochSlot _ (fun _ _ => by (repeat' split) <;> simp) _ _
@[simp] theorem Dev.heatRange_rings (a n k : Nat) : (d.heatRange a n k).rings = d.rings := by
  unfold Dev.heatRange; exact foldl_keep Dev.rings _ (fun _ _ => by (repeat' split) <;> simp) _ _
@[simp] theorem Dev.heatRange_tallies (a n k : Nat) : (d.heatRange a n k).tallies = d.tallies := by
  unfold Dev.heatRange; exact foldl_keep Dev.tallies _ (fun _ _ => by (repeat' split) <;> simp) _ _
@[simp] theorem Dev.heatRange_claims (a n k : Nat) : (d.heatRange a n k).claims = d.claims := by
  unfold Dev.heatRange; exact foldl_keep Dev.claims _ (fun _ _ => by (repeat' split) <;> simp) _ _
@[simp] theorem Dev.heatRange_frames (a n k : Nat) : (d.heatRange a n k).frames = d.frames := by
  unfold Dev.heatRange; exact foldl_keep Dev.frames _ (fun _ _ => by (repeat' split) <;> simp) _ _
@[simp] theorem Dev.heatRange_objects (a n k : Nat) : (d.heatRange a n k).objects = d.objects := by
  unfold Dev.heatRange; exact foldl_keep Dev.objects _ (fun _ _ => by (repeat' split) <;> simp) _ _
@[simp] theorem Dev.heatRange_hoist (a n k : Nat) : (d.heatRange a n k).hoist = d.hoist := by
  unfold Dev.heatRange; exact foldl_keep Dev.hoist _ (fun _ _ => by (repeat' split) <;> simp) _ _
@[simp] theorem Dev.heatRange_health (a n k : Nat) : (d.heatRange a n k).health = d.health := by
  unfold Dev.heatRange; exact foldl_keep Dev.health _ (fun _ _ => by (repeat' split) <;> simp) _ _
@[simp] theorem Dev.heatRange_store (a n k : Nat) : (d.heatRange a n k).store = d.store := by
  unfold Dev.heatRange; exact foldl_keep Dev.store _ (fun _ _ => by (repeat' split) <;> simp) _ _
@[simp] theorem Dev.heatRange_mbx (a n k : Nat) : (d.heatRange a n k).mbx = d.mbx := by
  unfold Dev.heatRange; exact foldl_keep Dev.mbx _ (fun _ _ => by (repeat' split) <;> simp) _ _
@[simp] theorem Dev.heatRange_sec (a n k : Nat) : (d.heatRange a n k).sec = d.sec := by
  unfold Dev.heatRange; exact foldl_keep Dev.sec _ (fun _ _ => by (repeat' split) <;> simp) _ _
@[simp] theorem Dev.heatRange_ports (a n k : Nat) : (d.heatRange a n k).ports = d.ports := by
  unfold Dev.heatRange; exact foldl_keep Dev.ports _ (fun _ _ => by (repeat' split) <;> simp) _ _
@[simp] theorem Dev.heatRange_routing (a n k : Nat) : (d.heatRange a n k).routing = d.routing := by
  unfold Dev.heatRange; exact foldl_keep Dev.routing _ (fun _ _ => by (repeat' split) <;> simp) _ _
@[simp] theorem Dev.heatRange_xbar (a n k : Nat) : (d.heatRange a n k).xbar = d.xbar := by
  unfold Dev.heatRange; exact foldl_keep Dev.xbar _ (fun _ _ => by (repeat' split) <;> simp) _ _
@[simp] theorem Dev.heatRange_coll (a n k : Nat) : (d.heatRange a n k).coll = d.coll := by
  unfold Dev.heatRange; exact foldl_keep Dev.coll _ (fun _ _ => by (repeat' split) <;> simp) _ _
@[simp] theorem Dev.heatRange_time (a n k : Nat) : (d.heatRange a n k).time = d.time := by
  unfold Dev.heatRange; exact foldl_keep Dev.time _ (fun _ _ => by (repeat' split) <;> simp) _ _
@[simp] theorem Dev.heatRange_evt (a n k : Nat) : (d.heatRange a n k).evt = d.evt := by
  unfold Dev.heatRange; exact foldl_keep Dev.evt _ (fun _ _ => by (repeat' split) <;> simp) _ _
@[simp] theorem Dev.heatRange_shuttle (a n k : Nat) : (d.heatRange a n k).shuttle = d.shuttle := by
  unfold Dev.heatRange; exact foldl_keep Dev.shuttle _ (fun _ _ => by (repeat' split) <;> simp) _ _
@[simp] theorem Dev.heatRange_dozeAborted (a n k : Nat) : (d.heatRange a n k).dozeAborted = d.dozeAborted := by
  unfold Dev.heatRange; exact foldl_keep Dev.dozeAborted _ (fun _ _ => by (repeat' split) <;> simp) _ _
@[simp] theorem Dev.heatRange_fixedBits (a n k : Nat) : (d.heatRange a n k).fixedBits = d.fixedBits := by
  unfold Dev.heatRange; exact foldl_keep Dev.fixedBits _ (fun _ _ => by (repeat' split) <;> simp) _ _
@[simp] theorem Dev.heatRange_fixedPace (a n k : Nat) : (d.heatRange a n k).fixedPace = d.fixedPace := by
  unfold Dev.heatRange; exact foldl_keep Dev.fixedPace _ (fun _ _ => by (repeat' split) <;> simp) _ _
@[simp] theorem Dev.heatRange_started (a n k : Nat) : (d.heatRange a n k).started = d.started := by
  unfold Dev.heatRange; exact foldl_keep Dev.started _ (fun _ _ => by (repeat' split) <;> simp) _ _
@[simp] theorem Dev.heatRange_turns (a n k : Nat) : (d.heatRange a n k).turns = d.turns := by
  unfold Dev.heatRange; exact foldl_keep Dev.turns _ (fun _ _ => by (repeat' split) <;> simp) _ _
@[simp] theorem Dev.heatRange_capGen (a n k : Nat) : (d.heatRange a n k).capGen = d.capGen := by
  unfold Dev.heatRange; exact foldl_keep Dev.capGen _ (fun _ _ => by (repeat' split) <;> simp) _ _
@[simp] theorem Dev.heatRange_capFinal (a n k : Nat) : (d.heatRange a n k).capFinal = d.capFinal := by
  unfold Dev.heatRange; exact foldl_keep Dev.capFinal _ (fun _ _ => by (repeat' split) <;> simp) _ _
@[simp] theorem Dev.heatRange_capTick (a n k : Nat) : (d.heatRange a n k).capTick = d.capTick := by
  unfold Dev.heatRange; exact foldl_keep Dev.capTick _ (fun _ _ => by (repeat' split) <;> simp) _ _
@[simp] theorem Dev.heatRange_draws (a n k : Nat) : (d.heatRange a n k).draws = d.draws := by
  unfold Dev.heatRange; exact foldl_keep Dev.draws _ (fun _ _ => by (repeat' split) <;> simp) _ _
@[simp] theorem Dev.heatRange_out (a n k : Nat) : (d.heatRange a n k).out = d.out := by
  unfold Dev.heatRange; exact foldl_keep Dev.out _ (fun _ _ => by (repeat' split) <;> simp) _ _

/-! ## recall -/

@[simp] theorem Dev.recall_now (a n : Nat) : (d.recall a n).now = d.now := by
  unfold Dev.recall; try dsimp only
  (repeat' split) <;> simp
@[simp] theorem Dev.recall_skew (a n : Nat) : (d.recall a n).skew = d.skew := by
  unfold Dev.recall; try dsimp only
  (repeat' split) <;> simp
@[simp] theorem Dev.recall_power (a n : Nat) : (d.recall a n).power = d.power := by
  unfold Dev.recall; try dsimp only
  (repeat' split) <;> simp
@[simp] theorem Dev.recall_dies (a n : Nat) : (d.recall a n).dies = d.dies := by
  unfold Dev.recall; try dsimp only
  (repeat' split) <;> simp
@[simp] theorem Dev.recall_cap (a n : Nat) : (d.recall a n).cap = d.cap := by
  unfold Dev.recall; try dsimp only
  (repeat' split) <;> simp
@[simp] theorem Dev.recall_blocks (a n : Nat) : (d.recall a n).blocks = d.blocks := by
  unfold Dev.recall; try dsimp only
  (repeat' split) <;> simp
@[simp] theorem Dev.recall_ringSel (a n : Nat) : (d.recall a n).ringSel = d.ringSel := by
  unfold Dev.recall; try dsimp only
  (repeat' split) <;> simp
@[simp] theorem Dev.recall_epochClaim (a n : Nat) : (d.recall a n).epochClaim = d.epochClaim := by
  unfold Dev.recall; try dsimp only
  (repeat' split) <;> simp
@[simp] theorem Dev.recall_epochSlot (a n : Nat) : (d.recall a n).epochSlot = d.epochSlot := by
  unfold Dev.recall; try dsimp only
  (repeat' split) <;> simp
@[simp] theorem Dev.recall_rings (a n : Nat) : (d.recall a n).rings = d.rings := by
  unfold Dev.recall; try dsimp only
  (repeat' split) <;> simp
@[simp] theorem Dev.recall_tallies (a n : Nat) : (d.recall a n).tallies = d.tallies := by
  unfold Dev.recall; try dsimp only
  (repeat' split) <;> simp
@[simp] theorem Dev.recall_claims (a n : Nat) : (d.recall a n).claims = d.claims := by
  unfold Dev.recall; try dsimp only
  (repeat' split) <;> simp
@[simp] theorem Dev.recall_frames (a n : Nat) : (d.recall a n).frames = d.frames := by
  unfold Dev.recall; try dsimp only
  (repeat' split) <;> simp
@[simp] theorem Dev.recall_objects (a n : Nat) : (d.recall a n).objects = d.objects := by
  unfold Dev.recall; try dsimp only
  (repeat' split) <;> simp
@[simp] theorem Dev.recall_hoist (a n : Nat) : (d.recall a n).hoist = d.hoist := by
  unfold Dev.recall; try dsimp only
  (repeat' split) <;> simp
@[simp] theorem Dev.recall_health (a n : Nat) : (d.recall a n).health = d.health := by
  unfold Dev.recall; try dsimp only
  (repeat' split) <;> simp
@[simp] theorem Dev.recall_store (a n : Nat) : (d.recall a n).store = d.store := by
  unfold Dev.recall; try dsimp only
  (repeat' split) <;> simp
@[simp] theorem Dev.recall_mbx (a n : Nat) : (d.recall a n).mbx = d.mbx := by
  unfold Dev.recall; try dsimp only
  (repeat' split) <;> simp
@[simp] theorem Dev.recall_sec (a n : Nat) : (d.recall a n).sec = d.sec := by
  unfold Dev.recall; try dsimp only
  (repeat' split) <;> simp
@[simp] theorem Dev.recall_ports (a n : Nat) : (d.recall a n).ports = d.ports := by
  unfold Dev.recall; try dsimp only
  (repeat' split) <;> simp
@[simp] theorem Dev.recall_routing (a n : Nat) : (d.recall a n).routing = d.routing := by
  unfold Dev.recall; try dsimp only
  (repeat' split) <;> simp
@[simp] theorem Dev.recall_xbar (a n : Nat) : (d.recall a n).xbar = d.xbar := by
  unfold Dev.recall; try dsimp only
  (repeat' split) <;> simp
@[simp] theorem Dev.recall_coll (a n : Nat) : (d.recall a n).coll = d.coll := by
  unfold Dev.recall; try dsimp only
  (repeat' split) <;> simp
@[simp] theorem Dev.recall_time (a n : Nat) : (d.recall a n).time = d.time := by
  unfold Dev.recall; try dsimp only
  (repeat' split) <;> simp
@[simp] theorem Dev.recall_evt (a n : Nat) : (d.recall a n).evt = d.evt := by
  unfold Dev.recall; try dsimp only
  (repeat' split) <;> simp
@[simp] theorem Dev.recall_shuttle (a n : Nat) : (d.recall a n).shuttle = d.shuttle := by
  unfold Dev.recall; try dsimp only
  (repeat' split) <;> simp
@[simp] theorem Dev.recall_dozeAborted (a n : Nat) : (d.recall a n).dozeAborted = d.dozeAborted := by
  unfold Dev.recall; try dsimp only
  (repeat' split) <;> simp
@[simp] theorem Dev.recall_fixedBits (a n : Nat) : (d.recall a n).fixedBits = d.fixedBits := by
  unfold Dev.recall; try dsimp only
  (repeat' split) <;> simp
@[simp] theorem Dev.recall_fixedPace (a n : Nat) : (d.recall a n).fixedPace = d.fixedPace := by
  unfold Dev.recall; try dsimp only
  (repeat' split) <;> simp
@[simp] theorem Dev.recall_started (a n : Nat) : (d.recall a n).started = d.started := by
  unfold Dev.recall; try dsimp only
  (repeat' split) <;> simp
@[simp] theorem Dev.recall_turns (a n : Nat) : (d.recall a n).turns = d.turns := by
  unfold Dev.recall; try dsimp only
  (repeat' split) <;> simp
@[simp] theorem Dev.recall_capGen (a n : Nat) : (d.recall a n).capGen = d.capGen := by
  unfold Dev.recall; try dsimp only
  (repeat' split) <;> simp
@[simp] theorem Dev.recall_capFinal (a n : Nat) : (d.recall a n).capFinal = d.capFinal := by
  unfold Dev.recall; try dsimp only
  (repeat' split) <;> simp
@[simp] theorem Dev.recall_capTick (a n : Nat) : (d.recall a n).capTick = d.capTick := by
  unfold Dev.recall; try dsimp only
  (repeat' split) <;> simp
@[simp] theorem Dev.recall_draws (a n : Nat) : (d.recall a n).draws = d.draws := by
  unfold Dev.recall; try dsimp only
  (repeat' split) <;> simp

/-! ## engineWrite -/

@[simp] theorem Dev.engineWrite_now (a n : Nat) : (d.engineWrite a n).now = d.now := by
  simp [Dev.engineWrite]
@[simp] theorem Dev.engineWrite_skew (a n : Nat) : (d.engineWrite a n).skew = d.skew := by
  simp [Dev.engineWrite]
@[simp] theorem Dev.engineWrite_power (a n : Nat) : (d.engineWrite a n).power = d.power := by
  simp [Dev.engineWrite]
@[simp] theorem Dev.engineWrite_cap (a n : Nat) : (d.engineWrite a n).cap = d.cap := by
  simp [Dev.engineWrite]
@[simp] theorem Dev.engineWrite_blocks (a n : Nat) : (d.engineWrite a n).blocks = d.blocks := by
  simp [Dev.engineWrite]
@[simp] theorem Dev.engineWrite_ringSel (a n : Nat) : (d.engineWrite a n).ringSel = d.ringSel := by
  simp [Dev.engineWrite]
@[simp] theorem Dev.engineWrite_epochClaim (a n : Nat) : (d.engineWrite a n).epochClaim = d.epochClaim := by
  simp [Dev.engineWrite]
@[simp] theorem Dev.engineWrite_epochSlot (a n : Nat) : (d.engineWrite a n).epochSlot = d.epochSlot := by
  simp [Dev.engineWrite]
@[simp] theorem Dev.engineWrite_rings (a n : Nat) : (d.engineWrite a n).rings = d.rings := by
  simp [Dev.engineWrite]
@[simp] theorem Dev.engineWrite_tallies (a n : Nat) : (d.engineWrite a n).tallies = d.tallies := by
  simp [Dev.engineWrite]
@[simp] theorem Dev.engineWrite_claims (a n : Nat) : (d.engineWrite a n).claims = d.claims := by
  simp [Dev.engineWrite]
@[simp] theorem Dev.engineWrite_frames (a n : Nat) : (d.engineWrite a n).frames = d.frames := by
  simp [Dev.engineWrite]
@[simp] theorem Dev.engineWrite_objects (a n : Nat) : (d.engineWrite a n).objects = d.objects := by
  simp [Dev.engineWrite]
@[simp] theorem Dev.engineWrite_hoist (a n : Nat) : (d.engineWrite a n).hoist = d.hoist := by
  simp [Dev.engineWrite]
@[simp] theorem Dev.engineWrite_store (a n : Nat) : (d.engineWrite a n).store = d.store := by
  simp [Dev.engineWrite]
@[simp] theorem Dev.engineWrite_mbx (a n : Nat) : (d.engineWrite a n).mbx = d.mbx := by
  simp [Dev.engineWrite]
@[simp] theorem Dev.engineWrite_sec (a n : Nat) : (d.engineWrite a n).sec = d.sec := by
  simp [Dev.engineWrite]
@[simp] theorem Dev.engineWrite_ports (a n : Nat) : (d.engineWrite a n).ports = d.ports := by
  simp [Dev.engineWrite]
@[simp] theorem Dev.engineWrite_routing (a n : Nat) : (d.engineWrite a n).routing = d.routing := by
  simp [Dev.engineWrite]
@[simp] theorem Dev.engineWrite_xbar (a n : Nat) : (d.engineWrite a n).xbar = d.xbar := by
  simp [Dev.engineWrite]
@[simp] theorem Dev.engineWrite_coll (a n : Nat) : (d.engineWrite a n).coll = d.coll := by
  simp [Dev.engineWrite]
@[simp] theorem Dev.engineWrite_time (a n : Nat) : (d.engineWrite a n).time = d.time := by
  simp [Dev.engineWrite]
@[simp] theorem Dev.engineWrite_evt (a n : Nat) : (d.engineWrite a n).evt = d.evt := by
  simp [Dev.engineWrite]
@[simp] theorem Dev.engineWrite_shuttle (a n : Nat) : (d.engineWrite a n).shuttle = d.shuttle := by
  simp [Dev.engineWrite]
@[simp] theorem Dev.engineWrite_fixedBits (a n : Nat) : (d.engineWrite a n).fixedBits = d.fixedBits := by
  simp [Dev.engineWrite]
@[simp] theorem Dev.engineWrite_fixedPace (a n : Nat) : (d.engineWrite a n).fixedPace = d.fixedPace := by
  simp [Dev.engineWrite]
@[simp] theorem Dev.engineWrite_started (a n : Nat) : (d.engineWrite a n).started = d.started := by
  simp [Dev.engineWrite]
@[simp] theorem Dev.engineWrite_turns (a n : Nat) : (d.engineWrite a n).turns = d.turns := by
  simp [Dev.engineWrite]
@[simp] theorem Dev.engineWrite_capGen (a n : Nat) : (d.engineWrite a n).capGen = d.capGen := by
  simp [Dev.engineWrite]
@[simp] theorem Dev.engineWrite_capFinal (a n : Nat) : (d.engineWrite a n).capFinal = d.capFinal := by
  simp [Dev.engineWrite]
@[simp] theorem Dev.engineWrite_capTick (a n : Nat) : (d.engineWrite a n).capTick = d.capTick := by
  simp [Dev.engineWrite]
@[simp] theorem Dev.engineWrite_draws (a n : Nat) : (d.engineWrite a n).draws = d.draws := by
  simp [Dev.engineWrite]

/-! ## engineRead -/

@[simp] theorem Dev.engineRead_now (a n : Nat) : (d.engineRead a n).now = d.now := by
  simp [Dev.engineRead]
@[simp] theorem Dev.engineRead_skew (a n : Nat) : (d.engineRead a n).skew = d.skew := by
  simp [Dev.engineRead]
@[simp] theorem Dev.engineRead_power (a n : Nat) : (d.engineRead a n).power = d.power := by
  simp [Dev.engineRead]
@[simp] theorem Dev.engineRead_cap (a n : Nat) : (d.engineRead a n).cap = d.cap := by
  simp [Dev.engineRead]
@[simp] theorem Dev.engineRead_blocks (a n : Nat) : (d.engineRead a n).blocks = d.blocks := by
  simp [Dev.engineRead]
@[simp] theorem Dev.engineRead_ringSel (a n : Nat) : (d.engineRead a n).ringSel = d.ringSel := by
  simp [Dev.engineRead]
@[simp] theorem Dev.engineRead_epochClaim (a n : Nat) : (d.engineRead a n).epochClaim = d.epochClaim := by
  simp [Dev.engineRead]
@[simp] theorem Dev.engineRead_epochSlot (a n : Nat) : (d.engineRead a n).epochSlot = d.epochSlot := by
  simp [Dev.engineRead]
@[simp] theorem Dev.engineRead_rings (a n : Nat) : (d.engineRead a n).rings = d.rings := by
  simp [Dev.engineRead]
@[simp] theorem Dev.engineRead_tallies (a n : Nat) : (d.engineRead a n).tallies = d.tallies := by
  simp [Dev.engineRead]
@[simp] theorem Dev.engineRead_claims (a n : Nat) : (d.engineRead a n).claims = d.claims := by
  simp [Dev.engineRead]
@[simp] theorem Dev.engineRead_frames (a n : Nat) : (d.engineRead a n).frames = d.frames := by
  simp [Dev.engineRead]
@[simp] theorem Dev.engineRead_objects (a n : Nat) : (d.engineRead a n).objects = d.objects := by
  simp [Dev.engineRead]
@[simp] theorem Dev.engineRead_hoist (a n : Nat) : (d.engineRead a n).hoist = d.hoist := by
  simp [Dev.engineRead]
@[simp] theorem Dev.engineRead_store (a n : Nat) : (d.engineRead a n).store = d.store := by
  simp [Dev.engineRead]
@[simp] theorem Dev.engineRead_mbx (a n : Nat) : (d.engineRead a n).mbx = d.mbx := by
  simp [Dev.engineRead]
@[simp] theorem Dev.engineRead_sec (a n : Nat) : (d.engineRead a n).sec = d.sec := by
  simp [Dev.engineRead]
@[simp] theorem Dev.engineRead_ports (a n : Nat) : (d.engineRead a n).ports = d.ports := by
  simp [Dev.engineRead]
@[simp] theorem Dev.engineRead_routing (a n : Nat) : (d.engineRead a n).routing = d.routing := by
  simp [Dev.engineRead]
@[simp] theorem Dev.engineRead_xbar (a n : Nat) : (d.engineRead a n).xbar = d.xbar := by
  simp [Dev.engineRead]
@[simp] theorem Dev.engineRead_coll (a n : Nat) : (d.engineRead a n).coll = d.coll := by
  simp [Dev.engineRead]
@[simp] theorem Dev.engineRead_time (a n : Nat) : (d.engineRead a n).time = d.time := by
  simp [Dev.engineRead]
@[simp] theorem Dev.engineRead_evt (a n : Nat) : (d.engineRead a n).evt = d.evt := by
  simp [Dev.engineRead]
@[simp] theorem Dev.engineRead_shuttle (a n : Nat) : (d.engineRead a n).shuttle = d.shuttle := by
  simp [Dev.engineRead]
@[simp] theorem Dev.engineRead_fixedBits (a n : Nat) : (d.engineRead a n).fixedBits = d.fixedBits := by
  simp [Dev.engineRead]
@[simp] theorem Dev.engineRead_fixedPace (a n : Nat) : (d.engineRead a n).fixedPace = d.fixedPace := by
  simp [Dev.engineRead]
@[simp] theorem Dev.engineRead_started (a n : Nat) : (d.engineRead a n).started = d.started := by
  simp [Dev.engineRead]
@[simp] theorem Dev.engineRead_turns (a n : Nat) : (d.engineRead a n).turns = d.turns := by
  simp [Dev.engineRead]
@[simp] theorem Dev.engineRead_capGen (a n : Nat) : (d.engineRead a n).capGen = d.capGen := by
  simp [Dev.engineRead]
@[simp] theorem Dev.engineRead_capFinal (a n : Nat) : (d.engineRead a n).capFinal = d.capFinal := by
  simp [Dev.engineRead]
@[simp] theorem Dev.engineRead_capTick (a n : Nat) : (d.engineRead a n).capTick = d.capTick := by
  simp [Dev.engineRead]
@[simp] theorem Dev.engineRead_draws (a n : Nat) : (d.engineRead a n).draws = d.draws := by
  simp [Dev.engineRead]

/-! ## pay -/

@[simp] theorem Dev.pay_now (c k u : Nat) : (d.pay c k u).now = d.now := by
  simp [Dev.pay]
@[simp] theorem Dev.pay_skew (c k u : Nat) : (d.pay c k u).skew = d.skew := by
  simp [Dev.pay]
@[simp] theorem Dev.pay_power (c k u : Nat) : (d.pay c k u).power = d.power := by
  simp [Dev.pay]
@[simp] theorem Dev.pay_dies (c k u : Nat) : (d.pay c k u).dies = d.dies := by
  simp [Dev.pay]
@[simp] theorem Dev.pay_cap (c k u : Nat) : (d.pay c k u).cap = d.cap := by
  simp [Dev.pay]
@[simp] theorem Dev.pay_host (c k u : Nat) : (d.pay c k u).host = d.host := by
  simp [Dev.pay]
@[simp] theorem Dev.pay_blocks (c k u : Nat) : (d.pay c k u).blocks = d.blocks := by
  simp [Dev.pay]
@[simp] theorem Dev.pay_ringSel (c k u : Nat) : (d.pay c k u).ringSel = d.ringSel := by
  simp [Dev.pay]
@[simp] theorem Dev.pay_epochClaim (c k u : Nat) : (d.pay c k u).epochClaim = d.epochClaim := by
  simp [Dev.pay]
@[simp] theorem Dev.pay_epochSlot (c k u : Nat) : (d.pay c k u).epochSlot = d.epochSlot := by
  simp [Dev.pay]
@[simp] theorem Dev.pay_rings (c k u : Nat) : (d.pay c k u).rings = d.rings := by
  simp [Dev.pay]
@[simp] theorem Dev.pay_tallies (c k u : Nat) : (d.pay c k u).tallies = d.tallies := by
  simp [Dev.pay]
@[simp] theorem Dev.pay_frames (c k u : Nat) : (d.pay c k u).frames = d.frames := by
  simp [Dev.pay]
@[simp] theorem Dev.pay_objects (c k u : Nat) : (d.pay c k u).objects = d.objects := by
  simp [Dev.pay]
@[simp] theorem Dev.pay_hoist (c k u : Nat) : (d.pay c k u).hoist = d.hoist := by
  simp [Dev.pay]
@[simp] theorem Dev.pay_health (c k u : Nat) : (d.pay c k u).health = d.health := by
  simp [Dev.pay]
@[simp] theorem Dev.pay_store (c k u : Nat) : (d.pay c k u).store = d.store := by
  simp [Dev.pay]
@[simp] theorem Dev.pay_mbx (c k u : Nat) : (d.pay c k u).mbx = d.mbx := by
  simp [Dev.pay]
@[simp] theorem Dev.pay_sec (c k u : Nat) : (d.pay c k u).sec = d.sec := by
  simp [Dev.pay]
@[simp] theorem Dev.pay_ports (c k u : Nat) : (d.pay c k u).ports = d.ports := by
  simp [Dev.pay]
@[simp] theorem Dev.pay_routing (c k u : Nat) : (d.pay c k u).routing = d.routing := by
  simp [Dev.pay]
@[simp] theorem Dev.pay_xbar (c k u : Nat) : (d.pay c k u).xbar = d.xbar := by
  simp [Dev.pay]
@[simp] theorem Dev.pay_coll (c k u : Nat) : (d.pay c k u).coll = d.coll := by
  simp [Dev.pay]
@[simp] theorem Dev.pay_time (c k u : Nat) : (d.pay c k u).time = d.time := by
  simp [Dev.pay]
@[simp] theorem Dev.pay_evt (c k u : Nat) : (d.pay c k u).evt = d.evt := by
  simp [Dev.pay]
@[simp] theorem Dev.pay_shuttle (c k u : Nat) : (d.pay c k u).shuttle = d.shuttle := by
  simp [Dev.pay]
@[simp] theorem Dev.pay_dozeAborted (c k u : Nat) : (d.pay c k u).dozeAborted = d.dozeAborted := by
  simp [Dev.pay]
@[simp] theorem Dev.pay_fixedBits (c k u : Nat) : (d.pay c k u).fixedBits = d.fixedBits := by
  simp [Dev.pay]
@[simp] theorem Dev.pay_fixedPace (c k u : Nat) : (d.pay c k u).fixedPace = d.fixedPace := by
  simp [Dev.pay]
@[simp] theorem Dev.pay_started (c k u : Nat) : (d.pay c k u).started = d.started := by
  simp [Dev.pay]
@[simp] theorem Dev.pay_turns (c k u : Nat) : (d.pay c k u).turns = d.turns := by
  simp [Dev.pay]
@[simp] theorem Dev.pay_capGen (c k u : Nat) : (d.pay c k u).capGen = d.capGen := by
  simp [Dev.pay]
@[simp] theorem Dev.pay_capFinal (c k u : Nat) : (d.pay c k u).capFinal = d.capFinal := by
  simp [Dev.pay]
@[simp] theorem Dev.pay_capTick (c k u : Nat) : (d.pay c k u).capTick = d.capTick := by
  simp [Dev.pay]
@[simp] theorem Dev.pay_draws (c k u : Nat) : (d.pay c k u).draws = d.draws := by
  simp [Dev.pay]
@[simp] theorem Dev.pay_out (c k u : Nat) : (d.pay c k u).out = d.out := by
  simp [Dev.pay]

/-! ## scanTally -/

theorem Dev.scanTally_now (n : Nat) (d : Dev) (t : Nat) : (Dev.scanTally n d t).now = d.now := by
  induction n generalizing d with
  | zero => rfl
  | succ n ih => unfold Dev.scanTally; dsimp only; (repeat' split) <;> simp [ih]
theorem Dev.scanTally_skew (n : Nat) (d : Dev) (t : Nat) : (Dev.scanTally n d t).skew = d.skew := by
  induction n generalizing d with
  | zero => rfl
  | succ n ih => unfold Dev.scanTally; dsimp only; (repeat' split) <;> simp [ih]
theorem Dev.scanTally_power (n : Nat) (d : Dev) (t : Nat) : (Dev.scanTally n d t).power = d.power := by
  induction n generalizing d with
  | zero => rfl
  | succ n ih => unfold Dev.scanTally; dsimp only; (repeat' split) <;> simp [ih]
theorem Dev.scanTally_dies (n : Nat) (d : Dev) (t : Nat) : (Dev.scanTally n d t).dies = d.dies := by
  induction n generalizing d with
  | zero => rfl
  | succ n ih => unfold Dev.scanTally; dsimp only; (repeat' split) <;> simp [ih]
theorem Dev.scanTally_cap (n : Nat) (d : Dev) (t : Nat) : (Dev.scanTally n d t).cap = d.cap := by
  induction n generalizing d with
  | zero => rfl
  | succ n ih => unfold Dev.scanTally; dsimp only; (repeat' split) <;> simp [ih]
theorem Dev.scanTally_host (n : Nat) (d : Dev) (t : Nat) : (Dev.scanTally n d t).host = d.host := by
  induction n generalizing d with
  | zero => rfl
  | succ n ih => unfold Dev.scanTally; dsimp only; (repeat' split) <;> simp [ih]
theorem Dev.scanTally_blocks (n : Nat) (d : Dev) (t : Nat) : (Dev.scanTally n d t).blocks = d.blocks := by
  induction n generalizing d with
  | zero => rfl
  | succ n ih => unfold Dev.scanTally; dsimp only; (repeat' split) <;> simp [ih]
theorem Dev.scanTally_ringSel (n : Nat) (d : Dev) (t : Nat) : (Dev.scanTally n d t).ringSel = d.ringSel := by
  induction n generalizing d with
  | zero => rfl
  | succ n ih => unfold Dev.scanTally; dsimp only; (repeat' split) <;> simp [ih]
theorem Dev.scanTally_epochClaim (n : Nat) (d : Dev) (t : Nat) : (Dev.scanTally n d t).epochClaim = d.epochClaim := by
  induction n generalizing d with
  | zero => rfl
  | succ n ih => unfold Dev.scanTally; dsimp only; (repeat' split) <;> simp [ih]
theorem Dev.scanTally_epochSlot (n : Nat) (d : Dev) (t : Nat) : (Dev.scanTally n d t).epochSlot = d.epochSlot := by
  induction n generalizing d with
  | zero => rfl
  | succ n ih => unfold Dev.scanTally; dsimp only; (repeat' split) <;> simp [ih]
theorem Dev.scanTally_claims (n : Nat) (d : Dev) (t : Nat) : (Dev.scanTally n d t).claims = d.claims := by
  induction n generalizing d with
  | zero => rfl
  | succ n ih => unfold Dev.scanTally; dsimp only; (repeat' split) <;> simp [ih]
theorem Dev.scanTally_frames (n : Nat) (d : Dev) (t : Nat) : (Dev.scanTally n d t).frames = d.frames := by
  induction n generalizing d with
  | zero => rfl
  | succ n ih => unfold Dev.scanTally; dsimp only; (repeat' split) <;> simp [ih]
theorem Dev.scanTally_objects (n : Nat) (d : Dev) (t : Nat) : (Dev.scanTally n d t).objects = d.objects := by
  induction n generalizing d with
  | zero => rfl
  | succ n ih => unfold Dev.scanTally; dsimp only; (repeat' split) <;> simp [ih]
theorem Dev.scanTally_hoist (n : Nat) (d : Dev) (t : Nat) : (Dev.scanTally n d t).hoist = d.hoist := by
  induction n generalizing d with
  | zero => rfl
  | succ n ih => unfold Dev.scanTally; dsimp only; (repeat' split) <;> simp [ih]
theorem Dev.scanTally_health (n : Nat) (d : Dev) (t : Nat) : (Dev.scanTally n d t).health = d.health := by
  induction n generalizing d with
  | zero => rfl
  | succ n ih => unfold Dev.scanTally; dsimp only; (repeat' split) <;> simp [ih]
theorem Dev.scanTally_store (n : Nat) (d : Dev) (t : Nat) : (Dev.scanTally n d t).store = d.store := by
  induction n generalizing d with
  | zero => rfl
  | succ n ih => unfold Dev.scanTally; dsimp only; (repeat' split) <;> simp [ih]
theorem Dev.scanTally_mbx (n : Nat) (d : Dev) (t : Nat) : (Dev.scanTally n d t).mbx = d.mbx := by
  induction n generalizing d with
  | zero => rfl
  | succ n ih => unfold Dev.scanTally; dsimp only; (repeat' split) <;> simp [ih]
theorem Dev.scanTally_sec (n : Nat) (d : Dev) (t : Nat) : (Dev.scanTally n d t).sec = d.sec := by
  induction n generalizing d with
  | zero => rfl
  | succ n ih => unfold Dev.scanTally; dsimp only; (repeat' split) <;> simp [ih]
theorem Dev.scanTally_ports (n : Nat) (d : Dev) (t : Nat) : (Dev.scanTally n d t).ports = d.ports := by
  induction n generalizing d with
  | zero => rfl
  | succ n ih => unfold Dev.scanTally; dsimp only; (repeat' split) <;> simp [ih]
theorem Dev.scanTally_routing (n : Nat) (d : Dev) (t : Nat) : (Dev.scanTally n d t).routing = d.routing := by
  induction n generalizing d with
  | zero => rfl
  | succ n ih => unfold Dev.scanTally; dsimp only; (repeat' split) <;> simp [ih]
theorem Dev.scanTally_xbar (n : Nat) (d : Dev) (t : Nat) : (Dev.scanTally n d t).xbar = d.xbar := by
  induction n generalizing d with
  | zero => rfl
  | succ n ih => unfold Dev.scanTally; dsimp only; (repeat' split) <;> simp [ih]
theorem Dev.scanTally_coll (n : Nat) (d : Dev) (t : Nat) : (Dev.scanTally n d t).coll = d.coll := by
  induction n generalizing d with
  | zero => rfl
  | succ n ih => unfold Dev.scanTally; dsimp only; (repeat' split) <;> simp [ih]
theorem Dev.scanTally_time (n : Nat) (d : Dev) (t : Nat) : (Dev.scanTally n d t).time = d.time := by
  induction n generalizing d with
  | zero => rfl
  | succ n ih => unfold Dev.scanTally; dsimp only; (repeat' split) <;> simp [ih]
theorem Dev.scanTally_evt (n : Nat) (d : Dev) (t : Nat) : (Dev.scanTally n d t).evt = d.evt := by
  induction n generalizing d with
  | zero => rfl
  | succ n ih => unfold Dev.scanTally; dsimp only; (repeat' split) <;> simp [ih]
theorem Dev.scanTally_shuttle (n : Nat) (d : Dev) (t : Nat) : (Dev.scanTally n d t).shuttle = d.shuttle := by
  induction n generalizing d with
  | zero => rfl
  | succ n ih => unfold Dev.scanTally; dsimp only; (repeat' split) <;> simp [ih]
theorem Dev.scanTally_dozeAborted (n : Nat) (d : Dev) (t : Nat) : (Dev.scanTally n d t).dozeAborted = d.dozeAborted := by
  induction n generalizing d with
  | zero => rfl
  | succ n ih => unfold Dev.scanTally; dsimp only; (repeat' split) <;> simp [ih]
theorem Dev.scanTally_fixedBits (n : Nat) (d : Dev) (t : Nat) : (Dev.scanTally n d t).fixedBits = d.fixedBits := by
  induction n generalizing d with
  | zero => rfl
  | succ n ih => unfold Dev.scanTally; dsimp only; (repeat' split) <;> simp [ih]
theorem Dev.scanTally_fixedPace (n : Nat) (d : Dev) (t : Nat) : (Dev.scanTally n d t).fixedPace = d.fixedPace := by
  induction n generalizing d with
  | zero => rfl
  | succ n ih => unfold Dev.scanTally; dsimp only; (repeat' split) <;> simp [ih]
theorem Dev.scanTally_started (n : Nat) (d : Dev) (t : Nat) : (Dev.scanTally n d t).started = d.started := by
  induction n generalizing d with
  | zero => rfl
  | succ n ih => unfold Dev.scanTally; dsimp only; (repeat' split) <;> simp [ih]
theorem Dev.scanTally_turns (n : Nat) (d : Dev) (t : Nat) : (Dev.scanTally n d t).turns = d.turns := by
  induction n generalizing d with
  | zero => rfl
  | succ n ih => unfold Dev.scanTally; dsimp only; (repeat' split) <;> simp [ih]
theorem Dev.scanTally_capGen (n : Nat) (d : Dev) (t : Nat) : (Dev.scanTally n d t).capGen = d.capGen := by
  induction n generalizing d with
  | zero => rfl
  | succ n ih => unfold Dev.scanTally; dsimp only; (repeat' split) <;> simp [ih]
theorem Dev.scanTally_capFinal (n : Nat) (d : Dev) (t : Nat) : (Dev.scanTally n d t).capFinal = d.capFinal := by
  induction n generalizing d with
  | zero => rfl
  | succ n ih => unfold Dev.scanTally; dsimp only; (repeat' split) <;> simp [ih]
theorem Dev.scanTally_capTick (n : Nat) (d : Dev) (t : Nat) : (Dev.scanTally n d t).capTick = d.capTick := by
  induction n generalizing d with
  | zero => rfl
  | succ n ih => unfold Dev.scanTally; dsimp only; (repeat' split) <;> simp [ih]
theorem Dev.scanTally_draws (n : Nat) (d : Dev) (t : Nat) : (Dev.scanTally n d t).draws = d.draws := by
  induction n generalizing d with
  | zero => rfl
  | succ n ih => unfold Dev.scanTally; dsimp only; (repeat' split) <;> simp [ih]
theorem Dev.scanTally_out (n : Nat) (d : Dev) (t : Nat) : (Dev.scanTally n d t).out = d.out := by
  induction n generalizing d with
  | zero => rfl
  | succ n ih => unfold Dev.scanTally; dsimp only; (repeat' split) <;> simp [ih]

/-! ## serveTally -/

@[simp] theorem Dev.serveTally_now (t : Nat) : (d.serveTally t).now = d.now := Dev.scanTally_now _ _ _
@[simp] theorem Dev.serveTally_skew (t : Nat) : (d.serveTally t).skew = d.skew := Dev.scanTally_skew _ _ _
@[simp] theorem Dev.serveTally_power (t : Nat) : (d.serveTally t).power = d.power := Dev.scanTally_power _ _ _
@[simp] theorem Dev.serveTally_dies (t : Nat) : (d.serveTally t).dies = d.dies := Dev.scanTally_dies _ _ _
@[simp] theorem Dev.serveTally_cap (t : Nat) : (d.serveTally t).cap = d.cap := Dev.scanTally_cap _ _ _
@[simp] theorem Dev.serveTally_host (t : Nat) : (d.serveTally t).host = d.host := Dev.scanTally_host _ _ _
@[simp] theorem Dev.serveTally_blocks (t : Nat) : (d.serveTally t).blocks = d.blocks := Dev.scanTally_blocks _ _ _
@[simp] theorem Dev.serveTally_ringSel (t : Nat) : (d.serveTally t).ringSel = d.ringSel := Dev.scanTally_ringSel _ _ _
@[simp] theorem Dev.serveTally_epochClaim (t : Nat) : (d.serveTally t).epochClaim = d.epochClaim := Dev.scanTally_epochClaim _ _ _
@[simp] theorem Dev.serveTally_epochSlot (t : Nat) : (d.serveTally t).epochSlot = d.epochSlot := Dev.scanTally_epochSlot _ _ _
@[simp] theorem Dev.serveTally_claims (t : Nat) : (d.serveTally t).claims = d.claims := Dev.scanTally_claims _ _ _
@[simp] theorem Dev.serveTally_frames (t : Nat) : (d.serveTally t).frames = d.frames := Dev.scanTally_frames _ _ _
@[simp] theorem Dev.serveTally_objects (t : Nat) : (d.serveTally t).objects = d.objects := Dev.scanTally_objects _ _ _
@[simp] theorem Dev.serveTally_hoist (t : Nat) : (d.serveTally t).hoist = d.hoist := Dev.scanTally_hoist _ _ _
@[simp] theorem Dev.serveTally_health (t : Nat) : (d.serveTally t).health = d.health := Dev.scanTally_health _ _ _
@[simp] theorem Dev.serveTally_store (t : Nat) : (d.serveTally t).store = d.store := Dev.scanTally_store _ _ _
@[simp] theorem Dev.serveTally_mbx (t : Nat) : (d.serveTally t).mbx = d.mbx := Dev.scanTally_mbx _ _ _
@[simp] theorem Dev.serveTally_sec (t : Nat) : (d.serveTally t).sec = d.sec := Dev.scanTally_sec _ _ _
@[simp] theorem Dev.serveTally_ports (t : Nat) : (d.serveTally t).ports = d.ports := Dev.scanTally_ports _ _ _
@[simp] theorem Dev.serveTally_routing (t : Nat) : (d.serveTally t).routing = d.routing := Dev.scanTally_routing _ _ _
@[simp] theorem Dev.serveTally_xbar (t : Nat) : (d.serveTally t).xbar = d.xbar := Dev.scanTally_xbar _ _ _
@[simp] theorem Dev.serveTally_coll (t : Nat) : (d.serveTally t).coll = d.coll := Dev.scanTally_coll _ _ _
@[simp] theorem Dev.serveTally_time (t : Nat) : (d.serveTally t).time = d.time := Dev.scanTally_time _ _ _
@[simp] theorem Dev.serveTally_evt (t : Nat) : (d.serveTally t).evt = d.evt := Dev.scanTally_evt _ _ _
@[simp] theorem Dev.serveTally_shuttle (t : Nat) : (d.serveTally t).shuttle = d.shuttle := Dev.scanTally_shuttle _ _ _
@[simp] theorem Dev.serveTally_dozeAborted (t : Nat) : (d.serveTally t).dozeAborted = d.dozeAborted := Dev.scanTally_dozeAborted _ _ _
@[simp] theorem Dev.serveTally_fixedBits (t : Nat) : (d.serveTally t).fixedBits = d.fixedBits := Dev.scanTally_fixedBits _ _ _
@[simp] theorem Dev.serveTally_fixedPace (t : Nat) : (d.serveTally t).fixedPace = d.fixedPace := Dev.scanTally_fixedPace _ _ _
@[simp] theorem Dev.serveTally_started (t : Nat) : (d.serveTally t).started = d.started := Dev.scanTally_started _ _ _
@[simp] theorem Dev.serveTally_turns (t : Nat) : (d.serveTally t).turns = d.turns := Dev.scanTally_turns _ _ _
@[simp] theorem Dev.serveTally_capGen (t : Nat) : (d.serveTally t).capGen = d.capGen := Dev.scanTally_capGen _ _ _
@[simp] theorem Dev.serveTally_capFinal (t : Nat) : (d.serveTally t).capFinal = d.capFinal := Dev.scanTally_capFinal _ _ _
@[simp] theorem Dev.serveTally_capTick (t : Nat) : (d.serveTally t).capTick = d.capTick := Dev.scanTally_capTick _ _ _
@[simp] theorem Dev.serveTally_draws (t : Nat) : (d.serveTally t).draws = d.draws := Dev.scanTally_draws _ _ _
@[simp] theorem Dev.serveTally_out (t : Nat) : (d.serveTally t).out = d.out := Dev.scanTally_out _ _ _

/-! ## setTallyCount -/

@[simp] theorem Dev.setTallyCount_now (t : Nat) (v : Word) : (d.setTallyCount t v).now = d.now := by simp [Dev.setTallyCount]
@[simp] theorem Dev.setTallyCount_skew (t : Nat) (v : Word) : (d.setTallyCount t v).skew = d.skew := by simp [Dev.setTallyCount]
@[simp] theorem Dev.setTallyCount_power (t : Nat) (v : Word) : (d.setTallyCount t v).power = d.power := by simp [Dev.setTallyCount]
@[simp] theorem Dev.setTallyCount_dies (t : Nat) (v : Word) : (d.setTallyCount t v).dies = d.dies := by simp [Dev.setTallyCount]
@[simp] theorem Dev.setTallyCount_cap (t : Nat) (v : Word) : (d.setTallyCount t v).cap = d.cap := by simp [Dev.setTallyCount]
@[simp] theorem Dev.setTallyCount_host (t : Nat) (v : Word) : (d.setTallyCount t v).host = d.host := by simp [Dev.setTallyCount]
@[simp] theorem Dev.setTallyCount_blocks (t : Nat) (v : Word) : (d.setTallyCount t v).blocks = d.blocks := by simp [Dev.setTallyCount]
@[simp] theorem Dev.setTallyCount_ringSel (t : Nat) (v : Word) : (d.setTallyCount t v).ringSel = d.ringSel := by simp [Dev.setTallyCount]
@[simp] theorem Dev.setTallyCount_epochClaim (t : Nat) (v : Word) : (d.setTallyCount t v).epochClaim = d.epochClaim := by simp [Dev.setTallyCount]
@[simp] theorem Dev.setTallyCount_epochSlot (t : Nat) (v : Word) : (d.setTallyCount t v).epochSlot = d.epochSlot := by simp [Dev.setTallyCount]
@[simp] theorem Dev.setTallyCount_claims (t : Nat) (v : Word) : (d.setTallyCount t v).claims = d.claims := by simp [Dev.setTallyCount]
@[simp] theorem Dev.setTallyCount_frames (t : Nat) (v : Word) : (d.setTallyCount t v).frames = d.frames := by simp [Dev.setTallyCount]
@[simp] theorem Dev.setTallyCount_objects (t : Nat) (v : Word) : (d.setTallyCount t v).objects = d.objects := by simp [Dev.setTallyCount]
@[simp] theorem Dev.setTallyCount_hoist (t : Nat) (v : Word) : (d.setTallyCount t v).hoist = d.hoist := by simp [Dev.setTallyCount]
@[simp] theorem Dev.setTallyCount_health (t : Nat) (v : Word) : (d.setTallyCount t v).health = d.health := by simp [Dev.setTallyCount]
@[simp] theorem Dev.setTallyCount_store (t : Nat) (v : Word) : (d.setTallyCount t v).store = d.store := by simp [Dev.setTallyCount]
@[simp] theorem Dev.setTallyCount_mbx (t : Nat) (v : Word) : (d.setTallyCount t v).mbx = d.mbx := by simp [Dev.setTallyCount]
@[simp] theorem Dev.setTallyCount_sec (t : Nat) (v : Word) : (d.setTallyCount t v).sec = d.sec := by simp [Dev.setTallyCount]
@[simp] theorem Dev.setTallyCount_ports (t : Nat) (v : Word) : (d.setTallyCount t v).ports = d.ports := by simp [Dev.setTallyCount]
@[simp] theorem Dev.setTallyCount_routing (t : Nat) (v : Word) : (d.setTallyCount t v).routing = d.routing := by simp [Dev.setTallyCount]
@[simp] theorem Dev.setTallyCount_xbar (t : Nat) (v : Word) : (d.setTallyCount t v).xbar = d.xbar := by simp [Dev.setTallyCount]
@[simp] theorem Dev.setTallyCount_coll (t : Nat) (v : Word) : (d.setTallyCount t v).coll = d.coll := by simp [Dev.setTallyCount]
@[simp] theorem Dev.setTallyCount_time (t : Nat) (v : Word) : (d.setTallyCount t v).time = d.time := by simp [Dev.setTallyCount]
@[simp] theorem Dev.setTallyCount_evt (t : Nat) (v : Word) : (d.setTallyCount t v).evt = d.evt := by simp [Dev.setTallyCount]
@[simp] theorem Dev.setTallyCount_shuttle (t : Nat) (v : Word) : (d.setTallyCount t v).shuttle = d.shuttle := by simp [Dev.setTallyCount]
@[simp] theorem Dev.setTallyCount_dozeAborted (t : Nat) (v : Word) : (d.setTallyCount t v).dozeAborted = d.dozeAborted := by simp [Dev.setTallyCount]
@[simp] theorem Dev.setTallyCount_fixedBits (t : Nat) (v : Word) : (d.setTallyCount t v).fixedBits = d.fixedBits := by simp [Dev.setTallyCount]
@[simp] theorem Dev.setTallyCount_fixedPace (t : Nat) (v : Word) : (d.setTallyCount t v).fixedPace = d.fixedPace := by simp [Dev.setTallyCount]
@[simp] theorem Dev.setTallyCount_started (t : Nat) (v : Word) : (d.setTallyCount t v).started = d.started := by simp [Dev.setTallyCount]
@[simp] theorem Dev.setTallyCount_turns (t : Nat) (v : Word) : (d.setTallyCount t v).turns = d.turns := by simp [Dev.setTallyCount]
@[simp] theorem Dev.setTallyCount_capGen (t : Nat) (v : Word) : (d.setTallyCount t v).capGen = d.capGen := by simp [Dev.setTallyCount]
@[simp] theorem Dev.setTallyCount_capFinal (t : Nat) (v : Word) : (d.setTallyCount t v).capFinal = d.capFinal := by simp [Dev.setTallyCount]
@[simp] theorem Dev.setTallyCount_capTick (t : Nat) (v : Word) : (d.setTallyCount t v).capTick = d.capTick := by simp [Dev.setTallyCount]
@[simp] theorem Dev.setTallyCount_draws (t : Nat) (v : Word) : (d.setTallyCount t v).draws = d.draws := by simp [Dev.setTallyCount]
@[simp] theorem Dev.setTallyCount_out (t : Nat) (v : Word) : (d.setTallyCount t v).out = d.out := by simp [Dev.setTallyCount]

/-! ## addTally -/

@[simp] theorem Dev.addTally_now (t : Nat) (v : Word) : (d.addTally t v).1.now = d.now := by simp [Dev.addTally]
@[simp] theorem Dev.addTally_skew (t : Nat) (v : Word) : (d.addTally t v).1.skew = d.skew := by simp [Dev.addTally]
@[simp] theorem Dev.addTally_power (t : Nat) (v : Word) : (d.addTally t v).1.power = d.power := by simp [Dev.addTally]
@[simp] theorem Dev.addTally_dies (t : Nat) (v : Word) : (d.addTally t v).1.dies = d.dies := by simp [Dev.addTally]
@[simp] theorem Dev.addTally_cap (t : Nat) (v : Word) : (d.addTally t v).1.cap = d.cap := by simp [Dev.addTally]
@[simp] theorem Dev.addTally_host (t : Nat) (v : Word) : (d.addTally t v).1.host = d.host := by simp [Dev.addTally]
@[simp] theorem Dev.addTally_blocks (t : Nat) (v : Word) : (d.addTally t v).1.blocks = d.blocks := by simp [Dev.addTally]
@[simp] theorem Dev.addTally_ringSel (t : Nat) (v : Word) : (d.addTally t v).1.ringSel = d.ringSel := by simp [Dev.addTally]
@[simp] theorem Dev.addTally_epochClaim (t : Nat) (v : Word) : (d.addTally t v).1.epochClaim = d.epochClaim := by simp [Dev.addTally]
@[simp] theorem Dev.addTally_epochSlot (t : Nat) (v : Word) : (d.addTally t v).1.epochSlot = d.epochSlot := by simp [Dev.addTally]
@[simp] theorem Dev.addTally_claims (t : Nat) (v : Word) : (d.addTally t v).1.claims = d.claims := by simp [Dev.addTally]
@[simp] theorem Dev.addTally_frames (t : Nat) (v : Word) : (d.addTally t v).1.frames = d.frames := by simp [Dev.addTally]
@[simp] theorem Dev.addTally_objects (t : Nat) (v : Word) : (d.addTally t v).1.objects = d.objects := by simp [Dev.addTally]
@[simp] theorem Dev.addTally_hoist (t : Nat) (v : Word) : (d.addTally t v).1.hoist = d.hoist := by simp [Dev.addTally]
@[simp] theorem Dev.addTally_health (t : Nat) (v : Word) : (d.addTally t v).1.health = d.health := by simp [Dev.addTally]
@[simp] theorem Dev.addTally_store (t : Nat) (v : Word) : (d.addTally t v).1.store = d.store := by simp [Dev.addTally]
@[simp] theorem Dev.addTally_mbx (t : Nat) (v : Word) : (d.addTally t v).1.mbx = d.mbx := by simp [Dev.addTally]
@[simp] theorem Dev.addTally_sec (t : Nat) (v : Word) : (d.addTally t v).1.sec = d.sec := by simp [Dev.addTally]
@[simp] theorem Dev.addTally_ports (t : Nat) (v : Word) : (d.addTally t v).1.ports = d.ports := by simp [Dev.addTally]
@[simp] theorem Dev.addTally_routing (t : Nat) (v : Word) : (d.addTally t v).1.routing = d.routing := by simp [Dev.addTally]
@[simp] theorem Dev.addTally_xbar (t : Nat) (v : Word) : (d.addTally t v).1.xbar = d.xbar := by simp [Dev.addTally]
@[simp] theorem Dev.addTally_coll (t : Nat) (v : Word) : (d.addTally t v).1.coll = d.coll := by simp [Dev.addTally]
@[simp] theorem Dev.addTally_time (t : Nat) (v : Word) : (d.addTally t v).1.time = d.time := by simp [Dev.addTally]
@[simp] theorem Dev.addTally_evt (t : Nat) (v : Word) : (d.addTally t v).1.evt = d.evt := by simp [Dev.addTally]
@[simp] theorem Dev.addTally_shuttle (t : Nat) (v : Word) : (d.addTally t v).1.shuttle = d.shuttle := by simp [Dev.addTally]
@[simp] theorem Dev.addTally_dozeAborted (t : Nat) (v : Word) : (d.addTally t v).1.dozeAborted = d.dozeAborted := by simp [Dev.addTally]
@[simp] theorem Dev.addTally_fixedBits (t : Nat) (v : Word) : (d.addTally t v).1.fixedBits = d.fixedBits := by simp [Dev.addTally]
@[simp] theorem Dev.addTally_fixedPace (t : Nat) (v : Word) : (d.addTally t v).1.fixedPace = d.fixedPace := by simp [Dev.addTally]
@[simp] theorem Dev.addTally_started (t : Nat) (v : Word) : (d.addTally t v).1.started = d.started := by simp [Dev.addTally]
@[simp] theorem Dev.addTally_turns (t : Nat) (v : Word) : (d.addTally t v).1.turns = d.turns := by simp [Dev.addTally]
@[simp] theorem Dev.addTally_capGen (t : Nat) (v : Word) : (d.addTally t v).1.capGen = d.capGen := by simp [Dev.addTally]
@[simp] theorem Dev.addTally_capFinal (t : Nat) (v : Word) : (d.addTally t v).1.capFinal = d.capFinal := by simp [Dev.addTally]
@[simp] theorem Dev.addTally_capTick (t : Nat) (v : Word) : (d.addTally t v).1.capTick = d.capTick := by simp [Dev.addTally]
@[simp] theorem Dev.addTally_draws (t : Nat) (v : Word) : (d.addTally t v).1.draws = d.draws := by simp [Dev.addTally]
@[simp] theorem Dev.addTally_out (t : Nat) (v : Word) : (d.addTally t v).1.out = d.out := by simp [Dev.addTally]

/-! ## askTally -/

@[simp] theorem Dev.askTally_now (t : Nat) (w : Waiter) : (d.askTally t w).now = d.now := by
  unfold Dev.askTally; dsimp only; (repeat' split) <;> simp
@[simp] theorem Dev.askTally_skew (t : Nat) (w : Waiter) : (d.askTally t w).skew = d.skew := by
  unfold Dev.askTally; dsimp only; (repeat' split) <;> simp
@[simp] theorem Dev.askTally_power (t : Nat) (w : Waiter) : (d.askTally t w).power = d.power := by
  unfold Dev.askTally; dsimp only; (repeat' split) <;> simp
@[simp] theorem Dev.askTally_dies (t : Nat) (w : Waiter) : (d.askTally t w).dies = d.dies := by
  unfold Dev.askTally; dsimp only; (repeat' split) <;> simp
@[simp] theorem Dev.askTally_cap (t : Nat) (w : Waiter) : (d.askTally t w).cap = d.cap := by
  unfold Dev.askTally; dsimp only; (repeat' split) <;> simp
@[simp] theorem Dev.askTally_host (t : Nat) (w : Waiter) : (d.askTally t w).host = d.host := by
  unfold Dev.askTally; dsimp only; (repeat' split) <;> simp
@[simp] theorem Dev.askTally_blocks (t : Nat) (w : Waiter) : (d.askTally t w).blocks = d.blocks := by
  unfold Dev.askTally; dsimp only; (repeat' split) <;> simp
@[simp] theorem Dev.askTally_ringSel (t : Nat) (w : Waiter) : (d.askTally t w).ringSel = d.ringSel := by
  unfold Dev.askTally; dsimp only; (repeat' split) <;> simp
@[simp] theorem Dev.askTally_epochClaim (t : Nat) (w : Waiter) : (d.askTally t w).epochClaim = d.epochClaim := by
  unfold Dev.askTally; dsimp only; (repeat' split) <;> simp
@[simp] theorem Dev.askTally_epochSlot (t : Nat) (w : Waiter) : (d.askTally t w).epochSlot = d.epochSlot := by
  unfold Dev.askTally; dsimp only; (repeat' split) <;> simp
@[simp] theorem Dev.askTally_claims (t : Nat) (w : Waiter) : (d.askTally t w).claims = d.claims := by
  unfold Dev.askTally; dsimp only; (repeat' split) <;> simp
@[simp] theorem Dev.askTally_frames (t : Nat) (w : Waiter) : (d.askTally t w).frames = d.frames := by
  unfold Dev.askTally; dsimp only; (repeat' split) <;> simp
@[simp] theorem Dev.askTally_objects (t : Nat) (w : Waiter) : (d.askTally t w).objects = d.objects := by
  unfold Dev.askTally; dsimp only; (repeat' split) <;> simp
@[simp] theorem Dev.askTally_hoist (t : Nat) (w : Waiter) : (d.askTally t w).hoist = d.hoist := by
  unfold Dev.askTally; dsimp only; (repeat' split) <;> simp
@[simp] theorem Dev.askTally_health (t : Nat) (w : Waiter) : (d.askTally t w).health = d.health := by
  unfold Dev.askTally; dsimp only; (repeat' split) <;> simp
@[simp] theorem Dev.askTally_store (t : Nat) (w : Waiter) : (d.askTally t w).store = d.store := by
  unfold Dev.askTally; dsimp only; (repeat' split) <;> simp
@[simp] theorem Dev.askTally_mbx (t : Nat) (w : Waiter) : (d.askTally t w).mbx = d.mbx := by
  unfold Dev.askTally; dsimp only; (repeat' split) <;> simp
@[simp] theorem Dev.askTally_sec (t : Nat) (w : Waiter) : (d.askTally t w).sec = d.sec := by
  unfold Dev.askTally; dsimp only; (repeat' split) <;> simp
@[simp] theorem Dev.askTally_ports (t : Nat) (w : Waiter) : (d.askTally t w).ports = d.ports := by
  unfold Dev.askTally; dsimp only; (repeat' split) <;> simp
@[simp] theorem Dev.askTally_routing (t : Nat) (w : Waiter) : (d.askTally t w).routing = d.routing := by
  unfold Dev.askTally; dsimp only; (repeat' split) <;> simp
@[simp] theorem Dev.askTally_xbar (t : Nat) (w : Waiter) : (d.askTally t w).xbar = d.xbar := by
  unfold Dev.askTally; dsimp only; (repeat' split) <;> simp
@[simp] theorem Dev.askTally_coll (t : Nat) (w : Waiter) : (d.askTally t w).coll = d.coll := by
  unfold Dev.askTally; dsimp only; (repeat' split) <;> simp
@[simp] theorem Dev.askTally_time (t : Nat) (w : Waiter) : (d.askTally t w).time = d.time := by
  unfold Dev.askTally; dsimp only; (repeat' split) <;> simp
@[simp] theorem Dev.askTally_evt (t : Nat) (w : Waiter) : (d.askTally t w).evt = d.evt := by
  unfold Dev.askTally; dsimp only; (repeat' split) <;> simp
@[simp] theorem Dev.askTally_shuttle (t : Nat) (w : Waiter) : (d.askTally t w).shuttle = d.shuttle := by
  unfold Dev.askTally; dsimp only; (repeat' split) <;> simp
@[simp] theorem Dev.askTally_dozeAborted (t : Nat) (w : Waiter) : (d.askTally t w).dozeAborted = d.dozeAborted := by
  unfold Dev.askTally; dsimp only; (repeat' split) <;> simp
@[simp] theorem Dev.askTally_fixedBits (t : Nat) (w : Waiter) : (d.askTally t w).fixedBits = d.fixedBits := by
  unfold Dev.askTally; dsimp only; (repeat' split) <;> simp
@[simp] theorem Dev.askTally_fixedPace (t : Nat) (w : Waiter) : (d.askTally t w).fixedPace = d.fixedPace := by
  unfold Dev.askTally; dsimp only; (repeat' split) <;> simp
@[simp] theorem Dev.askTally_started (t : Nat) (w : Waiter) : (d.askTally t w).started = d.started := by
  unfold Dev.askTally; dsimp only; (repeat' split) <;> simp
@[simp] theorem Dev.askTally_turns (t : Nat) (w : Waiter) : (d.askTally t w).turns = d.turns := by
  unfold Dev.askTally; dsimp only; (repeat' split) <;> simp
@[simp] theorem Dev.askTally_capGen (t : Nat) (w : Waiter) : (d.askTally t w).capGen = d.capGen := by
  unfold Dev.askTally; dsimp only; (repeat' split) <;> simp
@[simp] theorem Dev.askTally_capFinal (t : Nat) (w : Waiter) : (d.askTally t w).capFinal = d.capFinal := by
  unfold Dev.askTally; dsimp only; (repeat' split) <;> simp
@[simp] theorem Dev.askTally_capTick (t : Nat) (w : Waiter) : (d.askTally t w).capTick = d.capTick := by
  unfold Dev.askTally; dsimp only; (repeat' split) <;> simp
@[simp] theorem Dev.askTally_draws (t : Nat) (w : Waiter) : (d.askTally t w).draws = d.draws := by
  unfold Dev.askTally; dsimp only; (repeat' split) <;> simp
@[simp] theorem Dev.askTally_out (t : Nat) (w : Waiter) : (d.askTally t w).out = d.out := by
  unfold Dev.askTally; dsimp only; (repeat' split) <;> simp

/-! ## headerSignal -/

@[simp] theorem Dev.headerSignal_now (r : Nat) (x : BitVec 512) (y : Result) : (d.headerSignal r x y).1.now = d.now := by
  unfold Dev.headerSignal; split
  · exact Dev.addTally_now _ _ _
  · rfl
@[simp] theorem Dev.headerSignal_skew (r : Nat) (x : BitVec 512) (y : Result) : (d.headerSignal r x y).1.skew = d.skew := by
  unfold Dev.headerSignal; split
  · exact Dev.addTally_skew _ _ _
  · rfl
@[simp] theorem Dev.headerSignal_power (r : Nat) (x : BitVec 512) (y : Result) : (d.headerSignal r x y).1.power = d.power := by
  unfold Dev.headerSignal; split
  · exact Dev.addTally_power _ _ _
  · rfl
@[simp] theorem Dev.headerSignal_dies (r : Nat) (x : BitVec 512) (y : Result) : (d.headerSignal r x y).1.dies = d.dies := by
  unfold Dev.headerSignal; split
  · exact Dev.addTally_dies _ _ _
  · rfl
@[simp] theorem Dev.headerSignal_cap (r : Nat) (x : BitVec 512) (y : Result) : (d.headerSignal r x y).1.cap = d.cap := by
  unfold Dev.headerSignal; split
  · exact Dev.addTally_cap _ _ _
  · rfl
@[simp] theorem Dev.headerSignal_host (r : Nat) (x : BitVec 512) (y : Result) : (d.headerSignal r x y).1.host = d.host := by
  unfold Dev.headerSignal; split
  · exact Dev.addTally_host _ _ _
  · rfl
@[simp] theorem Dev.headerSignal_blocks (r : Nat) (x : BitVec 512) (y : Result) : (d.headerSignal r x y).1.blocks = d.blocks := by
  unfold Dev.headerSignal; split
  · exact Dev.addTally_blocks _ _ _
  · rfl
@[simp] theorem Dev.headerSignal_ringSel (r : Nat) (x : BitVec 512) (y : Result) : (d.headerSignal r x y).1.ringSel = d.ringSel := by
  unfold Dev.headerSignal; split
  · exact Dev.addTally_ringSel _ _ _
  · rfl
@[simp] theorem Dev.headerSignal_epochClaim (r : Nat) (x : BitVec 512) (y : Result) : (d.headerSignal r x y).1.epochClaim = d.epochClaim := by
  unfold Dev.headerSignal; split
  · exact Dev.addTally_epochClaim _ _ _
  · rfl
@[simp] theorem Dev.headerSignal_epochSlot (r : Nat) (x : BitVec 512) (y : Result) : (d.headerSignal r x y).1.epochSlot = d.epochSlot := by
  unfold Dev.headerSignal; split
  · exact Dev.addTally_epochSlot _ _ _
  · rfl
@[simp] theorem Dev.headerSignal_claims (r : Nat) (x : BitVec 512) (y : Result) : (d.headerSignal r x y).1.claims = d.claims := by
  unfold Dev.headerSignal; split
  · exact Dev.addTally_claims _ _ _
  · rfl
@[simp] theorem Dev.headerSignal_frames (r : Nat) (x : BitVec 512) (y : Result) : (d.headerSignal r x y).1.frames = d.frames := by
  unfold Dev.headerSignal; split
  · exact Dev.addTally_frames _ _ _
  · rfl
@[simp] theorem Dev.headerSignal_objects (r : Nat) (x : BitVec 512) (y : Result) : (d.headerSignal r x y).1.objects = d.objects := by
  unfold Dev.headerSignal; split
  · exact Dev.addTally_objects _ _ _
  · rfl
@[simp] theorem Dev.headerSignal_hoist (r : Nat) (x : BitVec 512) (y : Result) : (d.headerSignal r x y).1.hoist = d.hoist := by
  unfold Dev.headerSignal; split
  · exact Dev.addTally_hoist _ _ _
  · rfl
@[simp] theorem Dev.headerSignal_health (r : Nat) (x : BitVec 512) (y : Result) : (d.headerSignal r x y).1.health = d.health := by
  unfold Dev.headerSignal; split
  · exact Dev.addTally_health _ _ _
  · rfl
@[simp] theorem Dev.headerSignal_store (r : Nat) (x : BitVec 512) (y : Result) : (d.headerSignal r x y).1.store = d.store := by
  unfold Dev.headerSignal; split
  · exact Dev.addTally_store _ _ _
  · rfl
@[simp] theorem Dev.headerSignal_mbx (r : Nat) (x : BitVec 512) (y : Result) : (d.headerSignal r x y).1.mbx = d.mbx := by
  unfold Dev.headerSignal; split
  · exact Dev.addTally_mbx _ _ _
  · rfl
@[simp] theorem Dev.headerSignal_sec (r : Nat) (x : BitVec 512) (y : Result) : (d.headerSignal r x y).1.sec = d.sec := by
  unfold Dev.headerSignal; split
  · exact Dev.addTally_sec _ _ _
  · rfl
@[simp] theorem Dev.headerSignal_ports (r : Nat) (x : BitVec 512) (y : Result) : (d.headerSignal r x y).1.ports = d.ports := by
  unfold Dev.headerSignal; split
  · exact Dev.addTally_ports _ _ _
  · rfl
@[simp] theorem Dev.headerSignal_routing (r : Nat) (x : BitVec 512) (y : Result) : (d.headerSignal r x y).1.routing = d.routing := by
  unfold Dev.headerSignal; split
  · exact Dev.addTally_routing _ _ _
  · rfl
@[simp] theorem Dev.headerSignal_xbar (r : Nat) (x : BitVec 512) (y : Result) : (d.headerSignal r x y).1.xbar = d.xbar := by
  unfold Dev.headerSignal; split
  · exact Dev.addTally_xbar _ _ _
  · rfl
@[simp] theorem Dev.headerSignal_coll (r : Nat) (x : BitVec 512) (y : Result) : (d.headerSignal r x y).1.coll = d.coll := by
  unfold Dev.headerSignal; split
  · exact Dev.addTally_coll _ _ _
  · rfl
@[simp] theorem Dev.headerSignal_time (r : Nat) (x : BitVec 512) (y : Result) : (d.headerSignal r x y).1.time = d.time := by
  unfold Dev.headerSignal; split
  · exact Dev.addTally_time _ _ _
  · rfl
@[simp] theorem Dev.headerSignal_evt (r : Nat) (x : BitVec 512) (y : Result) : (d.headerSignal r x y).1.evt = d.evt := by
  unfold Dev.headerSignal; split
  · exact Dev.addTally_evt _ _ _
  · rfl
@[simp] theorem Dev.headerSignal_shuttle (r : Nat) (x : BitVec 512) (y : Result) : (d.headerSignal r x y).1.shuttle = d.shuttle := by
  unfold Dev.headerSignal; split
  · exact Dev.addTally_shuttle _ _ _
  · rfl
@[simp] theorem Dev.headerSignal_dozeAborted (r : Nat) (x : BitVec 512) (y : Result) : (d.headerSignal r x y).1.dozeAborted = d.dozeAborted := by
  unfold Dev.headerSignal; split
  · exact Dev.addTally_dozeAborted _ _ _
  · rfl
@[simp] theorem Dev.headerSignal_fixedBits (r : Nat) (x : BitVec 512) (y : Result) : (d.headerSignal r x y).1.fixedBits = d.fixedBits := by
  unfold Dev.headerSignal; split
  · exact Dev.addTally_fixedBits _ _ _
  · rfl
@[simp] theorem Dev.headerSignal_fixedPace (r : Nat) (x : BitVec 512) (y : Result) : (d.headerSignal r x y).1.fixedPace = d.fixedPace := by
  unfold Dev.headerSignal; split
  · exact Dev.addTally_fixedPace _ _ _
  · rfl
@[simp] theorem Dev.headerSignal_started (r : Nat) (x : BitVec 512) (y : Result) : (d.headerSignal r x y).1.started = d.started := by
  unfold Dev.headerSignal; split
  · exact Dev.addTally_started _ _ _
  · rfl
@[simp] theorem Dev.headerSignal_turns (r : Nat) (x : BitVec 512) (y : Result) : (d.headerSignal r x y).1.turns = d.turns := by
  unfold Dev.headerSignal; split
  · exact Dev.addTally_turns _ _ _
  · rfl
@[simp] theorem Dev.headerSignal_capGen (r : Nat) (x : BitVec 512) (y : Result) : (d.headerSignal r x y).1.capGen = d.capGen := by
  unfold Dev.headerSignal; split
  · exact Dev.addTally_capGen _ _ _
  · rfl
@[simp] theorem Dev.headerSignal_capFinal (r : Nat) (x : BitVec 512) (y : Result) : (d.headerSignal r x y).1.capFinal = d.capFinal := by
  unfold Dev.headerSignal; split
  · exact Dev.addTally_capFinal _ _ _
  · rfl
@[simp] theorem Dev.headerSignal_capTick (r : Nat) (x : BitVec 512) (y : Result) : (d.headerSignal r x y).1.capTick = d.capTick := by
  unfold Dev.headerSignal; split
  · exact Dev.addTally_capTick _ _ _
  · rfl
@[simp] theorem Dev.headerSignal_draws (r : Nat) (x : BitVec 512) (y : Result) : (d.headerSignal r x y).1.draws = d.draws := by
  unfold Dev.headerSignal; split
  · exact Dev.addTally_draws _ _ _
  · rfl
@[simp] theorem Dev.headerSignal_out (r : Nat) (x : BitVec 512) (y : Result) : (d.headerSignal r x y).1.out = d.out := by
  unfold Dev.headerSignal; split
  · exact Dev.addTally_out _ _ _
  · rfl

/-! ## settle -/

@[simp] theorem Dev.settle_now (r : Nat) (c : W32) (y : Result) (b : Bool) (t : Tick) : (d.settle r c y b t).now = d.now := by
  unfold Dev.settle; dsimp only; (repeat' split) <;> simp
@[simp] theorem Dev.settle_skew (r : Nat) (c : W32) (y : Result) (b : Bool) (t : Tick) : (d.settle r c y b t).skew = d.skew := by
  unfold Dev.settle; dsimp only; (repeat' split) <;> simp
@[simp] theorem Dev.settle_power (r : Nat) (c : W32) (y : Result) (b : Bool) (t : Tick) : (d.settle r c y b t).power = d.power := by
  unfold Dev.settle; dsimp only; (repeat' split) <;> simp
@[simp] theorem Dev.settle_dies (r : Nat) (c : W32) (y : Result) (b : Bool) (t : Tick) : (d.settle r c y b t).dies = d.dies := by
  unfold Dev.settle; dsimp only; (repeat' split) <;> simp
@[simp] theorem Dev.settle_cap (r : Nat) (c : W32) (y : Result) (b : Bool) (t : Tick) : (d.settle r c y b t).cap = d.cap := by
  unfold Dev.settle; dsimp only; (repeat' split) <;> simp
@[simp] theorem Dev.settle_host (r : Nat) (c : W32) (y : Result) (b : Bool) (t : Tick) : (d.settle r c y b t).host = d.host := by
  unfold Dev.settle; dsimp only; (repeat' split) <;> simp
@[simp] theorem Dev.settle_blocks (r : Nat) (c : W32) (y : Result) (b : Bool) (t : Tick) : (d.settle r c y b t).blocks = d.blocks := by
  unfold Dev.settle; dsimp only; (repeat' split) <;> simp
@[simp] theorem Dev.settle_ringSel (r : Nat) (c : W32) (y : Result) (b : Bool) (t : Tick) : (d.settle r c y b t).ringSel = d.ringSel := by
  unfold Dev.settle; dsimp only; (repeat' split) <;> simp
@[simp] theorem Dev.settle_epochClaim (r : Nat) (c : W32) (y : Result) (b : Bool) (t : Tick) : (d.settle r c y b t).epochClaim = d.epochClaim := by
  unfold Dev.settle; dsimp only; (repeat' split) <;> simp
@[simp] theorem Dev.settle_epochSlot (r : Nat) (c : W32) (y : Result) (b : Bool) (t : Tick) : (d.settle r c y b t).epochSlot = d.epochSlot := by
  unfold Dev.settle; dsimp only; (repeat' split) <;> simp
@[simp] theorem Dev.settle_tallies (r : Nat) (c : W32) (y : Result) (b : Bool) (t : Tick) : (d.settle r c y b t).tallies = d.tallies := by
  unfold Dev.settle; dsimp only; (repeat' split) <;> simp
@[simp] theorem Dev.settle_claims (r : Nat) (c : W32) (y : Result) (b : Bool) (t : Tick) : (d.settle r c y b t).claims = d.claims := by
  unfold Dev.settle; dsimp only; (repeat' split) <;> simp
@[simp] theorem Dev.settle_frames (r : Nat) (c : W32) (y : Result) (b : Bool) (t : Tick) : (d.settle r c y b t).frames = d.frames := by
  unfold Dev.settle; dsimp only; (repeat' split) <;> simp
@[simp] theorem Dev.settle_objects (r : Nat) (c : W32) (y : Result) (b : Bool) (t : Tick) : (d.settle r c y b t).objects = d.objects := by
  unfold Dev.settle; dsimp only; (repeat' split) <;> simp
@[simp] theorem Dev.settle_hoist (r : Nat) (c : W32) (y : Result) (b : Bool) (t : Tick) : (d.settle r c y b t).hoist = d.hoist := by
  unfold Dev.settle; dsimp only; (repeat' split) <;> simp
@[simp] theorem Dev.settle_health (r : Nat) (c : W32) (y : Result) (b : Bool) (t : Tick) : (d.settle r c y b t).health = d.health := by
  unfold Dev.settle; dsimp only; (repeat' split) <;> simp
@[simp] theorem Dev.settle_store (r : Nat) (c : W32) (y : Result) (b : Bool) (t : Tick) : (d.settle r c y b t).store = d.store := by
  unfold Dev.settle; dsimp only; (repeat' split) <;> simp
@[simp] theorem Dev.settle_mbx (r : Nat) (c : W32) (y : Result) (b : Bool) (t : Tick) : (d.settle r c y b t).mbx = d.mbx := by
  unfold Dev.settle; dsimp only; (repeat' split) <;> simp
@[simp] theorem Dev.settle_sec (r : Nat) (c : W32) (y : Result) (b : Bool) (t : Tick) : (d.settle r c y b t).sec = d.sec := by
  unfold Dev.settle; dsimp only; (repeat' split) <;> simp
@[simp] theorem Dev.settle_ports (r : Nat) (c : W32) (y : Result) (b : Bool) (t : Tick) : (d.settle r c y b t).ports = d.ports := by
  unfold Dev.settle; dsimp only; (repeat' split) <;> simp
@[simp] theorem Dev.settle_routing (r : Nat) (c : W32) (y : Result) (b : Bool) (t : Tick) : (d.settle r c y b t).routing = d.routing := by
  unfold Dev.settle; dsimp only; (repeat' split) <;> simp
@[simp] theorem Dev.settle_xbar (r : Nat) (c : W32) (y : Result) (b : Bool) (t : Tick) : (d.settle r c y b t).xbar = d.xbar := by
  unfold Dev.settle; dsimp only; (repeat' split) <;> simp
@[simp] theorem Dev.settle_coll (r : Nat) (c : W32) (y : Result) (b : Bool) (t : Tick) : (d.settle r c y b t).coll = d.coll := by
  unfold Dev.settle; dsimp only; (repeat' split) <;> simp
@[simp] theorem Dev.settle_time (r : Nat) (c : W32) (y : Result) (b : Bool) (t : Tick) : (d.settle r c y b t).time = d.time := by
  unfold Dev.settle; dsimp only; (repeat' split) <;> simp
@[simp] theorem Dev.settle_evt (r : Nat) (c : W32) (y : Result) (b : Bool) (t : Tick) : (d.settle r c y b t).evt = d.evt := by
  unfold Dev.settle; dsimp only; (repeat' split) <;> simp
@[simp] theorem Dev.settle_shuttle (r : Nat) (c : W32) (y : Result) (b : Bool) (t : Tick) : (d.settle r c y b t).shuttle = d.shuttle := by
  unfold Dev.settle; dsimp only; (repeat' split) <;> simp
@[simp] theorem Dev.settle_dozeAborted (r : Nat) (c : W32) (y : Result) (b : Bool) (t : Tick) : (d.settle r c y b t).dozeAborted = d.dozeAborted := by
  unfold Dev.settle; dsimp only; (repeat' split) <;> simp
@[simp] theorem Dev.settle_fixedBits (r : Nat) (c : W32) (y : Result) (b : Bool) (t : Tick) : (d.settle r c y b t).fixedBits = d.fixedBits := by
  unfold Dev.settle; dsimp only; (repeat' split) <;> simp
@[simp] theorem Dev.settle_fixedPace (r : Nat) (c : W32) (y : Result) (b : Bool) (t : Tick) : (d.settle r c y b t).fixedPace = d.fixedPace := by
  unfold Dev.settle; dsimp only; (repeat' split) <;> simp
@[simp] theorem Dev.settle_started (r : Nat) (c : W32) (y : Result) (b : Bool) (t : Tick) : (d.settle r c y b t).started = d.started := by
  unfold Dev.settle; dsimp only; (repeat' split) <;> simp
@[simp] theorem Dev.settle_turns (r : Nat) (c : W32) (y : Result) (b : Bool) (t : Tick) : (d.settle r c y b t).turns = d.turns := by
  unfold Dev.settle; dsimp only; (repeat' split) <;> simp
@[simp] theorem Dev.settle_capGen (r : Nat) (c : W32) (y : Result) (b : Bool) (t : Tick) : (d.settle r c y b t).capGen = d.capGen := by
  unfold Dev.settle; dsimp only; (repeat' split) <;> simp
@[simp] theorem Dev.settle_capFinal (r : Nat) (c : W32) (y : Result) (b : Bool) (t : Tick) : (d.settle r c y b t).capFinal = d.capFinal := by
  unfold Dev.settle; dsimp only; (repeat' split) <;> simp
@[simp] theorem Dev.settle_capTick (r : Nat) (c : W32) (y : Result) (b : Bool) (t : Tick) : (d.settle r c y b t).capTick = d.capTick := by
  unfold Dev.settle; dsimp only; (repeat' split) <;> simp
@[simp] theorem Dev.settle_draws (r : Nat) (c : W32) (y : Result) (b : Bool) (t : Tick) : (d.settle r c y b t).draws = d.draws := by
  unfold Dev.settle; dsimp only; (repeat' split) <;> simp
@[simp] theorem Dev.settle_out (r : Nat) (c : W32) (y : Result) (b : Bool) (t : Tick) : (d.settle r c y b t).out = d.out := by
  unfold Dev.settle; dsimp only; (repeat' split) <;> simp

/-! ## decideOne -/

@[simp] theorem Dev.decideOne_now (r : Nat) (c : W32) (u : BitVec 16) (k : Nat) : (d.decideOne r c u k).now = d.now := by
  unfold Dev.decideOne; split
  · rfl
  · split
    · exact (Dev.settle_now _ _ _ _ _ _).trans ((Dev.headerSignal_now _ _ _ _).trans (Dev.leaveTallies_now _ _ _))
    · rfl
@[simp] theorem Dev.decideOne_skew (r : Nat) (c : W32) (u : BitVec 16) (k : Nat) : (d.decideOne r c u k).skew = d.skew := by
  unfold Dev.decideOne; split
  · rfl
  · split
    · exact (Dev.settle_skew _ _ _ _ _ _).trans ((Dev.headerSignal_skew _ _ _ _).trans (Dev.leaveTallies_skew _ _ _))
    · rfl
@[simp] theorem Dev.decideOne_power (r : Nat) (c : W32) (u : BitVec 16) (k : Nat) : (d.decideOne r c u k).power = d.power := by
  unfold Dev.decideOne; split
  · rfl
  · split
    · exact (Dev.settle_power _ _ _ _ _ _).trans ((Dev.headerSignal_power _ _ _ _).trans (Dev.leaveTallies_power _ _ _))
    · rfl
@[simp] theorem Dev.decideOne_dies (r : Nat) (c : W32) (u : BitVec 16) (k : Nat) : (d.decideOne r c u k).dies = d.dies := by
  unfold Dev.decideOne; split
  · rfl
  · split
    · exact (Dev.settle_dies _ _ _ _ _ _).trans ((Dev.headerSignal_dies _ _ _ _).trans (Dev.leaveTallies_dies _ _ _))
    · rfl
@[simp] theorem Dev.decideOne_cap (r : Nat) (c : W32) (u : BitVec 16) (k : Nat) : (d.decideOne r c u k).cap = d.cap := by
  unfold Dev.decideOne; split
  · rfl
  · split
    · exact (Dev.settle_cap _ _ _ _ _ _).trans ((Dev.headerSignal_cap _ _ _ _).trans (Dev.leaveTallies_cap _ _ _))
    · rfl
@[simp] theorem Dev.decideOne_host (r : Nat) (c : W32) (u : BitVec 16) (k : Nat) : (d.decideOne r c u k).host = d.host := by
  unfold Dev.decideOne; split
  · rfl
  · split
    · exact (Dev.settle_host _ _ _ _ _ _).trans ((Dev.headerSignal_host _ _ _ _).trans (Dev.leaveTallies_host _ _ _))
    · rfl
@[simp] theorem Dev.decideOne_blocks (r : Nat) (c : W32) (u : BitVec 16) (k : Nat) : (d.decideOne r c u k).blocks = d.blocks := by
  unfold Dev.decideOne; split
  · rfl
  · split
    · exact (Dev.settle_blocks _ _ _ _ _ _).trans ((Dev.headerSignal_blocks _ _ _ _).trans (Dev.leaveTallies_blocks _ _ _))
    · rfl
@[simp] theorem Dev.decideOne_ringSel (r : Nat) (c : W32) (u : BitVec 16) (k : Nat) : (d.decideOne r c u k).ringSel = d.ringSel := by
  unfold Dev.decideOne; split
  · rfl
  · split
    · exact (Dev.settle_ringSel _ _ _ _ _ _).trans ((Dev.headerSignal_ringSel _ _ _ _).trans (Dev.leaveTallies_ringSel _ _ _))
    · rfl
@[simp] theorem Dev.decideOne_epochClaim (r : Nat) (c : W32) (u : BitVec 16) (k : Nat) : (d.decideOne r c u k).epochClaim = d.epochClaim := by
  unfold Dev.decideOne; split
  · rfl
  · split
    · exact (Dev.settle_epochClaim _ _ _ _ _ _).trans ((Dev.headerSignal_epochClaim _ _ _ _).trans (Dev.leaveTallies_epochClaim _ _ _))
    · rfl
@[simp] theorem Dev.decideOne_epochSlot (r : Nat) (c : W32) (u : BitVec 16) (k : Nat) : (d.decideOne r c u k).epochSlot = d.epochSlot := by
  unfold Dev.decideOne; split
  · rfl
  · split
    · exact (Dev.settle_epochSlot _ _ _ _ _ _).trans ((Dev.headerSignal_epochSlot _ _ _ _).trans (Dev.leaveTallies_epochSlot _ _ _))
    · rfl
@[simp] theorem Dev.decideOne_claims (r : Nat) (c : W32) (u : BitVec 16) (k : Nat) : (d.decideOne r c u k).claims = d.claims := by
  unfold Dev.decideOne; split
  · rfl
  · split
    · exact (Dev.settle_claims _ _ _ _ _ _).trans ((Dev.headerSignal_claims _ _ _ _).trans (Dev.leaveTallies_claims _ _ _))
    · rfl
@[simp] theorem Dev.decideOne_frames (r : Nat) (c : W32) (u : BitVec 16) (k : Nat) : (d.decideOne r c u k).frames = d.frames := by
  unfold Dev.decideOne; split
  · rfl
  · split
    · exact (Dev.settle_frames _ _ _ _ _ _).trans ((Dev.headerSignal_frames _ _ _ _).trans (Dev.leaveTallies_frames _ _ _))
    · rfl
@[simp] theorem Dev.decideOne_objects (r : Nat) (c : W32) (u : BitVec 16) (k : Nat) : (d.decideOne r c u k).objects = d.objects := by
  unfold Dev.decideOne; split
  · rfl
  · split
    · exact (Dev.settle_objects _ _ _ _ _ _).trans ((Dev.headerSignal_objects _ _ _ _).trans (Dev.leaveTallies_objects _ _ _))
    · rfl
@[simp] theorem Dev.decideOne_hoist (r : Nat) (c : W32) (u : BitVec 16) (k : Nat) : (d.decideOne r c u k).hoist = d.hoist := by
  unfold Dev.decideOne; split
  · rfl
  · split
    · exact (Dev.settle_hoist _ _ _ _ _ _).trans ((Dev.headerSignal_hoist _ _ _ _).trans (Dev.leaveTallies_hoist _ _ _))
    · rfl
@[simp] theorem Dev.decideOne_health (r : Nat) (c : W32) (u : BitVec 16) (k : Nat) : (d.decideOne r c u k).health = d.health := by
  unfold Dev.decideOne; split
  · rfl
  · split
    · exact (Dev.settle_health _ _ _ _ _ _).trans ((Dev.headerSignal_health _ _ _ _).trans (Dev.leaveTallies_health _ _ _))
    · rfl
@[simp] theorem Dev.decideOne_store (r : Nat) (c : W32) (u : BitVec 16) (k : Nat) : (d.decideOne r c u k).store = d.store := by
  unfold Dev.decideOne; split
  · rfl
  · split
    · exact (Dev.settle_store _ _ _ _ _ _).trans ((Dev.headerSignal_store _ _ _ _).trans (Dev.leaveTallies_store _ _ _))
    · rfl
@[simp] theorem Dev.decideOne_mbx (r : Nat) (c : W32) (u : BitVec 16) (k : Nat) : (d.decideOne r c u k).mbx = d.mbx := by
  unfold Dev.decideOne; split
  · rfl
  · split
    · exact (Dev.settle_mbx _ _ _ _ _ _).trans ((Dev.headerSignal_mbx _ _ _ _).trans (Dev.leaveTallies_mbx _ _ _))
    · rfl
@[simp] theorem Dev.decideOne_sec (r : Nat) (c : W32) (u : BitVec 16) (k : Nat) : (d.decideOne r c u k).sec = d.sec := by
  unfold Dev.decideOne; split
  · rfl
  · split
    · exact (Dev.settle_sec _ _ _ _ _ _).trans ((Dev.headerSignal_sec _ _ _ _).trans (Dev.leaveTallies_sec _ _ _))
    · rfl
@[simp] theorem Dev.decideOne_ports (r : Nat) (c : W32) (u : BitVec 16) (k : Nat) : (d.decideOne r c u k).ports = d.ports := by
  unfold Dev.decideOne; split
  · rfl
  · split
    · exact (Dev.settle_ports _ _ _ _ _ _).trans ((Dev.headerSignal_ports _ _ _ _).trans (Dev.leaveTallies_ports _ _ _))
    · rfl
@[simp] theorem Dev.decideOne_routing (r : Nat) (c : W32) (u : BitVec 16) (k : Nat) : (d.decideOne r c u k).routing = d.routing := by
  unfold Dev.decideOne; split
  · rfl
  · split
    · exact (Dev.settle_routing _ _ _ _ _ _).trans ((Dev.headerSignal_routing _ _ _ _).trans (Dev.leaveTallies_routing _ _ _))
    · rfl
@[simp] theorem Dev.decideOne_xbar (r : Nat) (c : W32) (u : BitVec 16) (k : Nat) : (d.decideOne r c u k).xbar = d.xbar := by
  unfold Dev.decideOne; split
  · rfl
  · split
    · exact (Dev.settle_xbar _ _ _ _ _ _).trans ((Dev.headerSignal_xbar _ _ _ _).trans (Dev.leaveTallies_xbar _ _ _))
    · rfl
@[simp] theorem Dev.decideOne_coll (r : Nat) (c : W32) (u : BitVec 16) (k : Nat) : (d.decideOne r c u k).coll = d.coll := by
  unfold Dev.decideOne; split
  · rfl
  · split
    · exact (Dev.settle_coll _ _ _ _ _ _).trans ((Dev.headerSignal_coll _ _ _ _).trans (Dev.leaveTallies_coll _ _ _))
    · rfl
@[simp] theorem Dev.decideOne_time (r : Nat) (c : W32) (u : BitVec 16) (k : Nat) : (d.decideOne r c u k).time = d.time := by
  unfold Dev.decideOne; split
  · rfl
  · split
    · exact (Dev.settle_time _ _ _ _ _ _).trans ((Dev.headerSignal_time _ _ _ _).trans (Dev.leaveTallies_time _ _ _))
    · rfl
@[simp] theorem Dev.decideOne_evt (r : Nat) (c : W32) (u : BitVec 16) (k : Nat) : (d.decideOne r c u k).evt = d.evt := by
  unfold Dev.decideOne; split
  · rfl
  · split
    · exact (Dev.settle_evt _ _ _ _ _ _).trans ((Dev.headerSignal_evt _ _ _ _).trans (Dev.leaveTallies_evt _ _ _))
    · rfl
@[simp] theorem Dev.decideOne_shuttle (r : Nat) (c : W32) (u : BitVec 16) (k : Nat) : (d.decideOne r c u k).shuttle = d.shuttle := by
  unfold Dev.decideOne; split
  · rfl
  · split
    · exact (Dev.settle_shuttle _ _ _ _ _ _).trans ((Dev.headerSignal_shuttle _ _ _ _).trans (Dev.leaveTallies_shuttle _ _ _))
    · rfl
@[simp] theorem Dev.decideOne_dozeAborted (r : Nat) (c : W32) (u : BitVec 16) (k : Nat) : (d.decideOne r c u k).dozeAborted = d.dozeAborted := by
  unfold Dev.decideOne; split
  · rfl
  · split
    · exact (Dev.settle_dozeAborted _ _ _ _ _ _).trans ((Dev.headerSignal_dozeAborted _ _ _ _).trans (Dev.leaveTallies_dozeAborted _ _ _))
    · rfl
@[simp] theorem Dev.decideOne_fixedBits (r : Nat) (c : W32) (u : BitVec 16) (k : Nat) : (d.decideOne r c u k).fixedBits = d.fixedBits := by
  unfold Dev.decideOne; split
  · rfl
  · split
    · exact (Dev.settle_fixedBits _ _ _ _ _ _).trans ((Dev.headerSignal_fixedBits _ _ _ _).trans (Dev.leaveTallies_fixedBits _ _ _))
    · rfl
@[simp] theorem Dev.decideOne_fixedPace (r : Nat) (c : W32) (u : BitVec 16) (k : Nat) : (d.decideOne r c u k).fixedPace = d.fixedPace := by
  unfold Dev.decideOne; split
  · rfl
  · split
    · exact (Dev.settle_fixedPace _ _ _ _ _ _).trans ((Dev.headerSignal_fixedPace _ _ _ _).trans (Dev.leaveTallies_fixedPace _ _ _))
    · rfl
@[simp] theorem Dev.decideOne_started (r : Nat) (c : W32) (u : BitVec 16) (k : Nat) : (d.decideOne r c u k).started = d.started := by
  unfold Dev.decideOne; split
  · rfl
  · split
    · exact (Dev.settle_started _ _ _ _ _ _).trans ((Dev.headerSignal_started _ _ _ _).trans (Dev.leaveTallies_started _ _ _))
    · rfl
@[simp] theorem Dev.decideOne_turns (r : Nat) (c : W32) (u : BitVec 16) (k : Nat) : (d.decideOne r c u k).turns = d.turns := by
  unfold Dev.decideOne; split
  · rfl
  · split
    · exact (Dev.settle_turns _ _ _ _ _ _).trans ((Dev.headerSignal_turns _ _ _ _).trans (Dev.leaveTallies_turns _ _ _))
    · rfl
@[simp] theorem Dev.decideOne_capGen (r : Nat) (c : W32) (u : BitVec 16) (k : Nat) : (d.decideOne r c u k).capGen = d.capGen := by
  unfold Dev.decideOne; split
  · rfl
  · split
    · exact (Dev.settle_capGen _ _ _ _ _ _).trans ((Dev.headerSignal_capGen _ _ _ _).trans (Dev.leaveTallies_capGen _ _ _))
    · rfl
@[simp] theorem Dev.decideOne_capFinal (r : Nat) (c : W32) (u : BitVec 16) (k : Nat) : (d.decideOne r c u k).capFinal = d.capFinal := by
  unfold Dev.decideOne; split
  · rfl
  · split
    · exact (Dev.settle_capFinal _ _ _ _ _ _).trans ((Dev.headerSignal_capFinal _ _ _ _).trans (Dev.leaveTallies_capFinal _ _ _))
    · rfl
@[simp] theorem Dev.decideOne_capTick (r : Nat) (c : W32) (u : BitVec 16) (k : Nat) : (d.decideOne r c u k).capTick = d.capTick := by
  unfold Dev.decideOne; split
  · rfl
  · split
    · exact (Dev.settle_capTick _ _ _ _ _ _).trans ((Dev.headerSignal_capTick _ _ _ _).trans (Dev.leaveTallies_capTick _ _ _))
    · rfl
@[simp] theorem Dev.decideOne_draws (r : Nat) (c : W32) (u : BitVec 16) (k : Nat) : (d.decideOne r c u k).draws = d.draws := by
  unfold Dev.decideOne; split
  · rfl
  · split
    · exact (Dev.settle_draws _ _ _ _ _ _).trans ((Dev.headerSignal_draws _ _ _ _).trans (Dev.leaveTallies_draws _ _ _))
    · rfl
@[simp] theorem Dev.decideOne_out (r : Nat) (c : W32) (u : BitVec 16) (k : Nat) : (d.decideOne r c u k).out = d.out := by
  unfold Dev.decideOne; split
  · rfl
  · split
    · exact (Dev.settle_out _ _ _ _ _ _).trans ((Dev.headerSignal_out _ _ _ _).trans (Dev.leaveTallies_out _ _ _))
    · rfl

/-! ## decideGo -/

theorem Dev.decideGo_now (n : Nat) (d : Dev) (r : Nat) (c : W32) (u : BitVec 16) (k : Nat) : (Dev.decideGo n d r c u k).now = d.now := by
  induction n generalizing d c u k with
  | zero => simp [Dev.decideGo]
  | succ n ih =>
    unfold Dev.decideGo; dsimp only
    repeat' split
    · rfl
    · rw [foldl_keep Dev.now _ (fun _ _ => ih _ _ _ _)]; simp
    · rw [foldl_keep Dev.now _ (fun _ _ => ih _ _ _ _)]; simp
    · rfl
theorem Dev.decideGo_skew (n : Nat) (d : Dev) (r : Nat) (c : W32) (u : BitVec 16) (k : Nat) : (Dev.decideGo n d r c u k).skew = d.skew := by
  induction n generalizing d c u k with
  | zero => simp [Dev.decideGo]
  | succ n ih =>
    unfold Dev.decideGo; dsimp only
    repeat' split
    · rfl
    · rw [foldl_keep Dev.skew _ (fun _ _ => ih _ _ _ _)]; simp
    · rw [foldl_keep Dev.skew _ (fun _ _ => ih _ _ _ _)]; simp
    · rfl
theorem Dev.decideGo_power (n : Nat) (d : Dev) (r : Nat) (c : W32) (u : BitVec 16) (k : Nat) : (Dev.decideGo n d r c u k).power = d.power := by
  induction n generalizing d c u k with
  | zero => simp [Dev.decideGo]
  | succ n ih =>
    unfold Dev.decideGo; dsimp only
    repeat' split
    · rfl
    · rw [foldl_keep Dev.power _ (fun _ _ => ih _ _ _ _)]; simp
    · rw [foldl_keep Dev.power _ (fun _ _ => ih _ _ _ _)]; simp
    · rfl
theorem Dev.decideGo_dies (n : Nat) (d : Dev) (r : Nat) (c : W32) (u : BitVec 16) (k : Nat) : (Dev.decideGo n d r c u k).dies = d.dies := by
  induction n generalizing d c u k with
  | zero => simp [Dev.decideGo]
  | succ n ih =>
    unfold Dev.decideGo; dsimp only
    repeat' split
    · rfl
    · rw [foldl_keep Dev.dies _ (fun _ _ => ih _ _ _ _)]; simp
    · rw [foldl_keep Dev.dies _ (fun _ _ => ih _ _ _ _)]; simp
    · rfl
theorem Dev.decideGo_cap (n : Nat) (d : Dev) (r : Nat) (c : W32) (u : BitVec 16) (k : Nat) : (Dev.decideGo n d r c u k).cap = d.cap := by
  induction n generalizing d c u k with
  | zero => simp [Dev.decideGo]
  | succ n ih =>
    unfold Dev.decideGo; dsimp only
    repeat' split
    · rfl
    · rw [foldl_keep Dev.cap _ (fun _ _ => ih _ _ _ _)]; simp
    · rw [foldl_keep Dev.cap _ (fun _ _ => ih _ _ _ _)]; simp
    · rfl
theorem Dev.decideGo_host (n : Nat) (d : Dev) (r : Nat) (c : W32) (u : BitVec 16) (k : Nat) : (Dev.decideGo n d r c u k).host = d.host := by
  induction n generalizing d c u k with
  | zero => simp [Dev.decideGo]
  | succ n ih =>
    unfold Dev.decideGo; dsimp only
    repeat' split
    · rfl
    · rw [foldl_keep Dev.host _ (fun _ _ => ih _ _ _ _)]; simp
    · rw [foldl_keep Dev.host _ (fun _ _ => ih _ _ _ _)]; simp
    · rfl
theorem Dev.decideGo_blocks (n : Nat) (d : Dev) (r : Nat) (c : W32) (u : BitVec 16) (k : Nat) : (Dev.decideGo n d r c u k).blocks = d.blocks := by
  induction n generalizing d c u k with
  | zero => simp [Dev.decideGo]
  | succ n ih =>
    unfold Dev.decideGo; dsimp only
    repeat' split
    · rfl
    · rw [foldl_keep Dev.blocks _ (fun _ _ => ih _ _ _ _)]; simp
    · rw [foldl_keep Dev.blocks _ (fun _ _ => ih _ _ _ _)]; simp
    · rfl
theorem Dev.decideGo_ringSel (n : Nat) (d : Dev) (r : Nat) (c : W32) (u : BitVec 16) (k : Nat) : (Dev.decideGo n d r c u k).ringSel = d.ringSel := by
  induction n generalizing d c u k with
  | zero => simp [Dev.decideGo]
  | succ n ih =>
    unfold Dev.decideGo; dsimp only
    repeat' split
    · rfl
    · rw [foldl_keep Dev.ringSel _ (fun _ _ => ih _ _ _ _)]; simp
    · rw [foldl_keep Dev.ringSel _ (fun _ _ => ih _ _ _ _)]; simp
    · rfl
theorem Dev.decideGo_epochClaim (n : Nat) (d : Dev) (r : Nat) (c : W32) (u : BitVec 16) (k : Nat) : (Dev.decideGo n d r c u k).epochClaim = d.epochClaim := by
  induction n generalizing d c u k with
  | zero => simp [Dev.decideGo]
  | succ n ih =>
    unfold Dev.decideGo; dsimp only
    repeat' split
    · rfl
    · rw [foldl_keep Dev.epochClaim _ (fun _ _ => ih _ _ _ _)]; simp
    · rw [foldl_keep Dev.epochClaim _ (fun _ _ => ih _ _ _ _)]; simp
    · rfl
theorem Dev.decideGo_epochSlot (n : Nat) (d : Dev) (r : Nat) (c : W32) (u : BitVec 16) (k : Nat) : (Dev.decideGo n d r c u k).epochSlot = d.epochSlot := by
  induction n generalizing d c u k with
  | zero => simp [Dev.decideGo]
  | succ n ih =>
    unfold Dev.decideGo; dsimp only
    repeat' split
    · rfl
    · rw [foldl_keep Dev.epochSlot _ (fun _ _ => ih _ _ _ _)]; simp
    · rw [foldl_keep Dev.epochSlot _ (fun _ _ => ih _ _ _ _)]; simp
    · rfl
theorem Dev.decideGo_claims (n : Nat) (d : Dev) (r : Nat) (c : W32) (u : BitVec 16) (k : Nat) : (Dev.decideGo n d r c u k).claims = d.claims := by
  induction n generalizing d c u k with
  | zero => simp [Dev.decideGo]
  | succ n ih =>
    unfold Dev.decideGo; dsimp only
    repeat' split
    · rfl
    · rw [foldl_keep Dev.claims _ (fun _ _ => ih _ _ _ _)]; simp
    · rw [foldl_keep Dev.claims _ (fun _ _ => ih _ _ _ _)]; simp
    · rfl
theorem Dev.decideGo_frames (n : Nat) (d : Dev) (r : Nat) (c : W32) (u : BitVec 16) (k : Nat) : (Dev.decideGo n d r c u k).frames = d.frames := by
  induction n generalizing d c u k with
  | zero => simp [Dev.decideGo]
  | succ n ih =>
    unfold Dev.decideGo; dsimp only
    repeat' split
    · rfl
    · rw [foldl_keep Dev.frames _ (fun _ _ => ih _ _ _ _)]; simp
    · rw [foldl_keep Dev.frames _ (fun _ _ => ih _ _ _ _)]; simp
    · rfl
theorem Dev.decideGo_objects (n : Nat) (d : Dev) (r : Nat) (c : W32) (u : BitVec 16) (k : Nat) : (Dev.decideGo n d r c u k).objects = d.objects := by
  induction n generalizing d c u k with
  | zero => simp [Dev.decideGo]
  | succ n ih =>
    unfold Dev.decideGo; dsimp only
    repeat' split
    · rfl
    · rw [foldl_keep Dev.objects _ (fun _ _ => ih _ _ _ _)]; simp
    · rw [foldl_keep Dev.objects _ (fun _ _ => ih _ _ _ _)]; simp
    · rfl
theorem Dev.decideGo_hoist (n : Nat) (d : Dev) (r : Nat) (c : W32) (u : BitVec 16) (k : Nat) : (Dev.decideGo n d r c u k).hoist = d.hoist := by
  induction n generalizing d c u k with
  | zero => simp [Dev.decideGo]
  | succ n ih =>
    unfold Dev.decideGo; dsimp only
    repeat' split
    · rfl
    · rw [foldl_keep Dev.hoist _ (fun _ _ => ih _ _ _ _)]; simp
    · rw [foldl_keep Dev.hoist _ (fun _ _ => ih _ _ _ _)]; simp
    · rfl
theorem Dev.decideGo_health (n : Nat) (d : Dev) (r : Nat) (c : W32) (u : BitVec 16) (k : Nat) : (Dev.decideGo n d r c u k).health = d.health := by
  induction n generalizing d c u k with
  | zero => simp [Dev.decideGo]
  | succ n ih =>
    unfold Dev.decideGo; dsimp only
    repeat' split
    · rfl
    · rw [foldl_keep Dev.health _ (fun _ _ => ih _ _ _ _)]; simp
    · rw [foldl_keep Dev.health _ (fun _ _ => ih _ _ _ _)]; simp
    · rfl
theorem Dev.decideGo_store (n : Nat) (d : Dev) (r : Nat) (c : W32) (u : BitVec 16) (k : Nat) : (Dev.decideGo n d r c u k).store = d.store := by
  induction n generalizing d c u k with
  | zero => simp [Dev.decideGo]
  | succ n ih =>
    unfold Dev.decideGo; dsimp only
    repeat' split
    · rfl
    · rw [foldl_keep Dev.store _ (fun _ _ => ih _ _ _ _)]; simp
    · rw [foldl_keep Dev.store _ (fun _ _ => ih _ _ _ _)]; simp
    · rfl
theorem Dev.decideGo_mbx (n : Nat) (d : Dev) (r : Nat) (c : W32) (u : BitVec 16) (k : Nat) : (Dev.decideGo n d r c u k).mbx = d.mbx := by
  induction n generalizing d c u k with
  | zero => simp [Dev.decideGo]
  | succ n ih =>
    unfold Dev.decideGo; dsimp only
    repeat' split
    · rfl
    · rw [foldl_keep Dev.mbx _ (fun _ _ => ih _ _ _ _)]; simp
    · rw [foldl_keep Dev.mbx _ (fun _ _ => ih _ _ _ _)]; simp
    · rfl
theorem Dev.decideGo_sec (n : Nat) (d : Dev) (r : Nat) (c : W32) (u : BitVec 16) (k : Nat) : (Dev.decideGo n d r c u k).sec = d.sec := by
  induction n generalizing d c u k with
  | zero => simp [Dev.decideGo]
  | succ n ih =>
    unfold Dev.decideGo; dsimp only
    repeat' split
    · rfl
    · rw [foldl_keep Dev.sec _ (fun _ _ => ih _ _ _ _)]; simp
    · rw [foldl_keep Dev.sec _ (fun _ _ => ih _ _ _ _)]; simp
    · rfl
theorem Dev.decideGo_ports (n : Nat) (d : Dev) (r : Nat) (c : W32) (u : BitVec 16) (k : Nat) : (Dev.decideGo n d r c u k).ports = d.ports := by
  induction n generalizing d c u k with
  | zero => simp [Dev.decideGo]
  | succ n ih =>
    unfold Dev.decideGo; dsimp only
    repeat' split
    · rfl
    · rw [foldl_keep Dev.ports _ (fun _ _ => ih _ _ _ _)]; simp
    · rw [foldl_keep Dev.ports _ (fun _ _ => ih _ _ _ _)]; simp
    · rfl
theorem Dev.decideGo_routing (n : Nat) (d : Dev) (r : Nat) (c : W32) (u : BitVec 16) (k : Nat) : (Dev.decideGo n d r c u k).routing = d.routing := by
  induction n generalizing d c u k with
  | zero => simp [Dev.decideGo]
  | succ n ih =>
    unfold Dev.decideGo; dsimp only
    repeat' split
    · rfl
    · rw [foldl_keep Dev.routing _ (fun _ _ => ih _ _ _ _)]; simp
    · rw [foldl_keep Dev.routing _ (fun _ _ => ih _ _ _ _)]; simp
    · rfl
theorem Dev.decideGo_xbar (n : Nat) (d : Dev) (r : Nat) (c : W32) (u : BitVec 16) (k : Nat) : (Dev.decideGo n d r c u k).xbar = d.xbar := by
  induction n generalizing d c u k with
  | zero => simp [Dev.decideGo]
  | succ n ih =>
    unfold Dev.decideGo; dsimp only
    repeat' split
    · rfl
    · rw [foldl_keep Dev.xbar _ (fun _ _ => ih _ _ _ _)]; simp
    · rw [foldl_keep Dev.xbar _ (fun _ _ => ih _ _ _ _)]; simp
    · rfl
theorem Dev.decideGo_coll (n : Nat) (d : Dev) (r : Nat) (c : W32) (u : BitVec 16) (k : Nat) : (Dev.decideGo n d r c u k).coll = d.coll := by
  induction n generalizing d c u k with
  | zero => simp [Dev.decideGo]
  | succ n ih =>
    unfold Dev.decideGo; dsimp only
    repeat' split
    · rfl
    · rw [foldl_keep Dev.coll _ (fun _ _ => ih _ _ _ _)]; simp
    · rw [foldl_keep Dev.coll _ (fun _ _ => ih _ _ _ _)]; simp
    · rfl
theorem Dev.decideGo_time (n : Nat) (d : Dev) (r : Nat) (c : W32) (u : BitVec 16) (k : Nat) : (Dev.decideGo n d r c u k).time = d.time := by
  induction n generalizing d c u k with
  | zero => simp [Dev.decideGo]
  | succ n ih =>
    unfold Dev.decideGo; dsimp only
    repeat' split
    · rfl
    · rw [foldl_keep Dev.time _ (fun _ _ => ih _ _ _ _)]; simp
    · rw [foldl_keep Dev.time _ (fun _ _ => ih _ _ _ _)]; simp
    · rfl
theorem Dev.decideGo_evt (n : Nat) (d : Dev) (r : Nat) (c : W32) (u : BitVec 16) (k : Nat) : (Dev.decideGo n d r c u k).evt = d.evt := by
  induction n generalizing d c u k with
  | zero => simp [Dev.decideGo]
  | succ n ih =>
    unfold Dev.decideGo; dsimp only
    repeat' split
    · rfl
    · rw [foldl_keep Dev.evt _ (fun _ _ => ih _ _ _ _)]; simp
    · rw [foldl_keep Dev.evt _ (fun _ _ => ih _ _ _ _)]; simp
    · rfl
theorem Dev.decideGo_shuttle (n : Nat) (d : Dev) (r : Nat) (c : W32) (u : BitVec 16) (k : Nat) : (Dev.decideGo n d r c u k).shuttle = d.shuttle := by
  induction n generalizing d c u k with
  | zero => simp [Dev.decideGo]
  | succ n ih =>
    unfold Dev.decideGo; dsimp only
    repeat' split
    · rfl
    · rw [foldl_keep Dev.shuttle _ (fun _ _ => ih _ _ _ _)]; simp
    · rw [foldl_keep Dev.shuttle _ (fun _ _ => ih _ _ _ _)]; simp
    · rfl
theorem Dev.decideGo_dozeAborted (n : Nat) (d : Dev) (r : Nat) (c : W32) (u : BitVec 16) (k : Nat) : (Dev.decideGo n d r c u k).dozeAborted = d.dozeAborted := by
  induction n generalizing d c u k with
  | zero => simp [Dev.decideGo]
  | succ n ih =>
    unfold Dev.decideGo; dsimp only
    repeat' split
    · rfl
    · rw [foldl_keep Dev.dozeAborted _ (fun _ _ => ih _ _ _ _)]; simp
    · rw [foldl_keep Dev.dozeAborted _ (fun _ _ => ih _ _ _ _)]; simp
    · rfl
theorem Dev.decideGo_fixedBits (n : Nat) (d : Dev) (r : Nat) (c : W32) (u : BitVec 16) (k : Nat) : (Dev.decideGo n d r c u k).fixedBits = d.fixedBits := by
  induction n generalizing d c u k with
  | zero => simp [Dev.decideGo]
  | succ n ih =>
    unfold Dev.decideGo; dsimp only
    repeat' split
    · rfl
    · rw [foldl_keep Dev.fixedBits _ (fun _ _ => ih _ _ _ _)]; simp
    · rw [foldl_keep Dev.fixedBits _ (fun _ _ => ih _ _ _ _)]; simp
    · rfl
theorem Dev.decideGo_fixedPace (n : Nat) (d : Dev) (r : Nat) (c : W32) (u : BitVec 16) (k : Nat) : (Dev.decideGo n d r c u k).fixedPace = d.fixedPace := by
  induction n generalizing d c u k with
  | zero => simp [Dev.decideGo]
  | succ n ih =>
    unfold Dev.decideGo; dsimp only
    repeat' split
    · rfl
    · rw [foldl_keep Dev.fixedPace _ (fun _ _ => ih _ _ _ _)]; simp
    · rw [foldl_keep Dev.fixedPace _ (fun _ _ => ih _ _ _ _)]; simp
    · rfl
theorem Dev.decideGo_started (n : Nat) (d : Dev) (r : Nat) (c : W32) (u : BitVec 16) (k : Nat) : (Dev.decideGo n d r c u k).started = d.started := by
  induction n generalizing d c u k with
  | zero => simp [Dev.decideGo]
  | succ n ih =>
    unfold Dev.decideGo; dsimp only
    repeat' split
    · rfl
    · rw [foldl_keep Dev.started _ (fun _ _ => ih _ _ _ _)]; simp
    · rw [foldl_keep Dev.started _ (fun _ _ => ih _ _ _ _)]; simp
    · rfl
theorem Dev.decideGo_turns (n : Nat) (d : Dev) (r : Nat) (c : W32) (u : BitVec 16) (k : Nat) : (Dev.decideGo n d r c u k).turns = d.turns := by
  induction n generalizing d c u k with
  | zero => simp [Dev.decideGo]
  | succ n ih =>
    unfold Dev.decideGo; dsimp only
    repeat' split
    · rfl
    · rw [foldl_keep Dev.turns _ (fun _ _ => ih _ _ _ _)]; simp
    · rw [foldl_keep Dev.turns _ (fun _ _ => ih _ _ _ _)]; simp
    · rfl
theorem Dev.decideGo_capGen (n : Nat) (d : Dev) (r : Nat) (c : W32) (u : BitVec 16) (k : Nat) : (Dev.decideGo n d r c u k).capGen = d.capGen := by
  induction n generalizing d c u k with
  | zero => simp [Dev.decideGo]
  | succ n ih =>
    unfold Dev.decideGo; dsimp only
    repeat' split
    · rfl
    · rw [foldl_keep Dev.capGen _ (fun _ _ => ih _ _ _ _)]; simp
    · rw [foldl_keep Dev.capGen _ (fun _ _ => ih _ _ _ _)]; simp
    · rfl
theorem Dev.decideGo_capFinal (n : Nat) (d : Dev) (r : Nat) (c : W32) (u : BitVec 16) (k : Nat) : (Dev.decideGo n d r c u k).capFinal = d.capFinal := by
  induction n generalizing d c u k with
  | zero => simp [Dev.decideGo]
  | succ n ih =>
    unfold Dev.decideGo; dsimp only
    repeat' split
    · rfl
    · rw [foldl_keep Dev.capFinal _ (fun _ _ => ih _ _ _ _)]; simp
    · rw [foldl_keep Dev.capFinal _ (fun _ _ => ih _ _ _ _)]; simp
    · rfl
theorem Dev.decideGo_capTick (n : Nat) (d : Dev) (r : Nat) (c : W32) (u : BitVec 16) (k : Nat) : (Dev.decideGo n d r c u k).capTick = d.capTick := by
  induction n generalizing d c u k with
  | zero => simp [Dev.decideGo]
  | succ n ih =>
    unfold Dev.decideGo; dsimp only
    repeat' split
    · rfl
    · rw [foldl_keep Dev.capTick _ (fun _ _ => ih _ _ _ _)]; simp
    · rw [foldl_keep Dev.capTick _ (fun _ _ => ih _ _ _ _)]; simp
    · rfl
theorem Dev.decideGo_draws (n : Nat) (d : Dev) (r : Nat) (c : W32) (u : BitVec 16) (k : Nat) : (Dev.decideGo n d r c u k).draws = d.draws := by
  induction n generalizing d c u k with
  | zero => simp [Dev.decideGo]
  | succ n ih =>
    unfold Dev.decideGo; dsimp only
    repeat' split
    · rfl
    · rw [foldl_keep Dev.draws _ (fun _ _ => ih _ _ _ _)]; simp
    · rw [foldl_keep Dev.draws _ (fun _ _ => ih _ _ _ _)]; simp
    · rfl
theorem Dev.decideGo_out (n : Nat) (d : Dev) (r : Nat) (c : W32) (u : BitVec 16) (k : Nat) : (Dev.decideGo n d r c u k).out = d.out := by
  induction n generalizing d c u k with
  | zero => simp [Dev.decideGo]
  | succ n ih =>
    unfold Dev.decideGo; dsimp only
    repeat' split
    · rfl
    · rw [foldl_keep Dev.out _ (fun _ _ => ih _ _ _ _)]; simp
    · rw [foldl_keep Dev.out _ (fun _ _ => ih _ _ _ _)]; simp
    · rfl

/-! ## decideEntry -/

@[simp] theorem Dev.decideEntry_now (r : Nat) (c : W32) (u : BitVec 16) (k : Nat) : (d.decideEntry r c u k).now = d.now :=
  Dev.decideGo_now _ _ _ _ _ _
@[simp] theorem Dev.decideEntry_skew (r : Nat) (c : W32) (u : BitVec 16) (k : Nat) : (d.decideEntry r c u k).skew = d.skew :=
  Dev.decideGo_skew _ _ _ _ _ _
@[simp] theorem Dev.decideEntry_power (r : Nat) (c : W32) (u : BitVec 16) (k : Nat) : (d.decideEntry r c u k).power = d.power :=
  Dev.decideGo_power _ _ _ _ _ _
@[simp] theorem Dev.decideEntry_dies (r : Nat) (c : W32) (u : BitVec 16) (k : Nat) : (d.decideEntry r c u k).dies = d.dies :=
  Dev.decideGo_dies _ _ _ _ _ _
@[simp] theorem Dev.decideEntry_cap (r : Nat) (c : W32) (u : BitVec 16) (k : Nat) : (d.decideEntry r c u k).cap = d.cap :=
  Dev.decideGo_cap _ _ _ _ _ _
@[simp] theorem Dev.decideEntry_host (r : Nat) (c : W32) (u : BitVec 16) (k : Nat) : (d.decideEntry r c u k).host = d.host :=
  Dev.decideGo_host _ _ _ _ _ _
@[simp] theorem Dev.decideEntry_blocks (r : Nat) (c : W32) (u : BitVec 16) (k : Nat) : (d.decideEntry r c u k).blocks = d.blocks :=
  Dev.decideGo_blocks _ _ _ _ _ _
@[simp] theorem Dev.decideEntry_ringSel (r : Nat) (c : W32) (u : BitVec 16) (k : Nat) : (d.decideEntry r c u k).ringSel = d.ringSel :=
  Dev.decideGo_ringSel _ _ _ _ _ _
@[simp] theorem Dev.decideEntry_epochClaim (r : Nat) (c : W32) (u : BitVec 16) (k : Nat) : (d.decideEntry r c u k).epochClaim = d.epochClaim :=
  Dev.decideGo_epochClaim _ _ _ _ _ _
@[simp] theorem Dev.decideEntry_epochSlot (r : Nat) (c : W32) (u : BitVec 16) (k : Nat) : (d.decideEntry r c u k).epochSlot = d.epochSlot :=
  Dev.decideGo_epochSlot _ _ _ _ _ _
@[simp] theorem Dev.decideEntry_claims (r : Nat) (c : W32) (u : BitVec 16) (k : Nat) : (d.decideEntry r c u k).claims = d.claims :=
  Dev.decideGo_claims _ _ _ _ _ _
@[simp] theorem Dev.decideEntry_frames (r : Nat) (c : W32) (u : BitVec 16) (k : Nat) : (d.decideEntry r c u k).frames = d.frames :=
  Dev.decideGo_frames _ _ _ _ _ _
@[simp] theorem Dev.decideEntry_objects (r : Nat) (c : W32) (u : BitVec 16) (k : Nat) : (d.decideEntry r c u k).objects = d.objects :=
  Dev.decideGo_objects _ _ _ _ _ _
@[simp] theorem Dev.decideEntry_hoist (r : Nat) (c : W32) (u : BitVec 16) (k : Nat) : (d.decideEntry r c u k).hoist = d.hoist :=
  Dev.decideGo_hoist _ _ _ _ _ _
@[simp] theorem Dev.decideEntry_health (r : Nat) (c : W32) (u : BitVec 16) (k : Nat) : (d.decideEntry r c u k).health = d.health :=
  Dev.decideGo_health _ _ _ _ _ _
@[simp] theorem Dev.decideEntry_store (r : Nat) (c : W32) (u : BitVec 16) (k : Nat) : (d.decideEntry r c u k).store = d.store :=
  Dev.decideGo_store _ _ _ _ _ _
@[simp] theorem Dev.decideEntry_mbx (r : Nat) (c : W32) (u : BitVec 16) (k : Nat) : (d.decideEntry r c u k).mbx = d.mbx :=
  Dev.decideGo_mbx _ _ _ _ _ _
@[simp] theorem Dev.decideEntry_sec (r : Nat) (c : W32) (u : BitVec 16) (k : Nat) : (d.decideEntry r c u k).sec = d.sec :=
  Dev.decideGo_sec _ _ _ _ _ _
@[simp] theorem Dev.decideEntry_ports (r : Nat) (c : W32) (u : BitVec 16) (k : Nat) : (d.decideEntry r c u k).ports = d.ports :=
  Dev.decideGo_ports _ _ _ _ _ _
@[simp] theorem Dev.decideEntry_routing (r : Nat) (c : W32) (u : BitVec 16) (k : Nat) : (d.decideEntry r c u k).routing = d.routing :=
  Dev.decideGo_routing _ _ _ _ _ _
@[simp] theorem Dev.decideEntry_xbar (r : Nat) (c : W32) (u : BitVec 16) (k : Nat) : (d.decideEntry r c u k).xbar = d.xbar :=
  Dev.decideGo_xbar _ _ _ _ _ _
@[simp] theorem Dev.decideEntry_coll (r : Nat) (c : W32) (u : BitVec 16) (k : Nat) : (d.decideEntry r c u k).coll = d.coll :=
  Dev.decideGo_coll _ _ _ _ _ _
@[simp] theorem Dev.decideEntry_time (r : Nat) (c : W32) (u : BitVec 16) (k : Nat) : (d.decideEntry r c u k).time = d.time :=
  Dev.decideGo_time _ _ _ _ _ _
@[simp] theorem Dev.decideEntry_evt (r : Nat) (c : W32) (u : BitVec 16) (k : Nat) : (d.decideEntry r c u k).evt = d.evt :=
  Dev.decideGo_evt _ _ _ _ _ _
@[simp] theorem Dev.decideEntry_shuttle (r : Nat) (c : W32) (u : BitVec 16) (k : Nat) : (d.decideEntry r c u k).shuttle = d.shuttle :=
  Dev.decideGo_shuttle _ _ _ _ _ _
@[simp] theorem Dev.decideEntry_dozeAborted (r : Nat) (c : W32) (u : BitVec 16) (k : Nat) : (d.decideEntry r c u k).dozeAborted = d.dozeAborted :=
  Dev.decideGo_dozeAborted _ _ _ _ _ _
@[simp] theorem Dev.decideEntry_fixedBits (r : Nat) (c : W32) (u : BitVec 16) (k : Nat) : (d.decideEntry r c u k).fixedBits = d.fixedBits :=
  Dev.decideGo_fixedBits _ _ _ _ _ _
@[simp] theorem Dev.decideEntry_fixedPace (r : Nat) (c : W32) (u : BitVec 16) (k : Nat) : (d.decideEntry r c u k).fixedPace = d.fixedPace :=
  Dev.decideGo_fixedPace _ _ _ _ _ _
@[simp] theorem Dev.decideEntry_started (r : Nat) (c : W32) (u : BitVec 16) (k : Nat) : (d.decideEntry r c u k).started = d.started :=
  Dev.decideGo_started _ _ _ _ _ _
@[simp] theorem Dev.decideEntry_turns (r : Nat) (c : W32) (u : BitVec 16) (k : Nat) : (d.decideEntry r c u k).turns = d.turns :=
  Dev.decideGo_turns _ _ _ _ _ _
@[simp] theorem Dev.decideEntry_capGen (r : Nat) (c : W32) (u : BitVec 16) (k : Nat) : (d.decideEntry r c u k).capGen = d.capGen :=
  Dev.decideGo_capGen _ _ _ _ _ _
@[simp] theorem Dev.decideEntry_capFinal (r : Nat) (c : W32) (u : BitVec 16) (k : Nat) : (d.decideEntry r c u k).capFinal = d.capFinal :=
  Dev.decideGo_capFinal _ _ _ _ _ _
@[simp] theorem Dev.decideEntry_capTick (r : Nat) (c : W32) (u : BitVec 16) (k : Nat) : (d.decideEntry r c u k).capTick = d.capTick :=
  Dev.decideGo_capTick _ _ _ _ _ _
@[simp] theorem Dev.decideEntry_draws (r : Nat) (c : W32) (u : BitVec 16) (k : Nat) : (d.decideEntry r c u k).draws = d.draws :=
  Dev.decideGo_draws _ _ _ _ _ _
@[simp] theorem Dev.decideEntry_out (r : Nat) (c : W32) (u : BitVec 16) (k : Nat) : (d.decideEntry r c u k).out = d.out :=
  Dev.decideGo_out _ _ _ _ _ _

/-! ## chargeOp -/

@[simp] theorem Dev.chargeOp_now (r : Nat) (c : W32) (x : Result) : (d.chargeOp r c x).now = d.now := by
  unfold Dev.chargeOp; try dsimp only
  (repeat' split) <;> simp
@[simp] theorem Dev.chargeOp_skew (r : Nat) (c : W32) (x : Result) : (d.chargeOp r c x).skew = d.skew := by
  unfold Dev.chargeOp; try dsimp only
  (repeat' split) <;> simp
@[simp] theorem Dev.chargeOp_power (r : Nat) (c : W32) (x : Result) : (d.chargeOp r c x).power = d.power := by
  unfold Dev.chargeOp; try dsimp only
  (repeat' split) <;> simp
@[simp] theorem Dev.chargeOp_dies (r : Nat) (c : W32) (x : Result) : (d.chargeOp r c x).dies = d.dies := by
  unfold Dev.chargeOp; try dsimp only
  (repeat' split) <;> simp
@[simp] theorem Dev.chargeOp_cap (r : Nat) (c : W32) (x : Result) : (d.chargeOp r c x).cap = d.cap := by
  unfold Dev.chargeOp; try dsimp only
  (repeat' split) <;> simp
@[simp] theorem Dev.chargeOp_host (r : Nat) (c : W32) (x : Result) : (d.chargeOp r c x).host = d.host := by
  unfold Dev.chargeOp; try dsimp only
  (repeat' split) <;> simp
@[simp] theorem Dev.chargeOp_blocks (r : Nat) (c : W32) (x : Result) : (d.chargeOp r c x).blocks = d.blocks := by
  unfold Dev.chargeOp; try dsimp only
  (repeat' split) <;> simp
@[simp] theorem Dev.chargeOp_ringSel (r : Nat) (c : W32) (x : Result) : (d.chargeOp r c x).ringSel = d.ringSel := by
  unfold Dev.chargeOp; try dsimp only
  (repeat' split) <;> simp
@[simp] theorem Dev.chargeOp_epochClaim (r : Nat) (c : W32) (x : Result) : (d.chargeOp r c x).epochClaim = d.epochClaim := by
  unfold Dev.chargeOp; try dsimp only
  (repeat' split) <;> simp
@[simp] theorem Dev.chargeOp_epochSlot (r : Nat) (c : W32) (x : Result) : (d.chargeOp r c x).epochSlot = d.epochSlot := by
  unfold Dev.chargeOp; try dsimp only
  (repeat' split) <;> simp
@[simp] theorem Dev.chargeOp_rings (r : Nat) (c : W32) (x : Result) : (d.chargeOp r c x).rings = d.rings := by
  unfold Dev.chargeOp; try dsimp only
  (repeat' split) <;> simp
@[simp] theorem Dev.chargeOp_tallies (r : Nat) (c : W32) (x : Result) : (d.chargeOp r c x).tallies = d.tallies := by
  unfold Dev.chargeOp; try dsimp only
  (repeat' split) <;> simp
@[simp] theorem Dev.chargeOp_frames (r : Nat) (c : W32) (x : Result) : (d.chargeOp r c x).frames = d.frames := by
  unfold Dev.chargeOp; try dsimp only
  (repeat' split) <;> simp
@[simp] theorem Dev.chargeOp_objects (r : Nat) (c : W32) (x : Result) : (d.chargeOp r c x).objects = d.objects := by
  unfold Dev.chargeOp; try dsimp only
  (repeat' split) <;> simp
@[simp] theorem Dev.chargeOp_hoist (r : Nat) (c : W32) (x : Result) : (d.chargeOp r c x).hoist = d.hoist := by
  unfold Dev.chargeOp; try dsimp only
  (repeat' split) <;> simp
@[simp] theorem Dev.chargeOp_health (r : Nat) (c : W32) (x : Result) : (d.chargeOp r c x).health = d.health := by
  unfold Dev.chargeOp; try dsimp only
  (repeat' split) <;> simp
@[simp] theorem Dev.chargeOp_store (r : Nat) (c : W32) (x : Result) : (d.chargeOp r c x).store = d.store := by
  unfold Dev.chargeOp; try dsimp only
  (repeat' split) <;> simp
@[simp] theorem Dev.chargeOp_mbx (r : Nat) (c : W32) (x : Result) : (d.chargeOp r c x).mbx = d.mbx := by
  unfold Dev.chargeOp; try dsimp only
  (repeat' split) <;> simp
@[simp] theorem Dev.chargeOp_sec (r : Nat) (c : W32) (x : Result) : (d.chargeOp r c x).sec = d.sec := by
  unfold Dev.chargeOp; try dsimp only
  (repeat' split) <;> simp
@[simp] theorem Dev.chargeOp_ports (r : Nat) (c : W32) (x : Result) : (d.chargeOp r c x).ports = d.ports := by
  unfold Dev.chargeOp; try dsimp only
  (repeat' split) <;> simp
@[simp] theorem Dev.chargeOp_routing (r : Nat) (c : W32) (x : Result) : (d.chargeOp r c x).routing = d.routing := by
  unfold Dev.chargeOp; try dsimp only
  (repeat' split) <;> simp
@[simp] theorem Dev.chargeOp_xbar (r : Nat) (c : W32) (x : Result) : (d.chargeOp r c x).xbar = d.xbar := by
  unfold Dev.chargeOp; try dsimp only
  (repeat' split) <;> simp
@[simp] theorem Dev.chargeOp_coll (r : Nat) (c : W32) (x : Result) : (d.chargeOp r c x).coll = d.coll := by
  unfold Dev.chargeOp; try dsimp only
  (repeat' split) <;> simp
@[simp] theorem Dev.chargeOp_time (r : Nat) (c : W32) (x : Result) : (d.chargeOp r c x).time = d.time := by
  unfold Dev.chargeOp; try dsimp only
  (repeat' split) <;> simp
@[simp] theorem Dev.chargeOp_evt (r : Nat) (c : W32) (x : Result) : (d.chargeOp r c x).evt = d.evt := by
  unfold Dev.chargeOp; try dsimp only
  (repeat' split) <;> simp
@[simp] theorem Dev.chargeOp_shuttle (r : Nat) (c : W32) (x : Result) : (d.chargeOp r c x).shuttle = d.shuttle := by
  unfold Dev.chargeOp; try dsimp only
  (repeat' split) <;> simp
@[simp] theorem Dev.chargeOp_dozeAborted (r : Nat) (c : W32) (x : Result) : (d.chargeOp r c x).dozeAborted = d.dozeAborted := by
  unfold Dev.chargeOp; try dsimp only
  (repeat' split) <;> simp
@[simp] theorem Dev.chargeOp_fixedBits (r : Nat) (c : W32) (x : Result) : (d.chargeOp r c x).fixedBits = d.fixedBits := by
  unfold Dev.chargeOp; try dsimp only
  (repeat' split) <;> simp
@[simp] theorem Dev.chargeOp_fixedPace (r : Nat) (c : W32) (x : Result) : (d.chargeOp r c x).fixedPace = d.fixedPace := by
  unfold Dev.chargeOp; try dsimp only
  (repeat' split) <;> simp
@[simp] theorem Dev.chargeOp_started (r : Nat) (c : W32) (x : Result) : (d.chargeOp r c x).started = d.started := by
  unfold Dev.chargeOp; try dsimp only
  (repeat' split) <;> simp
@[simp] theorem Dev.chargeOp_turns (r : Nat) (c : W32) (x : Result) : (d.chargeOp r c x).turns = d.turns := by
  unfold Dev.chargeOp; try dsimp only
  (repeat' split) <;> simp
@[simp] theorem Dev.chargeOp_capGen (r : Nat) (c : W32) (x : Result) : (d.chargeOp r c x).capGen = d.capGen := by
  unfold Dev.chargeOp; try dsimp only
  (repeat' split) <;> simp
@[simp] theorem Dev.chargeOp_capFinal (r : Nat) (c : W32) (x : Result) : (d.chargeOp r c x).capFinal = d.capFinal := by
  unfold Dev.chargeOp; try dsimp only
  (repeat' split) <;> simp
@[simp] theorem Dev.chargeOp_capTick (r : Nat) (c : W32) (x : Result) : (d.chargeOp r c x).capTick = d.capTick := by
  unfold Dev.chargeOp; try dsimp only
  (repeat' split) <;> simp
@[simp] theorem Dev.chargeOp_draws (r : Nat) (c : W32) (x : Result) : (d.chargeOp r c x).draws = d.draws := by
  unfold Dev.chargeOp; try dsimp only
  (repeat' split) <;> simp
@[simp] theorem Dev.chargeOp_out (r : Nat) (c : W32) (x : Result) : (d.chargeOp r c x).out = d.out := by
  unfold Dev.chargeOp; try dsimp only
  (repeat' split) <;> simp

/-! ## closeOp -/

@[simp] theorem Dev.closeOp_now (r : Nat) (c : W32) (x : Result) : (d.closeOp r c x).now = d.now := by
  simp [Dev.closeOp]
@[simp] theorem Dev.closeOp_skew (r : Nat) (c : W32) (x : Result) : (d.closeOp r c x).skew = d.skew := by
  simp [Dev.closeOp]
@[simp] theorem Dev.closeOp_power (r : Nat) (c : W32) (x : Result) : (d.closeOp r c x).power = d.power := by
  simp [Dev.closeOp]
@[simp] theorem Dev.closeOp_dies (r : Nat) (c : W32) (x : Result) : (d.closeOp r c x).dies = d.dies := by
  simp [Dev.closeOp]
@[simp] theorem Dev.closeOp_cap (r : Nat) (c : W32) (x : Result) : (d.closeOp r c x).cap = d.cap := by
  simp [Dev.closeOp]
@[simp] theorem Dev.closeOp_host (r : Nat) (c : W32) (x : Result) : (d.closeOp r c x).host = d.host := by
  simp [Dev.closeOp]
@[simp] theorem Dev.closeOp_blocks (r : Nat) (c : W32) (x : Result) : (d.closeOp r c x).blocks = d.blocks := by
  simp [Dev.closeOp]
@[simp] theorem Dev.closeOp_ringSel (r : Nat) (c : W32) (x : Result) : (d.closeOp r c x).ringSel = d.ringSel := by
  simp [Dev.closeOp]
@[simp] theorem Dev.closeOp_epochClaim (r : Nat) (c : W32) (x : Result) : (d.closeOp r c x).epochClaim = d.epochClaim := by
  simp [Dev.closeOp]
@[simp] theorem Dev.closeOp_epochSlot (r : Nat) (c : W32) (x : Result) : (d.closeOp r c x).epochSlot = d.epochSlot := by
  simp [Dev.closeOp]
@[simp] theorem Dev.closeOp_tallies (r : Nat) (c : W32) (x : Result) : (d.closeOp r c x).tallies = d.tallies := by
  simp [Dev.closeOp]
@[simp] theorem Dev.closeOp_claims (r : Nat) (c : W32) (x : Result) : (d.closeOp r c x).claims = d.claims := by
  simp [Dev.closeOp]
@[simp] theorem Dev.closeOp_frames (r : Nat) (c : W32) (x : Result) : (d.closeOp r c x).frames = d.frames := by
  simp [Dev.closeOp]
@[simp] theorem Dev.closeOp_objects (r : Nat) (c : W32) (x : Result) : (d.closeOp r c x).objects = d.objects := by
  simp [Dev.closeOp]
@[simp] theorem Dev.closeOp_hoist (r : Nat) (c : W32) (x : Result) : (d.closeOp r c x).hoist = d.hoist := by
  simp [Dev.closeOp]
@[simp] theorem Dev.closeOp_health (r : Nat) (c : W32) (x : Result) : (d.closeOp r c x).health = d.health := by
  simp [Dev.closeOp]
@[simp] theorem Dev.closeOp_store (r : Nat) (c : W32) (x : Result) : (d.closeOp r c x).store = d.store := by
  simp [Dev.closeOp]
@[simp] theorem Dev.closeOp_mbx (r : Nat) (c : W32) (x : Result) : (d.closeOp r c x).mbx = d.mbx := by
  simp [Dev.closeOp]
@[simp] theorem Dev.closeOp_sec (r : Nat) (c : W32) (x : Result) : (d.closeOp r c x).sec = d.sec := by
  simp [Dev.closeOp]
@[simp] theorem Dev.closeOp_ports (r : Nat) (c : W32) (x : Result) : (d.closeOp r c x).ports = d.ports := by
  simp [Dev.closeOp]
@[simp] theorem Dev.closeOp_routing (r : Nat) (c : W32) (x : Result) : (d.closeOp r c x).routing = d.routing := by
  simp [Dev.closeOp]
@[simp] theorem Dev.closeOp_xbar (r : Nat) (c : W32) (x : Result) : (d.closeOp r c x).xbar = d.xbar := by
  simp [Dev.closeOp]
@[simp] theorem Dev.closeOp_coll (r : Nat) (c : W32) (x : Result) : (d.closeOp r c x).coll = d.coll := by
  simp [Dev.closeOp]
@[simp] theorem Dev.closeOp_time (r : Nat) (c : W32) (x : Result) : (d.closeOp r c x).time = d.time := by
  simp [Dev.closeOp]
@[simp] theorem Dev.closeOp_evt (r : Nat) (c : W32) (x : Result) : (d.closeOp r c x).evt = d.evt := by
  simp [Dev.closeOp]
@[simp] theorem Dev.closeOp_shuttle (r : Nat) (c : W32) (x : Result) : (d.closeOp r c x).shuttle = d.shuttle := by
  simp [Dev.closeOp]
@[simp] theorem Dev.closeOp_dozeAborted (r : Nat) (c : W32) (x : Result) : (d.closeOp r c x).dozeAborted = d.dozeAborted := by
  simp [Dev.closeOp]
@[simp] theorem Dev.closeOp_fixedBits (r : Nat) (c : W32) (x : Result) : (d.closeOp r c x).fixedBits = d.fixedBits := by
  simp [Dev.closeOp]
@[simp] theorem Dev.closeOp_fixedPace (r : Nat) (c : W32) (x : Result) : (d.closeOp r c x).fixedPace = d.fixedPace := by
  simp [Dev.closeOp]
@[simp] theorem Dev.closeOp_started (r : Nat) (c : W32) (x : Result) : (d.closeOp r c x).started = d.started := by
  simp [Dev.closeOp]
@[simp] theorem Dev.closeOp_turns (r : Nat) (c : W32) (x : Result) : (d.closeOp r c x).turns = d.turns := by
  simp [Dev.closeOp]
@[simp] theorem Dev.closeOp_capGen (r : Nat) (c : W32) (x : Result) : (d.closeOp r c x).capGen = d.capGen := by
  simp [Dev.closeOp]
@[simp] theorem Dev.closeOp_capFinal (r : Nat) (c : W32) (x : Result) : (d.closeOp r c x).capFinal = d.capFinal := by
  simp [Dev.closeOp]
@[simp] theorem Dev.closeOp_capTick (r : Nat) (c : W32) (x : Result) : (d.closeOp r c x).capTick = d.capTick := by
  simp [Dev.closeOp]
@[simp] theorem Dev.closeOp_draws (r : Nat) (c : W32) (x : Result) : (d.closeOp r c x).draws = d.draws := by
  simp [Dev.closeOp]
@[simp] theorem Dev.closeOp_out (r : Nat) (c : W32) (x : Result) : (d.closeOp r c x).out = d.out := by
  simp [Dev.closeOp]

/-! ## take -/

@[simp] theorem Dev.take_now (r : Nat) (c : W32) : (d.take r c).now = d.now := by
  unfold Dev.take; try dsimp only
  (repeat' split) <;> simp
@[simp] theorem Dev.take_skew (r : Nat) (c : W32) : (d.take r c).skew = d.skew := by
  unfold Dev.take; try dsimp only
  (repeat' split) <;> simp
@[simp] theorem Dev.take_power (r : Nat) (c : W32) : (d.take r c).power = d.power := by
  unfold Dev.take; try dsimp only
  (repeat' split) <;> simp
@[simp] theorem Dev.take_dies (r : Nat) (c : W32) : (d.take r c).dies = d.dies := by
  unfold Dev.take; try dsimp only
  (repeat' split) <;> simp
@[simp] theorem Dev.take_cap (r : Nat) (c : W32) : (d.take r c).cap = d.cap := by
  unfold Dev.take; try dsimp only
  (repeat' split) <;> simp
@[simp] theorem Dev.take_host (r : Nat) (c : W32) : (d.take r c).host = d.host := by
  unfold Dev.take; try dsimp only
  (repeat' split) <;> simp
@[simp] theorem Dev.take_blocks (r : Nat) (c : W32) : (d.take r c).blocks = d.blocks := by
  unfold Dev.take; try dsimp only
  (repeat' split) <;> simp
@[simp] theorem Dev.take_ringSel (r : Nat) (c : W32) : (d.take r c).ringSel = d.ringSel := by
  unfold Dev.take; try dsimp only
  (repeat' split) <;> simp
@[simp] theorem Dev.take_epochClaim (r : Nat) (c : W32) : (d.take r c).epochClaim = d.epochClaim := by
  unfold Dev.take; try dsimp only
  (repeat' split) <;> simp
@[simp] theorem Dev.take_epochSlot (r : Nat) (c : W32) : (d.take r c).epochSlot = d.epochSlot := by
  unfold Dev.take; try dsimp only
  (repeat' split) <;> simp
@[simp] theorem Dev.take_tallies (r : Nat) (c : W32) : (d.take r c).tallies = d.tallies := by
  unfold Dev.take; try dsimp only
  (repeat' split) <;> simp
@[simp] theorem Dev.take_claims (r : Nat) (c : W32) : (d.take r c).claims = d.claims := by
  unfold Dev.take; try dsimp only
  (repeat' split) <;> simp
@[simp] theorem Dev.take_frames (r : Nat) (c : W32) : (d.take r c).frames = d.frames := by
  unfold Dev.take; try dsimp only
  (repeat' split) <;> simp
@[simp] theorem Dev.take_objects (r : Nat) (c : W32) : (d.take r c).objects = d.objects := by
  unfold Dev.take; try dsimp only
  (repeat' split) <;> simp
@[simp] theorem Dev.take_hoist (r : Nat) (c : W32) : (d.take r c).hoist = d.hoist := by
  unfold Dev.take; try dsimp only
  (repeat' split) <;> simp
@[simp] theorem Dev.take_health (r : Nat) (c : W32) : (d.take r c).health = d.health := by
  unfold Dev.take; try dsimp only
  (repeat' split) <;> simp
@[simp] theorem Dev.take_store (r : Nat) (c : W32) : (d.take r c).store = d.store := by
  unfold Dev.take; try dsimp only
  (repeat' split) <;> simp
@[simp] theorem Dev.take_mbx (r : Nat) (c : W32) : (d.take r c).mbx = d.mbx := by
  unfold Dev.take; try dsimp only
  (repeat' split) <;> simp
@[simp] theorem Dev.take_sec (r : Nat) (c : W32) : (d.take r c).sec = d.sec := by
  unfold Dev.take; try dsimp only
  (repeat' split) <;> simp
@[simp] theorem Dev.take_ports (r : Nat) (c : W32) : (d.take r c).ports = d.ports := by
  unfold Dev.take; try dsimp only
  (repeat' split) <;> simp
@[simp] theorem Dev.take_routing (r : Nat) (c : W32) : (d.take r c).routing = d.routing := by
  unfold Dev.take; try dsimp only
  (repeat' split) <;> simp
@[simp] theorem Dev.take_xbar (r : Nat) (c : W32) : (d.take r c).xbar = d.xbar := by
  unfold Dev.take; try dsimp only
  (repeat' split) <;> simp
@[simp] theorem Dev.take_coll (r : Nat) (c : W32) : (d.take r c).coll = d.coll := by
  unfold Dev.take; try dsimp only
  (repeat' split) <;> simp
@[simp] theorem Dev.take_time (r : Nat) (c : W32) : (d.take r c).time = d.time := by
  unfold Dev.take; try dsimp only
  (repeat' split) <;> simp
@[simp] theorem Dev.take_evt (r : Nat) (c : W32) : (d.take r c).evt = d.evt := by
  unfold Dev.take; try dsimp only
  (repeat' split) <;> simp
@[simp] theorem Dev.take_shuttle (r : Nat) (c : W32) : (d.take r c).shuttle = d.shuttle := by
  unfold Dev.take; try dsimp only
  (repeat' split) <;> simp
@[simp] theorem Dev.take_dozeAborted (r : Nat) (c : W32) : (d.take r c).dozeAborted = d.dozeAborted := by
  unfold Dev.take; try dsimp only
  (repeat' split) <;> simp
@[simp] theorem Dev.take_fixedBits (r : Nat) (c : W32) : (d.take r c).fixedBits = d.fixedBits := by
  unfold Dev.take; try dsimp only
  (repeat' split) <;> simp
@[simp] theorem Dev.take_fixedPace (r : Nat) (c : W32) : (d.take r c).fixedPace = d.fixedPace := by
  unfold Dev.take; try dsimp only
  (repeat' split) <;> simp
@[simp] theorem Dev.take_started (r : Nat) (c : W32) : (d.take r c).started = d.started := by
  unfold Dev.take; try dsimp only
  (repeat' split) <;> simp
@[simp] theorem Dev.take_capGen (r : Nat) (c : W32) : (d.take r c).capGen = d.capGen := by
  unfold Dev.take; try dsimp only
  (repeat' split) <;> simp
@[simp] theorem Dev.take_capFinal (r : Nat) (c : W32) : (d.take r c).capFinal = d.capFinal := by
  unfold Dev.take; try dsimp only
  (repeat' split) <;> simp
@[simp] theorem Dev.take_capTick (r : Nat) (c : W32) : (d.take r c).capTick = d.capTick := by
  unfold Dev.take; try dsimp only
  (repeat' split) <;> simp
@[simp] theorem Dev.take_draws (r : Nat) (c : W32) : (d.take r c).draws = d.draws := by
  unfold Dev.take; try dsimp only
  (repeat' split) <;> simp
@[simp] theorem Dev.take_out (r : Nat) (c : W32) : (d.take r c).out = d.out := by
  unfold Dev.take; try dsimp only
  (repeat' split) <;> simp

/-! ## finishOp -/

@[simp] theorem Dev.finishOp_now (r : Nat) (c : W32) (x : Result) : (d.finishOp r c x).now = d.now := by
  simp [Dev.finishOp]
@[simp] theorem Dev.finishOp_skew (r : Nat) (c : W32) (x : Result) : (d.finishOp r c x).skew = d.skew := by
  simp [Dev.finishOp]
@[simp] theorem Dev.finishOp_power (r : Nat) (c : W32) (x : Result) : (d.finishOp r c x).power = d.power := by
  simp [Dev.finishOp]
@[simp] theorem Dev.finishOp_dies (r : Nat) (c : W32) (x : Result) : (d.finishOp r c x).dies = d.dies := by
  simp [Dev.finishOp]
@[simp] theorem Dev.finishOp_cap (r : Nat) (c : W32) (x : Result) : (d.finishOp r c x).cap = d.cap := by
  simp [Dev.finishOp]
@[simp] theorem Dev.finishOp_host (r : Nat) (c : W32) (x : Result) : (d.finishOp r c x).host = d.host := by
  simp [Dev.finishOp]
@[simp] theorem Dev.finishOp_blocks (r : Nat) (c : W32) (x : Result) : (d.finishOp r c x).blocks = d.blocks := by
  simp [Dev.finishOp]
@[simp] theorem Dev.finishOp_ringSel (r : Nat) (c : W32) (x : Result) : (d.finishOp r c x).ringSel = d.ringSel := by
  simp [Dev.finishOp]
@[simp] theorem Dev.finishOp_epochClaim (r : Nat) (c : W32) (x : Result) : (d.finishOp r c x).epochClaim = d.epochClaim := by
  simp [Dev.finishOp]
@[simp] theorem Dev.finishOp_epochSlot (r : Nat) (c : W32) (x : Result) : (d.finishOp r c x).epochSlot = d.epochSlot := by
  simp [Dev.finishOp]
@[simp] theorem Dev.finishOp_tallies (r : Nat) (c : W32) (x : Result) : (d.finishOp r c x).tallies = d.tallies := by
  simp [Dev.finishOp]
@[simp] theorem Dev.finishOp_claims (r : Nat) (c : W32) (x : Result) : (d.finishOp r c x).claims = d.claims := by
  simp [Dev.finishOp]
@[simp] theorem Dev.finishOp_frames (r : Nat) (c : W32) (x : Result) : (d.finishOp r c x).frames = d.frames := by
  simp [Dev.finishOp]
@[simp] theorem Dev.finishOp_objects (r : Nat) (c : W32) (x : Result) : (d.finishOp r c x).objects = d.objects := by
  simp [Dev.finishOp]
@[simp] theorem Dev.finishOp_hoist (r : Nat) (c : W32) (x : Result) : (d.finishOp r c x).hoist = d.hoist := by
  simp [Dev.finishOp]
@[simp] theorem Dev.finishOp_health (r : Nat) (c : W32) (x : Result) : (d.finishOp r c x).health = d.health := by
  simp [Dev.finishOp]
@[simp] theorem Dev.finishOp_store (r : Nat) (c : W32) (x : Result) : (d.finishOp r c x).store = d.store := by
  simp [Dev.finishOp]
@[simp] theorem Dev.finishOp_mbx (r : Nat) (c : W32) (x : Result) : (d.finishOp r c x).mbx = d.mbx := by
  simp [Dev.finishOp]
@[simp] theorem Dev.finishOp_sec (r : Nat) (c : W32) (x : Result) : (d.finishOp r c x).sec = d.sec := by
  simp [Dev.finishOp]
@[simp] theorem Dev.finishOp_ports (r : Nat) (c : W32) (x : Result) : (d.finishOp r c x).ports = d.ports := by
  simp [Dev.finishOp]
@[simp] theorem Dev.finishOp_routing (r : Nat) (c : W32) (x : Result) : (d.finishOp r c x).routing = d.routing := by
  simp [Dev.finishOp]
@[simp] theorem Dev.finishOp_xbar (r : Nat) (c : W32) (x : Result) : (d.finishOp r c x).xbar = d.xbar := by
  simp [Dev.finishOp]
@[simp] theorem Dev.finishOp_coll (r : Nat) (c : W32) (x : Result) : (d.finishOp r c x).coll = d.coll := by
  simp [Dev.finishOp]
@[simp] theorem Dev.finishOp_time (r : Nat) (c : W32) (x : Result) : (d.finishOp r c x).time = d.time := by
  simp [Dev.finishOp]
@[simp] theorem Dev.finishOp_evt (r : Nat) (c : W32) (x : Result) : (d.finishOp r c x).evt = d.evt := by
  simp [Dev.finishOp]
@[simp] theorem Dev.finishOp_shuttle (r : Nat) (c : W32) (x : Result) : (d.finishOp r c x).shuttle = d.shuttle := by
  simp [Dev.finishOp]
@[simp] theorem Dev.finishOp_dozeAborted (r : Nat) (c : W32) (x : Result) : (d.finishOp r c x).dozeAborted = d.dozeAborted := by
  simp [Dev.finishOp]
@[simp] theorem Dev.finishOp_fixedBits (r : Nat) (c : W32) (x : Result) : (d.finishOp r c x).fixedBits = d.fixedBits := by
  simp [Dev.finishOp]
@[simp] theorem Dev.finishOp_fixedPace (r : Nat) (c : W32) (x : Result) : (d.finishOp r c x).fixedPace = d.fixedPace := by
  simp [Dev.finishOp]
@[simp] theorem Dev.finishOp_started (r : Nat) (c : W32) (x : Result) : (d.finishOp r c x).started = d.started := by
  simp [Dev.finishOp]
@[simp] theorem Dev.finishOp_capGen (r : Nat) (c : W32) (x : Result) : (d.finishOp r c x).capGen = d.capGen := by
  simp [Dev.finishOp]
@[simp] theorem Dev.finishOp_capFinal (r : Nat) (c : W32) (x : Result) : (d.finishOp r c x).capFinal = d.capFinal := by
  simp [Dev.finishOp]
@[simp] theorem Dev.finishOp_capTick (r : Nat) (c : W32) (x : Result) : (d.finishOp r c x).capTick = d.capTick := by
  simp [Dev.finishOp]
@[simp] theorem Dev.finishOp_draws (r : Nat) (c : W32) (x : Result) : (d.finishOp r c x).draws = d.draws := by
  simp [Dev.finishOp]
@[simp] theorem Dev.finishOp_out (r : Nat) (c : W32) (x : Result) : (d.finishOp r c x).out = d.out := by
  simp [Dev.finishOp]

/-! ## endOp -/

@[simp] theorem Dev.endOp_now (r : Nat) (e : Entry) (x : Result) (h : Nat) : (d.endOp r e x h).now = d.now := by
  simp [Dev.endOp]
@[simp] theorem Dev.endOp_skew (r : Nat) (e : Entry) (x : Result) (h : Nat) : (d.endOp r e x h).skew = d.skew := by
  simp [Dev.endOp]
@[simp] theorem Dev.endOp_power (r : Nat) (e : Entry) (x : Result) (h : Nat) : (d.endOp r e x h).power = d.power := by
  simp [Dev.endOp]
@[simp] theorem Dev.endOp_dies (r : Nat) (e : Entry) (x : Result) (h : Nat) : (d.endOp r e x h).dies = d.dies := by
  simp [Dev.endOp]
@[simp] theorem Dev.endOp_cap (r : Nat) (e : Entry) (x : Result) (h : Nat) : (d.endOp r e x h).cap = d.cap := by
  simp [Dev.endOp]
@[simp] theorem Dev.endOp_host (r : Nat) (e : Entry) (x : Result) (h : Nat) : (d.endOp r e x h).host = d.host := by
  simp [Dev.endOp]
@[simp] theorem Dev.endOp_blocks (r : Nat) (e : Entry) (x : Result) (h : Nat) : (d.endOp r e x h).blocks = d.blocks := by
  simp [Dev.endOp]
@[simp] theorem Dev.endOp_ringSel (r : Nat) (e : Entry) (x : Result) (h : Nat) : (d.endOp r e x h).ringSel = d.ringSel := by
  simp [Dev.endOp]
@[simp] theorem Dev.endOp_epochClaim (r : Nat) (e : Entry) (x : Result) (h : Nat) : (d.endOp r e x h).epochClaim = d.epochClaim := by
  simp [Dev.endOp]
@[simp] theorem Dev.endOp_epochSlot (r : Nat) (e : Entry) (x : Result) (h : Nat) : (d.endOp r e x h).epochSlot = d.epochSlot := by
  simp [Dev.endOp]
@[simp] theorem Dev.endOp_tallies (r : Nat) (e : Entry) (x : Result) (h : Nat) : (d.endOp r e x h).tallies = d.tallies := by
  simp [Dev.endOp]
@[simp] theorem Dev.endOp_frames (r : Nat) (e : Entry) (x : Result) (h : Nat) : (d.endOp r e x h).frames = d.frames := by
  simp [Dev.endOp]
@[simp] theorem Dev.endOp_objects (r : Nat) (e : Entry) (x : Result) (h : Nat) : (d.endOp r e x h).objects = d.objects := by
  simp [Dev.endOp]
@[simp] theorem Dev.endOp_hoist (r : Nat) (e : Entry) (x : Result) (h : Nat) : (d.endOp r e x h).hoist = d.hoist := by
  simp [Dev.endOp]
@[simp] theorem Dev.endOp_health (r : Nat) (e : Entry) (x : Result) (h : Nat) : (d.endOp r e x h).health = d.health := by
  simp [Dev.endOp]
@[simp] theorem Dev.endOp_store (r : Nat) (e : Entry) (x : Result) (h : Nat) : (d.endOp r e x h).store = d.store := by
  simp [Dev.endOp]
@[simp] theorem Dev.endOp_mbx (r : Nat) (e : Entry) (x : Result) (h : Nat) : (d.endOp r e x h).mbx = d.mbx := by
  simp [Dev.endOp]
@[simp] theorem Dev.endOp_sec (r : Nat) (e : Entry) (x : Result) (h : Nat) : (d.endOp r e x h).sec = d.sec := by
  simp [Dev.endOp]
@[simp] theorem Dev.endOp_ports (r : Nat) (e : Entry) (x : Result) (h : Nat) : (d.endOp r e x h).ports = d.ports := by
  simp [Dev.endOp]
@[simp] theorem Dev.endOp_routing (r : Nat) (e : Entry) (x : Result) (h : Nat) : (d.endOp r e x h).routing = d.routing := by
  simp [Dev.endOp]
@[simp] theorem Dev.endOp_xbar (r : Nat) (e : Entry) (x : Result) (h : Nat) : (d.endOp r e x h).xbar = d.xbar := by
  simp [Dev.endOp]
@[simp] theorem Dev.endOp_coll (r : Nat) (e : Entry) (x : Result) (h : Nat) : (d.endOp r e x h).coll = d.coll := by
  simp [Dev.endOp]
@[simp] theorem Dev.endOp_time (r : Nat) (e : Entry) (x : Result) (h : Nat) : (d.endOp r e x h).time = d.time := by
  simp [Dev.endOp]
@[simp] theorem Dev.endOp_evt (r : Nat) (e : Entry) (x : Result) (h : Nat) : (d.endOp r e x h).evt = d.evt := by
  simp [Dev.endOp]
@[simp] theorem Dev.endOp_shuttle (r : Nat) (e : Entry) (x : Result) (h : Nat) : (d.endOp r e x h).shuttle = d.shuttle := by
  simp [Dev.endOp]
@[simp] theorem Dev.endOp_dozeAborted (r : Nat) (e : Entry) (x : Result) (h : Nat) : (d.endOp r e x h).dozeAborted = d.dozeAborted := by
  simp [Dev.endOp]
@[simp] theorem Dev.endOp_fixedBits (r : Nat) (e : Entry) (x : Result) (h : Nat) : (d.endOp r e x h).fixedBits = d.fixedBits := by
  simp [Dev.endOp]
@[simp] theorem Dev.endOp_fixedPace (r : Nat) (e : Entry) (x : Result) (h : Nat) : (d.endOp r e x h).fixedPace = d.fixedPace := by
  simp [Dev.endOp]
@[simp] theorem Dev.endOp_started (r : Nat) (e : Entry) (x : Result) (h : Nat) : (d.endOp r e x h).started = d.started := by
  simp [Dev.endOp]
@[simp] theorem Dev.endOp_capGen (r : Nat) (e : Entry) (x : Result) (h : Nat) : (d.endOp r e x h).capGen = d.capGen := by
  simp [Dev.endOp]
@[simp] theorem Dev.endOp_capFinal (r : Nat) (e : Entry) (x : Result) (h : Nat) : (d.endOp r e x h).capFinal = d.capFinal := by
  simp [Dev.endOp]
@[simp] theorem Dev.endOp_capTick (r : Nat) (e : Entry) (x : Result) (h : Nat) : (d.endOp r e x h).capTick = d.capTick := by
  simp [Dev.endOp]
@[simp] theorem Dev.endOp_draws (r : Nat) (e : Entry) (x : Result) (h : Nat) : (d.endOp r e x h).draws = d.draws := by
  simp [Dev.endOp]
@[simp] theorem Dev.endOp_out (r : Nat) (e : Entry) (x : Result) (h : Nat) : (d.endOp r e x h).out = d.out := by
  simp [Dev.endOp]

/-! ## cancelUnstarted -/

@[simp] theorem Dev.cancelUnstarted_now (r : Nat) : (d.cancelUnstarted r).now = d.now := by
  unfold Dev.cancelUnstarted; dsimp only
  rw [Dev.modRing_now]
  refine (foldl_keep Dev.now _ (fun a c => ?_) _ _).trans (by simp)
  split
  · rename_i e _ _
    cases e.total with
    | some t => exact (Dev.modEntry_now _ _ _ _).trans (Dev.leaveTallies_now _ _ _)
    | none => exact (Dev.modEntry_now _ _ _ _).trans ((Dev.headerSignal_now _ _ _ _).trans (Dev.leaveTallies_now _ _ _))
  · simp
  · rfl
@[simp] theorem Dev.cancelUnstarted_skew (r : Nat) : (d.cancelUnstarted r).skew = d.skew := by
  unfold Dev.cancelUnstarted; dsimp only
  rw [Dev.modRing_skew]
  refine (foldl_keep Dev.skew _ (fun a c => ?_) _ _).trans (by simp)
  split
  · rename_i e _ _
    cases e.total with
    | some t => exact (Dev.modEntry_skew _ _ _ _).trans (Dev.leaveTallies_skew _ _ _)
    | none => exact (Dev.modEntry_skew _ _ _ _).trans ((Dev.headerSignal_skew _ _ _ _).trans (Dev.leaveTallies_skew _ _ _))
  · simp
  · rfl
@[simp] theorem Dev.cancelUnstarted_power (r : Nat) : (d.cancelUnstarted r).power = d.power := by
  unfold Dev.cancelUnstarted; dsimp only
  rw [Dev.modRing_power]
  refine (foldl_keep Dev.power _ (fun a c => ?_) _ _).trans (by simp)
  split
  · rename_i e _ _
    cases e.total with
    | some t => exact (Dev.modEntry_power _ _ _ _).trans (Dev.leaveTallies_power _ _ _)
    | none => exact (Dev.modEntry_power _ _ _ _).trans ((Dev.headerSignal_power _ _ _ _).trans (Dev.leaveTallies_power _ _ _))
  · simp
  · rfl
@[simp] theorem Dev.cancelUnstarted_dies (r : Nat) : (d.cancelUnstarted r).dies = d.dies := by
  unfold Dev.cancelUnstarted; dsimp only
  rw [Dev.modRing_dies]
  refine (foldl_keep Dev.dies _ (fun a c => ?_) _ _).trans (by simp)
  split
  · rename_i e _ _
    cases e.total with
    | some t => exact (Dev.modEntry_dies _ _ _ _).trans (Dev.leaveTallies_dies _ _ _)
    | none => exact (Dev.modEntry_dies _ _ _ _).trans ((Dev.headerSignal_dies _ _ _ _).trans (Dev.leaveTallies_dies _ _ _))
  · simp
  · rfl
@[simp] theorem Dev.cancelUnstarted_cap (r : Nat) : (d.cancelUnstarted r).cap = d.cap := by
  unfold Dev.cancelUnstarted; dsimp only
  rw [Dev.modRing_cap]
  refine (foldl_keep Dev.cap _ (fun a c => ?_) _ _).trans (by simp)
  split
  · rename_i e _ _
    cases e.total with
    | some t => exact (Dev.modEntry_cap _ _ _ _).trans (Dev.leaveTallies_cap _ _ _)
    | none => exact (Dev.modEntry_cap _ _ _ _).trans ((Dev.headerSignal_cap _ _ _ _).trans (Dev.leaveTallies_cap _ _ _))
  · simp
  · rfl
@[simp] theorem Dev.cancelUnstarted_host (r : Nat) : (d.cancelUnstarted r).host = d.host := by
  unfold Dev.cancelUnstarted; dsimp only
  rw [Dev.modRing_host]
  refine (foldl_keep Dev.host _ (fun a c => ?_) _ _).trans (by simp)
  split
  · rename_i e _ _
    cases e.total with
    | some t => exact (Dev.modEntry_host _ _ _ _).trans (Dev.leaveTallies_host _ _ _)
    | none => exact (Dev.modEntry_host _ _ _ _).trans ((Dev.headerSignal_host _ _ _ _).trans (Dev.leaveTallies_host _ _ _))
  · simp
  · rfl
@[simp] theorem Dev.cancelUnstarted_blocks (r : Nat) : (d.cancelUnstarted r).blocks = d.blocks := by
  unfold Dev.cancelUnstarted; dsimp only
  rw [Dev.modRing_blocks]
  refine (foldl_keep Dev.blocks _ (fun a c => ?_) _ _).trans (by simp)
  split
  · rename_i e _ _
    cases e.total with
    | some t => exact (Dev.modEntry_blocks _ _ _ _).trans (Dev.leaveTallies_blocks _ _ _)
    | none => exact (Dev.modEntry_blocks _ _ _ _).trans ((Dev.headerSignal_blocks _ _ _ _).trans (Dev.leaveTallies_blocks _ _ _))
  · simp
  · rfl
@[simp] theorem Dev.cancelUnstarted_ringSel (r : Nat) : (d.cancelUnstarted r).ringSel = d.ringSel := by
  unfold Dev.cancelUnstarted; dsimp only
  rw [Dev.modRing_ringSel]
  refine (foldl_keep Dev.ringSel _ (fun a c => ?_) _ _).trans (by simp)
  split
  · rename_i e _ _
    cases e.total with
    | some t => exact (Dev.modEntry_ringSel _ _ _ _).trans (Dev.leaveTallies_ringSel _ _ _)
    | none => exact (Dev.modEntry_ringSel _ _ _ _).trans ((Dev.headerSignal_ringSel _ _ _ _).trans (Dev.leaveTallies_ringSel _ _ _))
  · simp
  · rfl
@[simp] theorem Dev.cancelUnstarted_epochClaim (r : Nat) : (d.cancelUnstarted r).epochClaim = d.epochClaim := by
  unfold Dev.cancelUnstarted; dsimp only
  rw [Dev.modRing_epochClaim]
  refine (foldl_keep Dev.epochClaim _ (fun a c => ?_) _ _).trans (by simp)
  split
  · rename_i e _ _
    cases e.total with
    | some t => exact (Dev.modEntry_epochClaim _ _ _ _).trans (Dev.leaveTallies_epochClaim _ _ _)
    | none => exact (Dev.modEntry_epochClaim _ _ _ _).trans ((Dev.headerSignal_epochClaim _ _ _ _).trans (Dev.leaveTallies_epochClaim _ _ _))
  · simp
  · rfl
@[simp] theorem Dev.cancelUnstarted_epochSlot (r : Nat) : (d.cancelUnstarted r).epochSlot = d.epochSlot := by
  unfold Dev.cancelUnstarted; dsimp only
  rw [Dev.modRing_epochSlot]
  refine (foldl_keep Dev.epochSlot _ (fun a c => ?_) _ _).trans (by simp)
  split
  · rename_i e _ _
    cases e.total with
    | some t => exact (Dev.modEntry_epochSlot _ _ _ _).trans (Dev.leaveTallies_epochSlot _ _ _)
    | none => exact (Dev.modEntry_epochSlot _ _ _ _).trans ((Dev.headerSignal_epochSlot _ _ _ _).trans (Dev.leaveTallies_epochSlot _ _ _))
  · simp
  · rfl
@[simp] theorem Dev.cancelUnstarted_claims (r : Nat) : (d.cancelUnstarted r).claims = d.claims := by
  unfold Dev.cancelUnstarted; dsimp only
  rw [Dev.modRing_claims]
  refine (foldl_keep Dev.claims _ (fun a c => ?_) _ _).trans (by simp)
  split
  · rename_i e _ _
    cases e.total with
    | some t => exact (Dev.modEntry_claims _ _ _ _).trans (Dev.leaveTallies_claims _ _ _)
    | none => exact (Dev.modEntry_claims _ _ _ _).trans ((Dev.headerSignal_claims _ _ _ _).trans (Dev.leaveTallies_claims _ _ _))
  · simp
  · rfl
@[simp] theorem Dev.cancelUnstarted_frames (r : Nat) : (d.cancelUnstarted r).frames = d.frames := by
  unfold Dev.cancelUnstarted; dsimp only
  rw [Dev.modRing_frames]
  refine (foldl_keep Dev.frames _ (fun a c => ?_) _ _).trans (by simp)
  split
  · rename_i e _ _
    cases e.total with
    | some t => exact (Dev.modEntry_frames _ _ _ _).trans (Dev.leaveTallies_frames _ _ _)
    | none => exact (Dev.modEntry_frames _ _ _ _).trans ((Dev.headerSignal_frames _ _ _ _).trans (Dev.leaveTallies_frames _ _ _))
  · simp
  · rfl
@[simp] theorem Dev.cancelUnstarted_objects (r : Nat) : (d.cancelUnstarted r).objects = d.objects := by
  unfold Dev.cancelUnstarted; dsimp only
  rw [Dev.modRing_objects]
  refine (foldl_keep Dev.objects _ (fun a c => ?_) _ _).trans (by simp)
  split
  · rename_i e _ _
    cases e.total with
    | some t => exact (Dev.modEntry_objects _ _ _ _).trans (Dev.leaveTallies_objects _ _ _)
    | none => exact (Dev.modEntry_objects _ _ _ _).trans ((Dev.headerSignal_objects _ _ _ _).trans (Dev.leaveTallies_objects _ _ _))
  · simp
  · rfl
@[simp] theorem Dev.cancelUnstarted_hoist (r : Nat) : (d.cancelUnstarted r).hoist = d.hoist := by
  unfold Dev.cancelUnstarted; dsimp only
  rw [Dev.modRing_hoist]
  refine (foldl_keep Dev.hoist _ (fun a c => ?_) _ _).trans (by simp)
  split
  · rename_i e _ _
    cases e.total with
    | some t => exact (Dev.modEntry_hoist _ _ _ _).trans (Dev.leaveTallies_hoist _ _ _)
    | none => exact (Dev.modEntry_hoist _ _ _ _).trans ((Dev.headerSignal_hoist _ _ _ _).trans (Dev.leaveTallies_hoist _ _ _))
  · simp
  · rfl
@[simp] theorem Dev.cancelUnstarted_health (r : Nat) : (d.cancelUnstarted r).health = d.health := by
  unfold Dev.cancelUnstarted; dsimp only
  rw [Dev.modRing_health]
  refine (foldl_keep Dev.health _ (fun a c => ?_) _ _).trans (by simp)
  split
  · rename_i e _ _
    cases e.total with
    | some t => exact (Dev.modEntry_health _ _ _ _).trans (Dev.leaveTallies_health _ _ _)
    | none => exact (Dev.modEntry_health _ _ _ _).trans ((Dev.headerSignal_health _ _ _ _).trans (Dev.leaveTallies_health _ _ _))
  · simp
  · rfl
@[simp] theorem Dev.cancelUnstarted_store (r : Nat) : (d.cancelUnstarted r).store = d.store := by
  unfold Dev.cancelUnstarted; dsimp only
  rw [Dev.modRing_store]
  refine (foldl_keep Dev.store _ (fun a c => ?_) _ _).trans (by simp)
  split
  · rename_i e _ _
    cases e.total with
    | some t => exact (Dev.modEntry_store _ _ _ _).trans (Dev.leaveTallies_store _ _ _)
    | none => exact (Dev.modEntry_store _ _ _ _).trans ((Dev.headerSignal_store _ _ _ _).trans (Dev.leaveTallies_store _ _ _))
  · simp
  · rfl
@[simp] theorem Dev.cancelUnstarted_mbx (r : Nat) : (d.cancelUnstarted r).mbx = d.mbx := by
  unfold Dev.cancelUnstarted; dsimp only
  rw [Dev.modRing_mbx]
  refine (foldl_keep Dev.mbx _ (fun a c => ?_) _ _).trans (by simp)
  split
  · rename_i e _ _
    cases e.total with
    | some t => exact (Dev.modEntry_mbx _ _ _ _).trans (Dev.leaveTallies_mbx _ _ _)
    | none => exact (Dev.modEntry_mbx _ _ _ _).trans ((Dev.headerSignal_mbx _ _ _ _).trans (Dev.leaveTallies_mbx _ _ _))
  · simp
  · rfl
@[simp] theorem Dev.cancelUnstarted_sec (r : Nat) : (d.cancelUnstarted r).sec = d.sec := by
  unfold Dev.cancelUnstarted; dsimp only
  rw [Dev.modRing_sec]
  refine (foldl_keep Dev.sec _ (fun a c => ?_) _ _).trans (by simp)
  split
  · rename_i e _ _
    cases e.total with
    | some t => exact (Dev.modEntry_sec _ _ _ _).trans (Dev.leaveTallies_sec _ _ _)
    | none => exact (Dev.modEntry_sec _ _ _ _).trans ((Dev.headerSignal_sec _ _ _ _).trans (Dev.leaveTallies_sec _ _ _))
  · simp
  · rfl
@[simp] theorem Dev.cancelUnstarted_ports (r : Nat) : (d.cancelUnstarted r).ports = d.ports := by
  unfold Dev.cancelUnstarted; dsimp only
  rw [Dev.modRing_ports]
  refine (foldl_keep Dev.ports _ (fun a c => ?_) _ _).trans (by simp)
  split
  · rename_i e _ _
    cases e.total with
    | some t => exact (Dev.modEntry_ports _ _ _ _).trans (Dev.leaveTallies_ports _ _ _)
    | none => exact (Dev.modEntry_ports _ _ _ _).trans ((Dev.headerSignal_ports _ _ _ _).trans (Dev.leaveTallies_ports _ _ _))
  · simp
  · rfl
@[simp] theorem Dev.cancelUnstarted_routing (r : Nat) : (d.cancelUnstarted r).routing = d.routing := by
  unfold Dev.cancelUnstarted; dsimp only
  rw [Dev.modRing_routing]
  refine (foldl_keep Dev.routing _ (fun a c => ?_) _ _).trans (by simp)
  split
  · rename_i e _ _
    cases e.total with
    | some t => exact (Dev.modEntry_routing _ _ _ _).trans (Dev.leaveTallies_routing _ _ _)
    | none => exact (Dev.modEntry_routing _ _ _ _).trans ((Dev.headerSignal_routing _ _ _ _).trans (Dev.leaveTallies_routing _ _ _))
  · simp
  · rfl
@[simp] theorem Dev.cancelUnstarted_xbar (r : Nat) : (d.cancelUnstarted r).xbar = d.xbar := by
  unfold Dev.cancelUnstarted; dsimp only
  rw [Dev.modRing_xbar]
  refine (foldl_keep Dev.xbar _ (fun a c => ?_) _ _).trans (by simp)
  split
  · rename_i e _ _
    cases e.total with
    | some t => exact (Dev.modEntry_xbar _ _ _ _).trans (Dev.leaveTallies_xbar _ _ _)
    | none => exact (Dev.modEntry_xbar _ _ _ _).trans ((Dev.headerSignal_xbar _ _ _ _).trans (Dev.leaveTallies_xbar _ _ _))
  · simp
  · rfl
@[simp] theorem Dev.cancelUnstarted_coll (r : Nat) : (d.cancelUnstarted r).coll = d.coll := by
  unfold Dev.cancelUnstarted; dsimp only
  rw [Dev.modRing_coll]
  refine (foldl_keep Dev.coll _ (fun a c => ?_) _ _).trans (by simp)
  split
  · rename_i e _ _
    cases e.total with
    | some t => exact (Dev.modEntry_coll _ _ _ _).trans (Dev.leaveTallies_coll _ _ _)
    | none => exact (Dev.modEntry_coll _ _ _ _).trans ((Dev.headerSignal_coll _ _ _ _).trans (Dev.leaveTallies_coll _ _ _))
  · simp
  · rfl
@[simp] theorem Dev.cancelUnstarted_time (r : Nat) : (d.cancelUnstarted r).time = d.time := by
  unfold Dev.cancelUnstarted; dsimp only
  rw [Dev.modRing_time]
  refine (foldl_keep Dev.time _ (fun a c => ?_) _ _).trans (by simp)
  split
  · rename_i e _ _
    cases e.total with
    | some t => exact (Dev.modEntry_time _ _ _ _).trans (Dev.leaveTallies_time _ _ _)
    | none => exact (Dev.modEntry_time _ _ _ _).trans ((Dev.headerSignal_time _ _ _ _).trans (Dev.leaveTallies_time _ _ _))
  · simp
  · rfl
@[simp] theorem Dev.cancelUnstarted_evt (r : Nat) : (d.cancelUnstarted r).evt = d.evt := by
  unfold Dev.cancelUnstarted; dsimp only
  rw [Dev.modRing_evt]
  refine (foldl_keep Dev.evt _ (fun a c => ?_) _ _).trans (by simp)
  split
  · rename_i e _ _
    cases e.total with
    | some t => exact (Dev.modEntry_evt _ _ _ _).trans (Dev.leaveTallies_evt _ _ _)
    | none => exact (Dev.modEntry_evt _ _ _ _).trans ((Dev.headerSignal_evt _ _ _ _).trans (Dev.leaveTallies_evt _ _ _))
  · simp
  · rfl
@[simp] theorem Dev.cancelUnstarted_shuttle (r : Nat) : (d.cancelUnstarted r).shuttle = d.shuttle := by
  unfold Dev.cancelUnstarted; dsimp only
  rw [Dev.modRing_shuttle]
  refine (foldl_keep Dev.shuttle _ (fun a c => ?_) _ _).trans (by simp)
  split
  · rename_i e _ _
    cases e.total with
    | some t => exact (Dev.modEntry_shuttle _ _ _ _).trans (Dev.leaveTallies_shuttle _ _ _)
    | none => exact (Dev.modEntry_shuttle _ _ _ _).trans ((Dev.headerSignal_shuttle _ _ _ _).trans (Dev.leaveTallies_shuttle _ _ _))
  · simp
  · rfl
@[simp] theorem Dev.cancelUnstarted_dozeAborted (r : Nat) : (d.cancelUnstarted r).dozeAborted = d.dozeAborted := by
  unfold Dev.cancelUnstarted; dsimp only
  rw [Dev.modRing_dozeAborted]
  refine (foldl_keep Dev.dozeAborted _ (fun a c => ?_) _ _).trans (by simp)
  split
  · rename_i e _ _
    cases e.total with
    | some t => exact (Dev.modEntry_dozeAborted _ _ _ _).trans (Dev.leaveTallies_dozeAborted _ _ _)
    | none => exact (Dev.modEntry_dozeAborted _ _ _ _).trans ((Dev.headerSignal_dozeAborted _ _ _ _).trans (Dev.leaveTallies_dozeAborted _ _ _))
  · simp
  · rfl
@[simp] theorem Dev.cancelUnstarted_fixedBits (r : Nat) : (d.cancelUnstarted r).fixedBits = d.fixedBits := by
  unfold Dev.cancelUnstarted; dsimp only
  rw [Dev.modRing_fixedBits]
  refine (foldl_keep Dev.fixedBits _ (fun a c => ?_) _ _).trans (by simp)
  split
  · rename_i e _ _
    cases e.total with
    | some t => exact (Dev.modEntry_fixedBits _ _ _ _).trans (Dev.leaveTallies_fixedBits _ _ _)
    | none => exact (Dev.modEntry_fixedBits _ _ _ _).trans ((Dev.headerSignal_fixedBits _ _ _ _).trans (Dev.leaveTallies_fixedBits _ _ _))
  · simp
  · rfl
@[simp] theorem Dev.cancelUnstarted_fixedPace (r : Nat) : (d.cancelUnstarted r).fixedPace = d.fixedPace := by
  unfold Dev.cancelUnstarted; dsimp only
  rw [Dev.modRing_fixedPace]
  refine (foldl_keep Dev.fixedPace _ (fun a c => ?_) _ _).trans (by simp)
  split
  · rename_i e _ _
    cases e.total with
    | some t => exact (Dev.modEntry_fixedPace _ _ _ _).trans (Dev.leaveTallies_fixedPace _ _ _)
    | none => exact (Dev.modEntry_fixedPace _ _ _ _).trans ((Dev.headerSignal_fixedPace _ _ _ _).trans (Dev.leaveTallies_fixedPace _ _ _))
  · simp
  · rfl
@[simp] theorem Dev.cancelUnstarted_started (r : Nat) : (d.cancelUnstarted r).started = d.started := by
  unfold Dev.cancelUnstarted; dsimp only
  rw [Dev.modRing_started]
  refine (foldl_keep Dev.started _ (fun a c => ?_) _ _).trans (by simp)
  split
  · rename_i e _ _
    cases e.total with
    | some t => exact (Dev.modEntry_started _ _ _ _).trans (Dev.leaveTallies_started _ _ _)
    | none => exact (Dev.modEntry_started _ _ _ _).trans ((Dev.headerSignal_started _ _ _ _).trans (Dev.leaveTallies_started _ _ _))
  · simp
  · rfl
@[simp] theorem Dev.cancelUnstarted_turns (r : Nat) : (d.cancelUnstarted r).turns = d.turns := by
  unfold Dev.cancelUnstarted; dsimp only
  rw [Dev.modRing_turns]
  refine (foldl_keep Dev.turns _ (fun a c => ?_) _ _).trans (by simp)
  split
  · rename_i e _ _
    cases e.total with
    | some t => exact (Dev.modEntry_turns _ _ _ _).trans (Dev.leaveTallies_turns _ _ _)
    | none => exact (Dev.modEntry_turns _ _ _ _).trans ((Dev.headerSignal_turns _ _ _ _).trans (Dev.leaveTallies_turns _ _ _))
  · simp
  · rfl
@[simp] theorem Dev.cancelUnstarted_capGen (r : Nat) : (d.cancelUnstarted r).capGen = d.capGen := by
  unfold Dev.cancelUnstarted; dsimp only
  rw [Dev.modRing_capGen]
  refine (foldl_keep Dev.capGen _ (fun a c => ?_) _ _).trans (by simp)
  split
  · rename_i e _ _
    cases e.total with
    | some t => exact (Dev.modEntry_capGen _ _ _ _).trans (Dev.leaveTallies_capGen _ _ _)
    | none => exact (Dev.modEntry_capGen _ _ _ _).trans ((Dev.headerSignal_capGen _ _ _ _).trans (Dev.leaveTallies_capGen _ _ _))
  · simp
  · rfl
@[simp] theorem Dev.cancelUnstarted_capFinal (r : Nat) : (d.cancelUnstarted r).capFinal = d.capFinal := by
  unfold Dev.cancelUnstarted; dsimp only
  rw [Dev.modRing_capFinal]
  refine (foldl_keep Dev.capFinal _ (fun a c => ?_) _ _).trans (by simp)
  split
  · rename_i e _ _
    cases e.total with
    | some t => exact (Dev.modEntry_capFinal _ _ _ _).trans (Dev.leaveTallies_capFinal _ _ _)
    | none => exact (Dev.modEntry_capFinal _ _ _ _).trans ((Dev.headerSignal_capFinal _ _ _ _).trans (Dev.leaveTallies_capFinal _ _ _))
  · simp
  · rfl
@[simp] theorem Dev.cancelUnstarted_capTick (r : Nat) : (d.cancelUnstarted r).capTick = d.capTick := by
  unfold Dev.cancelUnstarted; dsimp only
  rw [Dev.modRing_capTick]
  refine (foldl_keep Dev.capTick _ (fun a c => ?_) _ _).trans (by simp)
  split
  · rename_i e _ _
    cases e.total with
    | some t => exact (Dev.modEntry_capTick _ _ _ _).trans (Dev.leaveTallies_capTick _ _ _)
    | none => exact (Dev.modEntry_capTick _ _ _ _).trans ((Dev.headerSignal_capTick _ _ _ _).trans (Dev.leaveTallies_capTick _ _ _))
  · simp
  · rfl
@[simp] theorem Dev.cancelUnstarted_draws (r : Nat) : (d.cancelUnstarted r).draws = d.draws := by
  unfold Dev.cancelUnstarted; dsimp only
  rw [Dev.modRing_draws]
  refine (foldl_keep Dev.draws _ (fun a c => ?_) _ _).trans (by simp)
  split
  · rename_i e _ _
    cases e.total with
    | some t => exact (Dev.modEntry_draws _ _ _ _).trans (Dev.leaveTallies_draws _ _ _)
    | none => exact (Dev.modEntry_draws _ _ _ _).trans ((Dev.headerSignal_draws _ _ _ _).trans (Dev.leaveTallies_draws _ _ _))
  · simp
  · rfl
@[simp] theorem Dev.cancelUnstarted_out (r : Nat) : (d.cancelUnstarted r).out = d.out := by
  unfold Dev.cancelUnstarted; dsimp only
  rw [Dev.modRing_out]
  refine (foldl_keep Dev.out _ (fun a c => ?_) _ _).trans (by simp)
  split
  · rename_i e _ _
    cases e.total with
    | some t => exact (Dev.modEntry_out _ _ _ _).trans (Dev.leaveTallies_out _ _ _)
    | none => exact (Dev.modEntry_out _ _ _ _).trans ((Dev.headerSignal_out _ _ _ _).trans (Dev.leaveTallies_out _ _ _))
  · simp
  · rfl

/-! ## stopRing -/

@[simp] theorem Dev.stopRing_now (r : Nat) (c : BitVec 16) : (d.stopRing r c).now = d.now := by
  unfold Dev.stopRing; try dsimp only
  (repeat' split) <;> simp
@[simp] theorem Dev.stopRing_skew (r : Nat) (c : BitVec 16) : (d.stopRing r c).skew = d.skew := by
  unfold Dev.stopRing; try dsimp only
  (repeat' split) <;> simp
@[simp] theorem Dev.stopRing_power (r : Nat) (c : BitVec 16) : (d.stopRing r c).power = d.power := by
  unfold Dev.stopRing; try dsimp only
  (repeat' split) <;> simp
@[simp] theorem Dev.stopRing_dies (r : Nat) (c : BitVec 16) : (d.stopRing r c).dies = d.dies := by
  unfold Dev.stopRing; try dsimp only
  (repeat' split) <;> simp
@[simp] theorem Dev.stopRing_cap (r : Nat) (c : BitVec 16) : (d.stopRing r c).cap = d.cap := by
  unfold Dev.stopRing; try dsimp only
  (repeat' split) <;> simp
@[simp] theorem Dev.stopRing_ringSel (r : Nat) (c : BitVec 16) : (d.stopRing r c).ringSel = d.ringSel := by
  unfold Dev.stopRing; try dsimp only
  (repeat' split) <;> simp
@[simp] theorem Dev.stopRing_epochClaim (r : Nat) (c : BitVec 16) : (d.stopRing r c).epochClaim = d.epochClaim := by
  unfold Dev.stopRing; try dsimp only
  (repeat' split) <;> simp
@[simp] theorem Dev.stopRing_epochSlot (r : Nat) (c : BitVec 16) : (d.stopRing r c).epochSlot = d.epochSlot := by
  unfold Dev.stopRing; try dsimp only
  (repeat' split) <;> simp
@[simp] theorem Dev.stopRing_claims (r : Nat) (c : BitVec 16) : (d.stopRing r c).claims = d.claims := by
  unfold Dev.stopRing; try dsimp only
  (repeat' split) <;> simp
@[simp] theorem Dev.stopRing_frames (r : Nat) (c : BitVec 16) : (d.stopRing r c).frames = d.frames := by
  unfold Dev.stopRing; try dsimp only
  (repeat' split) <;> simp
@[simp] theorem Dev.stopRing_objects (r : Nat) (c : BitVec 16) : (d.stopRing r c).objects = d.objects := by
  unfold Dev.stopRing; try dsimp only
  (repeat' split) <;> simp
@[simp] theorem Dev.stopRing_hoist (r : Nat) (c : BitVec 16) : (d.stopRing r c).hoist = d.hoist := by
  unfold Dev.stopRing; try dsimp only
  (repeat' split) <;> simp
@[simp] theorem Dev.stopRing_store (r : Nat) (c : BitVec 16) : (d.stopRing r c).store = d.store := by
  unfold Dev.stopRing; try dsimp only
  (repeat' split) <;> simp
@[simp] theorem Dev.stopRing_mbx (r : Nat) (c : BitVec 16) : (d.stopRing r c).mbx = d.mbx := by
  unfold Dev.stopRing; try dsimp only
  (repeat' split) <;> simp
@[simp] theorem Dev.stopRing_sec (r : Nat) (c : BitVec 16) : (d.stopRing r c).sec = d.sec := by
  unfold Dev.stopRing; try dsimp only
  (repeat' split) <;> simp
@[simp] theorem Dev.stopRing_ports (r : Nat) (c : BitVec 16) : (d.stopRing r c).ports = d.ports := by
  unfold Dev.stopRing; try dsimp only
  (repeat' split) <;> simp
@[simp] theorem Dev.stopRing_routing (r : Nat) (c : BitVec 16) : (d.stopRing r c).routing = d.routing := by
  unfold Dev.stopRing; try dsimp only
  (repeat' split) <;> simp
@[simp] theorem Dev.stopRing_xbar (r : Nat) (c : BitVec 16) : (d.stopRing r c).xbar = d.xbar := by
  unfold Dev.stopRing; try dsimp only
  (repeat' split) <;> simp
@[simp] theorem Dev.stopRing_coll (r : Nat) (c : BitVec 16) : (d.stopRing r c).coll = d.coll := by
  unfold Dev.stopRing; try dsimp only
  (repeat' split) <;> simp
@[simp] theorem Dev.stopRing_time (r : Nat) (c : BitVec 16) : (d.stopRing r c).time = d.time := by
  unfold Dev.stopRing; try dsimp only
  (repeat' split) <;> simp
@[simp] theorem Dev.stopRing_evt (r : Nat) (c : BitVec 16) : (d.stopRing r c).evt = d.evt := by
  unfold Dev.stopRing; try dsimp only
  (repeat' split) <;> simp
@[simp] theorem Dev.stopRing_shuttle (r : Nat) (c : BitVec 16) : (d.stopRing r c).shuttle = d.shuttle := by
  unfold Dev.stopRing; try dsimp only
  (repeat' split) <;> simp
@[simp] theorem Dev.stopRing_dozeAborted (r : Nat) (c : BitVec 16) : (d.stopRing r c).dozeAborted = d.dozeAborted := by
  unfold Dev.stopRing; try dsimp only
  (repeat' split) <;> simp
@[simp] theorem Dev.stopRing_fixedBits (r : Nat) (c : BitVec 16) : (d.stopRing r c).fixedBits = d.fixedBits := by
  unfold Dev.stopRing; try dsimp only
  (repeat' split) <;> simp
@[simp] theorem Dev.stopRing_fixedPace (r : Nat) (c : BitVec 16) : (d.stopRing r c).fixedPace = d.fixedPace := by
  unfold Dev.stopRing; try dsimp only
  (repeat' split) <;> simp
@[simp] theorem Dev.stopRing_started (r : Nat) (c : BitVec 16) : (d.stopRing r c).started = d.started := by
  unfold Dev.stopRing; try dsimp only
  (repeat' split) <;> simp
@[simp] theorem Dev.stopRing_turns (r : Nat) (c : BitVec 16) : (d.stopRing r c).turns = d.turns := by
  unfold Dev.stopRing; try dsimp only
  (repeat' split) <;> simp
@[simp] theorem Dev.stopRing_capGen (r : Nat) (c : BitVec 16) : (d.stopRing r c).capGen = d.capGen := by
  unfold Dev.stopRing; try dsimp only
  (repeat' split) <;> simp
@[simp] theorem Dev.stopRing_capFinal (r : Nat) (c : BitVec 16) : (d.stopRing r c).capFinal = d.capFinal := by
  unfold Dev.stopRing; try dsimp only
  (repeat' split) <;> simp
@[simp] theorem Dev.stopRing_capTick (r : Nat) (c : BitVec 16) : (d.stopRing r c).capTick = d.capTick := by
  unfold Dev.stopRing; try dsimp only
  (repeat' split) <;> simp
@[simp] theorem Dev.stopRing_draws (r : Nat) (c : BitVec 16) : (d.stopRing r c).draws = d.draws := by
  unfold Dev.stopRing; try dsimp only
  (repeat' split) <;> simp

/-! ## raiseRing -/

@[simp] theorem Dev.raiseRing_now (r : Nat) : (d.raiseRing r).now = d.now := by
  simp [Dev.raiseRing]
@[simp] theorem Dev.raiseRing_skew (r : Nat) : (d.raiseRing r).skew = d.skew := by
  simp [Dev.raiseRing]
@[simp] theorem Dev.raiseRing_power (r : Nat) : (d.raiseRing r).power = d.power := by
  simp [Dev.raiseRing]
@[simp] theorem Dev.raiseRing_dies (r : Nat) : (d.raiseRing r).dies = d.dies := by
  simp [Dev.raiseRing]
@[simp] theorem Dev.raiseRing_cap (r : Nat) : (d.raiseRing r).cap = d.cap := by
  simp [Dev.raiseRing]
@[simp] theorem Dev.raiseRing_blocks (r : Nat) : (d.raiseRing r).blocks = d.blocks := by
  simp [Dev.raiseRing]
@[simp] theorem Dev.raiseRing_ringSel (r : Nat) : (d.raiseRing r).ringSel = d.ringSel := by
  simp [Dev.raiseRing]
@[simp] theorem Dev.raiseRing_epochClaim (r : Nat) : (d.raiseRing r).epochClaim = d.epochClaim := by
  simp [Dev.raiseRing]
@[simp] theorem Dev.raiseRing_epochSlot (r : Nat) : (d.raiseRing r).epochSlot = d.epochSlot := by
  simp [Dev.raiseRing]
@[simp] theorem Dev.raiseRing_tallies (r : Nat) : (d.raiseRing r).tallies = d.tallies := by
  simp [Dev.raiseRing]
@[simp] theorem Dev.raiseRing_claims (r : Nat) : (d.raiseRing r).claims = d.claims := by
  simp [Dev.raiseRing]
@[simp] theorem Dev.raiseRing_frames (r : Nat) : (d.raiseRing r).frames = d.frames := by
  simp [Dev.raiseRing]
@[simp] theorem Dev.raiseRing_objects (r : Nat) : (d.raiseRing r).objects = d.objects := by
  simp [Dev.raiseRing]
@[simp] theorem Dev.raiseRing_hoist (r : Nat) : (d.raiseRing r).hoist = d.hoist := by
  simp [Dev.raiseRing]
@[simp] theorem Dev.raiseRing_health (r : Nat) : (d.raiseRing r).health = d.health := by
  simp [Dev.raiseRing]
@[simp] theorem Dev.raiseRing_store (r : Nat) : (d.raiseRing r).store = d.store := by
  simp [Dev.raiseRing]
@[simp] theorem Dev.raiseRing_mbx (r : Nat) : (d.raiseRing r).mbx = d.mbx := by
  simp [Dev.raiseRing]
@[simp] theorem Dev.raiseRing_sec (r : Nat) : (d.raiseRing r).sec = d.sec := by
  simp [Dev.raiseRing]
@[simp] theorem Dev.raiseRing_ports (r : Nat) : (d.raiseRing r).ports = d.ports := by
  simp [Dev.raiseRing]
@[simp] theorem Dev.raiseRing_routing (r : Nat) : (d.raiseRing r).routing = d.routing := by
  simp [Dev.raiseRing]
@[simp] theorem Dev.raiseRing_xbar (r : Nat) : (d.raiseRing r).xbar = d.xbar := by
  simp [Dev.raiseRing]
@[simp] theorem Dev.raiseRing_coll (r : Nat) : (d.raiseRing r).coll = d.coll := by
  simp [Dev.raiseRing]
@[simp] theorem Dev.raiseRing_time (r : Nat) : (d.raiseRing r).time = d.time := by
  simp [Dev.raiseRing]
@[simp] theorem Dev.raiseRing_evt (r : Nat) : (d.raiseRing r).evt = d.evt := by
  simp [Dev.raiseRing]
@[simp] theorem Dev.raiseRing_shuttle (r : Nat) : (d.raiseRing r).shuttle = d.shuttle := by
  simp [Dev.raiseRing]
@[simp] theorem Dev.raiseRing_dozeAborted (r : Nat) : (d.raiseRing r).dozeAborted = d.dozeAborted := by
  simp [Dev.raiseRing]
@[simp] theorem Dev.raiseRing_fixedBits (r : Nat) : (d.raiseRing r).fixedBits = d.fixedBits := by
  simp [Dev.raiseRing]
@[simp] theorem Dev.raiseRing_fixedPace (r : Nat) : (d.raiseRing r).fixedPace = d.fixedPace := by
  simp [Dev.raiseRing]
@[simp] theorem Dev.raiseRing_started (r : Nat) : (d.raiseRing r).started = d.started := by
  simp [Dev.raiseRing]
@[simp] theorem Dev.raiseRing_turns (r : Nat) : (d.raiseRing r).turns = d.turns := by
  simp [Dev.raiseRing]
@[simp] theorem Dev.raiseRing_capGen (r : Nat) : (d.raiseRing r).capGen = d.capGen := by
  simp [Dev.raiseRing]
@[simp] theorem Dev.raiseRing_capFinal (r : Nat) : (d.raiseRing r).capFinal = d.capFinal := by
  simp [Dev.raiseRing]
@[simp] theorem Dev.raiseRing_capTick (r : Nat) : (d.raiseRing r).capTick = d.capTick := by
  simp [Dev.raiseRing]
@[simp] theorem Dev.raiseRing_draws (r : Nat) : (d.raiseRing r).draws = d.draws := by
  simp [Dev.raiseRing]

/-! ## postRecord -/

@[simp] theorem Dev.postRecord_now (r : Nat) : (d.postRecord r).now = d.now := by
  unfold Dev.postRecord; try dsimp only
  (repeat' split) <;> simp
@[simp] theorem Dev.postRecord_skew (r : Nat) : (d.postRecord r).skew = d.skew := by
  unfold Dev.postRecord; try dsimp only
  (repeat' split) <;> simp
@[simp] theorem Dev.postRecord_power (r : Nat) : (d.postRecord r).power = d.power := by
  unfold Dev.postRecord; try dsimp only
  (repeat' split) <;> simp
@[simp] theorem Dev.postRecord_dies (r : Nat) : (d.postRecord r).dies = d.dies := by
  unfold Dev.postRecord; try dsimp only
  (repeat' split) <;> simp
@[simp] theorem Dev.postRecord_cap (r : Nat) : (d.postRecord r).cap = d.cap := by
  unfold Dev.postRecord; try dsimp only
  (repeat' split) <;> simp
@[simp] theorem Dev.postRecord_ringSel (r : Nat) : (d.postRecord r).ringSel = d.ringSel := by
  unfold Dev.postRecord; try dsimp only
  (repeat' split) <;> simp
@[simp] theorem Dev.postRecord_epochClaim (r : Nat) : (d.postRecord r).epochClaim = d.epochClaim := by
  unfold Dev.postRecord; try dsimp only
  (repeat' split) <;> simp
@[simp] theorem Dev.postRecord_epochSlot (r : Nat) : (d.postRecord r).epochSlot = d.epochSlot := by
  unfold Dev.postRecord; try dsimp only
  (repeat' split) <;> simp
@[simp] theorem Dev.postRecord_claims (r : Nat) : (d.postRecord r).claims = d.claims := by
  unfold Dev.postRecord; try dsimp only
  (repeat' split) <;> simp
@[simp] theorem Dev.postRecord_frames (r : Nat) : (d.postRecord r).frames = d.frames := by
  unfold Dev.postRecord; try dsimp only
  (repeat' split) <;> simp
@[simp] theorem Dev.postRecord_objects (r : Nat) : (d.postRecord r).objects = d.objects := by
  unfold Dev.postRecord; try dsimp only
  (repeat' split) <;> simp
@[simp] theorem Dev.postRecord_hoist (r : Nat) : (d.postRecord r).hoist = d.hoist := by
  unfold Dev.postRecord; try dsimp only
  (repeat' split) <;> simp
@[simp] theorem Dev.postRecord_store (r : Nat) : (d.postRecord r).store = d.store := by
  unfold Dev.postRecord; try dsimp only
  (repeat' split) <;> simp
@[simp] theorem Dev.postRecord_mbx (r : Nat) : (d.postRecord r).mbx = d.mbx := by
  unfold Dev.postRecord; try dsimp only
  (repeat' split) <;> simp
@[simp] theorem Dev.postRecord_sec (r : Nat) : (d.postRecord r).sec = d.sec := by
  unfold Dev.postRecord; try dsimp only
  (repeat' split) <;> simp
@[simp] theorem Dev.postRecord_ports (r : Nat) : (d.postRecord r).ports = d.ports := by
  unfold Dev.postRecord; try dsimp only
  (repeat' split) <;> simp
@[simp] theorem Dev.postRecord_routing (r : Nat) : (d.postRecord r).routing = d.routing := by
  unfold Dev.postRecord; try dsimp only
  (repeat' split) <;> simp
@[simp] theorem Dev.postRecord_xbar (r : Nat) : (d.postRecord r).xbar = d.xbar := by
  unfold Dev.postRecord; try dsimp only
  (repeat' split) <;> simp
@[simp] theorem Dev.postRecord_coll (r : Nat) : (d.postRecord r).coll = d.coll := by
  unfold Dev.postRecord; try dsimp only
  (repeat' split) <;> simp
@[simp] theorem Dev.postRecord_time (r : Nat) : (d.postRecord r).time = d.time := by
  unfold Dev.postRecord; try dsimp only
  (repeat' split) <;> simp
@[simp] theorem Dev.postRecord_evt (r : Nat) : (d.postRecord r).evt = d.evt := by
  unfold Dev.postRecord; try dsimp only
  (repeat' split) <;> simp
@[simp] theorem Dev.postRecord_shuttle (r : Nat) : (d.postRecord r).shuttle = d.shuttle := by
  unfold Dev.postRecord; try dsimp only
  (repeat' split) <;> simp
@[simp] theorem Dev.postRecord_dozeAborted (r : Nat) : (d.postRecord r).dozeAborted = d.dozeAborted := by
  unfold Dev.postRecord; try dsimp only
  (repeat' split) <;> simp
@[simp] theorem Dev.postRecord_fixedBits (r : Nat) : (d.postRecord r).fixedBits = d.fixedBits := by
  unfold Dev.postRecord; try dsimp only
  (repeat' split) <;> simp
@[simp] theorem Dev.postRecord_fixedPace (r : Nat) : (d.postRecord r).fixedPace = d.fixedPace := by
  unfold Dev.postRecord; try dsimp only
  (repeat' split) <;> simp
@[simp] theorem Dev.postRecord_started (r : Nat) : (d.postRecord r).started = d.started := by
  unfold Dev.postRecord; try dsimp only
  (repeat' split) <;> simp
@[simp] theorem Dev.postRecord_turns (r : Nat) : (d.postRecord r).turns = d.turns := by
  unfold Dev.postRecord; try dsimp only
  (repeat' split) <;> simp
@[simp] theorem Dev.postRecord_capGen (r : Nat) : (d.postRecord r).capGen = d.capGen := by
  unfold Dev.postRecord; try dsimp only
  (repeat' split) <;> simp
@[simp] theorem Dev.postRecord_capFinal (r : Nat) : (d.postRecord r).capFinal = d.capFinal := by
  unfold Dev.postRecord; try dsimp only
  (repeat' split) <;> simp
@[simp] theorem Dev.postRecord_capTick (r : Nat) : (d.postRecord r).capTick = d.capTick := by
  unfold Dev.postRecord; try dsimp only
  (repeat' split) <;> simp
@[simp] theorem Dev.postRecord_draws (r : Nat) : (d.postRecord r).draws = d.draws := by
  unfold Dev.postRecord; try dsimp only
  (repeat' split) <;> simp

/-! ## postAll -/

@[simp] theorem Dev.postAll_now (r : Nat) : (d.postAll r).now = d.now := by
  exact foldl_keep Dev.now _ (fun _ _ => by split <;> simp) _ _
@[simp] theorem Dev.postAll_skew (r : Nat) : (d.postAll r).skew = d.skew := by
  exact foldl_keep Dev.skew _ (fun _ _ => by split <;> simp) _ _
@[simp] theorem Dev.postAll_power (r : Nat) : (d.postAll r).power = d.power := by
  exact foldl_keep Dev.power _ (fun _ _ => by split <;> simp) _ _
@[simp] theorem Dev.postAll_dies (r : Nat) : (d.postAll r).dies = d.dies := by
  exact foldl_keep Dev.dies _ (fun _ _ => by split <;> simp) _ _
@[simp] theorem Dev.postAll_cap (r : Nat) : (d.postAll r).cap = d.cap := by
  exact foldl_keep Dev.cap _ (fun _ _ => by split <;> simp) _ _
@[simp] theorem Dev.postAll_ringSel (r : Nat) : (d.postAll r).ringSel = d.ringSel := by
  exact foldl_keep Dev.ringSel _ (fun _ _ => by split <;> simp) _ _
@[simp] theorem Dev.postAll_epochClaim (r : Nat) : (d.postAll r).epochClaim = d.epochClaim := by
  exact foldl_keep Dev.epochClaim _ (fun _ _ => by split <;> simp) _ _
@[simp] theorem Dev.postAll_epochSlot (r : Nat) : (d.postAll r).epochSlot = d.epochSlot := by
  exact foldl_keep Dev.epochSlot _ (fun _ _ => by split <;> simp) _ _
@[simp] theorem Dev.postAll_claims (r : Nat) : (d.postAll r).claims = d.claims := by
  exact foldl_keep Dev.claims _ (fun _ _ => by split <;> simp) _ _
@[simp] theorem Dev.postAll_frames (r : Nat) : (d.postAll r).frames = d.frames := by
  exact foldl_keep Dev.frames _ (fun _ _ => by split <;> simp) _ _
@[simp] theorem Dev.postAll_objects (r : Nat) : (d.postAll r).objects = d.objects := by
  exact foldl_keep Dev.objects _ (fun _ _ => by split <;> simp) _ _
@[simp] theorem Dev.postAll_hoist (r : Nat) : (d.postAll r).hoist = d.hoist := by
  exact foldl_keep Dev.hoist _ (fun _ _ => by split <;> simp) _ _
@[simp] theorem Dev.postAll_store (r : Nat) : (d.postAll r).store = d.store := by
  exact foldl_keep Dev.store _ (fun _ _ => by split <;> simp) _ _
@[simp] theorem Dev.postAll_mbx (r : Nat) : (d.postAll r).mbx = d.mbx := by
  exact foldl_keep Dev.mbx _ (fun _ _ => by split <;> simp) _ _
@[simp] theorem Dev.postAll_sec (r : Nat) : (d.postAll r).sec = d.sec := by
  exact foldl_keep Dev.sec _ (fun _ _ => by split <;> simp) _ _
@[simp] theorem Dev.postAll_ports (r : Nat) : (d.postAll r).ports = d.ports := by
  exact foldl_keep Dev.ports _ (fun _ _ => by split <;> simp) _ _
@[simp] theorem Dev.postAll_routing (r : Nat) : (d.postAll r).routing = d.routing := by
  exact foldl_keep Dev.routing _ (fun _ _ => by split <;> simp) _ _
@[simp] theorem Dev.postAll_xbar (r : Nat) : (d.postAll r).xbar = d.xbar := by
  exact foldl_keep Dev.xbar _ (fun _ _ => by split <;> simp) _ _
@[simp] theorem Dev.postAll_coll (r : Nat) : (d.postAll r).coll = d.coll := by
  exact foldl_keep Dev.coll _ (fun _ _ => by split <;> simp) _ _
@[simp] theorem Dev.postAll_time (r : Nat) : (d.postAll r).time = d.time := by
  exact foldl_keep Dev.time _ (fun _ _ => by split <;> simp) _ _
@[simp] theorem Dev.postAll_evt (r : Nat) : (d.postAll r).evt = d.evt := by
  exact foldl_keep Dev.evt _ (fun _ _ => by split <;> simp) _ _
@[simp] theorem Dev.postAll_shuttle (r : Nat) : (d.postAll r).shuttle = d.shuttle := by
  exact foldl_keep Dev.shuttle _ (fun _ _ => by split <;> simp) _ _
@[simp] theorem Dev.postAll_dozeAborted (r : Nat) : (d.postAll r).dozeAborted = d.dozeAborted := by
  exact foldl_keep Dev.dozeAborted _ (fun _ _ => by split <;> simp) _ _
@[simp] theorem Dev.postAll_fixedBits (r : Nat) : (d.postAll r).fixedBits = d.fixedBits := by
  exact foldl_keep Dev.fixedBits _ (fun _ _ => by split <;> simp) _ _
@[simp] theorem Dev.postAll_fixedPace (r : Nat) : (d.postAll r).fixedPace = d.fixedPace := by
  exact foldl_keep Dev.fixedPace _ (fun _ _ => by split <;> simp) _ _
@[simp] theorem Dev.postAll_started (r : Nat) : (d.postAll r).started = d.started := by
  exact foldl_keep Dev.started _ (fun _ _ => by split <;> simp) _ _
@[simp] theorem Dev.postAll_turns (r : Nat) : (d.postAll r).turns = d.turns := by
  exact foldl_keep Dev.turns _ (fun _ _ => by split <;> simp) _ _
@[simp] theorem Dev.postAll_capGen (r : Nat) : (d.postAll r).capGen = d.capGen := by
  exact foldl_keep Dev.capGen _ (fun _ _ => by split <;> simp) _ _
@[simp] theorem Dev.postAll_capFinal (r : Nat) : (d.postAll r).capFinal = d.capFinal := by
  exact foldl_keep Dev.capFinal _ (fun _ _ => by split <;> simp) _ _
@[simp] theorem Dev.postAll_capTick (r : Nat) : (d.postAll r).capTick = d.capTick := by
  exact foldl_keep Dev.capTick _ (fun _ _ => by split <;> simp) _ _
@[simp] theorem Dev.postAll_draws (r : Nat) : (d.postAll r).draws = d.draws := by
  exact foldl_keep Dev.draws _ (fun _ _ => by split <;> simp) _ _

/-! ## beginMove -/

@[simp] theorem Dev.beginMove_now (n u : Nat) : (d.beginMove n u).now = d.now := by
  unfold Dev.beginMove; try dsimp only
  (repeat' split) <;> simp
@[simp] theorem Dev.beginMove_skew (n u : Nat) : (d.beginMove n u).skew = d.skew := by
  unfold Dev.beginMove; try dsimp only
  (repeat' split) <;> simp
@[simp] theorem Dev.beginMove_power (n u : Nat) : (d.beginMove n u).power = d.power := by
  unfold Dev.beginMove; try dsimp only
  (repeat' split) <;> simp
@[simp] theorem Dev.beginMove_cap (n u : Nat) : (d.beginMove n u).cap = d.cap := by
  unfold Dev.beginMove; try dsimp only
  (repeat' split) <;> simp
@[simp] theorem Dev.beginMove_host (n u : Nat) : (d.beginMove n u).host = d.host := by
  unfold Dev.beginMove; try dsimp only
  (repeat' split) <;> simp
@[simp] theorem Dev.beginMove_blocks (n u : Nat) : (d.beginMove n u).blocks = d.blocks := by
  unfold Dev.beginMove; try dsimp only
  (repeat' split) <;> simp
@[simp] theorem Dev.beginMove_ringSel (n u : Nat) : (d.beginMove n u).ringSel = d.ringSel := by
  unfold Dev.beginMove; try dsimp only
  (repeat' split) <;> simp
@[simp] theorem Dev.beginMove_epochClaim (n u : Nat) : (d.beginMove n u).epochClaim = d.epochClaim := by
  unfold Dev.beginMove; try dsimp only
  (repeat' split) <;> simp
@[simp] theorem Dev.beginMove_epochSlot (n u : Nat) : (d.beginMove n u).epochSlot = d.epochSlot := by
  unfold Dev.beginMove; try dsimp only
  (repeat' split) <;> simp
@[simp] theorem Dev.beginMove_rings (n u : Nat) : (d.beginMove n u).rings = d.rings := by
  unfold Dev.beginMove; try dsimp only
  (repeat' split) <;> simp
@[simp] theorem Dev.beginMove_tallies (n u : Nat) : (d.beginMove n u).tallies = d.tallies := by
  unfold Dev.beginMove; try dsimp only
  (repeat' split) <;> simp
@[simp] theorem Dev.beginMove_claims (n u : Nat) : (d.beginMove n u).claims = d.claims := by
  unfold Dev.beginMove; try dsimp only
  (repeat' split) <;> simp
@[simp] theorem Dev.beginMove_frames (n u : Nat) : (d.beginMove n u).frames = d.frames := by
  unfold Dev.beginMove; try dsimp only
  (repeat' split) <;> simp
@[simp] theorem Dev.beginMove_hoist (n u : Nat) : (d.beginMove n u).hoist = d.hoist := by
  unfold Dev.beginMove; try dsimp only
  (repeat' split) <;> simp
@[simp] theorem Dev.beginMove_store (n u : Nat) : (d.beginMove n u).store = d.store := by
  unfold Dev.beginMove; try dsimp only
  (repeat' split) <;> simp
@[simp] theorem Dev.beginMove_mbx (n u : Nat) : (d.beginMove n u).mbx = d.mbx := by
  unfold Dev.beginMove; try dsimp only
  (repeat' split) <;> simp
@[simp] theorem Dev.beginMove_sec (n u : Nat) : (d.beginMove n u).sec = d.sec := by
  unfold Dev.beginMove; try dsimp only
  (repeat' split) <;> simp
@[simp] theorem Dev.beginMove_ports (n u : Nat) : (d.beginMove n u).ports = d.ports := by
  unfold Dev.beginMove; try dsimp only
  (repeat' split) <;> simp
@[simp] theorem Dev.beginMove_routing (n u : Nat) : (d.beginMove n u).routing = d.routing := by
  unfold Dev.beginMove; try dsimp only
  (repeat' split) <;> simp
@[simp] theorem Dev.beginMove_xbar (n u : Nat) : (d.beginMove n u).xbar = d.xbar := by
  unfold Dev.beginMove; try dsimp only
  (repeat' split) <;> simp
@[simp] theorem Dev.beginMove_coll (n u : Nat) : (d.beginMove n u).coll = d.coll := by
  unfold Dev.beginMove; try dsimp only
  (repeat' split) <;> simp
@[simp] theorem Dev.beginMove_time (n u : Nat) : (d.beginMove n u).time = d.time := by
  unfold Dev.beginMove; try dsimp only
  (repeat' split) <;> simp
@[simp] theorem Dev.beginMove_evt (n u : Nat) : (d.beginMove n u).evt = d.evt := by
  unfold Dev.beginMove; try dsimp only
  (repeat' split) <;> simp
@[simp] theorem Dev.beginMove_shuttle (n u : Nat) : (d.beginMove n u).shuttle = d.shuttle := by
  unfold Dev.beginMove; try dsimp only
  (repeat' split) <;> simp
@[simp] theorem Dev.beginMove_fixedBits (n u : Nat) : (d.beginMove n u).fixedBits = d.fixedBits := by
  unfold Dev.beginMove; try dsimp only
  (repeat' split) <;> simp
@[simp] theorem Dev.beginMove_fixedPace (n u : Nat) : (d.beginMove n u).fixedPace = d.fixedPace := by
  unfold Dev.beginMove; try dsimp only
  (repeat' split) <;> simp
@[simp] theorem Dev.beginMove_started (n u : Nat) : (d.beginMove n u).started = d.started := by
  unfold Dev.beginMove; try dsimp only
  (repeat' split) <;> simp
@[simp] theorem Dev.beginMove_turns (n u : Nat) : (d.beginMove n u).turns = d.turns := by
  unfold Dev.beginMove; try dsimp only
  (repeat' split) <;> simp
@[simp] theorem Dev.beginMove_capGen (n u : Nat) : (d.beginMove n u).capGen = d.capGen := by
  unfold Dev.beginMove; try dsimp only
  (repeat' split) <;> simp
@[simp] theorem Dev.beginMove_capFinal (n u : Nat) : (d.beginMove n u).capFinal = d.capFinal := by
  unfold Dev.beginMove; try dsimp only
  (repeat' split) <;> simp
@[simp] theorem Dev.beginMove_capTick (n u : Nat) : (d.beginMove n u).capTick = d.capTick := by
  unfold Dev.beginMove; try dsimp only
  (repeat' split) <;> simp
@[simp] theorem Dev.beginMove_draws (n u : Nat) : (d.beginMove n u).draws = d.draws := by
  unfold Dev.beginMove; try dsimp only
  (repeat' split) <;> simp
@[simp] theorem Dev.beginMove_out (n u : Nat) : (d.beginMove n u).out = d.out := by
  unfold Dev.beginMove; try dsimp only
  (repeat' split) <;> simp

/-! ## admitAsk -/

@[simp] theorem Dev.admitAsk_now (a : Ask) : (d.admitAsk a).now = d.now := by
  unfold Dev.admitAsk; try dsimp only
  (repeat' split) <;> simp
@[simp] theorem Dev.admitAsk_skew (a : Ask) : (d.admitAsk a).skew = d.skew := by
  unfold Dev.admitAsk; try dsimp only
  (repeat' split) <;> simp
@[simp] theorem Dev.admitAsk_power (a : Ask) : (d.admitAsk a).power = d.power := by
  unfold Dev.admitAsk; try dsimp only
  (repeat' split) <;> simp
@[simp] theorem Dev.admitAsk_cap (a : Ask) : (d.admitAsk a).cap = d.cap := by
  unfold Dev.admitAsk; try dsimp only
  (repeat' split) <;> simp
@[simp] theorem Dev.admitAsk_host (a : Ask) : (d.admitAsk a).host = d.host := by
  unfold Dev.admitAsk; try dsimp only
  (repeat' split) <;> simp
@[simp] theorem Dev.admitAsk_blocks (a : Ask) : (d.admitAsk a).blocks = d.blocks := by
  unfold Dev.admitAsk; try dsimp only
  (repeat' split) <;> simp
@[simp] theorem Dev.admitAsk_ringSel (a : Ask) : (d.admitAsk a).ringSel = d.ringSel := by
  unfold Dev.admitAsk; try dsimp only
  (repeat' split) <;> simp
@[simp] theorem Dev.admitAsk_epochClaim (a : Ask) : (d.admitAsk a).epochClaim = d.epochClaim := by
  unfold Dev.admitAsk; try dsimp only
  (repeat' split) <;> simp
@[simp] theorem Dev.admitAsk_epochSlot (a : Ask) : (d.admitAsk a).epochSlot = d.epochSlot := by
  unfold Dev.admitAsk; try dsimp only
  (repeat' split) <;> simp
@[simp] theorem Dev.admitAsk_tallies (a : Ask) : (d.admitAsk a).tallies = d.tallies := by
  unfold Dev.admitAsk; try dsimp only
  (repeat' split) <;> simp
@[simp] theorem Dev.admitAsk_hoist (a : Ask) : (d.admitAsk a).hoist = d.hoist := by
  unfold Dev.admitAsk; try dsimp only
  (repeat' split) <;> simp
@[simp] theorem Dev.admitAsk_store (a : Ask) : (d.admitAsk a).store = d.store := by
  unfold Dev.admitAsk; try dsimp only
  (repeat' split) <;> simp
@[simp] theorem Dev.admitAsk_mbx (a : Ask) : (d.admitAsk a).mbx = d.mbx := by
  unfold Dev.admitAsk; try dsimp only
  (repeat' split) <;> simp
@[simp] theorem Dev.admitAsk_sec (a : Ask) : (d.admitAsk a).sec = d.sec := by
  unfold Dev.admitAsk; try dsimp only
  (repeat' split) <;> simp
@[simp] theorem Dev.admitAsk_ports (a : Ask) : (d.admitAsk a).ports = d.ports := by
  unfold Dev.admitAsk; try dsimp only
  (repeat' split) <;> simp
@[simp] theorem Dev.admitAsk_routing (a : Ask) : (d.admitAsk a).routing = d.routing := by
  unfold Dev.admitAsk; try dsimp only
  (repeat' split) <;> simp
@[simp] theorem Dev.admitAsk_xbar (a : Ask) : (d.admitAsk a).xbar = d.xbar := by
  unfold Dev.admitAsk; try dsimp only
  (repeat' split) <;> simp
@[simp] theorem Dev.admitAsk_time (a : Ask) : (d.admitAsk a).time = d.time := by
  unfold Dev.admitAsk; try dsimp only
  (repeat' split) <;> simp
@[simp] theorem Dev.admitAsk_evt (a : Ask) : (d.admitAsk a).evt = d.evt := by
  unfold Dev.admitAsk; try dsimp only
  (repeat' split) <;> simp
@[simp] theorem Dev.admitAsk_shuttle (a : Ask) : (d.admitAsk a).shuttle = d.shuttle := by
  unfold Dev.admitAsk; try dsimp only
  (repeat' split) <;> simp
@[simp] theorem Dev.admitAsk_fixedBits (a : Ask) : (d.admitAsk a).fixedBits = d.fixedBits := by
  unfold Dev.admitAsk; try dsimp only
  (repeat' split) <;> simp
@[simp] theorem Dev.admitAsk_fixedPace (a : Ask) : (d.admitAsk a).fixedPace = d.fixedPace := by
  unfold Dev.admitAsk; try dsimp only
  (repeat' split) <;> simp
@[simp] theorem Dev.admitAsk_started (a : Ask) : (d.admitAsk a).started = d.started := by
  unfold Dev.admitAsk; try dsimp only
  (repeat' split) <;> simp
@[simp] theorem Dev.admitAsk_turns (a : Ask) : (d.admitAsk a).turns = d.turns := by
  unfold Dev.admitAsk; try dsimp only
  (repeat' split) <;> simp
@[simp] theorem Dev.admitAsk_capGen (a : Ask) : (d.admitAsk a).capGen = d.capGen := by
  unfold Dev.admitAsk; try dsimp only
  (repeat' split) <;> simp
@[simp] theorem Dev.admitAsk_capFinal (a : Ask) : (d.admitAsk a).capFinal = d.capFinal := by
  unfold Dev.admitAsk; try dsimp only
  (repeat' split) <;> simp
@[simp] theorem Dev.admitAsk_capTick (a : Ask) : (d.admitAsk a).capTick = d.capTick := by
  unfold Dev.admitAsk; try dsimp only
  (repeat' split) <;> simp
@[simp] theorem Dev.admitAsk_draws (a : Ask) : (d.admitAsk a).draws = d.draws := by
  unfold Dev.admitAsk; try dsimp only
  (repeat' split) <;> simp
@[simp] theorem Dev.admitAsk_out (a : Ask) : (d.admitAsk a).out = d.out := by
  unfold Dev.admitAsk; try dsimp only
  (repeat' split) <;> simp

/-! ## ask -/

@[simp] theorem Dev.ask_now (a : Ask) : (d.ask a).now = d.now := by
  unfold Dev.ask; try dsimp only
  (repeat' split) <;> simp
@[simp] theorem Dev.ask_skew (a : Ask) : (d.ask a).skew = d.skew := by
  unfold Dev.ask; try dsimp only
  (repeat' split) <;> simp
@[simp] theorem Dev.ask_power (a : Ask) : (d.ask a).power = d.power := by
  unfold Dev.ask; try dsimp only
  (repeat' split) <;> simp
@[simp] theorem Dev.ask_cap (a : Ask) : (d.ask a).cap = d.cap := by
  unfold Dev.ask; try dsimp only
  (repeat' split) <;> simp
@[simp] theorem Dev.ask_host (a : Ask) : (d.ask a).host = d.host := by
  unfold Dev.ask; try dsimp only
  (repeat' split) <;> simp
@[simp] theorem Dev.ask_blocks (a : Ask) : (d.ask a).blocks = d.blocks := by
  unfold Dev.ask; try dsimp only
  (repeat' split) <;> simp
@[simp] theorem Dev.ask_ringSel (a : Ask) : (d.ask a).ringSel = d.ringSel := by
  unfold Dev.ask; try dsimp only
  (repeat' split) <;> simp
@[simp] theorem Dev.ask_epochClaim (a : Ask) : (d.ask a).epochClaim = d.epochClaim := by
  unfold Dev.ask; try dsimp only
  (repeat' split) <;> simp
@[simp] theorem Dev.ask_epochSlot (a : Ask) : (d.ask a).epochSlot = d.epochSlot := by
  unfold Dev.ask; try dsimp only
  (repeat' split) <;> simp
@[simp] theorem Dev.ask_tallies (a : Ask) : (d.ask a).tallies = d.tallies := by
  unfold Dev.ask; try dsimp only
  (repeat' split) <;> simp
@[simp] theorem Dev.ask_hoist (a : Ask) : (d.ask a).hoist = d.hoist := by
  unfold Dev.ask; try dsimp only
  (repeat' split) <;> simp
@[simp] theorem Dev.ask_store (a : Ask) : (d.ask a).store = d.store := by
  unfold Dev.ask; try dsimp only
  (repeat' split) <;> simp
@[simp] theorem Dev.ask_mbx (a : Ask) : (d.ask a).mbx = d.mbx := by
  unfold Dev.ask; try dsimp only
  (repeat' split) <;> simp
@[simp] theorem Dev.ask_sec (a : Ask) : (d.ask a).sec = d.sec := by
  unfold Dev.ask; try dsimp only
  (repeat' split) <;> simp
@[simp] theorem Dev.ask_ports (a : Ask) : (d.ask a).ports = d.ports := by
  unfold Dev.ask; try dsimp only
  (repeat' split) <;> simp
@[simp] theorem Dev.ask_routing (a : Ask) : (d.ask a).routing = d.routing := by
  unfold Dev.ask; try dsimp only
  (repeat' split) <;> simp
@[simp] theorem Dev.ask_xbar (a : Ask) : (d.ask a).xbar = d.xbar := by
  unfold Dev.ask; try dsimp only
  (repeat' split) <;> simp
@[simp] theorem Dev.ask_time (a : Ask) : (d.ask a).time = d.time := by
  unfold Dev.ask; try dsimp only
  (repeat' split) <;> simp
@[simp] theorem Dev.ask_evt (a : Ask) : (d.ask a).evt = d.evt := by
  unfold Dev.ask; try dsimp only
  (repeat' split) <;> simp
@[simp] theorem Dev.ask_shuttle (a : Ask) : (d.ask a).shuttle = d.shuttle := by
  unfold Dev.ask; try dsimp only
  (repeat' split) <;> simp
@[simp] theorem Dev.ask_fixedBits (a : Ask) : (d.ask a).fixedBits = d.fixedBits := by
  unfold Dev.ask; try dsimp only
  (repeat' split) <;> simp
@[simp] theorem Dev.ask_fixedPace (a : Ask) : (d.ask a).fixedPace = d.fixedPace := by
  unfold Dev.ask; try dsimp only
  (repeat' split) <;> simp
@[simp] theorem Dev.ask_started (a : Ask) : (d.ask a).started = d.started := by
  unfold Dev.ask; try dsimp only
  (repeat' split) <;> simp
@[simp] theorem Dev.ask_turns (a : Ask) : (d.ask a).turns = d.turns := by
  unfold Dev.ask; try dsimp only
  (repeat' split) <;> simp
@[simp] theorem Dev.ask_capGen (a : Ask) : (d.ask a).capGen = d.capGen := by
  unfold Dev.ask; try dsimp only
  (repeat' split) <;> simp
@[simp] theorem Dev.ask_capFinal (a : Ask) : (d.ask a).capFinal = d.capFinal := by
  unfold Dev.ask; try dsimp only
  (repeat' split) <;> simp
@[simp] theorem Dev.ask_capTick (a : Ask) : (d.ask a).capTick = d.capTick := by
  unfold Dev.ask; try dsimp only
  (repeat' split) <;> simp
@[simp] theorem Dev.ask_draws (a : Ask) : (d.ask a).draws = d.draws := by
  unfold Dev.ask; try dsimp only
  (repeat' split) <;> simp
@[simp] theorem Dev.ask_out (a : Ask) : (d.ask a).out = d.out := by
  unfold Dev.ask; try dsimp only
  (repeat' split) <;> simp

/-! ## askOp -/

@[simp] theorem Dev.askOp_now (r : Nat) (c : W32) (l : List (Nat × Nat)) : (d.askOp r c l).now = d.now := by
  unfold Dev.askOp; exact foldl_keep Dev.now _ (fun _ _ => by split <;> simp) _ _
@[simp] theorem Dev.askOp_skew (r : Nat) (c : W32) (l : List (Nat × Nat)) : (d.askOp r c l).skew = d.skew := by
  unfold Dev.askOp; exact foldl_keep Dev.skew _ (fun _ _ => by split <;> simp) _ _
@[simp] theorem Dev.askOp_power (r : Nat) (c : W32) (l : List (Nat × Nat)) : (d.askOp r c l).power = d.power := by
  unfold Dev.askOp; exact foldl_keep Dev.power _ (fun _ _ => by split <;> simp) _ _
@[simp] theorem Dev.askOp_cap (r : Nat) (c : W32) (l : List (Nat × Nat)) : (d.askOp r c l).cap = d.cap := by
  unfold Dev.askOp; exact foldl_keep Dev.cap _ (fun _ _ => by split <;> simp) _ _
@[simp] theorem Dev.askOp_host (r : Nat) (c : W32) (l : List (Nat × Nat)) : (d.askOp r c l).host = d.host := by
  unfold Dev.askOp; exact foldl_keep Dev.host _ (fun _ _ => by split <;> simp) _ _
@[simp] theorem Dev.askOp_blocks (r : Nat) (c : W32) (l : List (Nat × Nat)) : (d.askOp r c l).blocks = d.blocks := by
  unfold Dev.askOp; exact foldl_keep Dev.blocks _ (fun _ _ => by split <;> simp) _ _
@[simp] theorem Dev.askOp_ringSel (r : Nat) (c : W32) (l : List (Nat × Nat)) : (d.askOp r c l).ringSel = d.ringSel := by
  unfold Dev.askOp; exact foldl_keep Dev.ringSel _ (fun _ _ => by split <;> simp) _ _
@[simp] theorem Dev.askOp_epochClaim (r : Nat) (c : W32) (l : List (Nat × Nat)) : (d.askOp r c l).epochClaim = d.epochClaim := by
  unfold Dev.askOp; exact foldl_keep Dev.epochClaim _ (fun _ _ => by split <;> simp) _ _
@[simp] theorem Dev.askOp_epochSlot (r : Nat) (c : W32) (l : List (Nat × Nat)) : (d.askOp r c l).epochSlot = d.epochSlot := by
  unfold Dev.askOp; exact foldl_keep Dev.epochSlot _ (fun _ _ => by split <;> simp) _ _
@[simp] theorem Dev.askOp_tallies (r : Nat) (c : W32) (l : List (Nat × Nat)) : (d.askOp r c l).tallies = d.tallies := by
  unfold Dev.askOp; exact foldl_keep Dev.tallies _ (fun _ _ => by split <;> simp) _ _
@[simp] theorem Dev.askOp_hoist (r : Nat) (c : W32) (l : List (Nat × Nat)) : (d.askOp r c l).hoist = d.hoist := by
  unfold Dev.askOp; exact foldl_keep Dev.hoist _ (fun _ _ => by split <;> simp) _ _
@[simp] theorem Dev.askOp_store (r : Nat) (c : W32) (l : List (Nat × Nat)) : (d.askOp r c l).store = d.store := by
  unfold Dev.askOp; exact foldl_keep Dev.store _ (fun _ _ => by split <;> simp) _ _
@[simp] theorem Dev.askOp_mbx (r : Nat) (c : W32) (l : List (Nat × Nat)) : (d.askOp r c l).mbx = d.mbx := by
  unfold Dev.askOp; exact foldl_keep Dev.mbx _ (fun _ _ => by split <;> simp) _ _
@[simp] theorem Dev.askOp_sec (r : Nat) (c : W32) (l : List (Nat × Nat)) : (d.askOp r c l).sec = d.sec := by
  unfold Dev.askOp; exact foldl_keep Dev.sec _ (fun _ _ => by split <;> simp) _ _
@[simp] theorem Dev.askOp_ports (r : Nat) (c : W32) (l : List (Nat × Nat)) : (d.askOp r c l).ports = d.ports := by
  unfold Dev.askOp; exact foldl_keep Dev.ports _ (fun _ _ => by split <;> simp) _ _
@[simp] theorem Dev.askOp_routing (r : Nat) (c : W32) (l : List (Nat × Nat)) : (d.askOp r c l).routing = d.routing := by
  unfold Dev.askOp; exact foldl_keep Dev.routing _ (fun _ _ => by split <;> simp) _ _
@[simp] theorem Dev.askOp_xbar (r : Nat) (c : W32) (l : List (Nat × Nat)) : (d.askOp r c l).xbar = d.xbar := by
  unfold Dev.askOp; exact foldl_keep Dev.xbar _ (fun _ _ => by split <;> simp) _ _
@[simp] theorem Dev.askOp_time (r : Nat) (c : W32) (l : List (Nat × Nat)) : (d.askOp r c l).time = d.time := by
  unfold Dev.askOp; exact foldl_keep Dev.time _ (fun _ _ => by split <;> simp) _ _
@[simp] theorem Dev.askOp_evt (r : Nat) (c : W32) (l : List (Nat × Nat)) : (d.askOp r c l).evt = d.evt := by
  unfold Dev.askOp; exact foldl_keep Dev.evt _ (fun _ _ => by split <;> simp) _ _
@[simp] theorem Dev.askOp_shuttle (r : Nat) (c : W32) (l : List (Nat × Nat)) : (d.askOp r c l).shuttle = d.shuttle := by
  unfold Dev.askOp; exact foldl_keep Dev.shuttle _ (fun _ _ => by split <;> simp) _ _
@[simp] theorem Dev.askOp_fixedBits (r : Nat) (c : W32) (l : List (Nat × Nat)) : (d.askOp r c l).fixedBits = d.fixedBits := by
  unfold Dev.askOp; exact foldl_keep Dev.fixedBits _ (fun _ _ => by split <;> simp) _ _
@[simp] theorem Dev.askOp_fixedPace (r : Nat) (c : W32) (l : List (Nat × Nat)) : (d.askOp r c l).fixedPace = d.fixedPace := by
  unfold Dev.askOp; exact foldl_keep Dev.fixedPace _ (fun _ _ => by split <;> simp) _ _
@[simp] theorem Dev.askOp_started (r : Nat) (c : W32) (l : List (Nat × Nat)) : (d.askOp r c l).started = d.started := by
  unfold Dev.askOp; exact foldl_keep Dev.started _ (fun _ _ => by split <;> simp) _ _
@[simp] theorem Dev.askOp_turns (r : Nat) (c : W32) (l : List (Nat × Nat)) : (d.askOp r c l).turns = d.turns := by
  unfold Dev.askOp; exact foldl_keep Dev.turns _ (fun _ _ => by split <;> simp) _ _
@[simp] theorem Dev.askOp_capGen (r : Nat) (c : W32) (l : List (Nat × Nat)) : (d.askOp r c l).capGen = d.capGen := by
  unfold Dev.askOp; exact foldl_keep Dev.capGen _ (fun _ _ => by split <;> simp) _ _
@[simp] theorem Dev.askOp_capFinal (r : Nat) (c : W32) (l : List (Nat × Nat)) : (d.askOp r c l).capFinal = d.capFinal := by
  unfold Dev.askOp; exact foldl_keep Dev.capFinal _ (fun _ _ => by split <;> simp) _ _
@[simp] theorem Dev.askOp_capTick (r : Nat) (c : W32) (l : List (Nat × Nat)) : (d.askOp r c l).capTick = d.capTick := by
  unfold Dev.askOp; exact foldl_keep Dev.capTick _ (fun _ _ => by split <;> simp) _ _
@[simp] theorem Dev.askOp_draws (r : Nat) (c : W32) (l : List (Nat × Nat)) : (d.askOp r c l).draws = d.draws := by
  unfold Dev.askOp; exact foldl_keep Dev.draws _ (fun _ _ => by split <;> simp) _ _
@[simp] theorem Dev.askOp_out (r : Nat) (c : W32) (l : List (Nat × Nat)) : (d.askOp r c l).out = d.out := by
  unfold Dev.askOp; exact foldl_keep Dev.out _ (fun _ _ => by split <;> simp) _ _

/-! ## setBudgets -/

@[simp] theorem Dev.setBudgets_now  : d.setBudgets.now = d.now := by
  unfold Dev.setBudgets
  exact foldl_keep Dev.now _ (fun _ _ => foldl_keep Dev.now _ (fun _ _ => by split <;> simp) _ _) _ _
@[simp] theorem Dev.setBudgets_skew  : d.setBudgets.skew = d.skew := by
  unfold Dev.setBudgets
  exact foldl_keep Dev.skew _ (fun _ _ => foldl_keep Dev.skew _ (fun _ _ => by split <;> simp) _ _) _ _
@[simp] theorem Dev.setBudgets_power  : d.setBudgets.power = d.power := by
  unfold Dev.setBudgets
  exact foldl_keep Dev.power _ (fun _ _ => foldl_keep Dev.power _ (fun _ _ => by split <;> simp) _ _) _ _
@[simp] theorem Dev.setBudgets_dies  : d.setBudgets.dies = d.dies := by
  unfold Dev.setBudgets
  exact foldl_keep Dev.dies _ (fun _ _ => foldl_keep Dev.dies _ (fun _ _ => by split <;> simp) _ _) _ _
@[simp] theorem Dev.setBudgets_cap  : d.setBudgets.cap = d.cap := by
  unfold Dev.setBudgets
  exact foldl_keep Dev.cap _ (fun _ _ => foldl_keep Dev.cap _ (fun _ _ => by split <;> simp) _ _) _ _
@[simp] theorem Dev.setBudgets_host  : d.setBudgets.host = d.host := by
  unfold Dev.setBudgets
  exact foldl_keep Dev.host _ (fun _ _ => foldl_keep Dev.host _ (fun _ _ => by split <;> simp) _ _) _ _
@[simp] theorem Dev.setBudgets_blocks  : d.setBudgets.blocks = d.blocks := by
  unfold Dev.setBudgets
  exact foldl_keep Dev.blocks _ (fun _ _ => foldl_keep Dev.blocks _ (fun _ _ => by split <;> simp) _ _) _ _
@[simp] theorem Dev.setBudgets_ringSel  : d.setBudgets.ringSel = d.ringSel := by
  unfold Dev.setBudgets
  exact foldl_keep Dev.ringSel _ (fun _ _ => foldl_keep Dev.ringSel _ (fun _ _ => by split <;> simp) _ _) _ _
@[simp] theorem Dev.setBudgets_epochClaim  : d.setBudgets.epochClaim = d.epochClaim := by
  unfold Dev.setBudgets
  exact foldl_keep Dev.epochClaim _ (fun _ _ => foldl_keep Dev.epochClaim _ (fun _ _ => by split <;> simp) _ _) _ _
@[simp] theorem Dev.setBudgets_epochSlot  : d.setBudgets.epochSlot = d.epochSlot := by
  unfold Dev.setBudgets
  exact foldl_keep Dev.epochSlot _ (fun _ _ => foldl_keep Dev.epochSlot _ (fun _ _ => by split <;> simp) _ _) _ _
@[simp] theorem Dev.setBudgets_rings  : d.setBudgets.rings = d.rings := by
  unfold Dev.setBudgets
  exact foldl_keep Dev.rings _ (fun _ _ => foldl_keep Dev.rings _ (fun _ _ => by split <;> simp) _ _) _ _
@[simp] theorem Dev.setBudgets_tallies  : d.setBudgets.tallies = d.tallies := by
  unfold Dev.setBudgets
  exact foldl_keep Dev.tallies _ (fun _ _ => foldl_keep Dev.tallies _ (fun _ _ => by split <;> simp) _ _) _ _
@[simp] theorem Dev.setBudgets_frames  : d.setBudgets.frames = d.frames := by
  unfold Dev.setBudgets
  exact foldl_keep Dev.frames _ (fun _ _ => foldl_keep Dev.frames _ (fun _ _ => by split <;> simp) _ _) _ _
@[simp] theorem Dev.setBudgets_objects  : d.setBudgets.objects = d.objects := by
  unfold Dev.setBudgets
  exact foldl_keep Dev.objects _ (fun _ _ => foldl_keep Dev.objects _ (fun _ _ => by split <;> simp) _ _) _ _
@[simp] theorem Dev.setBudgets_hoist  : d.setBudgets.hoist = d.hoist := by
  unfold Dev.setBudgets
  exact foldl_keep Dev.hoist _ (fun _ _ => foldl_keep Dev.hoist _ (fun _ _ => by split <;> simp) _ _) _ _
@[simp] theorem Dev.setBudgets_health  : d.setBudgets.health = d.health := by
  unfold Dev.setBudgets
  exact foldl_keep Dev.health _ (fun _ _ => foldl_keep Dev.health _ (fun _ _ => by split <;> simp) _ _) _ _
@[simp] theorem Dev.setBudgets_store  : d.setBudgets.store = d.store := by
  unfold Dev.setBudgets
  exact foldl_keep Dev.store _ (fun _ _ => foldl_keep Dev.store _ (fun _ _ => by split <;> simp) _ _) _ _
@[simp] theorem Dev.setBudgets_mbx  : d.setBudgets.mbx = d.mbx := by
  unfold Dev.setBudgets
  exact foldl_keep Dev.mbx _ (fun _ _ => foldl_keep Dev.mbx _ (fun _ _ => by split <;> simp) _ _) _ _
@[simp] theorem Dev.setBudgets_sec  : d.setBudgets.sec = d.sec := by
  unfold Dev.setBudgets
  exact foldl_keep Dev.sec _ (fun _ _ => foldl_keep Dev.sec _ (fun _ _ => by split <;> simp) _ _) _ _
@[simp] theorem Dev.setBudgets_ports  : d.setBudgets.ports = d.ports := by
  unfold Dev.setBudgets
  exact foldl_keep Dev.ports _ (fun _ _ => foldl_keep Dev.ports _ (fun _ _ => by split <;> simp) _ _) _ _
@[simp] theorem Dev.setBudgets_routing  : d.setBudgets.routing = d.routing := by
  unfold Dev.setBudgets
  exact foldl_keep Dev.routing _ (fun _ _ => foldl_keep Dev.routing _ (fun _ _ => by split <;> simp) _ _) _ _
@[simp] theorem Dev.setBudgets_xbar  : d.setBudgets.xbar = d.xbar := by
  unfold Dev.setBudgets
  exact foldl_keep Dev.xbar _ (fun _ _ => foldl_keep Dev.xbar _ (fun _ _ => by split <;> simp) _ _) _ _
@[simp] theorem Dev.setBudgets_coll  : d.setBudgets.coll = d.coll := by
  unfold Dev.setBudgets
  exact foldl_keep Dev.coll _ (fun _ _ => foldl_keep Dev.coll _ (fun _ _ => by split <;> simp) _ _) _ _
@[simp] theorem Dev.setBudgets_time  : d.setBudgets.time = d.time := by
  unfold Dev.setBudgets
  exact foldl_keep Dev.time _ (fun _ _ => foldl_keep Dev.time _ (fun _ _ => by split <;> simp) _ _) _ _
@[simp] theorem Dev.setBudgets_evt  : d.setBudgets.evt = d.evt := by
  unfold Dev.setBudgets
  exact foldl_keep Dev.evt _ (fun _ _ => foldl_keep Dev.evt _ (fun _ _ => by split <;> simp) _ _) _ _
@[simp] theorem Dev.setBudgets_shuttle  : d.setBudgets.shuttle = d.shuttle := by
  unfold Dev.setBudgets
  exact foldl_keep Dev.shuttle _ (fun _ _ => foldl_keep Dev.shuttle _ (fun _ _ => by split <;> simp) _ _) _ _
@[simp] theorem Dev.setBudgets_dozeAborted  : d.setBudgets.dozeAborted = d.dozeAborted := by
  unfold Dev.setBudgets
  exact foldl_keep Dev.dozeAborted _ (fun _ _ => foldl_keep Dev.dozeAborted _ (fun _ _ => by split <;> simp) _ _) _ _
@[simp] theorem Dev.setBudgets_fixedBits  : d.setBudgets.fixedBits = d.fixedBits := by
  unfold Dev.setBudgets
  exact foldl_keep Dev.fixedBits _ (fun _ _ => foldl_keep Dev.fixedBits _ (fun _ _ => by split <;> simp) _ _) _ _
@[simp] theorem Dev.setBudgets_fixedPace  : d.setBudgets.fixedPace = d.fixedPace := by
  unfold Dev.setBudgets
  exact foldl_keep Dev.fixedPace _ (fun _ _ => foldl_keep Dev.fixedPace _ (fun _ _ => by split <;> simp) _ _) _ _
@[simp] theorem Dev.setBudgets_started  : d.setBudgets.started = d.started := by
  unfold Dev.setBudgets
  exact foldl_keep Dev.started _ (fun _ _ => foldl_keep Dev.started _ (fun _ _ => by split <;> simp) _ _) _ _
@[simp] theorem Dev.setBudgets_turns  : d.setBudgets.turns = d.turns := by
  unfold Dev.setBudgets
  exact foldl_keep Dev.turns _ (fun _ _ => foldl_keep Dev.turns _ (fun _ _ => by split <;> simp) _ _) _ _
@[simp] theorem Dev.setBudgets_capGen  : d.setBudgets.capGen = d.capGen := by
  unfold Dev.setBudgets
  exact foldl_keep Dev.capGen _ (fun _ _ => foldl_keep Dev.capGen _ (fun _ _ => by split <;> simp) _ _) _ _
@[simp] theorem Dev.setBudgets_capFinal  : d.setBudgets.capFinal = d.capFinal := by
  unfold Dev.setBudgets
  exact foldl_keep Dev.capFinal _ (fun _ _ => foldl_keep Dev.capFinal _ (fun _ _ => by split <;> simp) _ _) _ _
@[simp] theorem Dev.setBudgets_capTick  : d.setBudgets.capTick = d.capTick := by
  unfold Dev.setBudgets
  exact foldl_keep Dev.capTick _ (fun _ _ => foldl_keep Dev.capTick _ (fun _ _ => by split <;> simp) _ _) _ _
@[simp] theorem Dev.setBudgets_draws  : d.setBudgets.draws = d.draws := by
  unfold Dev.setBudgets
  exact foldl_keep Dev.draws _ (fun _ _ => foldl_keep Dev.draws _ (fun _ _ => by split <;> simp) _ _) _ _
@[simp] theorem Dev.setBudgets_out  : d.setBudgets.out = d.out := by
  unfold Dev.setBudgets
  exact foldl_keep Dev.out _ (fun _ _ => foldl_keep Dev.out _ (fun _ _ => by split <;> simp) _ _) _ _

/-! ## rebudget -/

@[simp] theorem Dev.rebudget_now  : d.rebudget.now = d.now := by
  unfold Dev.rebudget; split
  · exact (Dev.setBudgets_now _).trans rfl
  · rfl
@[simp] theorem Dev.rebudget_skew  : d.rebudget.skew = d.skew := by
  unfold Dev.rebudget; split
  · exact (Dev.setBudgets_skew _).trans rfl
  · rfl
@[simp] theorem Dev.rebudget_power  : d.rebudget.power = d.power := by
  unfold Dev.rebudget; split
  · exact (Dev.setBudgets_power _).trans rfl
  · rfl
@[simp] theorem Dev.rebudget_dies  : d.rebudget.dies = d.dies := by
  unfold Dev.rebudget; split
  · exact (Dev.setBudgets_dies _).trans rfl
  · rfl
@[simp] theorem Dev.rebudget_cap  : d.rebudget.cap = d.cap := by
  unfold Dev.rebudget; split
  · exact (Dev.setBudgets_cap _).trans rfl
  · rfl
@[simp] theorem Dev.rebudget_host  : d.rebudget.host = d.host := by
  unfold Dev.rebudget; split
  · exact (Dev.setBudgets_host _).trans rfl
  · rfl
@[simp] theorem Dev.rebudget_blocks  : d.rebudget.blocks = d.blocks := by
  unfold Dev.rebudget; split
  · exact (Dev.setBudgets_blocks _).trans rfl
  · rfl
@[simp] theorem Dev.rebudget_ringSel  : d.rebudget.ringSel = d.ringSel := by
  unfold Dev.rebudget; split
  · exact (Dev.setBudgets_ringSel _).trans rfl
  · rfl
@[simp] theorem Dev.rebudget_epochClaim  : d.rebudget.epochClaim = d.epochClaim := by
  unfold Dev.rebudget; split
  · exact (Dev.setBudgets_epochClaim _).trans rfl
  · rfl
@[simp] theorem Dev.rebudget_epochSlot  : d.rebudget.epochSlot = d.epochSlot := by
  unfold Dev.rebudget; split
  · exact (Dev.setBudgets_epochSlot _).trans rfl
  · rfl
@[simp] theorem Dev.rebudget_rings  : d.rebudget.rings = d.rings := by
  unfold Dev.rebudget; split
  · exact (Dev.setBudgets_rings _).trans rfl
  · rfl
@[simp] theorem Dev.rebudget_tallies  : d.rebudget.tallies = d.tallies := by
  unfold Dev.rebudget; split
  · exact (Dev.setBudgets_tallies _).trans rfl
  · rfl
@[simp] theorem Dev.rebudget_frames  : d.rebudget.frames = d.frames := by
  unfold Dev.rebudget; split
  · exact (Dev.setBudgets_frames _).trans rfl
  · rfl
@[simp] theorem Dev.rebudget_objects  : d.rebudget.objects = d.objects := by
  unfold Dev.rebudget; split
  · exact (Dev.setBudgets_objects _).trans rfl
  · rfl
@[simp] theorem Dev.rebudget_hoist  : d.rebudget.hoist = d.hoist := by
  unfold Dev.rebudget; split
  · exact (Dev.setBudgets_hoist _).trans rfl
  · rfl
@[simp] theorem Dev.rebudget_health  : d.rebudget.health = d.health := by
  unfold Dev.rebudget; split
  · exact (Dev.setBudgets_health _).trans rfl
  · rfl
@[simp] theorem Dev.rebudget_store  : d.rebudget.store = d.store := by
  unfold Dev.rebudget; split
  · exact (Dev.setBudgets_store _).trans rfl
  · rfl
@[simp] theorem Dev.rebudget_mbx  : d.rebudget.mbx = d.mbx := by
  unfold Dev.rebudget; split
  · exact (Dev.setBudgets_mbx _).trans rfl
  · rfl
@[simp] theorem Dev.rebudget_sec  : d.rebudget.sec = d.sec := by
  unfold Dev.rebudget; split
  · exact (Dev.setBudgets_sec _).trans rfl
  · rfl
@[simp] theorem Dev.rebudget_ports  : d.rebudget.ports = d.ports := by
  unfold Dev.rebudget; split
  · exact (Dev.setBudgets_ports _).trans rfl
  · rfl
@[simp] theorem Dev.rebudget_routing  : d.rebudget.routing = d.routing := by
  unfold Dev.rebudget; split
  · exact (Dev.setBudgets_routing _).trans rfl
  · rfl
@[simp] theorem Dev.rebudget_xbar  : d.rebudget.xbar = d.xbar := by
  unfold Dev.rebudget; split
  · exact (Dev.setBudgets_xbar _).trans rfl
  · rfl
@[simp] theorem Dev.rebudget_coll  : d.rebudget.coll = d.coll := by
  unfold Dev.rebudget; split
  · exact (Dev.setBudgets_coll _).trans rfl
  · rfl
@[simp] theorem Dev.rebudget_time  : d.rebudget.time = d.time := by
  unfold Dev.rebudget; split
  · exact (Dev.setBudgets_time _).trans rfl
  · rfl
@[simp] theorem Dev.rebudget_evt  : d.rebudget.evt = d.evt := by
  unfold Dev.rebudget; split
  · exact (Dev.setBudgets_evt _).trans rfl
  · rfl
@[simp] theorem Dev.rebudget_shuttle  : d.rebudget.shuttle = d.shuttle := by
  unfold Dev.rebudget; split
  · exact (Dev.setBudgets_shuttle _).trans rfl
  · rfl
@[simp] theorem Dev.rebudget_dozeAborted  : d.rebudget.dozeAborted = d.dozeAborted := by
  unfold Dev.rebudget; split
  · exact (Dev.setBudgets_dozeAborted _).trans rfl
  · rfl
@[simp] theorem Dev.rebudget_fixedBits  : d.rebudget.fixedBits = d.fixedBits := by
  unfold Dev.rebudget; split
  · exact (Dev.setBudgets_fixedBits _).trans rfl
  · rfl
@[simp] theorem Dev.rebudget_fixedPace  : d.rebudget.fixedPace = d.fixedPace := by
  unfold Dev.rebudget; split
  · exact (Dev.setBudgets_fixedPace _).trans rfl
  · rfl
@[simp] theorem Dev.rebudget_started  : d.rebudget.started = d.started := by
  unfold Dev.rebudget; split
  · exact (Dev.setBudgets_started _).trans rfl
  · rfl
@[simp] theorem Dev.rebudget_turns  : d.rebudget.turns = d.turns := by
  unfold Dev.rebudget; split
  · exact (Dev.setBudgets_turns _).trans rfl
  · rfl
@[simp] theorem Dev.rebudget_capGen  : d.rebudget.capGen = d.capGen := by
  unfold Dev.rebudget; split
  · exact (Dev.setBudgets_capGen _).trans rfl
  · rfl
@[simp] theorem Dev.rebudget_capFinal  : d.rebudget.capFinal = d.capFinal := by
  unfold Dev.rebudget; split
  · exact (Dev.setBudgets_capFinal _).trans rfl
  · rfl
@[simp] theorem Dev.rebudget_capTick  : d.rebudget.capTick = d.capTick := by
  unfold Dev.rebudget; split
  · exact (Dev.setBudgets_capTick _).trans rfl
  · rfl
@[simp] theorem Dev.rebudget_draws  : d.rebudget.draws = d.draws := by
  unfold Dev.rebudget; split
  · exact (Dev.setBudgets_draws _).trans rfl
  · rfl
@[simp] theorem Dev.rebudget_out  : d.rebudget.out = d.out := by
  unfold Dev.rebudget; split
  · exact (Dev.setBudgets_out _).trans rfl
  · rfl

end Sys2Proof.Machine
end

