-- ==== Sys2Proof/WellFormed.lean ====
section
/-!
DEFINITION. The commands the block's neighbours can send: operands within what the wires, packets and buffers of the spec can carry. A
command outside them names nothing that can happen; its meaning is then that of the same rule.
-/
namespace Sys2Proof

/-- A packet as the fabric can carry it: at most 2,048 payload bytes (R270). -/
def Packet.fits (k : Packet) : Bool := decide (k.payload.length ≤ 2048)

/-- An access of CFGWIN that R41 accepts: 4 or 8 bytes. -/
def sizeOk (n : Nat) : Bool := n == 4 || n == 8

/-- A 64-byte line, where there is one (R43). -/
def lineOk : Option (List Byte) → Bool
  | none => true
  | some l => l.length == 64

/-- A mailbox buffer: at most 64 KiB (R403). -/
def bufferOk (l : List Byte) : Bool := decide (l.length ≤ 65536)

/-- A link that trained CXL.io only negotiates nothing more (R40), and SPEED is one of Table 3.9. -/
def LinkResult.ok (l : LinkResult) : Bool :=
  (l.speed == 1 || l.speed == 2 || l.speed == 3) && (l.speed != 1 || (!l.cache && !l.mem && !l.bi))

/-- The well-formedness of a command. -/
def Instr.wf : Instr → Bool
  | .registerWrite _ n v => sizeOk n && (n == 8 || decide (v.toNat < 2 ^ 32))
  | .hostLinkUp l => l.ok
  | .cxlMemRequest a data _ => lineOk data && decide (a.toNat % 64 = 0)
  | .doorbellReadReturn _ line => lineOk line
  | .flitReceive _ b => b.length == 256
  | .hdmwinRead _ n _ => decide (1 ≤ n) && decide (n ≤ 64)
  | .hdmwinWrite _ data _ => decide (1 ≤ data.length) && decide (data.length ≤ 64)
  | .shuttleCount k | .shuttleArmed k | .shuttleRefuse k | .shuttleRows k | .shuttleResult k | .shuttleAck k => k.fits
  | .packetForward _ k | .packetIngress k | .noticeReceive k | .deArrival _ k => k.fits
  | .putReceive k | .atomicReqReceive k | .getDataReceive k | .atomicRspReceive k | .remoteAckReceive k | .remoteNakReceive k => k.fits
  | .getReqReceive k n => k.fits && decide (1 ≤ n) && decide (n ≤ 1536)
  | .collUpReceive k | .collDownReceive k | .collWindowReceive k | .collPresentReceive k | .collAbortReceive k => k.fits
  | .attest m | .unlock m | .change m => bufferOk m
  | .fwLoad m _ => bufferOk m
  | .mailboxBadMessage m => (match m with | some m => bufferOk m | none => true)
  | .governorWindow dies hub _ => decide (dies.length ≤ 4) && dies.all (fun z => z.canaries.length == 32) && hub.length == 16
  | _ => true

/-- The bytes of data that come with a command, where the spec bounds them: a register's, a line's, a packet's payload, a mailbox
buffer's. -/
def Instr.carried : Instr → Nat
  | .registerWrite _ n _ => n
  | .cxlMemRequest _ data _ => (data.getD []).length
  | .hdmwinRead _ n _ => n
  | .doorbellReadReturn _ line => (line.getD []).length
  | .flitReceive _ b => b.length
  | .hdmwinWrite _ data _ => data.length
  | .shuttleCount k | .shuttleArmed k | .shuttleRefuse k | .shuttleRows k | .shuttleResult k | .shuttleAck k => k.payload.length
  | .packetForward _ k | .packetIngress k | .noticeReceive k | .deArrival _ k => k.payload.length
  | .putReceive k | .atomicReqReceive k | .getDataReceive k | .atomicRspReceive k | .remoteAckReceive k | .remoteNakReceive k =>
    k.payload.length
  | .getReqReceive _ n => n
  | .collUpReceive k | .collDownReceive k | .collWindowReceive k | .collPresentReceive k | .collAbortReceive k => k.payload.length
  | .attest m | .unlock m | .change m => m.length
  | .fwLoad m _ => m.length
  | .mailboxBadMessage m => (m.getD []).length
  | _ => 0

end Sys2Proof
end

