-- ==== Sys2Proof/Laws/PerInstr.lean ====
section
/-!
SUPPORT. The family Shape: a well-formed command carries at most the 64 KiB of a mailbox buffer, constructor by constructor.
-/
namespace Sys2Proof.Laws.Shape

open Sys2Proof

/-- A well-formed command carries at most 65,536 bytes. -/
def Statement (i : Instr) : Prop := i.wf = true → i.carried ≤ 65536

theorem packet_bound (k : Packet) (h : k.fits = true) : k.payload.length ≤ 65536 :=
  Nat.le_trans (of_decide_eq_true h) (by decide)

theorem buffer_bound (l : List Byte) (h : bufferOk l = true) : l.length ≤ 65536 := of_decide_eq_true h

theorem size_bound (n : Nat) (h : sizeOk n = true) : n ≤ 65536 := by
  simp only [sizeOk, Bool.or_eq_true, beq_iff_eq] at h; omega

theorem count_bound (n m : Nat) (hm : m ≤ 65536) (h : decide (n ≤ m) = true) : n ≤ 65536 := Nat.le_trans (of_decide_eq_true h) hm

theorem line_bound (data : Option (List Byte)) (h : lineOk data = true) : (data.getD []).length ≤ 65536 := by
  cases data with
  | none => exact Nat.zero_le _
  | some l => have : l.length = 64 := by simpa [lineOk] using h
              simp [this]

theorem alwaysOnPowerUp : ∀ a0 a1 a2 a3 a4, Statement (.alwaysOnPowerUp a0 a1 a2 a3 a4) :=
  fun _ _ _ _ _ _ => Nat.zero_le _
theorem allPowerRemoved : Statement .allPowerRemoved :=
  fun _ => Nat.zero_le _
theorem mainPowerUpRequest : Statement .mainPowerUpRequest :=
  fun _ => Nat.zero_le _
theorem hubSelfTestDone : Statement .hubSelfTestDone :=
  fun _ => Nat.zero_le _
theorem loomDieDomainOn : ∀ a0, Statement (.loomDieDomainOn a0) :=
  fun _ _ => Nat.zero_le _
theorem sequencingRetry : ∀ a0, Statement (.sequencingRetry a0) :=
  fun _ _ => Nat.zero_le _
theorem dieReady : ∀ a0 a1 a2, Statement (.dieReady a0 a1 a2) :=
  fun _ _ _ _ => Nat.zero_le _
theorem pstateRunning : Statement .pstateRunning :=
  fun _ => Nat.zero_le _
theorem auxInputLow : Statement .auxInputLow :=
  fun _ => Nat.zero_le _
theorem auxInputRecovered : Statement .auxInputRecovered :=
  fun _ => Nat.zero_le _
theorem mainUndervoltage : ∀ a0, Statement (.mainUndervoltage a0) :=
  fun _ _ => Nat.zero_le _
theorem mainOvervoltage : ∀ a0, Statement (.mainOvervoltage a0) :=
  fun _ _ => Nat.zero_le _
theorem mainProtectionClose : Statement .mainProtectionClose :=
  fun _ => Nat.zero_le _
theorem matedNHigh : ∀ a0, Statement (.matedNHigh a0) :=
  fun _ _ => Nat.zero_le _
theorem matedNSettled : Statement .matedNSettled :=
  fun _ => Nat.zero_le _
theorem pwrWarnAsserted : ∀ a0 a1, Statement (.pwrWarnAsserted a0 a1) :=
  fun _ _ _ => Nat.zero_le _
theorem coldStartArm : Statement .coldStartArm :=
  fun _ => Nat.zero_le _
theorem coldStartGo : Statement .coldStartGo :=
  fun _ => Nat.zero_le _
theorem coldStartArmExpiry : Statement .coldStartArmExpiry :=
  fun _ => Nat.zero_le _
theorem dieThermalTrip : ∀ a0, Statement (.dieThermalTrip a0) :=
  fun _ _ => Nat.zero_le _
theorem hubThermalTrip : Statement .hubThermalTrip :=
  fun _ => Nat.zero_le _
theorem mgmtThermalTrip : Statement .mgmtThermalTrip :=
  fun _ => Nat.zero_le _
theorem thermClear : Statement .thermClear :=
  fun _ => Nat.zero_le _
theorem coolantInletHot : Statement .coolantInletHot :=
  fun _ => Nat.zero_le _
theorem lowFlow : Statement .lowFlow :=
  fun _ => Nat.zero_le _
theorem i3cAddressWrite : ∀ a0, Statement (.i3cAddressWrite a0) :=
  fun _ _ => Nat.zero_le _
theorem i3cRead : ∀ a0, Statement (.i3cRead a0) :=
  fun _ _ => Nat.zero_le _
theorem i3cDynamicAddress : ∀ a0, Statement (.i3cDynamicAddress a0) :=
  fun _ _ => Nat.zero_le _
theorem cxlRefclkLost : Statement .cxlRefclkLost :=
  fun _ => Nat.zero_le _
theorem timerefBad : Statement .timerefBad :=
  fun _ => Nat.zero_le _
theorem timerefGood : Statement .timerefGood :=
  fun _ => Nat.zero_le _
theorem hostLinkUp : ∀ a0, Statement (.hostLinkUp a0) :=
  fun _ _ => Nat.zero_le _
theorem hostLinkDown : Statement .hostLinkDown :=
  fun _ => Nat.zero_le _
theorem linkTrainRetry : ∀ a0, Statement (.linkTrainRetry a0) :=
  fun _ _ => Nat.zero_le _
theorem perstAssert : Statement .perstAssert :=
  fun _ => Nat.zero_le _
theorem perstDeassert : Statement .perstDeassert :=
  fun _ => Nat.zero_le _
theorem hotReset : Statement .hotReset :=
  fun _ => Nat.zero_le _
theorem flr : Statement .flr :=
  fun _ => Nat.zero_le _
theorem cxlReset : Statement .cxlReset :=
  fun _ => Nat.zero_le _
theorem globalPersistentFlush : Statement .globalPersistentFlush :=
  fun _ => Nat.zero_le _
theorem hdmCommit : ∀ a0 a1 a2 a3 a4, Statement (.hdmCommit a0 a1 a2 a3 a4) :=
  fun _ _ _ _ _ _ => Nat.zero_le _
theorem hdmwinRead : ∀ a0 a1 a2, Statement (.hdmwinRead a0 a1 a2) :=
  fun _ n _ h => count_bound n 64 (by decide) (Bool.and_eq_true_iff.mp h).2
theorem hdmwinWrite : ∀ a0 a1 a2, Statement (.hdmwinWrite a0 a1 a2) :=
  fun _ l _ h => count_bound l.length 64 (by decide) (Bool.and_eq_true_iff.mp h).2
theorem doorbellSnoop : ∀ a0, Statement (.doorbellSnoop a0) :=
  fun _ _ => Nat.zero_le _
theorem doorbellPoll : ∀ a0, Statement (.doorbellPoll a0) :=
  fun _ _ => Nat.zero_le _
theorem doorbellReadReturn : ∀ a0 a1, Statement (.doorbellReadReturn a0 a1) :=
  fun _ l h => line_bound l h
theorem msixUnmask : ∀ a0, Statement (.msixUnmask a0) :=
  fun _ _ => Nat.zero_le _
theorem enableSet : ∀ a0, Statement (.enableSet a0) :=
  fun _ _ => Nat.zero_le _
theorem enableClear : ∀ a0, Statement (.enableClear a0) :=
  fun _ _ => Nat.zero_le _
theorem enableCheckDone : ∀ a0, Statement (.enableCheckDone a0) :=
  fun _ _ => Nat.zero_le _
theorem blockReachesOff : ∀ a0, Statement (.blockReachesOff a0) :=
  fun _ _ => Nat.zero_le _
theorem registerWrite : ∀ a0 a1 a2, Statement (.registerWrite a0 a1 a2) :=
  fun _ n _ h => size_bound n (Bool.and_eq_true_iff.mp h).1
theorem descriptorFetch : ∀ a0 a1, Statement (.descriptorFetch a0 a1) :=
  fun _ _ _ => Nat.zero_le _
theorem descriptorStart : ∀ a0, Statement (.descriptorStart a0) :=
  fun _ _ => Nat.zero_le _
theorem opComplete : ∀ a0 a1, Statement (.opComplete a0 a1) :=
  fun _ _ _ => Nat.zero_le _
theorem recordPost : ∀ a0 a1, Statement (.recordPost a0 a1) :=
  fun _ _ _ => Nat.zero_le _
theorem ringIrqTimeout : ∀ a0, Statement (.ringIrqTimeout a0) :=
  fun _ _ => Nat.zero_le _
theorem deadlineReached : ∀ a0 a1, Statement (.deadlineReached a0 a1) :=
  fun _ _ _ => Nat.zero_le _
theorem nop : ∀ a0 a1, Statement (.nop a0 a1) :=
  fun _ _ _ => Nat.zero_le _
theorem fence : ∀ a0 a1, Statement (.fence a0 a1) :=
  fun _ _ _ => Nat.zero_le _
theorem tallySignal : ∀ a0 a1, Statement (.tallySignal a0 a1) :=
  fun _ _ _ => Nat.zero_le _
theorem tallyWait : ∀ a0 a1, Statement (.tallyWait a0 a1) :=
  fun _ _ _ => Nat.zero_le _
theorem repeatBy : ∀ a0 a1, Statement (.repeatBy a0 a1) :=
  fun _ _ _ => Nat.zero_le _
theorem skipIf : ∀ a0 a1, Statement (.skipIf a0 a1) :=
  fun _ _ _ => Nat.zero_le _
theorem timestamp : ∀ a0 a1, Statement (.timestamp a0 a1) :=
  fun _ _ _ => Nat.zero_le _
theorem matmul : ∀ a0 a1, Statement (.matmul a0 a1) :=
  fun _ _ _ => Nat.zero_le _
theorem conv : ∀ a0 a1, Statement (.conv a0 a1) :=
  fun _ _ _ => Nat.zero_le _
theorem spmm : ∀ a0 a1, Statement (.spmm a0 a1) :=
  fun _ _ _ => Nat.zero_le _
theorem finish : ∀ a0 a1, Statement (.finish a0 a1) :=
  fun _ _ _ => Nat.zero_le _
theorem rngFill : ∀ a0 a1, Statement (.rngFill a0 a1) :=
  fun _ _ _ => Nat.zero_le _
theorem assay : ∀ a0 a1, Statement (.assay a0 a1) :=
  fun _ _ _ => Nat.zero_le _
theorem sluice : ∀ a0 a1, Statement (.sluice a0 a1) :=
  fun _ _ _ => Nat.zero_le _
theorem dispatch : ∀ a0 a1, Statement (.dispatch a0 a1) :=
  fun _ _ _ => Nat.zero_le _
theorem returnSlot : ∀ a0 a1, Statement (.returnSlot a0 a1) :=
  fun _ _ _ => Nat.zero_le _
theorem returnAccum : ∀ a0 a1, Statement (.returnAccum a0 a1) :=
  fun _ _ _ => Nat.zero_le _
theorem combine : ∀ a0 a1, Statement (.combine a0 a1) :=
  fun _ _ _ => Nat.zero_le _
theorem cancelBatch : ∀ a0 a1, Statement (.cancelBatch a0 a1) :=
  fun _ _ _ => Nat.zero_le _
theorem hoist : ∀ a0 a1, Statement (.hoist a0 a1) :=
  fun _ _ _ => Nat.zero_le _
theorem settle : ∀ a0 a1, Statement (.settle a0 a1) :=
  fun _ _ _ => Nat.zero_le _
theorem place : ∀ a0 a1, Statement (.place a0 a1) :=
  fun _ _ _ => Nat.zero_le _
theorem copy : ∀ a0 a1, Statement (.copy a0 a1) :=
  fun _ _ _ => Nat.zero_le _
theorem remotePut : ∀ a0 a1, Statement (.remotePut a0 a1) :=
  fun _ _ _ => Nat.zero_le _
theorem remoteGet : ∀ a0 a1, Statement (.remoteGet a0 a1) :=
  fun _ _ _ => Nat.zero_le _
theorem remoteAtomic : ∀ a0 a1, Statement (.remoteAtomic a0 a1) :=
  fun _ _ _ => Nat.zero_le _
theorem collAllreduce : ∀ a0 a1, Statement (.collAllreduce a0 a1) :=
  fun _ _ _ => Nat.zero_le _
theorem collReduceScatter : ∀ a0 a1, Statement (.collReduceScatter a0 a1) :=
  fun _ _ _ => Nat.zero_le _
theorem collAllgather : ∀ a0 a1, Statement (.collAllgather a0 a1) :=
  fun _ _ _ => Nat.zero_le _
theorem collBcastLine : ∀ a0 a1, Statement (.collBcastLine a0 a1) :=
  fun _ _ _ => Nat.zero_le _
theorem collBarrier : ∀ a0 a1, Statement (.collBarrier a0 a1) :=
  fun _ _ _ => Nat.zero_le _
theorem permitIssue : ∀ a0 a1 a2, Statement (.permitIssue a0 a1 a2) :=
  fun _ _ _ _ => Nat.zero_le _
theorem governorWindow : ∀ a0 a1 a2, Statement (.governorWindow a0 a1 a2) :=
  fun _ _ _ _ => Nat.zero_le _
theorem govCtlWrite : ∀ a0 a1, Statement (.govCtlWrite a0 a1) :=
  fun _ _ _ => Nat.zero_le _
theorem govPaceWrite : ∀ a0 a1, Statement (.govPaceWrite a0 a1) :=
  fun _ _ _ => Nat.zero_le _
theorem govVrangeWrite : ∀ a0 a1, Statement (.govVrangeWrite a0 a1) :=
  fun _ _ _ => Nat.zero_le _
theorem govSupplyWrite : ∀ a0 a1, Statement (.govSupplyWrite a0 a1) :=
  fun _ _ _ => Nat.zero_le _
theorem powerCapWrite : ∀ a0, Statement (.powerCapWrite a0) :=
  fun _ _ => Nat.zero_le _
theorem counterSnap : ∀ a0 a1, Statement (.counterSnap a0 a1) :=
  fun _ _ _ => Nat.zero_le _
theorem counterClear : ∀ a0, Statement (.counterClear a0) :=
  fun _ _ => Nat.zero_le _
theorem laneFault : ∀ a0 a1 a2, Statement (.laneFault a0 a1 a2) :=
  fun _ _ _ _ => Nat.zero_le _
theorem spareSelfTestDone : ∀ a0 a1 a2, Statement (.spareSelfTestDone a0 a1 a2) :=
  fun _ _ _ _ => Nat.zero_le _
theorem shuttleCount : ∀ a0, Statement (.shuttleCount a0) :=
  fun k h => packet_bound k h
theorem shuttleArmed : ∀ a0, Statement (.shuttleArmed a0) :=
  fun k h => packet_bound k h
theorem shuttleRefuse : ∀ a0, Statement (.shuttleRefuse a0) :=
  fun k h => packet_bound k h
theorem shuttleRows : ∀ a0, Statement (.shuttleRows a0) :=
  fun k h => packet_bound k h
theorem shuttleResult : ∀ a0, Statement (.shuttleResult a0) :=
  fun k h => packet_bound k h
theorem shuttleAck : ∀ a0, Statement (.shuttleAck a0) :=
  fun k h => packet_bound k h
theorem shuttleArmTimeout : ∀ a0 a1, Statement (.shuttleArmTimeout a0 a1) :=
  fun _ _ _ => Nat.zero_le _
theorem objCreate : Statement .objCreate :=
  fun _ => Nat.zero_le _
theorem objCreateDone : ∀ a0, Statement (.objCreateDone a0) :=
  fun _ _ => Nat.zero_le _
theorem objDestroy : Statement .objDestroy :=
  fun _ => Nat.zero_le _
theorem objQuery : Statement .objQuery :=
  fun _ => Nat.zero_le _
theorem moveCommit : ∀ a0 a1, Statement (.moveCommit a0 a1) :=
  fun _ _ _ => Nat.zero_le _
theorem hoistEvaluation : ∀ a0, Statement (.hoistEvaluation a0) :=
  fun _ _ => Nat.zero_le _
theorem heatHalving : Statement .heatHalving :=
  fun _ => Nat.zero_le _
theorem patrolScrub : ∀ a0 a1 a2 a3, Statement (.patrolScrub a0 a1 a2 a3) :=
  fun _ _ _ _ _ => Nat.zero_le _
theorem ldTierAutoWrite : ∀ a0 a1, Statement (.ldTierAutoWrite a0 a1) :=
  fun _ _ _ => Nat.zero_le _
theorem hoistCfgWrite : ∀ a0, Statement (.hoistCfgWrite a0) :=
  fun _ _ => Nat.zero_le _
theorem frameStart : Statement .frameStart :=
  fun _ => Nat.zero_le _
theorem meterAdmit : ∀ a0, Statement (.meterAdmit a0) :=
  fun _ _ => Nat.zero_le _
theorem claimPreempt : ∀ a0 a1, Statement (.claimPreempt a0 a1) :=
  fun _ _ _ => Nat.zero_le _
theorem preemptSave : ∀ a0, Statement (.preemptSave a0) :=
  fun _ _ => Nat.zero_le _
theorem preemptTimeout : ∀ a0, Statement (.preemptTimeout a0) :=
  fun _ _ => Nat.zero_le _
theorem claimRestore : ∀ a0, Statement (.claimRestore a0) :=
  fun _ _ => Nat.zero_le _
theorem claimRestoreRestart : ∀ a0, Statement (.claimRestoreRestart a0) :=
  fun _ _ => Nat.zero_le _
theorem claimShareWrite : ∀ a0 a1 a2, Statement (.claimShareWrite a0 a1 a2) :=
  fun _ _ _ _ => Nat.zero_le _
theorem claimCfgWrite : ∀ a0 a1, Statement (.claimCfgWrite a0 a1) :=
  fun _ _ _ => Nat.zero_le _
theorem claimsFrameWrite : ∀ a0, Statement (.claimsFrameWrite a0) :=
  fun _ _ => Nat.zero_le _
theorem claimsLendWrite : ∀ a0, Statement (.claimsLendWrite a0) :=
  fun _ _ => Nat.zero_le _
theorem claimMeterSelWrite : ∀ a0 a1, Statement (.claimMeterSelWrite a0 a1) :=
  fun _ _ _ => Nat.zero_le _
theorem fabricLinkUp : ∀ a0 a1, Statement (.fabricLinkUp a0 a1) :=
  fun _ _ _ => Nat.zero_le _
theorem portRetrain : ∀ a0, Statement (.portRetrain a0) :=
  fun _ _ => Nat.zero_le _
theorem flitReceive : ∀ a0 a1, Statement (.flitReceive a0 a1) :=
  fun _ b h => by have : b.length = 256 := of_decide_eq_true h
                  simp [Instr.carried, this]
theorem flitNak : ∀ a0 a1, Statement (.flitNak a0 a1) :=
  fun _ _ _ => Nat.zero_le _
theorem linkRetryExhausted : ∀ a0 a1, Statement (.linkRetryExhausted a0 a1) :=
  fun _ _ _ => Nat.zero_le _
theorem linkAckTimeout : ∀ a0 a1, Statement (.linkAckTimeout a0 a1) :=
  fun _ _ _ => Nat.zero_le _
theorem leavingNoticeReceive : ∀ a0, Statement (.leavingNoticeReceive a0) :=
  fun _ _ => Nat.zero_le _
theorem loopbackDone : ∀ a0 a1, Statement (.loopbackDone a0 a1) :=
  fun _ _ _ => Nat.zero_le _
theorem packetForward : ∀ a0 a1, Statement (.packetForward a0 a1) :=
  fun _ k h => packet_bound k h
theorem packetIngress : ∀ a0, Statement (.packetIngress a0) :=
  fun k h => packet_bound k h
theorem noticeReceive : ∀ a0, Statement (.noticeReceive a0) :=
  fun k h => packet_bound k h
theorem deliveryConfirm : ∀ a0 a1 a2, Statement (.deliveryConfirm a0 a1 a2) :=
  fun _ _ _ _ => Nat.zero_le _
theorem rtL2pDataWrite : ∀ a0, Statement (.rtL2pDataWrite a0) :=
  fun _ _ => Nat.zero_le _
theorem rtL2pDataRead : Statement .rtL2pDataRead :=
  fun _ => Nat.zero_le _
theorem rtSpanDataWrite : ∀ a0, Statement (.rtSpanDataWrite a0) :=
  fun _ _ => Nat.zero_le _
theorem rtSpanDataRead : Statement .rtSpanDataRead :=
  fun _ => Nat.zero_le _
theorem rtAdaptWrite : ∀ a0, Statement (.rtAdaptWrite a0) :=
  fun _ _ => Nat.zero_le _
theorem planeRetire : ∀ a0, Statement (.planeRetire a0) :=
  fun _ _ => Nat.zero_le _
theorem xbarPlaneCtlWrite : ∀ a0, Statement (.xbarPlaneCtlWrite a0) :=
  fun _ _ => Nat.zero_le _
theorem xbarClassShareWrite : ∀ a0, Statement (.xbarClassShareWrite a0) :=
  fun _ _ => Nat.zero_le _
theorem xbarRedWrite : ∀ a0 a1, Statement (.xbarRedWrite a0 a1) :=
  fun _ _ _ => Nat.zero_le _
theorem deArrival : ∀ a0 a1, Statement (.deArrival a0 a1) :=
  fun _ k h => packet_bound k h
theorem putReceive : ∀ a0, Statement (.putReceive a0) :=
  fun k h => packet_bound k h
theorem getReqReceive : ∀ a0 a1, Statement (.getReqReceive a0 a1) :=
  fun _ n h => count_bound n 1536 (by decide) (Bool.and_eq_true_iff.mp h).2
theorem atomicReqReceive : ∀ a0, Statement (.atomicReqReceive a0) :=
  fun k h => packet_bound k h
theorem getDataReceive : ∀ a0, Statement (.getDataReceive a0) :=
  fun k h => packet_bound k h
theorem atomicRspReceive : ∀ a0, Statement (.atomicRspReceive a0) :=
  fun k h => packet_bound k h
theorem remoteAckReceive : ∀ a0, Statement (.remoteAckReceive a0) :=
  fun k h => packet_bound k h
theorem remoteNakReceive : ∀ a0, Statement (.remoteNakReceive a0) :=
  fun k h => packet_bound k h
theorem deTimeout : ∀ a0, Statement (.deTimeout a0) :=
  fun _ _ => Nat.zero_le _
theorem remTimeout : ∀ a0, Statement (.remTimeout a0) :=
  fun _ _ => Nat.zero_le _
theorem rgnWrite : Statement .rgnWrite :=
  fun _ => Nat.zero_le _
theorem rgnInvalidate : Statement .rgnInvalidate :=
  fun _ => Nat.zero_le _
theorem rgnRead : Statement .rgnRead :=
  fun _ => Nat.zero_le _
theorem grpDefine : Statement .grpDefine :=
  fun _ => Nat.zero_le _
theorem grpRelease : Statement .grpRelease :=
  fun _ => Nat.zero_le _
theorem grpRead : Statement .grpRead :=
  fun _ => Nat.zero_le _
theorem collUpReceive : ∀ a0, Statement (.collUpReceive a0) :=
  fun k h => packet_bound k h
theorem collDownReceive : ∀ a0, Statement (.collDownReceive a0) :=
  fun k h => packet_bound k h
theorem collWindowReceive : ∀ a0, Statement (.collWindowReceive a0) :=
  fun k h => packet_bound k h
theorem collPresentReceive : ∀ a0, Statement (.collPresentReceive a0) :=
  fun k h => packet_bound k h
theorem collAbortReceive : ∀ a0, Statement (.collAbortReceive a0) :=
  fun k h => packet_bound k h
theorem collTimeout : ∀ a0, Statement (.collTimeout a0) :=
  fun _ _ => Nat.zero_le _
theorem timingExchange : Statement .timingExchange :=
  fun _ => Nat.zero_le _
theorem timingRequestReceive : ∀ a0, Statement (.timingRequestReceive a0) :=
  fun _ _ => Nat.zero_le _
theorem timingAnswerReceive : ∀ a0 a1 a2 a3 a4 a5, Statement (.timingAnswerReceive a0 a1 a2 a3 a4 a5) :=
  fun _ _ _ _ _ _ _ => Nat.zero_le _
theorem timingExchangeMissed : Statement .timingExchangeMissed :=
  fun _ => Nat.zero_le _
theorem syncArm : Statement .syncArm :=
  fun _ => Nat.zero_le _
theorem syncPulse : Statement .syncPulse :=
  fun _ => Nat.zero_le _
theorem barrierArriveReceive : ∀ a0 a1 a2, Statement (.barrierArriveReceive a0 a1 a2) :=
  fun _ _ _ _ => Nat.zero_le _
theorem barrierReleaseReceive : ∀ a0 a1 a2 a3 a4 a5, Statement (.barrierReleaseReceive a0 a1 a2 a3 a4 a5) :=
  fun _ _ _ _ _ _ _ => Nat.zero_le _
theorem barrierReleaseTick : ∀ a0, Statement (.barrierReleaseTick a0) :=
  fun _ _ => Nat.zero_le _
theorem tagAssign : Statement .tagAssign :=
  fun _ => Nat.zero_le _
theorem tagUnassign : Statement .tagUnassign :=
  fun _ => Nat.zero_le _
theorem tagRevoke : Statement .tagRevoke :=
  fun _ => Nat.zero_le _
theorem tagQuery : Statement .tagQuery :=
  fun _ => Nat.zero_le _
theorem jobStart : ∀ a0 a1, Statement (.jobStart a0 a1) :=
  fun _ _ _ => Nat.zero_le _
theorem jobTeardown : ∀ a0 a1, Statement (.jobTeardown a0 a1) :=
  fun _ _ _ => Nat.zero_le _
theorem jobStartReceive : ∀ a0 a1 a2 a3, Statement (.jobStartReceive a0 a1 a2 a3) :=
  fun _ _ _ _ _ => Nat.zero_le _
theorem jobAnswerReceive : ∀ a0 a1 a2 a3 a4 a5, Statement (.jobAnswerReceive a0 a1 a2 a3 a4 a5) :=
  fun _ _ _ _ _ _ _ => Nat.zero_le _
theorem jobChildWaitTimeout : ∀ a0, Statement (.jobChildWaitTimeout a0) :=
  fun _ _ => Nat.zero_le _
theorem jobStartTimeout : Statement .jobStartTimeout :=
  fun _ => Nat.zero_le _
theorem jobGoReceive : ∀ a0 a1 a2 a3, Statement (.jobGoReceive a0 a1 a2 a3) :=
  fun _ _ _ _ _ => Nat.zero_le _
theorem jobAbortReceive : ∀ a0 a1 a2, Statement (.jobAbortReceive a0 a1 a2) :=
  fun _ _ _ _ => Nat.zero_le _
theorem tagActivate : ∀ a0, Statement (.tagActivate a0) :=
  fun _ _ => Nat.zero_le _
theorem startingTagTimeout : ∀ a0, Statement (.startingTagTimeout a0) :=
  fun _ _ => Nat.zero_le _
theorem jobRevokeReceive : ∀ a0 a1, Statement (.jobRevokeReceive a0 a1) :=
  fun _ _ _ => Nat.zero_le _
theorem tagDrainComplete : ∀ a0, Statement (.tagDrainComplete a0) :=
  fun _ _ => Nat.zero_le _
theorem jobFreeReportReceive : ∀ a0 a1 a2, Statement (.jobFreeReportReceive a0 a1 a2) :=
  fun _ _ _ _ => Nat.zero_le _
theorem teardownTimeout : Statement .teardownTimeout :=
  fun _ => Nat.zero_le _
theorem timeReproWrite : ∀ a0, Statement (.timeReproWrite a0) :=
  fun _ _ => Nat.zero_le _
theorem timeBarCfgWrite : ∀ a0, Statement (.timeBarCfgWrite a0) :=
  fun _ _ => Nat.zero_le _
theorem eventSourceAssert : ∀ a0 a1, Statement (.eventSourceAssert a0 a1) :=
  fun _ _ _ => Nat.zero_le _
theorem eventDeliver : ∀ a0 a1, Statement (.eventDeliver a0 a1) :=
  fun _ _ _ => Nat.zero_le _
theorem endOfService : ∀ a0 a1 a2, Statement (.endOfService a0 a1 a2) :=
  fun _ _ _ _ => Nat.zero_le _
theorem monitorSample : ∀ a0 a1, Statement (.monitorSample a0 a1) :=
  fun _ _ _ => Nat.zero_le _
theorem kernelLoad : Statement .kernelLoad :=
  fun _ => Nat.zero_le _
theorem kernelStart : Statement .kernelStart :=
  fun _ => Nat.zero_le _
theorem kernelStop : Statement .kernelStop :=
  fun _ => Nat.zero_le _
theorem kernelException : ∀ a0, Statement (.kernelException a0) :=
  fun _ _ => Nat.zero_le _
theorem kernelIssue : ∀ a0 a1 a2, Statement (.kernelIssue a0 a1 a2) :=
  fun _ _ _ _ => Nat.zero_le _
theorem kernelHeadWrite : ∀ a0 a1 a2, Statement (.kernelHeadWrite a0 a1 a2) :=
  fun _ _ _ _ => Nat.zero_le _
theorem dozeRequest : ∀ a0, Statement (.dozeRequest a0) :=
  fun _ _ => Nat.zero_le _
theorem dozeEntryDone : ∀ a0, Statement (.dozeEntryDone a0) :=
  fun _ _ => Nat.zero_le _
theorem wakeDone : ∀ a0, Statement (.wakeDone a0) :=
  fun _ _ => Nat.zero_le _
theorem moduleDozeRequest : Statement .moduleDozeRequest :=
  fun _ => Nat.zero_le _
theorem moduleDozeClear : Statement .moduleDozeClear :=
  fun _ => Nat.zero_le _
theorem handover : ∀ a0, Statement (.handover a0) :=
  fun _ _ => Nat.zero_le _
theorem deputyWatchdogExpiry : ∀ a0 a1, Statement (.deputyWatchdogExpiry a0 a1) :=
  fun _ _ _ => Nat.zero_le _
theorem serviceAck : Statement .serviceAck :=
  fun _ => Nat.zero_le _
theorem clearEventRecords : Statement .clearEventRecords :=
  fun _ => Nat.zero_le _
theorem spareCtlWrite : ∀ a0, Statement (.spareCtlWrite a0) :=
  fun _ _ => Nat.zero_le _
theorem dieContain : ∀ a0, Statement (.dieContain a0) :=
  fun _ _ => Nat.zero_le _
theorem engineFault : ∀ a0, Statement (.engineFault a0) :=
  fun _ _ => Nat.zero_le _
theorem tallyEntryFault : ∀ a0, Statement (.tallyEntryFault a0) :=
  fun _ _ => Nat.zero_le _
theorem telemetryPost : Statement .telemetryPost :=
  fun _ => Nat.zero_le _
theorem traceSample : Statement .traceSample :=
  fun _ => Nat.zero_le _
theorem tqHeadWrite : ∀ a0, Statement (.tqHeadWrite a0) :=
  fun _ _ => Nat.zero_le _
theorem getIdentity : ∀ a0, Statement (.getIdentity a0) :=
  fun _ _ => Nat.zero_le _
theorem attest : ∀ a0, Statement (.attest a0) :=
  fun m h => buffer_bound m h
theorem fwLoad : ∀ a0 a1, Statement (.fwLoad a0 a1) :=
  fun m _ h => buffer_bound m h
theorem unlockChallenge : ∀ a0, Statement (.unlockChallenge a0) :=
  fun _ _ => Nat.zero_le _
theorem unlock : ∀ a0, Statement (.unlock a0) :=
  fun m h => buffer_bound m h
theorem relock : ∀ a0, Statement (.relock a0) :=
  fun _ _ => Nat.zero_le _
theorem unlockNonceExpiry : Statement .unlockNonceExpiry :=
  fun _ => Nat.zero_le _
theorem debugScopeExpiry : ∀ a0, Statement (.debugScopeExpiry a0) :=
  fun _ _ => Nat.zero_le _
theorem getProtection : ∀ a0, Statement (.getProtection a0) :=
  fun _ _ => Nat.zero_le _
theorem change : ∀ a0, Statement (.change a0) :=
  fun m h => buffer_bound m h
theorem cxlMemRequest : ∀ a0 a1 a2, Statement (.cxlMemRequest a0 a1 a2) :=
  fun _ l _ h => line_bound l (Bool.and_eq_true_iff.mp h).1
theorem mailboxBadMessage : ∀ a0, Statement (.mailboxBadMessage a0) :=
  fun m => match m with | none => fun _ => Nat.zero_le _ | some l => fun h => buffer_bound l h

end Sys2Proof.Laws.Shape
end

