-- ==== Sys2Proof/Laws/Stops.lean ====
section
/-!
SUPPORT. What the stops of chapters 1, 3, 4, 10 and 11 leave of the device: the fields that no stop of a block reaches.
-/
namespace Sys2Proof.Machine

variable (d : Dev)

/-! ## freeDying -/

@[simp] theorem Dev.freeDying_now  : d.freeDying.now = d.now := by
  unfold Dev.freeDying; exact foldl_keep Dev.now _ (fun _ _ => by (repeat' split) <;> simp) _ _
@[simp] theorem Dev.freeDying_skew  : d.freeDying.skew = d.skew := by
  unfold Dev.freeDying; exact foldl_keep Dev.skew _ (fun _ _ => by (repeat' split) <;> simp) _ _
@[simp] theorem Dev.freeDying_power  : d.freeDying.power = d.power := by
  unfold Dev.freeDying; exact foldl_keep Dev.power _ (fun _ _ => by (repeat' split) <;> simp) _ _
@[simp] theorem Dev.freeDying_cap  : d.freeDying.cap = d.cap := by
  unfold Dev.freeDying; exact foldl_keep Dev.cap _ (fun _ _ => by (repeat' split) <;> simp) _ _
@[simp] theorem Dev.freeDying_host  : d.freeDying.host = d.host := by
  unfold Dev.freeDying; exact foldl_keep Dev.host _ (fun _ _ => by (repeat' split) <;> simp) _ _
@[simp] theorem Dev.freeDying_blocks  : d.freeDying.blocks = d.blocks := by
  unfold Dev.freeDying; exact foldl_keep Dev.blocks _ (fun _ _ => by (repeat' split) <;> simp) _ _
@[simp] theorem Dev.freeDying_ringSel  : d.freeDying.ringSel = d.ringSel := by
  unfold Dev.freeDying; exact foldl_keep Dev.ringSel _ (fun _ _ => by (repeat' split) <;> simp) _ _
@[simp] theorem Dev.freeDying_epochClaim  : d.freeDying.epochClaim = d.epochClaim := by
  unfold Dev.freeDying; exact foldl_keep Dev.epochClaim _ (fun _ _ => by (repeat' split) <;> simp) _ _
@[simp] theorem Dev.freeDying_epochSlot  : d.freeDying.epochSlot = d.epochSlot := by
  unfold Dev.freeDying; exact foldl_keep Dev.epochSlot _ (fun _ _ => by (repeat' split) <;> simp) _ _
@[simp] theorem Dev.freeDying_rings  : d.freeDying.rings = d.rings := by
  unfold Dev.freeDying; exact foldl_keep Dev.rings _ (fun _ _ => by (repeat' split) <;> simp) _ _
@[simp] theorem Dev.freeDying_tallies  : d.freeDying.tallies = d.tallies := by
  unfold Dev.freeDying; exact foldl_keep Dev.tallies _ (fun _ _ => by (repeat' split) <;> simp) _ _
@[simp] theorem Dev.freeDying_claims  : d.freeDying.claims = d.claims := by
  unfold Dev.freeDying; exact foldl_keep Dev.claims _ (fun _ _ => by (repeat' split) <;> simp) _ _
@[simp] theorem Dev.freeDying_frames  : d.freeDying.frames = d.frames := by
  unfold Dev.freeDying; exact foldl_keep Dev.frames _ (fun _ _ => by (repeat' split) <;> simp) _ _
@[simp] theorem Dev.freeDying_hoist  : d.freeDying.hoist = d.hoist := by
  unfold Dev.freeDying; exact foldl_keep Dev.hoist _ (fun _ _ => by (repeat' split) <;> simp) _ _
@[simp] theorem Dev.freeDying_health  : d.freeDying.health = d.health := by
  unfold Dev.freeDying; exact foldl_keep Dev.health _ (fun _ _ => by (repeat' split) <;> simp) _ _
@[simp] theorem Dev.freeDying_store  : d.freeDying.store = d.store := by
  unfold Dev.freeDying; exact foldl_keep Dev.store _ (fun _ _ => by (repeat' split) <;> simp) _ _
@[simp] theorem Dev.freeDying_mbx  : d.freeDying.mbx = d.mbx := by
  unfold Dev.freeDying; exact foldl_keep Dev.mbx _ (fun _ _ => by (repeat' split) <;> simp) _ _
@[simp] theorem Dev.freeDying_sec  : d.freeDying.sec = d.sec := by
  unfold Dev.freeDying; exact foldl_keep Dev.sec _ (fun _ _ => by (repeat' split) <;> simp) _ _
@[simp] theorem Dev.freeDying_ports  : d.freeDying.ports = d.ports := by
  unfold Dev.freeDying; exact foldl_keep Dev.ports _ (fun _ _ => by (repeat' split) <;> simp) _ _
@[simp] theorem Dev.freeDying_routing  : d.freeDying.routing = d.routing := by
  unfold Dev.freeDying; exact foldl_keep Dev.routing _ (fun _ _ => by (repeat' split) <;> simp) _ _
@[simp] theorem Dev.freeDying_xbar  : d.freeDying.xbar = d.xbar := by
  unfold Dev.freeDying; exact foldl_keep Dev.xbar _ (fun _ _ => by (repeat' split) <;> simp) _ _
@[simp] theorem Dev.freeDying_coll  : d.freeDying.coll = d.coll := by
  unfold Dev.freeDying; exact foldl_keep Dev.coll _ (fun _ _ => by (repeat' split) <;> simp) _ _
@[simp] theorem Dev.freeDying_time  : d.freeDying.time = d.time := by
  unfold Dev.freeDying; exact foldl_keep Dev.time _ (fun _ _ => by (repeat' split) <;> simp) _ _
@[simp] theorem Dev.freeDying_evt  : d.freeDying.evt = d.evt := by
  unfold Dev.freeDying; exact foldl_keep Dev.evt _ (fun _ _ => by (repeat' split) <;> simp) _ _
@[simp] theorem Dev.freeDying_shuttle  : d.freeDying.shuttle = d.shuttle := by
  unfold Dev.freeDying; exact foldl_keep Dev.shuttle _ (fun _ _ => by (repeat' split) <;> simp) _ _
@[simp] theorem Dev.freeDying_dozeAborted  : d.freeDying.dozeAborted = d.dozeAborted := by
  unfold Dev.freeDying; exact foldl_keep Dev.dozeAborted _ (fun _ _ => by (repeat' split) <;> simp) _ _
@[simp] theorem Dev.freeDying_fixedBits  : d.freeDying.fixedBits = d.fixedBits := by
  unfold Dev.freeDying; exact foldl_keep Dev.fixedBits _ (fun _ _ => by (repeat' split) <;> simp) _ _
@[simp] theorem Dev.freeDying_fixedPace  : d.freeDying.fixedPace = d.fixedPace := by
  unfold Dev.freeDying; exact foldl_keep Dev.fixedPace _ (fun _ _ => by (repeat' split) <;> simp) _ _
@[simp] theorem Dev.freeDying_started  : d.freeDying.started = d.started := by
  unfold Dev.freeDying; exact foldl_keep Dev.started _ (fun _ _ => by (repeat' split) <;> simp) _ _
@[simp] theorem Dev.freeDying_turns  : d.freeDying.turns = d.turns := by
  unfold Dev.freeDying; exact foldl_keep Dev.turns _ (fun _ _ => by (repeat' split) <;> simp) _ _
@[simp] theorem Dev.freeDying_capGen  : d.freeDying.capGen = d.capGen := by
  unfold Dev.freeDying; exact foldl_keep Dev.capGen _ (fun _ _ => by (repeat' split) <;> simp) _ _
@[simp] theorem Dev.freeDying_capFinal  : d.freeDying.capFinal = d.capFinal := by
  unfold Dev.freeDying; exact foldl_keep Dev.capFinal _ (fun _ _ => by (repeat' split) <;> simp) _ _
@[simp] theorem Dev.freeDying_capTick  : d.freeDying.capTick = d.capTick := by
  unfold Dev.freeDying; exact foldl_keep Dev.capTick _ (fun _ _ => by (repeat' split) <;> simp) _ _
@[simp] theorem Dev.freeDying_draws  : d.freeDying.draws = d.draws := by
  unfold Dev.freeDying; exact foldl_keep Dev.draws _ (fun _ _ => by (repeat' split) <;> simp) _ _
@[simp] theorem Dev.freeDying_out  : d.freeDying.out = d.out := by
  unfold Dev.freeDying; exact foldl_keep Dev.out _ (fun _ _ => by (repeat' split) <;> simp) _ _

/-! ## dropRegions -/

@[simp] theorem Dev.dropRegions_now (n : Nat) : (d.dropRegions n).now = d.now := by
  simp [Dev.dropRegions]
@[simp] theorem Dev.dropRegions_skew (n : Nat) : (d.dropRegions n).skew = d.skew := by
  simp [Dev.dropRegions]
@[simp] theorem Dev.dropRegions_power (n : Nat) : (d.dropRegions n).power = d.power := by
  simp [Dev.dropRegions]
@[simp] theorem Dev.dropRegions_dies (n : Nat) : (d.dropRegions n).dies = d.dies := by
  simp [Dev.dropRegions]
@[simp] theorem Dev.dropRegions_cap (n : Nat) : (d.dropRegions n).cap = d.cap := by
  simp [Dev.dropRegions]
@[simp] theorem Dev.dropRegions_host (n : Nat) : (d.dropRegions n).host = d.host := by
  simp [Dev.dropRegions]
@[simp] theorem Dev.dropRegions_blocks (n : Nat) : (d.dropRegions n).blocks = d.blocks := by
  simp [Dev.dropRegions]
@[simp] theorem Dev.dropRegions_ringSel (n : Nat) : (d.dropRegions n).ringSel = d.ringSel := by
  simp [Dev.dropRegions]
@[simp] theorem Dev.dropRegions_epochClaim (n : Nat) : (d.dropRegions n).epochClaim = d.epochClaim := by
  simp [Dev.dropRegions]
@[simp] theorem Dev.dropRegions_epochSlot (n : Nat) : (d.dropRegions n).epochSlot = d.epochSlot := by
  simp [Dev.dropRegions]
@[simp] theorem Dev.dropRegions_rings (n : Nat) : (d.dropRegions n).rings = d.rings := by
  simp [Dev.dropRegions]
@[simp] theorem Dev.dropRegions_tallies (n : Nat) : (d.dropRegions n).tallies = d.tallies := by
  simp [Dev.dropRegions]
@[simp] theorem Dev.dropRegions_claims (n : Nat) : (d.dropRegions n).claims = d.claims := by
  simp [Dev.dropRegions]
@[simp] theorem Dev.dropRegions_frames (n : Nat) : (d.dropRegions n).frames = d.frames := by
  simp [Dev.dropRegions]
@[simp] theorem Dev.dropRegions_objects (n : Nat) : (d.dropRegions n).objects = d.objects := by
  simp [Dev.dropRegions]
@[simp] theorem Dev.dropRegions_hoist (n : Nat) : (d.dropRegions n).hoist = d.hoist := by
  simp [Dev.dropRegions]
@[simp] theorem Dev.dropRegions_health (n : Nat) : (d.dropRegions n).health = d.health := by
  simp [Dev.dropRegions]
@[simp] theorem Dev.dropRegions_store (n : Nat) : (d.dropRegions n).store = d.store := by
  simp [Dev.dropRegions]
@[simp] theorem Dev.dropRegions_mbx (n : Nat) : (d.dropRegions n).mbx = d.mbx := by
  simp [Dev.dropRegions]
@[simp] theorem Dev.dropRegions_sec (n : Nat) : (d.dropRegions n).sec = d.sec := by
  simp [Dev.dropRegions]
@[simp] theorem Dev.dropRegions_ports (n : Nat) : (d.dropRegions n).ports = d.ports := by
  simp [Dev.dropRegions]
@[simp] theorem Dev.dropRegions_routing (n : Nat) : (d.dropRegions n).routing = d.routing := by
  simp [Dev.dropRegions]
@[simp] theorem Dev.dropRegions_coll (n : Nat) : (d.dropRegions n).coll = d.coll := by
  simp [Dev.dropRegions]
@[simp] theorem Dev.dropRegions_time (n : Nat) : (d.dropRegions n).time = d.time := by
  simp [Dev.dropRegions]
@[simp] theorem Dev.dropRegions_evt (n : Nat) : (d.dropRegions n).evt = d.evt := by
  simp [Dev.dropRegions]
@[simp] theorem Dev.dropRegions_shuttle (n : Nat) : (d.dropRegions n).shuttle = d.shuttle := by
  simp [Dev.dropRegions]
@[simp] theorem Dev.dropRegions_dozeAborted (n : Nat) : (d.dropRegions n).dozeAborted = d.dozeAborted := by
  simp [Dev.dropRegions]
@[simp] theorem Dev.dropRegions_fixedBits (n : Nat) : (d.dropRegions n).fixedBits = d.fixedBits := by
  simp [Dev.dropRegions]
@[simp] theorem Dev.dropRegions_fixedPace (n : Nat) : (d.dropRegions n).fixedPace = d.fixedPace := by
  simp [Dev.dropRegions]
@[simp] theorem Dev.dropRegions_started (n : Nat) : (d.dropRegions n).started = d.started := by
  simp [Dev.dropRegions]
@[simp] theorem Dev.dropRegions_turns (n : Nat) : (d.dropRegions n).turns = d.turns := by
  simp [Dev.dropRegions]
@[simp] theorem Dev.dropRegions_capGen (n : Nat) : (d.dropRegions n).capGen = d.capGen := by
  simp [Dev.dropRegions]
@[simp] theorem Dev.dropRegions_capFinal (n : Nat) : (d.dropRegions n).capFinal = d.capFinal := by
  simp [Dev.dropRegions]
@[simp] theorem Dev.dropRegions_capTick (n : Nat) : (d.dropRegions n).capTick = d.capTick := by
  simp [Dev.dropRegions]
@[simp] theorem Dev.dropRegions_draws (n : Nat) : (d.dropRegions n).draws = d.draws := by
  simp [Dev.dropRegions]
@[simp] theorem Dev.dropRegions_out (n : Nat) : (d.dropRegions n).out = d.out := by
  simp [Dev.dropRegions]

/-! ## destroyObj -/

@[simp] theorem Dev.destroyObj_now (n : Nat) : (d.destroyObj n).now = d.now := by
  unfold Dev.destroyObj; try dsimp only
  (repeat' split) <;> simp
@[simp] theorem Dev.destroyObj_skew (n : Nat) : (d.destroyObj n).skew = d.skew := by
  unfold Dev.destroyObj; try dsimp only
  (repeat' split) <;> simp
@[simp] theorem Dev.destroyObj_power (n : Nat) : (d.destroyObj n).power = d.power := by
  unfold Dev.destroyObj; try dsimp only
  (repeat' split) <;> simp
@[simp] theorem Dev.destroyObj_cap (n : Nat) : (d.destroyObj n).cap = d.cap := by
  unfold Dev.destroyObj; try dsimp only
  (repeat' split) <;> simp
@[simp] theorem Dev.destroyObj_host (n : Nat) : (d.destroyObj n).host = d.host := by
  unfold Dev.destroyObj; try dsimp only
  (repeat' split) <;> simp
@[simp] theorem Dev.destroyObj_blocks (n : Nat) : (d.destroyObj n).blocks = d.blocks := by
  unfold Dev.destroyObj; try dsimp only
  (repeat' split) <;> simp
@[simp] theorem Dev.destroyObj_ringSel (n : Nat) : (d.destroyObj n).ringSel = d.ringSel := by
  unfold Dev.destroyObj; try dsimp only
  (repeat' split) <;> simp
@[simp] theorem Dev.destroyObj_epochClaim (n : Nat) : (d.destroyObj n).epochClaim = d.epochClaim := by
  unfold Dev.destroyObj; try dsimp only
  (repeat' split) <;> simp
@[simp] theorem Dev.destroyObj_epochSlot (n : Nat) : (d.destroyObj n).epochSlot = d.epochSlot := by
  unfold Dev.destroyObj; try dsimp only
  (repeat' split) <;> simp
@[simp] theorem Dev.destroyObj_rings (n : Nat) : (d.destroyObj n).rings = d.rings := by
  unfold Dev.destroyObj; try dsimp only
  (repeat' split) <;> simp
@[simp] theorem Dev.destroyObj_tallies (n : Nat) : (d.destroyObj n).tallies = d.tallies := by
  unfold Dev.destroyObj; try dsimp only
  (repeat' split) <;> simp
@[simp] theorem Dev.destroyObj_claims (n : Nat) : (d.destroyObj n).claims = d.claims := by
  unfold Dev.destroyObj; try dsimp only
  (repeat' split) <;> simp
@[simp] theorem Dev.destroyObj_frames (n : Nat) : (d.destroyObj n).frames = d.frames := by
  unfold Dev.destroyObj; try dsimp only
  (repeat' split) <;> simp
@[simp] theorem Dev.destroyObj_hoist (n : Nat) : (d.destroyObj n).hoist = d.hoist := by
  unfold Dev.destroyObj; try dsimp only
  (repeat' split) <;> simp
@[simp] theorem Dev.destroyObj_health (n : Nat) : (d.destroyObj n).health = d.health := by
  unfold Dev.destroyObj; try dsimp only
  (repeat' split) <;> simp
@[simp] theorem Dev.destroyObj_store (n : Nat) : (d.destroyObj n).store = d.store := by
  unfold Dev.destroyObj; try dsimp only
  (repeat' split) <;> simp
@[simp] theorem Dev.destroyObj_mbx (n : Nat) : (d.destroyObj n).mbx = d.mbx := by
  unfold Dev.destroyObj; try dsimp only
  (repeat' split) <;> simp
@[simp] theorem Dev.destroyObj_sec (n : Nat) : (d.destroyObj n).sec = d.sec := by
  unfold Dev.destroyObj; try dsimp only
  (repeat' split) <;> simp
@[simp] theorem Dev.destroyObj_ports (n : Nat) : (d.destroyObj n).ports = d.ports := by
  unfold Dev.destroyObj; try dsimp only
  (repeat' split) <;> simp
@[simp] theorem Dev.destroyObj_routing (n : Nat) : (d.destroyObj n).routing = d.routing := by
  unfold Dev.destroyObj; try dsimp only
  (repeat' split) <;> simp
@[simp] theorem Dev.destroyObj_coll (n : Nat) : (d.destroyObj n).coll = d.coll := by
  unfold Dev.destroyObj; try dsimp only
  (repeat' split) <;> simp
@[simp] theorem Dev.destroyObj_time (n : Nat) : (d.destroyObj n).time = d.time := by
  unfold Dev.destroyObj; try dsimp only
  (repeat' split) <;> simp
@[simp] theorem Dev.destroyObj_evt (n : Nat) : (d.destroyObj n).evt = d.evt := by
  unfold Dev.destroyObj; try dsimp only
  (repeat' split) <;> simp
@[simp] theorem Dev.destroyObj_shuttle (n : Nat) : (d.destroyObj n).shuttle = d.shuttle := by
  unfold Dev.destroyObj; try dsimp only
  (repeat' split) <;> simp
@[simp] theorem Dev.destroyObj_dozeAborted (n : Nat) : (d.destroyObj n).dozeAborted = d.dozeAborted := by
  unfold Dev.destroyObj; try dsimp only
  (repeat' split) <;> simp
@[simp] theorem Dev.destroyObj_fixedBits (n : Nat) : (d.destroyObj n).fixedBits = d.fixedBits := by
  unfold Dev.destroyObj; try dsimp only
  (repeat' split) <;> simp
@[simp] theorem Dev.destroyObj_fixedPace (n : Nat) : (d.destroyObj n).fixedPace = d.fixedPace := by
  unfold Dev.destroyObj; try dsimp only
  (repeat' split) <;> simp
@[simp] theorem Dev.destroyObj_started (n : Nat) : (d.destroyObj n).started = d.started := by
  unfold Dev.destroyObj; try dsimp only
  (repeat' split) <;> simp
@[simp] theorem Dev.destroyObj_turns (n : Nat) : (d.destroyObj n).turns = d.turns := by
  unfold Dev.destroyObj; try dsimp only
  (repeat' split) <;> simp
@[simp] theorem Dev.destroyObj_capGen (n : Nat) : (d.destroyObj n).capGen = d.capGen := by
  unfold Dev.destroyObj; try dsimp only
  (repeat' split) <;> simp
@[simp] theorem Dev.destroyObj_capFinal (n : Nat) : (d.destroyObj n).capFinal = d.capFinal := by
  unfold Dev.destroyObj; try dsimp only
  (repeat' split) <;> simp
@[simp] theorem Dev.destroyObj_capTick (n : Nat) : (d.destroyObj n).capTick = d.capTick := by
  unfold Dev.destroyObj; try dsimp only
  (repeat' split) <;> simp
@[simp] theorem Dev.destroyObj_draws (n : Nat) : (d.destroyObj n).draws = d.draws := by
  unfold Dev.destroyObj; try dsimp only
  (repeat' split) <;> simp
@[simp] theorem Dev.destroyObj_out (n : Nat) : (d.destroyObj n).out = d.out := by
  unfold Dev.destroyObj; try dsimp only
  (repeat' split) <;> simp

/-! ## destroyObjects -/

@[simp] theorem Dev.destroyObjects_now (n : Nat) : (d.destroyObjects n).now = d.now := by
  unfold Dev.destroyObjects; exact foldl_keep Dev.now _ (fun _ _ => by (repeat' split) <;> simp) _ _
@[simp] theorem Dev.destroyObjects_skew (n : Nat) : (d.destroyObjects n).skew = d.skew := by
  unfold Dev.destroyObjects; exact foldl_keep Dev.skew _ (fun _ _ => by (repeat' split) <;> simp) _ _
@[simp] theorem Dev.destroyObjects_power (n : Nat) : (d.destroyObjects n).power = d.power := by
  unfold Dev.destroyObjects; exact foldl_keep Dev.power _ (fun _ _ => by (repeat' split) <;> simp) _ _
@[simp] theorem Dev.destroyObjects_cap (n : Nat) : (d.destroyObjects n).cap = d.cap := by
  unfold Dev.destroyObjects; exact foldl_keep Dev.cap _ (fun _ _ => by (repeat' split) <;> simp) _ _
@[simp] theorem Dev.destroyObjects_host (n : Nat) : (d.destroyObjects n).host = d.host := by
  unfold Dev.destroyObjects; exact foldl_keep Dev.host _ (fun _ _ => by (repeat' split) <;> simp) _ _
@[simp] theorem Dev.destroyObjects_blocks (n : Nat) : (d.destroyObjects n).blocks = d.blocks := by
  unfold Dev.destroyObjects; exact foldl_keep Dev.blocks _ (fun _ _ => by (repeat' split) <;> simp) _ _
@[simp] theorem Dev.destroyObjects_ringSel (n : Nat) : (d.destroyObjects n).ringSel = d.ringSel := by
  unfold Dev.destroyObjects; exact foldl_keep Dev.ringSel _ (fun _ _ => by (repeat' split) <;> simp) _ _
@[simp] theorem Dev.destroyObjects_epochClaim (n : Nat) : (d.destroyObjects n).epochClaim = d.epochClaim := by
  unfold Dev.destroyObjects; exact foldl_keep Dev.epochClaim _ (fun _ _ => by (repeat' split) <;> simp) _ _
@[simp] theorem Dev.destroyObjects_epochSlot (n : Nat) : (d.destroyObjects n).epochSlot = d.epochSlot := by
  unfold Dev.destroyObjects; exact foldl_keep Dev.epochSlot _ (fun _ _ => by (repeat' split) <;> simp) _ _
@[simp] theorem Dev.destroyObjects_rings (n : Nat) : (d.destroyObjects n).rings = d.rings := by
  unfold Dev.destroyObjects; exact foldl_keep Dev.rings _ (fun _ _ => by (repeat' split) <;> simp) _ _
@[simp] theorem Dev.destroyObjects_tallies (n : Nat) : (d.destroyObjects n).tallies = d.tallies := by
  unfold Dev.destroyObjects; exact foldl_keep Dev.tallies _ (fun _ _ => by (repeat' split) <;> simp) _ _
@[simp] theorem Dev.destroyObjects_claims (n : Nat) : (d.destroyObjects n).claims = d.claims := by
  unfold Dev.destroyObjects; exact foldl_keep Dev.claims _ (fun _ _ => by (repeat' split) <;> simp) _ _
@[simp] theorem Dev.destroyObjects_frames (n : Nat) : (d.destroyObjects n).frames = d.frames := by
  unfold Dev.destroyObjects; exact foldl_keep Dev.frames _ (fun _ _ => by (repeat' split) <;> simp) _ _
@[simp] theorem Dev.destroyObjects_hoist (n : Nat) : (d.destroyObjects n).hoist = d.hoist := by
  unfold Dev.destroyObjects; exact foldl_keep Dev.hoist _ (fun _ _ => by (repeat' split) <;> simp) _ _
@[simp] theorem Dev.destroyObjects_health (n : Nat) : (d.destroyObjects n).health = d.health := by
  unfold Dev.destroyObjects; exact foldl_keep Dev.health _ (fun _ _ => by (repeat' split) <;> simp) _ _
@[simp] theorem Dev.destroyObjects_store (n : Nat) : (d.destroyObjects n).store = d.store := by
  unfold Dev.destroyObjects; exact foldl_keep Dev.store _ (fun _ _ => by (repeat' split) <;> simp) _ _
@[simp] theorem Dev.destroyObjects_mbx (n : Nat) : (d.destroyObjects n).mbx = d.mbx := by
  unfold Dev.destroyObjects; exact foldl_keep Dev.mbx _ (fun _ _ => by (repeat' split) <;> simp) _ _
@[simp] theorem Dev.destroyObjects_sec (n : Nat) : (d.destroyObjects n).sec = d.sec := by
  unfold Dev.destroyObjects; exact foldl_keep Dev.sec _ (fun _ _ => by (repeat' split) <;> simp) _ _
@[simp] theorem Dev.destroyObjects_ports (n : Nat) : (d.destroyObjects n).ports = d.ports := by
  unfold Dev.destroyObjects; exact foldl_keep Dev.ports _ (fun _ _ => by (repeat' split) <;> simp) _ _
@[simp] theorem Dev.destroyObjects_routing (n : Nat) : (d.destroyObjects n).routing = d.routing := by
  unfold Dev.destroyObjects; exact foldl_keep Dev.routing _ (fun _ _ => by (repeat' split) <;> simp) _ _
@[simp] theorem Dev.destroyObjects_coll (n : Nat) : (d.destroyObjects n).coll = d.coll := by
  unfold Dev.destroyObjects; exact foldl_keep Dev.coll _ (fun _ _ => by (repeat' split) <;> simp) _ _
@[simp] theorem Dev.destroyObjects_time (n : Nat) : (d.destroyObjects n).time = d.time := by
  unfold Dev.destroyObjects; exact foldl_keep Dev.time _ (fun _ _ => by (repeat' split) <;> simp) _ _
@[simp] theorem Dev.destroyObjects_evt (n : Nat) : (d.destroyObjects n).evt = d.evt := by
  unfold Dev.destroyObjects; exact foldl_keep Dev.evt _ (fun _ _ => by (repeat' split) <;> simp) _ _
@[simp] theorem Dev.destroyObjects_shuttle (n : Nat) : (d.destroyObjects n).shuttle = d.shuttle := by
  unfold Dev.destroyObjects; exact foldl_keep Dev.shuttle _ (fun _ _ => by (repeat' split) <;> simp) _ _
@[simp] theorem Dev.destroyObjects_dozeAborted (n : Nat) : (d.destroyObjects n).dozeAborted = d.dozeAborted := by
  unfold Dev.destroyObjects; exact foldl_keep Dev.dozeAborted _ (fun _ _ => by (repeat' split) <;> simp) _ _
@[simp] theorem Dev.destroyObjects_fixedBits (n : Nat) : (d.destroyObjects n).fixedBits = d.fixedBits := by
  unfold Dev.destroyObjects; exact foldl_keep Dev.fixedBits _ (fun _ _ => by (repeat' split) <;> simp) _ _
@[simp] theorem Dev.destroyObjects_fixedPace (n : Nat) : (d.destroyObjects n).fixedPace = d.fixedPace := by
  unfold Dev.destroyObjects; exact foldl_keep Dev.fixedPace _ (fun _ _ => by (repeat' split) <;> simp) _ _
@[simp] theorem Dev.destroyObjects_started (n : Nat) : (d.destroyObjects n).started = d.started := by
  unfold Dev.destroyObjects; exact foldl_keep Dev.started _ (fun _ _ => by (repeat' split) <;> simp) _ _
@[simp] theorem Dev.destroyObjects_turns (n : Nat) : (d.destroyObjects n).turns = d.turns := by
  unfold Dev.destroyObjects; exact foldl_keep Dev.turns _ (fun _ _ => by (repeat' split) <;> simp) _ _
@[simp] theorem Dev.destroyObjects_capGen (n : Nat) : (d.destroyObjects n).capGen = d.capGen := by
  unfold Dev.destroyObjects; exact foldl_keep Dev.capGen _ (fun _ _ => by (repeat' split) <;> simp) _ _
@[simp] theorem Dev.destroyObjects_capFinal (n : Nat) : (d.destroyObjects n).capFinal = d.capFinal := by
  unfold Dev.destroyObjects; exact foldl_keep Dev.capFinal _ (fun _ _ => by (repeat' split) <;> simp) _ _
@[simp] theorem Dev.destroyObjects_capTick (n : Nat) : (d.destroyObjects n).capTick = d.capTick := by
  unfold Dev.destroyObjects; exact foldl_keep Dev.capTick _ (fun _ _ => by (repeat' split) <;> simp) _ _
@[simp] theorem Dev.destroyObjects_draws (n : Nat) : (d.destroyObjects n).draws = d.draws := by
  unfold Dev.destroyObjects; exact foldl_keep Dev.draws _ (fun _ _ => by (repeat' split) <;> simp) _ _
@[simp] theorem Dev.destroyObjects_out (n : Nat) : (d.destroyObjects n).out = d.out := by
  unfold Dev.destroyObjects; exact foldl_keep Dev.out _ (fun _ _ => by (repeat' split) <;> simp) _ _

/-! ## loseUnits -/

@[simp] theorem Dev.loseUnits_now (n lo hi : Nat) : (d.loseUnits n lo hi).now = d.now := by
  unfold Dev.loseUnits; try dsimp only
  (repeat' split) <;> simp
@[simp] theorem Dev.loseUnits_skew (n lo hi : Nat) : (d.loseUnits n lo hi).skew = d.skew := by
  unfold Dev.loseUnits; try dsimp only
  (repeat' split) <;> simp
@[simp] theorem Dev.loseUnits_power (n lo hi : Nat) : (d.loseUnits n lo hi).power = d.power := by
  unfold Dev.loseUnits; try dsimp only
  (repeat' split) <;> simp
@[simp] theorem Dev.loseUnits_dies (n lo hi : Nat) : (d.loseUnits n lo hi).dies = d.dies := by
  unfold Dev.loseUnits; try dsimp only
  (repeat' split) <;> simp
@[simp] theorem Dev.loseUnits_cap (n lo hi : Nat) : (d.loseUnits n lo hi).cap = d.cap := by
  unfold Dev.loseUnits; try dsimp only
  (repeat' split) <;> simp
@[simp] theorem Dev.loseUnits_host (n lo hi : Nat) : (d.loseUnits n lo hi).host = d.host := by
  unfold Dev.loseUnits; try dsimp only
  (repeat' split) <;> simp
@[simp] theorem Dev.loseUnits_blocks (n lo hi : Nat) : (d.loseUnits n lo hi).blocks = d.blocks := by
  unfold Dev.loseUnits; try dsimp only
  (repeat' split) <;> simp
@[simp] theorem Dev.loseUnits_ringSel (n lo hi : Nat) : (d.loseUnits n lo hi).ringSel = d.ringSel := by
  unfold Dev.loseUnits; try dsimp only
  (repeat' split) <;> simp
@[simp] theorem Dev.loseUnits_epochClaim (n lo hi : Nat) : (d.loseUnits n lo hi).epochClaim = d.epochClaim := by
  unfold Dev.loseUnits; try dsimp only
  (repeat' split) <;> simp
@[simp] theorem Dev.loseUnits_epochSlot (n lo hi : Nat) : (d.loseUnits n lo hi).epochSlot = d.epochSlot := by
  unfold Dev.loseUnits; try dsimp only
  (repeat' split) <;> simp
@[simp] theorem Dev.loseUnits_rings (n lo hi : Nat) : (d.loseUnits n lo hi).rings = d.rings := by
  unfold Dev.loseUnits; try dsimp only
  (repeat' split) <;> simp
@[simp] theorem Dev.loseUnits_tallies (n lo hi : Nat) : (d.loseUnits n lo hi).tallies = d.tallies := by
  unfold Dev.loseUnits; try dsimp only
  (repeat' split) <;> simp
@[simp] theorem Dev.loseUnits_claims (n lo hi : Nat) : (d.loseUnits n lo hi).claims = d.claims := by
  unfold Dev.loseUnits; try dsimp only
  (repeat' split) <;> simp
@[simp] theorem Dev.loseUnits_frames (n lo hi : Nat) : (d.loseUnits n lo hi).frames = d.frames := by
  unfold Dev.loseUnits; try dsimp only
  (repeat' split) <;> simp
@[simp] theorem Dev.loseUnits_hoist (n lo hi : Nat) : (d.loseUnits n lo hi).hoist = d.hoist := by
  unfold Dev.loseUnits; try dsimp only
  (repeat' split) <;> simp
@[simp] theorem Dev.loseUnits_health (n lo hi : Nat) : (d.loseUnits n lo hi).health = d.health := by
  unfold Dev.loseUnits; try dsimp only
  (repeat' split) <;> simp
@[simp] theorem Dev.loseUnits_store (n lo hi : Nat) : (d.loseUnits n lo hi).store = d.store := by
  unfold Dev.loseUnits; try dsimp only
  (repeat' split) <;> simp
@[simp] theorem Dev.loseUnits_mbx (n lo hi : Nat) : (d.loseUnits n lo hi).mbx = d.mbx := by
  unfold Dev.loseUnits; try dsimp only
  (repeat' split) <;> simp
@[simp] theorem Dev.loseUnits_sec (n lo hi : Nat) : (d.loseUnits n lo hi).sec = d.sec := by
  unfold Dev.loseUnits; try dsimp only
  (repeat' split) <;> simp
@[simp] theorem Dev.loseUnits_ports (n lo hi : Nat) : (d.loseUnits n lo hi).ports = d.ports := by
  unfold Dev.loseUnits; try dsimp only
  (repeat' split) <;> simp
@[simp] theorem Dev.loseUnits_routing (n lo hi : Nat) : (d.loseUnits n lo hi).routing = d.routing := by
  unfold Dev.loseUnits; try dsimp only
  (repeat' split) <;> simp
@[simp] theorem Dev.loseUnits_xbar (n lo hi : Nat) : (d.loseUnits n lo hi).xbar = d.xbar := by
  unfold Dev.loseUnits; try dsimp only
  (repeat' split) <;> simp
@[simp] theorem Dev.loseUnits_coll (n lo hi : Nat) : (d.loseUnits n lo hi).coll = d.coll := by
  unfold Dev.loseUnits; try dsimp only
  (repeat' split) <;> simp
@[simp] theorem Dev.loseUnits_time (n lo hi : Nat) : (d.loseUnits n lo hi).time = d.time := by
  unfold Dev.loseUnits; try dsimp only
  (repeat' split) <;> simp
@[simp] theorem Dev.loseUnits_evt (n lo hi : Nat) : (d.loseUnits n lo hi).evt = d.evt := by
  unfold Dev.loseUnits; try dsimp only
  (repeat' split) <;> simp
@[simp] theorem Dev.loseUnits_shuttle (n lo hi : Nat) : (d.loseUnits n lo hi).shuttle = d.shuttle := by
  unfold Dev.loseUnits; try dsimp only
  (repeat' split) <;> simp
@[simp] theorem Dev.loseUnits_dozeAborted (n lo hi : Nat) : (d.loseUnits n lo hi).dozeAborted = d.dozeAborted := by
  unfold Dev.loseUnits; try dsimp only
  (repeat' split) <;> simp
@[simp] theorem Dev.loseUnits_fixedBits (n lo hi : Nat) : (d.loseUnits n lo hi).fixedBits = d.fixedBits := by
  unfold Dev.loseUnits; try dsimp only
  (repeat' split) <;> simp
@[simp] theorem Dev.loseUnits_fixedPace (n lo hi : Nat) : (d.loseUnits n lo hi).fixedPace = d.fixedPace := by
  unfold Dev.loseUnits; try dsimp only
  (repeat' split) <;> simp
@[simp] theorem Dev.loseUnits_started (n lo hi : Nat) : (d.loseUnits n lo hi).started = d.started := by
  unfold Dev.loseUnits; try dsimp only
  (repeat' split) <;> simp
@[simp] theorem Dev.loseUnits_turns (n lo hi : Nat) : (d.loseUnits n lo hi).turns = d.turns := by
  unfold Dev.loseUnits; try dsimp only
  (repeat' split) <;> simp
@[simp] theorem Dev.loseUnits_capGen (n lo hi : Nat) : (d.loseUnits n lo hi).capGen = d.capGen := by
  unfold Dev.loseUnits; try dsimp only
  (repeat' split) <;> simp
@[simp] theorem Dev.loseUnits_capFinal (n lo hi : Nat) : (d.loseUnits n lo hi).capFinal = d.capFinal := by
  unfold Dev.loseUnits; try dsimp only
  (repeat' split) <;> simp
@[simp] theorem Dev.loseUnits_capTick (n lo hi : Nat) : (d.loseUnits n lo hi).capTick = d.capTick := by
  unfold Dev.loseUnits; try dsimp only
  (repeat' split) <;> simp
@[simp] theorem Dev.loseUnits_draws (n lo hi : Nat) : (d.loseUnits n lo hi).draws = d.draws := by
  unfold Dev.loseUnits; try dsimp only
  (repeat' split) <;> simp
@[simp] theorem Dev.loseUnits_out (n lo hi : Nat) : (d.loseUnits n lo hi).out = d.out := by
  unfold Dev.loseUnits; try dsimp only
  (repeat' split) <;> simp

/-! ## compact -/

@[simp] theorem Dev.compact_now (n : Nat) : (d.compact n).now = d.now := by
  simp [Dev.compact, Dev.compactLanes, Dev.compactCores]
@[simp] theorem Dev.compact_skew (n : Nat) : (d.compact n).skew = d.skew := by
  simp [Dev.compact, Dev.compactLanes, Dev.compactCores]
@[simp] theorem Dev.compact_power (n : Nat) : (d.compact n).power = d.power := by
  simp [Dev.compact, Dev.compactLanes, Dev.compactCores]
@[simp] theorem Dev.compact_cap (n : Nat) : (d.compact n).cap = d.cap := by
  simp [Dev.compact, Dev.compactLanes, Dev.compactCores]
@[simp] theorem Dev.compact_host (n : Nat) : (d.compact n).host = d.host := by
  simp [Dev.compact, Dev.compactLanes, Dev.compactCores]
@[simp] theorem Dev.compact_blocks (n : Nat) : (d.compact n).blocks = d.blocks := by
  simp [Dev.compact, Dev.compactLanes, Dev.compactCores]
@[simp] theorem Dev.compact_ringSel (n : Nat) : (d.compact n).ringSel = d.ringSel := by
  simp [Dev.compact, Dev.compactLanes, Dev.compactCores]
@[simp] theorem Dev.compact_epochClaim (n : Nat) : (d.compact n).epochClaim = d.epochClaim := by
  simp [Dev.compact, Dev.compactLanes, Dev.compactCores]
@[simp] theorem Dev.compact_epochSlot (n : Nat) : (d.compact n).epochSlot = d.epochSlot := by
  simp [Dev.compact, Dev.compactLanes, Dev.compactCores]
@[simp] theorem Dev.compact_rings (n : Nat) : (d.compact n).rings = d.rings := by
  simp [Dev.compact, Dev.compactLanes, Dev.compactCores]
@[simp] theorem Dev.compact_tallies (n : Nat) : (d.compact n).tallies = d.tallies := by
  simp [Dev.compact, Dev.compactLanes, Dev.compactCores]
@[simp] theorem Dev.compact_claims (n : Nat) : (d.compact n).claims = d.claims := by
  simp [Dev.compact, Dev.compactLanes, Dev.compactCores]
@[simp] theorem Dev.compact_frames (n : Nat) : (d.compact n).frames = d.frames := by
  simp [Dev.compact, Dev.compactLanes, Dev.compactCores]
@[simp] theorem Dev.compact_objects (n : Nat) : (d.compact n).objects = d.objects := by
  simp [Dev.compact, Dev.compactLanes, Dev.compactCores]
@[simp] theorem Dev.compact_hoist (n : Nat) : (d.compact n).hoist = d.hoist := by
  simp [Dev.compact, Dev.compactLanes, Dev.compactCores]
@[simp] theorem Dev.compact_health (n : Nat) : (d.compact n).health = d.health := by
  simp [Dev.compact, Dev.compactLanes, Dev.compactCores]
@[simp] theorem Dev.compact_store (n : Nat) : (d.compact n).store = d.store := by
  simp [Dev.compact, Dev.compactLanes, Dev.compactCores]
@[simp] theorem Dev.compact_mbx (n : Nat) : (d.compact n).mbx = d.mbx := by
  simp [Dev.compact, Dev.compactLanes, Dev.compactCores]
@[simp] theorem Dev.compact_sec (n : Nat) : (d.compact n).sec = d.sec := by
  simp [Dev.compact, Dev.compactLanes, Dev.compactCores]
@[simp] theorem Dev.compact_ports (n : Nat) : (d.compact n).ports = d.ports := by
  simp [Dev.compact, Dev.compactLanes, Dev.compactCores]
@[simp] theorem Dev.compact_routing (n : Nat) : (d.compact n).routing = d.routing := by
  simp [Dev.compact, Dev.compactLanes, Dev.compactCores]
@[simp] theorem Dev.compact_xbar (n : Nat) : (d.compact n).xbar = d.xbar := by
  simp [Dev.compact, Dev.compactLanes, Dev.compactCores]
@[simp] theorem Dev.compact_coll (n : Nat) : (d.compact n).coll = d.coll := by
  simp [Dev.compact, Dev.compactLanes, Dev.compactCores]
@[simp] theorem Dev.compact_time (n : Nat) : (d.compact n).time = d.time := by
  simp [Dev.compact, Dev.compactLanes, Dev.compactCores]
@[simp] theorem Dev.compact_evt (n : Nat) : (d.compact n).evt = d.evt := by
  simp [Dev.compact, Dev.compactLanes, Dev.compactCores]
@[simp] theorem Dev.compact_shuttle (n : Nat) : (d.compact n).shuttle = d.shuttle := by
  simp [Dev.compact, Dev.compactLanes, Dev.compactCores]
@[simp] theorem Dev.compact_dozeAborted (n : Nat) : (d.compact n).dozeAborted = d.dozeAborted := by
  simp [Dev.compact, Dev.compactLanes, Dev.compactCores]
@[simp] theorem Dev.compact_fixedBits (n : Nat) : (d.compact n).fixedBits = d.fixedBits := by
  simp [Dev.compact, Dev.compactLanes, Dev.compactCores]
@[simp] theorem Dev.compact_fixedPace (n : Nat) : (d.compact n).fixedPace = d.fixedPace := by
  simp [Dev.compact, Dev.compactLanes, Dev.compactCores]
@[simp] theorem Dev.compact_started (n : Nat) : (d.compact n).started = d.started := by
  simp [Dev.compact, Dev.compactLanes, Dev.compactCores]
@[simp] theorem Dev.compact_turns (n : Nat) : (d.compact n).turns = d.turns := by
  simp [Dev.compact, Dev.compactLanes, Dev.compactCores]
@[simp] theorem Dev.compact_capGen (n : Nat) : (d.compact n).capGen = d.capGen := by
  simp [Dev.compact, Dev.compactLanes, Dev.compactCores]
@[simp] theorem Dev.compact_capFinal (n : Nat) : (d.compact n).capFinal = d.capFinal := by
  simp [Dev.compact, Dev.compactLanes, Dev.compactCores]
@[simp] theorem Dev.compact_capTick (n : Nat) : (d.compact n).capTick = d.capTick := by
  simp [Dev.compact, Dev.compactLanes, Dev.compactCores]
@[simp] theorem Dev.compact_draws (n : Nat) : (d.compact n).draws = d.draws := by
  simp [Dev.compact, Dev.compactLanes, Dev.compactCores]
@[simp] theorem Dev.compact_out (n : Nat) : (d.compact n).out = d.out := by
  simp [Dev.compact, Dev.compactLanes, Dev.compactCores]

/-! ## heldDone -/

@[simp] theorem Dev.heldDone_now  : d.heldDone.now = d.now := by
  unfold Dev.heldDone; try dsimp only
  (repeat' split) <;> simp
@[simp] theorem Dev.heldDone_skew  : d.heldDone.skew = d.skew := by
  unfold Dev.heldDone; try dsimp only
  (repeat' split) <;> simp
@[simp] theorem Dev.heldDone_dies  : d.heldDone.dies = d.dies := by
  unfold Dev.heldDone; try dsimp only
  (repeat' split) <;> simp
@[simp] theorem Dev.heldDone_cap  : d.heldDone.cap = d.cap := by
  unfold Dev.heldDone; try dsimp only
  (repeat' split) <;> simp
@[simp] theorem Dev.heldDone_host  : d.heldDone.host = d.host := by
  unfold Dev.heldDone; try dsimp only
  (repeat' split) <;> simp
@[simp] theorem Dev.heldDone_blocks  : d.heldDone.blocks = d.blocks := by
  unfold Dev.heldDone; try dsimp only
  (repeat' split) <;> simp
@[simp] theorem Dev.heldDone_ringSel  : d.heldDone.ringSel = d.ringSel := by
  unfold Dev.heldDone; try dsimp only
  (repeat' split) <;> simp
@[simp] theorem Dev.heldDone_epochClaim  : d.heldDone.epochClaim = d.epochClaim := by
  unfold Dev.heldDone; try dsimp only
  (repeat' split) <;> simp
@[simp] theorem Dev.heldDone_epochSlot  : d.heldDone.epochSlot = d.epochSlot := by
  unfold Dev.heldDone; try dsimp only
  (repeat' split) <;> simp
@[simp] theorem Dev.heldDone_rings  : d.heldDone.rings = d.rings := by
  unfold Dev.heldDone; try dsimp only
  (repeat' split) <;> simp
@[simp] theorem Dev.heldDone_tallies  : d.heldDone.tallies = d.tallies := by
  unfold Dev.heldDone; try dsimp only
  (repeat' split) <;> simp
@[simp] theorem Dev.heldDone_claims  : d.heldDone.claims = d.claims := by
  unfold Dev.heldDone; try dsimp only
  (repeat' split) <;> simp
@[simp] theorem Dev.heldDone_frames  : d.heldDone.frames = d.frames := by
  unfold Dev.heldDone; try dsimp only
  (repeat' split) <;> simp
@[simp] theorem Dev.heldDone_objects  : d.heldDone.objects = d.objects := by
  unfold Dev.heldDone; try dsimp only
  (repeat' split) <;> simp
@[simp] theorem Dev.heldDone_hoist  : d.heldDone.hoist = d.hoist := by
  unfold Dev.heldDone; try dsimp only
  (repeat' split) <;> simp
@[simp] theorem Dev.heldDone_store  : d.heldDone.store = d.store := by
  unfold Dev.heldDone; try dsimp only
  (repeat' split) <;> simp
@[simp] theorem Dev.heldDone_mbx  : d.heldDone.mbx = d.mbx := by
  unfold Dev.heldDone; try dsimp only
  (repeat' split) <;> simp
@[simp] theorem Dev.heldDone_sec  : d.heldDone.sec = d.sec := by
  unfold Dev.heldDone; try dsimp only
  (repeat' split) <;> simp
@[simp] theorem Dev.heldDone_ports  : d.heldDone.ports = d.ports := by
  unfold Dev.heldDone; try dsimp only
  (repeat' split) <;> simp
@[simp] theorem Dev.heldDone_routing  : d.heldDone.routing = d.routing := by
  unfold Dev.heldDone; try dsimp only
  (repeat' split) <;> simp
@[simp] theorem Dev.heldDone_xbar  : d.heldDone.xbar = d.xbar := by
  unfold Dev.heldDone; try dsimp only
  (repeat' split) <;> simp
@[simp] theorem Dev.heldDone_coll  : d.heldDone.coll = d.coll := by
  unfold Dev.heldDone; try dsimp only
  (repeat' split) <;> simp
@[simp] theorem Dev.heldDone_time  : d.heldDone.time = d.time := by
  unfold Dev.heldDone; try dsimp only
  (repeat' split) <;> simp
@[simp] theorem Dev.heldDone_evt  : d.heldDone.evt = d.evt := by
  unfold Dev.heldDone; try dsimp only
  (repeat' split) <;> simp
@[simp] theorem Dev.heldDone_shuttle  : d.heldDone.shuttle = d.shuttle := by
  unfold Dev.heldDone; try dsimp only
  (repeat' split) <;> simp
@[simp] theorem Dev.heldDone_dozeAborted  : d.heldDone.dozeAborted = d.dozeAborted := by
  unfold Dev.heldDone; try dsimp only
  (repeat' split) <;> simp
@[simp] theorem Dev.heldDone_fixedBits  : d.heldDone.fixedBits = d.fixedBits := by
  unfold Dev.heldDone; try dsimp only
  (repeat' split) <;> simp
@[simp] theorem Dev.heldDone_fixedPace  : d.heldDone.fixedPace = d.fixedPace := by
  unfold Dev.heldDone; try dsimp only
  (repeat' split) <;> simp
@[simp] theorem Dev.heldDone_started  : d.heldDone.started = d.started := by
  unfold Dev.heldDone; try dsimp only
  (repeat' split) <;> simp
@[simp] theorem Dev.heldDone_turns  : d.heldDone.turns = d.turns := by
  unfold Dev.heldDone; try dsimp only
  (repeat' split) <;> simp
@[simp] theorem Dev.heldDone_capFinal  : d.heldDone.capFinal = d.capFinal := by
  unfold Dev.heldDone; try dsimp only
  (repeat' split) <;> simp
@[simp] theorem Dev.heldDone_draws  : d.heldDone.draws = d.draws := by
  unfold Dev.heldDone; try dsimp only
  (repeat' split) <;> simp
@[simp] theorem Dev.heldDone_out  : d.heldDone.out = d.out := by
  unfold Dev.heldDone; try dsimp only
  (repeat' split) <;> simp

/-! ## compactFree -/

@[simp] theorem Dev.compactFree_now (n : Nat) : (d.compactFree n).now = d.now := by
  unfold Dev.compactFree; dsimp only; (repeat' split) <;> simp [Dev.compactLanes, Dev.compactCores]
@[simp] theorem Dev.compactFree_skew (n : Nat) : (d.compactFree n).skew = d.skew := by
  unfold Dev.compactFree; dsimp only; (repeat' split) <;> simp [Dev.compactLanes, Dev.compactCores]
@[simp] theorem Dev.compactFree_cap (n : Nat) : (d.compactFree n).cap = d.cap := by
  unfold Dev.compactFree; dsimp only; (repeat' split) <;> simp [Dev.compactLanes, Dev.compactCores]
@[simp] theorem Dev.compactFree_host (n : Nat) : (d.compactFree n).host = d.host := by
  unfold Dev.compactFree; dsimp only; (repeat' split) <;> simp [Dev.compactLanes, Dev.compactCores]
@[simp] theorem Dev.compactFree_blocks (n : Nat) : (d.compactFree n).blocks = d.blocks := by
  unfold Dev.compactFree; dsimp only; (repeat' split) <;> simp [Dev.compactLanes, Dev.compactCores]
@[simp] theorem Dev.compactFree_ringSel (n : Nat) : (d.compactFree n).ringSel = d.ringSel := by
  unfold Dev.compactFree; dsimp only; (repeat' split) <;> simp [Dev.compactLanes, Dev.compactCores]
@[simp] theorem Dev.compactFree_epochClaim (n : Nat) : (d.compactFree n).epochClaim = d.epochClaim := by
  unfold Dev.compactFree; dsimp only; (repeat' split) <;> simp [Dev.compactLanes, Dev.compactCores]
@[simp] theorem Dev.compactFree_epochSlot (n : Nat) : (d.compactFree n).epochSlot = d.epochSlot := by
  unfold Dev.compactFree; dsimp only; (repeat' split) <;> simp [Dev.compactLanes, Dev.compactCores]
@[simp] theorem Dev.compactFree_rings (n : Nat) : (d.compactFree n).rings = d.rings := by
  unfold Dev.compactFree; dsimp only; (repeat' split) <;> simp [Dev.compactLanes, Dev.compactCores]
@[simp] theorem Dev.compactFree_tallies (n : Nat) : (d.compactFree n).tallies = d.tallies := by
  unfold Dev.compactFree; dsimp only; (repeat' split) <;> simp [Dev.compactLanes, Dev.compactCores]
@[simp] theorem Dev.compactFree_claims (n : Nat) : (d.compactFree n).claims = d.claims := by
  unfold Dev.compactFree; dsimp only; (repeat' split) <;> simp [Dev.compactLanes, Dev.compactCores]
@[simp] theorem Dev.compactFree_frames (n : Nat) : (d.compactFree n).frames = d.frames := by
  unfold Dev.compactFree; dsimp only; (repeat' split) <;> simp [Dev.compactLanes, Dev.compactCores]
@[simp] theorem Dev.compactFree_objects (n : Nat) : (d.compactFree n).objects = d.objects := by
  unfold Dev.compactFree; dsimp only; (repeat' split) <;> simp [Dev.compactLanes, Dev.compactCores]
@[simp] theorem Dev.compactFree_hoist (n : Nat) : (d.compactFree n).hoist = d.hoist := by
  unfold Dev.compactFree; dsimp only; (repeat' split) <;> simp [Dev.compactLanes, Dev.compactCores]
@[simp] theorem Dev.compactFree_store (n : Nat) : (d.compactFree n).store = d.store := by
  unfold Dev.compactFree; dsimp only; (repeat' split) <;> simp [Dev.compactLanes, Dev.compactCores]
@[simp] theorem Dev.compactFree_mbx (n : Nat) : (d.compactFree n).mbx = d.mbx := by
  unfold Dev.compactFree; dsimp only; (repeat' split) <;> simp [Dev.compactLanes, Dev.compactCores]
@[simp] theorem Dev.compactFree_sec (n : Nat) : (d.compactFree n).sec = d.sec := by
  unfold Dev.compactFree; dsimp only; (repeat' split) <;> simp [Dev.compactLanes, Dev.compactCores]
@[simp] theorem Dev.compactFree_ports (n : Nat) : (d.compactFree n).ports = d.ports := by
  unfold Dev.compactFree; dsimp only; (repeat' split) <;> simp [Dev.compactLanes, Dev.compactCores]
@[simp] theorem Dev.compactFree_routing (n : Nat) : (d.compactFree n).routing = d.routing := by
  unfold Dev.compactFree; dsimp only; (repeat' split) <;> simp [Dev.compactLanes, Dev.compactCores]
@[simp] theorem Dev.compactFree_xbar (n : Nat) : (d.compactFree n).xbar = d.xbar := by
  unfold Dev.compactFree; dsimp only; (repeat' split) <;> simp [Dev.compactLanes, Dev.compactCores]
@[simp] theorem Dev.compactFree_coll (n : Nat) : (d.compactFree n).coll = d.coll := by
  unfold Dev.compactFree; dsimp only; (repeat' split) <;> simp [Dev.compactLanes, Dev.compactCores]
@[simp] theorem Dev.compactFree_time (n : Nat) : (d.compactFree n).time = d.time := by
  unfold Dev.compactFree; dsimp only; (repeat' split) <;> simp [Dev.compactLanes, Dev.compactCores]
@[simp] theorem Dev.compactFree_evt (n : Nat) : (d.compactFree n).evt = d.evt := by
  unfold Dev.compactFree; dsimp only; (repeat' split) <;> simp [Dev.compactLanes, Dev.compactCores]
@[simp] theorem Dev.compactFree_shuttle (n : Nat) : (d.compactFree n).shuttle = d.shuttle := by
  unfold Dev.compactFree; dsimp only; (repeat' split) <;> simp [Dev.compactLanes, Dev.compactCores]
@[simp] theorem Dev.compactFree_dozeAborted (n : Nat) : (d.compactFree n).dozeAborted = d.dozeAborted := by
  unfold Dev.compactFree; dsimp only; (repeat' split) <;> simp [Dev.compactLanes, Dev.compactCores]
@[simp] theorem Dev.compactFree_fixedBits (n : Nat) : (d.compactFree n).fixedBits = d.fixedBits := by
  unfold Dev.compactFree; dsimp only; (repeat' split) <;> simp [Dev.compactLanes, Dev.compactCores]
@[simp] theorem Dev.compactFree_fixedPace (n : Nat) : (d.compactFree n).fixedPace = d.fixedPace := by
  unfold Dev.compactFree; dsimp only; (repeat' split) <;> simp [Dev.compactLanes, Dev.compactCores]
@[simp] theorem Dev.compactFree_started (n : Nat) : (d.compactFree n).started = d.started := by
  unfold Dev.compactFree; dsimp only; (repeat' split) <;> simp [Dev.compactLanes, Dev.compactCores]
@[simp] theorem Dev.compactFree_turns (n : Nat) : (d.compactFree n).turns = d.turns := by
  unfold Dev.compactFree; dsimp only; (repeat' split) <;> simp [Dev.compactLanes, Dev.compactCores]
@[simp] theorem Dev.compactFree_capFinal (n : Nat) : (d.compactFree n).capFinal = d.capFinal := by
  unfold Dev.compactFree; dsimp only; (repeat' split) <;> simp [Dev.compactLanes, Dev.compactCores]
@[simp] theorem Dev.compactFree_draws (n : Nat) : (d.compactFree n).draws = d.draws := by
  unfold Dev.compactFree; dsimp only; (repeat' split) <;> simp [Dev.compactLanes, Dev.compactCores]
@[simp] theorem Dev.compactFree_out (n : Nat) : (d.compactFree n).out = d.out := by
  unfold Dev.compactFree; dsimp only; (repeat' split) <;> simp [Dev.compactLanes, Dev.compactCores]

/-! ## dropClaim -/

@[simp] theorem Dev.dropClaim_now (c : Nat) : (d.dropClaim c).now = d.now := by
  unfold Dev.dropClaim; dsimp only
  exact (foldl_keep Dev.now _ (fun _ _ => by simp) _ _).trans rfl
@[simp] theorem Dev.dropClaim_skew (c : Nat) : (d.dropClaim c).skew = d.skew := by
  unfold Dev.dropClaim; dsimp only
  exact (foldl_keep Dev.skew _ (fun _ _ => by simp) _ _).trans rfl
@[simp] theorem Dev.dropClaim_power (c : Nat) : (d.dropClaim c).power = d.power := by
  unfold Dev.dropClaim; dsimp only
  exact (foldl_keep Dev.power _ (fun _ _ => by simp) _ _).trans rfl
@[simp] theorem Dev.dropClaim_dies (c : Nat) : (d.dropClaim c).dies = d.dies := by
  unfold Dev.dropClaim; dsimp only
  exact (foldl_keep Dev.dies _ (fun _ _ => by simp) _ _).trans rfl
@[simp] theorem Dev.dropClaim_cap (c : Nat) : (d.dropClaim c).cap = d.cap := by
  unfold Dev.dropClaim; dsimp only
  exact (foldl_keep Dev.cap _ (fun _ _ => by simp) _ _).trans rfl
@[simp] theorem Dev.dropClaim_host (c : Nat) : (d.dropClaim c).host = d.host := by
  unfold Dev.dropClaim; dsimp only
  exact (foldl_keep Dev.host _ (fun _ _ => by simp) _ _).trans rfl
@[simp] theorem Dev.dropClaim_blocks (c : Nat) : (d.dropClaim c).blocks = d.blocks := by
  unfold Dev.dropClaim; dsimp only
  exact (foldl_keep Dev.blocks _ (fun _ _ => by simp) _ _).trans rfl
@[simp] theorem Dev.dropClaim_ringSel (c : Nat) : (d.dropClaim c).ringSel = d.ringSel := by
  unfold Dev.dropClaim; dsimp only
  exact (foldl_keep Dev.ringSel _ (fun _ _ => by simp) _ _).trans rfl
@[simp] theorem Dev.dropClaim_epochClaim (c : Nat) : (d.dropClaim c).epochClaim = d.epochClaim := by
  unfold Dev.dropClaim; dsimp only
  exact (foldl_keep Dev.epochClaim _ (fun _ _ => by simp) _ _).trans rfl
@[simp] theorem Dev.dropClaim_epochSlot (c : Nat) : (d.dropClaim c).epochSlot = d.epochSlot := by
  unfold Dev.dropClaim; dsimp only
  exact (foldl_keep Dev.epochSlot _ (fun _ _ => by simp) _ _).trans rfl
@[simp] theorem Dev.dropClaim_rings (c : Nat) : (d.dropClaim c).rings = d.rings := by
  unfold Dev.dropClaim; dsimp only
  exact (foldl_keep Dev.rings _ (fun _ _ => by simp) _ _).trans rfl
@[simp] theorem Dev.dropClaim_tallies (c : Nat) : (d.dropClaim c).tallies = d.tallies := by
  unfold Dev.dropClaim; dsimp only
  exact (foldl_keep Dev.tallies _ (fun _ _ => by simp) _ _).trans rfl
@[simp] theorem Dev.dropClaim_claims (c : Nat) : (d.dropClaim c).claims = d.claims := by
  unfold Dev.dropClaim; dsimp only
  exact (foldl_keep Dev.claims _ (fun _ _ => by simp) _ _).trans rfl
@[simp] theorem Dev.dropClaim_frames (c : Nat) : (d.dropClaim c).frames = d.frames := by
  unfold Dev.dropClaim; dsimp only
  exact (foldl_keep Dev.frames _ (fun _ _ => by simp) _ _).trans rfl
@[simp] theorem Dev.dropClaim_objects (c : Nat) : (d.dropClaim c).objects = d.objects := by
  unfold Dev.dropClaim; dsimp only
  exact (foldl_keep Dev.objects _ (fun _ _ => by simp) _ _).trans rfl
@[simp] theorem Dev.dropClaim_hoist (c : Nat) : (d.dropClaim c).hoist = d.hoist := by
  unfold Dev.dropClaim; dsimp only
  exact (foldl_keep Dev.hoist _ (fun _ _ => by simp) _ _).trans rfl
@[simp] theorem Dev.dropClaim_store (c : Nat) : (d.dropClaim c).store = d.store := by
  unfold Dev.dropClaim; dsimp only
  exact (foldl_keep Dev.store _ (fun _ _ => by simp) _ _).trans rfl
@[simp] theorem Dev.dropClaim_mbx (c : Nat) : (d.dropClaim c).mbx = d.mbx := by
  unfold Dev.dropClaim; dsimp only
  exact (foldl_keep Dev.mbx _ (fun _ _ => by simp) _ _).trans rfl
@[simp] theorem Dev.dropClaim_sec (c : Nat) : (d.dropClaim c).sec = d.sec := by
  unfold Dev.dropClaim; dsimp only
  exact (foldl_keep Dev.sec _ (fun _ _ => by simp) _ _).trans rfl
@[simp] theorem Dev.dropClaim_ports (c : Nat) : (d.dropClaim c).ports = d.ports := by
  unfold Dev.dropClaim; dsimp only
  exact (foldl_keep Dev.ports _ (fun _ _ => by simp) _ _).trans rfl
@[simp] theorem Dev.dropClaim_routing (c : Nat) : (d.dropClaim c).routing = d.routing := by
  unfold Dev.dropClaim; dsimp only
  exact (foldl_keep Dev.routing _ (fun _ _ => by simp) _ _).trans rfl
@[simp] theorem Dev.dropClaim_xbar (c : Nat) : (d.dropClaim c).xbar = d.xbar := by
  unfold Dev.dropClaim; dsimp only
  exact (foldl_keep Dev.xbar _ (fun _ _ => by simp) _ _).trans rfl
@[simp] theorem Dev.dropClaim_evt (c : Nat) : (d.dropClaim c).evt = d.evt := by
  unfold Dev.dropClaim; dsimp only
  exact (foldl_keep Dev.evt _ (fun _ _ => by simp) _ _).trans rfl
@[simp] theorem Dev.dropClaim_shuttle (c : Nat) : (d.dropClaim c).shuttle = d.shuttle := by
  unfold Dev.dropClaim; dsimp only
  exact (foldl_keep Dev.shuttle _ (fun _ _ => by simp) _ _).trans rfl
@[simp] theorem Dev.dropClaim_dozeAborted (c : Nat) : (d.dropClaim c).dozeAborted = d.dozeAborted := by
  unfold Dev.dropClaim; dsimp only
  exact (foldl_keep Dev.dozeAborted _ (fun _ _ => by simp) _ _).trans rfl
@[simp] theorem Dev.dropClaim_fixedBits (c : Nat) : (d.dropClaim c).fixedBits = d.fixedBits := by
  unfold Dev.dropClaim; dsimp only
  exact (foldl_keep Dev.fixedBits _ (fun _ _ => by simp) _ _).trans rfl
@[simp] theorem Dev.dropClaim_fixedPace (c : Nat) : (d.dropClaim c).fixedPace = d.fixedPace := by
  unfold Dev.dropClaim; dsimp only
  exact (foldl_keep Dev.fixedPace _ (fun _ _ => by simp) _ _).trans rfl
@[simp] theorem Dev.dropClaim_started (c : Nat) : (d.dropClaim c).started = d.started := by
  unfold Dev.dropClaim; dsimp only
  exact (foldl_keep Dev.started _ (fun _ _ => by simp) _ _).trans rfl
@[simp] theorem Dev.dropClaim_turns (c : Nat) : (d.dropClaim c).turns = d.turns := by
  unfold Dev.dropClaim; dsimp only
  exact (foldl_keep Dev.turns _ (fun _ _ => by simp) _ _).trans rfl
@[simp] theorem Dev.dropClaim_capGen (c : Nat) : (d.dropClaim c).capGen = d.capGen := by
  unfold Dev.dropClaim; dsimp only
  exact (foldl_keep Dev.capGen _ (fun _ _ => by simp) _ _).trans rfl
@[simp] theorem Dev.dropClaim_capFinal (c : Nat) : (d.dropClaim c).capFinal = d.capFinal := by
  unfold Dev.dropClaim; dsimp only
  exact (foldl_keep Dev.capFinal _ (fun _ _ => by simp) _ _).trans rfl
@[simp] theorem Dev.dropClaim_capTick (c : Nat) : (d.dropClaim c).capTick = d.capTick := by
  unfold Dev.dropClaim; dsimp only
  exact (foldl_keep Dev.capTick _ (fun _ _ => by simp) _ _).trans rfl
@[simp] theorem Dev.dropClaim_draws (c : Nat) : (d.dropClaim c).draws = d.draws := by
  unfold Dev.dropClaim; dsimp only
  exact (foldl_keep Dev.draws _ (fun _ _ => by simp) _ _).trans rfl
@[simp] theorem Dev.dropClaim_out (c : Nat) : (d.dropClaim c).out = d.out := by
  unfold Dev.dropClaim; dsimp only
  exact (foldl_keep Dev.out _ (fun _ _ => by simp) _ _).trans rfl

/-! ## claimOff -/

@[simp] theorem Dev.claimOff_now (c : Nat) : (d.claimOff c).now = d.now := by
  unfold Dev.claimOff; dsimp only
  rw [foldl_keep Dev.now _ (fun _ _ => by simp) _ _]
  rw [Dev.moveBlock_now]; dsimp only [Dev.setKernel]
  (repeat' split) <;> simp
@[simp] theorem Dev.claimOff_skew (c : Nat) : (d.claimOff c).skew = d.skew := by
  unfold Dev.claimOff; dsimp only
  rw [foldl_keep Dev.skew _ (fun _ _ => by simp) _ _]
  rw [Dev.moveBlock_skew]; dsimp only [Dev.setKernel]
  (repeat' split) <;> simp
@[simp] theorem Dev.claimOff_cap (c : Nat) : (d.claimOff c).cap = d.cap := by
  unfold Dev.claimOff; dsimp only
  rw [foldl_keep Dev.cap _ (fun _ _ => by simp) _ _]
  rw [Dev.moveBlock_cap]; dsimp only [Dev.setKernel]
  (repeat' split) <;> simp
@[simp] theorem Dev.claimOff_ringSel (c : Nat) : (d.claimOff c).ringSel = d.ringSel := by
  unfold Dev.claimOff; dsimp only
  rw [foldl_keep Dev.ringSel _ (fun _ _ => by simp) _ _]
  rw [Dev.moveBlock_ringSel]; dsimp only [Dev.setKernel]
  (repeat' split) <;> simp
@[simp] theorem Dev.claimOff_epochClaim (c : Nat) : (d.claimOff c).epochClaim = d.epochClaim := by
  unfold Dev.claimOff; dsimp only
  rw [foldl_keep Dev.epochClaim _ (fun _ _ => by simp) _ _]
  rw [Dev.moveBlock_epochClaim]; dsimp only [Dev.setKernel]
  (repeat' split) <;> simp
@[simp] theorem Dev.claimOff_epochSlot (c : Nat) : (d.claimOff c).epochSlot = d.epochSlot := by
  unfold Dev.claimOff; dsimp only
  rw [foldl_keep Dev.epochSlot _ (fun _ _ => by simp) _ _]
  rw [Dev.moveBlock_epochSlot]; dsimp only [Dev.setKernel]
  (repeat' split) <;> simp
@[simp] theorem Dev.claimOff_hoist (c : Nat) : (d.claimOff c).hoist = d.hoist := by
  unfold Dev.claimOff; dsimp only
  rw [foldl_keep Dev.hoist _ (fun _ _ => by simp) _ _]
  rw [Dev.moveBlock_hoist]; dsimp only [Dev.setKernel]
  (repeat' split) <;> simp
@[simp] theorem Dev.claimOff_store (c : Nat) : (d.claimOff c).store = d.store := by
  unfold Dev.claimOff; dsimp only
  rw [foldl_keep Dev.store _ (fun _ _ => by simp) _ _]
  rw [Dev.moveBlock_store]; dsimp only [Dev.setKernel]
  (repeat' split) <;> simp
@[simp] theorem Dev.claimOff_mbx (c : Nat) : (d.claimOff c).mbx = d.mbx := by
  unfold Dev.claimOff; dsimp only
  rw [foldl_keep Dev.mbx _ (fun _ _ => by simp) _ _]
  rw [Dev.moveBlock_mbx]; dsimp only [Dev.setKernel]
  (repeat' split) <;> simp
@[simp] theorem Dev.claimOff_sec (c : Nat) : (d.claimOff c).sec = d.sec := by
  unfold Dev.claimOff; dsimp only
  rw [foldl_keep Dev.sec _ (fun _ _ => by simp) _ _]
  rw [Dev.moveBlock_sec]; dsimp only [Dev.setKernel]
  (repeat' split) <;> simp
@[simp] theorem Dev.claimOff_ports (c : Nat) : (d.claimOff c).ports = d.ports := by
  unfold Dev.claimOff; dsimp only
  rw [foldl_keep Dev.ports _ (fun _ _ => by simp) _ _]
  rw [Dev.moveBlock_ports]; dsimp only [Dev.setKernel]
  (repeat' split) <;> simp
@[simp] theorem Dev.claimOff_routing (c : Nat) : (d.claimOff c).routing = d.routing := by
  unfold Dev.claimOff; dsimp only
  rw [foldl_keep Dev.routing _ (fun _ _ => by simp) _ _]
  rw [Dev.moveBlock_routing]; dsimp only [Dev.setKernel]
  (repeat' split) <;> simp
@[simp] theorem Dev.claimOff_dozeAborted (c : Nat) : (d.claimOff c).dozeAborted = d.dozeAborted := by
  unfold Dev.claimOff; dsimp only
  rw [foldl_keep Dev.dozeAborted _ (fun _ _ => by simp) _ _]
  rw [Dev.moveBlock_dozeAborted]; dsimp only [Dev.setKernel]
  (repeat' split) <;> simp
@[simp] theorem Dev.claimOff_fixedBits (c : Nat) : (d.claimOff c).fixedBits = d.fixedBits := by
  unfold Dev.claimOff; dsimp only
  rw [foldl_keep Dev.fixedBits _ (fun _ _ => by simp) _ _]
  rw [Dev.moveBlock_fixedBits]; dsimp only [Dev.setKernel]
  (repeat' split) <;> simp
@[simp] theorem Dev.claimOff_fixedPace (c : Nat) : (d.claimOff c).fixedPace = d.fixedPace := by
  unfold Dev.claimOff; dsimp only
  rw [foldl_keep Dev.fixedPace _ (fun _ _ => by simp) _ _]
  rw [Dev.moveBlock_fixedPace]; dsimp only [Dev.setKernel]
  (repeat' split) <;> simp
@[simp] theorem Dev.claimOff_started (c : Nat) : (d.claimOff c).started = d.started := by
  unfold Dev.claimOff; dsimp only
  rw [foldl_keep Dev.started _ (fun _ _ => by simp) _ _]
  rw [Dev.moveBlock_started]; dsimp only [Dev.setKernel]
  (repeat' split) <;> simp
@[simp] theorem Dev.claimOff_turns (c : Nat) : (d.claimOff c).turns = d.turns := by
  unfold Dev.claimOff; dsimp only
  rw [foldl_keep Dev.turns _ (fun _ _ => by simp) _ _]
  rw [Dev.moveBlock_turns]; dsimp only [Dev.setKernel]
  (repeat' split) <;> simp
@[simp] theorem Dev.claimOff_capFinal (c : Nat) : (d.claimOff c).capFinal = d.capFinal := by
  unfold Dev.claimOff; dsimp only
  rw [foldl_keep Dev.capFinal _ (fun _ _ => by simp) _ _]
  rw [Dev.moveBlock_capFinal]; dsimp only [Dev.setKernel]
  (repeat' split) <;> simp
@[simp] theorem Dev.claimOff_draws (c : Nat) : (d.claimOff c).draws = d.draws := by
  unfold Dev.claimOff; dsimp only
  rw [foldl_keep Dev.draws _ (fun _ _ => by simp) _ _]
  rw [Dev.moveBlock_draws]; dsimp only [Dev.setKernel]
  (repeat' split) <;> simp

/-! ## leaveChans -/

@[simp] theorem Dev.leaveChans_now (r : Nat) (c : W32) : (d.leaveChans r c).now = d.now := by
  rfl
@[simp] theorem Dev.leaveChans_skew (r : Nat) (c : W32) : (d.leaveChans r c).skew = d.skew := by
  rfl
@[simp] theorem Dev.leaveChans_power (r : Nat) (c : W32) : (d.leaveChans r c).power = d.power := by
  rfl
@[simp] theorem Dev.leaveChans_dies (r : Nat) (c : W32) : (d.leaveChans r c).dies = d.dies := by
  rfl
@[simp] theorem Dev.leaveChans_cap (r : Nat) (c : W32) : (d.leaveChans r c).cap = d.cap := by
  rfl
@[simp] theorem Dev.leaveChans_host (r : Nat) (c : W32) : (d.leaveChans r c).host = d.host := by
  rfl
@[simp] theorem Dev.leaveChans_blocks (r : Nat) (c : W32) : (d.leaveChans r c).blocks = d.blocks := by
  rfl
@[simp] theorem Dev.leaveChans_ringSel (r : Nat) (c : W32) : (d.leaveChans r c).ringSel = d.ringSel := by
  rfl
@[simp] theorem Dev.leaveChans_epochClaim (r : Nat) (c : W32) : (d.leaveChans r c).epochClaim = d.epochClaim := by
  rfl
@[simp] theorem Dev.leaveChans_epochSlot (r : Nat) (c : W32) : (d.leaveChans r c).epochSlot = d.epochSlot := by
  rfl
@[simp] theorem Dev.leaveChans_rings (r : Nat) (c : W32) : (d.leaveChans r c).rings = d.rings := by
  rfl
@[simp] theorem Dev.leaveChans_tallies (r : Nat) (c : W32) : (d.leaveChans r c).tallies = d.tallies := by
  rfl
@[simp] theorem Dev.leaveChans_claims (r : Nat) (c : W32) : (d.leaveChans r c).claims = d.claims := by
  rfl
@[simp] theorem Dev.leaveChans_frames (r : Nat) (c : W32) : (d.leaveChans r c).frames = d.frames := by
  rfl
@[simp] theorem Dev.leaveChans_objects (r : Nat) (c : W32) : (d.leaveChans r c).objects = d.objects := by
  rfl
@[simp] theorem Dev.leaveChans_hoist (r : Nat) (c : W32) : (d.leaveChans r c).hoist = d.hoist := by
  rfl
@[simp] theorem Dev.leaveChans_health (r : Nat) (c : W32) : (d.leaveChans r c).health = d.health := by
  rfl
@[simp] theorem Dev.leaveChans_store (r : Nat) (c : W32) : (d.leaveChans r c).store = d.store := by
  rfl
@[simp] theorem Dev.leaveChans_mbx (r : Nat) (c : W32) : (d.leaveChans r c).mbx = d.mbx := by
  rfl
@[simp] theorem Dev.leaveChans_sec (r : Nat) (c : W32) : (d.leaveChans r c).sec = d.sec := by
  rfl
@[simp] theorem Dev.leaveChans_ports (r : Nat) (c : W32) : (d.leaveChans r c).ports = d.ports := by
  rfl
@[simp] theorem Dev.leaveChans_routing (r : Nat) (c : W32) : (d.leaveChans r c).routing = d.routing := by
  rfl
@[simp] theorem Dev.leaveChans_xbar (r : Nat) (c : W32) : (d.leaveChans r c).xbar = d.xbar := by
  rfl
@[simp] theorem Dev.leaveChans_coll (r : Nat) (c : W32) : (d.leaveChans r c).coll = d.coll := by
  rfl
@[simp] theorem Dev.leaveChans_time (r : Nat) (c : W32) : (d.leaveChans r c).time = d.time := by
  rfl
@[simp] theorem Dev.leaveChans_evt (r : Nat) (c : W32) : (d.leaveChans r c).evt = d.evt := by
  rfl
@[simp] theorem Dev.leaveChans_dozeAborted (r : Nat) (c : W32) : (d.leaveChans r c).dozeAborted = d.dozeAborted := by
  rfl
@[simp] theorem Dev.leaveChans_fixedBits (r : Nat) (c : W32) : (d.leaveChans r c).fixedBits = d.fixedBits := by
  rfl
@[simp] theorem Dev.leaveChans_fixedPace (r : Nat) (c : W32) : (d.leaveChans r c).fixedPace = d.fixedPace := by
  rfl
@[simp] theorem Dev.leaveChans_started (r : Nat) (c : W32) : (d.leaveChans r c).started = d.started := by
  rfl
@[simp] theorem Dev.leaveChans_turns (r : Nat) (c : W32) : (d.leaveChans r c).turns = d.turns := by
  rfl
@[simp] theorem Dev.leaveChans_capGen (r : Nat) (c : W32) : (d.leaveChans r c).capGen = d.capGen := by
  rfl
@[simp] theorem Dev.leaveChans_capFinal (r : Nat) (c : W32) : (d.leaveChans r c).capFinal = d.capFinal := by
  rfl
@[simp] theorem Dev.leaveChans_capTick (r : Nat) (c : W32) : (d.leaveChans r c).capTick = d.capTick := by
  rfl
@[simp] theorem Dev.leaveChans_draws (r : Nat) (c : W32) : (d.leaveChans r c).draws = d.draws := by
  rfl
@[simp] theorem Dev.leaveChans_out (r : Nat) (c : W32) : (d.leaveChans r c).out = d.out := by
  rfl

/-! ## forgetDebt -/

@[simp] theorem Dev.forgetDebt_now (c : Nat) : (d.forgetDebt c).now = d.now := by
  simp [Dev.forgetDebt]
@[simp] theorem Dev.forgetDebt_skew (c : Nat) : (d.forgetDebt c).skew = d.skew := by
  simp [Dev.forgetDebt]
@[simp] theorem Dev.forgetDebt_power (c : Nat) : (d.forgetDebt c).power = d.power := by
  simp [Dev.forgetDebt]
@[simp] theorem Dev.forgetDebt_dies (c : Nat) : (d.forgetDebt c).dies = d.dies := by
  simp [Dev.forgetDebt]
@[simp] theorem Dev.forgetDebt_cap (c : Nat) : (d.forgetDebt c).cap = d.cap := by
  simp [Dev.forgetDebt]
@[simp] theorem Dev.forgetDebt_host (c : Nat) : (d.forgetDebt c).host = d.host := by
  simp [Dev.forgetDebt]
@[simp] theorem Dev.forgetDebt_blocks (c : Nat) : (d.forgetDebt c).blocks = d.blocks := by
  simp [Dev.forgetDebt]
@[simp] theorem Dev.forgetDebt_ringSel (c : Nat) : (d.forgetDebt c).ringSel = d.ringSel := by
  simp [Dev.forgetDebt]
@[simp] theorem Dev.forgetDebt_epochClaim (c : Nat) : (d.forgetDebt c).epochClaim = d.epochClaim := by
  simp [Dev.forgetDebt]
@[simp] theorem Dev.forgetDebt_epochSlot (c : Nat) : (d.forgetDebt c).epochSlot = d.epochSlot := by
  simp [Dev.forgetDebt]
@[simp] theorem Dev.forgetDebt_rings (c : Nat) : (d.forgetDebt c).rings = d.rings := by
  simp [Dev.forgetDebt]
@[simp] theorem Dev.forgetDebt_tallies (c : Nat) : (d.forgetDebt c).tallies = d.tallies := by
  simp [Dev.forgetDebt]
@[simp] theorem Dev.forgetDebt_frames (c : Nat) : (d.forgetDebt c).frames = d.frames := by
  simp [Dev.forgetDebt]
@[simp] theorem Dev.forgetDebt_objects (c : Nat) : (d.forgetDebt c).objects = d.objects := by
  simp [Dev.forgetDebt]
@[simp] theorem Dev.forgetDebt_hoist (c : Nat) : (d.forgetDebt c).hoist = d.hoist := by
  simp [Dev.forgetDebt]
@[simp] theorem Dev.forgetDebt_health (c : Nat) : (d.forgetDebt c).health = d.health := by
  simp [Dev.forgetDebt]
@[simp] theorem Dev.forgetDebt_store (c : Nat) : (d.forgetDebt c).store = d.store := by
  simp [Dev.forgetDebt]
@[simp] theorem Dev.forgetDebt_mbx (c : Nat) : (d.forgetDebt c).mbx = d.mbx := by
  simp [Dev.forgetDebt]
@[simp] theorem Dev.forgetDebt_sec (c : Nat) : (d.forgetDebt c).sec = d.sec := by
  simp [Dev.forgetDebt]
@[simp] theorem Dev.forgetDebt_ports (c : Nat) : (d.forgetDebt c).ports = d.ports := by
  simp [Dev.forgetDebt]
@[simp] theorem Dev.forgetDebt_routing (c : Nat) : (d.forgetDebt c).routing = d.routing := by
  simp [Dev.forgetDebt]
@[simp] theorem Dev.forgetDebt_xbar (c : Nat) : (d.forgetDebt c).xbar = d.xbar := by
  simp [Dev.forgetDebt]
@[simp] theorem Dev.forgetDebt_coll (c : Nat) : (d.forgetDebt c).coll = d.coll := by
  simp [Dev.forgetDebt]
@[simp] theorem Dev.forgetDebt_time (c : Nat) : (d.forgetDebt c).time = d.time := by
  simp [Dev.forgetDebt]
@[simp] theorem Dev.forgetDebt_evt (c : Nat) : (d.forgetDebt c).evt = d.evt := by
  simp [Dev.forgetDebt]
@[simp] theorem Dev.forgetDebt_shuttle (c : Nat) : (d.forgetDebt c).shuttle = d.shuttle := by
  simp [Dev.forgetDebt]
@[simp] theorem Dev.forgetDebt_dozeAborted (c : Nat) : (d.forgetDebt c).dozeAborted = d.dozeAborted := by
  simp [Dev.forgetDebt]
@[simp] theorem Dev.forgetDebt_fixedBits (c : Nat) : (d.forgetDebt c).fixedBits = d.fixedBits := by
  simp [Dev.forgetDebt]
@[simp] theorem Dev.forgetDebt_fixedPace (c : Nat) : (d.forgetDebt c).fixedPace = d.fixedPace := by
  simp [Dev.forgetDebt]
@[simp] theorem Dev.forgetDebt_started (c : Nat) : (d.forgetDebt c).started = d.started := by
  simp [Dev.forgetDebt]
@[simp] theorem Dev.forgetDebt_turns (c : Nat) : (d.forgetDebt c).turns = d.turns := by
  simp [Dev.forgetDebt]
@[simp] theorem Dev.forgetDebt_capGen (c : Nat) : (d.forgetDebt c).capGen = d.capGen := by
  simp [Dev.forgetDebt]
@[simp] theorem Dev.forgetDebt_capFinal (c : Nat) : (d.forgetDebt c).capFinal = d.capFinal := by
  simp [Dev.forgetDebt]
@[simp] theorem Dev.forgetDebt_capTick (c : Nat) : (d.forgetDebt c).capTick = d.capTick := by
  simp [Dev.forgetDebt]
@[simp] theorem Dev.forgetDebt_draws (c : Nat) : (d.forgetDebt c).draws = d.draws := by
  simp [Dev.forgetDebt]
@[simp] theorem Dev.forgetDebt_out (c : Nat) : (d.forgetDebt c).out = d.out := by
  simp [Dev.forgetDebt]

/-! ## killOp -/

@[simp] theorem Dev.killOp_now (r : Nat) (c : W32) (res : Result) : (d.killOp r c res).now = d.now := by
  unfold Dev.killOp; try dsimp only
  (repeat' split) <;> simp
@[simp] theorem Dev.killOp_skew (r : Nat) (c : W32) (res : Result) : (d.killOp r c res).skew = d.skew := by
  unfold Dev.killOp; try dsimp only
  (repeat' split) <;> simp
@[simp] theorem Dev.killOp_power (r : Nat) (c : W32) (res : Result) : (d.killOp r c res).power = d.power := by
  unfold Dev.killOp; try dsimp only
  (repeat' split) <;> simp
@[simp] theorem Dev.killOp_dies (r : Nat) (c : W32) (res : Result) : (d.killOp r c res).dies = d.dies := by
  unfold Dev.killOp; try dsimp only
  (repeat' split) <;> simp
@[simp] theorem Dev.killOp_cap (r : Nat) (c : W32) (res : Result) : (d.killOp r c res).cap = d.cap := by
  unfold Dev.killOp; try dsimp only
  (repeat' split) <;> simp
@[simp] theorem Dev.killOp_host (r : Nat) (c : W32) (res : Result) : (d.killOp r c res).host = d.host := by
  unfold Dev.killOp; try dsimp only
  (repeat' split) <;> simp
@[simp] theorem Dev.killOp_blocks (r : Nat) (c : W32) (res : Result) : (d.killOp r c res).blocks = d.blocks := by
  unfold Dev.killOp; try dsimp only
  (repeat' split) <;> simp
@[simp] theorem Dev.killOp_ringSel (r : Nat) (c : W32) (res : Result) : (d.killOp r c res).ringSel = d.ringSel := by
  unfold Dev.killOp; try dsimp only
  (repeat' split) <;> simp
@[simp] theorem Dev.killOp_epochClaim (r : Nat) (c : W32) (res : Result) : (d.killOp r c res).epochClaim = d.epochClaim := by
  unfold Dev.killOp; try dsimp only
  (repeat' split) <;> simp
@[simp] theorem Dev.killOp_epochSlot (r : Nat) (c : W32) (res : Result) : (d.killOp r c res).epochSlot = d.epochSlot := by
  unfold Dev.killOp; try dsimp only
  (repeat' split) <;> simp
@[simp] theorem Dev.killOp_tallies (r : Nat) (c : W32) (res : Result) : (d.killOp r c res).tallies = d.tallies := by
  unfold Dev.killOp; try dsimp only
  (repeat' split) <;> simp
@[simp] theorem Dev.killOp_frames (r : Nat) (c : W32) (res : Result) : (d.killOp r c res).frames = d.frames := by
  unfold Dev.killOp; try dsimp only
  (repeat' split) <;> simp
@[simp] theorem Dev.killOp_objects (r : Nat) (c : W32) (res : Result) : (d.killOp r c res).objects = d.objects := by
  unfold Dev.killOp; try dsimp only
  (repeat' split) <;> simp
@[simp] theorem Dev.killOp_hoist (r : Nat) (c : W32) (res : Result) : (d.killOp r c res).hoist = d.hoist := by
  unfold Dev.killOp; try dsimp only
  (repeat' split) <;> simp
@[simp] theorem Dev.killOp_health (r : Nat) (c : W32) (res : Result) : (d.killOp r c res).health = d.health := by
  unfold Dev.killOp; try dsimp only
  (repeat' split) <;> simp
@[simp] theorem Dev.killOp_store (r : Nat) (c : W32) (res : Result) : (d.killOp r c res).store = d.store := by
  unfold Dev.killOp; try dsimp only
  (repeat' split) <;> simp
@[simp] theorem Dev.killOp_mbx (r : Nat) (c : W32) (res : Result) : (d.killOp r c res).mbx = d.mbx := by
  unfold Dev.killOp; try dsimp only
  (repeat' split) <;> simp
@[simp] theorem Dev.killOp_sec (r : Nat) (c : W32) (res : Result) : (d.killOp r c res).sec = d.sec := by
  unfold Dev.killOp; try dsimp only
  (repeat' split) <;> simp
@[simp] theorem Dev.killOp_ports (r : Nat) (c : W32) (res : Result) : (d.killOp r c res).ports = d.ports := by
  unfold Dev.killOp; try dsimp only
  (repeat' split) <;> simp
@[simp] theorem Dev.killOp_routing (r : Nat) (c : W32) (res : Result) : (d.killOp r c res).routing = d.routing := by
  unfold Dev.killOp; try dsimp only
  (repeat' split) <;> simp
@[simp] theorem Dev.killOp_xbar (r : Nat) (c : W32) (res : Result) : (d.killOp r c res).xbar = d.xbar := by
  unfold Dev.killOp; try dsimp only
  (repeat' split) <;> simp
@[simp] theorem Dev.killOp_coll (r : Nat) (c : W32) (res : Result) : (d.killOp r c res).coll = d.coll := by
  unfold Dev.killOp; try dsimp only
  (repeat' split) <;> simp
@[simp] theorem Dev.killOp_time (r : Nat) (c : W32) (res : Result) : (d.killOp r c res).time = d.time := by
  unfold Dev.killOp; try dsimp only
  (repeat' split) <;> simp
@[simp] theorem Dev.killOp_evt (r : Nat) (c : W32) (res : Result) : (d.killOp r c res).evt = d.evt := by
  unfold Dev.killOp; try dsimp only
  (repeat' split) <;> simp
@[simp] theorem Dev.killOp_dozeAborted (r : Nat) (c : W32) (res : Result) : (d.killOp r c res).dozeAborted = d.dozeAborted := by
  unfold Dev.killOp; try dsimp only
  (repeat' split) <;> simp
@[simp] theorem Dev.killOp_fixedBits (r : Nat) (c : W32) (res : Result) : (d.killOp r c res).fixedBits = d.fixedBits := by
  unfold Dev.killOp; try dsimp only
  (repeat' split) <;> simp
@[simp] theorem Dev.killOp_fixedPace (r : Nat) (c : W32) (res : Result) : (d.killOp r c res).fixedPace = d.fixedPace := by
  unfold Dev.killOp; try dsimp only
  (repeat' split) <;> simp
@[simp] theorem Dev.killOp_started (r : Nat) (c : W32) (res : Result) : (d.killOp r c res).started = d.started := by
  unfold Dev.killOp; try dsimp only
  (repeat' split) <;> simp
@[simp] theorem Dev.killOp_turns (r : Nat) (c : W32) (res : Result) : (d.killOp r c res).turns = d.turns := by
  unfold Dev.killOp; try dsimp only
  (repeat' split) <;> simp
@[simp] theorem Dev.killOp_capGen (r : Nat) (c : W32) (res : Result) : (d.killOp r c res).capGen = d.capGen := by
  unfold Dev.killOp; try dsimp only
  (repeat' split) <;> simp
@[simp] theorem Dev.killOp_capFinal (r : Nat) (c : W32) (res : Result) : (d.killOp r c res).capFinal = d.capFinal := by
  unfold Dev.killOp; try dsimp only
  (repeat' split) <;> simp
@[simp] theorem Dev.killOp_capTick (r : Nat) (c : W32) (res : Result) : (d.killOp r c res).capTick = d.capTick := by
  unfold Dev.killOp; try dsimp only
  (repeat' split) <;> simp
@[simp] theorem Dev.killOp_draws (r : Nat) (c : W32) (res : Result) : (d.killOp r c res).draws = d.draws := by
  unfold Dev.killOp; try dsimp only
  (repeat' split) <;> simp
@[simp] theorem Dev.killOp_out (r : Nat) (c : W32) (res : Result) : (d.killOp r c res).out = d.out := by
  unfold Dev.killOp; try dsimp only
  (repeat' split) <;> simp

/-! ## killOps -/

@[simp] theorem Dev.killOps_now (p : Dev → Nat → Entry → Bool) (x : BitVec 16) (k : Nat) : (d.killOps p x k).now = d.now := by
  unfold Dev.killOps; exact foldl_keep Dev.now _ (fun _ _ => by (repeat' split) <;> simp) _ _
@[simp] theorem Dev.killOps_skew (p : Dev → Nat → Entry → Bool) (x : BitVec 16) (k : Nat) : (d.killOps p x k).skew = d.skew := by
  unfold Dev.killOps; exact foldl_keep Dev.skew _ (fun _ _ => by (repeat' split) <;> simp) _ _
@[simp] theorem Dev.killOps_power (p : Dev → Nat → Entry → Bool) (x : BitVec 16) (k : Nat) : (d.killOps p x k).power = d.power := by
  unfold Dev.killOps; exact foldl_keep Dev.power _ (fun _ _ => by (repeat' split) <;> simp) _ _
@[simp] theorem Dev.killOps_dies (p : Dev → Nat → Entry → Bool) (x : BitVec 16) (k : Nat) : (d.killOps p x k).dies = d.dies := by
  unfold Dev.killOps; exact foldl_keep Dev.dies _ (fun _ _ => by (repeat' split) <;> simp) _ _
@[simp] theorem Dev.killOps_cap (p : Dev → Nat → Entry → Bool) (x : BitVec 16) (k : Nat) : (d.killOps p x k).cap = d.cap := by
  unfold Dev.killOps; exact foldl_keep Dev.cap _ (fun _ _ => by (repeat' split) <;> simp) _ _
@[simp] theorem Dev.killOps_host (p : Dev → Nat → Entry → Bool) (x : BitVec 16) (k : Nat) : (d.killOps p x k).host = d.host := by
  unfold Dev.killOps; exact foldl_keep Dev.host _ (fun _ _ => by (repeat' split) <;> simp) _ _
@[simp] theorem Dev.killOps_blocks (p : Dev → Nat → Entry → Bool) (x : BitVec 16) (k : Nat) : (d.killOps p x k).blocks = d.blocks := by
  unfold Dev.killOps; exact foldl_keep Dev.blocks _ (fun _ _ => by (repeat' split) <;> simp) _ _
@[simp] theorem Dev.killOps_ringSel (p : Dev → Nat → Entry → Bool) (x : BitVec 16) (k : Nat) : (d.killOps p x k).ringSel = d.ringSel := by
  unfold Dev.killOps; exact foldl_keep Dev.ringSel _ (fun _ _ => by (repeat' split) <;> simp) _ _
@[simp] theorem Dev.killOps_epochClaim (p : Dev → Nat → Entry → Bool) (x : BitVec 16) (k : Nat) : (d.killOps p x k).epochClaim = d.epochClaim := by
  unfold Dev.killOps; exact foldl_keep Dev.epochClaim _ (fun _ _ => by (repeat' split) <;> simp) _ _
@[simp] theorem Dev.killOps_epochSlot (p : Dev → Nat → Entry → Bool) (x : BitVec 16) (k : Nat) : (d.killOps p x k).epochSlot = d.epochSlot := by
  unfold Dev.killOps; exact foldl_keep Dev.epochSlot _ (fun _ _ => by (repeat' split) <;> simp) _ _
@[simp] theorem Dev.killOps_tallies (p : Dev → Nat → Entry → Bool) (x : BitVec 16) (k : Nat) : (d.killOps p x k).tallies = d.tallies := by
  unfold Dev.killOps; exact foldl_keep Dev.tallies _ (fun _ _ => by (repeat' split) <;> simp) _ _
@[simp] theorem Dev.killOps_frames (p : Dev → Nat → Entry → Bool) (x : BitVec 16) (k : Nat) : (d.killOps p x k).frames = d.frames := by
  unfold Dev.killOps; exact foldl_keep Dev.frames _ (fun _ _ => by (repeat' split) <;> simp) _ _
@[simp] theorem Dev.killOps_objects (p : Dev → Nat → Entry → Bool) (x : BitVec 16) (k : Nat) : (d.killOps p x k).objects = d.objects := by
  unfold Dev.killOps; exact foldl_keep Dev.objects _ (fun _ _ => by (repeat' split) <;> simp) _ _
@[simp] theorem Dev.killOps_hoist (p : Dev → Nat → Entry → Bool) (x : BitVec 16) (k : Nat) : (d.killOps p x k).hoist = d.hoist := by
  unfold Dev.killOps; exact foldl_keep Dev.hoist _ (fun _ _ => by (repeat' split) <;> simp) _ _
@[simp] theorem Dev.killOps_health (p : Dev → Nat → Entry → Bool) (x : BitVec 16) (k : Nat) : (d.killOps p x k).health = d.health := by
  unfold Dev.killOps; exact foldl_keep Dev.health _ (fun _ _ => by (repeat' split) <;> simp) _ _
@[simp] theorem Dev.killOps_store (p : Dev → Nat → Entry → Bool) (x : BitVec 16) (k : Nat) : (d.killOps p x k).store = d.store := by
  unfold Dev.killOps; exact foldl_keep Dev.store _ (fun _ _ => by (repeat' split) <;> simp) _ _
@[simp] theorem Dev.killOps_mbx (p : Dev → Nat → Entry → Bool) (x : BitVec 16) (k : Nat) : (d.killOps p x k).mbx = d.mbx := by
  unfold Dev.killOps; exact foldl_keep Dev.mbx _ (fun _ _ => by (repeat' split) <;> simp) _ _
@[simp] theorem Dev.killOps_sec (p : Dev → Nat → Entry → Bool) (x : BitVec 16) (k : Nat) : (d.killOps p x k).sec = d.sec := by
  unfold Dev.killOps; exact foldl_keep Dev.sec _ (fun _ _ => by (repeat' split) <;> simp) _ _
@[simp] theorem Dev.killOps_ports (p : Dev → Nat → Entry → Bool) (x : BitVec 16) (k : Nat) : (d.killOps p x k).ports = d.ports := by
  unfold Dev.killOps; exact foldl_keep Dev.ports _ (fun _ _ => by (repeat' split) <;> simp) _ _
@[simp] theorem Dev.killOps_routing (p : Dev → Nat → Entry → Bool) (x : BitVec 16) (k : Nat) : (d.killOps p x k).routing = d.routing := by
  unfold Dev.killOps; exact foldl_keep Dev.routing _ (fun _ _ => by (repeat' split) <;> simp) _ _
@[simp] theorem Dev.killOps_xbar (p : Dev → Nat → Entry → Bool) (x : BitVec 16) (k : Nat) : (d.killOps p x k).xbar = d.xbar := by
  unfold Dev.killOps; exact foldl_keep Dev.xbar _ (fun _ _ => by (repeat' split) <;> simp) _ _
@[simp] theorem Dev.killOps_coll (p : Dev → Nat → Entry → Bool) (x : BitVec 16) (k : Nat) : (d.killOps p x k).coll = d.coll := by
  unfold Dev.killOps; exact foldl_keep Dev.coll _ (fun _ _ => by (repeat' split) <;> simp) _ _
@[simp] theorem Dev.killOps_time (p : Dev → Nat → Entry → Bool) (x : BitVec 16) (k : Nat) : (d.killOps p x k).time = d.time := by
  unfold Dev.killOps; exact foldl_keep Dev.time _ (fun _ _ => by (repeat' split) <;> simp) _ _
@[simp] theorem Dev.killOps_evt (p : Dev → Nat → Entry → Bool) (x : BitVec 16) (k : Nat) : (d.killOps p x k).evt = d.evt := by
  unfold Dev.killOps; exact foldl_keep Dev.evt _ (fun _ _ => by (repeat' split) <;> simp) _ _
@[simp] theorem Dev.killOps_dozeAborted (p : Dev → Nat → Entry → Bool) (x : BitVec 16) (k : Nat) : (d.killOps p x k).dozeAborted = d.dozeAborted := by
  unfold Dev.killOps; exact foldl_keep Dev.dozeAborted _ (fun _ _ => by (repeat' split) <;> simp) _ _
@[simp] theorem Dev.killOps_fixedBits (p : Dev → Nat → Entry → Bool) (x : BitVec 16) (k : Nat) : (d.killOps p x k).fixedBits = d.fixedBits := by
  unfold Dev.killOps; exact foldl_keep Dev.fixedBits _ (fun _ _ => by (repeat' split) <;> simp) _ _
@[simp] theorem Dev.killOps_fixedPace (p : Dev → Nat → Entry → Bool) (x : BitVec 16) (k : Nat) : (d.killOps p x k).fixedPace = d.fixedPace := by
  unfold Dev.killOps; exact foldl_keep Dev.fixedPace _ (fun _ _ => by (repeat' split) <;> simp) _ _
@[simp] theorem Dev.killOps_started (p : Dev → Nat → Entry → Bool) (x : BitVec 16) (k : Nat) : (d.killOps p x k).started = d.started := by
  unfold Dev.killOps; exact foldl_keep Dev.started _ (fun _ _ => by (repeat' split) <;> simp) _ _
@[simp] theorem Dev.killOps_turns (p : Dev → Nat → Entry → Bool) (x : BitVec 16) (k : Nat) : (d.killOps p x k).turns = d.turns := by
  unfold Dev.killOps; exact foldl_keep Dev.turns _ (fun _ _ => by (repeat' split) <;> simp) _ _
@[simp] theorem Dev.killOps_capGen (p : Dev → Nat → Entry → Bool) (x : BitVec 16) (k : Nat) : (d.killOps p x k).capGen = d.capGen := by
  unfold Dev.killOps; exact foldl_keep Dev.capGen _ (fun _ _ => by (repeat' split) <;> simp) _ _
@[simp] theorem Dev.killOps_capFinal (p : Dev → Nat → Entry → Bool) (x : BitVec 16) (k : Nat) : (d.killOps p x k).capFinal = d.capFinal := by
  unfold Dev.killOps; exact foldl_keep Dev.capFinal _ (fun _ _ => by (repeat' split) <;> simp) _ _
@[simp] theorem Dev.killOps_capTick (p : Dev → Nat → Entry → Bool) (x : BitVec 16) (k : Nat) : (d.killOps p x k).capTick = d.capTick := by
  unfold Dev.killOps; exact foldl_keep Dev.capTick _ (fun _ _ => by (repeat' split) <;> simp) _ _
@[simp] theorem Dev.killOps_draws (p : Dev → Nat → Entry → Bool) (x : BitVec 16) (k : Nat) : (d.killOps p x k).draws = d.draws := by
  unfold Dev.killOps; exact foldl_keep Dev.draws _ (fun _ _ => by (repeat' split) <;> simp) _ _
@[simp] theorem Dev.killOps_out (p : Dev → Nat → Entry → Bool) (x : BitVec 16) (k : Nat) : (d.killOps p x k).out = d.out := by
  unfold Dev.killOps; exact foldl_keep Dev.out _ (fun _ _ => by (repeat' split) <;> simp) _ _

/-! ## endInterrupted -/

@[simp] theorem Dev.endInterrupted_now (c : Nat) : (d.endInterrupted c).now = d.now := by
  unfold Dev.endInterrupted; split
  · exact foldl_keep Dev.now _ (fun _ _ => by simp) _ _
  · rfl
@[simp] theorem Dev.endInterrupted_skew (c : Nat) : (d.endInterrupted c).skew = d.skew := by
  unfold Dev.endInterrupted; split
  · exact foldl_keep Dev.skew _ (fun _ _ => by simp) _ _
  · rfl
@[simp] theorem Dev.endInterrupted_power (c : Nat) : (d.endInterrupted c).power = d.power := by
  unfold Dev.endInterrupted; split
  · exact foldl_keep Dev.power _ (fun _ _ => by simp) _ _
  · rfl
@[simp] theorem Dev.endInterrupted_dies (c : Nat) : (d.endInterrupted c).dies = d.dies := by
  unfold Dev.endInterrupted; split
  · exact foldl_keep Dev.dies _ (fun _ _ => by simp) _ _
  · rfl
@[simp] theorem Dev.endInterrupted_cap (c : Nat) : (d.endInterrupted c).cap = d.cap := by
  unfold Dev.endInterrupted; split
  · exact foldl_keep Dev.cap _ (fun _ _ => by simp) _ _
  · rfl
@[simp] theorem Dev.endInterrupted_host (c : Nat) : (d.endInterrupted c).host = d.host := by
  unfold Dev.endInterrupted; split
  · exact foldl_keep Dev.host _ (fun _ _ => by simp) _ _
  · rfl
@[simp] theorem Dev.endInterrupted_blocks (c : Nat) : (d.endInterrupted c).blocks = d.blocks := by
  unfold Dev.endInterrupted; split
  · exact foldl_keep Dev.blocks _ (fun _ _ => by simp) _ _
  · rfl
@[simp] theorem Dev.endInterrupted_ringSel (c : Nat) : (d.endInterrupted c).ringSel = d.ringSel := by
  unfold Dev.endInterrupted; split
  · exact foldl_keep Dev.ringSel _ (fun _ _ => by simp) _ _
  · rfl
@[simp] theorem Dev.endInterrupted_epochClaim (c : Nat) : (d.endInterrupted c).epochClaim = d.epochClaim := by
  unfold Dev.endInterrupted; split
  · exact foldl_keep Dev.epochClaim _ (fun _ _ => by simp) _ _
  · rfl
@[simp] theorem Dev.endInterrupted_epochSlot (c : Nat) : (d.endInterrupted c).epochSlot = d.epochSlot := by
  unfold Dev.endInterrupted; split
  · exact foldl_keep Dev.epochSlot _ (fun _ _ => by simp) _ _
  · rfl
@[simp] theorem Dev.endInterrupted_tallies (c : Nat) : (d.endInterrupted c).tallies = d.tallies := by
  unfold Dev.endInterrupted; split
  · exact foldl_keep Dev.tallies _ (fun _ _ => by simp) _ _
  · rfl
@[simp] theorem Dev.endInterrupted_frames (c : Nat) : (d.endInterrupted c).frames = d.frames := by
  unfold Dev.endInterrupted; split
  · exact foldl_keep Dev.frames _ (fun _ _ => by simp) _ _
  · rfl
@[simp] theorem Dev.endInterrupted_objects (c : Nat) : (d.endInterrupted c).objects = d.objects := by
  unfold Dev.endInterrupted; split
  · exact foldl_keep Dev.objects _ (fun _ _ => by simp) _ _
  · rfl
@[simp] theorem Dev.endInterrupted_hoist (c : Nat) : (d.endInterrupted c).hoist = d.hoist := by
  unfold Dev.endInterrupted; split
  · exact foldl_keep Dev.hoist _ (fun _ _ => by simp) _ _
  · rfl
@[simp] theorem Dev.endInterrupted_health (c : Nat) : (d.endInterrupted c).health = d.health := by
  unfold Dev.endInterrupted; split
  · exact foldl_keep Dev.health _ (fun _ _ => by simp) _ _
  · rfl
@[simp] theorem Dev.endInterrupted_store (c : Nat) : (d.endInterrupted c).store = d.store := by
  unfold Dev.endInterrupted; split
  · exact foldl_keep Dev.store _ (fun _ _ => by simp) _ _
  · rfl
@[simp] theorem Dev.endInterrupted_mbx (c : Nat) : (d.endInterrupted c).mbx = d.mbx := by
  unfold Dev.endInterrupted; split
  · exact foldl_keep Dev.mbx _ (fun _ _ => by simp) _ _
  · rfl
@[simp] theorem Dev.endInterrupted_sec (c : Nat) : (d.endInterrupted c).sec = d.sec := by
  unfold Dev.endInterrupted; split
  · exact foldl_keep Dev.sec _ (fun _ _ => by simp) _ _
  · rfl
@[simp] theorem Dev.endInterrupted_ports (c : Nat) : (d.endInterrupted c).ports = d.ports := by
  unfold Dev.endInterrupted; split
  · exact foldl_keep Dev.ports _ (fun _ _ => by simp) _ _
  · rfl
@[simp] theorem Dev.endInterrupted_routing (c : Nat) : (d.endInterrupted c).routing = d.routing := by
  unfold Dev.endInterrupted; split
  · exact foldl_keep Dev.routing _ (fun _ _ => by simp) _ _
  · rfl
@[simp] theorem Dev.endInterrupted_xbar (c : Nat) : (d.endInterrupted c).xbar = d.xbar := by
  unfold Dev.endInterrupted; split
  · exact foldl_keep Dev.xbar _ (fun _ _ => by simp) _ _
  · rfl
@[simp] theorem Dev.endInterrupted_coll (c : Nat) : (d.endInterrupted c).coll = d.coll := by
  unfold Dev.endInterrupted; split
  · exact foldl_keep Dev.coll _ (fun _ _ => by simp) _ _
  · rfl
@[simp] theorem Dev.endInterrupted_time (c : Nat) : (d.endInterrupted c).time = d.time := by
  unfold Dev.endInterrupted; split
  · exact foldl_keep Dev.time _ (fun _ _ => by simp) _ _
  · rfl
@[simp] theorem Dev.endInterrupted_evt (c : Nat) : (d.endInterrupted c).evt = d.evt := by
  unfold Dev.endInterrupted; split
  · exact foldl_keep Dev.evt _ (fun _ _ => by simp) _ _
  · rfl
@[simp] theorem Dev.endInterrupted_dozeAborted (c : Nat) : (d.endInterrupted c).dozeAborted = d.dozeAborted := by
  unfold Dev.endInterrupted; split
  · exact foldl_keep Dev.dozeAborted _ (fun _ _ => by simp) _ _
  · rfl
@[simp] theorem Dev.endInterrupted_fixedBits (c : Nat) : (d.endInterrupted c).fixedBits = d.fixedBits := by
  unfold Dev.endInterrupted; split
  · exact foldl_keep Dev.fixedBits _ (fun _ _ => by simp) _ _
  · rfl
@[simp] theorem Dev.endInterrupted_fixedPace (c : Nat) : (d.endInterrupted c).fixedPace = d.fixedPace := by
  unfold Dev.endInterrupted; split
  · exact foldl_keep Dev.fixedPace _ (fun _ _ => by simp) _ _
  · rfl
@[simp] theorem Dev.endInterrupted_started (c : Nat) : (d.endInterrupted c).started = d.started := by
  unfold Dev.endInterrupted; split
  · exact foldl_keep Dev.started _ (fun _ _ => by simp) _ _
  · rfl
@[simp] theorem Dev.endInterrupted_turns (c : Nat) : (d.endInterrupted c).turns = d.turns := by
  unfold Dev.endInterrupted; split
  · exact foldl_keep Dev.turns _ (fun _ _ => by simp) _ _
  · rfl
@[simp] theorem Dev.endInterrupted_capGen (c : Nat) : (d.endInterrupted c).capGen = d.capGen := by
  unfold Dev.endInterrupted; split
  · exact foldl_keep Dev.capGen _ (fun _ _ => by simp) _ _
  · rfl
@[simp] theorem Dev.endInterrupted_capFinal (c : Nat) : (d.endInterrupted c).capFinal = d.capFinal := by
  unfold Dev.endInterrupted; split
  · exact foldl_keep Dev.capFinal _ (fun _ _ => by simp) _ _
  · rfl
@[simp] theorem Dev.endInterrupted_capTick (c : Nat) : (d.endInterrupted c).capTick = d.capTick := by
  unfold Dev.endInterrupted; split
  · exact foldl_keep Dev.capTick _ (fun _ _ => by simp) _ _
  · rfl
@[simp] theorem Dev.endInterrupted_draws (c : Nat) : (d.endInterrupted c).draws = d.draws := by
  unfold Dev.endInterrupted; split
  · exact foldl_keep Dev.draws _ (fun _ _ => by simp) _ _
  · rfl
@[simp] theorem Dev.endInterrupted_out (c : Nat) : (d.endInterrupted c).out = d.out := by
  unfold Dev.endInterrupted; split
  · exact foldl_keep Dev.out _ (fun _ _ => by simp) _ _
  · rfl

/-! ## claimLeft -/

@[simp] theorem Dev.claimLeft_now (c : Nat) : (d.claimLeft c).now = d.now := by
  unfold Dev.claimLeft
  exact (Dev.endInterrupted_now _ _).trans ((foldl_keep Dev.now _ (fun _ _ => by simp) _ _).trans (Dev.forgetDebt_now _ _))
@[simp] theorem Dev.claimLeft_skew (c : Nat) : (d.claimLeft c).skew = d.skew := by
  unfold Dev.claimLeft
  exact (Dev.endInterrupted_skew _ _).trans ((foldl_keep Dev.skew _ (fun _ _ => by simp) _ _).trans (Dev.forgetDebt_skew _ _))
@[simp] theorem Dev.claimLeft_power (c : Nat) : (d.claimLeft c).power = d.power := by
  unfold Dev.claimLeft
  exact (Dev.endInterrupted_power _ _).trans ((foldl_keep Dev.power _ (fun _ _ => by simp) _ _).trans (Dev.forgetDebt_power _ _))
@[simp] theorem Dev.claimLeft_dies (c : Nat) : (d.claimLeft c).dies = d.dies := by
  unfold Dev.claimLeft
  exact (Dev.endInterrupted_dies _ _).trans ((foldl_keep Dev.dies _ (fun _ _ => by simp) _ _).trans (Dev.forgetDebt_dies _ _))
@[simp] theorem Dev.claimLeft_cap (c : Nat) : (d.claimLeft c).cap = d.cap := by
  unfold Dev.claimLeft
  exact (Dev.endInterrupted_cap _ _).trans ((foldl_keep Dev.cap _ (fun _ _ => by simp) _ _).trans (Dev.forgetDebt_cap _ _))
@[simp] theorem Dev.claimLeft_ringSel (c : Nat) : (d.claimLeft c).ringSel = d.ringSel := by
  unfold Dev.claimLeft
  exact (Dev.endInterrupted_ringSel _ _).trans ((foldl_keep Dev.ringSel _ (fun _ _ => by simp) _ _).trans (Dev.forgetDebt_ringSel _ _))
@[simp] theorem Dev.claimLeft_epochClaim (c : Nat) : (d.claimLeft c).epochClaim = d.epochClaim := by
  unfold Dev.claimLeft
  exact (Dev.endInterrupted_epochClaim _ _).trans ((foldl_keep Dev.epochClaim _ (fun _ _ => by simp) _ _).trans (Dev.forgetDebt_epochClaim _ _))
@[simp] theorem Dev.claimLeft_epochSlot (c : Nat) : (d.claimLeft c).epochSlot = d.epochSlot := by
  unfold Dev.claimLeft
  exact (Dev.endInterrupted_epochSlot _ _).trans ((foldl_keep Dev.epochSlot _ (fun _ _ => by simp) _ _).trans (Dev.forgetDebt_epochSlot _ _))
@[simp] theorem Dev.claimLeft_frames (c : Nat) : (d.claimLeft c).frames = d.frames := by
  unfold Dev.claimLeft
  exact (Dev.endInterrupted_frames _ _).trans ((foldl_keep Dev.frames _ (fun _ _ => by simp) _ _).trans (Dev.forgetDebt_frames _ _))
@[simp] theorem Dev.claimLeft_objects (c : Nat) : (d.claimLeft c).objects = d.objects := by
  unfold Dev.claimLeft
  exact (Dev.endInterrupted_objects _ _).trans ((foldl_keep Dev.objects _ (fun _ _ => by simp) _ _).trans (Dev.forgetDebt_objects _ _))
@[simp] theorem Dev.claimLeft_hoist (c : Nat) : (d.claimLeft c).hoist = d.hoist := by
  unfold Dev.claimLeft
  exact (Dev.endInterrupted_hoist _ _).trans ((foldl_keep Dev.hoist _ (fun _ _ => by simp) _ _).trans (Dev.forgetDebt_hoist _ _))
@[simp] theorem Dev.claimLeft_store (c : Nat) : (d.claimLeft c).store = d.store := by
  unfold Dev.claimLeft
  exact (Dev.endInterrupted_store _ _).trans ((foldl_keep Dev.store _ (fun _ _ => by simp) _ _).trans (Dev.forgetDebt_store _ _))
@[simp] theorem Dev.claimLeft_mbx (c : Nat) : (d.claimLeft c).mbx = d.mbx := by
  unfold Dev.claimLeft
  exact (Dev.endInterrupted_mbx _ _).trans ((foldl_keep Dev.mbx _ (fun _ _ => by simp) _ _).trans (Dev.forgetDebt_mbx _ _))
@[simp] theorem Dev.claimLeft_sec (c : Nat) : (d.claimLeft c).sec = d.sec := by
  unfold Dev.claimLeft
  exact (Dev.endInterrupted_sec _ _).trans ((foldl_keep Dev.sec _ (fun _ _ => by simp) _ _).trans (Dev.forgetDebt_sec _ _))
@[simp] theorem Dev.claimLeft_ports (c : Nat) : (d.claimLeft c).ports = d.ports := by
  unfold Dev.claimLeft
  exact (Dev.endInterrupted_ports _ _).trans ((foldl_keep Dev.ports _ (fun _ _ => by simp) _ _).trans (Dev.forgetDebt_ports _ _))
@[simp] theorem Dev.claimLeft_routing (c : Nat) : (d.claimLeft c).routing = d.routing := by
  unfold Dev.claimLeft
  exact (Dev.endInterrupted_routing _ _).trans ((foldl_keep Dev.routing _ (fun _ _ => by simp) _ _).trans (Dev.forgetDebt_routing _ _))
@[simp] theorem Dev.claimLeft_xbar (c : Nat) : (d.claimLeft c).xbar = d.xbar := by
  unfold Dev.claimLeft
  exact (Dev.endInterrupted_xbar _ _).trans ((foldl_keep Dev.xbar _ (fun _ _ => by simp) _ _).trans (Dev.forgetDebt_xbar _ _))
@[simp] theorem Dev.claimLeft_coll (c : Nat) : (d.claimLeft c).coll = d.coll := by
  unfold Dev.claimLeft
  exact (Dev.endInterrupted_coll _ _).trans ((foldl_keep Dev.coll _ (fun _ _ => by simp) _ _).trans (Dev.forgetDebt_coll _ _))
@[simp] theorem Dev.claimLeft_time (c : Nat) : (d.claimLeft c).time = d.time := by
  unfold Dev.claimLeft
  exact (Dev.endInterrupted_time _ _).trans ((foldl_keep Dev.time _ (fun _ _ => by simp) _ _).trans (Dev.forgetDebt_time _ _))
@[simp] theorem Dev.claimLeft_evt (c : Nat) : (d.claimLeft c).evt = d.evt := by
  unfold Dev.claimLeft
  exact (Dev.endInterrupted_evt _ _).trans ((foldl_keep Dev.evt _ (fun _ _ => by simp) _ _).trans (Dev.forgetDebt_evt _ _))
@[simp] theorem Dev.claimLeft_dozeAborted (c : Nat) : (d.claimLeft c).dozeAborted = d.dozeAborted := by
  unfold Dev.claimLeft
  exact (Dev.endInterrupted_dozeAborted _ _).trans ((foldl_keep Dev.dozeAborted _ (fun _ _ => by simp) _ _).trans (Dev.forgetDebt_dozeAborted _ _))
@[simp] theorem Dev.claimLeft_fixedBits (c : Nat) : (d.claimLeft c).fixedBits = d.fixedBits := by
  unfold Dev.claimLeft
  exact (Dev.endInterrupted_fixedBits _ _).trans ((foldl_keep Dev.fixedBits _ (fun _ _ => by simp) _ _).trans (Dev.forgetDebt_fixedBits _ _))
@[simp] theorem Dev.claimLeft_fixedPace (c : Nat) : (d.claimLeft c).fixedPace = d.fixedPace := by
  unfold Dev.claimLeft
  exact (Dev.endInterrupted_fixedPace _ _).trans ((foldl_keep Dev.fixedPace _ (fun _ _ => by simp) _ _).trans (Dev.forgetDebt_fixedPace _ _))
@[simp] theorem Dev.claimLeft_started (c : Nat) : (d.claimLeft c).started = d.started := by
  unfold Dev.claimLeft
  exact (Dev.endInterrupted_started _ _).trans ((foldl_keep Dev.started _ (fun _ _ => by simp) _ _).trans (Dev.forgetDebt_started _ _))
@[simp] theorem Dev.claimLeft_turns (c : Nat) : (d.claimLeft c).turns = d.turns := by
  unfold Dev.claimLeft
  exact (Dev.endInterrupted_turns _ _).trans ((foldl_keep Dev.turns _ (fun _ _ => by simp) _ _).trans (Dev.forgetDebt_turns _ _))
@[simp] theorem Dev.claimLeft_capGen (c : Nat) : (d.claimLeft c).capGen = d.capGen := by
  unfold Dev.claimLeft
  exact (Dev.endInterrupted_capGen _ _).trans ((foldl_keep Dev.capGen _ (fun _ _ => by simp) _ _).trans (Dev.forgetDebt_capGen _ _))
@[simp] theorem Dev.claimLeft_capFinal (c : Nat) : (d.claimLeft c).capFinal = d.capFinal := by
  unfold Dev.claimLeft
  exact (Dev.endInterrupted_capFinal _ _).trans ((foldl_keep Dev.capFinal _ (fun _ _ => by simp) _ _).trans (Dev.forgetDebt_capFinal _ _))
@[simp] theorem Dev.claimLeft_capTick (c : Nat) : (d.claimLeft c).capTick = d.capTick := by
  unfold Dev.claimLeft
  exact (Dev.endInterrupted_capTick _ _).trans ((foldl_keep Dev.capTick _ (fun _ _ => by simp) _ _).trans (Dev.forgetDebt_capTick _ _))
@[simp] theorem Dev.claimLeft_draws (c : Nat) : (d.claimLeft c).draws = d.draws := by
  unfold Dev.claimLeft
  exact (Dev.endInterrupted_draws _ _).trans ((foldl_keep Dev.draws _ (fun _ _ => by simp) _ _).trans (Dev.forgetDebt_draws _ _))

/-! ## stopClaim -/

@[simp] theorem Dev.stopClaim_now (c : Nat) (x : BitVec 16) : (d.stopClaim c x).now = d.now := by
  unfold Dev.stopClaim; try dsimp only
  (repeat' split) <;> simp
@[simp] theorem Dev.stopClaim_skew (c : Nat) (x : BitVec 16) : (d.stopClaim c x).skew = d.skew := by
  unfold Dev.stopClaim; try dsimp only
  (repeat' split) <;> simp
@[simp] theorem Dev.stopClaim_power (c : Nat) (x : BitVec 16) : (d.stopClaim c x).power = d.power := by
  unfold Dev.stopClaim; try dsimp only
  (repeat' split) <;> simp
@[simp] theorem Dev.stopClaim_dies (c : Nat) (x : BitVec 16) : (d.stopClaim c x).dies = d.dies := by
  unfold Dev.stopClaim; try dsimp only
  (repeat' split) <;> simp
@[simp] theorem Dev.stopClaim_cap (c : Nat) (x : BitVec 16) : (d.stopClaim c x).cap = d.cap := by
  unfold Dev.stopClaim; try dsimp only
  (repeat' split) <;> simp
@[simp] theorem Dev.stopClaim_ringSel (c : Nat) (x : BitVec 16) : (d.stopClaim c x).ringSel = d.ringSel := by
  unfold Dev.stopClaim; try dsimp only
  (repeat' split) <;> simp
@[simp] theorem Dev.stopClaim_epochClaim (c : Nat) (x : BitVec 16) : (d.stopClaim c x).epochClaim = d.epochClaim := by
  unfold Dev.stopClaim; try dsimp only
  (repeat' split) <;> simp
@[simp] theorem Dev.stopClaim_epochSlot (c : Nat) (x : BitVec 16) : (d.stopClaim c x).epochSlot = d.epochSlot := by
  unfold Dev.stopClaim; try dsimp only
  (repeat' split) <;> simp
@[simp] theorem Dev.stopClaim_frames (c : Nat) (x : BitVec 16) : (d.stopClaim c x).frames = d.frames := by
  unfold Dev.stopClaim; try dsimp only
  (repeat' split) <;> simp
@[simp] theorem Dev.stopClaim_objects (c : Nat) (x : BitVec 16) : (d.stopClaim c x).objects = d.objects := by
  unfold Dev.stopClaim; try dsimp only
  (repeat' split) <;> simp
@[simp] theorem Dev.stopClaim_hoist (c : Nat) (x : BitVec 16) : (d.stopClaim c x).hoist = d.hoist := by
  unfold Dev.stopClaim; try dsimp only
  (repeat' split) <;> simp
@[simp] theorem Dev.stopClaim_store (c : Nat) (x : BitVec 16) : (d.stopClaim c x).store = d.store := by
  unfold Dev.stopClaim; try dsimp only
  (repeat' split) <;> simp
@[simp] theorem Dev.stopClaim_mbx (c : Nat) (x : BitVec 16) : (d.stopClaim c x).mbx = d.mbx := by
  unfold Dev.stopClaim; try dsimp only
  (repeat' split) <;> simp
@[simp] theorem Dev.stopClaim_sec (c : Nat) (x : BitVec 16) : (d.stopClaim c x).sec = d.sec := by
  unfold Dev.stopClaim; try dsimp only
  (repeat' split) <;> simp
@[simp] theorem Dev.stopClaim_ports (c : Nat) (x : BitVec 16) : (d.stopClaim c x).ports = d.ports := by
  unfold Dev.stopClaim; try dsimp only
  (repeat' split) <;> simp
@[simp] theorem Dev.stopClaim_routing (c : Nat) (x : BitVec 16) : (d.stopClaim c x).routing = d.routing := by
  unfold Dev.stopClaim; try dsimp only
  (repeat' split) <;> simp
@[simp] theorem Dev.stopClaim_xbar (c : Nat) (x : BitVec 16) : (d.stopClaim c x).xbar = d.xbar := by
  unfold Dev.stopClaim; try dsimp only
  (repeat' split) <;> simp
@[simp] theorem Dev.stopClaim_coll (c : Nat) (x : BitVec 16) : (d.stopClaim c x).coll = d.coll := by
  unfold Dev.stopClaim; try dsimp only
  (repeat' split) <;> simp
@[simp] theorem Dev.stopClaim_time (c : Nat) (x : BitVec 16) : (d.stopClaim c x).time = d.time := by
  unfold Dev.stopClaim; try dsimp only
  (repeat' split) <;> simp
@[simp] theorem Dev.stopClaim_evt (c : Nat) (x : BitVec 16) : (d.stopClaim c x).evt = d.evt := by
  unfold Dev.stopClaim; try dsimp only
  (repeat' split) <;> simp
@[simp] theorem Dev.stopClaim_dozeAborted (c : Nat) (x : BitVec 16) : (d.stopClaim c x).dozeAborted = d.dozeAborted := by
  unfold Dev.stopClaim; try dsimp only
  (repeat' split) <;> simp
@[simp] theorem Dev.stopClaim_fixedBits (c : Nat) (x : BitVec 16) : (d.stopClaim c x).fixedBits = d.fixedBits := by
  unfold Dev.stopClaim; try dsimp only
  (repeat' split) <;> simp
@[simp] theorem Dev.stopClaim_fixedPace (c : Nat) (x : BitVec 16) : (d.stopClaim c x).fixedPace = d.fixedPace := by
  unfold Dev.stopClaim; try dsimp only
  (repeat' split) <;> simp
@[simp] theorem Dev.stopClaim_started (c : Nat) (x : BitVec 16) : (d.stopClaim c x).started = d.started := by
  unfold Dev.stopClaim; try dsimp only
  (repeat' split) <;> simp
@[simp] theorem Dev.stopClaim_turns (c : Nat) (x : BitVec 16) : (d.stopClaim c x).turns = d.turns := by
  unfold Dev.stopClaim; try dsimp only
  (repeat' split) <;> simp
@[simp] theorem Dev.stopClaim_capGen (c : Nat) (x : BitVec 16) : (d.stopClaim c x).capGen = d.capGen := by
  unfold Dev.stopClaim; try dsimp only
  (repeat' split) <;> simp
@[simp] theorem Dev.stopClaim_capFinal (c : Nat) (x : BitVec 16) : (d.stopClaim c x).capFinal = d.capFinal := by
  unfold Dev.stopClaim; try dsimp only
  (repeat' split) <;> simp
@[simp] theorem Dev.stopClaim_capTick (c : Nat) (x : BitVec 16) : (d.stopClaim c x).capTick = d.capTick := by
  unfold Dev.stopClaim; try dsimp only
  (repeat' split) <;> simp
@[simp] theorem Dev.stopClaim_draws (c : Nat) (x : BitVec 16) : (d.stopClaim c x).draws = d.draws := by
  unfold Dev.stopClaim; try dsimp only
  (repeat' split) <;> simp

/-! ## hostOff -/

@[simp] theorem Dev.hostOff_now (x : BitVec 16) : (d.hostOff x).now = d.now := by
  unfold Dev.hostOff; try dsimp only
  (repeat' split) <;> simp
@[simp] theorem Dev.hostOff_skew (x : BitVec 16) : (d.hostOff x).skew = d.skew := by
  unfold Dev.hostOff; try dsimp only
  (repeat' split) <;> simp
@[simp] theorem Dev.hostOff_power (x : BitVec 16) : (d.hostOff x).power = d.power := by
  unfold Dev.hostOff; try dsimp only
  (repeat' split) <;> simp
@[simp] theorem Dev.hostOff_dies (x : BitVec 16) : (d.hostOff x).dies = d.dies := by
  unfold Dev.hostOff; try dsimp only
  (repeat' split) <;> simp
@[simp] theorem Dev.hostOff_cap (x : BitVec 16) : (d.hostOff x).cap = d.cap := by
  unfold Dev.hostOff; try dsimp only
  (repeat' split) <;> simp
@[simp] theorem Dev.hostOff_ringSel (x : BitVec 16) : (d.hostOff x).ringSel = d.ringSel := by
  unfold Dev.hostOff; try dsimp only
  (repeat' split) <;> simp
@[simp] theorem Dev.hostOff_epochClaim (x : BitVec 16) : (d.hostOff x).epochClaim = d.epochClaim := by
  unfold Dev.hostOff; try dsimp only
  (repeat' split) <;> simp
@[simp] theorem Dev.hostOff_epochSlot (x : BitVec 16) : (d.hostOff x).epochSlot = d.epochSlot := by
  unfold Dev.hostOff; try dsimp only
  (repeat' split) <;> simp
@[simp] theorem Dev.hostOff_tallies (x : BitVec 16) : (d.hostOff x).tallies = d.tallies := by
  unfold Dev.hostOff; try dsimp only
  (repeat' split) <;> simp
@[simp] theorem Dev.hostOff_claims (x : BitVec 16) : (d.hostOff x).claims = d.claims := by
  unfold Dev.hostOff; try dsimp only
  (repeat' split) <;> simp
@[simp] theorem Dev.hostOff_frames (x : BitVec 16) : (d.hostOff x).frames = d.frames := by
  unfold Dev.hostOff; try dsimp only
  (repeat' split) <;> simp
@[simp] theorem Dev.hostOff_objects (x : BitVec 16) : (d.hostOff x).objects = d.objects := by
  unfold Dev.hostOff; try dsimp only
  (repeat' split) <;> simp
@[simp] theorem Dev.hostOff_hoist (x : BitVec 16) : (d.hostOff x).hoist = d.hoist := by
  unfold Dev.hostOff; try dsimp only
  (repeat' split) <;> simp
@[simp] theorem Dev.hostOff_store (x : BitVec 16) : (d.hostOff x).store = d.store := by
  unfold Dev.hostOff; try dsimp only
  (repeat' split) <;> simp
@[simp] theorem Dev.hostOff_mbx (x : BitVec 16) : (d.hostOff x).mbx = d.mbx := by
  unfold Dev.hostOff; try dsimp only
  (repeat' split) <;> simp
@[simp] theorem Dev.hostOff_sec (x : BitVec 16) : (d.hostOff x).sec = d.sec := by
  unfold Dev.hostOff; try dsimp only
  (repeat' split) <;> simp
@[simp] theorem Dev.hostOff_ports (x : BitVec 16) : (d.hostOff x).ports = d.ports := by
  unfold Dev.hostOff; try dsimp only
  (repeat' split) <;> simp
@[simp] theorem Dev.hostOff_routing (x : BitVec 16) : (d.hostOff x).routing = d.routing := by
  unfold Dev.hostOff; try dsimp only
  (repeat' split) <;> simp
@[simp] theorem Dev.hostOff_xbar (x : BitVec 16) : (d.hostOff x).xbar = d.xbar := by
  unfold Dev.hostOff; try dsimp only
  (repeat' split) <;> simp
@[simp] theorem Dev.hostOff_coll (x : BitVec 16) : (d.hostOff x).coll = d.coll := by
  unfold Dev.hostOff; try dsimp only
  (repeat' split) <;> simp
@[simp] theorem Dev.hostOff_time (x : BitVec 16) : (d.hostOff x).time = d.time := by
  unfold Dev.hostOff; try dsimp only
  (repeat' split) <;> simp
@[simp] theorem Dev.hostOff_evt (x : BitVec 16) : (d.hostOff x).evt = d.evt := by
  unfold Dev.hostOff; try dsimp only
  (repeat' split) <;> simp
@[simp] theorem Dev.hostOff_shuttle (x : BitVec 16) : (d.hostOff x).shuttle = d.shuttle := by
  unfold Dev.hostOff; try dsimp only
  (repeat' split) <;> simp
@[simp] theorem Dev.hostOff_dozeAborted (x : BitVec 16) : (d.hostOff x).dozeAborted = d.dozeAborted := by
  unfold Dev.hostOff; try dsimp only
  (repeat' split) <;> simp
@[simp] theorem Dev.hostOff_fixedBits (x : BitVec 16) : (d.hostOff x).fixedBits = d.fixedBits := by
  unfold Dev.hostOff; try dsimp only
  (repeat' split) <;> simp
@[simp] theorem Dev.hostOff_fixedPace (x : BitVec 16) : (d.hostOff x).fixedPace = d.fixedPace := by
  unfold Dev.hostOff; try dsimp only
  (repeat' split) <;> simp
@[simp] theorem Dev.hostOff_started (x : BitVec 16) : (d.hostOff x).started = d.started := by
  unfold Dev.hostOff; try dsimp only
  (repeat' split) <;> simp
@[simp] theorem Dev.hostOff_turns (x : BitVec 16) : (d.hostOff x).turns = d.turns := by
  unfold Dev.hostOff; try dsimp only
  (repeat' split) <;> simp
@[simp] theorem Dev.hostOff_capGen (x : BitVec 16) : (d.hostOff x).capGen = d.capGen := by
  unfold Dev.hostOff; try dsimp only
  (repeat' split) <;> simp
@[simp] theorem Dev.hostOff_capFinal (x : BitVec 16) : (d.hostOff x).capFinal = d.capFinal := by
  unfold Dev.hostOff; try dsimp only
  (repeat' split) <;> simp
@[simp] theorem Dev.hostOff_capTick (x : BitVec 16) : (d.hostOff x).capTick = d.capTick := by
  unfold Dev.hostOff; try dsimp only
  (repeat' split) <;> simp
@[simp] theorem Dev.hostOff_draws (x : BitVec 16) : (d.hostOff x).draws = d.draws := by
  unfold Dev.hostOff; try dsimp only
  (repeat' split) <;> simp

/-! ## failExchange -/

@[simp] theorem Dev.failExchange_now (r : Nat) (c : W32) (x : Nat) : (d.failExchange r c x).now = d.now := by
  unfold Dev.failExchange; try dsimp only
  (repeat' split) <;> simp
@[simp] theorem Dev.failExchange_skew (r : Nat) (c : W32) (x : Nat) : (d.failExchange r c x).skew = d.skew := by
  unfold Dev.failExchange; try dsimp only
  (repeat' split) <;> simp
@[simp] theorem Dev.failExchange_power (r : Nat) (c : W32) (x : Nat) : (d.failExchange r c x).power = d.power := by
  unfold Dev.failExchange; try dsimp only
  (repeat' split) <;> simp
@[simp] theorem Dev.failExchange_dies (r : Nat) (c : W32) (x : Nat) : (d.failExchange r c x).dies = d.dies := by
  unfold Dev.failExchange; try dsimp only
  (repeat' split) <;> simp
@[simp] theorem Dev.failExchange_cap (r : Nat) (c : W32) (x : Nat) : (d.failExchange r c x).cap = d.cap := by
  unfold Dev.failExchange; try dsimp only
  (repeat' split) <;> simp
@[simp] theorem Dev.failExchange_host (r : Nat) (c : W32) (x : Nat) : (d.failExchange r c x).host = d.host := by
  unfold Dev.failExchange; try dsimp only
  (repeat' split) <;> simp
@[simp] theorem Dev.failExchange_blocks (r : Nat) (c : W32) (x : Nat) : (d.failExchange r c x).blocks = d.blocks := by
  unfold Dev.failExchange; try dsimp only
  (repeat' split) <;> simp
@[simp] theorem Dev.failExchange_ringSel (r : Nat) (c : W32) (x : Nat) : (d.failExchange r c x).ringSel = d.ringSel := by
  unfold Dev.failExchange; try dsimp only
  (repeat' split) <;> simp
@[simp] theorem Dev.failExchange_epochClaim (r : Nat) (c : W32) (x : Nat) : (d.failExchange r c x).epochClaim = d.epochClaim := by
  unfold Dev.failExchange; try dsimp only
  (repeat' split) <;> simp
@[simp] theorem Dev.failExchange_epochSlot (r : Nat) (c : W32) (x : Nat) : (d.failExchange r c x).epochSlot = d.epochSlot := by
  unfold Dev.failExchange; try dsimp only
  (repeat' split) <;> simp
@[simp] theorem Dev.failExchange_tallies (r : Nat) (c : W32) (x : Nat) : (d.failExchange r c x).tallies = d.tallies := by
  unfold Dev.failExchange; try dsimp only
  (repeat' split) <;> simp
@[simp] theorem Dev.failExchange_frames (r : Nat) (c : W32) (x : Nat) : (d.failExchange r c x).frames = d.frames := by
  unfold Dev.failExchange; try dsimp only
  (repeat' split) <;> simp
@[simp] theorem Dev.failExchange_objects (r : Nat) (c : W32) (x : Nat) : (d.failExchange r c x).objects = d.objects := by
  unfold Dev.failExchange; try dsimp only
  (repeat' split) <;> simp
@[simp] theorem Dev.failExchange_hoist (r : Nat) (c : W32) (x : Nat) : (d.failExchange r c x).hoist = d.hoist := by
  unfold Dev.failExchange; try dsimp only
  (repeat' split) <;> simp
@[simp] theorem Dev.failExchange_health (r : Nat) (c : W32) (x : Nat) : (d.failExchange r c x).health = d.health := by
  unfold Dev.failExchange; try dsimp only
  (repeat' split) <;> simp
@[simp] theorem Dev.failExchange_store (r : Nat) (c : W32) (x : Nat) : (d.failExchange r c x).store = d.store := by
  unfold Dev.failExchange; try dsimp only
  (repeat' split) <;> simp
@[simp] theorem Dev.failExchange_mbx (r : Nat) (c : W32) (x : Nat) : (d.failExchange r c x).mbx = d.mbx := by
  unfold Dev.failExchange; try dsimp only
  (repeat' split) <;> simp
@[simp] theorem Dev.failExchange_sec (r : Nat) (c : W32) (x : Nat) : (d.failExchange r c x).sec = d.sec := by
  unfold Dev.failExchange; try dsimp only
  (repeat' split) <;> simp
@[simp] theorem Dev.failExchange_ports (r : Nat) (c : W32) (x : Nat) : (d.failExchange r c x).ports = d.ports := by
  unfold Dev.failExchange; try dsimp only
  (repeat' split) <;> simp
@[simp] theorem Dev.failExchange_routing (r : Nat) (c : W32) (x : Nat) : (d.failExchange r c x).routing = d.routing := by
  unfold Dev.failExchange; try dsimp only
  (repeat' split) <;> simp
@[simp] theorem Dev.failExchange_xbar (r : Nat) (c : W32) (x : Nat) : (d.failExchange r c x).xbar = d.xbar := by
  unfold Dev.failExchange; try dsimp only
  (repeat' split) <;> simp
@[simp] theorem Dev.failExchange_coll (r : Nat) (c : W32) (x : Nat) : (d.failExchange r c x).coll = d.coll := by
  unfold Dev.failExchange; try dsimp only
  (repeat' split) <;> simp
@[simp] theorem Dev.failExchange_time (r : Nat) (c : W32) (x : Nat) : (d.failExchange r c x).time = d.time := by
  unfold Dev.failExchange; try dsimp only
  (repeat' split) <;> simp
@[simp] theorem Dev.failExchange_evt (r : Nat) (c : W32) (x : Nat) : (d.failExchange r c x).evt = d.evt := by
  unfold Dev.failExchange; try dsimp only
  (repeat' split) <;> simp
@[simp] theorem Dev.failExchange_dozeAborted (r : Nat) (c : W32) (x : Nat) : (d.failExchange r c x).dozeAborted = d.dozeAborted := by
  unfold Dev.failExchange; try dsimp only
  (repeat' split) <;> simp
@[simp] theorem Dev.failExchange_fixedBits (r : Nat) (c : W32) (x : Nat) : (d.failExchange r c x).fixedBits = d.fixedBits := by
  unfold Dev.failExchange; try dsimp only
  (repeat' split) <;> simp
@[simp] theorem Dev.failExchange_fixedPace (r : Nat) (c : W32) (x : Nat) : (d.failExchange r c x).fixedPace = d.fixedPace := by
  unfold Dev.failExchange; try dsimp only
  (repeat' split) <;> simp
@[simp] theorem Dev.failExchange_started (r : Nat) (c : W32) (x : Nat) : (d.failExchange r c x).started = d.started := by
  unfold Dev.failExchange; try dsimp only
  (repeat' split) <;> simp
@[simp] theorem Dev.failExchange_turns (r : Nat) (c : W32) (x : Nat) : (d.failExchange r c x).turns = d.turns := by
  unfold Dev.failExchange; try dsimp only
  (repeat' split) <;> simp
@[simp] theorem Dev.failExchange_capGen (r : Nat) (c : W32) (x : Nat) : (d.failExchange r c x).capGen = d.capGen := by
  unfold Dev.failExchange; try dsimp only
  (repeat' split) <;> simp
@[simp] theorem Dev.failExchange_capFinal (r : Nat) (c : W32) (x : Nat) : (d.failExchange r c x).capFinal = d.capFinal := by
  unfold Dev.failExchange; try dsimp only
  (repeat' split) <;> simp
@[simp] theorem Dev.failExchange_capTick (r : Nat) (c : W32) (x : Nat) : (d.failExchange r c x).capTick = d.capTick := by
  unfold Dev.failExchange; try dsimp only
  (repeat' split) <;> simp
@[simp] theorem Dev.failExchange_draws (r : Nat) (c : W32) (x : Nat) : (d.failExchange r c x).draws = d.draws := by
  unfold Dev.failExchange; try dsimp only
  (repeat' split) <;> simp
@[simp] theorem Dev.failExchange_out (r : Nat) (c : W32) (x : Nat) : (d.failExchange r c x).out = d.out := by
  unfold Dev.failExchange; try dsimp only
  (repeat' split) <;> simp

/-! ## stopShuttle -/

@[simp] theorem Dev.stopShuttle_now  : d.stopShuttle.now = d.now := by
  unfold Dev.stopShuttle; dsimp only
  exact foldl_keep Dev.now _ (fun _ _ => by simp) _ _
@[simp] theorem Dev.stopShuttle_skew  : d.stopShuttle.skew = d.skew := by
  unfold Dev.stopShuttle; dsimp only
  exact foldl_keep Dev.skew _ (fun _ _ => by simp) _ _
@[simp] theorem Dev.stopShuttle_power  : d.stopShuttle.power = d.power := by
  unfold Dev.stopShuttle; dsimp only
  exact foldl_keep Dev.power _ (fun _ _ => by simp) _ _
@[simp] theorem Dev.stopShuttle_dies  : d.stopShuttle.dies = d.dies := by
  unfold Dev.stopShuttle; dsimp only
  exact foldl_keep Dev.dies _ (fun _ _ => by simp) _ _
@[simp] theorem Dev.stopShuttle_cap  : d.stopShuttle.cap = d.cap := by
  unfold Dev.stopShuttle; dsimp only
  exact foldl_keep Dev.cap _ (fun _ _ => by simp) _ _
@[simp] theorem Dev.stopShuttle_host  : d.stopShuttle.host = d.host := by
  unfold Dev.stopShuttle; dsimp only
  exact foldl_keep Dev.host _ (fun _ _ => by simp) _ _
@[simp] theorem Dev.stopShuttle_blocks  : d.stopShuttle.blocks = d.blocks := by
  unfold Dev.stopShuttle; dsimp only
  exact foldl_keep Dev.blocks _ (fun _ _ => by simp) _ _
@[simp] theorem Dev.stopShuttle_ringSel  : d.stopShuttle.ringSel = d.ringSel := by
  unfold Dev.stopShuttle; dsimp only
  exact foldl_keep Dev.ringSel _ (fun _ _ => by simp) _ _
@[simp] theorem Dev.stopShuttle_epochClaim  : d.stopShuttle.epochClaim = d.epochClaim := by
  unfold Dev.stopShuttle; dsimp only
  exact foldl_keep Dev.epochClaim _ (fun _ _ => by simp) _ _
@[simp] theorem Dev.stopShuttle_epochSlot  : d.stopShuttle.epochSlot = d.epochSlot := by
  unfold Dev.stopShuttle; dsimp only
  exact foldl_keep Dev.epochSlot _ (fun _ _ => by simp) _ _
@[simp] theorem Dev.stopShuttle_tallies  : d.stopShuttle.tallies = d.tallies := by
  unfold Dev.stopShuttle; dsimp only
  exact foldl_keep Dev.tallies _ (fun _ _ => by simp) _ _
@[simp] theorem Dev.stopShuttle_frames  : d.stopShuttle.frames = d.frames := by
  unfold Dev.stopShuttle; dsimp only
  exact foldl_keep Dev.frames _ (fun _ _ => by simp) _ _
@[simp] theorem Dev.stopShuttle_objects  : d.stopShuttle.objects = d.objects := by
  unfold Dev.stopShuttle; dsimp only
  exact foldl_keep Dev.objects _ (fun _ _ => by simp) _ _
@[simp] theorem Dev.stopShuttle_hoist  : d.stopShuttle.hoist = d.hoist := by
  unfold Dev.stopShuttle; dsimp only
  exact foldl_keep Dev.hoist _ (fun _ _ => by simp) _ _
@[simp] theorem Dev.stopShuttle_health  : d.stopShuttle.health = d.health := by
  unfold Dev.stopShuttle; dsimp only
  exact foldl_keep Dev.health _ (fun _ _ => by simp) _ _
@[simp] theorem Dev.stopShuttle_store  : d.stopShuttle.store = d.store := by
  unfold Dev.stopShuttle; dsimp only
  exact foldl_keep Dev.store _ (fun _ _ => by simp) _ _
@[simp] theorem Dev.stopShuttle_mbx  : d.stopShuttle.mbx = d.mbx := by
  unfold Dev.stopShuttle; dsimp only
  exact foldl_keep Dev.mbx _ (fun _ _ => by simp) _ _
@[simp] theorem Dev.stopShuttle_sec  : d.stopShuttle.sec = d.sec := by
  unfold Dev.stopShuttle; dsimp only
  exact foldl_keep Dev.sec _ (fun _ _ => by simp) _ _
@[simp] theorem Dev.stopShuttle_ports  : d.stopShuttle.ports = d.ports := by
  unfold Dev.stopShuttle; dsimp only
  exact foldl_keep Dev.ports _ (fun _ _ => by simp) _ _
@[simp] theorem Dev.stopShuttle_routing  : d.stopShuttle.routing = d.routing := by
  unfold Dev.stopShuttle; dsimp only
  exact foldl_keep Dev.routing _ (fun _ _ => by simp) _ _
@[simp] theorem Dev.stopShuttle_xbar  : d.stopShuttle.xbar = d.xbar := by
  unfold Dev.stopShuttle; dsimp only
  exact foldl_keep Dev.xbar _ (fun _ _ => by simp) _ _
@[simp] theorem Dev.stopShuttle_coll  : d.stopShuttle.coll = d.coll := by
  unfold Dev.stopShuttle; dsimp only
  exact foldl_keep Dev.coll _ (fun _ _ => by simp) _ _
@[simp] theorem Dev.stopShuttle_time  : d.stopShuttle.time = d.time := by
  unfold Dev.stopShuttle; dsimp only
  exact foldl_keep Dev.time _ (fun _ _ => by simp) _ _
@[simp] theorem Dev.stopShuttle_evt  : d.stopShuttle.evt = d.evt := by
  unfold Dev.stopShuttle; dsimp only
  exact foldl_keep Dev.evt _ (fun _ _ => by simp) _ _
@[simp] theorem Dev.stopShuttle_dozeAborted  : d.stopShuttle.dozeAborted = d.dozeAborted := by
  unfold Dev.stopShuttle; dsimp only
  exact foldl_keep Dev.dozeAborted _ (fun _ _ => by simp) _ _
@[simp] theorem Dev.stopShuttle_fixedBits  : d.stopShuttle.fixedBits = d.fixedBits := by
  unfold Dev.stopShuttle; dsimp only
  exact foldl_keep Dev.fixedBits _ (fun _ _ => by simp) _ _
@[simp] theorem Dev.stopShuttle_fixedPace  : d.stopShuttle.fixedPace = d.fixedPace := by
  unfold Dev.stopShuttle; dsimp only
  exact foldl_keep Dev.fixedPace _ (fun _ _ => by simp) _ _
@[simp] theorem Dev.stopShuttle_started  : d.stopShuttle.started = d.started := by
  unfold Dev.stopShuttle; dsimp only
  exact foldl_keep Dev.started _ (fun _ _ => by simp) _ _
@[simp] theorem Dev.stopShuttle_turns  : d.stopShuttle.turns = d.turns := by
  unfold Dev.stopShuttle; dsimp only
  exact foldl_keep Dev.turns _ (fun _ _ => by simp) _ _
@[simp] theorem Dev.stopShuttle_capGen  : d.stopShuttle.capGen = d.capGen := by
  unfold Dev.stopShuttle; dsimp only
  exact foldl_keep Dev.capGen _ (fun _ _ => by simp) _ _
@[simp] theorem Dev.stopShuttle_capFinal  : d.stopShuttle.capFinal = d.capFinal := by
  unfold Dev.stopShuttle; dsimp only
  exact foldl_keep Dev.capFinal _ (fun _ _ => by simp) _ _
@[simp] theorem Dev.stopShuttle_capTick  : d.stopShuttle.capTick = d.capTick := by
  unfold Dev.stopShuttle; dsimp only
  exact foldl_keep Dev.capTick _ (fun _ _ => by simp) _ _
@[simp] theorem Dev.stopShuttle_draws  : d.stopShuttle.draws = d.draws := by
  unfold Dev.stopShuttle; dsimp only
  exact foldl_keep Dev.draws _ (fun _ _ => by simp) _ _
@[simp] theorem Dev.stopShuttle_out  : d.stopShuttle.out = d.out := by
  unfold Dev.stopShuttle; dsimp only
  exact foldl_keep Dev.out _ (fun _ _ => by simp) _ _

/-! ## stopBlock -/

@[simp] theorem Dev.stopBlock_now (b : BlockId) (x : BitVec 16) : (d.stopBlock b x).now = d.now := by
  unfold Dev.stopBlock; split
  · cases b <;> simp
  · rfl
@[simp] theorem Dev.stopBlock_skew (b : BlockId) (x : BitVec 16) : (d.stopBlock b x).skew = d.skew := by
  unfold Dev.stopBlock; split
  · cases b <;> simp
  · rfl
@[simp] theorem Dev.stopBlock_power (b : BlockId) (x : BitVec 16) : (d.stopBlock b x).power = d.power := by
  unfold Dev.stopBlock; split
  · cases b <;> simp
  · rfl
@[simp] theorem Dev.stopBlock_dies (b : BlockId) (x : BitVec 16) : (d.stopBlock b x).dies = d.dies := by
  unfold Dev.stopBlock; split
  · cases b <;> simp
  · rfl
@[simp] theorem Dev.stopBlock_cap (b : BlockId) (x : BitVec 16) : (d.stopBlock b x).cap = d.cap := by
  unfold Dev.stopBlock; split
  · cases b <;> simp
  · rfl
@[simp] theorem Dev.stopBlock_ringSel (b : BlockId) (x : BitVec 16) : (d.stopBlock b x).ringSel = d.ringSel := by
  unfold Dev.stopBlock; split
  · cases b <;> simp
  · rfl
@[simp] theorem Dev.stopBlock_epochClaim (b : BlockId) (x : BitVec 16) : (d.stopBlock b x).epochClaim = d.epochClaim := by
  unfold Dev.stopBlock; split
  · cases b <;> simp
  · rfl
@[simp] theorem Dev.stopBlock_epochSlot (b : BlockId) (x : BitVec 16) : (d.stopBlock b x).epochSlot = d.epochSlot := by
  unfold Dev.stopBlock; split
  · cases b <;> simp
  · rfl
@[simp] theorem Dev.stopBlock_frames (b : BlockId) (x : BitVec 16) : (d.stopBlock b x).frames = d.frames := by
  unfold Dev.stopBlock; split
  · cases b <;> simp
  · rfl
@[simp] theorem Dev.stopBlock_objects (b : BlockId) (x : BitVec 16) : (d.stopBlock b x).objects = d.objects := by
  unfold Dev.stopBlock; split
  · cases b <;> simp
  · rfl
@[simp] theorem Dev.stopBlock_hoist (b : BlockId) (x : BitVec 16) : (d.stopBlock b x).hoist = d.hoist := by
  unfold Dev.stopBlock; split
  · cases b <;> simp
  · rfl
@[simp] theorem Dev.stopBlock_store (b : BlockId) (x : BitVec 16) : (d.stopBlock b x).store = d.store := by
  unfold Dev.stopBlock; split
  · cases b <;> simp
  · rfl
@[simp] theorem Dev.stopBlock_mbx (b : BlockId) (x : BitVec 16) : (d.stopBlock b x).mbx = d.mbx := by
  unfold Dev.stopBlock; split
  · cases b <;> simp
  · rfl
@[simp] theorem Dev.stopBlock_sec (b : BlockId) (x : BitVec 16) : (d.stopBlock b x).sec = d.sec := by
  unfold Dev.stopBlock; split
  · cases b <;> simp
  · rfl
@[simp] theorem Dev.stopBlock_ports (b : BlockId) (x : BitVec 16) : (d.stopBlock b x).ports = d.ports := by
  unfold Dev.stopBlock; split
  · cases b <;> simp
  · rfl
@[simp] theorem Dev.stopBlock_routing (b : BlockId) (x : BitVec 16) : (d.stopBlock b x).routing = d.routing := by
  unfold Dev.stopBlock; split
  · cases b <;> simp
  · rfl
@[simp] theorem Dev.stopBlock_xbar (b : BlockId) (x : BitVec 16) : (d.stopBlock b x).xbar = d.xbar := by
  unfold Dev.stopBlock; split
  · cases b <;> simp
  · rfl
@[simp] theorem Dev.stopBlock_coll (b : BlockId) (x : BitVec 16) : (d.stopBlock b x).coll = d.coll := by
  unfold Dev.stopBlock; split
  · cases b <;> simp
  · rfl
@[simp] theorem Dev.stopBlock_time (b : BlockId) (x : BitVec 16) : (d.stopBlock b x).time = d.time := by
  unfold Dev.stopBlock; split
  · cases b <;> simp
  · rfl
@[simp] theorem Dev.stopBlock_evt (b : BlockId) (x : BitVec 16) : (d.stopBlock b x).evt = d.evt := by
  unfold Dev.stopBlock; split
  · cases b <;> simp
  · rfl
@[simp] theorem Dev.stopBlock_dozeAborted (b : BlockId) (x : BitVec 16) : (d.stopBlock b x).dozeAborted = d.dozeAborted := by
  unfold Dev.stopBlock; split
  · cases b <;> simp
  · rfl
@[simp] theorem Dev.stopBlock_fixedBits (b : BlockId) (x : BitVec 16) : (d.stopBlock b x).fixedBits = d.fixedBits := by
  unfold Dev.stopBlock; split
  · cases b <;> simp
  · rfl
@[simp] theorem Dev.stopBlock_fixedPace (b : BlockId) (x : BitVec 16) : (d.stopBlock b x).fixedPace = d.fixedPace := by
  unfold Dev.stopBlock; split
  · cases b <;> simp
  · rfl
@[simp] theorem Dev.stopBlock_started (b : BlockId) (x : BitVec 16) : (d.stopBlock b x).started = d.started := by
  unfold Dev.stopBlock; split
  · cases b <;> simp
  · rfl
@[simp] theorem Dev.stopBlock_turns (b : BlockId) (x : BitVec 16) : (d.stopBlock b x).turns = d.turns := by
  unfold Dev.stopBlock; split
  · cases b <;> simp
  · rfl
@[simp] theorem Dev.stopBlock_capGen (b : BlockId) (x : BitVec 16) : (d.stopBlock b x).capGen = d.capGen := by
  unfold Dev.stopBlock; split
  · cases b <;> simp
  · rfl
@[simp] theorem Dev.stopBlock_capFinal (b : BlockId) (x : BitVec 16) : (d.stopBlock b x).capFinal = d.capFinal := by
  unfold Dev.stopBlock; split
  · cases b <;> simp
  · rfl
@[simp] theorem Dev.stopBlock_capTick (b : BlockId) (x : BitVec 16) : (d.stopBlock b x).capTick = d.capTick := by
  unfold Dev.stopBlock; split
  · cases b <;> simp
  · rfl
@[simp] theorem Dev.stopBlock_draws (b : BlockId) (x : BitVec 16) : (d.stopBlock b x).draws = d.draws := by
  unfold Dev.stopBlock; split
  · cases b <;> simp
  · rfl

/-! ## blockOff -/

@[simp] theorem Dev.blockOff_now (b : BlockId) : (d.blockOff b).now = d.now := by
  unfold Dev.blockOff; split
  · cases b <;> simp
  · rfl
@[simp] theorem Dev.blockOff_skew (b : BlockId) : (d.blockOff b).skew = d.skew := by
  unfold Dev.blockOff; split
  · cases b <;> simp
  · rfl
@[simp] theorem Dev.blockOff_cap (b : BlockId) : (d.blockOff b).cap = d.cap := by
  unfold Dev.blockOff; split
  · cases b <;> simp
  · rfl
@[simp] theorem Dev.blockOff_ringSel (b : BlockId) : (d.blockOff b).ringSel = d.ringSel := by
  unfold Dev.blockOff; split
  · cases b <;> simp
  · rfl
@[simp] theorem Dev.blockOff_epochClaim (b : BlockId) : (d.blockOff b).epochClaim = d.epochClaim := by
  unfold Dev.blockOff; split
  · cases b <;> simp
  · rfl
@[simp] theorem Dev.blockOff_epochSlot (b : BlockId) : (d.blockOff b).epochSlot = d.epochSlot := by
  unfold Dev.blockOff; split
  · cases b <;> simp
  · rfl
@[simp] theorem Dev.blockOff_hoist (b : BlockId) : (d.blockOff b).hoist = d.hoist := by
  unfold Dev.blockOff; split
  · cases b <;> simp
  · rfl
@[simp] theorem Dev.blockOff_store (b : BlockId) : (d.blockOff b).store = d.store := by
  unfold Dev.blockOff; split
  · cases b <;> simp
  · rfl
@[simp] theorem Dev.blockOff_mbx (b : BlockId) : (d.blockOff b).mbx = d.mbx := by
  unfold Dev.blockOff; split
  · cases b <;> simp
  · rfl
@[simp] theorem Dev.blockOff_sec (b : BlockId) : (d.blockOff b).sec = d.sec := by
  unfold Dev.blockOff; split
  · cases b <;> simp
  · rfl
@[simp] theorem Dev.blockOff_ports (b : BlockId) : (d.blockOff b).ports = d.ports := by
  unfold Dev.blockOff; split
  · cases b <;> simp
  · rfl
@[simp] theorem Dev.blockOff_routing (b : BlockId) : (d.blockOff b).routing = d.routing := by
  unfold Dev.blockOff; split
  · cases b <;> simp
  · rfl
@[simp] theorem Dev.blockOff_dozeAborted (b : BlockId) : (d.blockOff b).dozeAborted = d.dozeAborted := by
  unfold Dev.blockOff; split
  · cases b <;> simp
  · rfl
@[simp] theorem Dev.blockOff_fixedBits (b : BlockId) : (d.blockOff b).fixedBits = d.fixedBits := by
  unfold Dev.blockOff; split
  · cases b <;> simp
  · rfl
@[simp] theorem Dev.blockOff_fixedPace (b : BlockId) : (d.blockOff b).fixedPace = d.fixedPace := by
  unfold Dev.blockOff; split
  · cases b <;> simp
  · rfl
@[simp] theorem Dev.blockOff_started (b : BlockId) : (d.blockOff b).started = d.started := by
  unfold Dev.blockOff; split
  · cases b <;> simp
  · rfl
@[simp] theorem Dev.blockOff_turns (b : BlockId) : (d.blockOff b).turns = d.turns := by
  unfold Dev.blockOff; split
  · cases b <;> simp
  · rfl
@[simp] theorem Dev.blockOff_capFinal (b : BlockId) : (d.blockOff b).capFinal = d.capFinal := by
  unfold Dev.blockOff; split
  · cases b <;> simp
  · rfl
@[simp] theorem Dev.blockOff_draws (b : BlockId) : (d.blockOff b).draws = d.draws := by
  unfold Dev.blockOff; split
  · cases b <;> simp
  · rfl

/-! ## stopMain -/

@[simp] theorem Dev.stopMain_now (c : Nat) (a : Bool) : (d.stopMain c a).now = d.now := by
  unfold Dev.stopMain; dsimp only
  rw [foldl_keep Dev.now _ (fun _ _ => by (repeat' split) <;> simp) _ _]
  exact foldl_keep Dev.now _ (fun _ _ => by simp) _ _
@[simp] theorem Dev.stopMain_skew (c : Nat) (a : Bool) : (d.stopMain c a).skew = d.skew := by
  unfold Dev.stopMain; dsimp only
  rw [foldl_keep Dev.skew _ (fun _ _ => by (repeat' split) <;> simp) _ _]
  exact foldl_keep Dev.skew _ (fun _ _ => by simp) _ _
@[simp] theorem Dev.stopMain_power (c : Nat) (a : Bool) : (d.stopMain c a).power = d.power := by
  unfold Dev.stopMain; dsimp only
  rw [foldl_keep Dev.power _ (fun _ _ => by (repeat' split) <;> simp) _ _]
  exact foldl_keep Dev.power _ (fun _ _ => by simp) _ _
@[simp] theorem Dev.stopMain_dies (c : Nat) (a : Bool) : (d.stopMain c a).dies = d.dies := by
  unfold Dev.stopMain; dsimp only
  rw [foldl_keep Dev.dies _ (fun _ _ => by (repeat' split) <;> simp) _ _]
  exact foldl_keep Dev.dies _ (fun _ _ => by simp) _ _
@[simp] theorem Dev.stopMain_cap (c : Nat) (a : Bool) : (d.stopMain c a).cap = d.cap := by
  unfold Dev.stopMain; dsimp only
  rw [foldl_keep Dev.cap _ (fun _ _ => by (repeat' split) <;> simp) _ _]
  exact foldl_keep Dev.cap _ (fun _ _ => by simp) _ _
@[simp] theorem Dev.stopMain_ringSel (c : Nat) (a : Bool) : (d.stopMain c a).ringSel = d.ringSel := by
  unfold Dev.stopMain; dsimp only
  rw [foldl_keep Dev.ringSel _ (fun _ _ => by (repeat' split) <;> simp) _ _]
  exact foldl_keep Dev.ringSel _ (fun _ _ => by simp) _ _
@[simp] theorem Dev.stopMain_epochClaim (c : Nat) (a : Bool) : (d.stopMain c a).epochClaim = d.epochClaim := by
  unfold Dev.stopMain; dsimp only
  rw [foldl_keep Dev.epochClaim _ (fun _ _ => by (repeat' split) <;> simp) _ _]
  exact foldl_keep Dev.epochClaim _ (fun _ _ => by simp) _ _
@[simp] theorem Dev.stopMain_epochSlot (c : Nat) (a : Bool) : (d.stopMain c a).epochSlot = d.epochSlot := by
  unfold Dev.stopMain; dsimp only
  rw [foldl_keep Dev.epochSlot _ (fun _ _ => by (repeat' split) <;> simp) _ _]
  exact foldl_keep Dev.epochSlot _ (fun _ _ => by simp) _ _
@[simp] theorem Dev.stopMain_frames (c : Nat) (a : Bool) : (d.stopMain c a).frames = d.frames := by
  unfold Dev.stopMain; dsimp only
  rw [foldl_keep Dev.frames _ (fun _ _ => by (repeat' split) <;> simp) _ _]
  exact foldl_keep Dev.frames _ (fun _ _ => by simp) _ _
@[simp] theorem Dev.stopMain_objects (c : Nat) (a : Bool) : (d.stopMain c a).objects = d.objects := by
  unfold Dev.stopMain; dsimp only
  rw [foldl_keep Dev.objects _ (fun _ _ => by (repeat' split) <;> simp) _ _]
  exact foldl_keep Dev.objects _ (fun _ _ => by simp) _ _
@[simp] theorem Dev.stopMain_hoist (c : Nat) (a : Bool) : (d.stopMain c a).hoist = d.hoist := by
  unfold Dev.stopMain; dsimp only
  rw [foldl_keep Dev.hoist _ (fun _ _ => by (repeat' split) <;> simp) _ _]
  exact foldl_keep Dev.hoist _ (fun _ _ => by simp) _ _
@[simp] theorem Dev.stopMain_store (c : Nat) (a : Bool) : (d.stopMain c a).store = d.store := by
  unfold Dev.stopMain; dsimp only
  rw [foldl_keep Dev.store _ (fun _ _ => by (repeat' split) <;> simp) _ _]
  exact foldl_keep Dev.store _ (fun _ _ => by simp) _ _
@[simp] theorem Dev.stopMain_mbx (c : Nat) (a : Bool) : (d.stopMain c a).mbx = d.mbx := by
  unfold Dev.stopMain; dsimp only
  rw [foldl_keep Dev.mbx _ (fun _ _ => by (repeat' split) <;> simp) _ _]
  exact foldl_keep Dev.mbx _ (fun _ _ => by simp) _ _
@[simp] theorem Dev.stopMain_sec (c : Nat) (a : Bool) : (d.stopMain c a).sec = d.sec := by
  unfold Dev.stopMain; dsimp only
  rw [foldl_keep Dev.sec _ (fun _ _ => by (repeat' split) <;> simp) _ _]
  exact foldl_keep Dev.sec _ (fun _ _ => by simp) _ _
@[simp] theorem Dev.stopMain_ports (c : Nat) (a : Bool) : (d.stopMain c a).ports = d.ports := by
  unfold Dev.stopMain; dsimp only
  rw [foldl_keep Dev.ports _ (fun _ _ => by (repeat' split) <;> simp) _ _]
  exact foldl_keep Dev.ports _ (fun _ _ => by simp) _ _
@[simp] theorem Dev.stopMain_routing (c : Nat) (a : Bool) : (d.stopMain c a).routing = d.routing := by
  unfold Dev.stopMain; dsimp only
  rw [foldl_keep Dev.routing _ (fun _ _ => by (repeat' split) <;> simp) _ _]
  exact foldl_keep Dev.routing _ (fun _ _ => by simp) _ _
@[simp] theorem Dev.stopMain_xbar (c : Nat) (a : Bool) : (d.stopMain c a).xbar = d.xbar := by
  unfold Dev.stopMain; dsimp only
  rw [foldl_keep Dev.xbar _ (fun _ _ => by (repeat' split) <;> simp) _ _]
  exact foldl_keep Dev.xbar _ (fun _ _ => by simp) _ _
@[simp] theorem Dev.stopMain_coll (c : Nat) (a : Bool) : (d.stopMain c a).coll = d.coll := by
  unfold Dev.stopMain; dsimp only
  rw [foldl_keep Dev.coll _ (fun _ _ => by (repeat' split) <;> simp) _ _]
  exact foldl_keep Dev.coll _ (fun _ _ => by simp) _ _
@[simp] theorem Dev.stopMain_time (c : Nat) (a : Bool) : (d.stopMain c a).time = d.time := by
  unfold Dev.stopMain; dsimp only
  rw [foldl_keep Dev.time _ (fun _ _ => by (repeat' split) <;> simp) _ _]
  exact foldl_keep Dev.time _ (fun _ _ => by simp) _ _
@[simp] theorem Dev.stopMain_evt (c : Nat) (a : Bool) : (d.stopMain c a).evt = d.evt := by
  unfold Dev.stopMain; dsimp only
  rw [foldl_keep Dev.evt _ (fun _ _ => by (repeat' split) <;> simp) _ _]
  exact foldl_keep Dev.evt _ (fun _ _ => by simp) _ _
@[simp] theorem Dev.stopMain_dozeAborted (c : Nat) (a : Bool) : (d.stopMain c a).dozeAborted = d.dozeAborted := by
  unfold Dev.stopMain; dsimp only
  rw [foldl_keep Dev.dozeAborted _ (fun _ _ => by (repeat' split) <;> simp) _ _]
  exact foldl_keep Dev.dozeAborted _ (fun _ _ => by simp) _ _
@[simp] theorem Dev.stopMain_fixedBits (c : Nat) (a : Bool) : (d.stopMain c a).fixedBits = d.fixedBits := by
  unfold Dev.stopMain; dsimp only
  rw [foldl_keep Dev.fixedBits _ (fun _ _ => by (repeat' split) <;> simp) _ _]
  exact foldl_keep Dev.fixedBits _ (fun _ _ => by simp) _ _
@[simp] theorem Dev.stopMain_fixedPace (c : Nat) (a : Bool) : (d.stopMain c a).fixedPace = d.fixedPace := by
  unfold Dev.stopMain; dsimp only
  rw [foldl_keep Dev.fixedPace _ (fun _ _ => by (repeat' split) <;> simp) _ _]
  exact foldl_keep Dev.fixedPace _ (fun _ _ => by simp) _ _
@[simp] theorem Dev.stopMain_started (c : Nat) (a : Bool) : (d.stopMain c a).started = d.started := by
  unfold Dev.stopMain; dsimp only
  rw [foldl_keep Dev.started _ (fun _ _ => by (repeat' split) <;> simp) _ _]
  exact foldl_keep Dev.started _ (fun _ _ => by simp) _ _
@[simp] theorem Dev.stopMain_turns (c : Nat) (a : Bool) : (d.stopMain c a).turns = d.turns := by
  unfold Dev.stopMain; dsimp only
  rw [foldl_keep Dev.turns _ (fun _ _ => by (repeat' split) <;> simp) _ _]
  exact foldl_keep Dev.turns _ (fun _ _ => by simp) _ _
@[simp] theorem Dev.stopMain_capGen (c : Nat) (a : Bool) : (d.stopMain c a).capGen = d.capGen := by
  unfold Dev.stopMain; dsimp only
  rw [foldl_keep Dev.capGen _ (fun _ _ => by (repeat' split) <;> simp) _ _]
  exact foldl_keep Dev.capGen _ (fun _ _ => by simp) _ _
@[simp] theorem Dev.stopMain_capFinal (c : Nat) (a : Bool) : (d.stopMain c a).capFinal = d.capFinal := by
  unfold Dev.stopMain; dsimp only
  rw [foldl_keep Dev.capFinal _ (fun _ _ => by (repeat' split) <;> simp) _ _]
  exact foldl_keep Dev.capFinal _ (fun _ _ => by simp) _ _
@[simp] theorem Dev.stopMain_capTick (c : Nat) (a : Bool) : (d.stopMain c a).capTick = d.capTick := by
  unfold Dev.stopMain; dsimp only
  rw [foldl_keep Dev.capTick _ (fun _ _ => by (repeat' split) <;> simp) _ _]
  exact foldl_keep Dev.capTick _ (fun _ _ => by simp) _ _
@[simp] theorem Dev.stopMain_draws (c : Nat) (a : Bool) : (d.stopMain c a).draws = d.draws := by
  unfold Dev.stopMain; dsimp only
  rw [foldl_keep Dev.draws _ (fun _ _ => by (repeat' split) <;> simp) _ _]
  exact foldl_keep Dev.draws _ (fun _ _ => by simp) _ _

/-! ## abortOps -/

@[simp] theorem Dev.abortOps_now  : d.abortOps.now = d.now := by
  unfold Dev.abortOps; dsimp only
  refine (foldl_keep Dev.now _ (fun a r => foldl_keep Dev.now _ (fun a c => ?_) _ _) _ _).trans rfl
  split
  · rfl
  · split
    · exact (Dev.settle_now _ _ _ _ _ _).trans ((Dev.headerSignal_now _ _ _ _).trans (by split <;> simp))
    · rfl
@[simp] theorem Dev.abortOps_skew  : d.abortOps.skew = d.skew := by
  unfold Dev.abortOps; dsimp only
  refine (foldl_keep Dev.skew _ (fun a r => foldl_keep Dev.skew _ (fun a c => ?_) _ _) _ _).trans rfl
  split
  · rfl
  · split
    · exact (Dev.settle_skew _ _ _ _ _ _).trans ((Dev.headerSignal_skew _ _ _ _).trans (by split <;> simp))
    · rfl
@[simp] theorem Dev.abortOps_power  : d.abortOps.power = d.power := by
  unfold Dev.abortOps; dsimp only
  refine (foldl_keep Dev.power _ (fun a r => foldl_keep Dev.power _ (fun a c => ?_) _ _) _ _).trans rfl
  split
  · rfl
  · split
    · exact (Dev.settle_power _ _ _ _ _ _).trans ((Dev.headerSignal_power _ _ _ _).trans (by split <;> simp))
    · rfl
@[simp] theorem Dev.abortOps_dies  : d.abortOps.dies = d.dies := by
  unfold Dev.abortOps; dsimp only
  refine (foldl_keep Dev.dies _ (fun a r => foldl_keep Dev.dies _ (fun a c => ?_) _ _) _ _).trans rfl
  split
  · rfl
  · split
    · exact (Dev.settle_dies _ _ _ _ _ _).trans ((Dev.headerSignal_dies _ _ _ _).trans (by split <;> simp))
    · rfl
@[simp] theorem Dev.abortOps_cap  : d.abortOps.cap = d.cap := by
  unfold Dev.abortOps; dsimp only
  refine (foldl_keep Dev.cap _ (fun a r => foldl_keep Dev.cap _ (fun a c => ?_) _ _) _ _).trans rfl
  split
  · rfl
  · split
    · exact (Dev.settle_cap _ _ _ _ _ _).trans ((Dev.headerSignal_cap _ _ _ _).trans (by split <;> simp))
    · rfl
@[simp] theorem Dev.abortOps_host  : d.abortOps.host = d.host := by
  unfold Dev.abortOps; dsimp only
  refine (foldl_keep Dev.host _ (fun a r => foldl_keep Dev.host _ (fun a c => ?_) _ _) _ _).trans rfl
  split
  · rfl
  · split
    · exact (Dev.settle_host _ _ _ _ _ _).trans ((Dev.headerSignal_host _ _ _ _).trans (by split <;> simp))
    · rfl
@[simp] theorem Dev.abortOps_blocks  : d.abortOps.blocks = d.blocks := by
  unfold Dev.abortOps; dsimp only
  refine (foldl_keep Dev.blocks _ (fun a r => foldl_keep Dev.blocks _ (fun a c => ?_) _ _) _ _).trans rfl
  split
  · rfl
  · split
    · exact (Dev.settle_blocks _ _ _ _ _ _).trans ((Dev.headerSignal_blocks _ _ _ _).trans (by split <;> simp))
    · rfl
@[simp] theorem Dev.abortOps_ringSel  : d.abortOps.ringSel = d.ringSel := by
  unfold Dev.abortOps; dsimp only
  refine (foldl_keep Dev.ringSel _ (fun a r => foldl_keep Dev.ringSel _ (fun a c => ?_) _ _) _ _).trans rfl
  split
  · rfl
  · split
    · exact (Dev.settle_ringSel _ _ _ _ _ _).trans ((Dev.headerSignal_ringSel _ _ _ _).trans (by split <;> simp))
    · rfl
@[simp] theorem Dev.abortOps_epochClaim  : d.abortOps.epochClaim = d.epochClaim := by
  unfold Dev.abortOps; dsimp only
  refine (foldl_keep Dev.epochClaim _ (fun a r => foldl_keep Dev.epochClaim _ (fun a c => ?_) _ _) _ _).trans rfl
  split
  · rfl
  · split
    · exact (Dev.settle_epochClaim _ _ _ _ _ _).trans ((Dev.headerSignal_epochClaim _ _ _ _).trans (by split <;> simp))
    · rfl
@[simp] theorem Dev.abortOps_epochSlot  : d.abortOps.epochSlot = d.epochSlot := by
  unfold Dev.abortOps; dsimp only
  refine (foldl_keep Dev.epochSlot _ (fun a r => foldl_keep Dev.epochSlot _ (fun a c => ?_) _ _) _ _).trans rfl
  split
  · rfl
  · split
    · exact (Dev.settle_epochSlot _ _ _ _ _ _).trans ((Dev.headerSignal_epochSlot _ _ _ _).trans (by split <;> simp))
    · rfl
@[simp] theorem Dev.abortOps_frames  : d.abortOps.frames = d.frames := by
  unfold Dev.abortOps; dsimp only
  refine (foldl_keep Dev.frames _ (fun a r => foldl_keep Dev.frames _ (fun a c => ?_) _ _) _ _).trans rfl
  split
  · rfl
  · split
    · exact (Dev.settle_frames _ _ _ _ _ _).trans ((Dev.headerSignal_frames _ _ _ _).trans (by split <;> simp))
    · rfl
@[simp] theorem Dev.abortOps_hoist  : d.abortOps.hoist = d.hoist := by
  unfold Dev.abortOps; dsimp only
  refine (foldl_keep Dev.hoist _ (fun a r => foldl_keep Dev.hoist _ (fun a c => ?_) _ _) _ _).trans rfl
  split
  · rfl
  · split
    · exact (Dev.settle_hoist _ _ _ _ _ _).trans ((Dev.headerSignal_hoist _ _ _ _).trans (by split <;> simp))
    · rfl
@[simp] theorem Dev.abortOps_health  : d.abortOps.health = d.health := by
  unfold Dev.abortOps; dsimp only
  refine (foldl_keep Dev.health _ (fun a r => foldl_keep Dev.health _ (fun a c => ?_) _ _) _ _).trans rfl
  split
  · rfl
  · split
    · exact (Dev.settle_health _ _ _ _ _ _).trans ((Dev.headerSignal_health _ _ _ _).trans (by split <;> simp))
    · rfl
@[simp] theorem Dev.abortOps_store  : d.abortOps.store = d.store := by
  unfold Dev.abortOps; dsimp only
  refine (foldl_keep Dev.store _ (fun a r => foldl_keep Dev.store _ (fun a c => ?_) _ _) _ _).trans rfl
  split
  · rfl
  · split
    · exact (Dev.settle_store _ _ _ _ _ _).trans ((Dev.headerSignal_store _ _ _ _).trans (by split <;> simp))
    · rfl
@[simp] theorem Dev.abortOps_mbx  : d.abortOps.mbx = d.mbx := by
  unfold Dev.abortOps; dsimp only
  refine (foldl_keep Dev.mbx _ (fun a r => foldl_keep Dev.mbx _ (fun a c => ?_) _ _) _ _).trans rfl
  split
  · rfl
  · split
    · exact (Dev.settle_mbx _ _ _ _ _ _).trans ((Dev.headerSignal_mbx _ _ _ _).trans (by split <;> simp))
    · rfl
@[simp] theorem Dev.abortOps_sec  : d.abortOps.sec = d.sec := by
  unfold Dev.abortOps; dsimp only
  refine (foldl_keep Dev.sec _ (fun a r => foldl_keep Dev.sec _ (fun a c => ?_) _ _) _ _).trans rfl
  split
  · rfl
  · split
    · exact (Dev.settle_sec _ _ _ _ _ _).trans ((Dev.headerSignal_sec _ _ _ _).trans (by split <;> simp))
    · rfl
@[simp] theorem Dev.abortOps_ports  : d.abortOps.ports = d.ports := by
  unfold Dev.abortOps; dsimp only
  refine (foldl_keep Dev.ports _ (fun a r => foldl_keep Dev.ports _ (fun a c => ?_) _ _) _ _).trans rfl
  split
  · rfl
  · split
    · exact (Dev.settle_ports _ _ _ _ _ _).trans ((Dev.headerSignal_ports _ _ _ _).trans (by split <;> simp))
    · rfl
@[simp] theorem Dev.abortOps_routing  : d.abortOps.routing = d.routing := by
  unfold Dev.abortOps; dsimp only
  refine (foldl_keep Dev.routing _ (fun a r => foldl_keep Dev.routing _ (fun a c => ?_) _ _) _ _).trans rfl
  split
  · rfl
  · split
    · exact (Dev.settle_routing _ _ _ _ _ _).trans ((Dev.headerSignal_routing _ _ _ _).trans (by split <;> simp))
    · rfl
@[simp] theorem Dev.abortOps_xbar  : d.abortOps.xbar = d.xbar := by
  unfold Dev.abortOps; dsimp only
  refine (foldl_keep Dev.xbar _ (fun a r => foldl_keep Dev.xbar _ (fun a c => ?_) _ _) _ _).trans rfl
  split
  · rfl
  · split
    · exact (Dev.settle_xbar _ _ _ _ _ _).trans ((Dev.headerSignal_xbar _ _ _ _).trans (by split <;> simp))
    · rfl
@[simp] theorem Dev.abortOps_coll  : d.abortOps.coll = d.coll := by
  unfold Dev.abortOps; dsimp only
  refine (foldl_keep Dev.coll _ (fun a r => foldl_keep Dev.coll _ (fun a c => ?_) _ _) _ _).trans rfl
  split
  · rfl
  · split
    · exact (Dev.settle_coll _ _ _ _ _ _).trans ((Dev.headerSignal_coll _ _ _ _).trans (by split <;> simp))
    · rfl
@[simp] theorem Dev.abortOps_time  : d.abortOps.time = d.time := by
  unfold Dev.abortOps; dsimp only
  refine (foldl_keep Dev.time _ (fun a r => foldl_keep Dev.time _ (fun a c => ?_) _ _) _ _).trans rfl
  split
  · rfl
  · split
    · exact (Dev.settle_time _ _ _ _ _ _).trans ((Dev.headerSignal_time _ _ _ _).trans (by split <;> simp))
    · rfl
@[simp] theorem Dev.abortOps_evt  : d.abortOps.evt = d.evt := by
  unfold Dev.abortOps; dsimp only
  refine (foldl_keep Dev.evt _ (fun a r => foldl_keep Dev.evt _ (fun a c => ?_) _ _) _ _).trans rfl
  split
  · rfl
  · split
    · exact (Dev.settle_evt _ _ _ _ _ _).trans ((Dev.headerSignal_evt _ _ _ _).trans (by split <;> simp))
    · rfl
@[simp] theorem Dev.abortOps_shuttle  : d.abortOps.shuttle = d.shuttle := by
  unfold Dev.abortOps; dsimp only
  refine (foldl_keep Dev.shuttle _ (fun a r => foldl_keep Dev.shuttle _ (fun a c => ?_) _ _) _ _).trans rfl
  split
  · rfl
  · split
    · exact (Dev.settle_shuttle _ _ _ _ _ _).trans ((Dev.headerSignal_shuttle _ _ _ _).trans (by split <;> simp))
    · rfl
@[simp] theorem Dev.abortOps_dozeAborted  : d.abortOps.dozeAborted = d.dozeAborted := by
  unfold Dev.abortOps; dsimp only
  refine (foldl_keep Dev.dozeAborted _ (fun a r => foldl_keep Dev.dozeAborted _ (fun a c => ?_) _ _) _ _).trans rfl
  split
  · rfl
  · split
    · exact (Dev.settle_dozeAborted _ _ _ _ _ _).trans ((Dev.headerSignal_dozeAborted _ _ _ _).trans (by split <;> simp))
    · rfl
@[simp] theorem Dev.abortOps_fixedBits  : d.abortOps.fixedBits = d.fixedBits := by
  unfold Dev.abortOps; dsimp only
  refine (foldl_keep Dev.fixedBits _ (fun a r => foldl_keep Dev.fixedBits _ (fun a c => ?_) _ _) _ _).trans rfl
  split
  · rfl
  · split
    · exact (Dev.settle_fixedBits _ _ _ _ _ _).trans ((Dev.headerSignal_fixedBits _ _ _ _).trans (by split <;> simp))
    · rfl
@[simp] theorem Dev.abortOps_fixedPace  : d.abortOps.fixedPace = d.fixedPace := by
  unfold Dev.abortOps; dsimp only
  refine (foldl_keep Dev.fixedPace _ (fun a r => foldl_keep Dev.fixedPace _ (fun a c => ?_) _ _) _ _).trans rfl
  split
  · rfl
  · split
    · exact (Dev.settle_fixedPace _ _ _ _ _ _).trans ((Dev.headerSignal_fixedPace _ _ _ _).trans (by split <;> simp))
    · rfl
@[simp] theorem Dev.abortOps_started  : d.abortOps.started = d.started := by
  unfold Dev.abortOps; dsimp only
  refine (foldl_keep Dev.started _ (fun a r => foldl_keep Dev.started _ (fun a c => ?_) _ _) _ _).trans rfl
  split
  · rfl
  · split
    · exact (Dev.settle_started _ _ _ _ _ _).trans ((Dev.headerSignal_started _ _ _ _).trans (by split <;> simp))
    · rfl
@[simp] theorem Dev.abortOps_turns  : d.abortOps.turns = d.turns := by
  unfold Dev.abortOps; dsimp only
  refine (foldl_keep Dev.turns _ (fun a r => foldl_keep Dev.turns _ (fun a c => ?_) _ _) _ _).trans rfl
  split
  · rfl
  · split
    · exact (Dev.settle_turns _ _ _ _ _ _).trans ((Dev.headerSignal_turns _ _ _ _).trans (by split <;> simp))
    · rfl
@[simp] theorem Dev.abortOps_capGen  : d.abortOps.capGen = d.capGen := by
  unfold Dev.abortOps; dsimp only
  refine (foldl_keep Dev.capGen _ (fun a r => foldl_keep Dev.capGen _ (fun a c => ?_) _ _) _ _).trans rfl
  split
  · rfl
  · split
    · exact (Dev.settle_capGen _ _ _ _ _ _).trans ((Dev.headerSignal_capGen _ _ _ _).trans (by split <;> simp))
    · rfl
@[simp] theorem Dev.abortOps_capFinal  : d.abortOps.capFinal = d.capFinal := by
  unfold Dev.abortOps; dsimp only
  refine (foldl_keep Dev.capFinal _ (fun a r => foldl_keep Dev.capFinal _ (fun a c => ?_) _ _) _ _).trans rfl
  split
  · rfl
  · split
    · exact (Dev.settle_capFinal _ _ _ _ _ _).trans ((Dev.headerSignal_capFinal _ _ _ _).trans (by split <;> simp))
    · rfl
@[simp] theorem Dev.abortOps_capTick  : d.abortOps.capTick = d.capTick := by
  unfold Dev.abortOps; dsimp only
  refine (foldl_keep Dev.capTick _ (fun a r => foldl_keep Dev.capTick _ (fun a c => ?_) _ _) _ _).trans rfl
  split
  · rfl
  · split
    · exact (Dev.settle_capTick _ _ _ _ _ _).trans ((Dev.headerSignal_capTick _ _ _ _).trans (by split <;> simp))
    · rfl
@[simp] theorem Dev.abortOps_draws  : d.abortOps.draws = d.draws := by
  unfold Dev.abortOps; dsimp only
  refine (foldl_keep Dev.draws _ (fun a r => foldl_keep Dev.draws _ (fun a c => ?_) _ _) _ _).trans rfl
  split
  · rfl
  · split
    · exact (Dev.settle_draws _ _ _ _ _ _).trans ((Dev.headerSignal_draws _ _ _ _).trans (by split <;> simp))
    · rfl
@[simp] theorem Dev.abortOps_out  : d.abortOps.out = d.out := by
  unfold Dev.abortOps; dsimp only
  refine (foldl_keep Dev.out _ (fun a r => foldl_keep Dev.out _ (fun a c => ?_) _ _) _ _).trans rfl
  split
  · rfl
  · split
    · exact (Dev.settle_out _ _ _ _ _ _).trans ((Dev.headerSignal_out _ _ _ _).trans (by split <;> simp))
    · rfl

/-! ## postEverything -/

@[simp] theorem Dev.postEverything_now  : d.postEverything.now = d.now := by
  unfold Dev.postEverything
  exact foldl_keep Dev.now _ (fun _ _ => by simp) _ _
@[simp] theorem Dev.postEverything_skew  : d.postEverything.skew = d.skew := by
  unfold Dev.postEverything
  exact foldl_keep Dev.skew _ (fun _ _ => by simp) _ _
@[simp] theorem Dev.postEverything_power  : d.postEverything.power = d.power := by
  unfold Dev.postEverything
  exact foldl_keep Dev.power _ (fun _ _ => by simp) _ _
@[simp] theorem Dev.postEverything_dies  : d.postEverything.dies = d.dies := by
  unfold Dev.postEverything
  exact foldl_keep Dev.dies _ (fun _ _ => by simp) _ _
@[simp] theorem Dev.postEverything_cap  : d.postEverything.cap = d.cap := by
  unfold Dev.postEverything
  exact foldl_keep Dev.cap _ (fun _ _ => by simp) _ _
@[simp] theorem Dev.postEverything_ringSel  : d.postEverything.ringSel = d.ringSel := by
  unfold Dev.postEverything
  exact foldl_keep Dev.ringSel _ (fun _ _ => by simp) _ _
@[simp] theorem Dev.postEverything_epochClaim  : d.postEverything.epochClaim = d.epochClaim := by
  unfold Dev.postEverything
  exact foldl_keep Dev.epochClaim _ (fun _ _ => by simp) _ _
@[simp] theorem Dev.postEverything_epochSlot  : d.postEverything.epochSlot = d.epochSlot := by
  unfold Dev.postEverything
  exact foldl_keep Dev.epochSlot _ (fun _ _ => by simp) _ _
@[simp] theorem Dev.postEverything_claims  : d.postEverything.claims = d.claims := by
  unfold Dev.postEverything
  exact foldl_keep Dev.claims _ (fun _ _ => by simp) _ _
@[simp] theorem Dev.postEverything_frames  : d.postEverything.frames = d.frames := by
  unfold Dev.postEverything
  exact foldl_keep Dev.frames _ (fun _ _ => by simp) _ _
@[simp] theorem Dev.postEverything_objects  : d.postEverything.objects = d.objects := by
  unfold Dev.postEverything
  exact foldl_keep Dev.objects _ (fun _ _ => by simp) _ _
@[simp] theorem Dev.postEverything_hoist  : d.postEverything.hoist = d.hoist := by
  unfold Dev.postEverything
  exact foldl_keep Dev.hoist _ (fun _ _ => by simp) _ _
@[simp] theorem Dev.postEverything_store  : d.postEverything.store = d.store := by
  unfold Dev.postEverything
  exact foldl_keep Dev.store _ (fun _ _ => by simp) _ _
@[simp] theorem Dev.postEverything_mbx  : d.postEverything.mbx = d.mbx := by
  unfold Dev.postEverything
  exact foldl_keep Dev.mbx _ (fun _ _ => by simp) _ _
@[simp] theorem Dev.postEverything_sec  : d.postEverything.sec = d.sec := by
  unfold Dev.postEverything
  exact foldl_keep Dev.sec _ (fun _ _ => by simp) _ _
@[simp] theorem Dev.postEverything_ports  : d.postEverything.ports = d.ports := by
  unfold Dev.postEverything
  exact foldl_keep Dev.ports _ (fun _ _ => by simp) _ _
@[simp] theorem Dev.postEverything_routing  : d.postEverything.routing = d.routing := by
  unfold Dev.postEverything
  exact foldl_keep Dev.routing _ (fun _ _ => by simp) _ _
@[simp] theorem Dev.postEverything_xbar  : d.postEverything.xbar = d.xbar := by
  unfold Dev.postEverything
  exact foldl_keep Dev.xbar _ (fun _ _ => by simp) _ _
@[simp] theorem Dev.postEverything_coll  : d.postEverything.coll = d.coll := by
  unfold Dev.postEverything
  exact foldl_keep Dev.coll _ (fun _ _ => by simp) _ _
@[simp] theorem Dev.postEverything_time  : d.postEverything.time = d.time := by
  unfold Dev.postEverything
  exact foldl_keep Dev.time _ (fun _ _ => by simp) _ _
@[simp] theorem Dev.postEverything_evt  : d.postEverything.evt = d.evt := by
  unfold Dev.postEverything
  exact foldl_keep Dev.evt _ (fun _ _ => by simp) _ _
@[simp] theorem Dev.postEverything_shuttle  : d.postEverything.shuttle = d.shuttle := by
  unfold Dev.postEverything
  exact foldl_keep Dev.shuttle _ (fun _ _ => by simp) _ _
@[simp] theorem Dev.postEverything_dozeAborted  : d.postEverything.dozeAborted = d.dozeAborted := by
  unfold Dev.postEverything
  exact foldl_keep Dev.dozeAborted _ (fun _ _ => by simp) _ _
@[simp] theorem Dev.postEverything_fixedBits  : d.postEverything.fixedBits = d.fixedBits := by
  unfold Dev.postEverything
  exact foldl_keep Dev.fixedBits _ (fun _ _ => by simp) _ _
@[simp] theorem Dev.postEverything_fixedPace  : d.postEverything.fixedPace = d.fixedPace := by
  unfold Dev.postEverything
  exact foldl_keep Dev.fixedPace _ (fun _ _ => by simp) _ _
@[simp] theorem Dev.postEverything_started  : d.postEverything.started = d.started := by
  unfold Dev.postEverything
  exact foldl_keep Dev.started _ (fun _ _ => by simp) _ _
@[simp] theorem Dev.postEverything_turns  : d.postEverything.turns = d.turns := by
  unfold Dev.postEverything
  exact foldl_keep Dev.turns _ (fun _ _ => by simp) _ _
@[simp] theorem Dev.postEverything_capGen  : d.postEverything.capGen = d.capGen := by
  unfold Dev.postEverything
  exact foldl_keep Dev.capGen _ (fun _ _ => by simp) _ _
@[simp] theorem Dev.postEverything_capFinal  : d.postEverything.capFinal = d.capFinal := by
  unfold Dev.postEverything
  exact foldl_keep Dev.capFinal _ (fun _ _ => by simp) _ _
@[simp] theorem Dev.postEverything_capTick  : d.postEverything.capTick = d.capTick := by
  unfold Dev.postEverything
  exact foldl_keep Dev.capTick _ (fun _ _ => by simp) _ _
@[simp] theorem Dev.postEverything_draws  : d.postEverything.draws = d.draws := by
  unfold Dev.postEverything
  exact foldl_keep Dev.draws _ (fun _ _ => by simp) _ _

/-! ## flushMsix -/

@[simp] theorem Dev.flushMsix_now  : d.flushMsix.now = d.now := by
  unfold Dev.flushMsix; try dsimp only
  (repeat' split) <;> simp
@[simp] theorem Dev.flushMsix_skew  : d.flushMsix.skew = d.skew := by
  unfold Dev.flushMsix; try dsimp only
  (repeat' split) <;> simp
@[simp] theorem Dev.flushMsix_power  : d.flushMsix.power = d.power := by
  unfold Dev.flushMsix; try dsimp only
  (repeat' split) <;> simp
@[simp] theorem Dev.flushMsix_dies  : d.flushMsix.dies = d.dies := by
  unfold Dev.flushMsix; try dsimp only
  (repeat' split) <;> simp
@[simp] theorem Dev.flushMsix_cap  : d.flushMsix.cap = d.cap := by
  unfold Dev.flushMsix; try dsimp only
  (repeat' split) <;> simp
@[simp] theorem Dev.flushMsix_blocks  : d.flushMsix.blocks = d.blocks := by
  unfold Dev.flushMsix; try dsimp only
  (repeat' split) <;> simp
@[simp] theorem Dev.flushMsix_ringSel  : d.flushMsix.ringSel = d.ringSel := by
  unfold Dev.flushMsix; try dsimp only
  (repeat' split) <;> simp
@[simp] theorem Dev.flushMsix_epochClaim  : d.flushMsix.epochClaim = d.epochClaim := by
  unfold Dev.flushMsix; try dsimp only
  (repeat' split) <;> simp
@[simp] theorem Dev.flushMsix_epochSlot  : d.flushMsix.epochSlot = d.epochSlot := by
  unfold Dev.flushMsix; try dsimp only
  (repeat' split) <;> simp
@[simp] theorem Dev.flushMsix_rings  : d.flushMsix.rings = d.rings := by
  unfold Dev.flushMsix; try dsimp only
  (repeat' split) <;> simp
@[simp] theorem Dev.flushMsix_tallies  : d.flushMsix.tallies = d.tallies := by
  unfold Dev.flushMsix; try dsimp only
  (repeat' split) <;> simp
@[simp] theorem Dev.flushMsix_claims  : d.flushMsix.claims = d.claims := by
  unfold Dev.flushMsix; try dsimp only
  (repeat' split) <;> simp
@[simp] theorem Dev.flushMsix_frames  : d.flushMsix.frames = d.frames := by
  unfold Dev.flushMsix; try dsimp only
  (repeat' split) <;> simp
@[simp] theorem Dev.flushMsix_objects  : d.flushMsix.objects = d.objects := by
  unfold Dev.flushMsix; try dsimp only
  (repeat' split) <;> simp
@[simp] theorem Dev.flushMsix_hoist  : d.flushMsix.hoist = d.hoist := by
  unfold Dev.flushMsix; try dsimp only
  (repeat' split) <;> simp
@[simp] theorem Dev.flushMsix_health  : d.flushMsix.health = d.health := by
  unfold Dev.flushMsix; try dsimp only
  (repeat' split) <;> simp
@[simp] theorem Dev.flushMsix_store  : d.flushMsix.store = d.store := by
  unfold Dev.flushMsix; try dsimp only
  (repeat' split) <;> simp
@[simp] theorem Dev.flushMsix_mbx  : d.flushMsix.mbx = d.mbx := by
  unfold Dev.flushMsix; try dsimp only
  (repeat' split) <;> simp
@[simp] theorem Dev.flushMsix_sec  : d.flushMsix.sec = d.sec := by
  unfold Dev.flushMsix; try dsimp only
  (repeat' split) <;> simp
@[simp] theorem Dev.flushMsix_ports  : d.flushMsix.ports = d.ports := by
  unfold Dev.flushMsix; try dsimp only
  (repeat' split) <;> simp
@[simp] theorem Dev.flushMsix_routing  : d.flushMsix.routing = d.routing := by
  unfold Dev.flushMsix; try dsimp only
  (repeat' split) <;> simp
@[simp] theorem Dev.flushMsix_xbar  : d.flushMsix.xbar = d.xbar := by
  unfold Dev.flushMsix; try dsimp only
  (repeat' split) <;> simp
@[simp] theorem Dev.flushMsix_coll  : d.flushMsix.coll = d.coll := by
  unfold Dev.flushMsix; try dsimp only
  (repeat' split) <;> simp
@[simp] theorem Dev.flushMsix_time  : d.flushMsix.time = d.time := by
  unfold Dev.flushMsix; try dsimp only
  (repeat' split) <;> simp
@[simp] theorem Dev.flushMsix_evt  : d.flushMsix.evt = d.evt := by
  unfold Dev.flushMsix; try dsimp only
  (repeat' split) <;> simp
@[simp] theorem Dev.flushMsix_shuttle  : d.flushMsix.shuttle = d.shuttle := by
  unfold Dev.flushMsix; try dsimp only
  (repeat' split) <;> simp
@[simp] theorem Dev.flushMsix_dozeAborted  : d.flushMsix.dozeAborted = d.dozeAborted := by
  unfold Dev.flushMsix; try dsimp only
  (repeat' split) <;> simp
@[simp] theorem Dev.flushMsix_fixedBits  : d.flushMsix.fixedBits = d.fixedBits := by
  unfold Dev.flushMsix; try dsimp only
  (repeat' split) <;> simp
@[simp] theorem Dev.flushMsix_fixedPace  : d.flushMsix.fixedPace = d.fixedPace := by
  unfold Dev.flushMsix; try dsimp only
  (repeat' split) <;> simp
@[simp] theorem Dev.flushMsix_started  : d.flushMsix.started = d.started := by
  unfold Dev.flushMsix; try dsimp only
  (repeat' split) <;> simp
@[simp] theorem Dev.flushMsix_turns  : d.flushMsix.turns = d.turns := by
  unfold Dev.flushMsix; try dsimp only
  (repeat' split) <;> simp
@[simp] theorem Dev.flushMsix_capGen  : d.flushMsix.capGen = d.capGen := by
  unfold Dev.flushMsix; try dsimp only
  (repeat' split) <;> simp
@[simp] theorem Dev.flushMsix_capFinal  : d.flushMsix.capFinal = d.capFinal := by
  unfold Dev.flushMsix; try dsimp only
  (repeat' split) <;> simp
@[simp] theorem Dev.flushMsix_capTick  : d.flushMsix.capTick = d.capTick := by
  unfold Dev.flushMsix; try dsimp only
  (repeat' split) <;> simp
@[simp] theorem Dev.flushMsix_draws  : d.flushMsix.draws = d.draws := by
  unfold Dev.flushMsix; try dsimp only
  (repeat' split) <;> simp

/-! ## mainsOff -/

@[simp] theorem Dev.mainsOff_now  : d.mainsOff.now = d.now := by
  unfold Dev.mainsOff; dsimp only
  exact (foldl_keep Dev.now _ (fun _ _ => Dev.blockOff_now _ _) _ _).trans ((Dev.upstreamLost_now _).trans rfl)
@[simp] theorem Dev.mainsOff_skew  : d.mainsOff.skew = d.skew := by
  unfold Dev.mainsOff; dsimp only
  exact (foldl_keep Dev.skew _ (fun _ _ => Dev.blockOff_skew _ _) _ _).trans ((Dev.upstreamLost_skew _).trans rfl)
@[simp] theorem Dev.mainsOff_cap  : d.mainsOff.cap = d.cap := by
  unfold Dev.mainsOff; dsimp only
  exact (foldl_keep Dev.cap _ (fun _ _ => Dev.blockOff_cap _ _) _ _).trans ((Dev.upstreamLost_cap _).trans rfl)
@[simp] theorem Dev.mainsOff_ringSel  : d.mainsOff.ringSel = d.ringSel := by
  unfold Dev.mainsOff; dsimp only
  exact (foldl_keep Dev.ringSel _ (fun _ _ => Dev.blockOff_ringSel _ _) _ _).trans ((Dev.upstreamLost_ringSel _).trans rfl)
@[simp] theorem Dev.mainsOff_epochClaim  : d.mainsOff.epochClaim = d.epochClaim := by
  unfold Dev.mainsOff; dsimp only
  exact (foldl_keep Dev.epochClaim _ (fun _ _ => Dev.blockOff_epochClaim _ _) _ _).trans ((Dev.upstreamLost_epochClaim _).trans rfl)
@[simp] theorem Dev.mainsOff_epochSlot  : d.mainsOff.epochSlot = d.epochSlot := by
  unfold Dev.mainsOff; dsimp only
  exact (foldl_keep Dev.epochSlot _ (fun _ _ => Dev.blockOff_epochSlot _ _) _ _).trans ((Dev.upstreamLost_epochSlot _).trans rfl)
@[simp] theorem Dev.mainsOff_hoist  : d.mainsOff.hoist = d.hoist := by
  unfold Dev.mainsOff; dsimp only
  exact (foldl_keep Dev.hoist _ (fun _ _ => Dev.blockOff_hoist _ _) _ _).trans ((Dev.upstreamLost_hoist _).trans rfl)
@[simp] theorem Dev.mainsOff_store  : d.mainsOff.store = d.store := by
  unfold Dev.mainsOff; dsimp only
  exact (foldl_keep Dev.store _ (fun _ _ => Dev.blockOff_store _ _) _ _).trans ((Dev.upstreamLost_store _).trans rfl)
@[simp] theorem Dev.mainsOff_mbx  : d.mainsOff.mbx = d.mbx := by
  unfold Dev.mainsOff; dsimp only
  exact (foldl_keep Dev.mbx _ (fun _ _ => Dev.blockOff_mbx _ _) _ _).trans ((Dev.upstreamLost_mbx _).trans rfl)
@[simp] theorem Dev.mainsOff_sec  : d.mainsOff.sec = d.sec := by
  unfold Dev.mainsOff; dsimp only
  exact (foldl_keep Dev.sec _ (fun _ _ => Dev.blockOff_sec _ _) _ _).trans ((Dev.upstreamLost_sec _).trans rfl)
@[simp] theorem Dev.mainsOff_dozeAborted  : d.mainsOff.dozeAborted = d.dozeAborted := by
  unfold Dev.mainsOff; dsimp only
  exact (foldl_keep Dev.dozeAborted _ (fun _ _ => Dev.blockOff_dozeAborted _ _) _ _).trans ((Dev.upstreamLost_dozeAborted _).trans rfl)
@[simp] theorem Dev.mainsOff_fixedBits  : d.mainsOff.fixedBits = d.fixedBits := by
  unfold Dev.mainsOff; dsimp only
  exact (foldl_keep Dev.fixedBits _ (fun _ _ => Dev.blockOff_fixedBits _ _) _ _).trans ((Dev.upstreamLost_fixedBits _).trans rfl)
@[simp] theorem Dev.mainsOff_fixedPace  : d.mainsOff.fixedPace = d.fixedPace := by
  unfold Dev.mainsOff; dsimp only
  exact (foldl_keep Dev.fixedPace _ (fun _ _ => Dev.blockOff_fixedPace _ _) _ _).trans ((Dev.upstreamLost_fixedPace _).trans rfl)
@[simp] theorem Dev.mainsOff_started  : d.mainsOff.started = d.started := by
  unfold Dev.mainsOff; dsimp only
  exact (foldl_keep Dev.started _ (fun _ _ => Dev.blockOff_started _ _) _ _).trans ((Dev.upstreamLost_started _).trans rfl)
@[simp] theorem Dev.mainsOff_turns  : d.mainsOff.turns = d.turns := by
  unfold Dev.mainsOff; dsimp only
  exact (foldl_keep Dev.turns _ (fun _ _ => Dev.blockOff_turns _ _) _ _).trans ((Dev.upstreamLost_turns _).trans rfl)
@[simp] theorem Dev.mainsOff_capFinal  : d.mainsOff.capFinal = d.capFinal := by
  unfold Dev.mainsOff; dsimp only
  exact (foldl_keep Dev.capFinal _ (fun _ _ => Dev.blockOff_capFinal _ _) _ _).trans ((Dev.upstreamLost_capFinal _).trans rfl)
@[simp] theorem Dev.mainsOff_draws  : d.mainsOff.draws = d.draws := by
  unfold Dev.mainsOff; dsimp only
  exact (foldl_keep Dev.draws _ (fun _ _ => Dev.blockOff_draws _ _) _ _).trans ((Dev.upstreamLost_draws _).trans rfl)

/-! ## quiesceBody -/

@[simp] theorem Dev.quiesceBody_now (l : List Nat) : (d.quiesceBody l).now = d.now := by
  simp [Dev.quiesceBody]
@[simp] theorem Dev.quiesceBody_skew (l : List Nat) : (d.quiesceBody l).skew = d.skew := by
  simp [Dev.quiesceBody]
@[simp] theorem Dev.quiesceBody_cap (l : List Nat) : (d.quiesceBody l).cap = d.cap := by
  simp [Dev.quiesceBody]
@[simp] theorem Dev.quiesceBody_ringSel (l : List Nat) : (d.quiesceBody l).ringSel = d.ringSel := by
  simp [Dev.quiesceBody]
@[simp] theorem Dev.quiesceBody_epochClaim (l : List Nat) : (d.quiesceBody l).epochClaim = d.epochClaim := by
  simp [Dev.quiesceBody]
@[simp] theorem Dev.quiesceBody_epochSlot (l : List Nat) : (d.quiesceBody l).epochSlot = d.epochSlot := by
  simp [Dev.quiesceBody]
@[simp] theorem Dev.quiesceBody_hoist (l : List Nat) : (d.quiesceBody l).hoist = d.hoist := by
  simp [Dev.quiesceBody]
@[simp] theorem Dev.quiesceBody_store (l : List Nat) : (d.quiesceBody l).store = d.store := by
  simp [Dev.quiesceBody]
@[simp] theorem Dev.quiesceBody_mbx (l : List Nat) : (d.quiesceBody l).mbx = d.mbx := by
  simp [Dev.quiesceBody]
@[simp] theorem Dev.quiesceBody_sec (l : List Nat) : (d.quiesceBody l).sec = d.sec := by
  simp [Dev.quiesceBody]
@[simp] theorem Dev.quiesceBody_dozeAborted (l : List Nat) : (d.quiesceBody l).dozeAborted = d.dozeAborted := by
  simp [Dev.quiesceBody]
@[simp] theorem Dev.quiesceBody_fixedBits (l : List Nat) : (d.quiesceBody l).fixedBits = d.fixedBits := by
  simp [Dev.quiesceBody]
@[simp] theorem Dev.quiesceBody_fixedPace (l : List Nat) : (d.quiesceBody l).fixedPace = d.fixedPace := by
  simp [Dev.quiesceBody]
@[simp] theorem Dev.quiesceBody_started (l : List Nat) : (d.quiesceBody l).started = d.started := by
  simp [Dev.quiesceBody]
@[simp] theorem Dev.quiesceBody_turns (l : List Nat) : (d.quiesceBody l).turns = d.turns := by
  simp [Dev.quiesceBody]
@[simp] theorem Dev.quiesceBody_capFinal (l : List Nat) : (d.quiesceBody l).capFinal = d.capFinal := by
  simp [Dev.quiesceBody]
@[simp] theorem Dev.quiesceBody_draws (l : List Nat) : (d.quiesceBody l).draws = d.draws := by
  simp [Dev.quiesceBody]

end Sys2Proof.Machine
end

