-- ==== Sys2Proof/Laws/Tables.lean ====
section
/-!
SUPPORT. The laws of sparse tables, and of the entries of the device's tables.
-/
namespace Sys2Proof.Machine

theorem Tbl.look_put_same {α : Type} (t : Tbl α) (k : Nat) (v : α) : Tbl.look (Tbl.put t k v) k = some v := by
  induction t with
  | nil => simp [Tbl.put, Tbl.look]
  | cons e t ih =>
    obtain ⟨i, w⟩ := e
    unfold Tbl.put
    split
    · simp [Tbl.look]
    · split
      · simp [Tbl.look]
      · rename_i h; simp [Tbl.look, h, ih]

theorem Tbl.look_put_other {α : Type} (t : Tbl α) {k j : Nat} (v : α) (h : j ≠ k) :
    Tbl.look (Tbl.put t k v) j = Tbl.look t j := by
  induction t with
  | nil => simp [Tbl.put, Tbl.look, Ne.symm h]
  | cons e t ih =>
    obtain ⟨i, w⟩ := e
    unfold Tbl.put
    split
    · simp [Tbl.look, Ne.symm h]
    · split
      · rename_i hi; subst hi; simp [Tbl.look, Ne.symm h]
      · simp [Tbl.look, ih]

@[simp] theorem Tbl.lookD_put_same {α : Type} (t : Tbl α) (k : Nat) (v d : α) : Tbl.lookD (Tbl.put t k v) k d = v := by
  simp [Tbl.lookD, Tbl.look_put_same]

theorem Tbl.lookD_put_other {α : Type} (t : Tbl α) {k j : Nat} (v d : α) (h : j ≠ k) :
    Tbl.lookD (Tbl.put t k v) j d = Tbl.lookD t j d := by
  simp [Tbl.lookD, Tbl.look_put_other t v h]

theorem Tbl.look_mapAll {α : Type} (t : Tbl α) (f : Nat → α → α) (k : Nat) :
    Tbl.look (Tbl.mapAll t f) k = (Tbl.look t k).map (f k) := by
  induction t with
  | nil => rfl
  | cons e t ih =>
    obtain ⟨i, w⟩ := e
    simp only [Tbl.mapAll, List.map_cons, Tbl.look] at ih ⊢
    split
    · rename_i h; subst h; rfl
    · exact ih

theorem Tbl.look_del_same {α : Type} (t : Tbl α) (k : Nat) : Tbl.look (Tbl.del t k) k = none := by
  induction t with
  | nil => rfl
  | cons e t ih =>
    obtain ⟨i, w⟩ := e
    simp only [Tbl.del, List.filter_cons] at ih ⊢
    split
    · rename_i h; simp at h; simp [Tbl.look, h, ih]
    · exact ih

theorem Tbl.look_del_other {α : Type} (t : Tbl α) {k j : Nat} (h : j ≠ k) : Tbl.look (Tbl.del t k) j = Tbl.look t j := by
  induction t with
  | nil => rfl
  | cons e t ih =>
    obtain ⟨i, w⟩ := e
    simp only [Tbl.del, List.filter_cons] at ih ⊢
    split
    · simp only [Tbl.look, ih]
    · rename_i h'; simp at h'; subst h'; simp [Tbl.look, Ne.symm h, ih]

/-- An entry that a command rewrites, and the others. -/
theorem Dev.die_setDie (d : Dev) (n m : Nat) (x : Die) : (d.setDie n x).die m = if m = n then x else d.die m := by
  by_cases h : m = n
  · subst h; simp [Dev.die, Dev.setDie]
  · simp [Dev.die, Dev.setDie, Tbl.lookD_put_other _ _ _ h, h]
theorem Dev.ring_setRing (d : Dev) (n m : Nat) (x : Ring) : (d.setRing n x).ring m = if m = n then x else d.ring m := by
  by_cases h : m = n
  · subst h; simp [Dev.ring, Dev.setRing]
  · simp [Dev.ring, Dev.setRing, Tbl.lookD_put_other _ _ _ h, h]
theorem Dev.claim_setClaim (d : Dev) (n m : Nat) (x : Claim) : (d.setClaim n x).claim m = if m = n then x else d.claim m := by
  by_cases h : m = n
  · subst h; simp [Dev.claim, Dev.setClaim]
  · simp [Dev.claim, Dev.setClaim, Tbl.lookD_put_other _ _ _ h, h]
theorem Dev.tally_setTally (d : Dev) (n m : Nat) (x : Tally) : (d.setTally n x).tally m = if m = n then x else d.tally m := by
  by_cases h : m = n
  · subst h; simp [Dev.tally, Dev.setTally]
  · simp [Dev.tally, Dev.setTally, Tbl.lookD_put_other _ _ _ h, h]
theorem Dev.port_setPort (d : Dev) (n m : Nat) (x : Port) : (d.setPort n x).port m = if m = n then x else d.port m := by
  by_cases h : m = n
  · subst h; simp [Dev.port, Dev.setPort]
  · simp [Dev.port, Dev.setPort, Tbl.lookD_put_other _ _ _ h, h]
theorem Dev.obj_setObj (d : Dev) (n m : Nat) (x : Obj) : (d.setObj n x).obj m = if m = n then some x else d.obj m := by
  by_cases h : m = n
  · subst h; simp [Dev.obj, Dev.setObj, Tbl.look_put_same]
  · simp [Dev.obj, Dev.setObj, Tbl.look_put_other _ _ h, h]
theorem Dev.block_setBlock_same (d : Dev) (b : BlockId) (x : Block) : (d.setBlock b x).block b = x := by
  simp [Dev.block, Dev.setBlock]
theorem Dev.die_modDie (d : Dev) (n m : Nat) (f : Die → Die) : (d.modDie n f).die m = if m = n then f (d.die n) else d.die m :=
  Dev.die_setDie d n m _
theorem Dev.ring_modRing (d : Dev) (n m : Nat) (f : Ring → Ring) : (d.modRing n f).ring m = if m = n then f (d.ring n) else d.ring m :=
  Dev.ring_setRing d n m _
theorem Dev.claim_modClaim (d : Dev) (n m : Nat) (f : Claim → Claim) :
    (d.modClaim n f).claim m = if m = n then f (d.claim n) else d.claim m := Dev.claim_setClaim d n m _
theorem Dev.port_modPort (d : Dev) (n m : Nat) (f : Port → Port) : (d.modPort n f).port m = if m = n then f (d.port n) else d.port m :=
  Dev.port_setPort d n m _

/-- The table is all an accessor reads. -/
theorem Dev.die_congr {d e : Dev} (h : d.dies = e.dies) (n : Nat) : d.die n = e.die n := by simp [Dev.die, h]
theorem Dev.ring_congr {d e : Dev} (h : d.rings = e.rings) (n : Nat) : d.ring n = e.ring n := by simp [Dev.ring, h]
theorem Dev.claim_congr {d e : Dev} (h : d.claims = e.claims) (n : Nat) : d.claim n = e.claim n := by simp [Dev.claim, h]
theorem Dev.tally_congr {d e : Dev} (h : d.tallies = e.tallies) (n : Nat) : d.tally n = e.tally n := by simp [Dev.tally, h]
theorem Dev.port_congr {d e : Dev} (h : d.ports = e.ports) (n : Nat) : d.port n = e.port n := by simp [Dev.port, h]
theorem Dev.obj_congr {d e : Dev} (h : d.objects = e.objects) (n : Nat) : d.obj n = e.obj n := by simp [Dev.obj, h]
theorem Dev.group_congr {d e : Dev} (h : d.coll = e.coll) (n : Nat) : d.group n = e.group n := by simp [Dev.group, h]
theorem Dev.tag_congr {d e : Dev} (h : d.time = e.time) (n : Nat) : d.tag n = e.tag n := by simp [Dev.tag, h]
theorem Dev.kernel_congr {d e : Dev} (h : d.evt = e.evt) (n : Nat) : d.kernel n = e.kernel n := by simp [Dev.kernel, h]
theorem Dev.block_congr {d e : Dev} (h : d.blocks = e.blocks) (b : BlockId) : d.block b = e.block b := by simp [Dev.block, h]

/-- What a block's move leaves it at. -/
theorem Dev.block_moveBlock_same (d : Dev) (b : BlockId) (x : Block) : (d.moveBlock b x).block b = x := by
  have h : (d.moveBlock b x).blocks = (d.setBlock b x).blocks := by
    unfold Dev.moveBlock Dev.raise Dev.log Dev.emit; dsimp only; (repeat' split) <;> rfl
  rw [Dev.block_congr h, Dev.block_setBlock_same]

end Sys2Proof.Machine
end

