-- ==== Sys2Proof/Tests/Slice0.lean ====
section
/-!
SUPPORT. The tests of the model: ill-formed commands are refused, small facts of one command each, and for each obligation with
hypotheses a state and operands that meet them. A hypothesis on a signature cannot be met by evaluation, for verification is opaque
(notes/assumptions/4.md); the witnesses of those clauses show the rest of their hypotheses.
-/
namespace Sys2Proof.Tests
open Sys2Proof.Machine
set_option Elab.async false

/-! ## A block at work -/

/-- A state of nothing but a device. -/
def st (d : Dev) : State := { dev := d, mem := [], pending := [] }

/-- A block in a state of Table 3.6. -/
def blk (x : BState) : Block := { Block.reset with st := x }

/-- A loom die that has come up. -/
def upDie : Die :=
  { Die.reset with on := true, ready := true, vout := 720, target := 720, eff := 900, laneList := List.range 64, laneLog := BitVec.allOnes 64,
                   coreList := List.range 8, coreLog := 0xFF }

/-- The power part in RUNNING. -/
def upPower : Power := { Dev.reset.power with hubOn := true, hubReady := true, kolti := true, pstate := .running }

/-- A ring of claim 0 with one more descriptor to fetch. -/
def upRing : Ring := { Ring.reset with sqTailLast := 1 }

/-- Claim 0: tallies 0 to 15, lane 0 and core 0 of die 0. -/
def upClaim : Claim := { Claim.reset with tallyCount := 16, cores := 1, lanes := [(0, 1)], restLanes := [(0, 1)], restCores := 1 }

/-- A FLAT object of claim 0, READY and homed near on die 0, at device address 0. -/
def upObj : Obj :=
  { base := 0, len := 1048576, flat := true, slotFmt := 0, claim := 0, placement := 0, reroute := false, codeDeep := false, zero := true,
    dies := 1, deepOff := [0, 0, 0, 0], st := .ready, near := [(0, 16)], lostUnits := [], lostDies := 0, dyingSeq := 0, readySeq := 0, moves := [],
    held := [], placing := none, doomed := false }

/-- A fabric port that is up. -/
def upPort : Port := { Port.reset with link := .up4, lanes := 0xF, peerPhys := 1, credits := 64 }

/-- The part in RUNNING with its blocks, ring 0, claim 0, port 0 and the host link up. -/
def up : Dev :=
  { Dev.reset with
    now := 5000, power := upPower, capFinal := true, capGen := 1,
    dies := (List.range 4).map (fun n => (n, upDie)),
    host := { Dev.reset.host with
      linkUp := true, perstLow := false, dbMode := 2, msixOn := true, busMaster := true, msixMask := 0,
      link := { x16 := true, speed := 3, cache := true, mem := true, bi := true, ide := true, busMaster := true, bar2 := 0 } },
    blocks := [0x01, 0x10, 0x11, 0x12, 0x13, 0x18, 0x20, 0x22, 0x23, 0x24, 0x25, 0x26, 0x27, 0x28, 1000, 3000, 4000].map
      (fun k => (k, blk .running)),
    rings := [(0, upRing)], claims := [(0, upClaim)], objects := [(1, upObj)], ports := [(0, upPort)] }

/-- The part in a PSTATE. -/
def inState (x : PState) : Dev := { up with power := { upPower with pstate := x } }

/-- A descriptor of fields at byte offsets. -/
def desc (l : List (Nat × Nat)) : BitVec 512 := BitVec.ofNat 512 ((l.map (fun p => p.2 * 2 ^ (8 * p.1))).sum)

/-- A started op at the head of ring 0. -/
def ent (x : BitVec 512) : Entry := { Entry.fresh 0 x with phase := .started, buf := true, ran := true, start := 4000 }

/-- The part with such an op, or with other entries. -/
def withEnts (d : Dev) (l : List Entry) : Dev := d.modRing 0 (fun g => { g with ents := l })
def withOp (d : Dev) (x : BitVec 512) : Dev := withEnts d [ent x]

/-- A command answers a next state with a property. -/
def ends (c : Instr) (s : State) (p : State → Bool) : Bool := match exec c s with | .next t => p t | _ => false

/-- A plan that passed, and a property of it. -/
def okAnd {ε α : Type} (x : Except ε α) (p : α → Bool) : Bool := match x with | .ok a => p a | .error _ => false

/-! ## Well-formedness: a term that each check refuses -/

/-- Register writes are of 4 or 8 bytes (R41). -/
theorem test_wf_size : (Instr.registerWrite 0 2 0).wf = false ∧ (Instr.registerWrite 0 4 (2 ^ 32)).wf = false ∧
    (Instr.registerWrite 0 4 7).wf = true := by decide

/-- A link that trained CXL.io only negotiates no CXL.mem (R40). -/
theorem test_wf_link : (Instr.hostLinkUp { up.host.link with speed := 1 }).wf = false ∧ (Instr.hostLinkUp up.host.link).wf = true := by
  decide

/-- A CXL.mem line is 64 bytes, aligned (R43). -/
theorem test_wf_line : (Instr.cxlMemRequest 0 (some [0]) false).wf = false ∧ (Instr.cxlMemRequest 1 none false).wf = false ∧
    (Instr.cxlMemRequest 64 none false).wf = true := by decide

/-- An HDMWIN access moves 1 to 64 bytes. -/
theorem test_wf_window : (Instr.hdmwinRead 0 65 false).wf = false ∧ (Instr.hdmwinWrite 0 [] false).wf = false ∧
    (Instr.hdmwinRead 0 64 false).wf = true := by decide

/-- A packet carries at most 2,048 payload bytes (R270). -/
theorem test_wf_packet :
    (Instr.putReceive { hdr := 0, payload := List.replicate 2049 0, retried := false, abort := false }).wf = false ∧
    (Instr.packetIngress { hdr := 0, payload := [], retried := false, abort := false }).wf = true := by decide +kernel

/-- A GET asks for 1 to 1,536 bytes (R295). -/
theorem test_wf_get : (Instr.getReqReceive { hdr := 0, payload := [], retried := false, abort := false } 0).wf = false ∧
    (Instr.getReqReceive { hdr := 0, payload := [], retried := false, abort := false } 1536).wf = true := by decide

/-- A mailbox buffer is at most 64 KiB (R403). -/
theorem test_wf_buffer : (Instr.attest (List.replicate 65537 0)).wf = false ∧ (Instr.attest []).wf = true := by decide +kernel

/-- A line that a doorbell read returns is 64 bytes; a flit is 256 (R61, R271). -/
theorem test_wf_line_and_flit : (Instr.doorbellReadReturn 0 (some [0])).wf = false ∧ (Instr.doorbellReadReturn 0 none).wf = true ∧
    (Instr.flitReceive 0 [0]).wf = false := by decide

/-- What a window reads on a die: 32 canaries, and what else is sampled. -/
def reading (n : Nat) : DieReading := ⟨List.replicate n 950, 700, 500, 0⟩

/-- The module has four dies of 32 canaries, and the hub 16 (R26). -/
theorem test_wf_readings :
    (Instr.governorWindow (List.replicate 5 (reading 32)) (List.replicate 16 900) 0).wf = false ∧
    (Instr.governorWindow [reading 31] (List.replicate 16 900) 0).wf = false ∧ (Instr.governorWindow [reading 32] [] 0).wf = false ∧
    (Instr.governorWindow [reading 32] (List.replicate 16 900) 0).wf = true := by decide +kernel

/-- No row of the table has bits, so no word spells a command, and no word joins the queue. -/
theorem test_no_words : decodeTableWord 32 0 = none ∧ (State.reset.withFetchWord 32 0).pending = [] := by decide

/-! ## The frame of a step -/

/-- The front command of the queue runs first; on an empty queue the timebase ticks. -/
theorem test_step_order :
    (match step ((st up).withQueue [.lowFlow, .thermClear]) with | .next t => t.pending == [.thermClear] && t.dev.health.alarms == 1 | _ => false) = true ∧
    (match step (st up) with | .next t => t.dev.now == 5001 | _ => false) = true := by decide +kernel
/-! ## Witnesses, chapters 1 to 3: states that meet the hypotheses of each clause -/

theorem witness_StepRunsTheFrontCommand : (st up).pending = [] := rfl

/-- The empty memory has the canonical form. -/
theorem memoryOk_st (d : Dev) : MemoryOk (st d) := by unfold MemoryOk Memory.wf; rfl

theorem witness_EveryStepKeepsMemoryCanonical : MemoryOk (st up) ∧ ∃ t, step (st up) = .next t := ⟨memoryOk_st up, _, rfl⟩

/-- The part in MAIN_SEQUENCING: the hub domain on, die 0 on and its self-test running, the other dies off. -/
def booting : Dev :=
  { inState .mainSequencing with power := { upPower with pstate := .mainSequencing, hubReady := false }
                                 dies := [(0, { upDie with ready := false })], blocks := [] }

theorem witness_PowerUpFollowsItsSteps :
    ((inState .mgmtUp).power.kolti = true ∧ (inState .mgmtUp).power.pstate = .mgmtUp ∧ (inState .mgmtUp).power.mainOk = true ∧
      (inState .mgmtUp).power.matedSettled = true ∧ (inState .mgmtUp).power.hubTripped = false) ∧
    (booting.power.pstate = .mainSequencing ∧ booting.power.hubOn = true ∧ booting.power.hubReady = false) ∧
    ((booting.die 1).on = false ∧ (booting.die 1).contained = false ∧ (∀ k < 1, (booting.die k).on = true) ∧
      (booting.die 1).govReg.vmin ≤ 720 ∧ 720 ≤ (booting.die 1).govReg.vmax ∧ Tbl.lookD booting.power.retries 1 0 ≤ 3) ∧
    ((booting.die 0).on = true ∧ (booting.die 0).ready = false ∧ (booting.die 0).contained = false ∧ booting.isOff (.die 0) = true ∧
      (booting.die 0).target ≠ 0 ∧ (booting.die 0).vout = (booting.die 0).target ∧ floorRate (booting.die 0).vout.toNat 500 ≤ (1000 : BitVec 11).toNat ∧
      (500 : BitVec 11).toNat < floorRate (booting.die 0).vout.toNat 500) ∧
    Tbl.lookD booting.power.retries 4 0 < 3 ∧
    ((inState .mainSequencing).power.hubReady = true ∧ ∀ n < 4, ((inState .mainSequencing).die n).ready = true) := by decide +kernel

theorem witness_SuppliesAndPinsFollowTheirEvents : up.power.aonOn = true ∧ up.power.mainOk = true := by decide +kernel

theorem witness_LossOfMainRunsTheQuiesce :
    up.power.aonOn = true ∧ up.power.mainLive = true ∧ up.power.mgmtTripped = false ∧ up.power.pstate = .running ∧ up.power.auxFromMain = false := by
  decide +kernel

theorem witness_WarnedAndUnseatedLossesQuiesce :
    (up.canQuiesce = true ∧ up.power.pstate = .running ∧ up.power.hubOn = true ∧ up.power.mgmtOn = true) ∧ booting.canQuiesce = true ∧
    booting.power.pstate = .mainSequencing := by
  decide +kernel

/-- An ARM 10 ticks ago; and one exactly 1,000,000 ticks ago. -/
def armed (k : Tick) : Dev := { up with now := 2000000, power := { upPower with armTick := some k } }

theorem witness_ColdStartTakesTwoWrites :
    up.power.armTick = none ∧ ((armed 1999990).power.armTick = some 1999990 ∧ elapsed (armed 1999990).phys 1999990 ≤ 1000000) ∧
    ((armed 1000000).power.armTick = some 1000000 ∧ elapsed (armed 1000000).phys 1000000 ≤ 1000000 ∧ up.store.engines = []) := by
  decide +kernel

theorem witness_SuppliesAndPinsFollowTheirEvents_i3c :
    up.power.aonOn = true ∧ (0xFE : Byte).toNat % 2 = 0 ∧ (0xFF : Byte).toNat % 2 = 1 ∧
    { upPower with i3cPtr := 0x0E }.i3cPtr = 0x0E ∧ 0x11 < { upPower with i3cPtr := 0x0E }.i3cPtr.toNat + 4 := by decide +kernel

theorem witness_GovernorWritesTakeOnlyLegalFields :
    up.health.stopped = false ∧ up.fixedPace = false ∧ { up with fixedPace := true }.fixedPace = true ∧
    (300 ≤ bits (1050 : W32).toNat 10 0 ∧ bits (1050 : W32).toNat 10 0 ≤ 1050 ∧ bits (1050 : W32).toNat 10 0 % 10 = 0) ∧
    ¬ (300 ≤ bits (1055 : W32).toNat 10 0 ∧ bits (1055 : W32).toNat 10 0 ≤ 1050) ∧
    (let v : W32 := 850 * 65536 + 600
     600 ≤ bits v.toNat 9 0 ∧ bits v.toNat 9 0 ≤ (up.die 0).govReg.supply.toNat ∧ (up.die 0).govReg.supply.toNat ≤ bits v.toNat 25 16 ∧
       bits v.toNat 25 16 ≤ 850 ∧ bits v.toNat 9 0 % 5 = 0 ∧ bits v.toNat 25 16 % 5 = 0) ∧
    (1800 ≤ bits (3600 : W32).toNat 11 0 ∧ bits (3600 : W32).toNat 11 0 ≤ 3600 ∧ bits (3600 : W32).toNat 11 0 % 10 = 0) ∧
    ¬ (1800 ≤ bits (1790 : W32).toNat 11 0) := by decide +kernel

theorem witness_WindowHoldsEveryLimit : (up.die 0).governed = true ∧ (reading 32).canaries ≠ [] ∧
    (∀ c ∈ (reading 32).canaries, floorRate (up.die 0).vout.toNat (reading 32).junction ≤ c.toNat) := by decide +kernel

theorem witness_PermitsAndCountersMove :
    ∀ l ∈ [[], [(0, 16), (1, 3)]], let d := up.setDie 0 { upDie with acc := 1000, banks := l }
      d.dieServes 0 = true ∧ (d.die 0).governed = true ∧ 1000 ≤ (d.die 0).acc ∧ (∀ l < 64, (d.die 0).bank l ≤ 16) ∧
        (∀ g ∈ d.rings, ∀ e ∈ g.2.ents, laneOpcode (hOpcode e.desc) = false ∧ e.work = none) ∧ d.health.stopped = false := by decide +kernel

/-- The host link down, PERST# low or not, the supply in range for a second. -/
def unlinked (low : Bool) : Dev := { up with now := 1000000000, host := { up.host with linkUp := false, perstLow := low } }

theorem witness_HostLinkEventsMoveTheInterface :
    ((unlinked false).host.linkUp = false ∧ (unlinked false).power.mgmtOn = true ∧ (unlinked false).host.perstLow = false ∧
      (unlinked false).host.refclk = true ∧ Nat.ble 100000000 (elapsed (unlinked false).phys (unlinked false).host.supplyTick) = true ∧
      (unlinked false).past (unlinked false).host.trainTick 100000 = true ∧
      { up.host.link with speed := 1 }.speed = 1 ∧ { up.host.link with speed := 2 }.speed = 2 ∧ up.host.link.speed = 3) ∧
    (up.host.linkUp = true ∧ up.isRunning .hostif = true) ∧ (unlinked true).host.perstLow = true := by decide +kernel

/-- Decoder 1 committed over the second 256 MiB. -/
def decoded : Dev :=
  { up with host := { up.host with hdm := [(1, { Hdm.reset with base := 2 ^ 28, size := 2 ^ 28, dpa := 2 ^ 28, committed := true })] } }

theorem witness_HostReachesDeviceMemory :
    decoded.host.linkUp = true ∧ decoded.host.link.mem = true ∧
    ((0 : Word).toNat % 2 ^ 28 = 0 ∧ (2 ^ 28 : Word).toNat % 2 ^ 28 = 0 ∧ (0 : Word).toNat + (2 ^ 28 : Word).toNat ≤ 2304 * 2 ^ 30 ∧
      (0 : Word) = decoded.host.bar2 + 0 ∧ (∀ e ∈ decoded.host.hdm, e.1 ≠ 0 → e.2.committed = true →
        (0 : Word).toNat + (2 ^ 28 : Word).toNat ≤ e.2.dpa.toNat ∨ e.2.dpa.toNat + e.2.size.toNat ≤ (0 : Word).toNat)) ∧
    { up with host := { up.host with link := { up.host.link with mem := false } } }.host.link.mem = false ∧
    (2304 * 2 ^ 30 - 1 : BitVec 42).toNat < 2304 * 2 ^ 30 ∧ 2304 * 2 ^ 30 ≤ (2304 * 2 ^ 30 : BitVec 42).toNat ∧
    (decoded.findObj Obj.named (65536 : BitVec 42).toNat 1 = some (1, upObj) ∧ decoded.obj 1 = some upObj ∧ upObj.st = .ready ∧
      upObj.isNear ((65536 - upObj.base) / upObj.unitSize) = true ∧ (∀ e ∈ decoded.objects, ∀ v ∈ e.2.moves, v.begun = false)) ∧
    (∃ e ∈ decoded.host.hdm, e.2.committed = true ∧ e.2.dpa.toNat ≤ (2 ^ 28 : BitVec 42).toNat ∧
      (2 ^ 28 : BitVec 42).toNat < e.2.dpa.toNat + e.2.size.toNat) ∧ (List.replicate 64 (0 : Byte)).length = 64 := by decide +kernel

theorem witness_HostWriteReadsBack :
    up.host.linkUp = true ∧ (65534 : BitVec 42).toNat < 2304 * 2 ^ 30 ∧ upObj.st = .ready ∧
    (∀ i < 4, up.findObj Obj.named (65534 + i) 1 = some (1, upObj) ∧
      up.findObj (fun x => x.st != .free) (65534 + i) 1 = some (1, upObj) ∧ upObj.base ≤ 65534 + i ∧
      upObj.isNear ((65534 + i - upObj.base) / upObj.unitSize) = true ∧ upObj.inMotion ((65534 + i - upObj.base) / upObj.unitSize) = false) := by
  decide +kernel

/-- A doorbell line of two counts; and ring 0 with its line held, or read. -/
def lineOf (tail head : Nat) : List Byte := toLe 4 tail ++ toLe 4 head ++ List.replicate 56 255
def lined (held read : Bool) : Dev := up.setRing 0 { upRing with lineHeld := held, lineRead := read }

theorem witness_DoorbellsAndVectorsMove :
    (up.host.linkUp = true ∧ up.isRunning .hostif = true ∧ up.isRunning (.ring 0) = true) ∧
    ((lined true false).host.dbMode = 2 ∧ ((lined true false).ring 0).lineHeld = true) ∧
    { up with host := { up.host with dbMode := 1 } }.host.dbMode = 1 ∧
    (let g := (lined false true).ring 0
     g.lineRead = true ∧ g.finished = [] ∧
       (((64 : W32) - g.sqHead).toNat ≤ 2 ^ g.sqLog2.toNat ∧ ((64 : W32) - g.sqTailLast).toNat ≤ 2 ^ g.sqLog2.toNat) ∧
       ((g.cqTail - (0 : W32)).toNat ≤ 2 ^ g.cqLog2.toNat ∧ ((0 : W32) - g.cqHeadLast).toNat ≤ (g.cqTail - g.cqHeadLast).toNat) ∧
       ¬ (((65 : W32) - g.sqHead).toNat ≤ 2 ^ g.sqLog2.toNat) ∧ ¬ (((1 : W32) - g.cqHeadLast).toNat ≤ (g.cqTail - g.cqHeadLast).toNat)) ∧
    (∀ tail ∈ [64, 65], ∀ head ∈ [0, 1], (lineOf tail head).length = 64 ∧ leNat ((lineOf tail head).take 4) = tail ∧
      leNat (((lineOf tail head).drop 4).take 4) = head) ∧
    (up.host.msixOn = true ∧ { up.host with msixPending := 1 }.msixPending.getLsbD 0 = true) := by decide +kernel

/-- The hoist block in a state. -/
def hoistIn (x : BState) : Dev := up.setBlock .hoist (blk x)

theorem witness_EnableWritesActByState :
    up.health.stopped = false ∧ ((hoistIn .off).block .hoist).st = .off ∧ ((hoistIn .refused).block .hoist).st = .refused ∧
    ((hoistIn .running).block .hoist).st = .running ∧ (((hoistIn .checking).block .hoist).st = .checking ∧ (hoistIn .checking).check .hoist = none) ∧
    ({ hoistIn .checking with power := { upPower with pstate := .mgmtUp } }.check .hoist = some 0x18F6) ∧
    (((hoistIn .quiescing).block .hoist).st = .quiescing ∧ (hoistIn .quiescing).atRest .hoist = true) ∧
    ((up.block (.claim 0)).st = .running ∧ (up.claim 0).pstate ≠ .preempting) ∧
    ({ up with claims := [(0, { upClaim with pstate := .preempting })] }.claim 0).pstate = .preempting := by decide +kernel

theorem witness_RegisterWritesFollowTheMap :
    up.health.stopped = false ∧ ¬ ((2 : Nat) = 4 ∧ (0 : BitVec 24).toNat % 4 = 0) ∧ ¬ ((4 : Nat) = 4 ∧ (2 : BitVec 24).toNat % 4 = 0) ∧
    ¬ ((2 : Nat) = 8) ∧ ¬ ((4 : Nat) = 8) ∧ 0x400000 ≤ (0x400000 : BitVec 24).toNat ∧ (0x400000 : BitVec 24).toNat % 4 = 0 ∧
    State.reset.dev.isOff .hostif = true ∧ up.isOff .hostif = false ∧ State.reset.dev.isOff (ringBlock State.reset.dev.ringSel.toNat) = true ∧
    { up.health with stopped := true }.stopped = true ∧ (0x080000 : BitVec 24) ≠ 0x1E0030 := by decide +kernel
/-! ## Witnesses, chapter 4 -/

/-- Ring 0 with a NOP that waits, the descriptor of a field list. -/
def waiting (l : List (Nat × Nat)) : Dev := withEnts up [Entry.fresh 0 (desc l)]

theorem witness_DescriptorsAreFetchedAndStartInOrder :
    (up.isRunning (.ring 0) = true ∧ up.host.linkUp = true ∧ up.isRunning .hostif = true ∧ (up.ring 0).stopped = false ∧
      (up.ring 0).sqHead ≠ (up.ring 0).sqTailLast ∧ up.fetchFate 0 (up.ring 0).sqHead (desc []) = none) ∧
    (let d := waiting []
     let e := Entry.fresh 0 (desc [])
     d.ringStarts 0 = true ∧ (d.ring 0).oldest = some (none, e) ∧ d.entry 0 e.count = some e ∧ (d.ring 0).loop = none ∧
       hDeadline e.desc = 0 ∧ hWait e.desc = false ∧ hBatch e.desc = false ∧ hOpcode e.desc ≠ 0x04 ∧ hOpcode e.desc ≠ 0x26 ∧
       (d.ring 0).orderOk none e = true ∧ (d.ring 0).bufUsed < 32 ∧ d.startCheck 0 e = none ∧ d.startHeld [] 0 e = false) := by
  decide +kernel

/-- Ring 0 with a NOP whose work is done, and with its record waiting. -/
def doneEnt : Entry := { ent (desc []) with phase := .done }
def recordDue : Dev := up.modRing 0 (fun g => { g with ents := [{ doneEnt with phase := .completed }], finished := [0] })

/-- Ring 0 with a record not yet signalled and a timeout set. -/
def unsignalled : Dev := up.setRing 0 { upRing with firstUnsignalled := some 4000, irqTimeout := 1 }

theorem witness_OpsCompleteAndTheirRecordsArePosted :
    (let d := withEnts up [doneEnt]
     d.entry 0 0 = some doneEnt ∧ doneEnt.phase = .done ∧ doneEnt.buf = true ∧ hSignal doneEnt.desc = false ∧
       hOpcode doneEnt.desc ≠ 0x05 ∧ (d.ring 0).loop = none) ∧
    (recordDue.ringPosts 0 = true ∧ (recordDue.ring 0).finished = [0] ∧
      recordDue.entry 0 0 = some { doneEnt with phase := .completed } ∧ (recordDue.ring 0).room = true ∧
      classOf doneEnt.res.status < 2 ∧ (recordDue.ring 0).sqLog2.toNat ≤ 16) ∧
    ((unsignalled.ring 0).firstUnsignalled = some 4000 ∧ (unsignalled.ring 0).irqTimeout ≠ 0 ∧ unsignalled.past 4000 1 = true ∧ unsignalled.msixOpen = true ∧
      unsignalled.host.msixMask.getLsbD (unsignalled.ring 0).vector.toNat = false) ∧
    (let d := waiting [(10, 5000)]
     let e := Entry.fresh 0 (desc [(10, 5000)])
     d.entry 0 0 = some e ∧ e.unstarted = true ∧ hOpcode e.desc ≠ 0x04 ∧ deadlineReached d.now e.desc = true ∧
       (d.ring 0).covered 0 = false ∧ (d.ring 0).loop = none ∧ d.fixedBits = false ∧ { d with fixedBits := true }.fixedBits = true) := by
  decide +kernel

theorem witness_DeadlineHoldsForHalfTheClock :
    hDeadline (desc [(10, 2 ^ 48 - 1)]) ≠ 0 ∧ (2 ^ 48 - 1 : Tick).toNat % 2 ^ 48 = hDeadline (desc [(10, 2 ^ 48 - 1)]) := by decide +kernel

theorem witness_NopDoesNothing : (withOp up (desc [])).op 0 0 0x00 = some (ent (desc [])) := by decide +kernel

/-- A TIMESTAMP to an address. -/
def stamp (a : Nat) : BitVec 512 := desc [(0, 0x06), (16, a)]

theorem witness_TimestampWritesItsStartTick :
    ((withOp up (stamp 65528)).op 0 0 0x06 = some (ent (stamp 65528)) ∧
      (withOp up (stamp 65528)).access 0 (ent (stamp 65528)) 16 8 8 = .ok ⟨65528, 1, upObj⟩ ∧
      (withOp up (stamp 65528)).mustWait (ent (stamp 65528)) [] [span 16 65528 8] = false ∧
      (ent (stamp 65528)).admitted ((withOp up (stamp 65528)).deepNeeds [] [(65528, 8)]) = true) ∧
    ((withOp up (stamp 65530)).op 0 0 0x06 = some (ent (stamp 65530)) ∧
      effAddr (((withOp up (stamp 65530)).ring 0).loopOf 0) (ent (stamp 65530)).desc 16 % 8 ≠ 0) ∧ (up.ring 0).sqLog2.toNat ≤ 16 := by
  decide +kernel

/-- A FENCE, an add of 5 to tally 15, a wait for 1 on it, a SKIP_IF on the word at 0, and a REPEAT_BY of one descriptor by the trip count
at 0, with its body. -/
def fenceOp : BitVec 512 := desc [(0, 0x01)]
def signalOp : BitVec 512 := desc [(0, 0x02), (16, 15), (24, 5)]
def waitOp : BitVec 512 := desc [(0, 0x03), (16, 15), (24, 1), (32, 1)]
def skipOp : BitVec 512 := desc [(0, 0x05), (24, 2 ^ 64 - 1), (42, 1)]
def repeatOp : BitVec 512 := desc [(0, 0x04), (24, 3), (28, 1)]
def repeating : Dev := withEnts up [ent repeatOp, Entry.fresh 1 (desc [])]

/-- A wait whose deadline is reached; and a loop in its last iteration whose body is done. -/
def lateOp : BitVec 512 := desc [(0, 0x03), (10, 5000), (16, 15), (24, 1)]
def lastLoop : Loop := { base := 0, len := 1, trips := 2, iter := 1, strides := [], ending := false, clamped := false, iterations := 1 }
def bodyDone : Entry := { Entry.fresh 1 (desc []) with phase := .done, buf := true, ran := true, start := 4000 }
def lastIteration : Dev := (withEnts up [ent repeatOp, bodyDone]).modRing 0 (fun g => { g with loop := some lastLoop })

theorem witness_ControlOpsDoTheirWork :
    ((withOp up fenceOp).op 0 0 0x01 = some (ent fenceOp) ∧ (withOp up fenceOp).fenceMet 0 (ent fenceOp) = true ∧
      (let d := withEnts up [ent (desc []), { ent fenceOp with count := 1, seq := 1 }]
       d.op 0 1 0x01 = some { ent fenceOp with count := 1, seq := 1 } ∧ d.fenceMet 0 { ent fenceOp with count := 1, seq := 1 } = false)) ∧
    ((withOp up signalOp).op 0 0 0x02 = some (ent signalOp) ∧ ((withOp up signalOp).tally 15).waiters = []) ∧
    ((withOp up waitOp).op 0 0 0x03 = some (ent waitOp) ∧ ((withOp up waitOp).tally 15).waiters = [] ∧
      ¬ ((1 : Word) ≤ ((withOp up waitOp).tally 15).count) ∧
      (1 : Word) ≤ (((withOp up waitOp).setTally 15 ⟨1, []⟩).tally 15).count ∧
      deadlineReached (withOp up waitOp).now (ent waitOp).desc = false) ∧
    ((withOp up lateOp).op 0 0 0x03 = some (ent lateOp) ∧ ((withOp up lateOp).tally 15).waiters = [] ∧
      deadlineReached (withOp up lateOp).now (ent lateOp).desc = true ∧ (withOp up lateOp).fixedBits = false ∧
      ((withOp up lateOp).ring 0).loop = none ∧ hSignal (ent lateOp).desc = false) ∧
    ((withOp up skipOp).op 0 0 0x05 = some (ent skipOp) ∧ (withOp up skipOp).access 0 (ent skipOp) 16 8 8 = .ok ⟨0, 1, upObj⟩ ∧
      (ent skipOp).admitted ((withOp up skipOp).deepNeeds [(0, 8)] []) = true) ∧
    (repeating.op 0 0 0x04 = some (ent repeatOp) ∧ (repeating.ring 0).loop = none ∧
      repeating.access 0 (ent repeatOp) 16 4 4 = .ok ⟨0, 1, upObj⟩ ∧
      (∀ x ∈ (repeating.ring 0).bodyOf (ent repeatOp), x.phase = .waiting) ∧
      (ent repeatOp).admitted (repeating.deepNeeds [(0, 4)] []) = true ∧ (repeating.ring 0).stopped = false ∧
      repeating.tallies = [] ∧ repeating.readNat [] 0 4 = 0 ∧
      repeating.readNat (Memory.applyAll [] (repeating.writeDev 0 (toLe 4 7))) 0 4 ≠ 0) ∧
    ((lastIteration.ring 0).loop = some lastLoop ∧ lastLoop.trips ≤ lastLoop.iter + 1 ∧ lastIteration.entry 0 0 = some (ent repeatOp) ∧
      (lastIteration.ring 0).ents.filter (fun x => lastLoop.body x.count) = [bodyDone] ∧ lastIteration.entry 0 1 = some bodyDone ∧
      bodyDone.res.status = 0 ∧ hOpcode bodyDone.desc ≠ 0x05 ∧ hSignal bodyDone.desc = false ∧
      (bodyDone.total.all (fun k => k.all.status == 0)) = true) := by decide +kernel

theorem witness_NoReadyWaiterIsLeft :
    ((withOp up signalOp).setTally 15 ⟨0, [⟨0, 1, false, 5, 5⟩, ⟨0, 2, false, 1, 1⟩]⟩).op 0 0 0x02 = some (ent signalOp) := by
  decide +kernel
/-! ## Witnesses, chapters 5, 6, 7 and 9 -/

/-- A RAW tile header of one element: MXFP8 at scale ceiling 127, and binary32. -/
def mxHdr : List Byte :=
  Hdr.bytes { sound := true, fmt := 1, codec := 0, sparse := 0, axis := false, vr := 1, vc := 1, ceil := 127, stored := 8704, index := 0,
              obj := 1, aux := 0 }
def f32Hdr : List Byte :=
  Hdr.bytes { sound := true, fmt := 6, codec := 0, sparse := 0, axis := false, vr := 1, vc := 1, ceil := 127, stored := 65536, index := 0,
              obj := 1, aux := 0 }

/-- MXFP8 tiles of zeros at 0 and at 8768, and a binary32 tile of zeros at 131072. -/
def tiled : Memory := Memory.applyAll [] (up.writeDev 0 mxHdr ++ up.writeDev 8768 mxHdr ++ up.writeDev 131072 f32Hdr)

/-- MATMUL and SPMM of the two tiles, and a CONV over them, to a binary32 tile at 65536. -/
def mulOp (opc : Nat) : BitVec 512 := desc [(0, opc), (24, 8768), (32, 65536), (40, 1), (43, 1), (46, 1), (49, 6)]
def convOp : BitVec 512 := desc [(0, 0x12), (24, 8768), (32, 65536), (40, 1), (42, 1), (44, 1), (46, 1), (48, 1), (54, 6)]

/-- What a lane op needs beside its plan, to begin and to end; and one whose lanes have made every pick. -/
def laneFits (d : Dev) (e : Entry) (l : LaneRun) : Bool :=
  !(d.workDies 0).isEmpty && !d.mustWait e [l.x, l.w] [l.y] && e.work.isNone && e.admitted (l.needs d tiled (l.work (d.workDies 0))) && (List.range l.y.tiles).all (fun k => !l.fed (k / l.y.tc) (k % l.y.tc))

def drainedEnt (x : BitVec 512) : Entry := { ent x with work := some [] }

theorem witness_LaneOpsWriteTheirWholeOutput :
    (∀ x ∈ [(0x10, mulOp 0x10), (0x12, convOp), (0x13, mulOp 0x13)], let d := withEnts up [drainedEnt x.2]
      d.op 0 0 x.1 = some (drainedEnt x.2) ∧ (drainedEnt x.2).drained = true ∧
        okAnd (if x.1 = 0x12 then d.convPlan tiled 0 (drainedEnt x.2) else d.matmulPlan tiled 0 (drainedEnt x.2) (x.1 == 0x13))
          (fun l => !(d.workDies 0).isEmpty && (List.range l.y.tiles).all (fun k => !l.fed (k / l.y.tc) (k % l.y.tc))) = true) ∧
    ((withOp up (mulOp 0x10)).op 0 0 0x10 = some (ent (mulOp 0x10)) ∧
      okAnd ((withOp up (mulOp 0x10)).matmulPlan tiled 0 (ent (mulOp 0x10)) false) (laneFits (withOp up (mulOp 0x10)) (ent (mulOp 0x10))) = true) ∧
    ((withOp up convOp).op 0 0 0x12 = some (ent convOp) ∧
      okAnd ((withOp up convOp).convPlan tiled 0 (ent convOp)) (laneFits (withOp up convOp) (ent convOp)) = true) ∧
    ((withOp up (mulOp 0x13)).op 0 0 0x13 = some (ent (mulOp 0x13)) ∧
      okAnd ((withOp up (mulOp 0x13)).matmulPlan tiled 0 (ent (mulOp 0x13)) true) (laneFits (withOp up (mulOp 0x13)) (ent (mulOp 0x13))) = true) := by
  decide +kernel

/-- One product on the grid, one below it, and lists that differ in order. -/
theorem witness_WindowsAddExactlyInAnyOrder :
    [Val.fin false 3 0, Val.fin true 1 (-200)].Perm [Val.fin true 1 (-200), Val.fin false 3 0] ∧
    ([(false, 3, 0), (true, 1, -200)] : List (Bool × Nat × Int)) ≠ [] ∧ (-200 : Int) ≤ 0 - 176 ∧
    (∀ p ∈ ([(false, 3, 0), (true, 1, -200)] : List (Bool × Nat × Int)), (-200 : Int) ≤ p.2.2) ∧ (∀ x m e, Val.nan ≠ .fin x m e) ∧
    (0 < (Tile.hdr (loadTile (hdrOf mxHdr) (List.replicate 8704 255) 1 1)).vr ∧ isMx (hdrOf mxHdr).fmt = true ∧
      (loadTile (hdrOf mxHdr) (List.replicate 8704 255) 1 1).scale (blockOf false 0 0) = 255) :=
  ⟨List.Perm.swap _ _ _, by decide, by decide, by decide, by simp, by decide +kernel⟩

/-- A FINISH that copies the binary32 tile to 262144, and an RNG_FILL there, element-keyed. -/
def finishOp : BitVec 512 := desc [(0, 0x14), (16, 131072), (32, 262144), (40, 1), (43, 1), (46, 0x01), (47, 6)]
def fillOp : BitVec 512 := desc [(0, 0x15), (16, 262144), (32, 1), (35, 1), (38, 6)]

theorem witness_FinishAndRngFillWriteTheirOutput :
    (let d := withOp up finishOp
     d.op 0 0 0x14 = some (ent finishOp) ∧ okAnd (d.finishPlan tiled 0 (ent finishOp)) (fun f =>
       !d.mustWait (ent finishOp) (f.a :: f.b.toList) [f.y] && (ent finishOp).admitted (f.needs d tiled) &&
         ((f.loadA d tiled).toList ++ (f.loadB d tiled).toList ++ (f.loadD d tiled).toList).all (fun x => !x.bad)) = true) ∧
    (let d := withOp up fillOp
     let e := ent fillOp
     d.op 0 0 0x15 = some e ∧ okAnd (settled (d.outputGrid 0 e 16 (fld e.desc 32 3) (fld e.desc 35 3) (outCtl (fld e.desc 38 1)).fmt))
         (fun g => !d.mustWait e [] [g] && e.admitted (d.deepNeeds [] (d.gridSlots g))) = true ∧ fld e.desc 24 4 ≠ 0xFFFFFFFF ∧ bit (fld e.desc 39 1) 7 = false ∧
       (bits (fld e.desc 39 1) 5 4 = 2 → (outCtl (fld e.desc 38 1)).fmt = 6)) ∧
    (let e := ent (desc [(39, 0x80)])
     bit (fld e.desc 39 1) 7 = true ∧ bit (fld e.desc 39 1) 6 = false ∧ up.lambdas (up.claimOf 0) ≠ [] ∧
       ∀ k ∈ up.lambdas (up.claimOf 0), (fld e.desc 24 4 + k) % 2 ^ 32 ≠ 0xFFFFFFFF) := by decide +kernel

/-- An ASSAY of one token over one expert, and SLUICEs of one token and of two. -/
def assayDesc : BitVec 512 := desc [(0, 0x20), (16, 131072), (32, 262144), (53, 1), (54, 1), (56, 0x3F800000)]
def sluiceDesc (t : Nat) : BitVec 512 := desc [(0, 0x21), (16, 0), (24, 262144), (32, 262400), (40, 262656), (48, 262912), (56, t - 1)]

theorem witness_AssayAndSluiceWriteTheirArrays :
    (let d := withOp up assayDesc
     let e := ent assayDesc
     d.op 0 0 0x20 = some e ∧ okAnd (d.assayPlan tiled 0 e) (fun p =>
       !d.mustWaitAlways (p.1 :: (p.2.filter (fun x => x.1 == 24)).map (fun x => x.2.grid x.1))
          ((p.2.filter (fun x => x.1 != 24)).map (fun x => x.2.grid x.1)) &&
         e.admitted (d.deepNeeds (d.gridReads tiled p.1 ++ ((p.2.filter (fun x => x.1 == 24)).map (fun x => x.2.grid x.1)).map Grid.range)
           (((p.2.filter (fun x => x.1 != 24)).map (fun x => x.2.grid x.1)).map Grid.range)) &&
         (d.loadGrid tiled p.1 (assayOp e.desc).tokens (assayOp e.desc).experts).toList.all (fun x => !x.bad)) = true) ∧
    (∀ t ∈ [1, 2], let d := withOp up (sluiceDesc t)
     let e := ent (sluiceDesc t)
     let o := sluiceOp e.desc
     d.op 0 0 0x21 = some e ∧ okAnd (d.sluicePlan 0 e) (fun ps =>
       let gs := ps.map (fun x => x.2.grid x.1)
       let tri := d.sluiceTriple [] o (spanAddr ps 16)
       !d.mustWaitAlways (gs.take 1) (gs.drop 1) && e.admitted (d.sluiceNeeds [] e ps) &&
         (List.range o.tokens).all (fun k => o.tokenOk k ((List.range o.picks).map (tri k))) == (t == 1)) = true) := by decide +kernel
/-! ## Witnesses, chapter 8 -/

/-- The part at coordinate 0 of a row whose sixteen members have logical IDs 0 to 15, with job tag 1 ACTIVE for claim 0. -/
def wired : Dev :=
  { up with
    routing := { up.routing with l2p := (List.range 16).map (fun i => (i, BitVec.ofNat 32 (2 ^ 31 + i))) }
    time := { up.time with tags := [(1, { st := .active, claim := 0, attempt := 0, gid := 1, go := none, since := 0, seen := 0 })] } }

/-- Member 1 of the row, as a sender of packets. -/
def peer : Dev := { wired with routing := { wired.routing with log := 1, phys := 1 } }

/-- An exchange table of one token, one expert, one slot of two rows and 32 columns, and its bytes. -/
def xtable (set : Nat) : Nat :=
  ([(0, 1024), (8, 2048), (16, 3072), (24, 4096), (32, 5120), (40, 131072), (48, 6144), (56, 7168), (64, 8192), (72, 196608), (80, 262144),
    (88, 32832), (92, 2), (101, set * 64), (102, 1), (104, 2), (106, 5), (108, 32)].map (fun p => p.2 * 2 ^ (8 * p.1))).sum

/-- A BF16 tile header, and a memory with the table at 0, the map entry of object 1, and headers at SRC, at a
result tensor and at SLOTBUF. -/
def bfHdr : List Byte :=
  Hdr.bytes { sound := true, fmt := 5, codec := 0, sparse := 0, axis := false, vr := 1, vc := 32, ceil := 127, stored := 32768, index := 0,
              obj := 1, aux := 0 }
def xmem (set : Nat) : Memory :=
  Memory.applyAll [] (wired.writeDev 0 (toLe 128 (xtable set)) ++ wired.writeDev 5120 (toLe 8 1) ++ wired.writeDev 393216 bfHdr ++
    wired.writeDev 524288 bfHdr ++ wired.writeDev 196608 bfHdr)

/-- One landed row of slot 0 that came from member 1. -/
def landedRow : Memory :=
  Memory.applyAll (xmem 1) (wired.writeDev 8192 (toLe 8 1) ++ wired.writeDev 7168 (toLe 8 1) ++ wired.writeDev 6144 (toLe 8 (2 ^ 44)))

/-- A started exchange op, with the table and map it read as it started; and the part with such an op. -/
def entX (set : Nat) (x : BitVec 512) : Entry := { ent x with xt := some { bytes := BitVec.ofNat 1024 (xtable set), map := [1] } }
def withX (d : Dev) (set : Nat) (x : BitVec 512) : Dev := withEnts d [entX set x]

def dispatchOp : BitVec 512 := desc [(0, 0x22), (24, 393216)]
def returnDesc (opc : Nat) : BitVec 512 := desc [(0, opc), (24, 524288), (32, 32832)]
def combineOp : BitVec 512 := desc [(0, 0x25), (32, 589824), (40, 6)]
def cancelOp : BitVec 512 := desc [(0, 0x26)]

/-- A DISPATCH of set 1 that runs on ring 0, and its result context. -/
def exch : Exch :=
  { ring := 0, count := 0, tag := 1, table := BitVec.ofNat 1024 (xtable 1), map := [1], grade := 0, src := 393216, fmt := 5, batch := none,
    rows := [], counts := [], armedBy := [], cleared := [], armed := false, plan := [], extra := [], got := [], lost := [], unacked := [],
    landed := false, dropped := 0, rerouted := 0 }
def context : Results :=
  { armed := true, table := BitVec.ofNat 1024 (xtable 1), batch := none, expect := [(0, 0x3F800000)], final := false, got := [], signalled := false }

/-- The part with a channel 0 of claim 0. -/
def withChan (d : Dev) (y : Chan) : Dev := d.setChan 0 0 y

/-- A CANCEL_BATCH of slot 3, epoch 7, and a DISPATCH of that batch with a row sent and not acknowledged. -/
def cancelled : Cancel := { ring := 0, count := 0, claim := 0, batch := (3, 7), discarded := 2 }
def cancelling (y : Chan) : Dev :=
  let d := withChan (withOp wired cancelOp) y
  { d with shuttle := { d.shuttle with cancels := [cancelled] } }

theorem witness_DispatchArmsAndCancelDisarms :
    (∀ set ∈ [0, 1], let d := withX wired set dispatchOp
     let e := entX set dispatchOp
     d.op 0 0 0x22 = some e ∧ d.shuttle.chans = [] ∧ d.shuttle.cancels = [] ∧ okAnd (d.dispatchPlan (xmem set) 0 e) (fun p =>
       !d.mustWaitAlways [p.2.2] ((dispatchOuts p.1 ++ landAreas p.1 (landFmt (bits (fld e.desc 32 1) 7 6) p.2.2.fmt)).map (fun a => span 16 a.1 a.2)) &&
         e.admitted (d.deepNeeds (d.dispatchReads 0 e p.1 ++ dispatchRows p.2.2 p.1 (d.rowsOf (xmem set) p.1 p.2.1)) []) &&
         (d.loadGrid (xmem set) p.2.2 (xtTokens p.1) (xtHidden p.1)).toList.all (fun x => !x.bad) && (d.chan 0 (xtXch p.1)).held.isEmpty &&
         (if set = 1 then (d.xMembers (xtSet p.1)).any (fun m => m.1 != d.routing.log.toNat)
          else xtSet p.1 == 0 && (d.rowsOf (xmem 0) p.1 p.2.1).isEmpty && xtLtally p.1 != xtRtally p.1 &&
            (d.tally (xtLtally p.1)).waiters.isEmpty)) = true) ∧
    (let d := cancelling { Chan.reset with res := some { context with batch := some (3, 7) } }
     d.op 0 0 0x26 = some (ent cancelOp) ∧ d.shuttle.cancels = [cancelled] ∧ d.cancelDone cancelled = true) ∧
    (let d := cancelling { Chan.reset with disp := some { exch with batch := some (3, 7), unacked := [(1, [])] } }
     d.op 0 0 0x26 = some (ent cancelOp) ∧ d.cancelDone cancelled = false) := by decide +kernel

theorem witness_ReturnsSendTheirRowsAndCombineSums :
    (∀ opc ∈ [0x23, 0x24], let d := withX wired 1 (returnDesc opc)
     let e := entX 1 (returnDesc opc)
     d.op 0 0 opc = some e ∧ d.shuttle.chans = [] ∧ e.res = Result.ok ∧
       okAnd (d.returnPlan (xmem 1) 0 e) (fun p => p.2.2.isEmpty && e.admitted (d.deepNeeds
         [(d.cAddr 0 e 16, 128), (xtWork p.1, 8), (xtLtag p.1, 0)] [])) = true ∧
       okAnd (d.returnPlan landedRow 0 e) (fun p => !p.2.2.isEmpty && e.admitted (d.deepNeeds
         ([(d.cAddr 0 e 16, 128), (xtWork p.1, 8), (xtLtag p.1, 8 * p.2.2.length)] ++
           p.2.2.flatMap (fun q => rowRanges (524288 + q.1 * 32832) p.2.1 (xtHidden p.1) q.2.1)) []) && p.2.2.all (fun q => tagOrigin q.2.2 != d.routing.log.toNat &&
           !(d.tile landedRow { off := 24, base := 524288, slot := 32832, tr := 1, tc := 1, fmt := 5 } 0 0 128 128).bad) &&
         !d.mustWaitAlways [span 24 524288 32832] []) = true) ∧
    (let d := withX wired 1 combineOp
     let e := entX 1 combineOp
     d.op 0 0 0x25 = some e ∧ okAnd (d.combinePlan (xmem 1) 0 e) (fun p => !d.mustWaitAlways (slotGrid p.1 :: p.2.1.toList) [p.2.2] &&
       e.admitted (d.deepNeeds (d.combineReads (xmem 1) 0 e p.1 p.2.1) (d.gridSlots p.2.2)) &&
       (List.range p.2.2.tiles).all (fun n => (d.combineFed (xmem 1) p.1 p.2.1 p.2.2 n).isNone)) = true) := by decide +kernel

/-- A shuttle packet of member 1 for tag 1: its kind, its number for the op, and what follows the header. -/
def xpacket (kind seq : Nat) (data : List Byte) : Packet :=
  peer.packet (.bound 0 1 1 0 0) (xhead kind 0 none 0 0 0 0 0 seq ++ data)

theorem witness_ShuttlePacketsMoveTheExchange_none :
    (wired.packetClaim { xpacket 1 0 [] with payload := [] } = none) := by decide +kernel

theorem witness_ShuttlePacketsMoveTheExchange_count :
    (wired.packetClaim (xpacket 1 0 []) = some 0 ∧ (xpacket 1 0 []).xOk 1 = true ∧ (wired.chan 0 (xpacket 1 0 []).xch) = Chan.reset) := by decide +kernel

theorem witness_ShuttlePacketsMoveTheExchange_armed :
    (wired.packetClaim (xpacket 2 0 []) = some 0 ∧ (xpacket 2 0 []).xOk 2 = true ∧ (wired.chan 0 0).disp = none) := by decide +kernel

theorem witness_ShuttlePacketsMoveTheExchange_gather :
    (let d := withChan (withOp wired dispatchOp) { Chan.reset with disp := some exch }
     d.packetClaim (xpacket 2 0 []) = some 0 ∧ (xpacket 2 0 []).xOk 2 = true ∧ (d.chan 0 (xpacket 2 0 []).xch).disp = some exch ∧
      d.runs exch.ring exch.count = true ∧ exch.armed = false ∧ exch.cleared = [] ∧
      exch.refusal = none ∧ (d.xMembers (xtSet exch.table)).any (fun m => (Tbl.look exch.counts m.1).isNone) = true) := by decide +kernel

theorem witness_ShuttlePacketsMoveTheExchange_refuse :
    (let d := withChan (withOp wired dispatchOp) { Chan.reset with disp := some exch }
     d.packetClaim (xpacket 6 0 []) = some 0 ∧ (xpacket 6 0 []).xOk 6 = true ∧ (d.chan 0 0).disp = some exch ∧
       d.entry exch.ring exch.count = some (ent dispatchOp) ∧ (ent dispatchOp).phase = .started) := by decide +kernel

theorem witness_ShuttlePacketsMoveTheExchange_rows :
    (let x := { exch with armed := true, plan := [(0, [(1, 2)])] }
     let d := withChan (withOp wired dispatchOp) { Chan.reset with disp := some x }
     let p := xpacket 3 0 (List.replicate 64 0)
     d.packetClaim p = some 0 ∧ p.xOk 3 = true ∧ (d.chan 0 p.xch).disp = some x ∧ x.position p.slog (p.p 8 2) (p.p 12 4) = some 0 ∧
       p.slog ≠ d.routing.log.toNat ∧ p.p 10 2 % packetBlocks x.lf = 0 ∧ min (packetBlocks x.lf) (rowBlocks (xtHidden x.table) - p.p 10 2) = 1 ∧
       p.payload.length = 16 + 1 * blockBytes x.lf ∧ x.got = [] ∧ d.runs x.ring x.count = true ∧ x.armed = true ∧ x.landed = false ∧ x.rows = [] ∧ x.armedBy = [] ∧
       { x with got := [(p.slog, p.p 8 2, p.p 12 4, p.p 10 2)] }.landingDone d.routing.log.toNat = false) := by decide +kernel

theorem witness_ShuttlePacketsMoveTheExchange_result :
    (let d := withChan wired { Chan.reset with res := some context }
     let p := xpacket 4 5 (List.replicate 64 0)
     d.packetClaim p = some 0 ∧ (d.chan 0 p.xch).res = some context ∧ p.p 0 1 = 4 ∧ bits (p.p 1 1) 3 0 = 0 ∧ p.p 4 1 < 64 ∧ p.p 5 1 < 16 ∧
       p.p 12 4 = 5 ∧ (p.payload.length - 16) / blockBytes 5 = 1 ∧ p.payload.length = 16 + 1 * blockBytes 5 ∧
       Tbl.look context.expect (p.p 6 2 * xtK context.table + p.p 5 1) = some 0x3F800000 ∧ context.armed = true ∧
       d.staleBatch 0 context.batch = false ∧ d.staleBatch 0 p.xbatch = false ∧ p.p 5 1 < xtK context.table ∧ xtSlotbuf context.table ≠ 0 ∧
       context.again 0 5 p.slog (p.p 10 2) 1 = false ∧ bit (p.p 1 1) 4 = false ∧
       ((context.tilesOf false 0 (p.p 10 2) 1).all (fun a => !((Work.of { st d with mem := xmem 1 }).coded a.2).2) = true) ∧ Tbl.look { context with expect := [] }.expect 0 = none) := by decide +kernel

theorem witness_ShuttlePacketsMoveTheExchange_ack :
    (let p := xpacket 5 0 (xhead 4 0 none 0 0 0 0 0 5)
     let q : Returning := { ring := 0, count := 0, unacked := [(1, slice p.payload 16 16)] }
     let d := withChan (withOp wired (returnDesc 0x24)) { Chan.reset with ret := some q }
     d.packetClaim p = some 0 ∧ p.xOk 5 = true ∧ (d.chan 0 p.xch).disp = none ∧ (d.chan 0 p.xch).ret = some q ∧
       q.unacked = [(p.slog, slice p.payload 16 16)] ∧ d.entry q.ring q.count = some (ent (returnDesc 0x24)) ∧
       (ent (returnDesc 0x24)).phase = .started) := by decide +kernel

theorem witness_ShuttlePacketsMoveTheExchange_timeout :
    (let d := withChan { withOp wired dispatchOp with now := 2 ^ 40 } { Chan.reset with disp := some exch }
     (d.chan 0 0).disp = some exch ∧ ((d.xMembers (xtSet exch.table)).find? (fun m => m.2 != d.self &&
         !((Tbl.look exch.counts m.1).any Counted.whole && (Tbl.look exch.armedBy m.1).any Counted.whole))).isSome = true ∧
       d.armPast exch = true ∧ (ent dispatchOp).phase = .started ∧ d.entry exch.ring exch.count = some (ent dispatchOp) ∧ classOf (ent dispatchOp).res.status < 3) := by decide +kernel

/-! ## Witnesses, chapters 10 and 11 -/

/-- An object entry of 64 KiB at 2 MiB, FLAT, PIN_DEEP, on die 0; and the part that stages it for a number. -/
def entryBits : BitVec 512 := desc [(0, 2097152), (8, 65536), (16, 0x80), (18, 0x40), (19, 1)]
def staging (n : BitVec 18) : Dev := { up with hoist := { up.hoist with sel := n, entry := entryBits } }

theorem witness_ObjectsAreCreatedQueriedAndDestroyed :
    (staging 2).health.stopped = false ∧ (staging 2).createReason 2 entryBits = 0x18F5 ∧
    ({ staging 2 with objects := [] }.createReason 2 entryBits = 0 ∧ (objOf entryBits).placement ≠ 0) ∧
    (staging 1).createReason 1 entryBits = 0x1801 ∧
    (∀ x ∈ [0, 1], let o := { upObj with st := .creating, lostDies := x }
     { up with objects := [(1, o)] }.obj 1 = some o ∧ o.st = .creating ∧ o.doomed = false ∧ (o.lostCount ≠ 0 ↔ x = 1)) ∧
    ((staging 1).isRunning .hoist = true ∧ (staging 1).obj 1 = some upObj ∧ upObj.st = .ready ∧ (staging 2).obj 2 = none) := by
  decide +kernel

/-- An object of AUTO placement, homed deep or near, with room near for its claim. -/
def deepObj : Obj := { upObj with placement := 2, near := [] }
def roomy (o : Obj) : Dev := { up with claims := [(0, { upClaim with near := [(0, 2048)] })], objects := [(1, o)] }

/-- HOIST or SETTLE of two units from unit 14 on, the last of the object. -/
def moveDesc (opc : Nat) : BitVec 512 := desc [(0, opc), (16, 14 * 65536), (24, 2)]
def placeDesc (p : Nat) : BitVec 512 := desc [(0, 0x32), (16, 1), (20, p * 64)]

theorem witness_HoistOpsStartTheirMovesAndCopyCopies_moves :
    ∀ x ∈ [(0x30, deepObj, 2), (0x30, { deepObj with near := [(0, 16)] }, 0), (0x31, { deepObj with near := [(0, 16)] }, 2), (0x31, deepObj, 0)],
      let d := withOp (roomy x.2.1) (moveDesc x.1)
      let e := ent (moveDesc x.1)
      let o := x.2.1
      let units := ((List.range (fld e.desc 24 4)).map (14 + ·)).filter (fun i => o.isNear i != decide (x.1 = 0x30))
      d.op 0 0 x.1 = some e ∧ d.isRunning .hoist = true ∧ d.opMoving 0 0 = false ∧ d.place 0 e 16 1 1 = .ok ⟨14 * 65536, 1, o⟩ ∧
        d.obj 1 = some o ∧ (14 * 65536 - o.base) % o.unitSize = 0 ∧ o.isLost = false ∧ 14 + fld e.desc 24 4 ≤ o.units ∧ o.placement = 2 ∧
        o.moves = [] ∧ units.length = x.2.2 ∧
        ∀ k ∈ o.dieList, (units.countP (fun i => o.unitDie i == k)) * o.chunks ≤ d.nearLeft o.claim k ∨ x.1 = 0x31 := by decide +kernel

theorem witness_HoistOpsStartTheirMovesAndCopyCopies_place :
    ∀ x ∈ [(0, upObj), (1, deepObj), (2, upObj), (1, upObj)],
      let d := withOp (roomy x.2) (placeDesc x.1)
      let e := ent (placeDesc x.1)
      let p := fld e.desc 20 1
      d.op 0 0 0x32 = some e ∧ d.obj (bits (fld e.desc 16 4) 17 0) = some x.2 ∧ x.2.usable e = true ∧ x.2.claim = d.claimOf 0 ∧
        d.opMoving 0 0 = false ∧ x.2.isLost = false ∧ x.2.placing = none ∧ x.2.moves = [] ∧ bits p 7 6 = x.1 ∧
        (x.1 = 2 ∨ (List.range x.2.units).all (fun i => x.2.isNear i == (x.1 == 0)) = true ∨
          (x.1 = 1 ∧ (List.range x.2.units).any x.2.isNear = true)) := by decide +kernel

/-- A tensor object of MXFP8 tiles, and COPYs: of 64 bytes across a unit's end, and of a tile. -/
def tileObj : Obj := { upObj with flat := false, slotFmt := 1, len := 35072, near := [(0, 4)] }
def copyDesc : BitVec 512 := desc [(0, 0x33), (16, 65472), (24, 131072), (32, 64)]
def copyTileDesc : BitVec 512 := desc [(0, 0x33), (24, 17536), (32, 1), (40, 0x80)]

/-- A started op that the DEEP and HOIST meters have admitted. -/
def paidFor (x : BitVec 512) : Entry := { ent x with paid := List.range 20 }

theorem witness_HoistOpsStartTheirMovesAndCopyCopies_copy :
    (let d := withEnts up [paidFor copyDesc]
     let e := paidFor copyDesc
     d.op 0 0 0x33 = some e ∧ d.isRunning .hoist = true ∧ bit (fld e.desc 40 1) 7 = false ∧ fld e.desc 32 8 % 64 = 0 ∧ d.access 0 e 16 64 64 = .ok ⟨65472, 1, upObj⟩ ∧
       d.access 0 e 24 64 64 = .ok ⟨131072, 1, upObj⟩ ∧ (span 16 65472 64).overlaps (span 24 131072 64) = false ∧
       d.mustWait e [span 16 65472 64] [span 24 131072 64] = false ∧ e.admitted (d.copyNeeds [(65472, 64)] (131072, 64)) = true) ∧
    (let d := withEnts { up with objects := [(1, tileObj)] } [paidFor copyTileDesc]
     let e := paidFor copyTileDesc
     let m := Memory.applyAll [] (d.writeDev 0 mxHdr)
     d.op 0 0 0x33 = some e ∧ d.isRunning .hoist = true ∧ bit (fld e.desc 40 1) 7 = true ∧ d.access 0 e 16 1 1 = .ok ⟨0, 1, tileObj⟩ ∧
       d.access 0 e 16 (1 * tileObj.unitSize) 1 = .ok ⟨0, 1, tileObj⟩ ∧ d.access 0 e 24 (1 * tileObj.unitSize) 1 = .ok ⟨17536, 1, tileObj⟩ ∧
       tileObj.flat = false ∧ 17536 % tileObj.unitSize = 0 ∧ (span 16 0 8768).overlaps (span 24 17536 8768) = false ∧
       d.mustWait e [span 16 0 8768] [span 24 17536 8768] = false ∧
       e.admitted (d.copyNeeds ((d.copyIn m ⟨0, 1, tileObj⟩ 1).zipIdx.map (fun x => (x.2 * 8768, min 8768 (64 + (hdrOf (x.1.take 64)).stored))))
         (17536, 8768)) = true ∧
       (d.copyIn m ⟨0, 1, tileObj⟩ 1).all (fun b => (hdrOf (b.take 64)).passes (b.take 64) anyFmt true) = true ∧
       (d.copyOut m ⟨0, 1, tileObj⟩ ⟨17536, 1, tileObj⟩ 1 0).all (fun b => !b.2) = true) := by decide +kernel

/-- A unit on its way near, and one on its way deep. -/
def movingObj : Obj := { deepObj with near := [(1, 2)], moves := [⟨0, true, true, 0, none, false⟩, ⟨1, false, true, 0, some (0, 0), false⟩] }

theorem witness_UnitsMoveBetweenTheirHomes :
    ((roomy movingObj).obj 1 = some movingObj ∧ movingObj.moves.find? (fun w => w.unit == 0 && w.begun) = some ⟨0, true, true, 0, none, false⟩ ∧
      (∀ y ∈ (roomy movingObj).objects, ∀ w ∈ y.2.moves, w.evict = true → w.op ≠ none) ∧ Memory.wf (st (roomy movingObj)).mem ∧
      movingObj.moves.find? (fun w => w.unit == 1 && w.begun) = some ⟨1, false, true, 0, some (0, 0), false⟩ ∧ movingObj.held = []) ∧
    (up.autoState 0 = 1 ∧ up.isRunning .hoist = true ∧ (up.die 0).on = true ∧ up.health.stopped = false) ∧
    ((roomy deepObj).deepUnits 0 512 1024 = [(1, 0)] ∧ (roomy deepObj).obj 1 = some deepObj ∧ deepObj.st = .ready) ∧
    (let v : W32 := 0x00A20084
     v.toNat / 2 ^ 20 ≠ 0 ∧ v.toNat / 2 ^ 12 % 256 ≠ 0 ∧ v.toNat / 16 % 256 ≤ v.toNat / 2 ^ 12 % 256 ∧ v.toNat % 16 ≠ 0) ∧
    ¬ ((0 : W32).toNat / 2 ^ 20 ≠ 0) := by decide +kernel

/-- Claim 0 with a balance of its DEEP meter of die 0, the right to borrow, and a started op that waits there. -/
def metering (bal : Int) (borrow : Bool) : Dev :=
  { withOp up (desc [(0, 0x10)]) with
    claims := [(0, { upClaim with meters := [(0, { MeterSt.reset with bal := bal })], shareNow := { Shares.reset with borrow := borrow } })]
    frames := { up.frames with asks := [{ meter := 0, claim := 0, units := 5, deep := 0, what := .op 0 0 }] } }

theorem witness_FramesShareOutAndMetersCharge_frames :
    up.frameDue = false ∧ { up with now := 100000 }.frameDue = true ∧
    { up with now := 100000, frames := { up.frames with num := 1, len := 10 } }.frameDue = true ∧
    (List.range 32).filter (fun c => up.isRunning (claimBlock c)) = [0] ∧ Meter.deep 0 ∈ allMeters ∧ Meter.deep 0 ≠ .fabric 4 := by decide +kernel

theorem witness_FramesShareOutAndMetersCharge_meters :
    (∀ x ∈ [((1 : Int), true), (1, false), (0, true)], let d := metering x.1 x.2
     d.movers = [] ∧ meterKey (.deep 0) = 0 ∧ d.nextAsk 0 = some ⟨0, 0, 5, 0, .op 0 0⟩ ∧ (0 < (d.meter 0 0).bal ↔ x.1 = 1) ∧
       d.mayBorrow 0 = x.2) ∧
    ((metering 0 false).asksAt 0 = [⟨0, 0, 5, 0, .op 0 0⟩] ∧ ((metering 0 false).meter 0 0).bal = 0 ∧ (metering 0 false).mayBorrow 0 = false) := by
  decide +kernel

theorem witness_FramesShareOutAndMetersCharge :
    ({ up with frames := { up.frames with num := 1, start := 5000 } }.frames.start = up.now ∧ up.frames.num = 0) ∧
    (up.health.stopped = false ∧ (0x10000 : W32).toNat % 65536 = 0 ∧ (0x10001 : W32).toNat % 65536 ≠ 0 ∧ (0x10001 : W32).toNat / 65536 ≠ 0 ∧
      3 < (0x40 : W32).toNat / 16 % 16 ∧ 5 < (6 : W32).toNat % 16 ∧ (0x35 : W32).toNat / 16 % 16 ≤ 3 ∧ (0x35 : W32).toNat % 16 ≤ 5) := by
  decide +kernel

/-- Claim 0 in a PSTATE; and a context of 4,096 bytes for it at 0, with its CRC. -/
def paused (x : ClaimP) : Dev := { up with claims := [(0, { upClaim with pstate := x, ctxArea := 65536 })] }
def contextHead (crc : Nat) : List Byte :=
  toLe 2 0x4358 ++ [1, 0, 0, 0, 0, 0] ++ toLe 8 0 ++ List.replicate 44 0 ++ toLe 4 0 ++ toLe 8 4096 ++ toLe 8 crc

theorem witness_ClaimsArePreemptedAndRestored :
    (up.health.stopped = false ∧ up.isRunning (.claim 0) = true ∧ (up.claim 0).cmdBusy = false ∧ (up.claim 0).pstate = .active ∧
      up.areaBad 0 false = true ∧
      ({ up with claims := [(0, { upClaim with ctxArea := 1048576 })] }).areaBad 0 false = false) ∧
    (((paused .preempting).claim 0).pstate = .preempting ∧ (paused .preempting).openOps 0 = [] ∧ (paused .preempting).allStopped 0 = true ∧
      ((paused .preempting).claim 0).leaving = false ∧ (paused .preempting).isRunning (.claim 0) = true) ∧
    (let d := { withOp (paused .preempting) (desc [(0, 0x22)]) with now := 2 ^ 40 }
     (d.claim 0).pstate = .preempting ∧ d.past (d.claim 0).preTick (d.claim 0).preTo.toNat = true ∧ d.allStopped 0 = false ∧
       (d.claim 0).leaving = false ∧ d.isRunning (.claim 0) = true) ∧
    ((paused .active).claim 0).pstate ≠ .preempting ∧
    (((paused .preempted).claim 0).pstate = .preempted ∧ ((paused .preempted).claim 0).cmdBusy = false ∧
      (paused .preempted).health.stopped = false ∧ (paused .preempted).isRunning (.claim 0) = true ∧
      ∀ restart, (paused .preempted).restoreCheck [] 0 restart = .error 0x0311) := by decide +kernel

/-- The 88 bytes before the zeros of that context: eight bytes after the header bring the CRC back to 0, where zeros keep it. -/
def contextFront : List Byte := contextHead 0 ++ [17, 129, 70, 250, 131, 1, 69, 85]
def contextMem : Memory := Memory.applyAll [] ((paused .preempted).writeDev 0 contextFront)

/-- One byte of the CRC, and the register after each eight bytes of the front. -/
def crcByte (c : BitVec 64) (b : Byte) : BitVec 64 :=
  (List.range 8).foldl (fun c _ => if c.getLsbD 63 then (c <<< 1) ^^^ 0x42F0E1EBA9EA3693#64 else c <<< 1) (c ^^^ (BitVec.ofNat 64 (b.toNat * 2 ^ 56)))
def crcAfter : List Nat := 
  [0, 15583238333961929529, 13681873802702532875, 9711255531884012753, 2010409265532721418, 7586241134290075091, 5817126096439989749,
   13297282589520353750, 1779516957061589685, 9803937567932059182, 1261367412394116437, 0]

theorem crc64_chunks (l : List Byte) (n : Nat) (s : Nat → BitVec 64) (h0 : s 0 = 0)
    (h : ∀ k < n, ((l.drop (8 * k)).take 8).foldl crcByte (s k) = s (k + 1)) : (l.take (8 * n)).foldl crcByte 0 = s n := by
  induction n with
  | zero => simp [h0]
  | succ n ih =>
    rw [show 8 * (n + 1) = 8 * n + 8 from rfl, List.take_add, List.foldl_append, ih (fun k hk => h k (by omega)), h n (by omega)]

theorem crc64_zeros (l : List Byte) (n : Nat) (h : crc64 l = 0) : crc64 (l ++ List.replicate n 0) = 0 := by
  induction n with
  | zero => simpa using h
  | succ n ih =>
    rw [List.replicate_succ', ← List.append_assoc]
    unfold crc64 at ih ⊢
    simp only [List.foldl_append, List.foldl_cons, List.foldl_nil] at ih ⊢
    have h0 := BitVec.eq_of_toNat_eq (x := _) (y := (0 : BitVec 64)) ih
    rw [h0]
    decide

theorem readDev_add (d : Dev) (m : Memory) (a n k : Nat) : d.readDev m a (n + k) = d.readDev m a n ++ d.readDev m (a + n) k := by
  simp [Dev.readDev, List.range_add, Function.comp_def, Nat.add_assoc]

theorem readDev_zeros (d : Dev) (m : Memory) (a w q : Nat) (h : ∀ j < q, d.readDev m (a + w * j) w = List.replicate w 0) :
    d.readDev m a (w * q) = List.replicate (w * q) 0 := by
  induction q with
  | zero => simp [Dev.readDev]
  | succ q ih => rw [Nat.mul_succ, readDev_add, ih (fun j hj => h j (by omega)), h q (by omega), List.replicate_append_replicate]

theorem witness_ClaimsArePreemptedAndRestored_ok : (paused .preempted).restoreCheck contextMem 0 false = .ok 0 := by
  have hf : (paused .preempted).readDev contextMem 0 88 = contextFront := by decide +kernel
  have hz := readDev_zeros (paused .preempted) contextMem 88 24 167 (by decide +kernel)
  have h : (paused .preempted).readDev contextMem 0 4096 = contextFront ++ List.replicate 4008 0 := by
    rw [show 4096 = 88 + 24 * 167 from rfl, readDev_add, hf, hz]
  have h72 : contextFront.take 72 ++ List.replicate 8 0 ++ contextFront.drop 80 = contextFront := by decide +kernel
  have h' : (contextFront ++ List.replicate 4008 0).take 72 ++ List.replicate 8 0 ++ (contextFront ++ List.replicate 4008 0).drop 80 =
      contextFront ++ List.replicate 4008 0 := by
    rw [List.take_append_of_le_length (by decide), List.drop_append_of_le_length (by decide), ← List.append_assoc, h72]
  have hr := crc64_chunks contextFront 11 (fun k => BitVec.ofNat 64 (nth crcAfter k 0)) (by decide +kernel) (by decide +kernel)
  have hc := crc64_zeros contextFront 4008 (by
    rw [List.take_of_length_le (by decide)] at hr
    exact congrArg BitVec.toNat hr)
  have ha : ((paused .preempted).claim 0).ctxAddr.toNat = 0 := by decide +kernel
  have hl : fieldAt ((paused .preempted).readDev contextMem 0 80) 64 8 = 4096 := by decide +kernel
  unfold Dev.restoreCheck
  simp only [ha, hl, h, h', hc]
  decide +kernel
/-! ## Witnesses, chapters 12 and 13 -/

/-- Training with lanes, after a delay, by the module of a coordinate. -/
def trained (lanes : BitVec 4) (delay : Nat) (phys : BitVec 20) : TrainResult :=
  { lanes := lanes, delay := delay, domain := 0, phys := phys, port := 0, duplicate := false }

/-- A plain flit, and port 0 with flits in flight. -/
def flit : Flit :=
  { crcOk := true, seq := 0, head := true, tail := true, replay := false, retried := false, abort := false, vc := 0, level := false,
    credit := none, ack := none, data := [] }
def packetTo (dst cls user tag : Nat) (data : List Byte) : Packet := wired.packet (.bound cls user tag dst dst) data
def inFlight (n : Nat) : Port := { upPort with flights := [⟨4, packetTo 1 0 2 1 [], 0, true, n⟩, ⟨5, packetTo 1 0 2 1 [], 0, true, n⟩] }

theorem witness_LinksTrainRetryAndGoDown :
    up.isRunning (.port 0) = true ∧ (up.port 0).up = true ∧ { upPort with link := .training }.link = .training ∧
    (∀ l ∈ [LinkState.down, .training, .miswired], { upPort with link := l }.link = l) ∧
    (let d := { up with now := 2 ^ 40 }
     d.past upPort.trainTick 1000000 = true ∧ d.past upPort.trainTick 1000 = true ∧ d.past (inFlight 0).ackTick (inFlight 0).cfg.linkTo.toNat = true) ∧
    (popCount 4 ((trained 0x6 600 1).lanes &&& Port.reset.cfg.mask).toNat < 3 ∧
      popCount 4 ((trained 0x7 600 1).lanes &&& Port.reset.cfg.mask).toNat = 3 ∧ wired.wired 0 (trained 0xF 600 2) = false ∧
      wired.wired 0 (trained 0xF 600 1) = true ∧ 600 < (trained 0xF 601 1).delay) ∧
    ((inFlight 0).up = true ∧ (inFlight 0).flights.any (fun f => f.seq == 5) = true ∧
      (inFlight 8).flights.any (fun f => Nat.ble (inFlight 8).cfg.retryLimit.toNat f.replays) = true ∧ (inFlight 0).flights ≠ [] ∧
      (inFlight 0).cfg.degrade = 0 ∧ (inFlight 0).link = .up4) ∧
    { upPort with loop := some 0 }.loop.isSome = true := by decide +kernel

/-- Bytes with a bad CRC; and the bytes of a flit, expected or out of order. -/
theorem witness_LinksTrainRetryAndGoDown_flits :
    (up.port 0).up = true ∧ (flitOf (List.replicate 252 0 ++ toLe 4 (crc32 (List.replicate 252 0) + 1))).crcOk = false ∧
    (∀ q ∈ [(0 : BitVec 12), 1], (flitOf { flit with seq := q }.bytes).crcOk = true ∧ (flitOf { flit with seq := q }.bytes).vc ≠ 7 ∧
      (flitOf { flit with seq := q }.bytes).seq = q) ∧ (up.port 0).rxSeq = 0 := by
  refine ⟨by decide +kernel, ?_, fun q hq => ⟨Flit.crcOk_bytes _ (by simp [flit]), ?_⟩, by decide +kernel⟩
  · rw [flitOf_crcOk _ _ List.length_replicate]; have := crc32_lt (List.replicate 252 0); simp only [beq_eq_false_iff_ne]; omega
  · have : ∀ q ∈ [(0 : BitVec 12), 1], (flitOf { flit with seq := q }.bytes).vc ≠ 7 ∧ (flitOf { flit with seq := q }.bytes).seq = q := by decide +kernel
    exact this q hq

/-- A notice that a packet of remote op 5 was discarded at port 9, and the part that runs that op. -/
def lostPacket : Packet := packetTo 1 0 2 1 ([1, 0, 0, 0] ++ toLe 4 7 ++ toLe 6 0 ++ toLe 2 5)
def notice : Packet := packetTo 0 4 5 0 (toLe 16 (9 * 65536) ++ toLe 32 lostPacket.hdr.toNat ++ lostPacket.payload)
def remOp (kind : Nat) : RemOp :=
  { id := 5, ring := 0, count := 0, kind := kind, place := 65536, off := 0, len := 64, key := 7, log := 1, phys := 1, xsite := false,
    droppable := false, fence := false, aop := 0, fetch := false, value := 0, compare := 0, tag := 1, sent := 1, waits := [0], lastSent := 0,
    lastHeard := 0 }
def withRem (o : RemOp) : Dev :=
  let d := withOp wired (desc [(0, 0x3F + o.kind)])
  { d with xbar := { d.xbar with rem := [o] } }

theorem witness_PacketsAreRoutedCheckedAndDelivered_forward :
    (wired.power.hubOn = true ∧ (wired.port 0).up = true ∧ (wired.port 0).site = false) ∧
    (let k := packetTo 0 0 2 1 []
     k.mcast = false ∧ k.dst = wired.self ∧ k.xsite = false ∧ k.de = false) ∧
    (let k := packetTo 1 0 2 1 []
     k.dst ≠ wired.self ∧ k.detoured = false ∧ 8 ≤ (k.put 224 4 8).hops ∧ (k.put 224 4 7).hops < 8 ∧ k.xsite = false ∧ k.de = false ∧
       boltOf k.dst = boltOf wired.self ∧ colOf k.dst ≠ colOf wired.self ∧ warpPort (colOf wired.self) (colOf k.dst) = 0) := by decide +kernel

theorem witness_PacketsAreRoutedCheckedAndDelivered_ingress :
    (let k := packetTo 0 0 2 1 []
     { k with abort := true }.abort = true ∧ k.abort = false ∧ k.bad = false ∧ (packetTo 0 0 7 1 []).bad = true ∧ k.mcast = false ∧
       (packetTo 1 0 2 1 []).dst ≠ wired.self ∧ k.dst = wired.self ∧ k.dlog = wired.routing.log.toNat ∧ k.xsite = false ∧
       wired.tagRevoked k.tag = false ∧ wired.tagRevoked (packetTo 0 0 2 9 []).tag = true) ∧
    (let d := withRem (remOp 1)
     notice.isNotice = true ∧ notice.dst = d.self ∧ d.origin (discardedPacket notice) = some (0, 0) ∧ (discardedPacket notice).user = 2 ∧
       d.remOp 0 0 = some (remOp 1) ∧ (d.entry 0 0).isSome = true ∧ (ent (desc [(0, 0x40)])).phase = .started ∧
       classOf (ent (desc [(0, 0x40)])).res.status < 3) := by decide +kernel

/-- Region 0 over object 1 with key 7, open to tag 1 for reads, writes and atomics. -/
def region : BitVec 256 := BitVec.ofNat 256 (7 + 1 * 2 ^ 32 + 15 * 2 ^ 60 - 2 ^ 63 + 2 ^ 63 + 65536 * 2 ^ 128 + 1 * 2 ^ 192)

theorem witness_RoutingAndCrossbarRegistersTakeTheirValues :
    up.health.stopped = false ∧ (9 * 65536 : W32).toNat / 65536 = 9 ∧ (8 * 65536 : W32).toNat / 65536 < 9 ∧ (3 : W32).toNat % 4 = 3 ∧
    { up.store with planes := 1 }.planes.getLsbD 0 = true ∧ up.store.planes.getLsbD 1 = false ∧
    (up.rgnReason 0 region = 0 ∧ rgnValid region = true ∧ up.rgnReason 0 (BitVec.ofNat 256 (2 ^ 63)) = 0x20F4) ∧
    (up.xbar.planeMode = 0 ∧ up.store.planes = 0 ∧ up.power.hubOn = true) ∧
    (let k := (packetTo 1 1 2 1 []).put 1 1 1
     k.de = true ∧ (up.port 0).deDepth + k.flits ≤ 128 ∧
       Int.tdiv ((0 : Int) * 16 - 0) 16 < (((Tbl.lookD up.xbar.red k.colour (redReset k.colour)).toNat / 256 % 256 : Nat) : Int) * 16 ∧
       (((Tbl.lookD up.xbar.red k.colour (redReset k.colour)).toNat / 65536 % 256 : Nat) : Int) * 16 ≤
         4000 + Int.tdiv ((4000 : Int) * 16 - 4000) 16) := by decide +kernel

/-- A PUT and a GET of 64 bytes, and an atomic add, to member 1. -/
def remoteDesc (opc : Nat) : BitVec 512 :=
  desc ([(0, opc), (16, 65536), (32, 7), (36, 1)] ++ if opc = 0x42 then [(40, 0x01)] else [(44, 64)])

theorem witness_RemoteOpsSendTheirChunksAndEnd :
    (∀ x ∈ [(0x40, 1), (0x41, 2), (0x42, 4)], let d := (withEnts wired [paidFor (remoteDesc x.1)]).sweepRem
     let e := paidFor (remoteDesc x.1)
     d.op 0 0 x.1 = some e ∧ d.remOp 0 0 = none ∧ okAnd (d.remChecks 0 e) (fun p =>
       let ins := if x.2 = 1 then [span 16 p.place p.len] else []
       let outs := if x.2 = 2 then [span 16 p.place p.len] else []
       !d.mustWait e ins outs && e.admitted (d.deepNeeds (ins.map Grid.range) (outs.map Grid.range))) = true ∧
       d.freeOpid = some 0) ∧
    (∀ k ∈ [1, 2, 4], (withRem (remOp k)).remById 5 = some (remOp k) ∧ (remOp k).waits ≠ [] ∧ (remOp k).droppable = false ∧
      (withRem (remOp k)).entry 0 0 = some (ent (desc [(0, 0x3F + k)]))) ∧
    (∀ k ∈ [1, 2, 4], ∀ q ∈ [true, false], let o := { remOp k with droppable := q }
     let d := { withRem o with now := 2 ^ 50 }
     d.remById 5 = some o ∧ d.entry o.ring o.count = some (ent (desc [(0, 0x3F + k)])) ∧ o.sent = o.chunks ∧
       d.past o.lastSent d.xbar.deTo.toNat = true ∧ d.past o.lastHeard (1000 * d.xbar.remTo.toNat) = true ∧
       classOf (ent (desc [(0, 0x3F + k)])).res.status < 3) := by decide +kernel

/-- A remote-memory packet of member 1 with key 7, offset 0 and OPID 5. -/
def remPacket (kind : Nat) (data : List Byte) : Packet :=
  peer.packet (.bound 0 2 1 0 0) ([BitVec.ofNat 8 kind, 0, if kind = 4 then 1 else 0, 0] ++ toLe 4 7 ++ toLe 6 0 ++ toLe 2 5 ++ data)
def served : Dev := { wired with xbar := { wired.xbar with regions := [(0, region)] } }

theorem witness_RemotePacketsAreServedAndAnswered :
    ((remPacket 9 []).user = 2 ∧ (remPacket 9 []).remOk = false) ∧
    (∀ x ∈ [(1, 64), (2, 0), (4, 16)], let k := remPacket x.1 (List.replicate x.2 0)
     k.remOk = true ∧ k.rkind = x.1 ∧
       okAnd (served.serveCheck k (if x.1 = 1 then rgnWrite else if x.1 = 2 then rgnRead else rgnAtomic) 64) (fun p => p.1 == 0) = true ∧
       okAnd (wired.serveCheck k rgnRead 64) (fun _ => true) = false) ∧
    (∀ x ∈ [(6, 1), (3, 2), (5, 4), (7, 1)], let k := remPacket x.1 (List.replicate 64 0)
     let d := withRem (remOp x.2)
     k.rkind = x.1 ∧ d.remById k.opid = some (remOp x.2) ∧ d.entry 0 0 = some (ent (desc [(0, 0x3F + x.2)])) ∧ k.retried = false ∧
       k.retrySeen = false ∧ (k.roff - (remOp x.2).off) / 1536 ∈ (remOp x.2).waits ∧ (remOp x.2).kind = x.2 ∧
       (remOp x.2).waits.filter (· != 0) = [] ∧ (remOp x.2).sent = (remOp x.2).chunks ∧ classOf (ent (desc [(0, 0x3F + x.2)])).res.status < 3) := by
  decide +kernel
/-! ## Witnesses, chapters 14 and 15 -/

/-- A group of one, and one of the members 0 and 1, on slot 2 for claim 0; and an op of COLL on it. -/
def groupEntry (cols : Nat) : BitVec 128 := BitVec.ofNat 128 (9 + 2 ^ 31 + 1 * 2 ^ 64 + cols * 2 ^ 80)
def group (cols : Nat) : Group := { entry := groupEntry cols, seq := 0, op := none, abortNext := false, windowNext := [], arriveNext := [] }
def collOp (opc : Nat) : BitVec 512 := desc [(0, opc), (16, 65536), (24, 131072), (32, 4), (36, 2), (38, 6), (39, 6)]
def withGroup (d : Dev) (g : Group) (opc : Nat) : Dev := { withOp d (collOp opc) with coll := { d.coll with groups := [(2, g)] } }

/-- The same op once it has started, with the first segment admitted; and the run of it. -/
def collNow : CollOp := { CollOp.fresh 0 0 1 0 4000 with admitted := true }
def running (d : Dev) (o : CollOp) (opc : Nat) : Dev := withGroup d { group 3 with seq := 5, op := some o } opc
def collX (o : CollOp) (opc : Nat) : CollRun := ⟨2, { group 3 with seq := 5, op := some o }, o, ent (collOp opc)⟩

/-- A collective packet from member `src` with a number after the op's, of 4 elements of format 1. -/
def collPacket (src : Dev) (kind seq fmts : Nat) (data : List Byte) : Packet :=
  src.packet (.bound 2 3 1 0 0) ([BitVec.ofNat 8 kind, 0x30] ++ toLe 2 9 ++ toLe 2 seq ++ [0, BitVec.ofNat 8 fmts] ++ toLe 4 4 ++ toLe 4 0 ++
    toLe 2 0 ++ toLe 2 4 ++ toLe 4 1 ++ toLe 8 0 ++ data)

def gated (x : CollGate) : Nat := match x with | .drop => 0 | .stale => 1 | .abort s c => 16 + s * 256 + c | .now x => 2 + x.slot * 256 | .next s _ => 3 + s * 256

theorem witness_CollectiveOpsTakeTheirSlotAndLandInDst :
    (∀ opc ∈ [0x50, 0x51, 0x52, 0x53], let d := withGroup wired (group 1) opc
     let e := ent (collOp opc)
     d.op 0 0 opc = some e ∧ d.collGroup 0 e = some (group 1) ∧ (group 1).op = none ∧ okAnd (d.collChecks 0 e (group 1)) (fun t => t == 1) = true ∧
       (group 1).isMember d.self = true ∧
       (∀ q ∈ (group 1).children d.self ++ ((group 1).parent d.self).toList ++ (List.range (group 1).members).map (group 1).at,
         d.named q = true) ∧ d.collReads e (group 1) = true ∧
       (let ins := [span 16 (d.cAddr 0 e 16) (cCount e * packBytes (cIfmt e))]
        let out := span 24 (d.cAddr 0 e 24) (cDst e (group 1).members * packBytes (cOut e).fmt)
        d.mustWait e ins [out] = false ∧ e.admitted (d.deepNeeds (ins.map Grid.range) [out.range]) = true) ∧
       d.frames.asks = [] ∧ (group 1).claim < 32 ∧ (group 1).abortNext = false ∧ (group 1).windowNext = [] ∧
       (group 1).children d.self = [] ∧ (group 1).parent d.self = none ∧ cEmpty e = false ∧ cCount e = 4 ∧ cCount e ≤ wireFit (cDownWire e) 2016 ∧
       cCount e ≤ wireFit (cWire e) 2016 ∧ d.mayBorrow (group 1).claim = true ∧ (group 1).lineRoot d.self (fld e.desc 40 1) = some d.self) ∧
    (let d := withGroup up (group 1) 0x50
     d.op 0 0 0x50 = some (ent (collOp 0x50)) ∧ okAnd (d.collChecks 0 (ent (collOp 0x50)) (group 1)) (fun _ => true) = false) ∧
    (∀ g ∈ [group 1, group 3], let d := withGroup wired g 0x54
     let e := ent (collOp 0x54)
     d.op 0 0 0x54 = some e ∧ d.collGroup 0 e = some g ∧ d.isRunning .coll = true ∧ d.isRunning .time = true ∧
       d.sendTag (d.claimOf 0) = some 1) ∧
    (∀ opc ∈ [0x50, 0x51, 0x52, 0x53, 0x54], let d := withGroup wired (group 3) opc
     d.op 0 0 opc = some (ent (collOp opc)) ∧ d.collGroup 0 (ent (collOp opc)) = some (group 3) ∧
       (∀ q ∈ (group 3).children d.self ++ ((group 3).parent d.self).toList ++ (List.range (group 3).members).map (group 3).at,
         d.named q = true)) ∧
    (group 1).children wired.self = [] ∧ (group 3).children wired.self = [1] ∧ (group 3).parent peer.self = some 0 := by decide +kernel

theorem witness_CollectivePacketsLandAndAbortsEnd_gates :
    (let d := running wired collNow 0x50
     gated (d.collGate (packetTo 0 2 2 1 [])) = 0 ∧ gated (d.collGate (collPacket peer 1 9 0x66 [])) = 1 ∧
       gated (d.collGate (collPacket peer 1 5 0x55 [])) = 16 + 2 * 256 + 2 ∧ d.collRun 2 = some (collX collNow 0x50) ∧
       gated (d.collGate (collPacket peer 3 6 0x66 [])) = 3 + 2 * 256 ∧ gated (d.collGate (collPacket peer 5 6 0x66 [])) = 3 + 2 * 256) := by
  decide +kernel

theorem witness_CollectivePacketsLandAndAbortsEnd_up :
    (∀ opc ∈ [0x50, 0x51], let d := running wired collNow opc
     let k := collPacket peer 1 5 0x66 (List.replicate 12 0)
     let x := collX { collNow with present := [] } opc
     gated (d.collGate k) = 2 + 2 * 256 ∧ d.collRun 2 = some x ∧ k.retried = false ∧ collKind k = 1 ∧ (collHead k).seg = x.o.seg ∧ (collHead k).wire = 1 ∧
       x.o.sentUp = 0 ∧ x.o.seg < cSegments x.e) ∧
    (let g := group 7
     let x : CollRun := ⟨2, { g with seq := 5, op := some collNow }, collNow, ent (collOp 0x50)⟩
     2 ∈ x.g.children wired.self ∧ 1 ∈ x.g.children wired.self ∧ 2 ∉ x.o.present ∧ Tbl.lookD x.o.land 2 [] = [] ∧
       gated ((withGroup wired x.g 0x50).collGate (collPacket peer 1 5 0x66 (List.replicate 12 0))) = 2 + 2 * 256 ∧
       (withGroup wired x.g 0x50).collRun 2 = some x) := by decide +kernel

theorem witness_CollectivePacketsLandAndAbortsEnd_others :
    (let d := running peer collNow 0x50
     gated (d.collGate (collPacket wired 2 5 0x66 (List.replicate 12 0))) = 2 + 2 * 256 ∧ collKind (collPacket wired 2 5 0x66 []) = 2 ∧
       gated (d.collGate (collPacket wired 3 5 0x66 [])) = 2 + 2 * 256 ∧ gated (d.collGate (collPacket wired 5 5 0x66 [])) = 2 + 2 * 256) ∧
    (let d := running wired collNow 0x50
     gated (d.collGate (collPacket peer 4 5 0x66 [])) = 2 + 2 * 256 ∧ (collPacket peer 4 5 0x66 []).retried = false) ∧
    (running wired collNow 0x54).collRun 2 = some (collX collNow 0x54) := by decide +kernel

/-- The op holds no packet, every member is named, and long after it last heard it is past its group's limit. -/
theorem witness_CollectivePacketsLandAndAbortsEnd_named :
    (∀ d ∈ [wired, peer], ∀ g ∈ [group 3, group 7], collNow.held = [] ∧
      ∀ q ∈ g.children d.self ++ (g.parent d.self).toList ++ (List.range g.members).map g.at, d.named q = true) ∧
    (∀ opc ∈ [0x50, 0x54], let d := { running wired collNow opc with now := 2 ^ 50 }
     let x := collX collNow opc
     d.collRun 2 = some x ∧ d.past x.o.heard x.g.limit = true) := by decide +kernel

def withStaged (n : BitVec 128) (l : List (Nat × Group)) : Dev := { wired with coll := { wired.coll with sel := 2, data := n, groups := l } }

theorem witness_GroupsAreDefinedReleasedAndRead :
    wired.health.stopped = false ∧
    ((withStaged (groupEntry 1) []).grpReason 2 (groupEntry 1) = 0x23F3 ∧
      (withStaged (groupEntry 1 ||| BitVec.ofNat 128 (2 ^ 96)) []).grpReason 2 (groupEntry 1 ||| BitVec.ofNat 128 (2 ^ 96)) = 0 ∧
      (withStaged (groupEntry 1 ||| BitVec.ofNat 128 (2 ^ 96)) [(2, group 1)]).grpReason 2 (groupEntry 1 ||| BitVec.ofNat 128 (2 ^ 96)) = 0x2301) ∧
    (withStaged 0 []).isRunning .coll = true ∧ (withStaged 0 []).group 2 = none ∧ Dev.reset.isRunning .coll = false ∧
    (withStaged 0 [(2, group 1)]).group 2 ≠ none ∧ (withStaged 0 [(2, group 1)]).slotBusy 2 = false ∧
    (running wired collNow 0x50).slotBusy 2 = true := by decide +kernel

/-! ### Chapter 15 -/

/-- The part with no claim RUNNING, and with its time block in a role and alignment state. -/
def quiet (d : Dev) : Dev := { d with blocks := d.blocks.filter (fun b => b.1 != blockKey (claimBlock 0)) }
def aligned (d : Dev) (role : BitVec 2) (a : Align) : Dev := { d with time := { d.time with role := role, align := a } }

theorem witness_TimebasesAlignStepAndSync :
    { wired.time with refBad := true }.refBad = true ∧ wired.isRunning .time = true ∧ wired.health.stopped = false ∧
    (∀ a ∈ [Align.acquire, .locked, .holdover], (aligned wired 2 a).upstream = true ∧ (aligned wired 2 a).time.align ≠ .free ∧
      (aligned wired 2 a).time.role ≠ 0 ∧ ((aligned wired 2 a).port 0).site = false) ∧
    (theta2 0 30 0 0 = 30 ∧ theta2 30 0 0 0 = -30 ∧ theta2 0 4000 0 0 = 4000 ∧ theta2 4000 0 0 0 = -4000 ∧ wired.time.stepNs = 1000) ∧
    (wired.anyClaimRuns = true ∧ (quiet wired).anyClaimRuns = false ∧ { wired.time with role := 1, syncArm := true }.syncArm = true ∧
      { wired.time with syncDue := true }.syncDue = true) ∧
    (wired.reproReason true false = 0x2420 ∧ (quiet wired).reproReason true false = 0 ∧ (quiet wired).reproReason false true = 0x2421) ∧
    (1300 ≤ (1300 * 65536 + 1000 : W32).toNat / 65536 % 4096 ∧ 1000 ≤ (1300 * 65536 + 1000 : W32).toNat % 65536 ∧
      ¬ 1300 ≤ (1299 * 65536 + 1000 : W32).toNat / 65536 % 4096 ∧ ¬ 1000 ≤ (1300 * 65536 + 999 : W32).toNat % 65536) := by decide +kernel

theorem witness_BarriersGatherAndReleaseTheirMembers :
    wired.slotOf 9 = none ∧
    ((withGroup wired (group 3) 0x54).slotOf 9 = some (2, group 3) ∧ ((group 3).children wired.self).contains 1 = true ∧ (group 3).seq + 1 = 1) ∧
    (let x := collX collNow 0x54
     (running wired collNow 0x54).slotOf 9 = some (x.slot, x.g) ∧ (running wired collNow 0x54).barrier x.slot = some x ∧ x.g.seq = 5 ∧
       x.o.presentSent = false ∧ x.o.release = none ∧ (x.g.children wired.self).contains 1 = true ∧
       (running peer collNow 0x54).slotOf 9 = some (x.slot, x.g) ∧ (running peer collNow 0x54).barrier x.slot = some x ∧
       x.g.parent peer.self = some 0) ∧
    (let o := { collNow with release := some 5000 }
     (running wired o 0x54).barrier 2 = some (collX o 0x54) ∧ o.scheduled = false ∧ reached wired.phys 5000 = true ∧
       reached wired.phys 5001 = false ∧ { o with scheduled := true }.scheduled = true ∧ reached wired.now 5000 = true) := by decide +kernel

/-- Tag 1 in a state, for claim 0 in a job of group 9; the part with that tag, a group on slot 2, and no packet or op of the tag. -/
def tagIn (x : TagState) : Tag := { st := x, claim := 0, attempt := 3, gid := 9, go := none, since := 0, seen := 0 }
def tagged (l : List (Nat × Tag)) (g : Group) : Dev :=
  { wired with
    time := { wired.time with align := .locked, tags := l, tagSel := 1, tagSelClaim := 0 }, coll := { wired.coll with groups := [(2, g)] } }

theorem witness_TagsMoveThroughTheirStates :
    (let d := tagged [] (group 3)
     d.health.stopped = false ∧ d.isRunning .time = true ∧ d.time.tagSel.toNat = 1 ∧ d.tag 1 = none ∧ d.currentTag 0 = none ∧
       d.isRunning (claimBlock 0) = true ∧ { d.time with tagSel := 0 }.tagSel.toNat = 0) ∧
    (∀ x ∈ [TagState.assigned, .starting, .active, .draining], (tagged [(1, tagIn x)] (group 3)).tag 1 = some (tagIn x)) ∧
    (let d := tagged [(2, tagIn .active)] (group 3)
     d.tag 1 = none ∧ d.currentTag 0 ≠ none) ∧
    (let d := tagged [(1, { tagIn .starting with go := some 5000 })] (group 3)
     d.tag 1 = some { tagIn .starting with go := some 5000 } ∧ reached d.now 5000 = true) ∧
    (let d := tagged [(1, tagIn .draining)] (group 3)
     d.tagInUse 1 = false ∧ d.tagExchanges 1 = false ∧ d.job 1 true = none ∧ { d with now := 2 ^ 40 }.past 0 d.time.tagQuiet.toNat = true ∧
       2000 * d.time.startTo.toNat ≤ elapsed { d with now := 2 ^ 40 }.phys (tagIn .starting).since) ∧
    (tagged [(1, tagIn .starting)] (group 3)).slotOf 9 = some (2, group 3) ∧ (tagIn .starting).go = none := by decide +kernel

/-- A job of tag 1, and the part that runs it. -/
def jobOf (root teardown : Bool) (heard : List (BitVec 20)) : Job :=
  { root := root, tag := 1, gid := 9, teardown := teardown, attempt := 3, heard := heard, accepted := 1, refused := none, missing := none, since := 0 }
def jobbing (d : Dev) (j : Job) : Dev := { d with time := { d.time with jobs := [j] } }
def asPeer (d : Dev) : Dev := { d with routing := peer.routing }

theorem witness_JobsStartWhenEveryMemberAccepts_start :
    (∀ g ∈ [group 1, group 3], let d := tagged [(1, tagIn .assigned)] g
     d.slotOf g.gid = some (2, g) ∧ d.health.stopped = false ∧ d.jobReason 2 = 0 ∧ d.group 2 = some g ∧ (d.acceptJob 1 9 1).2 = 0 ∧
       d.jobReason 3 = 0x2415 ∧ (g.members = 1 ∨ g.members = 2)) ∧
    ((tagged [] (group 3)).acceptJob 1 9 1).2 = 2 ∧ (group 1).members = 1 ∧ (group 3).members = 2 := by decide +kernel

theorem witness_JobsStartWhenEveryMemberAccepts_answers :
    ((group 3).jobChildren peer.self = [] ∧ (group 3).jobChildren wired.self = [1] ∧
      ((asPeer (tagged [(1, tagIn .assigned)] (group 3))).acceptJob 1 9 0).2 = 0) ∧
    (∀ root ∈ [true, false], let d := jobbing (tagged [(1, tagIn .starting)] (group 3)) (jobOf root false [])
     d.slotOf (group 3).gid = some (2, group 3) ∧ d.job 1 false = some (jobOf root false []) ∧ (jobOf root false []).gid = 9 ∧
       (1 : BitVec 20) ∉ (jobOf root false []).heard ∧ (jobOf root false []).missing = none) ∧
    (let d := { jobbing wired (jobOf true false []) with now := 2 ^ 40 }
     d.time.jobs.find? (fun q => q.root && !q.teardown && d.startPast q.since 2) = some (jobOf true false []) ∧ d.startPast 0 1 = true ∧
      (jobOf true false []).accepted + 1 = (group 3).members ∧ (jobOf true false []).accepted + 0 ≠ (group 3).members ∧
      (tagIn .starting).attempt = (jobOf true false []).attempt) := by decide +kernel

theorem witness_TeardownsDrainReportAndEnd :
    (∀ l ∈ [[], [(1, tagIn .active)], [(1, tagIn .assigned)]], let d := tagged l (group 3)
     d.slotOf (group 3).gid = some (2, group 3) ∧ (group 3).members ≠ 0 ∧ d.health.stopped = false ∧ d.jobReason 2 = 0 ∧
       d.group 2 = some (group 3) ∧ d.job 1 true = none) ∧
    (∀ root ∈ [true, false], let d := jobbing (tagged [(1, tagIn .draining)] (group 3)) (jobOf root true [])
     d.job 1 true = some (jobOf root true []) ∧ d.tag 1 = some (tagIn .draining) ∧ d.tagInUse 1 = false ∧ d.tagExchanges 1 = false ∧
       { d with now := 2 ^ 40 }.past (tagIn .draining).seen d.time.tagQuiet.toNat = true ∧
       (jobOf root true []).gid = BitVec.ofNat 16 (group 3).gid) ∧
    (let j := jobOf true true [0]
     let d := { jobbing (tagged [] (group 3)) j with now := 2 ^ 40 }
     d.job 1 true = some j ∧ (0 : BitVec 20) ∈ j.heard ∧ (1 : BitVec 20) ∉ j.heard ∧ j.heard.length + 1 = (group 3).members ∧
       d.time.jobs.find? (fun q => q.root && q.teardown && q.heard.contains (BitVec.ofNat 20 d.self) && d.startPast q.since 2) = some j) := by decide +kernel
/-! ## Witnesses, chapters 16 to 18 -/

/-- The part with one source pending, or in service, at a foreman core's unit; and with levels latched or not, and the hub low. -/
def unitOf (pend serving : List Nat) : EvtUnit :=
  { pend := BitVec.ofNat 128 ((pend.map (fun n => 2 ^ n)).sum), serving := if serving = [] then [] else [(0, serving)], cause := [] }
def asserted (pend serving : List Nat) : Dev := { up with evt := { up.evt with units := [(1, unitOf pend serving)] } }
def dozing (x : Doze) (hubLow : Bool) : Dev :=
  { up with
    power := { up.power with aonOn := true }, evt := { up.evt with hubLow := hubLow }
    dies := (List.range 4).map (fun n => (n, { upDie with doze := x })) }

theorem witness_EventsPendAreDeliveredAndServed :
    (sourceOk 1 11 = true ∧ up.level 1 2 true = true ∧ sourceOk 0 74 = true ∧ sourceOk 1 12 = false) ∧
    ((asserted [3] []).nextEvent 1 0 = some 3 ∧ (asserted [] []).nextEvent 1 0 = none ∧ (0 : Nat) ≠ 1) ∧
    (Tbl.lookD ((asserted [3] [3]).unit 1).serving 0 [] = [3] ∧ 3 < 128) ∧
    ((dozing .deep true).power.aonOn = true ∧ (0 : BitVec 64).getLsbD 0 = false ∧ (dozing .deep true).evt.hubLow = true ∧
      ((dozing .deep true).die 0).doze = .deep ∧ (0x20 : BitVec 64).getLsbD 5 = true ∧ up.evt.wakeMask.getLsbD 13 = true ∧
      up.evt.hubLow = false) := by decide +kernel

/-- A kernel of claim 0 in a state, on its core 0, whose issue port holds `n` undone descriptors. -/
def kernelOf (x : KState) : Kernel := { Kernel.reset with st := x }
def kernelled (x : KState) (tail : W32) : Dev :=
  { up with evt := { up.evt with krnSel := 0, kernels := [(0, kernelOf x)] }, rings := [(0, upRing), (1024, { upRing with cqTail := tail })] }

/-- A NOP, by the header of ring index 0. -/
def nop : BitVec 512 := desc [(0, 0)]

theorem witness_KernelsLoadStartStopAndIssue :
    up.health.stopped = false ∧ up.isRunning .event = true ∧ (match up.krnCheck [] 0 with | .error y => y == 0x2506 | .ok _ => false) = true ∧
    (∀ x ∈ [KState.loaded, .stopped, .running, .faulted], ((kernelled x 0).kernel 0).st = x ∧ (kernelled x 0).selKernel = 0) ∧
    (let d := kernelled .running 0
     d.krnClaim 0 = some 0 ∧ (d.ring 1024).claim.toNat = 0 ∧ (d.ring 1024).stopped = false ∧
       ((d.ring 1024).cqTail - (d.ring 1024).cqHeadLast).toNat < 64 ∧ (d.ring 1024).ents.length < 64 ∧ d.fetchFate 1024 0 nop = none ∧
       (d.ring 1024).finished = [] ∧ (d.ring 1024).headOk 0 = true ∧ (d.ring 1024).headOk 1 = false) ∧
    (let d := kernelled .running 64
     64 ≤ ((d.ring 1024).cqTail - (d.ring 1024).cqHeadLast).toNat ∧ d.krnClaim 0 = some 0) := by decide +kernel

/-- A kernel image of 64 bytes of code, VENDOR-signed, at device address 0: all but its signature is in order, and a key of the vendor
verifies a signature wherever the uninterpreted verification says so. -/
def krnMem : Memory :=
  Memory.applyAll [] (up.writeDev 0 ([0x4E, 0x4B, 1, 1] ++ toLe 4 64 ++ toLe 4 0 ++ toLe 4 0 ++ toLe 4 0))

theorem witness_KernelsLoadStartStopAndIssue_load :
    (readKHead (up.readDev krnMem 0 64)).ok = true ∧ (readKHead (up.readDev krnMem 0 64)).auth = 1 ∧ up.flatHolds 0 0 (128 + 1280) = true ∧
    up.isRunning (claimBlock 0) = true ∧ (up.claim 0).pstate = .active ∧ (up.kernel 0).st ≠ .running ∧ up.store.isolation.getLsbD 1 = false := by
  decide +kernel

theorem witness_vendor_signs (msg sig : List Byte) (h : Config.verifies ((List.range 1793).map Config.vendorRoot) msg sig = true) :
    up.signedBy .vendor msg sig = true := by
  have k : up.keysOf .vendor = [(List.range 1793).map Config.vendorRoot] := rfl
  rw [Dev.signedBy, k]
  simp [h]

/-- The part with no claim, and its dies in a doze state. -/
def idle (x : Doze) : Dev := { quiet (dozing x false) with claims := [], objects := [] }

theorem witness_DiesAndModuleDozeAndWake :
    (idle .run).health.stopped = false ∧ (idle .run).isRunning .event = true ∧
    (∀ q ∈ [1, 2], (idle .run).dozeCheck 0 q = none ∧ ((idle .run).die 0).doze ≠ (if q = 1 then .light else .deep)) ∧
    (∀ x ∈ [Doze.light, .deep], (85 : W32).toNat / 4 ^ 3 % 4 = 1 ∧ (0 : W32).toNat / 4 ^ 0 % 4 = 0 ∧ ((idle x).die 0).doze = x) ∧
    (idle .deep).evt.hubLow = false ∧ (List.range 4).all (fun n => ((idle .deep).die n).doze == .deep) = true ∧
    (List.range 32).all (fun c => !(idle .deep).isRunning (claimBlock c)) = true ∧
    ((idle (.entering true)).die 0).doze = .entering true ∧ ((idle (.entering false)).die 0).doze = .entering false ∧
    ((idle .waking).die 0).doze = .waking := by decide +kernel

/-! ### Chapter 17 -/

/-- The part with lane spares and core spares on die 0, or none, and a waiting or tested substitution. -/
def spared (lanes cores : List Nat) (hold : Bool) (held testing : List Subst) : Dev :=
  { up with
    dies := (0, { upDie with laneSpares := lanes, coreSpares := cores }) :: ((List.range 3).map (fun n => (n + 1, upDie)))
    health := { up.health with hold := hold, held := held, testing := testing } }
def substOf (core : Bool) (p : Option Nat) : Subst := { die := 0, core := core, logical := 0, spare := p }

theorem witness_SparesSubstituteFailedLanesAndCores_fails :
    (∀ l ∈ [[], [64, 65]], ∀ hold ∈ [true, false], let d := spared l l hold [] []
     let x := d.die 0
     x.on = true ∧ x.contained = false ∧ d.health.stopped = false ∧ d.health.hold = hold ∧ x.spares false = l ∧
       x.laneList.contains 0 = true ∧ x.laneLog.getLsbD (x.laneList.idxOf 0) = true ∧ d.lanesHeld 0 ≠ 0 ∧ d.killed d = [] ∧
       x.coreList.contains 0 = true ∧ x.coreLog.getLsbD (x.coreList.idxOf 0) = true ∧ d.coresHeld 0 ≠ 0 ∧
       d.ownerOf 0 true 0 = some 0 ∧ (d.kernel 0).st ≠ .running) := by decide +kernel

theorem witness_SparesSubstituteFailedLanesAndCores_ops :
    (let d := withOp (spared [64] [8] false [] []) (desc [(0, 0x10)])
     d.entry 0 0 = some (ent (desc [(0, 0x10)])) ∧ laneOpcode (hOpcode (ent (desc [(0, 0x10)])).desc) = true ∧
       d.ownerOf 0 false 0 = some (d.claimOf 0)) := by decide +kernel

theorem witness_SparesSubstituteFailedLanesAndCores_tests :
    (∀ core ∈ [true, false], ∀ l ∈ [[], [65]], let u := substOf core (some 8)
     let d := spared l l false [] [u]
     d.health.testing.find? (fun t => t.die == 0 && t.core == core) = some u ∧ u.spare = some 8 ∧ d.lanesHeld 0 ≠ 0 ∧ d.coresHeld 0 ≠ 0 ∧
       (d.die 0).spares core = l) ∧
    ((1 : W32).getLsbD 0 = true ∧ (0 : W32).getLsbD 0 = false ∧ up.health.held = [] ∧ up.health.testing = []) := by decide +kernel

theorem witness_FaultsContainDiesAndStopEngines :
    (up.power.hubOn = true ∧ (up.die 0).contained = false ∧ (up.die 0).on = true ∧ up.obj 1 = some upObj ∧ upObj.dies.getLsbD 0 = true ∧
      upObj.dies.getLsbD 1 = false ∧ up.isOff (claimBlock 0) = false ∧ Tbl.lookD (up.claim 0).lanes 0 (0 : Word) ≠ 0 ∧
      up.isRunning (.die 0) = true) ∧
    (∀ b ∈ [BlockId.xbar, .routing, .coll, .shuttle], isEngine b = true) ∧
    (elapsed up.phys 0 ≤ 1000000000 ∧ Tbl.look [(0x20, (0 : Tick))] 0x20 = some 0 ∧ Tbl.look up.health.engineFault 0x20 = none) ∧
    (up.tallyOwner 16 = none ∧ up.tallyOwner 15 = some 0 ∧ up.isRunning (claimBlock 0) = true) := by decide +kernel

/-- A telemetry record that nothing has taken, and the part with such a queue, with its host ring open; a staged image. -/
def trec (cls : Nat) : TRec :=
  { cls := cls, block := 0x26, count := 1, reg := 0, subject := 0, first := 0, last := 0, value := 0, reserved := false, hostDone := false,
    collDone := false }
def posting (cls : Nat) : Dev := { up with health := { up.health with queue := [trec cls], tqLog2 := 5 } }
def handing (image : Option (List Byte)) : Dev := { up with sec := { up.sec with staged := image } }

theorem witness_DeputiesHandOverAndTelemetryIsPosted :
    up.health.stopped = false ∧ (handing none).sec.staged = none ∧ (handing (some [])).sec.staged = some [] ∧ up.health.fwBusy = false ∧
    up.store.groups = 0 ∧ up.store.groups.getLsbD 0 = false ∧ { up.store with groups := 2 }.groups.getLsbD 1 = true ∧
    up.power.pstate = .running ∧ up.power.kolti = true ∧ (up.health.servingB = false ∧ true ≠ up.health.servingB) ∧
    ({ up.health with standbyOk := true }.standbyOk = true ∧ { up.health with standbyOk := false }.standbyOk = false) ∧
    ((posting 0).tqOpen = true ∧ ((posting 0).health.tqTail - (posting 0).health.tqHead).toNat < 2 ^ (posting 0).health.tqLog2.toNat ∧
      (posting 0).health.queue.find? (fun q => !q.hostDone) = some (trec 0)) ∧
    { up.health with tracePeriod := 1 }.tracePeriod ≠ 0 ∧
    ((up.health.tqTail - 0).toNat ≤ 2 ^ up.health.tqLog2.toNat ∧ ((0 : W32) - up.health.tqHead).toNat ≤ (up.health.tqTail - up.health.tqHead).toNat ∧
      ¬ ((1 : W32) - up.health.tqHead).toNat ≤ (up.health.tqTail - up.health.tqHead).toNat) := by decide +kernel

/-! ### Chapter 18 -/

/-- The part with the mailbox handed to management, aligned or not, its security block in a state, and its part powered to a PSTATE. -/
def served' (addr : Word) (x : BState) (p : PState) : Dev :=
  { up with
    mbx := { up.mbx with busy := true, rspAddr := addr }
    power := { up.power with pstate := p, mgmtOn := true }
    blocks := (0x27, blk x) :: up.blocks.filter (fun b => b.1 != 0x27) }

/-- A request's bytes: a header of a type with a body. -/
def request (type : Nat) (body : List Byte) : List Byte := toLe 2 type ++ toLe 2 0 ++ toLe 4 body.length ++ toLe 4 7 ++ toLe 4 0 ++ body

/-- A firmware image of no body, with a signature of zeros. -/
def image : List Byte := [0x4C, 0x4B, 1, 0] ++ toLe 4 3 ++ toLe 4 0 ++ List.replicate 52 0 ++ List.replicate 1280 0

theorem witness_MailboxMessagesAreServedAndAnswered :
    (∀ p ∈ [PState.running, .auxOnly], (served' 0 .running p).mailboxServed = true ∧ (served' 0 .running p).mbx.aligned = true ∧
      (served' 0 .running p).power.identityBad = false ∧ (served' 0 .running p).isRunning .security = true ∧
      (served' 0 .running p).power.pstate = p ∧ (served' 0 .running p).store.groups = 0) ∧
    ((served' 1 .running .running).mailboxServed = true ∧ (served' 1 .running .running).mbx.aligned = false) ∧
    ((served' 0 .off .running).mailboxServed = true ∧ (served' 0 .off .running).isRunning .security = false) ∧
    ((msgOf []).headerOk = false ∧ ({ msgOf (request 2 (List.replicate 36 0)) with type := 2 }).headerOk = true ∧
      ({ msgOf (request 3 (List.replicate 12 0)) with type := 3 }).headerOk = true) ∧
    (imageOk image 1344 = true ∧ imageOk [] 1344 = false ∧ BitVec.ofNat 32 (fieldAt image 4 4) = 3 ∧ up.store.minSecver = 0 ∧
      (3 : W32) < { up.store with minSecver := 4 }.minSecver) := by decide +kernel

/-- A CHANGE of an item to a value, for the protection sequence number `seq`, signed by authorities 0 with zeros. -/
def changeReq (seq item : Nat) (v : List Byte) : List Byte :=
  request 0x21 (toLe 8 seq ++ deviceId ++ toLe 1 item ++ toLe 3 0 ++ toLe 4 v.length ++ [0, 0] ++ toLe 6 0 ++ v ++ List.replicate 2560 0)

theorem witness_DebugAndProtectionFollowTheirAuthorities :
    (let d := served' 0 .running .running
     d.mailboxServed = true ∧ d.mbx.aligned = true ∧ d.power.identityBad = false ∧ d.isRunning .security = true ∧
       (let m := { msgOf (request 0x11 (List.replicate 1336 0)) with type := 0x11 }
        m.headerOk = true ∧ d.unlockBad m = some 1)) ∧
    (let req := changeReq 1 3 (toLe 4 1)
     let m := { msgOf req with type := 0x21 }
     m.headerOk = true ∧ m.b 24 1 = 3 ∧ m.b 28 4 = 4 ∧ req.length = 16 + 40 + 4 + 2560 ∧ m.b 25 3 = 0 ∧ m.b 34 6 = 0 ∧ ¬ 7 < m.b 32 1 ∧
       ¬ 7 < m.b 33 1 ∧ settingOk 3 (m.body 40 4) = true ∧ m.b 0 8 = (up.store.protSeq + 1).toNat ∧ up.settingBarred 3 (m.body 40 4) = false ∧
       { msgOf (changeReq 2 3 (toLe 4 1)) with type := 0x21 }.b 0 8 ≠ (up.store.protSeq + 1).toNat ∧ up.authority .operator 0 = none ∧
       settingOk 3 (toLe 4 4) = false) ∧
    (settingOk 5 (toLe 8 (2 ^ 30)) = true ∧ up.settingBarred 5 (toLe 8 (2 ^ 47)) = false ∧ settingOk 1 [] = true ∧ up.settingBarred 1 [] = true ∧
      settingOk 4 (toLe 4 3) = true ∧ settingOk 6 (toLe 4 1) = true) := by decide +kernel

/-- A CHANGE names this part, and a signature stands wherever the uninterpreted verification of an enrolled key says so. -/
theorem witness_change_names_the_part : (msgOf (changeReq 1 3 (toLe 4 1))).body 8 16 = deviceId := by
  rfl

theorem witness_authority_signs (d : Dev) (role : Role) (i : Nat) (k msg sig : List Byte) (a : d.authority role i = some k)
    (h : Config.verifies k msg sig = true) : d.signedAs role i msg sig = true := by
  simp [Dev.signedAs, a, h]
/-! ## The spec's worked examples -/

/-- Chapter 5, one output element: 42,981 × 2^160 + 3 grid units of 2^-169, as binary32, as BF16 by nearest and by stochastic rounding of
four bits with r 1 and 2, and as an E4M3 element that is its block's largest: scale 2^-2, code 0x7A. -/
def windowVal (e : Int) : Val := .fin false (42981 * 2 ^ 160 + 3) e
theorem test_output_element :
    f32.enc .even true (windowVal (-169)) = 0x42A7E500 ∧ bf16.enc .even true (windowVal (-169)) = 0x42A8 ∧
    bf16.enc (.stoch 4 1) true (windowVal (-169)) = 0x42A7 ∧ bf16.enc (.stoch 4 2) true (windowVal (-169)) = 0x42A8 ∧
    mxExp 2 (42981 * 2 ^ 160 + 3) (-169) = -2 ∧ mxElem 2 .even (-2) (windowVal (-169)) = 0x7A := by decide +kernel

/-- The published known answer of Philox-4x32-10 for a key and counter of zeros (R359 names the generator). -/
theorem test_philox : philox 0 0 0 0 = (0x6627E8D5, 0xE169C58D, 0xBC57AC4C, 0x9B00DBD8) := by decide +kernel

/-- A HEALTHY module, and the one of chapter 19's example, with 63 lanes and no lane spare on die 1: the values Table 19.2 gives. -/
def fullDie : Die := { upDie with laneSpares := [64, 65], coreSpares := [8] }
def fullPart (x : Die) : Dev := { up with dies := [(0, fullDie), (1, x), (2, fullDie), (3, fullDie)] }
theorem test_capability :
    [0x10, 0x14, 0x18, 0x28, 0x40, 0x48, 0x50, 0x58, 0x60].map (fullPart fullDie).capRead =
      [0x00000F44, 0x00000028, 0x42120F0F, 0x0800024080214080, 0x0800040020404010, 0x0004000000010000, 0x0000400000010000,
       0x3AFB44D001003E80, 0x0133330012C01F40] ∧
    [0x10, 0x28, 0x58].map (fullPart { fullDie with laneSpares := [], laneLog := BitVec.allOnes 64 - 8 }).capRead =
      [0x00000F44, 0x0800024080213F00, 0x3AC0448B01003E80] ∧ Dev.reset.capRead 0x10 = 0 := by decide +kernel
/-! ## Witnesses of the completion statements: those of their chapters -/

theorem witness_EveryKindOfOpCompletes :
    type_of% witness_ControlOpsDoTheirWork ∧ type_of% witness_AssayAndSluiceWriteTheirArrays ∧
    type_of% witness_ReturnsSendTheirRowsAndCombineSums ∧ type_of% witness_HoistOpsStartTheirMovesAndCopyCopies_moves ∧
    type_of% witness_HoistOpsStartTheirMovesAndCopyCopies_place ∧ type_of% witness_HoistOpsStartTheirMovesAndCopyCopies_copy ∧
    type_of% witness_RemoteOpsSendTheirChunksAndEnd ∧ type_of% witness_CollectiveOpsTakeTheirSlotAndLandInDst :=
  ⟨witness_ControlOpsDoTheirWork, witness_AssayAndSluiceWriteTheirArrays, witness_ReturnsSendTheirRowsAndCombineSums,
    witness_HoistOpsStartTheirMovesAndCopyCopies_moves, witness_HoistOpsStartTheirMovesAndCopyCopies_place,
    witness_HoistOpsStartTheirMovesAndCopyCopies_copy, witness_RemoteOpsSendTheirChunksAndEnd, witness_CollectiveOpsTakeTheirSlotAndLandInDst⟩

theorem witness_EveryKindOfPacketHasItsEffect :
    type_of% witness_RemotePacketsAreServedAndAnswered ∧ type_of% witness_ShuttlePacketsMoveTheExchange_count ∧
    type_of% witness_ShuttlePacketsMoveTheExchange_gather ∧ type_of% witness_ShuttlePacketsMoveTheExchange_refuse ∧
    type_of% witness_ShuttlePacketsMoveTheExchange_rows ∧ type_of% witness_ShuttlePacketsMoveTheExchange_result ∧
    type_of% witness_ShuttlePacketsMoveTheExchange_ack ∧ type_of% witness_ShuttlePacketsMoveTheExchange_timeout ∧
    type_of% witness_CollectivePacketsLandAndAbortsEnd_up ∧ type_of% witness_CollectivePacketsLandAndAbortsEnd_others ∧
    type_of% witness_CollectivePacketsLandAndAbortsEnd_named :=
  ⟨witness_RemotePacketsAreServedAndAnswered, witness_ShuttlePacketsMoveTheExchange_count, witness_ShuttlePacketsMoveTheExchange_gather,
    witness_ShuttlePacketsMoveTheExchange_refuse, witness_ShuttlePacketsMoveTheExchange_rows, witness_ShuttlePacketsMoveTheExchange_result,
    witness_ShuttlePacketsMoveTheExchange_ack, witness_ShuttlePacketsMoveTheExchange_timeout, witness_CollectivePacketsLandAndAbortsEnd_up,
    witness_CollectivePacketsLandAndAbortsEnd_others, witness_CollectivePacketsLandAndAbortsEnd_named⟩

end Sys2Proof.Tests
end

/-! REGISTER_WRITE and the reads of CFGWIN (R4, R41, R392, Tables 0.5, 3.8, 4.12): the way an access takes through the register map, the
offsets beyond the map, and the registers that `Obligations.RegisterWritesFollowTheMap` names. -/
namespace Sys2Proof.Machine

/-! ## The gate of management and the gate of OFF -/

theorem exec_registerWrite (off : BitVec 24) (n : Nat) (v : Word) (s : State) :
    exec (.registerWrite off n v) s = execRegisterWrite off n v s := rfl

theorem viaCfg_of_stopped {s : State} (h : s.dev.health.stopped = true) (o : Host.Outcome State Fault Refusal) : viaCfg s o = .next s :=
  if_pos h

theorem viaCfg_of_serving {s : State} (h : s.dev.health.stopped = false) (o : Host.Outcome State Fault Refusal) : viaCfg s o = o := by
  simp [viaCfg, h]

theorem Dev.rwe_of_off {d : Dev} {b : BlockId} (h : d.isOff b = true) (f : Dev → Dev) : d.rwe b f = f d := if_pos h

theorem Dev.rwe_of_not_off {d : Dev} {b : BlockId} (h : d.isOff b = false) (f : Dev → Dev) : d.rwe b f = d := by simp [Dev.rwe, h]

theorem answer_dev (s : State) : answer s s.dev = .next s := rfl

/-! ## The way of a write, by its size and by what stands at its offset -/

section Write
variable {s : State} {off : BitVec 24} {n : Nat} {v : Word} {a : Host.Outcome State Fault Refusal}

theorem execRegisterWrite_of_stopped (h : s.dev.health.stopped = true) (hoff : off ≠ 0x1E0030) :
    execRegisterWrite off n v s = .next s := by
  have hcold : off.toNat ≠ 0x1E0030 := fun e => hoff (BitVec.eq_of_toNat_eq e)
  simp [execRegisterWrite, hcold, viaCfg_of_stopped h]

theorem execRegisterWrite_of_unsupported (h : s.dev.health.stopped = false) (h4 : ¬ (n = 4 ∧ off.toNat % 4 = 0))
    (h8 : ¬ (n = 8 ∧ off.toNat % 8 = 0)) : execRegisterWrite off n v s = answer s (s.dev.emit .unsupported) := by
  have hcold : ¬ (off.toNat = 0x1E0030 ∧ n = 4) := by omega
  simp only [execRegisterWrite, if_neg hcold, viaCfg_of_serving h, if_neg h4, if_neg h8]

/-- HEALTH_COLD_START goes this way too, by the branch before the gate of management. -/
theorem execRegisterWrite_reg32 (h : s.dev.health.stopped = false) (h4 : off.toNat % 4 = 0)
    (hhalf : half64 off.toNat (v.setWidth 32) s = none) : execRegisterWrite off 4 v s = reg32 off.toNat (v.setWidth 32) s := by
  simp [execRegisterWrite, viaCfg_of_serving h, h4, hhalf]

theorem execRegisterWrite_half64 (h : s.dev.health.stopped = false) (hoff : off ≠ 0x1E0030) (h4 : off.toNat % 4 = 0)
    (hhalf : half64 off.toNat (v.setWidth 32) s = some a) : execRegisterWrite off 4 v s = a := by
  have hcold : off.toNat ≠ 0x1E0030 := fun e => hoff (BitVec.eq_of_toNat_eq e)
  simp [execRegisterWrite, hcold, viaCfg_of_serving h, h4, hhalf]

theorem execRegisterWrite_reg64 (h : s.dev.health.stopped = false) (h8 : off.toNat % 8 = 0)
    (hreg : reg64 off.toNat v s = some a) : execRegisterWrite off 8 v s = a := by
  simp [execRegisterWrite, viaCfg_of_serving h, h8, hreg]

theorem half64_eq_none {o : Nat} {w : W32} (hreg : ∀ x, reg64 (o / 8 * 8) x s = none) : half64 o w s = none := by
  simp [half64, hreg]

end Write

/-! ## The way of a read -/

theorem Dev.cfgRead_of_unsupported (d : Dev) {off : BitVec 24} {n : Nat} (h4 : ¬ (n = 4 ∧ off.toNat % 4 = 0))
    (h8 : ¬ (n = 8 ∧ off.toNat % 8 = 0)) : d.cfgRead off n = none := by
  have hbad : (n ≠ 4 ∧ n ≠ 8) ∨ off.toNat % n ≠ 0 := by
    by_cases e4 : n = 4
    · subst e4; omega
    · by_cases e8 : n = 8
      · subst e8; omega
      · exact .inl ⟨e4, e8⟩
  exact if_pos hbad

theorem Dev.cfgRead_read32 {d : Dev} {off : BitVec 24} (h : d.health.stopped = false) (h4 : off.toNat % 4 = 0)
    (hword : d.read64 (off.toNat / 8 * 8) = none) : d.cfgRead off 4 = some (d.read32 off.toNat) := by
  simp [Dev.cfgRead, h, h4, hword]

/-! ## Offsets at or above 0x0040_0000 (R4): no register stands there -/

theorem ctlBlock_beyond {off : Nat} (h : 0x3FFFFC ≤ off) : ctlBlock off = none := by
  unfold ctlBlock
  split
  case h_11 =>
    rw [if_neg (by omega), if_neg (by omega), if_neg (by omega)]
  all_goals omega

section Beyond
variable {off : Nat} (h : 0x400000 ≤ off)
include h

theorem reg64_beyond (v : Word) (s : State) : reg64 off v s = none := by
  unfold reg64
  split
  case h_15 =>
    rw [if_neg (by omega), if_neg (by omega), if_neg (by omega), if_neg (by omega), if_neg (by omega), if_neg (by omega)]
  all_goals omega

theorem half64_beyond (v : W32) (s : State) : half64 off v s = none :=
  half64_eq_none fun x => reg64_beyond (by omega) x s

theorem reg32_beyond (v : W32) (s : State) : reg32 off v s = .next s := by
  have hctl : ctlBlock off = none := ctlBlock_beyond (by omega)
  have hsts : ctlBlock (off - 4) = none := ctlBlock_beyond (by omega)
  have below : ∀ k < 0x400000, ¬ off < k ∧ off ≠ k := by omega
  simp [reg32, hctl, hsts, below, answer_dev]

theorem Dev.read64_beyond (d : Dev) : d.read64 off = none := by
  have below : ∀ k < 0x400000, ¬ off < k := by omega
  simp [Dev.read64, below]

theorem Dev.read32_beyond (d : Dev) : d.read32 off = 0 := by
  have hctl : ctlBlock off = none := ctlBlock_beyond (by omega)
  have hsts : ctlBlock (off - 4) = none := ctlBlock_beyond (by omega)
  have below : ∀ k < 0x400000, ¬ off < k := by omega
  have apart : off ≠ 0x130010 := by omega
  simp [Dev.read32, hctl, hsts, below, apart]

end Beyond

/-! ## HOSTIF_DB_CTL (Table 3.8) -/

theorem half64_dbCtl (v : W32) (s : State) : half64 0x010010 v s = none :=
  half64_eq_none fun _ => rfl

theorem reg32_dbCtl (v : W32) (s : State) : reg32 0x010010 v s = answer s (s.dev.rwe .hostif (fun d =>
    { d with host := { d.host with pollUs := BitVec.ofNat 10 (wbits v 25 16), dbCtlMode := v.setWidth 2 } })) := by
  simp [reg32, ctlBlock]

theorem Dev.read64_dbCtl (d : Dev) : d.read64 0x010010 = none := by
  simp [Dev.read64]

theorem Dev.read32_dbCtl (d : Dev) : d.read32 0x010010 = d.host.pollUs.toNat * 2 ^ 16 + d.host.dbCtlMode.toNat := by
  simp [Dev.read32, ctlBlock, Dev.hostRead32]

/-! ## RING_SQ_BASE (Table 4.12) -/

theorem reg64_ringSqBase (v : Word) (s : State) : reg64 0x011018 v s =
    some (answer s (s.dev.rwe (ringBlock s.dev.ringSel.toNat) (fun d => d.modRing s.dev.ringSel.toNat (fun g => { g with sqBase := v })))) := rfl

theorem Dev.read64_ringSqBase (d : Dev) : d.read64 0x011018 = some (d.ring d.ringSel.toNat).sqBase.toNat := by
  simp [Dev.read64, Dev.ringRead64]

/-- The half that is not written stays as it reads, the model's choice of notes/assumptions/46.md. -/
theorem half64_ringSqBase_high (v : W32) (s : State) : half64 0x01101C v s = reg64 0x011018
    (BitVec.ofNat 64 (v.toNat * 2 ^ 32 + (s.dev.ring s.dev.ringSel.toNat).sqBase.toNat % 2 ^ 32)) s := by
  simp [half64, Dev.read64_ringSqBase]

/-! ## HOIST_CTL (Table 3.6) -/

theorem half64_hoistCtl (v : W32) (s : State) : half64 0x080000 v s = none :=
  half64_eq_none fun _ => rfl

theorem reg32_hoistCtl (v : W32) (s : State) : reg32 0x080000 v s = writeCtl .hoist v s := by
  simp [reg32, ctlBlock]

/-! ## The statement's clauses -/

section Clauses
variable {s : State} (h : s.dev.health.stopped = false) (v : Word)
include h

theorem ends_registerWrite_unsupported {off : BitVec 24} {n : Nat} (h4 : ¬ (n = 4 ∧ off.toNat % 4 = 0))
    (h8 : ¬ (n = 8 ∧ off.toNat % 8 = 0)) :
    Ends (.registerWrite off n v) s (fun t => t = { s with dev := { s.dev with out := .unsupported :: s.dev.out } }) :=
  ⟨_, (exec_registerWrite off n v s).trans (execRegisterWrite_of_unsupported h h4 h8), rfl⟩

theorem ends_registerWrite_beyond {off : BitVec 24} (hoff : 0x400000 ≤ off.toNat) (h4 : off.toNat % 4 = 0) :
    Ends (.registerWrite off 4 v) s (fun t => t = s) := by
  have hrun : execRegisterWrite off 4 v s = .next s :=
    (execRegisterWrite_reg32 h h4 (half64_beyond hoff _ s)).trans (reg32_beyond hoff _ s)
  exact ⟨s, hrun, rfl⟩

theorem cfgRead_beyond {off : BitVec 24} (hoff : 0x400000 ≤ off.toNat) (h4 : off.toNat % 4 = 0) : s.dev.cfgRead off 4 = some 0 := by
  have hword : s.dev.read64 (off.toNat / 8 * 8) = none := Dev.read64_beyond (by omega) _
  rw [Dev.cfgRead_read32 h h4 hword, Dev.read32_beyond hoff]

theorem execRegisterWrite_dbCtl : execRegisterWrite 0x010010 4 v s = answer s (s.dev.rwe .hostif (fun d =>
    { d with host := { d.host with
      pollUs := BitVec.ofNat 10 (wbits (v.setWidth 32) 25 16), dbCtlMode := (v.setWidth 32 : W32).setWidth 2 } })) :=
  (execRegisterWrite_reg32 (off := 0x010010) h rfl (half64_dbCtl _ s)).trans (reg32_dbCtl _ s)

theorem cfgRead_dbCtl : s.dev.cfgRead 0x010010 4 = some (s.dev.host.pollUs.toNat * 2 ^ 16 + s.dev.host.dbCtlMode.toNat) :=
  (Dev.cfgRead_read32 h rfl (Dev.read64_dbCtl _)).trans (congrArg some (Dev.read32_dbCtl _))

omit h in
/-- The 32 bits that reach the register hold both fields of the 64-bit operand. -/
theorem dbCtl_fields : BitVec.ofNat 10 (wbits (v.setWidth 32) 25 16) = BitVec.ofNat 10 (bits v.toNat 25 16) ∧
    (v.setWidth 32 : W32).setWidth 2 = BitVec.ofNat 2 v.toNat := by
  constructor
  · apply BitVec.eq_of_toNat_eq
    simp only [wbits, bits, BitVec.toNat_setWidth, BitVec.toNat_ofNat]
    omega
  · bv_omega

theorem ends_registerWrite_dbCtl_off (hoff : s.dev.isOff .hostif = true) : Ends (.registerWrite 0x010010 4 v) s (fun t =>
    t = { s with dev := { s.dev with host := { s.dev.host with
          pollUs := BitVec.ofNat 10 (bits v.toNat 25 16), dbCtlMode := BitVec.ofNat 2 v.toNat } } } ∧
    t.dev.cfgRead 0x010010 4 = some (bits v.toNat 25 16 * 2 ^ 16 + bits v.toNat 1 0)) := by
  obtain ⟨hpoll, hmode⟩ := dbCtl_fields v
  refine ⟨_, ?_, rfl, ?_⟩
  · rw [exec_registerWrite, execRegisterWrite_dbCtl h, Dev.rwe_of_off hoff, hpoll, hmode]
    rfl
  · rw [cfgRead_dbCtl (by exact h)]
    simp [bits]

theorem ends_registerWrite_dbCtl_on (hon : s.dev.isOff .hostif = false) : Ends (.registerWrite 0x010010 4 v) s (fun t => t = s) := by
  refine ⟨s, ?_, rfl⟩
  rw [exec_registerWrite, execRegisterWrite_dbCtl h, Dev.rwe_of_not_off hon, answer_dev]

theorem ends_registerWrite_ringSqBase (hoff : s.dev.isOff (ringBlock s.dev.ringSel.toNat) = true) :
    Ends (.registerWrite 0x011018 8 v) s (fun t =>
      t = { s with dev := s.dev.modRing s.dev.ringSel.toNat (fun g => { g with sqBase := v }) }) := by
  refine ⟨_, ?_, rfl⟩
  rw [exec_registerWrite, execRegisterWrite_reg64 (off := 0x011018) h rfl (reg64_ringSqBase v s), Dev.rwe_of_off hoff]
  rfl

theorem execRegisterWrite_ringSqBase_high : execRegisterWrite 0x01101C 4 v s = answer s (s.dev.rwe (ringBlock s.dev.ringSel.toNat) (fun d =>
    d.modRing s.dev.ringSel.toNat (fun g =>
      { g with sqBase := BitVec.ofNat 64 (v.toNat % 2 ^ 32 * 2 ^ 32 + (s.dev.ring s.dev.ringSel.toNat).sqBase.toNat % 2 ^ 32) }))) := by
  have hhalf := (half64_ringSqBase_high (v.setWidth 32) s).trans (reg64_ringSqBase _ s)
  rw [BitVec.toNat_setWidth] at hhalf
  exact execRegisterWrite_half64 (off := 0x01101C) h (by decide) rfl hhalf

theorem ends_registerWrite_ringSqBase_high (hoff : s.dev.isOff (ringBlock s.dev.ringSel.toNat) = true) :
    Ends (.registerWrite 0x01101C 4 v) s (fun t => t = { s with dev := s.dev.modRing s.dev.ringSel.toNat (fun g =>
      { g with sqBase := BitVec.ofNat 64 (v.toNat % 2 ^ 32 * 2 ^ 32 + g.sqBase.toNat % 2 ^ 32) }) }) := by
  refine ⟨_, ?_, rfl⟩
  rw [exec_registerWrite, execRegisterWrite_ringSqBase_high h, Dev.rwe_of_off hoff, answer, Dev.modRing, Dev.modRing]

theorem execRegisterWrite_hoistCtl : execRegisterWrite 0x080000 4 v s = writeCtl .hoist (v.setWidth 32) s :=
  (execRegisterWrite_reg32 (off := 0x080000) h rfl (half64_hoistCtl _ s)).trans (reg32_hoistCtl _ s)

theorem exec_registerWrite_hoistCtl_set : exec (.registerWrite 0x080000 4 1) s = exec (.enableSet .hoist) s :=
  calc exec (.registerWrite 0x080000 4 1) s = answer s (s.dev.enable .hoist) := execRegisterWrite_hoistCtl h 1
    _ = execEnableSet .hoist s := (viaCfg_of_serving h _).symm

theorem exec_registerWrite_hoistCtl_clear : exec (.registerWrite 0x080000 4 0) s = exec (.enableClear .hoist) s :=
  calc exec (.registerWrite 0x080000 4 0) s = answerMem s (s.dev.disable s.mem .hoist) := execRegisterWrite_hoistCtl h 0
    _ = execEnableClear .hoist s := (viaCfg_of_serving h _).symm

end Clauses

theorem ends_registerWrite_stopped {s : State} (h : s.dev.health.stopped = true) (v : Word) {off : BitVec 24} (n : Nat)
    (hoff : off ≠ 0x1E0030) : Ends (.registerWrite off n v) s (fun t => t = s) :=
  ⟨s, (exec_registerWrite off n v s).trans (execRegisterWrite_of_stopped h hoff), rfl⟩

/-- Settles O18, a lemma for each clause: with management running the write goes by its size to the register at its offset, and a stopped
management discards it. -/
theorem registerWritesFollowTheMap : Obligations.RegisterWritesFollowTheMap := by
  unfold Obligations.RegisterWritesFollowTheMap
  intro s v
  constructor
  · intro h
    refine ⟨?unsupported, ?beyond, ends_registerWrite_dbCtl_off h v, ends_registerWrite_dbCtl_on h v, ?ringSqBase, ?readUnsupported,
      ?readBeyond, exec_registerWrite_hoistCtl_set h, exec_registerWrite_hoistCtl_clear h⟩
    case unsupported => exact fun off n h4 h8 => ends_registerWrite_unsupported h v h4 h8
    case beyond => exact fun off hoff h4 => ends_registerWrite_beyond h v hoff h4
    case ringSqBase => exact fun hoff => ⟨ends_registerWrite_ringSqBase h v hoff, ends_registerWrite_ringSqBase_high h v hoff⟩
    case readUnsupported => exact fun off n h4 h8 => s.dev.cfgRead_of_unsupported h4 h8
    case readBeyond => exact fun off hoff h4 => cfgRead_beyond h hoff h4
  · exact fun h off n hoff => ends_registerWrite_stopped h v n hoff

end Sys2Proof.Machine

/-! Chapter 1, the parts of a device and of a table that its commands name: blocks, alarms, vectors, dies. -/
namespace Sys2Proof.Machine

theorem Dev.moveBlock_blocks (d : Dev) (b : BlockId) (x : Block) : (d.moveBlock b x).blocks = Tbl.put d.blocks (blockKey b) x := by
  unfold Dev.moveBlock Dev.raise Dev.log Dev.emit; dsimp only; (repeat' split) <;> rfl

theorem Dev.block_moveBlock_other (d : Dev) {b c : BlockId} (x : Block) (h : blockKey c ≠ blockKey b) :
    (d.moveBlock b x).block c = d.block c := by
  rw [Dev.block, Dev.moveBlock_blocks, Tbl.lookD_put_other _ _ _ h, Dev.block]

/-- An arrival changes the queue and its counters. -/
theorem Health.enqueue_eq (h : Health) (now : Tick) (cls block reg subject : Nat) (v : Word) :
    h.enqueue now cls block reg subject v =
      let e := h.enqueue now cls block reg subject v
      { h with queue := e.queue, merged := e.merged, dropTrace := e.dropTrace, dropLog := e.dropLog } := by
  unfold Health.enqueue; dsimp only; (repeat' split) <;> rfl

@[simp] theorem Dev.alarm_alarms (d : Dev) (b r u : Nat) (v : Word) : (d.alarm b r u v).health.alarms = d.health.alarms + 1 := by
  simp [Dev.alarm]

theorem getLsbD_ofNat_two_pow_self {w i : Nat} (h : i < w) : (BitVec.ofNat w (2 ^ i)).getLsbD i = true := by
  rw [BitVec.getLsbD_ofNat, Nat.testBit_two_pow_self, decide_eq_true h]; rfl

/-- Raising a vector sends its message or sets its pending bit (R48). -/
theorem Dev.raise_sent_or_pending (d : Dev) {v : Nat} (h : v < 2048) :
    .msix v ∈ (d.raise v).out ∨ (d.raise v).host.msixPending.getLsbD v = true := by
  unfold Dev.raise
  split
  · exact .inl (by simp [Dev.emit])
  · exact .inr (by rw [BitVec.getLsbD_or, getLsbD_ofNat_two_pow_self h, Bool.or_true])

theorem Dev.raise_host (d : Dev) (v : Nat) : (d.raise v).host = { d.host with msixPending := (d.raise v).host.msixPending } := by
  unfold Dev.raise; split <;> rfl

theorem Dev.alarm_host (d : Dev) (b r u : Nat) (v : Word) :
    (d.alarm b r u v).host = { d.host with msixPending := (d.alarm b r u v).host.msixPending } :=
  Dev.raise_host _ _

theorem Dev.alarm_sent_or_pending (d : Dev) (b r u : Nat) (v : Word) :
    .msix 1 ∈ (d.alarm b r u v).out ∨ (d.alarm b r u v).host.msixPending.getLsbD 1 = true :=
  Dev.raise_sent_or_pending _ (by omega)

/-- An alarm is recorded, and its vector goes out or waits (R423, Table 3.4). -/
theorem Dev.alarm_eq (d : Dev) (b r u : Nat) (v : Word) :
    d.alarm b r u v = { d with
      health := (d.alarm b r u v).health, host := { d.host with msixPending := (d.alarm b r u v).host.msixPending },
      out := (d.alarm b r u v).out } := by
  apply Dev.ext <;> simp [← Dev.alarm_host]

/-- Settles O2. -/
theorem resetStandsInAuxOnly : Obligations.ResetStandsInAuxOnly :=
  ⟨rfl, rfl, rfl, rfl, rfl, fun _ => rfl, fun _ => rfl, fun _ => rfl⟩

section Supplies
variable (s : State)

theorem ends_auxInputLow (hon : s.dev.power.aonOn = true) (hmain : s.dev.power.mainOk = true) : Ends .auxInputLow s (fun t =>
    t = { s with dev := { s.dev with
      power := { s.dev.power with auxOk := false, auxFromMain := true }, health := t.dev.health
      host := { s.dev.host with msixPending := t.dev.host.msixPending }, out := t.dev.out } } ∧
    t.dev.health.alarms = s.dev.health.alarms + 2 ∧ (.msix 1 ∈ t.dev.out ∨ t.dev.host.msixPending.getLsbD 1 = true)) := by
  refine ⟨_, show execAuxInputLow s = _ by simp only [execAuxInputLow, if_pos hon, if_pos hmain]; rfl, ?_, ?_, ?_⟩
  · rw [Dev.pwrAlarm, Dev.alarm_eq, Dev.monAlarm, Dev.alarm_eq]
  · simp only [Dev.pwrAlarm, Dev.monAlarm, Dev.alarm_alarms, add_assoc]; rfl
  · exact Dev.alarm_sent_or_pending _ _ _ _ _

theorem ends_auxInputRecovered (hon : s.dev.power.aonOn = true) : Ends .auxInputRecovered s (fun t =>
    t = { s with dev := { s.dev with power := { s.dev.power with auxOk := true, auxFromMain := false } } }) :=
  ⟨_, show execAuxInputRecovered s = _ by simp only [execAuxInputRecovered, if_pos hon]; rfl, rfl⟩

theorem ends_mainProtectionClose (hon : s.dev.power.aonOn = true) : Ends .mainProtectionClose s (fun t =>
    t = { s with dev := { s.dev with power := { s.dev.power with mainOk := true, mainLive := true, protectionOpen := false } } }) :=
  ⟨_, show execMainProtectionClose s = _ by simp only [execMainProtectionClose, if_pos hon]; rfl, rfl⟩

theorem ends_matedNSettled (hon : s.dev.power.aonOn = true) : Ends .matedNSettled s (fun t =>
    t = { s with dev := { s.dev with power := { s.dev.power with mated := true, matedSettled := true } } }) :=
  ⟨_, show execMatedNSettled s = _ by simp only [execMatedNSettled, if_pos hon]; rfl, rfl⟩

/-- A coolant event is one alarm (R13). -/
theorem ends_of_monAlarm {c : Instr} {source : Nat} (h : exec c s = answer s (s.dev.monAlarm source)) : Ends c s (fun t =>
    t = { s with dev := { s.dev with health := t.dev.health, host := t.dev.host, out := t.dev.out } } ∧
    t.dev.health.alarms = s.dev.health.alarms + 1) := by
  refine ⟨_, h, State.ext ?_ rfl rfl, Dev.alarm_alarms _ _ _ _ _⟩
  rw [Dev.monAlarm, Dev.alarm_eq]

end Supplies

/-! ## The I3C target (R10, R11) -/

section I3c
variable (s : State)

theorem ends_i3cAddressWrite_even (hon : s.dev.power.aonOn = true) {a : Byte} (ha : a.toNat % 2 = 0) :
    Ends (.i3cAddressWrite [a]) s (fun t =>
      t = { s with dev := { s.dev with power := { s.dev.power with i3cPtr := a }, out := .i3cAck :: s.dev.out } }) :=
  ⟨_, show execI3cAddressWrite [a] s = _ by simp only [execI3cAddressWrite, hon, ha, Bool.true_and, decide_true, if_true]; rfl, rfl⟩

theorem ends_i3cAddressWrite_odd {a : Byte} (ha : a.toNat % 2 = 1) :
    Ends (.i3cAddressWrite [a]) s (fun t => t = { s with dev := { s.dev with out := .i3cNack :: s.dev.out } }) :=
  ⟨_, show execI3cAddressWrite [a] s = _ by simp [execI3cAddressWrite, ha]; rfl, rfl⟩

/-- The byte at a register address of the I3C target. -/
def Dev.i3cByte (d : Dev) (a : Nat) : Byte := if 0x11 < a then 0 else BitVec.ofNat 8 (d.i3cItem (a - a % 2) / 256 ^ (a % 2))

theorem Dev.i3cByte_pwrSts (d : Dev) : [d.i3cByte 0x0E, d.i3cByte 0x0F] = toLe 2 (d.pwrSts % 2 ^ 16) := by
  simp [Dev.i3cByte, Dev.i3cItem, toLe]

theorem exec_i3cRead (hon : s.dev.power.aonOn = true) (n : Nat) : exec (.i3cRead n) s =
    answer s (s.dev.emit (.i3cData ((List.range n).map fun i => s.dev.i3cByte (s.dev.power.i3cPtr.toNat + i)))) :=
  show execI3cRead n s = _ by simp only [execI3cRead, if_pos hon]; rfl

theorem ends_i3cRead (hon : s.dev.power.aonOn = true) (n : Nat) : Ends (.i3cRead n) s (fun t => ∃ bytes : List Byte,
    t = { s with dev := { s.dev with out := .i3cData bytes :: s.dev.out } } ∧ bytes.length = n ∧
    (∀ i < n, 0x11 < s.dev.power.i3cPtr.toNat + i → bytes[i]? = some 0) ∧
    (s.dev.power.i3cPtr = 0x0E → 2 ≤ n → bytes.take 2 = toLe 2 (s.dev.pwrSts % 2 ^ 16))) := by
  refine ⟨_, exec_i3cRead s hon n, _, rfl, by simp, fun i hi ha => ?_, fun hp hn => ?_⟩
  · simp [hi, Dev.i3cByte, ha]
  · obtain ⟨k, rfl⟩ : ∃ k, n = 2 + k := ⟨n - 2, by omega⟩
    rw [← Dev.i3cByte_pwrSts, hp, List.range_add, List.map_append, List.take_left' (by simp)]
    rfl

theorem ends_i3cDynamicAddress (hon : s.dev.power.aonOn = true) (a : BitVec 7) : Ends (.i3cDynamicAddress a) s (fun t =>
    t = { s with dev := { s.dev with power := { s.dev.power with i3cDynamic := some a } } } ∧ t.dev.power.i3cAddress = a) :=
  ⟨_, show execI3cDynamicAddress a s = _ by simp only [execI3cDynamicAddress, if_pos hon]; rfl, rfl, rfl⟩

end I3c

/-- Settles O6, a lemma for each event. -/
theorem suppliesAndPinsFollowTheirEvents : Obligations.SuppliesAndPinsFollowTheirEvents := fun s =>
  ⟨ends_auxInputLow s, ends_auxInputRecovered s, ends_mainProtectionClose s, ends_matedNSettled s, ⟨_, rfl, rfl⟩,
    ends_of_monAlarm s (source := 4) rfl, ends_of_monAlarm s (source := 5) rfl, fun hon =>
    ⟨fun _ => ends_i3cAddressWrite_even s hon, fun _ => ends_i3cAddressWrite_odd s, ends_i3cRead s hon, ends_i3cDynamicAddress s hon⟩⟩

end Sys2Proof.Machine

/-! What the ending of ops and the sending of packets leave of the device: dies, blocks, objects, the signed store, power, tallies, the
health conditions, and the shapes of claims (R385 to R387). -/
namespace Sys2Proof.Machine

/-- Whether a claim has lost its shape, and the lanes it holds. -/
def Claim.laneShape (k : Claim) : Bool × Tbl Word := (k.shapeLost, k.lanes)

/-- The part of a device that no op's ending and no packet's sending reaches. -/
structure Standing where
  dies : Tbl Die
  objects : Tbl Obj
  blocks : Tbl Block
  store : SignedStore
  power : Power
  tallies : Tbl Tally
  cond : BitVec 64
  acked : Bool
  engineFault : Tbl Tick
  shapes : Nat → Bool × Tbl Word

def Dev.standing (d : Dev) : Standing :=
  { dies := d.dies, objects := d.objects, blocks := d.blocks, store := d.store, power := d.power, tallies := d.tallies,
    cond := d.health.cond, acked := d.health.acked, engineFault := d.health.engineFault, shapes := fun c => (d.claim c).laneShape }

variable (d : Dev)

/-- What changes no field of it keeps it. -/
theorem Dev.standing_congr {d e : Dev} (h : e.dies = d.dies ∧ e.objects = d.objects ∧ e.blocks = d.blocks ∧ e.store = d.store ∧
    e.power = d.power ∧ e.tallies = d.tallies) (hh : e.health = d.health) (hc : e.claims = d.claims) : e.standing = d.standing := by
  obtain ⟨h1, h2, h3, h4, h5, h6⟩ := h
  simp only [Dev.standing, h1, h2, h3, h4, h5, h6, hh, Dev.claim_congr hc]

/-! ## Claims -/

theorem Dev.modClaim_standing (c : Nat) {f : Claim → Claim} (hf : ∀ k, (f k).laneShape = k.laneShape) :
    (d.modClaim c f).standing = d.standing := by
  have hshape : ∀ k, ((d.modClaim c f).claim k).laneShape = (d.claim k).laneShape := fun k => by
    rw [Dev.claim_modClaim]
    split
    next h => rw [hf, h]
    next => rfl
  simp only [Dev.standing, hshape, Dev.modClaim_dies, Dev.modClaim_objects, Dev.modClaim_blocks, Dev.modClaim_store,
    Dev.modClaim_power, Dev.modClaim_tallies, Dev.modClaim_health]

theorem Dev.mapClaims_standing {f : Nat → Claim → Claim} (hf : ∀ c k, (f c k).laneShape = k.laneShape) :
    { d with claims := Tbl.mapAll d.claims f }.standing = d.standing := by
  have hshape : ∀ k, (Tbl.lookD (Tbl.mapAll d.claims f) k .reset).laneShape = (Tbl.lookD d.claims k .reset).laneShape := fun k => by
    rw [Tbl.lookD, Tbl.look_mapAll, Tbl.lookD]
    cases Tbl.look d.claims k with
    | none => rfl
    | some v => exact hf k v
  simp only [Dev.standing, Dev.claim, hshape]

@[simp] theorem Dev.account_standing (c p e f h : Nat) : (d.account c p e f h).standing = d.standing :=
  d.modClaim_standing c fun _ => rfl

@[simp] theorem Dev.modMeter_standing (c k : Nat) (f : MeterSt → MeterSt) : (d.modMeter c k f).standing = d.standing :=
  d.modClaim_standing c fun _ => rfl

@[simp] theorem Dev.pay_standing (c k u : Nat) : (d.pay c k u).standing = d.standing := d.modMeter_standing c k _

@[simp] theorem Dev.setBudgets_standing : d.setBudgets.standing = d.standing :=
  foldl_keep Dev.standing _ (fun _ _ => foldl_keep Dev.standing _ (fun _ _ => by split <;> simp) _ _) _ _

@[simp] theorem Dev.rebudget_standing : d.rebudget.standing = d.standing := by
  unfold Dev.rebudget
  split
  · exact (Dev.setBudgets_standing _).trans (d.mapClaims_standing fun _ _ => rfl)
  · rfl

/-! ## Alarms, vectors and blocks -/

@[simp] theorem Dev.raise_standing (v : Nat) : (d.raise v).standing = d.standing :=
  Dev.standing_congr (by simp) (by simp) (by simp)

theorem Health.enqueue_keeps (h : Health) (now : Tick) (cls block reg subject : Nat) (v : Word) :
    (h.enqueue now cls block reg subject v).cond = h.cond ∧ (h.enqueue now cls block reg subject v).acked = h.acked ∧
      (h.enqueue now cls block reg subject v).engineFault = h.engineFault := by
  rw [Health.enqueue_eq]; exact ⟨rfl, rfl, rfl⟩

theorem Dev.standing_enqueue (h : Health) {now : Tick} {cls block reg subject : Nat} {v : Word}
    (hh : h.cond = (d.health.enqueue now cls block reg subject v).cond ∧ h.acked = (d.health.enqueue now cls block reg subject v).acked ∧
      h.engineFault = (d.health.enqueue now cls block reg subject v).engineFault) : { d with health := h }.standing = d.standing := by
  obtain ⟨hc, ha, he⟩ := hh
  obtain ⟨kc, ka, ke⟩ := d.health.enqueue_keeps now cls block reg subject v
  simp only [Dev.standing, hc, ha, he, kc, ka, ke]; rfl

@[simp] theorem Dev.log_standing (b r u : Nat) (v : Word) : (d.log b r u v).standing = d.standing :=
  d.standing_enqueue _ ⟨rfl, rfl, rfl⟩

@[simp] theorem Dev.alarm_standing (b r u : Nat) (v : Word) : (d.alarm b r u v).standing = d.standing :=
  (Dev.raise_standing _ _).trans (d.standing_enqueue _ ⟨rfl, rfl, rfl⟩)

@[simp] theorem Dev.emit_standing (o : Output) : (d.emit o).standing = d.standing := rfl
@[simp] theorem Dev.bumpCap_standing : d.bumpCap.standing = d.standing := by unfold Dev.bumpCap; split <;> rfl

@[simp] theorem Dev.setBlock_standing (b : BlockId) (x : Block) :
    (d.setBlock b x).standing = { d.standing with blocks := Tbl.put d.blocks (blockKey b) x } := rfl

theorem Dev.moveBlock_standing (b : BlockId) (x : Block) :
    (d.moveBlock b x).standing = { d.standing with blocks := Tbl.put d.blocks (blockKey b) x } := by
  unfold Dev.moveBlock
  dsimp only
  (repeat' split) <;> simp

theorem Dev.selfStop_standing (b : BlockId) (why : BitVec 16) : (d.selfStop b why).standing =
    { d.standing with blocks := Tbl.put d.blocks (blockKey b) { d.block b with st := .quiescing, autoStop := true, reason := why } } := by
  rw [Dev.selfStop, Dev.raise_standing, Dev.moveBlock_standing]

/-! ## Ops that end -/

@[simp] theorem Dev.modRing_standing (r : Nat) (f : Ring → Ring) : (d.modRing r f).standing = d.standing := rfl
@[simp] theorem Dev.modEntry_standing (r : Nat) (c : W32) (f : Entry → Entry) : (d.modEntry r c f).standing = d.standing := rfl
@[simp] theorem Dev.closeOp_standing (r : Nat) (c : W32) (res : Result) : (d.closeOp r c res).standing = d.standing := rfl
@[simp] theorem Dev.leaveChans_standing (r : Nat) (c : W32) : (d.leaveChans r c).standing = d.standing := rfl

@[simp] theorem Dev.take_standing (r : Nat) (c : W32) : (d.take r c).standing = d.standing := by unfold Dev.take; split <;> rfl

@[simp] theorem Dev.finishOp_standing (r : Nat) (c : W32) (res : Result) : (d.finishOp r c res).standing = d.standing := by
  simp [Dev.finishOp]

@[simp] theorem Dev.endOp_standing (r : Nat) (e : Entry) (res : Result) (h : Nat) : (d.endOp r e res h).standing = d.standing := by
  simp [Dev.endOp]

@[simp] theorem Dev.chargeOp_standing (r : Nat) (c : W32) (res : Result) : (d.chargeOp r c res).standing = d.standing := by
  unfold Dev.chargeOp; (repeat' split) <;> simp

@[simp] theorem Dev.killOp_standing (r : Nat) (c : W32) (res : Result) : (d.killOp r c res).standing = d.standing := by
  unfold Dev.killOp; split <;> simp

@[simp] theorem Dev.failExchange_standing (r : Nat) (c : W32) (k : Nat) : (d.failExchange r c k).standing = d.standing := by
  unfold Dev.failExchange; split <;> simp

@[simp] theorem Dev.killOps_standing (p : Dev → Nat → Entry → Bool) (x : BitVec 16) (k : Nat) : (d.killOps p x k).standing = d.standing :=
  foldl_keep Dev.standing _ (fun _ _ => by simp) _ _

@[simp] theorem Dev.stopShuttle_standing : d.stopShuttle.standing = d.standing :=
  foldl_keep Dev.standing _ (fun _ _ => by simp) _ _

/-! ## Packets that leave -/

@[simp] theorem Dev.setPort_standing (n : Nat) (p : Port) : (d.setPort n p).standing = d.standing := rfl
@[simp] theorem Dev.modPort_standing (n : Nat) (f : Port → Port) : (d.modPort n f).standing = d.standing := rfl
@[simp] theorem Dev.countRt_standing (k : Nat) : (d.countRt k).standing = d.standing := rfl

@[simp] theorem Dev.pumpGo_standing (fuel n : Nat) : (Dev.pumpGo fuel d n).standing = d.standing := by
  induction fuel generalizing d with
  | zero => rfl
  | succ fuel ih =>
    unfold Dev.pumpGo
    split
    · rfl
    · rw [ih]; rfl

@[simp] theorem Dev.pump_standing (n : Nat) : (d.pump n).standing = d.standing := d.pumpGo_standing _ n

@[simp] theorem Dev.deArrive_standing (n : Nat) (k : Packet) : (d.deArrive n k).standing = d.standing := by
  unfold Dev.deArrive
  dsimp only
  split_ifs <;> simp <;> rfl

@[simp] theorem Dev.sendOn_standing (n : Nat) (k : Packet) : (d.sendOn n k).standing = d.standing := by
  unfold Dev.sendOn; split <;> simp

@[simp] theorem Dev.routeQuiet_standing (k : Packet) : (d.routeQuiet k).standing = d.standing := by
  unfold Dev.routeQuiet; split <;> simp

@[simp] theorem Dev.sendNotice_standing (c : Nat) (p : Option Nat) (k : Packet) : (d.sendNotice c p k).standing = d.standing := by
  unfold Dev.sendNotice; dsimp only; (repeat' split) <;> simp

@[simp] theorem Dev.discard_standing (c : Nat) (p : Option Nat) (k : Packet) : (d.discard c p k).standing = d.standing := by
  unfold Dev.discard; dsimp only; (repeat' split) <;> simp

@[simp] theorem Dev.withRouting_standing (x : Routing) : { d with routing := x }.standing = d.standing := rfl
@[simp] theorem Dev.withTime_standing (x : TimeBlk) : { d with time := x }.standing = d.standing := rfl

@[simp] theorem Dev.follow_standing (k : Packet) (r : Route) : (d.follow k r).standing = d.standing := by
  cases r with
  | here => rfl
  | out p k' => exact d.sendOn_standing p k'
  | detour p k' forced =>
    have hcount : (if forced then { (d.countRt 0x40).countRt 0x48 with time := { (d.countRt 0x40).time with spreadLost := true } }
        else d.countRt 0x40).standing = d.standing := by cases forced <;> rfl
    unfold Dev.follow
    dsimp only
    rw [Dev.sendOn_standing, Dev.withRouting_standing, hcount]
  | hold => rfl
  | drop c p => exact d.discard_standing c p k
  | barred =>
    unfold Dev.follow
    dsimp only
    rw [Dev.alarm_standing, Dev.countRt_standing]

@[simp] theorem Dev.inject_standing (k : Packet) : (d.inject k).standing = d.standing := by
  unfold Dev.inject
  split
  · rfl
  · split
    · exact foldl_keep Dev.standing _ (fun _ _ => by simp [apply_ite Dev.standing]) _ _
    · exact d.follow_standing k _

@[simp] theorem Dev.injectNow_standing (op : Option (Nat × W32)) (k : Packet) : (d.injectNow op k).standing = d.standing := by
  unfold Dev.injectNow
  split
  · exact (Dev.inject_standing _ _).trans rfl
  · simp
  · rfl

/-- A meter serves one of the requests that wait there. -/
theorem Dev.nextAsk_mem {k : Nat} {a : Ask} (h : d.nextAsk k = some a) : a ∈ d.asksAt k := by
  unfold Dev.nextAsk at h
  dsimp only at h
  split at h <;>
  · obtain ⟨c, _, hc⟩ := Option.bind_eq_some_iff.1 h
    exact List.mem_of_find?_eq_some hc

theorem Dev.serveAsk_packet_standing {a : Ask} {k : Packet} {op : Option (Nat × W32)} (h : a.what = .packet k op) :
    (d.serveAsk a).standing = d.standing := by
  have hadmit : (d.admitAsk a).standing = d.standing := by
    unfold Dev.admitAsk
    simp only [h]
    split
    · rfl
    · exact (Dev.pay_standing _ _ _ _).trans rfl
  unfold Dev.serveAsk
  simp only [h]
  rw [Dev.injectNow_standing, hadmit]

/-- A request that finds its meter free is the one that is served. -/
theorem Dev.asksAt_append {a : Ask} (halive : d.alive a = true) (h : d.asksAt a.meter = []) :
    { d with frames := { d.frames with asks := d.frames.asks ++ [a] } }.asksAt a.meter = [a] := by
  have hsplit : { d with frames := { d.frames with asks := d.frames.asks ++ [a] } }.asksAt a.meter =
      (d.frames.asks ++ [a]).filter (fun b => b.meter == a.meter && d.alive b) := rfl
  have hold : d.frames.asks.filter (fun b => b.meter == a.meter && d.alive b) = [] := h
  rw [hsplit, List.filter_append, hold]
  simp [halive]

@[simp] theorem Dev.injectFor_standing (c : Nat) (op : Option (Nat × W32)) (k : Packet) : (d.injectFor c op k).standing = d.standing := by
  unfold Dev.injectFor
  dsimp only
  by_cases hcharge : d.fabricCharge k = 0
  · rw [if_pos hcharge, Dev.injectNow_standing]
  · rw [if_neg hcharge]
    generalize 32 + (if k.de then 5 else k.cls) = m
    by_cases hfree : (d.asksAt m).isEmpty = true
    · rw [if_pos hfree]
      split
      next x hx =>
        have hmem := Dev.nextAsk_mem _ hx
        rw [d.asksAt_append (by rfl) (List.isEmpty_iff.1 hfree), List.mem_singleton] at hmem
        rw [Dev.serveAsk_packet_standing _ (congrArg Ask.what hmem)]
        rfl
      next => rfl
    · rw [if_neg hfree]
      rfl

/-! ## Aborts, and what follows where a fault has ended ops -/

@[simp] theorem Dev.sendAborts_standing (g : Group) (tag : Nat) (l : List Byte) (but : Option Nat) (op : Option (Nat × W32)) :
    (d.sendAborts g tag l but op).standing = d.standing :=
  foldl_keep Dev.standing _ (fun _ _ => by dsimp only; (repeat' split) <;> simp) _ _

@[simp] theorem Dev.scramble_standing (l : List (Nat × Nat)) : (d.scramble l).1.standing = d.standing := by
  unfold Dev.scramble
  exact foldl_keep (fun p : Dev × List MemOp => p.1.standing) _ (fun _ _ => by rfl) _ _

@[simp] theorem Dev.setColl_standing (n : Nat) (o : Option CollOp) : (d.setColl n o).standing = d.standing := by
  unfold Dev.setColl; split <;> rfl

@[simp] theorem Dev.withColl_standing (c : Coll) : { d with coll := c }.standing = d.standing := rfl
@[simp] theorem Dev.countColl_standing (o k : Nat) : (d.countColl o k).standing = d.standing := rfl

@[simp] theorem Dev.tellAbort_standing (x : CollRun) (k : Nat) (but : Option Nat) : (d.tellAbort x k but).1.standing = d.standing := by
  unfold Dev.tellAbort
  lift_lets
  intro h d1 out p d2 _ d3
  calc (d3.alarm 0x23 0x180060 x.slot (Tbl.lookD d3.coll.cnt 0x60 0)).standing
    _ = d3.standing := Dev.alarm_standing _ _ _ _ _
    _ = p.1.standing := (Dev.withColl_standing d2 _).trans ((Dev.countColl_standing _ _ _).trans (Dev.setColl_standing _ _ _))
    _ = d1.standing := Dev.scramble_standing _ _
    _ = d.standing := Dev.sendAborts_standing _ _ _ _ _ _

@[simp] theorem Dev.abortColl_standing (n k : Nat) (but : Option Nat) : (d.abortColl n k but).1.standing = d.standing := by
  unfold Dev.abortColl
  split
  · rfl
  · dsimp only; split <;> simp

@[simp] theorem Dev.abortSlots_standing (p : CollRun → Bool) : (d.abortSlots p).1.standing = d.standing :=
  foldl_keep (fun q : Dev × List MemOp => q.1.standing) _ (fun _ _ => by dsimp only; split <;> simp) _ _

@[simp] theorem Dev.abortClaim_standing (c : Nat) : (d.abortClaim c).1.standing = d.standing := d.abortSlots_standing _

/-- What follows from ops that ended touches nothing more of the device as the fault has left it. -/
@[simp] theorem Dev.reap_standing (d' : Dev) (m : Memory) : (d.reap d' m).1.standing = d'.standing := by
  unfold Dev.reap
  refine (foldl_keep (fun p : Dev × List MemOp => p.1.standing) _ (fun _ _ => by split <;> simp) _ _).trans ?_
  exact (foldl_keep (fun p : Dev × List MemOp => p.1.standing) _ (fun _ _ => by simp) _ _).trans rfl

@[simp] theorem Dev.stopEngine_standing (m : Memory) (b : BlockId) : (d.stopEngine m b).1.standing = d.standing := by
  cases b <;> simp [Dev.stopEngine]

end Sys2Proof.Machine

/-! Containment of a die (R386), step by step, and what it leaves. -/
namespace Sys2Proof.Machine

theorem dieBlock_val (n : Fin 4) : dieBlock n.val = .die n := congrArg BlockId.die (Fin.ext (Nat.mod_eq_of_lt n.isLt))

/-- An object as the loss of a die leaves it. -/
def Obj.loseDie (o : Obj) (n : Nat) : Obj :=
  if o.dies.getLsbD n then
    { o with lostDies := o.lostDies ||| BitVec.ofNat 4 (2 ^ n), st := if o.st == .ready then .lost else o.st,
             moves := o.moves.filter (fun v => o.unitDie v.unit != n) }
  else o

def Dev.loseObjects (d : Dev) (n : Nat) : Dev := { d with objects := Tbl.mapAll d.objects (fun _ o => o.loseDie n) }

/-- An alarm for each object with units on the die. -/
def Dev.alarmObjects (d : Dev) (n : Nat) : Dev :=
  (d.objects.filter (fun e => e.2.dies.getLsbD n)).foldl (fun d e =>
    d.alarm (0x10 + n) (0x040000 + n * 0x10000 + 0x538) e.1 (Tbl.lookD (d.die n).cnt 0x538 0)) d

/-- A claim with lanes or cores on the die loses its shape. -/
def Dev.loseShape (n : Nat) (d : Dev) (c : Nat) : Dev :=
  let k := d.claim c
  if !d.isOff (claimBlock c) && (Tbl.lookD k.lanes n (0 : Word) != 0 || bits k.cores.toNat (8 * n + 7) (8 * n) != 0) then
    d.setClaim c { k with shapeLost := true }
  else d

def Die.fenced (x : Die) : Die :=
  { x.powerOff with contained := true, laneList := [], laneLog := 0, laneSpares := [], coreList := [], coreLog := 0, coreSpares := [] }

/-- The substitutions on a die are dropped, and all but a thermal trip is recorded. -/
def Dev.recordDie (d : Dev) (n : Nat) (thermal : Bool) : Dev :=
  { d with health := { d.health with testing := d.health.testing.filter (fun t => t.die != n),
                                     held := d.health.held.filter (fun t => t.die != n) },
           store := if thermal then d.store else { d.store with dies := d.store.dies ||| BitVec.ofNat 4 (2 ^ n) } }

def Dev.stopDie (d : Dev) (n : Nat) : Dev := (d.stopBlock (dieBlock n) (reasonOf (dieBlock n) 0xF7)).blockOff (dieBlock n)

/-- The die fenced off: its ops ended, its objects, shapes, lanes and cores lost. -/
def Dev.cutOff (d : Dev) (n : Nat) : Dev :=
  ((List.range 32).foldl (Dev.loseShape n)
    (((d.killOps (fun d r e => d.opOnDie r e n) stHardwareFault (0x10 + n)).loseObjects n).alarmObjects n)).modDie n Die.fenced

theorem Dev.containDie_eq {d : Dev} {n : Nat} (h : (d.die n).contained = false) (thermal : Bool) : d.containDie n thermal =
    ((((((d.cutOff n).recordDie n thermal).stopDie n).alarm (blockCode (dieBlock n)) (blockSts (dieBlock n)) n
      (BitVec.ofNat 64 ((((d.cutOff n).recordDie n thermal).stopDie n).block (dieBlock n)).sts)).condArises 10)).rebudget :=
  by
  unfold Dev.containDie
  rw [if_neg (by simp [h])]
  delta Dev.stopDie Dev.recordDie Dev.cutOff Dev.loseObjects Dev.alarmObjects Dev.loseShape Die.fenced Obj.loseDie
  dsimp only

variable (d : Dev) (n : Nat)

theorem Dev.loseObjects_standing : (d.loseObjects n).standing =
    { d.standing with objects := Tbl.mapAll d.objects (fun _ o => o.loseDie n) } := rfl

@[simp] theorem Dev.alarmObjects_standing : (d.alarmObjects n).standing = d.standing :=
  foldl_keep Dev.standing _ (fun _ _ => Dev.alarm_standing _ _ _ _ _) _ _

theorem Dev.recordDie_standing (thermal : Bool) : (d.recordDie n thermal).standing = { d.standing with
    store := if thermal then d.store else { d.store with dies := d.store.dies ||| BitVec.ofNat 4 (2 ^ n) } } := rfl

/-! ## The die's block -/

/-- A move of a block changes its status alone. -/
theorem Dev.moveBlock_standing_blocks (b : BlockId) (x : Block) :
    (d.moveBlock b x).standing = { d.standing with blocks := (d.moveBlock b x).blocks } := by
  rw [Dev.moveBlock_standing, Dev.moveBlock_blocks]

theorem Dev.selfStop_standing_blocks (b : BlockId) (why : BitVec 16) :
    (d.selfStop b why).standing = { d.standing with blocks := (d.selfStop b why).blocks } := by
  rw [Dev.selfStop, Dev.raise_standing, Dev.moveBlock_standing_blocks, Dev.raise_blocks]

theorem Dev.stopBlock_die (why : BitVec 16) :
    d.stopBlock (dieBlock n) why = if d.isRunning (dieBlock n) then d.selfStop (dieBlock n) why else d := rfl

theorem Dev.blockOff_die : d.blockOff (dieBlock n) =
    if (d.block (dieBlock n)).st == .quiescing then d.moveBlock (dieBlock n) { d.block (dieBlock n) with st := .off } else d := rfl

theorem Dev.stopDie_standing : (d.stopDie n).standing = { d.standing with blocks := (d.stopDie n).blocks } := by
  unfold Dev.stopDie
  have hstop : ∀ why, (d.stopBlock (dieBlock n) why).standing = { d.standing with blocks := (d.stopBlock (dieBlock n) why).blocks } := by
    intro why
    rw [Dev.stopBlock_die]
    split
    · exact d.selfStop_standing_blocks _ _
    · rfl
  rw [Dev.blockOff_die]
  split
  · rw [Dev.moveBlock_standing_blocks, hstop]
  · exact hstop _

theorem Dev.selfStop_block (b : BlockId) (why : BitVec 16) :
    (d.selfStop b why).block b = { d.block b with st := .quiescing, autoStop := true, reason := why } := by
  rw [Dev.selfStop, Dev.block_congr (Dev.raise_blocks _ _), Dev.block_moveBlock_same]

theorem Dev.stopDie_block_of_running (h : d.isRunning (dieBlock n) = true) : (d.stopDie n).block (dieBlock n) =
    { d.block (dieBlock n) with st := .off, autoStop := true, reason := reasonOf (dieBlock n) 0xF7 } := by
  rw [Dev.stopDie, Dev.stopBlock_die, if_pos h, Dev.blockOff_die, Dev.selfStop_block, if_pos (by rfl), Dev.block_moveBlock_same]

/-! ## The shapes of claims -/

theorem Dev.claim_loseShape (c k : Nat) : (d.loseShape n c).claim k = d.claim k ∨
    (k = c ∧ (d.loseShape n c).claim k = { d.claim c with shapeLost := true }) := by
  unfold Dev.loseShape
  dsimp only
  split
  · rw [Dev.claim_setClaim]
    by_cases h : k = c
    · exact .inr ⟨h, if_pos h⟩
    · exact .inl (if_neg h)
  · exact .inl rfl

theorem Dev.claim_loseShape_same {c : Nat} (hoff : d.isOff (claimBlock c) = false) (hl : Tbl.lookD (d.claim c).lanes n (0 : Word) ≠ 0) :
    ((d.loseShape n c).claim c).shapeLost = true := by
  have hgo : (!d.isOff (claimBlock c) && (Tbl.lookD (d.claim c).lanes n (0 : Word) != 0 ||
      bits (d.claim c).cores.toNat (8 * n + 7) (8 * n) != 0)) = true := by
    rw [hoff, bne_iff_ne.2 hl]; rfl
  have hset : d.loseShape n c = d.setClaim c { d.claim c with shapeLost := true } := if_pos hgo
  rw [hset, Dev.claim_setClaim, if_pos rfl]

theorem Dev.lanes_loseShape (c k : Nat) : ((d.loseShape n c).claim k).lanes = (d.claim k).lanes := by
  rcases d.claim_loseShape n c k with h | ⟨rfl, h⟩ <;> rw [h]

theorem Dev.shapeLost_loseShape {c k : Nat} (h : (d.claim k).shapeLost = true) : ((d.loseShape n c).claim k).shapeLost = true := by
  rcases d.claim_loseShape n c k with h' | ⟨_, h'⟩ <;> simp [h', h]

theorem Dev.loseShape_standing (c : Nat) : (d.loseShape n c).standing =
    { d.standing with shapes := (d.loseShape n c).standing.shapes } := by
  unfold Dev.loseShape; dsimp only; split <;> rfl

theorem Dev.shapeLost_foldl_loseShape (l : List Nat) {k : Nat} (h : (d.claim k).shapeLost = true) :
    ((l.foldl (Dev.loseShape n) d).claim k).shapeLost = true := by
  induction l generalizing d with
  | nil => exact h
  | cons c l ih => exact ih _ (d.shapeLost_loseShape n h)

/-- Each claim that is not OFF and holds lanes on the die loses its shape. -/
theorem Dev.foldl_loseShape_of_mem {l : List Nat} {c : Nat} (hc : c ∈ l) (hoff : d.isOff (claimBlock c) = false)
    (hl : Tbl.lookD (d.claim c).lanes n (0 : Word) ≠ 0) : ((l.foldl (Dev.loseShape n) d).claim c).shapeLost = true := by
  induction l generalizing d with
  | nil => cases hc
  | cons m l ih =>
    rw [List.foldl_cons]
    by_cases hm : c = m
    · subst hm; exact Dev.shapeLost_foldl_loseShape _ n l (d.claim_loseShape_same n hoff hl)
    · have hblocks : (d.loseShape n m).blocks = d.blocks := congrArg Standing.blocks (d.loseShape_standing n m)
      refine ih _ ((List.mem_cons.1 hc).resolve_left hm) ?_ ?_
      · rw [Dev.isOff, Dev.block_congr hblocks]; exact hoff
      · rw [Dev.lanes_loseShape]; exact hl

theorem Dev.foldl_loseShape_standing (l : List Nat) : (l.foldl (Dev.loseShape n) d).standing =
    { d.standing with shapes := (l.foldl (Dev.loseShape n) d).standing.shapes } := by
  induction l generalizing d with
  | nil => rfl
  | cons c l ih => rw [List.foldl_cons, ih, Dev.loseShape_standing]

/-! ## The whole -/

theorem Dev.condArises_standing {c : Nat} (h : 3 ≤ c) : (d.condArises c).standing = { d.standing with
    cond := d.health.cond ||| BitVec.ofNat 64 (2 ^ c), acked := false, power := { d.power with svcReqN := true } } := by
  have hcond : ∀ e : Dev, e.standing = { d.standing with cond := d.health.cond ||| BitVec.ofNat 64 (2 ^ c) } → ∀ x,
      { e with health := { e.health with acked := false }, host := x, power := { e.power with svcReqN := true } }.standing =
        { d.standing with cond := d.health.cond ||| BitVec.ofNat 64 (2 ^ c), acked := false, power := { d.power with svcReqN := true } } := by
    intro e he x
    have hp : e.power = d.power := congrArg Standing.power he
    calc _ = { e.standing with acked := false, power := { e.power with svcReqN := true } } := rfl
      _ = _ := by rw [he, hp]
  unfold Dev.condArises
  dsimp only
  rw [if_pos h, Dev.raise_standing]
  exact hcond _ (Dev.bumpCap_standing _) _

/-- Before the claims and the die itself are reached, only the objects have changed. -/
def Dev.objectsCut (d : Dev) (n : Nat) : Dev :=
  ((d.killOps (fun d r e => d.opOnDie r e n) stHardwareFault (0x10 + n)).loseObjects n).alarmObjects n

theorem Dev.cutOff_eq : d.cutOff n = ((List.range 32).foldl (Dev.loseShape n) (d.objectsCut n)).modDie n Die.fenced := rfl

theorem Dev.objectsCut_standing : (d.objectsCut n).standing =
    { d.standing with objects := Tbl.mapAll d.objects (fun _ o => o.loseDie n) } := by
  rw [Dev.objectsCut, Dev.alarmObjects_standing, Dev.loseObjects_standing, Dev.killOps_standing, Dev.killOps_objects]

theorem Dev.modDie_standing (f : Die → Die) : (d.modDie n f).standing = { d.standing with dies := Tbl.put d.dies n (f (d.die n)) } := rfl

theorem Dev.cutOff_standing : (d.cutOff n).standing = { d.standing with
    dies := Tbl.put d.dies n (d.die n).fenced, objects := Tbl.mapAll d.objects (fun _ o => o.loseDie n)
    shapes := (d.cutOff n).standing.shapes } := by
  rw [Dev.cutOff_eq]
  have hcut := d.objectsCut_standing n
  have hfold := Dev.foldl_loseShape_standing (d.objectsCut n) n (List.range 32)
  generalize (List.range 32).foldl (Dev.loseShape n) (d.objectsCut n) = e at hfold ⊢
  have hdies : e.dies = d.dies := (congrArg Standing.dies hfold).trans (congrArg Standing.dies hcut)
  rw [Dev.modDie_standing, Dev.die_congr hdies, hdies, hfold, hcut]

theorem Dev.cutOff_shapeLost {c : Nat} (hc : c < 32) (hoff : d.isOff (claimBlock c) = false)
    (hl : Tbl.lookD (d.claim c).lanes n (0 : Word) ≠ 0) : ((d.cutOff n).claim c).shapeLost = true := by
  have hcut := d.objectsCut_standing n
  have hblocks : (d.objectsCut n).blocks = d.blocks := congrArg Standing.blocks hcut
  have hlanes : ((d.objectsCut n).claim c).lanes = (d.claim c).lanes := congrArg Prod.snd (congrFun (congrArg Standing.shapes hcut) c)
  rw [Dev.cutOff_eq, Dev.claim_congr (Dev.modDie_claims _ _ _)]
  refine Dev.foldl_loseShape_of_mem (d.objectsCut n) n (List.mem_range.2 hc) ?_ ?_
  · rw [Dev.isOff, Dev.block_congr hblocks]; exact hoff
  · rw [hlanes]; exact hl

/-- What a containment leaves (R386): the record is made of all but a thermal trip. -/
theorem Dev.containDie_standing (h : (d.die n).contained = false) (thermal : Bool) : (d.containDie n thermal).standing =
    { d.standing with
      dies := Tbl.put d.dies n (d.die n).fenced, objects := Tbl.mapAll d.objects (fun _ o => o.loseDie n)
      shapes := (d.cutOff n).standing.shapes, blocks := (((d.cutOff n).recordDie n thermal).stopDie n).blocks
      store := if thermal then d.store else { d.store with dies := d.store.dies ||| BitVec.ofNat 4 (2 ^ n) }
      cond := d.health.cond ||| BitVec.ofNat 64 (2 ^ 10), acked := false, power := { d.power with svcReqN := true } } := by
  rw [Dev.containDie_eq h, Dev.rebudget_standing, Dev.condArises_standing _ (by omega)]
  have hcut := d.cutOff_standing n
  have hstop := ((d.cutOff n).recordDie n thermal).stopDie_standing n
  have hrecord := (d.cutOff n).recordDie_standing n thermal
  generalize ((d.cutOff n).recordDie n thermal).stopDie n = g at hstop ⊢
  generalize (d.cutOff n).recordDie n thermal = f at hstop hrecord
  generalize d.cutOff n = e at hcut hrecord ⊢
  have hstore : e.store = d.store := congrArg Standing.store hcut
  have hg := (Dev.alarm_standing g (blockCode (dieBlock n)) (blockSts (dieBlock n)) n (BitVec.ofNat 64 (g.block (dieBlock n)).sts)).trans
    (hstop.trans (by rw [hrecord, hcut, hstore]))
  generalize g.alarm _ _ _ _ = k at hg ⊢
  have hpower : k.power = d.power := congrArg Standing.power hg
  have hcond : k.health.cond = d.health.cond := congrArg Standing.cond hg
  rw [hg, hpower, hcond]

theorem Dev.containDie_die (h : (d.die n).contained = false) (thermal : Bool) (k : Nat) :
    (d.containDie n thermal).die k = if k = n then (d.die n).fenced else d.die k := by
  have hc := d.containDie_standing n h thermal
  generalize d.containDie n thermal = g at hc ⊢
  have hdies : g.dies = (d.setDie n (d.die n).fenced).dies := congrArg Standing.dies hc
  rw [Dev.die_congr hdies, Dev.die_setDie]

theorem Dev.containDie_store (h : (d.die n).contained = false) (thermal : Bool) :
    (d.containDie n thermal).store = if thermal then d.store else { d.store with dies := d.store.dies ||| BitVec.ofNat 4 (2 ^ n) } := by
  have hc := d.containDie_standing n h thermal
  generalize d.containDie n thermal = g at hc ⊢
  generalize d.cutOff n = e at hc
  exact congrArg Standing.store hc

theorem Dev.containDie_power (h : (d.die n).contained = false) (thermal : Bool) :
    (d.containDie n thermal).power = { d.power with svcReqN := true } := by
  have hc := d.containDie_standing n h thermal
  generalize d.containDie n thermal = g at hc ⊢
  exact congrArg Standing.power hc

theorem Dev.containDie_block_of_running (thermal : Bool) (h : (d.die n).contained = false)
    (hr : d.isRunning (dieBlock n) = true) : (d.containDie n thermal).block (dieBlock n) =
      { d.block (dieBlock n) with st := .off, autoStop := true, reason := reasonOf (dieBlock n) 0xF7 } := by
  have hcontain := congrArg Standing.blocks (d.containDie_standing n h thermal)
  have hrecord := congrArg Standing.blocks ((d.cutOff n).recordDie_standing n thermal)
  have hcut := congrArg Standing.blocks (d.cutOff_standing n)
  generalize d.containDie n thermal = g at hcontain ⊢
  generalize (d.cutOff n).recordDie n thermal = f at hcontain hrecord
  generalize d.cutOff n = e at hcontain hrecord hcut
  have hg : g.blocks = (f.stopDie n).blocks := hcontain
  have hf : f.blocks = d.blocks := hrecord.trans hcut
  rw [Dev.block_congr hg, Dev.stopDie_block_of_running, Dev.block_congr hf]
  rw [Dev.isRunning, Dev.block_congr hf]; exact hr

/-! ## The part as the statement of R386 reads it -/

/-- Die `n` is contained from `s`: the lanes, objects, shapes and block lost with it, and condition 10. -/
def Contains (s : State) (n : Fin 4) (t : State) : Prop :=
  let d := s.dev
  (t.dev.die n.val).contained = true ∧ (t.dev.die n.val).on = false ∧
  (t.dev.die n.val).laneList = [] ∧ (t.dev.die n.val).coreList = [] ∧ (t.dev.die n.val).laneLog = 0 ∧ (t.dev.die n.val).coreLog = 0 ∧
  (∀ k, k ≠ n.val → t.dev.die k = d.die k) ∧ t.pending = s.pending ∧ t.dev.health.cond.getLsbD 10 = true ∧
  t.dev.health.acked = false ∧ t.dev.power.svcReqN = true ∧ t.dev.tallies = d.tallies ∧
  (∀ k o, d.obj k = some o → ∃ q, t.dev.obj k = some q ∧ q.base = o.base ∧ q.len = o.len ∧ q.near = o.near ∧
    (o.dies.getLsbD n.val = false → q = o) ∧ (o.dies.getLsbD n.val = true → q.lostDies.getLsbD n.val = true ∧
      (o.st = .ready → q.st = .lost) ∧ (o.st ≠ .ready → q.st = o.st) ∧ ∀ v ∈ q.moves, o.unitDie v.unit ≠ n.val)) ∧
  (∀ c, c < 32 → d.isOff (claimBlock c) = false → Tbl.lookD (d.claim c).lanes n.val (0 : Word) ≠ 0 → (t.dev.claim c).shapeLost = true) ∧
  (d.isRunning (.die n) = true → t.dev.block (.die n) = { d.block (.die n) with
    st := .off, autoStop := true, reason := BitVec.ofNat 16 ((0x10 + n.val) * 256 + 0xF7) })

theorem Obj.loseDie_of_not_mem {o : Obj} {n : Nat} (h : o.dies.getLsbD n = false) : o.loseDie n = o := by simp [Obj.loseDie, h]

/-- What an object with units on a lost die keeps and loses (R386). -/
theorem Obj.loseDie_of_mem {o : Obj} (n : Fin 4) (h : o.dies.getLsbD n.val = true) :
    (o.loseDie n.val).lostDies.getLsbD n.val = true ∧ (o.st = .ready → (o.loseDie n.val).st = .lost) ∧
      (o.st ≠ .ready → (o.loseDie n.val).st = o.st) ∧ ∀ v ∈ (o.loseDie n.val).moves, o.unitDie v.unit ≠ n.val := by
  unfold Obj.loseDie
  rw [if_pos h]
  refine ⟨?_, fun hs => ?_, fun hs => ?_, fun v hv => ?_⟩
  · rw [BitVec.getLsbD_or, getLsbD_ofNat_two_pow_self n.isLt, Bool.or_true]
  · simp [hs]
  · simp [hs]
  · simpa using (List.mem_filter.1 hv).2

theorem Obj.loseDie_place (o : Obj) (n : Nat) :
    (o.loseDie n).base = o.base ∧ (o.loseDie n).len = o.len ∧ (o.loseDie n).near = o.near := by
  unfold Obj.loseDie; split <;> exact ⟨rfl, rfl, rfl⟩

/-- A state whose standing part is that of a device of which die `n` was contained, whatever its power and whether or not the die tripped. -/
theorem contains_of_standing {s t : State} {n : Fin 4} {d : Dev} {thermal tripped : Bool} (hfree : (d.die n.val).contained = false)
    (hd : s.dev.standing = { d.standing with power := s.dev.power }) (hpending : t.pending = s.pending)
    (tdie : ∀ k, t.dev.die k = if k = n.val then { (s.dev.die n.val).fenced with tripped := tripped } else s.dev.die k)
    (ht : t.dev.standing = { (d.containDie n.val thermal).standing with dies := t.dev.dies }) : Contains s n t := by
  have hblocks : s.dev.blocks = d.blocks := congrArg Standing.blocks hd
  have hobjects : s.dev.objects = d.objects := congrArg Standing.objects hd
  have htallies : s.dev.tallies = d.tallies := congrArg Standing.tallies hd
  have hlanes : ∀ c, (s.dev.claim c).lanes = (d.claim c).lanes := fun c => congrArg Prod.snd (congrFun (congrArg Standing.shapes hd) c)
  have hcontain := d.containDie_standing n.val hfree thermal
  have hblock := d.containDie_block_of_running n.val thermal hfree
  have hshape : ∀ {c}, c < 32 → d.isOff (claimBlock c) = false → Tbl.lookD (d.claim c).lanes n.val (0 : Word) ≠ 0 →
      ((d.cutOff n.val).claim c).shapeLost = true := d.cutOff_shapeLost n.val
  generalize d.containDie n.val thermal = g at ht hcontain hblock
  generalize d.cutOff n.val = e at hcontain hshape
  have tobjects : t.dev.objects = Tbl.mapAll d.objects (fun _ o => o.loseDie n.val) :=
    (congrArg Standing.objects ht).trans (congrArg Standing.objects hcontain)
  have ttallies : t.dev.tallies = d.tallies := (congrArg Standing.tallies ht).trans (congrArg Standing.tallies hcontain)
  have tcond : t.dev.health.cond = d.health.cond ||| BitVec.ofNat 64 (2 ^ 10) :=
    (congrArg Standing.cond ht).trans (congrArg Standing.cond hcontain)
  have tacked : t.dev.health.acked = false := (congrArg Standing.acked ht).trans (congrArg Standing.acked hcontain)
  have tpower : t.dev.power = { d.power with svcReqN := true } := (congrArg Standing.power ht).trans (congrArg Standing.power hcontain)
  have tshapes : t.dev.standing.shapes = g.standing.shapes := by rw [ht]
  have gshapes : g.standing.shapes = e.standing.shapes := by rw [hcontain]
  have tshape : ∀ c, (t.dev.claim c).shapeLost = (e.claim c).shapeLost := fun c => congrArg Prod.fst (congrFun (tshapes.trans gshapes) c)
  have tblocks : t.dev.blocks = g.blocks := congrArg Standing.blocks ht
  have hown := tdie n.val
  rw [if_pos rfl] at hown
  refine ⟨by rw [hown]; rfl, by rw [hown]; rfl, by rw [hown]; rfl, by rw [hown]; rfl, by rw [hown]; rfl, by rw [hown]; rfl,
    fun k hk => (tdie k).trans (if_neg hk), hpending, ?_, tacked, by rw [tpower], ttallies.trans htallies.symm, fun k o ho => ?_,
    fun c hc hoff hl => ?_, fun hrun => ?_⟩
  · rw [tcond, BitVec.getLsbD_or, getLsbD_ofNat_two_pow_self (by omega), Bool.or_true]
  · have hq : t.dev.obj k = some (o.loseDie n.val) := by
      rw [Dev.obj, tobjects, Tbl.look_mapAll, ← hobjects, show Tbl.look s.dev.objects k = some o from ho]; rfl
    obtain ⟨hbase, hlen, hnear⟩ := o.loseDie_place n.val
    exact ⟨_, hq, hbase, hlen, hnear, fun h => Obj.loseDie_of_not_mem h, fun h => Obj.loseDie_of_mem n h⟩
  · rw [tshape]
    rw [Dev.isOff, Dev.block_congr hblocks] at hoff
    rw [hlanes] at hl
    exact hshape hc hoff hl
  · rw [Dev.isRunning, Dev.block_congr hblocks] at hrun
    rw [Dev.block_congr tblocks, Dev.block_congr hblocks, ← dieBlock_val]
    rw [← dieBlock_val] at hrun
    rw [hblock hrun, dieBlock_val]
    rfl

end Sys2Proof.Machine

/-! The faults of chapter 17: a die's containment and thermal trip, an engine's fault, a tally's fault (R385 to R387). -/
namespace Sys2Proof.Machine

/-! ## Dies (R14, R386) -/

section Dies
variable (s : State) (n : Fin 4)

theorem ends_dieContain (hfree : (s.dev.die n.val).contained = false) (hub : s.dev.power.hubOn = true) : Ends (.dieContain n) s (fun t =>
    Contains s n t ∧ t.dev.store.dies = s.dev.store.dies ||| BitVec.ofNat 4 (2 ^ n.val)) := by
  have hreap := s.dev.reap_standing (s.dev.containDie n.val false) s.mem
  have hdie := s.dev.containDie_die n.val hfree false
  have hstore := congrArg SignedStore.dies (s.dev.containDie_store n.val hfree false)
  refine ⟨_, if_pos hub, contains_of_standing (d := s.dev) (thermal := false) (tripped := (s.dev.die n.val).tripped) hfree rfl rfl ?_ ?_, ?_⟩
  · exact fun k => (Dev.die_congr (congrArg Standing.dies hreap) k).trans (hdie k)
  · generalize s.dev.containDie n.val false = g at hreap ⊢
    exact hreap.trans (congrArg (fun x => { g.standing with dies := x }) (congrArg Standing.dies hreap).symm)
  · generalize s.dev.containDie n.val false = g at hreap hstore
    exact (congrArg SignedStore.dies (congrArg Standing.store hreap)).trans hstore

/-- Before the die is contained, its trip has asserted THERM_N and raised an alarm. -/
def Dev.thermalTripped (d : Dev) (n : Nat) : Dev :=
  ({ d with power := { d.power with thermTrip := true, thermN := true } }).pwrAlarm n

theorem Dev.thermalTripped_standing (d : Dev) (n : Nat) : (d.thermalTripped n).standing =
    { d.standing with power := { d.power with thermTrip := true, thermN := true } } := Dev.alarm_standing _ _ _ _ _

theorem ends_dieThermalTrip (hfree : (s.dev.die n.val).contained = false) (hon : (s.dev.die n.val).on = true) :
    Ends (.dieThermalTrip n) s (fun t => Contains s n t ∧ t.dev.store.dies = s.dev.store.dies ∧
      (t.dev.die n.val).tripped = true ∧ t.dev.power.thermN = true ∧ t.dev.power.thermTrip = true) := by
  have hexec : exec (.dieThermalTrip n) s =
      reapTo s (((s.dev.thermalTripped n.val).containDie n.val true).modDie n.val (fun x => { x with tripped := true })) := if_pos hon
  have htrip := s.dev.thermalTripped_standing n.val
  generalize s.dev.thermalTripped n.val = d at hexec htrip
  have hdie : ∀ k, d.die k = s.dev.die k := Dev.die_congr (congrArg Standing.dies htrip)
  have hfree' : (d.die n.val).contained = false := by rw [hdie]; exact hfree
  have hcontain := d.containDie_die n.val hfree' true
  have hstore := d.containDie_store n.val hfree' true
  have hpower := d.containDie_power n.val hfree' true
  have hreap := s.dev.reap_standing ((d.containDie n.val true).modDie n.val (fun x => { x with tripped := true })) s.mem
  unfold reapTo at hexec
  generalize s.dev.reap _ s.mem = r at hexec hreap
  have tdie : ∀ k, r.1.die k = if k = n.val then { (s.dev.die n.val).fenced with tripped := true } else s.dev.die k := fun k => by
    rw [Dev.die_congr (congrArg Standing.dies hreap), Dev.die_modDie, hcontain, hcontain, if_pos rfl, hdie, hdie]
    split <;> rfl
  have tstore : r.1.store = s.dev.store := (congrArg Standing.store hreap).trans (hstore.trans (congrArg Standing.store htrip))
  have tpower : r.1.power = { d.power with svcReqN := true } := (congrArg Standing.power hreap).trans hpower
  have dpower : d.power = { s.dev.power with thermTrip := true, thermN := true } := congrArg Standing.power htrip
  refine ⟨_, hexec, contains_of_standing (d := d) (thermal := true) (tripped := true) hfree' ?_ rfl tdie ?_,
    congrArg SignedStore.dies tstore, ?_, ?_, ?_⟩
  · rw [htrip]; rfl
  · generalize d.containDie n.val true = g at hreap ⊢
    exact hreap.trans (congrArg (fun x => { g.standing with dies := x }) (congrArg Standing.dies hreap).symm)
  · exact congrArg Die.tripped ((tdie n.val).trans (if_pos rfl))
  · exact congrArg Power.thermN (tpower.trans (congrArg (fun x => { x with svcReqN := true }) dpower))
  · exact congrArg Power.thermTrip (tpower.trans (congrArg (fun x => { x with svcReqN := true }) dpower))

end Dies

/-! ## Engines (R387) -/

section Engines
variable (d : Dev) (b : BlockId)

/-- A fault of an engine is raised as an alarm and its tick kept. -/
def Dev.noteFault : Dev :=
  let e := d.alarm (blockCode b) 0x1E0010 0xFFFFFFFF d.health.cond
  { e with health := { e.health with engineFault := Tbl.put e.health.engineFault (blockCode b) e.phys } }

/-- The engine faulted before, within 1 s. -/
def Dev.faultedLately : Bool :=
  match Tbl.look d.health.engineFault (blockCode b) with | some t => decide (elapsed d.phys t ≤ 1000000000) | none => false

/-- A second fault leaves the block REFUSED and recorded. -/
def Dev.refuseEngine : Dev :=
  let k := blockCode b
  let e := d.moveBlock b { d.block b with st := .refused, autoStop := (d.block b).autoStop || d.isRunning b, reason := reasonOf b 0xF7 }
  { e with store := { e.store with engines := if e.store.engines.contains k then e.store.engines else e.store.engines ++ [k] } }.condArises 9

/-- What a fault makes of the engine's block. -/
def Dev.faultEngine (again : Bool) : Dev :=
  if again then d.refuseEngine b else if d.isRunning b then d.selfStop b (reasonOf b 0xF7) else d

theorem Dev.faultedLately_iff : d.faultedLately b = true ↔
    ∃ t, Tbl.look d.health.engineFault (blockCode b) = some t ∧ elapsed d.phys t ≤ 1000000000 := by
  unfold Dev.faultedLately
  cases Tbl.look d.health.engineFault (blockCode b) <;> simp

theorem Dev.noteFault_standing : (d.noteFault b).standing =
    { d.standing with engineFault := Tbl.put d.health.engineFault (blockCode b) d.phys } := by
  have halarm := d.alarm_standing (blockCode b) 0x1E0010 0xFFFFFFFF d.health.cond
  have hphys : (d.alarm (blockCode b) 0x1E0010 0xFFFFFFFF d.health.cond).phys = d.phys := by simp [Dev.phys]
  unfold Dev.noteFault
  dsimp only
  rw [hphys]
  generalize d.alarm _ _ _ _ = e at halarm
  have hfault : e.health.engineFault = d.health.engineFault := congrArg Standing.engineFault halarm
  exact (congrArg (fun x : Standing => { x with engineFault := Tbl.put e.health.engineFault (blockCode b) d.phys }) halarm).trans
    (by rw [hfault])

theorem Dev.refuseEngine_standing : (d.refuseEngine b).standing = { d.standing with
    blocks := Tbl.put d.blocks (blockKey b)
      { d.block b with st := .refused, autoStop := (d.block b).autoStop || d.isRunning b, reason := reasonOf b 0xF7 }
    store := { d.store with engines := if d.store.engines.contains (blockCode b) then d.store.engines else d.store.engines ++ [blockCode b] }
    cond := d.health.cond ||| BitVec.ofNat 64 (2 ^ 9), acked := false, power := { d.power with svcReqN := true } } := by
  have hmove := d.moveBlock_standing b
    { d.block b with st := .refused, autoStop := (d.block b).autoStop || d.isRunning b, reason := reasonOf b 0xF7 }
  unfold Dev.refuseEngine
  dsimp only
  rw [Dev.condArises_standing _ (by omega)]
  generalize d.moveBlock b _ = e at hmove
  have hstore : e.store = d.store := congrArg Standing.store hmove
  have hcond : e.health.cond = d.health.cond := congrArg Standing.cond hmove
  have hpower : e.power = d.power := congrArg Standing.power hmove
  rw [hcond, hpower, hstore]
  exact congrArg (fun x : Standing => { x with
    store := { d.store with engines := if d.store.engines.contains (blockCode b) then d.store.engines else d.store.engines ++ [blockCode b] }
    cond := d.health.cond ||| BitVec.ofNat 64 (2 ^ 9), acked := false, power := { d.power with svcReqN := true } }) hmove

theorem Dev.faultedLately_congr {d e : Dev} (hf : e.health.engineFault = d.health.engineFault) (hp : e.phys = d.phys) :
    e.faultedLately b = d.faultedLately b := by
  rw [Dev.faultedLately, Dev.faultedLately, hf, hp]

theorem exec_engineFault {s : State} (hb : isEngine b = true) (hub : s.dev.power.hubOn = true) : exec (.engineFault b) s =
    if s.dev.isRunning b then answerMem s (((s.dev.noteFault b).faultEngine b (s.dev.faultedLately b)).stopEngine s.mem b)
    else answer s ((s.dev.noteFault b).faultEngine b (s.dev.faultedLately b)) := by
  have hexec : exec (.engineFault b) s =
      let again := (s.dev.alarm (blockCode b) 0x1E0010 0xFFFFFFFF s.dev.health.cond).faultedLately b
      if (s.dev.noteFault b).isRunning b then answerMem s (((s.dev.noteFault b).faultEngine b again).stopEngine s.mem b)
      else answer s ((s.dev.noteFault b).faultEngine b again) := if_pos (by rw [hb, hub]; rfl)
  have halarm := s.dev.alarm_standing (blockCode b) 0x1E0010 0xFFFFFFFF s.dev.health.cond
  have hphys : (s.dev.alarm (blockCode b) 0x1E0010 0xFFFFFFFF s.dev.health.cond).phys = s.dev.phys := by simp [Dev.phys]
  have hnote := congrArg Standing.blocks (s.dev.noteFault_standing b)
  rw [hexec]
  generalize s.dev.alarm _ _ _ _ = e at halarm hphys
  generalize s.dev.noteFault b = f at hnote
  dsimp only
  rw [Dev.faultedLately_congr b (congrArg Standing.engineFault halarm) hphys, Dev.isRunning, Dev.block_congr hnote, Dev.isRunning]

/-- Where an engine's fault leaves the device. -/
theorem ends_engineFault_standing {s : State} (hb : isEngine b = true) (hub : s.dev.power.hubOn = true) : Ends (.engineFault b) s (fun t =>
    t.pending = s.pending ∧ t.dev.standing = ((s.dev.noteFault b).faultEngine b (s.dev.faultedLately b)).standing) := by
  rw [Ends, exec_engineFault b hb hub]
  split
  · exact ⟨_, rfl, rfl, Dev.stopEngine_standing _ _ _⟩
  · exact ⟨_, rfl, rfl, rfl⟩

/-- What a status written over a block leaves of the blocks. -/
theorem Dev.block_of_put {e d : Dev} {b : BlockId} {x : Block} (h : e.blocks = Tbl.put d.blocks (blockKey b) x) :
    e.block b = x ∧ ∀ c, blockKey c ≠ blockKey b → e.block c = d.block c := by
  have hset : e.blocks = (d.setBlock b x).blocks := h
  refine ⟨(Dev.block_congr hset b).trans (Dev.block_setBlock_same d b x), fun c hc => ?_⟩
  rw [Dev.block, h, Tbl.lookD_put_other _ _ _ hc, Dev.block]

section Read
variable {d e : Dev} {b : BlockId}

/-- The block's part of a second fault within 1 s. -/
theorem Dev.read_refusedEngine (h : e.standing = ((d.noteFault b).refuseEngine b).standing) :
    Tbl.look e.health.engineFault (blockCode b) = some d.phys ∧ (∀ c, blockKey c ≠ blockKey b → e.block c = d.block c) ∧
      e.block b = { d.block b with st := .refused, autoStop := (d.block b).autoStop || d.isRunning b, reason := reasonOf b 0xF7 } ∧
      blockCode b ∈ e.store.engines ∧ e.health.cond.getLsbD 9 = true := by
  have hnote := d.noteFault_standing b
  rw [Dev.refuseEngine_standing] at h
  generalize d.noteFault b = f at h hnote
  have hf : f.blocks = d.blocks := congrArg Standing.blocks hnote
  have hblocks : e.blocks = Tbl.put f.blocks (blockKey b)
      { f.block b with st := .refused, autoStop := (f.block b).autoStop || f.isRunning b, reason := reasonOf b 0xF7 } :=
    congrArg Standing.blocks h
  rw [Dev.isRunning, Dev.block_congr hf, hf] at hblocks
  obtain ⟨hsame, hother⟩ := Dev.block_of_put (d := d) hblocks
  have hfault : e.health.engineFault = Tbl.put d.health.engineFault (blockCode b) d.phys :=
    (congrArg Standing.engineFault h).trans (congrArg Standing.engineFault hnote)
  have hengines : e.store.engines = if f.store.engines.contains (blockCode b) then f.store.engines else f.store.engines ++ [blockCode b] :=
    congrArg (fun x => x.store.engines) h
  have hcond : e.health.cond = f.health.cond ||| BitVec.ofNat 64 (2 ^ 9) := congrArg Standing.cond h
  refine ⟨by rw [hfault, Tbl.look_put_same], hother, hsame, ?_, ?_⟩
  · rw [hengines]
    split
    next hc => simpa using hc
    next => simp
  · rw [hcond, BitVec.getLsbD_or, getLsbD_ofNat_two_pow_self (by omega), Bool.or_true]

/-- The block's part of a first fault. -/
theorem Dev.read_faultedEngine (h : e.standing = ((d.noteFault b).faultEngine b false).standing) :
    Tbl.look e.health.engineFault (blockCode b) = some d.phys ∧ (∀ c, blockKey c ≠ blockKey b → e.block c = d.block c) ∧
      e.store = d.store ∧ e.health.cond = d.health.cond ∧
      e.block b = (if d.isRunning b then { d.block b with st := .quiescing, autoStop := true, reason := reasonOf b 0xF7 } else d.block b) := by
  have hnote := d.noteFault_standing b
  generalize d.noteFault b = f at h hnote
  have hf : f.blocks = d.blocks := congrArg Standing.blocks hnote
  have hgo : f.faultEngine b false = if d.isRunning b then f.selfStop b (reasonOf b 0xF7) else f := by
    rw [Dev.faultEngine, Dev.isRunning, Dev.block_congr hf]; rfl
  rw [hgo] at h
  have hfault : f.health.engineFault = Tbl.put d.health.engineFault (blockCode b) d.phys := congrArg Standing.engineFault hnote
  have hstore : f.store = d.store := congrArg Standing.store hnote
  have hcond : f.health.cond = d.health.cond := congrArg Standing.cond hnote
  split at h
  next hran =>
    rw [Dev.selfStop_standing, Dev.block_congr hf, hf] at h
    obtain ⟨hsame, hother⟩ := Dev.block_of_put (d := d) (congrArg Standing.blocks h)
    have efault : e.health.engineFault = f.health.engineFault := congrArg Standing.engineFault h
    exact ⟨by rw [efault, hfault, Tbl.look_put_same], hother, (congrArg Standing.store h).trans hstore,
      (congrArg Standing.cond h).trans hcond, by rw [hsame, if_pos hran]⟩
  next hran =>
    have efault : e.health.engineFault = f.health.engineFault := congrArg Standing.engineFault h
    have eblocks : e.blocks = d.blocks := (congrArg Standing.blocks h).trans hf
    exact ⟨by rw [efault, hfault, Tbl.look_put_same], fun c _ => Dev.block_congr eblocks c, (congrArg Standing.store h).trans hstore,
      (congrArg Standing.cond h).trans hcond, by rw [Dev.block_congr eblocks, if_neg hran]⟩

end Read

theorem ends_engineFault (s : State) (b : BlockId) (hb : isEngine b = true) (hub : s.dev.power.hubOn = true) :
    let d := s.dev
    let k := blockCode b
    let again := ∃ t0, Tbl.look d.health.engineFault k = some t0 ∧ elapsed d.phys t0 ≤ 1000000000
    let why := BitVec.ofNat 16 (k * 256 + 0xF7)
    Ends (.engineFault b) s (fun t => t.pending = s.pending ∧ Tbl.look t.dev.health.engineFault k = some d.phys ∧
      (∀ c, blockKey c ≠ blockKey b → t.dev.block c = d.block c) ∧
      (again → t.dev.block b = { d.block b with st := .refused, autoStop := (d.block b).autoStop || d.isRunning b, reason := why } ∧
        k ∈ t.dev.store.engines ∧ t.dev.health.cond.getLsbD 9 = true) ∧
      (¬ again → t.dev.store = d.store ∧ t.dev.health.cond = d.health.cond ∧
        t.dev.block b = (if d.isRunning b then { d.block b with st := .quiescing, autoStop := true, reason := why } else d.block b))) := by
  intro d k again why
  obtain ⟨t, ht, hpending, hstand⟩ := ends_engineFault_standing b hb hub
  refine ⟨t, ht, hpending, ?_⟩
  cases hlate : d.faultedLately b with
  | true =>
    rw [hlate] at hstand
    obtain ⟨hfault, hother, hblock, hengine, hcond⟩ := Dev.read_refusedEngine hstand
    exact ⟨hfault, hother, fun _ => ⟨hblock, hengine, hcond⟩, fun hno => absurd ((d.faultedLately_iff b).1 hlate) hno⟩
  | false =>
    rw [hlate] at hstand
    obtain ⟨hfault, hother, hrest⟩ := Dev.read_faultedEngine hstand
    exact ⟨hfault, hother, fun hyes => absurd ((d.faultedLately_iff b).2 hyes) (by simp [hlate]), fun _ => hrest⟩

end Engines

/-! ## Tallies (R385) -/

section Tallies
variable (s : State) (n : BitVec 16)

/-- The fault of a tally that no claim has is recorded, once. -/
def Dev.retireTally (d : Dev) (t : Nat) : Dev :=
  if d.store.tallies.contains t then d else { d with store := { d.store with tallies := d.store.tallies ++ [t] } }

theorem Dev.retireTally_eq (d : Dev) (t : Nat) :
    d.retireTally t = { d with store := { d.store with tallies := (d.retireTally t).store.tallies } } := by
  unfold Dev.retireTally; split <;> rfl

theorem Dev.mem_retireTally (d : Dev) (t : Nat) :
    t ∈ (d.retireTally t).store.tallies ∧ ∀ k ∈ d.store.tallies, k ∈ (d.retireTally t).store.tallies := by
  unfold Dev.retireTally
  split
  next h => exact ⟨by simpa using h, fun _ hk => hk⟩
  next => exact ⟨by simp, fun _ hk => List.mem_append_left _ hk⟩

theorem exec_tallyEntryFault_unassigned (hub : s.dev.power.hubOn = true) (hown : s.dev.tallyOwner n.toNat = none) :
    exec (.tallyEntryFault n) s = answer s ((s.dev.alarm 0x03 0x1E0010 n.toNat s.dev.health.cond).retireTally n.toNat) := by
  have hexec : exec (.tallyEntryFault n) s = _ := if_pos hub
  rw [hexec, hown]
  rfl

theorem ends_tallyEntryFault_unassigned (hub : s.dev.power.hubOn = true) (hown : s.dev.tallyOwner n.toNat = none) :
    Ends (.tallyEntryFault n) s (fun t =>
      t = { s with dev := { s.dev with
        health := t.dev.health, out := t.dev.out, host := { s.dev.host with msixPending := t.dev.host.msixPending }
        store := { s.dev.store with tallies := t.dev.store.tallies } } } ∧ (.msix 1 ∈ t.dev.out ∨ t.dev.host.msixPending.getLsbD 1 = true) ∧
      t.dev.health.alarms = s.dev.health.alarms + 1 ∧ n.toNat ∈ t.dev.store.tallies ∧ ∀ k ∈ s.dev.store.tallies, k ∈ t.dev.store.tallies) := by
  have halarm := s.dev.alarm_eq 0x03 0x1E0010 n.toNat s.dev.health.cond
  have hsent := s.dev.alarm_sent_or_pending 0x03 0x1E0010 n.toNat s.dev.health.cond
  have hcount := s.dev.alarm_alarms 0x03 0x1E0010 n.toNat s.dev.health.cond
  have hstore := s.dev.alarm_store 0x03 0x1E0010 n.toNat s.dev.health.cond
  refine ⟨_, exec_tallyEntryFault_unassigned s n hub hown, ?_⟩
  generalize s.dev.alarm _ _ _ _ = e at halarm hsent hcount hstore
  obtain ⟨hmem, hold⟩ := e.mem_retireTally n.toNat
  have hretire := e.retireTally_eq n.toNat
  generalize e.retireTally n.toNat = f at hretire hmem hold ⊢
  have hhealth : f.health = e.health := by rw [hretire]
  have hhost : f.host = e.host := by rw [hretire]
  have hout : f.out = e.out := by rw [hretire]
  refine ⟨State.ext ?_ rfl rfl, by rw [hhost, hout]; exact hsent, by rw [hhealth]; exact hcount, hmem, hstore ▸ hold⟩
  dsimp only
  rw [hhealth, hhost, hout, ← hstore]
  exact hretire.trans (congrArg (fun x => { x with store := { e.store with tallies := f.store.tallies } }) halarm)

theorem Dev.selfStop_block_other (d : Dev) {b c : BlockId} (why : BitVec 16) (h : blockKey c ≠ blockKey b) :
    (d.selfStop b why).block c = d.block c := by
  rw [Dev.selfStop, Dev.block_congr (Dev.raise_blocks _ _), Dev.block_moveBlock_other _ _ h]

theorem blockKey_claim_ne_ring (c r : Nat) : blockKey (claimBlock c) ≠ blockKey (ringBlock r) := by
  have hr : r % 1024 < 1024 := Nat.mod_lt _ (by omega)
  show 3000 + c % 32 ≠ 1000 + r % 1024
  omega

theorem Dev.stopRing_block_claim (d : Dev) (r c : Nat) (why : BitVec 16) :
    (d.stopRing r why).block (claimBlock c) = d.block (claimBlock c) := by
  unfold Dev.stopRing
  split_ifs
  · rw [Dev.block_congr (Dev.cancelUnstarted_blocks _ _), Dev.selfStop_block_other _ _ (blockKey_claim_ne_ring c r)]
  · exact Dev.block_congr (Dev.cancelUnstarted_blocks _ _) _
  · rfl

/-- A claim that has left RUNNING stops its rings, and no claim's block moves. -/
theorem Dev.claimLeft_block_claim (d : Dev) (k c : Nat) : (d.claimLeft k).block (claimBlock c) = d.block (claimBlock c) := by
  unfold Dev.claimLeft
  rw [Dev.block_congr (Dev.endInterrupted_blocks _ _)]
  exact (foldl_keep (fun d : Dev => d.block (claimBlock c)) _ (fun d r => d.stopRing_block_claim r c 0x0213) _ _).trans
    (Dev.block_congr (Dev.forgetDebt_blocks _ _) _)

theorem Dev.stopClaim_block (d : Dev) {c : Nat} (why : BitVec 16) (h : d.isRunning (claimBlock c) = true) :
    (d.stopClaim c why).block (claimBlock c) = { d.block (claimBlock c) with st := .quiescing, autoStop := true, reason := why } := by
  rw [Dev.stopClaim, if_pos h, Dev.claimLeft_block_claim, Dev.selfStop_block]

theorem ends_tallyEntryFault_assigned {c : Nat} (hub : s.dev.power.hubOn = true) (hown : s.dev.tallyOwner n.toNat = some c)
    (hrun : s.dev.isRunning (claimBlock c) = true) : Ends (.tallyEntryFault n) s (fun t =>
      t.pending = s.pending ∧ t.dev.store = s.dev.store ∧ t.dev.block (claimBlock c) = { s.dev.block (claimBlock c) with
        st := .quiescing, autoStop := true, reason := 0x03F7 }) := by
  have halarm := s.dev.alarm_standing 0x03 0x1E0010 n.toNat s.dev.health.cond
  have hexec : exec (.tallyEntryFault n) s = _ := if_pos hub
  rw [hown] at hexec
  dsimp only at hexec
  generalize s.dev.alarm _ _ _ _ = e at halarm hexec
  have eblocks : e.blocks = s.dev.blocks := congrArg Standing.blocks halarm
  have erun : e.isRunning (claimBlock c) = true := by rw [Dev.isRunning, Dev.block_congr eblocks]; exact hrun
  rw [if_pos erun] at hexec
  have hstop := Dev.stopClaim_block e 0x03F7 erun
  have hstore := e.stopClaim_store c 0x03F7
  generalize e.stopClaim c 0x03F7 = f at hexec hstop hstore
  have hreap := (Dev.reap_standing e (f.abortClaim c).1 (s.mem.applyAll (f.abortClaim c).2)).trans (f.abortClaim_standing c)
  refine ⟨_, hexec, rfl, ?_, ?_⟩
  · exact (congrArg Standing.store hreap).trans (hstore.trans (congrArg Standing.store halarm))
  · rw [Dev.block_congr (congrArg Standing.blocks hreap), hstop, Dev.block_congr eblocks]

end Tallies

/-- Settles O55. -/
theorem faultsContainDiesAndStopEngines : Obligations.FaultsContainDiesAndStopEngines := fun s =>
  ⟨fun n hfree => ⟨ends_dieContain s n hfree, ends_dieThermalTrip s n hfree⟩, ends_engineFault s, fun n hub =>
    ⟨ends_tallyEntryFault_unassigned s n hub, fun _ => ends_tallyEntryFault_assigned s n hub⟩⟩

end Sys2Proof.Machine

/-! Main power-up (R16, Table 1.9). -/
namespace Sys2Proof.Machine

/-! ## Memory dropped -/

theorem Memory.get_filter_dropped (m : Memory) (p : Host.Cell → Bool) {k : Nat} (h : ∀ b, p (k, b) = false) :
    Memory.get (m.filter p) k = 0 := by
  induction m with
  | nil => rfl
  | cons c m ih =>
    obtain ⟨i, b⟩ := c
    rw [List.filter_cons]
    split
    next hp =>
      have hne : i ≠ k := by rintro rfl; simp [h] at hp
      rw [Memory.get, if_neg hne, ih]
    next => exact ih

theorem Memory.get_clearAll (m : Memory) (a : Nat) (h : a < 2 ^ 64) : (m.applyAll clearAll).get a = 0 :=
  Memory.get_filter_dropped m _ fun b => by simpa using h

/-! ## ALWAYS_ON_POWER_UP: what it reads of the signed store (R400, Table 18.1) -/

/-- A record found still ARMED becomes UNWARNED with an all-ones tick (R419). -/
def Dev.disarmed (d : Dev) : Dev := if d.store.armed then d.recordLoss 3 (BitVec.allOnes 64) else d

theorem exec_alwaysOnPowerUp (mated mainOk auxOk identityOk : Bool) (noCopy : BitVec 5) (s : State) :
    exec (.alwaysOnPowerUp mated mainOk auxOk identityOk noCopy) s =
      answerMem s ({ (s.dev.readStore noCopy).restart.disarmed with power := { (s.dev.readStore noCopy).restart.disarmed.power with
        identityBad := !identityOk || noCopy.getLsbD 0, mated := mated, matedSettled := mated, mainOk := mainOk,
        mainLive := mainOk || !auxOk, auxOk := auxOk, auxFromMain := !auxOk } }, clearAll) := rfl

theorem Dev.disarmed_eq (d : Dev) : d.disarmed = { d with store := d.disarmed.store } := by
  unfold Dev.disarmed; split <;> rfl

theorem Dev.disarmed_of_not_armed {d : Dev} (h : d.store.armed = false) : d.disarmed = d := by simp [Dev.disarmed, h]

/-- The record apart, a store is as it was found. -/
theorem Dev.disarmed_keeps {α : Type} (d : Dev) (f : SignedStore → α)
    (hf : ∀ t c k b, f { t with lossCause := c, lossTick := k, armed := b } = f t) : f d.disarmed.store = f d.store := by
  unfold Dev.disarmed; split
  · exact hf _ _ _ _
  · rfl

theorem Dev.readStore_store (d : Dev) (n : BitVec 5) : ∃ v k, (d.readStore n).store = d.store.found n v k := by
  unfold Dev.readStore
  split
  next h => subst h; exact ⟨0, 0, rfl⟩
  next => exact ⟨_, _, rfl⟩

section Found
variable (t : SignedStore) {n : BitVec 5} (v : W32) (k : Tick)

theorem SignedStore.found_noCopy : (t.found n v k).noCopy = n := by
  unfold SignedStore.found; dsimp only; (repeat' split) <;> rfl

theorem SignedStore.found_authorities_lost (h : n.getLsbD 1 = true ∨ n.getLsbD 2 = true) :
    (t.found n v k).authorities = [] ∧ (t.found n v k).debugKeys = [] := by
  unfold SignedStore.found; simp only [Bool.or_eq_true, if_pos h]; (repeat' split) <;> exact ⟨rfl, rfl⟩

theorem SignedStore.found_authorities_kept (h1 : n.getLsbD 1 = false) (h2 : n.getLsbD 2 = false) :
    (t.found n v k).authorities = t.authorities ∧ (t.found n v k).debugKeys = t.debugKeys := by
  unfold SignedStore.found; simp only [h1, h2, Bool.or_false, Bool.false_eq_true, if_false]; (repeat' split) <;> exact ⟨rfl, rfl⟩

theorem SignedStore.found_protection_lost (h : n.getLsbD 2 = true) :
    (t.found n v k).protSeq = 0 ∧ (t.found n v k).regionPolicy = 2 ∧ (t.found n v k).isolation = 1 ∧ (t.found n v k).siteMarks = 0 ∧
      (t.found n v k).ideRequired = true := by
  unfold SignedStore.found; simp only [if_pos h]; (repeat' split) <;> exact ⟨rfl, rfl, rfl, rfl, rfl⟩

/-- An empty health record shows no condition. -/
theorem SignedStore.conditions_of_empty {t : SignedStore} (h : t.lanes = [] ∧ t.cores = [] ∧ t.dies = 0 ∧ t.planes = 0 ∧ t.engines = [] ∧
    t.groups = 0 ∧ t.ports = 0 ∧ t.deepGroups = []) : t.conditions = 0 := by
  obtain ⟨hl, hc, hd, hp, he, hg, ho, hw⟩ := h
  unfold SignedStore.conditions
  rw [hl, hc, hd, hp, he, hg, ho, hw]
  decide +kernel

theorem SignedStore.found_health_lost (h : n.getLsbD 3 = true) : (t.found n v k).conditions = 0 := by
  refine SignedStore.conditions_of_empty ?_
  unfold SignedStore.found; simp only [if_pos h]; (repeat' split) <;> exact ⟨rfl, rfl, rfl, rfl, rfl, rfl, rfl, rfl⟩

theorem SignedStore.found_record_lost (h : n.getLsbD 4 = true) :
    (t.found n v k).lossCause = 0 ∧ (t.found n v k).armed = false := by
  unfold SignedStore.found; rw [if_pos h]; exact ⟨rfl, rfl⟩

end Found

theorem ends_alwaysOnPowerUp (s : State) (mated mainOk auxOk identityOk : Bool) (noCopy : BitVec 5) :
    Ends (.alwaysOnPowerUp mated mainOk auxOk identityOk noCopy) s (fun t =>
      let a := s.dev.store
      t.pending = s.pending ∧ (∀ a, a < 2 ^ 64 → t.mem.get a = 0) ∧ t.dev.power.pstate = .auxOnly ∧ t.dev.power.mated = mated ∧
      t.dev.power.mainOk = mainOk ∧ t.dev.power.auxOk = auxOk ∧ t.dev.power.hubOn = false ∧
      t.dev.power.identityBad = (!identityOk || noCopy.getLsbD 0) ∧
      (noCopy = 0 → t.dev.store = (if a.armed then { a with lossCause := 3, lossTick := BitVec.allOnes 64, armed := false, noCopy := 0 }
                                   else { a with noCopy := 0 })) ∧
      t.dev.store.noCopy = noCopy ∧
      (noCopy.getLsbD 1 = true → t.dev.store.authorities = [] ∧ t.dev.store.debugKeys = []) ∧
      (noCopy.getLsbD 1 = false → noCopy.getLsbD 2 = false → t.dev.store.authorities = a.authorities ∧ t.dev.store.debugKeys = a.debugKeys) ∧
      (noCopy.getLsbD 2 = true → t.dev.store.protSeq = 0 ∧ t.dev.store.regionPolicy = 2 ∧ t.dev.store.isolation = 1 ∧
        t.dev.store.siteMarks = 0 ∧ t.dev.store.ideRequired = true ∧ t.dev.store.authorities = []) ∧
      (noCopy.getLsbD 3 = true → t.dev.health.cond = 0 ∧ t.dev.healthNow = 2 ∧ t.dev.power.svcReqN = true ∧ t.dev.store.conditions = 0) ∧
      (noCopy.getLsbD 4 = true → t.dev.store.lossCause = 0 ∧ t.dev.store.armed = false)) := by
  obtain ⟨v, k, hr⟩ := s.dev.readStore_store noCopy
  have hpower : (s.dev.readStore noCopy).restart.disarmed.power = (s.dev.readStore noCopy).restart.power := by rw [Dev.disarmed_eq]
  have hcond : (s.dev.readStore noCopy).restart.disarmed.health.cond = (s.dev.store.found noCopy v k).conditions := by
    rw [Dev.disarmed_eq, ← hr]; rfl
  have keeps {α : Type} (f : SignedStore → α) (hf : ∀ t c k b, f { t with lossCause := c, lossTick := k, armed := b } = f t) :
      f (s.dev.readStore noCopy).restart.disarmed.store = f (s.dev.store.found noCopy v k) :=
    (Dev.disarmed_keeps _ f hf).trans (congrArg f hr)
  have hnone : (s.dev.readStore noCopy).restart.disarmed.store.noCopy = noCopy :=
    (keeps SignedStore.noCopy fun _ _ _ _ => rfl).trans (SignedStore.found_noCopy _ _ _)
  have hauth := keeps SignedStore.authorities fun _ _ _ _ => rfl
  have hdebug := keeps SignedStore.debugKeys fun _ _ _ _ => rfl
  refine ⟨_, exec_alwaysOnPowerUp .., rfl, Memory.get_clearAll _, ?_, rfl, rfl, rfl, ?_, rfl, ?_, hnone, ?_, ?_, ?_, ?_, ?_⟩
  · exact congrArg Power.pstate hpower
  · exact congrArg Power.hubOn hpower
  · intro h; subst h; exact apply_ite Dev.store _ _ _
  · intro h
    obtain ⟨ha, hk⟩ := SignedStore.found_authorities_lost s.dev.store v k (.inl h)
    exact ⟨hauth.trans ha, hdebug.trans hk⟩
  · intro h1 h2
    obtain ⟨ha, hk⟩ := SignedStore.found_authorities_kept s.dev.store v k h1 h2
    exact ⟨hauth.trans ha, hdebug.trans hk⟩
  · intro h
    obtain ⟨hs, hp, hi, hm, he⟩ := SignedStore.found_protection_lost s.dev.store v k h
    exact ⟨(keeps SignedStore.protSeq fun _ _ _ _ => rfl).trans hs, (keeps SignedStore.regionPolicy fun _ _ _ _ => rfl).trans hp,
      (keeps SignedStore.isolation fun _ _ _ _ => rfl).trans hi, (keeps SignedStore.siteMarks fun _ _ _ _ => rfl).trans hm,
      (keeps SignedStore.ideRequired fun _ _ _ _ => rfl).trans he, hauth.trans (SignedStore.found_authorities_lost _ _ _ (.inr h)).1⟩
  · intro h
    have hempty := SignedStore.found_health_lost s.dev.store v k h
    refine ⟨hcond.trans hempty, ?_, ?_, (keeps SignedStore.conditions fun _ _ _ _ => rfl).trans hempty⟩
    · simp only [Dev.healthNow, hnone, h, hcond, hempty, if_true]; rfl
    · refine (congrArg Power.svcReqN hpower).trans ?_
      simp [Dev.restart, hr, SignedStore.found_noCopy, h]
  · intro h
    obtain ⟨hc, ha⟩ := SignedStore.found_record_lost s.dev.store v k h
    have harmed : (s.dev.readStore noCopy).restart.store.armed = false := (congrArg SignedStore.armed hr).trans ha
    have hkeep : (s.dev.readStore noCopy).restart.disarmed.store = s.dev.store.found noCopy v k :=
      (congrArg Dev.store (Dev.disarmed_of_not_armed harmed)).trans hr
    exact ⟨(congrArg SignedStore.lossCause hkeep).trans hc, (congrArg SignedStore.armed hkeep).trans ha⟩

/-! ## The steps of Table 1.9 -/

/-- A port that is DOWN begins training (R16 step 2). -/
def Dev.startTraining (d : Dev) (n : Nat) : Dev :=
  d.modPort n (fun p => { p with link := if p.link == .down then .training else p.link, trainTick := d.phys })

theorem Dev.link_foldl_startTraining (l : List Nat) (d : Dev) (n : Nat) : ((l.foldl Dev.startTraining d).port n).link =
    if n ∈ l then (if (d.port n).link = .down then .training else (d.port n).link) else (d.port n).link := by
  induction l generalizing d with
  | nil => rfl
  | cons m l ih =>
    rw [List.foldl_cons, ih, Dev.startTraining, Dev.port_modPort]
    by_cases hm : n = m
    · subst hm; by_cases hd : (d.port n).link = .down <;> simp [hd]
    · simp [hm]

theorem Dev.foldl_startTraining_eq (l : List Nat) (d : Dev) :
    l.foldl Dev.startTraining d = { d with ports := (l.foldl Dev.startTraining d).ports } := by
  induction l generalizing d with
  | nil => rfl
  | cons m l ih => rw [List.foldl_cons, ih]; rfl

section Steps
variable (s : State)

theorem ends_mainPowerUpRequest (hk : s.dev.power.kolti = true) (hp : s.dev.power.pstate = .mgmtUp) (hm : s.dev.power.mainOk = true)
    (hs : s.dev.power.matedSettled = true) (ht : s.dev.power.hubTripped = false) : Ends .mainPowerUpRequest s (fun t =>
      t = { s with dev := { s.dev with power := t.dev.power } } ∧ t.dev.power.pstate = .mainSequencing ∧ t.dev.power.hubOn = true ∧
      t.dev.power.hubReady = false ∧ t.dev.power.retries = [] ∧ t.dev.power.mainOk = true) :=
  ⟨_, show execMainPowerUpRequest s = _ by simp only [execMainPowerUpRequest, hk, hp, hm, hs, ht]; rfl, rfl, rfl, rfl, rfl, rfl, rfl⟩

theorem exec_hubSelfTestDone (hp : s.dev.power.pstate = .mainSequencing) (hon : s.dev.power.hubOn = true)
    (hr : s.dev.power.hubReady = false) : exec .hubSelfTestDone s =
      answer s ((List.range 48).foldl Dev.startTraining { s.dev with power := { s.dev.power with hubReady := true } }) :=
  if_pos (by simp [hp, hon, hr])

theorem ends_hubSelfTestDone (hp : s.dev.power.pstate = .mainSequencing) (hon : s.dev.power.hubOn = true)
    (hr : s.dev.power.hubReady = false) : Ends .hubSelfTestDone s (fun t =>
      t = { s with dev := { s.dev with power := { s.dev.power with hubReady := true }, ports := t.dev.ports } } ∧
      ∀ p < 48, (t.dev.port p).link = (if (s.dev.port p).link = .down then .training else (s.dev.port p).link)) := by
  refine ⟨_, exec_hubSelfTestDone s hp hon hr, State.ext ?_ rfl rfl, fun p h48 => ?_⟩
  · exact Dev.foldl_startTraining_eq _ _
  · exact (Dev.link_foldl_startTraining _ _ _).trans (if_pos (List.mem_range.2 h48))

/-- The supply of a die starts at 720 mV, or at the nearest value of its range (R31). -/
theorem ends_loomDieDomainOn (n : Fin 4) (hp : s.dev.power.pstate = .mainSequencing) (hon : s.dev.power.hubOn = true)
    (hoff : (s.dev.die n.val).on = false) (hc : (s.dev.die n.val).contained = false) (hb : ∀ k < n.val, (s.dev.die k).on = true)
    (hr : Tbl.lookD s.dev.power.retries n.val 0 ≤ 3) : Ends (.loomDieDomainOn n) s (fun t =>
      t = { s with dev := { s.dev with dies := t.dev.dies } } ∧ (t.dev.die n.val).on = true ∧ (t.dev.die n.val).ready = false ∧
      (t.dev.die n.val).gov = (s.dev.die n.val).govReg ∧ (t.dev.die n.val).shownState = (if (t.dev.die n.val).governed then 1 else 0) ∧
      ((s.dev.die n.val).govReg.vmin ≤ 720 → 720 ≤ (s.dev.die n.val).govReg.vmax → (t.dev.die n.val).vout = 720) ∧
      ∀ k, k ≠ n.val → t.dev.die k = s.dev.die k) := by
  have hbefore : (List.range n.val).all (fun i => (s.dev.die i).on || (s.dev.die i).contained ||
      decide (3 < Tbl.lookD s.dev.power.retries i 0)) = true :=
    List.all_eq_true.2 fun k hk => by rw [hb k (List.mem_range.1 hk)]; rfl
  have htries : decide (3 < Tbl.lookD s.dev.power.retries n.val 0) = false := decide_eq_false (by omega)
  have hgo : (s.dev.power.pstate == .mainSequencing && s.dev.power.hubOn && (List.range n.val).all (fun i => (s.dev.die i).on ||
      (s.dev.die i).contained || decide (3 < Tbl.lookD s.dev.power.retries i 0)) && !(s.dev.die n.val).contained &&
      !decide (3 < Tbl.lookD s.dev.power.retries n.val 0) && !(s.dev.die n.val).on) = true := by
    rw [hp, hon, hoff, hc, hbefore, htries]; rfl
  refine ⟨_, if_pos hgo, rfl, ?_⟩
  simp only [Dev.die_setDie]
  refine ⟨rfl, rfl, rfl, rfl, fun hlo hhi => ?_, fun k hk => if_neg hk⟩
  exact (if_neg (BitVec.not_lt.2 hhi)).trans (if_neg (BitVec.not_lt.2 hlo))

theorem ends_sequencingRetry (dom : Fin 5) (hp : s.dev.power.pstate = .mainSequencing)
    (hr : Tbl.lookD s.dev.power.retries dom.val 0 < 3) : Ends (.sequencingRetry dom) s (fun t =>
      t = { s with dev := { s.dev with power := { s.dev.power with retries := t.dev.power.retries } } } ∧
      Tbl.lookD t.dev.power.retries dom.val 0 = Tbl.lookD s.dev.power.retries dom.val 0 + 1) :=
  ⟨_, (if_pos (by simp [hp])).trans (if_pos hr), rfl, Tbl.lookD_put_same _ _ _ _⟩

theorem ends_pstateRunning (hp : s.dev.power.pstate = .mainSequencing) (hh : s.dev.power.hubReady = true)
    (hd : ∀ n < 4, (s.dev.die n).ready = true) : Ends .pstateRunning s (fun t =>
      t = { s with dev := { s.dev with power := { s.dev.power with pstate := .running }, evt := t.dev.evt, capFinal := true,
                                        capGen := 1, capTick := t.dev.capTick, store := { s.dev.store with armed := true } } }) := by
  have hsettled : (List.range 4).all (fun n => (s.dev.die n).ready || (s.dev.die n).contained) = true :=
    List.all_eq_true.2 fun k hk => by rw [hd k (List.mem_range.1 hk)]; rfl
  have hgo : (s.dev.power.pstate == .mainSequencing && s.dev.power.hubReady &&
      (List.range 4).all (fun n => (s.dev.die n).ready || (s.dev.die n).contained)) = true := by rw [hp, hh, hsettled]; rfl
  exact ⟨_, if_pos hgo, rfl⟩

end Steps

end Sys2Proof.Machine

/-! DIE_READY (R16 step 7, R27). -/
namespace Sys2Proof.Machine

section Ready
variable (s : State) (n : Fin 4) (slowest : BitVec 11) (junction : Int)

/-- The die reports ready, and its working lanes and cores are numbered (R141). -/
def Dev.readyDie (d : Dev) (n : Nat) : Dev := (d.setDie n { d.die n with ready := true }).compact n

theorem Dev.die_compact_ready (d : Dev) (n : Nat) : ((d.compact n).die n).ready = (d.die n).ready := by
  simp only [Dev.compact, Dev.compactLanes, Dev.compactCores, Dev.die_modDie, if_true]

theorem Dev.readyDie_ready (d : Dev) (n : Nat) : ((d.readyDie n).die n).ready = true := by
  rw [Dev.readyDie, Dev.die_compact_ready, Dev.die_setDie, if_pos rfl]

variable (hp : s.dev.power.pstate = .mainSequencing) (hon : (s.dev.die n.val).on = true) (hready : (s.dev.die n.val).ready = false)
  (hfree : (s.dev.die n.val).contained = false) (htarget : (s.dev.die n.val).target ≠ 0)
  (hvout : (s.dev.die n.val).vout = (s.dev.die n.val).target)

include hp hon hready hfree htarget hvout in
theorem dieReady_gate : ((s.dev.die n.val).on && !(s.dev.die n.val).ready && !(s.dev.die n.val).contained &&
    s.dev.power.pstate == .mainSequencing && (s.dev.die n.val).target != 0 && (s.dev.die n.val).vout == (s.dev.die n.val).target) = true := by
  rw [hp, hon, hready, hfree, hvout, bne_iff_ne.2 htarget]
  simp

include hp hon hready hfree htarget hvout in
theorem ends_dieReady (hoff : s.dev.isOff (.die n) = true) (hfloor : floorRate (s.dev.die n.val).vout.toNat junction ≤ slowest.toNat) :
    Ends (.dieReady n slowest junction) s (fun t =>
      t = { s with dev := { s.dev with dies := t.dev.dies, blocks := t.dev.blocks, health := t.dev.health, host := t.dev.host,
                                        out := t.dev.out } } ∧
      (t.dev.die n.val).ready = true ∧ (t.dev.block (.die n)).st = .checking) := by
  have hexec : exec (.dieReady n slowest junction) s =
      answer s (if (((s.dev.readyDie n.val).block (dieBlock n.val)).st == .off || ((s.dev.readyDie n.val).block (dieBlock n.val)).st == .refused)
        then (s.dev.readyDie n.val).moveBlock (dieBlock n.val) { (s.dev.readyDie n.val).block (dieBlock n.val) with st := .checking, reason := 0 }
        else s.dev.readyDie n.val) :=
    (if_pos (dieReady_gate s n hp hon hready hfree htarget hvout)).trans (if_neg (Nat.not_lt.2 hfloor))
  have hst : ((s.dev.readyDie n.val).block (dieBlock n.val)).st = .off := by
    rw [dieBlock_val]; exact beq_iff_eq.1 hoff
  rw [hst, if_pos (by rfl)] at hexec
  refine ⟨_, hexec, State.ext ?_ rfl rfl, ?_, ?_⟩
  · apply Dev.ext <;> simp [Dev.readyDie]
  · rw [Dev.die_congr (Dev.moveBlock_dies _ _ _), Dev.readyDie_ready]
  · rw [dieBlock_val, Dev.block_moveBlock_same]

include hp hon hready hfree htarget hvout in
theorem ends_dieReady_contained (hfloor : slowest.toNat < floorRate (s.dev.die n.val).vout.toNat junction) :
    Ends (.dieReady n slowest junction) s (fun t =>
      (t.dev.die n.val).contained = true ∧ (t.dev.die n.val).on = false ∧ t.dev.health.cond.getLsbD 10 = true ∧ t.pending = s.pending) := by
  have hdie := s.dev.containDie_die n.val hfree false
  have hstand := s.dev.containDie_standing n.val hfree false
  refine ⟨_, (if_pos (dieReady_gate s n hp hon hready hfree htarget hvout)).trans (if_pos hfloor), ?_⟩
  generalize s.dev.containDie n.val false = g at hdie hstand ⊢
  have hcond : g.health.cond = s.dev.health.cond ||| BitVec.ofNat 64 (2 ^ 10) := congrArg Standing.cond hstand
  have hown := (hdie n.val).trans (if_pos rfl)
  refine ⟨congrArg Die.contained hown, congrArg Die.on hown, ?_, rfl⟩
  rw [hcond, BitVec.getLsbD_or, getLsbD_ofNat_two_pow_self (by omega), Bool.or_true]

end Ready

/-- Settles O5, a lemma for each step of Table 1.9. -/
theorem powerUpFollowsItsSteps : Obligations.PowerUpFollowsItsSteps := fun s =>
  ⟨ends_alwaysOnPowerUp s, ends_mainPowerUpRequest s, ends_hubSelfTestDone s, ends_loomDieDomainOn s,
    fun n slowest junction hp hon hr hc hoff ht hv => ends_dieReady s n slowest junction hp hon hr hc ht hv hoff,
    ends_dieReady_contained s, ends_sequencingRetry s, ends_pstateRunning s⟩

end Sys2Proof.Machine

/-! The host link and the host-side resets (R38 to R50, Tables 3.1 and 3.5). -/
namespace Sys2Proof.Machine

/-! ## The host interface apart from its pending vectors -/

/-- A vector that is raised may wait; this is the rest of the host interface. -/
def HostIf.unpended (h : HostIf) : HostIf := { h with msixPending := 0 }

theorem HostIf.eq_of_unpended {h g : HostIf} (e : h.unpended = g.unpended) : h = { g with msixPending := h.msixPending } :=
  calc h = { h.unpended with msixPending := h.msixPending } := rfl
    _ = { g.unpended with msixPending := h.msixPending } := by rw [e]

section HostOff
variable (d : Dev)

theorem Dev.raise_unpended (v : Nat) : (d.raise v).host.unpended = d.host.unpended := by rw [Dev.raise_host]; rfl

/-- A move of a block raises vectors and changes no more of the host interface. -/
theorem Dev.moveBlock_unpended (b : BlockId) (x : Block) : (d.moveBlock b x).host.unpended = d.host.unpended := by
  unfold Dev.moveBlock
  dsimp only
  (repeat' split) <;> simp [Dev.raise_unpended]

/-! ## The host interface goes OFF (R49, R57) -/

theorem Dev.ring_dropLines (r : Nat) : d.dropLines.ring r = { d.ring r with lineHeld := false, lineRead := false } := by
  unfold Dev.ring Dev.dropLines Tbl.lookD
  rw [Tbl.look_mapAll]
  cases Tbl.look d.rings r <;> rfl

theorem Dev.hostOff_rings (cause : BitVec 16) : (d.hostOff cause).rings = d.dropLines.rings := by
  unfold Dev.hostOff
  dsimp only
  (repeat' split) <;> simp

theorem Dev.ring_hostOff (cause : BitVec 16) (r : Nat) :
    (d.hostOff cause).ring r = { d.ring r with lineHeld := false, lineRead := false } := by
  rw [Dev.ring_congr (d.hostOff_rings cause), Dev.ring_dropLines]

/-- The host interface with doorbell mode 0 and every doorbell line dropped. -/
def Dev.shutDoorbells (d : Dev) : Dev := { d.dropLines with host := { d.host with dbMode := 0 } }

theorem Dev.hostOff_of_running {d : Dev} (h : d.isRunning .hostif = true) (cause : BitVec 16) : d.hostOff cause =
    let e := d.shutDoorbells.selfStop .hostif cause
    { e.moveBlock .hostif { e.block .hostif with st := .off } with host := { e.host with offTick := some e.now } } := by
  have hst : (d.block .hostif).st = .running := eq_of_beq h
  unfold Dev.hostOff
  simp only [hst]
  rfl

/-- Of the host interface only its doorbell mode and tick change, and vectors wait. -/
theorem Dev.hostOff_host {d : Dev} (h : d.isRunning .hostif = true) (cause : BitVec 16) : (d.hostOff cause).host =
    { d.host with dbMode := 0, offTick := some d.now, msixPending := (d.hostOff cause).host.msixPending } := by
  refine HostIf.eq_of_unpended (g := { d.host with dbMode := 0, offTick := some d.now }) ?_
  rw [Dev.hostOff_of_running h]
  have hself : (d.shutDoorbells.selfStop .hostif cause).host.unpended = { d.host with dbMode := 0 }.unpended := by
    rw [Dev.selfStop, Dev.raise_unpended, Dev.moveBlock_unpended]; rfl
  have hnow : (d.shutDoorbells.selfStop .hostif cause).now = d.now := by simp [Dev.selfStop, Dev.shutDoorbells]
  dsimp only
  rw [hnow]
  exact congrArg (fun g : HostIf => { g with offTick := some d.now }) hself

theorem Dev.block_hostOff {d : Dev} (h : d.isRunning .hostif = true) (cause : BitVec 16) :
    (d.hostOff cause).block .hostif = { d.block .hostif with st := .off, autoStop := true, reason := cause } := by
  rw [Dev.hostOff_of_running h]
  exact (Dev.block_moveBlock_same _ _ _).trans (by rw [Dev.selfStop_block]; rfl)

theorem Dev.hostOff_eq (cause : BitVec 16) : d.hostOff cause = { d with
    host := (d.hostOff cause).host, rings := d.dropLines.rings, blocks := (d.hostOff cause).blocks
    health := (d.hostOff cause).health, out := (d.hostOff cause).out } := by
  apply Dev.ext <;> simp [Dev.hostOff_rings]

end HostOff

/-! ## Loss of the link and resets (R49, R50) -/

section LinkAndResets
variable (s : State)

/-- The host interface has gone OFF with a cause: of the device only itself, its doorbell lines, what moves of blocks record and
raise, and a mailbox message have changed. -/
def HostIfOff (t : State) (why : BitVec 16) : Prop :=
  (t = { s with dev := { s.dev with host := t.dev.host, rings := t.dev.rings, blocks := t.dev.blocks, health := t.dev.health,
                                    mbx := t.dev.mbx, out := t.dev.out } } ∧
    ∀ r, t.dev.ring r = { s.dev.ring r with lineHeld := false, lineRead := false }) ∧
  t.dev.block .hostif = { s.dev.block .hostif with st := .off, autoStop := true, reason := why }

/-- It goes OFF so from whatever the host interface and the mailbox were set to before, and after. -/
theorem hostIfOff_hostOff (hrun : s.dev.isRunning .hostif = true) (h h' : HostIf) (m : Mailbox) (why : BitVec 16) :
    HostIfOff s { s with dev := { { s.dev with host := h, mbx := m }.hostOff why with host := h' } } why := by
  refine ⟨⟨State.ext ?_ rfl rfl, fun r => Dev.ring_hostOff _ why r⟩, Dev.block_hostOff (d := { s.dev with host := h, mbx := m }) hrun why⟩
  dsimp only
  rw [Dev.hostOff_eq]

theorem Dev.abortMailbox_eq (d : Dev) : d.abortMailbox = { d with mbx := d.abortMailbox.mbx } := by
  unfold Dev.abortMailbox; split <;> rfl

/-- The link's own part of its loss. -/
def Dev.unlink (d : Dev) : Dev :=
  { d with host := { d.host with
    linkUp := false, training := false, trainTick := d.phys, cached := [],
    link := { x16 := false, speed := 0, cache := false, mem := false, bi := false, ide := false, busMaster := false, bar2 := 0 } } }

theorem Dev.linkLost_eq (d : Dev) (cause : BitVec 16) :
    d.linkLost cause = ({ d with mbx := d.abortMailbox.mbx }.hostOff cause).unlink := by
  rw [← Dev.abortMailbox_eq]; rfl

/-- A lost link is counted, and configuration space stays (R49, R50). -/
theorem ends_linkLost {c : Instr} {h : HostIf} (hrun : s.dev.isRunning .hostif = true)
    (hexec : exec c s = answer s (
      let d := { s.dev with host := h }.linkLost 0x0101
      { d with host := { d.host with cntLinkDown := d.host.cntLinkDown + 1 } })) :
    Ends c s (fun t => HostIfOff s t 0x0101 ∧ t.dev.host.linkUp = false ∧ t.dev.host.refclk = h.refclk ∧
      t.dev.host.cntLinkDown = h.cntLinkDown + 1 ∧ t.dev.host.bar2 = h.bar2 ∧ t.dev.host.hdm = h.hdm ∧
      t.dev.host.busMaster = h.busMaster) := by
  rw [Dev.linkLost_eq] at hexec
  have hoff := fun h' => hostIfOff_hostOff s hrun h h' { s.dev with host := h }.abortMailbox.mbx 0x0101
  have hhost := Dev.hostOff_host (d := { s.dev with host := h, mbx := { s.dev with host := h }.abortMailbox.mbx }) hrun 0x0101
  generalize Dev.hostOff _ 0x0101 = e at hexec hoff hhost
  have hrefclk : e.host.refclk = h.refclk := by rw [hhost]
  have hcount : e.host.cntLinkDown = h.cntLinkDown := by rw [hhost]
  have hbar2 : e.host.bar2 = h.bar2 := by rw [hhost]
  have hhdm : e.host.hdm = h.hdm := by rw [hhost]
  have hmaster : e.host.busMaster = h.busMaster := by rw [hhost]
  exact ⟨_, hexec, hoff _, rfl, hrefclk, congrArg (· + 1) hcount, hbar2, hhdm, hmaster⟩

/-- Configuration space after a reset from the host (Table 3.5). -/
def HostIf.Fresh (h : HostIf) : Prop :=
  h.busMaster = false ∧ h.bar0 = 0 ∧ h.bar2 = 0 ∧ h.bar4 = 0 ∧ h.msixOn = false ∧ h.msixPending = 0 ∧
    h.msixMask = BitVec.allOnes 2048 ∧ h.hdm = [] ∧ h.cached = []

theorem HostIf.fresh_resetConfig (h : HostIf) : h.resetConfig.Fresh := ⟨rfl, rfl, rfl, rfl, rfl, rfl, rfl, rfl, rfl⟩

/-- A reset leaves the link up and configuration space as at reset. -/
theorem ends_hostReset {c : Instr} {why : BitVec 16} (hup : s.dev.host.linkUp = true) (hrun : s.dev.isRunning .hostif = true)
    (hexec : exec c s = answer s (s.dev.hostReset why)) :
    Ends c s (fun t => HostIfOff s t why ∧ t.dev.host.linkUp = true ∧ t.dev.host.Fresh) := by
  rw [Dev.hostReset, if_pos hup] at hexec
  exact ⟨_, hexec, hostIfOff_hostOff s hrun _ _ _ _, (congrArg HostIf.linkUp (Dev.hostOff_host hrun why)).trans hup,
    HostIf.fresh_resetConfig _⟩

theorem ends_perstAssert (hrun : s.dev.isRunning .hostif = true) : Ends .perstAssert s (fun t => HostIfOff s t 0x0108 ∧
    t.dev.host.linkUp = false ∧ t.dev.host.perstLow = true ∧ t.dev.host.Fresh) := by
  have hexec : exec .perstAssert s = answer s (
      let d := s.dev.linkLost 0x0108
      { d with host := { d.host.resetConfig with perstLow := true } }) := rfl
  rw [Dev.linkLost_eq] at hexec
  have hoff := fun h' => hostIfOff_hostOff s hrun s.dev.host h' s.dev.abortMailbox.mbx 0x0108
  generalize Dev.hostOff _ 0x0108 = e at hexec hoff
  exact ⟨_, hexec, hoff _, rfl, rfl, e.unlink.host.fresh_resetConfig⟩

/-! ## Training (R9, R15, R38 to R40) -/

/-- A plain PCIe endpoint offers no CXL and raises an alarm; a CXL link has back-invalidate at 64 GT/s alone. -/
theorem ends_hostLinkUp (l : LinkResult) (hdown : s.dev.host.linkUp = false) (hmay : s.dev.mayTrain = true) :
    Ends (.hostLinkUp l) s (fun t =>
      t = { s with dev := { s.dev with
            host := { s.dev.host with linkUp := true, link := t.dev.host.link, training := false, msixPending := t.dev.host.msixPending,
                                      busMaster := l.busMaster, bar2 := l.bar2 },
            health := t.dev.health, out := t.dev.out } } ∧
      (l.speed = 1 → t.dev.host.link.cache = false ∧ t.dev.host.link.mem = false ∧ t.dev.host.link.bi = false ∧
        t.dev.health.alarms = s.dev.health.alarms + 1) ∧
      (l.speed = 2 ∨ l.speed = 3 → t.dev.host.link = { l with bi := l.bi && l.speed == 3 } ∧ t.dev.health = s.dev.health ∧
        t.dev.host.msixPending = s.dev.host.msixPending ∧ t.dev.out = s.dev.out)) := by
  by_cases hcxl : l.speed = 2 ∨ l.speed = 3
  · have hlink : settleLink l = { l with bi := l.bi && l.speed == 3 } := if_pos hcxl
    have hspeed : ¬ l.speed = 1 := by rcases hcxl with h | h <;> simp [h]
    refine ⟨_, show execHostLinkUp l s = _ by
      simp only [execHostLinkUp, hdown, Bool.false_eq_true, if_false, if_pos hmay, hlink, if_neg hspeed]; rfl, rfl, ?_, ?_⟩
    · exact fun h => absurd h hspeed
    · exact fun _ => ⟨rfl, rfl, rfl, rfl⟩
  · have hlink : settleLink l = { l with speed := 1, cache := false, mem := false, bi := false } := if_neg hcxl
    refine ⟨_, show execHostLinkUp l s = _ by
      simp only [execHostLinkUp, hdown, Bool.false_eq_true, if_false, if_pos hmay, hlink, if_true]; rfl, ?_, ?_, ?_⟩
    · rw [Dev.alarm_eq]
    · intro _
      rw [Dev.alarm_alarms, Dev.alarm_host]
      exact ⟨rfl, rfl, rfl, rfl⟩
    · exact fun h => absurd h hcxl

theorem ends_hostLinkUp_held (l : LinkResult) (hdown : s.dev.host.linkUp = false) (hmay : ¬ s.dev.mayTrain = true) :
    Ends (.hostLinkUp l) s (fun t => t = s) :=
  ⟨_, show execHostLinkUp l s = _ by
    simp only [execHostLinkUp, hdown, Bool.false_eq_true, if_false, if_neg hmay]; rfl, rfl⟩

theorem Dev.mayTrain_iff (d : Dev) : d.mayTrain = true ↔ d.power.mgmtOn = true ∧ d.host.perstLow = false ∧ d.host.refclk = true ∧
    Nat.ble 100000000 (elapsed d.phys d.host.supplyTick) = true := by
  simp only [Dev.mayTrain, Bool.and_eq_true, Bool.not_eq_true', and_assoc]

/-- With PERST_N high. -/
theorem Dev.mayTrain_of_high {d : Dev} (h : d.host.perstLow = false) : d.mayTrain =
    (d.power.mgmtOn && d.host.refclk && Nat.ble 100000000 (elapsed d.phys d.host.supplyTick)) := by
  rw [Dev.mayTrain, h, Bool.not_false, Bool.and_true]

theorem ends_linkTrainRetry (clock : Bool) (hdown : s.dev.host.linkUp = false) (hperst : s.dev.host.perstLow = false)
    (hpast : s.dev.past s.dev.host.trainTick 100000 = true) : Ends (.linkTrainRetry clock) s (fun t =>
      t = { s with dev := { s.dev with host := { s.dev.host with
            refclk := clock, trainTick := s.dev.phys
            training := s.dev.power.mgmtOn && clock && Nat.ble 100000000 (elapsed s.dev.phys s.dev.host.supplyTick) } } }) := by
  have hmay := Dev.mayTrain_of_high (d := { s.dev with host := { s.dev.host with refclk := clock } }) hperst
  have hgo : (!s.dev.host.linkUp && !s.dev.host.perstLow && s.dev.past s.dev.host.trainTick 100000) = true := by
    rw [hdown, hperst, hpast]; rfl
  exact ⟨_, congrArg (answer s) (if_pos hgo), by dsimp only; rw [hmay]; rfl⟩

theorem ends_perstDeassert (hperst : s.dev.host.perstLow = true) : Ends .perstDeassert s (fun t =>
      t = { s with dev := { s.dev with host := { s.dev.host with
            perstLow := false, trainTick := s.dev.phys, training := s.dev.power.mgmtOn && s.dev.host.refclk &&
              Nat.ble 100000000 (elapsed s.dev.phys s.dev.host.supplyTick) } } }) := by
  have hmay := Dev.mayTrain_of_high (d := { s.dev with host := { s.dev.host with perstLow := false } }) rfl
  exact ⟨_, show execPerstDeassert s = _ by simp only [execPerstDeassert, hperst, if_true, hmay]; rfl, rfl⟩

end LinkAndResets

/-- Settles O13, a lemma for each kind of event. -/
theorem hostLinkEventsMoveTheInterface : Obligations.HostLinkEventsMoveTheInterface := by
  intro s keeps off fresh settled may
  have hmay : s.dev.mayTrain = true ↔ may := Dev.mayTrain_iff s.dev
  refine ⟨fun l hdown => ⟨fun h => ends_hostLinkUp s l hdown (hmay.2 h), fun h => ends_hostLinkUp_held s l hdown (mt hmay.1 h)⟩,
    fun hup hrun => ?_, fun hup hrun => ?_, ends_linkTrainRetry s, ends_perstDeassert s, fun hrun => ?_,
    fun hup hrun => ⟨?_, ?_, ?_⟩, ⟨_, rfl, rfl⟩⟩
  · obtain ⟨t, hexec, hoff, hlink, -, hcount, hbar2, hhdm, hmaster⟩ :=
      ends_linkLost s (c := .hostLinkDown) (h := s.dev.host) hrun (congrArg (answer s) (if_pos hup))
    exact ⟨t, hexec, hoff.1, hoff.2, hlink, hcount, hbar2, hhdm, hmaster⟩
  · obtain ⟨t, hexec, hoff, hlink, hclock, hcount, hbar2, hhdm, -⟩ :=
      ends_linkLost s (c := .cxlRefclkLost) (h := { s.dev.host with refclk := false }) hrun (congrArg (answer s) (if_pos hup))
    exact ⟨t, hexec, hoff.1, hoff.2, hlink, hclock, hcount, hbar2, hhdm⟩
  · obtain ⟨t, hexec, hoff, h⟩ := ends_perstAssert s hrun
    exact ⟨t, hexec, hoff.1, hoff.2, h⟩
  · obtain ⟨t, hexec, hoff, h⟩ := ends_hostReset s hup hrun (c := .hotReset) rfl
    exact ⟨t, hexec, hoff.1, hoff.2, h⟩
  · obtain ⟨t, hexec, hoff, h⟩ := ends_hostReset s hup hrun (c := .flr) rfl
    exact ⟨t, hexec, hoff.1, hoff.2, h⟩
  · obtain ⟨t, hexec, hoff, h⟩ := ends_hostReset s hup hrun (c := .cxlReset) rfl
    exact ⟨t, hexec, hoff.1, hoff.2, h⟩

end Sys2Proof.Machine

/-! Losses of main power and thermal trips: the emergency quiesce (R14, R17 to R22, Table 1.10). -/
namespace Sys2Proof.Machine

/-! ## Dies that are off stay off while blocks go OFF -/

/-- Whether a die is on, and ready. -/
def Dev.lit (d : Dev) (n : Nat) : Bool × Bool := ((d.die n).on, (d.die n).ready)

section Lit
variable (d : Dev)

theorem Dev.lit_congr {d e : Dev} (h : d.dies = e.dies) : d.lit = e.lit := by
  funext n; rw [Dev.lit, Dev.die_congr h, Dev.lit]

theorem Dev.freeObj_lit (n : Nat) : (d.freeObj n).lit = d.lit := by
  funext k
  unfold Dev.lit Dev.freeObj Dev.die Tbl.lookD
  rw [Tbl.look_mapAll]
  cases Tbl.look d.dies k <;> rfl

theorem Dev.freeDying_lit : d.freeDying.lit = d.lit := foldl_keep Dev.lit _ (fun _ _ => Dev.freeObj_lit _ _) _ _

theorem Dev.destroyObj_lit (n : Nat) : (d.destroyObj n).lit = d.lit := by
  unfold Dev.destroyObj
  (repeat' split)
  · exact (Dev.freeDying_lit _).trans (Dev.lit_congr (by simp))
  · rfl
  · rfl

theorem Dev.destroyObjects_lit (c : Nat) : (d.destroyObjects c).lit = d.lit := by
  refine foldl_keep Dev.lit _ (fun e x => ?_) _ _
  split
  · rfl
  · exact e.destroyObj_lit _

end Lit

/-- Every die is off, under a power state. -/
def Dev.Dark (p : Power) (d : Dev) : Prop := d.power = p ∧ ∀ n, d.lit n = (false, false)

theorem Dev.Dark.congr {p : Power} {d e : Dev} (h : d.Dark p) (hp : e.power = d.power) (hl : e.lit = d.lit) : e.Dark p :=
  ⟨hp.trans h.1, fun n => (congrFun hl n).trans (h.2 n)⟩

theorem Dev.Dark.compactFree {p : Power} {d : Dev} (h : d.Dark p) (n : Nat) : d.compactFree n = d := by
  have hready : (d.die n).ready = false := congrArg Prod.snd (h.2 n)
  rw [Dev.compactFree, hready]
  rfl

theorem Dev.Dark.foldl {p : Power} {α : Type} {f : Dev → α → Dev} (hf : ∀ d x, Dev.Dark p d → (f d x).Dark p) (l : List α) {d : Dev}
    (h : d.Dark p) : (l.foldl f d).Dark p := by
  induction l generalizing d with
  | nil => exact h
  | cons x l ih => exact ih (hf d x h)

theorem Dev.Dark.claimOff {p : Power} {d : Dev} (h : d.Dark p) (c : Nat) : (d.claimOff c).Dark p := by
  unfold Dev.claimOff
  dsimp only
  refine Dev.Dark.foldl (fun e n he => by rw [he.compactFree]; exact he) _ (h.congr ?_ ?_)
  · simp only [Dev.moveBlock_power]
    split <;> simp
  · refine (Dev.lit_congr ?_).trans (d.destroyObjects_lit c)
    simp only [Dev.moveBlock_dies]
    split <;> simp

theorem Dev.Dark.blockOff {p : Power} {d : Dev} (h : d.Dark p) (b : BlockId) : (d.blockOff b).Dark p := by
  unfold Dev.blockOff
  split
  · split
    · exact h.claimOff _
    · exact h.congr (Dev.moveBlock_power _ _ _) (Dev.lit_congr (Dev.moveBlock_dies _ _ _))
  · exact h

/-! ## The main domains go off (R19 step 6) -/

/-- Power with the hub domain off. -/
def Power.hubDown (p : Power) : Power := { p with hubOn := false, hubReady := false, retries := [] }

section Off
variable (d : Dev)

theorem Dev.mainsOff_dark : d.mainsOff.Dark d.power.hubDown := by
  unfold Dev.mainsOff
  refine Dev.Dark.foldl (fun _ b h => h.blockOff b) _ ⟨Dev.upstreamLost_power _, fun n => ?_⟩
  rw [Dev.lit_congr (Dev.upstreamLost_dies _)]
  unfold Dev.lit Dev.die Tbl.lookD
  rw [Tbl.look_mapAll]
  cases Tbl.look d.dies n <;> rfl

theorem Dev.setPState_power (p : PState) : (d.setPState p).power = { d.power with pstate := p } := by
  unfold Dev.setPState; dsimp only; split
  · exact Dev.raise_power _ _
  · rfl

theorem Dev.Dark.setPState {d : Dev} {q : Power} (h : d.Dark q) (p : PState) : (d.setPState p).Dark { q with pstate := p } := by
  refine ⟨by rw [Dev.setPState_power, h.1], fun n => ?_⟩
  rw [Dev.lit_congr (Dev.setPState_dies _ _)]
  exact h.2 n

theorem Dev.Dark.die_on {q : Power} {d : Dev} (h : d.Dark q) (n : Nat) : (d.die n).on = false := congrArg Prod.fst (h.2 n)

/-- Steps 1 to 6 of Table 1.10. -/
theorem Dev.quiesceBody_dark (ports : List Nat) : (d.quiesceBody ports).Dark { d.power.hubDown with pstate := .quiescing } := by
  have h := (((((d.setPState .quiescing).stopMain 0xF0 true).emitAll (ports.map .leaving)).abortOps).postEverything).dropLines.mainsOff_dark
  have hpower : (((((d.setPState .quiescing).stopMain 0xF0 true).emitAll (ports.map .leaving)).abortOps).postEverything).dropLines.power =
      { d.power with pstate := .quiescing } := by
    simp [Dev.setPState_power]
  rw [hpower] at h
  exact h

/-- With the always-on domain held, step 7 follows: the record, and QUIESCED. -/
theorem Dev.quiesce_held (cause : BitVec 8) :
    d.quiesce cause true = ((d.quiesceBody d.portsUp).recordLoss cause d.now).setPState .quiesced := by
  unfold Dev.quiesce
  exact if_pos rfl

theorem Dev.Dark.recordLoss {d : Dev} {q : Power} (h : d.Dark q) (cause : BitVec 8) (tick : Tick) : (d.recordLoss cause tick).Dark q :=
  h.congr rfl rfl

theorem Dev.quiesce_dark (cause : BitVec 8) : (d.quiesce cause true).Dark { d.power.hubDown with pstate := .quiesced } := by
  rw [Dev.quiesce_held]
  exact ((d.quiesceBody_dark d.portsUp).recordLoss cause d.now).setPState .quiesced

theorem Dev.quiesce_store (cause : BitVec 8) :
    (d.quiesce cause true).store = { d.store with lossCause := cause, lossTick := d.now, armed := false } := by
  rw [Dev.quiesce_held, Dev.setPState_store, Dev.recordLoss, Dev.quiesceBody_store]

theorem Dev.quiesce_now (cause : BitVec 8) : (d.quiesce cause true).now = d.now := by
  rw [Dev.quiesce_held, Dev.setPState_now, Dev.recordLoss, Dev.quiesceBody_now]

end Off

/-! ## Events that run the quiesce (R7, R18, R22) -/

section Losses
variable (s : State)

/-- What a whole quiesce leaves: the domains off and QUIESCED, memory empty, the record with its cause and the tick of step 1. -/
theorem ends_quiesce {c : Instr} {cause : BitVec 8} {d : Dev} {p : Power} (hexec : exec c s = quiesceAnswer s cause true d)
    (hpower : d.power = p) (hstore : d.store = s.dev.store) (hnow : d.now = s.dev.now) : Ends c s (fun t =>
      t.dev.Dark { p.hubDown with pstate := .quiesced } ∧ (∀ a, a < 2 ^ 64 → t.mem.get a = 0) ∧ t.pending = s.pending ∧
      t.dev.now = s.dev.now ∧ t.dev.store = { s.dev.store with lossCause := cause, lossTick := s.dev.now, armed := false }) := by
  subst hpower
  refine ⟨_, hexec, d.quiesce_dark cause, Memory.get_clearAll _, rfl, (d.quiesce_now cause).trans hnow, ?_⟩
  rw [← hstore, ← hnow]
  exact d.quiesce_store cause

theorem Dev.canQuiesce_iff (d : Dev) : d.canQuiesce = true ↔ d.power.aonOn = true ∧ d.power.mainLive = true ∧
    d.power.mgmtTripped = false ∧ d.power.pstate ≠ .quiescing ∧ d.power.pstate ≠ .quiesced := by
  simp only [Dev.canQuiesce, Bool.and_eq_true, Bool.not_eq_true', bne_iff_ne, and_assoc]

/-- A loss of main with management fed from the auxiliary input (R22). -/
theorem exec_of_mainLost {c : Instr} {cause : BitVec 8} {d : Dev} (hexec : exec c s = mainLost s s.dev.canQuiesce cause true d)
    (hcan : s.dev.canQuiesce = true) (haux : d.power.auxFromMain = false) : exec c s = quiesceAnswer s cause true d := by
  rw [hexec, mainLost, haux, hcan]
  rfl

theorem Dev.monAlarm_power (d : Dev) (n : Nat) : (d.monAlarm n).power = d.power := Dev.alarm_power _ _ _ _ _
theorem Dev.monAlarm_store (d : Dev) (n : Nat) : (d.monAlarm n).store = d.store := Dev.alarm_store _ _ _ _ _
theorem Dev.monAlarm_now (d : Dev) (n : Nat) : (d.monAlarm n).now = d.now := Dev.alarm_now _ _ _ _ _

theorem ends_mainUndervoltage (hcan : s.dev.canQuiesce = true) (haux : s.dev.power.auxFromMain = false) :
    Ends (.mainUndervoltage true) s (fun t =>
      t.dev.Dark { s.dev.power.hubDown with mainOk := false, mainLive := false, pstate := .quiesced } ∧
      (∀ a, a < 2 ^ 64 → t.mem.get a = 0) ∧ t.pending = s.pending ∧ t.dev.now = s.dev.now ∧
      t.dev.store = { s.dev.store with lossCause := 3, lossTick := s.dev.now, armed := false }) := by
  have hpower := Dev.monAlarm_power { s.dev with power := { s.dev.power with mainOk := false, mainLive := false } } 1
  exact ends_quiesce s (exec_of_mainLost s rfl hcan (by rw [hpower]; exact haux)) hpower (Dev.monAlarm_store _ _) (Dev.monAlarm_now _ _)

theorem ends_mainOvervoltage (hcan : s.dev.canQuiesce = true) (haux : s.dev.power.auxFromMain = false) :
    Ends (.mainOvervoltage true) s (fun t =>
      t.dev.Dark { s.dev.power.hubDown with mainOk := false, mainLive := false, protectionOpen := true, pstate := .quiesced } ∧
      (∀ a, a < 2 ^ 64 → t.mem.get a = 0) ∧ t.pending = s.pending ∧ t.dev.now = s.dev.now ∧
      t.dev.store = { s.dev.store with lossCause := 4, lossTick := s.dev.now, armed := false }) := by
  have hpower := Dev.monAlarm_power
    { s.dev with power := { s.dev.power with mainOk := false, mainLive := false, protectionOpen := true } } 1
  exact ends_quiesce s (exec_of_mainLost s rfl hcan (by rw [hpower]; exact haux)) hpower (Dev.monAlarm_store _ _) (Dev.monAlarm_now _ _)

end Losses

/-- Settles O7. -/
theorem lossOfMainRunsTheQuiesce : Obligations.LossOfMainRunsTheQuiesce := by
  intro s haon hlive htrip hquiescing hquiesced haux
  have hcan : s.dev.canQuiesce = true := s.dev.canQuiesce_iff.2 ⟨haon, hlive, htrip, hquiescing, hquiesced⟩
  constructor
  · obtain ⟨t, hexec, hdark, hmem, hpending, hnow, hstore⟩ := ends_mainUndervoltage s hcan haux
    exact ⟨t, hexec, congrArg Power.pstate hdark.1, congrArg Power.hubOn hdark.1, congrArg Power.mainOk hdark.1, hdark.die_on, hmem,
      hpending, hnow, hstore⟩
  · obtain ⟨t, hexec, hdark, hmem, hpending, hnow, hstore⟩ := ends_mainOvervoltage s hcan haux
    exact ⟨t, hexec, congrArg Power.pstate hdark.1, congrArg Power.hubOn hdark.1, congrArg Power.mainOk hdark.1,
      congrArg Power.protectionOpen hdark.1, hdark.die_on, hmem, hpending, hnow, hstore⟩

/-! ## Warned and unseated losses, trips, and the removal of power (R7, R14, R17 to R20) -/

section Warned
variable (s : State)

theorem ends_pwrWarnAsserted (hcan : s.dev.canQuiesce = true) (hseq : s.dev.power.pstate ≠ .mainSequencing) (mainHeld : Bool) :
    Ends (.pwrWarnAsserted mainHeld true) s (fun t =>
      (∃ p, p.pstate = .quiesced ∧ p.hubOn = false ∧ t.dev.Dark p) ∧ (∀ a, a < 2 ^ 64 → t.mem.get a = 0) ∧ t.pending = s.pending ∧
      t.dev.store = { s.dev.store with lossCause := if mainHeld then 1 else 2, lossTick := s.dev.now, armed := false }) := by
  have hexec : exec (.pwrWarnAsserted mainHeld true) s = quiesceAnswer s (if mainHeld then 1 else 2) true
      (if mainHeld then s.dev else { s.dev with power := { s.dev.power with mainOk := false, mainLive := false } }) :=
    (if_pos hcan).trans (if_neg (by simpa using hseq))
  obtain ⟨t, hexec, hdark, hmem, hpending, -, hstore⟩ :=
    ends_quiesce s hexec rfl (by cases mainHeld <;> rfl) (by cases mainHeld <;> rfl)
  exact ⟨t, hexec, ⟨_, rfl, rfl, hdark⟩, hmem, hpending, hstore⟩

theorem ends_matedNHigh (hrun : s.dev.power.pstate = .running) (hon : s.dev.power.hubOn = true) : Ends (.matedNHigh true) s (fun t =>
    t.dev.Dark { s.dev.power.hubDown with mated := false, matedSettled := false, pstate := .quiesced } ∧
    (∀ a, a < 2 ^ 64 → t.mem.get a = 0) ∧ t.pending = s.pending ∧ t.dev.now = s.dev.now ∧
    t.dev.store = { s.dev.store with lossCause := 3, lossTick := s.dev.now, armed := false }) := by
  have hmain : { s.dev with power := { s.dev.power with mated := false, matedSettled := false } }.mainOn = true := by
    rw [Dev.mainOn, hon, hrun]; rfl
  have hexec : exec (.matedNHigh true) s = quiesceAnswer s 3 true
      { s.dev with power := { s.dev.power with mated := false, matedSettled := false } } := if_pos hmain
  exact ends_quiesce s hexec rfl rfl rfl

/-- The power-up undone: PWR_WARN_N in MAIN_SEQUENCING. -/
theorem Dev.abortSequencing_dark (d : Dev) : d.abortSequencing.Dark { d.power.hubDown with pstate := .mgmtUp } := by
  have h := ((d.stopMain 0xF6 false).mainsOff_dark).setPState .mgmtUp
  rw [Dev.stopMain_power] at h
  exact h

theorem ends_pwrWarnAsserted_sequencing (hcan : s.dev.canQuiesce = true) (hseq : s.dev.power.pstate = .mainSequencing)
    (mainHeld aonHeld : Bool) : Ends (.pwrWarnAsserted mainHeld aonHeld) s (fun t =>
      t.dev.Dark { s.dev.power.hubDown with pstate := .mgmtUp } ∧ t.dev.store = s.dev.store ∧ t.pending = s.pending) := by
  have hexec : exec (.pwrWarnAsserted mainHeld aonHeld) s = answerMem s (s.dev.abortSequencing, clearAll) :=
    (if_pos hcan).trans (if_pos (by rw [hseq]; rfl))
  refine ⟨_, hexec, s.dev.abortSequencing_dark, ?_, rfl⟩
  rw [Dev.abortSequencing, Dev.setPState_store, Dev.mainsOff_store, Dev.stopMain_store]

/-- The trip as it is shown and its alarm, before any domain goes off. -/
def Dev.hubTrip (d : Dev) : Dev :=
  { d with power := { d.power with thermTrip := true, thermN := true, hubTripped := true } }.pwrAlarm 4

theorem ends_hubThermalTrip (hon : s.dev.power.hubOn = true) : Ends .hubThermalTrip s (fun t =>
    t.dev.Dark { s.dev.power.hubDown with thermTrip := true, thermN := true, hubTripped := true, pstate := .mgmtUp } ∧
    t.dev.store = { s.dev.store with armed := false } ∧ t.pending = s.pending) := by
  have hexec : exec .hubThermalTrip s = answerMem s ({ s.dev.hubTrip.abortSequencing with
      store := { ((s.dev.hubTrip.stopMain 0xF6 false).mainsOff).store with armed := false } }, clearAll) := by
    delta Dev.abortSequencing Dev.hubTrip
    exact if_pos hon
  have hdark := s.dev.hubTrip.abortSequencing_dark
  have hpower : s.dev.hubTrip.power = _ := Dev.alarm_power _ _ _ _ _
  have hstore : ((s.dev.hubTrip.stopMain 0xF6 false).mainsOff).store = s.dev.store := by
    rw [Dev.mainsOff_store, Dev.stopMain_store]
    exact Dev.alarm_store _ _ _ _ _
  rw [hpower] at hdark
  rw [hstore] at hexec
  generalize s.dev.hubTrip.abortSequencing = e at hexec hdark
  exact ⟨_, hexec, hdark.congr rfl rfl, rfl, rfl⟩

theorem ends_mgmtThermalTrip (hon : s.dev.power.mgmtOn = true) : Ends .mgmtThermalTrip s (fun t =>
    t.dev.power.pstate = .auxOnly ∧ t.dev.power.mgmtOn = false ∧ t.dev.power.thermN = true ∧ t.dev.host.linkUp = false ∧
    t.dev.store = s.dev.store ∧ t.dev.now = s.dev.now) :=
  ⟨_, if_pos hon, rfl, rfl, rfl, rfl, rfl, rfl⟩

end Warned

/-- Settles O8, a lemma for each event. -/
theorem warnedAndUnseatedLossesQuiesce : Obligations.WarnedAndUnseatedLossesQuiesce := by
  intro s
  refine ⟨fun hcan hseq mainHeld => ?_, fun hrun hon => ?_, fun hcan hseq mainHeld aonHeld => ?_, fun hon => ?_, ends_mgmtThermalTrip s,
    ⟨_, rfl, rfl, rfl, rfl, rfl, Memory.get_clearAll _, rfl⟩⟩
  · obtain ⟨t, hexec, ⟨p, hp, hhub, hdark⟩, hmem, hpending, hstore⟩ := ends_pwrWarnAsserted s hcan hseq mainHeld
    exact ⟨t, hexec, (congrArg Power.pstate hdark.1).trans hp, (congrArg Power.hubOn hdark.1).trans hhub, hdark.die_on, hmem, hpending,
      hstore⟩
  · obtain ⟨t, hexec, hdark, hmem, hpending, -, hstore⟩ := ends_matedNHigh s hrun hon
    exact ⟨t, hexec, congrArg Power.pstate hdark.1, congrArg Power.hubOn hdark.1, congrArg Power.mated hdark.1, hdark.die_on, hmem,
      hpending, hstore⟩
  · obtain ⟨t, hexec, hdark, hstore, hpending⟩ := ends_pwrWarnAsserted_sequencing s hcan hseq mainHeld aonHeld
    exact ⟨t, hexec, congrArg Power.pstate hdark.1, congrArg Power.hubOn hdark.1, hdark.die_on, hstore, hpending⟩
  · obtain ⟨t, hexec, hdark, hstore, hpending⟩ := ends_hubThermalTrip s hon
    exact ⟨t, hexec, congrArg Power.pstate hdark.1, congrArg Power.hubOn hdark.1, congrArg Power.thermN hdark.1,
      congrArg Power.thermTrip hdark.1, congrArg Power.hubTripped hdark.1, hdark.die_on, hstore, hpending⟩

end Sys2Proof.Machine

/-! Permits and counters (R24, R25, R35, R36, Table 2.6): every permit that the pace gate issues stays in a bank or ends in one of four
counters, and the latches of COUNTER_SNAP and COUNTER_CLEAR act at the next tick. -/
namespace Sys2Proof.Machine

/-! ## The banks and the counters of a die -/

/-- A die with `v` permits in the bank of lane `l`. -/
def Die.withBank (x : Die) (l v : Nat) : Die := { x with banks := Tbl.put x.banks l v }

/-- A die that has added to one of its counters. -/
def Die.counted (x : Die) (off k : Nat) : Die := { x with cnt := bump x.cnt off k }

/-- A die as one permit reaches lane `l`. -/
def Die.permitted (x : Die) (l : Nat) : Die := { x.withBank l (x.bank l + 1) with issued := x.issued + 1 }

/-- A die with another value in its pace gate's accumulator. -/
def Die.withAcc (x : Die) (v : Nat) : Die := { x with acc := v }

/-- One of a die's counters. -/
def Die.counter (x : Die) (off : Nat) : Word := Tbl.lookD x.cnt off 0

/-- The counters of Table 2.6, in one of which every permit ends. -/
def permitEnds : List Nat := [cntPicks, cntShort, cntStall, cntIdle]

/-- The permits that have ended, by those counters. -/
def Die.ended (x : Die) : Word :=
  x.counter cntPicks + x.counter cntShort + x.counter cntStall + x.counter cntIdle

/-- The permits in the banks of a die's 64 lanes. -/
def Die.held (x : Die) : Nat := ((List.range 64).map x.bank).sum

/-- The permits of a die, held or ended. -/
def Die.permits (x : Die) : Word := x.ended + BitVec.ofNat 64 x.held

theorem Die.bank_withBank (x : Die) (l v j : Nat) : (x.withBank l v).bank j = if j = l then v else x.bank j := by
  by_cases h : j = l
  · subst h; simp [Die.bank, Die.withBank]
  · simp [Die.bank, Die.withBank, Tbl.lookD_put_other _ _ _ h, h]

@[simp] theorem Die.bank_withBank_same (x : Die) (l v : Nat) : (x.withBank l v).bank l = v := by simp [Die.bank_withBank]

theorem Die.bank_permitted (x : Die) (l j : Nat) : (x.permitted l).bank j = if j = l then x.bank l + 1 else x.bank j :=
  x.bank_withBank l _ j

@[simp] theorem Die.counter_withBank (x : Die) (l v off : Nat) : (x.withBank l v).counter off = x.counter off := rfl

@[simp] theorem Die.counter_permitted (x : Die) (l off : Nat) : (x.permitted l).counter off = x.counter off := rfl

@[simp] theorem Die.bank_withAcc (x : Die) (v l : Nat) : (x.withAcc v).bank l = x.bank l := rfl

@[simp] theorem Die.bank_counted (x : Die) (off k j : Nat) : (x.counted off k).bank j = x.bank j := rfl

theorem Die.counter_counted (x : Die) (off k j : Nat) : (x.counted off k).counter j =
    if j = off then x.counter off + BitVec.ofNat 64 k else x.counter j := by
  by_cases h : j = off
  · subst h; simp [Die.counter, Die.counted, bump, Tbl.upd]
  · simp [Die.counter, Die.counted, bump, Tbl.upd, Tbl.lookD_put_other _ _ _ h, h]

/-- The four counters stand at four offsets, so a permit that ends is counted once. -/
theorem Die.ended_counted (x : Die) {off : Nat} (h : off ∈ permitEnds) (k : Nat) :
    (x.counted off k).ended = x.ended + BitVec.ofNat 64 k := by
  simp only [permitEnds, List.mem_cons, List.not_mem_nil, or_false] at h
  rcases h with rfl | rfl | rfl | rfl <;> simp [Die.ended, Die.counter_counted, cntPicks, cntShort, cntStall, cntIdle] <;> ac_rfl

theorem Die.ended_counted_other (x : Die) {off : Nat} (h : off ∉ permitEnds) (k : Nat) : (x.counted off k).ended = x.ended := by
  simp only [permitEnds, List.mem_cons, List.not_mem_nil, or_false, not_or] at h
  obtain ⟨hpicks, hshort, hstall, hidle⟩ := h
  simp [Die.ended, Die.counter_counted, Ne.symm hpicks, Ne.symm hshort, Ne.symm hstall, Ne.symm hidle]

theorem Die.held_withBank (x : Die) {l : Nat} (h : l < 64) (v : Nat) : (x.withBank l v).held + x.bank l = x.held + v := by
  have hsplit : ∀ f : Nat → Nat, ((List.range 64).map f).sum = f l + (((List.range 64).erase l).map f).sum := fun f =>
    (List.sum_map_erase f (List.mem_range.2 h)).symm
  have hrest : ((List.range 64).erase l).map (x.withBank l v).bank = ((List.range 64).erase l).map x.bank :=
    List.map_congr_left fun j hj => by
      rw [Die.bank_withBank, if_neg ((List.nodup_range.mem_erase_iff.1 hj).1)]
  rw [Die.held, Die.held, hsplit, hsplit, hrest, Die.bank_withBank_same]
  omega

theorem Die.permits_withAcc (x : Die) (v : Nat) : (x.withAcc v).permits = x.permits := rfl

theorem Die.permits_permitted (x : Die) {l : Nat} (h : l < 64) : (x.permitted l).permits = x.permits + BitVec.ofNat 64 1 := by
  have hheld : (x.permitted l).held = x.held + 1 := by
    have hput : (x.permitted l).held + x.bank l = x.held + (x.bank l + 1) := x.held_withBank h (x.bank l + 1)
    omega
  rw [Die.permits, Die.permits, hheld, BitVec.ofNat_add, BitVec.add_assoc]
  rfl

/-- Permits that leave a bank and are counted stay among the die's permits. -/
theorem Die.permits_spent (x : Die) {l off k : Nat} (h : l < 64) (hoff : off ∈ permitEnds) (hk : k ≤ x.bank l) :
    ((x.withBank l (x.bank l - k)).counted off k).permits = x.permits := by
  have hheld : x.held = (x.withBank l (x.bank l - k)).held + k := by have := x.held_withBank h (x.bank l - k); omega
  rw [Die.permits, Die.ended_counted _ hoff, Die.permits, hheld, BitVec.ofNat_add, BitVec.add_assoc, BitVec.add_comm (BitVec.ofNat 64 k)]
  rfl

theorem mem_setBits_toNat (v : BitVec 64) (l : Nat) : l ∈ setBits 64 v.toNat ↔ l < 64 ∧ v.getLsbD l = true := by
  rw [setBits, List.mem_filter, List.mem_range, bit, BitVec.getLsbD, Nat.testBit_eq_decide_div_mod_eq]
  simp

theorem setBits_nodup (w v : Nat) : (setBits w v).Nodup := List.nodup_range.filter _

/-! ## What the pace gate and the lanes may change -/

/-- The device without its dies and its rings. -/
def Dev.bare (d : Dev) : Dev := { d with dies := [], rings := [] }

theorem Dev.eq_of_bare {d e : Dev} (h : e.bare = d.bare) : e = { d with dies := e.dies, rings := e.rings } :=
  congrArg (fun x : Dev => { x with dies := e.dies, rings := e.rings }) h

theorem Dev.dieServes_of_bare {d e : Dev} (h : e.bare = d.bare) (n : Nat) : e.dieServes n = d.dieServes n := by
  have hblocks : e.blocks = d.blocks := (congrArg Dev.blocks h :)
  rw [Dev.dieServes, Dev.dieServes, Dev.block_congr hblocks]

@[simp] theorem Dev.bare_count (d : Dev) (n off k : Nat) : (d.count n off k).bare = d.bare := by
  unfold Dev.count; split <;> rfl

theorem Dev.die_count {d : Dev} {n : Nat} (h : d.dieServes n = true) (off k m : Nat) :
    (d.count n off k).die m = if m = n then (d.die n).counted off k else d.die m := by
  rw [Dev.count, if_pos h]
  exact Dev.die_modDie d n m _

/-- `k` permits reach lanes of `L` on die `n`: of the device only the die's banks, its counters and the rings move, the banks of other
lanes stay, no bank gains more than `k`, and the die's permits rise by `k`. -/
structure Issued (n : Nat) (L : List Nat) (k : Nat) (d e : Dev) : Prop where
  bare : e.bare = d.bare
  others : ∀ m, m ≠ n → e.die m = d.die m
  acc : (e.die n).acc = (d.die n).acc
  banks : ∀ j, j ∉ L → (e.die n).bank j = (d.die n).bank j
  gain : ∀ j, (e.die n).bank j ≤ (d.die n).bank j + k
  permits : (e.die n).permits = (d.die n).permits + BitVec.ofNat 64 k

section Issued
variable {n l k k' : Nat} {L M : List Nat} {d e f : Dev}

theorem Issued.refl (n : Nat) (L : List Nat) (d : Dev) : Issued n L 0 d d :=
  ⟨rfl, fun _ _ => rfl, rfl, fun _ _ => rfl, fun _ => Nat.le_refl _, (BitVec.add_zero _).symm⟩

theorem Issued.trans (h : Issued n L k d e) (h' : Issued n L k' e f) : Issued n L (k + k') d f where
  bare := h'.bare.trans h.bare
  others m hm := (h'.others m hm).trans (h.others m hm)
  acc := h'.acc.trans h.acc
  banks j hj := (h'.banks j hj).trans (h.banks j hj)
  gain j := by have := h.gain j; have := h'.gain j; omega
  permits := by rw [h'.permits, h.permits, BitVec.ofNat_add, BitVec.add_assoc]

theorem Issued.mono (h : Issued n L k d e) (hLM : L ⊆ M) : Issued n M k d e :=
  { h with banks := fun j hj => h.banks j fun hL => hj (hLM hL) }

theorem Issued.serves (h : Issued n L k d e) (hd : d.dieServes n = true) : e.dieServes n = true :=
  (Dev.dieServes_of_bare h.bare n).trans hd

/-- Only die `n` moves among the dies. -/
theorem Issued.of_die {x : Die} (hbare : e.bare = d.bare) (hdie : ∀ m, e.die m = if m = n then x else d.die m)
    (hacc : x.acc = (d.die n).acc) (hbanks : ∀ j, j ∉ L → x.bank j = (d.die n).bank j) (hgain : ∀ j, x.bank j ≤ (d.die n).bank j + k)
    (hpermits : x.permits = (d.die n).permits + BitVec.ofNat 64 k) : Issued n L k d e := by
  obtain rfl : e.die n = x := (hdie n).trans (if_pos rfl)
  exact ⟨hbare, fun m hm => (hdie m).trans (if_neg hm), hacc, hbanks, hgain, hpermits⟩

/-- Permits of one lane end in one of the four counters. -/
theorem Issued.of_spent {off : Nat} (hl : l < 64) (hoff : off ∈ permitEnds) (hk : k ≤ (d.die n).bank l) (hbare : e.bare = d.bare)
    (hdie : ∀ m, e.die m = if m = n then ((d.die n).withBank l ((d.die n).bank l - k)).counted off k else d.die m) :
    Issued n [l] 0 d e := by
  refine .of_die hbare hdie rfl (fun j hj => ?_) (fun j => ?_) ((Die.permits_spent _ hl hoff hk).trans (BitVec.add_zero _).symm)
  · rw [Die.bank_counted, Die.bank_withBank, if_neg (List.ne_of_not_mem_cons hj)]
  · rw [Die.bank_counted, Die.bank_withBank]
    split
    next h => subst h; omega
    next => omega

theorem Dev.lanePicks_issued (hd : d.dieServes n = true) (hl : l < 64) (r : Nat) (c : W32) (hk : k ≤ (d.die n).bank l) :
    Issued n [l] 0 d (d.lanePicks n l r c k) := by
  refine Issued.of_spent (off := cntPicks) hl (by decide) hk (Dev.bare_count _ _ _ _) fun m => ?_
  rw [Dev.lanePicks, Dev.die_count (by exact hd)]
  have hentry : ∀ (x : Dev) (g : Entry → Entry) j, (x.modEntry r c g).die j = x.die j := fun _ _ => Dev.die_congr rfl
  rw [hentry, hentry, Dev.die_modDie, Dev.die_modDie, if_pos rfl]
  split <;> rfl

/-- A lane makes what picks it may, as far as its permits reach. -/
theorem Dev.lanePicks_min_issued (hd : d.dieServes n = true) (hl : l < 64) (r : Nat) (c : W32) (may : Nat) :
    Issued n [l] 0 d (if min ((d.die n).bank l) may = 0 then d else d.lanePicks n l r c (min ((d.die n).bank l) may)) := by
  split
  next => exact Issued.refl n [l] d
  next => exact Dev.lanePicks_issued hd hl r c (Nat.min_le_left _ _)

theorem Dev.laneSteal_issued (hd : d.dieServes n = true) (l r : Nat) (c : W32) : Issued n [] 0 d (d.laneSteal n l r c) := by
  unfold Dev.laneSteal
  split
  next v _ =>
    have hdie : ∀ m, ((d.modEntry r c fun e => e.stealFrom n v l).count n 0x380 1).die m =
        if m = n then (d.die n).counted 0x380 1 else d.die m := Dev.die_count (by exact hd) _ _
    have hpermits : ((d.die n).counted 0x380 1).permits = (d.die n).permits := by
      rw [Die.permits, Die.ended_counted_other _ (by decide)]; rfl
    exact .of_die (Dev.bare_count _ _ _ _) hdie rfl (fun _ _ => rfl) (fun _ => Nat.le_refl _)
      (hpermits.trans (BitVec.add_zero _).symm)
  next => exact Issued.refl n [] d

/-- A lane that goes on makes every pick with a permit it holds. -/
theorem Dev.laneGo_issued (hd : d.dieServes n = true) (hl : l < 64) : Issued n [l] 0 d (d.laneGo n l) := by
  unfold Dev.laneGo
  generalize d.laneOps n l = ops
  induction ops generalizing d with
  | nil => exact Issued.refl n [l] d
  | cons x ops ih =>
    rw [List.foldl_cons]
    refine Issued.trans (k := 0) (k' := 0) ?turn (ih (Issued.serves ?turn hd))
    split
    next => exact Issued.refl n [l] d
    next =>
      have hsteal := d.laneSteal_issued hd l x.1 x.2.count
      dsimp only
      exact (hsteal.mono (List.nil_subset [l])).trans (k' := 0) (Dev.lanePicks_min_issued (hsteal.serves hd) hl _ _ _)

theorem Dev.permitted_issued (d : Dev) (n : Nat) (hl : l < 64) : Issued n [l] 1 d (d.modDie n fun x => x.permitted l) := by
  refine .of_die rfl (fun m => d.die_modDie n m _) rfl (fun j hj => ?_) (fun j => ?_) (Die.permits_permitted _ hl)
  · rw [Die.bank_permitted, if_neg (List.ne_of_not_mem_cons hj)]
  · rw [Die.bank_permitted]
    split
    next h => rw [h]
    next => exact Nat.le_succ _

/-- One permit, by what its bank gains, what its lane uses and what is left over. -/
theorem Dev.permit_eq (d : Dev) (n : Nat) (stalled short : BitVec 64) (l : Nat) : d.permit n stalled short l =
    let slow := short.getLsbD l && (d.die n).shownState != 2
    let d := d.modDie n fun x => x.permitted l
    let d := if slow || stalled.getLsbD l then d else d.laneGo n l
    if (d.die n).bank l ≤ 16 then d
    else (d.modDie n fun x => x.withBank l 16).count n
      (if !d.laneBusy n l then cntIdle else if slow then cntShort else cntStall) 1 := rfl

/-- A permit that its lane does not use is banked, and one over 16 ends in IDLE, SHORT or STALL. -/
theorem Dev.permit_issued (hd : d.dieServes n = true) (hl : l < 64) (hbank : (d.die n).bank l ≤ 16) (stalled short : BitVec 64) :
    Issued n [l] 1 d (d.permit n stalled short l) ∧ ((d.permit n stalled short l).die n).bank l ≤ 16 := by
  rw [Dev.permit_eq]
  extract_lets slow d1 d2
  have h1 : Issued n [l] 1 d d1 := d.permitted_issued n hl
  have h2 : Issued n [l] 1 d d2 := by
    unfold d2
    split
    next => exact h1
    next => exact h1.trans (k' := 0) (Dev.laneGo_issued (h1.serves hd) hl)
  split
  next h => exact ⟨h2, h⟩
  next h =>
    have hfull : (d2.die n).bank l = 17 := by have := h2.gain l; omega
    generalize hoff : (if (!d2.laneBusy n l) = true then cntIdle else if slow = true then cntShort else cntStall) = off
    have hend : off ∈ permitEnds := by subst hoff; (repeat' split) <;> decide
    have hdie : ∀ m, ((d2.modDie n fun x => x.withBank l 16).count n off 1).die m =
        if m = n then ((d2.die n).withBank l ((d2.die n).bank l - 1)).counted off 1 else d2.die m := fun m => by
      rw [Dev.die_count (by exact h2.serves hd), Dev.die_modDie, Dev.die_modDie, if_pos rfl, hfull]
      split <;> rfl
    refine ⟨h2.trans (k' := 0) (Issued.of_spent hl hend (by omega) (Dev.bare_count _ _ _ _) hdie), ?_⟩
    rw [hdie, if_pos rfl, Die.bank_counted, Die.bank_withBank_same, hfull]

theorem Dev.permits_issued (hd : d.dieServes n = true) (hL : ∀ l ∈ L, l < 64) (hbank : ∀ l < 64, (d.die n).bank l ≤ 16)
    (stalled short : BitVec 64) : Issued n L L.length d (L.foldl (fun d l => d.permit n stalled short l) d) ∧
      ∀ l < 64, ((L.foldl (fun d l => d.permit n stalled short l) d).die n).bank l ≤ 16 := by
  induction L generalizing d with
  | nil => exact ⟨Issued.refl n [] d, hbank⟩
  | cons l L ih =>
    have hl := hL l (List.mem_cons_self ..)
    obtain ⟨hone, hle⟩ := Dev.permit_issued hd hl (hbank l hl) stalled short
    have hnext : ∀ j < 64, ((d.permit n stalled short l).die n).bank j ≤ 16 := fun j hj => by
      by_cases h : j = l
      · rw [h]; exact hle
      · rw [hone.banks j (by simpa using h)]; exact hbank j hj
    obtain ⟨hrest, hall⟩ := ih (hone.serves hd) (fun j hj => hL j (List.mem_cons_of_mem l hj)) hnext
    rw [List.foldl_cons, List.length_cons, Nat.add_comm]
    exact ⟨(hone.mono (by simp)).trans (hrest.mono (List.subset_cons_self l L)), hall⟩

end Issued

/-! ## Permits where no lane has an op -/

/-- No descriptor in hand is a lane op, and none has work on a lane. -/
def Dev.NoLaneOp (d : Dev) : Prop := ∀ g ∈ d.rings, ∀ e ∈ g.2.ents, laneOpcode (hOpcode e.desc) = false ∧ e.work = none

section NoLaneOp
variable {n l : Nat} {L : List Nat} {d : Dev}

theorem Dev.NoLaneOp.laneOps_eq_nil (h : d.NoLaneOp) (n l : Nat) : d.laneOps n l = [] := by
  have hnone : ∀ g ∈ d.rings, ∀ e ∈ g.2.ents, e.workAt n l = none := fun g hg e he => by rw [Entry.workAt, (h g hg e he).2]; rfl
  unfold Dev.laneOps
  refine (congrArg _ (List.flatMap_eq_nil_iff.2 fun g hg => ?_)).trans (List.insertionSort_nil _)
  exact List.map_eq_nil_iff.2 <| List.filter_eq_nil_iff.2 fun e he => by simp [hnone g hg e he]

theorem Dev.NoLaneOp.laneGo_eq (h : d.NoLaneOp) (n l : Nat) : d.laneGo n l = d := by
  rw [Dev.laneGo, h.laneOps_eq_nil]; rfl

theorem Dev.NoLaneOp.laneBusy_eq (h : d.NoLaneOp) (n l : Nat) : d.laneBusy n l = false := by
  rw [Dev.laneBusy, h.laneOps_eq_nil, List.isEmpty_nil, Bool.not_true, Bool.false_or, List.any_eq_false]
  intro g hg hbusy
  obtain ⟨e, he, hwaits⟩ := List.any_eq_true.1 (Bool.and_eq_true_iff.1 hbusy).2
  simp [(h g hg e he).1] at hwaits

/-- A permit on a lane without an op: one more in the bank, or an IDLE over 16. -/
theorem Dev.NoLaneOp.permit_eq (h : d.NoLaneOp) (n : Nat) (stalled short : BitVec 64) (l : Nat) : d.permit n stalled short l =
    if (d.die n).bank l ≤ 15 then d.modDie n fun x => x.permitted l
    else ((d.modDie n fun x => x.permitted l).modDie n fun x => x.withBank l 16).count n cntIdle 1 := by
  have hnext : (d.modDie n fun x => x.permitted l).NoLaneOp := h
  have hbank : ((d.modDie n fun x => x.permitted l).die n).bank l = (d.die n).bank l + 1 := by
    rw [Dev.die_modDie, if_pos rfl, Die.bank_permitted, if_pos rfl]
  rw [Dev.permit_eq]
  dsimp only
  rw [hnext.laneGo_eq, ite_self, hbank, hnext.laneBusy_eq]
  simp only [Nat.succ_le_succ_iff, Bool.not_false, if_true]

/-- On lanes of `L` without an op each bank rises by one, at most to 16, and a permit over that is counted IDLE. -/
structure Idled (n : Nat) (L : List Nat) (d e : Dev) : Prop where
  rings : e.rings = d.rings
  banks : ∀ j, (e.die n).bank j = if j ∈ L then min 16 ((d.die n).bank j + 1) else (d.die n).bank j
  idle : (e.die n).counter cntIdle = (d.die n).counter cntIdle + BitVec.ofNat 64 (L.filter fun l => (d.die n).bank l == 16).length

theorem Dev.NoLaneOp.permit_idled (h : d.NoLaneOp) (hd : d.dieServes n = true) (hbank : (d.die n).bank l ≤ 16)
    (stalled short : BitVec 64) : Idled n [l] d (d.permit n stalled short l) := by
  rw [h.permit_eq]
  split
  next hroom =>
    have hn := (d.die_modDie n n fun x => x.permitted l).trans (if_pos rfl)
    refine ⟨rfl, fun j => ?_, ?_⟩
    · rw [hn, Die.bank_permitted]
      by_cases hj : j = l
      · subst hj; simp; omega
      · simp [hj]
    · have hfree : ((d.die n).bank l == 16) = false := by simp; omega
      simp [hn, hfree]
  next hfull =>
    have hsixteen : (d.die n).bank l = 16 := by omega
    have hn : ((((d.modDie n fun x => x.permitted l).modDie n fun x => x.withBank l 16).count n cntIdle 1).die n) =
        (((d.die n).permitted l).withBank l 16).counted cntIdle 1 := by
      rw [Dev.die_count (by exact hd), if_pos rfl, Dev.die_modDie, if_pos rfl, Dev.die_modDie, if_pos rfl]
    refine ⟨Dev.count_rings _ _ _ _, fun j => ?_, ?_⟩
    · rw [hn, Die.bank_counted, Die.bank_withBank, Die.bank_permitted]
      by_cases hj : j = l
      · subst hj; simp [hsixteen]
      · simp [hj]
    · rw [hn, Die.counter_counted, if_pos rfl]
      simp [hsixteen]

theorem Dev.NoLaneOp.permits_idled (h : d.NoLaneOp) (hd : d.dieServes n = true) (hL : L.Nodup) (h64 : ∀ l ∈ L, l < 64)
    (hbank : ∀ l < 64, (d.die n).bank l ≤ 16) (stalled short : BitVec 64) :
    Idled n L d (L.foldl (fun d l => d.permit n stalled short l) d) := by
  induction L generalizing d with
  | nil => exact ⟨rfl, fun _ => rfl, (BitVec.add_zero _).symm⟩
  | cons l L ih =>
    obtain ⟨hnew, hL⟩ := List.nodup_cons.1 hL
    have hl := h64 l (List.mem_cons_self ..)
    have hone := h.permit_idled hd (hbank l hl) stalled short
    obtain ⟨hissued, -⟩ := Dev.permit_issued hd hl (hbank l hl) stalled short
    rw [List.foldl_cons]
    generalize d.permit n stalled short l = e at hone hissued
    have hnext : ∀ j < 64, (e.die n).bank j ≤ 16 := fun j hj => by
      have := hbank j hj
      rw [hone.banks]; split <;> omega
    have he : e.NoLaneOp := by rw [Dev.NoLaneOp, hone.rings]; exact h
    have hrest := ih he (hissued.serves hd) hL (fun j hj => h64 j (List.mem_cons_of_mem l hj)) hnext
    have hkept : ∀ j ∈ L, (e.die n).bank j = (d.die n).bank j := fun j hj =>
      hissued.banks j (by rintro h; rw [List.mem_singleton] at h; exact hnew (h ▸ hj))
    refine ⟨hrest.rings.trans hone.rings, fun j => ?_, ?_⟩
    · by_cases hj : j ∈ L
      · rw [hrest.banks, if_pos hj, hkept j hj, if_pos (List.mem_cons_of_mem l hj)]
      · rw [hrest.banks, if_neg hj, hone.banks]
        simp [hj]
    · have hfilter : L.filter (fun j => (e.die n).bank j == 16) = L.filter (fun j => (d.die n).bank j == 16) :=
        List.filter_congr fun j hj => by rw [hkept j hj]
      rw [hrest.idle, hone.idle, hfilter, BitVec.add_assoc, ← BitVec.ofNat_add, ← List.length_append, ← List.filter_append]
      rfl

end NoLaneOp

/-! ## The latches, at the tick that follows (R36) -/

theorem Die.tick_latched {x : Die} (h : x.snapPend = true) (now : Tick) (serves : Bool) : (x.tick now serves).latched = x.cnt := by
  rw [Die.tick, if_pos h]; dsimp only; (repeat' split) <;> rfl

theorem Die.tick_snapTick {x : Die} (h : x.snapPend = true) (now : Tick) (serves : Bool) : (x.tick now serves).snapTick = now := by
  rw [Die.tick, if_pos h]; dsimp only; (repeat' split) <;> rfl

theorem Die.tick_cnt {x : Die} (h : x.clearPend = true) (now : Tick) (serves : Bool) : (x.tick now serves).cnt = [] := by
  unfold Die.tick
  extract_lets y z
  have hy : y.clearPend = true := by unfold y; split <;> exact h
  have hz : z.cnt = [] := by unfold z; rw [if_pos hy]
  split <;> exact hz

theorem Dev.syncTick_dies (d : Dev) : d.syncTick.dies = d.dies := by
  unfold Dev.syncTick; (repeat' split) <;> rfl

/-- A tick on a listed die. -/
theorem Dev.die_tick {d : Dev} {n : Nat} {x : Die} (h : Tbl.look d.dies n = some x) :
    d.tick.die n = x.tick d.tick.now (d.tick.dieServes n) := by
  have hdies : d.tick.dies = Tbl.mapAll d.dies fun m y => y.tick d.tick.now (d.tick.dieServes m) :=
    congrArg (fun t : Tbl Die => Tbl.mapAll t fun m y => y.tick d.tick.now (d.tick.dieServes m))
      (Dev.syncTick_dies { d with now := d.now + 1 })
  rw [Dev.die, Tbl.lookD, hdies, Tbl.look_mapAll, h]
  rfl

theorem Dev.die_tick_setDie (d : Dev) (n : Nat) (x : Die) :
    (d.setDie n x).tick.die n = x.tick (d.setDie n x).tick.now ((d.setDie n x).tick.dieServes n) :=
  Dev.die_tick (Tbl.look_put_same _ _ _)

/-! ## The statement's clauses -/

section Clauses
variable (s : State) (n : Fin 4)

theorem exec_permitIssue (hd : s.dev.dieServes n.val = true) (hgov : (s.dev.die n.val).governed = true) {acc : Nat}
    (hacc : (s.dev.die n.val).acc = acc + 1000) (stalled short : BitVec 64) : exec (.permitIssue n stalled short) s =
      answer s ((setBits 64 (s.dev.die n.val).laneLog.toNat).foldl (fun d l => d.permit n.val stalled short l)
        (s.dev.setDie n.val ((s.dev.die n.val).withAcc acc))) := by
  have hopen : (s.dev.dieServes n.val && (s.dev.die n.val).governed && decide (1000 ≤ (s.dev.die n.val).acc)) = true := by
    simp [hd, hgov, hacc]
  have hleft : (s.dev.die n.val).acc - 1000 = acc := by omega
  rw [← hleft]
  exact if_pos hopen

theorem ends_counterSnap (hmgmt : s.dev.health.stopped = false) (clear : Bool) : Ends (.counterSnap n clear) s (fun t =>
    t = { s with dev := s.dev.setDie n.val { s.dev.die n.val with
      snapPend := true, clearPend := (s.dev.die n.val).clearPend || clear } } ∧
    ((idle t).dev.die n.val).latched = (s.dev.die n.val).cnt ∧ ((idle t).dev.die n.val).snapTick = (idle t).dev.now) := by
  refine ⟨_, viaCfg_of_serving hmgmt _, rfl, ?_⟩
  have htick := s.dev.die_tick_setDie n.val { s.dev.die n.val with
    snapPend := true, clearPend := (s.dev.die n.val).clearPend || clear }
  exact ⟨(congrArg Die.latched htick).trans (Die.tick_latched rfl _ _), (congrArg Die.snapTick htick).trans (Die.tick_snapTick rfl _ _)⟩

theorem ends_counterClear (hmgmt : s.dev.health.stopped = false) : Ends (.counterClear n) s (fun t =>
    t = { s with dev := s.dev.setDie n.val { s.dev.die n.val with clearPend := true } } ∧ ((idle t).dev.die n.val).cnt = []) :=
  ⟨_, viaCfg_of_serving hmgmt _, rfl, (congrArg Die.cnt (s.dev.die_tick_setDie n.val _)).trans (Die.tick_cnt rfl _ _)⟩

end Clauses

/-- Settles O12: the permits by what one permit does to the banks and counters of its die, the latches by what a tick does with them. -/
theorem permitsAndCountersMove : Obligations.PermitsAndCountersMove := by
  intro s n stalled short
  refine ⟨fun hd hgov hacc hbank => ?_, ends_counterSnap s n, ends_counterClear s n⟩
  obtain ⟨acc, hacc⟩ := Nat.exists_eq_add_of_le' hacc
  have hlanes : ∀ l ∈ setBits 64 (s.dev.die n.val).laneLog.toNat, l < 64 := fun l hl => ((mem_setBits_toNat _ l).1 hl).1
  have hstart := fun m => s.dev.die_setDie n.val m ((s.dev.die n.val).withAcc acc)
  have hn := (hstart n.val).trans (if_pos rfl)
  have hserves : (s.dev.setDie n.val ((s.dev.die n.val).withAcc acc)).dieServes n.val = true := hd
  have hbank0 : ∀ l < 64, ((s.dev.setDie n.val ((s.dev.die n.val).withAcc acc)).die n.val).bank l ≤ 16 := by rw [hn]; exact hbank
  obtain ⟨hissued, hsixteen⟩ := Dev.permits_issued hserves hlanes hbank0 stalled short
  refine ⟨_, exec_permitIssue s n hd hgov hacc stalled short, ?_,
    fun k hk => (hissued.others k hk).trans ((hstart k).trans (if_neg hk)), ?_, hsixteen, fun l hl hoff => ?_, ?_, fun hnone => ?_⟩
  · exact congrArg (fun x => { s with dev := x }) (Dev.eq_of_bare (d := s.dev) hissued.bare)
  · rw [hacc, Nat.add_sub_cancel]
    exact hissued.acc.trans (congrArg Die.acc hn)
  · have hmem : l ∉ setBits 64 (s.dev.die n.val).laneLog.toNat := by simp [mem_setBits_toNat, hoff]
    exact (hissued.banks l hmem).trans (by rw [hn, Die.bank_withAcc])
  · have hpermits := hissued.permits
    rw [hn, Die.permits_withAcc] at hpermits
    exact hpermits
  · obtain ⟨hrings, hbanks, hidle⟩ := Dev.NoLaneOp.permits_idled (d := s.dev.setDie n.val ((s.dev.die n.val).withAcc acc)) hnone hserves
      (setBits_nodup 64 _) hlanes hbank0 stalled short
    rw [hn] at hidle
    refine ⟨hrings, fun l hl => (hbanks l).trans ?_, hidle⟩
    rw [hn]
    simp only [mem_setBits_toNat, hl, true_and, Die.bank_withAcc]

end Sys2Proof.Machine

/-! A host write of near memory read back (R44, R211, R217): the stores that it makes, and what they leave at each byte's key. -/
namespace Sys2Proof.Machine

/-! ## Stores that agree on a cell -/

/-- A change stores the byte `b` at the key `k`. -/
def MemOp.puts : MemOp → Nat → Byte → Prop
  | .bytes a l, k, b => a ≤ k ∧ l[k - a]? = some b
  | .clear _ _, _, _ => False

theorem Memory.get_apply_puts {m : Memory} (hm : Memory.wf m = true) {w : MemOp} {k : Nat} {b : Byte} (h : w.puts k b) :
    (m.apply w).get k = b := by
  cases w with
  | clear lo hi => exact h.elim
  | bytes a l =>
    obtain ⟨hle, hget⟩ := h
    obtain ⟨hlt, hval⟩ := List.getElem?_eq_some_iff.1 hget
    have hsame := Memory.get_write_same hm a l hlt
    rw [Nat.add_sub_cancel' hle] at hsame
    exact hsame.trans hval

/-- Where every change that names a key stores one byte there, and some change does, that byte is read. -/
theorem Memory.get_applyAll_puts {m : Memory} (hm : Memory.wf m = true) {ws : List MemOp} {k : Nat} {b : Byte}
    (hall : ∀ w ∈ ws, w.spares k ∨ w.puts k b) (hsome : ∃ w ∈ ws, w.puts k b) : (m.applyAll ws).get k = b := by
  induction ws generalizing m with
  | nil => simp at hsome
  | cons w ws ih =>
    have hrest : ∀ v ∈ ws, v.spares k ∨ v.puts k b := fun v hv => hall v (List.mem_cons_of_mem _ hv)
    by_cases hlater : ∃ v ∈ ws, v.puts k b
    · exact ih (Memory.wf_apply hm w) hrest hlater
    · have hw : w.puts k b := by
        obtain ⟨v, hv, hputs⟩ := hsome
        rcases List.mem_cons.1 hv with rfl | hv
        · exact hputs
        · exact absurd ⟨v, hv, hputs⟩ hlater
      have hspares : ∀ v ∈ ws, v.spares k := fun v hv => (hrest v hv).resolve_right fun hp => hlater ⟨v, hv, hp⟩
      rw [Memory.applyAll, Memory.get_applyAll_spares _ _ hspares, Memory.get_apply_puts hm hw]

/-! ## A byte homed near -/

theorem Obj.unitSize_pos (o : Obj) : 0 < o.unitSize := by
  unfold Obj.unitSize slotBytes; (repeat' split) <;> decide

/-- The byte at `a` lies in object `o` alone, in a unit homed near that is not in motion. -/
structure Dev.NearByte (d : Dev) (n : Nat) (o : Obj) (a : Nat) : Prop where
  named : d.findObj Obj.named a 1 = some (n, o)
  reached : d.findObj (fun x => x.st != .free) a 1 = some (n, o)
  base_le : o.base ≤ a
  near : o.isNear ((a - o.base) / o.unitSize) = true
  still : o.inMotion ((a - o.base) / o.unitSize) = false

theorem Dev.findObj_congr {d e : Dev} (h : e.objects = d.objects) (p : Obj → Bool) (a n : Nat) : e.findObj p a n = d.findObj p a n := by
  rw [Dev.findObj, h, Dev.findObj]

theorem Dev.NearByte.congr {d e : Dev} {n a : Nat} {o : Obj} (h : d.NearByte n o a) (he : e.objects = d.objects) : e.NearByte n o a where
  named := (Dev.findObj_congr he _ _ _).trans h.named
  reached := (Dev.findObj_congr he _ _ _).trans h.reached
  base_le := h.base_le
  near := h.near
  still := h.still

theorem Dev.NearByte.lt_end {d : Dev} {n a : Nat} {o : Obj} (h : d.NearByte n o a) : a < o.base + o.len := by
  have hfound := List.find?_some h.reached
  simp only [Obj.holds, Bool.and_eq_true, decide_eq_true_eq] at hfound
  omega

/-- The near tier is keyed by device address. -/
theorem Obj.key_of_near {o : Obj} {i off : Nat} (h : o.isNear i = true) : o.key i off = nearBase + (o.base + i * o.unitSize + off) := by
  rw [Obj.key, if_pos h]; omega

theorem Dev.NearByte.hostByte {d : Dev} {n a : Nat} {o : Obj} (h : d.NearByte n o a) (hready : o.st = .ready) (m : Memory) :
    d.hostByte m a = m.get (nearBase + a) := by
  have hobj : d.hostObj a = some o := by rw [Dev.hostObj, h.named]; rfl
  have hkey : d.keyOf a = some (nearBase + a) := by
    have hle := h.base_le
    have hdiv := Nat.div_add_mod' (a - o.base) o.unitSize
    have hcell : o.base + (a - o.base) / o.unitSize * o.unitSize + (a - o.base) % o.unitSize = a := by omega
    rw [Dev.keyOf, h.reached, Option.map_some, Obj.key_of_near h.near, hcell]
  rw [Dev.hostByte, hobj]
  simp only [hready, beq_self_eq_true, if_true, Dev.readByte, hkey]

/-! ## What one unit takes of a run of bytes -/

/-- The part of a run of bytes at `a` that falls in unit `u`: where it begins, and its store. -/
def Obj.unitFrom (o : Obj) (a u : Nat) : Nat := max a (o.base + u * o.unitSize)
def Obj.unitStore (o : Obj) (a : Nat) (data : List Byte) (u : Nat) : MemOp :=
  .bytes (o.key u (o.unitFrom a u - (o.base + u * o.unitSize)))
    ((data.drop (o.unitFrom a u - a)).take (min (a + data.length) (o.base + (u + 1) * o.unitSize) - o.unitFrom a u))

theorem Obj.unitStore_of_near {o : Obj} {u : Nat} (h : o.isNear u = true) (a : Nat) (data : List Byte) : o.unitStore a data u =
    .bytes (nearBase + o.unitFrom a u)
      ((data.drop (o.unitFrom a u - a)).take (min (a + data.length) (o.base + (u + 1) * o.unitSize) - o.unitFrom a u)) := by
  have hle : o.base + u * o.unitSize ≤ o.unitFrom a u := le_max_right _ _
  rw [Obj.unitStore, Obj.key_of_near h, Nat.add_sub_cancel' hle]

/-- Of a run that has `b` at `p`, a near unit's store leaves `p` alone or puts `b` there. -/
theorem Obj.unitStore_spares_or_puts {o : Obj} {u : Nat} (h : o.isNear u = true) {a p : Nat} {data : List Byte} {b : Byte}
    (hb : a ≤ p → p < a + data.length → data[p - a]? = some b) :
    (o.unitStore a data u).spares (nearBase + p) ∨ (o.unitStore a data u).puts (nearBase + p) b := by
  have hfrom : a ≤ o.unitFrom a u := le_max_left _ _
  rw [Obj.unitStore_of_near h]
  by_cases hin : o.unitFrom a u ≤ p ∧ p < min (a + data.length) (o.base + (u + 1) * o.unitSize)
  · obtain ⟨hlo, hhi⟩ := hin
    refine .inr ⟨by omega, ?_⟩
    have hidx : o.unitFrom a u - a + (nearBase + p - (nearBase + o.unitFrom a u)) = p - a := by omega
    rw [List.getElem?_take_of_lt (by omega), List.getElem?_drop, hidx]
    exact hb (by omega) (by omega)
  · refine .inl ?_
    simp only [MemOp.spares, List.length_take, List.length_drop]
    omega

/-- The unit in which `p` lies puts its byte. -/
theorem Obj.unitStore_puts {o : Obj} {a p : Nat} {data : List Byte} {b : Byte} (h : o.isNear ((p - o.base) / o.unitSize) = true)
    (hbase : o.base ≤ p) (hle : a ≤ p) (hlt : p < a + data.length) (hb : data[p - a]? = some b) :
    (o.unitStore a data ((p - o.base) / o.unitSize)).puts (nearBase + p) b := by
  refine (Obj.unitStore_spares_or_puts h fun _ _ => hb).resolve_left fun hspares => ?_
  have hlo := Nat.div_mul_le_self (p - o.base) o.unitSize
  have hhi := Nat.lt_div_mul_add o.unitSize_pos (a := p - o.base)
  rw [Obj.unitStore_of_near h] at hspares
  simp only [MemOp.spares, List.length_take, List.length_drop, Obj.unitFrom, Nat.succ_mul] at hspares
  omega

/-! ## A run of bytes homed near -/

/-- Every byte of a run of `len` at `a` is homed near in one object. -/
def Dev.NearRun (d : Dev) (n : Nat) (o : Obj) (a len : Nat) : Prop := ∀ i < len, d.NearByte n o (a + i)

variable {d : Dev} {n : Nat} {o : Obj} {a len : Nat} {data : List Byte}

theorem Dev.pieces_zero (d : Dev) (fuel a : Nat) : d.pieces fuel a 0 = [] := by cases fuel <;> simp [Dev.pieces]

/-- Such a run is one piece. -/
theorem Dev.NearRun.cut (h : d.NearRun n o a len) (hlen : 0 < len) : d.cut a len = [(n, o, a, len)] := by
  have hfirst := (h 0 hlen).reached
  rw [Nat.add_zero] at hfirst
  have hlast := (h (len - 1) (by omega)).lt_end
  have hmin : min len (o.base + o.len - a) = len := by omega
  rw [Dev.cut, Dev.pieces, if_neg (by omega), hfirst]
  simp only [hmin, Nat.sub_self, Dev.pieces_zero]

/-- Each unit that such a run reaches holds a byte of it. -/
theorem Dev.NearRun.byte_of_unit (h : d.NearRun n o a len) {j : Nat} (hj : j < (o.unitsIn a len).2) :
    ∃ i < len, (a + i - o.base) / o.unitSize = (o.unitsIn a len).1 + j := by
  have hpos := o.unitSize_pos
  unfold Obj.unitsIn at hj ⊢
  dsimp only at hj ⊢
  split at hj
  next => omega
  next hlen =>
    have hbase := (h 0 (by omega)).base_le
    generalize hu : (a - o.base) / o.unitSize + j = u
    have hlast : u * o.unitSize ≤ a - o.base + len - 1 := (Nat.le_div_iff_mul_le hpos).1 (by omega)
    by_cases hin : u * o.unitSize ≤ a - o.base
    · have hle := (Nat.le_div_iff_mul_le hpos).2 hin
      exact ⟨0, by omega, by rw [Nat.add_zero]; omega⟩
    · refine ⟨o.base + u * o.unitSize - a, by omega, ?_⟩
      have hoff : a + (o.base + u * o.unitSize - a) - o.base = u * o.unitSize := by omega
      rw [hoff, Nat.mul_div_cancel _ hpos]

theorem Dev.NearRun.unit (h : d.NearRun n o a len) {j : Nat} (hj : j < (o.unitsIn a len).2) :
    o.isNear ((o.unitsIn a len).1 + j) = true ∧ o.inMotion ((o.unitsIn a len).1 + j) = false := by
  obtain ⟨i, hi, hunit⟩ := h.byte_of_unit hj
  rw [← hunit]
  exact ⟨(h i hi).near, (h i hi).still⟩

/-- The stores of a run in one object, unit by unit. -/
def Obj.runStores (o : Obj) (a : Nat) (data : List Byte) : List MemOp :=
  (List.range (o.unitsIn a data.length).2).map (fun j => o.unitStore a data ((o.unitsIn a data.length).1 + j))

theorem foldl_append_map {α β γ : Type} (g : β → γ) (x : α) (l : List β) (ws : List γ) :
    l.foldl (fun (p : α × List γ) b => (p.1, p.2 ++ [g b])) (x, ws) = (x, ws ++ l.map g) := by
  induction l generalizing ws with
  | nil => simp
  | cons b l ih => simp [ih]

theorem Dev.NearRun.storeAt (h : d.NearRun n o a data.length) (hlen : 0 < data.length) :
    d.storeAt a data = (d, o.runStores a data) := by
  rw [Dev.storeAt, h.cut hlen, List.foldl_cons, List.foldl_nil]
  refine (List.foldl_ext _ (fun p j => (p.1, p.2 ++ [o.unitStore a data ((o.unitsIn a data.length).1 + j)])) _ fun p j hj => ?_).trans
    (foldl_append_map _ _ _ _)
  exact if_neg (by rw [(h.unit (List.mem_range.1 hj)).2]; decide)

/-- A run's stores name each cell with its byte alone. -/
theorem Dev.NearRun.runStores_spares_or_puts (h : d.NearRun n o a data.length) {p : Nat} {b : Byte}
    (hb : a ≤ p → p < a + data.length → data[p - a]? = some b) :
    ∀ w ∈ o.runStores a data, w.spares (nearBase + p) ∨ w.puts (nearBase + p) b := by
  intro w hw
  obtain ⟨j, hj, rfl⟩ := List.mem_map.1 hw
  exact Obj.unitStore_spares_or_puts (h.unit (List.mem_range.1 hj)).1 hb

/-- Each byte of a run is stored. -/
theorem Dev.NearRun.runStores_puts (h : d.NearRun n o a data.length) {i : Nat} (hi : i < data.length) :
    ∃ w ∈ o.runStores a data, w.puts (nearBase + (a + i)) data[i] := by
  have hbase := (h 0 (by omega)).base_le
  have hfirst : (a - o.base) / o.unitSize ≤ (a + i - o.base) / o.unitSize := Nat.div_le_div_right (by omega)
  have hlast : (a + i - o.base) / o.unitSize ≤ (a - o.base + data.length - 1) / o.unitSize := Nat.div_le_div_right (by omega)
  have hsome : data[a + i - a]? = some data[i] := by rw [Nat.add_sub_cancel_left, List.getElem?_eq_getElem hi]
  refine ⟨_, List.mem_map.2 ⟨(a + i - o.base) / o.unitSize - (o.unitsIn a data.length).1, List.mem_range.2 ?_, rfl⟩, ?_⟩
  · simp only [Obj.unitsIn, if_neg (show ¬ data.length = 0 by omega)]
    omega
  · have hunit : (o.unitsIn a data.length).1 + ((a + i - o.base) / o.unitSize - (o.unitsIn a data.length).1) =
        (a + i - o.base) / o.unitSize := Nat.add_sub_cancel' hfirst
    rw [hunit]
    exact Obj.unitStore_puts (h i hi).near (by omega) (by omega) (by omega) hsome

/-! ## A host write, line by line -/

/-- Each part that a write is cut into is a stretch of its bytes, and not empty. -/
theorem lineParts_part {fuel : Nat} {x : Nat × List Byte} (hx : x ∈ lineParts fuel a data) :
    ∃ k m, x = (a + k, (data.drop k).take m) ∧ k < data.length ∧ 0 < m := by
  induction fuel generalizing a data with
  | zero => simp [lineParts] at hx
  | succ fuel ih =>
    cases data with
    | nil => simp [lineParts] at hx
    | cons b rest =>
      rcases List.mem_cons.1 hx with rfl | hx
      · exact ⟨0, 64 - a % 64, rfl, by simp, by omega⟩
      · obtain ⟨k, m, rfl, hk, hm⟩ := ih hx
        rw [List.length_drop] at hk
        exact ⟨64 - a % 64 + k, m, by rw [List.drop_drop, Nat.add_assoc], by omega, hm⟩

/-- The parts hold every byte of the write. -/
theorem lineParts_covers {fuel i : Nat} (hfuel : data.length ≤ fuel) (hi : i < data.length) :
    ∃ x ∈ lineParts fuel a data, x.1 ≤ a + i ∧ a + i < x.1 + x.2.length := by
  induction fuel generalizing a data i with
  | zero => omega
  | succ fuel ih =>
    cases data with
    | nil => simp at hi
    | cons b rest =>
      by_cases hin : i < 64 - a % 64
      · refine ⟨_, List.mem_cons_self, Nat.le_add_right _ _, ?_⟩
        rw [List.length_take]
        omega
      · have hlen : ((b :: rest).drop (64 - a % 64)).length = (b :: rest).length - (64 - a % 64) := List.length_drop
        obtain ⟨x, hx, hlo, hhi⟩ := ih (a := a + (64 - a % 64)) (data := (b :: rest).drop (64 - a % 64)) (i := i - (64 - a % 64))
          (by omega) (by omega)
        exact ⟨x, List.mem_cons_of_mem _ hx, by omega, by omega⟩

theorem Dev.NearRun.part (h : d.NearRun n o a data.length) {x : Nat × List Byte} (hx : x ∈ lineParts data.length a data) :
    d.NearRun n o x.1 x.2.length ∧ 0 < x.2.length ∧ ∀ p, x.1 ≤ p → p < x.1 + x.2.length → x.2[p - x.1]? = data[p - a]? := by
  obtain ⟨k, m, rfl, hk, hm⟩ := lineParts_part hx
  have hlen : ((data.drop k).take m).length = min m (data.length - k) := by rw [List.length_take, List.length_drop]
  refine ⟨fun i hi => ?_, by dsimp only; omega, fun p hlo hhi => ?_⟩
  · dsimp only at hi ⊢
    rw [Nat.add_assoc]
    exact h (k + i) (by omega)
  · dsimp only at hlo hhi ⊢
    have hidx : k + (p - (a + k)) = p - a := by omega
    rw [List.getElem?_take_of_lt (by omega), List.getElem?_drop, hidx]

/-- Every part lands, for it reaches the READY object. -/
theorem Dev.NearRun.hostParts (h : d.NearRun n o a data.length) (hready : o.st = .ready) :
    d.hostParts a data = lineParts data.length a data := by
  refine List.filter_eq_self.2 fun x hx => ?_
  obtain ⟨hrun, hpos, -⟩ := h.part hx
  have hobj : d.hostObj x.1 = some o := congrArg (Option.map Prod.snd) (hrun 0 hpos).named
  rw [hobj]
  exact beq_iff_eq.2 hready

theorem foldl_stores {α β γ : Type} {f : α → β → α × List γ} {x : α} {g : β → List γ} {l : List β}
    (h : ∀ b ∈ l, f x b = (x, g b)) (ws : List γ) :
    l.foldl (fun (p : α × List γ) b => let q := f p.1 b; (q.1, p.2 ++ q.2)) (x, ws) = (x, ws ++ l.flatMap g) := by
  induction l generalizing ws with
  | nil => simp
  | cons b l ih =>
    have hb := h b List.mem_cons_self
    simp only [List.foldl_cons, hb, ih fun c hc => h c (List.mem_cons_of_mem _ hc), List.flatMap_cons, List.append_assoc]

/-- What an access counts and wakes leaves the objects. -/
def Dev.accessed (d : Dev) (a len : Nat) : Dev := (d.countHost a).touchRange a len

theorem Dev.accessed_objects (d : Dev) (a len : Nat) : (d.accessed a len).objects = d.objects := by
  rw [Dev.accessed, Dev.touchRange_objects, Dev.countHost]
  (repeat' split) <;> rfl

/-- The write leaves the device accessed, and stores its parts. -/
theorem Dev.NearRun.hostWrite (h : d.NearRun n o a data.length) (hready : o.st = .ready) : d.hostWrite a data =
    (d.accessed a data.length, (lineParts data.length a data).flatMap (fun x => o.runStores x.1 x.2)) := by
  have hrun : (d.accessed a data.length).NearRun n o a data.length := fun i hi => (h i hi).congr (d.accessed_objects _ _)
  rw [Dev.hostWrite, h.hostParts hready]
  refine foldl_stores (f := fun (e : Dev) (x : Nat × List Byte) => e.storeAt x.1 x.2) (fun x hx => ?_) []
  obtain ⟨hpart, hpos, -⟩ := hrun.part hx
  exact hpart.storeAt hpos

theorem Dev.NearRun.hostWrite_get (h : d.NearRun n o a data.length) (hready : o.st = .ready) {m : Memory} (hm : Memory.wf m = true)
    {i : Nat} (hi : i < data.length) : (m.applyAll (d.hostWrite a data).2).get (nearBase + (a + i)) = data[i] := by
  have hdata : data[a + i - a]? = some data[i] := by rw [Nat.add_sub_cancel_left, List.getElem?_eq_getElem hi]
  rw [h.hostWrite hready]
  refine Memory.get_applyAll_puts hm (fun w hw => ?_) ?_
  · obtain ⟨x, hx, hw⟩ := List.mem_flatMap.1 hw
    obtain ⟨hpart, -, hbytes⟩ := h.part hx
    exact hpart.runStores_spares_or_puts (fun hlo hhi => (hbytes _ hlo hhi).trans hdata) w hw
  · obtain ⟨x, hx, hlo, hhi⟩ := lineParts_covers (a := a) (Nat.le_refl data.length) hi
    obtain ⟨hpart, -, hbytes⟩ := h.part hx
    have hj : a + i - x.1 < x.2.length := by omega
    have hbyte : x.2[a + i - x.1] = data[i] :=
      Option.some.inj ((List.getElem?_eq_getElem hj).symm.trans ((hbytes _ hlo hhi).trans hdata))
    obtain ⟨w, hw, hputs⟩ := hpart.runStores_puts hj
    rw [Nat.add_sub_cancel' hlo, hbyte] at hputs
    exact ⟨w, List.mem_flatMap.2 ⟨x, hx, hw⟩, hputs⟩

theorem exec_hdmwinWrite {s : State} {off : BitVec 42} (hup : s.dev.host.linkUp = true) (hoff : off.toNat < 2304 * 2 ^ 30)
    (data : List Byte) : exec (.hdmwinWrite off data false) s = answerMem s (s.dev.hostWrite off.toNat data) := by
  have hend : ¬ Config.deviceEnd ≤ off.toNat := Nat.not_le.2 hoff
  show execHdmwinWrite off data false s = _
  simp only [execHdmwinWrite, hup, Bool.not_true, Bool.false_eq_true, if_false, if_neg hend, Dev.findsIf]

/-- Settles O15: every store of the write that names a byte's cell puts the byte there. -/
theorem hostWriteReadsBack : Obligations.HostWriteReadsBack := by
  intro s off data n o hmem hup hoff hready hbytes
  have hrun : s.dev.NearRun n o off.toNat data.length := fun i hi =>
    let ⟨hnamed, hreached, hbase, hnear, hstill⟩ := hbytes i hi
    ⟨hnamed, hreached, hbase, hnear, hstill⟩
  have hobjects : (s.dev.hostWrite off.toNat data).1.objects = s.dev.objects := by
    rw [hrun.hostWrite hready]; exact s.dev.accessed_objects _ _
  refine ⟨_, exec_hdmwinWrite hup hoff data, fun i hi => ?_⟩
  rw [((hrun i hi).congr hobjects).hostByte hready]
  exact hrun.hostWrite_get hready hmem hi

end Sys2Proof.Machine

/-! Doorbell lines and MSI-X vectors (R46 to R48, R61, R64). -/
namespace Sys2Proof.Machine

/-- Bytes that a list lacks read 0, and add nothing to its value. -/
theorem leNat_slice (l : List Byte) (o n : Nat) : leNat (slice l o n) = leNat ((l.drop o).take n) := by
  induction n generalizing o with
  | zero => rfl
  | succ n ih =>
    have hslice : slice l o (n + 1) = nth l o 0 :: slice l (o + 1) n := by
      simp [slice, List.range_succ_eq_map, Nat.add_assoc, Nat.add_comm 1]
    rw [hslice, leNat, ih]
    by_cases ho : o < l.length
    · rw [List.drop_eq_getElem_cons ho, List.take_succ_cons, leNat, nth, List.getElem?_eq_getElem ho, Option.getD_some]
    · have hnone : l[o]? = none := List.getElem?_eq_none (by omega)
      rw [List.drop_eq_nil_of_le (by omega), List.drop_eq_nil_of_le (by omega), nth, hnone]
      simp [leNat]

theorem lineCounts_eq (l : List Byte) :
    lineCounts l = (BitVec.ofNat 32 (leNat (l.take 4)), BitVec.ofNat 32 (leNat ((l.drop 4).take 4))) := by
  simp only [lineCounts, fieldAt, leNat_slice, List.drop_zero]

theorem ringBlock_val (r : Fin 1024) : ringBlock r.val = .ring r := congrArg BlockId.ring (Fin.ext (Nat.mod_eq_of_lt r.isLt))

theorem Dev.ringListens_of_running {d : Dev} {r : Fin 1024} (h : d.isRunning (.ring r) = true) : d.ringListens r.val = true := by
  rw [Dev.ringListens, ringBlock_val, show ((d.block (.ring r)).st == .running) = true from h, Bool.true_or]

theorem Dev.hostOpen_of_running {d : Dev} (hup : d.host.linkUp = true) (hrun : d.isRunning .hostif = true) : d.hostOpen = true := by
  rw [Dev.hostOpen, hup, hrun]; rfl

/-! ## A read of a doorbell line -/

/-- The read is marked in its ring, and no other ring changes. -/
theorem Dev.ring_readLine (d : Dev) (r k : Nat) : (d.readLine r).ring k =
    if k = r then { d.ring r with lineRead := true, lineHeld := false, lineTick := d.now } else d.ring k :=
  d.ring_modRing r k fun g => { g with lineRead := true, lineHeld := false, lineTick := d.now }

/-- A line's read is issued, and counted. -/
def LineIssued (s : State) (r : Nat) (t : State) : Prop :=
  t = { s with dev := { s.dev with rings := t.dev.rings, host := { s.dev.host with cntDbRead := s.dev.host.cntDbRead + 1 },
                                   out := .doorbellRead r :: s.dev.out } } ∧
  t.dev.ring r = { s.dev.ring r with lineRead := true, lineHeld := false, lineTick := s.dev.now } ∧
  ∀ k, k ≠ r → t.dev.ring k = s.dev.ring k

theorem lineIssued_readLine (s : State) (r : Nat) : LineIssued s r { s with dev := s.dev.readLine r } :=
  ⟨rfl, (s.dev.ring_readLine r r).trans (if_pos rfl), fun k hk => (s.dev.ring_readLine r k).trans (if_neg hk)⟩

/-! ## A line that returns -/

section Lines
variable {s : State} {r : Fin 1024}

/-- The line is no longer out, and in CACHE mode it is held again. -/
def Dev.lineBack (d : Dev) (r : Nat) : Dev := d.setRing r { d.ring r with lineRead := false, lineHeld := d.host.dbMode == 2 }

theorem Dev.ring_lineBack (d : Dev) (r k : Nat) : (d.lineBack r).ring k =
    if k = r then { d.ring r with lineRead := false, lineHeld := d.host.dbMode == 2 } else d.ring k := d.ring_setRing r k _

theorem Dev.postRecord_of_none {d : Dev} {r : Nat} (h : (d.ring r).finished = []) : d.postRecord r = d := by
  simp only [Dev.postRecord, h]

/-- A ring with no finished record posts nothing. -/
theorem Dev.postAll_of_none {d : Dev} {r : Nat} (h : (d.ring r).finished = []) : d.postAll r = d := by
  rw [Dev.postAll]
  refine List.foldl_fixed' (fun _ => ?_) _
  rw [Dev.postRecord_of_none h, ite_self]

theorem Dev.stopRing_block_of_running {d : Dev} (h : d.isRunning (.ring r) = true) (why : BitVec 16) :
    (d.stopRing r.val why).block (.ring r) = { d.block (.ring r) with st := .quiescing, autoStop := true, reason := why } := by
  have hstop : (r.val < 1024 && d.isRunning (ringBlock r.val)) = true := by rw [ringBlock_val, h, decide_eq_true r.isLt]; rfl
  rw [Dev.stopRing, if_pos hstop, Dev.block_congr (Dev.cancelUnstarted_blocks _ _), ringBlock_val, Dev.selfStop_block]

theorem exec_doorbellReadReturn_none (hopen : s.dev.hostOpen = true) (hrun : s.dev.isRunning (.ring r) = true)
    (hread : (s.dev.ring r.val).lineRead = true) :
    exec (.doorbellReadReturn r none) s = answer s ((s.dev.lineBack r.val).stopRing r.val 0x0214) := by
  show execDoorbellReadReturn r none s = _
  simp only [execDoorbellReadReturn, hread, hopen, Dev.ringListens_of_running hrun, Bool.and_true, if_true, Dev.lineBack]

theorem Ring.tailOk_iff (g : Ring) (tail : W32) : g.tailOk tail = true ↔
    (tail - g.sqHead).toNat ≤ 2 ^ g.sqLog2.toNat ∧ (tail - g.sqTailLast).toNat ≤ 2 ^ g.sqLog2.toNat := by
  simp only [Ring.tailOk, Bool.and_eq_true, decide_eq_true_eq]

theorem Ring.headOk_iff (g : Ring) (head : W32) : g.headOk head = true ↔
    (g.cqTail - head).toNat ≤ 2 ^ g.cqLog2.toNat ∧ (head - g.cqHeadLast).toNat ≤ (g.cqTail - g.cqHeadLast).toNat := by
  simp only [Ring.headOk, Bool.and_eq_true, decide_eq_true_eq]

/-- The two checks of R64, in their order; then both counts are taken. -/
theorem exec_doorbellReadReturn_some (hopen : s.dev.hostOpen = true) (hrun : s.dev.isRunning (.ring r) = true)
    (hread : (s.dev.ring r.val).lineRead = true) {l : List Byte} {tail head : W32} (hcounts : lineCounts l = (tail, head)) :
    exec (.doorbellReadReturn r (some l)) s = answer s (
      if (s.dev.ring r.val).tailOk tail = false then (s.dev.lineBack r.val).stopRing r.val 0x0210
      else if (s.dev.ring r.val).headOk head = false then (s.dev.lineBack r.val).stopRing r.val 0x0211
      else ((s.dev.lineBack r.val).setRing r.val { (s.dev.lineBack r.val).ring r.val with
        sqTailLast := tail, cqHeadLast := head }).postAll r.val) := by
  have hback : (s.dev.lineBack r.val).isRunning (.ring r) = true := hrun
  have htail : ((s.dev.lineBack r.val).ring r.val).tailOk tail = (s.dev.ring r.val).tailOk tail := by
    rw [Dev.ring_lineBack, if_pos rfl]; rfl
  have hhead : ((s.dev.lineBack r.val).ring r.val).headOk head = (s.dev.ring r.val).headOk head := by
    rw [Dev.ring_lineBack, if_pos rfl]; rfl
  show execDoorbellReadReturn r (some l) s = _
  unfold Dev.lineBack at hback htail hhead ⊢
  simp only [execDoorbellReadReturn, hread, hopen, Dev.ringListens_of_running hrun, Bool.and_true, if_true, hcounts, hback,
    htail, hhead, Bool.not_eq_true']
  (repeat' split) <;> rfl

/-- A read that failed, or a count out of bounds, stops the ring. -/
theorem ends_lineStops {line : Option (List Byte)} {why : BitVec 16} (hrun : s.dev.isRunning (.ring r) = true)
    (hexec : exec (.doorbellReadReturn r line) s = answer s ((s.dev.lineBack r.val).stopRing r.val why)) :
    Ends (.doorbellReadReturn r line) s (fun t =>
      t.dev.block (.ring r) = { s.dev.block (.ring r) with st := .quiescing, autoStop := true, reason := why } ∧
      t.mem = s.mem ∧ t.dev.claims = s.dev.claims ∧ t.dev.objects = s.dev.objects) :=
  ⟨_, hexec, Dev.stopRing_block_of_running (d := s.dev.lineBack r.val) hrun why, rfl, Dev.stopRing_claims _ _ _,
    Dev.stopRing_objects _ _ _⟩

/-- Both counts in bounds are taken, and with nothing finished no more is done. -/
theorem ends_lineTaken (hopen : s.dev.hostOpen = true) (hrun : s.dev.isRunning (.ring r) = true)
    (hread : (s.dev.ring r.val).lineRead = true) (hnone : (s.dev.ring r.val).finished = []) {l : List Byte} {tail head : W32}
    (hcounts : lineCounts l = (tail, head)) (htail : (s.dev.ring r.val).tailOk tail = true)
    (hhead : (s.dev.ring r.val).headOk head = true) : Ends (.doorbellReadReturn r (some l)) s (fun t =>
      t = { s with dev := { s.dev with rings := t.dev.rings } } ∧
      t.dev.ring r.val = { s.dev.ring r.val with
        lineRead := false, lineHeld := s.dev.host.dbMode == 2, sqTailLast := tail, cqHeadLast := head } ∧
      ∀ k, k ≠ r.val → t.dev.ring k = s.dev.ring k) := by
  have hexec := exec_doorbellReadReturn_some hopen hrun hread hcounts
  have hback := (s.dev.ring_lineBack r.val r.val).trans (if_pos rfl)
  have htaken := (s.dev.lineBack r.val).ring_setRing r.val
  rw [htail, hhead, if_neg Bool.true_eq_false.mp, if_neg Bool.true_eq_false.mp, hback, Dev.postAll_of_none] at hexec
  · refine ⟨_, hexec, rfl, (htaken r.val _).trans (if_pos rfl), fun k hk => ?_⟩
    exact (htaken k _).trans ((if_neg hk).trans ((s.dev.ring_lineBack r.val k).trans (if_neg hk)))
  · rw [htaken, if_pos rfl]; exact hnone

end Lines

/-! ## MSI-X -/

/-- A vector is unmasked, and its message still waits. -/
def Dev.unmasked (d : Dev) (v : Nat) : Dev :=
  { d with host := { d.host with msixMask := d.host.msixMask &&& ~~~ BitVec.ofNat 2048 (2 ^ v) } }

theorem Dev.unmasked_mask (d : Dev) {v : Nat} (h : v < 2048) : (d.unmasked v).host.msixMask.getLsbD v = false := by
  show (d.host.msixMask &&& ~~~ BitVec.ofNat 2048 (2 ^ v)).getLsbD v = false
  rw [BitVec.getLsbD_and, BitVec.getLsbD_not, getLsbD_ofNat_two_pow_self h, Bool.not_true, Bool.and_false, Bool.and_false]

/-- The pending vectors that are not masked go out. -/
theorem Dev.flushMsix_eq (d : Dev) : d.flushMsix = { d with
    host := { d.host with msixPending := d.flushMsix.host.msixPending }, out := d.flushMsix.out } := by
  unfold Dev.flushMsix; split <;> rfl

theorem Dev.flushMsix_sends {d : Dev} {v : Nat} (hopen : d.msixOpen = true) (hv : v < 2048) (hpend : d.host.msixPending.getLsbD v = true)
    (hmask : d.host.msixMask.getLsbD v = false) :
    d.flushMsix.host.msixPending.getLsbD v = false ∧ .msix v ∈ d.flushMsix.out := by
  have hready : (d.host.msixPending &&& ~~~ d.host.msixMask).getLsbD v = true := by
    rw [BitVec.getLsbD_and, BitVec.getLsbD_not, hpend, hmask, decide_eq_true hv]; rfl
  have hsome : ¬ d.host.msixPending &&& ~~~ d.host.msixMask = 0 := fun h => by simp [h] at hready
  rw [Dev.flushMsix, if_pos hopen]
  refine ⟨?_, List.mem_append_left _ (List.mem_reverse.2 (List.mem_map_of_mem ?_))⟩
  · show (d.host.msixPending &&& d.host.msixMask).getLsbD v = false
    rw [BitVec.getLsbD_and, hmask, Bool.and_false]
  · rw [if_neg hsome]
    exact List.mem_filter.2 ⟨List.mem_range.2 hv, hready⟩

theorem ends_msixUnmask {s : State} (hup : s.dev.host.linkUp = true) (hrun : s.dev.isRunning .hostif = true) (v : Fin 2048)
    (hon : s.dev.host.msixOn = true) (hpend : s.dev.host.msixPending.getLsbD v.val = true) : Ends (.msixUnmask (some v)) s (fun t =>
      t = { s with dev := { s.dev with host := { s.dev.host with msixPending := t.dev.host.msixPending, msixMask := t.dev.host.msixMask },
                                       out := t.dev.out } } ∧
      t.dev.host.msixMask.getLsbD v.val = false ∧ t.dev.host.msixPending.getLsbD v.val = false ∧ Output.msix v.val ∈ t.dev.out) := by
  have hopen : (s.dev.unmasked v.val).msixOpen = true := by
    show (s.dev.host.linkUp && s.dev.host.msixOn && s.dev.isRunning .hostif) = true
    rw [hup, hon, hrun]; rfl
  have hmask := s.dev.unmasked_mask v.isLt
  obtain ⟨hpending, hout⟩ := Dev.flushMsix_sends hopen v.isLt hpend hmask
  have hflush := (s.dev.unmasked v.val).flushMsix_eq
  have hexec : exec (.msixUnmask (some v)) s = answer s (s.dev.unmasked v.val).flushMsix := if_pos hup
  generalize (s.dev.unmasked v.val).flushMsix = e at hpending hout hflush hexec
  have hkept : e.host.msixMask = (s.dev.unmasked v.val).host.msixMask := by rw [hflush]
  refine ⟨_, hexec, State.ext ?_ rfl rfl, hkept ▸ hmask, hpending, hout⟩
  dsimp only
  rw [hkept]
  exact hflush

/-- Settles O16, a lemma for each event. -/
theorem doorbellsAndVectorsMove : Obligations.DoorbellsAndVectorsMove := by
  intro s r hup hrun g issued tailFits headFits
  have hopen := Dev.hostOpen_of_running hup hrun
  have htail : ∀ tail, tailFits tail ↔ g.tailOk tail = true := fun tail => (g.tailOk_iff tail).symm
  have hhead : ∀ head, headFits head ↔ g.headOk head = true := fun head => (g.headOk_iff head).symm
  refine ⟨fun hring hmode hheld => ⟨_, ?_, lineIssued_readLine s r.val⟩, fun hring hmode => ⟨_, ?_, lineIssued_readLine s r.val⟩,
    fun l _ hring hread hnone ht hh => ?_, fun line hring hread w hw => ?_, ends_msixUnmask hup hrun⟩
  · have hgo : (s.dev.hostOpen && s.dev.host.dbMode == 2 && s.dev.ringListens r.val && (s.dev.ring r.val).lineHeld) = true := by
      rw [hopen, hmode, Dev.ringListens_of_running hring, hheld]; rfl
    exact congrArg (answer s) (if_pos hgo)
  · have hgo : (s.dev.hostOpen && s.dev.host.dbMode == 1 && s.dev.ringListens r.val) = true := by
      rw [hopen, hmode, Dev.ringListens_of_running hring]; rfl
    exact congrArg (answer s) (if_pos hgo)
  · exact ends_lineTaken hopen hring hread hnone (lineCounts_eq l) ((htail _).1 ht) ((hhead _).1 hh)
  · cases line with
    | none => exact Option.some.inj hw ▸ ends_lineStops hring (exec_doorbellReadReturn_none hopen hring hread)
    | some l =>
      have hexec := exec_doorbellReadReturn_some hopen hring hread (lineCounts_eq l)
      simp only [htail, hhead, Bool.not_eq_true] at hw
      by_cases ht : g.tailOk (BitVec.ofNat 32 (leNat (l.take 4))) = false
      · rw [if_pos ht] at hw hexec
        exact Option.some.inj hw ▸ ends_lineStops hring hexec
      · rw [if_neg ht] at hw hexec
        by_cases hh : g.headOk (BitVec.ofNat 32 (leNat ((l.drop 4).take 4))) = false
        · rw [if_pos hh] at hw hexec
          exact Option.some.inj hw ▸ ends_lineStops hring hexec
        · rw [if_neg hh] at hw
          cases hw

end Sys2Proof.Machine

/-! ENABLE of every block (R54, R55, R57, Tables 3.6 and 3.7): its writes, the end of its check, and OFF. -/
namespace Sys2Proof.Machine

/-! ## Block IDs and their keys -/

theorem claimBlock_val (c : Fin 32) : claimBlock c.val = .claim c := congrArg BlockId.claim (Fin.ext (Nat.mod_eq_of_lt c.isLt))

/-- The block whose status is kept under a key below 1,000: a die, or one of its kind alone. -/
def soleBlockAt : Nat → BlockId
  | 0x01 => .hostif | 0x18 => .hoist | 0x20 => .xbar | 0x22 => .routing | 0x23 => .coll | 0x24 => .time | 0x25 => .event
  | 0x26 => .health | 0x27 => .security | 0x28 => .shuttle | k => .die (Fin.ofNat 4 (k - 0x10))

/-- The block whose status is kept under a key. -/
def blockAt (k : Nat) : BlockId :=
  if 4000 ≤ k then .port (Fin.ofNat 48 (k - 4000))
  else if 3000 ≤ k then claimBlock (k - 3000)
  else if 1000 ≤ k then ringBlock (k - 1000)
  else soleBlockAt k

theorem blockAt_blockKey (b : BlockId) : blockAt (blockKey b) = b := by
  cases b with
  | ring r =>
    have h1 : ¬ 4000 ≤ 1000 + r.val := by omega
    have h2 : ¬ 3000 ≤ 1000 + r.val := by omega
    rw [blockKey, blockAt, if_neg h1, if_neg h2, if_pos (Nat.le_add_right _ _), Nat.add_sub_cancel_left, ringBlock_val]
  | claim c =>
    have h1 : ¬ 4000 ≤ 3000 + c.val := by omega
    rw [blockKey, blockAt, if_neg h1, if_pos (Nat.le_add_right _ _), Nat.add_sub_cancel_left, claimBlock_val]
  | port p =>
    rw [blockKey, blockAt, if_pos (Nat.le_add_right _ _), Nat.add_sub_cancel_left]
    exact congrArg BlockId.port (Fin.ext (Nat.mod_eq_of_lt p.isLt))
  | die n => revert n; decide
  | _ => rfl

theorem blockKey_ne {b c : BlockId} (h : c ≠ b) : blockKey c ≠ blockKey b :=
  fun he => h (Function.LeftInverse.injective blockAt_blockKey he)

/-! ## A move of one block -/

/-- Of the whole state only the status of `b` has moved, with what that records and raises, and a ring's place among the checks. -/
def MovesOnly (s : State) (b : BlockId) (t : State) : Prop :=
  t = { s with dev := { s.dev with
    blocks := t.dev.blocks, health := t.dev.health, host := t.dev.host, out := t.dev.out, rings := t.dev.rings } } ∧
  (∀ r, t.dev.ring r = { s.dev.ring r with enSeq := (t.dev.ring r).enSeq }) ∧ ∀ b', b' ≠ b → t.dev.block b' = s.dev.block b'

theorem Dev.moveBlock_eq (d : Dev) (b : BlockId) (x : Block) : d.moveBlock b x = { d with
    blocks := (d.moveBlock b x).blocks, health := (d.moveBlock b x).health, host := (d.moveBlock b x).host
    out := (d.moveBlock b x).out } := by
  apply Dev.ext <;> simp

theorem movesOnly_moveBlock {s : State} {d : Dev} (hd : d = { s.dev with rings := d.rings })
    (hr : ∀ r, d.ring r = { s.dev.ring r with enSeq := (d.ring r).enSeq }) (b : BlockId) (x : Block) :
    MovesOnly s b { s with dev := d.moveBlock b x } := by
  have hmove := d.moveBlock_eq b x
  have hblock : ∀ b', b' ≠ b → (d.moveBlock b x).block b' = d.block b' := fun b' hb => d.block_moveBlock_other x (blockKey_ne hb)
  have hrings := d.moveBlock_rings b x
  generalize d.moveBlock b x = e at hmove hblock hrings ⊢
  have hblocks : d.blocks = s.dev.blocks := by rw [hd]
  refine ⟨State.ext ?_ rfl rfl, fun r => ?_, fun b' hb => (hblock b' hb).trans (Dev.block_congr hblocks b')⟩
  · dsimp only
    rw [hrings]
    exact hmove.trans (congrArg (fun y : Dev => { y with blocks := e.blocks, health := e.health, host := e.host, out := e.out }) hd)
  · dsimp only
    rw [Dev.ring_congr hrings]
    exact hr r

/-! ## ENABLE_SET -/

section Set
variable (d : Dev) (b : BlockId)

theorem Dev.queueCheck_eq : d.queueCheck b = { d with rings := (d.queueCheck b).rings } := by cases b <;> rfl

theorem Dev.ring_queueCheck (k : Nat) : (d.queueCheck b).ring k = { d.ring k with enSeq := ((d.queueCheck b).ring k).enSeq } := by
  cases b with
  | ring r =>
    rw [Dev.queueCheck, Dev.ring_modRing]
    split
    next h => rw [h]
    next => rfl
  | _ => rfl

variable {d b}

theorem Dev.enable_of_off (h : (d.block b).st = .off ∨ (d.block b).st = .refused) :
    d.enable b = (d.queueCheck b).moveBlock b { d.block b with st := .checking, reason := 0 } := by
  rcases h with h | h <;> simp only [Dev.enable, h]

theorem Dev.enable_of_checking (h : (d.block b).st = .checking) : d.enable b = d := by simp only [Dev.enable, h]

theorem Dev.enable_of_running (h : (d.block b).st = .running) :
    d.enable b = d.moveBlock b { d.block b with reason := reasonOf b 0xF1, reject := true } := by simp only [Dev.enable, h]

theorem Dev.enable_of_quiescing (h : (d.block b).st = .quiescing) :
    d.enable b = d.moveBlock b { d.block b with reason := reasonOf b 0xF0, reject := true } := by simp only [Dev.enable, h]

end Set

/-! ## ENABLE_CLEAR -/

section Clear
variable {d : Dev} {b : BlockId}

theorem Dev.disable_of_idle (h : (d.block b).st = .off ∨ (d.block b).st = .quiescing) (m : Memory) : d.disable m b = (d, []) := by
  rcases h with h | h <;> simp only [Dev.disable, h]

/-- A claim that was not RUNNING has its dies compacted besides (R244), which moves no block. -/
theorem Dev.disable_of_checking (h : (d.block b).st = .checking ∨ (d.block b).st = .refused) (m : Memory) :
    (d.disable m b).1.blocks = (d.moveBlock b { d.block b with st := .off }).blocks ∧ (d.disable m b).2 = [] := by
  cases b with
  | claim c =>
    have hdisable : d.disable m (.claim c) =
        ((List.range 4).foldl (fun d n => d.compactFree n) (d.moveBlock (.claim c) { d.block (.claim c) with st := .off }), []) := by
      rcases h with h | h <;> simp only [Dev.disable, h]
    rw [hdisable]
    exact ⟨foldl_keep Dev.blocks _ (fun _ _ => Dev.compactFree_blocks _ _) _ _, rfl⟩
  | _ => rcases h with h | h <;> simp only [Dev.disable, h, and_self]

theorem Dev.disable_of_running (h : (d.block b).st = .running) (hb : ∀ c, b ≠ .claim c) (m : Memory) :
    d.disable m b = (d.moveBlock b { d.block b with st := .quiescing }).beginStop m b := by
  cases b with
  | claim c => exact absurd rfl (hb c)
  | _ => simp only [Dev.disable, h]

theorem Dev.disable_claim {c : Fin 32} (h : (d.block (.claim c)).st = .running) (m : Memory) : d.disable m (.claim c) =
    if (d.claim c.val).pstate == .preempting then (d.modClaim c.val (fun k => { k with leaving := true }), [])
    else d.leaveClaim m c.val := by
  simp only [Dev.disable, h]

@[simp] theorem Dev.tell_blocks (d : Dev) (k : CtrlMsg) (l f : List Nat) : (d.tell k l f).blocks = d.blocks := by
  unfold Dev.tell; exact foldl_keep Dev.blocks _ (fun _ _ => Dev.emit_blocks _ _) _ _

theorem Dev.outcome_blocks (d : Dev) (c k : Nat) (w : BitVec 20) : (d.outcome c k w).blocks = d.blocks := Dev.raise_blocks _ _

theorem Dev.abandonStart_blocks (d : Dev) (j : Job) (c k : Nat) (w : BitVec 20) : (d.abandonStart j c k w).blocks = d.blocks := by
  unfold Dev.abandonStart Dev.unstart
  dsimp only
  rw [Dev.outcome_blocks]
  (repeat' split) <;> simp [Dev.dropJob]

/-- The time block's stop ends barriers and starts, and moves no block. -/
theorem Dev.stopTime_blocks (d : Dev) : d.stopTime.1.blocks = d.blocks := by
  unfold Dev.stopTime
  dsimp only
  rw [Dev.setAlign_blocks]
  refine (foldl_keep Dev.blocks _ (fun _ j => ?_) _ _).trans (congrArg Standing.blocks (d.abortSlots_standing _))
  split
  · exact Dev.abandonStart_blocks _ j 2 6 0
  · rfl

theorem Dev.beginStop_blocks (d : Dev) (m : Memory) (b : BlockId) : (d.beginStop m b).1.blocks = d.blocks := by
  cases b with
  | ring r => exact d.cancelUnstarted_blocks r.val
  | time => exact d.stopTime_blocks
  | coll => exact congrArg Standing.blocks (d.stopEngine_standing m .coll)
  | shuttle => exact congrArg Standing.blocks (d.stopEngine_standing m .shuttle)
  | _ => rfl

/-- A claim that leaves RUNNING is QUIESCING: what it has in hand ends without a move of a claim's block. -/
theorem Dev.leaveClaim_block (d : Dev) (m : Memory) (c : Nat) :
    (d.leaveClaim m c).1.block (claimBlock c) = { d.block (claimBlock c) with st := .quiescing } := by
  unfold Dev.leaveClaim
  dsimp only
  rw [Dev.block_congr (congrArg Standing.blocks ((d.reap_standing _ _).trans (Dev.abortClaim_standing _ c))),
    Dev.claimLeft_block_claim, Dev.block_congr (Dev.modClaim_blocks _ _ _), Dev.block_moveBlock_same]

theorem Dev.disable_running_st (h : (d.block b).st = .running)
    (hp : ∀ c, b = .claim c → (d.claim c.val).pstate ≠ .preempting) (m : Memory) :
    ((d.disable m b).1.block b).st = .quiescing := by
  by_cases hb : ∃ c, b = .claim c
  · obtain ⟨c, rfl⟩ := hb
    have hleave := d.leaveClaim_block m c.val
    rw [claimBlock_val] at hleave
    rw [Dev.disable_claim h, if_neg fun he => hp c rfl (eq_of_beq he), hleave]
  · rw [Dev.disable_of_running h fun c hc => hb ⟨c, hc⟩, Dev.block_congr (Dev.beginStop_blocks _ m b), Dev.block_moveBlock_same]

end Clear

/-! ## A check that passes -/

section Running
variable (d : Dev)

/-- A ring's stop moves no block of another kind. -/
theorem Dev.stopRing_block_hostif (r : Nat) (why : BitVec 16) : (d.stopRing r why).block .hostif = d.block .hostif := by
  have hne : blockKey .hostif ≠ blockKey (ringBlock r) := blockKey_ne (by simp [ringBlock])
  unfold Dev.stopRing
  split_ifs
  · rw [Dev.block_congr (Dev.cancelUnstarted_blocks _ _), Dev.selfStop_block_other _ _ hne]
  · exact Dev.block_congr (Dev.cancelUnstarted_blocks _ _) _
  · rfl

@[simp] theorem Dev.block_setRing (r : Nat) (x : Ring) (b : BlockId) : (d.setRing r x).block b = d.block b := rfl
@[simp] theorem Dev.block_emit (o : Output) (b : BlockId) : (d.emit o).block b = d.block b := rfl
@[simp] theorem Dev.block_raiseRing (r : Nat) (b : BlockId) : (d.raiseRing r).block b = d.block b :=
  Dev.block_congr (d.raiseRing_blocks r) b

theorem Dev.postRecord_block_hostif (r : Nat) : (d.postRecord r).block .hostif = d.block .hostif := by
  unfold Dev.postRecord
  dsimp only
  (repeat' split) <;> simp [Dev.stopRing_block_hostif]

theorem Dev.postEverything_block_hostif : d.postEverything.block .hostif = d.block .hostif :=
  foldl_keep (fun d : Dev => d.block .hostif) _ (fun _ r => foldl_keep (fun d : Dev => d.block .hostif) _ (fun e _ => by
    split
    · exact e.postRecord_block_hostif r
    · rfl) _ _) _ _

theorem Dev.alignStart_blocks : d.alignStart.blocks = d.blocks := by
  unfold Dev.alignStart
  dsimp only
  (repeat' split) <;> rw [Dev.setAlign_blocks]

theorem Dev.readLine_blocks (r : Nat) : (d.readLine r).blocks = d.blocks := rfl

/-- What a block does as it reaches RUNNING leaves its own status. -/
theorem Dev.reachRunning_block (b : BlockId) : (d.reachRunning b).block b = d.block b := by
  cases b with
  | hostif =>
    refine (Dev.block_congr (Dev.flushMsix_blocks _) _).trans ((Dev.postEverything_block_hostif _).trans ?_)
    exact Dev.block_congr (foldl_keep Dev.blocks _ Dev.readLine_blocks _ _) _
  | claim c => exact Dev.block_congr (Dev.rebudget_blocks _) _
  | time => exact Dev.block_congr d.alignStart_blocks _
  | _ => rfl

end Running

/-! ## OFF -/

section Off
variable (d : Dev)

/-- A claim that reaches OFF loses what it held, and of the blocks only its own moves. -/
theorem Dev.claimOff_block (c : Nat) : (d.claimOff c).block (claimBlock c) = { d.block (claimBlock c) with st := .off } := by
  unfold Dev.claimOff
  dsimp only
  rw [Dev.block_congr (foldl_keep Dev.blocks _ (fun _ _ => Dev.compactFree_blocks _ _) _ _), Dev.block_moveBlock_same]
  refine congrArg (fun x : Block => { x with st := .off }) (Dev.block_congr ?_ _)
  split <;> simp

theorem Dev.blockOff_claim (c : Fin 32) : d.blockOff (.claim c) =
    if (d.block (.claim c)).st == .quiescing then d.claimOff c.val else d := rfl

theorem Dev.blockOff_of_not_claim {b : BlockId} (h : ∀ c, b ≠ .claim c) : d.blockOff b =
    if (d.block b).st == .quiescing then d.moveBlock b { d.block b with st := .off } else d := by
  cases b with
  | claim c => exact absurd rfl (h c)
  | _ => rfl

theorem Dev.blockOff_block {b : BlockId} (h : (d.block b).st = .quiescing) : (d.blockOff b).block b = { d.block b with st := .off } := by
  have hq : ((d.block b).st == .quiescing) = true := beq_iff_eq.2 h
  by_cases hb : ∃ c, b = .claim c
  · obtain ⟨c, rfl⟩ := hb
    have hoff := d.claimOff_block c.val
    rw [claimBlock_val] at hoff
    rw [Dev.blockOff_claim, if_pos hq, hoff]
  · rw [Dev.blockOff_of_not_claim d fun c hc => hb ⟨c, hc⟩, if_pos hq, Dev.block_moveBlock_same]

theorem Dev.linkDown_blocks (n : Nat) : (d.linkDown n).blocks = d.blocks := by
  unfold Dev.linkDown
  dsimp only
  refine (foldl_keep Dev.blocks _ (fun e x => congrArg Standing.blocks (e.follow_standing _ _)) _ _).trans ?_
  refine (foldl_keep Dev.blocks _ (fun e x => congrArg Standing.blocks (e.discard_standing _ _ _)) _ _).trans ?_
  refine (foldl_keep Dev.blocks _ (fun e x => congrArg Standing.blocks (e.discard_standing _ _ _)) _ _).trans ?_
  split
  · exact Dev.upstreamLost_blocks _
  · rfl

/-- A port takes its link down, and the host interface its doorbell mode, before the block moves. -/
theorem exec_blockReachesOff {s : State} {b : BlockId} (h : (s.dev.block b).st = .quiescing) (hrest : s.dev.atRest b = true) :
    ∃ e : Dev, e.blocks = s.dev.blocks ∧ exec (.blockReachesOff b) s = answer s (e.blockOff b) := by
  have hgo : ((s.dev.block b).st == .quiescing && s.dev.atRest b) = true := by rw [h, hrest]; rfl
  cases b with
  | hostif => exact ⟨{ s.dev with host := { s.dev.host with dbMode := 0 } }, rfl, if_pos hgo⟩
  | port p =>
    refine ⟨_, ?_, if_pos hgo⟩
    rw [Dev.modPort_blocks]
    split
    · exact s.dev.linkDown_blocks p.val
    · rfl
  | _ => exact ⟨s.dev, rfl, if_pos hgo⟩

end Off

/-! ## The statement's clauses -/

section Clauses
variable {s : State} {b : BlockId}

theorem exec_enableSet (hmgmt : s.dev.health.stopped = false) : exec (.enableSet b) s = answer s (s.dev.enable b) :=
  viaCfg_of_serving hmgmt _

theorem exec_enableClear (hmgmt : s.dev.health.stopped = false) : exec (.enableClear b) s = answerMem s (s.dev.disable s.mem b) :=
  viaCfg_of_serving hmgmt _

theorem ends_enableSet_off (hmgmt : s.dev.health.stopped = false) (h : (s.dev.block b).st = .off ∨ (s.dev.block b).st = .refused) :
    Ends (.enableSet b) s (fun t => MovesOnly s b t ∧ t.dev.block b = { s.dev.block b with st := .checking, reason := 0 }) := by
  have hexec := exec_enableSet (b := b) hmgmt
  rw [Dev.enable_of_off h] at hexec
  exact ⟨_, hexec, movesOnly_moveBlock (s.dev.queueCheck_eq b) (s.dev.ring_queueCheck b) b _, Dev.block_moveBlock_same _ _ _⟩

/-- A move of `b` alone is all that a command does. -/
theorem ends_moveBlock {c : Instr} {x : Block} (hexec : exec c s = answer s (s.dev.moveBlock b x)) :
    Ends c s (fun t => MovesOnly s b t ∧ t.dev.block b = x) :=
  ⟨_, hexec, movesOnly_moveBlock rfl (fun _ => rfl) b x, Dev.block_moveBlock_same _ _ _⟩

theorem ends_enableClear_idle (hmgmt : s.dev.health.stopped = false) (h : (s.dev.block b).st = .off ∨ (s.dev.block b).st = .quiescing) :
    Ends (.enableClear b) s (fun t => t = s) :=
  ⟨_, (exec_enableClear hmgmt).trans (congrArg (answerMem s) (Dev.disable_of_idle h s.mem)), rfl⟩

theorem ends_enableClear_checking (hmgmt : s.dev.health.stopped = false)
    (h : (s.dev.block b).st = .checking ∨ (s.dev.block b).st = .refused) :
    Ends (.enableClear b) s (fun t => t.dev.block b = { s.dev.block b with st := .off } ∧ t.mem = s.mem) := by
  obtain ⟨hblocks, hnone⟩ := Dev.disable_of_checking h s.mem
  refine ⟨_, exec_enableClear hmgmt, ?_, congrArg s.mem.applyAll hnone⟩
  exact (Dev.block_congr hblocks b).trans (Dev.block_moveBlock_same _ _ _)

theorem ends_enableClear_preempting (hmgmt : s.dev.health.stopped = false) {c : Fin 32} (h : (s.dev.block (.claim c)).st = .running)
    (hp : (s.dev.claim c.val).pstate = .preempting) : Ends (.enableClear (.claim c)) s (fun t =>
      t = { s with dev := s.dev.modClaim c.val (fun k => { k with leaving := true }) }) := by
  have hexec := exec_enableClear (b := .claim c) hmgmt
  rw [Dev.disable_claim h, if_pos (beq_iff_eq.2 hp)] at hexec
  exact ⟨_, hexec, rfl⟩

theorem exec_enableCheckDone_refused (h : (s.dev.block b).st = .checking) {why : Nat} (hcheck : s.dev.check b = some why) :
    exec (.enableCheckDone b) s = answer s (s.dev.moveBlock b { s.dev.block b with st := .refused, reason := reason16 why }) := by
  show execEnableCheckDone b s = _
  simp only [execEnableCheckDone, h, hcheck, beq_self_eq_true, if_true, Dev.refuse]

theorem exec_enableCheckDone_passed (h : (s.dev.block b).st = .checking) (hcheck : s.dev.check b = none) :
    exec (.enableCheckDone b) s = answer s ((s.dev.moveBlock b { s.dev.block b with st := .running }).reachRunning b) := by
  show execEnableCheckDone b s = _
  simp only [execEnableCheckDone, h, hcheck, beq_self_eq_true, if_true]

theorem ends_enableCheckDone_passed (h : (s.dev.block b).st = .checking) (hcheck : s.dev.check b = none) :
    Ends (.enableCheckDone b) s (fun t => (t.dev.block b).st = .running ∧ t.mem = s.mem) :=
  ⟨_, exec_enableCheckDone_passed h hcheck,
    congrArg Block.st ((Dev.reachRunning_block _ b).trans (Dev.block_moveBlock_same s.dev b { s.dev.block b with st := .running })), rfl⟩

theorem ends_blockReachesOff (h : (s.dev.block b).st = .quiescing) (hrest : s.dev.atRest b = true) :
    Ends (.blockReachesOff b) s (fun t => t.dev.block b = { s.dev.block b with st := .off } ∧ t.mem = s.mem) := by
  obtain ⟨e, he, hexec⟩ := exec_blockReachesOff h hrest
  have hblock := Dev.block_congr he b
  refine ⟨_, hexec, ?_, rfl⟩
  rw [← hblock] at h ⊢
  exact e.blockOff_block h

end Clauses

/-- Settles O17, a lemma for each state of Table 3.7 that a write meets, and for each end of a check and of a stop. -/
theorem enableWritesActByState : Obligations.EnableWritesActByState := by
  intro s b hmgmt x only
  refine ⟨ends_enableSet_off hmgmt, fun h => ⟨_, (exec_enableSet hmgmt).trans (congrArg (answer s) (Dev.enable_of_checking h)), rfl⟩,
    fun h => ends_moveBlock ((exec_enableSet hmgmt).trans (congrArg (answer s) (Dev.enable_of_running h))),
    fun h => ends_moveBlock ((exec_enableSet hmgmt).trans (congrArg (answer s) (Dev.enable_of_quiescing h))),
    ends_enableClear_idle hmgmt, ends_enableClear_checking hmgmt,
    fun h hp => ⟨_, exec_enableClear hmgmt, Dev.disable_running_st h hp s.mem, rfl⟩, ?_,
    fun _ h hcheck => ends_moveBlock (exec_enableCheckDone_refused h hcheck), ends_enableCheckDone_passed, ends_blockReachesOff⟩
  rintro c rfl h hp
  exact ends_enableClear_preempting hmgmt h hp

end Sys2Proof.Machine

/-! The descriptors of a ring and the ops that run on them (R65, R66, R73, R78, R97): what one command finds at a count after another has
rewritten it, what reservations of buffer entries change, and what an op's end leaves of the device. -/
namespace Sys2Proof.Machine

/-! ## The descriptor at a count -/

section Entries

variable {g h : Ring} {c k : W32} {e : Entry}

theorem Ring.entry_count (he : g.entry c = some e) : e.count = c := by
  simpa using List.find?_some he

theorem Ring.entry_of_map {f : Entry → Entry} (hf : ∀ x, (f x).count = x.count) (hents : h.ents = g.ents.map f) (c : W32) :
    h.entry c = (g.entry c).map f := by
  rw [Ring.entry, hents, List.find?_map, Ring.entry]
  exact congrArg (fun p => (g.ents.find? p).map f) (funext fun x => congrArg (· == c) (hf x))

theorem Ring.entry_modEntry (g : Ring) (c k : W32) {f : Entry → Entry} (hf : ∀ x, (f x).count = x.count) :
    (g.modEntry c f).entry k = if k = c then (g.entry c).map f else g.entry k := by
  rw [Ring.entry_of_map (g := g) (f := fun e => if e.count == c then f e else e) (fun x => by split <;> simp [hf]) rfl]
  by_cases heq : k = c
  · subst heq
    rw [if_pos rfl]
    exact Option.map_congr fun x hx => if_pos (beq_iff_eq.2 (Ring.entry_count hx))
  · rw [if_neg heq]
    refine (Option.map_congr (g := id) fun x hx => if_neg ?_).trans (congrFun Option.map_id _)
    rw [Ring.entry_count hx]
    exact fun h => heq (beq_iff_eq.1 h)

theorem Ring.entry_modEntry_same {f : Entry → Entry} (hf : ∀ x, (f x).count = x.count) (he : g.entry c = some e) :
    (g.modEntry c f).entry c = some (f e) := by rw [Ring.entry_modEntry _ _ _ hf, if_pos rfl, he, Option.map_some]

theorem Ring.entry_modEntry_other {f : Entry → Entry} (hf : ∀ x, (f x).count = x.count) (hk : k ≠ c) :
    (g.modEntry c f).entry k = g.entry k := by rw [Ring.entry_modEntry _ _ _ hf, if_neg hk]

/-- A ring after some descriptors have reserved buffer entries (R66). -/
def Ring.Buffered (g h : Ring) : Prop :=
  ∃ f : Entry → Bool, h = { g with ents := g.ents.map (fun e => { e with buf := e.buf || f e }), finished := h.finished }

theorem Ring.buffered_refl (g : Ring) : g.Buffered g := ⟨fun _ => false, by simp⟩

theorem Ring.Buffered.reserve (hb : g.Buffered h) (c : W32) (l : List W32) :
    g.Buffered { h.modEntry c (fun e => { e with buf := true }) with finished := l } := by
  obtain ⟨f, hf⟩ := hb
  refine ⟨fun e => f e || e.count == c, ?_⟩
  rw [hf]
  simp only [Ring.modEntry, List.map_map, Ring.mk.injEq, true_and, and_true]
  refine List.map_congr_left fun x _ => ?_
  cases hx : x.count == c <;> simp only [hx, Function.comp_apply, Bool.or_false, Bool.or_true, Bool.false_eq_true, if_true, if_false]

theorem Ring.buffered_takeBuffers (g : Ring) : g.Buffered g.takeBuffers := by
  unfold Ring.takeBuffers
  refine List.foldlRecOn (motive := fun a : Ring × Bool => g.Buffered a.1) _ _ g.buffered_refl fun a ha e _ => ?_
  dsimp only
  split
  · exact ha
  · split
    · exact ha.reserve _ _
    · exact ha

theorem Ring.Buffered.entry (hb : g.Buffered h) (c : W32) :
    ∃ f : Entry → Bool, h.entry c = (g.entry c).map (fun e => { e with buf := e.buf || f e }) := by
  obtain ⟨f, hf⟩ := hb
  exact ⟨f, Ring.entry_of_map (f := fun e => { e with buf := e.buf || f e }) (fun _ => rfl) (by rw [hf]) c⟩

theorem Ring.entry_takeBuffers (g : Ring) {c : W32} {e : Entry} (he : g.entry c = some e) :
    ∃ b, g.takeBuffers.entry c = some { e with buf := e.buf || b } := by
  obtain ⟨f, hf⟩ := g.buffered_takeBuffers.entry c
  exact ⟨f e, by rw [hf, he]; rfl⟩

theorem Ring.takeBuffers_eq (g : Ring) :
    g.takeBuffers = { g with ents := g.takeBuffers.ents, finished := g.takeBuffers.finished } := by
  obtain ⟨f, hf⟩ := g.buffered_takeBuffers
  rw [hf]

end Entries

section DevEntries

variable {d e : Dev} {r : Nat} {c : W32}

theorem Dev.entry_congr (h : d.rings = e.rings) (r : Nat) (c : W32) : d.entry r c = e.entry r c := by
  rw [Dev.entry, Dev.ring_congr h, Dev.entry]

theorem Dev.entry_count {x : Entry} (h : d.entry r c = some x) : x.count = c := Ring.entry_count h

theorem Dev.ring_modRing_same (d : Dev) (r : Nat) (f : Ring → Ring) : (d.modRing r f).ring r = f (d.ring r) := by
  rw [Dev.ring_modRing, if_pos rfl]

theorem Dev.ring_modRing_other (d : Dev) {r k : Nat} (f : Ring → Ring) (h : k ≠ r) : (d.modRing r f).ring k = d.ring k := by
  rw [Dev.ring_modRing, if_neg h]

theorem Dev.ring_modEntry (d : Dev) (r k : Nat) (c : W32) (f : Entry → Entry) :
    (d.modEntry r c f).ring k = { d.ring k with ents := ((d.modEntry r c f).ring k).ents } := by
  rw [Dev.modEntry, Dev.ring_modRing]
  split
  · next h => rw [h]; rfl
  · rfl

theorem Dev.entry_modEntry (d : Dev) (r k : Nat) (c x : W32) {f : Entry → Entry} (hf : ∀ e, (f e).count = e.count) :
    (d.modEntry r c f).entry k x = if k = r ∧ x = c then (d.entry r c).map f else d.entry k x := by
  rw [Dev.entry, Dev.modEntry, Dev.ring_modRing]
  by_cases h : k = r
  · subst h; simp only [if_true, true_and]; exact Ring.entry_modEntry _ _ _ hf
  · simp only [h, if_false, false_and]; rfl

theorem Dev.entry_modEntry_same (d : Dev) (r : Nat) (c : W32) {f : Entry → Entry} (hf : ∀ e, (f e).count = e.count) :
    (d.modEntry r c f).entry r c = (d.entry r c).map f := by rw [d.entry_modEntry _ _ _ _ hf, if_pos ⟨rfl, rfl⟩]

theorem Dev.entry_modEntry_other (d : Dev) {r k : Nat} {c x : W32} {f : Entry → Entry} (hf : ∀ e, (f e).count = e.count)
    (h : ¬ (k = r ∧ x = c)) : (d.modEntry r c f).entry k x = d.entry k x := by rw [d.entry_modEntry _ _ _ _ hf, if_neg h]

/-- The started op that a command names. -/
theorem Dev.op_eq_some {o : Nat} {x : Entry} (h : d.op r c o = some x) :
    d.entry r c = some x ∧ x.count = c ∧ x.phase = .started ∧ hOpcode x.desc = o := by
  obtain ⟨he, hx⟩ := Option.filter_eq_some_iff.1 h
  simp only [Bool.and_eq_true, beq_iff_eq] at hx
  exact ⟨he, Dev.entry_count he, hx.1.1.1, hx.1.1.2⟩

end DevEntries

/-! ## The end of an op that no engine takes -/

theorem Dev.take_of_no_engine {d : Dev} {r : Nat} {c : W32} {e : Entry} (he : d.entry r c = some e)
    (hop : engineOf (hOpcode e.desc) = none) : d.take r c = d := by
  simp [Dev.take, he, hop]

section ControlEnd

variable {d : Dev} {r : Nat} {e : Entry} (he : d.entry r e.count = some e) (hop : engineOf (hOpcode e.desc) = none) (res : Result)

include he in
theorem Dev.entry_closeOp (hs : e.phase = .started) : (d.closeOp r e.count res).entry r e.count = some (e.doneWith res) := by
  rw [Dev.closeOp, d.entry_modEntry_same _ _ (fun x => by split <;> rfl), he, Option.map_some]
  simp only [hs, beq_self_eq_true, if_true]
  rfl

theorem Dev.entry_closeOp_other (d : Dev) {r k : Nat} {c x : W32} (res : Result) (h : ¬ (k = r ∧ x = c)) :
    (d.closeOp r c res).entry k x = d.entry k x := d.entry_modEntry_other (fun x => by split <;> rfl) h

include he hop in
theorem Dev.finishOp_control : d.finishOp r e.count res = d.closeOp r e.count res := by
  rw [Dev.finishOp, Dev.take_of_no_engine he hop]

include he hop in
theorem Dev.endOp_control : d.endOp r e res = (d.account (d.claimOf r) res.picks res.deep res.fabric 0).closeOp r e.count res :=
  Dev.finishOp_control ((Dev.entry_congr (d.account_rings _ _ _ _ _) r e.count).trans he) hop res

include he hop in
theorem Dev.entry_endOp (hs : e.phase = .started) : (d.endOp r e res).entry r e.count = some (e.doneWith res) := by
  rw [Dev.endOp_control he hop]
  exact Dev.entry_closeOp ((Dev.entry_congr (d.account_rings _ _ _ _ _) r e.count).trans he) res hs

include he hop in
theorem Dev.ring_endOp_other {k : Nat} (hk : k ≠ r) : (d.endOp r e res).ring k = d.ring k := by
  rw [Dev.endOp_control he hop]
  exact (Dev.ring_modRing_other _ _ hk).trans (Dev.ring_congr (d.account_rings _ _ _ _ _) k)

end ControlEnd

/-! ## What the work of an op leaves -/

/-- What an op's work and the tallies it signals may touch: the frame of the control ops. -/
def Dev.WorksTo (d t : Dev) : Prop := t = { d.worked t with tallies := t.tallies }

section WorksTo

variable {d t u : Dev}

theorem Dev.WorksTo.trans (h : d.WorksTo t) (h' : t.WorksTo u) : d.WorksTo u :=
  Eq.trans h' (show _ = (fun x : Dev => ({ x.worked u with tallies := u.tallies } : Dev)) { d.worked t with tallies := t.tallies } from
    congrArg (fun x : Dev => ({ x.worked u with tallies := u.tallies } : Dev)) h)

/-- Where no tally changes, the frame is that of the ops of the engines. -/
theorem Dev.WorksTo.worked (h : d.WorksTo t) (htallies : t.tallies = d.tallies) : t = d.worked t :=
  Eq.trans h (congrArg (fun x => ({ d.worked t with tallies := x } : Dev)) htallies)

theorem Dev.worksTo_refl (d : Dev) : d.WorksTo d := rfl

theorem Dev.worksTo_recall (d : Dev) (a n : Nat) : d.WorksTo (d.recall a n) := by
  unfold Dev.WorksTo Dev.recall
  split <;> rfl

theorem Dev.worksTo_touchRange (d : Dev) (a n : Nat) : d.WorksTo (d.touchRange a n) := by
  apply Dev.ext <;> simp [Dev.worked]

theorem Dev.worksTo_heatRange (d : Dev) (a n k : Nat) : d.WorksTo (d.heatRange a n k) := by
  apply Dev.ext <;> simp [Dev.worked]

theorem Dev.worksTo_engineWrite (d : Dev) (a n : Nat) : d.WorksTo (d.engineWrite a n) :=
  (d.worksTo_recall a n).trans (Dev.worksTo_touchRange _ a n)

theorem Dev.worksTo_engineRead (d : Dev) (a n : Nat) : d.WorksTo (d.engineRead a n) :=
  (d.worksTo_engineWrite a n).trans (Dev.worksTo_heatRange _ a n 1)

theorem Dev.worksTo_account (d : Dev) (c p x f h : Nat) : d.WorksTo (d.account c p x f h) := rfl

theorem Dev.worksTo_setTally (d : Dev) (n : Nat) (y : Tally) : d.WorksTo (d.setTally n y) := rfl

theorem Dev.worksTo_endOp (d : Dev) (r : Nat) (e : Entry) (res : Result) : d.WorksTo (d.endOp r e res) := by
  apply Dev.ext <;> simp [Dev.worked]

theorem Dev.worksTo_decideEntry (d : Dev) (r : Nat) (c : W32) (status : BitVec 16) (reason : Nat) :
    d.WorksTo (d.decideEntry r c status reason) := by
  apply Dev.ext <;> simp [Dev.worked]

/-- The frame of a command whose device state is reached by an op's work. -/
theorem Dev.WorksTo.state {s : State} (h : s.dev.WorksTo t) :
    ({ s with dev := t } : State) = { s with dev := { s.dev.worked t with tallies := t.tallies } } :=
  congrArg (fun x => ({ s with dev := x } : State)) h

end WorksTo

/-! ## Ops that wait for no meter -/

theorem begun_of_admitted {s : State} {r : Nat} {e : Entry} {needs : List (Nat × Nat)} (he : s.dev.entry r e.count = some e)
    (hneeds : e.admitted needs = true) (go : State → Host.Outcome State Fault Refusal) : begun s r e false needs go = go s := by
  simp [begun, metered, he, hneeds]

end Sys2Proof.Machine

/-! Deadlines (R94), the records of descriptors (R65, R98), NOP (R81) and TIMESTAMP (R83). -/
namespace Sys2Proof.Machine

/-! ## Deadlines -/

theorem hDeadline_lt (x : BitVec 512) : hDeadline x < 2 ^ 48 := Nat.mod_lt _ (by decide)

theorem deadlineReached_iff {x : BitVec 512} (h : hDeadline x ≠ 0) (t : Tick) :
    deadlineReached t x = true ↔ (t.toNat % 2 ^ 48 + 2 ^ 48 - hDeadline x) % 2 ^ 48 < 2 ^ 47 := by
  simp [deadlineReached, h]

/-- Ticks after its deadline a descriptor's deadline stands reached for half the 48-bit clock. -/
theorem deadlineReached_add_iff {x : BitVec 512} (h : hDeadline x ≠ 0) {t : Tick} (ht : t.toNat % 2 ^ 48 = hDeadline x) {k : Nat}
    (hk : k < 2 ^ 48) : deadlineReached (t + BitVec.ofNat 64 k) x = true ↔ k < 2 ^ 47 := by
  have hlt := hDeadline_lt x
  rw [deadlineReached_iff h, BitVec.toNat_add, BitVec.toNat_ofNat]
  omega

/-- Settles O21. -/
theorem deadlineHoldsForHalfTheClock : Obligations.DeadlineHoldsForHalfTheClock := by
  intro t x h
  have hlt := hDeadline_lt x
  refine ⟨?_, fun ht => ⟨?_, fun k hk => (deadlineReached_add_iff h ht (by omega)).2 hk, ?_⟩⟩
  · rw [deadlineReached_iff h]; omega
  · rw [deadlineReached_iff h]; omega
  · rw [← Bool.not_eq_true, deadlineReached_add_iff h ht (by decide)]
    decide

/-! ## The fields of a record -/

theorem b2n_le (b : Bool) : b2n b ≤ 1 := by cases b <;> decide

/-- Where each part of a record lies: all below PHASE, PHASE, START_TICK, and the counts. -/
theorem recordOf_toNat (n : Nat) (g : Ring) (e : Entry) (k : W32) (h : g.sqLog2.toNat ≤ 16) : ∃ lo hi, lo < 2 ^ 63 ∧
    (recordOf n g e k).toNat =
      (lo + phaseBit k (2 ^ g.cqLog2.toNat) * 2 ^ 63 + e.start.toNat % 2 ^ 48 * 2 ^ 64 + hi * 2 ^ 112) % 2 ^ 256 := by
  obtain ⟨sat, dur, picks, deep, fabric, heq⟩ : ∃ (sat : Bool) (dur picks deep fabric : Nat), recordOf n g e k = BitVec.ofNat 256
      (e.res.status.toNat + e.res.reason.toNat * 2 ^ 16 + (e.count.toNat % 2 ^ g.sqLog2.toNat) * 2 ^ 32 +
        (phaseBit k (2 ^ g.cqLog2.toNat) * 2 ^ 15 + b2n e.res.retry * 2 ^ 14 + b2n e.res.approx * 2 ^ 13 + b2n sat * 2 ^ 12 + n % 1024) *
          2 ^ 48 + (e.start.toNat % 2 ^ 48) * 2 ^ 64 + dur * 2 ^ 112 + picks * 2 ^ 144 + deep * 2 ^ 184 + fabric * 2 ^ 216) :=
    ⟨_, _, _, _, _, rfl⟩
  have hcount : e.count.toNat % 2 ^ g.sqLog2.toNat < 2 ^ 16 :=
    Nat.lt_of_lt_of_le (Nat.mod_lt _ (Nat.two_pow_pos _)) (Nat.pow_le_pow_right (by decide) h)
  have hstatus := e.res.status.isLt
  have hreason := e.res.reason.isLt
  have hretry := b2n_le e.res.retry
  have happrox := b2n_le e.res.approx
  have hsat := b2n_le sat
  rw [heq, BitVec.toNat_ofNat]
  generalize e.count.toNat % 2 ^ g.sqLog2.toNat = count at *
  generalize phaseBit k (2 ^ g.cqLog2.toNat) = phase at *
  exact ⟨e.res.status.toNat + e.res.reason.toNat * 2 ^ 16 + count * 2 ^ 32 +
    (b2n e.res.retry * 2 ^ 14 + b2n e.res.approx * 2 ^ 13 + b2n sat * 2 ^ 12 + n % 1024) * 2 ^ 48,
    dur + picks * 2 ^ 32 + deep * 2 ^ 72 + fabric * 2 ^ 104, by omega, congrArg (· % 2 ^ 256) (by omega)⟩

theorem phaseBit_le (c : W32) (size : Nat) : phaseBit c size ≤ 1 := Nat.sub_le _ _

theorem recordOf_start (n : Nat) (g : Ring) (e : Entry) (k : W32) (h : g.sqLog2.toNat ≤ 16) :
    (recordOf n g e k).toNat / 2 ^ 64 % 2 ^ 48 = e.start.toNat % 2 ^ 48 := by
  obtain ⟨lo, hi, hlo, heq⟩ := recordOf_toNat n g e k h
  have hphase := phaseBit_le k (2 ^ g.cqLog2.toNat)
  rw [heq]
  omega

theorem recordOf_phase (n : Nat) (g : Ring) (e : Entry) (k : W32) (h : g.sqLog2.toNat ≤ 16) :
    (recordOf n g e k).toNat / 2 ^ 63 % 2 = phaseBit k (2 ^ g.cqLog2.toNat) := by
  obtain ⟨lo, hi, hlo, heq⟩ := recordOf_toNat n g e k h
  have hphase := phaseBit_le k (2 ^ g.cqLog2.toNat)
  rw [heq]
  omega

/-! ## NOP -/

theorem Dev.claim_account_zero (d : Dev) (c k : Nat) : (d.account c 0 0 0 0).claim k = d.claim k := by
  rw [Dev.account, Dev.claim_modClaim]
  split
  · next h => rw [h]; simp
  · rfl

/-- Settles O22. -/
theorem nopDoesNothing : Obligations.NopDoesNothing := by
  intro s r c e hop
  obtain ⟨he, rfl, hs, hcode⟩ := Dev.op_eq_some hop
  have hengine : engineOf (hOpcode e.desc) = none := by rw [hcode]; rfl
  have hend := Dev.endOp_control he hengine .ok
  refine ⟨_, (by simp only [exec, execNop, hop] : exec (.nop r e.count) s = answer s (s.dev.endOp r.val e .ok)), ?_⟩
  refine ⟨?_, fun k hk => Dev.ring_endOp_other he hengine .ok hk, fun k => ?_, Dev.entry_endOp he hengine .ok hs, fun c' hc => ?_, ?_⟩
  · rw [hend]; rfl
  · rw [hend]; exact s.dev.claim_account_zero _ k
  · rw [hend]
    exact (Dev.entry_closeOp_other _ _ (fun h => hc h.2)).trans (Dev.entry_congr (s.dev.account_rings _ _ _ _ _) _ _)
  · rw [hend]; exact Dev.ring_modEntry (s.dev.account _ _ _ _ _) r.val r.val e.count _

/-! ## TIMESTAMP -/

section Timestamp

variable {s : State} {r : RingNo} {e : Entry}

theorem exec_timestamp {p : Place} (hop : s.dev.op r.val e.count 0x06 = some e) (hp : s.dev.access r.val e 16 8 8 = .ok p)
    (hwait : s.dev.mustWait e [] [span 16 p.addr 8] = false) (hneeds : e.admitted (s.dev.deepNeeds [] [(p.addr, 8)]) = true) :
    exec (.timestamp r e.count) s = answerMem s
      ((s.dev.engineWrite p.addr 8).endOp r.val e { Result.ok with deep := s.dev.deepBytes p.addr 8 },
        s.dev.writeDev p.addr (toLe 8 e.start.toNat)) := by
  simp only [exec, execTimestamp, hop, hp, hwait, begun_of_admitted (Dev.op_eq_some hop).1 hneeds]

theorem Dev.access_of_misaligned {d : Dev} {r off n align : Nat} (halign : effAddr ((d.ring r).loopOf e.count) e.desc off % align ≠ 0) :
    d.access r e off n align = .error (Result.fail stAddrFault off) := by
  have hplace : d.place r e off n align = .error (Result.fail stAddrFault off) := by
    unfold Dev.place
    dsimp only
    split
    · rfl
    · next hok =>
      refine if_pos (bne_iff_ne.2 fun h => halign ?_)
      simp only [Bool.not_eq_true, Bool.not_eq_false', addrOk, Bool.and_eq_true, decide_eq_true_eq] at hok
      rw [← Int.toNat_of_nonneg hok.1, ← Int.natCast_mod, h]
      rfl
  rw [Dev.access, hplace]

end Timestamp

theorem leNat_toLe_tick (t : Tick) : leNat (toLe 8 t.toNat) = t.toNat := by
  rw [leNat_toLe]; exact Nat.mod_eq_of_lt t.isLt

/-- Settles O23. -/
theorem timestampWritesItsStartTick : Obligations.TimestampWritesItsStartTick := by
  intro s r c e hop
  obtain ⟨he, rfl, hs, hcode⟩ := Dev.op_eq_some hop
  have hengine : engineOf (hOpcode e.desc) = none := by rw [hcode]; rfl
  refine ⟨fun p hp hwait hneeds => ?_, fun n g => recordOf_start n g e, fun halign => ?_⟩
  · have hew : (s.dev.engineWrite p.addr 8).entry r.val e.count = some e := (Dev.entry_congr (Dev.engineWrite_rings _ _ _) _ _).trans he
    exact ⟨_, exec_timestamp hop hp hwait hneeds, rfl, leNat_toLe_tick _, fun k => Memory.get_applyAll_spares _ _,
      ⟨_, Dev.entry_endOp hew hengine _ hs, rfl, rfl, rfl⟩,
      fun k hk => (Dev.ring_endOp_other hew hengine _ hk).trans (Dev.ring_congr (Dev.engineWrite_rings _ _ _) k),
      congrArg (fun d => ({ s with dev := d, mem := _ } : State))
        (((s.dev.worksTo_engineWrite _ _).trans (Dev.worksTo_endOp _ _ _ _)).worked (by simp))⟩
  · refine ⟨_, (by simp only [exec, execTimestamp, hop, Dev.access_of_misaligned halign] :
      exec (.timestamp r e.count) s = failOp s r.val e (Result.fail stAddrFault 16)), ?_⟩
    rw [Dev.finishOp_control he hengine]
    exact ⟨rfl, fun k hk => Dev.ring_modRing_other _ _ hk, Dev.entry_closeOp he _ hs⟩

end Sys2Proof.Machine

/-! Tallies and the descriptors that wait on them (R77 to R80, R95): what serving the waiters of one tally can do, and what it leaves of a
descriptor that waits on none. -/
namespace Sys2Proof.Machine

/-! ## Serving one waiter -/

/-- The first waiter whose condition holds leaves the tally, takes what it consumes, and is served (R78). -/
def Dev.serveFirst (d : Dev) (t : Nat) (w : Waiter) : Dev :=
  (d.setTally t { d.tally t with count := (d.tally t).count - w.consume,
                                 waiters := (d.tally t).waiters.filter (fun v => !(v.ring == w.ring && v.count == w.count)) }).serve w

/-- The waiter that a tally serves next. -/
def Dev.nextWaiter (d : Dev) (t : Nat) : Option Waiter :=
  (d.tally t).waiters.find? (fun w => w.holds (d.tally t).count && !d.tooLate w)

theorem Dev.scanTally_of_none {d : Dev} {t : Nat} (h : d.nextWaiter t = none) (n : Nat) : Dev.scanTally n d t = d := by
  cases n with
  | zero => rfl
  | succ n => rw [Dev.nextWaiter] at h; simp only [Dev.scanTally, h]

theorem Dev.scanTally_of_some {d : Dev} {t : Nat} {w : Waiter} (h : d.nextWaiter t = some w) (n : Nat) :
    Dev.scanTally (n + 1) d t = Dev.scanTally n (d.serveFirst t w) t := by
  rw [Dev.nextWaiter] at h
  simp only [Dev.scanTally, h]
  rfl

/-- What holds before the waiters of a tally are served, and after each that is served, holds when all are. -/
theorem Dev.scanTally_induct {t : Nat} {P : Dev → Prop} (hstep : ∀ d w, P d → w ∈ (d.tally t).waiters → P (d.serveFirst t w))
    (n : Nat) {d : Dev} (h : P d) : P (Dev.scanTally n d t) := by
  induction n generalizing d with
  | zero => exact h
  | succ n ih =>
    cases hw : d.nextWaiter t with
    | none => rw [Dev.scanTally_of_none hw]; exact h
    | some w => rw [Dev.scanTally_of_some hw]; exact ih (hstep d w h (List.mem_of_find?_eq_some hw))

section ServeFirst

variable (d : Dev) (t : Nat) (w : Waiter)

theorem Dev.tally_serveFirst (k : Nat) : (d.serveFirst t w).tally k = if k = t then
    { d.tally t with count := (d.tally t).count - w.consume,
                     waiters := (d.tally t).waiters.filter (fun v => !(v.ring == w.ring && v.count == w.count)) } else d.tally k :=
  (Dev.tally_congr (Dev.serve_tallies _ w) k).trans (d.tally_setTally t k _)

theorem Dev.tally_serveFirst_other {k : Nat} (h : k ≠ t) : (d.serveFirst t w).tally k = d.tally k := by
  rw [Dev.tally_serveFirst, if_neg h]

theorem Dev.waiters_serveFirst {v : Waiter} {k : Nat} (h : v ∈ ((d.serveFirst t w).tally k).waiters) : v ∈ (d.tally k).waiters := by
  rw [Dev.tally_serveFirst] at h
  split at h
  · next heq => rw [heq]; exact List.mem_of_mem_filter h
  · exact h

theorem Dev.waiters_serveFirst_length (h : w ∈ (d.tally t).waiters) :
    ((d.serveFirst t w).tally t).waiters.length < (d.tally t).waiters.length := by
  rw [Dev.tally_serveFirst, if_pos rfl]
  exact List.length_filter_lt_length_iff_exists.2 ⟨w, h, by simp⟩

theorem Dev.entry_serve {r : Nat} {c : W32} (h : ¬ (r = w.ring ∧ c = w.count)) : (d.serve w).entry r c = d.entry r c :=
  d.entry_modEntry_other (fun x => by split <;> rfl) h

theorem Dev.ring_serve (k : Nat) : (d.serve w).ring k = { d.ring k with ents := ((d.serve w).ring k).ents } := d.ring_modEntry _ k _ _

end ServeFirst

/-! ## Descriptors that wait on no tally -/

/-- No tally has the descriptor among its waiters. -/
def Dev.Unawaited (d : Dev) (r : Nat) (c : W32) : Prop := ∀ t, ∀ w ∈ (d.tally t).waiters, ¬ (w.ring = r ∧ w.count = c)

/-- The descriptor stands in `u` as in `d`, in the same loop if any, and waits on no tally. -/
structure Dev.Spares (d : Dev) (r : Nat) (c : W32) (u : Dev) : Prop where
  entry : u.entry r c = d.entry r c
  loop : (u.ring r).loop = (d.ring r).loop
  free : u.Unawaited r c

section Spares

variable {d u : Dev} {r : Nat} {c : W32}

theorem Dev.Unawaited.congr (h : d.Unawaited r c) (htallies : u.tallies = d.tallies) : u.Unawaited r c :=
  fun t w hw => h t w (by rwa [← Dev.tally_congr htallies])

theorem Dev.Unawaited.setCount (h : d.Unawaited r c) (t : Nat) (v : Word) :
    (d.setTally t { d.tally t with count := v }).Unawaited r c := fun k w hw => h k w (by
  rw [Dev.tally_setTally] at hw
  split at hw
  · next heq => rw [heq]; exact hw
  · exact hw)

theorem Dev.Spares.serveFirst (h : d.Spares r c u) {t : Nat} {w : Waiter} (hw : w ∈ (u.tally t).waiters) :
    d.Spares r c (u.serveFirst t w) where
  entry := (Dev.entry_serve _ w fun heq => h.free t w hw ⟨heq.1.symm, heq.2.symm⟩).trans h.entry
  loop := (congrArg Ring.loop (Dev.ring_serve _ w r)).trans h.loop
  free k v hv := h.free k v (u.waiters_serveFirst t w hv)

theorem Dev.Unawaited.setTallyCount (h : d.Unawaited r c) (t : Nat) (v : Word) : d.Spares r c (d.setTallyCount t v) :=
  Dev.scanTally_induct (P := d.Spares r c) (fun _ _ hu hw => hu.serveFirst hw) _ ⟨rfl, rfl, h.setCount t v⟩

theorem Dev.Unawaited.headerSignal (h : d.Unawaited r c) (k : Nat) (x : BitVec 512) (res : Result) :
    d.Spares r c (d.headerSignal k x res).1 := by
  unfold Dev.headerSignal
  split
  · exact h.setTallyCount _ _
  · exact ⟨rfl, rfl, h⟩

theorem Dev.tally_leaveTallies (d : Dev) (r : Nat) (c : W32) (t : Nat) : (d.leaveTallies r c).tally t =
    { d.tally t with waiters := (d.tally t).waiters.filter (fun v => !(v.ring == r && v.count == c)) } := by
  simp only [Dev.tally, Dev.leaveTallies, Tbl.lookD, Tbl.look_mapAll]
  cases Tbl.look d.tallies t <;> rfl

theorem Dev.unawaited_leaveTallies (d : Dev) (r : Nat) (c : W32) : (d.leaveTallies r c).Unawaited r c := fun t w hw heq => by
  rw [Dev.tally_leaveTallies] at hw
  simpa [heq] using (List.mem_filter.1 hw).2

theorem Dev.Unawaited.leaveTallies (h : d.Unawaited r c) (k : Nat) (x : W32) : (d.leaveTallies k x).Unawaited r c := fun t w hw => by
  rw [Dev.tally_leaveTallies] at hw
  exact h t w (List.mem_of_mem_filter hw)

end Spares

/-- A status of class 1 or higher stands through the header signal (R99). -/
theorem Dev.headerSignal_result (d : Dev) (r : Nat) (x : BitVec 512) {res : Result} (h : 1 ≤ classOf res.status) :
    (d.headerSignal r x res).2 = res := by
  have hmeet : res.meet stTallySaturated (BitVec.ofNat 16 (hSignalId x)) = res := if_neg (Nat.not_lt.2 h)
  unfold Dev.headerSignal
  split
  · dsimp only
    rw [hmeet]
    split
    · rfl
    · split <;> rfl
  · rfl

theorem Dev.headerSignal_of_none (d : Dev) (r : Nat) {x : BitVec 512} (h : hSignal x = false) (res : Result) :
    d.headerSignal r x res = (d, res) := by simp [Dev.headerSignal, Dev.signalDue, h]

/-! ## Descriptors that complete outside a loop -/

/-- A descriptor as it completes on a device's present tick. -/
def Entry.settled (e : Entry) (d : Dev) (res : Result) (ran : Bool) (start : Tick) : Entry :=
  { e with phase := .completed, res := res, ran := ran, start := start, fin := d.now - (d.skew - e.skew) }

section Settle

variable {d : Dev} {r : Nat} {c : W32} {e : Entry} (hloop : (d.ring r).loop = none) (he : d.entry r c = some e)
  (res : Result) (ran : Bool) (start : Tick)

include hloop he in
theorem Dev.settle_of_no_loop : d.settle r c res ran start = d.setRing r
    (if e.buf then { (d.ring r).modEntry c (fun x => x.settled d res ran start) with finished := (d.ring r).finished ++ [c] }
     else ((d.ring r).modEntry c (fun x => x.settled d res ran start)).takeBuffers) := by
  have hentry : ((d.ring r).modEntry c (fun x => x.settled d res ran start)).entry c = some (e.settled d res ran start) :=
    Ring.entry_modEntry_same (f := fun x => x.settled d res ran start) (fun _ => rfl) he
  have hnone : ((d.ring r).loopOf c).isSome = false := by simp [Ring.loopOf, hloop]
  unfold Entry.settled at hentry ⊢
  simp only [Dev.settle, hnone, hentry, Bool.false_eq_true, if_false]
  rfl

include hloop he in
/-- The descriptor that completes stands completed with its result, a buffer entry reserved or not. -/
theorem Dev.entry_settle : ∃ b, (d.settle r c res ran start).entry r c = some { e.settled d res ran start with buf := b } := by
  have hentry : ((d.ring r).modEntry c (fun x => x.settled d res ran start)).entry c = some (e.settled d res ran start) :=
    Ring.entry_modEntry_same (f := fun x => x.settled d res ran start) (fun _ => rfl) he
  rw [d.settle_of_no_loop hloop he, Dev.entry, Dev.ring_setRing, if_pos rfl]
  split
  · exact ⟨_, hentry⟩
  · obtain ⟨b, hb⟩ := Ring.entry_takeBuffers _ hentry
    exact ⟨_, hb⟩

include hloop he in
theorem Dev.loop_settle : ((d.settle r c res ran start).ring r).loop = none := by
  rw [d.settle_of_no_loop hloop he, Dev.ring_setRing, if_pos rfl]
  split
  · exact hloop
  · rw [Ring.takeBuffers_eq]; exact hloop

include hloop he in
theorem Dev.ring_settle_other {k : Nat} (h : k ≠ r) : (d.settle r c res ran start).ring k = d.ring k := by
  rw [d.settle_of_no_loop hloop he, Dev.ring_setRing, if_neg h]

include hloop he in
/-- Another descriptor of the ring stands as it was, a buffer entry reserved or not. -/
theorem Dev.entry_settle_other {x : W32} (hx : x ≠ c) {y : Entry} (hy : d.entry r x = some y) :
    ∃ b, (d.settle r c res ran start).entry r x = some { y with buf := b } := by
  have hentry : ((d.ring r).modEntry c (fun x => x.settled d res ran start)).entry x = some y :=
    (Ring.entry_modEntry_other (f := fun x => x.settled d res ran start) (fun _ => rfl) hx).trans hy
  rw [d.settle_of_no_loop hloop he, Dev.entry, Dev.ring_setRing, if_pos rfl]
  split
  · exact ⟨_, hentry⟩
  · obtain ⟨b, hb⟩ := Ring.entry_takeBuffers _ hentry
    exact ⟨_, hb⟩

end Settle

/-! ## Descriptors decided without running -/

section Decide

variable {d : Dev} {r : Nat} {c : W32} {e : Entry} (status : BitVec 16) (reason : Nat)

theorem Dev.decideOne_of_unstarted (he : d.entry r c = some e) (hun : e.unstarted = true) : d.decideOne r c status reason =
    ((d.leaveTallies r c).headerSignal r e.desc (Result.fail status reason)).1.settle r c
      ((d.leaveTallies r c).headerSignal r e.desc (Result.fail status reason)).2 false d.now := by
  simp [Dev.decideOne, he, hun]

/-- The descriptor as it stands once it has left the tallies and given its header signal. -/
theorem Dev.spares_leave_signal (d : Dev) (r : Nat) (c : W32) (x : BitVec 512) (res : Result) :
    d.Spares r c ((d.leaveTallies r c).headerSignal r x res).1 :=
  have h := (d.unawaited_leaveTallies r c).headerSignal r x res
  ⟨h.entry.trans (Dev.entry_congr (d.leaveTallies_rings r c) r c),
    h.loop.trans (congrArg Ring.loop (Dev.ring_congr (d.leaveTallies_rings r c) r)), h.free⟩

theorem Dev.entry_decideOne (he : d.entry r c = some e) (hun : e.unstarted = true) (hloop : (d.ring r).loop = none)
    (hstatus : 1 ≤ classOf status) :
    ∃ e', (d.decideOne r c status reason).entry r c = some e' ∧ e'.phase = .completed ∧ e'.res.status = status ∧ e'.ran = false := by
  have hspares := d.spares_leave_signal r c e.desc (Result.fail status reason)
  obtain ⟨b, hb⟩ := Dev.entry_settle (hspares.loop.trans hloop) (hspares.entry.trans he)
    ((d.leaveTallies r c).headerSignal r e.desc (Result.fail status reason)).2 false d.now
  rw [Dev.decideOne_of_unstarted status reason he hun]
  refine ⟨_, hb, rfl, ?_, rfl⟩
  rw [Dev.headerSignal_result _ _ _ hstatus]
  rfl

theorem bodyLen_of_ne {x : BitVec 512} (h : hOpcode x ≠ 0x04) : bodyLen x = 0 := by simp [bodyLen, h]

/-- A descriptor with no body is decided alone. -/
theorem Dev.decideGo_of_no_body (he : d.entry r c = some e) (hop : hOpcode e.desc ≠ 0x04) (n : Nat) :
    d.decideGo n r c status reason = d.decideOne r c status reason := by
  cases n with
  | zero => rfl
  | succ n =>
    have hempty : ∀ l : List Entry, l.filter (fun x => 1 ≤ (x.count - c).toNat && (x.count - c).toNat ≤ 0) = [] := fun l =>
      List.filter_eq_nil_iff.2 fun x _ => by
        simp only [Bool.and_eq_true, decide_eq_true_eq]; omega
    rw [Dev.decideGo, he]
    cases hun : e.unstarted with
    | true => simp only [hun, bodyLen_of_ne hop, hempty, if_true, if_false, List.map_nil, List.length_nil, Nat.lt_irrefl, List.foldl_nil]
    | false => simp [hun, Dev.decideOne, he]

end Decide

end Sys2Proof.Machine

/-! The life of a descriptor (R62 to R98, R421): its fetch, its start, its completion, its record, the vector of its ring and its deadline. -/
namespace Sys2Proof.Machine

/-! ## Fetch -/

section Fetch

variable {s : State} {r : Fin 1024} {x : BitVec 512}

/-- A ring with its next descriptor in hand. -/
def Ring.fetched (g : Ring) (x : BitVec 512) : Ring :=
  { g with sqHead := g.sqHead + 1, ents := g.ents ++ [Entry.fresh g.sqHead x], skip := g.skip - 1,
           orphans := (g.orphans.1 - 1, g.orphans.2) }

theorem exec_descriptorFetch (hrun : s.dev.isRunning (.ring r) = true) (hup : s.dev.host.linkUp = true)
    (hhost : s.dev.isRunning .hostif = true) (hstop : (s.dev.ring r.val).stopped = false)
    (htail : (s.dev.ring r.val).sqHead ≠ (s.dev.ring r.val).sqTailLast)
    (hfate : s.dev.fetchFate r.val (s.dev.ring r.val).sqHead x = none) :
    exec (.descriptorFetch r (some x)) s = answer s (s.dev.setRing r.val ((s.dev.ring r.val).fetched x)) := by
  show execDescriptorFetch r (some x) s = _
  simp [execDescriptorFetch, hrun, Dev.hostOpen_of_running hup hhost, hstop, htail, hfate, Ring.fetched]

end Fetch

/-! ## Start -/

section Start

variable {d : Dev} {m : Memory} {r : Nat} {e : Entry}

theorem Dev.startReady_eq (hbatch : hBatch e.desc = false) (hrep : hOpcode e.desc ≠ 0x04)
    (hbuf : (d.ring r).bufUsed < 32) (hcheck : d.startCheck r e = none) (hheld : d.startHeld m r e = false) :
    d.startReady m r e = d.startOp m r e := by
  have hneed : bufNeed e.desc = 1 := by simp [bufNeed, hrep]
  have hfree : Nat.blt 32 ((d.ring r).bufUsed - b2n e.buf + bufNeed e.desc) = false := by
    rw [hneed, ← Bool.not_eq_true, Nat.blt_eq]; omega
  simp [Dev.startReady, hbatch, hfree, hrep, hcheck, hheld]

theorem Dev.startNext_eq {prev : Option Entry} (hold : (d.ring r).oldest = some (prev, e)) (hloop : (d.ring r).loop = none)
    (hdead : hDeadline e.desc = 0) (hwait : hWait e.desc = false) (horder : (d.ring r).orderOk prev e = true) :
    d.startNext m r = d.startReady m r e := by
  have hlate : deadlineReached d.now e.desc = false := by simp [deadlineReached, hdead]
  simp [Dev.startNext, hold, Ring.loopOf, hloop, hlate, horder, hwait]

/-- A descriptor as it starts on a device's present tick, with what it reads of the device then. -/
def Entry.begun (x : Entry) (d : Dev) (m : Memory) (r : Nat) (e : Entry) : Entry :=
  let e1 := { e with seq := d.started, xt := d.readTable m r { e with seq := d.started } }
  { x with
    phase := .started, start := d.now, seq := d.started, seed := d.seedAt r e.desc, skew := if x.total.isNone then d.skew else x.skew
    buf := true, ran := true, xt := e1.xt, taken := false, work := none, paid := [], objs := d.opObjects m r e1 }

/-- The start of an op that has no body and advances no epoch. -/
theorem Dev.startOp_eq (hrep : hOpcode e.desc ≠ 0x04) (hcancel : hOpcode e.desc ≠ 0x26) : d.startOp m r e =
    { d.setRing r ((d.ring r).modEntry e.count (fun x => x.begun d m r e)).takeBuffers with started := d.started + 1 } := by
  simp only [Dev.startOp, beq_eq_false_iff_ne.2 hrep, beq_eq_false_iff_ne.2 hcancel, Bool.false_eq_true, if_false, List.contains_nil]
  rfl

theorem Dev.entry_startOp (he : d.entry r e.count = some e) (hrep : hOpcode e.desc ≠ 0x04) (hcancel : hOpcode e.desc ≠ 0x26) :
    (d.startOp m r e).entry r e.count = some (e.begun d m r e) := by
  have hbegun : ((d.ring r).modEntry e.count (fun x => x.begun d m r e)).entry e.count = some (e.begun d m r e) :=
    Ring.entry_modEntry_same (f := fun x => x.begun d m r e) (fun _ => rfl) he
  obtain ⟨b, hb⟩ := Ring.entry_takeBuffers _ hbegun
  rw [Dev.startOp_eq hrep hcancel]
  refine Eq.trans ?_ hb
  rw [Dev.entry]
  exact congrArg (fun g => Ring.entry g e.count) ((d.ring_setRing r r _).trans (if_pos rfl))

theorem Dev.ring_startOp_other (hrep : hOpcode e.desc ≠ 0x04) (hcancel : hOpcode e.desc ≠ 0x26) {k : Nat} (hk : k ≠ r) :
    (d.startOp m r e).ring k = d.ring k := by
  rw [Dev.startOp_eq hrep hcancel]
  exact (d.ring_setRing r k _).trans (if_neg hk)

end Start

/-- Settles O19. -/
theorem descriptorsAreFetchedAndStartInOrder : Obligations.DescriptorsAreFetchedAndStartInOrder := by
  refine fun s => ⟨fun r x hrun hup hhost hstop htail hfate => ?_,
    fun r prev e hstarts hold he hloop hdead hwait hbatch hrep hcancel horder hbuf hcheck hheld => ?_⟩
  · exact ⟨_, exec_descriptorFetch hrun hup hhost hstop htail hfate, rfl, fun k hk => (s.dev.ring_setRing _ _ _).trans (if_neg hk),
      (s.dev.ring_setRing _ _ _).trans (if_pos rfl)⟩
  · have hexec : exec (.descriptorStart r) s = answer s (s.dev.startOp s.mem r.val e) := by
      show answer s (if s.dev.ringStarts r.val then s.dev.startNext s.mem r.val else s.dev) = _
      rw [if_pos hstarts, Dev.startNext_eq hold hloop hdead hwait horder, Dev.startReady_eq hbatch hrep hbuf hcheck hheld]
    refine ⟨_, hexec, ?_, fun k hk => Dev.ring_startOp_other hrep hcancel hk,
      _, Dev.entry_startOp he hrep hcancel, rfl, rfl, rfl, rfl, rfl, rfl⟩
    rw [Dev.startOp_eq hrep hcancel]
    rfl

/-! ## Completion -/

section Complete

variable {d : Dev} {r : Nat} {c : W32} {e : Entry}

theorem Dev.completeOp_eq (hsig : hSignal e.desc = false) (hskip : hOpcode e.desc ≠ 0x05) :
    d.completeOp r e = (d.settle r e.count e.res e.ran e.start).freeDying := by
  simp [Dev.completeOp, Dev.headerSignal_of_none d r hsig, hskip]

theorem exec_opComplete {s : State} {r : RingNo} (he : s.dev.entry r.val c = some e) (hdone : e.phase = .done) :
    exec (.opComplete r c) s = answer s (s.dev.completeOp r.val e) := by
  show execOpComplete r c s = _
  simp [execOpComplete, he, hdone]

/-- OP_COMPLETE outside a loop (R65, R73). -/
theorem ends_opComplete {s : State} {r : RingNo} (he : s.dev.entry r.val c = some e) (hdone : e.phase = .done) (hbuf : e.buf = true)
    (hsig : hSignal e.desc = false) (hskip : hOpcode e.desc ≠ 0x05) (hloop : (s.dev.ring r.val).loop = none) :
    Ends (.opComplete r c) s (fun t =>
      t = { s with dev := { s.dev with rings := t.dev.rings, objects := t.dev.objects, dies := t.dev.dies } } ∧ OnlyRing r.val s t ∧
      (∃ e', t.dev.entry r.val c = some e' ∧ e'.phase = .completed ∧ e'.res = e.res ∧ e'.start = e.start ∧ e'.ran = e.ran) ∧
      (t.dev.ring r.val).finished = (s.dev.ring r.val).finished ++ [c]) := by
  have hrings : ((s.dev.settle r.val c e.res e.ran e.start).freeDying).rings = (s.dev.settle r.val c e.res e.ran e.start).rings :=
    Dev.freeDying_rings _
  obtain ⟨b, hb⟩ := Dev.entry_settle hloop he e.res e.ran e.start
  refine ⟨_, (exec_opComplete he hdone).trans (congrArg (answer s) (Dev.completeOp_eq hsig hskip)), ?_, ?_, ?_, ?_⟩
  · exact congrArg (fun x => ({ s with dev := x } : State)) (by apply Dev.ext <;> simp)
  all_goals rw [Dev.entry_count he]
  · exact fun k hk => (Dev.ring_congr hrings k).trans (Dev.ring_settle_other hloop he _ _ _ hk)
  · exact ⟨_, (Dev.entry_congr hrings _ _).trans hb, rfl, rfl, rfl, rfl⟩
  · refine (congrArg Ring.finished (Dev.ring_congr hrings r.val)).trans ?_
    rw [Dev.settle_of_no_loop hloop he, Dev.ring_setRing, if_pos rfl, if_pos hbuf]

end Complete

/-! ## Records and vectors -/

/-- A ring whose oldest record has been written: its descriptor has left, and buffer entries are free for others. -/
def Ring.popped (g : Ring) (c : W32) (rest : List W32) (now : Tick) : Ring :=
  Ring.takeBuffers { g with
    finished := rest, ents := g.ents.filter (fun x => x.count != c), cqTail := g.cqTail + 1, cntDone := g.cntDone + 1,
    sinceRaise := g.sinceRaise + 1, firstUnsignalled := g.firstUnsignalled <|> some now }

/-- The ring's vector is raised with the record of a descriptor: the descriptor asks for it, or it is the last of IRQ_COUNT records (R67). -/
def Ring.raises (g : Ring) (e : Entry) : Bool := hIrq e.desc || (g.irqCount != 0 && g.irqCount.toNat ≤ g.sinceRaise + 1)

/-- A device after the oldest record of a ring has been written. -/
def Dev.recorded (d : Dev) (r : Nat) (c : W32) (rest : List W32) (e : Entry) : Dev :=
  (d.setRing r ((d.ring r).popped c rest d.phys)).emit
    (.record r ((d.ring r).cqTail.toNat % 2 ^ (d.ring r).cqLog2.toNat) (recordOf r (d.ring r) e (d.ring r).cqTail))

section Records

variable {d : Dev} {r : Nat} {c : W32} {rest : List W32} {e : Entry}

/-- The record of a descriptor that did not fail. -/
theorem Dev.postRecord_eq (hr : r < 1024) (hfin : (d.ring r).finished = c :: rest) (he : d.entry r c = some e)
    (hroom : (d.ring r).room = true) (hclass : classOf e.res.status < 2) : d.postRecord r =
      if (d.ring r).raises e then (d.recorded r c rest e).raiseRing r else d.recorded r c rest e := by
  have hfailed : ¬ 2 ≤ classOf e.res.status := by omega
  simp only [Dev.postRecord, hfin, show (d.ring r).entry c = some e from he, hroom, if_true, hfailed, decide_false,
    Bool.false_eq_true, if_false, Nat.not_le.2 hr, Bool.false_and]
  rfl

theorem Ring.popped_counts (g : Ring) (c : W32) (rest : List W32) (now : Tick) :
    (g.popped c rest now).cqTail = g.cqTail + 1 ∧ (g.popped c rest now).cntDone = g.cntDone + 1 := by
  rw [Ring.popped, Ring.takeBuffers_eq]
  exact ⟨rfl, rfl⟩

theorem Dev.ring_raiseRing (d : Dev) (r k : Nat) : (d.raiseRing r).ring k =
    if k = r then { d.ring r with sinceRaise := 0, firstUnsignalled := none } else d.ring k :=
  (Dev.ring_congr (Dev.raise_rings _ _) k).trans (d.ring_modRing r k _)

theorem Dev.mem_out_raise {o : Output} (h : o ∈ d.out) (v : Nat) : o ∈ (d.raise v).out := by
  unfold Dev.raise
  split
  · exact List.mem_cons_of_mem _ h
  · exact h

theorem Dev.raise_sends (hopen : d.msixOpen = true) {v : Nat} (hmask : d.host.msixMask.getLsbD v = false) :
    d.raise v = d.emit (.msix v) := by simp [Dev.raise, hopen, hmask]

/-- RECORD_POST (R65, R98). -/
theorem ends_recordPost {s : State} {r : RingNo} (hr : r.val < 1024) (hposts : s.dev.ringPosts r.val = true)
    (hfin : (s.dev.ring r.val).finished = c :: rest) (he : s.dev.entry r.val c = some e) (hroom : (s.dev.ring r.val).room = true)
    (hclass : classOf e.res.status < 2) : Ends (.recordPost r true) s (fun t =>
      let g := s.dev.ring r.val
      Output.record r.val (g.cqTail.toNat % 2 ^ g.cqLog2.toNat) (recordOf r.val g e g.cqTail) ∈ t.dev.out ∧
      (g.sqLog2.toNat ≤ 16 → (recordOf r.val g e g.cqTail).toNat / 2 ^ 63 % 2 = 1 - g.cqTail.toNat / 2 ^ g.cqLog2.toNat % 2) ∧
      (t.dev.ring r.val).cqTail = g.cqTail + 1 ∧ (t.dev.ring r.val).cntDone = g.cntDone + 1 ∧ OnlyRing r.val s t ∧
      t = { s with dev := { s.dev with rings := t.dev.rings, host := t.dev.host, out := t.dev.out } }) := by
  have hpost := Dev.postRecord_eq hr hfin he hroom hclass
  have hexec : exec (.recordPost r true) s = answer s (s.dev.postRecord r.val) := by
    show execRecordPost r true s = _
    simp [execRecordPost, hposts, hfin, hroom]
  obtain ⟨htail, hdone⟩ := (s.dev.ring r.val).popped_counts c rest s.dev.phys
  have hring : ∀ k, (s.dev.recorded r.val c rest e).ring k =
      if k = r.val then (s.dev.ring r.val).popped c rest s.dev.phys else s.dev.ring k := fun k => s.dev.ring_setRing r.val k _
  rw [hpost] at hexec
  refine ⟨_, hexec, ?_, recordOf_phase _ _ _ _, ?_, ?_, fun k hk => ?_, congrArg (fun x => ({ s with dev := x } : State)) ?_⟩
  all_goals cases (s.dev.ring r.val).raises e
  all_goals simp only [Bool.false_eq_true, if_true, if_false, Dev.ring_raiseRing, hring]
  · exact List.mem_cons_self
  · exact Dev.mem_out_raise (d := (s.dev.recorded r.val c rest e).modRing r.val _) List.mem_cons_self _
  · exact htail
  · exact htail
  · exact hdone
  · exact hdone
  · exact if_neg hk
  · rw [if_neg hk, if_neg hk]
  · rfl
  · apply Dev.ext <;> simp [Dev.recorded]

end Records

theorem ends_ringIrqTimeout {s : State} {r : Fin 1024} {first : Tick} (hfirst : (s.dev.ring r.val).firstUnsignalled = some first)
    (hset : (s.dev.ring r.val).irqTimeout ≠ 0) (hpast : s.dev.past first (s.dev.ring r.val).irqTimeout.toNat = true) :
    Ends (.ringIrqTimeout r) s (fun t =>
      t = { s with dev := { s.dev with rings := t.dev.rings, host := t.dev.host, out := t.dev.out } } ∧ OnlyRing r.val s t ∧
      t.dev.ring r.val = { s.dev.ring r.val with sinceRaise := 0, firstUnsignalled := none } ∧
      (s.dev.msixOpen = true → s.dev.host.msixMask.getLsbD (s.dev.ring r.val).vector.toNat = false →
        t.dev.out = .msix (s.dev.ring r.val).vector.toNat :: s.dev.out)) := by
  have hexec : exec (.ringIrqTimeout r) s = answer s (s.dev.raiseRing r.val) :=
    congrArg (answer s) (if_pos (by rw [bne_iff_ne.2 hset, hfirst]; exact hpast))
  refine ⟨_, hexec, congrArg (fun x => ({ s with dev := x } : State)) (by apply Dev.ext <;> simp),
    fun k hk => (Dev.ring_raiseRing _ _ _).trans (if_neg hk), (Dev.ring_raiseRing _ _ _).trans (if_pos rfl), fun hopen hmask => ?_⟩
  exact congrArg Dev.out (Dev.raise_sends (d := s.dev.modRing r.val _) hopen hmask)

/-! ## Deadlines -/

section Deadline

variable {d : Dev} {r : Nat} {c : W32}

theorem Dev.decideWaiting_of_no_loop (hloop : (d.ring r).loop = none) (status : BitVec 16) (reason : Nat) :
    d.decideWaiting r c status reason = d.decideEntry r c status reason := by
  have hnone : (d.entry r c).filter (fun e => e.phase == .waiting && ((d.ring r).loopOf c).isSome) = none := by
    simp [Ring.loopOf, hloop]
  rw [Dev.decideWaiting, hnone]

theorem Dev.decideEntry_eq (d : Dev) (r : Nat) (c : W32) (status : BitVec 16) (reason : Nat) : d.decideEntry r c status reason =
    { d with rings := (d.decideEntry r c status reason).rings, tallies := (d.decideEntry r c status reason).tallies } := by
  apply Dev.ext <;> simp

theorem exec_deadlineReached {s : State} {r : RingNo} {e : Entry} (he : s.dev.entry r.val c = some e) :
    exec (.deadlineReached r c) s = answer s
      (if e.unstarted && deadlineReached s.dev.now e.desc && !s.dev.fixedBits && !(s.dev.ring r.val).covered c then
        s.dev.decideWaiting r.val c stDeadlineMissed 0 else s.dev) := by
  show execDeadlineReached r c s = _
  simp only [execDeadlineReached, he]

end Deadline

/-- Settles O20, a lemma for each command. -/
theorem opsCompleteAndTheirRecordsArePosted : Obligations.OpsCompleteAndTheirRecordsArePosted := by
  refine fun s => ⟨fun _ _ _ he hdone hbuf hsig hskip hloop => ends_opComplete he hdone hbuf hsig hskip hloop,
    fun _ _ _ _ hr hposts hfin he hroom hclass => ends_recordPost hr hposts hfin he hroom hclass,
    fun _ _ hfirst hset hpast => ends_ringIrqTimeout hfirst hset hpast,
    fun r c e he hun hop hdead hcov hloop => ⟨fun hfix => ?_, fun hfix => ?_⟩⟩
  · have hexec : exec (.deadlineReached r c) s = answer s (s.dev.decideEntry r.val c stDeadlineMissed 0) := by
      rw [exec_deadlineReached he, if_pos (by simp [hun, hdead, hfix, hcov]), Dev.decideWaiting_of_no_loop hloop]
    refine ⟨_, hexec, congrArg (fun x => ({ s with dev := x } : State)) (s.dev.decideEntry_eq _ _ _ _), ?_⟩
    rw [Dev.decideEntry, Dev.decideGo_of_no_body _ _ he hop]
    exact Dev.entry_decideOne stDeadlineMissed 0 he hun hloop (by decide)
  · exact ⟨s, (exec_deadlineReached he).trans (congrArg (answer s) (if_neg (by simp [hfix]))), rfl⟩

end Sys2Proof.Machine

/-! FENCE, TALLY_SIGNAL and TALLY_WAIT (R77 to R82, R95, Table 4.6). -/
namespace Sys2Proof.Machine

/-! ## FENCE -/

section Fence

variable {s : State} {r : RingNo} {e : Entry}

theorem exec_fence (hop : s.dev.op r.val e.count 0x01 = some e) : exec (.fence r e.count) s =
    answer s (if s.dev.fenceMet r.val e then s.dev.endOp r.val e .ok else s.dev) := by
  show execFence r e.count s = _
  simp only [execFence, hop]

end Fence

/-! ## TALLY_SIGNAL -/

/-- The count that a TALLY_SIGNAL leaves in its tally, before any waiter is served. -/
def signalCount (x : BitVec 512) (count : Word) : Word :=
  if fld x 18 1 = 0 then satAdd count (BitVec.ofNat 64 (fld x 24 8)) else BitVec.ofNat 64 (fld x 24 8)

/-- What a TALLY_SIGNAL reports. -/
def signalResult (x : BitVec 512) (count : Word) : Result :=
  if fld x 18 1 = 0 ∧ 2 ^ 64 ≤ count.toNat + (BitVec.ofNat 64 (fld x 24 8)).toNat then Result.fail stTallySaturated (fld x 16 2) else .ok

theorem toNat_satAdd (c v : Word) : (satAdd c v).toNat = min (2 ^ 64 - 1) (c.toNat + v.toNat) := by
  unfold satAdd
  split
  · rw [BitVec.toNat_allOnes]; omega
  · rw [BitVec.toNat_add]; omega

theorem toNat_signalCount (x : BitVec 512) (count : Word) : (signalCount x count).toNat =
    if fld x 18 1 = 0 then min (2 ^ 64 - 1) (count.toNat + (BitVec.ofNat 64 (fld x 24 8)).toNat)
    else (BitVec.ofNat 64 (fld x 24 8)).toNat := by
  unfold signalCount
  split
  · exact toNat_satAdd _ _
  · rfl

theorem exec_tallySignal {s : State} {r : RingNo} {e : Entry} (hop : s.dev.op r.val e.count 0x02 = some e) :
    exec (.tallySignal r e.count) s = answer s
      ((s.dev.setTallyCount (fld e.desc 16 2) (signalCount e.desc (s.dev.tally (fld e.desc 16 2)).count)).endOp r.val e
        (signalResult e.desc (s.dev.tally (fld e.desc 16 2)).count)) := by
  show execTallySignal r e.count s = _
  unfold signalCount signalResult
  by_cases h : fld e.desc 18 1 = 0 <;> simp [execTallySignal, hop, h, Dev.addTally]

/-! ## No waiter that is ready is left (R78) -/

section Waiters

variable {d u : Dev} {t : Nat}

theorem Dev.tooLate_eq (d : Dev) (w : Waiter) :
    d.tooLate w = (!d.fixedBits && ((d.entry w.ring w.count).map Entry.desc).any (deadlineReached d.now)) := by
  unfold Dev.tooLate
  cases d.entry w.ring w.count <;> rfl

theorem Dev.tooLate_congr (hfix : u.fixedBits = d.fixedBits) (hnow : u.now = d.now)
    (hdesc : ∀ r c, (u.entry r c).map Entry.desc = (d.entry r c).map Entry.desc) (w : Waiter) : u.tooLate w = d.tooLate w := by
  rw [Dev.tooLate_eq, Dev.tooLate_eq, hfix, hnow, hdesc]

theorem Dev.desc_modEntry (d : Dev) (r k : Nat) (c x : W32) {f : Entry → Entry} (hcount : ∀ e, (f e).count = e.count)
    (hdesc : ∀ e, (f e).desc = e.desc) : ((d.modEntry r c f).entry k x).map Entry.desc = (d.entry k x).map Entry.desc := by
  rw [d.entry_modEntry r k c x hcount]
  split
  · next h => rw [h.1, h.2, Option.map_map]; exact congrArg (fun g => (d.entry r c).map g) (funext hdesc)
  · rfl

theorem Dev.desc_take (d : Dev) (r k : Nat) (c x : W32) : ((d.take r c).entry k x).map Entry.desc = (d.entry k x).map Entry.desc := by
  unfold Dev.take
  split
  · exact d.desc_modEntry r k c x (fun _ => rfl) (fun _ => rfl)
  · rfl

theorem Dev.desc_endOp (d : Dev) (r k : Nat) (e : Entry) (res : Result) (x : W32) :
    ((d.endOp r e res).entry k x).map Entry.desc = (d.entry k x).map Entry.desc :=
  ((Dev.desc_modEntry _ r k e.count x (fun x => by split <;> rfl) (fun x => by split <;> rfl)).trans (Dev.desc_take _ r k e.count x)).trans
    (congrArg (Option.map Entry.desc) (Dev.entry_congr (d.account_rings _ _ _ _ _) k x))

theorem Dev.tooLate_endOp (d : Dev) (r : Nat) (e : Entry) (res : Result) (w : Waiter) : (d.endOp r e res).tooLate w = d.tooLate w :=
  Dev.tooLate_congr (by simp) (by simp) (fun _ _ => d.desc_endOp r _ e res _) w

/-- Every waiter of the tally has a condition that does not hold, or comes too late. -/
def Dev.NoneReady (d : Dev) (t : Nat) : Prop :=
  ∀ w ∈ (d.tally t).waiters, w.holds (d.tally t).count = false ∨ d.tooLate w = true

theorem Dev.noneReady_of_none (h : d.nextWaiter t = none) : d.NoneReady t := fun w hw => by
  have hnot := List.find?_eq_none.1 h w hw
  cases hholds : w.holds (d.tally t).count with
  | false => exact Or.inl rfl
  | true => exact Or.inr (by simpa [hholds] using hnot)

/-- Each waiter that is served leaves the list, so as many services as waiters are enough. -/
theorem Dev.noneReady_scanTally (n : Nat) : ∀ {d : Dev}, (d.tally t).waiters.length ≤ n → (Dev.scanTally n d t).NoneReady t := by
  induction n with
  | zero =>
    intro d h w hw
    rw [Dev.scanTally, List.length_eq_zero_iff.1 (Nat.le_zero.1 h)] at hw
    exact absurd hw List.not_mem_nil
  | succ n ih =>
    intro d h
    cases hw : d.nextWaiter t with
    | none => rw [Dev.scanTally_of_none hw]; exact Dev.noneReady_of_none hw
    | some w =>
      rw [Dev.scanTally_of_some hw]
      have hlt := d.waiters_serveFirst_length t w (List.mem_of_find?_eq_some hw)
      exact ih (by omega)

theorem Dev.noneReady_setTallyCount (d : Dev) (t : Nat) (v : Word) : (d.setTallyCount t v).NoneReady t :=
  Dev.noneReady_scanTally _ le_rfl

theorem Dev.waiters_setTallyCount (d : Dev) (t : Nat) (v : Word) : ∀ w ∈ ((d.setTallyCount t v).tally t).waiters, w ∈ (d.tally t).waiters :=
  Dev.scanTally_induct (P := fun u => ∀ w ∈ (u.tally t).waiters, w ∈ (d.tally t).waiters)
    (fun u w hu _ x hx => hu x (u.waiters_serveFirst t w hx)) _
    (fun w hw => by rwa [Dev.tally_setTally, if_pos rfl] at hw)

theorem Dev.tally_setTallyCount_other (d : Dev) {t k : Nat} (v : Word) (h : k ≠ t) : (d.setTallyCount t v).tally k = d.tally k :=
  Dev.scanTally_induct (P := fun u => u.tally k = d.tally k) (fun u w hu _ => (u.tally_serveFirst_other t w h).trans hu) _
    ((d.tally_setTally t k _).trans (if_neg h))

end Waiters

/-- Settles O25: serving ends with none ready, and the end of the op changes no tally and no descriptor's deadline. -/
theorem noReadyWaiterIsLeft : Obligations.NoReadyWaiterIsLeft := by
  intro s r c e hop
  obtain ⟨he, rfl, -, -⟩ := Dev.op_eq_some hop
  have htally : ∀ (d : Dev) (res : Result) (k : Nat), (d.endOp r.val e res).tally k = d.tally k := fun d res =>
    Dev.tally_congr (Dev.endOp_tallies _ _ _ _ _)
  refine ⟨_, exec_tallySignal hop, fun w hw => ?_, fun w hw => ?_, fun k hk => (htally _ _ k).trans (s.dev.tally_setTallyCount_other _ hk)⟩
  · rw [htally] at hw ⊢
    rw [Dev.tooLate_endOp]
    exact Dev.noneReady_setTallyCount _ _ _ w hw
  · rw [htally] at hw
    exact s.dev.waiters_setTallyCount _ _ w hw

/-! ## Tallies that no descriptor waits on -/

section NoWaiter

variable {d : Dev} {t : Nat}

theorem Dev.serveTally_of_no_waiter (h : (d.tally t).waiters = []) : d.serveTally t = d := by
  rw [Dev.serveTally, h]
  rfl

theorem Dev.setTallyCount_of_no_waiter (h : (d.tally t).waiters = []) (v : Word) :
    d.setTallyCount t v = d.setTally t { d.tally t with count := v } :=
  Dev.serveTally_of_no_waiter (by rw [Dev.tally_setTally, if_pos rfl]; exact h)

theorem Dev.tally_setTally_same (d : Dev) (t : Nat) (y : Tally) : (d.setTally t y).tally t = y := by rw [Dev.tally_setTally, if_pos rfl]

theorem Dev.tally_setTally_other (d : Dev) {t k : Nat} (y : Tally) (h : k ≠ t) : (d.setTally t y).tally k = d.tally k := by
  rw [Dev.tally_setTally, if_neg h]

/-- A wait whose condition holds, on a tally with no waiter: the descriptor is served, its consume applied. -/
theorem Dev.askTally_of_holds {w : Waiter} (h : (d.tally t).waiters = []) (hholds : w.holds (d.tally t).count = true)
    (hlate : d.tooLate w = false) :
    d.askTally t w = (d.setTally t { d.tally t with count := (d.tally t).count - w.consume }).serve w := by
  rw [Dev.askTally, if_pos (by rw [hholds, hlate]; rfl)]
  refine Dev.serveTally_of_no_waiter ?_
  rw [Dev.tally_congr (Dev.serve_tallies _ w), Dev.tally_setTally_same]
  exact h

theorem Dev.askTally_of_not_holds {w : Waiter} (h : (d.tally t).waiters = []) (hholds : w.holds (d.tally t).count = false) :
    d.askTally t w = d.setTally t { d.tally t with waiters := [w] } := by
  simp [Dev.askTally, hholds, h]

theorem Dev.entry_serve_started {w : Waiter} {e : Entry} (he : d.entry w.ring w.count = some e) (hs : e.phase = .started) :
    (d.serve w).entry w.ring w.count = some { e with waitMet := true, phase := .done, ran := true } := by
  rw [Dev.serve, d.entry_modEntry_same _ _ (fun x => by split <;> rfl), he, Option.map_some]
  simp [hs]

end NoWaiter

/-! ## TALLY_WAIT -/

/-- The wait that a TALLY_WAIT asks for. -/
def waitOf (r : Nat) (e : Entry) : Waiter :=
  { ring := r, count := e.count, exact := fld e.desc 18 1 == 1, target := BitVec.ofNat 64 (fld e.desc 24 8),
    consume := BitVec.ofNat 64 (fld e.desc 32 8) }

theorem waitOf_holds_iff (r : Nat) (e : Entry) (count : Word) : (waitOf r e).holds count = true ↔
    if fld e.desc 18 1 = 1 then count = BitVec.ofNat 64 (fld e.desc 24 8) else BitVec.ofNat 64 (fld e.desc 24 8) ≤ count := by
  by_cases h : fld e.desc 18 1 = 1
  · simp [Waiter.holds, waitOf, h]
  · simp only [Waiter.holds, waitOf, beq_eq_false_iff_ne.2 h, h, Bool.false_eq_true, if_false]
    exact decide_eq_true_iff

section TallyWait

variable {s : State} {r : RingNo} {e : Entry}

theorem exec_tallyWait (hop : s.dev.op r.val e.count 0x03 = some e) : exec (.tallyWait r e.count) s = answer s
    (if deadlineReached s.dev.now e.desc && !s.dev.fixedBits then s.dev.decideEntry r.val e.count stDeadlineMissed 0
     else s.dev.askTally (fld e.desc 16 2) (waitOf r.val e)) := by
  show execTallyWait r e.count s = _
  simp only [execTallyWait, hop]
  rfl

theorem tooLate_waitOf (he : s.dev.entry r.val e.count = some e) :
    s.dev.tooLate (waitOf r.val e) = (deadlineReached s.dev.now e.desc && !s.dev.fixedBits) := by
  rw [Dev.tooLate_eq, show s.dev.entry (waitOf r.val e).ring (waitOf r.val e).count = some e from he, Bool.and_comm]
  rfl

end TallyWait

end Sys2Proof.Machine

/-! SKIP_IF and REPEAT_BY (R84 to R88, Tables 4.7, 4.8). -/
namespace Sys2Proof.Machine

/-! ## SKIP_IF -/

/-- The conditions of Table 4.7, as propositions. -/
def SkipCond (cond : Nat) (a b : Word) : Prop :=
  match cond with
  | 0 => a = b | 1 => a ≠ b | 2 => a < b | 3 => b ≤ a | 4 => a.toInt < b.toInt | _ => b.toInt ≤ a.toInt

theorem skipHolds_iff (cond : Nat) (a b : Word) : skipHolds cond a b = true ↔ SkipCond cond a b := by
  unfold skipHolds SkipCond
  split <;> simp [BitVec.ult, BitVec.slt, BitVec.lt_def, BitVec.le_def]

theorem ofNat_b2n_iff (x : Bool) : (BitVec.ofNat 16 (b2n x) = 1 ↔ x = true) ∧ (BitVec.ofNat 16 (b2n x) = 0 ↔ ¬ x = true) := by
  cases x <;> decide

section SkipIf

variable {s : State} {r : RingNo} {e : Entry}

/-- SKIP_IF's comparison of the value at its address. -/
def Dev.skipHit (d : Dev) (m : Memory) (a : Nat) (x : BitVec 512) : Bool :=
  skipHolds (fld x 40 1) (BitVec.ofNat 64 (d.readNat m a 8) &&& BitVec.ofNat 64 (fld x 24 8)) (BitVec.ofNat 64 (fld x 32 8))

theorem exec_skipIf {p : Place} (hop : s.dev.op r.val e.count 0x05 = some e) (hp : s.dev.access r.val e 16 8 8 = .ok p)
    (hneeds : e.admitted (s.dev.deepNeeds [(p.addr, 8)] []) = true) : exec (.skipIf r e.count) s = answer s
      ((s.dev.engineRead p.addr 8).endOp r.val e
        { Result.ok with reason := BitVec.ofNat 16 (b2n (s.dev.skipHit s.mem p.addr e.desc)), deep := s.dev.deepBytes p.addr 8 }) := by
  show execSkipIf r e.count s = _
  simp only [execSkipIf, hop, hp, begun_of_admitted (Dev.op_eq_some hop).1 hneeds]
  rfl

end SkipIf

/-! ## A REPEAT_BY whose body does not run -/

/-- A started descriptor outside any loop that waits on no tally: what is decided around it leaves it, but for a buffer entry. -/
structure Dev.Stands (d : Dev) (r : Nat) (c : W32) (e : Entry) : Prop where
  entry : ∃ b, d.entry r c = some { e with buf := b }
  loop : (d.ring r).loop = none
  free : d.Unawaited r c

section Stands

variable {d : Dev} {r : Nat} {c : W32} {e : Entry}

theorem Dev.Stands.decideOne (hun : e.unstarted = false) (h : d.Stands r c e) (x : W32) (status : BitVec 16) (reason : Nat) :
    (d.decideOne r x status reason).Stands r c e := by
  cases hx : d.entry r x with
  | none => simpa only [Dev.decideOne, hx] using h
  | some y =>
    cases hy : y.unstarted with
    | false => simpa only [Dev.decideOne, hx, hy, Bool.false_eq_true, if_false] using h
    | true =>
      obtain ⟨b, hb⟩ := h.entry
      have hne : c ≠ x := by
        rintro rfl
        rw [hx, Option.some_inj] at hb
        rw [hb] at hy
        exact absurd (hun.symm.trans hy) (by decide)
      have hspares := d.spares_leave_signal r x y.desc (Result.fail status reason)
      have hkeeps := (h.free.leaveTallies r x).headerSignal r y.desc (Result.fail status reason)
      have hloop := hspares.loop.trans h.loop
      have hentry := hspares.entry.trans hx
      rw [Dev.decideOne_of_unstarted status reason hx hy]
      refine ⟨?_, Dev.loop_settle hloop hentry _ _ _, hkeeps.free.congr (Dev.settle_tallies _ _ _ _ _ _)⟩
      obtain ⟨b', hb'⟩ := Dev.entry_settle_other hloop hentry ((d.leaveTallies r x).headerSignal r y.desc (Result.fail status reason)).2
        false d.now hne ((hkeeps.entry.trans (Dev.entry_congr (d.leaveTallies_rings r x) r c)).trans hb)
      exact ⟨b', hb'⟩

theorem Dev.Stands.withOrphans (h : d.Stands r c e) (o : Nat → Nat × BitVec 16) :
    (d.modRing r (fun g => { g with orphans := o g.orphans.1 })).Stands r c e where
  entry := by rw [Dev.entry, Dev.ring_modRing_same]; exact h.entry
  loop := by rw [Dev.ring_modRing_same]; exact h.loop
  free := h.free

theorem Dev.Stands.decideGo (hun : e.unstarted = false) (n : Nat) : ∀ {d : Dev}, d.Stands r c e → ∀ (x : W32) (status : BitVec 16)
    (reason : Nat), (d.decideGo n r x status reason).Stands r c e := by
  induction n with
  | zero => exact fun h => h.decideOne hun
  | succ n ih =>
    intro d h x status reason
    rw [Dev.decideGo]
    split
    · exact h
    · split
      · refine List.foldlRecOn (motive := fun u : Dev => u.Stands r c e) _ _ ?_ fun u hu y _ => ih hu y _ _
        have hone := h.decideOne hun x status reason
        split
        · exact hone.withOrphans fun k => (max k _, _)
        · exact hone
      · exact h

/-- The REPEAT_BY itself ends with its own result, whatever its body is decided with. -/
theorem Dev.Stands.noBody (hs : e.phase = .started) (hop : hOpcode e.desc = 0x04) (h : d.Stands r e.count e) (status : BitVec 16)
    (res : Result) : ∃ b, (d.noBody r e status res).entry r e.count = some { e.doneWith res with buf := b } := by
  have hun : e.unstarted = false := by simp [Entry.unstarted, hs, hop]
  have hengine : engineOf (hOpcode e.desc) = none := by rw [hop]; rfl
  have hfold : ((((d.ring r).bodyOf e).map (fun x => x.count)).foldl (fun d c => d.decideEntry r c status 0) d).Stands r e.count e :=
    List.foldlRecOn (motive := fun u : Dev => u.Stands r e.count e) _ _ h fun u hu y _ => hu.decideGo hun 32 y status 0
  obtain ⟨b, hb⟩ := hfold.entry
  exact ⟨b, Dev.entry_endOp (e := { e with buf := b }) hb hengine res hs⟩

end Stands

/-! ## REPEAT_BY -/

section RepeatBy

variable {s : State} {r : RingNo} {e : Entry}

/-- What a REPEAT_BY reports of the read of its count. -/
def Dev.countRead (d : Dev) (a : Nat) : Result := { Result.ok with deep := d.deepBytes a 4 }

/-- The loop that a REPEAT_BY starts for a count (R85, R86). -/
def loopOfCount (e : Entry) (n : Nat) : Loop :=
  { base := e.count, len := fld e.desc 28 2, trips := min n (fld e.desc 24 4), iter := 0,
    strides := (List.range 4).map (fun i => BitVec.ofNat 64 (fld e.desc (32 + 8 * i) 8)),
    ending := false, clamped := decide (fld e.desc 24 4 < n), iterations := 0 }

/-- The REPEAT_BY notes what it read, and the loop runs. -/
def Dev.startLoop (d : Dev) (r : Nat) (c : W32) (res : Result) (l : Loop) : Dev :=
  (d.modEntry r c (fun x => { x with res := res })).modRing r (fun g => { g with loop := some l })

theorem exec_repeatBy {p : Place} (hop : s.dev.op r.val e.count 0x04 = some e) (hloop : (s.dev.ring r.val).loop = none)
    (hp : s.dev.access r.val e 16 4 4 = .ok p) (hneeds : e.admitted (s.dev.deepNeeds [(p.addr, 4)] []) = true)
    (hstop : (s.dev.ring r.val).stopped = false) : exec (.repeatBy r e.count) s = answer s
      (if s.dev.readNat s.mem p.addr 4 = 0 then (s.dev.engineRead p.addr 4).noBody r.val e stSkipped (s.dev.countRead p.addr)
       else ((s.dev.engineRead p.addr 4).account (s.dev.claimOf r.val) 0 (s.dev.countRead p.addr).deep 0 0).startLoop r.val e.count
          (s.dev.countRead p.addr) (loopOfCount e (s.dev.readNat s.mem p.addr 4))) := by
  have hring : (s.dev.engineRead p.addr 4).ring r.val = s.dev.ring r.val := Dev.ring_congr (Dev.engineRead_rings _ _ _) _
  have hclaim : (s.dev.engineRead p.addr 4).claimOf r.val = s.dev.claimOf r.val := congrArg (fun g => g.claim.toNat) hring
  show execRepeatBy r e.count s = _
  simp only [execRepeatBy, hop, Option.filter_some, hloop, Option.isNone_none, if_true, hp,
    begun_of_admitted (Dev.op_eq_some hop).1 hneeds, hring, hstop, Bool.false_eq_true, if_false, hclaim]
  split <;> rfl

theorem Dev.worksTo_startLoop (d : Dev) (r : Nat) (c : W32) (res : Result) (l : Loop) : d.WorksTo (d.startLoop r c res l) := rfl

theorem Dev.ring_startLoop (d : Dev) (r : Nat) (c : W32) (res : Result) (l : Loop) : (d.startLoop r c res l).ring r =
    { (d.ring r).modEntry c (fun x => { x with res := res }) with loop := some l } := by
  rw [Dev.startLoop, Dev.ring_modRing_same, Dev.modEntry, Dev.ring_modRing_same]

theorem Dev.ring_startLoop_other (d : Dev) {r k : Nat} (c : W32) (res : Result) (l : Loop) (hk : k ≠ r) :
    (d.startLoop r c res l).ring k = d.ring k :=
  (Dev.ring_modRing_other _ _ hk).trans (Dev.ring_modRing_other _ _ hk)

theorem Dev.entry_startLoop {d : Dev} {r : Nat} {c : W32} (he : d.entry r c = some e) (res : Result) (l : Loop) :
    (d.startLoop r c res l).entry r c = some { e with res := res } := by
  rw [Dev.entry, Dev.ring_startLoop]
  exact Ring.entry_modEntry_same (f := fun x => { x with res := res }) (fun _ => rfl) he

end RepeatBy

/-! ## The end of a loop -/

section EndLoop

variable {g : Ring} {l : Loop} {e x : Entry} {t : Total} {now : Tick} {skew : Word}

theorem Loop.not_body_base (l : Loop) : l.body l.base = false := by simp [Loop.body]

theorem Entry.fold_status (hstatus : e.res.status = 0) (htotal : e.total.all (fun k => k.all.status == 0) = true) :
    e.fold.all.status = 0 := by
  cases ht : e.total with
  | none => simpa [Entry.fold, ht] using hstatus
  | some t =>
    have hall : t.all.status = 0 := by simpa [ht] using htotal
    simp [Entry.fold, ht, Result.plus, Result.meet, hstatus, hall]

theorem Ring.body_modEntry {b : Entry} {f : Entry → Entry} (hf : ∀ x, (f x).count = x.count)
    (hbody : g.ents.filter (fun x => l.body x.count) = [b]) :
    (g.modEntry b.count f).ents.filter (fun x => l.body x.count) = [f b] := by
  have hcount : ∀ x : Entry, (if x.count == b.count then f x else x).count = x.count := fun x => by split <;> simp [hf]
  rw [Ring.modEntry, List.filter_map,
    show (fun x : Entry => l.body x.count) ∘ (fun e => if e.count == b.count then f e else e) = fun x => l.body x.count from
      funext fun x => congrArg l.body (hcount x), hbody]
  simp

/-- A loop of one body descriptor that did not fail ends (R87, R88): its REPEAT_BY is done with the iterations as its REASON. -/
theorem Ring.entry_endLoop (hbase : g.entry l.base = some e) (hbody : g.ents.filter (fun x => l.body x.count) = [x])
    (hend : l.ending = false) (ht : x.total = some t) (hclass : classOf t.all.status ≠ 3) :
    ∃ own : Result, (g.endLoop l now skew).entry l.base = some { e with phase := .done, res := own } ∧
      own.status = (if l.clamped then stTripClamped else stOk) ∧ own.reason = sat16 l.iterations := by
  have hfailed : x.failed = false := by simp [Entry.failed, ht, hclass]
  have hentry : ({ g with
      ents := g.ents.map (fun (y : Entry) => if l.body y.count then
        { y with phase := .completed, res := (y.report false now).2.1, fin := now - (skew - y.skew), start := (y.report false now).1,
                 ran := (y.report false now).2.2 } else y),
      finished := g.finished ++ [x.count], loop := none } : Ring).entry l.base = some e := by
    rw [Ring.entry_of_map (g := g) (fun y => by split <;> rfl) rfl, hbase, Option.map_some, Ring.entry_count hbase,
      l.not_body_base]
    rfl
  simp only [Ring.endLoop, hbody, hend, hfailed, List.any_cons, List.any_nil, Bool.or_false, List.map_cons, List.map_nil]
  exact ⟨_, Ring.entry_modEntry_same (fun _ => rfl) hentry, by simp [Entry.report, ht, hclass], rfl⟩

end EndLoop

/-! ## The last iteration of a loop -/

section LastIteration

variable {d : Dev} {r : Nat} {l : Loop} {b e : Entry}

/-- A body descriptor as it completes its part of an iteration (R87). -/
def Entry.closed (x : Entry) (d : Dev) (res : Result) (ran : Bool) (start : Tick) : Entry :=
  { x.settled d res ran start with total := some (x.settled d res ran start).fold }

theorem Dev.settle_of_body {c : W32} (hloop : ((d.ring r).loopOf c).isSome = true) (res : Result) (ran : Bool) (start : Tick) :
    d.settle r c res ran start =
      d.setRing r (((d.ring r).modEntry c (fun x => x.closed d res ran start)).loopStep d.now d.skew) := by
  simp only [Dev.settle, hloop, if_true]
  rfl

theorem Ring.loopStep_last {g : Ring} (hloop : g.loop = some l) (hbody : g.ents.filter (fun x => l.body x.count) = [b])
    (hdone : b.phase = .completed) (hran : b.ran = true) (hlast : l.trips ≤ l.iter + 1) (now : Tick) (skew : Word) :
    g.loopStep now skew = g.endLoop { l with iterations := l.iterations + 1 } now skew := by
  simp only [Ring.loopStep, hloop, hbody, List.all_cons, List.all_nil, hdone, beq_self_eq_true, Bool.and_true, if_true, List.any_cons,
    List.any_nil, hran, Bool.or_false, decide_eq_true hlast, Bool.or_true]
  rfl

/-- The one body descriptor of the last iteration completes OK: the REPEAT_BY is done (R87). -/
theorem Dev.entry_completeOp_last (hloop : (d.ring r).loop = some l) (hend : l.ending = false) (hlast : l.trips ≤ l.iter + 1)
    (he : d.entry r l.base = some e) (hbody : (d.ring r).ents.filter (fun x => l.body x.count) = [b]) (hran : b.ran = true)
    (hstatus : b.res.status = 0) (hskip : hOpcode b.desc ≠ 0x05) (hsig : hSignal b.desc = false)
    (htotal : b.total.all (fun k => k.all.status == 0) = true) : ∃ own : Result,
      (d.completeOp r b).entry r l.base = some { e with phase := .done, res := own } ∧
      own.status = (if l.clamped then stTripClamped else stOk) ∧ own.reason = sat16 (l.iterations + 1) := by
  have hb : l.body b.count = true := by
    have hmem : b ∈ (d.ring r).ents.filter (fun x => l.body x.count) := by rw [hbody]; exact List.mem_singleton_self b
    exact (List.mem_filter.1 hmem).2
  have hne : l.base ≠ b.count := fun h => by rw [← h, l.not_body_base] at hb; exact Bool.noConfusion hb
  have hin : ((d.ring r).loopOf b.count).isSome = true := by simp [Ring.loopOf, hloop, hb]
  have hfold : (b.settled d b.res b.ran b.start).fold.all.status = 0 :=
    Entry.fold_status (e := b.settled d b.res b.ran b.start) hstatus htotal
  have hclosed := Ring.body_modEntry (f := fun x => x.closed d b.res b.ran b.start) (fun _ => rfl) hbody
  have hbase : ((d.ring r).modEntry b.count (fun x => x.closed d b.res b.ran b.start)).entry l.base = some e :=
    (Ring.entry_modEntry_other (f := fun x => x.closed d b.res b.ran b.start) (fun _ => rfl) hne).trans he
  obtain ⟨own, hentry, hown⟩ := Ring.entry_endLoop (l := { l with iterations := l.iterations + 1 }) (now := d.now) (skew := d.skew)
    hbase hclosed hend rfl (by rw [hfold]; decide)
  refine ⟨own, Eq.trans ?_ hentry, hown⟩
  rw [Dev.completeOp_eq hsig hskip, Dev.entry_congr (Dev.freeDying_rings _), Dev.settle_of_body hin, Dev.entry, Dev.ring_setRing,
    if_pos rfl,
    Ring.loopStep_last (g := (d.ring r).modEntry b.count (fun x => x.closed d b.res b.ran b.start)) hloop hclosed rfl hran hlast]

end LastIteration

end Sys2Proof.Machine

/-! The control ops of chapter 4 (R77 to R88), a lemma for each outcome that `Obligations.ControlOpsDoTheirWork` names. -/
namespace Sys2Proof.Machine

/-- What a control op leaves: the frame of an op's work, tallies apart, and every other ring. -/
def ControlFrame (s : State) (r : Nat) (t : State) : Prop :=
  t = { s with dev := { s.dev.worked t.dev with tallies := t.dev.tallies } } ∧ OnlyRing r s t

section ControlOps

variable {s : State} {r : RingNo} {e : Entry}

/-- The frame of an op that does some work, which changes no ring, and then ends. -/
theorem controlFrame_endOp {d : Dev} (hwork : s.dev.WorksTo d) (hrings : d.rings = s.dev.rings)
    (he : s.dev.entry r.val e.count = some e) (hop : engineOf (hOpcode e.desc) = none) (res : Result) :
    ControlFrame s r.val { s with dev := d.endOp r.val e res } :=
  ⟨(hwork.trans (Dev.worksTo_endOp _ _ _ _)).state, fun k hk =>
    (Dev.ring_endOp_other ((Dev.entry_congr hrings _ _).trans he) hop res hk).trans (Dev.ring_congr hrings k)⟩

theorem entry_endOp_of_rings {d : Dev} (hrings : d.rings = s.dev.rings) (he : s.dev.entry r.val e.count = some e)
    (hop : engineOf (hOpcode e.desc) = none) (hs : e.phase = .started) (res : Result) :
    (d.endOp r.val e res).entry r.val e.count = some (e.doneWith res) :=
  Dev.entry_endOp ((Dev.entry_congr hrings _ _).trans he) hop res hs

/-! ## FENCE (R82) -/

theorem ends_fence_met (hop : s.dev.op r.val e.count 0x01 = some e) (hmet : s.dev.fenceMet r.val e = true) :
    Ends (.fence r e.count) s (fun t => ControlFrame s r.val t ∧ t.dev.entry r.val e.count = some (e.doneWith .ok)) := by
  obtain ⟨he, -, hs, hcode⟩ := Dev.op_eq_some hop
  have hengine : engineOf (hOpcode e.desc) = none := by rw [hcode]; rfl
  exact ⟨_, (exec_fence hop).trans (congrArg (answer s) (if_pos hmet)), controlFrame_endOp s.dev.worksTo_refl rfl he hengine _,
    entry_endOp_of_rings rfl he hengine hs _⟩

theorem ends_fence_waits (hop : s.dev.op r.val e.count 0x01 = some e) (hmet : s.dev.fenceMet r.val e = false) :
    Ends (.fence r e.count) s (fun t => t = s) :=
  ⟨s, (exec_fence hop).trans (congrArg (answer s) (if_neg (by simp [hmet]))), rfl⟩

/-! ## TALLY_SIGNAL (R80) -/

theorem ends_tallySignal (hop : s.dev.op r.val e.count 0x02 = some e) (hnone : (s.dev.tally (fld e.desc 16 2)).waiters = []) :
    Ends (.tallySignal r e.count) s (fun t => ControlFrame s r.val t ∧
      (∀ k, k ≠ fld e.desc 16 2 → t.dev.tally k = s.dev.tally k) ∧ (t.dev.tally (fld e.desc 16 2)).waiters = [] ∧
      (t.dev.tally (fld e.desc 16 2)).count = signalCount e.desc (s.dev.tally (fld e.desc 16 2)).count ∧
      t.dev.entry r.val e.count = some (e.doneWith (signalResult e.desc (s.dev.tally (fld e.desc 16 2)).count))) := by
  obtain ⟨he, -, hs, hcode⟩ := Dev.op_eq_some hop
  have hengine : engineOf (hOpcode e.desc) = none := by rw [hcode]; rfl
  obtain ⟨y, hy⟩ : ∃ y : Tally, y = { s.dev.tally (fld e.desc 16 2) with
      count := signalCount e.desc (s.dev.tally (fld e.desc 16 2)).count } := ⟨_, rfl⟩
  have hexec := exec_tallySignal hop
  rw [Dev.setTallyCount_of_no_waiter hnone, ← hy] at hexec
  have htally : ∀ (res : Result) (k : Nat), ((s.dev.setTally (fld e.desc 16 2) y).endOp r.val e res).tally k =
      if k = fld e.desc 16 2 then y else s.dev.tally k := fun res k =>
    (Dev.tally_congr (Dev.endOp_tallies _ _ _ _ _) k).trans (s.dev.tally_setTally _ k y)
  have hsame := (htally (signalResult e.desc (s.dev.tally (fld e.desc 16 2)).count) _).trans (if_pos rfl)
  exact ⟨_, hexec, controlFrame_endOp (s.dev.worksTo_setTally _ _) rfl he hengine _, fun k hk => (htally _ k).trans (if_neg hk),
    (congrArg Tally.waiters hsame).trans ((congrArg Tally.waiters hy).trans hnone),
    (congrArg Tally.count hsame).trans (congrArg Tally.count hy), entry_endOp_of_rings (s.dev.setTally_rings _ y) he hengine hs _⟩

/-! ## TALLY_WAIT (R78, R95) -/

section TallyWait

variable (hop : s.dev.op r.val e.count 0x03 = some e) (hnone : (s.dev.tally (fld e.desc 16 2)).waiters = [])

include hop hnone in
theorem ends_tallyWait_holds (hlate : (deadlineReached s.dev.now e.desc && !s.dev.fixedBits) = false)
    (hholds : (waitOf r.val e).holds (s.dev.tally (fld e.desc 16 2)).count = true) :
    Ends (.tallyWait r e.count) s (fun t => ControlFrame s r.val t ∧ (∀ k, k ≠ fld e.desc 16 2 → t.dev.tally k = s.dev.tally k) ∧
      (t.dev.tally (fld e.desc 16 2)).count = (s.dev.tally (fld e.desc 16 2)).count - BitVec.ofNat 64 (fld e.desc 32 8) ∧
      (t.dev.tally (fld e.desc 16 2)).waiters = [] ∧
      ∃ e', t.dev.entry r.val e.count = some e' ∧ e'.phase = .done ∧ e'.res = e.res ∧ e'.ran = true) := by
  obtain ⟨he, -, hs, -⟩ := Dev.op_eq_some hop
  have hexec := exec_tallyWait hop
  rw [hlate, if_neg Bool.false_ne_true, Dev.askTally_of_holds hnone hholds ((tooLate_waitOf he).trans hlate)] at hexec
  have htally : ∀ (y : Tally) (k : Nat), ((s.dev.setTally (fld e.desc 16 2) y).serve (waitOf r.val e)).tally k =
      if k = fld e.desc 16 2 then y else s.dev.tally k := fun y k =>
    (Dev.tally_congr (Dev.serve_tallies _ _) k).trans (s.dev.tally_setTally _ k y)
  refine ⟨_, hexec, ⟨rfl, fun k hk => Dev.ring_modRing_other (s.dev.setTally _ _) _ hk⟩, fun k hk => (htally _ k).trans (if_neg hk),
    ?_, ?_, _, Dev.entry_serve_started (d := s.dev.setTally _ _) (w := waitOf r.val e) he hs, rfl, rfl, rfl⟩
  all_goals rw [htally, if_pos rfl]
  · rfl
  · exact hnone

include hop hnone in
theorem ends_tallyWait_waits (hlate : (deadlineReached s.dev.now e.desc && !s.dev.fixedBits) = false)
    (hholds : (waitOf r.val e).holds (s.dev.tally (fld e.desc 16 2)).count = false) :
    Ends (.tallyWait r e.count) s (fun t => ControlFrame s r.val t ∧ (∀ k, k ≠ fld e.desc 16 2 → t.dev.tally k = s.dev.tally k) ∧
      (t.dev.tally (fld e.desc 16 2)).count = (s.dev.tally (fld e.desc 16 2)).count ∧
      (t.dev.tally (fld e.desc 16 2)).waiters.map (fun w => (w.ring, w.count)) = [(r.val, e.count)] ∧
      t.dev.entry r.val e.count = some e) := by
  have hexec := exec_tallyWait hop
  rw [hlate, if_neg Bool.false_ne_true, Dev.askTally_of_not_holds hnone hholds] at hexec
  refine ⟨_, hexec, ⟨rfl, fun _ _ => rfl⟩, fun k hk => Dev.tally_setTally_other _ _ hk, ?_, ?_, (Dev.op_eq_some hop).1⟩
  all_goals rw [Dev.tally_setTally_same]
  rfl

include hop in
theorem ends_tallyWait_late (hlate : (deadlineReached s.dev.now e.desc && !s.dev.fixedBits) = true)
    (hloop : (s.dev.ring r.val).loop = none) (hsig : hSignal e.desc = false) :
    Ends (.tallyWait r e.count) s (fun t => ControlFrame s r.val t ∧
      ∃ e', t.dev.entry r.val e.count = some e' ∧ e'.phase = .completed ∧ e'.res.status = 0x2001 ∧ e'.ran = false) := by
  obtain ⟨he, -, hs, hcode⟩ := Dev.op_eq_some hop
  have hun : e.unstarted = true := by simp [Entry.unstarted, hs, hcode]
  have hdecide : s.dev.decideEntry r.val e.count stDeadlineMissed 0 = s.dev.decideOne r.val e.count stDeadlineMissed 0 :=
    Dev.decideGo_of_no_body _ _ he (by rw [hcode]; decide) _
  refine ⟨_, (exec_tallyWait hop).trans (congrArg (answer s) (if_pos hlate)),
    ⟨(s.dev.worksTo_decideEntry _ _ _ _).state, fun k hk => ?_⟩, ?_⟩
  · rw [hdecide, Dev.decideOne_of_unstarted _ _ he hun, Dev.headerSignal_of_none _ _ hsig]
    exact (Dev.ring_settle_other (d := s.dev.leaveTallies r.val e.count) hloop he _ _ _ hk)
  · rw [hdecide]
    exact Dev.entry_decideOne stDeadlineMissed 0 he hun hloop (by decide)

end TallyWait

/-! ## SKIP_IF (R84) -/

theorem ends_skipIf {p : Place} (hop : s.dev.op r.val e.count 0x05 = some e) (hp : s.dev.access r.val e 16 8 8 = .ok p)
    (hneeds : e.admitted (s.dev.deepNeeds [(p.addr, 8)] []) = true) : Ends (.skipIf r e.count) s (fun t => ControlFrame s r.val t ∧
      ∃ e', t.dev.entry r.val e.count = some e' ∧ e'.phase = .done ∧ e'.res.status = 0 ∧
        (e'.res.reason = 1 ↔ s.dev.skipHit s.mem p.addr e.desc = true) ∧
        (e'.res.reason = 0 ↔ ¬ s.dev.skipHit s.mem p.addr e.desc = true)) := by
  obtain ⟨he, -, hs, hcode⟩ := Dev.op_eq_some hop
  have hengine : engineOf (hOpcode e.desc) = none := by rw [hcode]; rfl
  exact ⟨_, exec_skipIf hop hp hneeds, controlFrame_endOp (s.dev.worksTo_engineRead _ _) (Dev.engineRead_rings _ _ _) he hengine _,
    _, entry_endOp_of_rings (Dev.engineRead_rings _ _ _) he hengine hs _, rfl, rfl, (ofNat_b2n_iff _).1, (ofNat_b2n_iff _).2⟩

/-! ## REPEAT_BY (R85 to R87) -/

section RepeatBy

variable {p : Place} (hop : s.dev.op r.val e.count 0x04 = some e) (hloop : (s.dev.ring r.val).loop = none)
  (hp : s.dev.access r.val e 16 4 4 = .ok p) (hneeds : e.admitted (s.dev.deepNeeds [(p.addr, 4)] []) = true)
  (hstop : (s.dev.ring r.val).stopped = false)

include hop hloop hp hneeds hstop in
theorem ends_repeatBy_zero (hfree : s.dev.Unawaited r.val e.count) (hzero : s.dev.readNat s.mem p.addr 4 = 0) :
    Ends (.repeatBy r e.count) s (fun t => t.mem = s.mem ∧
      ∃ e', t.dev.entry r.val e.count = some e' ∧ e'.phase = .done ∧ e'.res.status = 0 ∧ e'.res.reason = 0) := by
  obtain ⟨he, -, hs, hcode⟩ := Dev.op_eq_some hop
  have hrings : (s.dev.engineRead p.addr 4).rings = s.dev.rings := Dev.engineRead_rings _ _ _
  have hstands : (s.dev.engineRead p.addr 4).Stands r.val e.count e :=
    ⟨⟨e.buf, (Dev.entry_congr hrings _ _).trans he⟩, (congrArg Ring.loop (Dev.ring_congr hrings _)).trans hloop,
      hfree.congr (Dev.engineRead_tallies _ _ _)⟩
  obtain ⟨b, hb⟩ := hstands.noBody hs hcode stSkipped (s.dev.countRead p.addr)
  exact ⟨_, (exec_repeatBy hop hloop hp hneeds hstop).trans (congrArg (answer s) (if_pos hzero)), rfl, _, hb, rfl, rfl, rfl⟩

include hop hloop hp hneeds hstop in
theorem ends_repeatBy_starts (hcount : s.dev.readNat s.mem p.addr 4 ≠ 0) : Ends (.repeatBy r e.count) s (fun t =>
    ControlFrame s r.val t ∧ (t.dev.ring r.val).loop = some (loopOfCount e (s.dev.readNat s.mem p.addr 4)) ∧
      ∃ e', t.dev.entry r.val e.count = some e' ∧ e'.phase = .started) := by
  obtain ⟨he, -, hs, -⟩ := Dev.op_eq_some hop
  have hrings : ((s.dev.engineRead p.addr 4).account (s.dev.claimOf r.val) 0 (s.dev.countRead p.addr).deep 0 0).rings = s.dev.rings :=
    Dev.engineRead_rings _ _ _
  refine ⟨_, (exec_repeatBy hop hloop hp hneeds hstop).trans (congrArg (answer s) (if_neg hcount)),
    ⟨((s.dev.worksTo_engineRead p.addr 4).trans ((Dev.worksTo_account _ _ _ _ _ _).trans (Dev.worksTo_startLoop _ _ _ _ _))).state,
      fun k hk => (Dev.ring_startLoop_other _ _ _ _ hk).trans (Dev.ring_congr hrings k)⟩,
    congrArg Ring.loop (Dev.ring_startLoop _ _ _ _ _), _, Dev.entry_startLoop ((Dev.entry_congr hrings _ _).trans he) _ _, hs⟩

end RepeatBy

theorem ends_opComplete_last {l : Loop} {b : Entry} (hloop : (s.dev.ring r.val).loop = some l) (hend : l.ending = false)
    (hlast : l.trips ≤ l.iter + 1) (hiter : l.iterations < 65535) (he : s.dev.entry r.val l.base = some e)
    (hbody : (s.dev.ring r.val).ents.filter (fun x => l.body x.count) = [b]) (hb : s.dev.entry r.val b.count = some b)
    (hdone : b.phase = .done) (hran : b.ran = true) (hstatus : b.res.status = 0) (hskip : hOpcode b.desc ≠ 0x05)
    (hsig : hSignal b.desc = false) (htotal : b.total.all (fun k => k.all.status == 0) = true) :
    Ends (.opComplete r b.count) s (fun t => ∃ e', t.dev.entry r.val l.base = some e' ∧ e'.phase = .done ∧
      e'.res.status = (if l.clamped then 0x1005 else 0) ∧ e'.res.reason.toNat = l.iterations + 1) := by
  obtain ⟨own, hentry, hown, hreason⟩ := Dev.entry_completeOp_last hloop hend hlast he hbody hran hstatus hskip hsig htotal
  refine ⟨_, exec_opComplete hb hdone, _, hentry, rfl, hown, ?_⟩
  show own.reason.toNat = _
  rw [hreason, sat16, BitVec.toNat_ofNat]
  omega

end ControlOps

/-- Settles O24, a lemma for each outcome of each op. -/
theorem controlOpsDoTheirWork : Obligations.ControlOpsDoTheirWork := by
  intro s r c e keeps id v y
  refine ⟨fun hop => ?_, fun hop hnone => ?_, fun hop hnone => ?_, fun p hop hp hneeds => ?_,
    fun p hop hloop hp hneeds hstop => ?_, ?_⟩
  · obtain ⟨-, rfl, -, -⟩ := Dev.op_eq_some hop
    exact ⟨ends_fence_met hop, ends_fence_waits hop⟩
  · obtain ⟨-, rfl, -, -⟩ := Dev.op_eq_some hop
    obtain ⟨t, hexec, hframe, hother, hwaiters, hcount, hentry⟩ := ends_tallySignal hop hnone
    exact ⟨t, hexec, hframe, hother, hwaiters, (congrArg BitVec.toNat hcount).trans (toNat_signalCount _ _), hentry⟩
  · obtain ⟨-, rfl, -, -⟩ := Dev.op_eq_some hop
    have hlate : (deadlineReached s.dev.now e.desc && !s.dev.fixedBits) = true ↔
        (deadlineReached s.dev.now e.desc = true ∧ s.dev.fixedBits = false) := by simp
    have hholds := waitOf_holds_iff r.val e (s.dev.tally id).count
    refine ⟨fun hl hh => ends_tallyWait_holds hop hnone ?_ (hholds.2 hh), fun hl hh => ends_tallyWait_waits hop hnone ?_ ?_,
      fun hl hloop hsig => ends_tallyWait_late hop (hlate.2 hl) hloop hsig⟩
    · exact Bool.eq_false_iff.2 fun h => hl (hlate.1 h)
    · exact Bool.eq_false_iff.2 fun h => hl (hlate.1 h)
    · exact Bool.eq_false_iff.2 fun h => hh (hholds.1 h)
  · obtain ⟨-, rfl, -, -⟩ := Dev.op_eq_some hop
    obtain ⟨t, hexec, hframe, e', hentry, hdone, hstatus, hone, hzero⟩ := ends_skipIf hop hp hneeds
    have hhit := skipHolds_iff (fld e.desc 40 1) (BitVec.ofNat 64 (s.dev.readNat s.mem p.addr 8) &&& v) (BitVec.ofNat 64 (fld e.desc 32 8))
    exact ⟨t, hexec, hframe, e', hentry, hdone, hstatus, hone.trans hhit, hzero.trans (not_congr hhit)⟩
  · obtain ⟨-, rfl, -, -⟩ := Dev.op_eq_some hop
    refine ⟨fun hfree hzero => ends_repeatBy_zero hop hloop hp hneeds hstop (fun t w hw h => hfree t _ w hw h.1 rfl h.2) hzero,
      fun _ hcount => ?_⟩
    obtain ⟨t, hexec, hframe, hl, hentry⟩ := ends_repeatBy_starts hop hloop hp hneeds hstop hcount
    exact ⟨t, hexec, hframe, _, hl, rfl, rfl, rfl, rfl, rfl, hentry⟩
  · rintro l b hloop rfl hend hlast hiter he - - hbody hb hdone hran hstatus hskip hsig htotal
    exact ends_opComplete_last hloop hend hlast hiter he hbody hb hdone hran hstatus hskip hsig htotal

end Sys2Proof.Machine

/-! The exact window (R101, R108 to R111): a window is a sum, so neither order nor division changes it, and each product loses less than a
grid unit of it. -/
namespace Sys2Proof.Machine

/-! ## Windows as sums -/

/-- Two windows added, their flags ORed (R111). -/
def Window.join (u v : Window) : Window := ⟨u.w + v.w, u.nan || v.nan, u.pinf || v.pinf, u.ninf || v.ninf⟩

section Sums

variable (a : Int)

theorem Window.join_zero (u : Window) : u.join Window.zero = u := by simp [Window.join, Window.zero]

theorem Window.join_assoc (u v x : Window) : (u.join v).join x = u.join (v.join x) := by
  simp only [Window.join, Int.add_assoc, Bool.or_assoc]

theorem Window.join_right_comm (u v x : Window) : (u.join v).join x = (u.join x).join v := by
  simp only [Window.join, Window.mk.injEq]
  exact ⟨Int.add_right_comm .., Bool.or_right_comm .., Bool.or_right_comm .., Bool.or_right_comm ..⟩

/-- What one product adds does not depend on what the window holds. -/
theorem Window.addProduct_eq_join (u : Window) (v : Val) : u.addProduct a v = u.join (Window.zero.addProduct a v) := by
  cases v with
  | nan => simp [Window.addProduct, Window.join, Window.zero]
  | inf neg => cases neg <;> simp [Window.addProduct, Window.join, Window.zero]
  | fin neg m e => simp [Window.addProduct, Window.join, Window.zero]

theorem Window.addProduct_right_comm (u : Window) (v x : Val) :
    (u.addProduct a v).addProduct a x = (u.addProduct a x).addProduct a v := by
  rw [Window.addProduct_eq_join a _ x, u.addProduct_eq_join a v, Window.join_right_comm, ← u.addProduct_eq_join a x,
    ← Window.addProduct_eq_join]

theorem Window.foldl_addProduct_eq_join (l : List Val) (u : Window) :
    l.foldl (Window.addProduct a) u = u.join (l.foldl (Window.addProduct a) Window.zero) := by
  induction l generalizing u with
  | nil => exact u.join_zero.symm
  | cons v l ih =>
    rw [List.foldl_cons, List.foldl_cons, ih, ih (Window.zero.addProduct a v), ← Window.join_assoc, ← Window.addProduct_eq_join]

theorem Window.foldl_addProduct_append (l l' : List Val) : (l ++ l').foldl (Window.addProduct a) Window.zero =
    (l.foldl (Window.addProduct a) Window.zero).join (l'.foldl (Window.addProduct a) Window.zero) := by
  rw [List.foldl_append, Window.foldl_addProduct_eq_join]

theorem Window.foldl_addProduct_perm {l l' : List Val} (h : l.Perm l') (u : Window) :
    l.foldl (Window.addProduct a) u = l'.foldl (Window.addProduct a) u :=
  h.foldl_eq' (fun v _ x _ u => u.addProduct_right_comm a v x) u

end Sums

/-! ## What a finite product loses on the grid (R109) -/

/-- A finite magnitude m × 2^e in grid units 2^(a − 176), truncated. -/
def gridCount (a : Int) (m : Nat) (e : Int) : Nat :=
  if a - 176 ≤ e then m * 2 ^ (e - (a - 176)).toNat else m / 2 ^ (a - 176 - e).toNat

theorem Window.addProduct_fin_w (a : Int) (u : Window) (x : Bool) (m : Nat) (e : Int) :
    (u.addProduct a (.fin x m e)).w = u.w + signed x (gridCount a m e) := by
  simp only [Window.addProduct, gridCount, Int.sub_nonneg, Int.neg_sub]

theorem signed_mul (x : Bool) (m k : Nat) : signed x (m * k) = signed x m * k := by
  cases x <;> simp [signed]

theorem signed_add (x : Bool) (m k : Nat) : signed x (m + k) = signed x m + signed x k := by
  cases x <;> simp [signed, Int.add_comm]

theorem natAbs_signed (x : Bool) (m : Nat) : (signed x m).natAbs = m := by cases x <;> simp [signed]

/-- In units of 2^g a magnitude is its grid count in full, and a rest below one grid unit. -/
theorem exists_rest_of_gridCount {a g e : Int} (hg : g ≤ a - 176) (he : g ≤ e) (m : Nat) :
    ∃ rest < 2 ^ (a - 176 - g).toNat, m * 2 ^ (e - g).toNat = gridCount a m e * 2 ^ (a - 176 - g).toNat + rest := by
  unfold gridCount
  split
  · next h =>
    have hpow : (e - g).toNat = (e - (a - 176)).toNat + (a - 176 - g).toNat := by omega
    exact ⟨0, Nat.two_pow_pos _, by rw [hpow, Nat.pow_add, Nat.mul_assoc, Nat.add_zero]⟩
  · next h =>
    have hpow : (a - 176 - g).toNat = (a - 176 - e).toNat + (e - g).toNat := by omega
    refine ⟨m % 2 ^ (a - 176 - e).toNat * 2 ^ (e - g).toNat, ?_, ?_⟩
    · rw [hpow, Nat.pow_add]
      exact Nat.mul_lt_mul_of_pos_right (Nat.mod_lt _ (Nat.two_pow_pos _)) (Nat.two_pow_pos _)
    · rw [hpow, Nat.pow_add, ← Nat.mul_assoc, ← Nat.add_mul, Nat.div_add_mod']

/-- One finite product falls short of its exact value by less than a grid unit. -/
theorem natAbs_signed_sub_gridCount_lt {a g e : Int} (hg : g ≤ a - 176) (he : g ≤ e) (x : Bool) (m : Nat) :
    (signed x m * 2 ^ (e - g).toNat - signed x (gridCount a m e) * 2 ^ (a - 176 - g).toNat).natAbs < 2 ^ (a - 176 - g).toNat := by
  obtain ⟨rest, hrest, heq⟩ := exists_rest_of_gridCount hg he m
  have hsigned := congrArg (signed x) heq
  rw [signed_add, signed_mul, signed_mul] at hsigned
  push_cast at hsigned
  rwa [hsigned, add_sub_cancel_left, natAbs_signed]

/-- The loss of K finite products: K times at most a grid unit less one. -/
theorem natAbs_exact_sub_window_add_length_le {a g : Int} (hg : g ≤ a - 176) (l : List (Bool × Nat × Int)) (hl : ∀ p ∈ l, g ≤ p.2.2) :
    ((l.map (fun p => signed p.1 p.2.1 * 2 ^ (p.2.2 - g).toNat)).sum -
      ((l.map (fun p => Val.fin p.1 p.2.1 p.2.2)).foldl (Window.addProduct a) Window.zero).w * 2 ^ (a - 176 - g).toNat).natAbs + l.length
      ≤ l.length * 2 ^ (a - 176 - g).toNat := by
  induction l with
  | nil => simp [Window.zero]
  | cons p l ih =>
    have hone := natAbs_signed_sub_gridCount_lt hg (hl p List.mem_cons_self) p.1 p.2.1
    have hrest := ih fun q hq => hl q (List.mem_cons_of_mem p hq)
    rw [List.map_cons, List.map_cons, List.sum_cons, List.foldl_cons, Window.foldl_addProduct_eq_join, List.length_cons, Nat.add_mul]
    simp only [Window.join, Window.addProduct_fin_w]
    simp only [Window.zero, Int.zero_add, Int.add_mul] at *
    omega

/-! ## Special values (R111) -/

theorem Window.addProduct_w_of_special (a : Int) (u : Window) {v : Val} (h : ∀ x m e, v ≠ .fin x m e) : (u.addProduct a v).w = u.w := by
  cases v with
  | nan => rfl
  | inf neg => cases neg <;> rfl
  | fin x m e => exact absurd rfl (h x m e)

theorem Val.mul_nan (v : Val) : v.mul .nan = .nan := by cases v <;> rfl

theorem Val.inf_mul_fin (x y : Bool) {m : Nat} (h : 0 < m) (e : Int) : (Val.inf x).mul (.fin y m e) = .inf (x != y) :=
  if_neg (Nat.ne_of_gt h)

theorem Val.fin_mul_inf (x y : Bool) {m : Nat} (h : 0 < m) (e : Int) : (Val.fin y m e).mul (.inf x) = .inf (x != y) :=
  (if_neg (Nat.ne_of_gt h)).trans (congrArg Val.inf bne_comm)

/-- An infinite product sets the flag of its sign. -/
theorem Window.addProduct_inf_bne (a : Int) (u : Window) (x y : Bool) :
    u.addProduct a (.inf (x != y)) = if x = y then { u with pinf := true } else { u with ninf := true } := by
  cases x <;> cases y <;> rfl

theorem Tile.val_of_nan_scale {t : Tile} {i j : Nat} (hi : i < t.hdr.vr) (hj : j < t.hdr.vc) (hmx : isMx t.hdr.fmt = true)
    (hscale : t.scale (blockOf t.hdr.axis i j) = 255) : t.val i j = some .nan := by
  simp [Tile.val, hi, hj, hmx, hscale]

/-- Settles O27. -/
theorem windowsAddExactlyInAnyOrder : Obligations.WindowsAddExactlyInAnyOrder := by
  refine ⟨fun a u x y m n e f => ⟨rfl, u.addProduct_fin_w a x m e⟩, fun a l l' h => Window.foldl_addProduct_perm a h _,
    fun a l l' => Window.foldl_addProduct_append a l l', ?_, fun a u v h => u.addProduct_w_of_special a h, ?_,
    fun t i j => Tile.val_of_nan_scale⟩
  · intro a g l hne hg hl
    have hloss := natAbs_exact_sub_window_add_length_le hg l hl
    have hlen := List.length_pos_of_ne_nil hne
    simp only [Int.natAbs_pow]
    exact Nat.lt_of_lt_of_le (Nat.lt_add_of_pos_right hlen) hloss
  · intro a u v x y m e
    refine ⟨rfl, by rw [Val.mul_nan]; rfl, rfl, rfl, fun h => ?_, fun h => ?_, u.addProduct_inf_bne a x y⟩
    · rw [Val.inf_mul_fin x y h, Window.addProduct_inf_bne]
    · rw [Val.fin_mul_inf x y h, Window.addProduct_inf_bne]

end Sys2Proof.Machine

/-! The end of a lane op (R99, R127, R132), and a started MATMUL that ends as one that did not run. -/
namespace Sys2Proof.Machine

/-! ## A lane op whose lanes have made every pick -/

section LaneEnd

variable {s : State} {r : Nat} {e : Entry} {l : LaneRun}

theorem LaneRun.countViol_rings (l : LaneRun) (d : Dev) (dies : List (Nat × List Nat)) (tiles : List (Nat × Nat)) :
    (l.countViol d dies tiles).rings = d.rings := by
  unfold LaneRun.countViol
  refine List.foldlRecOn (motive := fun x : Dev => x.rings = d.rings) _ _ rfl fun x hx t _ => ?_
  refine List.foldlRecOn (motive := fun y : Dev => y.rings = d.rings) _ _ hx fun y hy k _ => ?_
  split
  · exact (y.count_rings _ _ _).trans hy
  · exact hy

theorem Dev.rings_foldl_count {α : Type} (d : Dev) (tiles : List α) (n k : α → Nat) (o : Nat) :
    (tiles.foldl (fun d t => d.count (n t) o (k t)) d).rings = d.rings :=
  List.foldlRecOn (motive := fun x : Dev => x.rings = d.rings) _ _ rfl fun x hx _ _ => (x.count_rings _ _ _).trans hx

theorem LaneRun.malformed_eq_false_iff : l.malformed = false ↔ ∀ k < l.y.tiles, l.fed (k / l.y.tc) (k % l.y.tc) = false := by
  simp [LaneRun.malformed, LaneRun.tiles]

/-- An op of class 2 ends as one that did not run. -/
theorem Entry.doneWith_ran_iff {e : Entry} {res : Result} : (e.doneWith res).ran = true ↔ classOf res.status ≠ 2 := bne_iff_ne

/-- Its result stands as its lanes began it, with the picks made and the deep bytes moved. -/
theorem LaneRun.run_entry (he : s.dev.entry r e.count = some e) (hs : e.phase = .started) (hengine : engineOf (hOpcode e.desc) = none)
    (l : LaneRun) (dies : List (Nat × List Nat)) : ∃ t deep, l.run s r e dies = .next t ∧
      t.dev.entry r e.count = some (e.doneWith { e.res with picks := e.spent, deep := deep }) := by
  unfold LaneRun.run
  refine ⟨_, _, rfl, Dev.entry_endOp ((Dev.entry_congr ?_ r e.count).trans he) hengine _ hs⟩
  rw [Dev.heatRange_rings, Dev.engineWrite_rings, LaneRun.countViol_rings]
  split
  · exact Dev.rings_foldl_count ..
  · exact (Dev.rings_foldl_count ..).trans (Dev.rings_foldl_count ..)

theorem runLane_of_drained (hdies : s.dev.workDies (s.dev.claimOf r) ≠ []) (hmal : l.malformed = false) (hdrained : e.drained = true) :
    runLane s r e (.ok l) = l.run s r e (s.dev.workDies (s.dev.claimOf r)) := by
  have hwork : e.work.isSome = true := by
    cases hw : e.work with
    | none => simp [Entry.drained, hw] at hdrained
    | some ws => rfl
  simp [runLane, hdies, LaneRun.start, hwork, hdrained, LaneRun.finish, hmal]

/-- The descriptor of a MATMUL whose lanes have made every pick, once it has ended. -/
theorem exec_matmul_of_drained {r : RingNo} (hop : s.dev.op r.val e.count 0x10 = some e)
    (hplan : s.dev.matmulPlan s.mem r.val e false = .ok l) (hdies : s.dev.workDies (s.dev.claimOf r.val) ≠ [])
    (hmal : l.malformed = false) (hdrained : e.drained = true) : ∃ t deep, exec (.matmul r e.count) s = .next t ∧
      t.dev.entry r.val e.count = some (e.doneWith { e.res with picks := e.spent, deep := deep }) := by
  obtain ⟨he, -, hs, hcode⟩ := Dev.op_eq_some hop
  obtain ⟨t, deep, hrun, hentry⟩ := LaneRun.run_entry he hs (by rw [hcode]; rfl) l (s.dev.workDies (s.dev.claimOf r.val))
  refine ⟨t, deep, ?_, hentry⟩
  show execMatmul r e.count s = _
  simp only [execMatmul, hop, hplan, runLane_of_drained hdies hmal hdrained, hrun]

end LaneEnd

/-! ## A started MATMUL whose result is of class 2

The statement leaves the result of a started op free; one that its lanes have begun has OK, STREAMED or FORMAT_VIOLATION
(`LaneRun.begin`). -/

/-- The header of a RAW MXFP4 tile with one valid element. -/
def oneElemHeader : List Byte :=
  Hdr.bytes { sound := true, fmt := 1, codec := 0, sparse := 0, axis := false, vr := 1, vc := 1, ceil := 127, stored := denseBody 1,
              index := 0, obj := 1, aux := 0 }

/-- A MATMUL of the tile at 0 with itself, to a binary32 tile at 65536: M = N = K = 1 (Table 6.2). -/
def oneElemMatmul : BitVec 512 :=
  BitVec.ofNat 512 (0x10 + 65536 * 2 ^ (8 * 32) + 2 ^ (8 * 40) + 2 ^ (8 * 43) + 2 ^ (8 * 46) + 6 * 2 ^ (8 * 49))

/-- The MATMUL, started, with no pick left to make, under CANCELLED. -/
def cancelledMatmul : Entry := { Entry.fresh 0 oneElemMatmul with phase := .started, work := some [], res := Result.fail stCancelled 0 }

/-- Claim 0 with lane 0 of die 0, its ring 0 with the MATMUL, and its object of 1 MiB at 0. -/
def cancelledMatmulDev : Dev :=
  { Dev.reset with
    dies := [(0, { Die.reset with laneLog := 1 })], claims := [(0, { Claim.reset with lanes := [(0, 1)] })],
    rings := [(0, { Ring.reset with ents := [cancelledMatmul] })],
    objects := [(1, { base := 0, len := 1048576, flat := true, slotFmt := 0, claim := 0, placement := 0, reroute := false, codeDeep := false,
                      zero := true, dies := 1, deepOff := [0, 0, 0, 0], st := .ready, near := [(0, 16)], lostUnits := [], lostDies := 0,
                      dyingSeq := 0, readySeq := 0, moves := [], held := [], placing := none, doomed := false })] }

def cancelledMatmulState : State :=
  { dev := cancelledMatmulDev, mem := Memory.applyAll [] (cancelledMatmulDev.writeDev 0 oneElemHeader), pending := [] }

/-- A plan that passes, with no malformed tile. -/
def soundPlan {ε : Type} : Except ε LaneRun → Bool
  | .ok l => !l.malformed
  | .error _ => false

theorem exists_plan_of_soundPlan {ε : Type} {x : Except ε LaneRun} (h : soundPlan x = true) : ∃ l, x = .ok l ∧ l.malformed = false := by
  cases x with
  | ok l => exact ⟨l, rfl, by simpa [soundPlan] using h⟩
  | error why => cases h

theorem soundPlan_cancelledMatmul :
    soundPlan (cancelledMatmulState.dev.matmulPlan cancelledMatmulState.mem (0 : RingNo).val cancelledMatmul false) = true := by decide +kernel

/-- Refutes O26: it asks that every lane op whose lanes have made every pick end as one that ran, with the status it has; under CANCELLED,
of class 2, the one-element MATMUL ends as one that did not run. -/
theorem not_laneOpsWriteTheirWholeOutput : ¬ Obligations.LaneOpsWriteTheirWholeOutput := by
  intro h
  have hop : cancelledMatmulState.dev.op (0 : RingNo).val 0 0x10 = some cancelledMatmul := by decide +kernel
  have hdies : cancelledMatmulState.dev.workDies (cancelledMatmulState.dev.claimOf (0 : RingNo).val) ≠ [] := by decide +kernel
  obtain ⟨l, hplan, hmal⟩ := exists_plan_of_soundPlan soundPlan_cancelledMatmul
  obtain ⟨hmatmul, -⟩ := h cancelledMatmulState 0 0 cancelledMatmul l hdies (LaneRun.malformed_eq_false_iff.1 hmal)
  obtain ⟨t, hexec, -, -, ⟨e', he', -, hran, -⟩, -⟩ := (hmatmul hop hplan).1 rfl
  obtain ⟨u, deep, hexec', hentry⟩ := exec_matmul_of_drained hop hplan hdies hmal rfl
  obtain rfl : u = t := Host.Outcome.next.inj (hexec'.symm.trans hexec)
  obtain rfl := Option.some.inj (hentry.symm.trans he')
  have hclass : classOf cancelledMatmul.res.status = 2 := by decide
  exact Entry.doneWith_ran_iff.1 hran hclass

end Sys2Proof.Machine

/-! FINISH and RNG_FILL (R136 to R140, R359, R360): what the end of an engine's op leaves, and the words of the draws. -/
namespace Sys2Proof.Machine

/-! ## The end of an op that an engine has taken -/

section EngineEnd

variable {d : Dev} {r : Nat} {c : W32} {e : Entry}

theorem Dev.entry_take (he : d.entry r c = some e) : ∃ b, (d.take r c).entry r c = some { e with taken := b } := by
  unfold Dev.take
  split
  · refine ⟨true, (Dev.entry_congr (e := d.modEntry r c fun e => { e with taken := true }) rfl r c).trans ?_⟩
    rw [d.entry_modEntry_same (f := fun e => { e with taken := true }) r c fun _ => rfl, he, Option.map_some]
  · exact ⟨e.taken, he⟩

theorem Dev.ring_take_other (d : Dev) (c : W32) {k : Nat} (hk : k ≠ r) : (d.take r c).ring k = d.ring k := by
  unfold Dev.take
  split
  · exact d.ring_modRing_other (fun g => g.modEntry c fun e => { e with taken := true }) hk
  · rfl

theorem Dev.claimOf_congr {d t : Dev} (h : t.rings = d.rings) (r : Nat) : t.claimOf r = d.claimOf r := by
  rw [Dev.claimOf, Dev.ring_congr h, Dev.claimOf]

/-- The result stands as the engine gave it, and the descriptor as it was fetched. -/
theorem Dev.entry_endOp_engine (he : d.entry r e.count = some e) (hs : e.phase = .started) (res : Result) :
    ∃ b, (d.endOp r e res).entry r e.count = some ({ e with taken := b }.doneWith res) := by
  have ha : (d.account (d.claimOf r) res.picks res.deep res.fabric 0).entry r e.count = some e :=
    (Dev.entry_congr (d.account_rings _ _ _ _ _) _ _).trans he
  obtain ⟨b, hb⟩ := Dev.entry_take ha
  exact ⟨b, Dev.entry_closeOp (e := { e with taken := b }) hb res hs⟩

theorem Dev.ring_endOp_engine_other (d : Dev) (e : Entry) (res : Result) {k : Nat} (hk : k ≠ r) :
    (d.endOp r e res).ring k = d.ring k := by
  rw [Dev.endOp, Dev.finishOp, Dev.closeOp, Dev.modEntry, Dev.ring_modRing_other _ _ hk, Dev.ring_take_other _ _ hk]
  exact Dev.ring_congr (d.account_rings _ _ _ _ _) k

theorem Dev.claim_endOp_other (d : Dev) (r : Nat) (e : Entry) (res : Result) {k : Nat} (hk : k ≠ d.claimOf r) :
    (d.endOp r e res).claim k = d.claim k := by
  rw [Dev.endOp, Dev.claim_congr (Dev.finishOp_claims ..), Dev.account, Dev.claim_modClaim, if_neg hk]

end EngineEnd

/-! ## What an engine works on -/

/-- What an engine's work may touch before the op ends: all that an op's work may, less rings and claims, and no tally. -/
def Dev.EngineWorksTo (d t : Dev) : Prop := d.WorksTo t ∧ t.rings = d.rings ∧ t.claims = d.claims ∧ t.tallies = d.tallies

section EngineWork

variable {d t u : Dev}

theorem Dev.EngineWorksTo.trans (h : d.EngineWorksTo t) (h' : t.EngineWorksTo u) : d.EngineWorksTo u := by
  obtain ⟨hw, hr, hc, ht⟩ := h
  obtain ⟨hw', hr', hc', ht'⟩ := h'
  exact ⟨hw.trans hw', hr'.trans hr, hc'.trans hc, ht'.trans ht⟩

theorem Dev.engineWorksTo_refl (d : Dev) : d.EngineWorksTo d := ⟨d.worksTo_refl, rfl, rfl, rfl⟩

theorem Dev.engineWorksTo_draws (d : Dev) (n : Nat) : d.EngineWorksTo { d with draws := n } := ⟨rfl, rfl, rfl, rfl⟩

theorem Dev.engineWorksTo_count (d : Dev) (n off k : Nat) : d.EngineWorksTo (d.count n off k) :=
  ⟨by apply Dev.ext <;> simp [Dev.worked], by simp, by simp, by simp⟩

theorem Dev.engineWorksTo_engineWrite (d : Dev) (a n : Nat) : d.EngineWorksTo (d.engineWrite a n) :=
  ⟨d.worksTo_engineWrite a n, by simp, by simp, by simp⟩

theorem Dev.engineWorksTo_engineRead (d : Dev) (a n : Nat) : d.EngineWorksTo (d.engineRead a n) :=
  ⟨d.worksTo_engineRead a n, by simp, by simp, by simp⟩

theorem Dev.engineWorksTo_foldl {α : Type} (d : Dev) (l : List α) {f : Dev → α → Dev}
    (hf : ∀ (x : Dev) (a : α), x.EngineWorksTo (f x a)) : d.EngineWorksTo (l.foldl f d) :=
  List.foldlRecOn (motive := d.EngineWorksTo) l f d.engineWorksTo_refl fun x hx a _ => hx.trans (hf x a)

theorem Dev.engineWorksTo_ite {p : Prop} [Decidable p] (ht : d.EngineWorksTo t) (hu : d.EngineWorksTo u) :
    d.EngineWorksTo (if p then t else u) := by
  split
  · exact ht
  · exact hu

theorem Dev.engineWorksTo_countStreamed (d : Dev) (ins : List Grid) : d.EngineWorksTo (d.countStreamed ins) :=
  d.engineWorksTo_foldl ins fun x _ => x.engineWorksTo_foldl _ fun y _ =>
    Dev.engineWorksTo_ite y.engineWorksTo_refl (y.engineWorksTo_count _ _ _)

end EngineWork

/-- What the end of an engine's op leaves, once the engine has done its work and stored what it writes: memory but for its stores, the
descriptor with its result, every other ring and claim, and the frame of an op's work. -/
theorem engineEnds {s t : State} {r : Nat} {e : Entry} {d : Dev} {res : Result} {ws : List MemOp} (he : s.dev.entry r e.count = some e)
    (hs : e.phase = .started) (hd : s.dev.EngineWorksTo d) (ht : t = { s with dev := d.endOp r e res, mem := s.mem.applyAll ws }) :
    t.mem = s.mem.applyAll ws ∧ (∀ k, (∀ w ∈ ws, w.spares k) → t.mem.get k = s.mem.get k) ∧
      (∃ b, t.dev.entry r e.count = some ({ e with taken := b }.doneWith res)) ∧ OnlyRing r s t ∧
      (∀ k, k ≠ s.dev.claimOf r → t.dev.claim k = s.dev.claim k) ∧ t = { s with dev := s.dev.worked t.dev, mem := t.mem } := by
  subst ht
  obtain ⟨hworks, hrings, hclaims, htallies⟩ := hd
  refine ⟨rfl, fun k => Memory.get_applyAll_spares _ _, Dev.entry_endOp_engine ((Dev.entry_congr hrings _ _).trans he) hs res,
    fun k hk => (Dev.ring_endOp_engine_other d e res hk).trans (Dev.ring_congr hrings k), fun k hk => ?_, ?_⟩
  · exact (Dev.claim_endOp_other d r e res (by rwa [Dev.claimOf_congr hrings])).trans (Dev.claim_congr hclaims k)
  · exact congrArg (fun x => ({ s with dev := x, mem := s.mem.applyAll ws } : State))
      ((hworks.trans (Dev.worksTo_endOp d r e res)).worked ((Dev.endOp_tallies ..).trans htallies))

/-! ## FINISH (R136 to R139) -/

section Finish

variable {s : State} {r : RingNo} {e : Entry}

/-- A FINISH past its checks whose tiles are sound: the device after its work, before its end. -/
theorem exec_finish {f : FinishRun} (hop : s.dev.op r.val e.count 0x14 = some e) (hplan : s.dev.finishPlan s.mem r.val e = .ok f)
    (hwait : s.dev.mustWait e (f.a :: f.b.toList) [f.y] = false) (hneeds : e.admitted (f.needs s.dev s.mem) = true)
    (hbad : ∀ x ∈ (f.loadA s.dev s.mem).toList ++ (f.loadB s.dev s.mem).toList ++ (f.loadD s.dev s.mem).toList, x.bad = false) :
    ∃ d deep reason, s.dev.EngineWorksTo d ∧ exec (.finish r e.count) s = answerMem s
      (d.endOp r.val e { Result.ok with
        deep := deep, status := if s.dev.streamed (f.a :: f.b.toList) ≠ 0 then 0x1003 else 0x0000, reason := reason },
        f.writes s.dev s.mem e) := by
  have hsound : ((f.loadA s.dev s.mem).toList ++ (f.loadB s.dev s.mem).toList ++ (f.loadD s.dev s.mem).toList).any
      (fun t => t.bad) = false := by
    rw [List.any_eq_false]
    exact fun x hx => by simp [hbad x hx]
  refine ⟨_, _, _, ?_, by
    simp only [exec, execFinish, hop, hplan, hwait, begun_of_admitted (Dev.op_eq_some hop).1 hneeds, hsound, Bool.false_eq_true, if_false]
    rfl⟩
  refine Dev.EngineWorksTo.trans ?_ (Dev.engineWorksTo_ite (Dev.engineWorksTo_engineRead _ _ _) (Dev.engineWorksTo_engineWrite _ _ _))
  refine Dev.EngineWorksTo.trans ?_ (Dev.engineWorksTo_ite (Dev.engineWorksTo_engineRead _ _ _) (Dev.engineWorksTo_refl _))
  refine Dev.EngineWorksTo.trans ?_ (Dev.engineWorksTo_foldl _ _ fun x g => x.engineWorksTo_engineRead _ _)
  refine Dev.EngineWorksTo.trans ?_ (Dev.engineWorksTo_foldl _ _ fun x t => (x.engineWorksTo_count _ _ _).trans
    (Dev.engineWorksTo_ite (Dev.engineWorksTo_refl _) (Dev.engineWorksTo_count _ _ _ _)))
  exact (s.dev.engineWorksTo_draws _).trans (Dev.engineWorksTo_countStreamed _ _)

end Finish

/-! ## RNG_FILL (R140) -/

section RngFill

variable {s : State} {r : RingNo} {e : Entry}

/-- An RNG_FILL past its checks: the device after its work, before its end. -/
theorem exec_rngFill {g : Grid} (hop : s.dev.op r.val e.count 0x15 = some e)
    (hgrid : settled (s.dev.outputGrid r.val e 16 (fld e.desc 32 3) (fld e.desc 35 3) (outCtl (fld e.desc 38 1)).fmt) = .ok g)
    (hstream : fld e.desc 24 4 ≠ 0xFFFFFFFF)
    (hlanes : bit (fld e.desc 39 1) 7 = true → bit (fld e.desc 39 1) 6 = false →
      ∀ k ∈ s.dev.lambdas (s.dev.claimOf r.val), (fld e.desc 24 4 + k) % 2 ^ 32 ≠ 0xFFFFFFFF)
    (hraw : bits (fld e.desc 39 1) 5 4 = 2 → (outCtl (fld e.desc 38 1)).fmt = 6) (hwait : s.dev.mustWait e [] [g] = false)
    (hneeds : e.admitted (s.dev.deepNeeds [] (s.dev.gridSlots g)) = true) :
    ∃ d deep, s.dev.EngineWorksTo d ∧
      exec (.rngFill r e.count) s = answerMem s (d.endOp r.val e { Result.ok with deep := deep }, s.dev.rngWrites r.val e g) := by
  have htaken : (bit (fld e.desc 39 1) 7 && !bit (fld e.desc 39 1) 6 &&
      (s.dev.lambdas (s.dev.claimOf r.val)).any fun l => (fld e.desc 24 4 + l) % 2 ^ 32 == 0xFFFFFFFF) = false := by
    rw [Bool.eq_false_iff]
    intro h
    simp only [Bool.and_eq_true, Bool.not_eq_true', List.any_eq_true, beq_iff_eq] at h
    obtain ⟨⟨hkeyed, hoffset⟩, l, hl, heq⟩ := h
    exact hlanes hkeyed hoffset l hl heq
  have hfmt : (decide (bits (fld e.desc 39 1) 5 4 = 2) && (outCtl (fld e.desc 38 1)).fmt != 6) = false := by
    rw [Bool.eq_false_iff]
    intro h
    simp only [Bool.and_eq_true, decide_eq_true_eq, bne_iff_ne] at h
    exact h.2 (hraw h.1)
  refine ⟨_, _, ?_, by
    simp only [exec, execRngFill, hop, hgrid, htaken, hstream, hfmt, hwait, begun_of_admitted (Dev.op_eq_some hop).1 hneeds,
      decide_false, Bool.or_self, Bool.false_eq_true, if_false]
    rfl⟩
  refine Dev.EngineWorksTo.trans ?_ (Dev.engineWorksTo_engineWrite _ _ _)
  exact (s.dev.engineWorksTo_draws _).trans (Dev.engineWorksTo_foldl _ _ fun x t => x.engineWorksTo_count _ _ _)

end RngFill

/-! ## The words of lane-keyed draws (R140, R360) -/

theorem nth_mem {α : Type} {l : List α} {i : Nat} (x : α) (h : i < l.length) : nth l i x ∈ l := by
  rw [nth, List.getElem?_eq_getElem h]
  exact List.getElem_mem h

theorem Dev.laneWords_zero (d : Dev) (e : Entry) (lanes : List Nat) (per : Nat) : d.laneWords e lanes per 0 = #[] := rfl

/-- One more element takes its first word of the stream of one of the lanes, whichever lane writes it. -/
theorem Dev.laneWords_succ (d : Dev) (e : Entry) {lanes : List Nat} (hlanes : lanes ≠ []) (per n : Nat) :
    ∃ lane ∈ lanes, ∃ k w, d.laneWords e lanes per (n + 1) = (d.laneWords e lanes per n).push (laneWord e lane k, w) := by
  refine ⟨_, nth_mem 0 (Nat.mod_lt (Config.freeValue (d.draws + n)).toNat (List.length_pos_iff.2 hlanes)), ?_⟩
  rw [Dev.laneWords, List.range_succ, List.foldl_append]
  exact ⟨_, _, rfl⟩

theorem Dev.laneWords_size (d : Dev) (e : Entry) {lanes : List Nat} (hlanes : lanes ≠ []) (per n : Nat) :
    (d.laneWords e lanes per n).size = n := by
  induction n with
  | zero => rfl
  | succ n ih =>
    obtain ⟨lane, -, k, w, heq⟩ := d.laneWords_succ e hlanes per n
    rw [heq, Array.size_push, ih]

theorem Dev.mem_laneWords {d : Dev} {e : Entry} {lanes : List Nat} (hlanes : lanes ≠ []) {per n : Nat} {p : Nat × Nat}
    (hp : p ∈ d.laneWords e lanes per n) : ∃ lane ∈ lanes, ∃ k, p.1 = laneWord e lane k := by
  induction n with
  | zero => simp [Dev.laneWords_zero] at hp
  | succ n ih =>
    obtain ⟨lane, hlane, k, w, heq⟩ := d.laneWords_succ e hlanes per n
    rw [heq, Array.mem_push] at hp
    rcases hp with hp | rfl
    · exact ih hp
    · exact ⟨lane, hlane, k, rfl⟩

theorem Dev.laneWords_getD (d : Dev) (e : Entry) {lanes : List Nat} (hlanes : lanes ≠ []) (per : Nat) {i n : Nat} (hi : i < n) :
    ∃ lane ∈ lanes, ∃ k, ((d.laneWords e lanes per n).getD i (0, 0)).1 = laneWord e lane k := by
  rw [Array.getD, dif_pos (by rwa [d.laneWords_size e hlanes])]
  exact Dev.mem_laneWords hlanes (Array.getElem_mem _)

theorem Dev.rngWords_laneKeyed (d : Dev) (r : Nat) {e : Entry} (n i : Nat) (hkeyed : bit (fld e.desc 39 1) 7 = true) :
    d.rngWords r e n i =
      (d.laneWords e (d.lambdas (d.claimOf r)) (if bits (fld e.desc 39 1) 5 4 = 1 then 2 else 1) n).getD i (0, 0) := by
  rw [Dev.rngWords, if_pos hkeyed]

theorem Dev.rngWords_elementKeyed (d : Dev) (r : Nat) {e : Entry} (n i : Nat) (hkeyed : bit (fld e.desc 39 1) 7 = false) :
    d.rngWords r e n i = ((philox e.seed.toNat i (fld e.desc 28 4) (fld e.desc 24 4)).1,
      (philox e.seed.toNat i (fld e.desc 28 4) (fld e.desc 24 4)).2.1) := by
  rw [Dev.rngWords, if_neg (by rw [hkeyed]; exact Bool.false_ne_true)]

/-- Settles O28. -/
theorem finishAndRngFillWriteTheirOutput : Obligations.FinishAndRngFillWriteTheirOutput := by
  refine ⟨fun s r c e => ⟨fun f hop hplan hwait hneeds hbad => ?_, fun g hop hgrid hstream hlanes hraw hwait hneeds => ?_⟩,
    fun a b imm => ⟨rfl, rfl, rfl⟩, ?_, ?_⟩
  · obtain ⟨he, rfl, hs, -⟩ := Dev.op_eq_some hop
    obtain ⟨d, deep, reason, hd, hexec⟩ := exec_finish hop hplan hwait hneeds hbad
    obtain ⟨hmem, hspares, ⟨b, hentry⟩, hrest⟩ := engineEnds he hs hd rfl
    exact ⟨_, hexec, hmem, hspares, ⟨_, hentry, rfl, rfl, rfl, rfl⟩, hrest⟩
  · obtain ⟨he, rfl, hs, -⟩ := Dev.op_eq_some hop
    obtain ⟨d, deep, hd, hexec⟩ := exec_rngFill hop hgrid hstream hlanes hraw hwait hneeds
    obtain ⟨hmem, hspares, ⟨b, hentry⟩, hrest⟩ := engineEnds he hs hd rfl
    exact ⟨_, hexec, hmem, hspares, ⟨_, hentry, rfl, rfl, rfl, rfl⟩, hrest⟩
  · intro d d' r r' e n n' i hkeyed
    rw [d.rngWords_elementKeyed r n i hkeyed, d'.rngWords_elementKeyed r' n' i hkeyed]
    exact ⟨rfl, rfl⟩
  · intro d r e n i hkeyed hi hlanes
    rw [d.rngWords_laneKeyed r n i hkeyed]
    exact d.laneWords_getD e hlanes _ hi

end Sys2Proof.Machine

/-! What the sending of packets, the telling of an abort, and what follows from an op that a fault ended leave of the rings (R99, R251,
R330). -/
namespace Sys2Proof.Machine

/-! ## Packets that leave -/

section Packets

variable (d : Dev)

@[simp] theorem Dev.countRt_rings (k : Nat) : (d.countRt k).rings = d.rings := rfl

@[simp] theorem Dev.pumpGo_rings (fuel n : Nat) : (Dev.pumpGo fuel d n).rings = d.rings := by
  induction fuel generalizing d with
  | zero => rfl
  | succ fuel ih =>
    unfold Dev.pumpGo
    split
    · rfl
    · rw [ih]; rfl

@[simp] theorem Dev.pump_rings (n : Nat) : (d.pump n).rings = d.rings := d.pumpGo_rings _ n

@[simp] theorem Dev.deArrive_rings (n : Nat) (k : Packet) : (d.deArrive n k).rings = d.rings := by
  unfold Dev.deArrive
  dsimp only
  split_ifs <;> simp

@[simp] theorem Dev.sendOn_rings (n : Nat) (k : Packet) : (d.sendOn n k).rings = d.rings := by
  unfold Dev.sendOn
  split <;> simp

@[simp] theorem Dev.routeQuiet_rings (k : Packet) : (d.routeQuiet k).rings = d.rings := by
  unfold Dev.routeQuiet
  split <;> simp

@[simp] theorem Dev.sendNotice_rings (c : Nat) (p : Option Nat) (k : Packet) : (d.sendNotice c p k).rings = d.rings := by
  unfold Dev.sendNotice
  dsimp only
  (repeat' split) <;> simp

@[simp] theorem Dev.discard_rings (c : Nat) (p : Option Nat) (k : Packet) : (d.discard c p k).rings = d.rings := by
  unfold Dev.discard
  dsimp only
  (repeat' split) <;> simp

@[simp] theorem Dev.follow_rings (k : Packet) (r : Route) : (d.follow k r).rings = d.rings := by
  cases r with
  | here => rfl
  | out p k' => exact d.sendOn_rings p k'
  | detour p k' forced => cases forced <;> exact Dev.sendOn_rings _ _ _
  | hold => rfl
  | drop c p => exact d.discard_rings c p k
  | barred => exact Dev.alarm_rings _ _ _ _ _

@[simp] theorem Dev.inject_rings (k : Packet) : (d.inject k).rings = d.rings := by
  unfold Dev.inject
  split
  · rfl
  · split
    · exact foldl_keep Dev.rings _ (fun _ _ => by simp [apply_ite Dev.rings]) _ _
    · exact d.follow_rings k _

/-- A packet that no op waits for ends none. -/
theorem Dev.injectNow_none_rings (k : Packet) : (d.injectNow none k).rings = d.rings := by
  unfold Dev.injectNow
  split
  · exact Dev.inject_rings _ _
  · next h => cases h
  · rfl

theorem Dev.serveAsk_packet_rings {a : Ask} {k : Packet} (h : a.what = .packet k none) : (d.serveAsk a).rings = d.rings := by
  have hadmit : (d.admitAsk a).rings = d.rings := by
    unfold Dev.admitAsk
    simp only [h]
    split
    · rfl
    · exact Dev.pay_rings _ _ _ _
  unfold Dev.serveAsk
  simp only [h]
  rw [Dev.injectNow_none_rings, hadmit]

theorem Dev.injectFor_none_rings (c : Nat) (k : Packet) : (d.injectFor c none k).rings = d.rings := by
  unfold Dev.injectFor
  dsimp only
  by_cases hcharge : d.fabricCharge k = 0
  · rw [if_pos hcharge, Dev.injectNow_none_rings]
  · rw [if_neg hcharge]
    generalize 32 + (if k.de then 5 else k.cls) = m
    by_cases hfree : (d.asksAt m).isEmpty = true
    · rw [if_pos hfree]
      split
      next x hx =>
        have hmem := Dev.nextAsk_mem _ hx
        rw [d.asksAt_append (by rfl) (List.isEmpty_iff.1 hfree), List.mem_singleton] at hmem
        rw [Dev.serveAsk_packet_rings _ (congrArg Ask.what hmem)]
      next => rfl
    · rw [if_neg hfree]

theorem Dev.scramble_rings (l : List (Nat × Nat)) : (d.scramble l).1.rings = d.rings := by
  unfold Dev.scramble
  exact foldl_keep (fun p : Dev × List MemOp => p.1.rings) _ (fun _ _ => by rfl) _ _

theorem Dev.setColl_rings (n : Nat) (o : Option CollOp) : (d.setColl n o).rings = d.rings := by
  unfold Dev.setColl
  split <;> rfl

end Packets

/-! ## An op that a fault ended -/

/-- The rings after what follows from the end of the op at `c` in ring `r`: its record may count more fabric bytes (R97). -/
def Dev.Followed (r : Nat) (c : W32) (d t : Dev) : Prop :=
  (∀ k, k ≠ r → t.ring k = d.ring k) ∧
    ∀ e, d.entry r c = some e → ∃ f, t.entry r c = some { e with res := { e.res with fabric := f } }

section Followed

variable {d t u : Dev} {r : Nat} {c : W32}

theorem Dev.followed_of_rings (h : t.rings = d.rings) : d.Followed r c t :=
  ⟨fun k _ => Dev.ring_congr h k, fun e he => ⟨e.res.fabric, (Dev.entry_congr h r c).trans he⟩⟩

theorem Dev.Followed.trans (h : d.Followed r c t) (h' : t.Followed r c u) : d.Followed r c u := by
  refine ⟨fun k hk => (h'.1 k hk).trans (h.1 k hk), fun e he => ?_⟩
  obtain ⟨f, hf⟩ := h.2 e he
  have hu := h'.2 _ hf
  exact hu

theorem Dev.followed_modEntry_fabric (d : Dev) (r : Nat) (c : W32) (n : Nat) :
    d.Followed r c (d.modEntry r c fun e => { e with res := { e.res with fabric := e.res.fabric + n } }) := by
  refine ⟨fun k hk => d.ring_modRing_other _ hk, fun e he => ⟨e.res.fabric + n, ?_⟩⟩
  rw [d.entry_modEntry_same (f := fun e => { e with res := { e.res with fabric := e.res.fabric + n } }) r c fun _ => rfl, he,
    Option.map_some]

theorem Dev.followed_sendAborts (d : Dev) (g : Group) (tag : Nat) (l : List Byte) (but : Option Nat) (r : Nat) (c : W32) :
    d.Followed r c (d.sendAborts g tag l but (some (r, c))) := by
  refine List.foldlRecOn (motive := d.Followed r c) _ _ (Dev.followed_of_rings rfl) fun x hx p _ => hx.trans ?_
  dsimp only
  split
  · exact Dev.followed_of_rings rfl
  · exact (x.followed_modEntry_fabric r c _).trans (Dev.followed_of_rings (Dev.injectFor_none_rings _ _ _))

theorem Dev.followed_tellAbort (d : Dev) (x : CollRun) (cause : Nat) (but : Option Nat) :
    d.Followed x.o.ring x.o.count (d.tellAbort x cause but).1 := by
  unfold Dev.tellAbort
  lift_lets
  intro h d1 out p d2 _ d3
  have hsent : d.Followed x.o.ring x.o.count d1 := d.followed_sendAborts ..
  have hrings : (d3.alarm 0x23 0x180060 x.slot (Tbl.lookD d3.coll.cnt 0x60 0)).rings = d1.rings := by
    rw [Dev.alarm_rings]
    exact (p.1.setColl_rings x.slot none).trans (d1.scramble_rings out)
  exact hsent.trans (Dev.followed_of_rings hrings)

/-- A collective op runs while its ring's descriptor is started. -/
theorem Dev.collRun_entry {slot : Nat} {x : CollRun} (h : d.collRun slot = some x) :
    d.entry x.o.ring x.o.count = some x.e ∧ x.e.phase = .started := by
  unfold Dev.collRun at h
  split at h
  · split at h
    · obtain ⟨e, he, rfl⟩ := Option.map_eq_some_iff.1 h
      obtain ⟨he, hs⟩ := Option.filter_eq_some_iff.1 he
      exact ⟨he, beq_iff_eq.1 hs⟩
    · cases h
  · cases h

/-- A started op that an entry shows ended is the one whose entry changed. -/
theorem Dev.killed_eq {g : Nat × Entry} {e : Entry} (hg : g ∈ d.killed t) (he : d.entry g.1 g.2.count = some e) (hs : e.phase = .started)
    (hother : ∀ k x, ¬ (k = r ∧ x = c) → t.entry k x = d.entry k x) : g.1 = r ∧ g.2.count = c := by
  by_contra hne
  obtain ⟨k, -, hk⟩ := List.mem_flatMap.1 hg
  obtain ⟨x, hx, rfl⟩ := List.mem_map.1 hk
  obtain ⟨-, hdead⟩ := List.mem_filter.1 hx
  rw [hother _ _ hne, he] at hdead
  simp [hs] at hdead

/-- What follows where a fault ended one op reaches its ring alone, and its result but for the fabric bytes counted. -/
theorem Dev.followed_reap (m : Memory) (hother : ∀ k x, ¬ (k = r ∧ x = c) → t.entry k x = d.entry k x) :
    t.Followed r c (d.reap t m).1 := by
  have hdead : ((d.killed t).foldl (fun (p : Dev × List MemOp) x =>
      let q := (p.1.leaveChans x.1 x.2.count).scramble (d.outputs m x.1 x.2)
      (q.1, p.2 ++ q.2)) (t.sweepRem, [])).1.rings = t.rings :=
    foldl_keep (fun p : Dev × List MemOp => p.1.rings) _ (fun _ _ => by exact Dev.scramble_rings _ _) _ _
  unfold Dev.reap
  refine List.foldlRecOn (motive := fun p : Dev × List MemOp => t.Followed r c p.1) _ _ (Dev.followed_of_rings hdead) fun p hp x hx => ?_
  dsimp only
  split
  · next hany =>
    obtain ⟨g, hg, heq⟩ := List.any_eq_true.1 hany
    simp only [Bool.and_eq_true, beq_iff_eq] at heq
    obtain ⟨slot, hrun⟩ := List.mem_filterMap.1 hx
    obtain ⟨he, hs⟩ := Dev.collRun_entry hrun.2
    obtain ⟨hr, hc⟩ := Dev.killed_eq hg (by rw [heq.1, heq.2]; exact he) hs hother
    have htold := Dev.followed_tellAbort p.1 x 6 none
    rw [← heq.1, ← heq.2, hr, hc] at htold
    exact hp.trans htold
  · exact hp

end Followed

end Sys2Proof.Machine

/-! Spares and the lanes and cores that fail (R141, R244, R384, R385): what a failure, a substitution and a withdrawal change of a
device. -/
namespace Sys2Proof.Machine

/-! ## The frame of a substitution -/

/-- What the failure or the substitution of a lane or core may touch: the dies, the claims' shapes, the conditions with their notices and
the replacement request, the log, what is put out, the remote ops that end, and the record of failed lanes and cores. -/
def Dev.substituted (d t : Dev) : Dev :=
  { d with
    dies := t.dies, health := t.health, claims := t.claims, host := t.host, capGen := t.capGen, capTick := t.capTick, out := t.out,
    power := { d.power with svcReqN := t.power.svcReqN }, xbar := { d.xbar with rem := t.xbar.rem },
    store := { d.store with lanes := t.store.lanes, cores := t.store.cores } }

/-- A device reached by failures and substitutions of lanes and cores of die `n`. -/
def Dev.SparesTo (n : Nat) (d t : Dev) : Prop := t = d.substituted t ∧ ∀ k, k ≠ n → t.die k = d.die k

section Frame

variable {n : Nat} {d t u : Dev}

theorem Dev.SparesTo.trans (h : d.SparesTo n t) (h' : t.SparesTo n u) : d.SparesTo n u :=
  ⟨Eq.trans h'.1 (show _ = (fun x : Dev => x.substituted u) (d.substituted t) from congrArg (fun x : Dev => x.substituted u) h.1),
    fun k hk => (h'.2 k hk).trans (h.2 k hk)⟩

theorem Dev.sparesTo_of_dies (h : t = d.substituted t) (hdies : t.dies = d.dies) : d.SparesTo n t :=
  ⟨h, fun k _ => Dev.die_congr hdies k⟩

theorem Dev.sparesTo_refl (d : Dev) : d.SparesTo n d := ⟨rfl, fun _ _ => rfl⟩

theorem Dev.sparesTo_ite {p : Prop} [Decidable p] (ht : d.SparesTo n t) (hu : d.SparesTo n u) :
    d.SparesTo n (if p then t else u) := by
  split
  · exact ht
  · exact hu

theorem Dev.sparesTo_setDie (d : Dev) (x : Die) : d.SparesTo n (d.setDie n x) :=
  ⟨rfl, fun k hk => by rw [Dev.die_setDie, if_neg hk]⟩

theorem Dev.sparesTo_modDie (d : Dev) (f : Die → Die) : d.SparesTo n (d.modDie n f) :=
  ⟨rfl, fun k hk => by rw [Dev.die_modDie, if_neg hk]⟩

theorem Dev.sparesTo_modClaim (d : Dev) (c : Nat) (f : Claim → Claim) : d.SparesTo n (d.modClaim c f) :=
  Dev.sparesTo_of_dies rfl rfl

theorem Dev.sparesTo_health (d : Dev) (h : Health) : d.SparesTo n { d with health := h } := Dev.sparesTo_of_dies rfl rfl

theorem Dev.sparesTo_sweepRem (d : Dev) : d.SparesTo n d.sweepRem := Dev.sparesTo_of_dies rfl rfl

theorem Dev.sparesTo_recordRes (d : Dev) (m : Nat) (core : Bool) (p : Nat) : d.SparesTo n (d.recordRes m core p) := by
  cases core <;> exact Dev.sparesTo_of_dies rfl rfl

theorem Dev.sparesTo_resAlarm (d : Dev) (m : Nat) (core : Bool) : d.SparesTo n (d.resAlarm m core) := by
  refine Dev.sparesTo_of_dies ?_ (Dev.alarm_dies ..)
  rw [Dev.resAlarm, Dev.alarm_eq]
  rfl

theorem Dev.condArises_power (d : Dev) (c : Nat) :
    (d.condArises c).power = { d.power with svcReqN := (d.condArises c).power.svcReqN } := by
  unfold Dev.condArises
  dsimp only
  split <;> simp

theorem Dev.sparesTo_condArises (d : Dev) (c : Nat) : d.SparesTo n (d.condArises c) := by
  refine Dev.sparesTo_of_dies ?_ (Dev.condArises_dies ..)
  apply Dev.ext <;> simp [Dev.substituted, ← Dev.condArises_power]

theorem Dev.condEnds_power (d : Dev) (c : Nat) : (d.condEnds c).power = { d.power with svcReqN := (d.condEnds c).power.svcReqN } := by
  unfold Dev.condEnds
  dsimp only
  split_ifs <;> simp

theorem Dev.sparesTo_condEnds (d : Dev) (c : Nat) : d.SparesTo n (d.condEnds c) := by
  refine Dev.sparesTo_of_dies ?_ (Dev.condEnds_dies ..)
  apply Dev.ext <;> simp [Dev.substituted, ← Dev.condEnds_power]

theorem Dev.sparesTo_heldDone (d : Dev) : d.SparesTo n d.heldDone := by
  unfold Dev.heldDone
  split
  · exact d.sparesTo_condEnds 4
  · exact d.sparesTo_refl

theorem Dev.sparesTo_compactFree (d : Dev) : d.SparesTo n (d.compactFree n) := by
  unfold Dev.compactFree
  dsimp only
  split
  · refine Dev.SparesTo.trans ?_ (Dev.sparesTo_heldDone _)
    refine Dev.SparesTo.trans ?_ (Dev.sparesTo_ite ((Dev.sparesTo_modDie _ _).trans (Dev.sparesTo_health _ _)) (Dev.sparesTo_refl _))
    exact Dev.sparesTo_ite ((d.sparesTo_modDie _).trans (Dev.sparesTo_health _ _)) d.sparesTo_refl
  · exact d.sparesTo_refl

theorem Dev.sparesTo_withdraw (d : Dev) (core : Bool) (l : Nat) : d.SparesTo n (d.withdraw n core l) := by
  unfold Dev.withdraw
  refine Dev.SparesTo.trans ?_ ((Dev.sparesTo_condArises _ 3).trans (Dev.sparesTo_compactFree _))
  split
  · exact d.sparesTo_modClaim _ _
  · exact d.sparesTo_refl

theorem Dev.sparesTo_substitute (d : Dev) (t : Subst) : d.SparesTo t.die (d.substitute t) := by
  unfold Dev.substitute
  dsimp only
  split
  · exact (d.sparesTo_setDie _).trans (Dev.sparesTo_health _ _)
  · exact d.sparesTo_withdraw _ _

end Frame

/-! ## Conditions and alarms (R380, R382, R384) -/

section Health

variable (d : Dev)

/-- Health after one more alarm. -/
def Health.AlarmsTo (h x : Health) : Prop := ∃ queue merged dropTrace dropLog,
  x = { h with queue := queue, merged := merged, dropTrace := dropTrace, dropLog := dropLog, alarms := h.alarms + 1 }

theorem Dev.alarmsTo_resAlarm (n : Nat) (core : Bool) : d.health.AlarmsTo (d.resAlarm n core).health := by
  unfold Dev.resAlarm Dev.alarm
  simp only [Dev.raise_health]
  rw [Health.enqueue_eq]
  exact ⟨_, _, _, _, rfl⟩

theorem Dev.condArises_health (c : Nat) : (d.condArises c).health =
    { d.health with cond := d.health.cond ||| BitVec.ofNat 64 (2 ^ c), acked := (d.condArises c).health.acked } := by
  unfold Dev.condArises
  dsimp only
  split <;> simp

/-- Clearing a bit that is clear changes nothing. -/
theorem and_not_two_pow_of_clear {w i : Nat} (x : BitVec w) (h : x.getLsbD i = false) : x &&& ~~~BitVec.ofNat w (2 ^ i) = x := by
  apply BitVec.eq_of_getLsbD_eq
  intro k hk
  rw [BitVec.getLsbD_and, BitVec.getLsbD_not, BitVec.getLsbD_ofNat, Nat.testBit_two_pow]
  by_cases hki : i = k
  · subst hki; simp [h]
  · simp [hk, hki]

theorem Dev.condEnds_health (c : Nat) : (d.condEnds c).health =
    { d.health with cond := d.health.cond &&& ~~~BitVec.ofNat 64 (2 ^ c), acked := (d.condEnds c).health.acked } := by
  unfold Dev.condEnds
  dsimp only
  split
  · split <;> simp
  · next h => rw [and_not_two_pow_of_clear _ (Bool.eq_false_iff.2 h)]

/-- The last substitution that waited is done: condition 4 ends. -/
theorem Dev.heldDone_health_of_empty (hheld : d.health.held = []) (htesting : d.health.testing = []) : d.heldDone.health =
    { d.health with cond := d.health.cond &&& ~~~0x10, acked := d.heldDone.health.acked } := by
  have hdone : d.heldDone = d.condEnds 4 := by simp [Dev.heldDone, hheld, htesting]
  rw [hdone, Dev.condEnds_health]
  rfl

/-- Two sets of conditions that agree apart from condition 4. -/
def SameButWaiting (x y : BitVec 64) : Prop := x ||| 0x10 = y ||| 0x10

theorem SameButWaiting.trans {x y z : BitVec 64} (h : SameButWaiting x y) (h' : SameButWaiting y z) : SameButWaiting x z := Eq.trans h h'

theorem sameButWaiting_and_not (x : BitVec 64) : SameButWaiting (x &&& ~~~0x10) x := by
  apply BitVec.eq_of_getLsbD_eq
  intro k hk
  simp only [BitVec.getLsbD_or, BitVec.getLsbD_and, BitVec.getLsbD_not, hk, decide_true, Bool.true_and]
  cases x.getLsbD k <;> cases (0x10 : BitVec 64).getLsbD k <;> rfl

theorem SameButWaiting.getLsbD {x y : BitVec 64} (h : SameButWaiting x y) {k : Nat} (hk : (0x10 : BitVec 64).getLsbD k = false) :
    x.getLsbD k = y.getLsbD k := by
  simpa only [BitVec.getLsbD_or, hk, Bool.or_false] using congrArg (BitVec.getLsbD · k) h

/-- Health after condition 4 has ended, where it ends. -/
def Health.SettlesTo (h x : Health) : Prop := ∃ cond acked, x = { h with cond := cond, acked := acked } ∧ SameButWaiting cond h.cond

theorem Health.settlesTo_refl (h : Health) : h.SettlesTo h := ⟨_, _, rfl, rfl⟩

theorem Health.SettlesTo.trans {h x y : Health} (hx : h.SettlesTo x) (hy : x.SettlesTo y) : h.SettlesTo y := by
  obtain ⟨c, a, rfl, hc⟩ := hx
  obtain ⟨c', a', rfl, hc'⟩ := hy
  exact ⟨c', a', rfl, hc'.trans hc⟩

theorem Dev.settlesTo_heldDone : d.health.SettlesTo d.heldDone.health := by
  unfold Dev.heldDone
  split
  · exact ⟨_, _, d.condEnds_health 4, sameButWaiting_and_not _⟩
  · exact d.health.settlesTo_refl

/-- Where no condition ends, one that arises is added. -/
theorem Dev.settlesTo_condArises (c : Nat) :
    Health.SettlesTo { d.health with cond := d.health.cond ||| BitVec.ofNat 64 (2 ^ c) } (d.condArises c).health :=
  ⟨_, _, d.condArises_health c, rfl⟩

/-- Health after changes of the substitutions and of condition 4, none that waits under HOLD being new. -/
def Health.RenumbersTo (h x : Health) : Prop :=
  ∃ cond acked testing held, x = { h with cond := cond, acked := acked, testing := testing, held := held } ∧
    SameButWaiting cond h.cond ∧ (h.held = [] → held = [])

theorem Health.SettlesTo.renumbersTo {h x : Health} (hx : h.SettlesTo x) : h.RenumbersTo x := by
  obtain ⟨c, a, heq, hc⟩ := hx
  exact ⟨c, a, _, _, heq, hc, id⟩

theorem Health.RenumbersTo.trans {h x y : Health} (hx : h.RenumbersTo x) (hy : x.RenumbersTo y) : h.RenumbersTo y := by
  obtain ⟨c, a, ts, hs, rfl, hc, hh⟩ := hx
  obtain ⟨c', a', ts', hs', rfl, hc', hh'⟩ := hy
  exact ⟨c', a', ts', hs', rfl, hc'.trans hc, fun h0 => hh' (hh h0)⟩

theorem Health.renumbersTo_filter (h : Health) (p : Subst → Bool) :
    h.RenumbersTo { h with testing := h.testing.filter p, held := h.held.filter p } :=
  ⟨_, _, _, _, rfl, rfl, fun h0 => by rw [h0]; rfl⟩

end Health

/-! ## Lanes and cores that claims hold (R141) -/

section Held

variable {d e : Dev} {n : Nat}

theorem Dev.isOff_congr (h : e.blocks = d.blocks) (b : BlockId) : e.isOff b = d.isOff b := by
  rw [Dev.isOff, Dev.block_congr h, Dev.isOff]

theorem Dev.lanesHeld_congr (hblocks : e.blocks = d.blocks) (hlanes : ∀ c, (e.claim c).lanes = (d.claim c).lanes) (n : Nat) :
    e.lanesHeld n = d.lanesHeld n := by
  simp only [Dev.lanesHeld, Dev.isOff_congr hblocks, hlanes]

theorem Dev.coresHeld_congr (hblocks : e.blocks = d.blocks) (hcores : ∀ c, (e.claim c).cores = (d.claim c).cores) (n : Nat) :
    e.coresHeld n = d.coresHeld n := by
  simp only [Dev.coresHeld, Dev.isOff_congr hblocks, hcores]

theorem Dev.ownerOf_congr (hblocks : e.blocks = d.blocks) (hclaims : e.claims = d.claims) (n : Nat) (core : Bool) (l : Nat) :
    e.ownerOf n core l = d.ownerOf n core l := by
  simp only [Dev.ownerOf, Dev.isOff_congr hblocks, Dev.claim_congr hclaims]

/-- Claims hold lanes and cores of the die: none of either is numbered anew. -/
def Dev.BothHeld (d : Dev) (n : Nat) : Prop := d.lanesHeld n ≠ 0 ∧ d.coresHeld n ≠ 0

theorem Dev.BothHeld.congr (h : d.BothHeld n) (hblocks : e.blocks = d.blocks)
    (hclaims : ∀ c, (e.claim c).lanes = (d.claim c).lanes ∧ (e.claim c).cores = (d.claim c).cores) : e.BothHeld n := by
  obtain ⟨hlanes, hcores⟩ := h
  exact ⟨by rwa [Dev.lanesHeld_congr hblocks fun c => (hclaims c).1], by rwa [Dev.coresHeld_congr hblocks fun c => (hclaims c).2]⟩

theorem Dev.BothHeld.of_claims (h : d.BothHeld n) (hblocks : e.blocks = d.blocks) (hclaims : e.claims = d.claims) : e.BothHeld n :=
  h.congr hblocks fun c => by rw [Dev.claim_congr hclaims]; exact ⟨rfl, rfl⟩

theorem Dev.compactFree_of_bothHeld (h : d.BothHeld n) : d.compactFree n = d.heldDone ∨ d.compactFree n = d := by
  obtain ⟨hlanes, hcores⟩ := h
  unfold Dev.compactFree
  dsimp only
  by_cases hready : ((d.die n).ready && !(d.die n).contained) = true
  · exact .inl (by rw [if_pos hready, if_neg hlanes, if_neg hcores])
  · exact .inr (if_neg hready)

theorem Dev.compactFree_dies_of_bothHeld (h : d.BothHeld n) : (d.compactFree n).dies = d.dies := by
  rcases Dev.compactFree_of_bothHeld h with heq | heq <;> rw [heq]
  exact d.heldDone_dies

theorem Dev.settlesTo_compactFree (h : d.BothHeld n) : d.health.SettlesTo (d.compactFree n).health := by
  rcases Dev.compactFree_of_bothHeld h with heq | heq <;> rw [heq]
  · exact d.settlesTo_heldDone
  · exact d.health.settlesTo_refl

theorem Dev.renumbersTo_compactFree (d : Dev) (n : Nat) : d.health.RenumbersTo (d.compactFree n).health := by
  unfold Dev.compactFree
  dsimp only
  split
  · refine Health.RenumbersTo.trans ?_ (Dev.settlesTo_heldDone _).renumbersTo
    split_ifs
    · exact (d.health.renumbersTo_filter _).trans (Health.renumbersTo_filter _ _)
    · exact d.health.renumbersTo_filter _
    · exact d.health.renumbersTo_filter _
    · exact d.health.settlesTo_refl.renumbersTo
  · exact d.health.settlesTo_refl.renumbersTo

end Held

/-! ## Withdrawal and substitution (R244, R384) -/

section Withdraw

variable {d : Dev} {n l : Nat} {core : Bool}

/-- The owner of a withdrawn number loses its shape. -/
def Dev.ownerLoses (d : Dev) (n : Nat) (core : Bool) (l : Nat) : Dev :=
  match d.ownerOf n core l with
  | some c => d.modClaim c (fun k => { k with shapeLost := true })
  | none => d

theorem Dev.withdraw_eq (d : Dev) (n : Nat) (core : Bool) (l : Nat) :
    d.withdraw n core l = ((d.ownerLoses n core l).condArises 3).compactFree n := rfl

@[simp] theorem Dev.ownerLoses_dies (d : Dev) (n : Nat) (core : Bool) (l : Nat) : (d.ownerLoses n core l).dies = d.dies := by
  unfold Dev.ownerLoses
  split <;> rfl

@[simp] theorem Dev.ownerLoses_blocks (d : Dev) (n : Nat) (core : Bool) (l : Nat) : (d.ownerLoses n core l).blocks = d.blocks := by
  unfold Dev.ownerLoses
  split <;> rfl

@[simp] theorem Dev.ownerLoses_health (d : Dev) (n : Nat) (core : Bool) (l : Nat) : (d.ownerLoses n core l).health = d.health := by
  unfold Dev.ownerLoses
  split <;> rfl

@[simp] theorem Dev.ownerLoses_store (d : Dev) (n : Nat) (core : Bool) (l : Nat) : (d.ownerLoses n core l).store = d.store := by
  unfold Dev.ownerLoses
  split <;> rfl

theorem Dev.ownerLoses_claim (d : Dev) (n : Nat) (core : Bool) (l c : Nat) : (d.ownerLoses n core l).claim c = d.claim c ∨
    (d.ownerLoses n core l).claim c = { d.claim c with shapeLost := true } := by
  unfold Dev.ownerLoses
  split
  · next k hk =>
    rw [Dev.claim_modClaim]
    split
    · next hc => rw [hc]; exact .inr rfl
    · exact .inl rfl
  · exact .inl rfl

theorem Dev.ownerLoses_claim_owner {c : Nat} (h : d.ownerOf n core l = some c) :
    (d.ownerLoses n core l).claim c = { d.claim c with shapeLost := true } := by
  unfold Dev.ownerLoses
  rw [h]
  exact (Dev.claim_modClaim ..).trans (if_pos rfl)

theorem Dev.withdraw_claim_owner {c : Nat} (h : d.ownerOf n core l = some c) :
    (d.withdraw n core l).claim c = { d.claim c with shapeLost := true } := by
  rw [Dev.withdraw_eq, Dev.claim_congr (Dev.compactFree_claims ..), Dev.claim_congr (Dev.condArises_claims ..),
    Dev.ownerLoses_claim_owner h]

theorem Dev.withdraw_store (d : Dev) (n : Nat) (core : Bool) (l : Nat) : (d.withdraw n core l).store = d.store := by
  rw [Dev.withdraw_eq, Dev.compactFree_store, Dev.condArises_store, Dev.ownerLoses_store]

theorem Dev.settlesTo_ownerLoses (d : Dev) (n : Nat) (core : Bool) (l : Nat) :
    Health.SettlesTo { d.health with cond := d.health.cond ||| 8 } ((d.ownerLoses n core l).condArises 3).health := by
  have h := Dev.settlesTo_condArises (d.ownerLoses n core l) 3
  rw [Dev.ownerLoses_health] at h
  exact h

/-- Condition 3 arises; of the substitutions some may have nothing left to do. -/
theorem Dev.renumbersTo_withdraw (d : Dev) (n : Nat) (core : Bool) (l : Nat) :
    Health.RenumbersTo { d.health with cond := d.health.cond ||| 8 } (d.withdraw n core l).health :=
  (d.settlesTo_ownerLoses n core l).renumbersTo.trans (Dev.renumbersTo_compactFree _ n)

theorem Dev.bothHeld_ownerLoses (h : d.BothHeld n) (core : Bool) (l : Nat) : ((d.ownerLoses n core l).condArises 3).BothHeld n := by
  refine h.congr ?_ fun c => ?_
  · rw [Dev.condArises_blocks, Dev.ownerLoses_blocks]
  · rw [Dev.claim_congr (Dev.condArises_claims ..)]
    rcases d.ownerLoses_claim n core l c with hc | hc <;> rw [hc] <;> exact ⟨rfl, rfl⟩

theorem Dev.withdraw_dies_of_bothHeld (h : d.BothHeld n) (core : Bool) (l : Nat) : (d.withdraw n core l).dies = d.dies := by
  rw [Dev.withdraw_eq, Dev.compactFree_dies_of_bothHeld (Dev.bothHeld_ownerLoses h core l), Dev.condArises_dies, Dev.ownerLoses_dies]

theorem Dev.settlesTo_withdraw (h : d.BothHeld n) (core : Bool) (l : Nat) :
    Health.SettlesTo { d.health with cond := d.health.cond ||| 8 } (d.withdraw n core l).health :=
  (d.settlesTo_ownerLoses n core l).trans (Dev.settlesTo_compactFree (Dev.bothHeld_ownerLoses h core l))

theorem Dev.substitute_of_spare {t : Subst} {q : Nat} {rest : List Nat} (h : (d.die t.die).spares t.core = q :: rest) :
    d.substitute t = { d.setDie t.die ((d.die t.die).setSpares t.core rest) with
      health := { d.health with testing := d.health.testing ++ [{ t with spare := some q }] } } := by
  simp only [Dev.substitute, h, Dev.setDie_health]

theorem Dev.die_substitute_of_spare {t : Subst} {q : Nat} {rest : List Nat} (h : (d.die t.die).spares t.core = q :: rest) :
    (d.substitute t).die t.die = (d.die t.die).setSpares t.core rest := by
  rw [Dev.substitute_of_spare h]
  exact (Dev.die_setDie ..).trans (if_pos rfl)

theorem Dev.health_substitute_of_spare {t : Subst} {q : Nat} {rest : List Nat} (h : (d.die t.die).spares t.core = q :: rest) :
    (d.substitute t).health = { d.health with testing := d.health.testing ++ [{ t with spare := some q }] } := by
  rw [Dev.substitute_of_spare h]

theorem Dev.claims_substitute_of_spare {t : Subst} {q : Nat} {rest : List Nat} (h : (d.die t.die).spares t.core = q :: rest) :
    (d.substitute t).claims = d.claims := by
  rw [Dev.substitute_of_spare h]
  rfl

theorem Dev.substitute_of_no_spare {t : Subst} (h : (d.die t.die).spares t.core = []) :
    d.substitute t = d.withdraw t.die t.core t.logical := by
  simp only [Dev.substitute, h]

theorem Dev.substitute_keeps (d : Dev) (t : Subst) : (d.substitute t).rings = d.rings ∧ (d.substitute t).store = d.store ∧
    (d.substitute t).health.alarms = d.health.alarms ∧ (d.substitute t).health.hold = d.health.hold ∧
      (d.health.held = [] → (d.substitute t).health.held = []) := by
  refine ⟨(congrArg Dev.rings (d.sparesTo_substitute t).1 :), ?_⟩
  cases h : (d.die t.die).spares t.core with
  | cons q rest =>
    rw [Dev.substitute_of_spare h]
    exact ⟨rfl, rfl, rfl, id⟩
  | nil =>
    rw [Dev.substitute_of_no_spare h]
    obtain ⟨c, a, ts, hs, hhealth, -, hh⟩ := d.renumbersTo_withdraw t.die t.core t.logical
    rw [hhealth]
    exact ⟨d.withdraw_store _ _ _, rfl, rfl, hh⟩

end Withdraw

end Sys2Proof.Machine

/-! LANE_FAULT, SPARE_SELF_TEST_DONE and SPARE_CTL_WRITE (R244, R368, R381, R384, R385). -/
namespace Sys2Proof.Machine

/-! ## The failure of a lane or core (R381, R384) -/

section Failure

variable {d : Dev} {n p l : Nat} {core : Bool}

theorem Die.serve_log (x : Die) (core : Bool) (l : Nat) :
    if core then (x.serve core l false).coreLog = x.coreLog &&& ~~~BitVec.ofNat 8 (2 ^ l)
    else (x.serve core l false).laneLog = x.laneLog &&& ~~~BitVec.ofNat 64 (2 ^ l) := by cases core <;> rfl

theorem Die.serve_otherLog (x : Die) (core : Bool) (l : Nat) (on : Bool) :
    if core then (x.serve core l on).laneLog = x.laneLog else (x.serve core l on).coreLog = x.coreLog := by cases core <;> rfl

theorem Die.spares_serve (x : Die) (core : Bool) (l : Nat) (on : Bool) : (x.serve core l on).spares core = x.spares core := by
  cases core <;> rfl

theorem Die.spares_setSpares (x : Die) (core : Bool) (q : List Nat) : (x.setSpares core q).spares core = q := by cases core <;> rfl

theorem Die.logs_setSpares (x : Die) (core : Bool) (q : List Nat) :
    (x.setSpares core q).laneLog = x.laneLog ∧ (x.setSpares core q).coreLog = x.coreLog := by cases core <;> exact ⟨rfl, rfl⟩

/-- Physical lanes or cores by logical number. -/
def Die.physical (x : Die) (core : Bool) : List Nat := if core then x.coreList else x.laneList

/-- A logical lane or core is in service. -/
def Die.inService (x : Die) (core : Bool) (l : Nat) : Bool := if core then x.coreLog.getLsbD l else x.laneLog.getLsbD l

/-- A failed lane or core is recorded, its logical number goes out of service, and the alarm is raised. -/
def Dev.takenOut (d : Dev) (n : Nat) (core : Bool) (p l : Nat) : Dev :=
  ((d.recordRes n core p).setDie n ((d.die n).serve core l false)).resAlarm n core

/-- A substitution waits under HOLD. -/
def Dev.holdBack (d : Dev) (u : Subst) : Dev := { d with health := { d.health with held := d.health.held ++ [u] } }.condArises 4

theorem Dev.resFails_eq (d : Dev) (n : Nat) (core : Bool) (p : Nat) : d.resFails n core p =
    if ((d.die n).physical core).contains p && (d.die n).inService core (((d.die n).physical core).idxOf p) then
      let l := ((d.die n).physical core).idxOf p
      let t := d.takenOut n core p l
      let u : Subst := { die := n, core := core, logical := l, spare := none }
      if ((d.die n).spares core).isEmpty then t.withdraw n core l
      else if t.health.hold then t.holdBack u
      else t.substitute u
    else ((d.recordRes n core p).setDie n ((d.die n).setSpares core (((d.die n).spares core).filter (· != p)))).resAlarm n core := rfl

theorem Dev.recordRes_health (d : Dev) (n : Nat) (core : Bool) (p : Nat) : (d.recordRes n core p).health = d.health := by cases core <;> rfl
theorem Dev.recordRes_claims (d : Dev) (n : Nat) (core : Bool) (p : Nat) : (d.recordRes n core p).claims = d.claims := by cases core <;> rfl
theorem Dev.recordRes_blocks (d : Dev) (n : Nat) (core : Bool) (p : Nat) : (d.recordRes n core p).blocks = d.blocks := by cases core <;> rfl
theorem Dev.recordRes_dies (d : Dev) (n : Nat) (core : Bool) (p : Nat) : (d.recordRes n core p).dies = d.dies := by cases core <;> rfl

theorem Dev.recordRes_otherStore (d : Dev) (n : Nat) (core : Bool) (p : Nat) :
    if core then (d.recordRes n core p).store.lanes = d.store.lanes else (d.recordRes n core p).store.cores = d.store.cores := by
  cases core <;> rfl

theorem Dev.recordRes_lanes (d : Dev) (n p : Nat) : Tbl.lookD (d.recordRes n false p).store.lanes n 0 =
    Tbl.lookD d.store.lanes n 0 ||| BitVec.ofNat 66 (2 ^ p) := Tbl.lookD_put_same ..

theorem Dev.recordRes_cores (d : Dev) (n p : Nat) : Tbl.lookD (d.recordRes n true p).store.cores n 0 =
    Tbl.lookD d.store.cores n 0 ||| BitVec.ofNat 9 (2 ^ p) := Tbl.lookD_put_same ..

theorem Dev.takenOut_claims (d : Dev) (n : Nat) (core : Bool) (p l : Nat) : (d.takenOut n core p l).claims = d.claims :=
  (Dev.alarm_claims ..).trans (d.recordRes_claims n core p)

theorem Dev.takenOut_blocks (d : Dev) (n : Nat) (core : Bool) (p l : Nat) : (d.takenOut n core p l).blocks = d.blocks :=
  (Dev.alarm_blocks ..).trans (d.recordRes_blocks n core p)

theorem Dev.takenOut_store (d : Dev) (n : Nat) (core : Bool) (p l : Nat) : (d.takenOut n core p l).store = (d.recordRes n core p).store :=
  Dev.alarm_store ..

theorem Dev.takenOut_die (d : Dev) (n : Nat) (core : Bool) (p l : Nat) : (d.takenOut n core p l).die n = (d.die n).serve core l false :=
  (Dev.die_congr (Dev.alarm_dies ..) n).trans ((Dev.die_setDie ..).trans (if_pos rfl))

theorem Dev.alarmsTo_takenOut (d : Dev) (n : Nat) (core : Bool) (p l : Nat) : d.health.AlarmsTo (d.takenOut n core p l).health := by
  have h := ((d.recordRes n core p).setDie n ((d.die n).serve core l false)).alarmsTo_resAlarm n core
  rw [Dev.setDie_health, Dev.recordRes_health] at h
  exact h

theorem Dev.sparesTo_takenOut (d : Dev) (n : Nat) (core : Bool) (p l : Nat) : d.SparesTo n (d.takenOut n core p l) :=
  ((d.sparesTo_recordRes n core p).trans (Dev.sparesTo_setDie _ _)).trans (Dev.sparesTo_resAlarm _ n core)

theorem Dev.sparesTo_resFails (d : Dev) (n : Nat) (core : Bool) (p : Nat) : d.SparesTo n (d.resFails n core p) := by
  rw [Dev.resFails_eq]
  split
  · refine (d.sparesTo_takenOut n core p (((d.die n).physical core).idxOf p)).trans ?_
    refine Dev.sparesTo_ite (Dev.sparesTo_withdraw _ _ _) (Dev.sparesTo_ite ?_ (Dev.sparesTo_substitute _ _))
    exact (Dev.sparesTo_health _ _).trans (Dev.sparesTo_condArises _ 4)
  · exact ((d.sparesTo_recordRes n core p).trans (Dev.sparesTo_setDie _ _)).trans (Dev.sparesTo_resAlarm _ n core)

theorem Dev.resFails_rings (d : Dev) (n : Nat) (core : Bool) (p : Nat) : (d.resFails n core p).rings = d.rings :=
  (congrArg Dev.rings (d.sparesTo_resFails n core p).1 :)

/-- The physical lane or core `p` serves as the logical one `l`. -/
def Die.Serves (x : Die) (core : Bool) (p l : Nat) : Prop :=
  (x.physical core).contains p = true ∧ x.inService core l = true ∧ l = (x.physical core).idxOf p

theorem Dev.resFails_of_serves (h : (d.die n).Serves core p l) : d.resFails n core p =
    if ((d.die n).spares core).isEmpty then (d.takenOut n core p l).withdraw n core l
    else if d.health.hold then (d.takenOut n core p l).holdBack ⟨n, core, l, none⟩
    else (d.takenOut n core p l).substitute ⟨n, core, l, none⟩ := by
  obtain ⟨hlist, hlog, rfl⟩ := h
  obtain ⟨q, m, a, b, hhealth⟩ := d.alarmsTo_takenOut n core p (((d.die n).physical core).idxOf p)
  rw [Dev.resFails_eq, hlist, hlog]
  simp only [Bool.and_self, if_true, hhealth]

/-- What a serving lane or core's failure leaves, but for its frame: the substitution of its number, in the words of the statement. -/
def Dev.Failed (d : Dev) (n : Nat) (core : Bool) (l : Nat) (t : Dev) : Prop :=
  let x := d.die n
  let sub : Option Nat → Subst := fun p => { die := n, core := core, logical := l, spare := p }
  (d.BothHeld n ∨ x.spares core ≠ [] → if core then (t.die n).laneLog = x.laneLog else (t.die n).coreLog = x.coreLog) ∧
  (x.spares core ≠ [] → if core then (t.die n).coreLog = x.coreLog &&& ~~~BitVec.ofNat 8 (2 ^ l)
    else (t.die n).laneLog = x.laneLog &&& ~~~BitVec.ofNat 64 (2 ^ l)) ∧
  (∀ p rest, x.spares core = p :: rest → d.health.hold = false → t.health.testing = d.health.testing ++ [sub (some p)] ∧
    (t.die n).spares core = rest ∧ t.health.cond = d.health.cond ∧ t.claims = d.claims) ∧
  (x.spares core ≠ [] → d.health.hold = true → t.health.held = d.health.held ++ [sub none] ∧
    t.health.cond = d.health.cond ||| 0x10 ∧ t.claims = d.claims) ∧
  (x.spares core = [] → t.health.cond ||| 0x10 = d.health.cond ||| 0x18 ∧
    ∀ c, d.ownerOf n core l = some c → t.claim c = { d.claim c with shapeLost := true })

theorem Dev.bothHeld_takenOut (h : d.BothHeld n) (core : Bool) (p l : Nat) : (d.takenOut n core p l).BothHeld n :=
  h.of_claims (d.takenOut_blocks n core p l) (d.takenOut_claims n core p l)

theorem Dev.die_takenOut_of_dies {t : Dev} (h : t.dies = (d.takenOut n core p l).dies) : t.die n = (d.die n).serve core l false :=
  (Dev.die_congr h n).trans (d.takenOut_die n core p l)

theorem Dev.failed_withdraw (p : Nat) (hspares : (d.die n).spares core = []) :
    d.Failed n core l ((d.takenOut n core p l).withdraw n core l) := by
  obtain ⟨q, m, a, b, hhealth⟩ := d.alarmsTo_takenOut n core p l
  obtain ⟨c, a', ts, hs, hw, hcond, -⟩ := (d.takenOut n core p l).renumbersTo_withdraw n core l
  refine ⟨fun hboth => ?_, fun h => absurd hspares h, fun q rest h => ?_, fun h => absurd hspares h, fun _ => ⟨?_, fun k hk => ?_⟩⟩
  · have hheld := hboth.resolve_right (fun h => h hspares)
    rw [Dev.die_takenOut_of_dies (Dev.withdraw_dies_of_bothHeld (Dev.bothHeld_takenOut hheld core p l) core l)]
    exact (d.die n).serve_otherLog core l false
  · rw [hspares] at h
    cases h
  · rw [hw]
    refine Eq.trans hcond ?_
    rw [hhealth]
    exact BitVec.or_assoc _ _ _
  · rw [Dev.withdraw_claim_owner (by rwa [Dev.ownerOf_congr (d.takenOut_blocks n core p l) (d.takenOut_claims n core p l)]),
      Dev.claim_congr (d.takenOut_claims n core p l)]

theorem Dev.failed_holdBack (p : Nat) (hspares : (d.die n).spares core ≠ []) (hhold : d.health.hold = true) :
    d.Failed n core l ((d.takenOut n core p l).holdBack ⟨n, core, l, none⟩) := by
  obtain ⟨q, m, a, b, hhealth⟩ := d.alarmsTo_takenOut n core p l
  have hdie : ((d.takenOut n core p l).holdBack ⟨n, core, l, none⟩).die n = (d.die n).serve core l false :=
    Dev.die_takenOut_of_dies (Dev.condArises_dies ..)
  refine ⟨fun _ => ?_, fun _ => ?_, fun q rest _ h => ?_, fun _ _ => ?_, fun h => absurd h hspares⟩
  · rw [hdie]
    exact (d.die n).serve_otherLog core l false
  · rw [hdie]
    exact (d.die n).serve_log core l
  · rw [hhold] at h
    cases h
  · rw [Dev.holdBack, Dev.condArises_health, hhealth]
    exact ⟨rfl, rfl, (Dev.condArises_claims ..).trans (d.takenOut_claims n core p l)⟩

theorem Dev.failed_substitute (p : Nat) (hspares : (d.die n).spares core ≠ []) (hhold : d.health.hold = false) :
    d.Failed n core l ((d.takenOut n core p l).substitute ⟨n, core, l, none⟩) := by
  obtain ⟨q, rest, hq⟩ := List.exists_cons_of_ne_nil hspares
  obtain ⟨queue, m, a, b, hhealth⟩ := d.alarmsTo_takenOut n core p l
  have hdie := d.takenOut_die n core p l
  have htaken : ((d.takenOut n core p l).die n).spares core = q :: rest := by rw [hdie, Die.spares_serve, hq]
  have hdie' := Dev.die_substitute_of_spare (t := ⟨n, core, l, none⟩) htaken
  rw [hdie] at hdie'
  obtain ⟨hlanes, hcores⟩ := ((d.die n).serve core l false).logs_setSpares core rest
  refine ⟨fun _ => ?_, fun _ => ?_, fun p' rest' h _ => ?_, fun _ h => ?_, fun h => absurd h hspares⟩
  · rw [hdie', hlanes, hcores]
    exact (d.die n).serve_otherLog core l false
  · rw [hdie', hlanes, hcores]
    exact (d.die n).serve_log core l
  · obtain ⟨rfl, rfl⟩ := List.cons.inj (hq.symm.trans h)
    rw [hdie', Dev.health_substitute_of_spare (t := ⟨n, core, l, none⟩) htaken, hhealth]
    exact ⟨rfl, Die.spares_setSpares _ _ _, rfl, (Dev.claims_substitute_of_spare (t := ⟨n, core, l, none⟩) htaken).trans
      (d.takenOut_claims n core p l)⟩
  · rw [hhold] at h
    cases h

theorem Dev.failed_resFails (h : (d.die n).Serves core p l) : d.Failed n core l (d.resFails n core p) := by
  rw [Dev.resFails_of_serves h]
  cases hs : ((d.die n).spares core).isEmpty with
  | true => exact Dev.failed_withdraw p (List.isEmpty_iff.1 hs)
  | false =>
    have hspares : (d.die n).spares core ≠ [] := fun h => by rw [h] at hs; cases hs
    cases hh : d.health.hold with
    | true => exact Dev.failed_holdBack p hspares hh
    | false => exact Dev.failed_substitute p hspares hh

/-- The store and the alarms do not depend on how the number is substituted. -/
theorem Dev.resFails_store_alarms (h : (d.die n).Serves core p l) :
    (d.resFails n core p).store = (d.recordRes n core p).store ∧ (d.resFails n core p).health.alarms = d.health.alarms + 1 := by
  obtain ⟨queue, m, a, b, hhealth⟩ := d.alarmsTo_takenOut n core p l
  have halarms : (d.takenOut n core p l).health.alarms = d.health.alarms + 1 := by rw [hhealth]
  rw [Dev.resFails_of_serves h, ← d.takenOut_store n core p l, ← halarms]
  split
  · obtain ⟨_, _, _, _, hw, -, -⟩ := (d.takenOut n core p l).renumbersTo_withdraw n core l
    exact ⟨Dev.withdraw_store .., by rw [hw]⟩
  · split
    · exact ⟨Dev.condArises_store .., by rw [Dev.holdBack, Dev.condArises_health]⟩
    · exact (Dev.substitute_keeps _ _).2.imp_right fun h => h.1

end Failure

/-! ## LANE_FAULT (R368, R384, R385) -/

section LaneFault

variable {s : State} {n : Fin 4} {r : RingNo} {c : W32} {e : Entry}

theorem Dev.killed_congr {d t u : Dev} (h : u.rings = t.rings) : d.killed u = d.killed t := by
  simp only [Dev.killed, Dev.entry_congr h]

theorem Dev.reap_of_none_killed {d t : Dev} (m : Memory) (h : d.killed t = []) : d.reap t m = (t.sweepRem, []) := by
  unfold Dev.reap
  rw [h]
  exact List.foldlRecOn (motive := fun p : Dev × List MemOp => p = (t.sweepRem, [])) _ _ rfl fun p hp x _ => by simpa using hp

theorem exec_laneFault_lane {p : Fin 66} (hon : (s.dev.die n.val).on = true) (hcont : (s.dev.die n.val).contained = false)
    (hkilled : s.dev.killed s.dev = []) : exec (.laneFault n (.lane p) none) s =
      .next { s with dev := (s.dev.resFails n.val false p.val).sweepRem } := by
  have hreap := Dev.reap_of_none_killed s.mem ((Dev.killed_congr (s.dev.resFails_rings n.val false p.val)).trans hkilled)
  simp only [exec, execLaneFault, hon, hcont, Bool.not_false, Bool.and_self, if_true, reapTo, hreap]
  rfl

theorem Dev.krnFault_of_not_running {d : Dev} {k : Nat} (h : (d.kernel k).st ≠ .running) : d.krnFault k = d :=
  if_neg fun hrun => h (beq_iff_eq.1 hrun)

theorem exec_laneFault_core {p : Fin 9} (hon : (s.dev.die n.val).on = true) (hcont : (s.dev.die n.val).contained = false)
    (hkernel : ∀ k, s.dev.ownerOf n.val true ((s.dev.die n.val).coreList.idxOf p.val) = some k → (s.dev.kernel k).st ≠ .running) :
    exec (.laneFault n (.core p) none) s = .next { s with dev := s.dev.resFails n.val true p.val } := by
  simp only [exec, execLaneFault, hon, hcont, Bool.not_false, Bool.and_self, if_true]
  split
  · cases hown : s.dev.ownerOf n.val true ((s.dev.die n.val).coreList.idxOf p.val) with
    | none => rfl
    | some k => simp only [Dev.krnFault_of_not_running (hkernel k hown)]; rfl
  · rfl

/-- The op that a lane fault ends: its result, but for its picks, is what the fault gives. -/
theorem Dev.entry_killOp {d : Dev} {r : Nat} (he : d.entry r e.count = some e) (hs : e.phase = .started) (res : Result) :
    (d.killOp r e.count res).entry r e.count = some (e.doneWith (e.counted res)) := by
  have hcharged : (d.chargeOp r e.count (e.counted res)).entry r e.count = some e := (Dev.entry_congr (Dev.chargeOp_rings ..) _ _).trans he
  rw [Dev.killOp, he]
  exact (Dev.entry_congr (Dev.leaveChans_rings ..) _ _).trans (Dev.entry_closeOp hcharged _ hs)

theorem Dev.entry_killOp_other (d : Dev) {r k : Nat} {x : W32} (res : Result) (h : ¬ (k = r ∧ x = c)) :
    (d.killOp r c res).entry k x = d.entry k x := by
  unfold Dev.killOp
  split
  · exact ((Dev.entry_congr (Dev.leaveChans_rings ..) _ _).trans (Dev.entry_closeOp_other _ _ h)).trans
      (Dev.entry_congr (Dev.chargeOp_rings ..) _ _)
  · rfl

theorem Dev.ring_killOp_other (d : Dev) {r k : Nat} (c : W32) (res : Result) (h : k ≠ r) : (d.killOp r c res).ring k = d.ring k := by
  unfold Dev.killOp
  split
  · exact ((Dev.ring_congr (Dev.leaveChans_rings ..) _).trans (Dev.ring_modRing_other _ _ h)).trans
      (Dev.ring_congr (Dev.chargeOp_rings ..) _)
  · rfl

theorem Entry.counted_status_reason (e : Entry) (res : Result) :
    (e.counted res).status = res.status ∧ (e.counted res).reason = res.reason := by
  unfold Entry.counted
  split <;> exact ⟨rfl, rfl⟩

/-- What a lane fault leaves of the rings, and of the op that it ends. -/
theorem reapTo_killed_op {r p : Nat} {res : Result} (m : Nat) (he : s.dev.entry r e.count = some e) (hs : e.phase = .started) :
    ∃ t, reapTo s ((s.dev.killOp r e.count res).resFails m false p) = .next t ∧ OnlyRing r s t ∧
      ∃ e', t.dev.entry r e.count = some e' ∧ e'.phase = .done ∧ e'.res.status = res.status ∧ e'.res.reason = res.reason := by
  have hfails := Dev.resFails_rings (s.dev.killOp r e.count res) m false p
  obtain ⟨hrings, hentry⟩ := Dev.followed_reap (d := s.dev) (t := (s.dev.killOp r e.count res).resFails m false p) s.mem
    fun k x h => (Dev.entry_congr hfails k x).trans (s.dev.entry_killOp_other res h)
  obtain ⟨f, hf⟩ := hentry _ ((Dev.entry_congr hfails r e.count).trans (Dev.entry_killOp he hs res))
  obtain ⟨hstatus, hreason⟩ := e.counted_status_reason res
  exact ⟨_, rfl, fun k hk => (hrings k hk).trans ((Dev.ring_congr hfails k).trans (s.dev.ring_killOp_other _ res hk)),
    _, hf, rfl, hstatus, hreason⟩

theorem exec_laneFault_op {p : Fin 66} (hon : (s.dev.die n.val).on = true) (hcont : (s.dev.die n.val).contained = false)
    (hlist : (s.dev.die n.val).laneList.contains p.val = true) (he : s.dev.entry r.val c = some e)
    (hop : laneOpcode (hOpcode e.desc) = true)
    (hown : s.dev.ownerOf n.val false ((s.dev.die n.val).laneList.idxOf p.val) = some (s.dev.claimOf r.val)) :
    exec (.laneFault n (.lane p) (some (r, c))) s = reapTo s ((s.dev.killOp r.val c
      { e.res with status := 0x3007, reason := BitVec.ofNat 16 (0x10 + n.val) }).resFails n.val false p.val) := by
  simp only [exec, execLaneFault, hon, hcont, he, hop, hlist, hown, Bool.not_false, Bool.and_self, if_true, beq_self_eq_true]
  rfl

end LaneFault

/-! ## SPARE_SELF_TEST_DONE and SPARE_CTL_WRITE (R384) -/

section SelfTest

variable {s : State} {d : Dev} {n : Fin 4} {core : Bool} {u : Subst} {p : Nat}

/-- A test is over. -/
def Dev.tested (d : Dev) (u : Subst) : Dev := { d with health := { d.health with testing := removeFirst u d.health.testing } }

/-- A die on which the physical lane or core `p` takes the logical number `l`. -/
def Die.replaced (x : Die) (core : Bool) (l p : Nat) : Die :=
  let x := x.serve core l true
  if core then { x with coreList := setNth x.coreList l p } else { x with laneList := setNth x.laneList l p }

/-- A spare has passed its test for a substitution. -/
def Dev.spareServes (d : Dev) (n : Nat) (core : Bool) (u : Subst) (p : Nat) : Dev :=
  ((((d.tested u).modDie n (fun x => x.replaced core u.logical p)).condArises 0).heldDone).compactFree n

/-- A spare has failed its test for a substitution. -/
def Dev.spareFailed (d : Dev) (n : Nat) (core : Bool) (u : Subst) (p : Nat) : Dev :=
  ((((d.tested u).recordRes n core p).resAlarm n core).substitute { u with spare := none }).heldDone

theorem exec_spareSelfTestDone (hfind : s.dev.health.testing.find? (fun t => t.die == n.val && t.core == core) = some u)
    (hspare : u.spare = some p) (pass : Bool) : exec (.spareSelfTestDone n core pass) s =
      .next { s with dev := if pass then s.dev.spareServes n.val core u p else s.dev.spareFailed n.val core u p } := by
  cases pass <;> simp only [exec, execSpareSelfTestDone, hfind, hspare] <;> rfl

theorem Dev.sparesTo_tested {m : Nat} (d : Dev) (u : Subst) : d.SparesTo m (d.tested u) := d.sparesTo_health _

theorem Dev.sparesTo_spareServes (d : Dev) (m : Nat) (core : Bool) (u : Subst) (p : Nat) : d.SparesTo m (d.spareServes m core u p) :=
  ((((d.sparesTo_tested u).trans (Dev.sparesTo_modDie _ _)).trans (Dev.sparesTo_condArises _ 0)).trans (Dev.sparesTo_heldDone _)).trans
    (Dev.sparesTo_compactFree _)

theorem Dev.sparesTo_spareFailed (d : Dev) (core : Bool) (u : Subst) (p : Nat) : d.SparesTo u.die (d.spareFailed u.die core u p) :=
  ((((d.sparesTo_tested u).trans (Dev.sparesTo_recordRes _ _ core p)).trans (Dev.sparesTo_resAlarm _ _ core)).trans
    (Dev.sparesTo_substitute _ { u with spare := none })).trans (Dev.sparesTo_heldDone _)

theorem Dev.bothHeld_testedAndArisen {m : Nat} (h : d.BothHeld m) (u : Subst) (f : Die → Die) :
    (((d.tested u).modDie m f).condArises 0).heldDone.BothHeld m :=
  h.of_claims ((Dev.heldDone_blocks _).trans (Dev.condArises_blocks ..)) ((Dev.heldDone_claims _).trans (Dev.condArises_claims ..))

/-- A spare that passes takes the number, with condition 0. -/
theorem Dev.spareServes_spec {m : Nat} (h : d.BothHeld m) (core : Bool) (u : Subst) (p : Nat) :
    (d.spareServes m core u p).die m = (d.die m).replaced core u.logical p ∧ (d.spareServes m core u p).store = d.store ∧
      Health.SettlesTo { d.health with testing := removeFirst u d.health.testing, cond := d.health.cond ||| 1 }
        (d.spareServes m core u p).health := by
  have hboth := Dev.bothHeld_testedAndArisen h u fun x => x.replaced core u.logical p
  refine ⟨?_, ?_, ?_⟩
  · rw [Dev.spareServes, Dev.die_congr (Dev.compactFree_dies_of_bothHeld hboth), Dev.die_congr (Dev.heldDone_dies _),
      Dev.die_congr (Dev.condArises_dies ..), Dev.die_modDie, if_pos rfl]
    rfl
  · rw [Dev.spareServes, Dev.compactFree_store, Dev.heldDone_store, Dev.condArises_store]
    rfl
  · exact ((Dev.settlesTo_condArises _ 0).trans (Dev.settlesTo_heldDone _)).trans (Dev.settlesTo_compactFree hboth)

/-- A spare that fails is recorded and alarmed. -/
def Dev.spareRecorded (d : Dev) (u : Subst) (p : Nat) : Dev := ((d.tested u).recordRes u.die u.core p).resAlarm u.die u.core

theorem Dev.spareFailed_eq (d : Dev) (u : Subst) (p : Nat) :
    d.spareFailed u.die u.core u p = ((d.spareRecorded u p).substitute { u with spare := none }).heldDone := rfl

theorem Dev.spareRecorded_dies (d : Dev) (u : Subst) (p : Nat) : (d.spareRecorded u p).dies = d.dies :=
  (Dev.alarm_dies ..).trans (Dev.recordRes_dies ..)

theorem Dev.spareRecorded_store (d : Dev) (u : Subst) (p : Nat) : (d.spareRecorded u p).store = (d.recordRes u.die u.core p).store :=
  Dev.alarm_store ..

theorem Dev.bothHeld_spareRecorded (h : d.BothHeld u.die) (p : Nat) : (d.spareRecorded u p).BothHeld u.die :=
  h.of_claims ((Dev.alarm_blocks ..).trans (Dev.recordRes_blocks ..)) ((Dev.alarm_claims ..).trans (Dev.recordRes_claims ..))

theorem Dev.alarmsTo_spareRecorded (d : Dev) (u : Subst) (p : Nat) :
    Health.AlarmsTo { d.health with testing := removeFirst u d.health.testing } (d.spareRecorded u p).health := by
  have h := ((d.tested u).recordRes u.die u.core p).alarmsTo_resAlarm u.die u.core
  rw [Dev.recordRes_health] at h
  exact h

theorem Dev.spareFailed_keeps (d : Dev) (u : Subst) (p : Nat) :
    (d.spareFailed u.die u.core u p).store = (d.recordRes u.die u.core p).store ∧
      (d.spareFailed u.die u.core u p).health.alarms = d.health.alarms + 1 := by
  obtain ⟨c, a, hsettled, -⟩ := ((d.spareRecorded u p).substitute { u with spare := none }).settlesTo_heldDone
  obtain ⟨-, hstore, halarms, -⟩ := (d.spareRecorded u p).substitute_keeps { u with spare := none }
  obtain ⟨q, m, x, y, hhealth⟩ := d.alarmsTo_spareRecorded u p
  rw [Dev.spareFailed_eq, Dev.heldDone_store, hstore, hsettled, ← d.spareRecorded_store u p]
  refine ⟨rfl, halarms.trans ?_⟩
  rw [hhealth]

/-- The next spare is tried. -/
theorem Dev.spareFailed_next {q : Nat} {rest : List Nat} (p : Nat) (hspares : (d.die u.die).spares u.core = q :: rest) :
    (d.spareFailed u.die u.core u p).health.testing = removeFirst u d.health.testing ++ [{ u with spare := some q }] ∧
      ((d.spareFailed u.die u.core u p).die u.die).spares u.core = rest := by
  have hnext : ((d.spareRecorded u p).die u.die).spares u.core = q :: rest := by rw [Dev.die_congr (d.spareRecorded_dies u p), hspares]
  obtain ⟨c, a, hsettled, -⟩ := ((d.spareRecorded u p).substitute { u with spare := none }).settlesTo_heldDone
  obtain ⟨queue, m, x, y, hhealth⟩ := d.alarmsTo_spareRecorded u p
  rw [Dev.spareFailed_eq, hsettled, Dev.health_substitute_of_spare (t := { u with spare := none }) hnext, hhealth,
    Dev.die_congr (Dev.heldDone_dies _), Dev.die_substitute_of_spare (t := { u with spare := none }) hnext]
  exact ⟨rfl, Die.spares_setSpares _ _ _⟩

/-- With no spare left the number is withdrawn, and condition 3 arises. -/
theorem Dev.spareFailed_last (p : Nat) (h : d.BothHeld u.die) (hspares : (d.die u.die).spares u.core = []) :
    (d.spareFailed u.die u.core u p).health.testing = removeFirst u d.health.testing ∧
      (d.spareFailed u.die u.core u p).health.cond.getLsbD 3 = true := by
  have hnone : ((d.spareRecorded u p).die u.die).spares u.core = [] := by rw [Dev.die_congr (d.spareRecorded_dies u p), hspares]
  obtain ⟨queue, m, x, y, hhealth⟩ := d.alarmsTo_spareRecorded u p
  obtain ⟨c, a, hsettled, hcond⟩ := (Dev.settlesTo_withdraw (Dev.bothHeld_spareRecorded h p) u.core u.logical).trans
    (Dev.settlesTo_heldDone _)
  rw [Dev.spareFailed_eq, Dev.substitute_of_no_spare (t := { u with spare := none }) hnone, hsettled, hhealth]
  refine ⟨rfl, (hcond.getLsbD (by decide)).trans ?_⟩
  rw [BitVec.getLsbD_or]
  exact Bool.or_true _

end SelfTest

section SpareCtl

variable {s : State} {v : W32}

theorem exec_spareCtlWrite_hold (hrun : s.dev.health.stopped = false) (hv : v.getLsbD 0 = true) : exec (.spareCtlWrite v) s =
    .next { s with dev := { s.dev with health := { s.dev.health with hold := true } } } := by
  simp only [exec, execSpareCtlWrite, viaCfg_of_serving hrun, hv, if_true]
  rfl

/-- Nothing waits under HOLD any more. -/
def Dev.released (d : Dev) : Dev := { d with health := { d.health with hold := false, held := [] } }

theorem exec_spareCtlWrite_auto (hrun : s.dev.health.stopped = false) (hv : v.getLsbD 0 = false) : exec (.spareCtlWrite v) s =
    .next { s with dev := (s.dev.health.held.foldl Dev.substitute s.dev.released).heldDone } := by
  simp only [exec, execSpareCtlWrite, viaCfg_of_serving hrun, hv, Bool.false_eq_true, if_false]
  rfl

/-- AUTO takes effect, and nothing waits, whatever becomes of the substitutions that it starts. -/
theorem Dev.substituted_released (d : Dev) (l : List Subst) : let t := l.foldl Dev.substitute d.released
    t.rings = d.rings ∧ t.store = d.store ∧ t.health.hold = false ∧ t.health.held = [] := by
  refine List.foldlRecOn (motive := fun t : Dev => t.rings = d.rings ∧ t.store = d.store ∧ t.health.hold = false ∧ t.health.held = [])
    _ _ ⟨rfl, rfl, rfl, rfl⟩ fun t ⟨hrings, hstore, hhold, hheld⟩ u _ => ?_
  obtain ⟨hrings', hstore', -, hhold', hheld'⟩ := t.substitute_keeps u
  exact ⟨hrings'.trans hrings, hstore'.trans hstore, hhold'.trans hhold, hheld' hheld⟩

end SpareCtl

/-! ## The statement -/

/-- The frame of the statement. -/
theorem Dev.SparesTo.state {s : State} {n : Nat} {t : Dev} (h : s.dev.SparesTo n t) :
    ({ s with dev := t } : State) = { s with dev := s.dev.substituted t } := congrArg (fun x => ({ s with dev := x } : State)) h.1

/-- What a spare that passes its test leaves, in the words of the statement. -/
theorem spareServes_ends {s : State} {n : Nat} (h : s.dev.BothHeld n) (core : Bool) (u : Subst) (p : Nat) :
    let d := s.dev
    let x := d.die n
    let t : State := { s with dev := d.spareServes n core u p }
    (t = { s with dev := d.substituted t.dev } ∧ ∀ k, k ≠ n → t.dev.die k = d.die k) ∧ t.dev.health.cond.getLsbD 0 = true ∧
      t.dev.health.testing = removeFirst u d.health.testing ∧ t.dev.health.held = d.health.held ∧ t.dev.store = d.store ∧
      t.dev.die n = (if core then { x with
          coreLog := x.coreLog ||| BitVec.ofNat 8 (2 ^ u.logical), coreList := setNth x.coreList u.logical p }
        else { x with laneLog := x.laneLog ||| BitVec.ofNat 64 (2 ^ u.logical), laneList := setNth x.laneList u.logical p }) := by
  obtain ⟨hdie, hstore, c, a, hsettled, hcond⟩ := Dev.spareServes_spec h core u p
  have hframe := s.dev.sparesTo_spareServes n core u p
  refine ⟨⟨hframe.state, hframe.2⟩, ?_, (congrArg Health.testing hsettled :), (congrArg Health.held hsettled :), hstore, hdie.trans ?_⟩
  · dsimp only
    rw [hsettled]
    refine (hcond.getLsbD (by decide)).trans ?_
    rw [BitVec.getLsbD_or]
    exact Bool.or_true _
  · cases core <;> rfl

/-- What a spare that fails its test leaves, in the words of the statement. -/
theorem spareFailed_ends {s : State} {n : Nat} {core : Bool} {u : Subst} (hu : u.die = n ∧ u.core = core) (h : s.dev.BothHeld n) (p : Nat) :
    let d := s.dev
    let t : State := { s with dev := d.spareFailed n core u p }
    (t = { s with dev := d.substituted t.dev } ∧ ∀ k, k ≠ n → t.dev.die k = d.die k) ∧ t.dev.health.alarms = d.health.alarms + 1 ∧
      (core = false → Tbl.lookD t.dev.store.lanes n 0 = Tbl.lookD d.store.lanes n 0 ||| BitVec.ofNat 66 (2 ^ p)) ∧
      (core = true → Tbl.lookD t.dev.store.cores n 0 = Tbl.lookD d.store.cores n 0 ||| BitVec.ofNat 9 (2 ^ p)) ∧
      (∀ q rest, (d.die n).spares core = q :: rest →
        t.dev.health.testing = removeFirst u d.health.testing ++ [{ u with spare := some q }] ∧ (t.dev.die n).spares core = rest) ∧
      ((d.die n).spares core = [] → t.dev.health.testing = removeFirst u d.health.testing ∧ t.dev.health.cond.getLsbD 3 = true) := by
  obtain ⟨rfl, rfl⟩ := hu
  obtain ⟨hstore, halarms⟩ := s.dev.spareFailed_keeps u p
  have hframe := s.dev.sparesTo_spareFailed u.core u p
  refine ⟨⟨hframe.state, hframe.2⟩, halarms, fun hlane => ?_, fun hcore => ?_, fun q rest => Dev.spareFailed_next p,
    Dev.spareFailed_last p h⟩
  · refine (congrArg (fun x : SignedStore => Tbl.lookD x.lanes u.die 0) hstore).trans ?_
    rw [hlane]
    exact s.dev.recordRes_lanes u.die p
  · refine (congrArg (fun x : SignedStore => Tbl.lookD x.cores u.die 0) hstore).trans ?_
    rw [hcore]
    exact s.dev.recordRes_cores u.die p

/-- What the failure of a serving lane or core leaves. -/
theorem Dev.resFails_spec {d : Dev} {n p l : Nat} {core : Bool} (h : (d.die n).Serves core p l) :
    d.SparesTo n (d.resFails n core p) ∧ (d.resFails n core p).health.alarms = d.health.alarms + 1 ∧
      (if core then (d.resFails n core p).store.lanes = d.store.lanes else (d.resFails n core p).store.cores = d.store.cores) ∧
      d.Failed n core l (d.resFails n core p) := by
  obtain ⟨hstore, halarms⟩ := Dev.resFails_store_alarms h
  exact ⟨d.sparesTo_resFails n core p, halarms, by rw [hstore]; exact d.recordRes_otherStore n core p, Dev.failed_resFails h⟩

/-- Settles O54. -/
theorem sparesSubstituteFailedLanesAndCores : Obligations.SparesSubstituteFailedLanesAndCores := by
  intro s n
  refine ⟨fun hon hcont => ⟨fun p hlist hlog _ => ⟨fun hkilled => ?_, fun r c e he hs hop hown => ?_⟩, fun p hlist hlog _ hkernel => ?_⟩,
    fun core u p hfind hspare hheld => ?_, fun hrun v => ⟨fun hv => ?_, fun hv => ?_⟩⟩
  · have hserves : (s.dev.die n.val).Serves false p.val ((s.dev.die n.val).laneList.idxOf p.val) := ⟨hlist, hlog, rfl⟩
    obtain ⟨hspares, hfails⟩ := Dev.resFails_spec hserves
    have hframe := hspares.trans (Dev.sparesTo_sweepRem _)
    refine ⟨_, exec_laneFault_lane hon hcont hkilled, ⟨⟨hframe.state, hframe.2⟩, hfails⟩, s.dev.resFails_rings .., ?_⟩
    exact (congrArg (fun x : SignedStore => Tbl.lookD x.lanes n.val 0) (Dev.resFails_store_alarms hserves).1).trans
      (s.dev.recordRes_lanes n.val p.val)
  · obtain rfl := Dev.entry_count he
    obtain ⟨t, hexec, hrings, hentry⟩ := reapTo_killed_op (p := p.val) n.val he hs
    exact ⟨t, (exec_laneFault_op hon hcont hlist he hop hown).trans hexec, hrings, hentry⟩
  · have hserves : (s.dev.die n.val).Serves true p.val ((s.dev.die n.val).coreList.idxOf p.val) := ⟨hlist, hlog, rfl⟩
    obtain ⟨hframe, hfails⟩ := Dev.resFails_spec hserves
    refine ⟨_, exec_laneFault_core hon hcont hkernel, ⟨⟨hframe.state, hframe.2⟩, hfails⟩, s.dev.resFails_rings .., ?_⟩
    exact (congrArg (fun x : SignedStore => Tbl.lookD x.cores n.val 0) (Dev.resFails_store_alarms hserves).1).trans
      (s.dev.recordRes_cores n.val p.val)
  · have hu : u.die = n.val ∧ u.core = core := by simpa using List.find?_some hfind
    exact ⟨⟨_, exec_spareSelfTestDone hfind hspare true, spareServes_ends hheld core u p⟩,
      ⟨_, exec_spareSelfTestDone hfind hspare false, spareFailed_ends hu hheld p⟩⟩
  · exact ⟨_, exec_spareCtlWrite_hold hrun hv, rfl⟩
  · obtain ⟨hrings, hstore, hhold, hheld⟩ := s.dev.substituted_released s.dev.health.held
    obtain ⟨c, a, hsettled, -⟩ := (s.dev.health.held.foldl Dev.substitute s.dev.released).settlesTo_heldDone
    refine ⟨_, exec_spareCtlWrite_auto hrun hv, ?_, ?_, rfl, rfl, ?_, ?_, fun hnone htesting => ?_⟩
    · exact (congrArg Health.hold hsettled).trans hhold
    · exact (congrArg Health.held hsettled).trans hheld
    · exact (Dev.heldDone_rings _).trans hrings
    · exact (Dev.heldDone_store _).trans hstore
    · rw [hnone]
      exact congrArg Health.cond (s.dev.released.heldDone_health_of_empty rfl htesting)

end Sys2Proof.Machine

/-! ## O30: a DISPATCH beside a CANCEL_BATCH

Every step of the shuttle ends each CANCEL_BATCH that has all its rows accounted for (R190), that of another ring too. -/
namespace Sys2Proof.Machine

/-- An exchange table of one token, one expert and one slot over SET 1, with HIDDEN 32 and SLOT_FMT BF16 (Table 8.1). -/
def rowTable : BitVec 1024 :=
  BitVec.ofNat 1024 (([(0, 1024), (8, 2048), (16, 3072), (24, 4096), (32, 5120), (40, 131072), (48, 6144), (56, 7168), (64, 8192),
    (72, 196608), (80, 262144), (88, 32832), (92, 2), (101, 64), (102, 1), (104, 2), (106, 5), (108, 32)].map
      (fun f => f.2 * 2 ^ (8 * f.1))).sum)

/-- A started DISPATCH of that table, with the map that names object 1 of this module, and SRC at 393216. -/
def rowDispatch : Entry :=
  { Entry.fresh 0 (BitVec.ofNat 512 (0x22 + 393216 * 2 ^ (8 * 24))) with phase := .started, xt := some { bytes := rowTable, map := [1] } }

/-- A started CANCEL_BATCH of batch slot 0, and what the shuttle keeps of it on ring 1. -/
def startedCancel : Entry := { Entry.fresh 0 (BitVec.ofNat 512 0x26) with phase := .started }
def cancelOnRingOne : Cancel := { ring := 1, count := 0, claim := 0, batch := (0, 0), discarded := 0 }

/-- Member 0 of a row of sixteen, its DISPATCH on ring 0 and a CANCEL_BATCH on ring 1, both of claim 0. -/
def dispatchBesideCancel : Dev :=
  { Dev.reset with
    blocks := [(blockKey .shuttle, { Block.reset with st := .running }), (blockKey (claimBlock 0), { Block.reset with st := .running })]
    claims := [(0, { Claim.reset with tallyCount := 3 })]
    rings := [(0, { Ring.reset with ents := [rowDispatch] }), (1, { Ring.reset with ents := [startedCancel] })]
    objects := [(1, { base := 0, len := 1048576, flat := true, slotFmt := 0, claim := 0, placement := 0, reroute := false, codeDeep := false,
                      zero := true, dies := 1, deepOff := [0, 0, 0, 0], st := .ready, near := [(0, 16)], lostUnits := [], lostDies := 0,
                      dyingSeq := 0, readySeq := 0, moves := [], held := [], placing := none, doomed := false })]
    routing := { Dev.reset.routing with l2p := (List.range 16).map (fun i => (i, BitVec.ofNat 32 (2 ^ 31 + i))) }
    time := { Dev.reset.time with tags := [(1, { st := .active, claim := 0, attempt := 0, gid := 1, go := none, since := 0, seen := 0 })] }
    shuttle := { Shuttle.reset with cancels := [cancelOnRingOne] } }

/-- The BF16 header of the one tile of SRC. -/
def rowSource : List Byte :=
  Hdr.bytes { sound := true, fmt := 5, codec := 0, sparse := 0, axis := false, vr := 1, vc := 32, ceil := 127, stored := denseBody 5, index := 0,
              obj := 1, aux := 0 }

def dispatchBesideCancelState : State :=
  { dev := dispatchBesideCancel, mem := Memory.applyAll [] (dispatchBesideCancel.writeDev 393216 rowSource), pending := [] }

/-- SRC as the checks of the DISPATCH find it. -/
def rowGrid : Grid := { off := 24, base := 393216, slot := 32832, tr := 1, tc := 1, fmt := 5 }

/-- The descriptor at count 0 of ring 1 as an outcome leaves it. -/
def cancelAfter : Host.Outcome State Fault Refusal → Option Entry
  | .next u => u.dev.entry 1 0
  | _ => none

/-- The CANCEL_BATCH of ring 1 completes at the DISPATCH of ring 0 (R190). -/
theorem cancelAfter_dispatch :
    cancelAfter (exec (.dispatch 0 0) dispatchBesideCancelState) = some (startedCancel.doneWith Result.ok) := by decide +kernel

/-- Refutes O30: a DISPATCH on ring 0 leaves other rings than its own changed where a CANCEL_BATCH on ring 1, each row of whose batch is
accounted for, waits: the CANCEL_BATCH completes at the same step. -/
theorem not_dispatchArmsAndCancelDisarms : ¬ Obligations.DispatchArmsAndCancelDisarms := by
  intro h
  obtain ⟨hdispatch, -⟩ := h dispatchBesideCancelState 0 0 rowDispatch
  have hop : dispatchBesideCancelState.dev.op (0 : RingNo).val 0 0x22 = some rowDispatch := by decide +kernel
  have hplan : dispatchBesideCancelState.dev.dispatchPlan dispatchBesideCancelState.mem (0 : RingNo).val rowDispatch =
      .ok (rowTable, [1], rowGrid) := by decide +kernel
  obtain ⟨hothers, -⟩ := hdispatch rowTable [1] rowGrid hop (by decide) (by decide) hplan (by decide +kernel) (by decide +kernel)
    (by decide +kernel) rfl
  obtain ⟨u, hexec, -, hring, -⟩ := hothers (by decide +kernel)
  have hcancel : u.dev.entry 1 0 = some startedCancel := congrArg (fun g : Ring => g.entry 0) (hring 1 (by decide))
  have hended := cancelAfter_dispatch
  rw [hexec] at hended
  have hphase : Phase.started = Phase.done := congrArg Entry.phase (Option.some.inj (hcancel.symm.trans hended))
  cases hphase

end Sys2Proof.Machine

/-! ## O32: the packets of the shuttle

What the parts of an exchange leave of the device: the packets that the fabric takes for no op, the end of a CANCEL_BATCH, the counters
of the shuttle and its channels (R171 to R191, R251, R269). -/
namespace Sys2Proof.Machine

/-! ## Frames

A frame `F d t` is `d` with some parts of `t`; `t = F d t` says that `t` differs from `d` in those parts alone. -/

section Frames

variable {F G : Dev → Dev → Dev} {d t u : Dev}

theorem frame_trans (hF : ∀ d t u, F (F d t) u = F d u) (h : t = F d t) (h' : u = F t u) : u = F d u :=
  h'.trans ((congrArg (F · u) h).trans (hF d t u))

theorem frame_weaken (hFG : ∀ d t, G d (F d t) = F d t) (h : t = F d t) : t = G d t :=
  h.trans ((hFG d t).symm.trans (congrArg (G d) h.symm))

end Frames

/-! ## Packets that no op waits for -/

/-- The device with what such a packet may touch: all that `Dev.sent` gives, less the rings and the shuttle. -/
def Dev.passed (d t : Dev) : Dev := { d.sent t with rings := d.rings, shuttle := d.shuttle }

def Dev.PassesTo (d t : Dev) : Prop := t = d.passed t

section Passing

variable {d t u : Dev}

theorem Dev.passesTo_refl (d : Dev) : d.PassesTo d := rfl

theorem Dev.PassesTo.trans (h : d.PassesTo t) (h' : t.PassesTo u) : d.PassesTo u := frame_trans (fun _ _ _ => rfl) h h'

theorem Dev.passesTo_ite {p : Prop} [Decidable p] (ht : d.PassesTo t) (hu : d.PassesTo u) : d.PassesTo (if p then t else u) := by
  split
  · exact ht
  · exact hu

theorem Dev.passesTo_alarm (d : Dev) (b r u : Nat) (v : Word) : d.PassesTo (d.alarm b r u v) := by
  apply Dev.ext <;> simp [Dev.passed, Dev.sent, ← Dev.alarm_host]

theorem Dev.passesTo_countRt (d : Dev) (k : Nat) : d.PassesTo (d.countRt k) := rfl

theorem Dev.passesTo_pumpGo (fuel n : Nat) : ∀ d : Dev, d.PassesTo (Dev.pumpGo fuel d n) := by
  induction fuel with
  | zero => exact Dev.passesTo_refl
  | succ fuel ih =>
    intro d
    unfold Dev.pumpGo
    split
    · exact d.passesTo_refl
    · next k p _ => exact (show d.PassesTo ((d.setPort n (p.start k d.phys)).emit (.packet (some n) k)) from rfl).trans (ih _)

theorem Dev.passesTo_pump (d : Dev) (n : Nat) : d.PassesTo (d.pump n) := Dev.passesTo_pumpGo _ n d

theorem Dev.passesTo_modPort_pump (d : Dev) (n : Nat) (f : Port → Port) : d.PassesTo ((d.modPort n f).pump n) :=
  (show d.PassesTo (d.modPort n f) from rfl).trans (Dev.passesTo_pump _ n)

theorem Dev.passesTo_deArrive (d : Dev) (n : Nat) (k : Packet) : d.PassesTo (d.deArrive n k) := by
  unfold Dev.deArrive
  dsimp only
  exact Dev.passesTo_ite (.trans (by rfl) (Dev.passesTo_alarm ..)) (Dev.passesTo_ite (.trans (by rfl) (Dev.passesTo_alarm ..))
    (.trans (by rfl) (Dev.passesTo_modPort_pump ..)))

theorem Dev.passesTo_sendOn (d : Dev) (n : Nat) (k : Packet) : d.PassesTo (d.sendOn n k) :=
  Dev.passesTo_ite (d.passesTo_deArrive n k) (d.passesTo_modPort_pump n _)

theorem Dev.passesTo_routeQuiet (d : Dev) (k : Packet) : d.PassesTo (d.routeQuiet k) := by
  unfold Dev.routeQuiet
  split
  · rfl
  · exact d.passesTo_sendOn _ _
  · exact d.passesTo_sendOn _ _
  · rfl
  · rfl
  · rfl

theorem Dev.passesTo_sendNotice (d : Dev) (cause : Nat) (port : Option Nat) (k : Packet) : d.PassesTo (d.sendNotice cause port k) := by
  unfold Dev.sendNotice
  dsimp only
  refine Dev.passesTo_ite d.passesTo_refl (Dev.passesTo_ite rfl ?_)
  split
  · exact (d.passesTo_countRt 0x88).trans (Dev.passesTo_routeQuiet _ _)
  · rfl

theorem Dev.passesTo_discard (d : Dev) (cause : Nat) (port : Option Nat) (k : Packet) : d.PassesTo (d.discard cause port k) := by
  unfold Dev.discard
  lift_lets
  intro off d1 d2
  have hcount : d.PassesTo d1 := by
    refine Dev.passesTo_ite ?_ (d.passesTo_countRt _)
    split <;> rfl
  have halarm : d.PassesTo d2 := Dev.passesTo_ite (hcount.trans (Dev.passesTo_alarm ..)) hcount
  exact Dev.passesTo_ite (halarm.trans (Dev.passesTo_sendNotice ..)) halarm

theorem Dev.passesTo_follow (d : Dev) (k : Packet) (r : Route) : d.PassesTo (d.follow k r) := by
  cases r with
  | here => rfl
  | out p k' => exact d.passesTo_sendOn p k'
  | detour p k' forced => cases forced <;> exact .trans (by rfl) (Dev.passesTo_sendOn _ p k')
  | hold => rfl
  | drop c p => exact d.passesTo_discard c p k
  | barred => exact (d.passesTo_countRt 0x68).trans (Dev.passesTo_alarm ..)

theorem Dev.passesTo_inject (d : Dev) (k : Packet) : d.PassesTo (d.inject k) := by
  unfold Dev.inject
  refine Dev.passesTo_ite rfl (Dev.passesTo_ite ?_ (d.passesTo_follow k _))
  refine List.foldlRecOn (motive := d.PassesTo) _ _ d.passesTo_refl fun x hx i _ => hx.trans ?_
  exact Dev.passesTo_ite x.passesTo_refl (Dev.passesTo_ite rfl (Dev.passesTo_ite (x.passesTo_sendOn _ _) (x.passesTo_discard _ _ _)))

theorem Dev.passesTo_injectNow (d : Dev) (k : Packet) : d.PassesTo (d.injectNow none k) := by
  unfold Dev.injectNow
  split
  · exact (show d.PassesTo (d.noteSent none) from rfl).trans (Dev.passesTo_inject _ _)
  · next h => cases h
  · rfl

theorem Dev.passesTo_serveAsk {a : Ask} {k : Packet} (h : a.what = .packet k none) : d.PassesTo (d.serveAsk a) := by
  have hadmit : d.PassesTo (d.admitAsk a) := by
    unfold Dev.admitAsk
    simp only [h]
    exact Dev.passesTo_ite rfl rfl
  unfold Dev.serveAsk
  simp only [h]
  exact hadmit.trans (Dev.passesTo_injectNow _ _)

/-- A packet that waits at its meter, or that leaves: of the requests there it is the one served. -/
theorem Dev.passesTo_injectFor (d : Dev) (c : Nat) (k : Packet) : d.PassesTo (d.injectFor c none k) := by
  unfold Dev.injectFor
  dsimp only
  refine Dev.passesTo_ite (d.passesTo_injectNow k) ?_
  generalize 32 + (if k.de then 5 else k.cls) = m
  by_cases hfree : (d.asksAt m).isEmpty = true
  · rw [if_pos hfree]
    split
    next x hx =>
      have hmem := Dev.nextAsk_mem _ hx
      rw [d.asksAt_append (by rfl) (List.isEmpty_iff.1 hfree), List.mem_singleton] at hmem
      exact .trans (by rfl) (Dev.passesTo_serveAsk (congrArg Ask.what hmem))
    next => rfl
  · rw [if_neg hfree]
    rfl

end Passing

/-! ## Frames of an exchange -/

/-- The device with the rings, the turns at the engines and the shuttle of another: what an exchange may touch that ends an op without
charging its claim. -/
def Dev.shuttled (d t : Dev) : Dev :=
  { d with
    rings := t.rings, turns := t.turns,
    shuttle := { d.shuttle with cnt := t.shuttle.cnt, chans := t.shuttle.chans, cancels := t.shuttle.cancels } }

def Dev.ShuttlesTo (d t : Dev) : Prop := t = d.shuttled t

/-- The same where the end of the op is charged to its claim. -/
def Dev.charged (d t : Dev) : Dev := { d.shuttled t with claims := t.claims }

def Dev.ChargesTo (d t : Dev) : Prop := t = d.charged t

/-- What the landing of a packet, its acknowledgement and the signal of a context may touch. -/
def Dev.exchanged (d t : Dev) : Dev := { (d.sent t).worked t with tallies := t.tallies }

def Dev.ExchangesTo (d t : Dev) : Prop := t = d.exchanged t

section Frames

variable {d t u : Dev}

theorem Dev.ShuttlesTo.trans (h : d.ShuttlesTo t) (h' : t.ShuttlesTo u) : d.ShuttlesTo u := frame_trans (fun _ _ _ => rfl) h h'
theorem Dev.ChargesTo.trans (h : d.ChargesTo t) (h' : t.ChargesTo u) : d.ChargesTo u := frame_trans (fun _ _ _ => rfl) h h'
theorem Dev.ExchangesTo.trans (h : d.ExchangesTo t) (h' : t.ExchangesTo u) : d.ExchangesTo u := frame_trans (fun _ _ _ => rfl) h h'

theorem Dev.ShuttlesTo.charges (h : d.ShuttlesTo t) : d.ChargesTo t := frame_weaken (F := Dev.shuttled) (fun _ _ => rfl) h
theorem Dev.ShuttlesTo.exchanges (h : d.ShuttlesTo t) : d.ExchangesTo t := frame_weaken (F := Dev.shuttled) (fun _ _ => rfl) h
theorem Dev.PassesTo.exchanges (h : d.PassesTo t) : d.ExchangesTo t := frame_weaken (F := Dev.passed) (fun _ _ => rfl) h

theorem Dev.WorksTo.exchanges (h : d.WorksTo t) : d.ExchangesTo t :=
  frame_weaken (F := fun d t => { d.worked t with tallies := t.tallies }) (fun _ _ => rfl) h

theorem Dev.exchangesTo_refl (d : Dev) : d.ExchangesTo d := d.worksTo_refl.exchanges

end Frames

/-! ## Channels and counters -/

section Channels

variable (d : Dev)

@[simp] theorem Dev.chan_setChan_same (c ch : Nat) (y : Chan) : (d.setChan c ch y).chan c ch = y := Tbl.lookD_put_same ..

theorem Dev.chan_congr {d t : Dev} (h : t.shuttle.chans = d.shuttle.chans) (c ch : Nat) : t.chan c ch = d.chan c ch := by
  rw [Dev.chan, h, Dev.chan]

theorem Dev.shuttlesTo_setChan (c ch : Nat) (y : Chan) : d.ShuttlesTo (d.setChan c ch y) := rfl

/-- A counter of the shuttle that rises, with its alarm where it counts drops or discards (R191). -/
theorem Dev.countShuttle_eq (off k subject : Nat) : d.countShuttle off k subject = { d with
    shuttle := { d.shuttle with cnt := (d.countShuttle off k subject).shuttle.cnt }, health := (d.countShuttle off k subject).health,
    host := { d.host with msixPending := (d.countShuttle off k subject).host.msixPending },
    out := (d.countShuttle off k subject).out } := by
  unfold Dev.countShuttle
  split
  · rfl
  · split
    · exact (Dev.alarm_eq ..).trans (by simp)
    · rfl

theorem Dev.countShuttle_discard (subject : Nat) :
    Tbl.lookD (d.countShuttle 0x50 1 subject).shuttle.cnt 0x50 0 = Tbl.lookD d.shuttle.cnt 0x50 0 + 1 := by
  simp [Dev.countShuttle, bump, Tbl.upd]

theorem Dev.exchangesTo_countShuttle (off k subject : Nat) : d.ExchangesTo (d.countShuttle off k subject) := by
  rw [d.countShuttle_eq]; rfl

@[simp] theorem Dev.countShuttle_chans (off k subject : Nat) : (d.countShuttle off k subject).shuttle.chans = d.shuttle.chans := by
  rw [d.countShuttle_eq]

@[simp] theorem Dev.countShuttle_rings (off k subject : Nat) : (d.countShuttle off k subject).rings = d.rings := by
  rw [d.countShuttle_eq]

end Channels

/-! ## Ops that end -/

section Ends

variable {d : Dev} {r : Nat} {c : W32} {e : Entry}

theorem Dev.shuttlesTo_finishOp (d : Dev) (r : Nat) (c : W32) (res : Result) : d.ShuttlesTo (d.finishOp r c res) := by
  apply Dev.ext <;> simp [Dev.shuttled]

/-- An engine that takes a descriptor marks it and no other. -/
theorem Dev.entry_take_any (he : d.entry r c = some e) (k : Nat) (x : W32) : ∃ b, (d.take k x).entry r c = some { e with taken := b } := by
  by_cases h : r = k ∧ c = x
  · obtain ⟨rfl, rfl⟩ := h
    exact Dev.entry_take he
  · refine ⟨e.taken, ?_⟩
    unfold Dev.take
    split
    · exact (d.entry_modEntry_other (f := fun e => { e with taken := true }) (fun _ => rfl) h).trans he
    · exact he

/-- The op that ends stands done with its result. -/
theorem Dev.entry_finishOp (he : d.entry r c = some e) (hs : e.phase = .started) (res : Result) :
    ∃ b, (d.finishOp r c res).entry r c = some ({ e with taken := b }.doneWith res) := by
  obtain rfl := Dev.entry_count he
  obtain ⟨b, hb⟩ := Dev.entry_take he
  exact ⟨b, Dev.entry_closeOp (e := { e with taken := b }) hb res hs⟩

/-- An op that has ended does not end again. -/
theorem Dev.entry_finishOp_of_ended (he : d.entry r c = some e) (hs : e.phase ≠ .started) (k : Nat) (x : W32) (res : Result) :
    ∃ b, (d.finishOp k x res).entry r c = some { e with taken := b } := by
  obtain ⟨b, hb⟩ := Dev.entry_take_any he k x
  refine ⟨b, ?_⟩
  rw [Dev.finishOp, Dev.closeOp, Dev.entry_modEntry _ _ _ _ _ fun x => by split <;> rfl]
  split
  · next h =>
    obtain ⟨rfl, rfl⟩ := h
    simp [hb, hs]
  · exact hb

theorem Dev.shuttlesTo_endCancels (d : Dev) : d.ShuttlesTo d.endCancels :=
  List.foldlRecOn (motive := d.ShuttlesTo) _ _ rfl fun x hx _ _ => hx.trans (x.shuttlesTo_finishOp _ _ _)

theorem Dev.endCancels_shuttle (d : Dev) :
    d.endCancels.shuttle = { d.shuttle with cancels := d.shuttle.cancels.filter (fun x => !d.cancelDone x) } :=
  foldl_keep Dev.shuttle _ (fun _ _ => Dev.finishOp_shuttle ..) _ _

@[simp] theorem Dev.chan_endCancels (d : Dev) (k ch : Nat) : d.endCancels.chan k ch = d.chan k ch :=
  Dev.chan_congr (by rw [d.endCancels_shuttle]) k ch

/-- An op that has ended stands as it ended. -/
theorem Dev.entry_endCancels (he : d.entry r c = some e) (hs : e.phase ≠ .started) :
    ∃ b, d.endCancels.entry r c = some { e with taken := b } :=
  List.foldlRecOn (motive := fun t : Dev => ∃ b, t.entry r c = some { e with taken := b }) _ _ ⟨e.taken, he⟩
    fun _ ⟨_, hb⟩ _ _ => Dev.entry_finishOp_of_ended hb hs ..

theorem Dev.entry_xHeard (he : d.entry r c = some e) (p : Packet) :
    (d.xHeard p r c).entry r c = some { e with res := { e.res with retry := e.res.retry || p.retried || p.retrySeen } } := by
  unfold Dev.xHeard Dev.markRetry
  cases hp : p.retried || p.retrySeen with
  | false => simp_all
  | true =>
    simp only [if_true]
    rw [d.entry_modEntry_same (f := fun e => { e with res := { e.res with retry := true } }) r c fun _ => rfl, he, Option.map_some]
    simp [Bool.or_assoc, hp]

theorem Dev.shuttlesTo_xHeard (d : Dev) (p : Packet) (r : Nat) (c : W32) : d.ShuttlesTo (d.xHeard p r c) := by
  unfold Dev.xHeard
  split <;> rfl

theorem Dev.runs_iff : d.runs r c = true ↔ ∃ e, d.entry r c = some e ∧ e.phase = .started := by
  simp [Dev.runs, Option.any_eq_true]

theorem Dev.runs_congr {t : Dev} (h : t.rings = d.rings) (r : Nat) (c : W32) : t.runs r c = d.runs r c := by
  rw [Dev.runs, Dev.entry_congr h, Dev.runs]

end Ends

/-! ## The signal of a result context (R186) -/

section Signal

variable (d : Dev)

theorem Dev.worksTo_addTally (t : Nat) (v : Word) : d.WorksTo (d.addTally t v).1 := by
  apply Dev.ext <;> simp [Dev.worked]

/-- A context that has all its results is marked, and its tally rises; else nothing changes. -/
theorem Dev.signalResults_cases (c ch : Nat) : d.signalResults c ch = d ∨ ∃ t, d.signalResults c ch =
    ((d.setChan c ch ((d.chan c ch).modRes (fun z => { z with signalled := true }))).addTally t 1).1 := by
  unfold Dev.signalResults
  dsimp only
  split
  · split
    · exact .inr ⟨_, rfl⟩
    · exact .inl rfl
  · exact .inl rfl

theorem Dev.exchangesTo_signalResults (c ch : Nat) : d.ExchangesTo (d.signalResults c ch) := by
  obtain h | ⟨t, h⟩ := d.signalResults_cases c ch <;> rw [h]
  · exact d.exchangesTo_refl
  · exact (d.shuttlesTo_setChan c ch _).exchanges.trans (Dev.worksTo_addTally _ t 1).exchanges

theorem Dev.chan_signalResults (c ch : Nat) : ∃ f : Results → Bool,
    (d.signalResults c ch).chan c ch = (d.chan c ch).modRes (fun z => { z with signalled := f z }) := by
  obtain h | ⟨t, h⟩ := d.signalResults_cases c ch <;> rw [h]
  · exact ⟨Results.signalled, by simp [Chan.modRes]⟩
  · refine ⟨fun _ => true, ?_⟩
    rw [Dev.chan_congr (congrArg Shuttle.chans (Dev.addTally_shuttle _ t 1)), Dev.chan_setChan_same]

end Signal

/-! ## A packet of the shuttle -/

section Packets

variable {s : State} {p : Packet} {c : Nat}

theorem onPacket_of_claim {kind : Nat} (hc : s.dev.packetClaim p = some c) (hok : p.xOk kind = true) (f : Work → Nat → Nat → Work) :
    onPacket s p kind f =
      .next { s with dev := (f (Work.of s) c p.xch).d.endCancels, mem := s.mem.applyAll (f (Work.of s) c p.xch).ops } := by
  simp only [onPacket, hc, hok, if_true]
  rfl

theorem exec_shuttle_of_no_claim (hc : s.dev.packetClaim p = none) :
    ∀ cmd ∈ [Instr.shuttleCount p, .shuttleArmed p, .shuttleRefuse p, .shuttleRows p, .shuttleResult p, .shuttleAck p],
      exec cmd s = .next { s with dev := s.dev.countShuttle 0x50 1 0xFFFFFFFF } := by
  have hpacket : ∀ kind f, onPacket s p kind f = answer s (s.dev.countShuttle 0x50 1 0xFFFFFFFF) := fun kind f => by
    simp only [onPacket, hc]
  have hresult : execShuttleResult p s = answer s (s.dev.countShuttle 0x50 1 0xFFFFFFFF) := by
    simp only [execShuttleResult, hc]
  simp only [List.forall_mem_cons, List.not_mem_nil, false_implies, implies_true, and_true]
  exact ⟨(hpacket _ _ : execShuttleCount p s = _), (hpacket _ _ : execShuttleArmed p s = _), (hpacket _ _ : execShuttleRefuse p s = _),
    (hpacket _ _ : execShuttleRows p s = _), hresult, (hpacket _ _ : execShuttleAck p s = _)⟩

end Packets

/-! ## An exchange that can go no further -/

/-- The exchange waits for its members: nothing to refuse, to place, to drop, to send or to land, and not complete (R177). -/
structure Exch.Stays (x : Exch) (d : Dev) : Prop where
  agreed : x.armed = true ∨ x.refusal = none
  uncounted : x.armed = true ∨ ∃ m ∈ d.xMembers (xtSet x.table), ∀ q, Tbl.look x.counts m.1 = some q → q.whole = false
  heard : x.armed = true → ∀ a ∈ x.armedBy, a.1 ∈ x.cleared
  held : ∀ q ∈ x.rows, q.member ∉ x.cleared
  unlanded : x.landingDone d.routing.log.toNat = false
  unended : x.landed = false ∨ ∃ m ∈ d.xMembers (xtSet x.table), m.1 ∉ x.cleared

section Stays

variable {w : Work} {c ch : Nat} {x : Exch} {late : Bool}

/-- Rows toward members that have not answered wait. -/
theorem Work.row_of_held (hx : ∀ o ∈ x.rows, o.member ∉ x.cleared) {q : Row} (hq : q.member ∉ x.cleared) (y : Chan) :
    w.row c y x late q = (w, y, x) := by
  have hself : ((x.rows.find? (fun o => o.token == q.token && o.rank == q.rank)).getD q).member ∉ x.cleared := by
    cases hfind : x.rows.find? (fun o => o.token == q.token && o.rank == q.rank) with
    | none => exact hq
    | some o => exact hx o (List.mem_of_find?_eq_some hfind)
  unfold Work.row
  exact if_pos (by simpa using hself)

theorem Work.rows_of_held (hx : ∀ o ∈ x.rows, o.member ∉ x.cleared) (y : Chan) :
    x.rows.foldl (fun (p : Work × Chan × Exch) q => p.1.row c p.2.1 p.2.2 late q) (w, y, x) = (w, y, x) :=
  List.foldlRecOn (motive := fun p : Work × Chan × Exch => p = (w, y, x)) _ _ rfl fun p hp q hq => by
    rw [hp]; exact Work.row_of_held hx (hx q hq) y

/-- Such an exchange stays in its channel as it is; its context may learn that no row is to come, and signal (R186). -/
theorem Work.advance_of_stays (hx : (w.d.chan c ch).disp = some x) (hruns : w.d.runs x.ring x.count = true) (hstays : x.Stays w.d) :
    ∃ y : Chan, y.disp = some x ∧ w.advance c ch late = w.dev ((w.d.setChan c ch y).signalResults c ch) := by
  obtain ⟨hagreed, huncounted, hheard, hheld, hunlanded, hunended⟩ := hstays
  unfold Work.advance
  extract_lets y
  split
  · next hnone => cases hnone.symm.trans hx
  next x' hx' =>
  obtain rfl : x' = x := Option.some.inj (hx'.symm.trans hx)
  extract_lets members counted
  have hrefusal : (if x'.armed then none else x'.refusal) = none := by
    obtain h | h := hagreed <;> simp [h]
  have hcounted : (!x'.armed && counted) = false := by
    obtain h | ⟨m, hm, hq⟩ := huncounted
    · simp [h]
    · refine Bool.and_eq_false_iff.2 (.inr (List.all_eq_false.2 ⟨m, hm, ?_⟩))
      cases hlook : Tbl.look x'.counts m.1 with
      | none => simp
      | some q => simp [hq q hlook]
  have hready : ∀ {α : Type} (f : α → Nat × Counted → α) (a : α),
      (if x'.armed then (x'.armedBy.filter (fun a => a.2.whole && !x'.cleared.contains a.1)).foldl f a else a) = a := fun f a => by
    split
    next h =>
      rw [List.filter_eq_nil_iff.2 fun a ha => by simp [hheard h a ha]]
      rfl
    next => rfl
  have hdone : ((members.all fun m => x'.cleared.contains m.1) && x'.rows.isEmpty && x'.landed && x'.unacked.isEmpty) = false := by
    obtain h | ⟨m, hm, hq⟩ := hunended
    · simp [h]
    · have hclosed : (members.all fun m => x'.cleared.contains m.1) = false := List.all_eq_false.2 ⟨m, hm, by simpa using hq⟩
      simp only [hclosed, Bool.false_and]
  simp only [hrefusal, hcounted, hready, Work.rows_of_held hheld, hunlanded, hdone, Bool.false_and, Bool.false_eq_true, if_false,
    Dev.runs_congr (show (w.d.setChan c ch _).rings = w.d.rings from rfl), hruns, if_true]
  exact ⟨_, rfl, rfl⟩

end Stays

/-- A frame of the device is one of the state. -/
theorem frame_state {F : Dev → Dev → Dev} {s : State} {t : Dev} (h : t = F s.dev t) (m : Memory) :
    ({ s with dev := t, mem := m } : State) = { s with dev := F s.dev t, mem := m } :=
  congrArg (fun x => ({ s with dev := x, mem := m } : State)) h

theorem Dev.ExchangesTo.xMembers {d t : Dev} (h : d.ExchangesTo t) (set : Nat) : t.xMembers set = d.xMembers set :=
  (congrArg (Dev.xMembers · set) h : t.xMembers set = (d.exchanged t).xMembers set)

theorem Dev.ExchangesTo.log {d t : Dev} (h : d.ExchangesTo t) : t.routing.log = d.routing.log :=
  (congrArg (·.routing.log) h : t.routing.log = (d.exchanged t).routing.log)

/-- An op that is refused has not run. -/
theorem Entry.doneWith_refused (e : Entry) (why : Nat) : (e.doneWith (Result.fail 0x200A why)).ran = false :=
  Bool.eq_false_iff.2 fun hran => Entry.doneWith_ran_iff.1 hran (show classOf 0x200A = 2 by decide)

/-! ## COUNT, ARMED and REFUSE (R175 to R177) -/

section Messages

variable {s : State} {p : Packet} {c : Nat}

/-- A packet of the shuttle that is acted on, by what the work on it comes to. -/
theorem ends_onPacket {cmd : Instr} {kind : Nat} {f : Work → Nat → Nat → Work} {w : Work} {P : State → Prop}
    (hcmd : exec cmd s = onPacket s p kind f) (hc : s.dev.packetClaim p = some c) (hok : p.xOk kind = true)
    (hw : f (Work.of s) c p.xch = w) (h : P { s with dev := w.d.endCancels, mem := s.mem.applyAll w.ops }) : Ends cmd s P :=
  ⟨_, hcmd.trans (onPacket_of_claim hc hok f), hw ▸ h⟩

theorem ends_shuttle_of_no_claim (hc : s.dev.packetClaim p = none) :
    ∀ cmd ∈ [Instr.shuttleCount p, .shuttleArmed p, .shuttleRefuse p, .shuttleRows p, .shuttleResult p, .shuttleAck p],
      Ends cmd s (fun u => u = { s with dev := { s.dev with
        shuttle := { s.dev.shuttle with cnt := u.dev.shuttle.cnt }, health := u.dev.health
        host := { s.dev.host with msixPending := u.dev.host.msixPending }, out := u.dev.out } } ∧
        Tbl.lookD u.dev.shuttle.cnt 0x50 0 = Tbl.lookD s.dev.shuttle.cnt 0x50 0 + 1) := fun cmd hcmd =>
  ⟨_, exec_shuttle_of_no_claim hc cmd hcmd, congrArg (fun x => ({ s with dev := x } : State)) (s.dev.countShuttle_eq _ _ _),
    s.dev.countShuttle_discard _⟩

/-- A COUNT that no DISPATCH takes is held. -/
theorem ends_shuttleCount_held (hc : s.dev.packetClaim p = some c) (hok : p.xOk 1 = true) (hdisp : (s.dev.chan c p.xch).disp = none)
    (hheld : ∀ m, Tbl.look (s.dev.chan c p.xch).held p.slog = some m → m.whole = false) :
    Ends (.shuttleCount p) s (fun u => u = { s with dev := s.dev.shuttled u.dev } ∧
      u.dev.chan c p.xch = { s.dev.chan c p.xch with held := gather (s.dev.chan c p.xch).held p.slog p 16 }) := by
  refine ends_onPacket (w := (Work.of s).dev (s.dev.setChan c p.xch
    { s.dev.chan c p.xch with held := gather (s.dev.chan c p.xch).held p.slog p 16 })) (show execShuttleCount p s = _ from rfl) hc hok ?_ ⟨?_, ?_⟩
  · cases hlook : Tbl.look (s.dev.chan c p.xch).held p.slog with
    | none => simp [Work.of, hdisp, hlook]
    | some m => simp [Work.of, hdisp, hlook, hheld m hlook]
  · exact frame_state ((s.dev.shuttlesTo_setChan _ _ _).trans (Dev.shuttlesTo_endCancels _)) _
  · rw [Dev.chan_endCancels]
    exact Dev.chan_setChan_same ..

/-- An ARMED that no DISPATCH waits for is a discard. -/
theorem ends_shuttleArmed_stray (hc : s.dev.packetClaim p = some c) (hok : p.xOk 2 = true) (hdisp : (s.dev.chan c p.xch).disp = none) :
    Ends (.shuttleArmed p) s (fun u => u.mem = s.mem ∧
      Tbl.lookD u.dev.shuttle.cnt 0x50 0 = Tbl.lookD s.dev.shuttle.cnt 0x50 0 + 1 ∧ u.dev.chan c p.xch = s.dev.chan c p.xch) := by
  refine ends_onPacket (w := (Work.of s).dev (s.dev.countShuttle 0x50 1 c)) (show execShuttleArmed p s = _ from rfl) hc hok ?_ ⟨rfl, ?_, ?_⟩
  · simp [Work.of, hdisp]
  · dsimp only [Work.dev]
    rw [Dev.endCancels_shuttle, Dev.countShuttle_discard]
  · rw [Dev.chan_endCancels]
    exact Dev.chan_congr (s.dev.countShuttle_chans _ _ _) _ _

theorem Dev.disp_signalResults (d : Dev) (c ch : Nat) : ((d.signalResults c ch).chan c ch).disp = (d.chan c ch).disp := by
  obtain ⟨f, hf⟩ := d.chan_signalResults c ch
  rw [hf]; rfl

/-- An ARMED that comes before placement is gathered. -/
theorem ends_shuttleArmed_gather {x : Exch} (hc : s.dev.packetClaim p = some c) (hok : p.xOk 2 = true)
    (hdisp : (s.dev.chan c p.xch).disp = some x) (hruns : s.dev.runs x.ring x.count = true) (harmed : x.armed = false)
    (hcleared : x.cleared = []) (hrefusal : x.refusal = none)
    (hwaits : ∃ m ∈ s.dev.xMembers (xtSet x.table), ∀ q, Tbl.look x.counts m.1 = some q → q.whole = false) :
    Ends (.shuttleArmed p) s (fun u => u.mem = s.mem ∧
      (u.dev.chan c p.xch).disp = some { x with armedBy := gather x.armedBy p.slog p 0 }) := by
  let x' : Exch := { x with armedBy := gather x.armedBy p.slog p 0 }
  let d := (s.dev.xHeard p x.ring x.count).setChan c p.xch { s.dev.chan c p.xch with disp := some x' }
  have hframe : s.dev.ShuttlesTo d := (s.dev.shuttlesTo_xHeard p x.ring x.count).trans (Dev.shuttlesTo_setChan _ _ _ _)
  have hmembers : d.xMembers (xtSet x'.table) = s.dev.xMembers (xtSet x.table) := hframe.exchanges.xMembers _
  have hx : (d.chan c p.xch).disp = some x' := congrArg Chan.disp (Dev.chan_setChan_same ..)
  have hruns' : d.runs x'.ring x'.count = true := by
    obtain ⟨e, he, hs⟩ := Dev.runs_iff.1 hruns
    exact Dev.runs_iff.2 ⟨_, Dev.entry_xHeard he p, hs⟩
  obtain ⟨m, hm, hq⟩ := hwaits
  have hstays : x'.Stays d :=
    { agreed := .inr hrefusal
      uncounted := .inr ⟨m, hmembers ▸ hm, hq⟩
      heard := fun h => absurd (h.symm.trans harmed) (by decide)
      held := fun q _ hq => by simp [x', hcleared] at hq
      unlanded := by simp [Exch.landingDone, x', harmed]
      unended := .inr ⟨m, hmembers ▸ hm, by simp [x', hcleared]⟩ }
  obtain ⟨y, hy, hadvance⟩ := Work.advance_of_stays (w := (Work.of s).dev d) (late := s.dev.lateOn c p.xch) hx hruns' hstays
  refine ends_onPacket (show execShuttleArmed p s = _ from rfl) hc hok (by simpa [Work.of, hdisp] using hadvance) ⟨rfl, ?_⟩
  dsimp only [Work.dev]
  rw [Dev.chan_endCancels, Dev.disp_signalResults, Dev.chan_setChan_same]
  exact hy

/-- A REFUSE ends the DISPATCH, and its context is none. -/
theorem ends_shuttleRefuse {x : Exch} {e : Entry} (hc : s.dev.packetClaim p = some c) (hok : p.xOk 6 = true)
    (hdisp : (s.dev.chan c p.xch).disp = some x) (he : s.dev.entry x.ring x.count = some e) (hs : e.phase = .started) :
    Ends (.shuttleRefuse p) s (fun u => u = { s with dev := s.dev.shuttled u.dev } ∧
      u.dev.chan c p.xch = { s.dev.chan c p.xch with disp := none, res := none } ∧
      ∃ e', u.dev.entry x.ring x.count = some e' ∧ e'.phase = .done ∧ e'.res = Result.fail 0x200A (p.p 16 4) ∧ e'.ran = false) := by
  have hfinish := s.dev.shuttlesTo_finishOp x.ring x.count (Result.fail 0x200A (p.p 16 4))
  obtain ⟨b, hb⟩ := Dev.entry_finishOp he hs (Result.fail 0x200A (p.p 16 4))
  refine ends_onPacket (w := (Work.of s).dev (s.dev.refuseExchange c p.xch x (p.p 16 4))) (show execShuttleRefuse p s = _ from rfl) hc hok ?_ ⟨?_, ?_, ?_⟩
  · simp [Work.of, hdisp]
  · exact frame_state ((hfinish.trans (Dev.shuttlesTo_setChan _ _ _ _)).trans (Dev.shuttlesTo_endCancels _)) _
  · rw [Dev.chan_endCancels]
    exact Dev.chan_setChan_same ..
  · obtain ⟨b', hb'⟩ := Dev.entry_endCancels (d := s.dev.refuseExchange c p.xch x (p.p 16 4)) hb (by nofun)
    exact ⟨_, hb', rfl, rfl, Entry.doneWith_refused e _⟩

end Messages

/-! ## ROWS and RESULT (R178, R184, R186)

What the landing of a packet does besides its stores: counts, charges, marks of the memory it writes, and the acknowledgement. -/

/-- A part of a landing: the channels stay, and the ops that run. -/
structure Dev.LandsTo (d t : Dev) : Prop where
  exchanges : d.ExchangesTo t
  chans : t.shuttle.chans = d.shuttle.chans
  runs : ∀ r c, t.runs r c = d.runs r c

section Landing

variable {d t u : Dev}

theorem Dev.LandsTo.refl (d : Dev) : d.LandsTo d := ⟨d.exchangesTo_refl, rfl, fun _ _ => rfl⟩

theorem Dev.LandsTo.trans (h : d.LandsTo t) (h' : t.LandsTo u) : d.LandsTo u :=
  ⟨h.exchanges.trans h'.exchanges, h'.chans.trans h.chans, fun r c => (h'.runs r c).trans (h.runs r c)⟩

theorem Dev.LandsTo.chan (h : d.LandsTo t) (c ch : Nat) : t.chan c ch = d.chan c ch := Dev.chan_congr h.chans c ch

theorem Dev.landsTo_of_rings (h : d.ExchangesTo t) (hchans : t.shuttle.chans = d.shuttle.chans) (hrings : t.rings = d.rings) : d.LandsTo t :=
  ⟨h, hchans, Dev.runs_congr hrings⟩

/-- A packet that no op waits for leaves the channels and the rings as they are. -/
theorem Dev.PassesTo.lands (h : d.PassesTo t) : d.LandsTo t :=
  Dev.landsTo_of_rings h.exchanges (congrArg (·.shuttle.chans) h : t.shuttle.chans = (d.passed t).shuttle.chans)
    (congrArg (·.rings) h : t.rings = (d.passed t).rings)

theorem Dev.landsTo_foldl {α : Type} (d : Dev) (l : List α) {f : Dev → α → Dev} (hf : ∀ (x : Dev) (a : α), x.LandsTo (f x a)) :
    d.LandsTo (l.foldl f d) :=
  List.foldlRecOn (motive := d.LandsTo) l f (.refl d) fun x hx a _ => hx.trans (hf x a)

variable (d)

theorem Dev.landsTo_countShuttle (off k subject : Nat) : d.LandsTo (d.countShuttle off k subject) :=
  Dev.landsTo_of_rings (d.exchangesTo_countShuttle off k subject) (d.countShuttle_chans ..) (d.countShuttle_rings ..)

theorem Dev.landsTo_engineWrite (a n : Nat) : d.LandsTo (d.engineWrite a n) :=
  Dev.landsTo_of_rings (d.worksTo_engineWrite a n).exchanges (congrArg Shuttle.chans (d.engineWrite_shuttle a n)) (d.engineWrite_rings a n)

theorem Dev.landsTo_account (c picks deep fabric hoist : Nat) : d.LandsTo (d.account c picks deep fabric hoist) :=
  Dev.landsTo_of_rings (d.worksTo_account c picks deep fabric hoist).exchanges rfl rfl

theorem Dev.worksTo_pay (c k units : Nat) : d.WorksTo (d.pay c k units) := rfl

theorem Dev.landsTo_payDeep (c : Nat) (ranges : List (Nat × Nat)) (write : Bool) : d.LandsTo (d.payDeep c ranges write) :=
  Dev.landsTo_foldl d _ fun x a => by
    split
    · exact .refl x
    · exact Dev.landsTo_of_rings (x.worksTo_pay c a.1 a.2).exchanges rfl rfl

theorem Dev.shuttlesTo_modEntry (r : Nat) (c : W32) (f : Entry → Entry) : d.ShuttlesTo (d.modEntry r c f) := rfl

theorem Dev.runs_modEntry (r : Nat) (c : W32) {f : Entry → Entry} (hcount : ∀ e, (f e).count = e.count)
    (hphase : ∀ e, (f e).phase = e.phase) (k : Nat) (x : W32) : (d.modEntry r c f).runs k x = d.runs k x := by
  rw [Dev.runs, d.entry_modEntry r k c x hcount, Dev.runs]
  split
  · next h =>
    obtain ⟨rfl, rfl⟩ := h
    simp [Option.any_map, hphase]
  · rfl

theorem Dev.landsTo_addRead (r : Nat) (c : W32) (ranges : List (Nat × Nat)) : d.LandsTo (d.addRead r c ranges) :=
  ⟨(d.shuttlesTo_modEntry r c _).exchanges, rfl, d.runs_modEntry r c (fun _ => rfl) fun _ => rfl⟩

theorem Dev.landsTo_addWrite (r : Nat) (c : W32) (ranges : List (Nat × Nat)) : d.LandsTo (d.addWrite r c ranges) :=
  (d.landsTo_addRead r c ranges).trans (Dev.landsTo_payDeep _ _ _ _)

theorem Dev.landsTo_xAck (c : Nat) (p : Packet) : d.LandsTo (d.xAck c p) := (d.passesTo_injectFor c _).lands

end Landing

section RowsAndResults

variable {s : State} {p : Packet} {c : Nat}

/-- Stores of blocks are stores alone: a device does not change. -/
@[simp] theorem Work.landBlocks_d (w : Work) (base fmt hidden row first : Nat) (bs : List XBlock) :
    (w.landBlocks base fmt hidden row first bs).d = w.d :=
  foldl_keep Work.d _ (fun w b => by dsimp only; split <;> rfl) _ _

@[simp] theorem Work.resultHeader_d (w : Work) (a lf vr vc : Nat) : (w.resultHeader a lf vr vc).d = w.d := rfl

@[simp] theorem Work.decode_d (w : Work) (a lf : Nat) : (w.decode a lf).d = w.d := by
  unfold Work.decode
  dsimp only
  split <;> rfl

@[simp] theorem Work.landResult_d (w : Work) (z : Results) (accum : Bool) (key weight fmt first : Nat) (bs : List XBlock) :
    (w.landResult z accum key weight fmt first bs).d = w.d := by
  unfold Work.landResult
  refine (foldl_keep Work.d _ (fun w x => w.resultHeader_d ..) _ _).trans ?_
  refine (foldl_keep Work.d _ ?_ _ _).trans (foldl_keep Work.d _ (fun w x => w.decode_d ..) _ _)
  exact fun _ _ => rfl

theorem Dev.runs_setChan (d : Dev) (c ch r : Nat) (y : Chan) (k : W32) : (d.setChan c ch y).runs r k = d.runs r k := rfl

theorem Work.ops_dev (w : Work) (d : Dev) : (w.dev d).ops = w.ops := rfl
theorem Work.d_dev (w : Work) (d : Dev) : (w.dev d).d = d := rfl

/-- The blocks of a ROWS packet, and the tag of its row, as they are stored. -/
def Work.storeRow (w : Work) (p : Packet) (x : Exch) (pos : Nat) : Work :=
  (w.landBlocks (x.landBase (p.p 8 2)) x.lf (xtHidden x.table) pos (p.p 10 2)
    (wireBlocksOf x.lf (min (packetBlocks x.lf) (rowBlocks (xtHidden x.table) - p.p 10 2)) (p.payload.drop 16))).putTag x (p.p 8 2) pos
      (landTag p.slog (p.p 6 2) (p.p 5 1) p.xbatch false)

/-- The packet of a row, as its exchange marks it come. -/
def Exch.took (x : Exch) (p : Packet) : Exch := { x with got := x.got ++ [(p.slog, p.p 8 2, p.p 12 4, p.p 10 2)] }

/-- The device at the stores of a ROWS packet: counted, charged, and its memory marked. -/
def Dev.rowStored (d : Dev) (c : Nat) (p : Packet) (x : Exch) (pos : Nat) : Dev :=
  let n := min (packetBlocks x.lf) (rowBlocks (xtHidden x.table) - p.p 10 2)
  let last := rowBlocks (xtHidden x.table) ≤ p.p 10 2 + n
  ((d.countShuttle 0x48 (b2n last) c).addWrite x.ring x.count
    (if last then rowRanges (x.landBase (p.p 8 2)) x.lf (xtHidden x.table) pos else [])).engineWrite
      (x.landBase (p.p 8 2) + (pos / 128 * ceilDiv (xtHidden x.table) 128 + p.p 10 2 / 4) * slotBytes x.lf) 64

theorem Work.landsTo_putTag (w : Work) (x : Exch) (slot row : Nat) (tag : List Byte) : w.d.LandsTo (w.putTag x slot row tag).d := by
  rw [Work.putTag, Work.putFor, Work.d_dev]
  exact (w.put _ tag).d.landsTo_addWrite x.ring x.count _

theorem Work.landsTo_storeRow (w : Work) (p : Packet) (x : Exch) (pos : Nat) : w.d.LandsTo (w.storeRow p x pos).d := by
  have hput := Work.landsTo_putTag (w.landBlocks (x.landBase (p.p 8 2)) x.lf (xtHidden x.table) pos (p.p 10 2)
    (wireBlocksOf x.lf (min (packetBlocks x.lf) (rowBlocks (xtHidden x.table) - p.p 10 2)) (p.payload.drop 16))) x
  rw [w.landBlocks_d] at hput
  rw [Work.storeRow]
  exact hput ..

theorem Dev.landsTo_rowStored (d : Dev) (c : Nat) (p : Packet) (x : Exch) (pos : Nat) : d.LandsTo (d.rowStored c p x pos) :=
  ((d.landsTo_countShuttle ..).trans (Dev.landsTo_addWrite ..)).trans (Dev.landsTo_engineWrite ..)

/-- The work of a ROWS packet that lands, before the exchange goes on. -/
def Work.takeRow (w : Work) (c : Nat) (p : Packet) (x : Exch) (pos : Nat) : Work :=
  (w.storeRow p x pos).dev ((((w.storeRow p x pos).d.rowStored c p x pos).setChan c p.xch
    { w.d.chan c p.xch with disp := some (x.took p) }).xAck c p)

@[simp] theorem Work.takeRow_ops (w : Work) (c : Nat) (p : Packet) (x : Exch) (pos : Nat) :
    (w.takeRow c p x pos).ops = (w.storeRow p x pos).ops := by
  rw [Work.takeRow, Work.ops_dev]

theorem Work.takeRow_d (w : Work) (c : Nat) (p : Packet) (x : Exch) (pos : Nat) :
    (w.takeRow c p x pos).d = (((w.storeRow p x pos).d.rowStored c p x pos).setChan c p.xch
      { w.d.chan c p.xch with disp := some (x.took p) }).xAck c p := by
  rw [Work.takeRow, Work.d_dev]

@[simp] theorem Work.disp_takeRow (w : Work) (c : Nat) (p : Packet) (x : Exch) (pos : Nat) :
    ((w.takeRow c p x pos).d.chan c p.xch).disp = some (x.took p) := by
  rw [w.takeRow_d, (Dev.landsTo_xAck _ c p).chan, Dev.chan_setChan_same]

theorem Work.exchangesTo_takeRow (w : Work) (c : Nat) (p : Packet) (x : Exch) (pos : Nat) :
    w.d.ExchangesTo (w.takeRow c p x pos).d := by
  rw [w.takeRow_d]
  exact ((w.landsTo_storeRow p x pos).trans (Dev.landsTo_rowStored _ c p x pos)).exchanges.trans
    ((Dev.shuttlesTo_setChan _ c p.xch _).exchanges.trans (Dev.landsTo_xAck _ c p).exchanges)

theorem Work.runs_takeRow (w : Work) (c : Nat) (p : Packet) (x : Exch) (pos r : Nat) (k : W32) :
    (w.takeRow c p x pos).d.runs r k = w.d.runs r k := by
  rw [w.takeRow_d, (Dev.landsTo_xAck _ c p).runs, Dev.runs_setChan]
  exact ((w.landsTo_storeRow p x pos).trans (Dev.landsTo_rowStored _ c p x pos)).runs r k

/-- What the model does with a packet of an accepted row. -/
theorem ends_shuttleRows_of_takeRow {x : Exch} {pos : Nat} (hc : s.dev.packetClaim p = some c) (hok : p.xOk 3 = true)
    (hdisp : (s.dev.chan c p.xch).disp = some x) (hpos : x.position p.slog (p.p 8 2) (p.p 12 4) = some pos)
    (hother : p.slog ≠ s.dev.routing.log.toNat) (hfirst : p.p 10 2 % packetBlocks x.lf = 0)
    (hblocks : min (packetBlocks x.lf) (rowBlocks (xtHidden x.table) - p.p 10 2) ≠ 0)
    (hlength : p.payload.length = 16 + min (packetBlocks x.lf) (rowBlocks (xtHidden x.table) - p.p 10 2) * blockBytes x.lf)
    (hnew : (p.slog, p.p 8 2, p.p 12 4, p.p 10 2) ∉ x.got) {P : State → Prop} {w : Work}
    (hw : ((Work.of s).takeRow c p x pos).advance c p.xch (((Work.of s).storeRow p x pos).d.lateOn c p.xch) = w)
    (h : P { s with dev := w.d.endCancels, mem := s.mem.applyAll w.ops }) : Ends (.shuttleRows p) s P := by
  refine ends_onPacket (show execShuttleRows p s = _ from rfl) hc hok (Eq.trans ?_ hw) h
  simp only [Work.of, hdisp, hpos]
  refine (if_neg ?_).trans rfl
  simp [hother, hfirst, hblocks, hlength, hnew]

/-- A packet of an accepted row lands, and the exchange waits for what is still to come. -/
theorem ends_shuttleRows {x : Exch} {pos : Nat} (hc : s.dev.packetClaim p = some c) (hok : p.xOk 3 = true)
    (hdisp : (s.dev.chan c p.xch).disp = some x) (hpos : x.position p.slog (p.p 8 2) (p.p 12 4) = some pos)
    (hother : p.slog ≠ s.dev.routing.log.toNat) (hfirst : p.p 10 2 % packetBlocks x.lf = 0)
    (hblocks : min (packetBlocks x.lf) (rowBlocks (xtHidden x.table) - p.p 10 2) ≠ 0)
    (hlength : p.payload.length = 16 + min (packetBlocks x.lf) (rowBlocks (xtHidden x.table) - p.p 10 2) * blockBytes x.lf)
    (hnew : (p.slog, p.p 8 2, p.p 12 4, p.p 10 2) ∉ x.got) (hruns : s.dev.runs x.ring x.count = true) (harmed : x.armed = true)
    (hlanded : x.landed = false) (hrows : x.rows = []) (hheard : ∀ a ∈ x.armedBy, a.1 ∈ x.cleared)
    (hmore : (x.took p).landingDone s.dev.routing.log.toNat = false) :
    Ends (.shuttleRows p) s (fun u => u = { s with dev := s.dev.exchanged u.dev, mem := u.mem } ∧
      u.mem = s.mem.applyAll ((Work.of s).storeRow p x pos).ops ∧ (u.dev.chan c p.xch).disp = some (x.took p)) := by
  have hframe := (Work.of s).exchangesTo_takeRow c p x pos
  have hstays : (x.took p).Stays ((Work.of s).takeRow c p x pos).d :=
    { agreed := .inl harmed
      uncounted := .inl harmed
      heard := fun _ => hheard
      held := fun q hq => by simp [Exch.took, hrows] at hq
      unlanded := by rw [hframe.log]; exact hmore
      unended := .inl hlanded }
  obtain ⟨y, hy, hadvance⟩ := Work.advance_of_stays (late := ((Work.of s).storeRow p x pos).d.lateOn c p.xch)
    ((Work.of s).disp_takeRow c p x pos) (((Work.of s).runs_takeRow ..).trans hruns) hstays
  refine ends_shuttleRows_of_takeRow hc hok hdisp hpos hother hfirst hblocks hlength hnew hadvance ⟨?_, ?_, ?_⟩
  · exact frame_state (((hframe.trans (Dev.shuttlesTo_setChan _ _ _ _).exchanges).trans (Dev.exchangesTo_signalResults _ _ _)).trans
      (Dev.shuttlesTo_endCancels _).exchanges) _
  · exact congrArg s.mem.applyAll ((Work.ops_dev _ _).trans ((Work.of s).takeRow_ops ..))
  · rw [Work.d_dev, Dev.chan_endCancels, Dev.disp_signalResults, Dev.chan_setChan_same, hy]

end RowsAndResults

section Results

variable {s : State} {p : Packet} {c : Nat} {z : Results} {accum : Bool} {key w fmt first n : Nat}

/-- The device at the stores of a result from another module: counted, charged to its claim, and its memory marked. -/
def Dev.resultStored (d : Dev) (c : Nat) (ranges : List (Nat × Nat)) (accum last : Bool) : Dev :=
  let d := ranges.foldl (fun d x => d.engineWrite x.1 x.2) (d.countShuttle 0x48 (b2n last) c)
  let moved := d.deepSum ranges * (if accum then 2 else 1)
  let d := if accum then d.payDeep c ranges false else d
  (d.account c 0 moved 0 0).payDeep c ranges true

theorem Dev.landsTo_resultStored (d : Dev) (c : Nat) (ranges : List (Nat × Nat)) (accum last : Bool) :
    d.LandsTo (d.resultStored c ranges accum last) := by
  have hmarked := (d.landsTo_countShuttle 0x48 (b2n last) c).trans
    (Dev.landsTo_foldl _ ranges fun x a => x.landsTo_engineWrite a.1 a.2)
  have hread : ∀ x : Dev, x.LandsTo (if accum then x.payDeep c ranges false else x) := fun x => by
    split
    · exact x.landsTo_payDeep c ranges false
    · exact .refl x
  exact ((hmarked.trans (hread _)).trans (Dev.landsTo_account ..)).trans (Dev.landsTo_payDeep ..)

/-- A context with blocks of a result that have landed. -/
def Results.took (z : Results) (key first blocks fmt src : Nat) : Results :=
  { z with got := z.got ++ [{ key := key, first := first, blocks := blocks, fmt := fmt, src := src }] }

/-- Blocks of a result that its context expects land, and its context may signal. -/
theorem Work.result_of_expected {v : Work} {ch token rank src weight : Nat} {batch : Option (Nat × Nat)} {bs : List XBlock}
    (hres : (v.d.chan c ch).res = some z) (hexpect : Tbl.look z.expect (token * xtK z.table + rank) = some weight) (harmed : z.armed = true)
    (hfresh : v.d.staleBatch c z.batch = false) (hbatch : v.d.staleBatch c batch = false) (hrank : rank < xtK z.table)
    (hbuf : (if accum then xtAccbuf z.table else xtSlotbuf z.table) ≠ 0)
    (hagain : z.again (token * xtK z.table + rank) fmt src first bs.length = false)
    (hsound : ∀ a ∈ z.tilesOf accum (token * xtK z.table + rank) first bs.length, (v.coded a.2).2 = false) :
    ∃ d, v.d.LandsTo d ∧ v.result none c ch accum batch token rank fmt src first bs =
      (v.landResult z accum (token * xtK z.table + rank) weight fmt first bs).dev
        ((d.setChan c ch { v.d.chan c ch with res := some (z.took (token * xtK z.table + rank) first bs.length fmt src) }).signalResults c ch) := by
  refine ⟨(v.landResult z accum (token * xtK z.table + rank) weight fmt first bs).d.resultStored c
    (z.ranges accum (token * xtK z.table + rank) first bs.length) accum (Nat.ble (rowBlocks (xtHidden z.table)) (first + bs.length)),
    by rw [Work.landResult_d]; exact Dev.landsTo_resultStored .., ?_⟩
  have htiles : (z.tilesOf accum (token * xtK z.table + rank) first bs.length).any (fun x => (v.coded x.2).2) = false :=
    List.any_eq_false.2 fun a ha => by simp [hsound a ha]
  simp only [Work.result, hres, hexpect]
  refine (if_neg ?_).trans rfl
  simp [harmed, hfresh, hbatch, hrank, hbuf, hagain, htiles]

/-- A result that nothing expects is discarded, and counted by its last block. -/
theorem Work.result_of_unexpected {v : Work} {own : Option Returning} {ch token rank src : Nat} {batch : Option (Nat × Nat)} {bs : List XBlock}
    (hres : (v.d.chan c ch).res = some z) (hexpect : Tbl.look z.expect (token * xtK z.table + rank) = none) :
    v.result own c ch accum batch token rank fmt src first bs =
      if Nat.ble (rowBlocks (xtHidden z.table)) (first + bs.length) then v.dev (v.d.discardAt c batch) else v := by
  simp only [Work.result, hres, hexpect]

@[simp] theorem length_wireBlocksOf (fmt n : Nat) (data : List Byte) : (wireBlocksOf fmt n data).length = n := by
  simp [wireBlocksOf]

theorem Work.answer_dev (s : State) (v : Work) (d : Dev) :
    Work.answer s (v.dev d) = .next { s with dev := d, mem := s.mem.applyAll v.ops } := rfl

/-- The device after a result: what the landing did, the acknowledgement, and each CANCEL_BATCH that is done. -/
theorem ends_shuttleResult_of_result {v : Work} {P : State → Prop} (hc : s.dev.packetClaim p = some c) (hkind : p.p 0 1 = 4)
    (hflags : bits (p.p 1 1) 3 0 = 0) (hch : p.p 4 1 < 64) (hrank : p.p 5 1 < 16)
    (hfmt : p.p 12 4 = 1 ∨ p.p 12 4 = 2 ∨ p.p 12 4 = 5 ∨ p.p 12 4 = 6) (hblocks : (p.payload.length - 16) / blockBytes (p.p 12 4) ≠ 0)
    (hlength : p.payload.length = 16 + (p.payload.length - 16) / blockBytes (p.p 12 4) * blockBytes (p.p 12 4))
    (hv : (Work.of s).result none c p.xch (bit (p.p 1 1) 4) p.xbatch (p.p 6 2) (p.p 5 1) (p.p 12 4) p.slog (p.p 10 2)
      (wireBlocksOf (p.p 12 4) ((p.payload.length - 16) / blockBytes (p.p 12 4)) (p.payload.drop 16)) = v)
    (h : P { s with dev := (v.d.xAck c p).endCancels, mem := s.mem.applyAll v.ops }) : Ends (.shuttleResult p) s P := by
  refine ⟨_, (show exec (.shuttleResult p) s = execShuttleResult p s from rfl).trans ?_, h⟩
  rw [← Work.answer_dev]
  simp only [execShuttleResult, hc, hv]
  refine if_pos ?_
  have hformat : (p.p 12 4 == 1 || p.p 12 4 == 2 || p.p 12 4 == 5 || p.p 12 4 == 6) = true := by simpa [or_assoc] using hfmt
  have hwhole : (p.payload.length == 16 + (p.payload.length - 16) / blockBytes (p.p 12 4) * blockBytes (p.p 12 4)) = true :=
    beq_iff_eq.2 hlength
  simp only [hkind, hflags, hch, hrank, hformat, hwhole, Nat.blt_eq, Bool.and_true, beq_self_eq_true, bne_iff_ne, ne_eq, hblocks,
    not_false_eq_true, Bool.true_and, Bool.and_eq_true, and_self]

/-- A discard is counted, and marked in each CANCEL_BATCH of its batch. -/
theorem Dev.landsTo_discardAt (d : Dev) (c : Nat) (batch : Option (Nat × Nat)) : d.LandsTo (d.discardAt c batch) :=
  (d.landsTo_countShuttle 0x50 1 c).trans (Dev.landsTo_of_rings (Dev.ShuttlesTo.exchanges rfl) rfl rfl)

theorem ends_shuttleResult_unexpected (hc : s.dev.packetClaim p = some c) (hres : (s.dev.chan c p.xch).res = some z) (hkind : p.p 0 1 = 4)
    (hflags : bits (p.p 1 1) 3 0 = 0) (hch : p.p 4 1 < 64) (hrank : p.p 5 1 < 16)
    (hfmt : p.p 12 4 = 1 ∨ p.p 12 4 = 2 ∨ p.p 12 4 = 5 ∨ p.p 12 4 = 6) (hblocks : (p.payload.length - 16) / blockBytes (p.p 12 4) ≠ 0)
    (hlength : p.payload.length = 16 + (p.payload.length - 16) / blockBytes (p.p 12 4) * blockBytes (p.p 12 4))
    (hexpect : Tbl.look z.expect (p.p 6 2 * xtK z.table + p.p 5 1) = none) :
    Ends (.shuttleResult p) s (fun u => u = { s with dev := s.dev.exchanged u.dev, mem := u.mem } ∧ u.mem = s.mem ∧
      u.dev.chan c p.xch = s.dev.chan c p.xch) := by
  refine ends_shuttleResult_of_result hc hkind hflags hch hrank hfmt hblocks hlength
    (Work.result_of_unexpected (show ((Work.of s).d.chan c p.xch).res = some z from hres) hexpect) ?_
  generalize Nat.ble _ _ = last
  have hdrop : s.dev.LandsTo (if last then (Work.of s).dev ((Work.of s).d.discardAt c p.xbatch) else Work.of s).d ∧
      (if last then (Work.of s).dev ((Work.of s).d.discardAt c p.xbatch) else Work.of s).ops = [] := by
    split
    · exact ⟨s.dev.landsTo_discardAt c p.xbatch, rfl⟩
    · exact ⟨.refl s.dev, rfl⟩
  obtain ⟨hlands, hops⟩ := hdrop
  have hacked := hlands.trans (Dev.landsTo_xAck _ c p)
  refine ⟨frame_state (hacked.exchanges.trans (Dev.shuttlesTo_endCancels _).exchanges) _, by rw [hops]; rfl, ?_⟩
  rw [Dev.chan_endCancels, hacked.chan]

theorem ends_shuttleResult_expected {weight : Nat} (hc : s.dev.packetClaim p = some c) (hres : (s.dev.chan c p.xch).res = some z)
    (hkind : p.p 0 1 = 4) (hflags : bits (p.p 1 1) 3 0 = 0) (hch : p.p 4 1 < 64) (hrank : p.p 5 1 < 16)
    (hfmt : p.p 12 4 = 1 ∨ p.p 12 4 = 2 ∨ p.p 12 4 = 5 ∨ p.p 12 4 = 6) (hblocks : (p.payload.length - 16) / blockBytes (p.p 12 4) ≠ 0)
    (hlength : p.payload.length = 16 + (p.payload.length - 16) / blockBytes (p.p 12 4) * blockBytes (p.p 12 4))
    (hexpect : Tbl.look z.expect (p.p 6 2 * xtK z.table + p.p 5 1) = some weight) (harmed : z.armed = true)
    (hfresh : s.dev.staleBatch c z.batch = false) (hbatch : s.dev.staleBatch c p.xbatch = false) (hk : p.p 5 1 < xtK z.table)
    (hbuf : (if bit (p.p 1 1) 4 then xtAccbuf z.table else xtSlotbuf z.table) ≠ 0)
    (hagain : z.again (p.p 6 2 * xtK z.table + p.p 5 1) (p.p 12 4) p.slog (p.p 10 2)
      ((p.payload.length - 16) / blockBytes (p.p 12 4)) = false)
    (hsound : ∀ a ∈ z.tilesOf (bit (p.p 1 1) 4) (p.p 6 2 * xtK z.table + p.p 5 1) (p.p 10 2)
      ((p.payload.length - 16) / blockBytes (p.p 12 4)), ((Work.of s).coded a.2).2 = false) :
    Ends (.shuttleResult p) s (fun u => u = { s with dev := s.dev.exchanged u.dev, mem := u.mem } ∧
      u.mem = s.mem.applyAll ((Work.of s).landResult z (bit (p.p 1 1) 4) (p.p 6 2 * xtK z.table + p.p 5 1) weight (p.p 12 4) (p.p 10 2)
        (wireBlocksOf (p.p 12 4) ((p.payload.length - 16) / blockBytes (p.p 12 4)) (p.payload.drop 16))).ops ∧
      ∃ z', (u.dev.chan c p.xch).res = some z' ∧ z'.got = (z.took (p.p 6 2 * xtK z.table + p.p 5 1) (p.p 10 2)
        ((p.payload.length - 16) / blockBytes (p.p 12 4)) (p.p 12 4) p.slog).got ∧ z'.expect = z.expect) := by
  obtain ⟨d, hstored, hwork⟩ := Work.result_of_expected (v := Work.of s) (fmt := p.p 12 4) (first := p.p 10 2)
    (bs := wireBlocksOf (p.p 12 4) ((p.payload.length - 16) / blockBytes (p.p 12 4)) (p.payload.drop 16))
    (show ((Work.of s).d.chan c p.xch).res = some z from hres) hexpect harmed hfresh hbatch hk hbuf
    (by rwa [length_wireBlocksOf]) (by rwa [length_wireBlocksOf])
  rw [length_wireBlocksOf] at hwork
  refine ends_shuttleResult_of_result hc hkind hflags hch hrank hfmt hblocks hlength hwork ?_
  rw [Work.d_dev, Work.ops_dev]
  refine ⟨frame_state (((hstored.exchanges.trans (Dev.shuttlesTo_setChan _ _ _ _).exchanges).trans
    (Dev.exchangesTo_signalResults _ _ _)).trans ((Dev.landsTo_xAck _ c p).exchanges.trans (Dev.shuttlesTo_endCancels _).exchanges)) _, rfl, ?_⟩
  obtain ⟨f, hf⟩ := Dev.chan_signalResults (d.setChan c p.xch _) c p.xch
  rw [Dev.chan_endCancels, (Dev.landsTo_xAck _ c p).chan, hf, Dev.chan_setChan_same]
  exact ⟨_, rfl, rfl, rfl⟩

end Results

/-! ## ACK and the ARM timeout (R177, R185) -/

section Answers

variable {s : State} {d : Dev} {p : Packet} {c ch : Nat}

theorem Dev.chargesTo_endOp (d : Dev) (r : Nat) (e : Entry) (res : Result) : d.ChargesTo (d.endOp r e res) :=
  (show d.ChargesTo (d.account (d.claimOf r) res.picks res.deep res.fabric 0) from rfl).trans (Dev.shuttlesTo_finishOp _ _ _ _).charges

/-- A RETURN op whose last result is acknowledged completes. -/
theorem Dev.endReturn_of_acked {q : Returning} {e : Entry} (hret : (d.chan c ch).ret = some q) (hacked : q.unacked = [])
    (he : d.entry q.ring q.count = some e) (hs : e.phase = .started) :
    d.endReturn c ch = (d.endOp q.ring e e.res).setChan c ch { d.chan c ch with ret := none, retDone := true } := by
  unfold Dev.endReturn
  simp only [hret, hacked, he, hs, List.isEmpty_nil, Bool.true_or, if_true, Option.filter_some, beq_self_eq_true]
  rw [Dev.chan_congr (congrArg Shuttle.chans (Dev.endOp_shuttle ..))]

/-- What the step of its acknowledgement leaves of that op, and of the device. -/
theorem Dev.endReturn_ends {q : Returning} {e : Entry} (hret : (d.chan c ch).ret = some q) (hacked : q.unacked = [])
    (he : d.entry q.ring q.count = some e) (hs : e.phase = .started) :
    d.ChargesTo (d.endReturn c ch).endCancels ∧
      (d.endReturn c ch).endCancels.chan c ch = { d.chan c ch with ret := none, retDone := true } ∧
      ∃ e', (d.endReturn c ch).endCancels.entry q.ring q.count = some e' ∧ e'.phase = .done ∧ e'.res = e.res := by
  rw [Dev.endReturn_of_acked hret hacked he hs]
  have hcount := Dev.entry_count he
  rw [← hcount] at he ⊢
  obtain ⟨b, hb⟩ := Dev.entry_endOp_engine he hs e.res
  obtain ⟨b', hb'⟩ := Dev.entry_endCancels (d := (d.endOp q.ring e e.res).setChan c ch _) hb (by nofun)
  refine ⟨((d.chargesTo_endOp q.ring e e.res).trans (Dev.shuttlesTo_setChan _ _ _ _).charges).trans (Dev.shuttlesTo_endCancels _).charges,
    by rw [Dev.chan_endCancels, Dev.chan_setChan_same], _, hb', rfl, rfl⟩

theorem ends_shuttleAck {q : Returning} {e : Entry} (hc : s.dev.packetClaim p = some c) (hok : p.xOk 5 = true)
    (hdisp : (s.dev.chan c p.xch).disp = none) (hret : (s.dev.chan c p.xch).ret = some q)
    (hunacked : q.unacked = [(p.slog, slice p.payload 16 16)]) (he : s.dev.entry q.ring q.count = some e) (hs : e.phase = .started) :
    Ends (.shuttleAck p) s (fun u => u = { s with dev := s.dev.charged u.dev } ∧
      u.dev.chan c p.xch = { s.dev.chan c p.xch with ret := none, retDone := true } ∧ ∃ e', u.dev.entry q.ring q.count = some e' ∧
        e'.phase = .done ∧ e'.res = { e.res with retry := e.res.retry || p.retried || p.retrySeen }) := by
  let d := (s.dev.xHeard p q.ring q.count).setChan c p.xch
    { s.dev.chan c p.xch with ret := some { q with unacked := removeFirst (p.slog, slice p.payload 16 16) q.unacked } }
  have hframe : s.dev.ShuttlesTo d := (s.dev.shuttlesTo_xHeard p q.ring q.count).trans (Dev.shuttlesTo_setChan _ _ _ _)
  have hchan : d.chan c p.xch = _ := Dev.chan_setChan_same ..
  obtain ⟨hends, hleft, hop⟩ := Dev.endReturn_ends (d := d) (congrArg Chan.ret hchan) (by simp [hunacked, removeFirst])
    (Dev.entry_xHeard he p) hs
  refine ends_onPacket (w := (Work.of s).dev (d.endReturn c p.xch)) (show execShuttleAck p s = _ from rfl) hc hok ?_ ?_
  · simp only [Work.of, hdisp, hret, Option.filter_none, d]
  rw [Work.d_dev]
  exact ⟨frame_state (hframe.charges.trans hends) _, hleft.trans (by rw [hchan]), hop⟩

/-- An op that something else ends is charged, and leaves its channel. -/
theorem Dev.chargesTo_killOp (d : Dev) (r : Nat) (c : W32) (res : Result) : d.ChargesTo (d.killOp r c res) := by
  unfold Dev.killOp
  split
  · next e _ =>
    have hcharge : d.ChargesTo (d.chargeOp r c (e.counted res)) := by
      unfold Dev.chargeOp
      split
      · split <;> rfl
      · rfl
    have hclose : (d.chargeOp r c (e.counted res)).ShuttlesTo
      (((d.chargeOp r c (e.counted res)).closeOp r c (e.counted res)).leaveChans r c) := rfl
    exact hcharge.trans hclose.charges
  · rfl

theorem Dev.chargesTo_failExchange (d : Dev) (r : Nat) (c : W32) (reason : Nat) : d.ChargesTo (d.failExchange r c reason) := by
  unfold Dev.failExchange
  split
  · exact d.chargesTo_killOp _ _ _
  · rfl

/-- An exchange op that fails stands done, REMOTE_FAILED, where no failure has met it before. -/
theorem Dev.entry_failExchange {r : Nat} {k : W32} {e : Entry} (he : d.entry r k = some e) (hs : e.phase = .started)
    (hclass : classOf e.res.status < 3) (reason : Nat) : ∃ e', (d.failExchange r k reason).entry r k = some e' ∧ e'.phase = .done ∧
      e'.res.status = 0x3005 ∧ e'.res.reason = BitVec.ofNat 16 reason := by
  obtain rfl := Dev.entry_count he
  obtain ⟨hstatus, hreason⟩ := e.counted_status_reason (e.res.meet stRemoteFailed (BitVec.ofNat 16 reason))
  rw [Dev.failExchange, he]
  have hmeet : e.res.meet stRemoteFailed (BitVec.ofNat 16 reason) =
      { e.res with status := stRemoteFailed, reason := BitVec.ofNat 16 reason } := if_pos (hclass.trans_eq (by decide))
  exact ⟨_, Dev.entry_killOp he hs _, rfl, hstatus.trans (congrArg Result.status hmeet), hreason.trans (congrArg Result.reason hmeet)⟩

/-- What the step of its failure leaves of that op, and of the device. -/
theorem Dev.failExchange_ends {r : Nat} {k : W32} {e : Entry} (he : d.entry r k = some e) (hs : e.phase = .started)
    (hclass : classOf e.res.status < 3) (reason : Nat) (y : Chan) :
    d.ChargesTo ((d.failExchange r k reason).setChan c ch y).endCancels ∧
      ((d.failExchange r k reason).setChan c ch y).endCancels.chan c ch = y ∧
      ∃ e', ((d.failExchange r k reason).setChan c ch y).endCancels.entry r k = some e' ∧ e'.phase = .done ∧ e'.res.status = 0x3005 ∧
        e'.res.reason = BitVec.ofNat 16 reason := by
  obtain ⟨e', he', hphase, hstatus, hreason⟩ := Dev.entry_failExchange he hs hclass reason
  obtain ⟨b, hb⟩ := Dev.entry_endCancels (d := (d.failExchange r k reason).setChan c ch y) he' (by rw [hphase]; nofun)
  exact ⟨((d.chargesTo_failExchange r k reason).trans (Dev.shuttlesTo_setChan _ c ch y).charges).trans (Dev.shuttlesTo_endCancels _).charges,
    (Dev.chan_endCancels ..).trans (Dev.chan_setChan_same ..), _, hb, hphase, hstatus, hreason⟩

/-- What a DISPATCH that fails may touch: its outputs take free values. -/
def Dev.failed (d t : Dev) : Dev := { d.charged t with draws := t.draws }

theorem Dev.scramble_failed (d : Dev) (l : List (Nat × Nat)) : (d.scramble l).1 = d.failed (d.scramble l).1 :=
  List.foldlRecOn (motive := fun q : Dev × List MemOp => q.1 = d.failed q.1) l _ rfl fun _ hq _ _ =>
    frame_trans (F := Dev.failed) (fun _ _ _ => rfl) hq rfl

theorem exec_shuttleArmTimeout {k : Fin 32} {ch : Fin 64} {x : Exch} {m : Nat × Nat} (hdisp : (s.dev.chan k.val ch.val).disp = some x)
    (hmissing : (s.dev.xMembers (xtSet x.table)).find? (fun m => m.2 != s.dev.self &&
      !((Tbl.look x.counts m.1).any Counted.whole && (Tbl.look x.armedBy m.1).any Counted.whole)) = some m)
    (hpast : s.dev.armPast x = true) :
    exec (.shuttleArmTimeout k ch) s = .next { s with
      dev := (((s.dev.scramble x.outs).1.failExchange x.ring x.count (s.dev.portTo m.2)).setChan k.val ch.val
        { (s.dev.scramble x.outs).1.chan k.val ch.val with disp := none }).endCancels,
      mem := s.mem.applyAll (s.dev.scramble x.outs).2 } := by
  refine (show exec (.shuttleArmTimeout k ch) s = execShuttleArmTimeout k ch s from rfl).trans ?_
  unfold execShuttleArmTimeout
  simp only [hdisp]
  have hfind : ∀ f : Nat × Nat → Bool, (∀ n, f n = (n.2 != s.dev.self &&
      !((Tbl.look x.counts n.1).any Counted.whole && (Tbl.look x.armedBy n.1).any Counted.whole))) →
      (s.dev.xMembers (xtSet x.table)).find? f = some m := fun f hf => (congrArg (List.find? · _) (funext hf)).trans hmissing
  rw [hfind]
  · simp only [Option.filter_some, hpast, if_true]
    rfl
  · intro n
    cases Tbl.look x.counts n.1 <;> cases Tbl.look x.armedBy n.1 <;> rfl

theorem ends_shuttleArmTimeout {k : Fin 32} {ch : Fin 64} {x : Exch} {m : Nat × Nat} {e : Entry}
    (hdisp : (s.dev.chan k.val ch.val).disp = some x)
    (hmissing : (s.dev.xMembers (xtSet x.table)).find? (fun m => m.2 != s.dev.self &&
      !((Tbl.look x.counts m.1).any Counted.whole && (Tbl.look x.armedBy m.1).any Counted.whole)) = some m)
    (hpast : s.dev.armPast x = true) (he : s.dev.entry x.ring x.count = some e) (hs : e.phase = .started) (hclass : classOf e.res.status < 3) :
    Ends (.shuttleArmTimeout k ch) s (fun u => u = { s with dev := s.dev.failed u.dev, mem := u.mem } ∧
      u.mem = s.mem.applyAll (s.dev.scramble x.outs).2 ∧ (u.dev.chan k.val ch.val).disp = none ∧
      ∃ e', u.dev.entry x.ring x.count = some e' ∧ e'.phase = .done ∧ e'.res.status = 0x3005 ∧
        e'.res.reason = BitVec.ofNat 16 (s.dev.portTo m.2)) := by
  obtain ⟨hfails, hchan, hop⟩ := Dev.failExchange_ends (d := (s.dev.scramble x.outs).1) (c := k.val) (ch := ch.val)
    ((Dev.entry_congr (s.dev.scramble_rings x.outs) _ _).trans he) hs hclass (s.dev.portTo m.2)
    { (s.dev.scramble x.outs).1.chan k.val ch.val with disp := none }
  refine ⟨_, exec_shuttleArmTimeout hdisp hmissing hpast, ?_, rfl, congrArg Chan.disp hchan, hop⟩
  exact frame_state (F := Dev.failed) (frame_trans (F := Dev.failed) (fun _ _ _ => rfl) (s.dev.scramble_failed x.outs)
    (frame_weaken (F := Dev.charged) (fun _ _ => rfl) hfails)) _

end Answers

/-- Settles O32: each packet of the shuttle, and the ARM timeout, acts on the exchange of its channel as the model's steps do, one lemma a
packet; the frames are those of `Dev.shuttled`, `Dev.charged` and `Dev.exchanged`. -/
theorem shuttlePacketsMoveTheExchange : Obligations.ShuttlePacketsMoveTheExchange := by
  unfold Obligations.ShuttlePacketsMoveTheExchange
  intro s p c
  refine ⟨ends_shuttle_of_no_claim, ends_shuttleCount_held, ends_shuttleArmed_stray, fun x => ends_shuttleArmed_gather,
    fun x e => ends_shuttleRefuse, fun x pos => ends_shuttleRows, fun z w hc hres hkind hflags hch hrank hfmt hblocks hlength => ⟨?_, ?_⟩,
    fun q e => ends_shuttleAck, fun k ch x m e => ends_shuttleArmTimeout⟩
  · exact ends_shuttleResult_expected hc hres hkind hflags hch hrank hfmt hblocks hlength
  · exact ends_shuttleResult_unexpected hc hres hkind hflags hch hrank hfmt hblocks hlength

end Sys2Proof.Machine

/-! The invariant of device memory (R211, R217, notes/assumptions/3.md): a command answers a next state that differs from the one it
runs from in the device and by stores and drops of memory alone, and those keep the canonical form. -/
namespace Sys2Proof.Machine

theorem Memory.applyAll_append (m : Memory) (v w : List MemOp) : m.applyAll (v ++ w) = (m.applyAll v).applyAll w := by
  induction v generalizing m with
  | nil => rfl
  | cons x v ih => exact ih (m.apply x)

/-! ## What an outcome answers -/

/-- An outcome is a next state in which the queue stands as it was and memory has taken a sequence of changes. -/
def Answers (s : State) (o : Host.Outcome State Fault Refusal) : Prop :=
  ∃ (d : Dev) (ws : List MemOp), o = .next { s with dev := d, mem := s.mem.applyAll ws }

theorem Answers.memoryOk {s t : State} {o : Host.Outcome State Fault Refusal} (h : Answers s o) (hs : MemoryOk s) (ht : o = .next t) :
    MemoryOk t := by
  obtain ⟨d, ws, rfl⟩ := h
  cases ht
  exact Memory.wf_applyAll hs ws

theorem Answers.of_dev {s : State} {d : Dev} {o : Host.Outcome State Fault Refusal} (h : Answers { s with dev := d } o) : Answers s o := h

section Outcomes
variable {s : State} {d : Dev} {p : Dev × List MemOp} {o o' : Host.Outcome State Fault Refusal}
  {f : State → Host.Outcome State Fault Refusal} {r : Nat} {c : W32} {e : Entry} {res : Result}

theorem answers_answer : Answers s (answer s d) := ⟨d, [], rfl⟩

theorem answers_answerMem : Answers s (answerMem s p) := ⟨p.1, p.2, rfl⟩

theorem answers_work {w : Work} : Answers s (Work.answer s w) := answers_answerMem

theorem answers_reapTo : Answers s (reapTo s d) := answers_answerMem

theorem answers_failOp : Answers s (failOp s r e res) := answers_answer

theorem answers_ite {q : Prop} [Decidable q] (h : Answers s o) (h' : Answers s o') : Answers s (if q then o else o') := by
  split
  · exact h
  · exact h'

theorem answers_failOut {outs : List (Nat × Nat)} : Answers s (failOut s r e res outs) :=
  answers_ite answers_answerMem answers_answer

theorem answers_viaCfg (h : Answers s o) : Answers s (viaCfg s o) := answers_ite ⟨s.dev, [], rfl⟩ h

theorem answers_andThen (h : Answers s o) (hf : ∀ t, Answers t (f t)) : Answers s (andThen o f) := by
  obtain ⟨d, v, rfl⟩ := h
  obtain ⟨d', w, h'⟩ := hf { s with dev := d, mem := s.mem.applyAll v }
  exact ⟨d', v ++ w, by rw [Memory.applyAll_append]; exact h'⟩

/-- What asks for the meters first goes on, if at all, from a state with another device. -/
theorem answers_metered {needs : List (Nat × Nat)} (h : ∀ t, Answers t (f t)) : Answers s (metered s r c needs f) := by
  unfold metered
  split
  · exact answers_answer
  · exact answers_ite (h s) (answers_ite (h { s with dev := _ }) answers_answer)

theorem answers_begun {wait : Bool} {needs : List (Nat × Nat)} (h : ∀ t, Answers t (f t)) : Answers s (begun s r e wait needs f) :=
  answers_ite answers_answer (answers_metered h)

end Outcomes

section Commands
variable {s : State} {r : RingNo} {c : W32}

/-! ## Power, supplies and the host -/

theorem answers_quiesceAnswer {cause : BitVec 8} {aonHeld : Bool} {d : Dev} : Answers s (quiesceAnswer s cause aonHeld d) :=
  answers_answerMem

theorem answers_mainLost {was aonHeld : Bool} {cause : BitVec 8} {d : Dev} : Answers s (mainLost s was cause aonHeld d) :=
  answers_ite answers_answerMem (answers_ite answers_quiesceAnswer answers_answer)

theorem answers_pwrWarnAsserted {mainHeld aonHeld : Bool} : Answers s (execPwrWarnAsserted mainHeld aonHeld s) :=
  answers_ite (answers_ite answers_answerMem answers_quiesceAnswer) answers_answer

theorem answers_auxInputLow : Answers s (execAuxInputLow s) :=
  answers_ite (answers_ite answers_answer answers_answerMem) answers_answer

theorem answers_sequencingRetry {dom : Fin 5} : Answers s (execSequencingRetry dom s) :=
  answers_ite (answers_ite answers_answer answers_answer) answers_answer

theorem answers_dieReady {n : Fin 4} {slowest : BitVec 11} {junction : Int} : Answers s (execDieReady n slowest junction s) :=
  answers_ite (answers_ite answers_answer answers_answer) answers_answer

theorem answers_i3cAddressWrite {data : List Byte} : Answers s (execI3cAddressWrite data s) := by
  unfold execI3cAddressWrite
  dsimp only
  split
  · exact answers_ite answers_answer answers_answer
  · exact answers_answer

theorem answers_monitorSample {levels : BitVec 64} {z : Sensors} : Answers s (execMonitorSample levels z s) :=
  answers_ite (answers_ite (Answers.of_dev answers_pwrWarnAsserted) answers_answer) answers_answer

theorem answers_hostLinkUp {l : LinkResult} : Answers s (execHostLinkUp l s) :=
  answers_ite answers_answer (answers_ite answers_answer answers_answer)

theorem answers_hdmCommit {dec : Fin 2} {base size dpa : Word} {ways : BitVec 4} : Answers s (execHdmCommit dec base size dpa ways s) := by
  refine answers_ite ?_ answers_answer
  split <;> exact answers_answer

theorem answers_hdmwinRead {off : BitVec 42} {n : Nat} {bad : Bool} : Answers s (execHdmwinRead off n bad s) :=
  answers_ite answers_answer (answers_ite answers_answer answers_answer)

theorem answers_hdmwinWrite {off : BitVec 42} {data : List Byte} {bad : Bool} : Answers s (execHdmwinWrite off data bad s) :=
  answers_ite answers_answer (answers_ite answers_answer answers_answerMem)

theorem answers_cxlMemRequest {addr : BitVec 42} {data : Option (List Byte)} {bad : Bool} :
    Answers s (execCxlMemRequest addr data bad s) := by
  refine answers_ite ?_ answers_answer
  split
  · exact answers_answer
  · exact answers_answerMem

theorem answers_msixUnmask {v : Option (Fin 2048)} : Answers s (execMsixUnmask v s) := by
  refine answers_ite ?_ answers_answer
  split <;> exact answers_answer

theorem answers_doorbellReadReturn {q : Fin 1024} {line : Option (List Byte)} : Answers s (execDoorbellReadReturn q line s) := by
  refine answers_ite ?_ answers_answer
  split
  · exact answers_answer
  · exact answers_ite (answers_ite answers_answer (answers_ite answers_answer answers_answer)) (answers_ite answers_answer answers_answer)

theorem answers_enableCheckDone {b : BlockId} : Answers s (execEnableCheckDone b s) := by
  refine answers_ite ?_ answers_answer
  split <;> exact answers_answer

/-! ## Rings and control ops -/

theorem answers_descriptorFetch {q : Fin 1024} {desc : Option (BitVec 512)} : Answers s (execDescriptorFetch q desc s) := by
  refine answers_ite ?_ answers_answer
  split
  · exact answers_answer
  · dsimp only
    split <;> exact answers_answer

theorem answers_opComplete : Answers s (execOpComplete r c s) := by
  unfold execOpComplete
  dsimp only
  split <;> exact answers_answer

theorem answers_deadlineReached : Answers s (execDeadlineReached r c s) := by
  unfold execDeadlineReached
  dsimp only
  split <;> exact answers_answer

theorem answers_nop : Answers s (execNop r c s) := by
  unfold execNop
  split <;> exact answers_answer

theorem answers_fence : Answers s (execFence r c s) := by
  unfold execFence
  split <;> exact answers_answer

theorem answers_tallySignal : Answers s (execTallySignal r c s) := by
  unfold execTallySignal
  split
  · exact answers_ite answers_answer answers_answer
  · exact answers_answer

theorem answers_tallyWait : Answers s (execTallyWait r c s) := by
  unfold execTallyWait
  split <;> exact answers_answer

theorem answers_repeatBy : Answers s (execRepeatBy r c s) := by
  unfold execRepeatBy
  dsimp only
  split
  · split
    · exact answers_answer
    · exact answers_begun fun _ => answers_ite answers_answer (answers_ite answers_answer answers_answer)
  · exact answers_answer

theorem answers_skipIf : Answers s (execSkipIf r c s) := by
  unfold execSkipIf
  dsimp only
  split
  · split
    · exact answers_failOp
    · exact answers_begun fun _ => answers_answer
  · exact answers_answer

theorem answers_timestamp : Answers s (execTimestamp r c s) := by
  unfold execTimestamp
  dsimp only
  split
  · split
    · exact answers_failOp
    · exact answers_begun fun _ => answers_answerMem
  · exact answers_answer

/-! ## Lane ops, the assay and the sluice -/

theorem answers_laneFinish {l : LaneRun} {q : Nat} {e : Entry} {dies : List (Nat × List Nat)} : Answers s (l.finish s q e dies) :=
  answers_ite answers_answerMem answers_answerMem

theorem answers_laneStart {l : LaneRun} {q : Nat} {e : Entry} : Answers s (l.start s q e) := by
  refine answers_ite (answers_ite answers_laneFinish answers_answer) (answers_begun fun t => ?_)
  dsimp only
  split
  · exact Answers.of_dev answers_laneFinish
  · exact answers_answer

theorem answers_runLane {q : Nat} {e : Entry} {plan : Except (Result × List (Nat × Nat)) LaneRun} : Answers s (runLane s q e plan) := by
  refine answers_ite answers_failOut ?_
  split
  · exact answers_failOut
  · exact answers_laneStart

theorem answers_matmul : Answers s (execMatmul r c s) := by
  unfold execMatmul
  split
  · exact answers_runLane
  · exact answers_answer

theorem answers_spmm : Answers s (execSpmm r c s) := by
  unfold execSpmm
  split
  · exact answers_runLane
  · exact answers_answer

theorem answers_conv : Answers s (execConv r c s) := by
  unfold execConv
  split
  · exact answers_runLane
  · exact answers_answer

theorem answers_finish : Answers s (execFinish r c s) := by
  unfold execFinish
  extract_lets d
  split
  · exact answers_answer
  · split
    · exact answers_failOut
    · exact answers_begun fun _ => answers_ite answers_answerMem answers_answerMem

theorem answers_rngFill : Answers s (execRngFill r c s) := by
  unfold execRngFill
  dsimp only
  split
  · exact answers_answer
  · split
    · exact answers_failOut
    · exact answers_ite answers_failOut (answers_ite answers_failOut (answers_begun fun _ => answers_answerMem))

theorem answers_assay : Answers s (execAssay r c s) := by
  unfold execAssay
  dsimp only
  split
  · exact answers_answer
  · split
    · exact answers_failOut
    · exact answers_begun fun _ => answers_ite answers_answerMem answers_answerMem

theorem answers_sluice : Answers s (execSluice r c s) := by
  unfold execSluice
  dsimp only
  split
  · exact answers_answer
  · split
    · exact answers_failOut
    · exact answers_begun fun _ => answers_ite answers_answer answers_answerMem

/-! ## Objects and units -/

theorem answers_moveCommit {n : Fin 262144} {unit : Nat} : Answers s (execMoveCommit n unit s) := by
  unfold execMoveCommit
  dsimp only
  split
  · exact answers_answer
  · split
    · exact answers_answer
    · refine answers_ite answers_answer ?_
      split <;> exact answers_answerMem

theorem answers_runMoves {opcode : Nat} : Answers s (runMoves s r c opcode) := by
  unfold runMoves
  dsimp only
  split
  · exact answers_answer
  · refine answers_ite answers_answer (answers_ite answers_failOp ?_)
    split
    · exact answers_failOp
    · refine answers_ite answers_failOp (answers_ite answers_failOp (answers_ite answers_failOp (answers_ite answers_failOp
        (answers_ite answers_answer ?_))))
      split
      · exact answers_failOp
      · exact answers_answer

theorem answers_place : Answers s (execPlace r c s) := by
  unfold execPlace
  dsimp only
  split
  · exact answers_answer
  · split
    · exact answers_ite answers_failOp answers_failOp
    · refine answers_ite answers_failOp (answers_ite answers_answer (answers_ite answers_failOp (answers_ite answers_answer ?_)))
      split
      · exact answers_answer
      · split
        · exact answers_answer
        · exact Answers.of_dev answers_failOp

theorem answers_copy : Answers s (execCopy r c s) := by
  unfold execCopy
  dsimp only
  split
  · exact answers_answer
  · refine answers_ite answers_failOp ?_
    split
    · exact answers_failOp
    · exact answers_failOp
    · refine answers_ite answers_failOut (answers_ite answers_failOp ?_)
      split
      · exact answers_failOp
      · exact answers_ite answers_answer (answers_metered fun _ =>
          answers_ite (answers_ite answers_answerMem answers_answerMem) answers_answerMem)

theorem answers_objCreateDone {n : Fin 262144} : Answers s (execObjCreateDone n s) := by
  unfold execObjCreateDone
  dsimp only
  split
  · exact answers_answer
  · exact answers_ite answers_answerMem answers_answer

theorem answers_patrolScrub {n : Fin 4} {near : Bool} {off : BitVec 42} {res : ScrubResult} :
    Answers s (execPatrolScrub n near off res s) := by
  refine answers_ite ?_ answers_answer
  split <;> exact answers_answer

/-! ## The fabric and remote memory -/

theorem answers_fabricLinkUp {n : Fin 48} {t : TrainResult} : Answers s (execFabricLinkUp n t s) :=
  answers_ite (answers_ite answers_answer (answers_ite answers_answer (answers_ite answers_answer answers_answer))) answers_answer

theorem answers_flitReceive {n : Fin 48} {b : List Byte} : Answers s (execFlitReceive n b s) :=
  answers_ite answers_answer (answers_ite answers_answer (answers_ite answers_answer answers_answer))

theorem answers_packetForward {from_ : Option (Fin 48)} {k : Packet} : Answers s (execPacketForward from_ k s) := by
  refine answers_ite ?_ answers_answer
  split <;> exact answers_answer

theorem answers_packetIngress {k : Packet} : Answers s (execPacketIngress k s) :=
  answers_ite answers_answer (answers_ite answers_answer (answers_ite answers_answer (answers_ite answers_answer
    (answers_ite answers_answer answers_answer))))

theorem answers_xbarPlaneCtlWrite {v : W32} : Answers s (execXbarPlaneCtlWrite v s) :=
  answers_viaCfg (answers_ite answers_answer (answers_ite answers_answer answers_answer))

theorem answers_runRemote {opcode kind : Nat} : Answers s (runRemote s r c opcode kind) := by
  unfold runRemote
  dsimp only
  split
  · exact answers_answer
  · split
    · exact answers_answerMem
    · split
      · exact answers_failOp
      · refine Answers.of_dev (answers_begun fun t => ?_)
        split
        · exact answers_answer
        · exact answers_answerMem

theorem answers_remAs {k : Packet} {kind : Nat} {f : Dev → Dev × List MemOp} : Answers s (remAs s k kind f) :=
  answers_ite answers_answer (answers_ite answers_answer (answers_ite answers_answerMem answers_answer))

theorem answers_deTimeout {op : Fin 64} : Answers s (execDeTimeout op s) := by
  unfold execDeTimeout
  split
  · exact answers_answerMem
  · exact answers_answer

theorem answers_remTimeout {op : Fin 64} : Answers s (execRemTimeout op s) := by
  unfold execRemTimeout
  split
  · exact answers_answerMem
  · exact answers_answer

/-! ## Collectives -/

theorem answers_runColl {opcode : Nat} : Answers s (runColl s r c opcode) := by
  unfold runColl
  dsimp only
  split
  · exact answers_answer
  · split
    · exact answers_failOp
    · split
      · exact answers_answerMem
      · split
        · exact answers_answer
        · exact answers_begun fun _ => answers_ite answers_answerMem answers_answerMem

theorem answers_collAs {k : Packet} {kind : Nat} {now : Dev → CollRun → Dev × List MemOp} {next : Dev → Nat → Group → Dev} :
    Answers s (collAs s k kind now next) := by
  unfold collAs
  dsimp only
  split
  · exact answers_answer
  · exact answers_answer
  · exact answers_answerMem
  · exact answers_answer
  · refine answers_ite ?_ answers_answer
    split
    · exact answers_answerMem
    · exact answers_answer

theorem answers_collTimeout {slot : Fin 64} : Answers s (execCollTimeout slot s) := by
  unfold execCollTimeout
  split
  · exact answers_answerMem
  · exact answers_answer

/-! ## The security mailbox -/

theorem answers_serveMsg {m : Msg} {work : Dev → Except Nat (Dev × List Byte)} : Answers s (serveMsg s m work) := by
  refine answers_ite answers_answer (answers_ite answers_answer (answers_ite answers_answer (answers_ite answers_answer
    (answers_ite answers_answer ?_))))
  split <;> exact answers_answer

theorem answers_fwLoad {req : List Byte} {image : Option (List Byte)} : Answers s (execFwLoad req image s) := by
  unfold execFwLoad
  exact answers_serveMsg

theorem answers_attest {req : List Byte} : Answers s (execAttest req s) := by
  unfold execAttest
  exact answers_serveMsg

theorem answers_change {req : List Byte} : Answers s (execChange req s) := by
  unfold execChange
  exact answers_serveMsg

theorem answers_mailboxBadMessage {req : Option (List Byte)} : Answers s (execMailboxBadMessage req s) := by
  unfold execMailboxBadMessage
  split
  · exact answers_ite answers_answer answers_serveMsg
  · exact answers_ite answers_answer answers_serveMsg

theorem answers_unlock {req : List Byte} : Answers s (execUnlock req s) := by
  refine answers_ite ?_ answers_serveMsg
  dsimp only
  split <;> exact answers_answer

/-! ## The shuttle -/

theorem answers_cancelBatch : Answers s (execCancelBatch r c s) := by
  unfold execCancelBatch
  dsimp only
  split
  · exact answers_answer
  · split <;> exact answers_answer

theorem answers_dispatch : Answers s (execDispatch r c s) := by
  unfold execDispatch
  dsimp only
  split
  · exact answers_answer
  · split
    · exact answers_work
    · split
      · exact answers_answer
      · exact answers_begun fun _ => answers_ite answers_answer answers_work

theorem answers_returnOp {q opcode : Nat} : Answers s (returnOp s q c opcode) := by
  unfold returnOp
  dsimp only
  split
  · exact answers_answer
  · refine answers_ite answers_answer ?_
    split
    · exact answers_answer
    · exact answers_begun fun _ => answers_ite answers_answer answers_work

theorem answers_combine : Answers s (execCombine r c s) := by
  unfold execCombine
  dsimp only
  split
  · exact answers_answer
  · split
    · exact answers_failOut
    · refine answers_begun fun t => ?_
      split <;> exact answers_answerMem

theorem answers_onPacket {k : Packet} {kind : Nat} {f : Work → Nat → Nat → Work} : Answers s (onPacket s k kind f) := by
  unfold onPacket
  split
  · exact answers_ite answers_work answers_answer
  · exact answers_answer

theorem answers_shuttleResult {k : Packet} : Answers s (execShuttleResult k s) := by
  unfold execShuttleResult
  split
  · exact answers_answer
  · exact answers_ite answers_work answers_answer

theorem answers_shuttleArmTimeout {n : Fin 32} {ch : Fin 64} : Answers s (execShuttleArmTimeout n ch s) := by
  unfold execShuttleArmTimeout
  dsimp only
  split
  · exact answers_answer
  · split
    · exact answers_work
    · exact answers_answer

/-! ## Time, barriers, tags and jobs -/

theorem answers_timingAnswerReceive {t1 t2 t3 t4 : Word} {up : Fin 4} {depth : BitVec 3} :
    Answers s (execTimingAnswerReceive t1 t2 t3 t4 up depth s) := by
  refine answers_ite ?_ answers_answer
  dsimp only
  split
  · exact answers_answer
  · exact answers_answer
  · exact answers_ite answers_answer answers_answer

theorem answers_collBarrier : Answers s (execCollBarrier r c s) := by
  unfold execCollBarrier
  dsimp only
  split
  · exact answers_answer
  · split
    · exact answers_failOp
    · split
      · exact answers_answer
      · refine answers_ite answers_answer ?_
        split
        · exact answers_answer
        · exact answers_ite answers_answerMem answers_answer

theorem answers_barrierArriveReceive {gid seq : BitVec 16} {src : BitVec 20} : Answers s (execBarrierArriveReceive gid seq src s) := by
  unfold execBarrierArriveReceive
  dsimp only
  split
  · exact answers_answer
  · refine answers_ite answers_answerMem ?_
    split <;> exact answers_answer

theorem answers_barrierReleaseReceive {p : Fin 48} {gid seq : BitVec 16} {src : BitVec 20} {scheduled : Bool} {value : Word} :
    Answers s (execBarrierReleaseReceive p gid seq src scheduled value s) := by
  unfold execBarrierReleaseReceive
  dsimp only
  split
  · exact answers_answer
  · refine answers_ite answers_answerMem ?_
    split
    · exact answers_ite answers_answer answers_answer
    · exact answers_answer

theorem answers_barrierReleaseTick {slot : Fin 64} : Answers s (execBarrierReleaseTick slot s) := by
  unfold execBarrierReleaseTick
  dsimp only
  split <;> exact answers_answer

theorem answers_jobStartReceive {src : BitVec 20} {tag gid : BitVec 16} {attempt : BitVec 8} :
    Answers s (execJobStartReceive src tag gid attempt s) := by
  unfold execJobStartReceive
  dsimp only
  split <;> exact answers_answer

theorem answers_jobAnswerReceive {src : BitVec 20} {tag : BitVec 16} {attempt : BitVec 8} {accepted : Nat}
    {refused : Option (BitVec 20 × BitVec 8)} {missing : Option (BitVec 20)} :
    Answers s (execJobAnswerReceive src tag attempt accepted refused missing s) := by
  unfold execJobAnswerReceive
  dsimp only
  split <;> exact answers_answer

theorem answers_jobChildWaitTimeout {tag : BitVec 16} : Answers s (execJobChildWaitTimeout tag s) := by
  unfold execJobChildWaitTimeout
  dsimp only
  split
  · exact answers_answer
  · split <;> exact answers_answer

theorem answers_jobStartTimeout : Answers s (execJobStartTimeout s) := by
  unfold execJobStartTimeout
  dsimp only
  split <;> exact answers_answer

theorem answers_jobGoReceive {tag gid : BitVec 16} {attempt : BitVec 8} {rel : Word} :
    Answers s (execJobGoReceive tag gid attempt rel s) := by
  unfold execJobGoReceive
  dsimp only
  split <;> exact answers_answer

theorem answers_jobAbortReceive {tag gid : BitVec 16} {attempt : BitVec 8} : Answers s (execJobAbortReceive tag gid attempt s) := by
  unfold execJobAbortReceive
  extract_lets d d'
  split <;> exact answers_answer

theorem answers_tagActivate {tag : BitVec 16} : Answers s (execTagActivate tag s) := by
  unfold execTagActivate
  dsimp only
  split <;> exact answers_answer

theorem answers_startingTagTimeout {tag : BitVec 16} : Answers s (execStartingTagTimeout tag s) := by
  unfold execStartingTagTimeout
  dsimp only
  split <;> exact answers_answer

theorem answers_jobRevokeReceive {tag gid : BitVec 16} : Answers s (execJobRevokeReceive tag gid s) := by
  unfold execJobRevokeReceive
  dsimp only
  split <;> exact answers_answer

theorem answers_tagDrainComplete {tag : BitVec 16} : Answers s (execTagDrainComplete tag s) := by
  unfold execTagDrainComplete
  dsimp only
  split
  · exact answers_ite answers_answer answers_answer
  · exact answers_answer

theorem answers_jobFreeReportReceive {tag gid : BitVec 16} {member : BitVec 20} :
    Answers s (execJobFreeReportReceive tag gid member s) := by
  unfold execJobFreeReportReceive
  dsimp only
  split
  · exact answers_ite answers_answer answers_answer
  · split <;> exact answers_answer

theorem answers_teardownTimeout : Answers s (execTeardownTimeout s) := by
  unfold execTeardownTimeout
  dsimp only
  split <;> exact answers_answer

/-! ## Events, kernels, health and the claims' meters and contexts -/

theorem answers_eventDeliver {u : Fin 33} {core : Fin 8} : Answers s (execEventDeliver u core s) := by
  unfold execEventDeliver
  dsimp only
  split
  · exact answers_ite answers_answer answers_answer
  · exact answers_answer

theorem answers_endOfService {u : Fin 33} {core : Fin 8} {level : Bool} : Answers s (execEndOfService u core level s) := by
  unfold execEndOfService
  dsimp only
  split <;> exact answers_answer

theorem answers_kernelLoad : Answers s (execKernelLoad s) := by
  refine answers_viaCfg ?_
  dsimp only
  split <;> exact answers_answer

theorem answers_kernelIssue {n : Fin 4} {core : Fin 8} {desc : BitVec 512} : Answers s (execKernelIssue n core desc s) := by
  unfold execKernelIssue
  dsimp only
  split
  · exact answers_ite answers_answer answers_answer
  · exact answers_answer

theorem answers_spareSelfTestDone {n : Fin 4} {core pass : Bool} : Answers s (execSpareSelfTestDone n core pass s) := by
  unfold execSpareSelfTestDone
  dsimp only
  split
  · split
    · exact answers_ite answers_answer answers_answer
    · exact answers_answer
  · exact answers_answer

theorem answers_handover {standbyFails : Bool} : Answers s (execHandover standbyFails s) := by
  refine answers_viaCfg ?_
  dsimp only
  split
  · exact answers_answer
  · exact answers_ite answers_answer (answers_ite answers_answer (answers_ite answers_answer (answers_ite answers_answer
      (answers_ite answers_answer answers_answer))))

theorem answers_laneFault {n : Fin 4} {res : DieRes} {op : Option (RingNo × W32)} : Answers s (execLaneFault n res op s) := by
  refine answers_ite ?_ answers_answer
  split
  · exact answers_reapTo
  · exact answers_answer

theorem answers_engineFault {b : BlockId} : Answers s (execEngineFault b s) :=
  answers_ite (answers_ite answers_answerMem answers_answer) answers_answer

theorem answers_tallyEntryFault {t : BitVec 16} : Answers s (execTallyEntryFault t s) := by
  refine answers_ite ?_ answers_answer
  dsimp only
  split
  · exact answers_ite answers_answerMem answers_answer
  · exact answers_answer

theorem answers_meterAdmit {m : Meter} : Answers s (execMeterAdmit m s) := by
  unfold execMeterAdmit
  dsimp only
  split
  · exact answers_answer
  · exact answers_answerMem

/-! ## Registers: REGISTER_WRITE runs the command of the register at its offset -/

theorem answers_preemptSave {n : Fin 32} : Answers s (execPreemptSave n s) := answers_ite answers_answerMem answers_answer

theorem answers_restoreClaim {n : Fin 32} {restart : Bool} : Answers s (restoreClaim s n restart) := answers_viaCfg answers_answer

theorem answers_writeCtl {b : BlockId} {v : W32} : Answers s (writeCtl b v s) := answers_ite answers_answer answers_answerMem

section Registers
variable {o : Nat} {v : W32}

theorem answers_msixReg {n : Nat} : Answers s (msixReg n o v s) := by
  unfold msixReg
  dsimp only
  split
  · exact answers_answer
  · exact answers_ite answers_answer answers_answer
  · exact answers_answer

theorem answers_ringReg : Answers s (ringReg o v s) := by
  unfold ringReg
  dsimp only
  split
  case h_2 => exact answers_writeCtl
  all_goals exact answers_answer

theorem answers_claimReg {n : Fin 32} : Answers s (claimReg n o v s) := by
  unfold claimReg
  dsimp only
  split
  case h_1 | h_2 | h_3 | h_13 => exact answers_viaCfg answers_answer
  case h_10 =>
    split
    · exact answers_viaCfg answers_answer
    · exact answers_restoreClaim
    · exact answers_answer
  all_goals exact answers_answer

theorem answers_dieReg {n : Fin 4} : Answers s (dieReg n o v s) := by
  unfold dieReg
  dsimp only
  split
  case h_6 => exact answers_ite (answers_viaCfg answers_answer) (answers_ite (answers_viaCfg answers_answer) answers_answer)
  case h_5 | h_8 | h_9 => exact answers_answer
  all_goals exact answers_viaCfg answers_answer

theorem answers_hoistCfgWrite : Answers s (execHoistCfgWrite v s) := answers_viaCfg (answers_ite answers_answer answers_answer)

theorem answers_hoistReg : Answers s (hoistReg o v s) := by
  unfold hoistReg
  dsimp only
  split
  · exact answers_hoistCfgWrite
  all_goals exact answers_answer

theorem answers_xbarReg : Answers s (xbarReg o v s) := by
  unfold xbarReg
  dsimp only
  split
  case h_1 => exact answers_xbarPlaneCtlWrite
  case h_3 | h_4 | h_5 => exact answers_viaCfg answers_answer
  case h_8 =>
    split
    case h_4 => exact answers_answer
    all_goals exact answers_viaCfg answers_answer
  all_goals exact answers_answer

theorem answers_routingReg : Answers s (routingReg o v s) := by
  unfold routingReg
  dsimp only
  split
  case h_1 | h_5 => exact answers_viaCfg answers_answer
  all_goals exact answers_answer

theorem answers_collReg : Answers s (collReg o v s) := by
  unfold collReg
  dsimp only
  split
  · exact answers_answer
  · split <;> exact answers_answer
  · exact answers_answer

theorem answers_timeReproWrite : Answers s (execTimeReproWrite v s) := answers_viaCfg (answers_ite answers_answer answers_answer)

theorem answers_timeBarCfgWrite : Answers s (execTimeBarCfgWrite v s) := answers_viaCfg (answers_ite answers_answer answers_answer)

theorem answers_timeReg : Answers s (timeReg o v s) := by
  unfold timeReg
  dsimp only
  split
  case h_4 => exact answers_timeBarCfgWrite
  case h_5 => exact answers_timeReproWrite
  case h_8 | h_10 => split <;> exact answers_answer
  all_goals exact answers_answer

theorem answers_eventReg : Answers s (eventReg o v s) := by
  unfold eventReg
  dsimp only
  split
  case h_3 =>
    split
    · exact answers_kernelLoad
    · exact answers_viaCfg answers_answer
    · exact answers_viaCfg answers_answer
    · exact answers_answer
  all_goals exact answers_answer

theorem answers_healthReg : Answers s (healthReg o v s) := by
  unfold healthReg
  dsimp only
  split
  case h_2 | h_5 | h_7 => exact answers_viaCfg answers_answer
  case h_3 => exact answers_ite (Answers.of_dev answers_handover) answers_answer
  case h_4 => exact answers_answerMem
  all_goals exact answers_answer

theorem answers_reg32 : Answers s (reg32 o v s) := by
  unfold reg32
  dsimp only
  split
  · exact answers_writeCtl
  · exact answers_answer
  · refine answers_ite answers_answer (answers_ite answers_ringReg (answers_ite (answers_viaCfg answers_answer)
      (answers_ite (answers_viaCfg answers_answer) (answers_ite answers_answer (answers_ite answers_msixReg
      (answers_ite answers_claimReg (answers_ite answers_dieReg (answers_ite answers_hoistReg (answers_ite answers_xbarReg
      (answers_ite answers_answer (answers_ite answers_answer (answers_ite answers_routingReg (answers_ite answers_collReg
      (answers_ite answers_timeReg (answers_ite answers_eventReg (answers_ite answers_healthReg ?_))))))))))))))))
    exact answers_ite answers_answer answers_answer

theorem answers_of_mem_some {a b : Host.Outcome State Fault Refusal} (h : Answers s b) (ha : a ∈ some b) : Answers s a :=
  Option.some.inj ha ▸ h

/-- Where a 64-bit register stands at the offset, its write answers too. -/
theorem answers_reg64 {w : Word} : ∀ a ∈ reg64 o w s, Answers s a := by
  intro a
  unfold reg64
  dsimp only
  split
  case h_4 | h_6 => exact answers_of_mem_some (answers_viaCfg answers_answer)
  case h_15 =>
    split_ifs with stops msix claims
    · exact answers_of_mem_some answers_answer
    · exact answers_of_mem_some answers_answer
    · intro ha
      obtain ⟨d, -, rfl⟩ := Option.map_eq_some_iff.mp ha
      exact answers_answer
    · exact answers_of_mem_some answers_answer
    · exact answers_of_mem_some answers_answer
    · exact answers_of_mem_some answers_answer
    · exact fun ha => nomatch ha
  all_goals exact answers_of_mem_some answers_answer

theorem answers_half64 : ∀ a ∈ half64 o v s, Answers s a := by
  unfold half64
  dsimp only
  split
  · exact fun _ h => nomatch h
  · exact answers_reg64

end Registers

theorem answers_registerWrite {off : BitVec 24} {n : Nat} {v : Word} : Answers s (execRegisterWrite off n v s) := by
  refine answers_ite answers_reg32 (answers_viaCfg (answers_ite ?half (answers_ite ?whole answers_answer)))
  case half =>
    cases h : half64 off.toNat (v.setWidth 32) s with
    | none => exact answers_reg32
    | some a => exact answers_half64 a h
  case whole =>
    split
    · exact answers_reg64 _ ‹_›
    · exact answers_andThen answers_reg32 fun _ => answers_reg32

end Commands
/-- Every command answers a next state that differs from the one it runs from in the device and by changes of memory alone. -/
theorem answers_exec (c : Instr) (s : State) : Answers s (exec c s) := by
  cases c
  case mainUndervoltage | mainOvervoltage =>
    exact answers_mainLost
  case returnSlot | returnAccum =>
    exact answers_returnOp
  case hoist | settle =>
    exact answers_runMoves
  case remotePut | remoteGet | remoteAtomic =>
    exact answers_runRemote
  case collAllreduce | collReduceScatter | collAllgather | collBcastLine =>
    exact answers_runColl
  case shuttleCount | shuttleArmed | shuttleRefuse | shuttleRows | shuttleAck =>
    dsimp only [exec]
    exact answers_onPacket
  case claimRestore | claimRestoreRestart =>
    exact answers_restoreClaim
  case putReceive | getReqReceive | atomicReqReceive | getDataReceive | atomicRspReceive | remoteAckReceive | remoteNakReceive =>
    dsimp only [exec]
    exact answers_remAs
  case collUpReceive | collDownReceive | collWindowReceive | collPresentReceive | collAbortReceive =>
    dsimp only [exec]
    exact answers_collAs
  case getIdentity | unlockChallenge | relock | getProtection =>
    dsimp only [exec]
    exact answers_serveMsg
  case alwaysOnPowerUp | allPowerRemoved | coldStartGo =>
    exact answers_answerMem
  case mainPowerUpRequest | hubSelfTestDone | loomDieDomainOn | pstateRunning | i3cRead | blockReachesOff | recordPost | permitIssue |
      hoistEvaluation | frameStart | loopbackDone | deliveryConfirm | rtL2pDataRead | rtSpanDataRead | planeRetire | timingExchangeMissed |
      deputyWatchdogExpiry | traceSample =>
    exact answers_ite answers_answer answers_answer
  case auxInputRecovered | mainProtectionClose | matedNSettled | coldStartArm | coldStartArmExpiry | thermClear | coolantInletHot |
      lowFlow | i3cDynamicAddress | cxlRefclkLost | timerefBad | timerefGood | hostLinkDown | linkTrainRetry | perstAssert | perstDeassert |
      hotReset | flr | cxlReset | globalPersistentFlush | doorbellSnoop | doorbellPoll | descriptorStart | ringIrqTimeout |
      governorWindow | heatHalving | portRetrain | flitNak | linkRetryExhausted | linkAckTimeout | leavingNoticeReceive | deArrival |
      timingExchange | timingRequestReceive | syncPulse | eventSourceAssert | kernelException | kernelHeadWrite | dozeEntryDone | wakeDone |
      clearEventRecords | telemetryPost | unlockNonceExpiry | debugScopeExpiry =>
    exact answers_answer
  case matedNHigh | dieThermalTrip | hubThermalTrip | mgmtThermalTrip | preemptTimeout | noticeReceive | dieContain =>
    exact answers_ite answers_answerMem answers_answer
  case enableSet | govCtlWrite | govPaceWrite | govVrangeWrite | govSupplyWrite | powerCapWrite | counterSnap | counterClear | objCreate |
      objDestroy | objQuery | ldTierAutoWrite | claimPreempt | claimShareWrite | claimCfgWrite | claimsFrameWrite | claimsLendWrite |
      claimMeterSelWrite | rtL2pDataWrite | rtSpanDataWrite | rtAdaptWrite | xbarClassShareWrite | xbarRedWrite | rgnWrite | rgnInvalidate |
      rgnRead | grpDefine | grpRelease | grpRead | syncArm | tagAssign | tagUnassign | tagRevoke | tagQuery | jobStart | jobTeardown |
      kernelStart | kernelStop | dozeRequest | moduleDozeRequest | moduleDozeClear | serviceAck | spareCtlWrite | tqHeadWrite =>
    exact answers_viaCfg answers_answer
  case enableClear =>
    exact answers_viaCfg answers_answerMem
  case sequencingRetry => exact answers_sequencingRetry
  case dieReady => exact answers_dieReady
  case auxInputLow => exact answers_auxInputLow
  case pwrWarnAsserted => exact answers_pwrWarnAsserted
  case i3cAddressWrite => exact answers_i3cAddressWrite
  case hostLinkUp => exact answers_hostLinkUp
  case hdmCommit => exact answers_hdmCommit
  case hdmwinRead => exact answers_hdmwinRead
  case hdmwinWrite => exact answers_hdmwinWrite
  case doorbellReadReturn => exact answers_doorbellReadReturn
  case msixUnmask => exact answers_msixUnmask
  case enableCheckDone => exact answers_enableCheckDone
  case registerWrite => exact answers_registerWrite
  case descriptorFetch => exact answers_descriptorFetch
  case opComplete => exact answers_opComplete
  case deadlineReached => exact answers_deadlineReached
  case nop => exact answers_nop
  case fence => exact answers_fence
  case tallySignal => exact answers_tallySignal
  case tallyWait => exact answers_tallyWait
  case repeatBy => exact answers_repeatBy
  case skipIf => exact answers_skipIf
  case timestamp => exact answers_timestamp
  case matmul => exact answers_matmul
  case conv => exact answers_conv
  case spmm => exact answers_spmm
  case finish => exact answers_finish
  case rngFill => exact answers_rngFill
  case assay => exact answers_assay
  case sluice => exact answers_sluice
  case dispatch => exact answers_dispatch
  case combine => exact answers_combine
  case cancelBatch => exact answers_cancelBatch
  case place => exact answers_place
  case copy => exact answers_copy
  case collBarrier => exact answers_collBarrier
  case laneFault => exact answers_laneFault
  case spareSelfTestDone => exact answers_spareSelfTestDone
  case shuttleResult => exact answers_shuttleResult
  case shuttleArmTimeout => exact answers_shuttleArmTimeout
  case objCreateDone => exact answers_objCreateDone
  case moveCommit => exact answers_moveCommit
  case patrolScrub => exact answers_patrolScrub
  case hoistCfgWrite => exact answers_hoistCfgWrite
  case meterAdmit => exact answers_meterAdmit
  case preemptSave => exact answers_preemptSave
  case fabricLinkUp => exact answers_fabricLinkUp
  case flitReceive => exact answers_flitReceive
  case packetForward => exact answers_packetForward
  case packetIngress => exact answers_packetIngress
  case xbarPlaneCtlWrite => exact answers_xbarPlaneCtlWrite
  case deTimeout => exact answers_deTimeout
  case remTimeout => exact answers_remTimeout
  case collTimeout => exact answers_collTimeout
  case timingAnswerReceive => exact answers_timingAnswerReceive
  case barrierArriveReceive => exact answers_barrierArriveReceive
  case barrierReleaseReceive => exact answers_barrierReleaseReceive
  case barrierReleaseTick => exact answers_barrierReleaseTick
  case jobStartReceive => exact answers_jobStartReceive
  case jobAnswerReceive => exact answers_jobAnswerReceive
  case jobChildWaitTimeout => exact answers_jobChildWaitTimeout
  case jobStartTimeout => exact answers_jobStartTimeout
  case jobGoReceive => exact answers_jobGoReceive
  case jobAbortReceive => exact answers_jobAbortReceive
  case tagActivate => exact answers_tagActivate
  case startingTagTimeout => exact answers_startingTagTimeout
  case jobRevokeReceive => exact answers_jobRevokeReceive
  case tagDrainComplete => exact answers_tagDrainComplete
  case jobFreeReportReceive => exact answers_jobFreeReportReceive
  case teardownTimeout => exact answers_teardownTimeout
  case timeReproWrite => exact answers_timeReproWrite
  case timeBarCfgWrite => exact answers_timeBarCfgWrite
  case eventDeliver => exact answers_eventDeliver
  case endOfService => exact answers_endOfService
  case monitorSample => exact answers_monitorSample
  case kernelLoad => exact answers_kernelLoad
  case kernelIssue => exact answers_kernelIssue
  case handover => exact answers_handover
  case engineFault => exact answers_engineFault
  case tallyEntryFault => exact answers_tallyEntryFault
  case attest => exact answers_attest
  case fwLoad => exact answers_fwLoad
  case change => exact answers_change
  case unlock => exact answers_unlock
  case cxlMemRequest => exact answers_cxlMemRequest
  case mailboxBadMessage => exact answers_mailboxBadMessage

/-- Settles O4: on an empty queue memory stays as it is, and a command changes it by stores and drops, which keep the
form. -/
theorem everyStepKeepsMemoryCanonical : Obligations.EveryStepKeepsMemoryCanonical := by
  unfold Obligations.EveryStepKeepsMemoryCanonical
  intro s t hs ht
  unfold step at ht
  split at ht
  · cases ht
    exact hs
  · next c rest hq => exact (answers_exec c (s.withQueue rest)).memoryOk hs ht

end Sys2Proof.Machine

/-! Object commands of chapter 10: CREATE, the end of creation, DESTROY and QUERY (R212 to R216, R237). -/
namespace Sys2Proof.Machine

section Objects
variable {s : State} {d : Dev} {n k : Nat} {x : BitVec 512} {o : Obj}

/-! ## CREATE (R215) -/

/-- An entry that passes the checks of CREATE names a FREE object, lies in device memory and meets no object that is not FREE. -/
theorem Dev.createReason_eq_zero (h : d.createReason n x = 0) :
    d.obj n = none ∧ (objOf x).base + (objOf x).len ≤ Config.deviceEnd ∧ (objOf x).base % 64 = 0 ∧ 0 < (objOf x).len ∧
      ∀ y ∈ d.objects, y.2.st ≠ .free → meets ((objOf x).base, (objOf x).base + (objOf x).len) (y.2.base, y.2.base + y.2.len) = false ∧
        ∀ k < 4, meets ((objOf x).deepRange k) (y.2.deepRange k) = false := by
  simp only [Dev.createReason] at h
  split_ifs at h with hruns hfree hentry hdies hsize halign hcontained hmeets hnear
  simp only [Bool.or_eq_true, not_or, beq_iff_eq, bne_iff_ne, not_not, Bool.not_eq_true, List.any_eq_false, List.mem_filter,
    List.mem_range, Option.isSome_eq_false_iff, Option.isNone_iff_eq_none] at hfree hsize halign hmeets
  obtain ⟨⟨⟨hlen, -⟩, hend⟩, -⟩ := hsize
  refine ⟨hfree, ?_, halign.1, Nat.pos_of_ne_zero hlen, fun y hy hst => ?_⟩
  · exact Nat.le_of_not_lt fun hlt => Bool.false_ne_true (hend.symm.trans (Nat.blt_eq.mpr hlt))
  · exact hmeets y ⟨hy, hst⟩

/-- The object that CREATE enters. -/
def Dev.created (d : Dev) (x : BitVec 512) : Obj :=
  { objOf x with
    zero := (objOf x).zero || d.store.isolation.getLsbD 0, near := if (objOf x).placement = 0 then [(0, (objOf x).units)] else [] }

theorem Dev.objCreate_of_refused (h : d.createReason d.hoist.sel.toNat d.hoist.entry ≠ 0) :
    d.objCreate = d.objResult (d.createReason d.hoist.sel.toNat d.hoist.entry) := if_neg h

theorem Dev.objCreate_of_accepted (h : d.createReason d.hoist.sel.toNat d.hoist.entry = 0) :
    d.objCreate = (d.setObj d.hoist.sel.toNat (d.created d.hoist.entry)).objResult 0 := if_pos h

theorem Dev.created_near_iff_of_place_near (h : (objOf x).placement = 0) :
    ∀ i < (d.created x).units, (d.created x).isNear i = true := by
  intro i hi
  have hnear : (d.created x).near = [(0, (objOf x).units)] := if_pos h
  have hlt : i < (objOf x).units := hi
  simp [Obj.isNear, inRanges, hnear, hlt]

theorem ends_objCreate (h : s.dev.health.stopped = false) :
    let n := s.dev.hoist.sel.toNat
    let x := s.dev.hoist.entry
    Ends .objCreate s (fun t =>
      let why := s.dev.createReason n x
      t = { s with dev := { s.dev with objects := t.dev.objects, hoist := { s.dev.hoist with reason := BitVec.ofNat 16 why } } } ∧
      (∀ k, k ≠ n → t.dev.obj k = s.dev.obj k) ∧ (why ≠ 0 → t.dev.objects = s.dev.objects) ∧
      (why = 0 → s.dev.obj n = none ∧ (∃ o, t.dev.obj n = some o ∧ o.st = .creating ∧ o.base = (objOf x).base ∧ o.len = (objOf x).len ∧
          o.claim = (objOf x).claim ∧ o.placement = (objOf x).placement ∧ o.moves = [] ∧ o.lostUnits = [] ∧
          ((objOf x).placement = 0 → ∀ i < o.units, o.isNear i = true) ∧ ((objOf x).placement ≠ 0 → o.near = [])) ∧
        (objOf x).base + (objOf x).len ≤ 2304 * 2 ^ 30 ∧ (objOf x).base % 64 = 0 ∧ 0 < (objOf x).len ∧
        ∀ y ∈ s.dev.objects, y.2.st ≠ .free →
          meets ((objOf x).base, (objOf x).base + (objOf x).len) (y.2.base, y.2.base + y.2.len) = false ∧
          ∀ k < 4, meets ((objOf x).deepRange k) (y.2.deepRange k) = false)) := by
  intro n x
  refine ⟨_, viaCfg_of_serving h _, ?_⟩
  by_cases hwhy : s.dev.createReason n x = 0
  · obtain ⟨hfree, hend, halign, hlen, hmeets⟩ := Dev.createReason_eq_zero hwhy
    rw [Dev.objCreate_of_accepted hwhy]
    refine ⟨by rw [hwhy]; rfl, fun k hk => ?_, fun hne => absurd hwhy hne, fun _ => ⟨hfree, ⟨s.dev.created x, ?_, rfl, rfl, rfl, rfl, rfl, rfl,
      rfl, Dev.created_near_iff_of_place_near, fun hp => if_neg hp⟩, hend, halign, hlen, hmeets⟩⟩
    · exact (Dev.obj_setObj ..).trans (if_neg hk)
    · exact (Dev.obj_setObj ..).trans (if_pos rfl)
  · rw [Dev.objCreate_of_refused hwhy]
    exact ⟨rfl, fun _ _ => rfl, fun _ => rfl, fun h0 => absurd h0 hwhy⟩

/-! ## The end of creation (R215) -/

theorem exec_objCreateDone {j : Fin 262144} (ho : s.dev.obj j.val = some o) (hst : o.st = .creating) (hd : o.doomed = false) :
    exec (.objCreateDone j) s = answerMem s
      (s.dev.setObj j.val { o with st := if o.lostCount ≠ 0 then .lost else .ready, readySeq := s.dev.started },
        if o.zero then o.zeroFill else []) := by
  have hdoomed : ({ o with st := if o.lostCount ≠ 0 then .lost else .ready, readySeq := s.dev.started } : Obj) =
      { o with st := if o.lostCount ≠ 0 then .lost else .ready, readySeq := s.dev.started, doomed := false } := by
    rw [← hd]
  rw [hdoomed]
  simp [exec, execObjCreateDone, ho, hst, hd]

theorem ends_objCreateDone {j : Fin 262144} (ho : s.dev.obj j.val = some o) (hst : o.st = .creating) (hd : o.doomed = false) :
    Ends (.objCreateDone j) s (fun t =>
      t = { s with dev := { s.dev with objects := t.dev.objects }, mem := s.mem.applyAll (if o.zero then o.zeroFill else []) } ∧
      t.dev.obj j.val = some { o with st := if o.lostCount ≠ 0 then .lost else .ready, readySeq := s.dev.started } ∧
      ∀ k, k ≠ j.val → t.dev.obj k = s.dev.obj k) :=
  ⟨_, exec_objCreateDone ho hst hd, rfl, (Dev.obj_setObj ..).trans (if_pos rfl), fun _ hk => (Dev.obj_setObj ..).trans (if_neg hk)⟩

/-! ## DESTROY (R216, R297) -/

theorem Tbl.mem_of_mem_put {α : Type} {t : Tbl α} {k : Nat} {v : α} {e : Nat × α} (h : e ∈ Tbl.put t k v) (hk : e.1 ≠ k) : e ∈ t := by
  induction t with
  | nil => exact absurd (congrArg Prod.fst (List.mem_singleton.1 h)) hk
  | cons a t ih =>
    obtain ⟨i, w⟩ := a
    unfold Tbl.put at h
    split_ifs at h with hlt heq
    · obtain rfl | hmem := List.mem_cons.1 h
      · exact absurd rfl hk
      · exact hmem
    · obtain rfl | hmem := List.mem_cons.1 h
      · exact absurd rfl hk
      · exact List.mem_cons_of_mem _ hmem
    · obtain rfl | hmem := List.mem_cons.1 h
      · exact List.mem_cons_self
      · exact List.mem_cons_of_mem _ (ih hmem)

/-- The objects that are freed are gone, and no other. -/
theorem Dev.obj_foldl_freeObj (l : List (Nat × Obj)) :
    (l.foldl (fun d e => d.freeObj e.1) d).obj k = if k ∈ l.map Prod.fst then none else d.obj k := by
  induction l generalizing d with
  | nil => rfl
  | cons e l ih =>
    have hfree : (d.freeObj e.1).obj k = if k = e.1 then none else d.obj k := by
      by_cases hk : k = e.1
      · rw [if_pos hk, hk]
        exact Tbl.look_del_same _ _
      · rw [if_neg hk]
        exact Tbl.look_del_other _ hk
    simp only [List.foldl_cons, ih, hfree, List.map_cons, List.mem_cons]
    split_ifs <;> tauto

theorem Dev.obj_freeDying (d : Dev) (k : Nat) : d.freeDying.obj k = none ∨ d.freeDying.obj k = d.obj k := by
  unfold Dev.freeDying
  rw [Dev.obj_foldl_freeObj]
  split
  · exact .inl rfl
  · exact .inr rfl

theorem Dev.obj_freeDying_of_not_dying (h : ∀ y ∈ d.objects, y.1 = k → y.2.st ≠ .dying) : d.freeDying.obj k = d.obj k := by
  unfold Dev.freeDying
  rw [Dev.obj_foldl_freeObj, if_neg]
  rintro hmem
  obtain ⟨y, hy, rfl⟩ := List.mem_map.1 hmem
  obtain ⟨hy, hst⟩ := List.mem_filter.1 hy
  exact h y hy rfl (eq_of_beq (Bool.and_eq_true_iff.1 hst).1)

/-- What freeing objects may touch. -/
def Dev.freed (d t : Dev) : Dev := { d with objects := t.objects, dies := t.dies }

theorem Dev.freeDying_freed (d : Dev) : d.freeDying = d.freed d.freeDying :=
  List.foldlRecOn (motive := fun t => t = d.freed t) _ _ rfl fun _ ht _ _ => frame_trans (F := Dev.freed) (fun _ _ _ => rfl) ht rfl

/-- What DESTROY may touch. -/
def Dev.destroyed (d t : Dev) : Dev := { d.freed t with xbar := { d.xbar with regions := t.xbar.regions } }

/-- The object that DESTROY leaves where an op still holds it. -/
def Dev.dyingObj (d : Dev) (o : Obj) : Obj := { o with st := .dying, dyingSeq := d.started }

theorem Dev.destroyObj_of_named (ho : d.obj n = some o) (hn : o.named = true) :
    d.destroyObj n = ((d.dropRegions n).setObj n (d.dyingObj o)).freeDying := by
  simp only [Dev.destroyObj, ho, hn, if_true]
  rfl

theorem Dev.destroyObj_destroyed (ho : d.obj n = some o) (hn : o.named = true) : d.destroyObj n = d.destroyed (d.destroyObj n) := by
  rw [Dev.destroyObj_of_named ho hn]
  exact frame_trans (F := Dev.destroyed) (t := (d.dropRegions n).setObj n (d.dyingObj o)) (fun _ _ _ => rfl) rfl
    (frame_weaken (F := Dev.freed) (fun _ _ => rfl) (Dev.freeDying_freed _))

theorem Dev.obj_destroyObj_same (ho : d.obj n = some o) (hn : o.named = true) :
    (d.destroyObj n).obj n = none ∨ (d.destroyObj n).obj n = some (d.dyingObj o) := by
  rw [Dev.destroyObj_of_named ho hn]
  exact (Dev.obj_freeDying _ n).imp_right (·.trans ((Dev.obj_setObj ..).trans (if_pos rfl)))

theorem Dev.obj_destroyObj_other (ho : d.obj n = some o) (hn : o.named = true) (hk : k ≠ n)
    (hst : ∀ y ∈ d.objects, y.1 = k → y.2.st ≠ .dying) : (d.destroyObj n).obj k = d.obj k := by
  rw [Dev.destroyObj_of_named ho hn, Dev.obj_freeDying_of_not_dying]
  · exact (Dev.obj_setObj ..).trans (if_neg hk)
  · intro y hy hyk
    exact hst y (Tbl.mem_of_mem_put hy (hyk.trans_ne hk)) hyk

/-- Bit 63 of a region entry is VALID. -/
theorem invalid_valid (x : BitVec 256) : bit (invalid x).toNat 63 = false := by
  have hbit : (invalid x).getLsbD 63 = false := by simp [invalid]
  rwa [BitVec.getLsbD, Nat.testBit_eq_decide_div_mod_eq, ← beq_eq_decide] at hbit

theorem Dev.region_dropRegions {i : Nat} {g : BitVec 256} (h : Tbl.look (d.dropRegions n).xbar.regions i = some g)
    (hg : bits g.toNat 49 32 = n) : bit g.toNat 63 = false := by
  have hmap : Tbl.look (d.dropRegions n).xbar.regions i =
      (Tbl.look d.xbar.regions i).map (fun x => if bits x.toNat 49 32 = n then invalid x else x) :=
    Tbl.look_mapAll d.xbar.regions (fun _ x => if bits x.toNat 49 32 = n then invalid x else x) i
  obtain ⟨x, -, rfl⟩ := Option.map_eq_some_iff.1 (hmap.symm.trans h)
  split_ifs at hg ⊢ with hx
  · exact invalid_valid x
  · exact absurd hg hx

theorem Dev.region_destroyObj (ho : d.obj n = some o) (hn : o.named = true) {i : Nat} {g : BitVec 256}
    (h : Tbl.look (d.destroyObj n).xbar.regions i = some g) (hg : bits g.toNat 49 32 = n) : bit g.toNat 63 = false := by
  rw [Dev.destroyObj_of_named ho hn, Dev.freeDying_xbar] at h
  exact Dev.region_dropRegions h hg

theorem exec_objDestroy (h : s.dev.health.stopped = false) (hrun : s.dev.isRunning .hoist = true)
    (ho : s.dev.obj s.dev.hoist.sel.toNat = some o) (hst : o.st = .ready ∨ o.st = .lost) :
    exec .objDestroy s = answer s ((s.dev.destroyObj s.dev.hoist.sel.toNat).objResult 0) := by
  have hcreating : (o.st == .creating) = false := by
    obtain h | h := hst <;> rw [h] <;> rfl
  refine (viaCfg_of_serving h _).trans ?_
  simp [Dev.objDestroy, hrun, ho, hcreating]

theorem ends_objDestroy (h : s.dev.health.stopped = false) (hrun : s.dev.isRunning .hoist = true)
    (ho : s.dev.obj s.dev.hoist.sel.toNat = some o) (hst : o.st = .ready ∨ o.st = .lost) :
    let n := s.dev.hoist.sel.toNat
    Ends .objDestroy s (fun t =>
      t = { s with dev := { s.dev with objects := t.dev.objects, dies := t.dev.dies, xbar := { s.dev.xbar with regions := t.dev.xbar.regions },
                                       hoist := { s.dev.hoist with reason := 0 } } } ∧
      (t.dev.obj n = none ∨ t.dev.obj n = some { o with st := .dying, dyingSeq := s.dev.started }) ∧
      (∀ i g, Tbl.look t.dev.xbar.regions i = some g → bits g.toNat 49 32 = n → bit g.toNat 63 = false) ∧
      ∀ k q, k ≠ n → s.dev.obj k = some q → (∀ y ∈ s.dev.objects, y.1 = k → y.2.st ≠ .dying) → t.dev.obj k = some q) := by
  intro n
  have hn : o.named = true := by
    obtain h | h := hst <;> simp [Obj.named, h]
  refine ⟨_, exec_objDestroy h hrun ho hst, ?_, Dev.obj_destroyObj_same ho hn, fun i g => Dev.region_destroyObj ho hn,
    fun k q hk hq hy => ?_⟩
  · have hframe : (s.dev.destroyObj n).objResult 0 =
        { s.dev.destroyed (s.dev.destroyObj n) with hoist := { s.dev.hoist with reason := 0 } } :=
      congrArg (fun d : Dev => d.objResult 0) (Dev.destroyObj_destroyed ho hn)
    exact congrArg (fun d => ({ s with dev := d } : State)) hframe
  · exact (Dev.obj_destroyObj_other ho hn hk hy).trans hq

/-! ## QUERY (R212, Table 10.10) -/

theorem exec_objQuery (h : s.dev.health.stopped = false) (hrun : s.dev.isRunning .hoist = true) :
    exec .objQuery s = answer s { s.dev with hoist := match s.dev.obj s.dev.hoist.sel.toNat with
      | none => { s.dev.hoist with entry := 0, infoLost := 0, infoNear := 0, reason := 0 }
      | some o => { s.dev.hoist with
          entry := o.entry, infoLost := BitVec.ofNat 32 o.lostCount, infoNear := BitVec.ofNat 32 (rangesCount o.near), reason := 0 } } := by
  refine (viaCfg_of_serving h _).trans ?_
  unfold Dev.objQuery
  rw [hrun]
  cases s.dev.obj s.dev.hoist.sel.toNat <;> rfl

theorem ends_objQuery (h : s.dev.health.stopped = false) (hrun : s.dev.isRunning .hoist = true) :
    Ends .objQuery s (fun t =>
      t = { s with dev := { s.dev with hoist := t.dev.hoist } } ∧
      (s.dev.obj s.dev.hoist.sel.toNat = none →
        t.dev.hoist = { s.dev.hoist with entry := 0, infoLost := 0, infoNear := 0, reason := 0 }) ∧
      ∀ o, s.dev.obj s.dev.hoist.sel.toNat = some o → t.dev.hoist = { s.dev.hoist with
        entry := o.entry, infoLost := BitVec.ofNat 32 o.lostCount, infoNear := BitVec.ofNat 32 (rangesCount o.near), reason := 0 }) := by
  refine ⟨_, exec_objQuery h hrun, rfl, fun hnone => ?_, fun o ho => ?_⟩
  · simp only [hnone]
  · simp only [ho]

end Objects

/-- Settles O33, a lemma for each command. -/
theorem objectsAreCreatedQueriedAndDestroyed : Obligations.ObjectsAreCreatedQueriedAndDestroyed := by
  unfold Obligations.ObjectsAreCreatedQueriedAndDestroyed
  intro s n x
  exact ⟨ends_objCreate, fun _ _ => ends_objCreateDone, fun _ => ends_objDestroy, ends_objQuery⟩

end Sys2Proof.Machine

/-! The moves of the hoist ops: how they are ordered, have their turns and begin (R218, R220, R221, R251). -/
namespace Sys2Proof.Machine

theorem Tbl.mem_put {α : Type} {t : Tbl α} {k : Nat} {v : α} {e : Nat × α} (h : e ∈ Tbl.put t k v) : e = (k, v) ∨ e ∈ t := by
  induction t with
  | nil => exact .inl (List.mem_singleton.1 h)
  | cons a t ih =>
    obtain ⟨i, w⟩ := a
    unfold Tbl.put at h
    split_ifs at h
    · exact List.mem_cons.1 h
    · exact (List.mem_cons.1 h).imp_right (List.mem_cons_of_mem _)
    · obtain rfl | hmem := List.mem_cons.1 h
      · exact .inr List.mem_cons_self
      · exact (ih hmem).imp_right (List.mem_cons_of_mem _)

theorem Tbl.mem_put_same {α : Type} (t : Tbl α) (k : Nat) (v : α) : (k, v) ∈ Tbl.put t k v := by
  induction t with
  | nil => exact List.mem_singleton.2 rfl
  | cons a t ih =>
    obtain ⟨i, w⟩ := a
    unfold Tbl.put
    split_ifs
    · exact List.mem_cons_self
    · exact List.mem_cons_self
    · exact List.mem_cons_of_mem _ ih

theorem Tbl.put_put {α : Type} (t : Tbl α) (k : Nat) (v w : α) : Tbl.put (Tbl.put t k v) k w = Tbl.put t k w := by
  induction t with
  | nil => simp [Tbl.put]
  | cons a t ih =>
    obtain ⟨i, x⟩ := a
    by_cases hlt : k < i
    · simp [Tbl.put, hlt]
    · by_cases heq : i = k
      · simp [Tbl.put, heq]
      · simp [Tbl.put, hlt, heq, ih]

/-! ## An object whose moves begin -/

/-- A move as it was before it began. -/
def Move.still (v : Move) : Move := { v with begun := false }

/-- An object but for which of its moves have begun. -/
def Obj.still (o : Obj) : Obj := { o with moves := o.moves.map Move.still }

theorem Obj.against_still (o : Obj) (v : Move) : o.still.against v.still = o.against v := rfl

theorem Obj.against_congr {o p : Obj} (h : p.still = o.still) (v : Move) : p.against v = o.against v := by
  rw [← p.against_still, h, o.against_still]

theorem Obj.moves_still {o p : Obj} (h : p.still = o.still) : p.moves.map Move.still = o.moves.map Move.still :=
  congrArg Obj.moves h

/-- Every move of an object is one of the other, begun or not. -/
theorem Obj.mem_moves_still {o p : Obj} (h : p.still = o.still) {v : Move} (hv : v ∈ p.moves) : ∃ w ∈ o.moves, w.still = v.still :=
  List.mem_map.1 (Obj.moves_still h ▸ List.mem_map_of_mem hv)

/-- The object whose move of a unit begins. -/
def Obj.begin (o : Obj) (u : Nat) : Obj := { o with moves := o.moves.map (fun v => if v.unit == u then { v with begun := true } else v) }

theorem Obj.begin_still (o : Obj) (u : Nat) : (o.begin u).still = o.still := by
  have hmoves : (o.moves.map (fun v => if v.unit == u then { v with begun := true } else v)).map Move.still = o.moves.map Move.still := by
    rw [List.map_map]
    refine List.map_congr_left fun v _ => ?_
    simp only [Function.comp_apply]
    split <;> rfl
  exact congrArg (fun l => ({ o with moves := l } : Obj)) hmoves

/-! ## What the turns of moves leave -/

/-- What the turns of moves may touch: what an op's work may, less its ring, with the objects, the requests at the meters and the claims
they served last. -/
def Dev.turned (d t : Dev) : Dev :=
  { d.worked t with
    rings := d.rings, objects := t.objects,
    frames := { d.frames with asks := t.frames.asks, lastServed := t.frames.lastServed } }

theorem Dev.turned_trans {d t u : Dev} (h : t = d.turned t) (h' : u = t.turned u) : u = d.turned u :=
  frame_trans (F := Dev.turned) (fun _ _ _ => rfl) h h'

/-- A device that moves of object `n` have had turns on: the object differs from `o` in which of its moves have begun, and no other object
differs from those of `t`. -/
structure Dev.Turning (d : Dev) (t : Tbl Obj) (n : Nat) (o : Obj) (x : Dev) : Prop where
  frame : x = d.turned x
  object : ∃ p, x.objects = Tbl.put t n p ∧ p.still = o.still

section Turning

variable {d x y : Dev} {t : Tbl Obj} {n u : Nat} {o p : Obj} {op : Nat × W32}

theorem Dev.Turning.step (h : d.Turning t n o x) (hframe : y = x.turned y) (hobjects : y.objects = x.objects) : d.Turning t n o y :=
  ⟨Dev.turned_trans h.frame hframe, by rw [hobjects]; exact h.object⟩

theorem Dev.beginMove_turned (d : Dev) (n u : Nat) : d.beginMove n u = d.turned (d.beginMove n u) := by
  apply Dev.ext <;> simp [Dev.turned, Dev.worked]

theorem Dev.beginMove_objects (h : d.obj n = some o) : (d.beginMove n u).objects = Tbl.put d.objects n (o.begin u) := by
  simp only [Dev.beginMove, h, Dev.touchDie_objects]
  rfl

theorem Dev.Turning.beginMove (h : d.Turning t n o x) (u : Nat) : d.Turning t n o (x.beginMove n u) := by
  obtain ⟨p, hobjects, hstill⟩ := h.object
  have hp : x.obj n = some p := (congrArg (Tbl.look · n) hobjects).trans (Tbl.look_put_same t n p)
  refine ⟨Dev.turned_trans h.frame (x.beginMove_turned n u), p.begin u, ?_, (p.begin_still u).trans hstill⟩
  rw [Dev.beginMove_objects hp, hobjects, Tbl.put_put]

theorem Dev.Turning.pay (h : d.Turning t n o x) (c k units : Nat) : d.Turning t n o (x.pay c k units) := h.step rfl rfl

/-- A move that its meter admits is paid for and begins. -/
theorem Dev.Turning.admitAsk (h : d.Turning t n o x) {a : Ask} (ha : a.what = .move n u) : d.Turning t n o (x.admitAsk a) := by
  have hserved : d.Turning t n o { x with frames := { x.frames with
      asks := x.frames.asks.erase a, lastServed := Tbl.put x.frames.lastServed a.meter a.claim } } := h.step rfl rfl
  unfold Dev.admitAsk
  simp only [ha]
  split
  · exact (hserved.pay _ _ _).beginMove u
  · exact ((hserved.pay _ _ _).pay _ _ _).beginMove u

/-- The device whose meters know of a request. -/
def Dev.asking (d : Dev) (a : Ask) : Dev :=
  if d.frames.asks.contains a then d else { d with frames := { d.frames with asks := d.frames.asks ++ [a] } }

theorem Dev.Turning.asking (h : d.Turning t n o x) (a : Ask) : d.Turning t n o (x.asking a) := by
  unfold Dev.asking
  split
  · exact h
  · exact h.step rfl rfl

theorem Dev.mem_asksAt_asking {a b : Ask} {k : Nat} (h : b ∈ (d.asking a).asksAt k) : b = a ∨ b ∈ d.asksAt k := by
  unfold Dev.asking at h
  split at h
  · exact .inr h
  · obtain ⟨hmem, hwaits⟩ := List.mem_filter.1 h
    obtain hmem | hmem := List.mem_append.1 hmem
    · exact .inr (List.mem_filter.2 ⟨hmem, hwaits⟩)
    · exact .inl (List.mem_singleton.1 hmem)

/-- A meter that serves a request as it is made serves that one. -/
theorem Dev.ask_eq (d : Dev) (a : Ask) : d.ask a = d.asking a ∨ d.ask a = (d.asking a).admitAsk a := by
  have hask : d.ask a = match if (d.asksAt a.meter).all (fun b => b == a) then (d.asking a).nextAsk a.meter else none with
    | some b => (d.asking a).admitAsk b
    | none => d.asking a := rfl
  rw [hask]
  split
  next b hb =>
    obtain ⟨hfree, hnext⟩ := Option.ite_none_right_eq_some.1 hb
    obtain rfl | hmem := Dev.mem_asksAt_asking (Dev.nextAsk_mem _ hnext)
    · exact .inr rfl
    · obtain rfl := eq_of_beq (List.all_eq_true.1 hfree b hmem)
      exact .inr rfl
  next => exact .inl rfl

theorem Dev.Turning.ask (h : d.Turning t n o x) {a : Ask} (ha : a.what = .move n u) : d.Turning t n o (x.ask a) := by
  obtain hask | hask := x.ask_eq a <;> rw [hask]
  · exact h.asking a
  · exact (h.asking a).admitAsk ha

/-! ## The turns of an op's moves -/

/-- The moves of an op on a die, with their objects. -/
def Dev.movesOn (d : Dev) (op : Nat × W32) (die : Nat) : List (Nat × Obj × Move) :=
  d.objects.flatMap (fun e => (e.2.moves.filter (fun v => v.op == some op && e.2.unitDie v.unit == die)).map (fun v => (e.1, e.2, v)))

theorem Dev.mem_movesOn {k : Nat} {v : Move} {die : Nat} (h : (k, p, v) ∈ d.movesOn op die) :
    (k, p) ∈ d.objects ∧ v ∈ p.moves ∧ v.op = some op := by
  simp only [Dev.movesOn, List.mem_flatMap, List.mem_map, List.mem_filter, Bool.and_eq_true, beq_iff_eq, Prod.mk.injEq] at h
  obtain ⟨y, hy, w, ⟨hw, hop, -⟩, rfl, rfl, rfl⟩ := h
  exact ⟨hy, hw, hop⟩

theorem Dev.nextMove_mem {die : Nat} {m : Nat × Obj × Move} (h : d.nextMove op die = some m) : m ∈ d.movesOn op die := by
  have hfirst := (Option.ite_none_left_eq_some.1 h).2
  refine List.foldlRecOn (motive := fun b => ∀ y, b = some y → y ∈ d.movesOn op die) (d.movesOn op die) _
    (fun _ hy => absurd hy.symm (Option.some_ne_none _)) (fun b hb y hy z hz => ?_) m hfirst
  cases b with
  | none => exact Option.some.inj hz ▸ hy
  | some w =>
    dsimp only at hz
    split at hz
    · exact Option.some.inj hz ▸ hy
    · exact hb z hz

theorem Dev.Turning.turnMoves (h : d.Turning t n o x) (ht : ∀ y ∈ t, ∀ v ∈ y.2.moves, v.op ≠ some op)
    (ho : ∀ v ∈ o.moves, v.op = some op → o.against v = false) (m : Memory) (fuel die : Nat) :
    d.Turning t n o (Dev.turnMoves m fuel x op die) := by
  cases fuel with
  | zero => exact h
  | succ fuel =>
    unfold Dev.turnMoves
    split
    next => exact h
    next k q v hnext =>
      obtain ⟨p, hobjects, hstill⟩ := h.object
      obtain ⟨hmem, hv, hop⟩ := Dev.mem_movesOn (Dev.nextMove_mem hnext)
      obtain hkq | hmem := Tbl.mem_put (hobjects ▸ hmem)
      · obtain ⟨rfl, rfl⟩ := Prod.mk.inj hkq
        obtain ⟨w, hw, hwv⟩ := Obj.mem_moves_still hstill hv
        have hagainst : q.against v = false := by
          rw [Obj.against_congr hstill, ← ho w hw ((congrArg Move.op hwv).trans hop), ← o.against_still v, ← hwv, o.against_still]
        rw [if_neg (by simp [hagainst])]
        exact h.ask rfl
      · exact absurd hop (ht _ hmem v hv)

/-- The moves of an op have had their turns, and the op waits for them. -/
theorem Dev.Turning.turnOp (h : d.Turning t n o x) (ht : ∀ y ∈ t, ∀ v ∈ y.2.moves, v.op ≠ some op)
    (ho : ∀ v ∈ o.moves, v.op = some op → o.against v = false) (hmoves : ∃ v ∈ o.moves, v.op = some op) (m : Memory) :
    d.Turning t n o (x.turnOp m op) := by
  have hturned : d.Turning t n o ((List.range 4).foldl
      (fun y die => Dev.turnMoves m ((x.objects.map (fun e => e.2.moves.length)).sum) y op die) x) :=
    List.foldlRecOn (motive := d.Turning t n o) _ _ h fun y hy die _ => hy.turnMoves ht ho m _ die
  obtain ⟨p, hobjects, hstill⟩ := hturned.object
  obtain ⟨v, hv, hop⟩ := hmoves
  obtain ⟨w, hw, hwv⟩ := Obj.mem_moves_still hstill.symm hv
  unfold Dev.turnOp Dev.endMoves
  rw [if_pos]
  · exact hturned
  · rw [Dev.opMoving, hobjects]
    refine List.any_eq_true.2 ⟨_, Tbl.mem_put_same t n p, List.any_eq_true.2 ⟨w, hw, beq_iff_eq.2 ?_⟩⟩
    exact (congrArg Move.op hwv).trans hop

/-! ## An op without moves -/

theorem Dev.nextMove_of_no_move (h : d.opMoving op.1 op.2 = false) (die : Nat) : d.nextMove op die = none := by
  cases hnext : d.nextMove op die with
  | none => rfl
  | some m =>
    obtain ⟨hmem, hv, hop⟩ := Dev.mem_movesOn (Dev.nextMove_mem hnext)
    refine absurd ?_ (Bool.eq_false_iff.1 h)
    exact List.any_eq_true.2 ⟨_, hmem, List.any_eq_true.2 ⟨_, hv, beq_iff_eq.2 hop⟩⟩

theorem Dev.turnMoves_of_no_move (h : d.opMoving op.1 op.2 = false) (m : Memory) (fuel die : Nat) :
    Dev.turnMoves m fuel d op die = d := by
  cases fuel with
  | zero => rfl
  | succ fuel => simp only [Dev.turnMoves, Dev.nextMove_of_no_move h]

/-- The objects once a PLACE no longer waits for the moves of others. -/
def Dev.unplaced (d : Dev) (op : Nat × W32) : Tbl Obj :=
  Tbl.mapAll d.objects (fun _ o => match o.placing with
    | some (r, c, _) => if r == op.1 && c == op.2 then { o with placing := none } else o
    | none => o)

theorem Dev.turnOp_of_no_move {e : Entry} (h : d.opMoving op.1 op.2 = false) (he : d.entry op.1 op.2 = some e) (hs : e.phase = .started)
    (m : Memory) : d.turnOp m op = ({ d with objects := d.unplaced op } : Dev).endOp op.1 e e.res e.res.deep := by
  have hturns : (List.range 4).foldl (fun y die => Dev.turnMoves m ((d.objects.map (fun e => e.2.moves.length)).sum) y op die) d = d :=
    List.foldlRecOn (motive := (· = d)) _ _ rfl fun y hy die _ => by rw [hy, Dev.turnMoves_of_no_move h]
  unfold Dev.turnOp
  simp only [hturns]
  unfold Dev.endMoves
  simp only [h, he, hs, beq_self_eq_true, if_true, Bool.false_eq_true, if_false]
  rfl

end Turning
end Sys2Proof.Machine

/-! HOIST, SETTLE and PLACE (R220 to R222). -/
namespace Sys2Proof.Machine

theorem Tbl.mem_of_look {α : Type} {t : Tbl α} {k : Nat} {v : α} (h : Tbl.look t k = some v) : (k, v) ∈ t := by
  induction t with
  | nil => exact absurd h.symm (Option.some_ne_none v)
  | cons a t ih =>
    obtain ⟨i, w⟩ := a
    unfold Tbl.look at h
    split at h
    next hi => exact hi ▸ Option.some.inj h ▸ List.mem_cons_self
    next => exact List.mem_cons_of_mem _ (ih h)

/-- No move of a table's objects is of an op. -/
def noMoves (t : Tbl Obj) (op : Nat × W32) : Prop := ∀ y ∈ t, ∀ v ∈ y.2.moves, v.op ≠ some op

theorem Dev.opMoving_eq_false_iff {d : Dev} {r : Nat} {c : W32} : d.opMoving r c = false ↔ noMoves d.objects (r, c) := by
  simp [Dev.opMoving, noMoves]

/-! ## The moves of an op in their order -/

/-- The moves of units to one home, in their order, for an op. -/
def opMoves (units : List Nat) (near : Bool) (op : Nat × W32) : List Move :=
  units.zipIdx.map (fun i => { unit := i.1, toNear := near, begun := false, ord := i.2, op := some op, evict := false })

section Order

variable {d : Dev} {n : Nat} {o : Obj} {units : List Nat} {near : Bool} {op : Nat × W32} {v : Move}

theorem op_of_mem_opMoves (h : v ∈ opMoves units near op) : v.op = some op := by
  obtain ⟨i, -, rfl⟩ := List.mem_map.1 h
  rfl

theorem against_of_mem_opMoves (ho : o.placement ≠ if near then 1 else 0) (h : v ∈ opMoves units near op) : o.against v = false := by
  obtain ⟨i, -, rfl⟩ := List.mem_map.1 h
  cases near <;> simpa [Obj.against] using ho

theorem opMoves_eq_nil : opMoves units near op = [] ↔ units = [] := by
  cases units <;> simp [opMoves]

theorem opMoves_still : (opMoves units near op).map Move.still = opMoves units near op := by
  simp [opMoves, Move.still]

theorem opMoves_unit : (opMoves units near op).map (fun v => (v.unit, v.toNear)) = units.map (fun i => (i, near)) := by
  conv_rhs => rw [← List.zipIdx_map_fst 0 units, List.map_map]
  exact List.map_map

/-- An object that more moves join. -/
def Obj.withMoves (o : Obj) (l : List Move) : Obj := { o with moves := o.moves ++ l }

theorem Dev.addMove_setObj : (d.setObj n o).addMove n v = d.setObj n (o.withMoves [v]) := by
  have hobj : (d.setObj n o).obj n = some o := Tbl.look_put_same _ _ _
  simp only [Dev.addMove, hobj]
  exact congrArg (fun t => ({ d with objects := t } : Dev)) (Tbl.put_put _ _ _ _)

theorem Dev.foldl_addMove_setObj (l : List Move) : l.foldl (·.addMove n ·) (d.setObj n o) = d.setObj n (o.withMoves l) := by
  induction l generalizing o with
  | nil => simp [Obj.withMoves]
  | cons v l ih => simp [Dev.addMove_setObj, ih, Obj.withMoves]

theorem Dev.foldl_addMove (h : d.obj n = some o) {l : List Move} (hl : l ≠ []) :
    l.foldl (·.addMove n ·) d = d.setObj n (o.withMoves l) := by
  obtain ⟨v, l, rfl⟩ := List.exists_cons_of_ne_nil hl
  have hfirst : d.addMove n v = d.setObj n (o.withMoves [v]) := by simp only [Dev.addMove, h, Obj.withMoves]
  simp [hfirst, Dev.foldl_addMove_setObj, Obj.withMoves]

/-- Where nothing is displaced, the moves of an op are those of the units it names. -/
theorem Dev.orderMoves_eq : d.orderMoves n [] units near op = (opMoves units near op).foldl (·.addMove n ·) d := by
  simp [Dev.orderMoves, opMoves, List.foldl_map]

theorem Dev.orderMoves_of_units (h : d.obj n = some o) (hunits : units ≠ []) :
    d.orderMoves n [] units near op = d.setObj n (o.withMoves (opMoves units near op)) := by
  rw [Dev.orderMoves_eq, Dev.foldl_addMove h (mt opMoves_eq_nil.1 hunits)]

/-- Where the near chunks of the units are free, no unit is displaced. -/
theorem Dev.hoistUnits_of_room {named : Nat → Bool}
    (h : ∀ k ∈ o.dieList, units.countP (fun i => o.unitDie i == k) * o.chunks ≤ d.nearLeft o.claim k) :
    d.hoistUnits n o units named op = some (d.orderMoves n [] units true op) := by
  have hplans : o.dieList.map (d.displace n o units named) = o.dieList.map (fun _ => some []) :=
    List.map_congr_left fun k hk => by simp only [Dev.displace, Nat.sub_eq_zero_of_le (h k hk), takeChunks]
  have hout : (o.dieList.flatMap fun _ => ([] : List WarmUnit)) = [] := List.flatMap_eq_nil_iff.2 fun _ _ => rfl
  simp only [Dev.hoistUnits, hplans, List.any_map, List.flatMap_map, Option.getD_some, hout]
  simp

end Order

/-! ## The engine takes the op -/

section Taken

variable {d : Dev} {r : Nat} {c : W32} {e : Entry} {k : Nat}

theorem Dev.entry_take_of_engine (he : d.entry r c = some e) (hk : engineOf (hOpcode e.desc) = some k) :
    (d.take r c).entry r c = some { e with taken := true } := by
  cases htaken : e.taken with
  | true =>
    have htake : d.take r c = d := by simp [Dev.take, he, htaken]
    rw [htake, he, ← htaken]
  | false =>
    simp only [Dev.take, he, Option.bind_some, htaken, Bool.false_eq_true, if_false, hk]
    refine (Dev.entry_congr (e := d.modEntry r c fun e => { e with taken := true }) rfl r c).trans ?_
    rw [d.entry_modEntry_same (f := fun e => { e with taken := true }) r c fun _ => rfl, he, Option.map_some]

theorem Dev.take_of_taken (he : d.entry r c = some e) (htaken : e.taken = true) : d.take r c = d := by
  simp [Dev.take, he, htaken]

/-- An op that its engine has taken ends with the result it is given. -/
theorem Dev.entry_endOp_of_taken (he : d.entry r c = some e) (hs : e.phase = .started) (htaken : e.taken = true) (res : Result) (h : Nat) :
    (d.endOp r e res h).entry r c = some (e.doneWith res) := by
  obtain rfl := Dev.entry_count he
  have ha : (d.account (d.claimOf r) res.picks res.deep res.fabric h).entry r e.count = some e :=
    (Dev.entry_congr (d.account_rings _ _ _ _ _) _ _).trans he
  rw [Dev.endOp, Dev.finishOp, Dev.take_of_taken ha htaken, Dev.entry_closeOp ha res hs]

theorem Dev.ring_finishOp_other (d : Dev) (res : Result) {j : Nat} (hj : j ≠ r) : (d.finishOp r c res).ring j = d.ring j := by
  rw [Dev.finishOp, Dev.closeOp, Dev.modEntry, Dev.ring_modRing_other _ _ hj, Dev.ring_take_other _ _ hj]

theorem Dev.ring_endOp_other_of_engine (d : Dev) (e : Entry) (res : Result) (h : Nat) {j : Nat} (hj : j ≠ r) :
    (d.endOp r e res h).ring j = d.ring j :=
  (Dev.ring_finishOp_other _ res hj).trans (Dev.ring_congr (d.account_rings _ _ _ _ _) j)

end Taken

/-! ## How an op of moves starts, and how it ends -/

/-- What the start of moves may touch. -/
def Dev.movesStarted (d t : Dev) : Dev :=
  { d.worked t with
    objects := t.objects, frames := { d.frames with asks := t.frames.asks, lastServed := t.frames.lastServed } }

/-- What the end of an op of moves may touch. -/
def Dev.movesEnded (d t : Dev) : Dev := { d with rings := t.rings, claims := t.claims, objects := t.objects, turns := t.turns }

section StartEnd

variable {s : State} {r : Nat} {c : W32} {e : Entry} {x : Dev} {t : Tbl Obj} {n k : Nat} {o : Obj}

theorem Dev.take_movesStarted (d : Dev) (r : Nat) (c : W32) : d.take r c = d.movesStarted (d.take r c) := by
  apply Dev.ext <;> simp [Dev.movesStarted, Dev.worked]

/-- An op whose moves have their turns. -/
theorem started_of_turning (h : (s.dev.take r c).Turning t n o x) :
    OnlyRing r s { s with dev := x } ∧ ({ s with dev := x } : State) = { s with dev := s.dev.movesStarted x } := by
  have hrings : x.rings = (s.dev.take r c).rings := congrArg (·.rings) h.frame
  refine ⟨fun j hj => (Dev.ring_congr hrings j).trans (Dev.ring_take_other _ _ hj), frame_state (F := Dev.movesStarted) ?_ s.mem⟩
  exact frame_trans (fun _ _ _ => rfl) (s.dev.take_movesStarted r c) (frame_weaken (F := Dev.turned) (fun _ _ => rfl) h.frame)

/-- The device once an op that its engine has taken, and that has no moves left, has ended. -/
def Dev.movesDone (d : Dev) (t : Tbl Obj) (r : Nat) (c : W32) (e : Entry) : Dev :=
  ({ d.take r c with objects := t } : Dev).endOp r { e with taken := true } e.res e.res.deep

theorem Dev.movesDone_movesEnded (d : Dev) (t : Tbl Obj) (r : Nat) (c : W32) (e : Entry) :
    d.movesDone t r c e = d.movesEnded (d.movesDone t r c e) := by
  apply Dev.ext <;> simp [Dev.movesDone, Dev.movesEnded]

theorem ended_of_movesDone (he : s.dev.entry r c = some e) (hs : e.phase = .started) (hk : engineOf (hOpcode e.desc) = some k) :
    (s.dev.movesDone t r c e).entry r c = some ({ e with taken := true }.doneWith e.res) ∧
      OnlyRing r s { s with dev := s.dev.movesDone t r c e } ∧
      ({ s with dev := s.dev.movesDone t r c e } : State) = { s with dev := s.dev.movesEnded (s.dev.movesDone t r c e) } := by
  refine ⟨?_, fun j hj => ?_, frame_state (s.dev.movesDone_movesEnded t r c e) s.mem⟩
  · have htaken : ({ s.dev.take r c with objects := t } : Dev).entry r c = some { e with taken := true } :=
      (Dev.entry_congr rfl r c).trans (Dev.entry_take_of_engine he hk)
    exact Dev.entry_endOp_of_taken htaken hs rfl e.res e.res.deep
  · exact (Dev.ring_endOp_other_of_engine _ _ _ _ hj).trans (Dev.ring_take_other s.dev c hj)

/-- An op without moves on a device that its engine has taken it on ends as it stands. -/
theorem Dev.turnOp_take {d : Dev} {t : Tbl Obj} (he : d.entry r c = some e) (hs : e.phase = .started)
    (hk : engineOf (hOpcode e.desc) = some k) (ht : ({ d.take r c with objects := t } : Dev).opMoving r c = false) (m : Memory) :
    ({ d.take r c with objects := t } : Dev).turnOp m (r, c) =
      d.movesDone (({ d.take r c with objects := t } : Dev).unplaced (r, c)) r c e :=
  Dev.turnOp_of_no_move (op := (r, c)) ht ((Dev.entry_congr rfl r c).trans (Dev.entry_take_of_engine he hk)) hs m

end StartEnd

/-! ## HOIST and SETTLE (R220) -/

/-- A HOIST or SETTLE past its checks. -/
structure MovesReady (s : State) (r : RingNo) (c : W32) (e : Entry) (opc : Nat) (p : Place) : Prop where
  opcode : opc = 0x30 ∨ opc = 0x31
  op : s.dev.op r.val c opc = some e
  running : s.dev.isRunning .hoist = true
  idle : s.dev.opMoving r.val c = false
  place : s.dev.place r.val e 16 1 1 = .ok p
  object : s.dev.obj p.num = some p.obj
  aligned : (p.addr - p.obj.base) % p.obj.unitSize = 0
  held : p.obj.isLost = false
  fits : (p.addr - p.obj.base) / p.obj.unitSize + fld e.desc 24 4 ≤ p.obj.units
  policy : p.obj.placement ≠ if decide (opc = 0x30) then 1 else 0
  apart : ∀ v ∈ p.obj.moves, v.unit < (p.addr - p.obj.base) / p.obj.unitSize ∨
    (p.addr - p.obj.base) / p.obj.unitSize + fld e.desc 24 4 ≤ v.unit

/-- The units that a HOIST or SETTLE moves: those it names whose home is the other. -/
def unitsToMove (e : Entry) (p : Place) (near : Bool) : List Nat :=
  ((List.range (fld e.desc 24 4)).map ((p.addr - p.obj.base) / p.obj.unitSize + ·)).filter (fun i => p.obj.isNear i != near)

theorem Dev.nearLeft_take (d : Dev) (r : Nat) (c : W32) (k n : Nat) : (d.take r c).nearLeft k n = d.nearLeft k n := by
  simp [Dev.nearLeft, Dev.claimNear, Dev.claim]

section Moves

variable {s : State} {r : RingNo} {c : W32} {e : Entry} {opc : Nat} {p : Place}

theorem exec_moves (opc : Nat) (r : RingNo) (c : W32) (s : State) (h : opc = 0x30 ∨ opc = 0x31) :
    exec (if opc = 0x30 then Instr.hoist r c else Instr.settle r c) s = runMoves s r c opc := by
  obtain rfl | rfl := h <;> rfl

theorem MovesReady.runMoves_eq (h : MovesReady s r c e opc p)
    (hroom : opc = 0x30 → ∀ k ∈ p.obj.dieList,
      (unitsToMove e p (decide (opc = 0x30))).countP (fun i => p.obj.unitDie i == k) * p.obj.chunks ≤ s.dev.nearLeft p.obj.claim k) :
    runMoves s r c opc = answer s
      (((s.dev.take r.val c).orderMoves p.num [] (unitsToMove e p (decide (opc = 0x30))) (decide (opc = 0x30)) (r.val, c)).turnOp
        s.mem (r.val, c)) := by
  have hapart : (p.obj.moves.any fun v => Nat.ble ((p.addr - p.obj.base) / p.obj.unitSize) v.unit &&
      Nat.blt v.unit ((p.addr - p.obj.base) / p.obj.unitSize + fld e.desc 24 4)) = false := by
    rw [List.any_eq_false]
    intro v hv hin
    obtain ⟨hlo, hhi⟩ := Bool.and_eq_true_iff.1 hin
    exact (h.apart v hv).elim (Nat.not_lt.2 (Nat.le_of_ble_eq_true hlo)) (Nat.not_le.2 (Nat.blt_eq.mp hhi))
  have hplacement : (p.obj.placement == if decide (opc = 0x30) then 1 else 0) = false := beq_eq_false_iff_ne.2 h.policy
  unfold runMoves
  simp only [h.op, h.idle, h.running, h.place, h.aligned, h.held, Nat.not_lt.2 h.fits, hapart, beq_eq_decide (a := opc), hplacement,
    Nat.add_sub_cancel_left, Bool.not_true, Bool.false_eq_true, if_false, ne_eq, not_true]
  have hmoved : (if decide (opc = 0x30) = true then
      (s.dev.take r.val c).hoistUnits p.num p.obj (unitsToMove e p (decide (opc = 0x30)))
        (fun i => Nat.ble ((p.addr - p.obj.base) / p.obj.unitSize) i &&
          Nat.blt i ((p.addr - p.obj.base) / p.obj.unitSize + fld e.desc 24 4))
        (r.val, c)
      else some ((s.dev.take r.val c).orderMoves p.num [] (unitsToMove e p (decide (opc = 0x30))) false (r.val, c))) =
      some ((s.dev.take r.val c).orderMoves p.num [] (unitsToMove e p (decide (opc = 0x30))) (decide (opc = 0x30)) (r.val, c)) := by
    by_cases hopc : opc = 0x30
    · rw [if_pos (decide_eq_true hopc), Dev.hoistUnits_of_room, decide_eq_true hopc]
      intro k hk
      rw [Dev.nearLeft_take]
      exact hroom hopc k hk
    · rw [if_neg (by simpa using hopc), decide_eq_false hopc]
  rw [unitsToMove] at hmoved ⊢
  rw [hmoved]

theorem MovesReady.entry (h : MovesReady s r c e opc p) : s.dev.entry r.val c = some e := (Dev.op_eq_some h.op).1

theorem MovesReady.started (h : MovesReady s r c e opc p) : e.phase = .started := (Dev.op_eq_some h.op).2.2.1

theorem MovesReady.engine (h : MovesReady s r c e opc p) : engineOf (hOpcode e.desc) = some 7 := by
  rw [(Dev.op_eq_some h.op).2.2.2]
  obtain h | h := h.opcode <;> rw [h] <;> rfl

theorem MovesReady.noMoves (h : MovesReady s r c e opc p) : noMoves s.dev.objects (r.val, c) := Dev.opMoving_eq_false_iff.1 h.idle

/-- With no unit of the other home the op ends at once. -/
theorem MovesReady.ends (h : MovesReady s r c e opc p) (hunits : unitsToMove e p (decide (opc = 0x30)) = []) :
    runMoves s r c opc = answer s (s.dev.movesDone ((s.dev.take r.val c).unplaced (r.val, c)) r.val c e) := by
  refine (h.runMoves_eq fun _ k _ => by simp [hunits]).trans (congrArg (answer s) ?_)
  rw [hunits]
  refine Dev.turnOp_take (t := (s.dev.take r.val c).objects) h.entry h.started h.engine ?_ s.mem
  exact Dev.opMoving_eq_false_iff.2 ((s.dev.take_objects r.val c).symm ▸ h.noMoves)

/-- Its units get moves of their own, which have their turns. -/
theorem MovesReady.starts (h : MovesReady s r c e opc p) (hunits : unitsToMove e p (decide (opc = 0x30)) ≠ [])
    (hroom : opc = 0x30 → ∀ k ∈ p.obj.dieList,
      (unitsToMove e p (decide (opc = 0x30))).countP (fun i => p.obj.unitDie i == k) * p.obj.chunks ≤ s.dev.nearLeft p.obj.claim k) :
    ∃ x, runMoves s r c opc = answer s x ∧ (s.dev.take r.val c).Turning s.dev.objects p.num
      (p.obj.withMoves (opMoves (unitsToMove e p (decide (opc = 0x30))) (decide (opc = 0x30)) (r.val, c))) x := by
  have hobj : (s.dev.take r.val c).obj p.num = some p.obj := (Dev.obj_congr (s.dev.take_objects r.val c) p.num).trans h.object
  refine ⟨_, h.runMoves_eq hroom, ?_⟩
  rw [Dev.orderMoves_of_units hobj hunits]
  refine Dev.Turning.turnOp ⟨rfl, _, congrArg (Tbl.put · p.num _) (s.dev.take_objects r.val c), rfl⟩ h.noMoves (fun v hv hop => ?_) ?_ s.mem
  · obtain hv | hv := List.mem_append.1 hv
    · exact absurd hop (h.noMoves _ (Tbl.mem_of_look h.object) v hv)
    · exact against_of_mem_opMoves h.policy hv
  · obtain ⟨v, hv⟩ := List.exists_mem_of_ne_nil _ (mt opMoves_eq_nil.1 hunits)
    exact ⟨v, List.mem_append_right _ hv, op_of_mem_opMoves hv⟩

end Moves

/-- What a HOIST or SETTLE past its checks leaves: the end at once, or the moves of its units. -/
theorem hoistSettle_start {s : State} {r : RingNo} {c : W32} {e : Entry} {opc : Nat} {p : Place} (h : MovesReady s r c e opc p) :
    let cmd := if opc = 0x30 then Instr.hoist r c else Instr.settle r c
    let near := decide (opc = 0x30)
    let units := unitsToMove e p near
    (units = [] → Ends cmd s (fun t => t.dev.entry r.val c = some ({ e with taken := true }.doneWith e.res) ∧ OnlyRing r.val s t ∧
      t = { s with dev := s.dev.movesEnded t.dev })) ∧
    (units ≠ [] → (near = true → ∀ k ∈ p.obj.dieList,
        units.countP (fun i => p.obj.unitDie i == k) * p.obj.chunks ≤ s.dev.nearLeft p.obj.claim k) → Ends cmd s (fun t =>
      (OnlyRing r.val s t ∧ t = { s with dev := s.dev.movesStarted t.dev }) ∧
      (∃ o', t.dev.obj p.num = some o' ∧ { o' with moves := [] } = { p.obj with moves := [] } ∧
        o'.moves.map Move.still = p.obj.moves.map Move.still ++ opMoves units near (r.val, c)) ∧
      ∀ k, k ≠ p.num → t.dev.obj k = s.dev.obj k)) := by
  intro cmd near units
  have hexec := exec_moves opc r c s h.opcode
  refine ⟨fun hunits => ?_, fun hunits hroom => ?_⟩
  · exact ⟨_, hexec.trans (h.ends hunits), ended_of_movesDone h.entry h.started h.engine⟩
  · obtain ⟨x, hx, hturning⟩ := h.starts hunits (fun hopc => hroom (decide_eq_true hopc))
    obtain ⟨q, hobjects, hstill⟩ := hturning.object
    refine ⟨_, hexec.trans hx, started_of_turning hturning, ⟨q, ?_, congrArg (fun y : Obj => { y with moves := [] }) hstill, ?_⟩,
      fun k hk => ?_⟩
    · exact (congrArg (Tbl.look · p.num) hobjects).trans (Tbl.look_put_same _ _ _)
    · rw [Obj.moves_still hstill, Obj.withMoves, List.map_append, opMoves_still]
    · exact (congrArg (Tbl.look · k) hobjects).trans (Tbl.look_put_other _ _ hk)

end Sys2Proof.Machine

/-! PLACE (R222). -/
namespace Sys2Proof.Machine

/-- The object that a PLACE names. -/
def placeNum (e : Entry) : Nat := bits (fld e.desc 16 4) 17 0

/-- An object under the policy of a PLACE, which keeps the old one for a restore. -/
def Obj.placedBy (o : Obj) (r : Nat) (e : Entry) : Obj :=
  { o with
    placement := bits (fld e.desc 20 1) 7 6, reroute := bit (fld e.desc 20 1) 5, codeDeep := bit (fld e.desc 20 1) 4
    placing := some (r, e.count, (o.placement, o.reroute, o.codeDeep)) }

/-- The moves that the new PLACEMENT of an object demands, in order. -/
def Dev.placeMoves (d : Dev) (n : Nat) (o : Obj) (op : Nat × W32) : Option Dev :=
  match o.placement with
  | 0 => d.hoistUnits n o ((List.range o.units).filter (fun i => !o.isNear i)) (fun _ => true) op
  | 1 => some (d.orderMoves n [] ((List.range o.units).filter o.isNear) false op)
  | _ => some d

/-- A PLACE past its checks, of an object that no move is to take. -/
structure PlaceReady (s : State) (r : RingNo) (c : W32) (e : Entry) (o : Obj) : Prop where
  op : s.dev.op r.val c 0x32 = some e
  object : s.dev.obj (placeNum e) = some o
  usable : o.usable e = true
  claim : o.claim = s.dev.claimOf r.val
  running : s.dev.isRunning .hoist = true
  idle : s.dev.opMoving r.val c = false
  held : o.isLost = false
  unplaced : o.placing = none
  unmoved : o.moves = []

section Place

variable {s : State} {r : RingNo} {c : W32} {e : Entry} {o : Obj}

namespace PlaceReady

theorem entry (h : PlaceReady s r c e o) : s.dev.entry r.val c = some e := (Dev.op_eq_some h.op).1

theorem started (h : PlaceReady s r c e o) : e.phase = .started := (Dev.op_eq_some h.op).2.2.1

theorem engine (h : PlaceReady s r c e o) : engineOf (hOpcode e.desc) = some 7 := by
  rw [(Dev.op_eq_some h.op).2.2.2]
  rfl

theorem noMoves (h : PlaceReady s r c e o) : noMoves s.dev.objects (r.val, c) := Dev.opMoving_eq_false_iff.1 h.idle

/-- The policy is in force, and the moves it demands have their turns. -/
theorem exec_eq (h : PlaceReady s r c e o) {d : Dev}
    (hmoves : ((s.dev.take r.val c).setObj (placeNum e) (o.placedBy r.val e)).placeMoves (placeNum e) (o.placedBy r.val e) (r.val, c) =
      some d) :
    exec (.place r c) s = answer s (d.turnOp s.mem (r.val, c)) := by
  obtain rfl := Dev.entry_count h.entry
  have hfilter : (some o).filter (fun o => o.usable e && o.claim == s.dev.claimOf r.val) = some o :=
    Option.filter_some_pos (by simp [h.usable, h.claim])
  have hobj : ((s.dev.take r.val e.count).setObj (placeNum e) (o.placedBy r.val e)).obj (placeNum e) = some (o.placedBy r.val e) :=
    Tbl.look_put_same _ _ _
  have hobject := h.object
  unfold placeNum at *
  simp only [Obj.placedBy, h.unmoved, Dev.placeMoves] at hmoves hobj
  simp only [exec, execPlace, h.op, hobject, hfilter, h.running, h.idle, h.held, h.unplaced, h.unmoved, Option.isSome_none,
    List.filterMap_nil, List.eraseDups_nil, List.foldl_nil, hobj, Option.filter_some, List.isEmpty_nil, Bool.not_true, Bool.not_false,
    Bool.and_true, Bool.false_eq_true, if_true, if_false]
  split
  next x hx => rw [Option.some.inj (hx.symm.trans hmoves)]
  next hx => exact absurd (hmoves.symm.trans hx) (Option.some_ne_none d)

/-- No unit has to move: each has the home that the new PLACEMENT demands. -/
theorem ends (h : PlaceReady s r c e o)
    (hmoves : ((s.dev.take r.val c).setObj (placeNum e) (o.placedBy r.val e)).placeMoves (placeNum e) (o.placedBy r.val e) (r.val, c) =
      some ((s.dev.take r.val c).setObj (placeNum e) (o.placedBy r.val e))) :
    exec (.place r c) s = answer s
      (s.dev.movesDone (((s.dev.take r.val c).setObj (placeNum e) (o.placedBy r.val e)).unplaced (r.val, c)) r.val c e) := by
  refine (h.exec_eq hmoves).trans (congrArg (answer s) (Dev.turnOp_take h.entry h.started h.engine ?_ s.mem))
  refine Dev.opMoving_eq_false_iff.2 fun y hy v hv => ?_
  obtain rfl | hy := Tbl.mem_put hy
  · exact absurd (h.unmoved ▸ hv : v ∈ []) List.not_mem_nil
  · exact h.noMoves y ((s.dev.take_objects r.val c) ▸ hy) v hv

/-- The policy of the object once the PLACE has ended. -/
theorem object_movesDone (h : PlaceReady s r c e o) :
    (s.dev.movesDone (((s.dev.take r.val c).setObj (placeNum e) (o.placedBy r.val e)).unplaced (r.val, c)) r.val c e).obj (placeNum e) =
      some { o with
        placement := bits (fld e.desc 20 1) 7 6, reroute := bit (fld e.desc 20 1) 5, codeDeep := bit (fld e.desc 20 1) 4 } := by
  obtain rfl := Dev.entry_count h.entry
  have hobjects : (s.dev.movesDone (((s.dev.take r.val e.count).setObj (placeNum e) (o.placedBy r.val e)).unplaced (r.val, e.count))
      r.val e.count e).objects = ((s.dev.take r.val e.count).setObj (placeNum e) (o.placedBy r.val e)).unplaced (r.val, e.count) := by
    simp [Dev.movesDone]
  rw [Dev.obj, hobjects, Dev.unplaced, Tbl.look_mapAll]
  simp [Dev.setObj, Tbl.look_put_same, Obj.placedBy, h.unplaced]

/-- To PIN_DEEP every near unit gets a move. -/
theorem starts (h : PlaceReady s r c e o) (hpolicy : bits (fld e.desc 20 1) 7 6 = 1) (hnear : (List.range o.units).filter o.isNear ≠ []) :
    ∃ x, exec (.place r c) s = answer s x ∧ (s.dev.take r.val c).Turning s.dev.objects (placeNum e)
      ((o.placedBy r.val e).withMoves (opMoves ((List.range o.units).filter o.isNear) false (r.val, c))) x := by
  have hmoves : ((s.dev.take r.val c).setObj (placeNum e) (o.placedBy r.val e)).placeMoves (placeNum e) (o.placedBy r.val e) (r.val, c) =
      some (((s.dev.take r.val c).setObj (placeNum e) (o.placedBy r.val e)).orderMoves (placeNum e) []
        ((List.range o.units).filter o.isNear) false (r.val, c)) := by
    simp only [Dev.placeMoves, Obj.placedBy, hpolicy]
    rfl
  refine ⟨_, h.exec_eq hmoves, ?_⟩
  rw [Dev.orderMoves_of_units ((Dev.obj_setObj ..).trans (if_pos rfl)) hnear]
  refine Dev.Turning.turnOp ⟨rfl, _, ?_, rfl⟩ h.noMoves (fun v hv _ => ?_) ?_ s.mem
  · exact (Tbl.put_put _ _ _ _).trans (congrArg (Tbl.put · (placeNum e) _) (s.dev.take_objects r.val c))
  · have hv : v ∈ opMoves ((List.range o.units).filter o.isNear) false (r.val, c) := by
      simpa [Obj.withMoves, Obj.placedBy, h.unmoved] using hv
    refine against_of_mem_opMoves (o := o.placedBy r.val e) ?_ hv
    exact hpolicy.trans_ne one_ne_zero
  · obtain ⟨v, hv⟩ := List.exists_mem_of_ne_nil _ (mt opMoves_eq_nil.1 hnear)
    exact ⟨v, List.mem_append_right _ hv, op_of_mem_opMoves hv⟩

end PlaceReady

/-- No unit has to move where each has the home that its PLACEMENT demands. -/
theorem Dev.placeMoves_of_home {d : Dev} {n : Nat} {op : Nat × W32}
    (h : (o.placement = 0 ∧ ∀ i < o.units, o.isNear i = true) ∨ (o.placement = 1 ∧ ∀ i < o.units, o.isNear i = false) ∨ o.placement = 2) :
    d.placeMoves n o op = some d := by
  unfold Dev.placeMoves
  obtain ⟨hp, hnear⟩ | ⟨hp, hdeep⟩ | hp := h
  · have hunits : (List.range o.units).filter (fun i => !o.isNear i) = [] :=
      List.filter_eq_nil_iff.2 fun i hi => by simp [hnear i (List.mem_range.1 hi)]
    simp only [hp, hunits]
    exact Dev.hoistUnits_of_room fun k _ => by simp
  · have hunits : (List.range o.units).filter o.isNear = [] :=
      List.filter_eq_nil_iff.2 fun i hi => by simp [hdeep i (List.mem_range.1 hi)]
    simp only [hp, hunits]
    rfl
  · simp only [hp]

end Place

/-- What a PLACE past its checks leaves: the end at once where no unit has to move, and to PIN_DEEP the moves of the near units. -/
theorem place_start {s : State} {r : RingNo} {c : W32} {e : Entry} {o : Obj} (h : PlaceReady s r c e o) :
    let p := fld e.desc 20 1
    ((bits p 7 6 = 0 ∧ ∀ i < o.units, o.isNear i = true) ∨ (bits p 7 6 = 1 ∧ ∀ i < o.units, o.isNear i = false) ∨ bits p 7 6 = 2 →
      Ends (.place r c) s (fun t => (t.dev.entry r.val c = some ({ e with taken := true }.doneWith e.res) ∧ OnlyRing r.val s t ∧
          t = { s with dev := s.dev.movesEnded t.dev }) ∧
        t.dev.obj (placeNum e) = some { o with placement := bits p 7 6, reroute := bit p 5, codeDeep := bit p 4 })) ∧
    (bits p 7 6 = 1 → (∃ i < o.units, o.isNear i = true) → Ends (.place r c) s (fun t =>
      (OnlyRing r.val s t ∧ t = { s with dev := s.dev.movesStarted t.dev }) ∧
      ∃ o', t.dev.obj (placeNum e) = some o' ∧ o'.placement = 1 ∧ o'.near = o.near ∧
        o'.moves.map (fun v => (v.unit, v.toNear)) = ((List.range o.units).filter o.isNear).map (fun i => (i, false)))) := by
  intro p
  refine ⟨fun hhome => ?_, fun hpolicy ⟨i, hi, hnear⟩ => ?_⟩
  · exact ⟨_, h.ends (Dev.placeMoves_of_home (o := o.placedBy r.val e) hhome), ended_of_movesDone h.entry h.started h.engine,
      h.object_movesDone⟩
  · obtain ⟨x, hx, hturning⟩ := h.starts hpolicy (List.ne_nil_of_mem (List.mem_filter.2 ⟨List.mem_range.2 hi, hnear⟩))
    obtain ⟨q, hobjects, hstill⟩ := hturning.object
    refine ⟨_, hx, started_of_turning hturning, q, ?_, ?_, ?_, ?_⟩
    · exact (congrArg (Tbl.look · (placeNum e)) hobjects).trans (Tbl.look_put_same _ _ _)
    · exact (congrArg Obj.placement hstill).trans hpolicy
    · exact (congrArg Obj.near hstill :)
    · have hmoves : q.moves.map Move.still = opMoves ((List.range o.units).filter o.isNear) false (r.val, c) := by
        rw [Obj.moves_still hstill, Obj.withMoves, Obj.placedBy, h.unmoved, List.nil_append, opMoves_still]
      calc q.moves.map (fun v => (v.unit, v.toNear))
        _ = (q.moves.map Move.still).map (fun v => (v.unit, v.toNear)) := by rw [List.map_map]; rfl
        _ = _ := by rw [hmoves, opMoves_unit]
end Sys2Proof.Machine

/-! COPY (R223). -/
namespace Sys2Proof.Machine

/-! ## What the end of a COPY leaves -/

section CopyEnd

variable {s : State} {r : Nat} {e : Entry} {d : Dev}

theorem Dev.worksTo_endOp_hoist (d : Dev) (r : Nat) (e : Entry) (res : Result) (h : Nat) : d.WorksTo (d.endOp r e res h) := by
  apply Dev.ext <;> simp [Dev.worked]

/-- What a COPY that ends OK leaves: memory but for its stores, its descriptor done, every other ring, and the frame of an op's work. -/
theorem copyEnds {ws : List MemOp} (he : s.dev.entry r e.count = some e) (hs : e.phase = .started) (hd : s.dev.EngineWorksTo d)
    (deep n : Nat) :
    let t : State := { s with dev := d.endOp r e { Result.ok with deep := deep } n, mem := s.mem.applyAll ws }
    t.mem = s.mem.applyAll ws ∧ (∀ k, (∀ w ∈ ws, w.spares k) → t.mem.get k = s.mem.get k) ∧
      (∃ e', t.dev.entry r e.count = some e' ∧ e'.phase = .done ∧ e'.res.status = 0 ∧ e'.res.picks = 0) ∧ OnlyRing r s t ∧
      t = { s with dev := s.dev.worked t.dev, mem := t.mem } := by
  intro t
  obtain ⟨hworks, hrings, -, htallies⟩ := hd
  refine ⟨rfl, fun k => Memory.get_applyAll_spares _ _, ?_, fun k hk => ?_, ?_⟩
  · have hentry : (d.account (d.claimOf r) 0 deep 0 n).entry r e.count = some e :=
      (Dev.entry_congr (d.account_rings _ _ _ _ _) _ _).trans ((Dev.entry_congr hrings _ _).trans he)
    obtain ⟨b, hb⟩ := Dev.entry_finishOp hentry hs { Result.ok with deep := deep }
    exact ⟨_, hb, rfl, rfl, rfl⟩
  · exact (Dev.ring_endOp_other_of_engine d e _ n hk).trans (Dev.ring_congr hrings k)
  · exact frame_state (F := Dev.worked)
      ((hworks.trans (Dev.worksTo_endOp_hoist d r e _ n)).worked ((Dev.endOp_tallies ..).trans htallies)) _

end CopyEnd

/-! ## The checks of a COPY -/

/-- The address that an operand at an offset of the descriptor gives. -/
def Dev.operandAt (d : Dev) (r : Nat) (e : Entry) (off : Nat) : Int := effAddr ((d.ring r).loopOf e.count) e.desc off

theorem Dev.place_eq_ok_iff {d : Dev} {r : Nat} {e : Entry} {off n align : Nat} {p : Place} :
    d.place r e off n align = .ok p ↔ addrOk (d.operandAt r e off) = true ∧ (d.operandAt r e off).toNat % align = 0 ∧
      d.placeAt r e (d.operandAt r e off).toNat n = some p := by
  unfold Dev.place Dev.operandAt
  dsimp only
  split_ifs with hrange halign
  · simp only [Bool.not_eq_true'] at hrange
    simp [hrange]
  · simp only [bne_iff_ne] at halign
    simp [halign]
  · simp only [Bool.not_eq_true', Bool.not_eq_false, bne_iff_ne, ne_eq, not_not] at hrange halign
    cases d.placeAt r e (effAddr ((d.ring r).loopOf e.count) e.desc off).toNat n <;> simp [hrange, halign]

theorem Dev.addr_of_placeAt {d : Dev} {r : Nat} {e : Entry} {a n : Nat} {p : Place} (h : d.placeAt r e a n = some p) : p.addr = a := by
  obtain ⟨x, -, rfl⟩ := Option.map_eq_some_iff.1 h
  rfl

/-- An operand that passes its checks is aligned, its object not LOST. -/
theorem Dev.place_of_access {d : Dev} {r : Nat} {e : Entry} {off n align : Nat} {p : Place} (h : d.access r e off n align = .ok p) :
    d.place r e off n 1 = .ok p ∧ p.obj.isLost = false ∧ p.addr % align = 0 := by
  unfold Dev.access at h
  split at h
  next => exact absurd h (by simp)
  next q hq =>
    split at h
    next => exact absurd h (by simp)
    next hlost =>
      obtain rfl := Except.ok.inj h
      obtain ⟨hrange, halign, hplace⟩ := Dev.place_eq_ok_iff.1 hq
      exact ⟨Dev.place_eq_ok_iff.2 ⟨hrange, Nat.mod_one _, hplace⟩, Bool.eq_false_iff.2 hlost, Dev.addr_of_placeAt hplace ▸ halign⟩

theorem metered_of_admitted {s : State} {r : Nat} {c : W32} {e : Entry} {needs : List (Nat × Nat)} (he : s.dev.entry r c = some e)
    (hneeds : e.admitted needs = true) (go : State → Host.Outcome State Fault Refusal) : metered s r c needs go = go s := by
  simp [metered, he, hneeds]

section Refusal

variable {d : Dev} {m : Memory} {e : Entry} {p q : Place} {n : Nat}

/-- A COPY of 64-byte multiples is refused for nothing else. -/
theorem Dev.copyRefusal_bytes (htiled : bit (fld e.desc 40 1) 7 = false) (hapart : (span 16 p.addr n).overlaps (span 24 q.addr n) = false)
    (hp : p.addr % 64 = 0) (hq : q.addr % 64 = 0) (hlen : fld e.desc 32 8 % 64 = 0) : d.copyRefusal m e p q n = none := by
  simp [Dev.copyRefusal, htiled, hapart, hp, hq, hlen]

/-- A COPY of tiles is refused for nothing else. -/
theorem Dev.copyRefusal_tiles (htiled : bit (fld e.desc 40 1) 7 = true) (hapart : (span 16 p.addr n).overlaps (span 24 q.addr n) = false)
    (hp : p.obj.flat = false) (hq : q.obj.flat = false) (hfmt : p.obj.slotFmt = q.obj.slotFmt)
    (hpu : (p.addr - p.obj.base) % p.obj.unitSize = 0) (hqu : (q.addr - q.obj.base) % p.obj.unitSize = 0)
    (hpass : ∀ b ∈ d.copyIn m p (fld e.desc 32 8), (hdrOf (b.take 64)).passes (b.take 64) anyFmt true = true) :
    d.copyRefusal m e p q n = none := by
  have hall : (d.copyIn m p (fld e.desc 32 8)).any (fun b => !(hdrOf (b.take 64)).passes (b.take 64) anyFmt true) = false := by
    rw [List.any_eq_false]
    exact fun b hb => by simp [hpass b hb]
  simp [Dev.copyRefusal, htiled, hapart, hp, hq, hfmt, hpu, hqu, hall]

end Refusal

/-! ## COPY -/

section Copy

variable {s : State} {r : RingNo} {c : W32} {e : Entry} {p q : Place}

/-- What the work of a COPY of `n` bytes leaves of the device, but for the end of the op. -/
def Dev.copied (d : Dev) (a b n : Nat) : Dev := ((d.countStreamed [span 16 a n]).engineRead a n).engineWrite b n

theorem Dev.engineWorksTo_copied (d : Dev) (a b n : Nat) : d.EngineWorksTo (d.copied a b n) :=
  ((d.engineWorksTo_countStreamed _).trans (Dev.engineWorksTo_engineRead _ _ _)).trans (Dev.engineWorksTo_engineWrite _ _ _)

theorem exec_copy_bytes (hop : s.dev.op r.val c 0x33 = some e) (hrun : s.dev.isRunning .hoist = true)
    (htiled : bit (fld e.desc 40 1) 7 = false) (hlen : fld e.desc 32 8 % 64 = 0)
    (hp : s.dev.access r.val e 16 (fld e.desc 32 8) 64 = .ok p) (hq : s.dev.access r.val e 24 (fld e.desc 32 8) 64 = .ok q)
    (hapart : (span 16 p.addr (fld e.desc 32 8)).overlaps (span 24 q.addr (fld e.desc 32 8)) = false)
    (hwait : s.dev.mustWait e [span 16 p.addr (fld e.desc 32 8)] [span 24 q.addr (fld e.desc 32 8)] = false)
    (hneeds : e.admitted (s.dev.copyNeeds [(p.addr, fld e.desc 32 8)] (q.addr, fld e.desc 32 8)) = true) :
    ∃ deep, exec (.copy r c) s = answerMem s
      ((s.dev.copied p.addr q.addr (fld e.desc 32 8)).endOp r.val e { Result.ok with deep := deep } (fld e.desc 32 8),
        s.dev.writeDev q.addr (s.dev.readDev s.mem p.addr (fld e.desc 32 8))) := by
  obtain ⟨hplace, hlost, halign⟩ := Dev.place_of_access hp
  obtain ⟨hplace', hlost', halign'⟩ := Dev.place_of_access hq
  refine ⟨s.dev.deepBytes p.addr (fld e.desc 32 8) + s.dev.deepBytes q.addr (fld e.desc 32 8), ?_⟩
  simp only [exec, execCopy, hop, hrun, htiled, hplace, hplace', hlost, hlost', hwait,
    Dev.copyRefusal_bytes htiled hapart halign halign' hlen, Bool.not_true, Bool.false_eq_true, if_false]
  exact metered_of_admitted (Dev.op_eq_some hop).1 hneeds _

theorem exec_copy_tiles {p0 : Place} (hop : s.dev.op r.val c 0x33 = some e) (hrun : s.dev.isRunning .hoist = true)
    (htiled : bit (fld e.desc 40 1) 7 = true) (hp0 : s.dev.access r.val e 16 1 1 = .ok p0)
    (hp : s.dev.access r.val e 16 (fld e.desc 32 8 * p0.obj.unitSize) 1 = .ok p)
    (hq : s.dev.access r.val e 24 (fld e.desc 32 8 * p0.obj.unitSize) 1 = .ok q)
    (hrefusal : s.dev.copyRefusal s.mem e p q (fld e.desc 32 8 * p0.obj.unitSize) = none)
    (hwait : s.dev.mustWait e [span 16 p.addr (fld e.desc 32 8 * p0.obj.unitSize)]
      [span 24 q.addr (fld e.desc 32 8 * p0.obj.unitSize)] = false)
    (hneeds : e.admitted (s.dev.copyNeeds ((s.dev.copyIn s.mem p (fld e.desc 32 8)).zipIdx.map (fun x =>
      (p.addr + x.2 * p0.obj.unitSize, min p0.obj.unitSize (64 + (hdrOf (x.1.take 64)).stored))))
      (q.addr, fld e.desc 32 8 * p0.obj.unitSize)) = true) :
    exec (.copy r c) s = copyTiles s r.val e p q (fld e.desc 32 8) (bits (fld e.desc 40 1) 6 5) := by
  obtain ⟨hplace0, -, -⟩ := Dev.place_of_access hp0
  obtain ⟨hplace, hlost, -⟩ := Dev.place_of_access hp
  obtain ⟨hplace', hlost', -⟩ := Dev.place_of_access hq
  simp only [exec, execCopy, hop, hrun, htiled, hplace0, hplace, hplace', hlost, hlost', hwait, hrefusal, Bool.not_true,
    Bool.false_eq_true, if_false, if_true]
  exact metered_of_admitted (Dev.op_eq_some hop).1 hneeds _

/-- Where no tile is malformed, each is stored as its CODEC says. -/
theorem copyTiles_of_sound {r len codec : Nat} (hsound : ∀ b ∈ s.dev.copyOut s.mem p q len codec, b.2 = false) :
    ∃ deep n, copyTiles s r e p q len codec = answerMem s
      ((s.dev.copied p.addr q.addr (len * p.obj.unitSize)).endOp r e { Result.ok with deep := deep } n,
        s.dev.copyWrites s.mem p q len codec) := by
  have hall : (s.dev.copyOut s.mem p q len codec).any (fun x => x.2) = false := by
    rw [List.any_eq_false]
    exact fun b hb => by simp [hsound b hb]
  exact ⟨_, _, by simp only [copyTiles, hall, Bool.false_eq_true, if_false]; rfl⟩

end Copy

/-- Settles O34: the ops of moves by what the turns of their moves leave, COPY by what the end of an engine's op leaves. -/
theorem hoistOpsStartTheirMovesAndCopyCopies : Obligations.HoistOpsStartTheirMovesAndCopyCopies := by
  unfold Obligations.HoistOpsStartTheirMovesAndCopyCopies
  intro s r c e started ended
  refine ⟨?_, ?_, ?_⟩
  · intro opc p hopc hop hrun hidle hplace hobj halign hlost cmd lo n near units hfits hpolicy hapart
    exact hoistSettle_start ⟨hopc, hop, hrun, hidle, hplace, hobj, halign, hlost, hfits, hpolicy, hapart⟩
  · intro o hop n p hobj husable hclaim hrun hidle hlost hplacing hmoves
    exact place_start ⟨hop, hobj, husable, hclaim, hrun, hidle, hlost, hplacing, hmoves⟩
  · intro hop hrun len gives
    obtain ⟨he, hcount, hs, -⟩ := Dev.op_eq_some hop
    subst hcount
    refine ⟨fun p q htiled hlen hp hq hapart hwait hneeds => ?_, ?_⟩
    · obtain ⟨deep, hexec⟩ := exec_copy_bytes hop hrun htiled hlen hp hq hapart hwait hneeds
      exact ⟨_, hexec, copyEnds he hs (Dev.engineWorksTo_copied _ _ _ _) deep _⟩
    · intro p0 p q htiled hp0 u codec hp hq hobj hflat hflat' hfmt halign halign' hapart hwait hneeds hpass hsound
      have hrefusal : s.dev.copyRefusal s.mem e p q (len * u) = none :=
        Dev.copyRefusal_tiles htiled hapart hflat hflat' hfmt (hobj ▸ halign) (hobj ▸ halign') hpass
      obtain ⟨deep, n, htiles⟩ := copyTiles_of_sound (r := r.val) (e := e) hsound
      have hexec := exec_copy_tiles hop hrun htiled hp0 hp hq hrefusal hwait hneeds
      exact ⟨_, hexec.trans htiles, copyEnds he hs (Dev.engineWorksTo_copied _ _ _ _) deep n⟩

end Sys2Proof.Machine

/-! A ring that is listed twice. `Dev.ring` reads the first listing of a number, while a command that walks the table (`Dev.killed`,
`Dev.openOps`) meets every listing. A table in ascending order lists no number twice, but the statements range over every table. -/
namespace Sys2Proof.Machine

/-- Claim 0's FLAT object of 1 MiB at 0, READY and near. -/
def nearMiB : Obj :=
  { base := 0, len := 1048576, flat := true, slotFmt := 0, claim := 0, placement := 0, reroute := false, codeDeep := false, zero := true,
    dies := 1, deepOff := [0, 0, 0, 0], st := .ready, near := [(0, 16)], lostUnits := [], lostDies := 0, dyingSeq := 0, readySeq := 0,
    moves := [], held := [], placing := none, doomed := false }

/-- A started TIMESTAMP with DEST 0 (R83), and the same op as a fault has ended it. -/
def timestampStarted : Entry := { Entry.fresh 0 (BitVec.ofNat 512 0x06) with phase := .started }
def timestampFailed : Entry := { timestampStarted with phase := .done, res := Result.fail stHardwareFault 0 }

/-! ## METER_ADMIT beside a ring listed twice -/

/-- A request of the op on ring 0 at the DEEP meter of die 0. -/
def deepAsk : Ask := { meter := 0, claim := 0, units := 1, deep := 0, what := .op 0 0 }

/-- Claim 0 with a balance there; ring 1 is listed with its op failed, and again with its op started. -/
def ringOneTwice : Dev :=
  { Dev.reset with
    rings := [(0, { Ring.reset with ents := [timestampStarted] }), (1, { Ring.reset with ents := [timestampFailed] }),
      (1, { Ring.reset with ents := [timestampStarted] })]
    claims := [(0, { Claim.reset with meters := [(0, { MeterSt.reset with bal := 1 })] })]
    objects := [(1, nearMiB)]
    frames := { Dev.reset.frames with asks := [deepAsk] } }

def ringOneTwiceState : State := { dev := ringOneTwice, mem := [], pending := [] }

/-- The number of free values drawn up to an outcome. -/
def drawsAfter : Host.Outcome State Fault Refusal → Option Nat
  | .next u => some u.dev.draws
  | _ => none

/-- The second listing of ring 1 counts as an op that a fault ended: the eight bytes of its DEST are drawn (R99). -/
theorem drawsAfter_meterAdmit : drawsAfter (exec (.meterAdmit (.deep 0)) ringOneTwiceState) = some 8 := by decide +kernel

/-- Refutes O36: the service of an op's request is to leave the draws of free values as they are; where ring 1 is listed twice, with its op
failed and with its op started, METER_ADMIT of the op on ring 0 takes the started one for an op that a fault ended, and draws its output
(R99). The counterexample is a ring table out of order. -/
theorem not_framesShareOutAndMetersCharge : ¬ Obligations.FramesShareOutAndMetersCharge := by
  unfold Obligations.FramesShareOutAndMetersCharge
  intro h
  obtain ⟨-, -, hmeters, -⟩ := h ringOneTwiceState
  obtain ⟨-, -, hop⟩ := hmeters (.deep 0) (by decide +kernel)
  obtain ⟨t, hexec, hframe, -⟩ := hop deepAsk 0 0 (by decide +kernel) rfl (by decide)
  have hkept : t.dev.draws = 0 := congrArg (fun u : State => u.dev.draws) hframe
  have hdrawn := drawsAfter_meterAdmit
  rw [hexec] at hdrawn
  have height : t.dev.draws = 8 := Option.some.inj hdrawn
  omega

/-! ## A change of PSTATE and the checks of a RESTORE -/

section ClaimTo

variable {d : Dev} {m : Memory} {c : Nat}

theorem Dev.claimTo_eq (d : Dev) (c : Nat) (p : ClaimP) :
    d.claimTo c p = { d with claims := (d.claimTo c p).claims, health := (d.claimTo c p).health } := by
  unfold Dev.claimTo; split <;> rfl

@[simp] theorem Dev.claimTo_rings (p : ClaimP) : (d.claimTo c p).rings = d.rings := by rw [Dev.claimTo_eq]

theorem Dev.claim_claimTo (d : Dev) (c : Nat) (p : ClaimP) : (d.claimTo c p).claim c = { d.claim c with pstate := p } := by
  unfold Dev.claimTo
  split
  next h => rw [← beq_iff_eq.1 h]
  next => exact Tbl.lookD_put_same ..

theorem Dev.claim_claimTo_other (d : Dev) {c j : Nat} (p : ClaimP) (h : j ≠ c) : (d.claimTo c p).claim j = d.claim j := by
  unfold Dev.claimTo
  split
  next => rfl
  next => exact Tbl.lookD_put_other _ _ _ h

theorem Dev.rivals_claimTo (p : ClaimP) : (d.claimTo c p).rivals c = d.rivals c := by
  have hoff : (d.claimTo c p).isOff = d.isOff := by rw [Dev.claimTo_eq]; rfl
  unfold Dev.rivals
  rw [hoff]
  refine List.map_congr_left fun j hj => Dev.claim_claimTo_other d p ?_
  obtain ⟨-, hj⟩ := List.mem_filter.1 hj
  exact bne_iff_ne.1 (Bool.and_eq_true_iff.1 hj).1

theorem Dev.shapeBad_claimTo (p : ClaimP) (x : Shape) : (d.claimTo c p).shapeBad c x = d.shapeBad c x := by
  have hdie : (d.claimTo c p).die = d.die := by rw [Dev.claimTo_eq]; rfl
  have hstore : (d.claimTo c p).store = d.store := by rw [Dev.claimTo_eq]
  simp only [Dev.shapeBad, Dev.claim_claimTo, Dev.rivals_claimTo, hdie, hstore]
  rfl

/-- The checks of a RESTORE do not read PSTATE (R259). -/
theorem Dev.restoreCheck_claimTo (p : ClaimP) (restart : Bool) :
    (d.claimTo c p).restoreCheck m c restart = d.restoreCheck m c restart := by
  have hread : (d.claimTo c p).readDev = d.readDev := by rw [Dev.claimTo_eq]; rfl
  have hdie : (d.claimTo c p).die = d.die := by rw [Dev.claimTo_eq]; rfl
  simp only [Dev.restoreCheck, Dev.claim_claimTo, Dev.shapeBad_claimTo, hread, hdie]

end ClaimTo

/-! ## The descriptors that a RESTORE_RESTART leaves listed -/

section Restart

variable {d : Dev} {c r : Nat} {k : W32}

/-- The ports that come back are those of cores, from 1024 up. -/
theorem Dev.ring_restorePorts (d : Dev) (c : Nat) (h : r < 1024) : (d.restorePorts c).ring r = d.ring r := by
  refine List.foldlRecOn (motive := fun x : Dev => x.ring r = d.ring r) _ _ rfl fun x hx p hp => ?_
  obtain ⟨core, -, hcore⟩ := List.mem_map.1 (List.of_mem_zip hp).1
  exact (Tbl.lookD_put_other _ _ _ (by omega)).trans hx

theorem Dev.entry_restartOps_eq_none (h : d.entry r k = none) : (d.restartOps c).entry r k = none := by
  refine List.foldlRecOn (motive := fun x : Dev => x.entry r k = none) _ _ h fun x hx y _ => ?_
  have haccount : (x.account c y.2.spent 0 0 0).entry r k = none := hx
  have hcount : ∀ e : Entry, ({ e with work := none, paid := [] } : Entry).count = e.count := fun _ => rfl
  rw [Dev.entry_modEntry _ _ _ _ _ hcount]
  split
  next heq => rw [← heq.1, ← heq.2, haccount]; rfl
  next => exact haccount

/-- A RESTORE_RESTART that passes lists no descriptor of rings 0 to 1023 that was not listed. -/
theorem exec_claimRestoreRestart_entry {s : State} {c : Fin 32} {n : Nat} (hup : s.dev.health.stopped = false)
    (hrun : s.dev.isRunning (.claim c) = true) (hbusy : (s.dev.claim c.val).cmdBusy = false)
    (hstate : (s.dev.claim c.val).pstate = .preempted) (hcheck : s.dev.restoreCheck s.mem c.val true = .ok n) (hr : r < 1024)
    (hentry : s.dev.entry r k = none) : ∃ u, exec (.claimRestoreRestart c) s = .next u ∧ u.dev.entry r k = none := by
  have hquiet : (s.dev.block (.claim c)).st ≠ .quiescing := by
    rw [beq_iff_eq.1 hrun]; decide
  change ∃ u, restoreClaim s c true = .next u ∧ _
  simp only [restoreClaim, viaCfg, hup, hbusy, hrun, hstate, Dev.restoreCheck_claimTo, hcheck, beq_iff_eq,
    hquiet, if_false, if_true, Bool.false_eq_true, Bool.not_true, bne_self_eq_false]
  refine ⟨_, rfl, (Dev.entry_congr (Dev.modClaim_rings ..) r k).trans (Dev.entry_restartOps_eq_none ?_)⟩
  rw [Dev.entry, Dev.claimRes, Dev.ring_congr (Dev.modClaim_rings ..), Dev.ring_congr (Dev.claimTo_rings _), Dev.ring_restorePorts _ _ hr,
    Dev.ring_congr (Dev.modClaim_rings ..), Dev.ring_congr (Dev.claimTo_rings _)]
  exact hentry

end Restart

/-! ## A context whose CHECK is right (Table 11.3) -/

theorem crc64_lt (l : List Byte) : crc64 l < 2 ^ 64 := by unfold crc64; exact BitVec.isLt _

theorem fieldAt_append_left (a b : List Byte) {o n : Nat} (h : o + n ≤ a.length) : fieldAt (a ++ b) o n = fieldAt a o n :=
  congrArg leNat (List.map_congr_left fun i hi => nth_append_left a b (by have := List.mem_range.1 hi; omega))

/-- What stands around CHECK in a context of 4,096 bytes: the fields before it, of claim 0 as reset leaves it, and the zeros after it. -/
def checkFront : List Byte := (ctxHeader 0 Claim.reset 0 0 4096).take 72
def checkBack : List Byte := List.replicate 4016 0

/-- The CRC that CHECK holds, and the context. -/
def checkCrc : Nat := crc64 (checkFront ++ List.replicate 8 0 ++ checkBack)
def sealedContext : List Byte := checkFront ++ toLe 8 checkCrc ++ checkBack

theorem checkFront_length : checkFront.length = 72 := by decide +kernel

theorem sealedContext_length : sealedContext.length = 4096 := by
  rw [sealedContext, List.length_append, List.length_append, checkFront_length, toLe_length, checkBack, List.length_replicate]

theorem sealedContext_take : sealedContext.take 80 = checkFront ++ toLe 8 checkCrc :=
  List.take_left' (by simp [checkFront_length])

theorem crc64_sealedContext : crc64 (sealedContext.take 72 ++ List.replicate 8 0 ++ sealedContext.drop 80) = checkCrc := by
  have hback : sealedContext.drop 80 = checkBack := List.drop_left' (by simp [checkFront_length])
  have hfront : sealedContext.take 72 = checkFront := by
    rw [sealedContext, List.append_assoc, List.take_left' checkFront_length]
  rw [hback, hfront, checkCrc]

theorem fieldAt_sealedContext_check : fieldAt (sealedContext.take 80) 72 8 = checkCrc := by
  have h := fieldAt_toLe checkFront [] 8 checkCrc
  rw [checkFront_length, List.append_nil] at h
  rw [sealedContext_take, h]
  exact Nat.mod_eq_of_lt (crc64_lt _)

theorem fieldAt_sealedContext {o n : Nat} (h : o + n ≤ 72) : fieldAt (sealedContext.take 80) o n = fieldAt checkFront o n := by
  rw [sealedContext_take, fieldAt_append_left _ _ (checkFront_length ▸ h)]

/-! ## CLAIM_RESTORE_RESTART beside a ring listed twice -/

/-- Claim 0, RUNNING and PREEMPTED, with lane 0 and core 0 of die 0 to come back; ring 0 is listed empty, and again with a started op. -/
def ringZeroTwice : Dev :=
  { Dev.reset with
    blocks := [(blockKey (.claim 0), { Block.reset with st := .running })]
    dies := [(0, { Die.reset with laneLog := 1, coreLog := 1 })]
    claims := [(0, { Claim.reset with pstate := .preempted, ctxArea := 65536, restLanes := [(0, 1)], restCores := 1 })]
    rings := [(0, Ring.reset), (0, { Ring.reset with ents := [timestampStarted] })]
    objects := [(1, nearMiB)] }

/-- Its context stands at address 0. -/
def ringZeroTwiceState : State := { dev := ringZeroTwice, mem := Memory.write [] nearBase sealedContext, pending := [] }

theorem readByte_ringZeroTwice (m : Memory) {a : Nat} (h : a < 65536) : ringZeroTwice.readByte m a = m.get (nearBase + a) := by
  have hholds : nearMiB.holds a 1 = true := by
    have hend : a + 1 ≤ 1048576 := by omega
    simpa [Obj.holds, nearMiB] using hend
  have hfound : ringZeroTwice.findObj (fun o => o.st != .free) a 1 = some (1, nearMiB) := by
    rw [Dev.findObj]
    exact List.find?_cons_of_pos (by rw [hholds]; rfl)
  have hunit : a / nearMiB.unitSize = 0 := Nat.div_eq_of_lt h
  have hoff : a % nearMiB.unitSize = a := Nat.mod_eq_of_lt h
  have hbase : nearMiB.base = 0 := rfl
  have hkey : ringZeroTwice.keyOf a = some (nearBase + a) := by
    rw [Dev.keyOf, hfound, Option.map_some, hbase, Nat.sub_zero, hunit, hoff, Obj.key_of_near (by decide), hbase, Nat.zero_mul, Nat.zero_add]
  rw [Dev.readByte, hkey]

theorem readDev_ringZeroTwice {l : List Byte} {n : Nat} (hn : n ≤ l.length) (hl : l.length ≤ 65536) :
    ringZeroTwice.readDev (Memory.write [] nearBase l) 0 n = l.take n := by
  refine List.ext_getElem (by simp [Dev.readDev, hn]) fun i hi _ => ?_
  have hlt : i < n := by simpa [Dev.readDev] using hi
  simp only [Dev.readDev, List.getElem_map, List.getElem_range, List.getElem_take, Nat.zero_add]
  rw [readByte_ringZeroTwice _ (by omega)]
  exact Memory.get_write_same rfl nearBase l (by omega)

theorem readDev_sealedContext {n : Nat} (h : n ≤ 4096) : ringZeroTwice.readDev ringZeroTwiceState.mem 0 n = sealedContext.take n := by
  have hlen := sealedContext_length
  rw [ringZeroTwiceState, readDev_ringZeroTwice (by omega) (by omega)]

theorem restoreCheck_ringZeroTwice : ringZeroTwice.restoreCheck ringZeroTwiceState.mem 0 true = .ok 0 := by
  have haddr : (ringZeroTwice.claim 0).ctxAddr.toNat = 0 := rfl
  have hlen : fieldAt checkFront 64 8 = 4096 := by decide +kernel
  unfold Dev.restoreCheck
  simp only [haddr, readDev_sealedContext (show 80 ≤ 4096 by decide), fieldAt_sealedContext (show 64 + 8 ≤ 72 by decide), hlen,
    fieldAt_sealedContext (show 0 + 2 ≤ 72 by decide), fieldAt_sealedContext (show 2 + 1 ≤ 72 by decide),
    fieldAt_sealedContext (show 4 + 1 ≤ 72 by decide), fieldAt_sealedContext (show 8 + 8 ≤ 72 by decide),
    fieldAt_sealedContext (show 60 + 4 ≤ 72 by decide), readDev_sealedContext (le_refl 4096), List.take_of_length_le sealedContext_length.le,
    crc64_sealedContext, fieldAt_sealedContext_check, bne_self_eq_false, Bool.not_true, Bool.false_and]
  decide +kernel

/-- Refutes O37: a RESTORE_RESTART that passes is to leave each interrupted op of its claim in its ring, to start again; where ring 0 is listed
empty and again with a started op, that op counts as interrupted, and ring 0, whose first listing is read, has no such descriptor. The
counterexample is a ring table out of order. -/
theorem not_claimsArePreemptedAndRestored : ¬ Obligations.ClaimsArePreemptedAndRestored := by
  unfold Obligations.ClaimsArePreemptedAndRestored
  intro h
  obtain ⟨-, -, -, -, hrestore⟩ := h ringZeroTwiceState 0
  have hrun : ringZeroTwice.isRunning (.claim 0) = true := by decide +kernel
  obtain ⟨-, hpass⟩ := hrestore true rfl hrun rfl rfl
  obtain ⟨t, hexec, -, -, -, hops, -⟩ := hpass 0 restoreCheck_ringZeroTwice
  obtain ⟨e, hlisted, -⟩ := hops rfl (0, timestampStarted) (by decide +kernel) (by decide)
  obtain ⟨u, hexec', hnone⟩ := exec_claimRestoreRestart_entry (s := ringZeroTwiceState) (c := 0) (k := timestampStarted.count) rfl hrun rfl rfl
    restoreCheck_ringZeroTwice (show 0 < 1024 by decide) rfl
  obtain rfl : u = t := Host.Outcome.next.inj (hexec'.symm.trans hexec)
  exact Option.some_ne_none e (hlisted.symm.trans hnone)

end Sys2Proof.Machine

/-! ## The hub at work: what packets that start, wait, turn back or are dropped leave of the ports and of the outputs

The starting of packets at an output (R272, R289), and a principle for everything that the discard of a packet or its route can do
(R276 to R281). -/
namespace Sys2Proof.Machine

/-! ### Starting packets -/

/-- The port with the turns and deficits of another: what the choice of the next packet may change (R289, R317). -/
def Port.turned (p q : Port) : Port :=
  { p with deficit := q.deficit, turn := q.turn, collTurn := q.collTurn, collDeficit := q.collDeficit }

def Port.TurnsTo (p q : Port) : Prop := q = p.turned q

/-- The port with the queue, the replay buffer, the credits and the deficits of another: what starting packets may change. -/
def Port.pumped (p q : Port) : Port :=
  { p.turned q with
    waiting := q.waiting, credits := q.credits, reserved := q.reserved, flights := q.flights, ackTick := q.ackTick, txSeq := q.txSeq,
    cnt := q.cnt, telemetry := q.telemetry, deDepth := q.deDepth }

def Port.PumpsTo (p q : Port) : Prop := q = p.pumped q

section Choice

variable {p q r : Port} {want : Packet → Bool} {k : Packet}

theorem Port.turnsTo_refl (p : Port) : p.TurnsTo p := rfl

theorem Port.TurnsTo.trans (h : p.TurnsTo q) (h' : q.TurnsTo r) : p.TurnsTo r :=
  Eq.trans h' (show q.turned r = (p.turned q).turned r from congrArg (Port.turned · r) h)

theorem Port.collNext_turnsTo {fuel : Nat} (h : Port.collNext want fuel p = some (k, q)) : p.TurnsTo q := by
  induction fuel generalizing p with
  | zero => cases h
  | succ fuel ih =>
    unfold Port.collNext at h
    dsimp only at h
    split at h
    · obtain ⟨rfl, rfl⟩ := Prod.mk.inj (Option.some.inj h)
      rfl
    · split at h
      · cases h
      · exact .trans (by rfl) (ih h)

theorem Port.collLevels_turnsTo (h : p.collLevels want = some (k, q)) : p.TurnsTo q := by
  unfold Port.collLevels at h
  rcases (Option.orElse_eq_some ..).1 h with h | ⟨-, h⟩
  · exact Port.collNext_turnsTo h
  · exact Port.collNext_turnsTo h

theorem Port.drr_turnsTo {share : Nat → Nat} {fuel : Nat} (h : Port.drr share fuel p = some (k, q)) : p.TurnsTo q := by
  induction fuel generalizing p with
  | zero => cases h
  | succ fuel ih =>
    unfold Port.drr at h
    dsimp only at h
    split at h
    next k' q' hnext =>
      split at h
      · obtain ⟨rfl, rfl⟩ := Prod.mk.inj (Option.some.inj h)
        refine Port.TurnsTo.trans ?_ (show q'.TurnsTo _ from rfl)
        split at hnext
        · exact Port.collLevels_turnsTo hnext
        · obtain ⟨_, -, heq⟩ := Option.map_eq_some_iff.1 hnext
          rw [← (Prod.mk.inj heq).2]
          exact p.turnsTo_refl
      · exact .trans (by rfl) (ih h)
    next => exact .trans (by rfl) (ih h)

theorem Port.choose_turnsTo {share : Nat → Nat} {len : Nat} (h : p.choose share len = some (k, q)) : p.TurnsTo q := by
  unfold Port.choose at h
  split at h
  · cases h; rfl
  · split at h
    · cases h; rfl
    · split at h
      · cases h; rfl
      · split at h
        · exact Port.drr_turnsTo h
        · cases h

theorem Port.TurnsTo.pumpsTo_start (h : p.TurnsTo q) (k : Packet) (now : Tick) : p.PumpsTo (q.start k now) := by
  rw [h]
  rfl

theorem mem_removeFirst_or_eq {α : Type} [DecidableEq α] (x : α) {y : α} {l : List α} (h : y ∈ l) : y ∈ removeFirst x l ∨ y = x := by
  induction l with
  | nil => cases h
  | cons z l ih =>
    unfold removeFirst
    rcases List.mem_cons.1 h with rfl | h
    · split
      · exact .inr ‹_›
      · exact .inl List.mem_cons_self
    · split
      · exact .inl h
      · exact (ih h).imp_left (List.mem_cons_of_mem z)

end Choice

/-- What starting packets at output `n` may do: they leave the queue of `n` for the outputs of the device. -/
structure Dev.PumpsTo (d : Dev) (n : Nat) (t : Dev) : Prop where
  frame : t = { d with ports := t.ports, out := t.out }
  others : ∀ j, j ≠ n → t.port j = d.port j
  port : (d.port n).PumpsTo (t.port n)
  sends : ∃ sent : List Packet, t.out = sent.map (Output.packet (some n)) ++ d.out ∧
    ∀ k ∈ (d.port n).waiting, k ∈ (t.port n).waiting ∨ k ∈ sent

section Pump

variable {d t u : Dev} {n : Nat}

theorem Dev.pumpsTo_refl (d : Dev) (n : Nat) : d.PumpsTo n d := ⟨rfl, fun _ _ => rfl, rfl, [], rfl, fun _ => .inl⟩

theorem Dev.PumpsTo.routing (h : d.PumpsTo n t) : t.routing = d.routing := (congrArg Dev.routing h.frame :)
theorem Dev.PumpsTo.health (h : d.PumpsTo n t) : t.health = d.health := (congrArg Dev.health h.frame :)
theorem Dev.PumpsTo.draws (h : d.PumpsTo n t) : t.draws = d.draws := (congrArg Dev.draws h.frame :)

theorem Dev.PumpsTo.trans (h : d.PumpsTo n t) (h' : t.PumpsTo n u) : d.PumpsTo n u := by
  obtain ⟨sent, hout, hleft⟩ := h.sends
  obtain ⟨sent', hout', hleft'⟩ := h'.sends
  refine ⟨?_, fun j hj => (h'.others j hj).trans (h.others j hj), ?_, sent' ++ sent, ?_, fun k hk => ?_⟩
  · exact h'.frame.trans (congrArg (fun x : Dev => { x with ports := u.ports, out := u.out }) h.frame)
  · exact Eq.trans h'.port (show _ = ((d.port n).pumped (t.port n)).pumped (u.port n) from congrArg (Port.pumped · (u.port n)) h.port)
  · rw [hout', hout, List.map_append, List.append_assoc]
  · rcases hleft k hk with hk | hk
    · exact (hleft' k hk).imp_right (List.mem_append_left sent)
    · exact .inr (List.mem_append_right sent' hk)

theorem Dev.pumpsTo_start {k : Packet} {p : Port} {share : Nat → Nat} {len : Nat} (h : (d.port n).choose share len = some (k, p)) :
    d.PumpsTo n ((d.setPort n (p.start k d.phys)).emit (.packet (some n) k)) := by
  have hturn := Port.choose_turnsTo h
  have hport : ((d.setPort n (p.start k d.phys)).emit (.packet (some n) k)).port n = p.start k d.phys :=
    (d.port_setPort n n _).trans (if_pos rfl)
  refine ⟨rfl, fun j hj => (d.port_setPort n j _).trans (if_neg hj), ?_, [k], rfl, fun k' hk' => ?_⟩
  · rw [hport]
    exact hturn.pumpsTo_start k d.phys
  · rw [hport]
    have hwaiting : p.waiting = (d.port n).waiting := by rw [hturn]; rfl
    exact (mem_removeFirst_or_eq k (hwaiting ▸ hk')).imp_right List.mem_singleton.2

theorem Dev.pumpsTo_pumpGo (fuel : Nat) (d : Dev) (n : Nat) : d.PumpsTo n (Dev.pumpGo fuel d n) := by
  induction fuel generalizing d with
  | zero => exact d.pumpsTo_refl n
  | succ fuel ih =>
    unfold Dev.pumpGo
    split
    · exact d.pumpsTo_refl n
    · next k p h => exact (Dev.pumpsTo_start h).trans (ih _)

theorem Dev.pumpsTo_pump (d : Dev) (n : Nat) : d.PumpsTo n (d.pump n) := Dev.pumpsTo_pumpGo _ d n

theorem Dev.port_modPort_same (d : Dev) (n : Nat) (f : Port → Port) : (d.modPort n f).port n = f (d.port n) :=
  (d.port_modPort n n f).trans (if_pos rfl)

theorem Dev.port_modPort_other (d : Dev) {n j : Nat} (f : Port → Port) (h : j ≠ n) : (d.modPort n f).port j = d.port j :=
  (d.port_modPort n j f).trans (if_neg h)

theorem Dev.port_setPort_same (d : Dev) (n : Nat) (x : Port) : (d.setPort n x).port n = x := (d.port_setPort n n x).trans (if_pos rfl)

theorem Dev.port_setPort_other (d : Dev) {n j : Nat} (x : Port) (h : j ≠ n) : (d.setPort n x).port j = d.port j :=
  (d.port_setPort n j x).trans (if_neg h)

/-- A packet that joins a queue waits there or has left. -/
theorem Dev.joined (d : Dev) (n : Nat) {k : Packet} {f : Port → Port} (h : k ∈ (f (d.port n)).waiting) :
    k ∈ (((d.modPort n f).pump n).port n).waiting ∨ .packet (some n) k ∈ ((d.modPort n f).pump n).out := by
  obtain ⟨sent, hout, hleft⟩ := ((d.modPort n f).pumpsTo_pump n).sends
  rw [d.port_modPort_same] at hleft
  refine (hleft k h).imp_right fun hk => ?_
  rw [hout]
  exact List.mem_append_left _ (List.mem_map_of_mem hk)

end Pump

/-! ### Drop-eligible arrivals (R292, R293) -/

/-- The average of the DE queue after an arrival. -/
def Port.deMean (p : Port) : Int := p.deAvg + Int.tdiv ((p.deDepth : Int) * 16 - p.deAvg) 16

/-- The average has moved, and a value is drawn. -/
def Dev.deMoved (d : Dev) (n : Nat) : Dev :=
  { d.modPort n (fun p => { p with deAvg := p.deMean }) with draws := d.draws + 1 }

/-- The packet is dropped: a counter of the crossbar rises, with an alarm. -/
def Dev.deDropped (d : Dev) (n off : Nat) : Dev :=
  ({ d with xbar := { d.xbar with cnt := bump d.xbar.cnt off 1 } }).alarm 0x20 (0x100000 + off) n (Tbl.lookD d.xbar.cnt off 0 + 1)

/-- The packet joins the DE queue. -/
def Dev.deQueued (d : Dev) (n : Nat) (k : Packet) : Dev :=
  (d.modPort n (fun q => { q with waiting := q.waiting ++ [k], deDepth := q.deDepth + k.flits })).pump n

/-- MIN and MAX of the RED profile of a packet's colour, in flits (Table 13.12). -/
def Dev.redMin (d : Dev) (k : Packet) : Nat := bits (Tbl.lookD d.xbar.red k.colour (redReset k.colour)).toNat 15 8
def Dev.redMax (d : Dev) (k : Packet) : Nat := bits (Tbl.lookD d.xbar.red k.colour (redReset k.colour)).toNat 23 16

/-- RED drops the packet: at or above MAX, and below it by chance (R293). -/
def Dev.redDrops (d : Dev) (n : Nat) (k : Packet) : Bool :=
  let avg := (d.port n).deMean
  let red := (Tbl.lookD d.xbar.red k.colour (redReset k.colour)).toNat
  let hi : Int := (d.redMax k : Nat) * 16
  let lo : Int := (d.redMin k : Nat) * 16
  if avg < lo then false else if hi ≤ avg then true
  else decide (((Config.freeValue d.draws).toNat : Int) * (256 * (hi - lo)) < (bits red 31 24 : Int) * (avg - lo) * 2 ^ 64)

section DeArrival

variable (d : Dev) (n : Nat) (k : Packet)

/-- A DE packet is dropped by RED, dropped for want of room, or joins the queue. -/
theorem Dev.deArrive_eq : d.deArrive n k =
    if d.redDrops n k then (d.deMoved n).deDropped n (0x40 + 8 * k.colour)
    else if 128 < (d.port n).deDepth + k.flits then (d.deMoved n).deDropped n 0x58
    else (d.deMoved n).deQueued n k := rfl

variable {d n k}

theorem Dev.redDrops_of_max_le (hmax : (d.redMax k : Int) * 16 ≤ (d.port n).deMean) (hmin : (d.redMin k : Int) * 16 ≤ (d.port n).deMean) :
    d.redDrops n k = true := (if_neg (not_lt.2 hmin)).trans (if_pos hmax)

theorem Dev.redDrops_of_lt_min (hmin : (d.port n).deMean < (d.redMin k : Int) * 16) : d.redDrops n k = false := if_pos hmin

theorem Dev.deArrive_of_max_le (hmax : (d.redMax k : Int) * 16 ≤ (d.port n).deMean) (hmin : (d.redMin k : Int) * 16 ≤ (d.port n).deMean) :
    d.deArrive n k = (d.deMoved n).deDropped n (0x40 + 8 * k.colour) := by
  rw [Dev.deArrive_eq, Dev.redDrops_of_max_le hmax hmin, if_pos rfl]

theorem Dev.deArrive_of_lt_min (hmin : (d.port n).deMean < (d.redMin k : Int) * 16) (hroom : (d.port n).deDepth + k.flits ≤ 128) :
    d.deArrive n k = (d.deMoved n).deQueued n k := by
  rw [Dev.deArrive_eq, Dev.redDrops_of_lt_min hmin, if_neg Bool.false_ne_true, if_neg (not_lt.2 hroom)]

end DeArrival

/-! ### What the hub keeps -/

/-- A predicate of the device that every act of the hub on a packet keeps (R276 to R281, R292): it changes a port but for its link, starts
packets, counts, alarms, draws, and lists detours and packets that are held. -/
structure Dev.HubKeeps (P : Dev → Prop) : Prop where
  modPort : ∀ {d : Dev} n (f : Port → Port), (∀ p, (f p).link = p.link ∧ (f p).lanes = p.lanes) → P d → P (d.modPort n f)
  pump : ∀ {d : Dev} n, P d → P (d.pump n)
  emit : ∀ {d : Dev} n k, P d → P (d.emit (.packet n k))
  alarm : ∀ {d : Dev} b r u v, P d → P (d.alarm b r u v)
  draw : ∀ {d : Dev} n, P d → P { d with draws := n }
  xbar : ∀ {d : Dev} c, P d → P { d with xbar := { d.xbar with cnt := c } }
  countRt : ∀ {d : Dev} n, P d → P (d.countRt n)
  spread : ∀ {d : Dev}, P d → P { d with time := { d.time with spreadLost := true } }
  detour : ∀ {d : Dev} l, P d → P { d with routing := { d.routing with detours := l } }
  hold : ∀ {d : Dev} k, P d → P { d with routing := { d.routing with held := d.routing.held ++ [k] } }

namespace Dev.HubKeeps

variable {P : Dev → Prop} {d : Dev}

theorem ite {c : Prop} [Decidable c] {x y : Dev} (hx : P x) (hy : P y) : P (if c then x else y) := by
  split
  · exact hx
  · exact hy

theorem deArrive (h : Dev.HubKeeps P) (hd : P d) (n : Nat) (k : Packet) : P (d.deArrive n k) := by
  have hmoved : P (d.deMoved n) := h.draw _ (h.modPort n _ (fun _ => ⟨rfl, rfl⟩) hd)
  have hdropped : ∀ off, P ((d.deMoved n).deDropped n off) := fun off => h.alarm _ _ _ _ (h.xbar _ hmoved)
  rw [Dev.deArrive_eq]
  exact ite (hdropped _) (ite (hdropped _) (h.pump n (h.modPort n _ (fun _ => ⟨rfl, rfl⟩) hmoved)))

theorem sendOn (h : Dev.HubKeeps P) (hd : P d) (n : Nat) (k : Packet) : P (d.sendOn n k) :=
  ite (h.deArrive hd n k) (h.pump n (h.modPort n _ (fun _ => ⟨rfl, rfl⟩) hd))

theorem routeQuiet (h : Dev.HubKeeps P) (hd : P d) (k : Packet) : P (d.routeQuiet k) := by
  unfold Dev.routeQuiet
  split
  · exact h.emit _ _ hd
  · exact h.sendOn hd _ _
  · exact h.sendOn hd _ _
  · exact hd
  · exact h.countRt _ hd
  · exact h.countRt _ hd

theorem sendNotice (h : Dev.HubKeeps P) (hd : P d) (cause : Nat) (port : Option Nat) (k : Packet) : P (d.sendNotice cause port k) := by
  unfold Dev.sendNotice
  have hcounted := h.countRt 0x88 hd
  refine ite hd (ite (h.emit _ _ hcounted) ?_)
  split
  · exact h.routeQuiet hcounted _
  · exact h.countRt _ hcounted

theorem discard (h : Dev.HubKeeps P) (hd : P d) (cause : Nat) (port : Option Nat) (k : Packet) : P (d.discard cause port k) := by
  unfold Dev.discard
  lift_lets
  intro off d1 d2
  have hcounted : P d1 := by
    refine ite ?_ (h.countRt off hd)
    split
    · exact h.modPort _ _ (fun _ => ⟨rfl, rfl⟩) hd
    · exact hd
  have halarm : P d2 := ite (h.alarm _ _ _ _ hcounted) hcounted
  exact ite (h.sendNotice halarm _ _ _) halarm

theorem follow (h : Dev.HubKeeps P) (hd : P d) (k : Packet) (r : Route) : P (d.follow k r) := by
  cases r with
  | here => exact h.emit _ _ hd
  | out p k' => exact h.sendOn hd p k'
  | detour p k' forced =>
    have hcounted := h.countRt 0x40 hd
    cases forced
    · exact h.sendOn (h.detour _ hcounted) p k'
    · exact h.sendOn (h.detour _ (h.spread (h.countRt 0x48 hcounted))) p k'
  | hold => exact h.hold k hd
  | drop c p => exact h.discard hd c p k
  | barred => exact h.alarm _ _ _ _ (h.countRt 0x68 hd)

end Dev.HubKeeps

/-- The link of each port, and its lanes. -/
def Dev.linkLanes (d : Dev) (j : Nat) : LinkState × BitVec 4 := ((d.port j).link, (d.port j).lanes)

theorem Dev.linkLanes_congr {d t : Dev} (h : t.ports = d.ports) : t.linkLanes = d.linkLanes := by
  funext j
  rw [Dev.linkLanes, Dev.port_congr h, Dev.linkLanes]

theorem Dev.PumpsTo.linkLanes {d t : Dev} {n : Nat} (h : d.PumpsTo n t) : t.linkLanes = d.linkLanes := by
  funext j
  by_cases hj : j = n
  · subst hj
    rw [Dev.linkLanes, h.port]
    rfl
  · rw [Dev.linkLanes, h.others j hj, Dev.linkLanes]

/-- No act of the hub on a packet changes a link (R276 to R281). -/
theorem Dev.hubKeeps_linkLanes (x : Nat → LinkState × BitVec 4) : Dev.HubKeeps (fun d => d.linkLanes = x) where
  modPort {d} n f hf hd := by
    rw [← hd]
    funext j
    unfold Dev.linkLanes
    by_cases hj : j = n
    · subst hj
      rw [d.port_modPort_same, (hf _).1, (hf _).2]
    · rw [d.port_modPort_other f hj]
  pump {d} n hd := (d.pumpsTo_pump n).linkLanes.trans hd
  emit _ _ hd := hd
  alarm _ _ _ _ hd := (Dev.linkLanes_congr (Dev.alarm_ports ..)).trans hd
  draw _ hd := hd
  xbar _ hd := hd
  countRt _ hd := hd
  spread hd := hd
  detour _ hd := hd
  hold _ hd := hd

end Sys2Proof.Machine

/-! ## O38: links

Training, replay, the flits that arrive, and what becomes of a link that fails (R263 to R265, R271 to R275, R388). -/
namespace Sys2Proof.Machine

/-! ### What a link's layer may touch -/

/-- The device with what a packet that is sent may touch, and the timebase: what may change where a link changes. -/
def Dev.linked (d t : Dev) : Dev := { d.sent t with time := t.time }

/-- The same in the words of the statement, for a whole state. -/
def LinkFrame (s : State) (n : Nat) (t : State) : Prop :=
  t = { s with dev := { s.dev.sent t.dev with time := t.dev.time } } ∧
    ∀ j, j ≠ n → (t.dev.port j).link = (s.dev.port j).link ∧ (t.dev.port j).lanes = (s.dev.port j).lanes

/-- A step of port `n`'s link: the links of the others stand. -/
structure Dev.LinksTo (d : Dev) (n : Nat) (t : Dev) : Prop where
  frame : t = d.linked t
  others : ∀ j, j ≠ n → t.linkLanes j = d.linkLanes j

section LinksTo

variable {d t u : Dev} {n : Nat}

theorem Dev.linksTo_refl (d : Dev) (n : Nat) : d.LinksTo n d := ⟨rfl, fun _ _ => rfl⟩

theorem Dev.LinksTo.trans (h : d.LinksTo n t) (h' : t.LinksTo n u) : d.LinksTo n u :=
  ⟨frame_trans (F := Dev.linked) (fun _ _ _ => rfl) h.frame h'.frame, fun j hj => (h'.others j hj).trans (h.others j hj)⟩

theorem Dev.LinksTo.state {s : State} (h : s.dev.LinksTo n t) : LinkFrame s n { s with dev := t } :=
  ⟨congrArg (fun x : Dev => ({ s with dev := x } : State)) h.frame, fun j hj => Prod.mk.inj (h.others j hj)⟩

theorem Dev.PassesTo.linksTo (h : d.PassesTo t) (hlinks : t.linkLanes = d.linkLanes) (n : Nat) : d.LinksTo n t :=
  ⟨frame_weaken (F := Dev.passed) (G := Dev.linked) (fun _ _ => rfl) h, fun j _ => congrFun hlinks j⟩

theorem Dev.linksTo_setPort (d : Dev) (n : Nat) (x : Port) : d.LinksTo n (d.setPort n x) :=
  ⟨rfl, fun j hj => by rw [Dev.linkLanes, d.port_setPort_other x hj, Dev.linkLanes]⟩

theorem Dev.linksTo_pump (d : Dev) (n : Nat) : d.LinksTo n (d.pump n) := (d.passesTo_pump n).linksTo (d.pumpsTo_pump n).linkLanes n

theorem Dev.linksTo_alarm (d : Dev) (b r u : Nat) (v : Word) (n : Nat) : d.LinksTo n (d.alarm b r u v) :=
  (d.passesTo_alarm b r u v).linksTo (Dev.linkLanes_congr (Dev.alarm_ports ..)) n

theorem Dev.linksTo_portAlarm (d : Dev) (m n : Nat) : d.LinksTo n (d.portAlarm m) := d.linksTo_alarm ..

theorem Dev.port_portAlarm (d : Dev) (m j : Nat) : (d.portAlarm m).port j = d.port j := Dev.port_congr (Dev.alarm_ports ..) j

theorem Dev.portAlarm_alarms (d : Dev) (m : Nat) : (d.portAlarm m).health.alarms = d.health.alarms + 1 := d.alarm_alarms ..

theorem Dev.passesTo_raise (d : Dev) (v : Nat) : d.PassesTo (d.raise v) := by
  unfold Dev.raise
  split <;> rfl

theorem Dev.raise_linkLanes (d : Dev) (v : Nat) : (d.raise v).linkLanes = d.linkLanes := Dev.linkLanes_congr (d.raise_ports v)

theorem Dev.linksTo_raise (d : Dev) (v n : Nat) : d.LinksTo n (d.raise v) := (d.passesTo_raise v).linksTo (d.raise_linkLanes v) n

theorem Dev.linksTo_time (d : Dev) (x : TimeBlk) (n : Nat) : d.LinksTo n { d with time := x } := ⟨rfl, fun _ _ => rfl⟩

theorem Dev.linksTo_setAlign (d : Dev) (a : Align) (n : Nat) : d.LinksTo n (d.setAlign a) := by
  unfold Dev.setAlign
  dsimp only
  split
  · exact d.linksTo_time _ n
  · split
    · exact ((d.linksTo_time _ n).trans (Dev.linksTo_alarm ..)).trans (Dev.linksTo_raise ..)
    · split
      · exact (d.linksTo_time _ n).trans (Dev.linksTo_raise ..)
      · exact d.linksTo_time _ n

theorem Dev.linksTo_upstreamLost (d : Dev) (n : Nat) : d.LinksTo n d.upstreamLost := by
  unfold Dev.upstreamLost
  split
  · exact d.linksTo_setAlign .holdover n
  · exact d.linksTo_refl n

end LinksTo

/-! ### Training (R264, R265, R275) -/

theorem popCount_eq_four_iff : ∀ m : BitVec 4, popCount 4 m.toNat = 4 ↔ m = 0xF := by decide

section Training

variable {s : State} {n : Fin 48} {r : TrainResult}

/-- Too few lanes trained: less than three, or three of four where DEGRADE does not allow it. -/
def Port.fewLanes (p : Port) (r : TrainResult) : Prop :=
  let k := popCount 4 (r.lanes &&& p.cfg.mask).toNat
  k < 3 ∨ (k = 3 ∧ p.cfg.mask = 0xF ∧ p.cfg.degrade ≠ 0)

theorem Port.fewLanes_iff (p : Port) (r : TrainResult) :
    (decide (popCount 4 (r.lanes &&& p.cfg.mask).toNat < 3) || (decide (popCount 4 (r.lanes &&& p.cfg.mask).toNat = 3) &&
      decide (popCount 4 p.cfg.mask.toNat = 4) && p.cfg.degrade != 0)) = true ↔ p.fewLanes r := by
  simp [Port.fewLanes, popCount_eq_four_iff, and_assoc]

/-- The lane that stays under loopback where one of four is missing (R388). -/
def Port.missing (p : Port) (r : TrainResult) : Option (Fin 4) :=
  if popCount 4 (r.lanes &&& p.cfg.mask).toNat = 3 ∧ popCount 4 p.cfg.mask.toNat = 4 then
    (setBits 4 (p.cfg.mask &&& ~~~ r.lanes).toNat).head?.map (fun l => Fin.ofNat 4 l)
  else none

/-- Training is tried again. -/
def Dev.retrains (d : Dev) (n : Nat) : Dev :=
  d.setPort n { d.port n with link := .training, trainTick := d.phys, alarmed := true }

variable (hrun : s.dev.isRunning (.port n) = true) (hlink : (s.dev.port n.val).link = .training)
include hrun hlink

theorem exec_fabricLinkUp_fewLanes (hfew : (s.dev.port n.val).fewLanes r) : exec (.fabricLinkUp n r) s =
    answer s (if (s.dev.port n.val).alarmed then s.dev.retrains n.val else (s.dev.retrains n.val).portAlarm n.val) := by
  refine (show exec (.fabricLinkUp n r) s = execFabricLinkUp n r s from rfl).trans ?_
  unfold execFabricLinkUp
  dsimp only
  rw [if_pos (by rw [hrun, hlink]; rfl), if_pos ((Port.fewLanes_iff _ r).2 hfew)]
  rfl

variable (hfew : ¬ (s.dev.port n.val).fewLanes r)
include hfew

theorem exec_fabricLinkUp_miswired (hwired : s.dev.wired n.val r = false) : exec (.fabricLinkUp n r) s =
    answer s ((s.dev.setPort n.val { s.dev.port n.val with
      delay := BitVec.ofNat 10 r.delay, peerDomain := r.domain, peerPort := r.port, peerPhys := r.phys, link := .miswired, lanes := 0,
      trainTick := s.dev.phys }).portAlarm n.val) := by
  refine (show exec (.fabricLinkUp n r) s = execFabricLinkUp n r s from rfl).trans ?_
  unfold execFabricLinkUp
  dsimp only
  rw [if_pos (by rw [hrun, hlink]; rfl), if_neg (fun h => hfew ((Port.fewLanes_iff _ r).1 h)), if_pos (by rw [hwired]; rfl)]

variable (hwired : s.dev.wired n.val r = true)
include hwired

theorem exec_fabricLinkUp_tooLong (hdelay : 600 < r.delay) : exec (.fabricLinkUp n r) s =
    answer s ((s.dev.setPort n.val { s.dev.port n.val with
      link := .tooLong, lanes := 0, delay := BitVec.ofNat 10 (min 1023 r.delay), trainTick := s.dev.phys }).portAlarm n.val) := by
  refine (show exec (.fabricLinkUp n r) s = execFabricLinkUp n r s from rfl).trans ?_
  unfold execFabricLinkUp
  dsimp only
  rw [if_pos (by rw [hrun, hlink]; rfl), if_neg (fun h => hfew ((Port.fewLanes_iff _ r).1 h)), if_neg (by simp [hwired]), if_pos hdelay]

theorem exec_fabricLinkUp_up (hdelay : ¬ 600 < r.delay) : exec (.fabricLinkUp n r) s =
    answer s ((s.dev.setPort n.val
      ((s.dev.port n.val).comeUp r (r.lanes &&& (s.dev.port n.val).cfg.mask) s.dev.phys ((s.dev.port n.val).missing r))).pump n.val) := by
  refine (show exec (.fabricLinkUp n r) s = execFabricLinkUp n r s from rfl).trans ?_
  unfold execFabricLinkUp
  dsimp only
  rw [if_pos (by rw [hrun, hlink]; rfl), if_neg (fun h => hfew ((Port.fewLanes_iff _ r).1 h)), if_neg (by simp [hwired]), if_neg hdelay]
  rfl

omit hfew hwired

theorem ends_fabricLinkUp : Ends (.fabricLinkUp n r) s (fun t =>
    LinkFrame s n.val t ∧
    let p := s.dev.port n.val
    let lanes := r.lanes &&& p.cfg.mask
    let k := popCount 4 lanes.toNat
    let q := t.dev.port n.val
    if k < 3 ∨ (k = 3 ∧ p.cfg.mask = 0xF ∧ p.cfg.degrade ≠ 0) then
      q = { p with link := .training, trainTick := s.dev.phys, alarmed := true } ∧
        t.dev.health.alarms = s.dev.health.alarms + (if p.alarmed then 0 else 1)
    else if s.dev.wired n.val r = false then
      q.link = .miswired ∧ q.lanes = 0 ∧ q.peerPhys = r.phys ∧ t.dev.health.alarms = s.dev.health.alarms + 1
    else if 600 < r.delay then q.link = .tooLong ∧ q.lanes = 0 ∧ t.dev.health.alarms = s.dev.health.alarms + 1
    else q.link = (if lanes = 0xF then .up4 else .up3) ∧ q.lanes = lanes ∧ q.delay = BitVec.ofNat 10 r.delay ∧ q.rxSeq = 0 ∧
      q.refusing = false ∧ q.alarmed = false) := by
  have hsets : ∀ x : Port, s.dev.LinksTo n.val ((s.dev.setPort n.val x).portAlarm n.val) ∧
      ((s.dev.setPort n.val x).portAlarm n.val).port n.val = x := fun x =>
    ⟨(s.dev.linksTo_setPort n.val x).trans (Dev.linksTo_portAlarm ..), (Dev.port_portAlarm ..).trans (s.dev.port_setPort_same ..)⟩
  by_cases hfew : (s.dev.port n.val).fewLanes r
  · have hexec := exec_fabricLinkUp_fewLanes hrun hlink hfew
    obtain ⟨hlinks, hport⟩ := hsets { s.dev.port n.val with link := .training, trainTick := s.dev.phys, alarmed := true }
    cases halarmed : (s.dev.port n.val).alarmed with
    | true =>
      rw [if_pos halarmed] at hexec
      refine ⟨_, hexec, (s.dev.linksTo_setPort ..).state, (if_pos hfew).mpr ⟨s.dev.port_setPort_same .., ?_⟩⟩
      rw [if_pos halarmed]
      exact (BitVec.add_zero _).symm
    | false =>
      rw [if_neg (Bool.eq_false_iff.1 halarmed)] at hexec
      refine ⟨_, hexec, hlinks.state, (if_pos hfew).mpr ⟨hport, ?_⟩⟩
      rw [if_neg (Bool.eq_false_iff.1 halarmed)]
      exact Dev.portAlarm_alarms ..
  by_cases hwired : s.dev.wired n.val r = false
  · obtain ⟨hlinks, hport⟩ := hsets _
    refine ⟨_, exec_fabricLinkUp_miswired hrun hlink hfew hwired, hlinks.state, (if_neg hfew).mpr ((if_pos hwired).mpr ?_)⟩
    exact ⟨congrArg Port.link hport, congrArg Port.lanes hport, congrArg Port.peerPhys hport, Dev.portAlarm_alarms ..⟩
  have hwired' := Bool.eq_true_of_not_eq_false hwired
  by_cases hdelay : 600 < r.delay
  · obtain ⟨hlinks, hport⟩ := hsets _
    refine ⟨_, exec_fabricLinkUp_tooLong hrun hlink hfew hwired' hdelay, hlinks.state,
      (if_neg hfew).mpr ((if_neg hwired).mpr ((if_pos hdelay).mpr ?_))⟩
    exact ⟨congrArg Port.link hport, congrArg Port.lanes hport, Dev.portAlarm_alarms ..⟩
  · have hport := ((s.dev.setPort n.val ((s.dev.port n.val).comeUp r (r.lanes &&& (s.dev.port n.val).cfg.mask) s.dev.phys
      ((s.dev.port n.val).missing r))).pumpsTo_pump n.val).port
    rw [s.dev.port_setPort_same] at hport
    refine ⟨_, exec_fabricLinkUp_up hrun hlink hfew hwired' hdelay, ((s.dev.linksTo_setPort ..).trans (Dev.linksTo_pump ..)).state,
      (if_neg hfew).mpr ((if_neg hwired).mpr ((if_neg hdelay).mpr ?_))⟩
    exact ⟨congrArg Port.link hport, congrArg Port.lanes hport, congrArg Port.delay hport, congrArg Port.rxSeq hport,
      congrArg Port.refusing hport, congrArg Port.alarmed hport⟩

omit hlink

theorem ends_portRetrain (hdue : let p := s.dev.port n.val
      p.link = .off ∨ (p.link = .down ∨ p.link = .training) ∧ s.dev.past p.trainTick 1000 = true ∨
        p.link = .miswired ∧ s.dev.past p.trainTick 1000000 = true) : Ends (.portRetrain n) s (fun t =>
    LinkFrame s n.val t ∧
    t.dev.port n.val = { s.dev.port n.val with link := .training, lanes := 0, trainTick := s.dev.phys }) := by
  have hretry : s.dev.retryDue (s.dev.port n.val) = true := by
    dsimp only at hdue
    unfold Dev.retryDue
    rcases hdue with hoff | ⟨hlink | hlink, hpast⟩ | ⟨hlink, hpast⟩
    · simp [hoff]
    · simp [hlink, hpast]
    · simp [hlink, hpast]
    · simp [hlink, hpast]
  have hexec : exec (.portRetrain n) s = answer s (s.dev.setPort n.val
      { s.dev.port n.val with link := .training, lanes := 0, trainTick := s.dev.phys }) :=
    (show exec (.portRetrain n) s = execPortRetrain n s from rfl).trans (congrArg (answer s) (if_pos (by rw [hrun, hretry]; rfl)))
  exact ⟨_, hexec, (s.dev.linksTo_setPort ..).state, s.dev.port_setPort_same ..⟩

end Training

/-! ### Replay (R273) -/

section Replay

variable {d : Dev} {n : Nat} {q : BitVec 12}

/-- RETRY will stand in the records of the ops that sent some packets (R98). -/
def Dev.markRetries (d : Dev) (l : List Packet) : Dev := l.foldl (fun d k => d.markRetry (d.origin k)) d

theorem Dev.markRetries_eq (d : Dev) (l : List Packet) : d.markRetries l = { d with rings := (d.markRetries l).rings } := by
  refine List.foldlRecOn (motive := fun t : Dev => t = { d with rings := t.rings }) _ _ rfl fun t ht k _ => ?_
  have hmark : ∀ o, t.markRetry o = { t with rings := (t.markRetry o).rings } := fun o => by cases o <;> rfl
  exact (hmark _).trans (congrArg (fun x : Dev => { x with rings := (t.markRetry (t.origin k)).rings }) ht)

/-- The port whose flits from one on are sent again. -/
def Port.replayed (p : Port) (q : BitVec 12) : Port :=
  let again := p.flights.dropWhile (fun f => f.seq != q)
  { p with flights := p.flights.takeWhile (fun f => f.seq != q) ++ again.map Flight.again, cnt := bump p.cnt 0x58 again.length }

/-- What a replay puts out. -/
def Port.replay (p : Port) (n : Nat) (q : BitVec 12) : Output :=
  .replay n ((p.flights.dropWhile (fun f => f.seq != q)).map (fun f => (Flight.again f).flit.bytes))

theorem Dev.replayFrom_of_any (h : (d.port n).flights.any (fun f => f.seq == q) = true) : d.replayFrom n q =
    ({ (d.setPort n ((d.port n).replayed q)).markRetries
        (((d.port n).flights.dropWhile (fun f => f.seq != q)).map (fun f => f.packet)).eraseDups with
      time := { d.time with spreadLost := true } } : Dev).emit ((d.port n).replay n q) := by
  have htime := congrArg Dev.time ((d.setPort n ((d.port n).replayed q)).markRetries_eq
    (((d.port n).flights.dropWhile (fun f => f.seq != q)).map (fun f => f.packet)).eraseDups)
  refine (if_pos h).trans ?_
  exact congrArg (fun x : TimeBlk => ({ (d.setPort n ((d.port n).replayed q)).markRetries
    (((d.port n).flights.dropWhile (fun f => f.seq != q)).map (fun f => f.packet)).eraseDups with
      time := { x with spreadLost := true } } : Dev).emit ((d.port n).replay n q)) htime

theorem Dev.replayFrom_of_not_any (h : ¬ (d.port n).flights.any (fun f => f.seq == q) = true) : d.replayFrom n q = d := if_neg h

theorem Dev.replayFrom_spec (h : (d.port n).flights.any (fun f => f.seq == q) = true) :
    d.LinksTo n (d.replayFrom n q) ∧ (d.replayFrom n q).port n = (d.port n).replayed q ∧
      (d.replayFrom n q).out = (d.port n).replay n q :: d.out := by
  rw [Dev.replayFrom_of_any h, Dev.markRetries_eq]
  exact ⟨⟨rfl, (d.linksTo_setPort n _).others⟩, d.port_setPort_same n _, rfl⟩

/-- A replay leaves its port but for the replay buffer and the counters, and takes back no output. -/
theorem Dev.replayFrom_keeps (d : Dev) (n : Nat) (q : BitVec 12) : d.LinksTo n (d.replayFrom n q) ∧
    (∃ flights cnt, (d.replayFrom n q).port n = { d.port n with flights := flights, cnt := cnt }) ∧
    ∀ o ∈ d.out, o ∈ (d.replayFrom n q).out := by
  by_cases h : (d.port n).flights.any (fun f => f.seq == q) = true
  · obtain ⟨hlinks, hport, hout⟩ := Dev.replayFrom_spec h
    exact ⟨hlinks, ⟨_, _, hport⟩, fun o ho => hout ▸ List.mem_cons_of_mem _ ho⟩
  · rw [Dev.replayFrom_of_not_any h]
    exact ⟨d.linksTo_refl n, ⟨_, _, rfl⟩, fun o => id⟩

/-- The flits from the one named on are those that a replay counts. -/
theorem Port.dropWhile_replayed (p : Port) (q : BitVec 12) : (p.replayed q).flights.dropWhile (fun f => f.seq != q) =
    (p.flights.dropWhile (fun f => f.seq != q)).map Flight.again := by
  have hkept : ∀ f ∈ p.flights.takeWhile (fun f => f.seq != q), (f.seq != q) = true :=
    fun f hf => List.mem_takeWhile_imp (p := fun f : Flight => f.seq != q) hf
  have hagain : ∀ l : List Flight, (l.dropWhile (fun f => f.seq != q)).map Flight.again =
      ((l.dropWhile (fun f => f.seq != q)).map Flight.again).dropWhile (fun f => f.seq != q) := by
    intro l
    induction l with
    | nil => rfl
    | cons f l ih =>
      rw [List.dropWhile_cons]
      split
      next => exact ih
      next h => exact (List.dropWhile_cons_of_neg (p := fun f : Flight => f.seq != q) (a := f.again) h).symm
  rw [hagain, Port.replayed, List.dropWhile_append_of_pos hkept]

/-- Each flit keeps its number, and counts one more replay from the one named on. -/
theorem Port.map_replayed (p : Port) (q : BitVec 12) : (p.replayed q).flights.map (fun f => (f.seq, f.replays)) =
    (p.flights.takeWhile (fun f => f.seq != q)).map (fun f => (f.seq, f.replays)) ++
      (p.flights.dropWhile (fun f => f.seq != q)).map (fun f => (f.seq, f.replays + 1)) := by
  rw [Port.replayed, List.map_append, List.map_map]
  rfl

end Replay

section Nak

variable {s : State} {n : Fin 48} {q : BitVec 12}

theorem ends_flitNak (hup : (s.dev.port n.val).up = true) (hany : (s.dev.port n.val).flights.any (fun f => f.seq == q) = true) :
    Ends (.flitNak n q) s (fun t =>
      LinkFrame s n.val t ∧
      (t.dev.port n.val).flights.map (fun f => (f.seq, f.replays)) =
        ((s.dev.port n.val).flights.takeWhile (fun f => f.seq != q)).map (fun f => (f.seq, f.replays)) ++
        ((s.dev.port n.val).flights.dropWhile (fun f => f.seq != q)).map (fun f => (f.seq, f.replays + 1)) ∧
      t.dev.out = .replay n.val (((t.dev.port n.val).flights.dropWhile (fun f => f.seq != q)).map (fun f => f.flit.bytes)) ::
        s.dev.out) := by
  obtain ⟨hlinks, hport, hout⟩ := Dev.replayFrom_spec hany
  have hexec : exec (.flitNak n q) s = answer s (s.dev.replayFrom n.val q) :=
    (show exec (.flitNak n q) s = execFlitNak n q s from rfl).trans (congrArg (answer s) (if_pos hup))
  refine ⟨_, hexec, hlinks.state, ?_, hout.trans ?_⟩
  · dsimp only
    rw [hport, Port.map_replayed]
  · dsimp only
    rw [hport, Port.dropWhile_replayed, List.map_map]
    rfl

end Nak

/-! ### Flits that arrive (R271, R273) -/

/-- The flit's credits take effect, and its acknowledgement. -/
def Port.creditedBy (p : Port) (f : Flit) : Port :=
  match f.credit with | some (vc, level, k) => p.credited vc.toNat level k.toNat | none => p
def Port.ackedBy (p : Port) (f : Flit) (now : Tick) : Port := match f.ack with | some (false, q) => p.acked q now | _ => p

/-- The port after the flit expected, of a packet: the flit is gathered and counted, and its credits and acknowledgement take effect. -/
def Port.taken (p : Port) (f : Flit) (now : Tick) : Port :=
  (Port.creditedBy { p.gather f with rxSeq := p.rxSeq + 1, refusing := false, cnt := bump p.cnt 0x48 1 } f).ackedBy f now

/-- Ports that agree in their link, the number expected, and whether a replay is awaited. -/
def Port.SameRx (p q : Port) : Prop := q.link = p.link ∧ q.rxSeq = p.rxSeq ∧ q.refusing = p.refusing

theorem Port.SameRx.trans {p q r : Port} (h : p.SameRx q) (h' : q.SameRx r) : p.SameRx r :=
  ⟨h'.1.trans h.1, h'.2.1.trans h.2.1, h'.2.2.trans h.2.2⟩

theorem Port.sameRx_creditedBy (p : Port) (f : Flit) : p.SameRx (p.creditedBy f) := by
  unfold Port.creditedBy
  split <;> exact ⟨rfl, rfl, rfl⟩

theorem Port.sameRx_acked (p : Port) (q : BitVec 12) (now : Tick) : p.SameRx (p.acked q now) := by
  unfold Port.acked
  split <;> exact ⟨rfl, rfl, rfl⟩

theorem Port.sameRx_ackedBy (p : Port) (f : Flit) (now : Tick) : p.SameRx (p.ackedBy f now) := by
  unfold Port.ackedBy
  split
  · exact p.sameRx_acked _ now
  · exact ⟨rfl, rfl, rfl⟩

theorem Port.taken_rx (p : Port) (f : Flit) (now : Tick) :
    (p.taken f now).link = p.link ∧ (p.taken f now).rxSeq = p.rxSeq + 1 ∧ (p.taken f now).refusing = false :=
  (Port.sameRx_creditedBy _ f).trans (Port.sameRx_ackedBy _ f now)

/-- A NAK that a flit carries starts a replay. -/
def Dev.heeds (d : Dev) (n : Nat) (f : Flit) : Dev := match f.ack with | some (true, q) => d.replayFrom n q | _ => d

theorem Dev.heeds_keeps (d : Dev) (n : Nat) (f : Flit) : d.LinksTo n (d.heeds n f) ∧
    (∃ flights cnt, (d.heeds n f).port n = { d.port n with flights := flights, cnt := cnt }) ∧ ∀ o ∈ d.out, o ∈ (d.heeds n f).out := by
  unfold Dev.heeds
  split
  · exact d.replayFrom_keeps n _
  · exact ⟨d.linksTo_refl n, ⟨_, _, rfl⟩, fun o => id⟩

section Flits

variable {s : State} {n : Fin 48} {b : List Byte} (hup : (s.dev.port n.val).up = true)
include hup

theorem exec_flitReceive_bad (hcrc : (flitOf b).crcOk = false) : exec (.flitReceive n b) s =
    answer s ((s.dev.setPort n.val { s.dev.port n.val with cnt := bump (s.dev.port n.val).cnt 0x50 1, refusing := true }).emit
      (.idle n.val (idleFlit true (s.dev.port n.val).rxSeq).bytes)) := by
  refine (show exec (.flitReceive n b) s = execFlitReceive n b s from rfl).trans ?_
  unfold execFlitReceive
  dsimp only
  rw [if_neg (by simp [hup]), if_pos (by simp [hcrc])]

variable (hcrc : (flitOf b).crcOk = true) (hvc : (flitOf b).vc ≠ 7)
include hcrc hvc

theorem exec_flitReceive_stray (hseq : (flitOf b).seq ≠ (s.dev.port n.val).rxSeq) : exec (.flitReceive n b) s = answer s s.dev := by
  refine (show exec (.flitReceive n b) s = execFlitReceive n b s from rfl).trans ?_
  unfold execFlitReceive
  dsimp only
  rw [if_neg (by simp [hup]), if_neg (by simp [hcrc]), if_pos (by rw [beq_eq_false_iff_ne.2 hvc]; simpa using hseq)]

theorem exec_flitReceive_next (hseq : (flitOf b).seq = (s.dev.port n.val).rxSeq) : exec (.flitReceive n b) s =
    answer s ((((s.dev.setPort n.val ((s.dev.port n.val).taken (flitOf b) s.dev.phys)).emit
      (.idle n.val (idleFlit false (flitOf b).seq).bytes)).heeds n.val (flitOf b)).pump n.val) := by
  have hidle : ((flitOf b).vc == 7) = false := beq_eq_false_iff_ne.2 hvc
  refine (show exec (.flitReceive n b) s = execFlitReceive n b s from rfl).trans ?_
  unfold execFlitReceive
  dsimp only
  rw [if_neg (by simp [hup]), if_neg (by simp [hcrc]), if_neg (by simp [hseq])]
  simp only [hidle, Bool.false_eq_true, if_false]
  rfl

theorem ends_flitReceive_next (hseq : (flitOf b).seq = (s.dev.port n.val).rxSeq) : Ends (.flitReceive n b) s (fun t =>
    LinkFrame s n.val t ∧
    (t.dev.port n.val).rxSeq = (s.dev.port n.val).rxSeq + 1 ∧ (t.dev.port n.val).refusing = false ∧
    .idle n.val (idleFlit false (flitOf b).seq).bytes ∈ t.dev.out ∧ (t.dev.port n.val).link = (s.dev.port n.val).link) := by
  let d := (s.dev.setPort n.val ((s.dev.port n.val).taken (flitOf b) s.dev.phys)).emit (.idle n.val (idleFlit false (flitOf b).seq).bytes)
  have hset : s.dev.LinksTo n.val d := ⟨rfl, (s.dev.linksTo_setPort n.val _).others⟩
  have hport : d.port n.val = (s.dev.port n.val).taken (flitOf b) s.dev.phys := s.dev.port_setPort_same n.val _
  obtain ⟨hheeds, ⟨flights, cnt, hheeded⟩, hkept⟩ := d.heeds_keeps n.val (flitOf b)
  have hpump := (d.heeds n.val (flitOf b)).pumpsTo_pump n.val
  have hleft := hpump.port
  obtain ⟨sent, hout, -⟩ := hpump.sends
  obtain ⟨hlink, hseq', hrefusing⟩ := Port.taken_rx (s.dev.port n.val) (flitOf b) s.dev.phys
  rw [hheeded, hport] at hleft
  refine ⟨_, exec_flitReceive_next hup hcrc hvc hseq, ((hset.trans hheeds).trans (Dev.linksTo_pump ..)).state,
    (congrArg Port.rxSeq hleft).trans hseq', (congrArg Port.refusing hleft).trans hrefusing, ?_, (congrArg Port.link hleft).trans hlink⟩
  exact hout ▸ List.mem_append_right _ (hkept _ List.mem_cons_self)

omit hcrc hvc

theorem ends_flitReceive_bad (hcrc : (flitOf b).crcOk = false) : Ends (.flitReceive n b) s (fun t =>
    LinkFrame s n.val t ∧
    t.dev.out = .idle n.val (idleFlit true (s.dev.port n.val).rxSeq).bytes :: s.dev.out ∧
    t.dev.port n.val = { s.dev.port n.val with cnt := bump (s.dev.port n.val).cnt 0x50 1, refusing := true }) := by
  have hlinks : s.dev.LinksTo n.val ((s.dev.setPort n.val { s.dev.port n.val with
      cnt := bump (s.dev.port n.val).cnt 0x50 1, refusing := true }).emit (.idle n.val (idleFlit true (s.dev.port n.val).rxSeq).bytes)) :=
    ⟨rfl, (s.dev.linksTo_setPort n.val _).others⟩
  exact ⟨_, exec_flitReceive_bad hup hcrc, hlinks.state, rfl, s.dev.port_setPort_same ..⟩

end Flits

/-! ### Links that fail (R274, R388) -/

section Down

variable {d t u : Dev} {n : Nat}

/-- What the hub does with packets, as the links see it: nothing. -/
def Dev.HubsTo (d t : Dev) : Prop := d.PassesTo t ∧ t.linkLanes = d.linkLanes

theorem Dev.HubsTo.trans (h : d.HubsTo t) (h' : t.HubsTo u) : d.HubsTo u := ⟨h.1.trans h'.1, h'.2.trans h.2⟩

theorem Dev.hubsTo_foldl {α : Type} (d : Dev) (l : List α) (f : Dev → α → Dev) (h : ∀ x a, Dev.HubsTo x (f x a)) :
    d.HubsTo (l.foldl f d) :=
  List.foldlRecOn (motive := d.HubsTo) l f ⟨d.passesTo_refl, rfl⟩ fun x hx a _ => hx.trans (h x a)

theorem Dev.hubsTo_discard (d : Dev) (cause : Nat) (port : Option Nat) (k : Packet) : d.HubsTo (d.discard cause port k) :=
  ⟨d.passesTo_discard cause port k, (Dev.hubKeeps_linkLanes _).discard rfl cause port k⟩

theorem Dev.hubsTo_follow (d : Dev) (k : Packet) (r : Route) : d.HubsTo (d.follow k r) :=
  ⟨d.passesTo_follow k r, (Dev.hubKeeps_linkLanes _).follow rfl k r⟩

/-- The port's link is down, its buffers empty, and the time base told where it was its upstream. -/
def Dev.fallen (d : Dev) (n : Nat) : Dev :=
  let t := d.setPort n { d.port n with
    link := .down, lanes := 0, flights := [], arriving := [], waiting := [], deDepth := 0, loop := none,
    cnt := bump (d.port n).cnt 0x70 1, trainTick := d.phys }
  if t.time.upPort.toNat = n then t.upstreamLost else t

theorem Dev.fallen_spec (d : Dev) (n : Nat) : d.LinksTo n (d.fallen n) ∧ (d.fallen n).linkLanes n = (.down, 0) := by
  have hset := d.linksTo_setPort n { d.port n with
    link := .down, lanes := 0, flights := [], arriving := [], waiting := [], deDepth := 0, loop := none,
    cnt := bump (d.port n).cnt 0x70 1, trainTick := d.phys }
  have hdown := fun x : Port => congrArg (fun y : Port => (y.link, y.lanes)) (d.port_setPort_same n x)
  unfold Dev.fallen
  dsimp only
  split
  · exact ⟨hset.trans (Dev.linksTo_upstreamLost _ n), (congrFun (Dev.linkLanes_congr (Dev.upstreamLost_ports _)) n).trans (hdown _)⟩
  · exact ⟨hset, hdown _⟩

/-- What the hub does with the packets of a link that has gone down. -/
theorem Dev.hubsTo_linkDown (d : Dev) (n : Nat) : (d.fallen n).HubsTo (d.linkDown n) :=
  ((Dev.hubsTo_foldl (d.fallen n) _ _ fun x k => x.hubsTo_discard 1 (some n) k).trans
    (Dev.hubsTo_foldl _ (d.port n).waiting _ fun x k => x.hubsTo_discard 3 (some n) k)).trans
      (Dev.hubsTo_foldl _ (d.port n).arriving _ fun x e => x.hubsTo_follow (truncated e.2) _)

/-- The link goes DOWN, and no other changes. -/
theorem Dev.linkDown_spec (d : Dev) (n : Nat) :
    d.LinksTo n (d.linkDown n) ∧ ((d.linkDown n).port n).link = .down ∧ ((d.linkDown n).port n).lanes = 0 := by
  obtain ⟨hlinks, hdown⟩ := d.fallen_spec n
  obtain ⟨hpasses, hstands⟩ := d.hubsTo_linkDown n
  exact ⟨hlinks.trans (hpasses.linksTo hstands n), Prod.mk.inj ((congrFun hstands n).trans hdown)⟩

/-- The fate of a failing link: three lanes where DEGRADE lets the failing one go, else DOWN. -/
theorem Dev.linkFate_spec (d : Dev) (n : Nat) (lane : Option (Fin 4)) : d.LinksTo n (d.linkFate n lane) ∧
    match lane with
    | some l => if (d.port n).cfg.degrade = 0 ∧ (d.port n).link = .up4 then
          ((d.linkFate n lane).port n).link = .up3 ∧ ((d.linkFate n lane).port n).loop = some l ∧
            ((d.linkFate n lane).port n).lanes = (d.port n).lanes &&& ~~~ BitVec.ofNat 4 (2 ^ l.val)
        else ((d.linkFate n lane).port n).link = .down ∧ ((d.linkFate n lane).port n).lanes = 0
    | none => ((d.linkFate n lane).port n).link = .down ∧ ((d.linkFate n lane).port n).lanes = 0 := by
  cases lane with
  | none => exact d.linkDown_spec n
  | some l =>
    by_cases hdegrade : (d.port n).cfg.degrade = 0 ∧ (d.port n).link = .up4
    case neg =>
      have hfate : d.linkFate n (some l) = d.linkDown n := if_neg (by simpa using hdegrade)
      obtain ⟨hlinks, hdown⟩ := d.linkDown_spec n
      rw [hfate]
      exact ⟨hlinks, (if_neg hdegrade).mpr hdown⟩
    let x : Port := { d.port n with
      link := .up3, lanes := (d.port n).lanes &&& ~~~ BitVec.ofNat 4 (2 ^ l.val), loop := some l, ackTick := d.phys,
      flights := (d.port n).flights.map (fun f => { f with replays := 0 }) }
    have hfate : d.linkFate n (some l) =
        match (d.port n).flights with | f :: _ => (d.setPort n x).replayFrom n f.seq | [] => d.setPort n x :=
      if_pos (by simpa using hdegrade)
    have hset := d.linksTo_setPort n x
    have hport := d.port_setPort_same n x
    cases hflights : (d.port n).flights with
    | nil =>
      rw [hflights] at hfate
      rw [hfate]
      exact ⟨hset, (if_pos hdegrade).mpr ⟨congrArg Port.link hport, congrArg Port.loop hport, congrArg Port.lanes hport⟩⟩
    | cons f l' =>
      rw [hflights] at hfate
      obtain ⟨hlinks, ⟨flights, cnt, hleft⟩, -⟩ := (d.setPort n x).replayFrom_keeps n f.seq
      rw [hport] at hleft
      rw [hfate]
      exact ⟨hset.trans hlinks, (if_pos hdegrade).mpr ⟨congrArg Port.link hleft, congrArg Port.loop hleft, congrArg Port.lanes hleft⟩⟩

end Down

section Loss

variable {s : State} {n : Fin 48}

theorem exec_linkRetryExhausted {lane : Option (Fin 4)} (hup : (s.dev.port n.val).up = true)
    (hany : (s.dev.port n.val).flights.any (fun f => Nat.ble (s.dev.port n.val).cfg.retryLimit.toNat f.replays) = true) :
    exec (.linkRetryExhausted n lane) s = answer s (s.dev.linkFate n.val lane) :=
  (show exec (.linkRetryExhausted n lane) s = execLinkRetryExhausted n lane s from rfl).trans
    (congrArg (answer s) (if_pos (by rw [hup, hany]; rfl)))

theorem exec_linkAckTimeout {lane : Option (Fin 4)} (hup : (s.dev.port n.val).up = true) (hflights : (s.dev.port n.val).flights ≠ [])
    (hpast : s.dev.past (s.dev.port n.val).ackTick (s.dev.port n.val).cfg.linkTo.toNat = true) :
    exec (.linkAckTimeout n lane) s = answer s (s.dev.linkFate n.val lane) :=
  (show exec (.linkAckTimeout n lane) s = execLinkAckTimeout n lane s from rfl).trans
    (congrArg (answer s) (if_pos (by simp [hup, hflights, hpast])))

theorem exec_leavingNoticeReceive (hup : (s.dev.port n.val).up = true) :
    exec (.leavingNoticeReceive n) s = answer s (s.dev.linkDown n.val) :=
  (show exec (.leavingNoticeReceive n) s = execLeavingNoticeReceive n s from rfl).trans (congrArg (answer s) (if_pos hup))

/-- The loopback of the port has ended. -/
def Dev.looped (d : Dev) (n : Nat) : Dev := d.setPort n { d.port n with loop := none }

/-- The link under the loopback is recorded as failed (R381). -/
def Dev.portFailed (d : Dev) (n : Nat) : Dev := { d with store := { d.store with ports := d.store.ports ||| BitVec.ofNat 48 (2 ^ n) } }

theorem Dev.alarm_cond (d : Dev) (b r u : Nat) (v : Word) : (d.alarm b r u v).health.cond = d.health.cond := by
  simp only [Dev.alarm, Dev.raise_health]
  rw [Health.enqueue_eq]

variable (hloop : (s.dev.port n.val).loop.isSome = true)
include hloop

theorem exec_loopbackDone_pass : exec (.loopbackDone n true) s = answer s ((s.dev.looped n.val).portAlarm n.val) :=
  (show exec (.loopbackDone n true) s = execLoopbackDone n true s from rfl).trans (if_pos hloop)

theorem exec_loopbackDone_fail : exec (.loopbackDone n false) s = answer s (((s.dev.looped n.val).portFailed n.val).condArises 7) :=
  (show exec (.loopbackDone n false) s = execLoopbackDone n false s from rfl).trans (if_pos hloop)

theorem ends_loopbackDone_pass : Ends (.loopbackDone n true) s (fun t =>
    LinkFrame s n.val t ∧
    t.dev.port n.val = { s.dev.port n.val with loop := none } ∧
    t.dev.health.alarms = s.dev.health.alarms + 1 ∧ t.dev.health.cond = s.dev.health.cond) :=
  ⟨_, exec_loopbackDone_pass hloop, ((s.dev.linksTo_setPort n.val _).trans (Dev.linksTo_portAlarm ..)).state,
    (Dev.port_portAlarm ..).trans (s.dev.port_setPort_same ..), Dev.portAlarm_alarms .., Dev.alarm_cond ..⟩

theorem ends_loopbackDone_fail : Ends (.loopbackDone n false) s (fun t =>
    t.dev.port n.val = { s.dev.port n.val with loop := none } ∧ t.dev.health.cond.getLsbD 7 = true ∧
      t.dev.store.ports = s.dev.store.ports ||| BitVec.ofNat 48 (2 ^ n.val) ∧ t.mem = s.mem ∧ t.pending = s.pending) := by
  let d := (s.dev.looped n.val).portFailed n.val
  have hport : d.port n.val = { s.dev.port n.val with loop := none } := s.dev.port_setPort_same ..
  have hcond : (d.condArises 7).health.cond = d.health.cond ||| BitVec.ofNat 64 (2 ^ 7) := congrArg Health.cond (d.condArises_health 7)
  refine ⟨_, exec_loopbackDone_fail hloop, (Dev.port_congr (d.condArises_ports 7) n.val).trans hport, ?_,
    congrArg SignedStore.ports (d.condArises_store 7), rfl, rfl⟩
  exact (congrArg (BitVec.getLsbD · 7) hcond).trans (by rw [BitVec.getLsbD_or, getLsbD_ofNat_two_pow_self (by decide), Bool.or_true])

end Loss

/-- Settles O38, a lemma for each event of a link. -/
theorem linksTrainRetryAndGoDown : Obligations.LinksTrainRetryAndGoDown := by
  unfold Obligations.LinksTrainRetryAndGoDown
  intro s n
  refine ⟨fun r => ends_fabricLinkUp, ends_portRetrain, fun b hup => ⟨ends_flitReceive_bad hup, ?_, ends_flitReceive_next hup⟩,
    fun q => ends_flitNak, fun lane hup => ⟨fun hany => ?_, fun hflights hpast => ?_⟩, fun hup => ?_, fun hloop =>
      ⟨ends_loopbackDone_pass hloop, ends_loopbackDone_fail hloop⟩⟩
  · exact fun hcrc hvc hseq => ⟨_, exec_flitReceive_stray hup hcrc hvc hseq, rfl⟩
  · obtain ⟨hlinks, hfate⟩ := s.dev.linkFate_spec n.val lane
    exact ⟨_, exec_linkRetryExhausted hup hany, hlinks.state, hfate⟩
  · obtain ⟨hlinks, hfate⟩ := s.dev.linkFate_spec n.val lane
    exact ⟨_, exec_linkAckTimeout hup hflights hpast, hlinks.state, hfate⟩
  · obtain ⟨hlinks, hdown⟩ := s.dev.linkDown_spec n.val
    exact ⟨_, exec_leavingNoticeReceive hup, hlinks.state, hdown⟩

end Sys2Proof.Machine

/-! ## O39: the headers of packets

Which fields a rewrite of the header leaves (Table 12.3), and the header of a notice (R281). -/
namespace Sys2Proof

section Headers

open Machine

/-- A rewrite leaves the bits below it. -/
theorem Packet.put_hdr_mod (k : Packet) {lo : Nat} (w v : Nat) (hlo : lo ≤ 256) :
    (k.put lo w v).hdr.toNat % 2 ^ lo = k.hdr.toNat % 2 ^ lo := by
  have hle : 2 ^ lo * (k.hdr.toNat / 2 ^ lo % 2 ^ w) ≤ k.hdr.toNat :=
    (Nat.mul_le_mul_left _ (Nat.mod_le _ _)).trans (Nat.mul_div_le _ _)
  rw [Packet.put, BitVec.toNat_ofNat, Nat.mod_mod_of_dvd _ (pow_dvd_pow 2 hlo), Nat.add_mul_mod_self_right, Nat.mul_comm _ (2 ^ lo),
    Nat.sub_mul_mod hle]

theorem Packet.de_eq (k : Packet) : k.de = (k.hdr.toNat % 2 ^ 2 / 2 == 1) := by
  have h : k.hdr.toNat / 2 ^ (8 * 0) % 2 ^ (8 * 1) / 2 ^ 1 % 2 = k.hdr.toNat % 2 ^ 2 / 2 := by omega
  exact congrArg (· == 1) h

/-- DE stands in the two lowest bits, so that no rewrite above them touches it. -/
theorem Packet.de_put (k : Packet) {lo : Nat} (w v : Nat) (h2 : 2 ≤ lo) (hlo : lo ≤ 256) : (k.put lo w v).de = k.de := by
  have h := congrArg (· % 2 ^ 2) (k.put_hdr_mod w v hlo)
  simp only [Nat.mod_mod_of_dvd _ (pow_dvd_pow 2 h2)] at h
  rw [Packet.de_eq, Packet.de_eq, h]

theorem Packet.de_hop (k : Packet) : k.hop.de = k.de := k.de_put 4 _ (by decide) (by decide)

/-- The header of a notice (R281, Table 12.3). -/
theorem Packet.hdr_notice (d : Dev) (cause : Nat) (port : Option Nat) (k : Packet) {dst : Nat} (hdst : dst < 2 ^ 20) :
    (d.notice cause port k dst).hdr.toNat = 128 + dst * 2 ^ 32 + k.slog * 2 ^ 64 + d.routing.log.toNat * 2 ^ 96 +
      d.routing.phys.toNat * 2 ^ 128 + 64 * 2 ^ 192 + 5 * 2 ^ 232 := by
  have hlog := d.routing.log.isLt
  have hphys := d.routing.phys.isLt
  have hslog : k.slog < 2 ^ 20 := Nat.mod_lt _ (by decide)
  have hlength : ∀ a b c e : List Byte, ([BitVec.ofNat 8 cause, 0] ++ a ++ b ++ List.replicate 8 0 ++ c ++ e).length =
      10 + a.length + b.length + c.length + e.length := fun a b c e => by simp; omega
  have hpayload : (d.notice cause port k dst).payload.length = 64 := by
    refine (hlength _ _ _ _).trans ?_
    simp [slice]
  have hhdr : (d.notice cause port k dst).hdr = BitVec.ofNat 256 (4 * 32 + 0 * 4 + 0 * 2 + 0 + (0 * 64 + 0 * 32) * 2 ^ 8 + 0 * 2 ^ 16 +
      dst * 2 ^ 32 + k.slog * 2 ^ 64 + d.routing.log.toNat * 2 ^ 96 + d.routing.phys.toNat * 2 ^ 128 +
      (d.notice cause port k dst).payload.length * 2 ^ 192 + 0 * 2 ^ 208 + 0 * 2 ^ 231 + 5 * 2 ^ 232) := Eq.refl _
  rw [hhdr, hpayload, BitVec.toNat_ofNat, Nat.mod_eq_of_lt (by omega)]
  omega

/-- A notice is fresh: not droppable, not detoured, no hop made. -/
theorem Packet.notice_fresh (d : Dev) (cause : Nat) (port : Option Nat) (k : Packet) {dst : Nat} (hdst : dst < 2 ^ 20) :
    (d.notice cause port k dst).de = false ∧ (d.notice cause port k dst).detoured = false ∧ (d.notice cause port k dst).hops = 0 := by
  have hlog := d.routing.log.isLt
  have hphys := d.routing.phys.isLt
  have hslog : k.slog < 2 ^ 20 := Nat.mod_lt _ (by decide)
  have hhdr := Packet.hdr_notice d cause port k hdst
  refine ⟨?_, ?_, ?_⟩
  · refine beq_eq_false_iff_ne.2 ?_
    rw [Packet.f, hhdr]
    omega
  · refine beq_eq_false_iff_ne.2 ?_
    rw [Packet.f, hhdr]
    omega
  · rw [Packet.hops, Packet.f, hhdr, bits]
    omega

/-- Source, destination and class of a packet, under which its detours are listed (R277). -/
def Packet.detourKey (k : Packet) : BitVec 20 × BitVec 20 × Nat := (BitVec.ofNat 20 k.sphys, BitVec.ofNat 20 k.dst, k.cls)

end Headers

end Sys2Proof

/-! ### Routes and counters of the hub -/
namespace Sys2Proof.Machine

theorem lookD_bump_same (t : Tbl Word) (off k : Nat) : Tbl.lookD (bump t off k) off 0 = Tbl.lookD t off 0 + BitVec.ofNat 64 k :=
  Tbl.lookD_put_same ..

theorem lookD_bump_other (t : Tbl Word) {off j : Nat} (k : Nat) (h : j ≠ off) : Tbl.lookD (bump t off k) j 0 = Tbl.lookD t j 0 :=
  Tbl.lookD_put_other _ _ _ h

/-- What becomes of a packet that has hops to go: where it leaves it is as droppable as it was, and where it is dropped the bound on hops is
not the cause. -/
def Route.Goes (de : Bool) : Route → Prop
  | .out _ k => k.de = de
  | .detour _ k _ => k.de = de
  | .drop c _ => c = 3 ∨ c = 6
  | _ => True

section Routes

variable (d : Dev) (k : Packet)

theorem Route.goes_ite {de : Bool} {c : Prop} [Decidable c] {x y : Route} (hx : x.Goes de) (hy : y.Goes de) : (if c then x else y).Goes de := by
  split
  · exact hx
  · exact hy

theorem Dev.localHop_goes (target : Nat) : (d.localHop k target).Goes k.de := Route.goes_ite k.de_hop (.inl rfl)

theorem Dev.spanHop_goes (entry : Nat) : (d.spanHop k entry).Goes k.de := by
  have hup : (if k.level then k.put 3 1 1 else k.put 4 1 1).de = k.de := by
    split
    · exact k.de_put 1 1 (by decide) (by decide)
    · exact k.de_put 1 1 (by decide) (by decide)
  unfold Dev.spanHop
  lift_lets
  intro p up k1 away waits
  have hout : up.hop.de = k.de := up.de_hop.trans hup
  have haway : ∀ p2 forced, (away p2 forced).Goes k.de := by
    intro p2 forced
    refine (Packet.de_hop _).trans (((Packet.de_put _ _ _ ?_ ?_).trans ((Packet.de_put _ _ _ ?_ ?_).trans (up.de_put _ _ ?_ ?_))).trans hup)
    all_goals decide
  refine Route.goes_ite trivial (Route.goes_ite ?_ ?_)
  · split
    · exact Route.goes_ite (haway _ _) hout
    · exact hout
  · split
    · exact Route.goes_ite (haway _ _) (.inl rfl)
    · exact .inl rfl

variable {k}

theorem Dev.routeOn_goes (hhops : k.hops < 8) : (d.routeOn k).Goes k.de := by
  unfold Dev.routeOn
  dsimp only
  rw [if_neg (not_le.2 hhops)]
  refine Route.goes_ite (Route.goes_ite (.inl rfl) (Route.goes_ite (Route.goes_ite ?_ (.inl rfl)) (d.localHop_goes k _)))
    (Route.goes_ite (d.localHop_goes k _) (Route.goes_ite (.inl rfl) (Route.goes_ite (.inl rfl)
      (Route.goes_ite (d.spanHop_goes k _) (d.localHop_goes k _)))))
  exact (Packet.de_hop _).trans (k.de_put 1 1 (by decide) (by decide))

/-- The route of a packet that has met no detour is, apart from the site boundary, that of its header. -/
theorem Dev.route_goes (from' : Option Nat) (hhops : k.hops < 8) (hdetoured : k.detoured = false) : (d.route from' k).Goes k.de := by
  have hon := d.routeOn_goes hhops
  unfold Dev.route
  refine Route.goes_ite trivial (Route.goes_ite trivial (Route.goes_ite trivial ?_))
  rw [hdetoured, Bool.false_and, if_neg Bool.false_ne_true]
  dsimp only
  split
  next h => exact Route.goes_ite (Or.inr rfl) (h ▸ hon)
  next h => exact Route.goes_ite (Or.inr rfl) (h ▸ hon)
  next => exact hon

end Routes

/-! ### A packet past its last hop -/

section Counts

/-- The counter of packets past their last hop, and the alarms. -/
def Dev.hopDrops (d : Dev) : Word × BitVec 64 := (Tbl.lookD d.routing.cnt 0x58 0, d.health.alarms)

theorem Dev.sendOn_of_not_de {d : Dev} {k : Packet} (n : Nat) (h : k.de = false) :
    d.sendOn n k = (d.modPort n (fun q => { q with waiting := q.waiting ++ [k] })).pump n := if_neg (by rw [h]; nofun)

theorem Dev.hopDrops_congr {d t : Dev} (hr : t.routing = d.routing) (hh : t.health = d.health) : t.hopDrops = d.hopDrops := by
  rw [Dev.hopDrops, hr, hh, Dev.hopDrops]

theorem Dev.sendOn_hopDrops {d : Dev} {k : Packet} (n : Nat) (h : k.de = false) : (d.sendOn n k).hopDrops = d.hopDrops := by
  rw [Dev.sendOn_of_not_de n h]
  have hpump := (d.modPort n (fun q => { q with waiting := q.waiting ++ [k] })).pumpsTo_pump n
  exact Dev.hopDrops_congr hpump.routing hpump.health

theorem Dev.countRt_hopDrops (d : Dev) {n : Nat} (h : n ≠ 0x58) : (d.countRt n).hopDrops = d.hopDrops :=
  Prod.ext (lookD_bump_other _ 1 (Ne.symm h)) rfl

theorem Dev.routeQuiet_hopDrops {d : Dev} {k : Packet} (hde : k.de = false) (hhops : k.hops < 8) (hdetoured : k.detoured = false) :
    (d.routeQuiet k).hopDrops = d.hopDrops := by
  have hgoes := d.route_goes none hhops hdetoured
  unfold Dev.routeQuiet
  cases h : d.route none k with
  | here => rfl
  | out p k' => exact Dev.sendOn_hopDrops p (Eq.trans (h ▸ hgoes :) hde)
  | detour p k' forced => exact Dev.sendOn_hopDrops p (Eq.trans (h ▸ hgoes :) hde)
  | hold => rfl
  | drop c p =>
    rw [h] at hgoes
    rcases hgoes with rfl | rfl
    · exact d.countRt_hopDrops (by decide)
    · exact d.countRt_hopDrops (by decide)
  | barred => exact d.countRt_hopDrops (by decide)

theorem Dev.lookup_lt {d : Dev} {log dst : Nat} (h : d.lookup log = some dst) : dst < 2 ^ 20 := by
  unfold Dev.lookup at h
  dsimp only at h
  split at h
  · exact Option.some.inj h ▸ Nat.mod_lt _ (by decide)
  · cases h

/-- A notice is dropped, where it cannot go, for no bound on hops and with no alarm (R281). -/
theorem Dev.sendNotice_hopDrops (d : Dev) (cause : Nat) (port : Option Nat) (k : Packet) :
    (d.sendNotice cause port k).hopDrops = d.hopDrops := by
  have hcounted : (d.countRt 0x88).hopDrops = d.hopDrops := d.countRt_hopDrops (by decide)
  unfold Dev.sendNotice
  dsimp only
  split
  · rfl
  · split
    · exact hcounted
    · split
      next dst hdst =>
        obtain ⟨hde, hdetoured, hhops⟩ := Packet.notice_fresh (d.countRt 0x88) cause port k (Dev.lookup_lt hdst)
        exact (Dev.routeQuiet_hopDrops hde (by omega) hdetoured).trans hcounted
      next => exact (Dev.countRt_hopDrops _ (by decide)).trans hcounted

theorem Dev.discard_hopLimit (d : Dev) (port : Option Nat) (k : Packet) :
    (d.discard 4 port k).hopDrops = (Tbl.lookD d.routing.cnt 0x58 0 + 1, d.health.alarms + 1) := by
  refine (Dev.sendNotice_hopDrops ((d.countRt 0x58).alarm 0x22 (0x160000 + 0x58) (port.getD 0xFFFF) _) 4 port k).trans ?_
  refine Prod.ext ?_ (Dev.alarm_alarms ..)
  rw [Dev.hopDrops, Dev.alarm_routing]
  exact lookD_bump_same ..

end Counts

/-! ### Forwarding (R276, R280) -/

section Forward

variable {s : State} {d t : Dev} {k : Packet} {p : Nat}

/-- The frame of the statement. -/
theorem Dev.PassesTo.state (h : s.dev.PassesTo t) : ({ s with dev := t } : State) = { s with dev := s.dev.sent t } :=
  congrArg (fun x : Dev => ({ s with dev := x } : State)) (frame_weaken (F := Dev.passed) (G := Dev.sent) (fun _ _ => rfl) h)

theorem Dev.route_here (hsite : (d.port p).site = false) (hmcast : k.mcast = false) (hdst : k.dst = d.self) :
    d.route (some p) k = .here := by
  simp [Dev.route, hsite, hmcast, hdst]

theorem Dev.route_own (hmcast : k.mcast = false) (hdst : k.dst = d.self) (hxsite : k.xsite = false) : d.route none k = .here := by
  simp [Dev.route, hmcast, hdst, hxsite]

/-- A route as the site boundary of its port leaves it (R279). -/
def Dev.atBoundary (d : Dev) : Route → Route
  | .out q k => if (d.port q).site && !k.crosses then .drop 6 (some q) else .out q k
  | .detour q k f => if (d.port q).site && !k.crosses then .drop 6 (some q) else .detour q k f
  | r => r

/-- A packet that came by a port, for another module, that has met no detour. -/
theorem Dev.route_onward (hsite : (d.port p).site = false) (hmcast : k.mcast = false) (hdst : k.dst ≠ d.self)
    (hdetoured : k.detoured = false) : d.route (some p) k = d.atBoundary (d.routeOn k) := by
  unfold Dev.route
  simp only [hsite, hmcast, hdst, hdetoured, Bool.false_and, Bool.false_eq_true, if_false, decide_false]
  rfl

/-- The warp or weft port toward a coordinate of this bolt. -/
def Dev.toward (d : Dev) (dst : Nat) : Nat :=
  if colOf dst ≠ colOf d.self then warpPort (colOf d.self) (colOf dst) else weftPort (rowOf d.self) (rowOf dst)

theorem Dev.routeOn_local (hhops : k.hops < 8) (hxsite : k.xsite = false) (hbolt : boltOf k.dst = boltOf d.self)
    (hup : (d.port (d.toward k.dst)).up = true) : d.routeOn k = .out (d.toward k.dst) k.hop := by
  unfold Dev.routeOn
  dsimp only
  rw [if_neg (not_le.2 hhops), if_neg (by simp [hxsite]), if_pos hbolt]
  exact if_pos hup

theorem exec_packetForward_port {p : Fin 48} (hub : s.dev.power.hubOn = true) (hup : (s.dev.port p.val).up = true) :
    exec (.packetForward (some p) k) s = answer s (s.dev.follow k (s.dev.route (some p.val) k)) :=
  (show exec (.packetForward (some p) k) s = execPacketForward (some p) k s from rfl).trans
    ((if_pos hub).trans (congrArg (answer s) (if_pos hup)))

theorem exec_packetForward_own (hub : s.dev.power.hubOn = true) : exec (.packetForward none k) s = answer s (s.dev.inject k) :=
  (show exec (.packetForward none k) s = execPacketForward none k s from rfl).trans (if_pos hub)

theorem ends_packetForward_own (hub : s.dev.power.hubOn = true) (hmcast : k.mcast = false) (hdst : k.dst = s.dev.self)
    (hxsite : k.xsite = false) (hde : k.de = false) :
    Ends (.packetForward none k) s (fun t => t = { s with dev := s.dev.emit (.packet none k) }) := by
  have hinject : s.dev.inject k = s.dev.emit (.packet none k) := by
    simp only [Dev.inject, hde, hmcast, Bool.false_and, Bool.false_eq_true, if_false, Dev.route_own hmcast hdst hxsite]
    rfl
  exact ⟨_, exec_packetForward_own hub, congrArg (fun x : Dev => ({ s with dev := x } : State)) hinject⟩

section Arrived

variable {p : Fin 48} (hub : s.dev.power.hubOn = true) (hup : (s.dev.port p.val).up = true) (hsite : (s.dev.port p.val).site = false)
  (hmcast : k.mcast = false)
include hub hup hsite hmcast

theorem ends_packetForward_here (hdst : k.dst = s.dev.self) :
    Ends (.packetForward (some p) k) s (fun t => t = { s with dev := s.dev.emit (.packet none k) }) := by
  refine ⟨_, exec_packetForward_port hub hup, ?_⟩
  rw [Dev.route_here hsite hmcast hdst]
  rfl

variable (hdst : k.dst ≠ s.dev.self) (hdetoured : k.detoured = false)
include hdst hdetoured

theorem ends_packetForward_spent (hhops : 8 ≤ k.hops) : Ends (.packetForward (some p) k) s (fun t =>
    t = { s with dev := s.dev.sent t.dev } ∧ Tbl.lookD t.dev.routing.cnt 0x58 0 = Tbl.lookD s.dev.routing.cnt 0x58 0 + 1 ∧
      t.dev.health.alarms = s.dev.health.alarms + 1) := by
  have hon : s.dev.routeOn k = .drop 4 none := if_pos hhops
  have hroute : s.dev.route (some p.val) k = .drop 4 none :=
    (Dev.route_onward hsite hmcast hdst hdetoured).trans (congrArg s.dev.atBoundary hon)
  refine ⟨_, exec_packetForward_port hub hup, (s.dev.passesTo_follow k _).state, ?_⟩
  rw [hroute]
  exact Prod.mk.inj (s.dev.discard_hopLimit none k)

theorem ends_packetForward_toward (hhops : k.hops < 8) (hxsite : k.xsite = false) (hde : k.de = false)
    (hbolt : boltOf k.dst = boltOf s.dev.self) (hqup : (s.dev.port (s.dev.toward k.dst)).up = true)
    (hqsite : (s.dev.port (s.dev.toward k.dst)).site = false) : Ends (.packetForward (some p) k) s (fun t =>
      t = { s with dev := s.dev.sent t.dev } ∧ (∀ j, j ≠ s.dev.toward k.dst → t.dev.port j = s.dev.port j) ∧
      (k.hop ∈ (t.dev.port (s.dev.toward k.dst)).waiting ∨ .packet (some (s.dev.toward k.dst)) k.hop ∈ t.dev.out)) := by
  have hroute : s.dev.route (some p.val) k = .out (s.dev.toward k.dst) k.hop := by
    rw [Dev.route_onward hsite hmcast hdst hdetoured, Dev.routeOn_local hhops hxsite hbolt hqup]
    exact if_neg (by simp [hqsite])
  refine ⟨_, exec_packetForward_port hub hup, (s.dev.passesTo_follow k _).state, ?_⟩
  rw [hroute]
  have hsend : s.dev.follow k (.out (s.dev.toward k.dst) k.hop) =
      (s.dev.modPort (s.dev.toward k.dst) (fun q => { q with waiting := q.waiting ++ [k.hop] })).pump (s.dev.toward k.dst) :=
    Dev.sendOn_of_not_de _ (k.de_hop.trans hde)
  rw [hsend]
  refine ⟨fun j hj => ?_, s.dev.joined _ (List.mem_append_right _ List.mem_cons_self)⟩
  exact ((Dev.pumpsTo_pump _ _).others j hj).trans (s.dev.port_modPort_other _ hj)

end Arrived

end Forward

/-! ### The checks at the destination (R269, R270, R282) -/

section Ingress

variable {s : State} {k : Packet}

/-- No act of the hub hands a packet to an engine. -/
theorem Dev.hubKeeps_deliver (l : List Output) : Dev.HubKeeps (fun d => ∀ q, .deliver q ∈ d.out → .deliver q ∈ l) where
  modPort _ _ _ hd := hd
  pump {d} n hd q hq := by
    obtain ⟨sent, hout, -⟩ := (d.pumpsTo_pump n).sends
    rw [hout] at hq
    rcases List.mem_append.1 hq with hq | hq
    · obtain ⟨k, -, hk⟩ := List.mem_map.1 hq
      cases hk
    · exact hd q hq
  emit n k hd q hq := hd q ((List.mem_cons.1 hq).resolve_left nofun)
  alarm _ _ _ _ hd q hq := by
    unfold Dev.alarm Dev.raise at hq
    split at hq
    · exact hd q ((List.mem_cons.1 hq).resolve_left nofun)
    · exact hd q hq
  draw _ hd := hd
  xbar _ hd := hd
  countRt _ hd := hd
  spread hd := hd
  detour _ hd := hd
  hold _ hd := hd

/-- The tag of a packet has been seen. -/
def Dev.seen (d : Dev) (k : Packet) : Dev :=
  match d.tag k.tag with | some g => d.setTag k.tag { g with seen := d.phys } | none => d

theorem Dev.tag_setTag_same (d : Dev) (n : Nat) (x : Tag) : (d.setTag n x).tag n = some x := Tbl.look_put_same ..

/-- When a tag was last seen does not say whether it is revoked. -/
theorem Dev.tagRevoked_seen (d : Dev) (k : Packet) : (d.seen k).tagRevoked k.tag = d.tagRevoked k.tag := by
  cases h : d.tag k.tag with
  | none => rw [Dev.seen, h]
  | some g =>
    rw [Dev.seen, h]
    simp only [Dev.tagRevoked, Dev.tag_setTag_same, h]

theorem Dev.seen_out (d : Dev) (k : Packet) : (d.seen k).out = d.out := by
  unfold Dev.seen
  split <;> rfl

variable (hub : s.dev.power.hubOn = true)
include hub

theorem exec_packetIngress_abort (habort : k.abort = true) : exec (.packetIngress k) s = answer s (s.dev.countRt 0x80) := by
  refine (show exec (.packetIngress k) s = execPacketIngress k s from rfl).trans ?_
  simp only [execPacketIngress, hub, habort, Bool.not_true, Bool.false_eq_true, if_false, if_true]
  rfl

variable (habort : k.abort = false)
include habort

theorem exec_packetIngress_bad (hbad : k.bad = true) : exec (.packetIngress k) s = answer s (s.dev.countRt 0x70) := by
  refine (show exec (.packetIngress k) s = execPacketIngress k s from rfl).trans ?_
  simp only [execPacketIngress, hub, habort, hbad, Bool.not_true, Bool.false_eq_true, if_false, if_true]
  rfl

variable (hbad : k.bad = false)
include hbad

theorem exec_packetIngress_stray (hmcast : k.mcast = false) (hother : k.dst ≠ s.dev.self ∨ k.dlog ≠ s.dev.routing.log.toNat) :
    exec (.packetIngress k) s = answer s (s.dev.discard 5 none k) := by
  refine (show exec (.packetIngress k) s = execPacketIngress k s from rfl).trans ?_
  simp only [execPacketIngress, hub, habort, hbad, Bool.not_true, Bool.false_eq_true, if_false]
  exact if_pos (by simpa [hmcast] using hother)

variable (hmine : k.mcast = true ∨ (k.dst = s.dev.self ∧ k.dlog = s.dev.routing.log.toNat))
include hmine

theorem exec_packetIngress_mine : exec (.packetIngress k) s =
    if !k.xsite && (s.dev.seen k).tagRevoked k.tag then answer s ((s.dev.seen k).countRt 0x78)
    else answer s ((if k.detoured then (s.dev.seen k).emit (.confirm k.diverter k) else s.dev.seen k).emit (.deliver k)) := by
  have hfor : (!k.mcast && (k.dst != s.dev.self || k.dlog != s.dev.routing.log.toNat)) = false := by
    rcases hmine with h | ⟨h, h'⟩
    · rw [h]
      rfl
    · simp [h, h']
  refine (show exec (.packetIngress k) s = execPacketIngress k s from rfl).trans ?_
  simp only [execPacketIngress, hub, habort, hbad, hfor, Bool.not_true, Bool.false_eq_true, if_false]
  rfl

theorem exec_packetIngress_revoked (hxsite : k.xsite = false) (hrevoked : s.dev.tagRevoked k.tag = true) :
    exec (.packetIngress k) s = answer s ((s.dev.seen k).countRt 0x78) :=
  (exec_packetIngress_mine hub habort hbad hmine).trans (if_pos (by rw [Dev.tagRevoked_seen, hxsite, hrevoked]; rfl))

theorem ends_packetIngress_delivered (hpass : k.xsite = true ∨ s.dev.tagRevoked k.tag = false) : Ends (.packetIngress k) s (fun t =>
    t = { s with dev := { s.dev.seen k with
      out := .deliver k :: ((if k.detoured then [.confirm k.diverter k] else []) ++ s.dev.out) } }) := by
  have hpasses : ¬ (!k.xsite && (s.dev.seen k).tagRevoked k.tag) = true := by
    rw [Dev.tagRevoked_seen]
    rcases hpass with h | h <;> simp [h]
  refine ⟨_, (exec_packetIngress_mine hub habort hbad hmine).trans (if_neg hpasses), ?_⟩
  rw [← s.dev.seen_out k]
  cases k.detoured <;> rfl

end Ingress

/-! ### Notices and confirmations (R277, R281) -/

section Notice

variable {s : State} {k : Packet} {o : RemOp} {e : Entry}

/-- A PUT fails: nothing of memory is left undefined (R99). -/
theorem Dev.failRem_put {d : Dev} (hkind : o.kind = 1) (hfetch : o.fetch = false) (he : d.entry o.ring o.count = some e)
    (hs : e.phase = .started) (reason : Nat) : d.failRem o reason =
      ((d.dropRem o.id).endOp o.ring e (e.res.meet stRemoteFailed (BitVec.ofNat 16 reason)), []) := by
  have hlive : d.remLive o = true := by
    rw [Dev.remLive, he]
    exact beq_iff_eq.2 hs
  have hout : (if classOf e.res.status == 3 || o.droppable then [] else o.out : List (Nat × Nat)) = [] := by
    simp [RemOp.out, hkind, hfetch]
  unfold Dev.failRem
  simp only [he, Option.filter_some, hlive, if_true, hout]
  rfl

theorem exec_noticeReceive_put (hnotice : k.isNotice = true) (hdst : k.dst = s.dev.self)
    (horigin : s.dev.origin (discardedPacket k) = some (o.ring, o.count)) (huser : (discardedPacket k).user = 2)
    (hrem : s.dev.remOp o.ring o.count = some o) (hkind : o.kind = 1) (hfetch : o.fetch = false)
    (he : s.dev.entry o.ring o.count = some e) (hs : e.phase = .started) : exec (.noticeReceive k) s =
      answer s ((s.dev.dropRem o.id).endOp o.ring e (e.res.meet stRemoteFailed (BitVec.ofNat 16 (k.p 2 2)))) := by
  have hnoticed : s.dev.noticed s.mem (discardedPacket k) (k.p 2 2) = s.dev.failRem o (k.p 2 2) := by
    simp only [Dev.noticed, horigin, huser, hrem]
  refine (show exec (.noticeReceive k) s = execNoticeReceive k s from rfl).trans ((if_pos (by simp [hnotice, hdst])).trans ?_)
  rw [hnoticed, Dev.failRem_put hkind hfetch he hs]
  rfl

theorem ends_noticeReceive (hnotice : k.isNotice = true) (hdst : k.dst = s.dev.self)
    (horigin : s.dev.origin (discardedPacket k) = some (o.ring, o.count)) (huser : (discardedPacket k).user = 2)
    (hrem : s.dev.remOp o.ring o.count = some o) (hkind : o.kind = 1) (hfetch : o.fetch = false)
    (he : s.dev.entry o.ring o.count = some e) (hs : e.phase = .started) (hclass : classOf e.res.status < 3) :
    Ends (.noticeReceive k) s (fun t =>
      t = { s with dev := { s.dev with rings := t.dev.rings, claims := t.dev.claims, turns := t.dev.turns
                                       xbar := { s.dev.xbar with rem := t.dev.xbar.rem } } } ∧
      (∃ e', t.dev.entry o.ring o.count = some e' ∧ e'.phase = .done ∧
        e'.res = { e.res with status := 0x3005, reason := BitVec.ofNat 16 (k.p 2 2) }) ∧
      ∀ x ∈ t.dev.xbar.rem, x.id ≠ o.id) := by
  refine ⟨_, exec_noticeReceive_put hnotice hdst horigin huser hrem hkind hfetch he hs, ?_, ?_, fun x hx => ?_⟩
  · refine congrArg (fun x : Dev => ({ s with dev := x } : State)) ?_
    apply Dev.ext <;> simp [Dev.dropRem]
  · have hmeet : e.res.meet stRemoteFailed (BitVec.ofNat 16 (k.p 2 2)) =
        { e.res with status := stRemoteFailed, reason := BitVec.ofNat 16 (k.p 2 2) } := if_pos (hclass.trans_eq (by decide))
    have hcount := Dev.entry_count he
    rw [← hcount] at he ⊢
    obtain ⟨b, hb⟩ := Dev.entry_endOp_engine (d := s.dev.dropRem o.id) he hs
      (e.res.meet stRemoteFailed (BitVec.ofNat 16 (k.p 2 2)))
    exact ⟨_, hb, rfl, hmeet⟩
  · rw [Dev.endOp_xbar] at hx
    exact bne_iff_ne.1 (List.mem_filter.1 hx).2

end Notice

section Confirm

variable {s : State} {src dst : BitVec 20} {cls : BitVec 3}

/-- One detour is off the list. -/
def Dev.confirmed (d : Dev) (key : BitVec 20 × BitVec 20 × Nat) : Dev :=
  { d with routing := { d.routing with detours := removeFirst key d.routing.detours } }

/-- The packets held for a key go on. -/
def Dev.releases (d : Dev) (key : BitVec 20 × BitVec 20 × Nat) : Dev :=
  (d.routing.held.filter (fun k => k.detourKey == key)).foldl (fun d k => d.follow k (d.route none k))
    { d with routing := { d.routing with held := d.routing.held.filter (fun k => !(k.detourKey == key)) } }

theorem exec_deliveryConfirm : exec (.deliveryConfirm src dst cls) s =
    if (s.dev.confirmed (src, dst, cls.toNat)).routing.detours.contains (src, dst, cls.toNat) then
      answer s (s.dev.confirmed (src, dst, cls.toNat))
    else answer s ((s.dev.confirmed (src, dst, cls.toNat)).releases (src, dst, cls.toNat)) := rfl

/-- No act of the hub takes a packet from those that are held. -/
theorem Dev.hubKeeps_held (q : Packet) : Dev.HubKeeps (fun d => q ∈ d.routing.held) where
  modPort _ _ _ hd := hd
  pump {d} n hd := (d.pumpsTo_pump n).routing ▸ hd
  emit _ _ hd := hd
  alarm {d} _ _ _ _ hd := Dev.alarm_routing (d := d) .. ▸ hd
  draw _ hd := hd
  xbar _ hd := hd
  countRt _ hd := hd
  spread hd := hd
  detour _ hd := hd
  hold k hd := List.mem_append_left [k] hd

theorem Dev.passesTo_releases (d : Dev) (key : BitVec 20 × BitVec 20 × Nat) : d.PassesTo (d.releases key) :=
  List.foldlRecOn (motive := d.PassesTo) _ _ rfl fun x hx k _ => hx.trans (x.passesTo_follow k _)

theorem Dev.mem_held_releases {d : Dev} {key : BitVec 20 × BitVec 20 × Nat} {q : Packet} (hq : q ∈ d.routing.held)
    (hkey : q.detourKey ≠ key) : q ∈ (d.releases key).routing.held :=
  List.foldlRecOn (motive := fun x : Dev => q ∈ x.routing.held) _ _ (List.mem_filter.2 ⟨hq, by simpa using hkey⟩)
    fun _ hx k _ => (Dev.hubKeeps_held q).follow hx k _

theorem Dev.releases_of_none {d : Dev} {key : BitVec 20 × BitVec 20 × Nat} (h : ∀ q ∈ d.routing.held, q.detourKey ≠ key) :
    d.releases key = d := by
  have hfree : d.routing.held.filter (fun k => k.detourKey == key) = [] :=
    List.filter_eq_nil_iff.2 fun q hq => by simpa using h q hq
  have hheld : d.routing.held.filter (fun k => !(k.detourKey == key)) = d.routing.held :=
    List.filter_eq_self.2 fun q hq => by simpa using h q hq
  rw [Dev.releases, hfree, hheld]
  rfl

theorem ends_deliveryConfirm : Ends (.deliveryConfirm src dst cls) s (fun t => t = { s with dev := s.dev.sent t.dev } ∧
    ((src, dst, cls.toNat) ∈ removeFirst (src, dst, cls.toNat) s.dev.routing.detours ∨
        (∀ q ∈ s.dev.routing.held, q.detourKey ≠ (src, dst, cls.toNat)) →
      t = { s with dev := s.dev.confirmed (src, dst, cls.toNat) }) ∧
    ∀ q ∈ s.dev.routing.held, q.detourKey ≠ (src, dst, cls.toNat) → q ∈ t.dev.routing.held) := by
  have hconfirmed : s.dev.PassesTo (s.dev.confirmed (src, dst, cls.toNat)) := rfl
  have hexec := exec_deliveryConfirm (s := s) (src := src) (dst := dst) (cls := cls)
  by_cases hleft : (s.dev.confirmed (src, dst, cls.toNat)).routing.detours.contains (src, dst, cls.toNat) = true
  · rw [if_pos hleft] at hexec
    exact ⟨_, hexec, hconfirmed.state, fun _ => rfl, fun q hq _ => hq⟩
  · rw [if_neg hleft] at hexec
    refine ⟨_, hexec, (hconfirmed.trans (Dev.passesTo_releases _ _)).state, fun h => ?_, fun q hq hkey => Dev.mem_held_releases hq hkey⟩
    have hnone := h.resolve_left fun hmem => hleft (List.contains_iff_mem.2 hmem)
    exact congrArg (fun x : Dev => ({ s with dev := x } : State)) (Dev.releases_of_none hnone)

end Confirm

/-- Settles O39, a lemma for each command and each outcome of its checks. -/
theorem packetsAreRoutedCheckedAndDelivered : Obligations.PacketsAreRoutedCheckedAndDelivered := by
  unfold Obligations.PacketsAreRoutedCheckedAndDelivered
  intro s k hub
  refine ⟨fun p hup hsite hmcast => ⟨ends_packetForward_here hub hup hsite hmcast, ends_packetForward_spent hub hup hsite hmcast, ?_⟩,
    ends_packetForward_own hub, ⟨?_, ?_, ?_, fun habort hbad hmine => ⟨?_, ends_packetIngress_delivered hub habort hbad hmine⟩⟩,
    fun o e => ends_noticeReceive, fun src dst cls => ends_deliveryConfirm⟩
  · exact fun hdst hdetoured hhops hxsite hde hbolt => ends_packetForward_toward hub hup hsite hmcast hdst hdetoured hhops hxsite hde hbolt
  · exact fun habort => ⟨_, exec_packetIngress_abort hub habort, rfl⟩
  · exact fun habort hbad => ⟨_, exec_packetIngress_bad hub habort hbad, rfl⟩
  · exact fun habort hbad hmcast hother => ⟨_, exec_packetIngress_stray hub habort hbad hmcast hother, (s.dev.passesTo_discard ..).state,
      (Dev.hubKeeps_deliver s.dev.out).discard (fun _ => id) 5 none k⟩
  · exact fun hxsite hrevoked => ⟨_, exec_packetIngress_revoked hub habort hbad hmine hxsite hrevoked, rfl⟩

end Sys2Proof.Machine

/-! ## O40: the registers of routing and of the crossbar, planes, regions, and a drop-eligible arrival -/
namespace Sys2Proof.Machine

/-! ### Registers (R285, R287, R306) -/

section Registers

variable {s : State} (hrun : s.dev.health.stopped = false)
include hrun

theorem ends_rtL2pDataWrite (v : W32) : Ends (.rtL2pDataWrite v) s (fun t => t = { s with dev := { s.dev with
    routing := { s.dev.routing with
      l2p := Tbl.put s.dev.routing.l2p (s.dev.routing.l2pSel.toNat % 2 ^ 20) (v &&& 0x800FFFFF)
      l2pSel := autoInc s.dev.routing.l2pSel 20 } } }) := by
  refine ⟨_, viaCfg_of_serving hrun _, ?_⟩
  simp only [bits, Nat.pow_zero, Nat.div_one]

theorem ends_rtSpanDataWrite (v : Word) : Ends (.rtSpanDataWrite v) s (fun t => t = { s with dev := { s.dev with
    routing := { s.dev.routing with
      span := Tbl.put s.dev.routing.span (s.dev.routing.spanSel.toNat % 2 ^ 12) (v &&& 0xCFFF000000001FFF)
      spanSel := autoInc s.dev.routing.spanSel 12 } } }) := by
  refine ⟨_, viaCfg_of_serving hrun _, ?_⟩
  simp only [bits, Nat.pow_zero, Nat.div_one]

theorem ends_rtL2pDataRead : Ends .rtL2pDataRead s (fun t => t = { s with dev := { s.dev with
    routing := { s.dev.routing with l2pSel := autoInc s.dev.routing.l2pSel 20 }
    out := .data (toLe 4 (Tbl.lookD s.dev.routing.l2p (s.dev.routing.l2pSel.toNat % 2 ^ 20) (0 : W32)).toNat) :: s.dev.out } }) := by
  refine ⟨_, if_neg (Bool.eq_false_iff.1 hrun), ?_⟩
  simp only [bits, Nat.pow_zero, Nat.div_one]
  rfl

theorem ends_rtSpanDataRead : Ends .rtSpanDataRead s (fun t => t = { s with dev := { s.dev with
    routing := { s.dev.routing with spanSel := autoInc s.dev.routing.spanSel 12 }
    out := .data (toLe 8 (Tbl.lookD s.dev.routing.span (s.dev.routing.spanSel.toNat % 2 ^ 12) (0 : Word)).toNat) :: s.dev.out } }) := by
  refine ⟨_, if_neg (Bool.eq_false_iff.1 hrun), ?_⟩
  simp only [bits, Nat.pow_zero, Nat.div_one]
  rfl

omit hrun in
/-- RT_ADAPT.THRESH. -/
theorem bits_thresh (v : W32) : bits v.toNat 31 16 = v.toNat / 65536 := by
  have hv := v.isLt
  rw [bits]
  omega

theorem ends_rtAdaptWrite (v : W32) : Ends (.rtAdaptWrite v) s (
    if s.dev.fixedPace = true ∨ v.toNat / 65536 < 9 ∨ 1024 < v.toNat / 65536 then
      fun t => t = { s with dev := { s.dev with routing := { s.dev.routing with adaptReject := true } } }
    else fun t => t = { s with dev := { s.dev with
      routing := { s.dev.routing with thresh := v.extractLsb' 16 16, adaptOff := v.getLsbD 0 } } }) := by
  have hexec : exec (.rtAdaptWrite v) s = answer s (
      if s.dev.fixedPace || Nat.blt (bits v.toNat 31 16) 9 || Nat.blt 1024 (bits v.toNat 31 16) then
        { s.dev with routing := { s.dev.routing with adaptReject := true } }
      else { s.dev with routing := { s.dev.routing with
        thresh := BitVec.ofNat 16 (bits v.toNat 31 16), adaptOff := v.getLsbD 0 } }) := viaCfg_of_serving hrun _
  have hthresh : BitVec.ofNat 16 (bits v.toNat 31 16) = v.extractLsb' 16 16 := by
    apply BitVec.eq_of_toNat_eq
    simp [bits, Nat.shiftRight_eq_div_pow]
  have hiff : (s.dev.fixedPace || Nat.blt (bits v.toNat 31 16) 9 || Nat.blt 1024 (bits v.toNat 31 16)) = true ↔
      s.dev.fixedPace = true ∨ v.toNat / 65536 < 9 ∨ 1024 < v.toNat / 65536 := by
    rw [bits_thresh, Bool.or_eq_true, Bool.or_eq_true, Nat.blt_eq, Nat.blt_eq, or_assoc]
  by_cases h : s.dev.fixedPace = true ∨ v.toNat / 65536 < 9 ∨ 1024 < v.toNat / 65536
  · rw [if_pos (hiff.2 h)] at hexec
    rw [if_pos h]
    exact ⟨_, hexec, rfl⟩
  · rw [if_neg (fun h' => h (hiff.1 h')), hthresh] at hexec
    rw [if_neg h]
    exact ⟨_, hexec, rfl⟩

theorem ends_xbarClassShareWrite (v : Word) : let sh := (List.range 6).map (fun c => v.toNat / 2 ^ (8 * c) % 256)
    Ends (.xbarClassShareWrite v) s (if (∀ c ∈ sh, c ≠ 0) ∧ sh.sum ≤ 256 then
        fun t => t = { s with dev := { s.dev with xbar := { s.dev.xbar with shareReg := v &&& 0xFFFFFFFFFFFF } } }
      else fun t => t = { s with dev := { s.dev with xbar := { s.dev.xbar with planeReject := true } } }) := by
  intro sh
  have hshares : (List.range 6).map (fun i => bits v.toNat (8 * i + 7) (8 * i)) = sh := by
    refine List.map_congr_left fun i _ => ?_
    rw [bits, show 8 * i + 7 - 8 * i + 1 = 8 by omega]
    rfl
  have hexec : exec (.xbarClassShareWrite v) s = answer s { s.dev with
      xbar := if sh.all (0 < ·) && decide (sh.sum ≤ 256) then { s.dev.xbar with shareReg := v &&& 0xFFFFFFFFFFFF }
        else { s.dev.xbar with planeReject := true } } := by
    rw [← hshares]
    exact viaCfg_of_serving hrun _
  have hiff : (sh.all (0 < ·) && decide (sh.sum ≤ 256)) = true ↔ (∀ c ∈ sh, c ≠ 0) ∧ sh.sum ≤ 256 := by
    simp [Nat.pos_iff_ne_zero]
  by_cases h : (∀ c ∈ sh, c ≠ 0) ∧ sh.sum ≤ 256
  · rw [if_pos (hiff.2 h)] at hexec
    rw [if_pos h]
    exact ⟨_, hexec, rfl⟩
  · rw [if_neg (fun h' => h (hiff.1 h'))] at hexec
    rw [if_neg h]
    exact ⟨_, hexec, rfl⟩

theorem ends_xbarRedWrite (c : Fin 3) (v : W32) : let hi := v.toNat / 65536 % 256
    Ends (.xbarRedWrite c v) s (if v.toNat / 256 % 256 < hi ∧ hi ≤ 128 then
        fun t => t = { s with dev := { s.dev with xbar := { s.dev.xbar with red := Tbl.put s.dev.xbar.red c.val (v &&& 0xFFFFFF00) } } }
      else fun t => t = { s with dev := { s.dev with xbar := { s.dev.xbar with planeReject := true } } }) := by
  intro hi
  have hexec : exec (.xbarRedWrite c v) s = answer s { s.dev with
      xbar := if Nat.blt (v.toNat / 256 % 256) hi && Nat.ble hi 128 then
          { s.dev.xbar with red := Tbl.put s.dev.xbar.red c.val (v &&& 0xFFFFFF00) }
        else { s.dev.xbar with planeReject := true } } := viaCfg_of_serving hrun _
  have hiff : (Nat.blt (v.toNat / 256 % 256) hi && Nat.ble hi 128) = true ↔ v.toNat / 256 % 256 < hi ∧ hi ≤ 128 := by
    rw [Bool.and_eq_true, Nat.blt_eq, Nat.ble_eq]
  by_cases h : v.toNat / 256 % 256 < hi ∧ hi ≤ 128
  · rw [if_pos (hiff.2 h)] at hexec
    rw [if_pos h]
    exact ⟨_, hexec, rfl⟩
  · rw [if_neg (fun h' => h (hiff.1 h'))] at hexec
    rw [if_neg h]
    exact ⟨_, hexec, rfl⟩

/-! ### The mode of the planes (R287) -/

omit hrun in
theorem planeCode_eq_iff (v : W32) (c : BitVec 2) : BitVec.ofNat 2 v.toNat = c ↔ v.toNat % 4 = c.toNat := by
  rw [← BitVec.toNat_inj, BitVec.toNat_ofNat]

omit hrun in
theorem Dev.bumpCap_eq (d : Dev) : d.bumpCap = { d with capGen := d.bumpCap.capGen, capTick := d.bumpCap.capTick } := by
  unfold Dev.bumpCap
  split <;> rfl

/-- The write would leave a retired plane as the only one. -/
def Dev.planeRetired (d : Dev) (m : Nat) : Prop :=
  (m = 1 ∧ d.store.planes.getLsbD 0 = true) ∨ (m = 2 ∧ d.store.planes.getLsbD 1 = true)

omit hrun in
theorem Dev.planeRetired_iff (d : Dev) (v : W32) : (decide (BitVec.ofNat 2 v.toNat = 1) && d.store.planes.getLsbD 0 ||
    decide (BitVec.ofNat 2 v.toNat = 2) && d.store.planes.getLsbD 1) = true ↔ d.planeRetired (v.toNat % 4) := by
  simp only [Bool.or_eq_true, Bool.and_eq_true, decide_eq_true_eq, planeCode_eq_iff]
  exact Iff.rfl

theorem ends_xbarPlaneCtlWrite_ignored {v : W32} (h : v.toNat % 4 = 3) : Ends (.xbarPlaneCtlWrite v) s (fun t => t = s) :=
  ⟨_, (viaCfg_of_serving hrun _).trans (if_pos ((planeCode_eq_iff v 3).2 h)), rfl⟩

theorem ends_xbarPlaneCtlWrite_rejected {v : W32} (h : s.dev.planeRetired (v.toNat % 4)) : Ends (.xbarPlaneCtlWrite v) s (fun t =>
    t = { s with dev := { s.dev with xbar := { s.dev.xbar with planeReject := true } } }) := by
  have hm : v.toNat % 4 ≠ 3 := by
    rcases h with h | h <;> omega
  exact ⟨_, (viaCfg_of_serving hrun _).trans ((if_neg fun h3 => hm ((planeCode_eq_iff v 3).1 h3)).trans
    (if_pos ((s.dev.planeRetired_iff v).2 h))), rfl⟩

theorem ends_xbarPlaneCtlWrite_taken {v : W32} (h : ¬ s.dev.planeRetired (v.toNat % 4)) (hm : v.toNat % 4 ≠ 3) :
    Ends (.xbarPlaneCtlWrite v) s (fun t => t = { s with dev := { s.dev with
      xbar := { s.dev.xbar with planeMode := v.setWidth 2 }, capGen := t.dev.capGen, capTick := t.dev.capTick } }) := by
  let d : Dev := { s.dev with xbar := { s.dev.xbar with planeMode := v.setWidth 2 } }
  have hexec : exec (.xbarPlaneCtlWrite v) s = answer s (if d.planesUp = s.dev.planesUp then d else d.bumpCap) :=
    (viaCfg_of_serving hrun _).trans ((if_neg fun h3 => hm ((planeCode_eq_iff v 3).1 h3)).trans
      (if_neg fun hret => h ((s.dev.planeRetired_iff v).1 hret)))
  refine ⟨_, hexec, ?_⟩
  split
  · rfl
  · exact congrArg (fun x : Dev => ({ s with dev := x } : State)) d.bumpCap_eq

end Registers

/-! ### Regions (R298) -/

section Regions

variable {s : State} {d : Dev} {i : Nat} {x : BitVec 256}

/-- A valid entry that no check fails names an object that is READY and holds it, under a key of its own. -/
theorem Dev.rgnReason_eq_zero (h : d.rgnReason i x = 0) (hvalid : rgnValid x = true) : ∃ o, d.obj (rgnObj x) = some o ∧ o.st = .ready ∧
    rgnOff x + rgnLen x ≤ o.len ∧ ∀ y ∈ d.xbar.regions, y.1 ≠ i → rgnValid y.2 = true → rgnKey y.2 ≠ rgnKey x := by
  unfold Dev.rgnReason at h
  dsimp only at h
  rw [if_neg (by simp [hvalid])] at h
  split at h
  · cases h
  split at h
  · cases h
  next hlen =>
    split at h
    · cases h
    next hready =>
      split at h
      · cases h
      next hkey =>
        cases ho : d.obj (rgnObj x) with
        | none => simp [ho] at hready
        | some o =>
          rw [ho] at hlen hready
          refine ⟨o, rfl, by simpa using hready, by simpa using hlen, fun y hy hi hv heq => hkey ?_⟩
          exact List.any_eq_true.2 ⟨y, hy, by simp [hi, hv, heq]⟩

theorem bit_toNat {w : Nat} (x : BitVec w) (i : Nat) : bit x.toNat i = x.getLsbD i := by
  rw [bit, ← BitVec.testBit_toNat, Nat.testBit_eq_decide_div_mod_eq]
  rfl

theorem rgnValid_invalid (x : BitVec 256) : rgnValid (invalid x) = false := by
  rw [rgnValid, bit_toNat, invalid, BitVec.getLsbD_and, BitVec.getLsbD_not, getLsbD_ofNat_two_pow_self (by decide), Bool.not_true,
    Bool.and_false, Bool.and_false]

variable (hrun : s.dev.health.stopped = false)
include hrun

theorem ends_rgnWrite : Ends .rgnWrite s (fun t => let why := s.dev.rgnReason s.dev.xbar.rgnSel.toNat s.dev.xbar.rgnData
    (why ≠ 0 → t = { s with dev := { s.dev with xbar := { s.dev.xbar with rgnReason := BitVec.ofNat 16 why } } }) ∧
    (why = 0 → t = { s with dev := { s.dev with xbar := { s.dev.xbar with
        regions := Tbl.put s.dev.xbar.regions s.dev.xbar.rgnSel.toNat s.dev.xbar.rgnData, rgnReason := 0 } } } ∧
      (rgnValid s.dev.xbar.rgnData = true → ∃ o, s.dev.obj (rgnObj s.dev.xbar.rgnData) = some o ∧ o.st = .ready ∧
        rgnOff s.dev.xbar.rgnData + rgnLen s.dev.xbar.rgnData ≤ o.len ∧
        ∀ y ∈ s.dev.xbar.regions, y.1 ≠ s.dev.xbar.rgnSel.toNat → rgnValid y.2 = true → rgnKey y.2 ≠ rgnKey s.dev.xbar.rgnData))) := by
  refine ⟨_, viaCfg_of_serving hrun _, fun h => ?_, fun h => ⟨?_, Dev.rgnReason_eq_zero h⟩⟩
  · exact congrArg (fun y : Xbar => ({ s with dev := { s.dev with xbar := y } } : State)) (if_neg h)
  · exact congrArg (fun y : Xbar => ({ s with dev := { s.dev with xbar := y } } : State)) (if_pos h)

theorem ends_rgnInvalidate : Ends .rgnInvalidate s (fun t =>
    t = { s with dev := { s.dev with xbar := { s.dev.xbar with regions := t.dev.xbar.regions, rgnReason := 0 } } } ∧
    rgnValid (t.dev.rgn s.dev.xbar.rgnSel.toNat) = false ∧ ∀ k, k ≠ s.dev.xbar.rgnSel.toNat → t.dev.rgn k = s.dev.rgn k) := by
  refine ⟨_, viaCfg_of_serving hrun _, rfl, ?_, fun k hk => Tbl.lookD_put_other _ _ _ hk⟩
  exact (congrArg rgnValid (Tbl.lookD_put_same ..)).trans (rgnValid_invalid _)

end Regions

/-! ### A plane that retires (R287) -/

section Plane

variable {s : State}

/-- A condition that takes the module to DEGRADED clears ACKED and raises the request (R380, R382). -/
theorem Dev.condArises_degraded (d : Dev) {c : Nat} (h : 3 ≤ c) : d.condArises c = { d with
    health := { d.health with cond := d.health.cond ||| BitVec.ofNat 64 (2 ^ c), acked := false }
    power := { d.power with svcReqN := true }
    host := (d.condArises c).host, capGen := (d.condArises c).capGen, capTick := (d.condArises c).capTick
    out := (d.condArises c).out } := by
  have hhealth : (d.condArises c).health = { d.health with cond := d.health.cond ||| BitVec.ofNat 64 (2 ^ c), acked := false } := by
    rw [Dev.condArises, if_pos h]
    simp
  have hpower : (d.condArises c).power = { d.power with svcReqN := true } := by
    rw [Dev.condArises, if_pos h]
    simp
  apply Dev.ext <;> simp [hhealth, hpower]

theorem ends_planeRetire (b : Bool) (hauto : s.dev.xbar.planeMode = 0) (hboth : s.dev.store.planes = 0)
    (hub : s.dev.power.hubOn = true) : Ends (.planeRetire b) s (fun t => t = { s with dev := { s.dev with
      xbar := { s.dev.xbar with cnt := t.dev.xbar.cnt }, store := { s.dev.store with planes := if b then 2 else 1 }
      draws := s.dev.draws + 1, health := { s.dev.health with cond := s.dev.health.cond ||| 0x40, acked := false }
      power := { s.dev.power with svcReqN := true }
      host := t.dev.host, capGen := t.dev.capGen, capTick := t.dev.capTick, out := t.dev.out } }) := by
  let resent := (Config.freeValue s.dev.draws).toNat % ((s.dev.ports.map (fun e => e.2.waiting.length)).sum + 1)
  let d : Dev := { s.dev with
    xbar := { s.dev.xbar with cnt := bump s.dev.xbar.cnt 0x60 resent }
    store := { s.dev.store with planes := if b then 2 else 1 }, draws := s.dev.draws + 1 }
  have hexec : exec (.planeRetire b) s = answer s (d.condArises 6) := if_pos (by simp [hauto, hboth, hub])
  refine ⟨_, hexec, congrArg (fun x : Dev => ({ s with dev := x } : State)) ?_⟩
  have hxbar := congrArg Xbar.cnt (d.condArises_xbar 6)
  dsimp only
  rw [hxbar]
  exact d.condArises_degraded (by decide)

end Plane

/-! ### A drop-eligible arrival (R292, R293) -/

section Arrival

variable {s : State} {d : Dev} {n : Nat} {k : Packet}

theorem Dev.port_deMoved (d : Dev) (n : Nat) : (d.deMoved n).port n = { d.port n with deAvg := (d.port n).deMean } :=
  d.port_modPort_same n (fun p => { p with deAvg := p.deMean })

theorem Dev.port_deDropped (d : Dev) (n off j : Nat) : (d.deDropped n off).port j = d.port j := Dev.port_congr (Dev.alarm_ports ..) j

theorem Dev.pumpsTo_deQueued (d : Dev) (n : Nat) (k : Packet) : Dev.PumpsTo
    (d.modPort n (fun q => { q with waiting := q.waiting ++ [k], deDepth := q.deDepth + k.flits })) n (d.deQueued n k) :=
  Dev.pumpsTo_pump _ n

/-- Whatever becomes of it, the arrival moves the average, draws once, and leaves the other ports. -/
theorem Dev.deArrive_spec (d : Dev) (n : Nat) (k : Packet) : (d.deArrive n k).draws = d.draws + 1 ∧
    (∀ j, j ≠ n → (d.deArrive n k).port j = d.port j) ∧ ((d.deArrive n k).port n).deAvg = (d.port n).deMean := by
  have hothers : ∀ j, j ≠ n → (d.deMoved n).port j = d.port j := fun j hj =>
    d.port_modPort_other (fun p => { p with deAvg := p.deMean }) hj
  have hmean : ((d.deMoved n).port n).deAvg = (d.port n).deMean := congrArg Port.deAvg (d.port_deMoved n)
  have hdropped : ∀ off, ((d.deMoved n).deDropped n off).draws = d.draws + 1 ∧
      (∀ j, j ≠ n → ((d.deMoved n).deDropped n off).port j = d.port j) ∧
      (((d.deMoved n).deDropped n off).port n).deAvg = (d.port n).deMean := fun off =>
    ⟨Dev.alarm_draws .., fun j hj => (Dev.port_deDropped ..).trans (hothers j hj),
      (congrArg Port.deAvg (Dev.port_deDropped ..)).trans hmean⟩
  rw [Dev.deArrive_eq]
  split
  · exact hdropped _
  · split
    · exact hdropped _
    · have hpump := (d.deMoved n).pumpsTo_deQueued n k
      refine ⟨hpump.draws, fun j hj => ?_, ?_⟩
      · exact (hpump.others j hj).trans (((d.deMoved n).port_modPort_other _ hj).trans (hothers j hj))
      · have hjoined := congrArg Port.deAvg hpump.port
        exact hjoined.trans ((congrArg Port.deAvg (Dev.port_modPort_same ..)).trans hmean)

theorem ends_deArrival {n : Fin 48} (hub : s.dev.power.hubOn = true) (hde : k.de = true) : Ends (.deArrival n k) s (fun t =>
    t = { s with dev := s.dev.sent t.dev } ∧ t.dev.draws = s.dev.draws + 1 ∧ (∀ j, j ≠ n.val → t.dev.port j = s.dev.port j) ∧
    (t.dev.port n.val).deAvg = (s.dev.port n.val).deMean ∧
    ((s.dev.redMax k : Int) * 16 ≤ (s.dev.port n.val).deMean → (s.dev.redMin k : Int) * 16 ≤ (s.dev.port n.val).deMean →
      t.dev.port n.val = { s.dev.port n.val with deAvg := (s.dev.port n.val).deMean } ∧
      Tbl.lookD t.dev.xbar.cnt (0x40 + 8 * k.colour) 0 = Tbl.lookD s.dev.xbar.cnt (0x40 + 8 * k.colour) 0 + 1) ∧
    ((s.dev.port n.val).deMean < (s.dev.redMin k : Int) * 16 → (s.dev.port n.val).deDepth + k.flits ≤ 128 →
      k ∈ (t.dev.port n.val).waiting ∨ .packet (some n.val) k ∈ t.dev.out)) := by
  have hexec : exec (.deArrival n k) s = answer s (s.dev.deArrive n.val k) :=
    congrArg (answer s) (if_pos (by rw [hub, hde]; rfl))
  obtain ⟨hdraws, hothers, hmean⟩ := s.dev.deArrive_spec n.val k
  refine ⟨_, hexec, (s.dev.passesTo_deArrive n.val k).state, hdraws, hothers, hmean, fun hmax hmin => ?_, fun hmin hroom => ?_⟩
  · dsimp only
    rw [Dev.deArrive_of_max_le hmax hmin]
    refine ⟨(Dev.port_deDropped ..).trans (s.dev.port_deMoved n.val), ?_⟩
    rw [Dev.deDropped, Dev.alarm_xbar]
    exact lookD_bump_same ..
  · dsimp only
    rw [Dev.deArrive_of_lt_min hmin hroom]
    exact Dev.joined _ n.val (List.mem_append_right _ List.mem_cons_self)

end Arrival

/-- Settles O40, a lemma for each register, command and arrival. -/
theorem routingAndCrossbarRegistersTakeTheirValues : Obligations.RoutingAndCrossbarRegistersTakeTheirValues := by
  unfold Obligations.RoutingAndCrossbarRegistersTakeTheirValues
  intro s
  refine ⟨fun hrun => ⟨ends_rtL2pDataWrite hrun, ends_rtL2pDataRead hrun, ends_rtSpanDataWrite hrun, ends_rtSpanDataRead hrun,
    ends_rtAdaptWrite hrun, fun v => ⟨ends_xbarPlaneCtlWrite_ignored hrun, ends_xbarPlaneCtlWrite_rejected hrun, fun hmode => ?_⟩,
    ends_xbarClassShareWrite hrun, ends_xbarRedWrite hrun, ends_rgnWrite hrun, ends_rgnInvalidate hrun,
    ⟨_, viaCfg_of_serving hrun _, rfl⟩⟩, ends_planeRetire, fun n k => ends_deArrival⟩
  have hstands : ¬ s.dev.planeRetired (v.toNat % 4) ∧ v.toNat % 4 ≠ 3 := by
    unfold Dev.planeRetired
    rcases hmode with hm | ⟨hm, hplane⟩ | ⟨hm, hplane⟩
    · simp [hm]
    · simpa [hm] using hplane
    · simpa [hm] using hplane
  exact ends_xbarPlaneCtlWrite_taken hrun hstands.1 hstands.2

end Sys2Proof.Machine

/-! One step (R25, R36, R335, R341): the command at the front of the queue, or one tick of the timebase. -/
namespace Sys2Proof.Machine

section Tick
variable {d : Dev}


/-- A physical tick is one whatever the counter takes: a load moves the counter and the skew alike. -/
theorem Dev.phys_stepTo (d : Dev) (v : Word) : (d.stepTo v).phys = d.phys := by
  unfold Dev.phys Dev.stepTo
  bv_omega

theorem Dev.syncTick_of_not_due (h : d.time.syncDue = false) : d.syncTick = d := if_neg (by simp [h])

theorem Dev.syncTick_of_due (h : d.time.syncDue = true) : d.syncTick =
    if d.anyClaimRuns then { d with time := { d.time with syncArm := false, syncDue := false, syncIgnored := true } }
    else Dev.stepTo { d with time := { d.time with syncArm := false, syncDue := false } } d.time.syncLoad := if_pos h

theorem Dev.phys_syncTick (d : Dev) : d.syncTick.phys = d.phys := by
  unfold Dev.syncTick
  split
  · dsimp only
    split
    · rfl
    · exact Dev.phys_stepTo _ _
  · rfl

theorem Dev.store_syncTick (d : Dev) : d.syncTick.store = d.store := by
  unfold Dev.syncTick; (repeat' split) <;> rfl

theorem Dev.phys_tick (d : Dev) : d.tick.phys = d.phys + 1 := by
  refine (Dev.phys_syncTick { d with now := d.now + 1 }).trans ?_
  unfold Dev.phys
  bv_omega

end Tick

/-- Settles O1: on an empty queue the counter moves by what its sync load leaves of it. -/
theorem stepRunsTheFrontCommand : Obligations.StepRunsTheFrontCommand := by
  unfold Obligations.StepRunsTheFrontCommand
  refine ⟨fun c rest s => rfl, fun s hq => ⟨idle s, by unfold step; rw [hq], s.dev.phys_tick, fun hdue => ?_, fun hdue => ?_, rfl, hq,
    Dev.store_syncTick { s.dev with now := s.dev.now + 1 }⟩⟩
  · have hstands := Dev.syncTick_of_not_due (d := { s.dev with now := s.dev.now + 1 }) hdue
    exact ⟨(congrArg Dev.now hstands).trans rfl, (congrArg Dev.skew hstands).trans rfl⟩
  · have hloads := Dev.syncTick_of_due (d := { s.dev with now := s.dev.now + 1 }) hdue
    have hruns : ({ s.dev with now := s.dev.now + 1 } : Dev).anyClaimRuns = s.dev.anyClaimRuns := rfl
    rw [hruns] at hloads
    refine ⟨(congrArg Dev.time hloads).trans ?_, (congrArg Dev.now hloads).trans ?_⟩
    · cases s.dev.anyClaimRuns <;> simp [Dev.stepTo]
    · cases s.dev.anyClaimRuns <;> rfl

/-- Settles O3. -/
theorem everyCommandAnswers : Obligations.EveryCommandAnswers := answers_exec

end Sys2Proof.Machine

/-! Doze (R374 to R378): what a request leaves of a die, die by die, and module doze. -/
namespace Sys2Proof.Machine

/-! ## What a doze request may change -/

/-- The part of a device that a write of EVT_DOZE_CTL may change; `t` gives its values. -/
def Dev.dozed (d t : Dev) : Dev :=
  { d with
    dies := t.dies, health := t.health, dozeAborted := t.dozeAborted
    evt := { d.evt with
      dozeReq := t.evt.dozeReq, dozeReason := t.evt.dozeReason, hubLow := t.evt.hubLow, hubLowReq := t.evt.hubLowReq } }

def Dev.DozesTo (d t : Dev) : Prop := t = d.dozed t

section Doze
variable {d t u : Dev} {n : Nat}

theorem Dev.dozesTo_refl (d : Dev) : d.DozesTo d := rfl

theorem Dev.DozesTo.trans (h : d.DozesTo t) (h' : t.DozesTo u) : d.DozesTo u := by
  unfold Dev.DozesTo at h h'
  rw [h', h]
  rfl

theorem Dev.dozeTo_of_ne {x : Doze} (h : (d.die n).doze ≠ x) :
    d.dozeTo n x = (d.modDie n fun y => { y with doze := x }).log 0x25 0x1C0064 n (BitVec.ofNat 64 (dozeCode x)) :=
  if_neg (by simpa using h)

theorem Dev.die_log (d : Dev) (b r u : Nat) (v : Word) (m : Nat) : (d.log b r u v).die m = d.die m := rfl

theorem Dev.die_dozeTo (d : Dev) (n m : Nat) (x : Doze) : (d.dozeTo n x).die m = if m = n then { d.die n with doze := x } else d.die m := by
  by_cases h : (d.die n).doze = x
  · have hsame : d.dozeTo n x = d := if_pos (by simpa using h)
    rw [hsame]
    split
    next hm => rw [hm, ← h]
    next => rfl
  · rw [Dev.dozeTo_of_ne h, Dev.die_log, Dev.die_modDie]

theorem Dev.dozeTo_eq (d : Dev) (n : Nat) (x : Doze) :
    d.dozeTo n x = { d with dies := (d.dozeTo n x).dies, health := (d.dozeTo n x).health } := by
  apply Dev.ext <;> simp

theorem Dev.wakeDie_of_dozing (h : (d.die n).doze = .light ∨ (d.die n).doze = .deep) :
    d.wakeDie n = (d.dozeTo n .waking).modDie n fun x => { x with cntWake := x.cntWake + 1 } := by
  unfold Dev.wakeDie
  rcases h with h | h <;> rw [h]

theorem Dev.wakeDie_of_not_dozing (h : ¬ ((d.die n).doze = .light ∨ (d.die n).doze = .deep)) : d.wakeDie n = d := by
  unfold Dev.wakeDie
  split
  next hl => exact absurd (.inl hl) h
  next hd => exact absurd (.inr hd) h
  next => rfl

theorem Dev.die_wakeDie_of_dozing (h : (d.die n).doze = .light ∨ (d.die n).doze = .deep) (m : Nat) :
    (d.wakeDie n).die m = if m = n then { d.die n with doze := .waking, cntWake := (d.die n).cntWake + 1 } else d.die m := by
  rw [Dev.wakeDie_of_dozing h, Dev.die_modDie, Dev.die_dozeTo, Dev.die_dozeTo, if_pos rfl]
  split <;> rfl

theorem Dev.wakeDie_eq (d : Dev) (n : Nat) : d.wakeDie n = { d with dies := (d.wakeDie n).dies, health := (d.wakeDie n).health } := by
  apply Dev.ext <;> simp

theorem Dev.dozesTo_of_parts {x y : Dev} (hx : d.DozesTo x) (h : y = { x with dies := y.dies, health := y.health }) : d.DozesTo y :=
  hx.trans (by rw [h]; rfl)

/-! ## A request for one die -/

/-- What a request leaves of a die: RUN wakes one in LIGHT or DEEP, a request that passes R375 has it enter, all others leave it. -/
def Dev.dozedDie (d : Dev) (n q : Nat) : Die :=
  let x := d.die n
  if q = 0 ∧ (x.doze = .light ∨ x.doze = .deep) ∧ d.isRunning .event = true then { x with doze := .waking, cntWake := x.cntWake + 1 }
  else if (q = 1 ∨ q = 2) ∧ x.doze ≠ (if q = 1 then .light else .deep) ∧ d.dozeCheck n q = none then
    { x with doze := .entering (q == 2) }
  else x

theorem Dev.DozesTo.blocks (h : d.DozesTo t) : t.blocks = d.blocks := by rw [h]; rfl
theorem Dev.DozesTo.claims (h : d.DozesTo t) : t.claims = d.claims := by rw [h]; rfl
theorem Dev.DozesTo.objects (h : d.DozesTo t) : t.objects = d.objects := by rw [h]; rfl
theorem Dev.DozesTo.power (h : d.DozesTo t) : t.power = d.power := by rw [h]; rfl

theorem Dev.DozesTo.isRunning (h : d.DozesTo t) (b : BlockId) : t.isRunning b = d.isRunning b := by
  rw [Dev.isRunning, Dev.block_congr h.blocks, Dev.isRunning]

/-- The checks of R375 on a die read nothing that a request for another die changes. -/
theorem Dev.DozesTo.dozeCheck (h : d.DozesTo t) (hdie : t.die n = d.die n) (q : Nat) : t.dozeCheck n q = d.dozeCheck n q := by
  have hlanes := Dev.lanesHeld_congr h.blocks (fun c => by rw [Dev.claim_congr h.claims]) n
  have hcores := Dev.coresHeld_congr h.blocks (fun c => by rw [Dev.claim_congr h.claims]) n
  have hfree : t.nearFree n = d.nearFree n := by rw [Dev.nearFree, h.objects, Dev.nearFree]
  unfold Dev.dozeCheck
  rw [hdie, h.isRunning, h.power, hlanes, hcores, hfree]

theorem Dev.DozesTo.dozedDie (h : d.DozesTo t) (hdie : t.die n = d.die n) (q : Nat) : t.dozedDie n q = d.dozedDie n q := by
  unfold Dev.dozedDie
  rw [hdie, h.isRunning, h.dozeCheck hdie]

/-- A die that is on its way into or out of doze is refused. -/
theorem Dev.dozeCheck_ne_none_of_entering {b : Bool} (h : (d.die n).doze = .entering b) (q : Nat) : d.dozeCheck n q ≠ none := by
  unfold Dev.dozeCheck
  dsimp only
  rw [h]
  split_ifs <;> simp

def Dev.putDozeReq (d : Dev) (n v : Nat) : Dev := { d with evt := { d.evt with dozeReq := putReq d.evt.dozeReq n v } }

theorem Dev.dozesTo_putDozeReq (d : Dev) (n v : Nat) : d.DozesTo (d.putDozeReq n v) := rfl
theorem Dev.dozesTo_dozeRefuse (d : Dev) (why : Nat) : d.DozesTo (d.dozeRefuse why) := rfl

theorem Dev.dozeReq_run (d : Dev) (n : Nat) : d.dozeReq n 0 = match (d.die n).doze with
    | .light | .deep => if d.isRunning .event then (d.putDozeReq n 0).wakeDie n else (d.putDozeReq n 0).dozeRefuse 0x25F6
    | .entering _ => (d.putDozeReq n 0).dozeRefuse 0x2504
    | _ => d.putDozeReq n 0 := rfl

theorem Dev.dozeReq_doze {q : Nat} (hq : q = 1 ∨ q = 2) : d.dozeReq n q =
    if (d.die n).doze == (if q = 1 then .light else .deep) || (d.die n).doze == .entering (q == 2) then d.putDozeReq n q
    else match d.dozeCheck n q with
      | some why => (d.putDozeReq n 0).dozeRefuse why
      | none => { (d.putDozeReq n q).dozeTo n (.entering (q == 2)) with dozeAborted := false } := by
  rcases hq with rfl | rfl <;> rfl

theorem Dev.dozeReq_spec_run (d : Dev) (n : Nat) : d.DozesTo (d.dozeReq n 0) ∧
    ∀ m, (d.dozeReq n 0).die m = if m = n then d.dozedDie n 0 else d.die m := by
  by_cases hdozing : (d.die n).doze = .light ∨ (d.die n).doze = .deep
  · by_cases hrun : d.isRunning .event = true
    · have hreq : d.dozeReq n 0 = (d.putDozeReq n 0).wakeDie n := by
        rw [Dev.dozeReq_run]
        rcases hdozing with h | h <;> simp [h, hrun]
      have hwakes : d.dozedDie n 0 = { d.die n with doze := .waking, cntWake := (d.die n).cntWake + 1 } :=
        if_pos ⟨rfl, hdozing, hrun⟩
      rw [hreq, hwakes]
      exact ⟨Dev.dozesTo_of_parts (d.dozesTo_putDozeReq n 0) (Dev.wakeDie_eq _ n), Dev.die_wakeDie_of_dozing hdozing⟩
    · have hreq : d.dozeReq n 0 = (d.putDozeReq n 0).dozeRefuse 0x25F6 := by
        rw [Dev.dozeReq_run]
        rcases hdozing with h | h <;> simp [h, hrun]
      have hstays : d.dozedDie n 0 = d.die n := by simp [Dev.dozedDie, hrun]
      rw [hreq, hstays]
      exact ⟨rfl, fun m => by split <;> subst_vars <;> rfl⟩
  · have hreq : d.DozesTo (d.dozeReq n 0) ∧ (d.dozeReq n 0).dies = d.dies := by
      rw [Dev.dozeReq_run]
      split
      next h => exact absurd (.inl h) hdozing
      next h => exact absurd (.inr h) hdozing
      all_goals exact ⟨rfl, rfl⟩
    have hstays : d.dozedDie n 0 = d.die n := by simp [Dev.dozedDie, hdozing]
    rw [hstays]
    exact ⟨hreq.1, fun m => (Dev.die_congr hreq.2 m).trans (by split <;> subst_vars <;> rfl)⟩

theorem Dev.dozeReq_spec_doze (d : Dev) (n : Nat) {q : Nat} (hq : q = 1 ∨ q = 2) : d.DozesTo (d.dozeReq n q) ∧
    ∀ m, (d.dozeReq n q).die m = if m = n then d.dozedDie n q else d.die m := by
  have hrun : ¬ q = 0 := by omega
  by_cases henters : (d.die n).doze ≠ (if q = 1 then .light else .deep) ∧ d.dozeCheck n q = none
  · obtain ⟨hnew, hcheck⟩ := henters
    have hfree : (d.die n).doze ≠ .entering (q == 2) := fun h => Dev.dozeCheck_ne_none_of_entering h q hcheck
    have hreq : d.dozeReq n q = { (d.putDozeReq n q).dozeTo n (.entering (q == 2)) with dozeAborted := false } := by
      rw [Dev.dozeReq_doze hq, hcheck, if_neg (by simp [hnew, hfree])]
    have hdie : d.dozedDie n q = { d.die n with doze := .entering (q == 2) } := by
      unfold Dev.dozedDie
      rw [if_neg (by simp [hrun]), if_pos ⟨hq, hnew, hcheck⟩]
    rw [hreq, hdie]
    refine ⟨Dev.DozesTo.trans (t := (d.putDozeReq n q).dozeTo n (.entering (q == 2))) ?_ rfl, (d.putDozeReq n q).die_dozeTo n (x := _)⟩
    exact Dev.dozesTo_of_parts (d.dozesTo_putDozeReq n q) (Dev.dozeTo_eq _ n _)
  · have hreq : d.DozesTo (d.dozeReq n q) ∧ (d.dozeReq n q).dies = d.dies := by
      rw [Dev.dozeReq_doze hq]
      generalize (if q = 1 then Doze.light else Doze.deep) = x at henters
      split
      · exact ⟨rfl, rfl⟩
      next hnew =>
        split
        · exact ⟨rfl, rfl⟩
        next hcheck => exact absurd ⟨fun h => hnew (by simp [h]), hcheck⟩ henters
    have hstays : d.dozedDie n q = d.die n := by
      unfold Dev.dozedDie
      rw [if_neg (by simp [hrun]), if_neg fun h => henters h.2]
    rw [hstays]
    exact ⟨hreq.1, fun m => (Dev.die_congr hreq.2 m).trans (by split <;> subst_vars <;> rfl)⟩

theorem Dev.dozeReq_spec (d : Dev) (n : Nat) {q : Nat} (hq : q < 4) : d.DozesTo (d.dozeReq n q) ∧
    ∀ m, (d.dozeReq n q).die m = if m = n then d.dozedDie n q else d.die m := by
  obtain rfl | hdoze | rfl : q = 0 ∨ (q = 1 ∨ q = 2) ∨ q = 3 := by omega
  · exact d.dozeReq_spec_run n
  · exact d.dozeReq_spec_doze n hdoze
  · have hstays : d.dozedDie n 3 = d.die n := by simp [Dev.dozedDie]
    rw [hstays]
    exact ⟨rfl, fun m => by split <;> subst_vars <;> rfl⟩

/-- Requests for several dies act each on its own die. -/
theorem Dev.dozeReqs_spec (q : Nat → Nat) (hq : ∀ n, q n < 4) (l : List Nat) (hl : l.Nodup) (d : Dev) :
    d.DozesTo (l.foldl (fun d n => d.dozeReq n (q n)) d) ∧
      ∀ m, (l.foldl (fun d n => d.dozeReq n (q n)) d).die m = if m ∈ l then d.dozedDie m (q m) else d.die m := by
  induction l generalizing d with
  | nil => exact ⟨rfl, fun m => by simp⟩
  | cons n l ih =>
    obtain ⟨hn, hl⟩ := List.nodup_cons.1 hl
    obtain ⟨hone, hdie⟩ := d.dozeReq_spec n (hq n)
    obtain ⟨hrest, hdies⟩ := ih hl (d.dozeReq n (q n))
    refine ⟨hone.trans hrest, fun m => ?_⟩
    rw [List.foldl_cons, hdies]
    by_cases hm : m = n
    · subst hm
      rw [if_neg hn, hdie, if_pos rfl, if_pos List.mem_cons_self]
    · have hother : (d.dozeReq n (q n)).die m = d.die m := by rw [hdie, if_neg hm]
      simp only [List.mem_cons, hm, false_or, hother, hone.dozedDie hother]

theorem Dev.hubLowReq_spec (d : Dev) (on : Bool) : d.DozesTo (d.hubLowReq on) ∧ (d.hubLowReq on).dies = d.dies := by
  unfold Dev.hubLowReq
  dsimp only
  split_ifs <;> exact ⟨rfl, rfl⟩

theorem Dev.dozeWrite_spec (d : Dev) (v : Nat) : d.DozesTo (d.dozeWrite v) ∧
    ∀ n, n < 4 → (d.dozeWrite v).die n = d.dozedDie n (v / 4 ^ n % 4) := by
  have hbits : ∀ n, bits v (2 * n + 1) (2 * n) = v / 4 ^ n % 4 := fun n => by
    rw [bits, Nat.add_sub_cancel_left, Nat.pow_mul]; rfl
  have hdies := Dev.dozeReqs_spec (fun n => bits v (2 * n + 1) (2 * n)) (fun n => by rw [hbits]; omega) (List.range 4)
    List.nodup_range d
  unfold Dev.dozeWrite
  generalize (List.range 4).foldl (fun d n => d.dozeReq n (bits v (2 * n + 1) (2 * n))) d = e at hdies
  obtain ⟨hreqs, hdies⟩ := hdies
  have hlow : e.DozesTo (if bit v 8 = e.evt.hubLowReq && !bit v 8 then e else e.hubLowReq (bit v 8)) ∧
      (if bit v 8 = e.evt.hubLowReq && !bit v 8 then e else e.hubLowReq (bit v 8)).dies = e.dies := by
    split
    · exact ⟨rfl, rfl⟩
    · exact e.hubLowReq_spec _
  refine ⟨hreqs.trans hlow.1, fun n hn => ?_⟩
  rw [Dev.die_congr hlow.2, hdies, if_pos (List.mem_range.2 hn), hbits]

end Doze

/-! ## The commands -/

section Commands
variable {s : State}

theorem ends_dozeRequest (hmgmt : s.dev.health.stopped = false) (v : W32) : Ends (.dozeRequest v) s (fun t =>
    s.dev.DozesTo t.dev ∧ t = { s with dev := t.dev } ∧ ∀ n, n < 4 → t.dev.die n = s.dev.dozedDie n (v.toNat / 4 ^ n % 4)) :=
  ⟨_, viaCfg_of_serving hmgmt _, (s.dev.dozeWrite_spec v.toNat).1, rfl, (s.dev.dozeWrite_spec v.toNat).2⟩

theorem ends_dozeTo {c : Instr} {n : Fin 4} {x : Doze} (h : exec c s = answer s (s.dev.dozeTo n.val x)) : Ends c s (fun t =>
    t = { s with dev := { s.dev with dies := t.dev.dies, health := t.dev.health } } ∧
    t.dev.die n.val = { s.dev.die n.val with doze := x } ∧ ∀ k, k ≠ n.val → t.dev.die k = s.dev.die k) :=
  ⟨_, h, State.ext (s.dev.dozeTo_eq n.val x) rfl rfl, (s.dev.die_dozeTo ..).trans (if_pos rfl),
    fun _ hk => (s.dev.die_dozeTo ..).trans (if_neg hk)⟩

/-- Every die is DEEP and no claim is RUNNING (R376). -/
def Dev.hubMayDoze (d : Dev) : Prop := (∀ n, n < 4 → (d.die n).doze = .deep) ∧ ∀ c, c < 32 → d.isRunning (claimBlock c) = false

theorem Dev.hubMayDoze_iff (d : Dev) : ((List.range 4).all (fun n => (d.die n).doze == .deep) &&
    (List.range 32).all (fun c => !d.isRunning (claimBlock c))) = true ↔ d.hubMayDoze := by
  simp [Dev.hubMayDoze]

theorem exec_moduleDozeRequest (hmgmt : s.dev.health.stopped = false) :
    exec .moduleDozeRequest s = answer s (s.dev.hubLowReq true) := viaCfg_of_serving hmgmt _

theorem ends_moduleDozeRequest (hmgmt : s.dev.health.stopped = false) (hlow : s.dev.evt.hubLow = false)
    (hrun : s.dev.isRunning .event = true) :
    (s.dev.hubMayDoze → Ends .moduleDozeRequest s (fun t =>
      t = { s with dev := { s.dev with evt := { s.dev.evt with hubLowReq := true, hubLow := true } } })) ∧
    (¬ s.dev.hubMayDoze → Ends .moduleDozeRequest s (fun t =>
      t = { s with dev := { s.dev with evt := { s.dev.evt with hubLowReq := true, dozeReason := 0x2503 } } })) := by
  obtain ⟨e, he⟩ : ∃ e : Dev, e = { s.dev with evt := { s.dev.evt with hubLowReq := true } } := ⟨_, rfl⟩
  have hreq : s.dev.hubLowReq true = if (List.range 4).all (fun n => (e.die n).doze == .deep) &&
      (List.range 32).all (fun c => !e.isRunning (claimBlock c)) then { e with evt := { e.evt with hubLow := true } }
      else e.dozeRefuse 0x2503 := by
    have hrun' : e.isRunning .event = true := by rw [he]; exact hrun
    have hlow' : e.evt.hubLow = false := by rw [he]; exact hlow
    unfold Dev.hubLowReq
    rw [← he]
    simp only [Bool.not_true, Bool.false_eq_true, if_false, hlow', hrun']
  have hmay : e.hubMayDoze ↔ s.dev.hubMayDoze := by rw [he]; rfl
  refine ⟨fun h => ⟨_, exec_moduleDozeRequest hmgmt, ?_⟩, fun h => ⟨_, exec_moduleDozeRequest hmgmt, ?_⟩⟩
  · rw [hreq, if_pos (e.hubMayDoze_iff.2 (hmay.2 h)), he]
  · rw [hreq, if_neg fun hall => h (hmay.1 (e.hubMayDoze_iff.1 hall)), he]
    rfl

end Commands

/-- Settles O53: each die by what its own request leaves of it, the dies being independent of one another. -/
theorem diesAndModuleDozeAndWake : Obligations.DiesAndModuleDozeAndWake := by
  unfold Obligations.DiesAndModuleDozeAndWake
  intro s
  refine ⟨fun hmgmt => ⟨fun v => ?_, ends_moduleDozeRequest hmgmt, ⟨_, viaCfg_of_serving hmgmt _, rfl⟩⟩, fun n => ⟨fun deep h => ?_, fun h => ?_⟩⟩
  · obtain ⟨t, hexec, hdozes, hstate, hdies⟩ := ends_dozeRequest hmgmt v
    refine ⟨t, hexec, by rw [hstate]; exact congrArg (fun x => { s with dev := x }) hdozes, fun n hn => ?_⟩
    rw [hdies n hn]
    unfold Dev.dozedDie
    refine ⟨fun hwakes => if_pos hwakes, fun henters => ?_, fun hwakes henters => ?_⟩
    · rw [if_neg (by rintro ⟨h0, -⟩; obtain ⟨h12, -⟩ := henters; omega), if_pos henters]
    · rw [if_neg hwakes, if_neg henters]
  · exact ends_dozeTo (by show answer s (match (s.dev.die n.val).doze with | .entering deep => _ | _ => _) = _; rw [h])
  · exact ends_dozeTo (congrArg (answer s) (if_pos (by simp [h])))

end Sys2Proof.Machine

/-! Event units (R370 to R372) and the monitor (R373, Table 16.6). -/
namespace Sys2Proof.Machine

section Units
variable {s : State} {d : Dev} {u core : Nat}

theorem Dev.unit_setUnit (d : Dev) (u k : Nat) (x : EvtUnit) : (d.setUnit u x).unit k = if k = u then x else d.unit k := by
  by_cases h : k = u
  · subst h; simp [Dev.unit, Dev.setUnit]
  · simp [Dev.unit, Dev.setUnit, Tbl.lookD_put_other _ _ _ h, h]

theorem Dev.unit_setUnit_same (d : Dev) (u : Nat) (x : EvtUnit) : (d.setUnit u x).unit u = x := (d.unit_setUnit ..).trans (if_pos rfl)

theorem Dev.unit_setUnit_other (d : Dev) {u k : Nat} (x : EvtUnit) (h : k ≠ u) : (d.setUnit u x).unit k = d.unit k :=
  (d.unit_setUnit ..).trans (if_neg h)

/-- A command that rewrites one event unit, and may put something out. -/
theorem ends_setUnit {c : Instr} {x : EvtUnit} {out : List Output}
    (h : exec c s = answer s { s.dev.setUnit u x with out := out }) (p : EvtUnit → List Output → Prop) (hp : p x out) : Ends c s (fun t =>
    (t = { s with dev := { s.dev with out := t.dev.out, evt := { s.dev.evt with units := t.dev.evt.units } } } ∧
      ∀ k, k ≠ u → t.dev.unit k = s.dev.unit k) ∧ p (t.dev.unit u) t.dev.out) := by
  refine ⟨_, h, ⟨rfl, fun k hk => s.dev.unit_setUnit_other x hk⟩, ?_⟩
  have hunit : ({ s.dev.setUnit u x with out := out } : Dev).unit u = x := s.dev.unit_setUnit_same u x
  dsimp only
  rw [hunit]
  exact hp

theorem getLsbD_ofNat_two_pow {w n k : Nat} (hk : k < w) : (BitVec.ofNat w (2 ^ n)).getLsbD k = (k == n) := by
  rw [BitVec.getLsbD_ofNat, Nat.testBit_two_pow, decide_eq_true hk, Bool.true_and]
  simp [eq_comm, Bool.beq_eq_decide_eq]

/-! ## Delivery (R371, R372) -/

/-- The better of the best so far and a later source: the higher priority, the earlier among equals. -/
def betterOf (u : Nat) (b : Option Nat) (n : Nat) : Option Nat :=
  match b with
  | none => some n
  | some m => if prioOf u m < prioOf u n then some n else some m

/-- The sources that are pending, routed to a core and not served by it, in ascending order. -/
def Dev.readyEvents (d : Dev) (u core : Nat) : List Nat :=
  (List.range 128).filter fun n => (d.unit u).pend.getLsbD n && d.routed u core n && !(Tbl.lookD (d.unit u).serving core []).contains n

theorem Dev.mem_readyEvents (d : Dev) (u core n : Nat) : n ∈ d.readyEvents u core ↔ n < 128 ∧ (d.unit u).pend.getLsbD n = true ∧
    d.routed u core n = true ∧ n ∉ Tbl.lookD (d.unit u).serving core [] := by
  simp [Dev.readyEvents, and_assoc]

theorem Dev.nextEvent_eq (d : Dev) (u core : Nat) : d.nextEvent u core =
    match (d.readyEvents u core).foldl (betterOf u) none, Tbl.lookD (d.unit u).serving core [] with
    | some n, m :: _ => if prioOf u m < prioOf u n && (Tbl.lookD (d.unit u).serving core []).length < 16 then some n else none
    | b, [] => b
    | none, _ => none := rfl

/-- A source that is served before every other of a list: a higher priority, or a lower number. -/
def Leads (u n : Nat) (l : List Nat) : Prop := ∀ k ∈ l, prioOf u k ≤ prioOf u n ∧ (prioOf u k = prioOf u n → n ≤ k)

theorem leads_foldl_betterOf (u : Nat) (l : List Nat) (m : Nat) (hsorted : (m :: l).Pairwise (· < ·)) :
    ∃ n ∈ m :: l, l.foldl (betterOf u) (some m) = some n ∧ Leads u n (m :: l) := by
  induction l generalizing m with
  | nil => exact ⟨m, List.mem_cons_self, rfl, fun k hk => by rw [List.mem_singleton.1 hk]; exact ⟨le_refl _, fun _ => le_refl _⟩⟩
  | cons a l ih =>
    obtain ⟨hm, hl⟩ := List.pairwise_cons.1 hsorted
    have hma : m < a := hm a List.mem_cons_self
    by_cases hprio : prioOf u m < prioOf u a
    · obtain ⟨n, hn, hfold, hleads⟩ := ih a hl
      obtain ⟨hle, -⟩ := hleads a List.mem_cons_self
      refine ⟨n, List.mem_cons_of_mem m hn, by simpa [betterOf, hprio] using hfold, fun k hk => ?_⟩
      rcases List.mem_cons.1 hk with rfl | hk
      · exact ⟨by omega, fun heq => by omega⟩
      · exact hleads k hk
    · have hskip : (m :: l).Pairwise (· < ·) :=
        List.pairwise_cons.2 ⟨fun k hk => hm k (List.mem_cons_of_mem a hk), (List.pairwise_cons.1 hl).2⟩
      obtain ⟨n, hn, hfold, hleads⟩ := ih m hskip
      obtain ⟨hle, heqm⟩ := hleads m List.mem_cons_self
      refine ⟨n, ?_, by simpa [betterOf, hprio] using hfold, fun k hk => ?_⟩
      · rcases List.mem_cons.1 hn with rfl | hn
        · exact List.mem_cons_self
        · exact List.mem_cons_of_mem m (List.mem_cons_of_mem a hn)
      · rcases List.mem_cons.1 hk with rfl | hk
        · exact hleads k List.mem_cons_self
        · rcases List.mem_cons.1 hk with rfl | hk
          · exact ⟨by omega, fun heq => (heqm (by omega)).trans hma.le⟩
          · exact hleads k (List.mem_cons_of_mem m hk)

theorem leads_of_best {l : List Nat} {n : Nat} (hsorted : l.Pairwise (· < ·)) (h : l.foldl (betterOf u) none = some n) :
    n ∈ l ∧ Leads u n l := by
  cases l with
  | nil => cases h
  | cons m l =>
    obtain ⟨k, hk, hfold, hleads⟩ := leads_foldl_betterOf u l m hsorted
    obtain rfl : k = n := Option.some.inj (hfold.symm.trans h)
    exact ⟨hk, hleads⟩

theorem Dev.nextEvent_spec {n : Nat} (h : d.nextEvent u core = some n) : n ∈ d.readyEvents u core ∧ Leads u n (d.readyEvents u core) ∧
    ∀ m rest, Tbl.lookD (d.unit u).serving core [] = m :: rest →
      prioOf u m < prioOf u n ∧ (Tbl.lookD (d.unit u).serving core []).length < 16 := by
  have hsorted : (d.readyEvents u core).Pairwise (· < ·) := List.pairwise_lt_range.filter _
  rw [Dev.nextEvent_eq] at h
  cases hbest : (d.readyEvents u core).foldl (betterOf u) none with
  | none => rw [hbest] at h; revert h; split <;> simp_all
  | some k =>
    obtain ⟨hk, hleads⟩ := leads_of_best hsorted hbest
    rw [hbest] at h
    cases hserving : Tbl.lookD (d.unit u).serving core [] with
    | nil =>
      rw [hserving] at h
      obtain rfl : k = n := Option.some.inj h
      exact ⟨hk, hleads, fun m rest hc => by cases hc⟩
    | cons m rest =>
      rw [hserving] at h
      dsimp only at h
      split at h
      next habove =>
        obtain rfl : k = n := Option.some.inj h
        refine ⟨hk, hleads, fun m' rest' hc => ?_⟩
        obtain ⟨rfl, -⟩ := List.cons.inj hc
        simpa using habove
      next => cases h

theorem exec_eventDeliver {u : Fin 33} {core : Fin 8} {n : Nat} (h : s.dev.nextEvent u.val core.val = some n)
    (hkolti : u.val = 0 → s.dev.power.kolti = true) : exec (.eventDeliver u core) s =
      let x := s.dev.unit u.val
      answer s ((s.dev.setUnit u.val { x with
        serving := Tbl.put x.serving core.val (n :: Tbl.lookD x.serving core.val []), cause := Tbl.put x.cause core.val n }).emit
          (.event u.val core.val n)) := by
  have hruns : ¬ (decide (u.val = 0) && !s.dev.power.kolti) = true := by
    intro hbad
    simp only [Bool.and_eq_true, decide_eq_true_eq, Bool.not_eq_true'] at hbad
    exact absurd (hkolti hbad.1) (by simp [hbad.2])
  show execEventDeliver u core s = _
  unfold execEventDeliver
  dsimp only
  rw [h]
  exact if_neg hruns

theorem exec_endOfService {u : Fin 33} {core : Fin 8} {n : Nat} {rest : List Nat} (lvl : Bool)
    (h : Tbl.lookD (s.dev.unit u.val).serving core.val [] = n :: rest) : exec (.endOfService u core lvl) s =
      let x := s.dev.unit u.val
      answer s (s.dev.setUnit u.val { x with
        pend := if s.dev.level u.val n lvl then x.pend ||| BitVec.ofNat 128 (2 ^ n) else x.pend &&& ~~~ BitVec.ofNat 128 (2 ^ n)
        serving := Tbl.put x.serving core.val rest }) := by
  show execEndOfService u core lvl s = _
  unfold execEndOfService
  dsimp only
  rw [h]

/-- The bit of a source set or cleared in a mask. -/
theorem getLsbD_setOrClear (x : BitVec 128) (b : Bool) {n k : Nat} (hk : k < 128) :
    (if b then x ||| BitVec.ofNat 128 (2 ^ n) else x &&& ~~~ BitVec.ofNat 128 (2 ^ n)).getLsbD k =
      if k = n then b else x.getLsbD k := by
  have hone := getLsbD_ofNat_two_pow (w := 128) (n := n) hk
  by_cases h : k = n
  · subst h
    cases b <;> simp_all
  · cases b <;> simp_all

end Units

/-! ## The monitor (R373, Table 16.6) -/

section Monitor
variable {s : State} {d : Dev}

/-- A flag put above a number that leaves its place free. -/
theorem testBit_add_flag {x i : Nat} (hx : x < 2 ^ i) (b : Bool) (k : Nat) :
    (x + b2n b * 2 ^ i).testBit k = if k = i then b else x.testBit k := by
  rw [Nat.add_comm, Nat.mul_comm, Nat.testBit_two_pow_mul_add _ hx]
  by_cases hlt : k < i
  · rw [if_pos hlt, if_neg (by omega)]
  · rw [if_neg hlt]
    by_cases heq : k = i
    · rw [if_pos heq, heq, Nat.sub_self]
      cases b <;> rfl
    · have hx' : x.testBit k = false := Nat.testBit_lt_two_pow (hx.trans_le (Nat.pow_le_pow_right (by omega) (by omega)))
      have hpow : 2 ^ 1 ≤ 2 ^ (k - i) := Nat.pow_le_pow_right (by omega) (by omega)
      have hb : b2n b < 2 ^ (k - i) := by have := b2n_le b; omega
      rw [if_neg heq, hx', Nat.testBit_lt_two_pow hb]

theorem add_flag_lt {x i j : Nat} (hx : x < 2 ^ i) (hij : i < j) (b : Bool) : x + b2n b * 2 ^ i < 2 ^ j := by
  have hb := Nat.mul_le_mul_right (2 ^ i) (b2n_le b)
  have hpow : 2 ^ (i + 1) ≤ 2 ^ j := Nat.pow_le_pow_right (by omega) hij
  rw [Nat.pow_succ] at hpow
  omega

/-- The flags of sources 1 to 5, 8, 13 and 14, each in its place. -/
theorem testBit_monitorFlags (a b c e f g h i : Bool) (k : Nat) :
    (b2n a * 2 ^ 1 + b2n b * 2 ^ 2 + b2n c * 2 ^ 3 + b2n e * 2 ^ 4 + b2n f * 2 ^ 5 + b2n g * 2 ^ 8 + b2n h * 2 ^ 13 + b2n i * 2 ^ 14).testBit k =
      if k = 14 then i else if k = 13 then h else if k = 8 then g else if k = 5 then f else if k = 4 then e else if k = 3 then c
      else if k = 2 then b else if k = 1 then a else false := by
  have h1 : b2n a * 2 ^ 1 < 2 ^ 2 := by have := b2n_le a; omega
  have h2 := add_flag_lt h1 (j := 3) (by decide) b
  have h3 := add_flag_lt h2 (j := 4) (by decide) c
  have h4 := add_flag_lt h3 (j := 5) (by decide) e
  have h5 := add_flag_lt h4 (j := 8) (by decide) f
  have h6 := add_flag_lt h5 (j := 13) (by decide) g
  have h7 := add_flag_lt h6 (j := 14) (by decide) h
  have h0 : (b2n a * 2 ^ 1).testBit k = if k = 1 then a else false := by
    have hflag := testBit_add_flag (x := 0) (i := 1) (by decide) a k
    rwa [Nat.zero_add, Nat.zero_testBit] at hflag
  rw [testBit_add_flag h7, testBit_add_flag h6, testBit_add_flag h5, testBit_add_flag h4, testBit_add_flag h3, testBit_add_flag h2,
    testBit_add_flag h1, h0]

/-- The places of a sample that the state fills, source 15 among them. -/
theorem getLsbD_monitorMask : ∀ k < 64, (~~~ BitVec.ofNat 64 0xE13E).getLsbD k =
    !decide (k ∈ [1, 2, 3, 4, 5, 8, 13, 14, 15]) := by decide

theorem Dev.getLsbD_monLevels (d : Dev) (given : BitVec 64) (z : Sensors) {k : Nat} (hk : k < 64) :
    (d.monLevels given z).getLsbD k = (given.getLsbD k && !decide (k ∈ [1, 2, 3, 4, 5, 8, 13, 14, 15]) ||
      if k = 14 then decide (d.evt.wakeTick ≤ d.now) else if k = 13 then d.power.svcReqN else if k = 8 then d.time.refBad
      else if k = 5 then decide (160 < z.outlet - z.inlet) else if k = 4 then decide (400 < z.inlet) else if k = 3 then d.power.thermN
      else if k = 2 then Nat.blt z.auxV 1080 else if k = 1 then !mainInRange z else false) := by
  unfold Dev.monLevels
  dsimp only
  rw [BitVec.getLsbD_or, BitVec.getLsbD_and, getLsbD_monitorMask k hk, BitVec.getLsbD_ofNat, decide_eq_true hk, Bool.true_and,
    testBit_monitorFlags]

/-- Places that the state does not fill are as given. -/
theorem Dev.getLsbD_monLevels_given (d : Dev) (given : BitVec 64) (z : Sensors) {k : Nat} (hk : k < 64)
    (hplace : k ∉ [1, 2, 3, 4, 5, 8, 13, 14, 15]) : (d.monLevels given z).getLsbD k = given.getLsbD k := by
  rw [d.getLsbD_monLevels given z hk, decide_eq_false hplace]
  simp only [List.mem_cons, List.not_mem_nil, or_false, not_or] at hplace
  simp [hplace]

/-- A latch that a sample sets anew, in the wake mask and other than the power warning's. -/
def Dev.wakesBy (d : Dev) (l : BitVec 64) : Prop :=
  ∃ k, 0 < k ∧ k < 64 ∧ l.getLsbD k = true ∧ d.evt.latch.getLsbD k = false ∧ d.evt.wakeMask.getLsbD k = true

theorem Dev.wakesBy_iff (d : Dev) (l : BitVec 64) :
    (l &&& ~~~ d.evt.latch &&& d.evt.wakeMask &&& ~~~ 1) ≠ 0 ↔ d.wakesBy l := by
  have hbit : ∀ k, k < 64 → ((l &&& ~~~ d.evt.latch &&& d.evt.wakeMask &&& ~~~ 1).getLsbD k = true ↔
      0 < k ∧ l.getLsbD k = true ∧ d.evt.latch.getLsbD k = false ∧ d.evt.wakeMask.getLsbD k = true) := fun k hk => by
    have hone : (1 : BitVec 64).getLsbD k = decide (k = 0) := by simp [BitVec.getLsbD_one]
    simp only [BitVec.getLsbD_and, BitVec.getLsbD_not, hone, hk, decide_true, Bool.true_and, Bool.and_eq_true, Bool.not_eq_true',
      decide_eq_false_iff_not, Nat.pos_iff_ne_zero]
    tauto
  constructor
  · intro hne
    by_contra hnone
    refine hne (BitVec.eq_of_getLsbD_eq fun k hk => ?_)
    refine (Bool.eq_false_iff.2 fun hset => ?_).trans BitVec.getLsbD_zero.symm
    obtain ⟨h0, hl, hlatch, hmask⟩ := (hbit k hk).1 hset
    exact hnone ⟨k, h0, hk, hl, hlatch, hmask⟩
  · rintro ⟨k, h0, hk, hl, hlatch, hmask⟩ heq
    have hset := (hbit k hk).2 ⟨h0, hl, hlatch, hmask⟩
    rw [heq] at hset
    simp at hset

/-! ## The end of module doze (R376, R377) -/

theorem Dev.wakeDies_spec (l : List Nat) (d : Dev) :
    l.foldl (fun d n => d.wakeDie n) d = { d with
      dies := (l.foldl (fun d n => d.wakeDie n) d).dies, health := (l.foldl (fun d n => d.wakeDie n) d).health } ∧
    ∀ n, ((d.die n).doze = .waking → ((l.foldl (fun d n => d.wakeDie n) d).die n).doze = .waking) ∧
      (n ∈ l → (d.die n).doze = .light ∨ (d.die n).doze = .deep → ((l.foldl (fun d n => d.wakeDie n) d).die n).doze = .waking) := by
  induction l generalizing d with
  | nil => exact ⟨rfl, fun n => ⟨id, fun h => by cases h⟩⟩
  | cons m l ih =>
    obtain ⟨hframe, hdies⟩ := ih (d.wakeDie m)
    rw [List.foldl_cons]
    refine ⟨by rw [hframe, Dev.wakeDie_eq], fun n => ⟨fun hwaking => (hdies n).1 ?_, fun hn hdozing => ?_⟩⟩
    · by_cases hm : (d.die m).doze = .light ∨ (d.die m).doze = .deep
      · rw [Dev.die_wakeDie_of_dozing hm]
        split
        · rfl
        · exact hwaking
      · rw [Dev.wakeDie_of_not_dozing hm]; exact hwaking
    · by_cases heq : n = m
      · subst heq
        exact (hdies n).1 (by rw [Dev.die_wakeDie_of_dozing hdozing, if_pos rfl])
      · have hother : (d.wakeDie m).die n = d.die n := by
          by_cases hm : (d.die m).doze = .light ∨ (d.die m).doze = .deep
          · rw [Dev.die_wakeDie_of_dozing hm, if_neg heq]
          · rw [Dev.wakeDie_of_not_dozing hm]
        exact (hdies n).2 ((List.mem_cons.1 hn).resolve_left heq) (by rwa [hother])

/-- What a sample shows and latches. -/
def Dev.sampled (d : Dev) (l : BitVec 64) (z : Sensors) : Dev :=
  { d with
    power := { d.power with
      sensors := z, mainOk := mainInRange z && !d.power.protectionOpen, mainLive := d.power.mainLive || mainAbove z d.power, auxOk := auxInRange z }
    evt := { d.evt with level := l, latch := d.evt.latch ||| l } }

theorem exec_monitorSample {levels : BitVec 64} (z : Sensors) (hon : s.dev.power.aonOn = true) (h0 : levels.getLsbD 0 = false) :
    exec (.monitorSample levels z) s = answer s
      (let l := s.dev.monLevels levels z
      if s.dev.evt.hubLow && (l &&& ~~~ s.dev.evt.latch &&& s.dev.evt.wakeMask &&& ~~~ 1) != 0 then (s.dev.sampled l z).endModuleDoze
      else s.dev.sampled l z) := by
  have hwarn : ¬ (s.dev.monLevels levels z).getLsbD 0 = true := by
    rw [Dev.getLsbD_monLevels_given _ _ _ (by decide) (by decide), h0]
    exact Bool.false_ne_true
  show execMonitorSample levels z s = _
  unfold execMonitorSample
  dsimp only
  rw [if_pos hon]
  exact if_neg hwarn

theorem Dev.endModuleDoze_spec (d : Dev) : d.endModuleDoze = { d with
      dies := d.endModuleDoze.dies, health := d.endModuleDoze.health, evt := { d.evt with hubLow := false } } ∧
    ∀ n, n < 4 → (d.die n).doze = .light ∨ (d.die n).doze = .deep → (d.endModuleDoze.die n).doze = .waking := by
  obtain ⟨hframe, hdies⟩ := Dev.wakeDies_spec (List.range 4) { d with evt := { d.evt with hubLow := false } }
  exact ⟨hframe, fun n hn => (hdies n).2 (List.mem_range.2 hn)⟩

theorem blt_eq_decide (a b : Nat) : Nat.blt a b = decide (a < b) := Bool.eq_iff_iff.2 (by rw [Nat.blt_eq, decide_eq_true_eq])

/-- What a sample shows: the sources that the state fills, and the others as given. -/
def Dev.Shows (d : Dev) (levels : BitVec 64) (z : Sensors) (l : BitVec 64) : Prop :=
  l.getLsbD 1 = !mainInRange z ∧ l.getLsbD 2 = decide (z.auxV < 1080) ∧ l.getLsbD 3 = d.power.thermN ∧ l.getLsbD 4 = decide (400 < z.inlet) ∧
  l.getLsbD 5 = decide (160 < z.outlet - z.inlet) ∧ l.getLsbD 13 = d.power.svcReqN ∧ l.getLsbD 14 = decide (d.evt.wakeTick ≤ d.now) ∧
  l.getLsbD 15 = false ∧ l.getLsbD 8 = d.time.refBad ∧ (∀ k, k < 13 → 5 < k → k ≠ 8 → l.getLsbD k = levels.getLsbD k) ∧
  ∀ k, 16 ≤ k → k < 64 → l.getLsbD k = levels.getLsbD k

theorem Dev.shows_monLevels (d : Dev) (levels : BitVec 64) (z : Sensors) : d.Shows levels z (d.monLevels levels z) := by
  refine ⟨?_, ?_, ?_, ?_, ?_, ?_, ?_, ?_, ?_, fun k hlt hgt hne => d.getLsbD_monLevels_given levels z (by omega) (by simp; omega),
    fun k hle hlt => d.getLsbD_monLevels_given levels z hlt (by simp; omega)⟩
  all_goals
    rw [d.getLsbD_monLevels levels z (by decide)]
    simp [blt_eq_decide]

/-- A sample by the device that it leaves: its levels, and whether a fresh latch ends module doze. -/
theorem exec_monitorSample_spec (levels : BitVec 64) (z : Sensors) (hon : s.dev.power.aonOn = true) (h0 : levels.getLsbD 0 = false) :
    ∃ t : Dev, exec (.monitorSample levels z) s = answer s t ∧ t.evt.level = s.dev.monLevels levels z ∧
      t = { s.dev.sampled (s.dev.monLevels levels z) z with
        dies := t.dies, health := t.health, evt := { (s.dev.sampled (s.dev.monLevels levels z) z).evt with hubLow := t.evt.hubLow } } ∧
      (s.dev.evt.hubLow = true → s.dev.wakesBy (s.dev.monLevels levels z) → t.evt.hubLow = false ∧
        ∀ n, n < 4 → (s.dev.die n).doze = .light ∨ (s.dev.die n).doze = .deep → (t.die n).doze = .waking) ∧
      (s.dev.evt.hubLow = false ∨ ¬ s.dev.wakesBy (s.dev.monLevels levels z) →
        t.evt.hubLow = s.dev.evt.hubLow ∧ t.dies = s.dev.dies ∧ t.health = s.dev.health) := by
  have hwakes := s.dev.wakesBy_iff (s.dev.monLevels levels z)
  have hexec := exec_monitorSample z hon h0
  dsimp only at hexec
  by_cases hends : s.dev.evt.hubLow = true ∧ s.dev.wakesBy (s.dev.monLevels levels z)
  · obtain ⟨hframe, hdies⟩ := (s.dev.sampled (s.dev.monLevels levels z) z).endModuleDoze_spec
    have hevt := congrArg Dev.evt hframe
    rw [if_pos (by rw [hends.1, Bool.true_and, bne_iff_ne]; exact hwakes.2 hends.2)] at hexec
    refine ⟨_, hexec, congrArg Evt.level hevt, ?_, fun _ _ => ⟨congrArg Evt.hubLow hevt, hdies⟩, fun hno => ?_⟩
    · rw [show (s.dev.sampled (s.dev.monLevels levels z) z).endModuleDoze.evt.hubLow = false from congrArg Evt.hubLow hevt]
      exact hframe
    · rcases hno with hno | hno
      · rw [hno] at hends; exact absurd hends.1 Bool.false_ne_true
      · exact absurd hends.2 hno
  · rw [if_neg (by rw [Bool.and_eq_true, bne_iff_ne, ne_eq, ← ne_eq, hwakes]; exact hends)] at hexec
    exact ⟨_, hexec, rfl, rfl, fun hlow hwake => absurd ⟨hlow, hwake⟩ hends, fun _ => ⟨rfl, rfl, rfl⟩⟩

end Monitor

/-- Settles O51. -/
theorem eventsPendAreDeliveredAndServed : Obligations.EventsPendAreDeliveredAndServed := by
  unfold Obligations.EventsPendAreDeliveredAndServed
  intro s u core
  refine ⟨fun n hok hlevel => ?_, fun n hnext hkolti => ?_, fun lvl n rest hserving hn => ?_, fun levels z hon h0 => ?_⟩
  · have hexec : exec (.eventSourceAssert u n) s = answer s (s.dev.setUnit u.val
        { s.dev.unit u.val with pend := (s.dev.unit u.val).pend ||| BitVec.ofNat 128 (2 ^ n.val) }) :=
      congrArg (answer s) (if_pos (by simp only [hok, hlevel, Bool.and_self]))
    refine ends_setUnit hexec (fun y out => out = s.dev.out ∧ y.serving = (s.dev.unit u.val).serving ∧ y.cause = (s.dev.unit u.val).cause ∧
      ∀ k, k < 128 → y.pend.getLsbD k = ((s.dev.unit u.val).pend.getLsbD k || k == n.val)) ⟨rfl, rfl, rfl, fun k hk => ?_⟩
    rw [BitVec.getLsbD_or, getLsbD_ofNat_two_pow hk]
  · obtain ⟨hready, hleads, habove⟩ := Dev.nextEvent_spec hnext
    obtain ⟨-, hpend, hrouted, hnot⟩ := (s.dev.mem_readyEvents ..).1 hready
    obtain ⟨t, hexec, hframe, hout, hpends, hput, hcause⟩ := ends_setUnit (exec_eventDeliver hnext hkolti) (fun y out =>
      out = .event u.val core.val n :: s.dev.out ∧ y.pend = (s.dev.unit u.val).pend ∧
      Tbl.lookD y.serving core.val [] = n :: Tbl.lookD (s.dev.unit u.val).serving core.val [] ∧ Tbl.look y.cause core.val = some n)
      ⟨rfl, rfl, Tbl.lookD_put_same .., Tbl.look_put_same ..⟩
    exact ⟨t, hexec, hframe, hout, hpends, hput, hcause, hpend, hrouted, hnot,
      fun m hm hmp hmr hms => hleads m ((s.dev.mem_readyEvents ..).2 ⟨hm, hmp, hmr, hms⟩), habove⟩
  · refine ends_setUnit (exec_endOfService lvl hserving) (fun y out => out = s.dev.out ∧ Tbl.lookD y.serving core.val [] = rest ∧
      y.pend.getLsbD n = s.dev.level u.val n lvl ∧ ∀ k, k < 128 → k ≠ n → y.pend.getLsbD k = (s.dev.unit u.val).pend.getLsbD k)
      ⟨rfl, Tbl.lookD_put_same .., ?_, fun k hk hne => ?_⟩
    · exact (getLsbD_setOrClear _ _ hn).trans (if_pos rfl)
    · exact (getLsbD_setOrClear _ _ hk).trans (if_neg hne)
  · obtain ⟨t, hexec, hlevel, hframe, hends, hstands⟩ := exec_monitorSample_spec levels z hon h0
    have hshows := s.dev.shows_monLevels levels z
    rw [← hlevel] at hshows hframe hends hstands
    obtain ⟨h1, h2, h3, h4, h5, h13, h14, h15, h8, hgiven, habove⟩ := hshows
    exact ⟨_, hexec, congrArg (fun x => { s with dev := x }) hframe, h1, h2, h3, h4, h5, h13, h14, h15, h8, hgiven, habove, hends, hstands⟩

end Sys2Proof.Machine

/-! Control kernels and their issue ports (R364 to R369). -/
namespace Sys2Proof.Machine

section Kernels
variable {s : State} {d : Dev} {c : Nat}

theorem Dev.kernel_setKernel (d : Dev) (c k : Nat) (x : Kernel) : (d.setKernel c x).kernel k = if k = c then x else d.kernel k := by
  by_cases h : k = c
  · subst h; simp [Dev.kernel, Dev.setKernel]
  · simp [Dev.kernel, Dev.setKernel, Tbl.lookD_put_other _ _ _ h, h]

theorem Dev.kernel_setKernel_same (d : Dev) (c : Nat) (x : Kernel) : (d.setKernel c x).kernel c = x :=
  (d.kernel_setKernel ..).trans (if_pos rfl)

theorem Dev.kernel_setKernel_other (d : Dev) {c k : Nat} (x : Kernel) (h : k ≠ c) : (d.setKernel c x).kernel k = d.kernel k :=
  (d.kernel_setKernel ..).trans (if_neg h)

/-- A kernel of the part, and the reason of its last command. -/
def Dev.kernelSet (d : Dev) (c : Nat) (x : Kernel) (why : BitVec 16) : Dev :=
  { d with evt := { d.evt with kernels := Tbl.put d.evt.kernels c x, krnReason := why } }

theorem Dev.kernel_kernelSet (d : Dev) (c k : Nat) (x : Kernel) (why : BitVec 16) :
    (d.kernelSet c x why).kernel k = if k = c then x else d.kernel k := d.kernel_setKernel c k x

/-! ## LOAD (R367, R368) -/

theorem Dev.length_readDev (d : Dev) (m : Memory) (a n : Nat) : (d.readDev m a n).length = n := by
  rw [Dev.readDev, List.length_map, List.length_range]

/-- The image that passes is what the device address names. -/
theorem Dev.krnCheck_ok {m : Memory} {auth : Nat} {body : List Byte} (h : d.krnCheck m c = .ok (auth, body)) :
    body = d.readDev m (d.evt.krnAddr.toNat % 2 ^ 42) body.length := by
  unfold Dev.krnCheck at h
  dsimp only at h
  split_ifs at h
  all_goals
    injection h with h
    obtain ⟨-, rfl⟩ := Prod.mk.inj h
    rw [Dev.length_readDev]

theorem exec_kernelLoad_error (hmgmt : s.dev.health.stopped = false) {why : Nat} (h : s.dev.krnCheck s.mem s.dev.selKernel = .error why) :
    exec .kernelLoad s = answer s (s.dev.krnRes why) := by
  show viaCfg s _ = _
  rw [viaCfg_of_serving hmgmt, h]

theorem exec_kernelLoad_ok (hmgmt : s.dev.health.stopped = false) {auth : Nat} {body : List Byte}
    (h : s.dev.krnCheck s.mem s.dev.selKernel = .ok (auth, body)) : exec .kernelLoad s = answer s
      ((s.dev.engineRead (s.dev.evt.krnAddr.toNat % 2 ^ 42) (body.length + 1280)).kernelSet s.dev.selKernel
        { st := .loaded, image := body, auth := auth } 0) := by
  show viaCfg s _ = _
  rw [viaCfg_of_serving hmgmt, h]
  rfl

theorem Dev.engineRead_recall_host (d : Dev) (a n : Nat) : (d.engineRead a n).host = (d.recall a n).host := by simp [Dev.engineRead]
theorem Dev.engineRead_recall_out (d : Dev) (a n : Nat) : (d.engineRead a n).out = (d.recall a n).out := by simp [Dev.engineRead]

theorem Dev.recall_cached (d : Dev) (a n : Nat) : (d.recall a n).host = { d.host with cached := (d.recall a n).host.cached } := by
  unfold Dev.recall; split <;> rfl

/-- The host's copies that a range needs are recalled, and the host holds none of them after. -/
theorem Dev.recall_sends (d : Dev) (a n : Nat) {o : Output} (ho : o ∈ (d.recall a n).out) :
    o ∈ d.out ∨ ∃ l ∈ d.host.cached, o = .recall l ∧ l ∉ (d.recall a n).host.cached := by
  unfold Dev.recall at ho ⊢
  split at ho
  next hbi =>
    rw [if_pos hbi]
    rcases List.mem_append.1 ho with hsent | hold
    · obtain ⟨l, hl, rfl⟩ := List.mem_map.1 (List.mem_reverse.1 hsent)
      obtain ⟨hcached, hhit⟩ := List.mem_filter.1 hl
      exact .inr ⟨l, hcached, rfl, fun hkept => by
        have hkept := (List.mem_filter.1 hkept).2
        simp only [hhit, Bool.not_true, Bool.false_eq_true] at hkept⟩
    · exact .inl hold
  next => exact .inl ho

theorem Dev.engineRead_eq (d : Dev) (a n : Nat) : d.engineRead a n = { d with
    dies := (d.engineRead a n).dies, health := (d.engineRead a n).health, dozeAborted := (d.engineRead a n).dozeAborted
    out := (d.engineRead a n).out, host := { d.host with cached := (d.engineRead a n).host.cached } } := by
  have hhost := (d.engineRead_recall_host a n).trans (d.recall_cached a n)
  rw [← d.engineRead_recall_host] at hhost
  apply Dev.ext <;> simp [← hhost]

/-! ## START and STOP (R367, R368) -/

/-- An issue port opens for a claim, unless it is the claim's already. -/
def Dev.openPort (d : Dev) (c r : Nat) : Dev :=
  if (d.ring r).claim.toNat == c && (Tbl.look d.rings r).isSome then d else d.setRing r { Ring.reset with claim := BitVec.ofNat 5 c }

theorem Dev.openPort_spec (d : Dev) (c r : Nat) : d.openPort c r = { d with rings := (d.openPort c r).rings } ∧
    ((d.openPort c r).ring r).claim = BitVec.ofNat 5 c ∧ ∀ k, k ≠ r → (d.openPort c r).ring k = d.ring k := by
  unfold Dev.openPort
  split
  next h =>
    have hclaim : (d.ring r).claim.toNat = c := by simp only [Bool.and_eq_true, beq_iff_eq] at h; exact h.1
    exact ⟨rfl, by rw [← hclaim, BitVec.ofNat_toNat, BitVec.setWidth_eq], fun _ _ => rfl⟩
  next => exact ⟨rfl, by rw [Dev.ring_setRing, if_pos rfl], fun k hk => (d.ring_setRing ..).trans (if_neg hk)⟩

theorem Dev.openPorts_spec (c : Nat) (l : List Nat) (d : Dev) :
    l.foldl (fun d r => d.openPort c r) d = { d with rings := (l.foldl (fun d r => d.openPort c r) d).rings } ∧
    ∀ r, (r ∈ l ∨ (d.ring r).claim = BitVec.ofNat 5 c → ((l.foldl (fun d r => d.openPort c r) d).ring r).claim = BitVec.ofNat 5 c) ∧
      (r ∉ l → (l.foldl (fun d r => d.openPort c r) d).ring r = d.ring r) := by
  induction l generalizing d with
  | nil => exact ⟨rfl, fun r => ⟨fun h => h.resolve_left List.not_mem_nil, fun _ => rfl⟩⟩
  | cons a l ih =>
    obtain ⟨hone, hopen, hother⟩ := d.openPort_spec c a
    obtain ⟨hrest, hrings⟩ := ih (d.openPort c a)
    rw [List.foldl_cons]
    refine ⟨by rw [hrest, hone], fun r => ⟨fun h => (hrings r).1 ?_, fun h => ?_⟩⟩
    · by_cases hr : r = a
      · exact .inr (by rw [hr]; exact hopen)
      · rw [hother r hr]
        exact h.imp_left fun hmem => (List.mem_cons.1 hmem).resolve_left hr
    · obtain ⟨hne, hnot⟩ := not_or.1 (List.mem_cons.not.1 h)
      rw [(hrings r).2 hnot, hother r hne]

theorem Dev.mem_portsOf (d : Dev) (c r : Nat) : r ∈ d.portsOf c ↔ ∃ k, k < 32 ∧ (d.claim c).cores.getLsbD k = true ∧ r = 1024 + k := by
  have hbit : ∀ k, bit (d.claim c).cores.toNat k = (d.claim c).cores.getLsbD k := fun k => by
    rw [bit, BitVec.getLsbD, Nat.testBit_eq_decide_div_mod_eq, Bool.beq_eq_decide_eq]
  simp only [Dev.portsOf, List.mem_map, setBits, List.mem_filter, List.mem_range, hbit, and_assoc, eq_comm (a := r)]

theorem exec_kernelStart (hmgmt : s.dev.health.stopped = false) (hrun : s.dev.isRunning .event = true) : exec .kernelStart s = answer s
    (if (s.dev.kernel s.dev.selKernel).st == .loaded || (s.dev.kernel s.dev.selKernel).st == .stopped then
      let d := (s.dev.portsOf s.dev.selKernel).foldl (fun d r => d.openPort s.dev.selKernel r) s.dev
      (d.kernelSet s.dev.selKernel { d.kernel s.dev.selKernel with st := .running } 0).emit (.kernel s.dev.selKernel true)
    else s.dev.krnRes 0x2508) := by
  refine (viaCfg_of_serving hmgmt _).trans ?_
  dsimp only
  rw [hrun]
  rfl

theorem exec_kernelStop (hmgmt : s.dev.health.stopped = false) (hrun : s.dev.isRunning .event = true) : exec .kernelStop s = answer s
    (if (s.dev.kernel s.dev.selKernel).st == .running then
      (s.dev.kernelSet s.dev.selKernel { s.dev.kernel s.dev.selKernel with st := .stopped } 0).emit (.kernel s.dev.selKernel false)
    else s.dev.krnRes 0x2508) := by
  refine (viaCfg_of_serving hmgmt _).trans ?_
  dsimp only
  rw [hrun]
  rfl

/-! ## Exceptions (R365, R368) -/

/-- A kernel faulted, before the alarm. -/
def Dev.kernelHalted (d : Dev) (c : Nat) : Dev :=
  { d with
    evt := { d.evt with
      kernels := Tbl.put d.evt.kernels c { d.kernel c with st := .faulted }, krnReason := 0x2509, krnFaults := d.evt.krnFaults + 1 }
    out := .kernel c false :: d.out }

theorem Dev.mem_out_alarm {o : Output} (h : o ∈ d.out) (b r u : Nat) (v : Word) : o ∈ (d.alarm b r u v).out := by
  unfold Dev.alarm
  apply Dev.mem_out_raise
  exact h

theorem Dev.kernel_kernelHalted (d : Dev) (c k : Nat) :
    (d.kernelHalted c).kernel k = if k = c then { d.kernel c with st := .faulted } else d.kernel k :=
  d.kernel_kernelSet c k { d.kernel c with st := .faulted } 0x2509

theorem Dev.krnFault_of_running (h : (d.kernel c).st = .running) :
    d.krnFault c = (d.kernelHalted c).alarm 0x25 0x1C00C0 c (d.evt.krnFaults + 1) :=
  if_pos (by rw [h]; rfl)

theorem Dev.krnFault_eq (h : (d.kernel c).st = .running) : d.krnFault c = { d with
    health := (d.krnFault c).health, out := (d.krnFault c).out, host := { d.host with msixPending := (d.krnFault c).host.msixPending }
    evt := { d.evt with kernels := (d.krnFault c).evt.kernels, krnReason := 0x2509, krnFaults := d.evt.krnFaults + 1 } } := by
  rw [Dev.krnFault_of_running h, Dev.alarm_evt]
  exact (d.kernelHalted c).alarm_eq 0x25 0x1C00C0 c (d.evt.krnFaults + 1)

theorem Dev.kernel_krnFault (h : (d.kernel c).st = .running) (k : Nat) :
    (d.krnFault c).kernel k = if k = c then { d.kernel c with st := .faulted } else d.kernel k := by
  rw [Dev.krnFault_of_running h, Dev.kernel_congr (Dev.alarm_evt ..), Dev.kernel_kernelHalted]

theorem Dev.krnFault_tells (h : (d.kernel c).st = .running) : .kernel c false ∈ (d.krnFault c).out ∧
    (d.krnFault c).health.alarms = d.health.alarms + 1 ∧
    (.msix 1 ∈ (d.krnFault c).out ∨ (d.krnFault c).host.msixPending.getLsbD 1 = true) := by
  have hhalts : .kernel c false ∈ (d.kernelHalted c).out := List.mem_cons_self
  rw [Dev.krnFault_of_running h]
  exact ⟨Dev.mem_out_alarm hhalts .., Dev.alarm_alarms .., Dev.alarm_sent_or_pending ..⟩

theorem ends_kernelException {n : Fin 32} (h : (s.dev.kernel n.val).st = .running) : Ends (.kernelException n) s (fun t =>
    t = { s with dev := { s.dev with
      health := t.dev.health, out := t.dev.out, host := { s.dev.host with msixPending := t.dev.host.msixPending }
      evt := { s.dev.evt with kernels := t.dev.evt.kernels, krnReason := 0x2509, krnFaults := s.dev.evt.krnFaults + 1 } } } ∧
    t.dev.kernel n.val = { s.dev.kernel n.val with st := .faulted } ∧ (∀ k, k ≠ n.val → t.dev.kernel k = s.dev.kernel k) ∧
    .kernel n.val false ∈ t.dev.out ∧ t.dev.health.alarms = s.dev.health.alarms + 1 ∧
    (.msix 1 ∈ t.dev.out ∨ t.dev.host.msixPending.getLsbD 1 = true)) :=
  ⟨{ s with dev := s.dev.krnFault n.val }, rfl, congrArg (fun x => { s with dev := x }) (Dev.krnFault_eq h),
    (Dev.kernel_krnFault h _).trans (if_pos rfl), fun k hk => (Dev.kernel_krnFault h k).trans (if_neg hk), Dev.krnFault_tells h⟩

/-! ## Issue ports (R369) -/

theorem exec_kernelIssue {n : Fin 4} {core : Fin 8} {k : Nat} (hk : s.dev.krnClaim (8 * n.val + core.val) = some k) (desc : BitVec 512) :
    exec (.kernelIssue n core desc) s =
      let r := 1024 + 8 * n.val + core.val
      let g := s.dev.ring r
      if g.claim.toNat = k && !g.stopped && Nat.blt (g.cqTail - g.cqHeadLast).toNat 64 && Nat.blt g.ents.length 64 then
        let d := s.dev.setRing r { g with
          sqHead := g.sqHead + 1, sqTailLast := g.sqHead + 1, ents := g.ents ++ [Entry.fresh g.sqHead desc], skip := g.skip - 1
          orphans := (g.orphans.1 - 1, g.orphans.2) }
        answer s (match s.dev.fetchFate r g.sqHead desc with | some (st, why) => d.decideEntry r g.sqHead st why | none => d)
      else answer s s.dev := by
  show execKernelIssue n core desc s = _
  unfold execKernelIssue
  dsimp only
  rw [hk] <;> rfl

theorem ends_kernelIssue_taken {n : Fin 4} {core : Fin 8} {k : Nat} (hk : s.dev.krnClaim (8 * n.val + core.val) = some k) (desc : BitVec 512)
    {r : Nat} (hr : r = 1024 + 8 * n.val + core.val) {g : Ring} (hg : g = s.dev.ring r) (hclaim : g.claim.toNat = k)
    (hstopped : g.stopped = false) (hroom : (g.cqTail - g.cqHeadLast).toNat < 64) (hents : g.ents.length < 64)
    (hfate : s.dev.fetchFate r g.sqHead desc = none) : Ends (.kernelIssue n core desc) s (fun t =>
      t = { s with dev := { s.dev with rings := t.dev.rings } } ∧ OnlyRing r s t ∧
      (t.dev.ring r).sqHead = g.sqHead + 1 ∧ (t.dev.ring r).ents = g.ents ++ [Entry.fresh g.sqHead desc] ∧
      (t.dev.ring r).cqTail = g.cqTail ∧ (t.dev.ring r).cqHeadLast = g.cqHeadLast) := by
  have hexec := exec_kernelIssue hk desc
  dsimp only at hexec
  rw [← hr, ← hg, if_pos (by simp only [blt_eq_decide, hclaim, hstopped, hroom, hents, decide_true, Bool.not_false, Bool.and_self]), hfate] at hexec
  refine ⟨_, hexec, rfl, fun j hj => (s.dev.ring_setRing ..).trans (if_neg hj), ?_⟩
  dsimp only
  rw [Dev.ring_setRing, if_pos rfl]
  exact ⟨rfl, rfl, rfl, rfl⟩

theorem ends_kernelIssue_stalled {n : Fin 4} {core : Fin 8} {k : Nat} (hk : s.dev.krnClaim (8 * n.val + core.val) = some k) (desc : BitVec 512)
    (hfull : 64 ≤ ((s.dev.ring (1024 + 8 * n.val + core.val)).cqTail - (s.dev.ring (1024 + 8 * n.val + core.val)).cqHeadLast).toNat) :
    Ends (.kernelIssue n core desc) s (fun t => t = s) := by
  have hexec := exec_kernelIssue hk desc
  dsimp only at hexec
  rw [blt_eq_decide, decide_eq_false (not_lt.2 hfull), Bool.and_false, Bool.false_and, if_neg Bool.false_ne_true] at hexec
  exact ⟨s, hexec, rfl⟩

theorem exec_kernelHeadWrite {n : Fin 4} {core : Fin 8} {k : Nat} (hk : s.dev.krnClaim (8 * n.val + core.val) = some k) (v : W32)
    (hfin : (s.dev.ring (1024 + 8 * n.val + core.val)).finished = []) : exec (.kernelHeadWrite n core v) s =
      let r := 1024 + 8 * n.val + core.val
      answer s (if (s.dev.ring r).headOk v then s.dev.setRing r { s.dev.ring r with cqHeadLast := v } else s.dev) := by
  have hpost : (s.dev.setRing (1024 + 8 * n.val + core.val) { s.dev.ring (1024 + 8 * n.val + core.val) with cqHeadLast := v }).postAll
      (1024 + 8 * n.val + core.val) =
      s.dev.setRing (1024 + 8 * n.val + core.val) { s.dev.ring (1024 + 8 * n.val + core.val) with cqHeadLast := v } :=
    Dev.postAll_of_none (by rw [Dev.ring_setRing, if_pos rfl]; exact hfin)
  show execKernelHeadWrite n core v s = _
  unfold execKernelHeadWrite
  dsimp only
  rw [hk, hpost]
  rfl

end Kernels

/-- Settles O52. -/
theorem kernelsLoadStartStopAndIssue : Obligations.KernelsLoadStartStopAndIssue := by
  unfold Obligations.KernelsLoadStartStopAndIssue
  intro s
  refine ⟨fun hmgmt => ⟨fun why h => ⟨_, exec_kernelLoad_error hmgmt h, rfl⟩, fun auth body h => ?load, fun hrun hst => ?start,
    fun hrun hst => ?stop, fun hrun hl hs => ?noStart, fun hrun hst => ?noStop⟩, fun n h => ends_kernelException h,
    fun n core k hk => ⟨fun desc hclaim hstopped => ⟨fun hroom hents hfate => ?issue, fun hfull => ends_kernelIssue_stalled hk desc hfull⟩,
      fun v hfin => ⟨fun hok => ?head, fun hbad => ?noHead⟩⟩⟩
  case load =>
    have hframe := s.dev.engineRead_eq (s.dev.evt.krnAddr.toNat % 2 ^ 42) (body.length + 1280)
    have hout := s.dev.engineRead_recall_out (s.dev.evt.krnAddr.toNat % 2 ^ 42) (body.length + 1280)
    have hhost := s.dev.engineRead_recall_host (s.dev.evt.krnAddr.toNat % 2 ^ 42) (body.length + 1280)
    have hsends := fun o => s.dev.recall_sends (s.dev.evt.krnAddr.toNat % 2 ^ 42) (body.length + 1280) (o := o)
    rw [← hout, ← hhost] at hsends
    have hexec := exec_kernelLoad_ok hmgmt h
    generalize s.dev.engineRead (s.dev.evt.krnAddr.toNat % 2 ^ 42) (body.length + 1280) = e at hframe hsends hexec
    have hkernel : ∀ k, e.kernel k = s.dev.kernel k := fun k => Dev.kernel_congr (congrArg Dev.evt hframe) k
    have hrings : e.rings = s.dev.rings := by rw [hframe]
    refine ⟨_, hexec, ⟨State.ext ?_ rfl rfl, fun k hk => ?_⟩, rfl, (e.kernel_kernelSet ..).trans (if_pos rfl), hrings, hsends,
      Dev.krnCheck_ok h⟩
    · dsimp only
      rw [hframe]
      rfl
    · exact (e.kernel_kernelSet ..).trans ((if_neg hk).trans (hkernel k))
  case start =>
    have hst : ((s.dev.kernel s.dev.selKernel).st == .loaded || (s.dev.kernel s.dev.selKernel).st == .stopped) = true := by
      rcases hst with hst | hst <;> rw [hst] <;> rfl
    have hexec := exec_kernelStart hmgmt hrun
    rw [if_pos hst] at hexec
    obtain ⟨hframe, hports⟩ := Dev.openPorts_spec s.dev.selKernel (s.dev.portsOf s.dev.selKernel) s.dev
    dsimp only at hexec
    generalize (s.dev.portsOf s.dev.selKernel).foldl (fun d r => d.openPort s.dev.selKernel r) s.dev = e at hframe hports hexec
    have hkernel : ∀ k, e.kernel k = s.dev.kernel k := fun k => Dev.kernel_congr (congrArg Dev.evt hframe) k
    have hmem := s.dev.mem_portsOf s.dev.selKernel
    have hparts : e.dies = s.dev.dies ∧ e.health = s.dev.health ∧ e.host = s.dev.host := by rw [hframe]; exact ⟨rfl, rfl, rfl⟩
    have hout : e.out = s.dev.out := by rw [hframe]
    obtain ⟨hdies, hhealth, hhost⟩ := hparts
    refine ⟨_, hexec, ⟨State.ext ?_ rfl rfl, fun k hk => ?_⟩, rfl, ?_, congrArg (_ :: ·) hout, hdies, hhealth, hhost,
      fun k hk hcore => (hports _).1 (.inl ((hmem _).2 ⟨k, hk, hcore, rfl⟩)), fun r hr => (hports r).2 fun hin => ?_⟩
    · dsimp only
      rw [hframe]
      rfl
    · exact (e.kernel_kernelSet ..).trans ((if_neg hk).trans (hkernel k))
    · exact (e.kernel_kernelSet ..).trans ((if_pos rfl).trans (by rw [hkernel]))
    · obtain ⟨k, -, -, rfl⟩ := (hmem r).1 hin
      omega
  case stop =>
    have hexec := exec_kernelStop hmgmt hrun
    rw [if_pos (by rw [hst]; rfl)] at hexec
    exact ⟨_, hexec, ⟨rfl, fun k hk => (s.dev.kernel_kernelSet ..).trans (if_neg hk)⟩, rfl, (s.dev.kernel_kernelSet ..).trans (if_pos rfl),
      rfl, rfl, rfl, rfl, rfl⟩
  case noStart =>
    refine ⟨_, exec_kernelStart hmgmt hrun, ?_⟩
    rw [if_neg (by simp [hl, hs])]
    rfl
  case noStop =>
    refine ⟨_, exec_kernelStop hmgmt hrun, ?_⟩
    rw [if_neg (by simp [hst])]
    rfl
  case issue => exact ends_kernelIssue_taken hk desc rfl rfl hclaim hstopped hroom hents hfate
  case head => exact ⟨_, exec_kernelHeadWrite hk v hfin, by rw [if_pos hok]⟩
  case noHead => exact ⟨_, exec_kernelHeadWrite hk v hfin, by rw [if_neg (by simp [hbad])]⟩

end Sys2Proof.Machine

/-! The security mailbox (R403, Tables 18.3 to 18.5), identity, attestation and firmware (R399, R402, R407, R420). -/
namespace Sys2Proof.Machine

/-! ## Answers -/

/-- A message of the mailbox is answered, and the rest of the device is as in `x`: the reply stands at its address, BUSY clears, DONE sets,
vector 6 is raised, and a failure is counted. -/
def Answered (s : State) (x : Dev) (type tag st : Nat) (body : List Byte) (t : State) : Prop :=
  t = { s with dev := { x with
    host := t.dev.host, out := t.dev.out
    mbx := { s.dev.mbx with
      busy := false, done := true, status := BitVec.ofNat 16 st, cntRefused := s.dev.mbx.cntRefused + (if st = 0 then 0 else 1) } } } ∧
  (.msix 6 ∈ t.dev.out ∨ t.dev.host.msixPending.getLsbD 6 = true) ∧
  .hostWrite s.dev.mbx.rspAddr.toNat (toLe 2 type ++ toLe 2 st ++ toLe 4 body.length ++ toLe 4 tag ++ toLe 4 0 ++ body) ∈ t.dev.out

section Reply
variable {s : State} {x : Dev} {m : Msg} {st : Nat} {body : List Byte} {work : Dev → Except Nat (Dev × List Byte)}

/-- The mailbox's registers once a message has ended. -/
def Mailbox.ended (b : Mailbox) (st : Nat) : Mailbox :=
  { b with busy := false, done := true, status := BitVec.ofNat 16 st, cntRefused := b.cntRefused + (if st = 0 then 0 else 1) }

/-- A reply, before vector 6. -/
def Dev.replied (d : Dev) (m : Msg) (st : Nat) (body : List Byte) : Dev :=
  { d with
    mbx := d.mbx.ended st
    out := if d.mbx.rspAddr.toNat % 64 = 0 then .hostWrite d.mbx.rspAddr.toNat
        (toLe 2 m.type ++ toLe 2 st ++ toLe 4 body.length ++ toLe 4 m.tag ++ toLe 4 0 ++ body) :: d.out
      else d.out }

/-- No message but the kernel's own ends with status 7. -/
theorem Dev.reply_eq (d : Dev) (m : Msg) (body : List Byte) (h : st ≠ 7) : d.reply m st body = (d.replied m st body).raise 6 := by
  have hcount : (if (st != 0 && st != 7) = true then d.mbx.cntRefused + 1 else d.mbx.cntRefused) =
      d.mbx.cntRefused + (if st = 0 then 0 else 1) := by
    by_cases h0 : st = 0 <;> simp [h0, h]
  unfold Dev.reply Dev.replied Mailbox.ended
  simp only [← hcount]
  by_cases haddr : d.mbx.rspAddr.toNat % 64 = 0
  · simp only [haddr, beq_self_eq_true, if_true]; rfl
  · simp only [haddr, beq_iff_eq, if_false]

theorem Dev.raise_eq (d : Dev) (v : Nat) : d.raise v = { d with host := (d.raise v).host, out := (d.raise v).out } := by
  apply Dev.ext <;> simp

theorem answered_reply (hmbx : x.mbx = s.dev.mbx) (hst : st ≠ 7) (haligned : s.dev.mbx.aligned = true) :
    Answered s x m.type m.tag st body { s with dev := x.reply m st body } := by
  have haddr : s.dev.mbx.rspAddr.toNat % 64 = 0 := by
    simp only [Mailbox.aligned, Bool.and_eq_true, beq_iff_eq] at haligned
    exact haligned.2
  have hwritten : .hostWrite s.dev.mbx.rspAddr.toNat (toLe 2 m.type ++ toLe 2 st ++ toLe 4 body.length ++ toLe 4 m.tag ++ toLe 4 0 ++ body) ∈
      (x.replied m st body).out := by
    unfold Dev.replied
    rw [hmbx, if_pos haddr]
    exact List.mem_cons_self
  rw [Dev.reply_eq x m body hst]
  refine ⟨State.ext ((Dev.raise_eq _ 6).trans ?_) rfl rfl, Dev.raise_sent_or_pending _ (by decide), Dev.mem_out_raise hwritten 6⟩
  unfold Dev.replied
  rw [hmbx]
  rfl

/-- What every message meets before its own work. -/
structure MailboxOpen (s : State) : Prop where
  served : s.dev.mailboxServed = true
  aligned : s.dev.mbx.aligned = true
  identity : s.dev.power.identityBad = false

theorem serveMsg_of_open (h : MailboxOpen s) : serveMsg s m work =
    if !m.headerOk then answer s (s.dev.reply m 1 [])
    else if m.type != 0x0001 && m.type != 0x0003 && !s.dev.isRunning .security then answer s (s.dev.reply m 4 [])
    else match work s.dev with
      | .error st => answer s (s.dev.reply m st [])
      | .ok (d, body) => answer s (d.reply m 0 body) := by
  unfold serveMsg
  simp only [h.served, h.aligned, h.identity, Bool.not_true, Bool.false_eq_true, if_false] <;> rfl

theorem serveMsg_stopped (h : MailboxOpen s) (hheader : m.headerOk = true) (h1 : m.type ≠ 0x0001) (h3 : m.type ≠ 0x0003)
    (hrun : s.dev.isRunning .security = false) : serveMsg s m work = answer s (s.dev.reply m 4 []) := by
  have hgate : (m.type != 0x0001 && m.type != 0x0003 && !s.dev.isRunning .security) = true := by simp [h1, h3, hrun]
  rw [serveMsg_of_open h, hheader, hgate]
  rfl

theorem serveMsg_ok {d : Dev} (h : MailboxOpen s) (hheader : m.headerOk = true)
    (hrun : m.type = 0x0001 ∨ m.type = 0x0003 ∨ s.dev.isRunning .security = true) (hwork : work s.dev = .ok (d, body)) :
    serveMsg s m work = answer s (d.reply m 0 body) := by
  have hgate : (m.type != 0x0001 && m.type != 0x0003 && !s.dev.isRunning .security) = false := by
    rcases hrun with h | h | h <;> simp [h]
  rw [serveMsg_of_open h, hheader, hgate, hwork]
  rfl

theorem serveMsg_error (h : MailboxOpen s) (hheader : m.headerOk = true)
    (hrun : m.type = 0x0001 ∨ m.type = 0x0003 ∨ s.dev.isRunning .security = true) (hwork : work s.dev = .error st) :
    serveMsg s m work = answer s (s.dev.reply m st []) := by
  have hgate : (m.type != 0x0001 && m.type != 0x0003 && !s.dev.isRunning .security) = false := by
    rcases hrun with h | h | h <;> simp [h]
  rw [serveMsg_of_open h, hheader, hgate, hwork]
  rfl

/-- A message whose work is done is answered with status 0 and the work's reply. -/
theorem ends_served {c : Instr} (h : MailboxOpen s) (hexec : exec c s = serveMsg s m work) (hheader : m.headerOk = true)
    (hrun : m.type = 0x0001 ∨ m.type = 0x0003 ∨ s.dev.isRunning .security = true) (hwork : work s.dev = .ok (x, body))
    (hmbx : x.mbx = s.dev.mbx) : Ends c s (Answered s x m.type m.tag 0 body) :=
  ⟨_, hexec.trans (serveMsg_ok h hheader hrun hwork), answered_reply hmbx (by decide) h.aligned⟩

/-- A message whose work refuses it changes nothing else. -/
theorem ends_refused {c : Instr} (h : MailboxOpen s) (hexec : exec c s = serveMsg s m work) (hheader : m.headerOk = true)
    (hrun : m.type = 0x0001 ∨ m.type = 0x0003 ∨ s.dev.isRunning .security = true) (hwork : work s.dev = .error st) (hst : st ≠ 7) :
    Ends c s (Answered s s.dev m.type m.tag st []) :=
  ⟨_, hexec.trans (serveMsg_error h hheader hrun hwork), answered_reply rfl hst h.aligned⟩

/-- The header of a message without a body is in order. -/
theorem plainMsg_headerOk {type : Nat} (htype : bodyLength type = some 0) (tag : W32) : (plainMsg type tag).headerOk = true := by
  have hstatus : fieldAt (plainMsg type tag).bytes 2 2 = 0 := by
    have h := fieldAt_toLe (toLe 2 type) (toLe 4 0 ++ (toLe 4 tag.toNat ++ toLe 4 0)) 2 0
    simpa [plainMsg] using h
  have hlen : fieldAt (plainMsg type tag).bytes 4 4 = 0 := by
    have h := fieldAt_toLe (toLe 2 type ++ toLe 2 0) (toLe 4 tag.toNat ++ toLe 4 0) 4 0
    simpa [plainMsg] using h
  have hrsv : fieldAt (plainMsg type tag).bytes 12 4 = 0 := by
    have h := fieldAt_toLe (toLe 2 type ++ toLe 2 0 ++ toLe 4 0 ++ toLe 4 tag.toNat) [] 4 0
    simpa [plainMsg] using h
  have hbytes : (plainMsg type tag).bytes.length = 16 := by simp [plainMsg]
  have htype' : bodyLength (plainMsg type tag).type = some 0 := htype
  unfold Msg.headerOk
  rw [hstatus, hlen, hrsv, hbytes, htype']
  rfl

end Reply

/-! ## Messages that are not served (R403) -/

section Bad
variable {s : State}

theorem ends_mailboxBadMessage_misaligned (hserved : s.dev.mailboxServed = true) (haligned : s.dev.mbx.aligned = false)
    (req : Option (List Byte)) : Ends (.mailboxBadMessage req) s (fun t => t.dev.mbx.busy = false ∧ t.dev.mbx.done = true ∧
      t.dev.mbx.status = 1 ∧ t.dev.mbx.cntRefused = s.dev.mbx.cntRefused + 1 ∧
      t = { s with dev := { s.dev with mbx := t.dev.mbx, host := t.dev.host, out := t.dev.out } }) := by
  have hserve : ∀ m work, serveMsg s m work = answer s (s.dev.reply { m with type := 0, tag := 0 } 1 []) := fun m work => by
    unfold serveMsg
    simp only [hserved, haligned, Bool.not_true, Bool.not_false, Bool.false_eq_true, if_false, if_true]
  obtain ⟨m, hexec⟩ : ∃ m, exec (.mailboxBadMessage req) s = answer s (s.dev.reply m 1 []) := by
    cases req with
    | none =>
      refine ⟨_, Eq.trans (if_neg ?_) (hserve _ _)⟩
      rw [haligned, Bool.and_false, Bool.false_and]
      exact Bool.false_ne_true
    | some bytes =>
      refine ⟨_, Eq.trans (if_neg ?_) (hserve _ _)⟩
      rw [haligned, Bool.false_and]
      exact Bool.false_ne_true
  have hmbx : (s.dev.reply m 1 []).mbx = s.dev.mbx.ended 1 := by
    rw [Dev.reply_eq _ _ _ (by decide), Dev.raise_mbx]
    rfl
  have hrest : s.dev.reply m 1 [] = { s.dev with
      mbx := (s.dev.reply m 1 []).mbx, host := (s.dev.reply m 1 []).host, out := (s.dev.reply m 1 []).out } := by
    rw [hmbx, Dev.reply_eq _ _ _ (by decide)]
    exact Dev.raise_eq _ 6
  exact ⟨_, hexec, congrArg Mailbox.busy hmbx, congrArg Mailbox.done hmbx, congrArg Mailbox.status hmbx, congrArg Mailbox.cntRefused hmbx,
    congrArg (fun x => { s with dev := x }) hrest⟩

theorem ends_mailboxBadMessage_unread (h : MailboxOpen s) :
    Ends (.mailboxBadMessage none) s (Answered s s.dev 0 0 8 []) := by
  have hexec : exec (.mailboxBadMessage none) s = answer s (s.dev.reply (plainMsg 0 0) 8 []) :=
    if_pos (by rw [h.served, h.aligned, h.identity]; rfl)
  exact ⟨_, hexec, answered_reply (m := plainMsg 0 0) rfl (by decide) h.aligned⟩

theorem ends_mailboxBadMessage_malformed (h : MailboxOpen s) {req : List Byte} (hbad : (msgOf req).headerOk = false) :
    Ends (.mailboxBadMessage (some req)) s (Answered s s.dev (msgOf req).type (msgOf req).tag 1 []) := by
  have hexec : exec (.mailboxBadMessage (some req)) s = answer s (s.dev.reply (msgOf req) 1 []) := by
    refine Eq.trans (if_neg ?_) ((serveMsg_of_open h).trans (if_pos ?_))
    · rw [hbad, Bool.and_false]
      exact Bool.false_ne_true
    · rw [hbad]
      rfl
  exact ⟨_, hexec, answered_reply rfl (by decide) h.aligned⟩

end Bad

/-! ## Identity, the settings and attestation (R407, R420) -/

section Identity
variable {s : State}

theorem ends_getIdentity (h : MailboxOpen s) (tag : W32) :
    Ends (.getIdentity tag) s (Answered s s.dev 0x0001 tag.toNat 0 (deviceId ++ certificate)) :=
  ends_served (m := plainMsg 0x0001 tag) (work := fun d => .ok (d, deviceId ++ certificate)) h rfl (plainMsg_headerOk rfl tag) (.inl rfl) rfl rfl

/-- The settings as GET_PROTECTION gives them (Table 18.4). -/
def Dev.protectionReply (d : Dev) : List Byte :=
  toLe 8 d.store.protSeq.toNat ++ (List.range 6).flatMap (fun i => d.store.setting (i + 1))

theorem exec_getProtection (tag : W32) : exec (.getProtection tag) s = serveMsg s (plainMsg 0x0020 tag) (fun d => .ok (d, d.protectionReply)) := rfl

theorem ends_getProtection (h : MailboxOpen s) (hrun : s.dev.isRunning .security = true) (tag : W32) :
    Ends (.getProtection tag) s (Answered s s.dev 0x0020 tag.toNat 0 s.dev.protectionReply) :=
  ends_served h (exec_getProtection tag) (plainMsg_headerOk rfl tag) (.inr (.inr hrun)) rfl rfl

theorem ends_getProtection_stopped (h : MailboxOpen s) (hrun : s.dev.isRunning .security = false) (tag : W32) :
    Ends (.getProtection tag) s (Answered s s.dev 0x0020 tag.toNat 4 []) := by
  have hexec : exec (.getProtection tag) s = answer s (s.dev.reply (plainMsg 0x0020 tag) 4 []) :=
    (exec_getProtection tag).trans (serveMsg_stopped h (plainMsg_headerOk rfl tag) (by simp [plainMsg]) (by simp [plainMsg]) hrun)
  exact ⟨_, hexec, answered_reply (m := plainMsg 0x0020 tag) rfl (by decide) h.aligned⟩

/-- What the evidence of an ATTEST holds after the digest of the protection section (Table 18.7). -/
def Dev.evidenceRest (d : Dev) (m : Msg) : List Byte :=
  let mask := m.b 32 4
  let digest := fun (c : Nat) =>
    let k := d.kernel c
    if d.isRunning (claimBlock c) && !k.image.isEmpty then shake256 k.image 64 else List.replicate 64 0
  let flags := d.sec.open' * 2 ^ 24 + d.healthNow * 2 ^ 20 + b2n d.fixedBits * 2 ^ 19 + b2n d.fixedPace * 2 ^ 18
  toLe 4 flags ++ toLe 4 mask ++ (setBits 32 mask).flatMap digest

/-- The evidence of an ATTEST. -/
def Dev.evidence (d : Dev) (m : Msg) : List Byte :=
  deviceId ++ m.body 0 32 ++ toLe 8 d.now.toNat ++ toLe 8 d.store.protSeq.toNat ++ shake256 d.sec.serving 64 ++
    shake256 d.store.protection 64 ++ d.evidenceRest m

theorem exec_attest (req : List Byte) : exec (.attest req) s = serveMsg s { msgOf req with type := 0x0002 } (fun d =>
    .ok (d, d.evidence { msgOf req with type := 0x0002 } ++ deviceSign (d.evidence { msgOf req with type := 0x0002 }))) := by
  have hevidence : ∀ (a b c e : List Byte), a ++ b ++ c ++ e = a ++ (b ++ c ++ e) := fun a b c e => by simp only [List.append_assoc]
  simp only [Dev.evidence, Dev.evidenceRest, ← hevidence]
  rfl

theorem ends_attest (h : MailboxOpen s) {req : List Byte} {m : Msg} (hm : m = { msgOf req with type := 0x0002 }) (hheader : m.headerOk = true)
    (hrun : s.dev.isRunning .security = true) : Ends (.attest req) s (fun t => ∃ rest,
      let evidence := deviceId ++ m.body 0 32 ++ toLe 8 s.dev.now.toNat ++ toLe 8 s.dev.store.protSeq.toNat ++ shake256 s.dev.sec.serving 64 ++
        shake256 s.dev.store.protection 64 ++ rest
      Answered s s.dev 0x0002 m.tag 0 (evidence ++ deviceSign evidence) t) := by
  subst hm
  obtain ⟨t, hexec, hanswered⟩ := ends_served h (exec_attest req) hheader (.inr (.inr hrun)) rfl rfl
  exact ⟨t, hexec, s.dev.evidenceRest _, hanswered⟩

end Identity

/-! ## Firmware (R402) -/

section Firmware
variable {s : State} {d : Dev}

/-- The part of a device that tells which image serves. -/
def Dev.servingPart (d : Dev) : Power × Security × Evt × SignedStore × W32 × Bool × Bool :=
  (d.power, d.sec, d.evt, d.store, d.health.verServing, d.health.standbyOk, d.health.servingB)

theorem Dev.alarm_servingPart (d : Dev) (b r u : Nat) (v : Word) : (d.alarm b r u v).servingPart = d.servingPart := by
  have hhealth : (d.alarm b r u v).health.verServing = d.health.verServing ∧ (d.alarm b r u v).health.standbyOk = d.health.standbyOk ∧
      (d.alarm b r u v).health.servingB = d.health.servingB := by
    rw [Dev.alarm, Dev.raise_health, Health.enqueue_eq]
    exact ⟨rfl, rfl, rfl⟩
  unfold Dev.servingPart
  rw [hhealth.1, hhealth.2.1, hhealth.2.2, Dev.alarm_power, Dev.alarm_sec, Dev.alarm_evt, Dev.alarm_store]

theorem Dev.storeAlarms_servingPart (d : Dev) : d.storeAlarms.servingPart = d.servingPart :=
  foldl_keep Dev.servingPart _ (fun _ _ => Dev.alarm_servingPart ..) _ _

theorem Dev.storeAlarms_mbx (d : Dev) : d.storeAlarms.mbx = d.mbx := foldl_keep Dev.mbx _ (fun _ _ => by simp) _ _

/-- The device that an accepted image starts, before its alarms (R402). -/
def Dev.imageStarts (d : Dev) (image : List Byte) : Dev :=
  let v := BitVec.ofNat 32 (fieldAt image 4 4)
  let b := d.store.groups.getLsbD 0
  { d with
    power := { d.power with kolti := true, pstate := .mgmtUp },
    sec := { d.sec with serving := image },
    evt := { d.evt with groupB := b, hubLow := d.evt.hubLow && PState.mgmtUp == PState.running },
    health := { d.health with
      verServing := v, verStandby := if d.store.groups != 0 then 0 else v, standbyOk := !(d.store.groups != 0), servingB := b } }

theorem Dev.takeImage_auxOnly {image : List Byte} (haux : d.power.pstate = .auxOnly) (hgroups : d.store.groups ≠ 3) :
    d.takeImage image = .ok (d.imageStarts image).storeAlarms := by
  unfold Dev.takeImage
  dsimp only
  rw [if_pos (by rw [haux]; rfl), if_neg hgroups]
  rfl

theorem Dev.takeImage_staged {image : List Byte} (haux : d.power.pstate ≠ .auxOnly) :
    d.takeImage image = .ok { d with sec := { d.sec with staged := some image } } := if_neg (by simpa using haux)

/-- The work of an FW_LOAD. -/
def Dev.fwWork (m : Msg) (image : Option (List Byte)) (d : Dev) : Except Nat (Dev × List Byte) :=
  match image with
  | none => .error 8
  | some img =>
    let n := m.b 8 4
    let bytes := slice img 0 n
    if !imageOk bytes n then .error 1
    else if !d.signedBy .vendor (bytes.take (n - 1280)) (bytes.drop (n - 1280)) then .error 2
    else if BitVec.ofNat 32 (fieldAt bytes 4 4) < d.store.minSecver then .error 5
    else match d.takeImage bytes with
      | .ok d => .ok (d, [])
      | .error st => .error st

theorem exec_fwLoad (req : List Byte) (image : Option (List Byte)) :
    exec (.fwLoad req image) s = serveMsg s { msgOf req with type := 0x0003 } (Dev.fwWork { msgOf req with type := 0x0003 } image) := by
  cases image <;> rfl

variable {m : Msg} {img : List Byte}

theorem Dev.fwWork_malformed (hok : imageOk (slice img 0 (m.b 8 4)) (m.b 8 4) = false) : d.fwWork m (some img) = .error 1 := by
  simp only [Dev.fwWork, hok, Bool.not_false, if_true]

theorem Dev.fwWork_unsigned (hok : imageOk (slice img 0 (m.b 8 4)) (m.b 8 4) = true)
    (hsigned : d.signedBy .vendor ((slice img 0 (m.b 8 4)).take (m.b 8 4 - 1280)) ((slice img 0 (m.b 8 4)).drop (m.b 8 4 - 1280)) = false) :
    d.fwWork m (some img) = .error 2 := by
  simp only [Dev.fwWork, hok, hsigned, Bool.not_false, Bool.not_true, Bool.false_eq_true, if_true, if_false]

theorem Dev.fwWork_signed (hok : imageOk (slice img 0 (m.b 8 4)) (m.b 8 4) = true)
    (hsigned : d.signedBy .vendor ((slice img 0 (m.b 8 4)).take (m.b 8 4 - 1280)) ((slice img 0 (m.b 8 4)).drop (m.b 8 4 - 1280)) = true) :
    d.fwWork m (some img) = if BitVec.ofNat 32 (fieldAt (slice img 0 (m.b 8 4)) 4 4) < d.store.minSecver then .error 5
      else (d.takeImage (slice img 0 (m.b 8 4))).map (fun d => (d, [])) := by
  simp only [Dev.fwWork, hok, hsigned, Bool.not_true, Bool.false_eq_true, if_false]
  split
  · rfl
  · cases d.takeImage (slice img 0 (m.b 8 4)) <;> rfl

/-- What an image that starts leaves, in the words of the statement. -/
theorem ends_fwLoad_started (h : MailboxOpen s) {req : List Byte} {bytes : List Byte} (hheader : ({ msgOf req with type := 0x0003 } : Msg).headerOk = true)
    (hwork : s.dev.fwWork { msgOf req with type := 0x0003 } (some img) = .ok ((s.dev.imageStarts bytes).storeAlarms, [])) : Ends (.fwLoad req (some img)) s (fun t =>
      t.dev.mbx.status = 0 ∧ t.dev.mbx.busy = false ∧ t.dev.power.pstate = .mgmtUp ∧ t.dev.power.kolti = true ∧ t.dev.sec.serving = bytes ∧
      t.dev.health.verServing = BitVec.ofNat 32 (fieldAt bytes 4 4) ∧ (t.dev.health.standbyOk = true ↔ s.dev.store.groups = 0) ∧
      t.dev.health.servingB = s.dev.store.groups.getLsbD 0 ∧ t.dev.evt.groupB = s.dev.store.groups.getLsbD 0 ∧ t.dev.store = s.dev.store ∧
      t.mem = s.mem ∧ t.pending = s.pending) := by
  obtain ⟨t, hexec, hframe, -, -⟩ := ends_served h (exec_fwLoad req (some img)) hheader (.inr (.inl rfl)) hwork (Dev.storeAlarms_mbx _)
  have hpart := (s.dev.imageStarts bytes).storeAlarms_servingPart
  generalize (s.dev.imageStarts bytes).storeAlarms = x at hpart hframe
  obtain ⟨hpower, hsec, hevt, hstore, hver, hstandby, hserving⟩ :
      x.power = (s.dev.imageStarts bytes).power ∧ x.sec = (s.dev.imageStarts bytes).sec ∧ x.evt = (s.dev.imageStarts bytes).evt ∧
      x.store = (s.dev.imageStarts bytes).store ∧ x.health.verServing = (s.dev.imageStarts bytes).health.verServing ∧
      x.health.standbyOk = (s.dev.imageStarts bytes).health.standbyOk ∧ x.health.servingB = (s.dev.imageStarts bytes).health.servingB := by
    simpa only [Dev.servingPart, Prod.mk.injEq] using hpart
  refine ⟨t, hexec, ?_⟩
  rw [hframe]
  dsimp only
  rw [hpower, hsec, hevt, hver, hstandby, hserving]
  exact ⟨rfl, rfl, rfl, rfl, rfl, rfl, by simp [Dev.imageStarts], rfl, rfl, hstore, rfl, rfl⟩

end Firmware

/-- Settles O57, a lemma for each message. -/
theorem mailboxMessagesAreServedAndAnswered : Obligations.MailboxMessagesAreServedAndAnswered := by
  unfold Obligations.MailboxMessagesAreServedAndAnswered
  intro s hserved
  refine ⟨fun haligned req => ends_mailboxBadMessage_misaligned hserved haligned req, fun haligned hidentity => ?_⟩
  have hopen : MailboxOpen s := ⟨hserved, haligned, hidentity⟩
  refine ⟨ends_mailboxBadMessage_unread hopen, fun req hbad => ends_mailboxBadMessage_malformed hopen hbad,
    fun tag => ⟨ends_getIdentity hopen tag, fun hrun => ends_getProtection hopen hrun tag, fun hrun => ends_getProtection_stopped hopen hrun tag⟩,
    fun req hheader hrun => ends_attest hopen rfl hheader hrun, fun req img => ?_⟩
  intro m n bytes v signed hheader
  have hrefused := fun {image : Option (List Byte)} {st : Nat} (hwork : s.dev.fwWork m image = .error st) (hst : st ≠ 7) =>
    ends_refused hopen (exec_fwLoad req image) hheader (.inr (.inl rfl)) hwork hst
  refine ⟨hrefused rfl (by decide), fun hok => hrefused (Dev.fwWork_malformed hok) (by decide),
    fun hok hsigned => hrefused (Dev.fwWork_unsigned hok hsigned) (by decide), fun hok hsigned hold => hrefused ?_ (by decide),
    fun hok hsigned hnew => ?_⟩
  · rw [Dev.fwWork_signed hok hsigned]
    exact if_pos hold
  · have hwork : s.dev.fwWork m (some img) = (s.dev.takeImage bytes).map (fun d => (d, [])) :=
      (Dev.fwWork_signed hok hsigned).trans (if_neg (BitVec.not_lt.2 hnew))
    refine ⟨fun haux => ?_, fun haux hgroups => ?_⟩
    · rw [Dev.takeImage_staged haux] at hwork
      exact ends_served hopen (exec_fwLoad req (some img)) hheader (.inr (.inl rfl)) hwork rfl
    · rw [Dev.takeImage_auxOnly haux hgroups] at hwork
      exact ends_fwLoad_started hopen hheader hwork

end Sys2Proof.Machine

/-! Debug access and changes of the protection settings (R404 to R406, R408, R409, Tables 18.6, 18.8, 18.9). -/
namespace Sys2Proof.Machine

/-! ## Nonces and scopes that end (R408) -/

section Expiry
variable {s : State}

theorem exec_unlockNonceExpiry : exec .unlockNonceExpiry s = answer s { s.dev with sec := { s.dev.sec with
    nonce := s.dev.sec.nonce.filter (fun x => decide (elapsed s.dev.phys x.2 < 60000000000)) } } := by
  simp only [← blt_eq_decide]
  rfl

theorem ends_unlockNonceExpiry_none (h : s.dev.sec.nonce = none) : Ends .unlockNonceExpiry s (fun t => t = s) := by
  have hkept : { s.dev.sec with nonce := s.dev.sec.nonce.filter (fun x => decide (elapsed s.dev.phys x.2 < 60000000000)) } = s.dev.sec := by
    rw [h, Option.filter_none, ← h]
  exact ⟨_, exec_unlockNonceExpiry, by rw [hkept]⟩

theorem ends_unlockNonceExpiry_old {n : BitVec 256} {tick : Tick} (h : s.dev.sec.nonce = some (n, tick))
    (hold : 60000000000 ≤ elapsed s.dev.phys tick) : Ends .unlockNonceExpiry s (fun t =>
      t = { s with dev := { s.dev with sec := { s.dev.sec with nonce := none } } }) :=
  ⟨_, exec_unlockNonceExpiry, by rw [h, Option.filter_some, if_neg (by simpa using hold)]⟩

theorem ends_unlockNonceExpiry_young {n : BitVec 256} {tick : Tick} (h : s.dev.sec.nonce = some (n, tick))
    (hyoung : elapsed s.dev.phys tick < 60000000000) : Ends .unlockNonceExpiry s (fun t => t = s) := by
  have hkept : { s.dev.sec with nonce := s.dev.sec.nonce.filter (fun x => decide (elapsed s.dev.phys x.2 < 60000000000)) } = s.dev.sec := by
    rw [h, Option.filter_some, if_pos (by simpa using hyoung), ← h]
  exact ⟨_, exec_unlockNonceExpiry, by rw [hkept]⟩

/-- A grant with a scope closed, where its end has come. -/
def closedGrant (scope : Nat) (now : Tick) (g : BitVec 8 × Nat × Tick) : BitVec 8 × Nat × Tick :=
  if elapsed now g.2.2 < 2 ^ 63 then (g.1 &&& ~~~ BitVec.ofNat 8 (2 ^ scope), g.2) else g

theorem closeScope_eq (scope : Nat) (now : Tick) (l : List (BitVec 8 × Nat × Tick)) :
    closeScope scope now l = (l.map (closedGrant scope now)).filter (fun g => g.1 != 0) := by
  unfold closeScope
  simp only [Nat.blt_eq]
  rfl

theorem closedGrant_snd (scope : Nat) (now : Tick) (g : BitVec 8 × Nat × Tick) : (closedGrant scope now g).2 = g.2 := by
  unfold closedGrant; split <;> rfl

theorem getLsbD_closedGrant_same {scope : Nat} (h : scope < 8) (now : Tick) (g : BitVec 8 × Nat × Tick) :
    (closedGrant scope now g).1.getLsbD scope = (g.1.getLsbD scope && decide (2 ^ 63 ≤ elapsed now g.2.2)) := by
  unfold closedGrant
  split
  next hend =>
    rw [BitVec.getLsbD_and, BitVec.getLsbD_not, getLsbD_ofNat_two_pow h, decide_eq_false (not_le.2 hend), beq_self_eq_true, Bool.not_true,
      Bool.and_false]
  next hend => rw [decide_eq_true (not_lt.1 hend), Bool.and_true]

theorem getLsbD_closedGrant_other {scope k : Nat} (hk : k < 8) (hne : k ≠ scope) (now : Tick) (g : BitVec 8 × Nat × Tick) :
    (closedGrant scope now g).1.getLsbD k = g.1.getLsbD k := by
  unfold closedGrant
  split
  · rw [BitVec.getLsbD_and, BitVec.getLsbD_not, getLsbD_ofNat_two_pow hk, beq_false_of_ne hne, decide_eq_true hk, Bool.not_false,
      Bool.and_self, Bool.and_true]
  · rfl

/-- A grant that has a scope is not gone. -/
theorem closeScope_filter (scope k : Nat) (now : Tick) (l : List (BitVec 8 × Nat × Tick)) :
    (closeScope scope now l).filter (fun g => g.1.getLsbD k) = (l.map (closedGrant scope now)).filter (fun g => g.1.getLsbD k) := by
  rw [closeScope_eq, List.filter_filter]
  refine List.filter_congr fun g _ => ?_
  by_cases h : g.1.getLsbD k = true
  · have hne : (g.1 != 0) = true := bne_iff_ne.2 fun h0 => by rw [h0] at h; simp at h
    rw [h, hne, Bool.and_self]
  · rw [Bool.eq_false_iff.2 h, Bool.false_and]

theorem ends_debugScopeExpiry (scope : Fin 8) : Ends (.debugScopeExpiry scope) s (fun t =>
    t = { s with dev := { s.dev with sec := { s.dev.sec with scopes := t.dev.sec.scopes } } } ∧
    t.dev.sec.scopes.filter (fun g => g.1.getLsbD scope.val) =
      s.dev.sec.scopes.filter (fun g => g.1.getLsbD scope.val && decide (2 ^ 63 ≤ elapsed s.dev.phys g.2.2)) ∧
    ∀ k, k < 8 → k ≠ scope.val → (t.dev.sec.scopes.filter (fun g => g.1.getLsbD k)).map (fun g => g.2) =
      (s.dev.sec.scopes.filter (fun g => g.1.getLsbD k)).map (fun g => g.2)) := by
  refine ⟨{ s with dev := { s.dev with sec := { s.dev.sec with scopes := closeScope scope.val s.dev.phys s.dev.sec.scopes } } }, rfl, rfl, ?_,
    fun k hk hne => ?_⟩
  · dsimp only
    rw [closeScope_filter, List.filter_map]
    have hkept : ∀ g ∈ s.dev.sec.scopes.filter (fun g => g.1.getLsbD scope.val && decide (2 ^ 63 ≤ elapsed s.dev.phys g.2.2)),
        closedGrant scope.val s.dev.phys g = g := fun g hg => by
      have hlater := (List.mem_filter.1 hg).2
      simp only [Bool.and_eq_true, decide_eq_true_eq] at hlater
      exact if_neg (not_lt.2 hlater.2)
    simp only [Function.comp_def, getLsbD_closedGrant_same scope.isLt]
    rw [List.map_congr_left hkept, List.map_id']
  · dsimp only
    rw [closeScope_filter, List.filter_map, List.map_map]
    simp only [Function.comp_def, getLsbD_closedGrant_other hk hne, closedGrant_snd]

end Expiry

/-! ## Challenges, grants and their end (R408) -/

section Unlock
variable {s : State} {m : Msg}

/-- The 32 bytes of a fresh nonce. -/
def Dev.freshNonce (d : Dev) : List Byte := (List.range 4).flatMap (fun i => toLe 8 (Config.freeValue (d.draws + i)).toNat)

theorem Dev.length_freshNonce (d : Dev) : d.freshNonce.length = 32 := by
  simp [Dev.freshNonce, List.length_flatMap]

theorem exec_unlockChallenge (tag : W32) : exec (.unlockChallenge tag) s = serveMsg s (plainMsg 0x0010 tag) (fun d =>
    .ok ({ d with draws := d.draws + 4, sec := { d.sec with nonce := some (BitVec.ofNat 256 (leNat d.freshNonce), d.phys) } }, d.freshNonce)) := rfl

theorem exec_relock (tag : W32) : exec (.relock tag) s = serveMsg s (plainMsg 0x0012 tag) (fun d =>
    .ok ({ d with sec := { d.sec with scopes := [] } }, [])) := rfl

theorem Dev.unlockBad_ne {d : Dev} {st : Nat} (h : d.unlockBad m = some st) : st ≠ 7 := by
  unfold Dev.unlockBad at h
  dsimp only at h
  (repeat' split at h) <;> simp only [reduceCtorEq, Option.some.injEq] at h <;> omega

theorem exec_unlock {req : List Byte} (h : MailboxOpen s) (hrun : s.dev.isRunning .security = true)
    (hheader : ({ msgOf req with type := 0x0011 } : Msg).headerOk = true) : exec (.unlock req) s =
      match s.dev.unlockBad { msgOf req with type := 0x0011 } with
      | some st => answer s (Dev.reply { s.dev with sec := { s.dev.sec with nonce := none } } { msgOf req with type := 0x0011 } st [])
      | none =>
        let m : Msg := { msgOf req with type := 0x0011 }
        answer s (Dev.reply { s.dev with sec := { s.dev.sec with
          nonce := none
          scopes := s.dev.sec.scopes ++ (if m.b 48 1 = 0 then []
            else [(BitVec.ofNat 8 (m.b 48 1), m.b 49 1, s.dev.phys + BitVec.ofNat 64 (m.b 52 4 * 1000000000))]) } } m 0 []) := by
  refine Eq.trans (if_pos ?_) rfl
  rw [h.served, h.aligned, h.identity, hrun]
  simpa using hheader

end Unlock

/-! ## CHANGE (R405, R406, R409) -/

section Change
variable {s : State} {d : Dev} {m : Msg} {item : Nat} {v : List Byte}

/-- A setting put in force, and PROT_SEQ risen. -/
def Dev.settingApplied (d : Dev) (item : Nat) (v : List Byte) : Dev :=
  { d.applySetting item v with store := { (d.applySetting item v).store with protSeq := (d.applySetting item v).store.protSeq + 1 } }

/-- The parts of a device that a setting in force may change. -/
theorem Dev.applySetting_eq (d : Dev) (item : Nat) (v : List Byte) : d.applySetting item v = { d with
    ports := (d.applySetting item v).ports, sec := (d.applySetting item v).sec, store := (d.applySetting item v).store
    xbar := (d.applySetting item v).xbar } := by
  have hports : ∀ (l : List Nat) (f : Nat → Port → Port) (e : Dev), l.foldl (fun d p => d.modPort p (f p)) e =
      { e with ports := (l.foldl (fun d p => d.modPort p (f p)) e).ports } := fun l f => by
    induction l with
    | nil => exact fun _ => rfl
    | cons a l ih => exact fun e => by rw [List.foldl_cons, ih]; rfl
  unfold Dev.applySetting
  dsimp only
  split
  case h_3 => split <;> rfl
  case h_5 => rw [hports]
  all_goals rfl

theorem Dev.settingApplied_eq (d : Dev) (item : Nat) (v : List Byte) : d.settingApplied item v = { d with
    ports := (d.settingApplied item v).ports, sec := (d.settingApplied item v).sec, store := (d.settingApplied item v).store
    xbar := (d.settingApplied item v).xbar } := by
  unfold Dev.settingApplied
  rw [Dev.applySetting_eq]

/-- What each setting leaves of the protection section (R406). -/
theorem Dev.applySetting_store (d : Dev) (item : Nat) (v : List Byte) :
    (d.applySetting item v).store.protSeq = d.store.protSeq ∧
    (item ≠ 1 → (d.applySetting item v).store.authorities = d.store.authorities) ∧
    (item ≠ 2 → (d.applySetting item v).store.debugKeys = d.store.debugKeys) ∧
    (item = 3 → (d.applySetting item v).store.regionPolicy = BitVec.ofNat 2 (leNat v)) ∧
    (item = 4 → (d.applySetting item v).store.isolation = BitVec.ofNat 2 (leNat v)) ∧
    (item = 5 → (d.applySetting item v).store.siteMarks = BitVec.ofNat 48 (leNat v)) ∧
    (item = 6 → (d.applySetting item v).store.ideRequired = bit (leNat v) 0) := by
  have hmarks : ∀ (l : List Nat) (f : Nat → Port → Port) (e : Dev), (l.foldl (fun d p => d.modPort p (f p)) e).store = e.store :=
    fun l f e => foldl_keep Dev.store (fun d p => d.modPort p (f p)) (fun _ _ => rfl) l e
  unfold Dev.applySetting
  dsimp only
  split
  case h_3 => split <;> simp
  case h_5 => rw [hmarks]; simp
  all_goals simp_all

/-- A region that is still VALID does not carry XSITE. -/
theorem rgnValid_dropXsite (x : BitVec 256) (h : rgnXsite (dropXsite x) = true) : rgnValid (dropXsite x) = false := by
  have hbit : ∀ y : BitVec 256, rgnValid y = y.getLsbD 63 := fun y => by
    rw [rgnValid, bit, BitVec.getLsbD, Nat.testBit_eq_decide_div_mod_eq, Bool.beq_eq_decide_eq]
  unfold dropXsite at h ⊢
  split at h
  next hx => rw [if_pos hx, hbit, invalid, BitVec.getLsbD_and, BitVec.getLsbD_not, getLsbD_ofNat_two_pow (by decide)]; simp
  next hx => exact absurd h hx

theorem Dev.applySetting_regions (h : leNat v % 2 = 0) {i : Nat} {g : BitVec 256} (hg : Tbl.look (d.applySetting 3 v).xbar.regions i = some g)
    (hx : rgnXsite g = true) : rgnValid g = false := by
  have hbit : ¬ bit (leNat v) 0 = true := by simp [bit, h]
  have hregions : (d.applySetting 3 v).xbar.regions = Tbl.mapAll d.xbar.regions (fun _ x => dropXsite x) := by
    exact congrArg (fun x : Dev => x.xbar.regions) (if_neg hbit)
  rw [hregions, Tbl.look_mapAll] at hg
  obtain ⟨x, -, rfl⟩ := Option.map_eq_some_iff.1 hg
  exact rgnValid_dropXsite x hx

theorem isSome_look_foldl_put {α β : Type} (key : α → Nat) (f : α → β) (l : List α) (t : Tbl β) (k : Nat)
    (h : (Tbl.look t k).isSome = true ∨ ∃ a ∈ l, key a = k) : (Tbl.look (l.foldl (fun t a => Tbl.put t (key a) (f a)) t) k).isSome = true := by
  induction l generalizing t with
  | nil => exact h.resolve_right (by rintro ⟨a, ha, -⟩; cases ha)
  | cons a l ih =>
    refine ih _ ?_
    by_cases hk : key a = k
    · subst hk
      exact .inl (by rw [Tbl.look_put_same]; rfl)
    · rcases h with h | ⟨b, hb, hbk⟩
      · exact .inl (by rw [Tbl.look_put_other _ _ (Ne.symm hk)]; exact h)
      · rcases List.mem_cons.1 hb with rfl | hb
        · exact absurd hbk hk
        · exact .inr ⟨b, hb, hbk⟩

/-- A list of authorities that passes names every role (R401, R409). -/
theorem Dev.applySetting_authorities (hok : settingOk 1 v = true) (hfree : d.settingBarred 1 v = false) {r : Nat} (h1 : 1 ≤ r) (h3 : r ≤ 3) :
    ∃ i, i < 8 ∧ (Tbl.look (d.applySetting 1 v).store.authorities (r * 8 + i)).isSome = true := by
  have hall : ∀ e ∈ settingEntries v, e.2.1 < 8 := fun e he => by
    simp only [settingOk, Bool.and_eq_true, List.all_eq_true, Nat.blt_eq] at hok
    exact (hok.1.2 e he).2
  have hroles : ∃ e ∈ settingEntries v, e.1 = r := by
    simp only [Dev.settingBarred, Bool.or_eq_false_iff, Bool.not_eq_false', List.all_eq_true, List.any_eq_true, beq_iff_eq] at hfree
    exact hfree.1 r (by simp; omega)
  obtain ⟨e, he, rfl⟩ := hroles
  exact ⟨e.2.1, hall e he, isSome_look_foldl_put (fun e : Nat × Nat × List Byte => e.1 * 8 + e.2.1) (fun e => e.2.2) _ _ _ (.inr ⟨e, he, rfl⟩)⟩

/-- The work of a CHANGE. -/
def Dev.changeWork (req : List Byte) (m : Msg) (d : Dev) : Except Nat (Dev × List Byte) :=
  let n := m.b 28 4
  let v := m.body 40 n
  let signed := m.bytes.take (16 + 40 + n)
  if req.length != 16 + 40 + n + 2560 || m.b 25 3 != 0 || m.b 34 6 != 0 || Nat.blt 7 (m.b 32 1) || Nat.blt 7 (m.b 33 1) ||
      !settingOk (m.b 24 1) v then .error 1
  else if m.b 0 8 != (d.store.protSeq + 1).toNat || m.body 8 16 != deviceId then .error 3
  else if !(d.signedAs .operator (m.b 32 1) signed (m.body (40 + n) 1280) &&
      d.signedAs .custodian (m.b 33 1) signed (m.body (40 + n + 1280) 1280)) then .error 2
  else if d.settingBarred (m.b 24 1) v then .error 4
  else .ok (d.settingApplied (m.b 24 1) v, [])

theorem exec_change (req : List Byte) : exec (.change req) s =
    serveMsg s { msgOf req with type := 0x0021 } (Dev.changeWork req { msgOf req with type := 0x0021 }) := rfl

/-- A CHANGE whose fields are out of range (Table 18.9). -/
def ChangeBad (req : List Byte) (m : Msg) : Prop :=
  req.length ≠ 16 + 40 + m.b 28 4 + 2560 ∨ m.b 25 3 ≠ 0 ∨ m.b 34 6 ≠ 0 ∨ 7 < m.b 32 1 ∨ 7 < m.b 33 1 ∨
    settingOk (m.b 24 1) (m.body 40 (m.b 28 4)) = false

/-- A CHANGE out of sequence, or for another device. -/
def Dev.ChangeOther (d : Dev) (m : Msg) : Prop := m.b 0 8 ≠ (d.store.protSeq + 1).toNat ∨ m.body 8 16 ≠ deviceId

/-- A CHANGE that both authorities have signed. -/
def Dev.ChangeSigned (d : Dev) (m : Msg) : Prop :=
  d.signedAs .operator (m.b 32 1) (m.bytes.take (56 + m.b 28 4)) (m.body (40 + m.b 28 4) 1280) = true ∧
    d.signedAs .custodian (m.b 33 1) (m.bytes.take (56 + m.b 28 4)) (m.body (40 + m.b 28 4 + 1280) 1280) = true

theorem Dev.changeWork_bad {req : List Byte} (h : ChangeBad req m) : d.changeWork req m = .error 1 :=
  if_pos (by simpa [ChangeBad, or_assoc] using h)

theorem Dev.changeWork_other {req : List Byte} (hbad : ¬ ChangeBad req m) (h : d.ChangeOther m) : d.changeWork req m = .error 3 :=
  (if_neg (by simpa [ChangeBad, or_assoc] using hbad)).trans (if_pos (by simpa [Dev.ChangeOther] using h))

theorem Dev.changeWork_unsigned {req : List Byte} (hbad : ¬ ChangeBad req m) (hother : ¬ d.ChangeOther m) (h : ¬ d.ChangeSigned m) :
    d.changeWork req m = .error 2 :=
  (if_neg (by simpa [ChangeBad, or_assoc] using hbad)).trans ((if_neg (by simpa [Dev.ChangeOther] using hother)).trans
    (if_pos (by simpa only [Dev.ChangeSigned, Bool.not_eq_true', ← Bool.not_eq_true, Bool.and_eq_true] using h)))

theorem Dev.changeWork_signed {req : List Byte} (hbad : ¬ ChangeBad req m) (hother : ¬ d.ChangeOther m) (h : d.ChangeSigned m) :
    d.changeWork req m = if d.settingBarred (m.b 24 1) (m.body 40 (m.b 28 4)) then .error 4
      else .ok (d.settingApplied (m.b 24 1) (m.body 40 (m.b 28 4)), []) :=
  (if_neg (by simpa [ChangeBad, or_assoc] using hbad)).trans ((if_neg (by simpa [Dev.ChangeOther] using hother)).trans
    (if_neg (by simpa only [Dev.ChangeSigned, Bool.not_eq_true', ← Bool.not_eq_true, Bool.and_eq_true, not_not] using h)))

/-- A setting in force, in the words of the statement. -/
theorem ends_change_applied {req : List Byte} (h : MailboxOpen s) (hrun : s.dev.isRunning .security = true)
    (hheader : ({ msgOf req with type := 0x0021 } : Msg).headerOk = true)
    (hwork : s.dev.changeWork req { msgOf req with type := 0x0021 } = .ok (s.dev.settingApplied item v, []))
    (hok : settingOk item v = true) (hfree : s.dev.settingBarred item v = false) : Ends (.change req) s (fun t =>
      Answered s { s.dev with ports := t.dev.ports, sec := t.dev.sec, store := t.dev.store, xbar := t.dev.xbar } 0x0021 (msgOf req).tag 0 [] t ∧
      t.dev.store.protSeq = s.dev.store.protSeq + 1 ∧
      (item = 3 → t.dev.store.regionPolicy = BitVec.ofNat 2 (leNat v) ∧ (leNat v % 2 = 0 → ∀ i g, Tbl.look t.dev.xbar.regions i = some g →
        rgnXsite g = true → rgnValid g = false)) ∧
      (item = 4 → t.dev.store.isolation = BitVec.ofNat 2 (leNat v)) ∧
      (item = 5 → t.dev.store.siteMarks = BitVec.ofNat 48 (leNat v)) ∧
      (item = 6 → (t.dev.store.ideRequired = true ↔ leNat v % 2 = 1)) ∧
      (item ≠ 1 → t.dev.store.authorities = s.dev.store.authorities) ∧ (item ≠ 2 → t.dev.store.debugKeys = s.dev.store.debugKeys) ∧
      (item = 1 → ∀ r, 1 ≤ r → r ≤ 3 → ∃ i, i < 8 ∧ (Tbl.look t.dev.store.authorities (r * 8 + i)).isSome = true)) := by
  have happlied := s.dev.settingApplied_eq item v
  obtain ⟨hseq, hauth, hdebug, hregion, hiso, hmarks, hide⟩ := s.dev.applySetting_store item v
  obtain ⟨t, hexec, hanswered⟩ := ends_served h (exec_change req) hheader (.inr (.inr hrun)) hwork (by rw [happlied])
  have hframe := hanswered.1
  have hparts : t.dev.ports = (s.dev.settingApplied item v).ports ∧ t.dev.sec = (s.dev.settingApplied item v).sec ∧
      t.dev.store = (s.dev.settingApplied item v).store ∧ t.dev.xbar = (s.dev.settingApplied item v).xbar := by
    rw [hframe]; exact ⟨rfl, rfl, rfl, rfl⟩
  obtain ⟨hports, hsec, hstore, hxbar⟩ := hparts
  refine ⟨t, hexec, ?_, ?_⟩
  · rw [hports, hsec, hstore, hxbar, ← happlied]
    exact hanswered
  · rw [hstore, hxbar]
    refine ⟨by rw [← hseq]; rfl, fun h3 => ⟨hregion h3, fun heven i g hg hx => ?_⟩, hiso, hmarks, fun h6 => ?_, hauth, hdebug, fun h1 r hr hr' => ?_⟩
    · subst h3
      exact Dev.applySetting_regions heven hg hx
    · have hbit := hide h6
      rw [show (s.dev.settingApplied item v).store.ideRequired = bit (leNat v) 0 from hbit]
      simp [bit]
    · subst h1
      exact Dev.applySetting_authorities hok hfree hr hr'

end Change

/-- Settles O58. -/
theorem debugAndProtectionFollowTheirAuthorities : Obligations.DebugAndProtectionFollowTheirAuthorities := by
  unfold Obligations.DebugAndProtectionFollowTheirAuthorities
  intro s
  refine ⟨fun n tick h => ⟨ends_unlockNonceExpiry_old h, ends_unlockNonceExpiry_young h⟩, ends_unlockNonceExpiry_none, ends_debugScopeExpiry,
    fun hserved haligned hidentity hrun => ?_⟩
  have hopen : MailboxOpen s := ⟨hserved, haligned, hidentity⟩
  refine ⟨fun tag => ⟨?_, ?_⟩, fun req => ?_, fun req => ?_⟩
  · obtain ⟨t, hexec, hanswered⟩ := ends_served hopen (exec_unlockChallenge tag) (plainMsg_headerOk rfl tag) (.inr (.inr hrun)) rfl rfl
    exact ⟨t, hexec, _, s.dev.freshNonce, s.dev.length_freshNonce, rfl, hanswered⟩
  · exact ends_served hopen (exec_relock tag) (plainMsg_headerOk rfl tag) (.inr (.inr hrun)) rfl rfl
  · intro m hheader
    have hexec := exec_unlock hopen hrun hheader
    refine ⟨fun st hbad => ?_, fun hgood => ?_⟩
    · rw [hbad] at hexec
      exact ⟨_, hexec, answered_reply rfl (Dev.unlockBad_ne hbad) haligned⟩
    · rw [hgood] at hexec
      exact ⟨_, hexec, answered_reply rfl (by decide) haligned⟩
  · intro m item n v part bad other signed hheader
    have hrefused := fun {st : Nat} (hwork : s.dev.changeWork req m = .error st) (hst : st ≠ 7) =>
      ends_refused hopen (exec_change req) hheader (.inr (.inr hrun)) hwork hst
    refine ⟨fun hbad => hrefused (Dev.changeWork_bad hbad) (by decide), fun hbad hother => hrefused (Dev.changeWork_other hbad hother) (by decide),
      fun hbad hother hsigned => hrefused (Dev.changeWork_unsigned hbad hother hsigned) (by decide),
      fun hbad hother hsigned hbarred => hrefused ((Dev.changeWork_signed hbad hother hsigned).trans (if_pos hbarred)) (by decide),
      fun hbad hother hsigned hfree => ?_⟩
    have hok : settingOk item v = true := by
      by_contra hbits
      exact hbad (.inr (.inr (.inr (.inr (.inr (Bool.eq_false_iff.2 hbits))))))
    have hwork := (Dev.changeWork_signed hbad hother hsigned).trans (if_neg (Bool.eq_false_iff.1 hfree))
    exact ends_change_applied hopen hrun hheader hwork hok hfree

end Sys2Proof.Machine

/-! Job tags (R346 to R351, Table 15.3): what a move of a tag and a message to members change, and the moves of each command. -/
namespace Sys2Proof.Machine

/-! ## A tag's move -/

section Moves
variable (d : Dev)

theorem Dev.tag_tagTo (n j : Nat) (x : Option Tag) : (d.tagTo n x).tag j = if j = n then x else d.tag j := by
  have htags : (d.tagTo n x).time.tags = (match x with | some t => Tbl.put d.time.tags n t | none => Tbl.del d.time.tags n) := by
    unfold Dev.tagTo
    dsimp only
    split_ifs <;> rfl
  unfold Dev.tag
  rw [htags]
  by_cases h : j = n
  · subst h
    rw [if_pos rfl]
    cases x with
    | some t => exact Tbl.look_put_same ..
    | none => exact Tbl.look_del_same ..
  · rw [if_neg h]
    cases x with
    | some t => exact Tbl.look_put_other _ _ h
    | none => exact Tbl.look_del_other _ h

@[simp] theorem Dev.tag_tagTo_same (n : Nat) (x : Option Tag) : (d.tagTo n x).tag n = x := (d.tag_tagTo n n x).trans (if_pos rfl)

theorem Dev.tag_tagTo_other {n j : Nat} (h : j ≠ n) (x : Option Tag) : (d.tagTo n x).tag j = d.tag j :=
  (d.tag_tagTo n j x).trans (if_neg h)

/-- A move writes the table of tags, and is logged. -/
theorem Dev.tagTo_eq (n : Nat) (x : Option Tag) : d.tagTo n x =
    { d with health := (d.tagTo n x).health, time := { d.time with tags := (d.tagTo n x).time.tags } } := by
  unfold Dev.tagTo
  dsimp only
  split_ifs <;> rfl

/-- A move between states of one code is not logged. -/
theorem Dev.tagTo_of_same_code {n : Nat} {x : Option Tag} (h : tagCode (d.tag n) = tagCode x) : d.tagTo n x =
    { d with time := { d.time with tags := (d.tagTo n x).time.tags } } := by
  unfold Dev.tagTo
  rw [if_pos h]

theorem Dev.drainTag_of_running {n : Nat} {x : Tag} (htag : d.tag n = some x) (h : x.st = .starting ∨ x.st = .active) :
    d.drainTag n = d.tagTo n (some { x with st := .draining, since := d.phys }) := by
  unfold Dev.drainTag
  rcases h with h | h <;> rw [htag, Option.filter_some, if_pos (by rw [h]; rfl)]

theorem Dev.drainTag_of_not_running {n : Nat} (h : ∀ x, d.tag n = some x → ¬ (x.st = .starting ∨ x.st = .active)) :
    d.drainTag n = d := by
  unfold Dev.drainTag
  cases htag : d.tag n with
  | none => rfl
  | some x =>
    have hx := h x htag
    rw [Option.filter_some, if_neg (by simpa using hx)]

end Moves

/-! ## Messages to members -/

section Messages
variable (d : Dev)

theorem Dev.tell_eq (kind : CtrlMsg) (ps fields : List Nat) : d.tell kind ps fields =
    { d with out := (ps.map (fun p => Output.message kind p fields)).reverse ++ d.out } := by
  unfold Dev.tell
  induction ps generalizing d with
  | nil => rfl
  | cons p ps ih =>
    rw [List.foldl_cons, ih]
    simp [Dev.emit]

theorem Dev.mem_out_tell {kind : CtrlMsg} {ps fields : List Nat} {p : Nat} (h : p ∈ ps) :
    .message kind p fields ∈ (d.tell kind ps fields).out := by
  rw [Dev.tell_eq]
  exact List.mem_append_left _ (List.mem_reverse.mpr (List.mem_map_of_mem h))

theorem Dev.mem_out_tell_of_mem {o : Output} (h : o ∈ d.out) (kind : CtrlMsg) (ps fields : List Nat) :
    o ∈ (d.tell kind ps fields).out := by
  rw [Dev.tell_eq]
  exact List.mem_append_right _ h

@[simp] theorem Dev.tell_time (kind : CtrlMsg) (ps fields : List Nat) : (d.tell kind ps fields).time = d.time := by rw [Dev.tell_eq]
@[simp] theorem Dev.tell_tag (kind : CtrlMsg) (ps fields : List Nat) (n : Nat) : (d.tell kind ps fields).tag n = d.tag n := by
  rw [Dev.tell_eq]; rfl
@[simp] theorem Dev.tell_job (kind : CtrlMsg) (ps fields : List Nat) (t : BitVec 16) (b : Bool) :
    (d.tell kind ps fields).job t b = d.job t b := by rw [Dev.tell_eq]; rfl
@[simp] theorem Dev.tell_slotOf (kind : CtrlMsg) (ps fields : List Nat) (n : Nat) : (d.tell kind ps fields).slotOf n = d.slotOf n := by
  rw [Dev.tell_eq]; rfl
@[simp] theorem Dev.tell_self (kind : CtrlMsg) (ps fields : List Nat) : (d.tell kind ps fields).self = d.self := by
  rw [Dev.tell_eq]; rfl

/-- A primary child and an alternate child are both told, each once (R349). -/
theorem Dev.mem_out_tell_eraseDups {kind : CtrlMsg} {ps qs fields : List Nat} {p : Nat} (h : p ∈ ps ∨ p ∈ qs) :
    .message kind p fields ∈ (d.tell kind (ps ++ qs).eraseDups fields).out :=
  d.mem_out_tell (List.mem_eraseDups.mpr (List.mem_append.mpr h))

end Messages

/-! ## Job records -/

section Records
variable (d : Dev)

theorem Dev.job_dropJob (t : BitVec 16) (b : Bool) : (d.dropJob t b).job t b = none := by
  unfold Dev.job Dev.dropJob
  refine List.find?_eq_none.mpr fun j hj => ?_
  have hkept := (List.mem_filter.mp hj).2
  simpa [imp_iff_not_or] using hkept

theorem Dev.job_setJob (j : Job) : (d.setJob j).job j.tag j.teardown = some j := by
  have hnone := d.job_dropJob j.tag j.teardown
  unfold Dev.job Dev.dropJob at hnone
  unfold Dev.job Dev.setJob
  rw [List.find?_append, hnone]
  simp

theorem Dev.job_key {t : BitVec 16} {b : Bool} {j : Job} (h : d.job t b = some j) : j.tag = t ∧ j.teardown = b := by
  have hkey := List.find?_some h
  simpa using hkey

end Records

/-! ## The tag commands (R347) -/

section Commands
variable {s : State}

/-- Tag `k` alone moves, and a tag command's reason is stored. -/
def Tagged (k : Nat) (s t : State) : Prop :=
  t = { s with dev := { s.dev with health := t.dev.health, time := { s.dev.time with tags := t.dev.time.tags, tagReason := t.dev.time.tagReason } } } ∧
    ∀ j, j ≠ k → t.dev.tag j = s.dev.tag j

theorem tagged_tagTo (k : Nat) (x : Option Tag) : Tagged k s { s with dev := s.dev.tagTo k x } := by
  refine ⟨State.ext ?_ rfl rfl, fun j hj => s.dev.tag_tagTo_other hj x⟩
  have hmove := s.dev.tagTo_eq k x
  generalize s.dev.tagTo k x = e at hmove
  dsimp only
  rw [hmove]

theorem tagged_tagTo_result (k : Nat) (x : Option Tag) (why : Nat) : Tagged k s { s with dev := (s.dev.tagTo k x).tagResult why } := by
  refine ⟨State.ext ?_ rfl rfl, fun j hj => s.dev.tag_tagTo_other hj x⟩
  have hmove := s.dev.tagTo_eq k x
  generalize s.dev.tagTo k x = e at hmove
  unfold Dev.tagResult
  dsimp only
  rw [hmove]

theorem ends_tagAssign (hserving : s.dev.health.stopped = false) : Ends .tagAssign s (fun t => t = { s with dev := s.dev.tagAssign }) :=
  ⟨_, viaCfg_of_serving hserving _, rfl⟩
theorem ends_tagUnassign (hserving : s.dev.health.stopped = false) : Ends .tagUnassign s (fun t => t = { s with dev := s.dev.tagUnassign }) :=
  ⟨_, viaCfg_of_serving hserving _, rfl⟩
theorem ends_tagRevoke (hserving : s.dev.health.stopped = false) : Ends .tagRevoke s (fun t => t = { s with dev := s.dev.tagRevoke }) :=
  ⟨_, viaCfg_of_serving hserving _, rfl⟩

/-- A command that ends in a known state ends with whatever holds there. -/
theorem Ends.of_eq {c : Instr} {u : State} {p : State → Prop} (h : Ends c s (fun t => t = u)) (hp : p u) : Ends c s p := by
  obtain ⟨t, hrun, ht⟩ := h
  exact ⟨t, hrun, ht ▸ hp⟩

/-! ### What each command answers -/

section Answers
variable {d : Dev} (hrun : d.isRunning .time = true)
include hrun

theorem Dev.tagAssign_of_free (hnonzero : d.time.tagSel.toNat ≠ 0) (hfree : d.tag d.time.tagSel.toNat = none)
    (hcurrent : d.currentTag d.time.tagSelClaim.toNat = none) (hclaim : d.isRunning (claimBlock d.time.tagSelClaim.toNat) = true) :
    d.tagAssign = (d.tagTo d.time.tagSel.toNat (some { st := .assigned, claim := d.time.tagSelClaim.toNat, attempt := 0, gid := 0, go := none,
                                                       since := d.phys, seen := d.phys })).tagResult 0 := by
  unfold Dev.tagAssign Dev.timeRuns
  simp only [hrun, hnonzero, hfree, hcurrent, hclaim]
  rfl

theorem Dev.tagAssign_of_zero (h : d.time.tagSel.toNat = 0) : d.tagAssign = d.tagResult 0x2413 := by
  unfold Dev.tagAssign Dev.timeRuns
  simp only [hrun, h]
  rfl

theorem Dev.tagAssign_of_taken {x : Tag} (hnonzero : d.time.tagSel.toNat ≠ 0) (htag : d.tag d.time.tagSel.toNat = some x) :
    d.tagAssign = d.tagResult (if x.st = .draining then 0x2412 else 0x2410) := by
  unfold Dev.tagAssign Dev.timeRuns
  by_cases hdraining : x.st = .draining
  · simp [hrun, hnonzero, htag, hdraining]
  · simp [hrun, hnonzero, htag, hdraining]

theorem Dev.tagAssign_of_tagged (hnonzero : d.time.tagSel.toNat ≠ 0) (hfree : d.tag d.time.tagSel.toNat = none)
    (hcurrent : d.currentTag d.time.tagSelClaim.toNat ≠ none) : d.tagAssign = d.tagResult 0x2411 := by
  unfold Dev.tagAssign Dev.timeRuns
  simp only [hrun, hnonzero, hfree, Option.isSome_iff_ne_none.mpr hcurrent]
  rfl

theorem Dev.tagUnassign_of_assigned {x : Tag} (htag : d.tag d.time.tagSel.toNat = some x) (h : x.st = .assigned) :
    d.tagUnassign = (d.tagTo d.time.tagSel.toNat none).tagResult 0 := by
  unfold Dev.tagUnassign Dev.timeRuns
  simp only [hrun, htag, Option.any_some, h]
  rfl

theorem Dev.tagRevoke_of_running {x : Tag} (htag : d.tag d.time.tagSel.toNat = some x) (h : x.st = .starting ∨ x.st = .active) :
    d.tagRevoke = (d.tagTo d.time.tagSel.toNat (some { x with st := .draining, since := d.phys })).tagResult 0 := by
  unfold Dev.tagRevoke Dev.timeRuns
  have hlive : (x.st == .starting || x.st == .active) = true := by simpa using h
  simp only [hrun, htag, Option.any_some, hlive, d.drainTag_of_running htag h]
  rfl

theorem Dev.tagUnassign_of_free (h : d.tag d.time.tagSel.toNat = none) : d.tagUnassign = d.tagResult 0x2414 := by
  unfold Dev.tagUnassign Dev.timeRuns
  simp only [hrun, h]
  rfl

theorem Dev.tagRevoke_of_free (h : d.tag d.time.tagSel.toNat = none) : d.tagRevoke = d.tagResult 0x2414 := by
  unfold Dev.tagRevoke Dev.timeRuns
  simp only [hrun, h]
  rfl

end Answers

theorem ends_tagQuery (hserving : s.dev.health.stopped = false) (hrun : s.dev.isRunning .time = true) : Ends .tagQuery s (fun t =>
    t = { s with dev := { s.dev with time := { s.dev.time with
      tagState := BitVec.ofNat 3 (tagCode (s.dev.tag s.dev.time.tagSel.toNat))
      tagClaim := BitVec.ofNat 5 (((s.dev.tag s.dev.time.tagSel.toNat).map Tag.claim).getD 0), tagReason := 0 } } }) := by
  refine ⟨_, viaCfg_of_serving hserving _, State.ext ?_ rfl rfl⟩
  unfold Dev.tagQuery Dev.timeRuns
  simp only [hrun]
  rfl

/-! ### What a tag's own events answer (R349 to R351) -/

section Events
variable {tag gid : BitVec 16} {x : Tag} (htag : s.dev.tag tag.toNat = some x)
include htag

theorem ends_tagActivate (hst : x.st = .starting) {g : Word} (hgo : x.go = some g) (hreached : reached s.dev.now g = true) :
    Ends (.tagActivate tag) s (fun t =>
      t = { s with dev := s.dev.tagTo tag.toNat (some { x with st := .active, since := s.dev.phys }) }) := by
  have hready : (x.st == .starting && x.go.any (reached s.dev.now)) = true := by rw [hst, hgo, Option.any_some, hreached]; rfl
  refine ⟨_, ?_, rfl⟩
  rw [show exec (.tagActivate tag) s = execTagActivate tag s from rfl]
  unfold execTagActivate
  simp only [htag, Option.filter_some, hready, if_true]
  rfl

theorem ends_startingTagTimeout (hst : x.st = .starting) (hgo : x.go = none)
    (hpast : 2000 * s.dev.time.startTo.toNat ≤ elapsed s.dev.phys x.since) :
    Ends (.startingTagTimeout tag) s (fun t => t = { s with dev := s.dev.unstart tag.toNat x }) := by
  have hlate : s.dev.startPast x.since 4 = true := by
    unfold Dev.startPast Dev.past
    unfold elapsed at hpast
    exact decide_eq_true (by omega)
  have hready : (x.st == .starting && x.go.isNone && s.dev.startPast x.since 4) = true := by rw [hst, hgo, hlate]; rfl
  refine ⟨_, ?_, rfl⟩
  rw [show exec (.startingTagTimeout tag) s = execStartingTagTimeout tag s from rfl]
  unfold execStartingTagTimeout
  simp only [htag, Option.filter_some, hready, if_true]
  rfl

theorem ends_tagDrainComplete (hst : x.st = .draining) (huse : s.dev.tagInUse tag.toNat = false)
    (hexch : s.dev.tagExchanges tag.toNat = false) (hquiet : s.dev.past x.seen s.dev.time.tagQuiet.toNat = true) :
    Ends (.tagDrainComplete tag) s (fun t => t = { s with dev := (s.dev.tagTo tag.toNat none).reportFree tag }) := by
  refine ⟨_, ?_, rfl⟩
  rw [show exec (.tagDrainComplete tag) s = execTagDrainComplete tag s from rfl]
  unfold execTagDrainComplete
  simp only [htag, hst, huse, hexch, hquiet]
  rfl

variable {slot : Nat} {g : Group} (hslot : s.dev.slotOf gid.toNat = some (slot, g)) (hst : x.st = .starting)
include hslot hst

theorem ends_jobGoReceive (hgo : x.go = none) (rel : Word) : Ends (.jobGoReceive tag gid x.attempt rel) s (fun t =>
    t = { s with dev := (s.dev.tagTo tag.toNat (some { x with go := some rel })).tell .jobGo
                          (g.jobChildren s.dev.self ++ g.children s.dev.self).eraseDups [tag.toNat, gid.toNat, x.attempt.toNat, rel.toNat] }) := by
  have hready : (x.st == .starting && x.attempt == x.attempt && x.go.isNone) = true := by simp [hst, hgo]
  refine ⟨_, ?_, rfl⟩
  rw [show exec (.jobGoReceive tag gid x.attempt rel) s = execJobGoReceive tag gid x.attempt rel s from rfl]
  unfold execJobGoReceive
  simp only [htag, Option.filter_some, hready, if_true, hslot]
  rfl

theorem ends_jobAbortReceive : Ends (.jobAbortReceive tag gid x.attempt) s (fun t =>
    t = { s with dev := ((s.dev.unstart tag.toNat x).dropJob tag false).tell .jobAbort (g.children s.dev.self)
                          [tag.toNat, gid.toNat, x.attempt.toNat] }) := by
  have hready : (x.st == .starting && x.attempt == x.attempt) = true := by simp [hst]
  have hslot' : ((s.dev.unstart tag.toNat x).dropJob tag false).slotOf gid.toNat = some (slot, g) := by
    rw [← hslot]
    unfold Dev.slotOf Dev.unstart Dev.dropJob
    dsimp only
    rw [Dev.tagTo_coll]
  have hself : ((s.dev.unstart tag.toNat x).dropJob tag false).self = s.dev.self := by
    unfold Dev.self Dev.unstart Dev.dropJob
    dsimp only
    rw [Dev.tagTo_routing]
  refine ⟨_, ?_, rfl⟩
  rw [show exec (.jobAbortReceive tag gid x.attempt) s = execJobAbortReceive tag gid x.attempt s from rfl]
  unfold execJobAbortReceive
  simp only [htag, Option.filter_some, hready, if_true, hslot', hself]
  rfl

end Events

end Commands

/-! ## The obligation -/

theorem Dev.reportFree_of_no_job {d : Dev} {tag : BitVec 16} (h : d.job tag true = none) : d.reportFree tag = d := by
  unfold Dev.reportFree
  rw [h]

theorem Dev.job_tagTo (d : Dev) (n : Nat) (x : Option Tag) (tag : BitVec 16) (b : Bool) : (d.tagTo n x).job tag b = d.job tag b := by
  rw [Dev.tagTo_eq]
  rfl

/-- Settles O48, by what each tag command answers and what one tag's move changes. -/
theorem tagsMoveThroughTheirStates : Obligations.TagsMoveThroughTheirStates := by
  unfold Obligations.TagsMoveThroughTheirStates
  intro s tag gid
  refine ⟨fun hserving hrun => ⟨?_, ?_, ?_, ?_, ?_, ?_, ?_, ends_tagQuery hserving hrun⟩, fun x htag => ⟨?_, ?_, ?_, ?_⟩⟩
  · rintro ⟨hnonzero, hfree, hcurrent, hclaim⟩
    refine (ends_tagAssign hserving).of_eq ?_
    rw [Dev.tagAssign_of_free hrun hnonzero hfree hcurrent hclaim]
    exact ⟨tagged_tagTo_result _ _ 0, rfl, Dev.tag_tagTo_same ..⟩
  · exact fun hzero => (ends_tagAssign hserving).of_eq (by rw [Dev.tagAssign_of_zero hrun hzero]; rfl)
  · exact fun x hnonzero htag => (ends_tagAssign hserving).of_eq (by rw [Dev.tagAssign_of_taken hrun hnonzero htag]; rfl)
  · exact fun hnonzero hfree hcurrent =>
      (ends_tagAssign hserving).of_eq (by rw [Dev.tagAssign_of_tagged hrun hnonzero hfree hcurrent]; rfl)
  · intro x htag hst
    refine (ends_tagUnassign hserving).of_eq ?_
    rw [Dev.tagUnassign_of_assigned hrun htag hst]
    exact ⟨tagged_tagTo_result _ _ 0, rfl, Dev.tag_tagTo_same ..⟩
  · intro x htag hst
    refine (ends_tagRevoke hserving).of_eq ?_
    rw [Dev.tagRevoke_of_running hrun htag hst]
    exact ⟨tagged_tagTo_result _ _ 0, rfl, Dev.tag_tagTo_same ..⟩
  · exact fun hfree => ⟨(ends_tagUnassign hserving).of_eq (by rw [Dev.tagUnassign_of_free hrun hfree]; rfl),
      (ends_tagRevoke hserving).of_eq (by rw [Dev.tagRevoke_of_free hrun hfree]; rfl)⟩
  · exact fun hst g hgo hreached =>
      (ends_tagActivate htag hst hgo hreached).of_eq ⟨tagged_tagTo _ _, Dev.tag_tagTo_same ..⟩
  · intro hst hgo hpast
    refine (ends_startingTagTimeout htag hst hgo hpast).of_eq ⟨tagged_tagTo _ _, (Dev.tag_tagTo_same ..).trans ?_⟩
    rw [hgo]
  · intro hst huse hexch hquiet hjob
    refine (ends_tagDrainComplete htag hst huse hexch hquiet).of_eq ?_
    rw [Dev.reportFree_of_no_job ((s.dev.job_tagTo ..).trans hjob)]
    exact ⟨tagged_tagTo _ _, Dev.tag_tagTo_same ..⟩
  · intro slot g hslot hst
    refine ⟨fun rel hgo => (ends_jobGoReceive htag hslot hst hgo rel).of_eq ⟨?_, ?_, ?_, ?_⟩, (ends_jobAbortReceive htag hslot hst).of_eq ⟨?_, ?_, ?_, ?_, ?_⟩⟩
    · refine State.ext ?_ rfl rfl
      rw [Dev.tagTo_of_same_code s.dev (by rw [htag]; rfl), Dev.tell_eq]
    · exact (Dev.tell_tag ..).trans (Dev.tag_tagTo_same ..)
    · exact fun j hj => (Dev.tell_tag ..).trans (Dev.tag_tagTo_other _ hj _)
    · exact fun p hp => Dev.mem_out_tell_eraseDups _ hp
    · refine State.ext ?_ rfl rfl
      unfold Dev.unstart Dev.dropJob
      rw [Dev.tell_eq, Dev.tagTo_eq]
    · exact (Dev.tell_tag ..).trans (Dev.tag_tagTo_same ..)
    · exact fun j hj => (Dev.tell_tag ..).trans (Dev.tag_tagTo_other _ hj _)
    · exact (Dev.tell_job ..).trans (Dev.job_dropJob ..)
    · exact fun p hp => Dev.mem_out_tell _ hp

end Sys2Proof.Machine

/-! The start of jobs (R349, R350, Tables 15.4 and 15.9). -/
namespace Sys2Proof.Machine

/-! ## An outcome (Table 15.9) -/

/-- The root holds an outcome, vector 5 has been raised for it, and the job has no record left. -/
def Dev.Concluded (e : Dev) (tag : BitVec 16) (teardown : Bool) (code cause : Nat) (who : BitVec 20) : Prop :=
  e.time.jobOutcome = BitVec.ofNat 3 code ∧ e.time.jobCause = BitVec.ofNat 8 cause ∧ e.time.jobWho = who ∧
    (.msix 5 ∈ e.out ∨ e.host.msixPending.getLsbD 5 = true) ∧ e.job tag teardown = none

section Outcome
variable (d : Dev) (code cause : Nat) (who : BitVec 20)

theorem Dev.outcome_time : (d.outcome code cause who).time =
    { d.time with jobOutcome := BitVec.ofNat 3 code, jobCause := BitVec.ofNat 8 cause, jobWho := who } := Dev.raise_time _ 5

theorem Dev.concluded_outcome {tag : BitVec 16} {b : Bool} (h : d.job tag b = none) :
    (d.outcome code cause who).Concluded tag b code cause who := by
  have htime := d.outcome_time code cause who
  refine ⟨by rw [htime], by rw [htime], by rw [htime], Dev.raise_sent_or_pending _ (by decide), ?_⟩
  unfold Dev.job
  rw [htime]
  exact h

theorem Dev.mem_out_outcome {o : Output} (h : o ∈ d.out) : o ∈ (d.outcome code cause who).out := by
  unfold Dev.outcome
  refine Dev.mem_out_raise ?_ 5
  exact h

theorem Dev.tag_outcome (n : Nat) : (d.outcome code cause who).tag n = d.tag n := by
  unfold Dev.tag
  rw [Dev.outcome_time]

end Outcome

/-! ## What a job's step may change -/

/-- What the steps of jobs may change: the log and vectors, messages put out, job records, the outcome, and tag `k` alone. -/
structure Dev.JobsTo (k : Nat) (d e : Dev) : Prop where
  frame : e = { d with
    health := e.health, host := e.host, out := e.out
    time := { d.time with
      tags := e.time.tags, jobs := e.time.jobs, jobOutcome := e.time.jobOutcome, jobCause := e.time.jobCause, jobWho := e.time.jobWho } }
  others : ∀ j, j ≠ k → e.tag j = d.tag j
  told : ∀ o ∈ d.out, o ∈ e.out

namespace Dev.JobsTo
variable {k : Nat} {d e f : Dev}

theorem refl : d.JobsTo k d := ⟨rfl, fun _ _ => rfl, fun _ h => h⟩

theorem trans (hde : d.JobsTo k e) (hef : e.JobsTo k f) : d.JobsTo k f where
  frame := hef.frame.trans (by rw [hde.frame])
  others j hj := (hef.others j hj).trans (hde.others j hj)
  told o ho := hef.told o (hde.told o ho)

theorem self (h : d.JobsTo k e) : e.self = d.self := by rw [h.frame]; rfl
theorem slotOf (h : d.JobsTo k e) (gid : Nat) : e.slotOf gid = d.slotOf gid := by rw [h.frame]; rfl
theorem phys (h : d.JobsTo k e) : e.phys = d.phys := by rw [h.frame]; rfl
theorem goTick_sum (h : d.JobsTo k e) : e.now + e.time.barMargin.setWidth 64 = d.now + d.time.barMargin.setWidth 64 := by rw [h.frame]
theorem align (h : d.JobsTo k e) : e.time.align = d.time.align := by rw [h.frame]

end Dev.JobsTo

section Steps
variable (d : Dev) (k : Nat)

theorem Dev.jobsTo_tagTo (x : Option Tag) : d.JobsTo k (d.tagTo k x) := by
  refine ⟨?_, fun j hj => d.tag_tagTo_other hj x, fun o ho => by rwa [Dev.tagTo_eq]⟩
  have hmove := d.tagTo_eq k x
  generalize d.tagTo k x = e at hmove
  rw [hmove]

theorem Dev.jobsTo_unstart (x : Tag) : d.JobsTo k (d.unstart k x) := d.jobsTo_tagTo k _
theorem Dev.jobsTo_tell (kind : CtrlMsg) (ps fields : List Nat) : d.JobsTo k (d.tell kind ps fields) := by
  refine ⟨?_, fun j _ => d.tell_tag kind ps fields j, fun _ ho => d.mem_out_tell_of_mem ho ..⟩
  rw [Dev.tell_eq]
theorem Dev.jobsTo_setJob (j : Job) : d.JobsTo k (d.setJob j) := ⟨rfl, fun _ _ => rfl, fun _ h => h⟩
theorem Dev.jobsTo_dropJob (t : BitVec 16) (b : Bool) : d.JobsTo k (d.dropJob t b) := ⟨rfl, fun _ _ => rfl, fun _ h => h⟩
theorem Dev.jobsTo_outcome (code cause : Nat) (who : BitVec 20) : d.JobsTo k (d.outcome code cause who) := by
  refine ⟨?_, fun j _ => d.tag_outcome code cause who j, fun _ ho => d.mem_out_outcome code cause who ho⟩
  unfold Dev.outcome
  rw [Dev.raise_eq]

end Steps

/-! ## The acceptance test (Table 15.4) -/

/-- The cause of the acceptance test, 0 where it is met. -/
def Dev.startCause (d : Dev) (tag gid : BitVec 16) (attempt : BitVec 8) : Nat :=
  match d.tag tag.toNat with
  | none => 2
  | some x =>
    if x.st == .draining || d.time.tags.any (fun e => e.1 != tag.toNat && e.2.claim == x.claim && e.2.st == .draining) then 1
    else if x.st == .active || (x.st == .starting && Nat.blt (x.attempt - attempt).toNat 128) then 3
    else match d.slotOf gid.toNat with
      | none => 4
      | some (_, g) => if g.claim != x.claim then 5 else if 1 < g.members && d.time.align != .locked then 6 else 0

/-- A tag as START leaves it. -/
def Tag.started (x : Tag) (gid : BitVec 16) (attempt : BitVec 8) (now : Tick) : Tag :=
  { x with st := .starting, attempt := attempt, gid := gid, go := none, since := now }

section Accept
variable (d : Dev) (tag gid : BitVec 16) (a : BitVec 8)

/-- The test answers its cause, and moves the tag where it takes a start back or begins one. -/
theorem Dev.acceptJob_moves : (d.acceptJob tag gid a).2 = d.startCause tag gid a ∧ ∃ e, (e = d ∨ ∃ x, e = d.unstart tag.toNat x) ∧
    ((d.startCause tag gid a ≠ 0 ∧ (d.acceptJob tag gid a).1 = e) ∨
      ∃ x, d.tag tag.toNat = some x ∧ (d.acceptJob tag gid a).1 = e.tagTo tag.toNat (some (x.started gid a e.phys))) := by
  unfold Dev.acceptJob Dev.startCause
  dsimp only
  cases htag : d.tag tag.toNat with
  | none => exact ⟨rfl, d, .inl rfl, .inl ⟨Nat.succ_ne_zero _, rfl⟩⟩
  | some x =>
    dsimp only
    generalize hb : (if (x.st == .starting) = true then d.unstart tag.toNat x else d) = e
    have hback : e = d ∨ ∃ x, e = d.unstart tag.toNat x := by
      rw [← hb]
      split_ifs
      · exact .inr ⟨x, rfl⟩
      · exact .inl rfl
    have hmoves : d.JobsTo tag.toNat e := by
      rcases hback with rfl | ⟨y, rfl⟩
      · exact .refl
      · exact d.jobsTo_unstart _ y
    rw [hmoves.slotOf, hmoves.align]
    split_ifs with hdraining hactive
    · exact ⟨rfl, d, .inl rfl, .inl ⟨Nat.succ_ne_zero _, rfl⟩⟩
    · exact ⟨rfl, d, .inl rfl, .inl ⟨Nat.succ_ne_zero _, rfl⟩⟩
    · cases hslot : d.slotOf gid.toNat with
      | none => exact ⟨rfl, e, hback, .inl ⟨Nat.succ_ne_zero _, rfl⟩⟩
      | some y =>
        dsimp only
        split_ifs with hclaim hlocked
        · exact ⟨rfl, e, hback, .inl ⟨Nat.succ_ne_zero _, rfl⟩⟩
        · exact ⟨rfl, e, hback, .inl ⟨Nat.succ_ne_zero _, rfl⟩⟩
        · exact ⟨rfl, e, hback, .inr ⟨x, rfl, rfl⟩⟩

theorem Dev.acceptJob_cause : (d.acceptJob tag gid a).2 = d.startCause tag gid a := (d.acceptJob_moves tag gid a).1

theorem Dev.jobsTo_acceptJob : d.JobsTo tag.toNat (d.acceptJob tag gid a).1 := by
  obtain ⟨-, e, hback, hmove⟩ := d.acceptJob_moves tag gid a
  have hde : d.JobsTo tag.toNat e := by
    rcases hback with rfl | ⟨x, rfl⟩
    · exact .refl
    · exact d.jobsTo_unstart _ x
  rcases hmove with ⟨-, heq⟩ | ⟨x, -, heq⟩
  · rwa [heq]
  · rw [heq]
    exact hde.trans (e.jobsTo_tagTo _ _)

theorem Dev.acceptJob_jobs : (d.acceptJob tag gid a).1.time.jobs = d.time.jobs := by
  obtain ⟨-, e, hback, hmove⟩ := d.acceptJob_moves tag gid a
  have hjobs (f : Dev) (x : Option Tag) : (f.tagTo tag.toNat x).time.jobs = f.time.jobs := by rw [Dev.tagTo_eq]
  have hde : e.time.jobs = d.time.jobs := by
    rcases hback with rfl | ⟨x, rfl⟩
    · rfl
    · exact hjobs _ _
  rcases hmove with ⟨-, heq⟩ | ⟨x, -, heq⟩ <;> rw [heq]
  · exact hde
  · exact (hjobs _ _).trans hde

/-- A test that is met leaves the tag STARTING. -/
theorem Dev.acceptJob_started (h : (d.acceptJob tag gid a).2 = 0) : ∃ x, d.tag tag.toNat = some x ∧
    (d.acceptJob tag gid a).1.tag tag.toNat = some (x.started gid a d.phys) := by
  obtain ⟨hcause, e, hback, hmove⟩ := d.acceptJob_moves tag gid a
  have hphys : e.phys = d.phys := by
    rcases hback with rfl | ⟨x, rfl⟩
    · rfl
    · exact (d.jobsTo_unstart _ x).phys
  rcases hmove with ⟨hne, -⟩ | ⟨x, htag, heq⟩
  · exact absurd (hcause.symm.trans h) hne
  · exact ⟨x, htag, by rw [heq, Dev.tag_tagTo_same, hphys]⟩

end Accept

/-! ## The end of a start, and a step of its record -/

/-- A tag STARTING under a job's ATTEMPT goes back to ASSIGNED. -/
def Dev.takeBack (d : Dev) (j : Job) : Dev :=
  match (d.tag j.tag.toNat).filter (fun x => x.st == .starting && x.attempt == j.attempt) with
  | some x => d.unstart j.tag.toNat x
  | none => d

/-- A tag that is in hand takes the tick of its GO. -/
def Dev.goAt (d : Dev) (t : Nat) (rel : Word) : Dev :=
  match d.tag t with
  | some x => d.tagTo t (some { x with go := some rel })
  | none => d

/-- The tick that a root gives GO for (R349). -/
def Dev.goTick (d : Dev) : Word := d.now + d.time.barMargin.setWidth 64

/-- Every child of a job has answered. -/
def Job.complete (j : Job) (kids : List Nat) : Bool := kids.all (fun c => j.heard.any (fun h => h.toNat == c))

/-- What a node answers its parent. -/
def Job.report (j : Job) : List Nat :=
  [j.tag.toNat, j.attempt.toNat, j.accepted] ++ (match j.refused with | some (w, c) => [w.toNat, c] | none => [0, 0]) ++
    [(j.missing.map (fun m => m.toNat + 1)).getD 0]

section Ends
variable (d : Dev) (j : Job)

theorem Dev.jobsTo_takeBack : d.JobsTo j.tag.toNat (d.takeBack j) := by
  unfold Dev.takeBack
  split
  · exact d.jobsTo_unstart _ _
  · exact .refl

theorem Dev.tag_takeBack {x : Tag} (htag : d.tag j.tag.toNat = some x) (hst : x.st = .starting) (hattempt : x.attempt = j.attempt) :
    (d.takeBack j).tag j.tag.toNat = some { x with st := .assigned, go := none, since := d.phys } := by
  unfold Dev.takeBack
  rw [htag, Option.filter_some, if_pos (by simp [hst, hattempt])]
  exact Dev.tag_tagTo_same ..

theorem Dev.takeBack_out : (d.takeBack j).out = d.out := by
  unfold Dev.takeBack Dev.unstart
  split
  · rw [Dev.tagTo_eq]
  · rfl

theorem Dev.takeBack_job (t : BitVec 16) (b : Bool) : (d.takeBack j).job t b = d.job t b := by
  unfold Dev.takeBack
  split
  · exact Dev.job_tagTo ..
  · rfl

theorem Dev.jobsTo_goAt (k : Nat) (rel : Word) : d.JobsTo k (d.goAt k rel) := by
  unfold Dev.goAt
  split
  · exact d.jobsTo_tagTo _ _
  · exact .refl

theorem Dev.tag_goAt {k : Nat} {x : Tag} (htag : d.tag k = some x) (rel : Word) :
    (d.goAt k rel).tag k = some { x with go := some rel } := by
  unfold Dev.goAt
  rw [htag]
  exact Dev.tag_tagTo_same ..

variable {d j} {slot : Nat} {g : Group} (hslot : d.slotOf j.gid.toNat = some (slot, g))
include hslot

theorem Dev.abandonStart_eq (code cause : Nat) (who : BitVec 20) : d.abandonStart j code cause who =
    (((d.dropJob j.tag false).tell .jobAbort (g.children d.self) [j.tag.toNat, j.gid.toNat, j.attempt.toNat]).takeBack j).outcome
      code cause who := by
  have hslot' : (d.dropJob j.tag false).slotOf j.gid.toNat = some (slot, g) := hslot
  unfold Dev.abandonStart
  dsimp only
  rw [hslot']
  rfl

theorem Dev.jobsTo_abandonStart (code cause : Nat) (who : BitVec 20) : d.JobsTo j.tag.toNat (d.abandonStart j code cause who) := by
  rw [Dev.abandonStart_eq hslot]
  exact ((d.jobsTo_dropJob _ _ _).trans (Dev.jobsTo_tell ..)).trans ((Dev.jobsTo_takeBack ..).trans (Dev.jobsTo_outcome ..))

theorem Dev.concluded_abandonStart (code cause : Nat) (who : BitVec 20) :
    (d.abandonStart j code cause who).Concluded j.tag false code cause who := by
  rw [Dev.abandonStart_eq hslot]
  refine Dev.concluded_outcome _ _ _ _ ?_
  rw [Dev.takeBack_job, Dev.tell_job, Dev.job_dropJob]

theorem Dev.mem_out_abandonStart (code cause : Nat) (who : BitVec 20) {p : Nat} (hp : p ∈ g.children d.self) :
    .message .jobAbort p [j.tag.toNat, j.gid.toNat, j.attempt.toNat] ∈ (d.abandonStart j code cause who).out := by
  rw [Dev.abandonStart_eq hslot]
  refine Dev.mem_out_outcome _ _ _ _ ?_
  rw [Dev.takeBack_out]
  exact Dev.mem_out_tell _ hp

theorem Dev.tag_abandonStart (code cause : Nat) (who : BitVec 20) {x : Tag} (htag : d.tag j.tag.toNat = some x) (hst : x.st = .starting)
    (hattempt : x.attempt = j.attempt) :
    (d.abandonStart j code cause who).tag j.tag.toNat = some { x with st := .assigned, go := none, since := d.phys } := by
  have htag' : ((d.dropJob j.tag false).tell .jobAbort (g.children d.self) [j.tag.toNat, j.gid.toNat, j.attempt.toNat]).tag j.tag.toNat =
      some x := (Dev.tell_tag ..).trans htag
  rw [Dev.abandonStart_eq hslot, Dev.tag_outcome, Dev.tag_takeBack _ _ htag' hst hattempt, Dev.tell_eq]
  rfl

/-! ### A step of the record -/

theorem Dev.jobStep_refused (hroot : j.root = true) {who : BitVec 20} {cause : Nat} (h : j.refused = some (who, cause)) :
    d.jobStep j = d.abandonStart j 2 cause who := by
  unfold Dev.jobStep
  simp only [hslot, hroot, h, if_true]

theorem Dev.jobStep_accepted (hroot : j.root = true) (hnone : j.refused = none) (hall : j.accepted = g.members) :
    d.jobStep j = (((d.goAt j.tag.toNat d.goTick).tell .jobGo (g.jobChildren d.self ++ g.children d.self).eraseDups
      [j.tag.toNat, j.gid.toNat, j.attempt.toNat, d.goTick.toNat]).dropJob j.tag false).outcome 1 0 0 := by
  unfold Dev.jobStep
  simp only [hslot, hroot, hnone, hall, if_true]
  rw [← (d.jobsTo_goAt j.tag.toNat d.goTick).self]
  rfl

theorem Dev.jobStep_root_waits (hroot : j.root = true) (hnone : j.refused = none) (hfew : j.accepted ≠ g.members) : d.jobStep j = d := by
  unfold Dev.jobStep
  simp only [hslot, hroot, hnone, hfew, if_true, if_false]

theorem Dev.jobStep_answers (hroot : j.root = false) (hall : j.complete (g.jobChildren d.self) = true) :
    d.jobStep j = (d.dropJob j.tag false).tell .jobAnswer (g.jobParent d.self).toList j.report := by
  unfold Job.complete at hall
  unfold Dev.jobStep
  simp only [hslot, hroot, hall, if_true]
  rfl

theorem Dev.jobStep_member_waits (hroot : j.root = false) (hsome : j.complete (g.jobChildren d.self) = false) : d.jobStep j = d := by
  unfold Job.complete at hsome
  unfold Dev.jobStep
  simp [hslot, hroot, hsome]

theorem Dev.jobsTo_jobStep : d.JobsTo j.tag.toNat (d.jobStep j) := by
  cases hroot : j.root with
  | true =>
    cases hrefused : j.refused with
    | some y => exact Dev.jobStep_refused hslot hroot hrefused ▸ Dev.jobsTo_abandonStart hslot ..
    | none =>
      by_cases hall : j.accepted = g.members
      · rw [Dev.jobStep_accepted hslot hroot hrefused hall]
        exact ((d.jobsTo_goAt _ _).trans (Dev.jobsTo_tell ..)).trans ((Dev.jobsTo_dropJob ..).trans (Dev.jobsTo_outcome ..))
      · rw [Dev.jobStep_root_waits hslot hroot hrefused hall]
        exact .refl
  | false =>
    cases hall : j.complete (g.jobChildren d.self) with
    | true =>
      rw [Dev.jobStep_answers hslot hroot hall]
      exact (d.jobsTo_dropJob _ _ _).trans (Dev.jobsTo_tell ..)
    | false =>
      rw [Dev.jobStep_member_waits hslot hroot hall]
      exact .refl

/-- Once the last acceptance is in, the root holds the outcome and GO has gone to both trees' children. -/
theorem Dev.concluded_jobStep (hroot : j.root = true) (hnone : j.refused = none) (hall : j.accepted = g.members) :
    (d.jobStep j).Concluded j.tag false 1 0 0 ∧ ∀ p ∈ g.jobChildren d.self ++ g.children d.self,
      .message .jobGo p [j.tag.toNat, j.gid.toNat, j.attempt.toNat, d.goTick.toNat] ∈ (d.jobStep j).out := by
  rw [Dev.jobStep_accepted hslot hroot hnone hall]
  refine ⟨Dev.concluded_outcome _ _ _ _ (Dev.job_dropJob ..), fun p hp => Dev.mem_out_outcome _ _ _ _ ?_⟩
  exact Dev.mem_out_tell_eraseDups _ (List.mem_append.mp hp)

theorem Dev.tag_jobStep_accepted (hroot : j.root = true) (hnone : j.refused = none) (hall : j.accepted = g.members) {x : Tag}
    (htag : d.tag j.tag.toNat = some x) : (d.jobStep j).tag j.tag.toNat = some { x with go := some d.goTick } := by
  rw [Dev.jobStep_accepted hslot hroot hnone hall, Dev.tag_outcome]
  exact (Dev.tell_tag ..).trans (d.tag_goAt htag _)

/-- A node whose children have answered keeps no record and has answered its parent. -/
theorem Dev.jobStep_answered (hroot : j.root = false) (hall : j.complete (g.jobChildren d.self) = true) :
    (d.jobStep j).job j.tag false = none ∧ ∀ p ∈ (g.jobParent d.self).toList, .message .jobAnswer p j.report ∈ (d.jobStep j).out := by
  rw [Dev.jobStep_answers hslot hroot hall]
  exact ⟨(Dev.tell_job ..).trans (Dev.job_dropJob ..), fun p hp => Dev.mem_out_tell _ hp⟩

end Ends

/-! ## The root's start (R349, R350) -/

/-- A record as START makes it. -/
def Job.opened (root : Bool) (tag gid : BitVec 16) (a : BitVec 8) (n : Nat) (no : Option (BitVec 20 × Nat)) (since : Tick) : Job :=
  { root := root, tag := tag, gid := gid, teardown := false, attempt := a, heard := [], accepted := n, refused := no, missing := none, since := since }

/-- A start takes its ATTEMPT and clears the reason. -/
def Dev.nextAttempt (d : Dev) : Dev := ({ d with time := { d.time with attempt := d.time.attempt + 1 } }).tagResult 0

/-- The record is kept and START goes down the primary tree. -/
def Dev.passStart (d : Dev) (j : Job) (kids fields : List Nat) : Dev := (d.setJob j).tell .jobStart kids fields

theorem Group.gid_toNat (g : Group) : (BitVec.ofNat 16 g.gid).toNat = g.gid := by
  rw [BitVec.toNat_ofNat]
  unfold Group.gid bits
  omega

theorem Dev.slotOf_gid {d : Dev} {g : Group} {x : Option (Nat × Group)} (h : d.slotOf g.gid = x) :
    d.slotOf (BitVec.ofNat 16 g.gid).toNat = x := by rw [g.gid_toNat, h]

section Pass
variable (d : Dev) (j : Job) (kids fields : List Nat)

theorem Dev.jobsTo_passStart : d.JobsTo j.tag.toNat (d.passStart j kids fields) := (d.jobsTo_setJob _ j).trans (Dev.jobsTo_tell ..)

theorem Dev.job_passStart : (d.passStart j kids fields).job j.tag j.teardown = some j := (Dev.tell_job ..).trans (d.job_setJob j)

theorem Dev.tag_passStart (n : Nat) : (d.passStart j kids fields).tag n = d.tag n := Dev.tell_tag ..

/-- A record that is passed on and whose answers are then looked at. -/
theorem Dev.told_jobStep_passStart {slot : Nat} {g : Group} (hslot : (d.passStart j kids fields).slotOf j.gid.toNat = some (slot, g)) :
    ∀ p ∈ kids, .message .jobStart p fields ∈ ((d.passStart j kids fields).jobStep j).out :=
  fun _ hp => (Dev.jobsTo_jobStep hslot).told _ (Dev.mem_out_tell _ hp)

end Pass

/-- The root's own test, then START to its children or the refusal. -/
def Dev.beginJob (d : Dev) (tag : BitVec 16) (g : Group) : Dev :=
  let p := d.acceptJob tag (BitVec.ofNat 16 g.gid) d.time.attempt
  let j := Job.opened true tag (BitVec.ofNat 16 g.gid) d.time.attempt 1 none d.phys
  if p.2 ≠ 0 then p.1.outcome 2 p.2 (BitVec.ofNat 20 d.self)
  else (p.1.passStart j (g.jobChildren d.self) [tag.toNat, g.gid, d.time.attempt.toNat]).jobStep j

theorem Dev.jobStart_refuses {d : Dev} {tag : BitVec 16} {slot : Nat} (h : d.jobReason slot ≠ 0) :
    d.jobStart tag slot = d.tagResult (d.jobReason slot) := by
  unfold Dev.jobStart
  exact if_pos h

theorem Dev.jobStart_begins {d : Dev} {tag : BitVec 16} {slot : Nat} {g : Group} (hreason : d.jobReason slot = 0)
    (hgroup : d.group slot = some g) : d.jobStart tag slot = d.nextAttempt.beginJob tag g := by
  unfold Dev.jobStart
  rw [hreason, hgroup]
  exact if_neg (not_not.mpr rfl)

section BeginJob
variable {d : Dev} {tag : BitVec 16} {slot : Nat} {g : Group}

theorem Dev.beginJob_of_cause (h : (d.acceptJob tag (BitVec.ofNat 16 g.gid) d.time.attempt).2 ≠ 0) : d.beginJob tag g =
    (d.acceptJob tag (BitVec.ofNat 16 g.gid) d.time.attempt).1.outcome 2 (d.acceptJob tag (BitVec.ofNat 16 g.gid) d.time.attempt).2
      (BitVec.ofNat 20 d.self) := if_pos h

theorem Dev.jobs_beginJob_of_cause (h : (d.acceptJob tag (BitVec.ofNat 16 g.gid) d.time.attempt).2 ≠ 0) :
    (d.beginJob tag g).time.jobs = d.time.jobs := by
  rw [Dev.beginJob_of_cause h, Dev.outcome_time]
  exact d.acceptJob_jobs ..

variable (hslot : d.slotOf g.gid = some (slot, g))
include hslot

/-- A test that is met: the record is kept, START is passed on, and the answers at hand are looked at. -/
theorem Dev.beginJob_of_accepted (h : (d.acceptJob tag (BitVec.ofNat 16 g.gid) d.time.attempt).2 = 0) : ∃ e,
    d.JobsTo tag.toNat e ∧ e.slotOf g.gid = some (slot, g) ∧
      d.beginJob tag g = e.jobStep (.opened true tag (BitVec.ofNat 16 g.gid) d.time.attempt 1 none d.phys) ∧
      e.job tag false = some (.opened true tag (BitVec.ofNat 16 g.gid) d.time.attempt 1 none d.phys) ∧
      (∀ p ∈ g.jobChildren d.self, .message .jobStart p [tag.toNat, g.gid, d.time.attempt.toNat] ∈ e.out) ∧
      ∃ x, d.tag tag.toNat = some x ∧ e.tag tag.toNat = some (x.started (BitVec.ofNat 16 g.gid) d.time.attempt d.phys) := by
  have haccept := d.jobsTo_acceptJob tag (BitVec.ofNat 16 g.gid) d.time.attempt
  obtain ⟨x, htag, hstarted⟩ := d.acceptJob_started tag (BitVec.ofNat 16 g.gid) d.time.attempt h
  have hstep : d.beginJob tag g = _ := if_neg (not_not.mpr h)
  have hpass : d.JobsTo tag.toNat _ := haccept.trans (Dev.jobsTo_passStart _
    (.opened true tag (BitVec.ofNat 16 g.gid) d.time.attempt 1 none d.phys) (g.jobChildren d.self) [tag.toNat, g.gid, d.time.attempt.toNat])
  exact ⟨_, hpass, (hpass.slotOf _).trans hslot, hstep, Dev.job_passStart .., fun _ hp => Dev.mem_out_tell _ hp,
    x, htag, (Dev.tag_passStart ..).trans hstarted⟩

theorem Dev.jobsTo_beginJob : d.JobsTo tag.toNat (d.beginJob tag g) := by
  by_cases h : (d.acceptJob tag (BitVec.ofNat 16 g.gid) d.time.attempt).2 = 0
  · obtain ⟨e, hpass, hslot', hstep, -⟩ := Dev.beginJob_of_accepted hslot h
    rw [hstep]
    exact hpass.trans (Dev.jobsTo_jobStep (j := .opened true tag (BitVec.ofNat 16 g.gid) d.time.attempt 1 none d.phys) (Dev.slotOf_gid hslot'))
  · rw [Dev.beginJob_of_cause h]
    exact (d.jobsTo_acceptJob ..).trans (Dev.jobsTo_outcome ..)

end BeginJob

/-! ## What a command about a start leaves as it was -/

/-- A start's frame: that of a job's step, and the ATTEMPT. -/
def StartFrame (k : Nat) (s t : State) : Prop :=
  t = { s with dev := { s.dev with
    health := t.dev.health, host := t.dev.host, out := t.dev.out
    time := { s.dev.time with
      tags := t.dev.time.tags, jobs := t.dev.time.jobs, attempt := t.dev.time.attempt, tagReason := t.dev.time.tagReason
      jobOutcome := t.dev.time.jobOutcome, jobCause := t.dev.time.jobCause, jobWho := t.dev.time.jobWho } } } ∧
  ∀ j, j ≠ k → t.dev.tag j = s.dev.tag j

section Frame
variable {s : State} {k : Nat} {e : Dev}

theorem startFrame_of_nextAttempt (h : s.dev.nextAttempt.JobsTo k e) : StartFrame k s { s with dev := e } := by
  refine ⟨State.ext ?_ rfl rfl, h.others⟩
  have hframe := h.frame
  dsimp only
  rw [hframe]
  rfl

theorem startFrame_of_jobsTo (h : s.dev.JobsTo k e) : StartFrame k s { s with dev := e } := by
  refine ⟨State.ext ?_ rfl rfl, h.others⟩
  have hframe := h.frame
  dsimp only
  rw [hframe]

end Frame

/-! ## JOB_START -/

section Start
variable {s : State} {tag : BitVec 16} {slot : Fin 64} {g : Group}

theorem ends_jobStart (hserving : s.dev.health.stopped = false) :
    Ends (.jobStart tag slot) s (fun t => t = { s with dev := s.dev.jobStart tag slot.val }) := ⟨_, viaCfg_of_serving hserving _, rfl⟩

/-- GO has been given: the outcome stands, and every child in either tree is told. -/
def Given (s t : State) (tag : BitVec 16) (g : Group) (a : Nat) : Prop :=
  t.dev.Concluded tag false 1 0 0 ∧ ∀ p ∈ g.jobChildren s.dev.self ++ g.children s.dev.self,
    .message .jobGo p [tag.toNat, (BitVec.ofNat 16 g.gid).toNat, a, s.dev.goTick.toNat] ∈ t.dev.out

/-- The root whose own test is met, after its step. -/
theorem Dev.beginJob_started {d : Dev} (hslot : d.slotOf g.gid = some (slot.val, g))
    (h : (d.acceptJob tag (BitVec.ofNat 16 g.gid) d.time.attempt).2 = 0) : ∃ x y, d.tag tag.toNat = some x ∧
      (d.beginJob tag g).tag tag.toNat = some y ∧ y.claim = x.claim ∧ y.st = .starting ∧ y.attempt = d.time.attempt ∧
      y.gid = BitVec.ofNat 16 g.gid ∧
      (∀ p ∈ g.jobChildren d.self, .message .jobStart p [tag.toNat, g.gid, d.time.attempt.toNat] ∈ (d.beginJob tag g).out) ∧
      (g.members = 1 → ((d.beginJob tag g).Concluded tag false 1 0 0 ∧ ∀ p ∈ g.jobChildren d.self ++ g.children d.self,
        .message .jobGo p [tag.toNat, (BitVec.ofNat 16 g.gid).toNat, d.time.attempt.toNat, d.goTick.toNat] ∈ (d.beginJob tag g).out) ∧
          y.go = some d.goTick) ∧
      (g.members ≠ 1 → y.go = none ∧
        (d.beginJob tag g).job tag false = some (.opened true tag (BitVec.ofNat 16 g.gid) d.time.attempt 1 none d.phys)) := by
  obtain ⟨e, hpass, hslot', hstep, hjob, htold, x, htag, hstarted⟩ := Dev.beginJob_of_accepted hslot h
  generalize hj : Job.opened true tag (BitVec.ofNat 16 g.gid) d.time.attempt 1 none d.phys = j at hstep hjob ⊢
  have hslotj : e.slotOf j.gid.toNat = some (slot.val, g) := by rw [← hj]; exact Dev.slotOf_gid hslot'
  have hroot : j.root = true := by rw [← hj]; rfl
  have hnone : j.refused = none := by rw [← hj]; rfl
  have hself := hpass.self
  have hgo : e.goTick = d.goTick := hpass.goTick_sum
  rw [hstep]
  have htoldj := fun p hp => (Dev.jobsTo_jobStep hslotj).told _ (htold p hp)
  by_cases hone : g.members = 1
  · have hall : j.accepted = g.members := by rw [hone, ← hj]; rfl
    have htagj := Dev.tag_jobStep_accepted hslotj hroot hnone hall (x := x.started (BitVec.ofNat 16 g.gid) d.time.attempt d.phys)
      (by rw [← hj]; exact hstarted)
    have hgiven := Dev.concluded_jobStep hslotj hroot hnone hall
    rw [hself, hgo] at hgiven
    rw [hgo] at htagj
    rw [← hj] at htagj hgiven ⊢
    exact ⟨x, _, htag, htagj, rfl, rfl, rfl, rfl, by rw [hj]; exact htoldj, fun _ => ⟨hgiven, rfl⟩, fun hne => absurd hone hne⟩
  · have hfew : j.accepted ≠ g.members := by rw [← hj]; exact fun hone' => hone hone'.symm
    rw [Dev.jobStep_root_waits hslotj hroot hnone hfew] at htoldj ⊢
    exact ⟨x, _, htag, hstarted, rfl, rfl, rfl, rfl, htoldj, fun hone' => absurd hone' hone, fun _ => ⟨rfl, hjob⟩⟩

end Start

end Sys2Proof.Machine

/-! Members of a start: START passed on, the answers gathered, and the timeouts (R349, R350). -/
namespace Sys2Proof.Machine

/-! ## Coordinates of the primary tree fit their field -/

theorem coord_lt {b r c : Nat} (hb : b < 4096) (hr : r < 16) (hc : c < 16) : coord b r c < 2 ^ 20 := by
  unfold coord
  omega

theorem boltOf_lt {p : Nat} (h : p < 2 ^ 20) : boltOf p < 4096 := by
  unfold boltOf
  omega

theorem mem_setBits_lt {w v i : Nat} (h : i ∈ setBits w v) : i < w := List.mem_range.mp (List.mem_of_mem_filter h)

theorem headD_setBits_lt (v : Nat) : (setBits 16 v).headD 0 < 16 := by
  cases h : setBits 16 v with
  | nil => decide
  | cons a l => exact mem_setBits_lt (v := v) (by rw [h]; exact List.mem_cons_self)

theorem Group.hi_lt (g : Group) : g.hi < 4096 := by
  unfold Group.hi bits
  omega

theorem Dev.self_lt (d : Dev) : d.self < 2 ^ 20 := d.routing.phys.isLt

theorem Group.jobChildren_lt (g : Group) {p c : Nat} (hp : p < 2 ^ 20) (hc : c ∈ g.jobChildren p) : c < 2 ^ 20 := by
  have hr0 : g.r0 < 16 := headD_setBits_lt _
  have hc0 : g.c0 < 16 := headD_setBits_lt _
  unfold Group.jobChildren at hc
  rcases List.mem_append.mp hc with hc | hcol
  · rcases List.mem_append.mp hc with hbolt | hrow
    · split_ifs at hbolt
      · obtain ⟨i, hi, rfl⟩ := List.mem_map.mp hbolt
        have hhi := g.hi_lt
        have hi' := List.mem_range.mp hi
        exact coord_lt (by omega) hr0 hc0
      · exact absurd hbolt List.not_mem_nil
    · split_ifs at hrow
      · obtain ⟨col, hcol, rfl⟩ := List.mem_map.mp hrow
        exact coord_lt (boltOf_lt hp) hr0 (mem_setBits_lt (List.mem_of_mem_tail hcol))
      · exact absurd hrow List.not_mem_nil
  · split_ifs at hcol
    · obtain ⟨row, hrow, rfl⟩ := List.mem_map.mp hcol
      exact coord_lt (boltOf_lt hp) (mem_setBits_lt (List.mem_of_mem_tail hrow)) (Nat.mod_lt _ (by decide))
    · exact absurd hcol List.not_mem_nil

/-! ## The commands -/

section Commands
variable {s : State} {tag : BitVec 16} {slot : Nat} {g : Group} (hslot : s.dev.slotOf g.gid = some (slot, g))
include hslot

/-- A member's record as its own test leaves it. -/
def Dev.memberJob (d : Dev) (tag gid : BitVec 16) (a : BitVec 8) : Job :=
  .opened false tag gid a (b2n ((d.acceptJob tag gid a).2 == 0))
    (if (d.acceptJob tag gid a).2 = 0 then none else some (BitVec.ofNat 20 d.self, (d.acceptJob tag gid a).2)) d.phys

theorem ends_jobStartReceive (src : BitVec 20) (a : BitVec 8) : Ends (.jobStartReceive src tag (BitVec.ofNat 16 g.gid) a) s (fun t =>
    t = { s with dev := ((s.dev.acceptJob tag (BitVec.ofNat 16 g.gid) a).1.passStart (s.dev.memberJob tag (BitVec.ofNat 16 g.gid) a)
                          (g.jobChildren s.dev.self) [tag.toNat, (BitVec.ofNat 16 g.gid).toNat, a.toNat]).jobStep
                          (s.dev.memberJob tag (BitVec.ofNat 16 g.gid) a) }) := by
  have hslot' := ((s.dev.jobsTo_acceptJob tag (BitVec.ofNat 16 g.gid) a).slotOf _).trans (Dev.slotOf_gid hslot)
  refine ⟨_, ?_, rfl⟩
  show execJobStartReceive src tag (BitVec.ofNat 16 g.gid) a s = _
  unfold execJobStartReceive
  simp only [hslot']
  rfl

/-- A record with one more answer. -/
def Job.answeredBy (j : Job) (src : BitVec 20) (n : Nat) (no : Option (BitVec 20 × BitVec 8)) : Job :=
  { j with heard := j.heard ++ [src], accepted := j.accepted + n, refused := j.refused <|> no.map (fun r => (r.1, r.2.toNat)) }

omit hslot in
theorem ends_jobAnswerReceive {j : Job} {src : BitVec 20} (hjob : s.dev.job tag false = some j) (hnew : src ∉ j.heard)
    (hmissing : j.missing = none) (n : Nat) (no : Option (BitVec 20 × BitVec 8)) : Ends (.jobAnswerReceive src tag j.attempt n no none) s
      (fun t => t = { s with dev := (s.dev.setJob (j.answeredBy src n no)).jobStep (j.answeredBy src n no) }) := by
  have hready : (j.attempt == j.attempt && !j.heard.contains src) = true := by simpa using hnew
  refine ⟨_, ?_, rfl⟩
  show execJobAnswerReceive src tag j.attempt n no none s = _
  unfold execJobAnswerReceive Job.answeredBy
  simp only [hjob, Option.filter_some, hready, if_true, hmissing]
  rfl

/-- A record closed at its timeout: every child counts as having answered. -/
def Job.closed (j : Job) (missing : Option (BitVec 20)) (kids : List Nat) : Job :=
  { j with missing := missing, heard := kids.map (BitVec.ofNat 20) }

omit hslot in
theorem Job.complete_closed (j : Job) (missing : Option (BitVec 20)) {kids : List Nat} (h : ∀ c ∈ kids, c < 2 ^ 20) :
    (j.closed missing kids).complete kids = true := by
  refine List.all_eq_true.mpr fun c hc => List.any_eq_true.mpr ⟨BitVec.ofNat 20 c, List.mem_map_of_mem hc, ?_⟩
  rw [BitVec.toNat_ofNat, Nat.mod_eq_of_lt (h c hc), beq_self_eq_true]

theorem ends_jobChildWaitTimeout {j : Job} (hjob : s.dev.job tag false = some j) (hroot : j.root = false)
    (hgid : j.gid = BitVec.ofNat 16 g.gid) (hpast : s.dev.startPast j.since 1 = true) : Ends (.jobChildWaitTimeout tag) s (fun t =>
      t = { s with dev := (s.dev.setJob (j.closed (s.dev.lowestMissing j) (g.jobChildren s.dev.self))).jobStep
                            (j.closed (s.dev.lowestMissing j) (g.jobChildren s.dev.self)) }) := by
  have hready : (!j.root && s.dev.startPast j.since 1) = true := by rw [hroot, hpast]; rfl
  have hslot' : s.dev.slotOf j.gid.toNat = some (slot, g) := by rw [hgid, Dev.slotOf_gid hslot]
  refine ⟨_, ?_, rfl⟩
  show execJobChildWaitTimeout tag s = _
  unfold execJobChildWaitTimeout
  simp only [hjob, Option.filter_some, hready, if_true, hslot']
  rfl

omit hslot in
theorem ends_jobStartTimeout {j : Job} (hjob : s.dev.time.jobs.find? (fun q => q.root && !q.teardown && s.dev.startPast q.since 2) = some j) :
    Ends .jobStartTimeout s (fun t => t = { s with dev := s.dev.abandonStart j 3 0 ((s.dev.lowestMissing j).getD 0) }) := by
  refine ⟨_, ?_, rfl⟩
  show execJobStartTimeout s = _
  unfold execJobStartTimeout
  simp only [hjob]
  rfl

end Commands

theorem Dev.report_memberJob (d : Dev) (tag gid : BitVec 16) (a : BitVec 8) : (d.memberJob tag gid a).report =
    if (d.acceptJob tag gid a).2 = 0 then [tag.toNat, a.toNat, 1, 0, 0, 0]
    else [tag.toNat, a.toNat, 0, (BitVec.ofNat 20 d.self).toNat, (d.acceptJob tag gid a).2, 0] := by
  unfold Job.report Dev.memberJob Job.opened
  by_cases h : (d.acceptJob tag gid a).2 = 0
  · simp [h, b2n]
  · simp [h, b2n]

theorem Dev.complete_memberJob (d : Dev) (tag gid : BitVec 16) (a : BitVec 8) {kids : List Nat} (h : kids ≠ []) :
    (d.memberJob tag gid a).complete kids = false := by
  cases kids with
  | nil => exact absurd rfl h
  | cons c kids => rfl

/-! ## What each command leaves -/

section Results
variable {d : Dev} {tag : BitVec 16} {slot : Nat} {g : Group} (hslot : d.slotOf g.gid = some (slot, g))
include hslot

/-- A record whose step is looked at once it is kept. -/
theorem Dev.jobsTo_setJob_jobStep {j : Job} (hgid : j.gid = BitVec.ofNat 16 g.gid) : d.JobsTo j.tag.toNat ((d.setJob j).jobStep j) := by
  have hslot' : (d.setJob j).slotOf j.gid.toNat = some (slot, g) := by rw [hgid]; exact Dev.slotOf_gid hslot
  exact (d.jobsTo_setJob _ j).trans (Dev.jobsTo_jobStep hslot')

variable {j : Job} (hgid : j.gid = BitVec.ofNat 16 g.gid)
include hgid

theorem Dev.setJob_jobStep_refused (hroot : j.root = true) {who : BitVec 20} {cause : Nat} (h : j.refused = some (who, cause)) :
    ((d.setJob j).jobStep j).Concluded j.tag false 2 cause who ∧
      ∀ p ∈ g.children d.self, .message .jobAbort p [j.tag.toNat, j.gid.toNat, j.attempt.toNat] ∈ ((d.setJob j).jobStep j).out := by
  have hslot' : (d.setJob j).slotOf j.gid.toNat = some (slot, g) := by rw [hgid]; exact Dev.slotOf_gid hslot
  rw [Dev.jobStep_refused hslot' hroot h]
  exact ⟨Dev.concluded_abandonStart hslot' .., fun p hp => Dev.mem_out_abandonStart hslot' _ _ _ hp⟩

theorem Dev.setJob_jobStep_accepted (hroot : j.root = true) (hnone : j.refused = none) (hall : j.accepted = g.members) :
    ((d.setJob j).jobStep j).Concluded j.tag false 1 0 0 ∧ ∀ p ∈ g.jobChildren d.self ++ g.children d.self,
      .message .jobGo p [j.tag.toNat, j.gid.toNat, j.attempt.toNat, d.goTick.toNat] ∈ ((d.setJob j).jobStep j).out :=
  Dev.concluded_jobStep (d := d.setJob j) (by rw [hgid]; exact Dev.slotOf_gid hslot) hroot hnone hall

theorem Dev.setJob_jobStep_answered (hroot : j.root = false) (hall : j.complete (g.jobChildren d.self) = true) :
    ((d.setJob j).jobStep j).job j.tag false = none ∧
      ∀ p ∈ (g.jobParent d.self).toList, .message .jobAnswer p j.report ∈ ((d.setJob j).jobStep j).out :=
  Dev.jobStep_answered (d := d.setJob j) (by rw [hgid]; exact Dev.slotOf_gid hslot) hroot hall

theorem Dev.setJob_jobStep_waits (h : (j.root = true ∧ j.refused = none ∧ j.accepted ≠ g.members) ∨
    (j.root = false ∧ j.complete (g.jobChildren d.self) = false)) : ((d.setJob j).jobStep j).job j.tag j.teardown = some j := by
  have hslot' : (d.setJob j).slotOf j.gid.toNat = some (slot, g) := by rw [hgid]; exact Dev.slotOf_gid hslot
  have hkept := d.job_setJob j
  rcases h with ⟨hroot, hnone, hfew⟩ | ⟨hroot, hsome⟩
  · rwa [Dev.jobStep_root_waits hslot' hroot hnone hfew]
  · rwa [Dev.jobStep_member_waits hslot' hroot hsome]

theorem Dev.setJob_jobStep_answers (hroot : j.root = false) (hall : j.complete (g.jobChildren d.self) = true) :
    (d.setJob j).jobStep j = ((d.setJob j).dropJob j.tag false).tell .jobAnswer (g.jobParent d.self).toList j.report :=
  Dev.jobStep_answers (d := d.setJob j) (by rw [hgid]; exact Dev.slotOf_gid hslot) hroot hall

end Results

section Received
variable {d : Dev} {slot : Nat} {g : Group} (hslot : d.slotOf g.gid = some (slot, g)) (tag : BitVec 16) (a : BitVec 8)
include hslot

/-- A member's tag after its own test, and its record or its answer. -/
theorem Dev.startReceived : ∃ e, d.JobsTo tag.toNat e ∧ e.slotOf g.gid = some (slot, g) ∧
    (d.acceptJob tag (BitVec.ofNat 16 g.gid) a).1.passStart (d.memberJob tag (BitVec.ofNat 16 g.gid) a) (g.jobChildren d.self)
      [tag.toNat, (BitVec.ofNat 16 g.gid).toNat, a.toNat] = e ∧
    e.job tag false = some (d.memberJob tag (BitVec.ofNat 16 g.gid) a) ∧
    (∀ p ∈ g.jobChildren d.self, .message .jobStart p [tag.toNat, (BitVec.ofNat 16 g.gid).toNat, a.toNat] ∈ e.out) ∧
    ((d.acceptJob tag (BitVec.ofNat 16 g.gid) a).2 = 0 →
      ∃ x : Tag, e.tag tag.toNat = some (x.started (BitVec.ofNat 16 g.gid) a d.phys)) := by
  have hpass : d.JobsTo tag.toNat _ := (d.jobsTo_acceptJob tag (BitVec.ofNat 16 g.gid) a).trans (Dev.jobsTo_passStart _
    (d.memberJob tag (BitVec.ofNat 16 g.gid) a) (g.jobChildren d.self) [tag.toNat, (BitVec.ofNat 16 g.gid).toNat, a.toNat])
  refine ⟨_, hpass, (hpass.slotOf _).trans hslot, rfl, Dev.job_passStart .., fun _ hp => Dev.mem_out_tell _ hp, fun h => ?_⟩
  obtain ⟨x, -, hstarted⟩ := d.acceptJob_started tag (BitVec.ofNat 16 g.gid) a h
  exact ⟨x, (Dev.tag_passStart ..).trans hstarted⟩

omit hslot in
theorem Dev.tag_jobStep_member {j : Job} (hslotj : d.slotOf j.gid.toNat = some (slot, g)) (hroot : j.root = false) (n : Nat) :
    (d.jobStep j).tag n = d.tag n := by
  cases hall : j.complete (g.jobChildren d.self) with
  | true => exact Dev.jobStep_answers hslotj hroot hall ▸ Dev.tell_tag ..
  | false => rw [Dev.jobStep_member_waits hslotj hroot hall]

end Received

/-! ## The obligation -/

section Clauses
variable {s : State} {tag : BitVec 16} {g : Group}

theorem ends_jobStart_begun {slot : Fin 64} (hslot : s.dev.slotOf g.gid = some (slot.val, g)) (hserving : s.dev.health.stopped = false)
    (hreason : s.dev.jobReason slot.val = 0) (hgroup : s.dev.group slot.val = some g) :
    Ends (.jobStart tag slot) s (fun t => t = { s with dev := s.dev.nextAttempt.beginJob tag g } ∧
      StartFrame tag.toNat s t ∧ t.dev.time.attempt = s.dev.time.attempt + 1 ∧ t.dev.time.tagReason = 0) := by
  have hjobs := Dev.jobsTo_beginJob (d := s.dev.nextAttempt) (tag := tag) hslot
  refine (ends_jobStart hserving).of_eq ⟨by rw [Dev.jobStart_begins hreason hgroup], ?_, ?_, ?_⟩
  · rw [Dev.jobStart_begins hreason hgroup]
    exact startFrame_of_nextAttempt hjobs
  · dsimp only
    rw [Dev.jobStart_begins hreason hgroup, hjobs.frame]
    rfl
  · dsimp only
    rw [Dev.jobStart_begins hreason hgroup, hjobs.frame]
    rfl

theorem Dev.nextAttempt_cause (d : Dev) (tag gid : BitVec 16) (a : BitVec 8) :
    (d.nextAttempt.acceptJob tag gid a).2 = (d.acceptJob tag gid a).2 := by
  rw [Dev.acceptJob_cause, Dev.acceptJob_cause]
  rfl

end Clauses

/-- Settles O49, by what a step of a job's record answers in each case. -/
theorem jobsStartWhenEveryMemberAccepts : Obligations.JobsStartWhenEveryMemberAccepts := by
  unfold Obligations.JobsStartWhenEveryMemberAccepts
  intro s tag slot g hslot d gid kids fresh frame outcome told given
  refine ⟨fun hserving => ⟨?_, ?_⟩, ?_, ?_, ?_, ?_⟩
  · rintro why rfl hwhy
    exact (ends_jobStart hserving).of_eq (by rw [Dev.jobStart_refuses hwhy]; rfl)
  · intro hreason hgroup a k
    have hcause : (s.dev.nextAttempt.acceptJob tag gid s.dev.nextAttempt.time.attempt).2 = k := s.dev.nextAttempt_cause tag gid a
    obtain ⟨t, hrun, rfl, hframe, hattempt, htagReason⟩ := ends_jobStart_begun (tag := tag) hslot hserving hreason hgroup
    refine ⟨_, hrun, hframe, hattempt, htagReason, fun hk => ?_, fun hk => ?_⟩
    · have hne : (s.dev.nextAttempt.acceptJob tag gid s.dev.nextAttempt.time.attempt).2 ≠ 0 := hcause ▸ hk
      have hstop := Dev.beginJob_of_cause hne
      have hjobs := Dev.jobs_beginJob_of_cause hne
      rw [hcause] at hstop
      have htime := (congrArg Dev.time hstop).trans (Dev.outcome_time ..)
      exact ⟨(congrArg TimeBlk.jobOutcome htime).trans rfl, (congrArg TimeBlk.jobCause htime).trans rfl,
        (congrArg TimeBlk.jobWho htime).trans rfl, hjobs⟩
    · obtain ⟨x, y, htag, hstarted, hclaim, hst, hat, hgidy, htold, hone, hmore⟩ :=
        Dev.beginJob_started (d := s.dev.nextAttempt) (tag := tag) (slot := slot) hslot (hcause.trans hk)
      exact ⟨x, y, htag, hstarted, hclaim, hst, hat, hgidy, htold, hone, hmore⟩
  · intro src a k
    obtain ⟨e, hpass, hslot', heq, hjob, htold, hstarted⟩ := Dev.startReceived hslot tag a
    have hslotj : e.slotOf (s.dev.memberJob tag gid a).gid.toNat = some (slot.val, g) := Dev.slotOf_gid hslot'
    have hroot : (s.dev.memberJob tag gid a).root = false := rfl
    have hstep := Dev.jobsTo_jobStep hslotj
    refine (ends_jobStartReceive hslot src a).of_eq ?_
    rw [heq]
    refine ⟨startFrame_of_jobsTo (hpass.trans hstep), fun p hp => hstep.told _ (htold p hp), fun hk => ?_, fun hnil => ?_, fun hcons => ?_⟩
    · obtain ⟨x, hx⟩ := hstarted hk
      exact ⟨_, (Dev.tag_jobStep_member hslotj hroot _).trans hx, rfl, rfl, rfl, rfl⟩
    · have hself : e.self = s.dev.self := hpass.self
      have hnil' : g.jobChildren e.self = [] := hself.symm ▸ hnil
      obtain ⟨hgone, hanswer⟩ := Dev.jobStep_answered hslotj hroot (by rw [hnil']; rfl)
      rw [hself] at hanswer
      refine ⟨hgone, fun p hp => ?_⟩
      have hreport : (s.dev.memberJob tag gid a).report =
          if k = 0 then [tag.toNat, a.toNat, 1, 0, 0, 0] else [tag.toNat, a.toNat, 0, (BitVec.ofNat 20 s.dev.self).toNat, k, 0] :=
        s.dev.report_memberJob tag gid a
      exact hreport ▸ hanswer p hp
    · have hself : e.self = s.dev.self := hpass.self
      have hsome : (s.dev.memberJob tag gid a).complete (g.jobChildren e.self) = false :=
        s.dev.complete_memberJob tag gid a (hself.symm ▸ hcons)
      dsimp only
      rw [Dev.jobStep_member_waits hslotj hroot hsome]
      exact hjob
  · intro j src n no hjob hgid hnew hmissing all refused
    obtain ⟨rfl, hteardown⟩ := s.dev.job_key hjob
    have hgid' : (j.answeredBy src n no).gid = BitVec.ofNat 16 g.gid := hgid
    refine (ends_jobAnswerReceive hjob hnew hmissing n no).of_eq ⟨startFrame_of_jobsTo (Dev.jobsTo_setJob_jobStep hslot hgid'), ?_, ?_, ?_, ?_⟩
    · intro hroot who cause hrefused
      have hstop := Dev.setJob_jobStep_refused hslot hgid' hroot hrefused
      rw [hgid'] at hstop
      exact hstop
    · intro hroot hnone hall
      have hgo := Dev.setJob_jobStep_accepted hslot hgid' hroot hnone hall
      rw [hgid'] at hgo
      exact hgo
    · intro hwaits
      have hkept := Dev.setJob_jobStep_waits hslot hgid' hwaits
      rw [show (j.answeredBy src n no).teardown = false from hteardown] at hkept
      exact hkept
    · intro hroot hall
      have hanswer := Dev.setJob_jobStep_answered hslot hgid' hroot hall
      have hreport : (j.answeredBy src n no).report = [j.tag.toNat, j.attempt.toNat, j.accepted + n] ++
          (match refused with | some (w, c) => [w.toNat, c] | none => [0, 0]) ++ [0] := by
        rw [Job.report, show (j.answeredBy src n no).missing = none from hmissing]
        rfl
      rw [hreport] at hanswer
      exact hanswer
  · intro j hjob hroot hgid hpast
    obtain ⟨rfl, -⟩ := s.dev.job_key hjob
    have hgid' : (j.closed (s.dev.lowestMissing j) (g.jobChildren s.dev.self)).gid = BitVec.ofNat 16 g.gid := hgid
    have hroot' : (j.closed (s.dev.lowestMissing j) (g.jobChildren s.dev.self)).root = false := hroot
    have hall : (j.closed (s.dev.lowestMissing j) (g.jobChildren s.dev.self)).complete (g.jobChildren s.dev.self) = true :=
      j.complete_closed _ fun _ hc => g.jobChildren_lt s.dev.self_lt hc
    obtain ⟨hgone, hanswer⟩ := Dev.setJob_jobStep_answered hslot hgid' hroot' hall
    refine (ends_jobChildWaitTimeout hslot hjob hroot hgid hpast).of_eq ⟨State.ext ?_ rfl rfl, hgone, hanswer⟩
    dsimp only
    rw [Dev.setJob_jobStep_answers hslot hgid' hroot' hall, Dev.tell_eq]
    rfl
  · rintro j hjob rfl hgid
    have hslotj : s.dev.slotOf j.gid.toNat = some (slot.val, g) := by rw [hgid, Dev.slotOf_gid hslot]
    refine (ends_jobStartTimeout hjob).of_eq ⟨startFrame_of_jobsTo (Dev.jobsTo_abandonStart hslotj ..), Dev.concluded_abandonStart hslotj ..,
      ?_, fun x htag hst hattempt => Dev.tag_abandonStart hslotj _ _ _ htag hst hattempt⟩
    have htold := fun p hp => Dev.mem_out_abandonStart hslotj 3 0 ((s.dev.lowestMissing j).getD 0) (p := p) hp
    rw [hgid] at htold
    exact htold

end Sys2Proof.Machine

/-! The teardown of jobs (R351, Table 15.9). -/
namespace Sys2Proof.Machine

/-- A record as a teardown makes it. -/
def Job.torn (root : Bool) (tag gid : BitVec 16) (heard : List (BitVec 20)) (since : Tick) : Job :=
  { root := root, tag := tag, gid := gid, teardown := true, attempt := 0, heard := heard, accepted := 0, refused := none, missing := none,
    since := since }

/-- A record that counts one more member. -/
def Job.counting (j : Job) (m : BitVec 20) : Job := { j with heard := j.heard ++ [m] }

/-- A root's record once its own tag is FREE. -/
def Job.countsItself (j : Job) (d : Dev) : Job := { j with heard := j.heard ++ [BitVec.ofNat 20 d.self], since := d.phys }

/-! ## The root's count -/

section Count
variable {d : Dev} {j : Job} {slot : Nat} {g : Group} (hslot : d.slotOf j.gid.toNat = some (slot, g))
include hslot

theorem Dev.teardownStep_ends (hroot : j.root = true) (hall : j.heard.length = g.members) :
    d.teardownStep j = (d.dropJob j.tag true).outcome 4 0 0 := by
  unfold Dev.teardownStep
  simp [hslot, hroot, hall]

theorem Dev.teardownStep_waits (h : j.root = false ∨ j.heard.length ≠ g.members) : d.teardownStep j = d := by
  unfold Dev.teardownStep
  rcases h with h | h <;> simp [hslot, h]

theorem Dev.jobsTo_teardownStep : d.JobsTo j.tag.toNat (d.teardownStep j) := by
  by_cases h : j.root = true ∧ j.heard.length = g.members
  · rw [Dev.teardownStep_ends hslot h.1 h.2]
    exact (d.jobsTo_dropJob _ _ _).trans (Dev.jobsTo_outcome ..)
  · rw [Dev.teardownStep_waits hslot (by simpa [imp_iff_not_or] using h)]
    exact .refl

/-- The root's record is kept until every member has reported; then the teardown has its outcome. -/
theorem Dev.setJob_teardownStep (hroot : j.root = true) (hteardown : j.teardown = true) : if j.heard.length = g.members
    then ((d.setJob j).teardownStep j).Concluded j.tag true 4 0 0 else ((d.setJob j).teardownStep j).job j.tag true = some j := by
  have hslot' : (d.setJob j).slotOf j.gid.toNat = some (slot, g) := hslot
  split_ifs with hall
  · rw [Dev.teardownStep_ends hslot' hroot hall]
    exact Dev.concluded_outcome _ _ _ _ (Dev.job_dropJob ..)
  · rw [Dev.teardownStep_waits hslot' (.inr hall), ← hteardown]
    exact d.job_setJob j

theorem Dev.jobsTo_setJob_teardownStep : d.JobsTo j.tag.toNat ((d.setJob j).teardownStep j) :=
  (d.jobsTo_setJob _ j).trans (Dev.jobsTo_teardownStep (d := d.setJob j) hslot)

end Count

/-! ## A tag that is FREE reports -/

section Report
variable {d : Dev} {tag : BitVec 16} {j : Job} {slot : Nat} {g : Group} (hjob : d.job tag true = some j)
  (hslot : d.slotOf j.gid.toNat = some (slot, g))
include hjob hslot

omit hslot in
theorem Dev.reportFree_root (hroot : j.root = true) : d.reportFree tag = (d.setJob (j.countsItself d)).teardownStep (j.countsItself d) := by
  unfold Dev.reportFree
  rw [hjob]
  exact if_pos hroot

theorem Dev.reportFree_member (hroot : j.root = false) : d.reportFree tag =
    (d.dropJob tag true).tell .jobFree (g.jobParent d.self).toList [tag.toNat, j.gid.toNat, d.self] := by
  unfold Dev.reportFree
  simp only [hjob, hroot, hslot]
  rfl

theorem Dev.jobsTo_reportFree : d.JobsTo tag.toNat (d.reportFree tag) := by
  obtain ⟨rfl, -⟩ := d.job_key hjob
  cases hroot : j.root with
  | true =>
    rw [Dev.reportFree_root hjob hroot]
    exact Dev.jobsTo_setJob_teardownStep (j := j.countsItself d) hslot
  | false =>
    rw [Dev.reportFree_member hjob hslot hroot]
    exact (d.jobsTo_dropJob _ _ _).trans (Dev.jobsTo_tell ..)

theorem Dev.reportFree_counts (hroot : j.root = true) : if j.heard.length + 1 = g.members then (d.reportFree tag).Concluded tag true 4 0 0
    else (d.reportFree tag).job tag true = some (j.countsItself d) := by
  obtain ⟨rfl, hteardown⟩ := d.job_key hjob
  have hcount := Dev.setJob_teardownStep (d := d) (j := j.countsItself d) hslot hroot hteardown
  rw [show (j.countsItself d).heard.length = j.heard.length + 1 from List.length_append] at hcount
  rw [Dev.reportFree_root hjob hroot]
  exact hcount

theorem Dev.reportFree_reports (hroot : j.root = false) : (d.reportFree tag).job tag true = none ∧
    ∀ p ∈ (g.jobParent d.self).toList, .message .jobFree p [tag.toNat, j.gid.toNat, d.self] ∈ (d.reportFree tag).out := by
  rw [Dev.reportFree_member hjob hslot hroot]
  exact ⟨(Dev.tell_job ..).trans (Dev.job_dropJob ..), fun p hp => Dev.mem_out_tell _ hp⟩

theorem Dev.tag_reportFree (n : Nat) : (d.reportFree tag).tag n = d.tag n := by
  cases hroot : j.root with
  | true =>
    have hslot' : (d.setJob (j.countsItself d)).slotOf (j.countsItself d).gid.toNat = some (slot, g) := hslot
    rw [Dev.reportFree_root hjob hroot]
    by_cases hall : (j.countsItself d).heard.length = g.members
    · rw [Dev.teardownStep_ends hslot' hroot hall, Dev.tag_outcome]
      rfl
    · rw [Dev.teardownStep_waits hslot' (.inr hall)]
      rfl
  | false =>
    rw [Dev.reportFree_member hjob hslot hroot, Dev.tell_tag]
    rfl

end Report

/-! ## A tag is revoked for a teardown -/

section Revoke
variable {d : Dev} {j : Job} {slot : Nat} {g : Group}

/-- The record is kept and REVOKE goes to both trees' children. -/
def Dev.passRevoke (d : Dev) (j : Job) (g : Group) : Dev :=
  (d.setJob j).tell .jobRevoke (g.jobChildren d.self ++ g.children d.self).eraseDups [j.tag.toNat, j.gid.toNat]

theorem Dev.jobsTo_passRevoke : d.JobsTo j.tag.toNat (d.passRevoke j g) := (d.jobsTo_setJob _ j).trans (Dev.jobsTo_tell ..)
theorem Dev.tag_passRevoke (n : Nat) : (d.passRevoke j g).tag n = d.tag n := Dev.tell_tag ..
theorem Dev.job_passRevoke : (d.passRevoke j g).job j.tag j.teardown = some j := (Dev.tell_job ..).trans (d.job_setJob j)
theorem Dev.mem_out_passRevoke {p : Nat} (hp : p ∈ g.jobChildren d.self ++ g.children d.self) :
    .message .jobRevoke p [j.tag.toNat, j.gid.toNat] ∈ (d.passRevoke j g).out := Dev.mem_out_tell_eraseDups _ (List.mem_append.mp hp)

theorem Dev.jobsTo_drainTag (d : Dev) (k : Nat) : d.JobsTo k (d.drainTag k) := by
  unfold Dev.drainTag
  split
  · exact d.jobsTo_tagTo _ _
  · exact .refl

theorem Dev.job_drainTag (d : Dev) (k : Nat) (t : BitVec 16) (b : Bool) : (d.drainTag k).job t b = d.job t b := by
  unfold Dev.drainTag
  split
  · exact Dev.job_tagTo ..
  · rfl

theorem Dev.tag_drainTag_isNone (d : Dev) (k : Nat) : ((d.drainTag k).tag k).isNone = (d.tag k).isNone := by
  unfold Dev.drainTag
  cases htag : d.tag k with
  | none => exact congrArg Option.isNone htag
  | some x =>
    rw [Option.filter_some]
    split_ifs
    · dsimp only
      rw [Dev.tag_tagTo_same]
      rfl
    · exact congrArg Option.isNone htag

theorem Dev.revokeHere_eq : d.revokeHere j g =
    if (((d.passRevoke j g).drainTag j.tag.toNat).tag j.tag.toNat).isNone then ((d.passRevoke j g).drainTag j.tag.toNat).reportFree j.tag
    else (d.passRevoke j g).drainTag j.tag.toNat := rfl

theorem Dev.revokeHere_of_tagged {x : Tag} (htag : d.tag j.tag.toNat = some x) :
    d.revokeHere j g = (d.passRevoke j g).drainTag j.tag.toNat := by
  have hsome : (((d.passRevoke j g).drainTag j.tag.toNat).tag j.tag.toNat).isNone = false := by
    rw [Dev.tag_drainTag_isNone, Dev.tag_passRevoke, htag]
    rfl
  rw [Dev.revokeHere_eq, if_neg (by rw [hsome]; decide)]

theorem Dev.revokeHere_of_free (htag : d.tag j.tag.toNat = none) : d.revokeHere j g = (d.passRevoke j g).reportFree j.tag := by
  have hsame : (d.passRevoke j g).drainTag j.tag.toNat = d.passRevoke j g :=
    Dev.drainTag_of_not_running _ fun x hx => absurd (htag.symm.trans ((Dev.tag_passRevoke _).symm.trans hx)) nofun
  have hnone : (((d.passRevoke j g).drainTag j.tag.toNat).tag j.tag.toNat).isNone = true := by
    rw [Dev.tag_drainTag_isNone, Dev.tag_passRevoke, htag]
    rfl
  rw [Dev.revokeHere_eq, if_pos hnone, hsame]

section Revoked
variable (hslot : d.slotOf j.gid.toNat = some (slot, g)) (hteardown : j.teardown = true)
include hslot hteardown

theorem Dev.passRevoke_jobsTo_revokeHere : (d.passRevoke j g).JobsTo j.tag.toNat (d.revokeHere j g) := by
  cases htag : d.tag j.tag.toNat with
  | some x => exact Dev.revokeHere_of_tagged htag ▸ Dev.jobsTo_drainTag _ _
  | none =>
    have hjob : (d.passRevoke j g).job j.tag true = some j := hteardown ▸ Dev.job_passRevoke
    exact Dev.revokeHere_of_free htag ▸ Dev.jobsTo_reportFree hjob ((Dev.jobsTo_passRevoke.slotOf _).trans hslot)

theorem Dev.jobsTo_revokeHere : d.JobsTo j.tag.toNat (d.revokeHere j g) :=
  Dev.jobsTo_passRevoke.trans (Dev.passRevoke_jobsTo_revokeHere hslot hteardown)

theorem Dev.mem_out_revokeHere {p : Nat} (hp : p ∈ g.jobChildren d.self ++ g.children d.self) :
    .message .jobRevoke p [j.tag.toNat, j.gid.toNat] ∈ (d.revokeHere j g).out :=
  (Dev.passRevoke_jobsTo_revokeHere hslot hteardown).told _ (Dev.mem_out_passRevoke hp)

omit hslot in
theorem Dev.revokeHere_drains {x : Tag} (htag : d.tag j.tag.toNat = some x) : (d.revokeHere j g).job j.tag true = some j ∧
    (x.st = .starting ∨ x.st = .active → (d.revokeHere j g).tag j.tag.toNat = some { x with st := .draining, since := d.phys }) ∧
    (x.st = .assigned ∨ x.st = .draining → (d.revokeHere j g).tag j.tag.toNat = some x) := by
  have htag' : (d.passRevoke j g).tag j.tag.toNat = some x := (Dev.tag_passRevoke _).trans htag
  rw [Dev.revokeHere_of_tagged htag, Dev.job_drainTag, ← hteardown]
  refine ⟨Dev.job_passRevoke, fun hst => ?_, fun hst => ?_⟩
  · rw [Dev.drainTag_of_running _ htag' hst, Dev.tag_tagTo_same, (Dev.jobsTo_passRevoke (d := d) (j := j) (g := g)).phys]
  · rw [Dev.drainTag_of_not_running _ fun y hy => ?_, htag']
    obtain rfl : x = y := Option.some.inj (htag'.symm.trans hy)
    rcases hst with hst | hst <;> rw [hst] <;> decide

theorem Dev.revokeHere_frees (htag : d.tag j.tag.toNat = none) : (d.revokeHere j g).tag j.tag.toNat = none ∧
    (j.root = true → if j.heard.length + 1 = g.members then (d.revokeHere j g).Concluded j.tag true 4 0 0
      else (d.revokeHere j g).job j.tag true = some (j.countsItself d)) ∧
    (j.root = false → (d.revokeHere j g).job j.tag true = none ∧
      ∀ p ∈ (g.jobParent d.self).toList, .message .jobFree p [j.tag.toNat, j.gid.toNat, d.self] ∈ (d.revokeHere j g).out) := by
  have hjob : (d.passRevoke j g).job j.tag true = some j := hteardown ▸ Dev.job_passRevoke
  have hmoves := Dev.jobsTo_passRevoke (d := d) (j := j) (g := g)
  have hslot' := (hmoves.slotOf _).trans hslot
  have hitself : j.countsItself (d.passRevoke j g) = j.countsItself d := by
    unfold Job.countsItself
    rw [hmoves.self, hmoves.phys]
  rw [Dev.revokeHere_of_free htag, ← hitself, ← hmoves.self]
  exact ⟨(Dev.tag_reportFree hjob hslot' _).trans ((Dev.tag_passRevoke _).trans htag), Dev.reportFree_counts hjob hslot',
    Dev.reportFree_reports hjob hslot'⟩

end Revoked

/-- What a revoked tag leaves: REVOKE is passed on, and the tag drains under a record or, FREE already, reports. -/
def Dev.Drains (d e : Dev) (root : Bool) (tag : BitVec 16) (g : Group) : Prop :=
  (∀ p ∈ g.jobChildren d.self ++ g.children d.self, .message .jobRevoke p [tag.toNat, (BitVec.ofNat 16 g.gid).toNat] ∈ e.out) ∧
  (∀ x, d.tag tag.toNat = some x → e.job tag true = some (.torn root tag (BitVec.ofNat 16 g.gid) [] d.phys) ∧
    (x.st = .starting ∨ x.st = .active → e.tag tag.toNat = some { x with st := .draining, since := d.phys }) ∧
    (x.st = .assigned ∨ x.st = .draining → e.tag tag.toNat = some x)) ∧
  (d.tag tag.toNat = none → e.tag tag.toNat = none ∧
    (root = true → if g.members = 1 then e.Concluded tag true 4 0 0
      else e.job tag true = some (.torn true tag (BitVec.ofNat 16 g.gid) [BitVec.ofNat 20 d.self] d.phys)) ∧
    (root = false → e.job tag true = none ∧
      ∀ p ∈ (g.jobParent d.self).toList, .message .jobFree p [tag.toNat, (BitVec.ofNat 16 g.gid).toNat, d.self] ∈ e.out))

theorem Dev.drains_revokeHere (root : Bool) (tag : BitVec 16) (hslot : d.slotOf g.gid = some (slot, g)) :
    d.Drains (d.revokeHere (.torn root tag (BitVec.ofNat 16 g.gid) [] d.phys) g) root tag g := by
  generalize hj : Job.torn root tag (BitVec.ofNat 16 g.gid) [] d.phys = j
  obtain ⟨rfl, rfl, hgid, hteardown, hheard⟩ : j.root = root ∧ j.tag = tag ∧ j.gid = BitVec.ofNat 16 g.gid ∧ j.teardown = true ∧ j.heard = [] := by
    subst hj; exact ⟨rfl, rfl, rfl, rfl, rfl⟩
  have hslot' : d.slotOf j.gid.toNat = some (slot, g) := by rw [hgid, Dev.slotOf_gid hslot]
  have hitself (hroot : j.root = true) : j.countsItself d = .torn true j.tag (BitVec.ofNat 16 g.gid) [BitVec.ofNat 20 d.self] d.phys := by
    rw [← hroot]
    conv_lhs => rw [← hj]
    rfl
  unfold Dev.Drains
  rw [hj, ← hgid]
  refine ⟨fun p => Dev.mem_out_revokeHere hslot' hteardown, fun x => Dev.revokeHere_drains hteardown, fun htag => ?_⟩
  obtain ⟨hfree, hcount, hreport⟩ := Dev.revokeHere_frees hslot' hteardown htag
  refine ⟨hfree, fun hroot => ?_, hreport⟩
  have hone := hcount hroot
  rw [hitself hroot, hheard, ← hgid] at hone
  by_cases hmembers : g.members = 1
  · rw [if_pos hmembers]
    exact (if_pos (hmembers.symm : ([] : List (BitVec 20)).length + 1 = g.members)).mp hone
  · rw [if_neg hmembers]
    exact (if_neg (fun h : ([] : List (BitVec 20)).length + 1 = g.members => hmembers h.symm)).mp hone

end Revoke

/-! ## The commands -/

/-- A teardown's frame: that of a job's step, and the reason of a tag command. -/
def TeardownFrame (k : Nat) (s t : State) : Prop :=
  t = { s with dev := { s.dev with
    health := t.dev.health, host := t.dev.host, out := t.dev.out
    time := { s.dev.time with
      tags := t.dev.time.tags, jobs := t.dev.time.jobs, tagReason := t.dev.time.tagReason
      jobOutcome := t.dev.time.jobOutcome, jobCause := t.dev.time.jobCause, jobWho := t.dev.time.jobWho } } } ∧
  ∀ j, j ≠ k → t.dev.tag j = s.dev.tag j

section Commands
variable {s : State} {tag : BitVec 16} {g : Group}

theorem teardownFrame_of_jobsTo {k : Nat} {e : Dev} (h : s.dev.JobsTo k e) : TeardownFrame k s { s with dev := e } := by
  refine ⟨State.ext ?_ rfl rfl, h.others⟩
  have hframe := h.frame
  dsimp only
  rw [hframe]

theorem teardownFrame_of_tagResult {k why : Nat} {e : Dev} (h : (s.dev.tagResult why).JobsTo k e) :
    TeardownFrame k s { s with dev := e } := by
  refine ⟨State.ext ?_ rfl rfl, h.others⟩
  have hframe := h.frame
  dsimp only
  rw [hframe]
  rfl

theorem Dev.jobTeardown_begins {d : Dev} {slot : Nat} (hreason : d.jobReason slot = 0) (hgroup : d.group slot = some g) :
    d.jobTeardown tag slot = (d.tagResult 0).revokeHere (.torn true tag (BitVec.ofNat 16 g.gid) [] d.phys) g := by
  unfold Dev.jobTeardown
  rw [hreason, hgroup]
  exact if_neg (not_not.mpr rfl)

theorem ends_jobTeardown {slot : Fin 64} (hserving : s.dev.health.stopped = false) :
    Ends (.jobTeardown tag slot) s (fun t => t = { s with dev := s.dev.jobTeardown tag slot.val }) :=
  ⟨_, viaCfg_of_serving hserving _, rfl⟩

variable {slot : Nat} (hslot : s.dev.slotOf g.gid = some (slot, g))

include hslot in
theorem ends_jobRevokeReceive (hjob : s.dev.job tag true = none) : Ends (.jobRevokeReceive tag (BitVec.ofNat 16 g.gid)) s (fun t =>
    t = { s with dev := s.dev.revokeHere (.torn false tag (BitVec.ofNat 16 g.gid) [] s.dev.phys) g }) := by
  refine ⟨_, ?_, rfl⟩
  show execJobRevokeReceive tag (BitVec.ofNat 16 g.gid) s = _
  unfold execJobRevokeReceive
  simp only [hjob, Dev.slotOf_gid hslot]
  rfl

theorem ends_jobFreeReportReceive_root {j : Job} (hjob : s.dev.job tag true = some j) (hroot : j.root = true) (gid : BitVec 16)
    (m : BitVec 20) : Ends (.jobFreeReportReceive tag gid m) s (fun t =>
      t = if m ∈ j.heard then s else { s with dev := (s.dev.setJob (j.counting m)).teardownStep (j.counting m) }) := by
  refine ⟨_, ?_, rfl⟩
  show execJobFreeReportReceive tag gid m s = _
  unfold execJobFreeReportReceive
  dsimp only
  rw [hjob, Option.filter_some, if_pos hroot]
  by_cases hm : m ∈ j.heard
  · exact (if_pos (by simpa using hm)).trans (by rw [if_pos hm]; rfl)
  · exact (if_neg (by simpa using hm)).trans (by rw [if_neg hm]; rfl)

include hslot in
theorem ends_jobFreeReportReceive_member (hjob : ∀ j, s.dev.job tag true = some j → j.root = false) (m : BitVec 20) :
    Ends (.jobFreeReportReceive tag (BitVec.ofNat 16 g.gid) m) s (fun t =>
      t = { s with dev := s.dev.tell .jobFree (g.jobParent s.dev.self).toList [tag.toNat, (BitVec.ofNat 16 g.gid).toNat, m.toNat] }) := by
  have hnone : (s.dev.job tag true).filter (fun j => j.root) = none := by
    cases h : s.dev.job tag true with
    | none => rfl
    | some j => rw [Option.filter_some, if_neg (by rw [hjob j h]; decide)]
  refine ⟨_, ?_, rfl⟩
  show execJobFreeReportReceive tag (BitVec.ofNat 16 g.gid) m s = _
  unfold execJobFreeReportReceive
  simp only [hnone, Dev.slotOf_gid hslot]
  rfl

/-- The first member of a group that a teardown has not heard of. -/
def Job.silent (j : Job) (g : Group) : Option Nat := ((List.range g.members).map g.at).find? (fun p => j.heard.all (fun h => h.toNat != p))

include hslot in
theorem ends_teardownTimeout {j : Job} (hgid : j.gid = BitVec.ofNat 16 g.gid) (hjob : s.dev.time.jobs.find? (fun q =>
    q.root && q.teardown && q.heard.contains (BitVec.ofNat 20 s.dev.self) && s.dev.startPast q.since 2) = some j) :
    Ends .teardownTimeout s (fun t =>
      t = { s with dev := (s.dev.dropJob j.tag true).outcome 5 0 (BitVec.ofNat 20 ((j.silent g).getD 0)) }) := by
  have hslot' : s.dev.slotOf j.gid.toNat = some (slot, g) := by rw [hgid, Dev.slotOf_gid hslot]
  refine ⟨_, ?_, rfl⟩
  show execTeardownTimeout s = _
  unfold execTeardownTimeout
  simp only [hjob, hslot']
  rfl

end Commands

/-- Settles O50, by what a revoked tag and a tag that is FREE leave of the teardown's record. -/
theorem teardownsDrainReportAndEnd : Obligations.TeardownsDrainReportAndEnd := by
  unfold Obligations.TeardownsDrainReportAndEnd
  intro s tag slot g hslot _ d gid me kids job frame ended told drains
  refine ⟨?_, ?_, ?_, ?_, ?_, ?_⟩
  · intro hserving hreason hgroup
    have hslot' : (s.dev.tagResult 0).slotOf gid.toNat = some (slot.val, g) := Dev.slotOf_gid hslot
    have hmoves := Dev.jobsTo_revokeHere (d := s.dev.tagResult 0) (j := .torn true tag gid [] s.dev.phys) hslot' rfl
    have hdrains := Dev.drains_revokeHere (d := s.dev.tagResult 0) true tag hslot
    refine (ends_jobTeardown hserving).of_eq ?_
    rw [Dev.jobTeardown_begins hreason hgroup]
    refine ⟨⟨teardownFrame_of_tagResult hmoves, hdrains⟩, ?_⟩
    dsimp only
    rw [hmoves.frame]
    rfl
  · intro hjob
    have hmoves := Dev.jobsTo_revokeHere (d := s.dev) (j := .torn false tag gid [] s.dev.phys) (Dev.slotOf_gid hslot) rfl
    have hdrains := Dev.drains_revokeHere false tag hslot
    exact (ends_jobRevokeReceive hslot hjob).of_eq ⟨teardownFrame_of_jobsTo hmoves, hdrains⟩
  · intro j x hjob hgid htag hst huse hexch hquiet
    have hmove := s.dev.jobsTo_tagTo tag.toNat none
    have hjob' : (s.dev.tagTo tag.toNat none).job tag true = some j := (s.dev.job_tagTo ..).trans hjob
    have hslot' : (s.dev.tagTo tag.toNat none).slotOf j.gid.toNat = some (slot.val, g) := by
      rw [hmove.slotOf, hgid]
      exact Dev.slotOf_gid hslot
    have hitself : j.countsItself (s.dev.tagTo tag.toNat none) = j.countsItself s.dev := by
      unfold Job.countsItself
      rw [hmove.self, hmove.phys]
    have hcount := Dev.reportFree_counts hjob' hslot'
    have hreport := Dev.reportFree_reports hjob' hslot'
    rw [hitself] at hcount
    rw [hmove.self, hgid] at hreport
    exact (ends_tagDrainComplete htag hst huse hexch hquiet).of_eq ⟨teardownFrame_of_jobsTo (hmove.trans (Dev.jobsTo_reportFree hjob' hslot')),
      (Dev.tag_reportFree hjob' hslot' _).trans (Dev.tag_tagTo_same ..), hcount, hreport⟩
  · intro j m hjob hroot hgid
    obtain ⟨rfl, hteardown⟩ := s.dev.job_key hjob
    have hslot' : s.dev.slotOf (j.counting m).gid.toNat = some (slot.val, g) := by
      rw [show (j.counting m).gid = gid from hgid]
      exact Dev.slotOf_gid hslot
    refine ⟨fun hm => (ends_jobFreeReportReceive_root hjob hroot gid m).of_eq (if_pos hm), fun hm => ?_⟩
    refine (ends_jobFreeReportReceive_root hjob hroot gid m).of_eq ?_
    have hcount := Dev.setJob_teardownStep hslot' hroot hteardown
    rw [show (j.counting m).heard.length = j.heard.length + 1 from List.length_append] at hcount
    rw [if_neg hm]
    exact ⟨teardownFrame_of_jobsTo (Dev.jobsTo_setJob_teardownStep hslot'), hcount⟩
  · intro m hjob
    refine (ends_jobFreeReportReceive_member hslot hjob m).of_eq ⟨?_, fun p hp => Dev.mem_out_tell _ hp⟩
    rw [Dev.tell_eq]
  · rintro j hjob rfl hgid
    exact (ends_teardownTimeout hslot hgid hjob).of_eq ⟨teardownFrame_of_jobsTo ((s.dev.jobsTo_dropJob _ _ _).trans (Dev.jobsTo_outcome ..)),
      Dev.concluded_outcome _ _ _ _ (Dev.job_dropJob ..)⟩

end Sys2Proof.Machine

/-! Alignment of the timebase: its states, exchanges, slew and step (R336 to R342), and the global modes (R353, R362). -/
namespace Sys2Proof.Machine

/-! ## A change of the alignment state (R339) -/

/-- What exchanges and changes of the alignment state may change. -/
def Dev.AlignsTo (d e : Dev) : Prop :=
  e = { d with
    now := e.now, skew := e.skew, draws := e.draws, health := e.health, host := e.host, out := e.out
    time := { d.time with
      align := e.time.align, good := e.time.good, bad := e.time.bad, missed := e.time.missed
      unlockSeen := e.time.unlockSeen, cnt := e.time.cnt, offset := e.time.offset, depth := e.time.depth
      depthExceeded := e.time.depthExceeded, slew := e.time.slew, refBad := e.time.refBad } }

theorem Dev.AlignsTo.trans {d e f : Dev} (hde : d.AlignsTo e) (hef : e.AlignsTo f) : d.AlignsTo f := by
  unfold Dev.AlignsTo at *
  exact hef.trans (by rw [hde])

/-- An exit from LOCKED is recorded: the latch is set, it is counted, and an alarm is raised. -/
def Dev.RecordsExit (d e : Dev) : Prop := d.time.align = .locked → e.time.align ≠ .locked → e.time.unlockSeen = true ∧
  Tbl.lookD e.time.cnt 0x68 0 = Tbl.lookD d.time.cnt 0x68 0 + 1 ∧ e.health.alarms = d.health.alarms + 1

section SetAlign
variable (d : Dev) (a : Align)

theorem Dev.alarm_eq_out (b r u : Nat) (v : Word) : d.alarm b r u v =
    { d with health := (d.alarm b r u v).health, host := (d.alarm b r u v).host, out := (d.alarm b r u v).out } := by
  apply Dev.ext <;> simp

theorem Dev.setAlign_eq : d.setAlign a = { d with
    health := (d.setAlign a).health, host := (d.setAlign a).host, out := (d.setAlign a).out
    time := { d.time with
      align := a, good := 0, bad := 0, missed := 0, unlockSeen := (d.setAlign a).time.unlockSeen, cnt := (d.setAlign a).time.cnt } } := by
  unfold Dev.setAlign
  dsimp only
  split_ifs
  · rfl
  · rw [Dev.raise_eq, Dev.alarm_eq_out]
  · rw [Dev.raise_eq]
  · rfl

theorem Dev.alignsTo_setAlign : d.AlignsTo (d.setAlign a) := by
  have heq := d.setAlign_eq a
  unfold Dev.AlignsTo
  generalize d.setAlign a = e at heq
  rw [heq]

@[simp] theorem Dev.setAlign_align : (d.setAlign a).time.align = a := by rw [Dev.setAlign_eq]

theorem Dev.recordsExit_setAlign : d.RecordsExit (d.setAlign a) := by
  intro hlocked hleft
  rw [Dev.setAlign_align] at hleft
  have hmoved : (d.time.align == a) = false := by rw [hlocked]; simpa using Ne.symm hleft
  have hwas : (d.time.align == .locked) = true := by rw [hlocked]; rfl
  unfold Dev.setAlign
  dsimp only
  rw [hmoved, hwas]
  refine ⟨by simp, ?_, by simp⟩
  simp only [Bool.false_eq_true, if_false, if_true, Dev.raise_time, Dev.alarm_time]
  exact lookD_bump_same ..

/-- A change of the alignment state counts nothing but an exit from LOCKED. -/
theorem Dev.setAlign_cnt {off : Nat} (h : off ≠ 0x68) : Tbl.lookD (d.setAlign a).time.cnt off 0 = Tbl.lookD d.time.cnt off 0 := by
  unfold Dev.setAlign
  dsimp only
  split_ifs
  · rfl
  · simp only [Dev.raise_time, Dev.alarm_time]
    exact lookD_bump_other _ _ h
  · simp only [Dev.raise_time]
  · rfl

end SetAlign

/-! ## The reference (R9, R339) -/

/-- The state that a module begins in, from its reference and role. -/
def Dev.firstAlign (d : Dev) : Align :=
  if d.timeRuns = false ∨ d.time.refBad = true ∨ d.time.role = 0 then .free else if d.time.role = 1 then .locked else .acquire

/-- A module that is not a FOLLOWER has no depth. -/
def Dev.noDepth (d : Dev) : Dev := if d.time.role = 2 then d else { d with time := { d.time with depth := 0, depthExceeded := false } }

theorem Dev.noDepth_eq (d : Dev) : d.noDepth =
    { d with time := { d.time with depth := d.noDepth.time.depth, depthExceeded := d.noDepth.time.depthExceeded } } := by
  unfold Dev.noDepth
  split <;> rfl

theorem Dev.alignStart_eq (d : Dev) : d.alignStart = d.noDepth.setAlign d.firstAlign := by
  have hstart : d.alignStart = if !d.noDepth.timeRuns || d.noDepth.time.refBad || d.noDepth.time.role = 0 then d.noDepth.setAlign .free
      else if d.noDepth.time.role = 1 then d.noDepth.setAlign .locked else d.noDepth.setAlign .acquire := rfl
  have hruns : d.noDepth.timeRuns = d.timeRuns := by rw [d.noDepth_eq]; rfl
  have hbad : d.noDepth.time.refBad = d.time.refBad := by rw [d.noDepth_eq]
  have hrole : d.noDepth.time.role = d.time.role := by rw [d.noDepth_eq]
  rw [hstart, hruns, hbad, hrole, Dev.firstAlign]
  by_cases hfree : d.timeRuns = false ∨ d.time.refBad = true ∨ d.time.role = 0
  · rw [if_pos hfree, if_pos (by simpa [or_assoc] using hfree)]
  · rw [if_neg hfree, if_neg (by simpa [or_assoc] using hfree)]
    split_ifs <;> rfl

theorem Dev.alignsTo_noDepth (d : Dev) : d.AlignsTo d.noDepth := by
  have heq := d.noDepth_eq
  unfold Dev.AlignsTo
  generalize d.noDepth = e at heq
  rw [heq]

section AlignStart
variable (d : Dev)

theorem Dev.alignsTo_alignStart : d.AlignsTo d.alignStart := d.alignStart_eq ▸ d.alignsTo_noDepth.trans (Dev.alignsTo_setAlign ..)

theorem Dev.alignStart_align : d.alignStart.time.align = d.firstAlign := by rw [d.alignStart_eq, Dev.setAlign_align]

theorem Dev.alignStart_now : d.alignStart.now = d.now := by rw [d.alignStart_eq, Dev.setAlign_now, d.noDepth_eq]

theorem Dev.alignStart_refBad : d.alignStart.time.refBad = d.time.refBad := by rw [d.alignStart_eq, Dev.setAlign_eq, d.noDepth_eq]

theorem Dev.recordsExit_alignStart : d.RecordsExit d.alignStart := by
  have hexit := d.noDepth.recordsExit_setAlign d.firstAlign
  rw [← d.alignStart_eq] at hexit
  unfold Dev.RecordsExit at hexit ⊢
  rwa [d.noDepth_eq] at hexit

end AlignStart

/-! ## Slew and step (R338) -/

/-- Twice the step limit, as θ is kept doubled. -/
def Dev.stepLimit (d : Dev) : Int := 2 * d.time.stepNs.toNat

/-- An offset that the counter steps by: beyond the limit forward, or back while no claim runs. -/
def Dev.StepsBy (d : Dev) (th2 : Int) : Prop := d.stepLimit < th2 ∨ (th2 < -d.stepLimit ∧ d.anyClaimRuns = false)

/-- How the counter, its slew and the count of steps stand after an exchange that is used. -/
structure Dev.Disciplined (d e : Dev) (th2 : Int) : Prop where
  steps : d.StepsBy th2 → e.now = d.now + BitVec.ofInt 64 (Int.tdiv th2 2) ∧ e.skew = d.skew + BitVec.ofInt 64 (Int.tdiv th2 2) ∧
    e.time.slew = d.time.slew ∧ Tbl.lookD e.time.cnt 0x60 0 = Tbl.lookD d.time.cnt 0x60 0 + 1
  stays : ¬ d.StepsBy th2 → e.now = d.now ∧ e.skew = d.skew ∧ Tbl.lookD e.time.cnt 0x60 0 = Tbl.lookD d.time.cnt 0x60 0
  back : ¬ d.StepsBy th2 → th2 < -d.stepLimit → e.time.slew = -20000
  slews : ¬ d.StepsBy th2 → -d.stepLimit ≤ th2 → 0 ≤ e.time.slew * Int.sign th2 ∧ e.time.slew.natAbs ≤ 20000

section Discipline
variable (d : Dev) (th2 : Int)

/-- The counter steps, and the step is counted. -/
def Dev.stepsOff : Dev := (d.stepTo (d.now + BitVec.ofInt 64 (Int.tdiv th2 2))).countTime 0x60

theorem Dev.discipline_cases : d.discipline th2 =
    if d.stepLimit < th2 then d.stepsOff th2
    else if th2 < -d.stepLimit then
      if d.anyClaimRuns then { d with time := { d.time with slew := -20000 } } else d.stepsOff th2
    else
      { d with draws := d.draws + 1, time := { d.time with slew := Int.sign th2 * ((Config.freeValue d.draws).toNat % 20001 : Nat) } } := rfl

theorem Dev.discipline_steps (h : d.StepsBy th2) : d.discipline th2 = d.stepsOff th2 := by
  rw [Dev.discipline_cases]
  rcases h with h | ⟨h, hidle⟩
  · exact if_pos h
  · have hlim : 0 ≤ d.stepLimit := by unfold Dev.stepLimit; omega
    rw [if_neg (by omega), if_pos h, hidle]
    rfl

theorem Dev.discipline_slews_back (h : ¬ d.StepsBy th2) (hback : th2 < -d.stepLimit) :
    d.discipline th2 = { d with time := { d.time with slew := -20000 } } := by
  obtain ⟨hahead, hruns⟩ := not_or.mp h
  have hruns' : d.anyClaimRuns = true := by simpa [hback] using hruns
  rw [Dev.discipline_cases, if_neg hahead, if_pos hback, if_pos hruns']

theorem Dev.discipline_slews (h : ¬ d.StepsBy th2) (hnear : -d.stepLimit ≤ th2) : d.discipline th2 =
    { d with draws := d.draws + 1, time := { d.time with slew := Int.sign th2 * ((Config.freeValue d.draws).toNat % 20001 : Nat) } } := by
  obtain ⟨hahead, -⟩ := not_or.mp h
  rw [Dev.discipline_cases, if_neg hahead, if_neg (not_lt.mpr hnear)]

theorem slew_bounds (v : Nat) : 0 ≤ Int.sign th2 * (v % 20001 : Nat) * Int.sign th2 ∧ (Int.sign th2 * (v % 20001 : Nat)).natAbs ≤ 20000 := by
  have hv : v % 20001 ≤ 20000 := Nat.le_of_lt_succ (Nat.mod_lt _ (by decide))
  rcases lt_trichotomy th2 0 with h | h | h
  · rw [Int.sign_eq_neg_one_of_neg h]; omega
  · rw [h]; simp
  · rw [Int.sign_eq_one_of_pos h]; omega

theorem Dev.disciplined_discipline : d.Disciplined (d.discipline th2) th2 := by
  by_cases h : d.StepsBy th2
  · rw [d.discipline_steps th2 h]
    refine ⟨fun _ => ⟨rfl, ?_, rfl, lookD_bump_same ..⟩, fun hn => absurd h hn, fun hn => absurd h hn, fun hn => absurd h hn⟩
    show d.skew + (d.now + BitVec.ofInt 64 (Int.tdiv th2 2) - d.now) = _
    rw [BitVec.add_comm d.now, BitVec.add_sub_cancel]
  · by_cases hback : th2 < -d.stepLimit
    · rw [d.discipline_slews_back th2 h hback]
      exact ⟨fun hs => absurd hs h, fun _ => ⟨rfl, rfl, rfl⟩, fun _ _ => rfl, fun _ hnear => absurd hback (not_lt.mpr hnear)⟩
    · rw [d.discipline_slews th2 h (not_lt.mp hback)]
      exact ⟨fun hs => absurd hs h, fun _ => ⟨rfl, rfl, rfl⟩, fun _ hb => absurd hb hback, fun _ _ => slew_bounds th2 _⟩

/-- What a slew or a step writes. -/
theorem Dev.discipline_eq : d.discipline th2 = { d with
    now := (d.discipline th2).now, skew := (d.discipline th2).skew, draws := (d.discipline th2).draws
    time := { d.time with slew := (d.discipline th2).time.slew, cnt := (d.discipline th2).time.cnt } } := by
  by_cases h : d.StepsBy th2
  · rw [d.discipline_steps th2 h]; rfl
  · by_cases hback : th2 < -d.stepLimit
    · rw [d.discipline_slews_back th2 h hback]
    · rw [d.discipline_slews th2 h (not_lt.mp hback)]

theorem Dev.discipline_cnt {off : Nat} (hoff : off ≠ 0x60) : Tbl.lookD (d.discipline th2).time.cnt off 0 = Tbl.lookD d.time.cnt off 0 := by
  by_cases h : d.StepsBy th2
  · rw [d.discipline_steps th2 h]; exact lookD_bump_other _ _ hoff
  · by_cases hback : th2 < -d.stepLimit
    · rw [d.discipline_slews_back th2 h hback]
    · rw [d.discipline_slews th2 h (not_lt.mp hback)]

theorem Dev.alignsTo_discipline : d.AlignsTo (d.discipline th2) := by
  have heq := d.discipline_eq th2
  unfold Dev.AlignsTo
  generalize d.discipline th2 = e at heq
  rw [heq]

end Discipline

end Sys2Proof.Machine

/-! Timing exchanges and their answers, the sync pulse, and the global modes (R337 to R342, R353, R362, Table 15.1). -/
namespace Sys2Proof.Machine

/-! ## An answer (R338, R339) -/

/-- What an answer's stamps and depth leave before the alignment state moves. -/
def Dev.recordAnswer (d : Dev) (th2 : Int) (depth : BitVec 3) : Dev :=
  { d with time := { d.time with
    offset := max (-32768) (min 32767 (Int.tdiv th2 2)), depth := BitVec.ofNat 3 (min 7 (depth.toNat + 1))
    depthExceeded := Nat.blt 6 (depth.toNat + 1), missed := 0
    good := if th2.natAbs ≤ 20 then d.time.good + 1 else 0
    bad := if 50 < th2.natAbs then d.time.bad + 1 else 0 } }

/-- How the alignment state moves on a recorded answer, and what becomes of the counter. -/
def Dev.moveAlign (d : Dev) (locked : Bool) (dep : Nat) (th2 : Int) : Dev :=
  match d.time.align with
  | .holdover => if locked then (d.setAlign .acquire).discipline th2 else d
  | .acquire =>
    if Nat.ble 16 (d.discipline th2).time.good && locked && Nat.ble dep 6 then (d.discipline th2).setAlign .locked else d.discipline th2
  | _ =>
    if !locked then d.setAlign .holdover
    else if 2 ≤ (d.discipline th2).time.bad then (d.discipline th2).setAlign .acquire else d.discipline th2

section Commands
variable {s : State}

theorem ends_timingAnswerReceive {t1 t2 t3 t4 : Word} {up : Fin 4} {depth : BitVec 3} (hup : s.dev.upstream = true)
    (hfree : s.dev.time.align ≠ .free) : Ends (.timingAnswerReceive t1 t2 t3 t4 up depth) s (fun t =>
      t = { s with dev := (s.dev.recordAnswer (theta2 t1 t2 t3 t4) depth).moveAlign (up.val == 2) (depth.toNat + 1) (theta2 t1 t2 t3 t4) }) := by
  have hready : (s.dev.upstream && s.dev.time.align != .free) = true := by simp [hup, hfree]
  refine ⟨_, ?_, rfl⟩
  show execTimingAnswerReceive t1 t2 t3 t4 up depth s = _
  unfold execTimingAnswerReceive
  refine (if_pos hready).trans ?_
  unfold Dev.moveAlign Dev.recordAnswer
  cases h : s.dev.time.align with
  | free => exact absurd h hfree
  | acquire => simp only [h] <;> rfl
  | holdover => simp only [h] <;> rfl
  | locked => cases hlocked : (up.val == 2) <;> simp only [h] <;> rfl

end Commands

/-- An answer's own record, which the alignment state's moves keep. -/
def Dev.KeepsAnswer (d e : Dev) : Prop := e.time.refBad = d.time.refBad ∧ e.time.offset = d.time.offset ∧ e.time.depth = d.time.depth ∧
  e.time.depthExceeded = d.time.depthExceeded

section Keeps
variable {d e : Dev} {th2 : Int} (a : Align)

theorem Dev.keepsAnswer_discipline (d : Dev) (th2 : Int) : d.KeepsAnswer (d.discipline th2) := by
  rw [d.discipline_eq th2]
  exact ⟨rfl, rfl, rfl, rfl⟩

theorem Dev.keepsAnswer_setAlign (d : Dev) : d.KeepsAnswer (d.setAlign a) := by
  rw [d.setAlign_eq a]
  exact ⟨rfl, rfl, rfl, rfl⟩

theorem Dev.KeepsAnswer.trans {f : Dev} (hde : d.KeepsAnswer e) (hef : e.KeepsAnswer f) : d.KeepsAnswer f := by
  obtain ⟨hbad, hoff, hdepth, hdeep⟩ := hde
  obtain ⟨hbad', hoff', hdepth', hdeep'⟩ := hef
  exact ⟨hbad'.trans hbad, hoff'.trans hoff, hdepth'.trans hdepth, hdeep'.trans hdeep⟩

theorem Dev.setAlign_slew (d : Dev) : (d.setAlign a).time.slew = d.time.slew := by rw [d.setAlign_eq a]

theorem Dev.stepLimit_setAlign (d : Dev) : (d.setAlign a).stepLimit = d.stepLimit := by
  unfold Dev.stepLimit
  rw [d.setAlign_eq a]

theorem Dev.stepsBy_setAlign (d : Dev) (th2 : Int) : (d.setAlign a).StepsBy th2 ↔ d.StepsBy th2 := by
  unfold Dev.StepsBy
  rw [Dev.stepLimit_setAlign, show (d.setAlign a).anyClaimRuns = d.anyClaimRuns by rw [d.setAlign_eq a]; rfl]

/-- A change of the alignment state after a slew or a step leaves it as it was. -/
theorem Dev.Disciplined.setAlign (h : d.Disciplined e th2) : d.Disciplined (e.setAlign a) th2 := by
  refine ⟨fun hs => ?_, fun hs => ?_, fun hs hback => ?_, fun hs hnear => ?_⟩
  · rw [Dev.setAlign_now, Dev.setAlign_skew, Dev.setAlign_slew, Dev.setAlign_cnt _ _ (by decide)]
    exact h.steps hs
  · rw [Dev.setAlign_now, Dev.setAlign_skew, Dev.setAlign_cnt _ _ (by decide)]
    exact h.stays hs
  · rw [Dev.setAlign_slew]
    exact h.back hs hback
  · rw [Dev.setAlign_slew]
    exact h.slews hs hnear

/-- A slew or a step after a change of the alignment state is one before it. -/
theorem Dev.Disciplined.of_setAlign (h : (d.setAlign a).Disciplined e th2) : d.Disciplined e th2 := by
  obtain ⟨hsteps, hstays, hback, hslews⟩ := h
  rw [Dev.stepsBy_setAlign] at hsteps hstays hback hslews
  rw [Dev.setAlign_now, Dev.setAlign_skew, Dev.setAlign_cnt _ _ (by decide)] at hsteps hstays
  rw [Dev.setAlign_slew] at hsteps
  rw [Dev.stepLimit_setAlign] at hback hslews
  exact ⟨hsteps, hstays, hback, hslews⟩

end Keeps

/-! ## The alignment state on an answer (Table 15.1) -/

/-- How a recorded answer leaves the timebase: the state `a`, and the counter slewed or stepped where the answer is used. -/
structure Dev.AnsweredTo (d e : Dev) (th2 : Int) (used : Prop) (a : Align) : Prop where
  frame : d.AlignsTo e
  keeps : d.KeepsAnswer e
  exits : d.RecordsExit e
  align : e.time.align = a
  whenUsed : used → d.Disciplined e th2
  whenUnused : ¬ used → e.now = d.now ∧ e.skew = d.skew ∧ Tbl.lookD e.time.cnt 0x60 0 = Tbl.lookD d.time.cnt 0x60 0 ∧ e.time.slew = d.time.slew

section Moves
variable (d : Dev) (th2 : Int)

theorem Dev.discipline_align : (d.discipline th2).time.align = d.time.align := by rw [d.discipline_eq th2]
theorem Dev.discipline_good : (d.discipline th2).time.good = d.time.good := by rw [d.discipline_eq th2]
theorem Dev.discipline_bad : (d.discipline th2).time.bad = d.time.bad := by rw [d.discipline_eq th2]

/-- An exit from LOCKED after a slew or a step is one before it. -/
theorem Dev.recordsExit_discipline {e : Dev} (h : (d.discipline th2).RecordsExit e) : d.RecordsExit e := by
  have hcnt := d.discipline_cnt th2 (off := 0x68) (by decide)
  have hhealth : (d.discipline th2).health = d.health := by rw [d.discipline_eq th2]
  unfold Dev.RecordsExit at h ⊢
  rwa [hcnt, hhealth, Dev.discipline_align] at h

theorem Dev.recordsExit_of_align {d e : Dev} (h : e.time.align = d.time.align) : d.RecordsExit e :=
  fun hlocked hleft => absurd (h.trans hlocked) hleft

/-- A slew or a step alone. -/
theorem Dev.answeredTo_discipline {used : Prop} (h : used) {a : Align} (ha : d.time.align = a) :
    d.AnsweredTo (d.discipline th2) th2 used a where
  frame := d.alignsTo_discipline th2
  keeps := d.keepsAnswer_discipline th2
  exits := Dev.recordsExit_of_align (d.discipline_align th2)
  align := (d.discipline_align th2).trans ha
  whenUsed _ := d.disciplined_discipline th2
  whenUnused hn := absurd h hn

/-- A slew or a step, and then a change of the alignment state. -/
theorem Dev.answeredTo_discipline_setAlign {used : Prop} (h : used) (a : Align) :
    d.AnsweredTo ((d.discipline th2).setAlign a) th2 used a where
  frame := (d.alignsTo_discipline th2).trans (Dev.alignsTo_setAlign ..)
  keeps := (d.keepsAnswer_discipline th2).trans (Dev.keepsAnswer_setAlign ..)
  exits := d.recordsExit_discipline th2 (Dev.recordsExit_setAlign _ _)
  align := Dev.setAlign_align ..
  whenUsed _ := (d.disciplined_discipline th2).setAlign a
  whenUnused hn := absurd h hn

/-- A change of the alignment state from HOLDOVER, and then a slew or a step. -/
theorem Dev.answeredTo_setAlign_discipline {used : Prop} (h : used) (a : Align) (hlocked : d.time.align ≠ .locked) :
    d.AnsweredTo ((d.setAlign a).discipline th2) th2 used a where
  frame := (d.alignsTo_setAlign a).trans (Dev.alignsTo_discipline ..)
  keeps := (d.keepsAnswer_setAlign a).trans (Dev.keepsAnswer_discipline ..)
  exits hl := absurd hl hlocked
  align := (Dev.discipline_align ..).trans (Dev.setAlign_align ..)
  whenUsed _ := ((d.setAlign a).disciplined_discipline th2).of_setAlign a
  whenUnused hn := absurd h hn

/-- A change of the alignment state alone. -/
theorem Dev.answeredTo_setAlign {used : Prop} (h : ¬ used) (a : Align) : d.AnsweredTo (d.setAlign a) th2 used a where
  frame := d.alignsTo_setAlign a
  keeps := d.keepsAnswer_setAlign a
  exits := d.recordsExit_setAlign a
  align := d.setAlign_align a
  whenUsed hu := absurd hu h
  whenUnused _ := ⟨d.setAlign_now a, d.setAlign_skew a, d.setAlign_cnt a (by decide), d.setAlign_slew a⟩

/-- No change. -/
theorem Dev.answeredTo_self {used : Prop} (h : ¬ used) {a : Align} (ha : d.time.align = a) : d.AnsweredTo d th2 used a where
  frame := rfl
  keeps := ⟨rfl, rfl, rfl, rfl⟩
  exits := Dev.recordsExit_of_align rfl
  align := ha
  whenUsed hu := absurd hu h
  whenUnused _ := ⟨rfl, rfl, rfl, rfl⟩

/-- The state of Table 15.1 after an answer. -/
def Align.answered (a : Align) (locked : Bool) (dep good bad : Nat) : Align :=
  match a with
  | .free => .free
  | .holdover => if locked = true then .acquire else .holdover
  | .acquire => if 16 ≤ good ∧ locked = true ∧ dep ≤ 6 then .locked else .acquire
  | .locked => if locked = false then .holdover else if 2 ≤ bad then .acquire else .locked

theorem Dev.answeredTo_moveAlign (locked : Bool) (dep : Nat) (hfree : d.time.align ≠ .free) :
    d.AnsweredTo (d.moveAlign locked dep th2) th2 (d.time.align = .acquire ∨ locked = true)
      (d.time.align.answered locked dep d.time.good d.time.bad) := by
  cases h : d.time.align with
  | free => exact absurd h hfree
  | holdover =>
    have hout : d.time.align ≠ .locked := by rw [h]; decide
    cases locked with
    | true =>
      have hmove : d.moveAlign true dep th2 = (d.setAlign .acquire).discipline th2 := by unfold Dev.moveAlign; rw [h]; rfl
      exact hmove ▸ d.answeredTo_setAlign_discipline th2 (.inr rfl) .acquire hout
    | false =>
      have hmove : d.moveAlign false dep th2 = d := by unfold Dev.moveAlign; rw [h]; rfl
      exact hmove.symm ▸ d.answeredTo_self th2 (by decide) h
  | acquire =>
    have hmove : d.moveAlign locked dep th2 =
        if Nat.ble 16 d.time.good && locked && Nat.ble dep 6 then (d.discipline th2).setAlign .locked else d.discipline th2 := by
      rw [← d.discipline_good th2]
      unfold Dev.moveAlign
      rw [h]
    unfold Align.answered
    rw [hmove]
    by_cases hlock : 16 ≤ d.time.good ∧ locked = true ∧ dep ≤ 6
    · rw [if_pos hlock, if_pos (by simpa [and_assoc] using hlock)]
      exact d.answeredTo_discipline_setAlign th2 (.inl rfl) .locked
    · rw [if_neg hlock, if_neg (by simpa [and_assoc] using hlock)]
      exact d.answeredTo_discipline th2 (.inl rfl) h
  | locked =>
    cases locked with
    | false =>
      have hmove : d.moveAlign false dep th2 = d.setAlign .holdover := by unfold Dev.moveAlign; rw [h]; rfl
      exact hmove ▸ d.answeredTo_setAlign th2 (by decide) .holdover
    | true =>
      have hmove : d.moveAlign true dep th2 =
          if 2 ≤ d.time.bad then (d.discipline th2).setAlign .acquire else d.discipline th2 := by
        rw [← d.discipline_bad th2]
        unfold Dev.moveAlign
        rw [h]
        rfl
      rw [hmove, show Align.answered .locked true dep d.time.good d.time.bad = if 2 ≤ d.time.bad then .acquire else .locked from rfl]
      by_cases hbad : 2 ≤ d.time.bad
      · rw [if_pos hbad, if_pos hbad]
        exact d.answeredTo_discipline_setAlign th2 (.inr rfl) .acquire
      · rw [if_neg hbad, if_neg hbad]
        exact d.answeredTo_discipline th2 (.inr rfl) h

end Moves

/-! ## The other commands -/

section Others
variable {s : State}

/-- The frame of a command about the alignment. -/
theorem alignFrame {e : Dev} (h : s.dev.AlignsTo e) : ({ s with dev := e } : State) = { s with dev := { s.dev with
    now := e.now, skew := e.skew, draws := e.draws, health := e.health, host := e.host, out := e.out
    time := { s.dev.time with
      align := e.time.align, good := e.time.good, bad := e.time.bad, missed := e.time.missed
      unlockSeen := e.time.unlockSeen, cnt := e.time.cnt, offset := e.time.offset, depth := e.time.depth
      depthExceeded := e.time.depthExceeded, slew := e.time.slew, refBad := e.time.refBad } } } := State.ext h rfl rfl

theorem ends_timerefGood (h : s.dev.time.refBad = true) : Ends .timerefGood s (fun t =>
    t = { s with dev := ({ s.dev with time := { s.dev.time with refBad := false } } : Dev).alignStart }) := by
  refine ⟨_, ?_, rfl⟩
  show execTimerefGood s = _
  unfold execTimerefGood
  exact congrArg (answer s) (if_pos h)

theorem ends_timingExchange (h : s.dev.upstream = true) : Ends .timingExchange s (fun t =>
    t = { s with dev := s.dev.emit (.message .timeRequest s.dev.time.upPort.toNat [s.dev.now.toNat]) }) := by
  refine ⟨_, ?_, rfl⟩
  show execTimingExchange s = _
  unfold execTimingExchange
  exact congrArg (answer s) (if_pos h)

theorem ends_timingRequestReceive {p : Fin 48} (hruns : s.dev.isRunning .time = true) (hrole : s.dev.time.role ≠ 0)
    (hsite : (s.dev.port p.val).site = false) : Ends (.timingRequestReceive p) s (fun t => t = { s with
      dev := s.dev.emit (.message .timeAnswer p.val [s.dev.now.toNat, alignCode s.dev.time.align, s.dev.time.depth.toNat]) }) := by
  have hready : (s.dev.timeRuns && s.dev.time.role != 0 && !(s.dev.port p.val).site) = true := by
    unfold Dev.timeRuns
    rw [hruns, hsite, bne_iff_ne.mpr hrole]
    rfl
  refine ⟨_, ?_, rfl⟩
  show execTimingRequestReceive p s = _
  unfold execTimingRequestReceive
  exact congrArg (answer s) (if_pos hready)

/-- One more exchange is missed. -/
def Dev.missOne (d : Dev) : Dev := { d with time := { d.time with missed := d.time.missed + 1, good := 0 } }

theorem ends_timingExchangeMissed (hruns : s.dev.isRunning .time = true) (hrole : s.dev.time.role = 2) :
    Ends .timingExchangeMissed s (fun t => t = { s with
      dev := if 3 ≤ s.dev.time.missed ∧ s.dev.time.align = .locked then s.dev.missOne.setAlign .holdover else s.dev.missOne }) := by
  have hready : (s.dev.timeRuns && s.dev.time.role = 2) = true := by
    unfold Dev.timeRuns
    simp [hruns, hrole]
  refine ⟨_, ?_, rfl⟩
  show execTimingExchangeMissed s = _
  unfold execTimingExchangeMissed
  refine (if_pos hready).trans (congrArg (answer s) ?_)
  by_cases h : 3 ≤ s.dev.time.missed ∧ s.dev.time.align = .locked
  · exact (if_pos (by simpa using h)).trans (if_pos h).symm
  · exact (if_neg (by simpa using h)).trans (if_neg h).symm

theorem ends_syncPulse (hrole : s.dev.time.role = 1) (harm : s.dev.time.syncArm = true) : Ends .syncPulse s (fun t =>
    t = { s with dev := { s.dev with time := { s.dev.time with syncDue := true } } }) := by
  refine ⟨_, ?_, rfl⟩
  show execSyncPulse s = _
  unfold execSyncPulse
  exact congrArg (answer s) (if_pos (by simp [hrole, harm]))

/-- What the next tick makes of a pulse. -/
theorem Dev.tick_of_due {d : Dev} (h : d.time.syncDue = true) :
    (d.anyClaimRuns = true → d.tick.now = d.now + 1 ∧ d.tick.time = { d.time with syncArm := false, syncDue := false, syncIgnored := true }) ∧
    (d.anyClaimRuns = false → d.tick.now = d.time.syncLoad ∧ d.tick.skew = d.skew + (d.time.syncLoad - (d.now + 1)) ∧
      d.tick.time = { d.time with syncArm := false, syncDue := false }) := by
  have hloads := Dev.syncTick_of_due (d := { d with now := d.now + 1 }) h
  rw [show ({ d with now := d.now + 1 } : Dev).anyClaimRuns = d.anyClaimRuns from rfl] at hloads
  constructor
  · intro hruns
    rw [hruns, if_pos rfl] at hloads
    exact ⟨(congrArg Dev.now hloads).trans rfl, (congrArg Dev.time hloads).trans rfl⟩
  · intro hruns
    rw [hruns, if_neg Bool.false_ne_true] at hloads
    exact ⟨(congrArg Dev.now hloads).trans rfl, (congrArg Dev.skew hloads).trans rfl, (congrArg Dev.time hloads).trans rfl⟩

end Others

/-! ## The global modes (R353, R362) -/

section Modes
variable {s : State} (hserving : s.dev.health.stopped = false) (v : W32)
include hserving

theorem ends_timeReproWrite_refused (hwhy : s.dev.reproReason (v.getLsbD 0) (v.getLsbD 1) ≠ 0) : Ends (.timeReproWrite v) s (fun t =>
    t = { s with dev := { s.dev with time := { s.dev.time with
      reproReject := true, reproReason := BitVec.ofNat 16 (s.dev.reproReason (v.getLsbD 0) (v.getLsbD 1)) } } }) := by
  refine ⟨_, ?_, rfl⟩
  show execTimeReproWrite v s = _
  unfold execTimeReproWrite
  rw [viaCfg_of_serving hserving]
  exact if_neg hwhy

theorem ends_timeReproWrite_applied (hwhy : s.dev.reproReason (v.getLsbD 0) (v.getLsbD 1) = 0) : Ends (.timeReproWrite v) s (fun t =>
    t = { s with dev := { s.dev with
      fixedBits := v.getLsbD 0, fixedPace := v.getLsbD 1
      frames := if s.dev.fixedPace && !v.getLsbD 1 then { s.dev.frames with lendState := 2 } else s.dev.frames } }) := by
  refine ⟨_, ?_, rfl⟩
  show execTimeReproWrite v s = _
  unfold execTimeReproWrite
  rw [viaCfg_of_serving hserving]
  exact if_pos hwhy

omit hserving in
/-- A mode write that is applied finds no claim running, and asks for Fixed-Pace only with Fixed-Bits (R353). -/
theorem Dev.reproReason_zero {d : Dev} {bits' pace : Bool} (h : d.reproReason bits' pace = 0) :
    d.anyClaimRuns = false ∧ (pace = true → bits' = true) := by
  unfold Dev.reproReason at h
  dsimp only at h
  split_ifs at h with hruns hpace
  exact ⟨by simpa using hruns, fun hp => by simpa [hp] using hpace⟩

theorem ends_timeBarCfgWrite : Ends (.timeBarCfgWrite v) s (fun t =>
    t = { s with
      dev := if 1300 ≤ v.toNat / 65536 % 4096 ∧ 1000 ≤ v.toNat % 65536 then
        { s.dev with time := { s.dev.time with
          barAlign := v.getLsbD 31, barHold := BitVec.ofNat 12 (v.toNat / 65536 % 4096), barMargin := BitVec.ofNat 16 (v.toNat % 65536) } }
      else s.dev.setBlock .time { s.dev.block .time with reject := true } }) := by
  have hhold : bits v.toNat 27 16 = v.toNat / 65536 % 4096 := rfl
  have hmargin : bits v.toNat 15 0 = v.toNat % 65536 := congrArg (· % 65536) (Nat.div_one _)
  refine ⟨_, ?_, rfl⟩
  show execTimeBarCfgWrite v s = _
  unfold execTimeBarCfgWrite
  rw [viaCfg_of_serving hserving, hhold, hmargin]
  by_cases h : 1300 ≤ v.toNat / 65536 % 4096 ∧ 1000 ≤ v.toNat % 65536
  · rw [if_pos h]
    exact if_pos (by simpa using h)
  · rw [if_neg h]
    exact if_neg (by simpa using h)

end Modes

/-! ## The obligation -/

section Obligation
variable {s : State}

/-- The part with its reference as it reads now. -/
def Dev.withRef (d : Dev) (bad : Bool) : Dev := { d with time := { d.time with refBad := bad } }

theorem Dev.alignsTo_withRef (d : Dev) (bad : Bool) : d.AlignsTo (d.withRef bad) := rfl

theorem Dev.firstAlign_of_bad (d : Dev) : (d.withRef true).firstAlign = .free := if_pos (.inr (.inl rfl))

theorem Dev.firstAlign_of_good (d : Dev) : (d.withRef false).firstAlign =
    if d.isRunning .time = false ∨ d.time.role = 0 then .free else if d.time.role = 1 then .locked else .acquire := by
  unfold Dev.firstAlign
  by_cases h : d.isRunning .time = false ∨ d.time.role = 0
  · rw [if_pos h]
    exact if_pos (h.imp_right .inr)
  · rw [if_neg h]
    exact if_neg fun h' => h (h'.imp_right fun h'' => h''.resolve_left Bool.false_ne_true)

theorem ends_timingExchangeMissed_moves (hruns : s.dev.isRunning .time = true) (hrole : s.dev.time.role = 2) :
    Ends .timingExchangeMissed s (fun t => s.dev.AlignsTo t.dev ∧ t = { s with dev := t.dev } ∧ s.dev.RecordsExit t.dev ∧ t.dev.now = s.dev.now ∧
      t.dev.time.align = (if 3 ≤ s.dev.time.missed ∧ s.dev.time.align = .locked then .holdover else s.dev.time.align) ∧
      (t.dev.time.align = s.dev.time.align → t = { s with dev := s.dev.missOne })) := by
  refine (ends_timingExchangeMissed hruns hrole).of_eq ?_
  have hmiss : s.dev.AlignsTo s.dev.missOne := rfl
  by_cases h : 3 ≤ s.dev.time.missed ∧ s.dev.time.align = .locked
  · rw [if_pos h, if_pos h]
    refine ⟨hmiss.trans (Dev.alignsTo_setAlign ..), rfl, s.dev.missOne.recordsExit_setAlign .holdover, Dev.setAlign_now .., Dev.setAlign_align ..,
      fun hsame => absurd ((Dev.setAlign_align _ _).symm.trans (hsame.trans h.2)) (by decide)⟩
  · rw [if_neg h, if_neg h]
    exact ⟨hmiss, rfl, Dev.recordsExit_of_align rfl, rfl, rfl, fun _ => rfl⟩

end Obligation

/-- Settles O46, by what one change of the alignment state, one slew or step, and one pulse leave. -/
theorem timebasesAlignStepAndSync : Obligations.TimebasesAlignStepAndSync := by
  unfold Obligations.TimebasesAlignStepAndSync
  intro s d time frame runs leaves
  refine ⟨?_, ?_, ends_timingExchange, fun p => ends_timingRequestReceive, ?_, ?_, ?_, ?_⟩
  · refine ⟨_, rfl, alignFrame ((s.dev.alignsTo_withRef true).trans (Dev.alignsTo_alignStart _)), (s.dev.withRef true).recordsExit_alignStart,
      (s.dev.withRef true).alignStart_refBad, ?_, (s.dev.withRef true).alignStart_now⟩
    exact (s.dev.withRef true).alignStart_align.trans s.dev.firstAlign_of_bad
  · intro hbad
    refine (ends_timerefGood hbad).of_eq ⟨alignFrame ((s.dev.alignsTo_withRef false).trans (Dev.alignsTo_alignStart _)),
      (s.dev.withRef false).recordsExit_alignStart, (s.dev.withRef false).alignStart_refBad, (s.dev.withRef false).alignStart_now, ?_⟩
    exact (s.dev.withRef false).alignStart_align.trans s.dev.firstAlign_of_good
  · intro t1 t2 t3 t4 up depth hup hfree th2 lim dep good bad used steps
    have hrecord : s.dev.AlignsTo (s.dev.recordAnswer th2 depth) := rfl
    have hmoves := (s.dev.recordAnswer th2 depth).answeredTo_moveAlign th2 (up.val == 2) dep hfree
    generalize he : (s.dev.recordAnswer th2 depth).moveAlign (up.val == 2) dep th2 = e at hmoves
    obtain ⟨hframe, ⟨href, hoff, hdepth, hdeep⟩, hexit, halign, hused, hunused⟩ := hmoves
    have hiff : (s.dev.time.align = .acquire ∨ (up.val == 2) = true) ↔ used := by rw [beq_iff_eq]
    refine (ends_timingAnswerReceive hup hfree).of_eq ?_
    rw [he]
    refine ⟨alignFrame (hrecord.trans hframe), hexit, href, hoff, ?_, ?_, ?_, ?_, ?_⟩
    · rw [hdepth]
      show (BitVec.ofNat 3 (min 7 dep)).toNat = min 7 dep
      rw [BitVec.toNat_ofNat]
      omega
    · rw [hdeep]
      exact iff_of_eq Nat.blt_eq
    · exact fun ⟨hu, hsteps⟩ => (hused (hiff.mpr hu)).steps hsteps
    · intro hstays
      by_cases hu : used
      · have hdisc := hused (hiff.mpr hu)
        have hnot : ¬ (s.dev.recordAnswer th2 depth).StepsBy th2 := fun hsteps => hstays ⟨hu, hsteps⟩
        obtain ⟨hnow, hskew, hcnt⟩ := hdisc.stays hnot
        exact ⟨hnow, hskew, hcnt, fun hn => absurd hu hn, fun _ => hdisc.back hnot, fun _ => hdisc.slews hnot⟩
      · obtain ⟨hnow, hskew, hcnt, hslew⟩ := hunused (hiff.not.mpr hu)
        exact ⟨hnow, hskew, hcnt, fun _ => hslew, fun hu' => absurd hu' hu, fun hu' => absurd hu' hu⟩
    · refine halign.trans ?_
      show s.dev.time.align.answered (up.val == 2) dep good bad = _
      cases s.dev.time.align <;> simp only [Align.answered, beq_iff_eq, beq_eq_false_iff_ne]
  · exact fun hruns hrole => by
      obtain ⟨t, hrun, hframe, ht, hrest⟩ := ends_timingExchangeMissed_moves hruns hrole
      exact ⟨t, hrun, ht.trans (alignFrame hframe), hrest⟩
  · intro hrole harm
    have htick := Dev.tick_of_due (d := { s.dev with time := { s.dev.time with syncDue := true } }) rfl
    exact (ends_syncPulse hrole harm).of_eq ⟨rfl, htick⟩
  · intro hserving
    refine ⟨⟨_, viaCfg_of_serving hserving _, rfl⟩, fun v => ⟨ends_timeReproWrite_refused hserving v, fun hwhy => ?_⟩, fun v => ⟨?_, ?_⟩⟩
    · obtain ⟨hidle, hmodes⟩ := Dev.reproReason_zero hwhy
      refine (ends_timeReproWrite_applied hserving v hwhy).of_eq ⟨rfl, hidle, hmodes, ?_⟩
      dsimp only
      simp only [Bool.and_eq_true, Bool.not_eq_true']
      rfl
    · exact fun h => (ends_timeBarCfgWrite hserving v).of_eq (by rw [if_pos h])
    · exact fun h => (ends_timeBarCfgWrite hserving v).of_eq (by rw [if_neg h])

end Sys2Proof.Machine

/-! Barriers: the messages of one, its arrivals, its release and its release tick (R327, R343 to R345, R358). -/
namespace Sys2Proof.Machine

/-! ## The running op of a slot -/

section Run
variable {d e : Dev} {slot : Nat} {x : CollRun}

theorem Dev.collRun_iff : d.collRun slot = some x ↔
    x.slot = slot ∧ d.group slot = some x.g ∧ x.g.op = some x.o ∧ d.entry x.o.ring x.o.count = some x.e ∧ x.e.phase = .started := by
  constructor
  · intro h
    obtain ⟨hentry, hst⟩ := Dev.collRun_entry h
    unfold Dev.collRun at h
    cases hg : d.group slot with
    | none => simp [hg] at h
    | some g =>
      cases ho : g.op with
      | none => simp [hg, ho] at h
      | some o =>
        simp only [hg, ho, Option.map_eq_some_iff] at h
        obtain ⟨y, -, rfl⟩ := h
        exact ⟨rfl, rfl, ho, hentry, hst⟩
  · rintro ⟨rfl, hg, ho, hentry, hst⟩
    unfold Dev.collRun
    simp only [hg, ho, hentry, Option.filter_some, hst, beq_self_eq_true, if_true, Option.map_some]

theorem Dev.barrier_iff : d.barrier slot = some x ↔ d.collRun slot = some x ∧ hOpcode x.e.desc = 0x54 := by
  unfold Dev.barrier
  rw [Option.filter_eq_some_iff, beq_iff_eq]

theorem Dev.group_setGroup (d : Dev) (n j : Nat) (g : Group) : (d.setGroup n g).group j = if j = n then some g else d.group j := by
  by_cases h : j = n
  · rw [h, if_pos rfl]; exact Tbl.look_put_same ..
  · rw [if_neg h]; exact Tbl.look_put_other _ _ h

theorem Dev.setColl_eq {g : Group} (h : d.group slot = some g) (o : Option CollOp) : d.setColl slot o = d.setGroup slot { g with op := o } := by
  unfold Dev.setColl
  rw [h]

theorem Dev.group_setColl_same {g : Group} (h : d.group slot = some g) (o : Option CollOp) :
    (d.setColl slot o).group slot = some { g with op := o } := by
  rw [Dev.setColl_eq h, Dev.group_setGroup, if_pos rfl]

theorem Dev.group_setColl_other (o : Option CollOp) {j : Nat} (hj : j ≠ slot) : (d.setColl slot o).group j = d.group j := by
  cases h : d.group slot with
  | none => unfold Dev.setColl; rw [h]
  | some g => rw [Dev.setColl_eq h, Dev.group_setGroup, if_neg hj]

/-- A group's op is all that is written. -/
theorem Dev.setColl_frame (d : Dev) (slot : Nat) (o : Option CollOp) :
    d.setColl slot o = { d with coll := { d.coll with groups := (d.setColl slot o).coll.groups } } := by
  unfold Dev.setColl Dev.setGroup
  split <;> rfl

theorem Dev.entry_setColl (d : Dev) (slot : Nat) (o : Option CollOp) (r : Nat) (c : W32) : (d.setColl slot o).entry r c = d.entry r c := by
  rw [Dev.setColl_frame]
  rfl

/-- A running op with another state. -/
def CollRun.withOp (x : CollRun) (o : CollOp) : CollRun := { x with g := { x.g with op := some o }, o := o }

/-- A running op with another descriptor entry. -/
def CollRun.withEntry (x : CollRun) (e : Entry) : CollRun := { x with e := e }

theorem Dev.collRun_setColl (h : d.collRun slot = some x) {o : CollOp} (hring : o.ring = x.o.ring) (hcount : o.count = x.o.count) :
    (d.setColl slot (some o)).collRun slot = some (x.withOp o) := by
  obtain ⟨hslot, hg, -, hentry, hst⟩ := Dev.collRun_iff.mp h
  refine Dev.collRun_iff.mpr ⟨hslot, Dev.group_setColl_same hg _, rfl, ?_, hst⟩
  rw [Dev.entry_setColl]
  show d.entry o.ring o.count = some x.e
  rw [hring, hcount, hentry]

theorem Dev.barrier_setColl (h : d.barrier slot = some x) {o : CollOp} (hring : o.ring = x.o.ring) (hcount : o.count = x.o.count) :
    (d.setColl slot (some o)).barrier slot = some (x.withOp o) := by
  obtain ⟨hrun, hop⟩ := Dev.barrier_iff.mp h
  exact Dev.barrier_iff.mpr ⟨Dev.collRun_setColl hrun hring hcount, hop⟩

end Run

/-! ## Messages of a barrier (R97, R249) -/

/-- Descriptor `c` of ring `r` and claim `k` alone pay for what is sent. -/
structure Dev.Pays (r : Nat) (c : W32) (k : Nat) (d e : Dev) : Prop where
  rings : ∀ j, j ≠ r → e.ring j = d.ring j
  claims : ∀ j, j ≠ k → e.claim j = d.claim j
  told : ∀ o ∈ d.out, o ∈ e.out
  entry : ∀ y, d.entry r c = some y → ∃ fabric, y.res.fabric ≤ fabric ∧
    e.entry r c = some { y with res := { y.res with fabric := fabric } } ∧ (d.out.length < e.out.length → y.res.fabric < fabric)

/-- Messages that are paid for: nothing else of the part changes but the draws. -/
structure Dev.PaysFor (r : Nat) (c : W32) (k : Nat) (d e : Dev) : Prop extends d.Pays r c k e where
  frame : e = { d with rings := e.rings, claims := e.claims, draws := e.draws, out := e.out }

/-- What a barrier's step on slot `n` changes: its messages are paid for, its op moves, and an odd release is counted. -/
structure Dev.BarrierTo (n r : Nat) (c : W32) (k : Nat) (d e : Dev) : Prop extends d.Pays r c k e where
  frame : e = { d with
    rings := e.rings, claims := e.claims, draws := e.draws, out := e.out
    coll := { d.coll with groups := e.coll.groups }
    time := { d.time with cnt := e.time.cnt, spreadLost := e.time.spreadLost } }
  others : ∀ j, j ≠ n → e.group j = d.group j

section Pays
variable {n r k : Nat} {c : W32} {d e f : Dev}

theorem Dev.Pays.of_same (hrings : e.rings = d.rings) (hclaims : e.claims = d.claims) (hout : e.out = d.out) : d.Pays r c k e where
  rings j _ := Dev.ring_congr hrings j
  claims j _ := Dev.claim_congr hclaims j
  told o ho := hout ▸ ho
  entry _ hy := ⟨_, le_rfl, (Dev.entry_congr hrings r c).trans hy, fun hlen => absurd hlen (by rw [hout]; exact lt_irrefl _)⟩

theorem Dev.Pays.trans (hde : d.Pays r c k e) (hef : e.Pays r c k f) : d.Pays r c k f where
  rings j hj := (hef.rings j hj).trans (hde.rings j hj)
  claims j hj := (hef.claims j hj).trans (hde.claims j hj)
  told o ho := hef.told o (hde.told o ho)
  entry y hy := by
    obtain ⟨m, hm, hentry, hstrict⟩ := hde.entry y hy
    obtain ⟨m', hm', hentry', hstrict'⟩ := hef.entry _ hentry
    refine ⟨m', hm.trans hm', hentry', fun hlen => ?_⟩
    by_cases hfirst : d.out.length < e.out.length
    · exact (hstrict hfirst).trans_le hm'
    · exact hm.trans_lt (hstrict' (by omega))

namespace Dev.PaysFor

theorem refl : d.PaysFor r c k d := ⟨.of_same rfl rfl rfl, rfl⟩
theorem trans (hde : d.PaysFor r c k e) (hef : e.PaysFor r c k f) : d.PaysFor r c k f :=
  ⟨hde.toPays.trans hef.toPays, hef.frame.trans (by rw [hde.frame])⟩
theorem coll (h : d.PaysFor r c k e) : e.coll = d.coll := by rw [h.frame]
theorem time (h : d.PaysFor r c k e) : e.time = d.time := by rw [h.frame]
theorem group (h : d.PaysFor r c k e) (j : Nat) : e.group j = d.group j := Dev.group_congr h.coll j
theorem barrierTo (h : d.PaysFor r c k e) : d.BarrierTo n r c k e := ⟨h.toPays, h.frame.trans (by rw [h.coll, h.time]), fun j _ => h.group j⟩

end Dev.PaysFor

namespace Dev.BarrierTo

theorem refl : d.BarrierTo n r c k d := ⟨.of_same rfl rfl rfl, rfl, fun _ _ => rfl⟩
theorem trans (hde : d.BarrierTo n r c k e) (hef : e.BarrierTo n r c k f) : d.BarrierTo n r c k f :=
  ⟨hde.toPays.trans hef.toPays, hef.frame.trans (by rw [hde.frame]), fun j hj => (hef.others j hj).trans (hde.others j hj)⟩

end Dev.BarrierTo

theorem Dev.barrierTo_setColl (d : Dev) (n r k : Nat) (c : W32) (o : Option CollOp) : d.BarrierTo n r c k (d.setColl n o) := by
  have heq := d.setColl_frame n o
  refine ⟨.of_same (by rw [heq]) (by rw [heq]) (by rw [heq]), ?_, fun j hj => Dev.group_setColl_other o hj⟩
  generalize d.setColl n o = e at heq
  rw [heq]

theorem Dev.barrierTo_oddRelease (d : Dev) (n r k : Nat) (c : W32) (off : Nat) (odd : Bool) : d.BarrierTo n r c k (d.oddRelease off odd) := by
  cases odd with
  | false => exact .refl
  | true => exact ⟨.of_same rfl rfl rfl, rfl, fun _ _ => rfl⟩

end Pays

section Message
variable (d : Dev) (x : CollRun)

/-- Flits that a barrier message's packet may take: its size is free. -/
def Dev.messageBytes (d : Dev) : Nat := 32 + (Config.freeValue d.draws).toNat % 2049

/-- A descriptor whose record counts more bytes. -/
def Entry.sends (n : Nat) (e : Entry) : Entry := { e with res := { e.res with fabric := e.res.fabric + n } }

theorem Dev.rings_barrierMessage (kind : CtrlMsg) (dst : Nat) (fields : List Nat) :
    (d.barrierMessage x kind dst fields).rings = (d.modEntry x.o.ring x.o.count (Entry.sends d.messageBytes)).rings := rfl

theorem Dev.claims_barrierMessage (kind : CtrlMsg) (dst : Nat) (fields : List Nat) :
    (d.barrierMessage x kind dst fields).claims = (d.pay x.g.claim 36 (ceilDiv d.messageBytes 64)).claims := rfl

theorem Dev.paysFor_barrierMessage (kind : CtrlMsg) (dst : Nat) (fields : List Nat) :
    d.PaysFor x.o.ring x.o.count x.g.claim (d.barrierMessage x kind dst fields) := by
  have hring := Dev.ring_congr (d.rings_barrierMessage x kind dst fields)
  refine ⟨⟨fun j hj => (hring j).trans (Dev.ring_modRing_other _ _ hj), fun j hj => ?_, fun o ho => List.mem_cons_of_mem _ ho, fun y hy => ?_⟩, rfl⟩
  · exact (Dev.claim_congr (d.claims_barrierMessage x kind dst fields) j).trans ((Dev.claim_modClaim d _ j _).trans (if_neg hj))
  · have hentry := d.entry_modEntry_same x.o.ring x.o.count (f := Entry.sends d.messageBytes) fun _ => rfl
    rw [hy] at hentry
    refine ⟨y.res.fabric + d.messageBytes, Nat.le_add_right _ _, (congrArg (·.entry x.o.count) (hring x.o.ring)).trans hentry, fun _ => ?_⟩
    unfold Dev.messageBytes
    omega

theorem Dev.out_barrierMessage (kind : CtrlMsg) (dst : Nat) (fields : List Nat) :
    (d.barrierMessage x kind dst fields).out = .message kind dst fields :: d.out := rfl

/-- RELEASE goes to each of some children. -/
theorem Dev.paysFor_releases (fields : List Nat) (cs : List Nat) :
    d.PaysFor x.o.ring x.o.count x.g.claim (cs.foldl (fun d c => d.barrierMessage x .release c fields) d) ∧
      ∀ c ∈ cs, .message .release c fields ∈ (cs.foldl (fun d c => d.barrierMessage x .release c fields) d).out := by
  induction cs generalizing d with
  | nil => exact ⟨.refl, fun _ h => absurd h List.not_mem_nil⟩
  | cons c cs ih =>
    obtain ⟨hpays, htold⟩ := ih (d.barrierMessage x .release c fields)
    refine ⟨(d.paysFor_barrierMessage x .release c fields).trans hpays, fun p hp => ?_⟩
    rcases List.mem_cons.mp hp with rfl | hp
    · exact hpays.told _ List.mem_cons_self
    · exact htold p hp

theorem Dev.paysFor_sendRelease (scheduled : Bool) (value : Nat) :
    d.PaysFor x.o.ring x.o.count x.g.claim (d.sendRelease x scheduled value) ∧
      ∀ c ∈ x.g.children d.self, .message .release c [x.g.gid, x.g.seq.toNat, b2n scheduled, value] ∈ (d.sendRelease x scheduled value).out :=
  d.paysFor_releases x _ _

end Message

/-! ## A release is passed on and its tick fixed (R343, R344, R358) -/

section Release
variable {d : Dev} {slot : Nat} {x : CollRun}

/-- A running op with the release tick it waits for. -/
def CollOp.released (o : CollOp) (scheduled : Bool) (tick : Tick) : CollOp := { o with release := some tick, scheduled := scheduled }

theorem Dev.PaysFor.barrier {e : Dev} {k : Nat} (h : d.PaysFor x.o.ring x.o.count k e) (hx : d.barrier slot = some x) :
    ∃ y, e.barrier slot = some (x.withEntry y) := by
  obtain ⟨hrun, hop⟩ := Dev.barrier_iff.mp hx
  obtain ⟨hslot, hg, ho, hentry, hst⟩ := Dev.collRun_iff.mp hrun
  obtain ⟨n, -, hentry', -⟩ := h.entry _ hentry
  refine ⟨{ x.e with res := { x.e.res with fabric := n } }, Dev.barrier_iff.mpr ⟨Dev.collRun_iff.mpr ?_, hop⟩⟩
  exact ⟨hslot, (h.group slot).trans hg, ho, hentry', hst⟩

theorem Dev.setRelease_eq (hx : d.barrier slot = some x) (late scheduled : Bool) (tick : Tick) :
    d.setRelease slot late scheduled tick = (d.setColl slot (some (x.o.released scheduled tick))).oddRelease 0x70 late := by
  unfold Dev.setRelease
  rw [hx]
  rfl

theorem Dev.sendRelease_withOp {o : CollOp} (hring : o.ring = x.o.ring) (hcount : o.count = x.o.count) (scheduled : Bool) (value : Nat) :
    d.sendRelease (x.withOp o) scheduled value = d.sendRelease x scheduled value := by
  unfold Dev.sendRelease Dev.barrierMessage CollRun.withOp
  dsimp only
  rw [hring, hcount]
  rfl

/-- RELEASE goes to the children, and then the op waits for its tick. -/
theorem Dev.sendRelease_setRelease (hx : d.barrier slot = some x) (scheduled : Bool) (value : Nat) (late sched : Bool) (tick : Tick) :
    ∃ f, d.PaysFor x.o.ring x.o.count x.g.claim f ∧
      (∀ c ∈ x.g.children d.self, .message .release c [x.g.gid, x.g.seq.toNat, b2n scheduled, value] ∈ f.out) ∧
      (d.sendRelease x scheduled value).setRelease slot late sched tick =
        (f.setColl slot (some (x.o.released sched tick))).oddRelease 0x70 late := by
  obtain ⟨hpays, htold⟩ := d.paysFor_sendRelease x scheduled value
  obtain ⟨y, hy⟩ := hpays.barrier hx
  exact ⟨_, hpays, htold, Dev.setRelease_eq hy late sched tick⟩

theorem Dev.oddRelease_out (d : Dev) (off : Nat) (odd : Bool) : (d.oddRelease off odd).out = d.out := by cases odd <;> rfl
theorem Dev.oddRelease_coll (d : Dev) (off : Nat) (odd : Bool) : (d.oddRelease off odd).coll = d.coll := by cases odd <;> rfl
theorem Dev.setColl_out (d : Dev) (n : Nat) (o : Option CollOp) : (d.setColl n o).out = d.out := by rw [d.setColl_frame n o]
theorem Dev.setColl_time (d : Dev) (n : Nat) (o : Option CollOp) : (d.setColl n o).time = d.time := by rw [d.setColl_frame n o]

end Release

/-! ## A step of a barrier (R343) -/

section Step
variable {d : Dev} {slot : Nat} {x : CollRun} (hx : d.barrier slot = some x)
include hx

/-- Every child of a barrier has arrived. -/
def CollRun.gathered (x : CollRun) (self : Nat) : Bool := (x.g.children self).all (fun c => x.o.arrived.contains c)

theorem Dev.barrierStep_waits (hwaits : x.gathered d.self = false) : d.barrierStep slot = d := by
  have hstop : (x.o.presentSent || !x.gathered d.self) = true := by rw [hwaits, Bool.not_false, Bool.or_true]
  unfold Dev.barrierStep
  rw [hx]
  exact if_pos hstop

theorem Dev.barrierStep_arrives (hfirst : x.o.presentSent = false) (hall : x.gathered d.self = true) {p : Nat}
    (hparent : x.g.parent d.self = some p) : d.barrierStep slot =
      (d.setColl slot (some { x.o with presentSent := true })).barrierMessage x .arrive p [x.g.gid, x.g.seq.toNat] := by
  have hgo : ¬ (x.o.presentSent || !x.gathered d.self) = true := by rw [hfirst, hall]; decide
  have hself : (d.setColl slot (some { x.o with presentSent := true })).self = d.self := by rw [Dev.setColl_frame]; rfl
  unfold Dev.barrierStep
  rw [hx]
  refine (if_neg hgo).trans ?_
  dsimp only
  rw [hself, hparent]

/-- The root of one bolt counts its release in physical ticks, where it is not asked to align (R327). -/
def Dev.delays (d : Dev) (x : CollRun) : Bool := decide (x.g.lo = x.g.hi) && !d.time.barAlign

/-- The release tick that the root fixes (R327, R343). -/
def Dev.rootTick (d : Dev) (x : CollRun) : Tick :=
  if d.delays x then d.phys + d.time.barHold.setWidth 64
  else if d.time.barAlign then d.frameAtOrAfter (d.now + d.time.barMargin.setWidth 64) else d.now + d.time.barMargin.setWidth 64

/-- What RELEASE carries from the root: a delay, or the tick. -/
def Dev.rootValue (d : Dev) (x : CollRun) : Nat := if d.delays x then d.time.barHold.toNat else (d.rootTick x).toNat

theorem Dev.barrierStep_releases (hfirst : x.o.presentSent = false) (hall : x.gathered d.self = true)
    (hroot : x.g.parent d.self = none) : d.barrierStep slot =
      ((d.setColl slot (some { x.o with presentSent := true })).sendRelease x (!d.delays x) (d.rootValue x)).setRelease slot false
        (!d.delays x) (d.rootTick x) := by
  have hgo : ¬ (x.o.presentSent || !x.gathered d.self) = true := by rw [hfirst, hall]; decide
  have hframe := d.setColl_frame slot (some { x.o with presentSent := true })
  unfold Dev.barrierStep
  rw [hx]
  refine (if_neg hgo).trans ?_
  dsimp only
  generalize d.setColl slot (some { x.o with presentSent := true }) = e at hframe ⊢
  have hself : e.self = d.self := by rw [hframe]; rfl
  have htime : e.time = d.time := by rw [hframe]
  have hnow : e.now = d.now := by rw [hframe]
  have hphys : e.phys = d.phys := by rw [hframe]; rfl
  have hnext : e.frameAtOrAfter = d.frameAtOrAfter := by rw [hframe]; rfl
  rw [hself, hroot, htime, hnow, hphys, hnext]
  unfold Dev.rootValue Dev.rootTick
  cases hdelays : d.delays x with
  | true => exact if_pos hdelays
  | false => exact if_neg (by rw [← Dev.delays, hdelays]; decide)

/-- A run whose children have arrived. -/
def CollOp.gone (o : CollOp) : CollOp := { o with presentSent := true }

omit hx in
theorem Dev.barrier_group (hx : d.barrier slot = some x) : d.group slot = some x.g := (Dev.collRun_iff.mp (Dev.barrier_iff.mp hx).1).2.1

/-- A node that is not the root sends ARRIVE to its parent. -/
theorem Dev.barrierStep_up (hfirst : x.o.presentSent = false) (hall : x.gathered d.self = true) {p : Nat}
    (hparent : x.g.parent d.self = some p) : d.BarrierTo slot x.o.ring x.o.count x.g.claim (d.barrierStep slot) ∧
      (d.barrierStep slot).group slot = some { x.g with op := some x.o.gone } ∧
      (d.barrierStep slot).out = .message .arrive p [x.g.gid, x.g.seq.toNat] :: d.out := by
  have hpays := (d.setColl slot (some x.o.gone)).paysFor_barrierMessage x .arrive p [x.g.gid, x.g.seq.toNat]
  rw [Dev.barrierStep_arrives hx hfirst hall hparent]
  refine ⟨(d.barrierTo_setColl ..).trans hpays.barrierTo, (hpays.group slot).trans (Dev.group_setColl_same (Dev.barrier_group hx) _), ?_⟩
  rw [Dev.out_barrierMessage, Dev.setColl_out]

/-- The root fixes the release tick and tells its children. -/
theorem Dev.barrierStep_root (hfirst : x.o.presentSent = false) (hall : x.gathered d.self = true)
    (hroot : x.g.parent d.self = none) : d.BarrierTo slot x.o.ring x.o.count x.g.claim (d.barrierStep slot) ∧
      (d.barrierStep slot).group slot = some { x.g with op := some (x.o.gone.released (!d.delays x) (d.rootTick x)) } ∧
      ∀ c ∈ x.g.children d.self,
        .message .release c [x.g.gid, x.g.seq.toNat, b2n (!d.delays x), d.rootValue x] ∈ (d.barrierStep slot).out := by
  have hx' := Dev.barrier_setColl hx (o := x.o.gone) rfl rfl
  obtain ⟨f, hpays, htold, hstep⟩ := Dev.sendRelease_setRelease hx' (!d.delays x) (d.rootValue x) false (!d.delays x) (d.rootTick x)
  have hself : (d.setColl slot (some x.o.gone)).self = d.self := by rw [Dev.setColl_frame]; rfl
  rw [Dev.sendRelease_withOp (by rfl) (by rfl)] at hstep
  rw [hself] at htold
  have heq := (Dev.barrierStep_releases hx hfirst hall hroot).trans hstep
  rw [heq]
  refine ⟨((d.barrierTo_setColl ..).trans (hpays.barrierTo (n := slot))).trans
    ((Dev.barrierTo_setColl ..).trans (Dev.barrierTo_oddRelease ..)), ?_, fun c hc => ?_⟩
  · exact (Dev.group_congr (Dev.oddRelease_coll ..) slot).trans
      (Dev.group_setColl_same ((hpays.group slot).trans (Dev.barrier_group hx')) _)
  · rw [Dev.oddRelease_out, Dev.setColl_out]
    exact htold c hc

end Step

/-! ## The commands -/

section Commands
variable {s : State} {gid seq : BitVec 16} {src : BitVec 20}

theorem ends_barrierArriveReceive_unknown (h : s.dev.slotOf gid.toNat = none) :
    Ends (.barrierArriveReceive gid seq src) s (fun t => t = { s with dev := s.dev.countColl 0x58 1 }) := by
  refine ⟨_, ?_, rfl⟩
  show execBarrierArriveReceive gid seq src s = _
  unfold execBarrierArriveReceive
  dsimp only
  rw [h]
  rfl

theorem ends_barrierReleaseReceive_unknown (h : s.dev.slotOf gid.toNat = none) (p : Fin 48) (sch : Bool) (v : Word) :
    Ends (.barrierReleaseReceive p gid seq src sch v) s (fun t => t = { s with dev := s.dev.countColl 0x58 1 }) := by
  refine ⟨_, ?_, rfl⟩
  show execBarrierReleaseReceive p gid seq src sch v s = _
  unfold execBarrierReleaseReceive
  dsimp only
  rw [h]
  rfl

/-- A child's arrivals with one more. -/
def arrivals (l : List Nat) (p : Nat) : List Nat := if l.contains p then l else l ++ [p]

theorem mem_arrivals {l : List Nat} {p y : Nat} : y ∈ arrivals l p ↔ y = p ∨ y ∈ l := by
  unfold arrivals
  by_cases h : l.contains p = true
  · rw [if_pos h]
    exact ⟨.inr, fun hy => hy.elim (fun hp => by rw [hp]; simpa using h) id⟩
  · rw [if_neg h, List.mem_append, List.mem_singleton]
    exact or_comm

theorem Group.seqAge_next (g : Group) : g.seqAge (g.seq + 1) = 1 := by
  unfold Group.seqAge
  have hne : g.seq + 1 ≠ g.seq := by bv_omega
  rw [if_neg hne, if_pos rfl]

theorem ends_barrierArriveReceive_next {slot : Nat} {g : Group} (hslot : s.dev.slotOf gid.toNat = some (slot, g))
    (hchild : (g.children s.dev.self).contains src.toNat = true) : Ends (.barrierArriveReceive gid (g.seq + 1) src) s (fun t =>
      t = { s with dev := s.dev.setGroup slot { g with arriveNext := arrivals g.arriveNext src.toNat } }) := by
  refine ⟨_, ?_, rfl⟩
  show execBarrierArriveReceive gid (g.seq + 1) src s = _
  unfold execBarrierArriveReceive
  simp only [hslot, hchild, g.seqAge_next]
  rfl

/-- A running barrier that a child's ARRIVE has met. -/
def CollOp.arrive (o : CollOp) (p : Nat) (now : Tick) : CollOp := { o with arrived := arrivals o.arrived p, heard := now }

variable {x : CollRun} (hslot : s.dev.slotOf gid.toNat = some (x.slot, x.g)) (hx : s.dev.barrier x.slot = some x)
include hslot hx

theorem ends_barrierArriveReceive_now (hchild : (x.g.children s.dev.self).contains src.toNat = true) :
    Ends (.barrierArriveReceive gid x.g.seq src) s (fun t =>
      t = { s with dev := (s.dev.setColl x.slot (some (x.o.arrive src.toNat s.dev.phys))).barrierStep x.slot }) := by
  have hage : x.g.seqAge x.g.seq = 0 := if_pos rfl
  refine ⟨_, ?_, rfl⟩
  show execBarrierArriveReceive gid x.g.seq src s = _
  unfold execBarrierArriveReceive
  simp only [hslot, hchild, hage, hx]
  rfl

/-- How a RELEASE reads: late, what goes on to the children, and this member's tick (R343, R344). -/
def Dev.releaseLate (d : Dev) (p : Nat) (sch : Bool) (v : Word) : Bool :=
  if sch then decide (0 < (d.now - v).toNat) && decide ((d.now - v).toNat < 2 ^ 63) else decide (v.toNat < (d.port p).delay.toNat)
def Dev.releaseLeft (d : Dev) (p : Nat) (sch : Bool) (v : Word) : Nat := if sch then v.toNat else v.toNat - (d.port p).delay.toNat
def Dev.releaseTick (d : Dev) (p : Nat) (sch : Bool) (v : Word) : Tick :=
  if sch then (if d.releaseLate p sch v then d.now else v) else d.phys + BitVec.ofNat 64 (d.releaseLeft p sch v)

theorem ends_barrierReleaseReceive_now (hparent : x.g.parent s.dev.self = some src.toNat) (p : Fin 48) (sch : Bool) (v : Word) :
    Ends (.barrierReleaseReceive p gid x.g.seq src sch v) s (fun t => t = { s with
      dev := ((s.dev.setColl x.slot (some { x.o with heard := s.dev.phys })).sendRelease x sch (s.dev.releaseLeft p.val sch v)).setRelease x.slot
        (s.dev.releaseLate p.val sch v) sch (s.dev.releaseTick p.val sch v) }) := by
  have hage : x.g.seqAge x.g.seq = 0 := if_pos rfl
  have hframe := s.dev.setColl_frame x.slot (some { x.o with heard := s.dev.phys })
  refine ⟨_, ?_, rfl⟩
  show execBarrierReleaseReceive p gid x.g.seq src sch v s = _
  unfold execBarrierReleaseReceive
  simp only [hslot, hparent, hage, hx, ne_eq, not_true_eq_false, if_false]
  generalize s.dev.setColl x.slot (some { x.o with heard := s.dev.phys }) = e at hframe ⊢
  have hnow : e.now = s.dev.now := by rw [hframe]
  have hphys : e.phys = s.dev.phys := by rw [hframe]; rfl
  have hport : e.port p.val = s.dev.port p.val := by rw [hframe]; rfl
  rw [hnow, hphys, hport]
  cases sch <;> rfl

end Commands

/-! ## The release tick (R344, R345) -/

section Tick
variable {s : State} {slot : Fin 64} {x : CollRun}

theorem ends_barrierReleaseTick (hx : s.dev.barrier slot.val = some x) (hdue : s.dev.releaseDue x.o = true) :
    Ends (.barrierReleaseTick slot) s (fun t => t = { s with
      dev := ((s.dev.setColl slot.val none).oddRelease 0x78 (x.o.scheduled && s.dev.time.align != .locked)).endOp x.o.ring x.e x.e.res }) := by
  refine ⟨_, ?_, rfl⟩
  show execBarrierReleaseTick slot s = _
  unfold execBarrierReleaseTick
  simp only [hx, hdue, if_true]
  rfl

/-- What a release tick leaves of the part, besides the op's ring and its claim. -/
theorem Dev.endOp_frame (d : Dev) (r : Nat) (e : Entry) (res : Result) : d.endOp r e res =
    { d with rings := (d.endOp r e res).rings, claims := (d.endOp r e res).claims, turns := (d.endOp r e res).turns } := by
  apply Dev.ext <;> simp

theorem Dev.oddRelease_time (d : Dev) (off : Nat) (odd : Bool) : if odd = true then
    (d.oddRelease off odd).time = { d.time with cnt := (d.oddRelease off odd).time.cnt, spreadLost := true } ∧
      Tbl.lookD (d.oddRelease off odd).time.cnt off 0 = Tbl.lookD d.time.cnt off 0 + 1
    else (d.oddRelease off odd).time = d.time := by
  cases odd with
  | false => rfl
  | true => exact ⟨rfl, lookD_bump_same ..⟩

end Tick

/-! ## The obligation -/

section Obligation
variable {s : State} {x : CollRun}

/-- The frame of a barrier's command, and what its op and claim pay. -/
def BarrierFrame (x : CollRun) (s t : State) : Prop :=
  (t = { s with dev := { s.dev with
    rings := t.dev.rings, claims := t.dev.claims, draws := t.dev.draws, out := t.dev.out
    coll := { s.dev.coll with groups := t.dev.coll.groups }
    time := { s.dev.time with cnt := t.dev.time.cnt, spreadLost := t.dev.time.spreadLost } } }) ∧
  (∀ j, j ≠ x.slot → t.dev.group j = s.dev.group j) ∧
  (OnlyRing x.o.ring s t ∧ (∀ c, c ≠ x.g.claim → t.dev.claim c = s.dev.claim c) ∧
    ∃ fabric, x.e.res.fabric ≤ fabric ∧ t.dev.entry x.o.ring x.o.count = some { x.e with res := { x.e.res with fabric := fabric } } ∧
      (s.dev.out.length < t.dev.out.length → x.e.res.fabric < fabric))

theorem barrierFrame_of_barrierTo (hx : s.dev.barrier x.slot = some x) {e : Dev}
    (h : s.dev.BarrierTo x.slot x.o.ring x.o.count x.g.claim e) : BarrierFrame x s { s with dev := e } :=
  ⟨State.ext h.frame rfl rfl, h.others, h.rings, h.claims, h.entry _ (Dev.collRun_iff.mp (Dev.barrier_iff.mp hx).1).2.2.2.1⟩

/-- A child's ARRIVE on the running barrier. -/
theorem arrive_spec (hx : s.dev.barrier x.slot = some x) (hfirst : x.o.presentSent = false) (hnone : x.o.release = none) (p : Nat) :
    let t : State := { s with dev := (s.dev.setColl x.slot (some (x.o.arrive p s.dev.phys))).barrierStep x.slot }
    BarrierFrame x s t ∧ ∃ o, t.dev.group x.slot = some { x.g with op := some o } ∧ o.arrived = arrivals x.o.arrived p ∧
      if ∀ y ∈ x.g.children s.dev.self, y ∈ o.arrived then o.presentSent = true ∧ (match x.g.parent s.dev.self with
          | some q => o.release = none ∧ t.dev.out = .message .arrive q [x.g.gid, x.g.seq.toNat] :: s.dev.out
          | none => o.release.isSome = true ∧
              ∀ c ∈ x.g.children s.dev.self, ∃ b v, .message .release c [x.g.gid, x.g.seq.toNat, b, v] ∈ t.dev.out)
      else o.presentSent = false ∧ o.release = none ∧ t.dev.out = s.dev.out := by
  have hx' := Dev.barrier_setColl hx (o := x.o.arrive p s.dev.phys) rfl rfl
  have hbase := s.dev.barrierTo_setColl x.slot x.o.ring x.g.claim x.o.count (some (x.o.arrive p s.dev.phys))
  have hself : (s.dev.setColl x.slot (some (x.o.arrive p s.dev.phys))).self = s.dev.self := by rw [Dev.setColl_frame]; rfl
  have hout := s.dev.setColl_out x.slot (some (x.o.arrive p s.dev.phys))
  generalize s.dev.setColl x.slot (some (x.o.arrive p s.dev.phys)) = d at hx' hbase hself hout
  have hall : (x.withOp (x.o.arrive p s.dev.phys)).gathered d.self = true ↔
      ∀ y ∈ x.g.children s.dev.self, y ∈ arrivals x.o.arrived p := by
    rw [hself]
    unfold CollRun.gathered
    simp only [List.all_eq_true, List.contains_iff_mem]
    rfl
  by_cases hready : ∀ y ∈ x.g.children s.dev.self, y ∈ arrivals x.o.arrived p
  · cases hparent : x.g.parent s.dev.self with
    | some q =>
      obtain ⟨hto, hgroup, hsent⟩ := Dev.barrierStep_up hx' hfirst (hall.mpr hready) (p := q) (by rw [hself]; exact hparent)
      refine ⟨barrierFrame_of_barrierTo hx (hbase.trans hto), _, hgroup, rfl, ?_⟩
      rw [hout] at hsent
      exact (if_pos hready).mpr ⟨rfl, hnone, hsent⟩
    | none =>
      obtain ⟨hto, hgroup, htold⟩ := Dev.barrierStep_root hx' hfirst (hall.mpr hready) (by rw [hself]; exact hparent)
      rw [hself] at htold
      refine ⟨barrierFrame_of_barrierTo hx (hbase.trans hto), _, hgroup, rfl, ?_⟩
      exact (if_pos hready).mpr ⟨rfl, rfl, fun c hc => ⟨_, _, htold c hc⟩⟩
  · have hwaits : (x.withOp (x.o.arrive p s.dev.phys)).gathered d.self = false := by simpa using hall.not.mpr hready
    rw [Dev.barrierStep_waits hx' hwaits]
    refine ⟨barrierFrame_of_barrierTo hx hbase, _, Dev.barrier_group hx', rfl, ?_⟩
    exact (if_neg hready).mpr ⟨hfirst, hnone, hout⟩

/-- A RELEASE from the parent on the running barrier. -/
theorem release_spec (hx : s.dev.barrier x.slot = some x) (sch : Bool) (left : Nat) (late : Bool) (tick : Tick) :
    let t : State := { s with
      dev := ((s.dev.setColl x.slot (some { x.o with heard := s.dev.phys })).sendRelease x sch left).setRelease x.slot late sch tick }
    BarrierFrame x s t ∧
      t.dev.group x.slot = some { x.g with op := some { x.o with heard := s.dev.phys, release := some tick, scheduled := sch } } ∧
      (∀ c ∈ x.g.children s.dev.self, .message .release c [x.g.gid, x.g.seq.toNat, b2n sch, left] ∈ t.dev.out) ∧
      (late = true → t.dev.time.spreadLost = true ∧ Tbl.lookD t.dev.time.cnt 0x70 0 = Tbl.lookD s.dev.time.cnt 0x70 0 + 1) ∧
      (late = false → t.dev.time = s.dev.time) := by
  have hx' := Dev.barrier_setColl hx (o := { x.o with heard := s.dev.phys }) rfl rfl
  have hbase := s.dev.barrierTo_setColl x.slot x.o.ring x.g.claim x.o.count (some { x.o with heard := s.dev.phys })
  have hself : (s.dev.setColl x.slot (some { x.o with heard := s.dev.phys })).self = s.dev.self := by rw [Dev.setColl_frame]; rfl
  have htime := s.dev.setColl_time x.slot (some { x.o with heard := s.dev.phys })
  generalize s.dev.setColl x.slot (some { x.o with heard := s.dev.phys }) = d at hx' hbase hself htime
  obtain ⟨f, hpays, htold, hstep⟩ := Dev.sendRelease_setRelease hx' sch left late sch tick
  rw [Dev.sendRelease_withOp (by rfl) (by rfl)] at hstep
  rw [hself] at htold
  have hodd := (f.setColl x.slot (some (({ x.o with heard := s.dev.phys } : CollOp).released sch tick))).oddRelease_time 0x70 late
  rw [Dev.setColl_time, hpays.time, htime] at hodd
  dsimp only
  rw [hstep]
  refine ⟨barrierFrame_of_barrierTo hx (hbase.trans (hpays.barrierTo.trans ((Dev.barrierTo_setColl ..).trans (Dev.barrierTo_oddRelease ..)))),
    (Dev.group_congr (Dev.oddRelease_coll ..) _).trans (Dev.group_setColl_same ((hpays.group _).trans (Dev.barrier_group hx')) _),
    fun c hc => ?_, fun hlate => ?_, fun hearly => ?_⟩
  · rw [Dev.oddRelease_out, Dev.setColl_out]
    exact htold c hc
  · rw [if_pos hlate] at hodd
    exact ⟨(congrArg TimeBlk.spreadLost hodd.1).trans rfl, hodd.2⟩
  · rwa [if_neg (by rw [hearly]; decide)] at hodd

/-- The release tick has come. -/
theorem tick_spec {slot : Nat} (hx : s.dev.barrier slot = some x) :
    let t : State := { s with
      dev := ((s.dev.setColl slot none).oddRelease 0x78 (x.o.scheduled && s.dev.time.align != .locked)).endOp x.o.ring x.e x.e.res }
    t = { s with dev := { s.dev with rings := t.dev.rings, claims := t.dev.claims, turns := t.dev.turns
                                     coll := { s.dev.coll with groups := t.dev.coll.groups }, time := t.dev.time } } ∧
    (if x.o.scheduled = true ∧ s.dev.time.align ≠ .locked then
      t.dev.time = { s.dev.time with cnt := t.dev.time.cnt, spreadLost := true } ∧
        Tbl.lookD t.dev.time.cnt 0x78 0 = Tbl.lookD s.dev.time.cnt 0x78 0 + 1
    else t.dev.time = s.dev.time) ∧
    (∃ e', t.dev.entry x.o.ring x.o.count = some e' ∧ e'.phase = .done ∧ e'.res = x.e.res) ∧
    t.dev.group slot = some { x.g with op := none } ∧ ∀ j, j ≠ slot → t.dev.group j = s.dev.group j := by
  obtain ⟨-, hgroup, -, hentry, hst⟩ := Dev.collRun_iff.mp (Dev.barrier_iff.mp hx).1
  have hcount := Dev.entry_count hentry
  have hset := s.dev.setColl_frame slot none
  have hgroup' := Dev.group_setColl_same hgroup none
  have hothers := fun j (hj : j ≠ slot) => s.dev.group_setColl_other (slot := slot) none hj
  have hentry' := (s.dev.entry_setColl slot none x.o.ring x.o.count).trans hentry
  have hodd := (s.dev.setColl slot none).oddRelease_time 0x78 (x.o.scheduled && s.dev.time.align != .locked)
  have hcond : (x.o.scheduled && s.dev.time.align != .locked) = true ↔ x.o.scheduled = true ∧ s.dev.time.align ≠ .locked := by simp
  generalize s.dev.setColl slot none = d at *
  generalize (x.o.scheduled && s.dev.time.align != .locked) = odd at *
  have hodd_frame : d.oddRelease 0x78 odd = { d with time := (d.oddRelease 0x78 odd).time } := by cases odd <;> rfl
  rw [show d.time = s.dev.time by rw [hset]] at hodd
  generalize d.oddRelease 0x78 odd = e at *
  have hentry_e : e.entry x.o.ring x.e.count = some x.e := by rw [hodd_frame, hcount]; exact hentry'
  obtain ⟨b, hdone⟩ := Dev.entry_endOp_engine hentry_e hst x.e.res
  rw [hcount] at hdone
  have hend := e.endOp_frame x.o.ring x.e x.e.res
  have hgroup_e (j : Nat) : (e.endOp x.o.ring x.e x.e.res).group j = d.group j := by rw [hend, hodd_frame]; rfl
  have htime_e : (e.endOp x.o.ring x.e x.e.res).time = e.time := by rw [hend]
  have hodd' : if x.o.scheduled = true ∧ s.dev.time.align ≠ .locked then
      e.time = { s.dev.time with cnt := e.time.cnt, spreadLost := true } ∧
        Tbl.lookD e.time.cnt 0x78 0 = Tbl.lookD s.dev.time.cnt 0x78 0 + 1
      else e.time = s.dev.time := by
    by_cases h : x.o.scheduled = true ∧ s.dev.time.align ≠ .locked
    · rw [if_pos h]
      rwa [if_pos (hcond.mpr h)] at hodd
    · rw [if_neg h]
      rwa [if_neg (hcond.not.mpr h)] at hodd
  refine ⟨State.ext ?_ rfl rfl, ?_, ⟨_, hdone, rfl, rfl⟩, (hgroup_e slot).trans hgroup', fun j hj => (hgroup_e j).trans (hothers j hj)⟩
  · dsimp only
    rw [hend, hodd_frame, hset]
  · dsimp only
    rw [htime_e]
    exact hodd'

end Obligation

section Lateness
variable (d : Dev) (p : Nat) (sch : Bool) (v : Word)

theorem Dev.releaseLate_iff : d.releaseLate p sch v = true ↔
    if sch then 0 < (d.now - v).toNat ∧ (d.now - v).toNat < 2 ^ 63 else v.toNat < (d.port p).delay.toNat := by
  unfold Dev.releaseLate
  cases sch with
  | false => exact decide_eq_true_iff
  | true => simp only [if_true, Bool.and_eq_true, decide_eq_true_eq]

theorem Dev.releaseTick_eq {late : Prop} [Decidable late] (h : d.releaseLate p sch v = true ↔ late) : d.releaseTick p sch v =
    if sch then (if late then d.now else v) else d.phys + BitVec.ofNat 64 (d.releaseLeft p sch v) := by
  unfold Dev.releaseTick
  simp only [h]

end Lateness

/-- Settles O47, by what a step of the running barrier changes. -/
theorem barriersGatherAndReleaseTheirMembers : Obligations.BarriersGatherAndReleaseTheirMembers := by
  unfold Obligations.BarriersGatherAndReleaseTheirMembers
  intro s gid seq src d frame pays
  refine ⟨fun h => ⟨ends_barrierArriveReceive_unknown h, ends_barrierReleaseReceive_unknown h⟩, ?_, ?_, ?_⟩
  · rintro slot g hslot hchild rfl
    exact ends_barrierArriveReceive_next hslot hchild
  · rintro x hslot hx rfl others
    refine ⟨fun hfirst hnone hchild => ?_, fun p sch v hparent => ?_⟩
    · obtain ⟨⟨hframe, hothers, hpays⟩, o, hgroup, harrived, hthen⟩ := arrive_spec hx hfirst hnone src.toNat
      refine (ends_barrierArriveReceive_now hslot hx hchild).of_eq ⟨hframe, hothers, hpays, o, hgroup, ?_, ?_, ?_, hthen⟩
      · exact harrived ▸ mem_arrivals.mpr (.inl rfl)
      · exact fun y hy => harrived ▸ mem_arrivals.mpr (.inr hy)
      · exact fun y hy => mem_arrivals.mp (harrived ▸ hy)
    · have hlate := s.dev.releaseLate_iff p.val sch v
      obtain ⟨⟨hframe, hothers, hpays⟩, hgroup, htold, hodd, heven⟩ := release_spec hx sch (s.dev.releaseLeft p.val sch v)
        (s.dev.releaseLate p.val sch v) (s.dev.releaseTick p.val sch v)
      have htick := s.dev.releaseTick_eq p.val sch v hlate
      exact (ends_barrierReleaseReceive_now hslot hx hparent p sch v).of_eq ⟨hframe, hothers, hpays, hgroup.trans (by rw [htick]; rfl), htold,
        fun h => hodd (hlate.mpr h), fun h => heven (by simpa using hlate.not.mpr h)⟩
  · intro slot x tick hx hrelease hreached
    have hdue : s.dev.releaseDue x.o = true := by
      unfold Dev.releaseDue
      rw [hrelease]
      exact hreached
    exact (ends_barrierReleaseTick hx hdue).of_eq (tick_spec hx)

end Sys2Proof.Machine

/-! A present marker that ends its op (R323, R325, R330). -/
namespace Sys2Proof.Machine

/-! ## A reduce-scatter whose COUNT its members do not divide

R325 lets no such op start, but O44 leaves the running op free. The run of elements past the last member's slice then belongs to no member,
so that the root can address it to nobody, and the op fails under the present marker that completes its segment. -/

/-- The members 0 and 1 of row 0 on slot 0, for claim 0. -/
def pairGroup : Group :=
  { entry := BitVec.ofNat 128 (9 + 2 ^ 31 + 2 ^ 64 + 3 * 2 ^ 80), seq := 5, op := none, abortNext := false, windowNext := [], arriveNext := [] }

/-- A COLL_REDUCE_SCATTER of three binary32 elements with no contribution of this node (Table 14.3). -/
def oddScatter : Entry :=
  { Entry.fresh 0 (BitVec.ofNat 512 (0x51 + 3 * 2 ^ (8 * 32) + 4 * 2 ^ (8 * 37) + 6 * 2 ^ (8 * 38) + 6 * 2 ^ (8 * 39))) with
    phase := .started, taken := true }

/-- The op on its slot, its one segment admitted. -/
def oddScatterOp : CollOp := { CollOp.fresh 0 0 1 0 0 with admitted := true }

def oddScatterRun : CollRun := ⟨0, { pairGroup with op := some oddScatterOp }, oddScatterOp, oddScatter⟩

/-- The root of the pair, whose table names member 1. -/
def oddScatterState : State :=
  { dev := { Dev.reset with
      blocks := [(blockKey .coll, { Block.reset with st := .running })]
      rings := [(0, { Ring.reset with ents := [oddScatter] })]
      coll := { Dev.reset.coll with groups := [(0, { pairGroup with op := some oddScatterOp })] }
      routing := { Dev.reset.routing with l2p := [(1, 0x80000001)] } }
    mem := [], pending := [] }

/-- Member 1's present marker for the op. -/
def memberPresent : Packet :=
  { Dev.reset with routing := { Dev.reset.routing with phys := 1, log := 1 } }.packet (.bound 2 3 1 0 0)
    ([4, 0] ++ toLe 2 9 ++ toLe 2 5 ++ [0, 0x66] ++ toLe 4 3 ++ List.replicate 20 0)

/-- The gate lets the packet through to a run. -/
def CollGate.runs : CollGate → Option CollRun
  | .now x => some x
  | _ => none

theorem CollGate.runs_eq_some {gate : CollGate} {x : CollRun} (h : gate.runs = some x) : gate = .now x := by
  cases gate <;> simp_all [CollGate.runs]

theorem collGate_memberPresent : oddScatterState.dev.collGate memberPresent = .now oddScatterRun :=
  CollGate.runs_eq_some (by decide +kernel)

/-- The abort mark of a command's next state. -/
def abortMark (c : Instr) (s : State) : Option W32 :=
  match exec c s with
  | .next t => some t.dev.coll.lastAbort
  | _ => none

theorem abortMark_of_next {c : Instr} {s t : State} (h : exec c s = .next t) : abortMark c s = some t.dev.coll.lastAbort := by
  simp [abortMark, h]

/-- The marker ends the op with cause 6: the root names no owner of the third element. -/
theorem abortMark_memberPresent : abortMark (.collPresentReceive memberPresent) oddScatterState = some 0x06000005 := by decide +kernel

/-- Refutes O44: its present clause asks that an arriving marker leave the abort mark alone; where the members do not divide the COUNT of a
reduce-scatter, the marker that completes the segment has the root fail for want of an owner. -/
theorem not_collectivePacketsLandAndAbortsEnd : ¬ Obligations.CollectivePacketsLandAndAbortsEnd := by
  intro h
  obtain ⟨-, -, -, -, hnow, -⟩ := h oddScatterState memberPresent
  have hnamed : ∀ q ∈ oddScatterRun.g.children oddScatterState.dev.self ++ (oddScatterRun.g.parent oddScatterState.dev.self).toList ++
      (List.range oddScatterRun.g.members).map oddScatterRun.g.at, oddScatterState.dev.named q = true := by decide +kernel
  have hheld : ∀ q ∈ oddScatterRun.o.held, (oddScatterState.dev.addressed q).isSome = true := by decide +kernel
  obtain ⟨-, -, -, hpresent, -⟩ := hnow oddScatterRun collGate_memberPresent (by decide +kernel) hheld hnamed
  obtain ⟨t, hexec, hframe, -⟩ := hpresent (by decide +kernel)
  have hkept := congrArg (fun u : State => u.dev.coll.lastAbort) hframe
  have hmark := (abortMark_of_next hexec).symm.trans abortMark_memberPresent
  rw [show t.dev.coll.lastAbort = oddScatterState.dev.coll.lastAbort from hkept] at hmark
  exact absurd hmark (by decide +kernel)

end Sys2Proof.Machine

/-! A collective op whose members are named, and which ends at its first packet (R267, R330). -/
namespace Sys2Proof.Machine

/-! ## A member that the table names out of reach of a header

The table has 2^20 entries (R267), but no state bounds the index of one. `Dev.named` looks a member up under the index that `Dev.logOf`
finds, whatever its size; the DEST_LOG field of a packet has 20 bits (Table 12.3), so that an index past them is cut, and the packet to that
member finds no entry. -/

/-- A COLL_ALLGATHER of four binary32 elements from device address 0 to 131,072 (Table 14.3). -/
def unreachedGather : Entry :=
  { Entry.fresh 0 (BitVec.ofNat 512
      (0x52 + 131072 * 2 ^ (8 * 24) + 4 * 2 ^ (8 * 32) + 6 * 2 ^ (8 * 38) + 6 * 2 ^ (8 * 39))) with
    phase := .started, taken := true }

/-- The root of the pair, with an ACTIVE tag, a balance at the COLL meter, its DST near, and member 1 at index 2^20 + 1 of the table. -/
def unreachedState : State :=
  { dev := { Dev.reset with
      blocks := [(blockKey .coll, { Block.reset with st := .running })]
      claims := [(0, { Claim.reset with meters := [(48, { MeterSt.reset with bal := 1 })] })]
      rings := [(0, { Ring.reset with ents := [unreachedGather] })]
      objects := [(1, { base := 0, len := 1048576, flat := true, slotFmt := 0, claim := 0, placement := 0, reroute := false,
                        codeDeep := false, zero := true, dies := 1, deepOff := [0, 0, 0, 0], st := .ready, near := [(0, 16)],
                        lostUnits := [], lostDies := 0, dyingSeq := 0, readySeq := 0, moves := [], held := [], placing := none,
                        doomed := false })]
      coll := { Dev.reset.coll with groups := [(0, pairGroup)] }
      time := { Dev.reset.time with tags := [(1, { st := .active, claim := 0, attempt := 0, gid := 9, go := none, since := 0, seen := 0 })] }
      routing := { Dev.reset.routing with l2p := [(2 ^ 20 + 1, 0x80000001)] } }
    mem := [], pending := [] }

/-- The tag that a check passes with. -/
def passedTag {ε : Type} : Except ε Nat → Option Nat
  | .ok t => some t
  | .error _ => none

theorem eq_ok_of_passedTag {ε : Type} {x : Except ε Nat} {t : Nat} (h : passedTag x = some t) : x = .ok t := by
  cases x <;> simp_all [passedTag]

theorem collChecks_unreached : unreachedState.dev.collChecks (0 : RingNo).val unreachedGather pairGroup = .ok 1 :=
  eq_ok_of_passedTag (by decide +kernel)

/-- The op's first window finds no entry for its child: it ends with cause 6. -/
theorem abortMark_unreached : abortMark (.collAllgather 0 0) unreachedState = some 0x06000006 := by decide +kernel

/-- Refutes O43: it asks that an op whose members are all named leave the abort mark alone; the root of the pair cannot send the window to
member 1, which the table names past the 20 bits of a logical ID. -/
theorem not_collectiveOpsTakeTheirSlotAndLandInDst : ¬ Obligations.CollectiveOpsTakeTheirSlotAndLandInDst := by
  intro h
  have hop : unreachedState.dev.op (0 : RingNo).val 0 0x52 = some unreachedGather := by decide +kernel
  have hgroup : unreachedState.dev.collGroup (0 : RingNo).val unreachedGather = some pairGroup := by decide +kernel
  obtain ⟨-, hrun, -⟩ := h unreachedState 0 0 unreachedGather pairGroup 0x52 (.collAllgather 0 0) (by decide +kernel) hop hgroup rfl
  have hnamed : ∀ q ∈ pairGroup.children unreachedState.dev.self ++ (pairGroup.parent unreachedState.dev.self).toList ++
      (List.range pairGroup.members).map pairGroup.at, unreachedState.dev.named q = true := by decide +kernel
  obtain ⟨⟨t, hexec, -, hframe, -⟩, -⟩ := hrun (by decide) 1 collChecks_unreached rfl (by decide +kernel) hnamed (by decide +kernel)
    (by decide +kernel)
  have hkept := congrArg (fun u : State => u.dev.coll.lastAbort) hframe
  have hmark := (abortMark_of_next hexec).symm.trans abortMark_unreached
  rw [show t.dev.coll.lastAbort = unreachedState.dev.coll.lastAbort from hkept] at hmark
  exact absurd hmark (by decide +kernel)

end Sys2Proof.Machine
